-- ==== Sys2Proof/Word.lean ====
section
/-! DEFINITION. The word types of the module's registers, bytes and lanes, and the plainest arithmetic on them. -/

namespace Sys2Proof

/-- A register or scalar word (R58, R15). -/
abbrev Word := BitVec 64

/-- A byte of a memory (R15). -/
abbrev Byte := BitVec 8

/-- A vector lane, an FP32 pattern or an accumulator element (R177, R138). -/
abbrev Lane := BitVec 32

/-- The larger of 0 and the difference: the number of units still missing. -/
def missing (need have_ : Nat) : Nat := need - have_

/-- The quotient rounded up; 0 for a zero divisor. -/
def ceilDiv (a b : Nat) : Nat := if b = 0 then 0 else (a + b - 1) / b

/-- `a` rounded up to a multiple of `b`. -/
def roundUp (a b : Nat) : Nat := ceilDiv a b * b

end Sys2Proof
end

