-- ==== Sys2Proof/Config.lean ====
section
/-! DEFINITION. What an implementation fixes and the spec leaves open: the free values (opaque, no body) and the
constants of the part the model's State.reset describes. -/

namespace Sys2Proof.Config

/-- A byte the spec leaves undefined, by the counter of free values: the content of a granule whose write was lost
(R283) and what an undefined region output holds (R428, R583, R597).  DESIGN CHOICE, notes/assumptions/6.md. -/
opaque freeByte : Nat → Byte

/-- The bytes of an SLH-DSA signature or key the spec names but does not compute (R618, R619).
DESIGN CHOICE, notes/assumptions/7.md. -/
opaque sigByte : Nat → Nat → Byte

/-- The rounding of a transcendental of R195 whose enclosure does not decide it: function and input bits to FP32 bits.
DESIGN CHOICE, notes/assumptions/8.md. -/
opaque tabHard : Nat → BitVec 32 → BitVec 32

/-- The token of a row for which the rule leaves none, by all it may depend on: the request's settings and seed, the position, and the
candidates with their penalised logits (R456, R492).  DESIGN CHOICE, notes/assumptions/8.md. -/
opaque noToken : List Nat → BitVec 32

/-- The choice among free places the spec leaves open: the pages, accession entries and catalogue places an engine takes
(R481, R483, R487), by the list of those free.  DESIGN CHOICE, notes/assumptions/22.md. -/
opaque pick : List Nat → Nat

/-- The stepping of the part at reset, encoded as MIN_STEPPING (R21): A0.  DESIGN CHOICE, notes/assumptions/3.md. -/
def stepping : Nat := 0x00

/-- The bank, within its bank group, that holds a GDDR7 granule, by the granule's address: the spec gives the bank group alone (R274,
R278).  DESIGN CHOICE, notes/assumptions/61.md. -/
opaque bankIn : Nat → BitVec 2

/-- The settings of one format as firmware of another format writes them: the formats and the settings (R612).  DESIGN CHOICE,
notes/assumptions/28.md. -/
opaque convertSettings : Nat → Nat → List Byte → List Byte

/-- The 64-bit serial number Milug's IDENT returns (R644).  DESIGN CHOICE, notes/assumptions/3.md. -/
opaque serial : BitVec 64

end Sys2Proof.Config
end

