-- ==== Sys2Proof/Machine/Regs.lean ====
section
/-! DEFINITION. The registers of the spec's register tables: one constructor of `RegKind` for each named register
(an indexed family is one constructor), and one named `Fld` for each field with its bits, its access code (R16) and the
value its Reset column gives (R17).  Reserved bits (R18) are the bits no `Fld` names. -/

namespace Sys2Proof.Machine

/-- R16: the access codes of a register field. -/
inductive Access where
  | ro | rw | wo | w1c | rws
  deriving DecidableEq, Repr

/-- R17: what the Reset column gives: a value, "fuse" or "image". -/
inductive Reset where
  | val (n : Nat) | fuse | image
  deriving DecidableEq, Repr

/-- The registers the spec names, in the order of its chapters. -/
inductive RegKind where
  | hstHistate -- HST_HISTATE, R48, 32 bits
  | hstHiid -- HST_HIID, R49, 64 bits
  | hstHidigest -- HST_HIDIGESTn, R50, 64 bits
  | hstHierr -- HST_HIERR, R51, 64 bits
  | tilPadctl -- TIL_PADCTL, R90, 32 bits
  | tilState -- TIL_STATE, R91, 64 bits
  | tilDescevt -- TIL_DESCEVT, R92, 64 bits
  | galFetch -- GAL_FETCH, R93, 32 bits
  | tilHndb -- TIL_HNDBn, R104, 64 bits
  | tilHndc -- TIL_HNDCn, R104, 64 bits
  | tilSlotcmd -- TIL_SLOTCMD, R132, 32 bits
  | tilSlotmap -- TIL_SLOTMAPk, R133, 64 bits
  | tilSpcnt -- TIL_SPCNT, R134, 64 bits
  | tilSpfault -- TIL_SPFAULT, R135, 64 bits
  | dieHarvest -- DIE_HARVEST, R136, 32 bits
  | dieXstat -- DIE_XSTAT, R137, 32 bits
  | tilMxctl -- TIL_MXCTL, R173, 32 bits
  | tilMxkrow -- TIL_MXKROW, R174, 64 bits
  | tilMxstat -- TIL_MXSTAT, R175, 64 bits
  | tilMxfault -- TIL_MXFAULT, R176, 64 bits
  | tilVctl -- TIL_VCTL, R209, 32 bits
  | tilVcsel -- TIL_VCSEL, R210, 32 bits
  | tilVcword -- TIL_VCWORD, R211, 64 bits
  | tilVstat -- TIL_VSTAT, R212, 64 bits
  | ptcCount -- PTC_COUNT, R254, 64 bits
  | ptcSched -- PTC_SCHED, R255, 64 bits
  | ptcAdj -- PTC_ADJ, R256, 64 bits
  | ptcState -- PTC_STATE, R257, 32 bits
  | ptcHoldreq -- PTC_HOLDREQ, R258, 32 bits
  | ptcHlogptr -- PTC_HLOGPTR, R259, 32 bits
  | ptcHloga -- PTC_HLOGAn, R260, 64 bits
  | ptcHlogb -- PTC_HLOGBn, R261, 64 bits
  | ptcRuna -- PTC_RUNAn, R262, 64 bits
  | ptcRunb -- PTC_RUNBn, R263, 64 bits
  | tilLate -- TIL_LATE, R264, 64 bits
  | tilQstat -- TIL_QSTAT, R265, 64 bits
  | galQstat -- GAL_QSTAT, R266, 32 bits
  | ptcOccwin -- PTC_OCCWIN, R267, 32 bits
  | ptcOcc -- PTC_OCCn, R268, 64 bits
  | galOcc -- GAL_OCC, R269, 32 bits
  | memCfg -- MEM_CFG, R295, 32 bits
  | memPlan -- MEM_PLAN, R296, 64 bits
  | memRef -- MEM_REFn, R297, 32 bits
  | memStat -- MEM_STATn, R298, 64 bits
  | memErrlog -- MEM_ERRLOG, R299, 64 bits
  | memCal -- MEM_CALn, R300, 32 bits
  | memStepok -- MEM_STEPOK, R301, 32 bits
  | anxCtl -- ANX_CTLp, R302, 32 bits
  | anxStat -- ANX_STATp, R303, 64 bits
  | dmaSrc -- DMA_SRCn, R323, 64 bits
  | dmaDst -- DMA_DSTn, R323, 64 bits
  | dmaLen -- DMA_LENn, R324, 32 bits
  | dmaNext -- DMA_NEXTn, R325, 64 bits
  | dmaCtl -- DMA_CTLn, R326, 32 bits
  | dmaStat -- DMA_STATn, R327, 32 bits
  | dmaErr -- DMA_ERRn, R328, 64 bits
  | hstCmdring -- HST_CMDRING, R352, 64 bits
  | hstCplring -- HST_CPLRING, R352, 64 bits
  | hstEvring -- HST_EVRING, R352, 64 bits
  | hstSbaddr -- HST_SBADDR, R353, 64 bits
  | hstRingstat -- HST_RINGSTAT, R354, 64 bits
  | hstEvstat -- HST_EVSTAT, R355, 32 bits
  | hstIrqmod -- HST_IRQMOD, R356, 32 bits
  | hstFwctl -- HST_FWCTL, R357, 32 bits
  | hstFwbase -- HST_FWBASEk, R358, 64 bits
  | hstFwlim -- HST_FWLIMk, R358, 64 bits
  | lnkCtl -- LNK_CTLp, R389, 32 bits
  | lnkStat -- LNK_STATp, R390, 64 bits
  | lnkErr -- LNK_ERRp, R391, 64 bits
  | lnkBudget -- LNK_BUDGETp, R392, 32 bits
  | lnkPool -- LNK_POOLp, R393, 64 bits
  | fabId -- FAB_ID, R436, 32 bits
  | fabCtl -- FAB_CTL, R437, 32 bits
  | fabEpoch -- FAB_EPOCH, R438, 32 bits
  | fabEpochcmd -- FAB_EPOCHCMD, R439, 32 bits
  | fabDisc -- FAB_DISC, R440, 64 bits
  | fabSyncctl -- FAB_SYNCCTL, R441, 32 bits
  | fabSyncstat -- FAB_SYNCSTAT, R442, 64 bits
  | fabBarctl -- FAB_BARCTL, R443, 32 bits
  | fabLaunch -- FAB_LAUNCH, R444, 64 bits
  | fabLstat -- FAB_LSTAT, R445, 32 bits
  | fabStrag -- FAB_STRAGn, R446, 32 bits
  | ptcRepro -- PTC_REPRO, R459, 32 bits
  | srvCtl -- SRV_CTL, R507, 32 bits
  | srvCap -- SRV_CAP, R508, 32 bits
  | srvWall -- SRV_WALL, R509, 64 bits
  | srvOcc -- SRV_OCC, R510, 64 bits
  | srvPages -- SRV_PAGES, R511, 64 bits
  | srvUtil -- SRV_UTIL, R512, 64 bits
  | srvStat -- SRV_STAT, R513, 64 bits
  | srvAccsel -- SRV_ACCSEL, R514, 32 bits
  | srvAccstate -- SRV_ACCSTATE, R515, 64 bits
  | srvAcclen -- SRV_ACCLEN, R516, 64 bits
  | srvTensel -- SRV_TENSEL, R517, 32 bits
  | srvTenbal -- SRV_TENBAL, R518, 64 bits
  | srvTencfg -- SRV_TENCFG, R519, 32 bits
  | dmaBcctl -- DMA_BCCTL, R541, 32 bits
  | dmaBcstat -- DMA_BCSTAT, R542, 64 bits
  | srvSwap -- SRV_SWAPn, R543, 32 bits
  | mirCtl -- MIR_CTL, R561, 32 bits
  | mirState -- MIR_STATE, R562, 64 bits
  | mirStat -- MIR_STAT, R563, 64 bits
  | clkState -- CLK_STATE, R584, 32 bits
  | clkStepcmd -- CLK_STEPCMD, R585, 32 bits
  | clkDroop -- CLK_DROOP, R586, 64 bits
  | pwrThermctl -- PWR_THERMCTL, R587, 32 bits
  | pwrThermstat -- PWR_THERMSTAT, R588, 64 bits
  | pwrCtl -- PWR_CTL, R589, 64 bits
  | pwrInput -- PWR_INPUT, R590, 64 bits
  | galGate -- GAL_GATE, R591, 32 bits
  | tilBankgate -- TIL_BANKGATE, R592, 32 bits
  | fusCfg -- FUS_CFG, R622, 32 bits
  | fusHarvest -- FUS_HARVEST, R623, 64 bits
  | fusArb -- FUS_ARB, R623, 64 bits
  | fusVkey -- FUS_VKEYsn, R623, 64 bits
  | fusOwnkey -- FUS_OWNKEYn, R623, 64 bits
  | secBootstat -- SEC_BOOTSTAT, R624, 64 bits
  | secFault -- SEC_FAULT, R625, 32 bits
  | secIdpub -- SEC_IDPUBn, R626, 64 bits
  | secPolicy -- SEC_POLICY, R626, 64 bits
  | updCtl -- UPD_CTL, R627, 32 bits
  | updState -- UPD_STATE, R628, 64 bits
  deriving DecidableEq, Repr

/-- A field of a register: its bits `[hi:lo]`, its access code and its reset. -/
structure Fld where
  kind : RegKind
  hi : Nat
  lo : Nat
  acc : Access
  rst : Reset
  deriving DecidableEq, Repr

/-- The number of bits of a field. -/
def Fld.width (f : Fld) : Nat := f.hi + 1 - f.lo

end Sys2Proof.Machine

namespace Sys2Proof.Machine.F
open Sys2Proof.Machine

/-! HST_HISTATE (R48) -/
def hstHistate_last_status : Fld := ⟨.hstHistate, 31, 16, .ro, (.val 0x0000)⟩
def hstHistate_state : Fld := ⟨.hstHistate, 7, 4, .ro, (.val 0x0)⟩
def hstHistate_modified : Fld := ⟨.hstHistate, 3, 3, .ro, (.val 0b0)⟩
def hstHistate_fast : Fld := ⟨.hstHistate, 2, 2, .ro, (.val 0b0)⟩
def hstHistate_expert : Fld := ⟨.hstHistate, 1, 1, .ro, (.val 0b0)⟩
def hstHistate_signed : Fld := ⟨.hstHistate, 0, 0, .ro, (.val 0b0)⟩
/-! HST_HIID (R49) -/
def hstHiid_image_id : Fld := ⟨.hstHiid, 63, 0, .ro, (.val 0x0000000000000000)⟩
/-! HST_HIDIGESTn (R50) -/
def hstHidigest_digest : Fld := ⟨.hstHidigest, 63, 0, .ro, (.val 0x0000000000000000)⟩
/-! HST_HIERR (R51) -/
def hstHierr_status : Fld := ⟨.hstHierr, 63, 48, .ro, (.val 0x0000)⟩
def hstHierr_section : Fld := ⟨.hstHierr, 47, 32, .ro, (.val 0x0000)⟩
def hstHierr_offset : Fld := ⟨.hstHierr, 31, 0, .ro, (.val 0x00000000)⟩
/-! TIL_PADCTL (R90) -/
def tilPadctl_qland : Fld := ⟨.tilPadctl, 31, 28, .rw, .image⟩
def tilPadctl_hop : Fld := ⟨.tilPadctl, 27, 24, .rw, .image⟩
def tilPadctl_mdrain : Fld := ⟨.tilPadctl, 23, 20, .rw, .image⟩
def tilPadctl_mstream : Fld := ⟨.tilPadctl, 19, 16, .rw, .image⟩
def tilPadctl_vstage : Fld := ⟨.tilPadctl, 15, 12, .rw, .image⟩
def tilPadctl_sload : Fld := ⟨.tilPadctl, 11, 8, .rw, .image⟩
def tilPadctl_smul : Fld := ⟨.tilPadctl, 7, 4, .rw, .image⟩
def tilPadctl_salu : Fld := ⟨.tilPadctl, 3, 0, .rw, .image⟩
/-! TIL_STATE (R91) -/
def tilState_invocations : Fld := ⟨.tilState, 63, 32, .ro, (.val 0x00000000)⟩
def tilState_run : Fld := ⟨.tilState, 29, 28, .ro, (.val 0b00)⟩
def tilState_active : Fld := ⟨.tilState, 27, 24, .ro, (.val 0x0)⟩
def tilState_pc : Fld := ⟨.tilState, 23, 0, .ro, (.val 0x000000)⟩
/-! TIL_DESCEVT (R92) -/
def tilDescevt_pc : Fld := ⟨.tilDescevt, 63, 40, .ro, (.val 0x000000)⟩
def tilDescevt_level : Fld := ⟨.tilDescevt, 39, 38, .ro, (.val 0b00)⟩
def tilDescevt_kind : Fld := ⟨.tilDescevt, 37, 37, .ro, (.val 0b0)⟩
def tilDescevt_ag : Fld := ⟨.tilDescevt, 36, 33, .ro, (.val 0x0)⟩
def tilDescevt_sticky : Fld := ⟨.tilDescevt, 32, 32, .w1c, (.val 0b0)⟩
def tilDescevt_count : Fld := ⟨.tilDescevt, 31, 0, .rw, (.val 0x00000000)⟩
/-! GAL_FETCH (R93) -/
def galFetch_state : Fld := ⟨.galFetch, 27, 26, .ro, (.val 0b00)⟩
def galFetch_streamed : Fld := ⟨.galFetch, 25, 25, .ro, (.val 0b0)⟩
def galFetch_ring_fill : Fld := ⟨.galFetch, 24, 20, .ro, (.val 0x00)⟩
def galFetch_next_block : Fld := ⟨.galFetch, 19, 0, .ro, (.val 0x00000)⟩
/-! TIL_HNDBn (R104) -/
def tilHndb_size : Fld := ⟨.tilHndb, 53, 32, .rw, .image⟩
def tilHndb_base : Fld := ⟨.tilHndb, 20, 0, .rw, .image⟩
/-! TIL_HNDCn (R104) -/
def tilHndc_valid : Fld := ⟨.tilHndc, 15, 15, .rw, .image⟩
def tilHndc_rwrite : Fld := ⟨.tilHndc, 9, 9, .rw, .image⟩
def tilHndc_rread : Fld := ⟨.tilHndc, 8, 8, .rw, .image⟩
def tilHndc_hash : Fld := ⟨.tilHndc, 7, 0, .rw, .image⟩
/-! TIL_SLOTCMD (R132) -/
def tilSlotcmd_action : Fld := ⟨.tilSlotcmd, 31, 30, .wo, (.val 0b00)⟩
def tilSlotcmd_last : Fld := ⟨.tilSlotcmd, 27, 16, .wo, (.val 0x000)⟩
def tilSlotcmd_first : Fld := ⟨.tilSlotcmd, 11, 0, .wo, (.val 0x000)⟩
/-! TIL_SLOTMAPk (R133) -/
def tilSlotmap_full : Fld := ⟨.tilSlotmap, 63, 0, .ro, (.val 0x0000000000000000)⟩
/-! TIL_SPCNT (R134) -/
def tilSpcnt_faults : Fld := ⟨.tilSpcnt, 63, 48, .rw, (.val 0x0000)⟩
def tilSpcnt_slotwait : Fld := ⟨.tilSpcnt, 47, 24, .rw, (.val 0x000000)⟩
def tilSpcnt_bankwait : Fld := ⟨.tilSpcnt, 23, 0, .rw, (.val 0x000000)⟩
/-! TIL_SPFAULT (R135) -/
def tilSpfault_kind : Fld := ⟨.tilSpfault, 63, 60, .ro, (.val 0x0)⟩
def tilSpfault_handle : Fld := ⟨.tilSpfault, 59, 54, .ro, (.val 0x00)⟩
def tilSpfault_pc : Fld := ⟨.tilSpfault, 53, 30, .ro, (.val 0x000000)⟩
def tilSpfault_sticky : Fld := ⟨.tilSpfault, 29, 29, .w1c, (.val 0b0)⟩
def tilSpfault_offset : Fld := ⟨.tilSpfault, 20, 0, .ro, (.val 0x000000)⟩
/-! DIE_HARVEST (R136) -/
def dieHarvest_hcol : Fld := ⟨.dieHarvest, 4, 0, .ro, .fuse⟩
/-! DIE_XSTAT (R137) -/
def dieXstat_absent : Fld := ⟨.dieXstat, 7, 4, .ro, .fuse⟩
def dieXstat_trained : Fld := ⟨.dieXstat, 3, 0, .ro, (.val 0x0)⟩
/-! TIL_MXCTL (R173) -/
def tilMxctl_rset : Fld := ⟨.tilMxctl, 14, 14, .rw, (.val 0b0)⟩
def tilMxctl_rrow : Fld := ⟨.tilMxctl, 13, 8, .rw, (.val 0x00)⟩
def tilMxctl_local : Fld := ⟨.tilMxctl, 0, 0, .rw, .image⟩
/-! TIL_MXKROW (R174) -/
def tilMxkrow_poison : Fld := ⟨.tilMxkrow, 46, 46, .ro, (.val 0b0)⟩
def tilMxkrow_started : Fld := ⟨.tilMxkrow, 45, 45, .ro, (.val 0b0)⟩
def tilMxkrow_depth : Fld := ⟨.tilMxkrow, 44, 40, .ro, (.val 0x00)⟩
def tilMxkrow_knext : Fld := ⟨.tilMxkrow, 39, 20, .ro, (.val 0x00000)⟩
def tilMxkrow_kbase : Fld := ⟨.tilMxkrow, 19, 0, .ro, (.val 0x00000)⟩
/-! TIL_MXSTAT (R175) -/
def tilMxstat_wait : Fld := ⟨.tilMxstat, 63, 40, .rw, (.val 0x000000)⟩
def tilMxstat_faults : Fld := ⟨.tilMxstat, 39, 32, .rw, (.val 0x00)⟩
def tilMxstat_w1fmt : Fld := ⟨.tilMxstat, 31, 28, .ro, (.val 0xF)⟩
def tilMxstat_w0fmt : Fld := ⟨.tilMxstat, 27, 24, .ro, (.val 0xF)⟩
def tilMxstat_drain : Fld := ⟨.tilMxstat, 2, 2, .ro, (.val 0b0)⟩
def tilMxstat_stream : Fld := ⟨.tilMxstat, 1, 1, .ro, (.val 0b0)⟩
def tilMxstat_load : Fld := ⟨.tilMxstat, 0, 0, .ro, (.val 0b0)⟩
/-! TIL_MXFAULT (R176) -/
def tilMxfault_kind : Fld := ⟨.tilMxfault, 63, 60, .ro, (.val 0x0)⟩
def tilMxfault_set : Fld := ⟨.tilMxfault, 59, 59, .ro, (.val 0b0)⟩
def tilMxfault_row : Fld := ⟨.tilMxfault, 58, 53, .ro, (.val 0x00)⟩
def tilMxfault_pc : Fld := ⟨.tilMxfault, 52, 29, .ro, (.val 0x000000)⟩
def tilMxfault_sticky : Fld := ⟨.tilMxfault, 28, 28, .w1c, (.val 0b0)⟩
def tilMxfault_kidx : Fld := ⟨.tilMxfault, 19, 0, .ro, (.val 0x00000)⟩
/-! TIL_VCTL (R209) -/
def tilVctl_keep : Fld := ⟨.tilVctl, 0, 0, .rw, (.val 0b0)⟩
/-! TIL_VCSEL (R210) -/
def tilVcsel_chain : Fld := ⟨.tilVcsel, 5, 3, .rw, (.val 0b000)⟩
def tilVcsel_stage : Fld := ⟨.tilVcsel, 2, 0, .rw, (.val 0b000)⟩
/-! TIL_VCWORD (R211) -/
def tilVcword_word : Fld := ⟨.tilVcword, 45, 0, .rw, (.val 0x000000000000)⟩
/-! TIL_VSTAT (R212) -/
def tilVstat_wait : Fld := ⟨.tilVstat, 63, 40, .rw, (.val 0x000000)⟩
def tilVstat_faults : Fld := ⟨.tilVstat, 39, 32, .rw, (.val 0x00)⟩
def tilVstat_sats : Fld := ⟨.tilVstat, 31, 12, .rw, (.val 0x00000)⟩
def tilVstat_nancvt : Fld := ⟨.tilVstat, 11, 2, .rw, (.val 0x000)⟩
def tilVstat_busy : Fld := ⟨.tilVstat, 0, 0, .ro, (.val 0b0)⟩
/-! PTC_COUNT (R254) -/
def ptcCount_count : Fld := ⟨.ptcCount, 63, 0, .ro, (.val 0x0000000000000000)⟩
/-! PTC_SCHED (R255) -/
def ptcSched_sched : Fld := ⟨.ptcSched, 63, 0, .ro, (.val 0x0000000000000000)⟩
/-! PTC_ADJ (R256) -/
def ptcAdj_adj : Fld := ⟨.ptcAdj, 63, 0, .ro, (.val 0x0000000000000000)⟩
/-! PTC_STATE (R257) -/
def ptcState_unsync : Fld := ⟨.ptcState, 18, 18, .ro, (.val 0b1)⟩
def ptcState_parked : Fld := ⟨.ptcState, 17, 17, .ro, (.val 0b0)⟩
def ptcState_held : Fld := ⟨.ptcState, 16, 16, .ro, (.val 0b0)⟩
def ptcState_causes : Fld := ⟨.ptcState, 15, 0, .ro, (.val 0x0000)⟩
/-! PTC_HOLDREQ (R258) -/
def ptcHoldreq_length : Fld := ⟨.ptcHoldreq, 15, 0, .wo, (.val 0x0000)⟩
/-! PTC_HLOGPTR (R259) -/
def ptcHlogptr_wrapped : Fld := ⟨.ptcHlogptr, 31, 31, .w1c, (.val 0b0)⟩
def ptcHlogptr_next : Fld := ⟨.ptcHlogptr, 7, 0, .ro, (.val 0x00)⟩
/-! PTC_HLOGAn (R260) -/
def ptcHloga_start : Fld := ⟨.ptcHloga, 63, 0, .ro, (.val 0x0000000000000000)⟩
/-! PTC_HLOGBn (R261) -/
def ptcHlogb_causes : Fld := ⟨.ptcHlogb, 63, 48, .ro, (.val 0x0000)⟩
def ptcHlogb_source : Fld := ⟨.ptcHlogb, 47, 32, .ro, (.val 0x0000)⟩
def ptcHlogb_length : Fld := ⟨.ptcHlogb, 31, 0, .ro, (.val 0x00000000)⟩
/-! PTC_RUNAn (R262) -/
def ptcRuna_schedlen : Fld := ⟨.ptcRuna, 63, 32, .ro, (.val 0x00000000)⟩
def ptcRuna_holdcyc : Fld := ⟨.ptcRuna, 31, 0, .ro, (.val 0x00000000)⟩
/-! PTC_RUNBn (R263) -/
def ptcRunb_maxlate : Fld := ⟨.ptcRunb, 63, 40, .ro, (.val 0x000000)⟩
def ptcRunb_latetiles : Fld := ⟨.ptcRunb, 39, 28, .ro, (.val 0x000)⟩
def ptcRunb_worst : Fld := ⟨.ptcRunb, 27, 16, .ro, (.val 0x000)⟩
def ptcRunb_lateissue : Fld := ⟨.ptcRunb, 15, 8, .ro, (.val 0x00)⟩
def ptcRunb_loss : Fld := ⟨.ptcRunb, 3, 3, .ro, (.val 0b0)⟩
def ptcRunb_order : Fld := ⟨.ptcRunb, 2, 2, .ro, (.val 0b0)⟩
def ptcRunb_exact : Fld := ⟨.ptcRunb, 1, 1, .ro, (.val 0b0)⟩
def ptcRunb_valid : Fld := ⟨.ptcRunb, 0, 0, .ro, (.val 0b0)⟩
/-! TIL_LATE (R264) -/
def tilLate_last : Fld := ⟨.tilLate, 63, 32, .ro, (.val 0x00000000)⟩
def tilLate_cur : Fld := ⟨.tilLate, 31, 0, .ro, (.val 0x00000000)⟩
/-! TIL_QSTAT (R265) -/
def tilQstat_qlate : Fld := ⟨.tilQstat, 63, 40, .rw, (.val 0x000000)⟩
def tilQstat_qfull : Fld := ⟨.tilQstat, 39, 16, .rw, (.val 0x000000)⟩
def tilQstat_outst : Fld := ⟨.tilQstat, 15, 0, .ro, (.val 0x0000)⟩
/-! GAL_QSTAT (R266) -/
def galQstat_entries : Fld := ⟨.galQstat, 21, 11, .ro, (.val 0x000)⟩
def galQstat_peak : Fld := ⟨.galQstat, 10, 0, .rw, (.val 0x000)⟩
/-! PTC_OCCWIN (R267) -/
def ptcOccwin_window : Fld := ⟨.ptcOccwin, 31, 0, .rw, (.val 0x00100000)⟩
/-! PTC_OCCn (R268) -/
def ptcOcc_mean : Fld := ⟨.ptcOcc, 47, 32, .ro, (.val 0x0000)⟩
def ptcOcc_peak : Fld := ⟨.ptcOcc, 31, 16, .ro, (.val 0x0000)⟩
def ptcOcc_peakid : Fld := ⟨.ptcOcc, 15, 0, .ro, (.val 0x0000)⟩
/-! GAL_OCC (R269) -/
def galOcc_bankuse : Fld := ⟨.galOcc, 31, 16, .ro, (.val 0x0000)⟩
def galOcc_free : Fld := ⟨.galOcc, 15, 0, .ro, (.val 0x0000)⟩
/-! MEM_CFG (R295) -/
def memCfg_channels : Fld := ⟨.memCfg, 15, 8, .ro, .fuse⟩
def memCfg_annex : Fld := ⟨.memCfg, 5, 4, .ro, .image⟩
def memCfg_granule : Fld := ⟨.memCfg, 1, 0, .ro, .image⟩
/-! MEM_PLAN (R296) -/
def memPlan_size : Fld := ⟨.memPlan, 51, 32, .ro, .image⟩
def memPlan_base : Fld := ⟨.memPlan, 19, 0, .ro, .image⟩
/-! MEM_REFn (R297) -/
def memRef_order : Fld := ⟨.memRef, 31, 24, .rw, .image⟩
def memRef_window : Fld := ⟨.memRef, 23, 12, .rw, .image⟩
def memRef_phase : Fld := ⟨.memRef, 11, 0, .rw, .image⟩
/-! MEM_STATn (R298) -/
def memStat_ce : Fld := ⟨.memStat, 63, 44, .rw, (.val 0x00000)⟩
def memStat_ue : Fld := ⟨.memStat, 43, 36, .rw, (.val 0x00)⟩
def memStat_retry : Fld := ⟨.memStat, 35, 24, .rw, (.val 0x000)⟩
def memStat_holdreq : Fld := ⟨.memStat, 23, 12, .rw, (.val 0x000)⟩
def memStat_winacc : Fld := ⟨.memStat, 11, 0, .rw, (.val 0x000)⟩
/-! MEM_ERRLOG (R299) -/
def memErrlog_kind : Fld := ⟨.memErrlog, 63, 60, .ro, (.val 0x0)⟩
def memErrlog_channel : Fld := ⟨.memErrlog, 59, 54, .ro, (.val 0x00)⟩
def memErrlog_sticky : Fld := ⟨.memErrlog, 53, 53, .w1c, (.val 0b0)⟩
def memErrlog_granule : Fld := ⟨.memErrlog, 41, 0, .ro, (.val 0x00000000000)⟩
/-! MEM_CALn (R300) -/
def memCal_progress : Fld := ⟨.memCal, 31, 16, .ro, (.val 0x0000)⟩
def memCal_reduced : Fld := ⟨.memCal, 12, 12, .ro, (.val 0b0)⟩
def memCal_src : Fld := ⟨.memCal, 11, 11, .ro, (.val 0b0)⟩
def memCal_class : Fld := ⟨.memCal, 10, 10, .ro, (.val 0b1)⟩
def memCal_sett : Fld := ⟨.memCal, 9, 8, .ro, (.val 0b00)⟩
def memCal_load : Fld := ⟨.memCal, 7, 7, .ro, (.val 0b0)⟩
def memCal_tbin : Fld := ⟨.memCal, 6, 5, .ro, (.val 0b00)⟩
def memCal_force : Fld := ⟨.memCal, 1, 1, .wo, (.val 0b0)⟩
def memCal_auto : Fld := ⟨.memCal, 0, 0, .rw, (.val 0b1)⟩
/-! MEM_STEPOK (R301) -/
def memStepok_tested : Fld := ⟨.memStepok, 12, 8, .ro, (.val 0b00000)⟩
def memStepok_ok : Fld := ⟨.memStepok, 4, 0, .ro, (.val 0b00000)⟩
/-! ANX_CTLp (R302) -/
def anxCtl_retrain : Fld := ⟨.anxCtl, 17, 17, .wo, (.val 0b0)⟩
def anxCtl_enable : Fld := ⟨.anxCtl, 16, 16, .ro, .image⟩
def anxCtl_timeout : Fld := ⟨.anxCtl, 15, 0, .rw, (.val 0x0064)⟩
/-! ANX_STATp (R303) -/
def anxStat_size : Fld := ⟨.anxStat, 55, 32, .ro, (.val 0x000000)⟩
def anxStat_state : Fld := ⟨.anxStat, 31, 28, .ro, (.val 0x0)⟩
def anxStat_width : Fld := ⟨.anxStat, 27, 26, .ro, (.val 0b00)⟩
def anxStat_rate : Fld := ⟨.anxStat, 25, 24, .ro, (.val 0b00)⟩
def anxStat_timeouts : Fld := ⟨.anxStat, 23, 16, .rw, (.val 0x00)⟩
def anxStat_poison : Fld := ⟨.anxStat, 15, 0, .rw, (.val 0x0000)⟩
/-! DMA_SRCn (R323) -/
def dmaSrc_addr : Fld := ⟨.dmaSrc, 63, 0, .rw, (.val 0x0000000000000000)⟩
/-! DMA_DSTn (R323) -/
def dmaDst_addr : Fld := ⟨.dmaDst, 63, 0, .rw, (.val 0x0000000000000000)⟩
/-! DMA_LENn (R324) -/
def dmaLen_len : Fld := ⟨.dmaLen, 31, 0, .rw, (.val 0x00000000)⟩
/-! DMA_NEXTn (R325) -/
def dmaNext_addr : Fld := ⟨.dmaNext, 47, 5, .rw, (.val 0x00000000000)⟩
def dmaNext_chain : Fld := ⟨.dmaNext, 0, 0, .rw, (.val 0b0)⟩
/-! DMA_CTLn (R326) -/
def dmaCtl_go : Fld := ⟨.dmaCtl, 31, 31, .wo, (.val 0b0)⟩
def dmaCtl_pause : Fld := ⟨.dmaCtl, 30, 30, .rw, (.val 0b0)⟩
def dmaCtl_abort : Fld := ⟨.dmaCtl, 29, 29, .wo, (.val 0b0)⟩
def dmaCtl_func : Fld := ⟨.dmaCtl, 15, 12, .rw, (.val 0x0)⟩
def dmaCtl_irq : Fld := ⟨.dmaCtl, 11, 11, .rw, (.val 0b0)⟩
def dmaCtl_swap : Fld := ⟨.dmaCtl, 10, 8, .rw, (.val 0b000)⟩
def dmaCtl_dstsp : Fld := ⟨.dmaCtl, 5, 3, .rw, (.val 0b000)⟩
def dmaCtl_srcsp : Fld := ⟨.dmaCtl, 2, 0, .rw, (.val 0b000)⟩
/-! DMA_STATn (R327) -/
def dmaStat_state : Fld := ⟨.dmaStat, 31, 28, .ro, (.val 0x0)⟩
def dmaStat_cause : Fld := ⟨.dmaStat, 27, 24, .ro, (.val 0x0)⟩
def dmaStat_dir : Fld := ⟨.dmaStat, 23, 23, .ro, (.val 0b0)⟩
def dmaStat_errsp : Fld := ⟨.dmaStat, 22, 20, .ro, (.val 0b000)⟩
def dmaStat_descs : Fld := ⟨.dmaStat, 15, 0, .rw, (.val 0x0000)⟩
/-! DMA_ERRn (R328) -/
def dmaErr_addr : Fld := ⟨.dmaErr, 63, 0, .ro, (.val 0x0000000000000000)⟩
/-! HST_CMDRING (R352) -/
def hstCmdring_base : Fld := ⟨.hstCmdring, 63, 12, .rw, (.val 0x0000000000000)⟩
def hstCmdring_size : Fld := ⟨.hstCmdring, 4, 1, .rw, (.val 0x0)⟩
def hstCmdring_enable : Fld := ⟨.hstCmdring, 0, 0, .rw, (.val 0b0)⟩
/-! HST_CPLRING (R352) -/
def hstCplring_base : Fld := ⟨.hstCplring, 63, 12, .rw, (.val 0x0000000000000)⟩
def hstCplring_size : Fld := ⟨.hstCplring, 4, 1, .rw, (.val 0x0)⟩
def hstCplring_enable : Fld := ⟨.hstCplring, 0, 0, .rw, (.val 0b0)⟩
/-! HST_EVRING (R352) -/
def hstEvring_base : Fld := ⟨.hstEvring, 63, 12, .rw, (.val 0x0000000000000)⟩
def hstEvring_size : Fld := ⟨.hstEvring, 4, 1, .rw, (.val 0x0)⟩
def hstEvring_enable : Fld := ⟨.hstEvring, 0, 0, .rw, (.val 0b0)⟩
/-! HST_SBADDR (R353) -/
def hstSbaddr_addr : Fld := ⟨.hstSbaddr, 63, 6, .rw, (.val 0x000000000000000)⟩
/-! HST_RINGSTAT (R354) -/
def hstRingstat_failaddr : Fld := ⟨.hstRingstat, 63, 8, .ro, (.val 0x00000000000000)⟩
def hstRingstat_restart : Fld := ⟨.hstRingstat, 2, 2, .wo, (.val 0b0)⟩
def hstRingstat_state : Fld := ⟨.hstRingstat, 1, 0, .ro, (.val 0b00)⟩
/-! HST_EVSTAT (R355) -/
def hstEvstat_lost : Fld := ⟨.hstEvstat, 31, 0, .rw, (.val 0x00000000)⟩
/-! HST_IRQMOD (R356) -/
def hstIrqmod_gap : Fld := ⟨.hstIrqmod, 15, 0, .rw, (.val 0x0000)⟩
/-! HST_FWCTL (R357) -/
def hstFwctl_hostset : Fld := ⟨.hstFwctl, 2, 2, .ro, .fuse⟩
def hstFwctl_windef : Fld := ⟨.hstFwctl, 1, 1, .ro, .fuse⟩
def hstFwctl_expw : Fld := ⟨.hstFwctl, 0, 0, .ro, .fuse⟩
/-! HST_FWBASEk (R358) -/
def hstFwbase_base : Fld := ⟨.hstFwbase, 63, 12, .rw, (.val 0x0000000000000)⟩
def hstFwbase_wr : Fld := ⟨.hstFwbase, 1, 1, .rw, .fuse⟩
def hstFwbase_rd : Fld := ⟨.hstFwbase, 0, 0, .rw, .fuse⟩
/-! HST_FWLIMk (R358) -/
def hstFwlim_limit : Fld := ⟨.hstFwlim, 63, 12, .rw, (.val 0xFFFFFFFFFFFFF)⟩
/-! LNK_CTLp (R389) -/
def lnkCtl_retrain : Fld := ⟨.lnkCtl, 31, 31, .wo, (.val 0b0)⟩
def lnkCtl_wreq : Fld := ⟨.lnkCtl, 28, 27, .rw, .image⟩
def lnkCtl_role : Fld := ⟨.lnkCtl, 26, 25, .rw, .image⟩
def lnkCtl_rto : Fld := ⟨.lnkCtl, 15, 0, .rw, (.val 0x0400)⟩
/-! LNK_STATp (R390) -/
def lnkStat_peermod : Fld := ⟨.lnkStat, 63, 44, .ro, (.val 0x00000)⟩
def lnkStat_peerport : Fld := ⟨.lnkStat, 43, 39, .ro, (.val 0b00000)⟩
def lnkStat_state : Fld := ⟨.lnkStat, 35, 32, .ro, (.val 0x0)⟩
def lnkStat_width : Fld := ⟨.lnkStat, 31, 30, .ro, (.val 0b00)⟩
def lnkStat_degraded : Fld := ⟨.lnkStat, 29, 29, .ro, (.val 0b0)⟩
def lnkStat_gen1 : Fld := ⟨.lnkStat, 28, 28, .ro, (.val 0b0)⟩
def lnkStat_rtt : Fld := ⟨.lnkStat, 27, 16, .ro, (.val 0x000)⟩
def lnkStat_unacked : Fld := ⟨.lnkStat, 10, 0, .ro, (.val 0x000)⟩
/-! LNK_ERRp (R391) -/
def lnkErr_crcerr : Fld := ⟨.lnkErr, 63, 48, .rw, (.val 0x0000)⟩
def lnkErr_replays : Fld := ⟨.lnkErr, 47, 32, .rw, (.val 0x0000)⟩
def lnkErr_dups : Fld := ⟨.lnkErr, 31, 16, .rw, (.val 0x0000)⟩
def lnkErr_retrains : Fld := ⟨.lnkErr, 15, 8, .rw, (.val 0x00)⟩
def lnkErr_late : Fld := ⟨.lnkErr, 7, 0, .rw, (.val 0x00)⟩
/-! LNK_BUDGETp (R392) -/
def lnkBudget_used : Fld := ⟨.lnkBudget, 31, 16, .ro, (.val 0x0000)⟩
def lnkBudget_flits : Fld := ⟨.lnkBudget, 15, 0, .rw, .image⟩
/-! LNK_POOLp (R393) -/
def lnkPool_shared : Fld := ⟨.lnkPool, 51, 41, .ro, (.val 0x2C0)⟩
def lnkPool_rsched : Fld := ⟨.lnkPool, 40, 31, .ro, (.val 0x200)⟩
def lnkPool_rbulk : Fld := ⟨.lnkPool, 30, 22, .ro, (.val 0x100)⟩
def lnkPool_rmgmt : Fld := ⟨.lnkPool, 21, 15, .ro, (.val 0x40)⟩
def lnkPool_rxused : Fld := ⟨.lnkPool, 14, 4, .ro, (.val 0x000)⟩
/-! FAB_ID (R436) -/
def fabId_valid : Fld := ⟨.fabId, 20, 20, .ro, (.val 0b0)⟩
def fabId_id : Fld := ⟨.fabId, 19, 0, .rw, (.val 0x00000)⟩
/-! FAB_CTL (R437) -/
def fabCtl_noroute : Fld := ⟨.fabCtl, 31, 16, .rw, (.val 0x03E8)⟩
def fabCtl_altwait : Fld := ⟨.fabCtl, 15, 0, .rw, (.val 0x0032)⟩
/-! FAB_EPOCH (R438) -/
def fabEpoch_epoch : Fld := ⟨.fabEpoch, 31, 16, .ro, (.val 0x0000)⟩
def fabEpoch_state : Fld := ⟨.fabEpoch, 3, 2, .ro, (.val 0b00)⟩
def fabEpoch_quiet : Fld := ⟨.fabEpoch, 1, 1, .ro, (.val 0b0)⟩
def fabEpoch_live : Fld := ⟨.fabEpoch, 0, 0, .ro, (.val 0b0)⟩
/-! FAB_EPOCHCMD (R439) -/
def fabEpochcmd_cmd : Fld := ⟨.fabEpochcmd, 1, 0, .wo, (.val 0b00)⟩
/-! FAB_DISC (R440) -/
def fabDisc_stale : Fld := ⟨.fabDisc, 63, 48, .rw, (.val 0x0000)⟩
def fabDisc_noroute : Fld := ⟨.fabDisc, 47, 32, .rw, (.val 0x0000)⟩
def fabDisc_routef : Fld := ⟨.fabDisc, 31, 16, .rw, (.val 0x0000)⟩
def fabDisc_notices : Fld := ⟨.fabDisc, 15, 0, .rw, (.val 0x0000)⟩
/-! FAB_SYNCCTL (R441) -/
def fabSyncctl_root : Fld := ⟨.fabSyncctl, 31, 31, .rw, (.val 0b0)⟩
def fabSyncctl_port : Fld := ⟨.fabSyncctl, 28, 24, .rw, (.val 0b00000)⟩
def fabSyncctl_depth : Fld := ⟨.fabSyncctl, 3, 0, .ro, (.val 0xF)⟩
/-! FAB_SYNCSTAT (R442) -/
def fabSyncstat_theta : Fld := ⟨.fabSyncstat, 63, 32, .ro, (.val 0x00000000)⟩
def fabSyncstat_exch : Fld := ⟨.fabSyncstat, 31, 16, .ro, (.val 0x0000)⟩
def fabSyncstat_lost : Fld := ⟨.fabSyncstat, 15, 0, .rw, (.val 0x0000)⟩
/-! FAB_BARCTL (R443) -/
def fabBarctl_timeout : Fld := ⟨.fabBarctl, 31, 16, .rw, (.val 0x2710)⟩
def fabBarctl_margin : Fld := ⟨.fabBarctl, 15, 0, .rw, (.val 0x0100)⟩
/-! FAB_LAUNCH (R444) -/
def fabLaunch_launch_id : Fld := ⟨.fabLaunch, 63, 0, .ro, (.val 0x0000000000000000)⟩
/-! FAB_LSTAT (R445) -/
def fabLstat_state : Fld := ⟨.fabLstat, 31, 28, .ro, (.val 0x0)⟩
def fabLstat_node : Fld := ⟨.fabLstat, 25, 16, .ro, (.val 0x000)⟩
def fabLstat_nodes : Fld := ⟨.fabLstat, 10, 0, .ro, (.val 0x000)⟩
/-! FAB_STRAGn (R446) -/
def fabStrag_suspect : Fld := ⟨.fabStrag, 16, 16, .w1c, (.val 0b0)⟩
def fabStrag_last : Fld := ⟨.fabStrag, 15, 0, .rw, (.val 0x0000)⟩
/-! PTC_REPRO (R459) -/
def ptcRepro_promise : Fld := ⟨.ptcRepro, 15, 15, .ro, (.val 0b0)⟩
def ptcRepro_lateissue : Fld := ⟨.ptcRepro, 4, 4, .ro, (.val 0b0)⟩
def ptcRepro_loss : Fld := ⟨.ptcRepro, 3, 3, .ro, (.val 0b0)⟩
def ptcRepro_modified : Fld := ⟨.ptcRepro, 2, 2, .ro, (.val 0b0)⟩
def ptcRepro_localtile : Fld := ⟨.ptcRepro, 1, 1, .ro, (.val 0b0)⟩
def ptcRepro_localimg : Fld := ⟨.ptcRepro, 0, 0, .ro, .image⟩
/-! SRV_CTL (R507) -/
def srvCtl_configured : Fld := ⟨.srvCtl, 2, 2, .ro, (.val 0b0)⟩
def srvCtl_pause : Fld := ⟨.srvCtl, 1, 1, .rw, (.val 0b0)⟩
def srvCtl_adapt : Fld := ⟨.srvCtl, 0, 0, .rw, (.val 0b0)⟩
/-! SRV_CAP (R508) -/
def srvCap_att : Fld := ⟨.srvCap, 31, 16, .rw, (.val 0x0000)⟩
def srvCap_dec : Fld := ⟨.srvCap, 15, 0, .rw, (.val 0x0000)⟩
/-! SRV_WALL (R509) -/
def srvWall_wall : Fld := ⟨.srvWall, 63, 0, .ro, (.val 0x0000000000000000)⟩
/-! SRV_OCC (R510) -/
def srvOcc_attres : Fld := ⟨.srvOcc, 63, 49, .ro, (.val 0x0000)⟩
def srvOcc_decres : Fld := ⟨.srvOcc, 48, 36, .ro, (.val 0x0000)⟩
def srvOcc_entries : Fld := ⟨.srvOcc, 35, 22, .ro, (.val 0x0000)⟩
def srvOcc_pfback : Fld := ⟨.srvOcc, 21, 0, .ro, (.val 0x000000)⟩
/-! SRV_PAGES (R511) -/
def srvPages_free : Fld := ⟨.srvPages, 63, 32, .ro, (.val 0x00000000)⟩
def srvPages_reserved : Fld := ⟨.srvPages, 31, 0, .ro, (.val 0x00000000)⟩
/-! SRV_UTIL (R512) -/
def srvUtil_step : Fld := ⟨.srvUtil, 63, 16, .ro, (.val 0x000000000000)⟩
def srvUtil_util : Fld := ⟨.srvUtil, 15, 0, .ro, (.val 0x0000)⟩
/-! SRV_STAT (R513) -/
def srvStat_late : Fld := ⟨.srvStat, 63, 48, .rw, (.val 0x0000)⟩
def srvStat_overrun : Fld := ⟨.srvStat, 47, 32, .rw, (.val 0x0000)⟩
def srvStat_refused : Fld := ⟨.srvStat, 31, 16, .rw, (.val 0x0000)⟩
def srvStat_cancels : Fld := ⟨.srvStat, 15, 0, .rw, (.val 0x0000)⟩
/-! SRV_ACCSEL (R514) -/
def srvAccsel_index : Fld := ⟨.srvAccsel, 12, 0, .rw, (.val 0x0000)⟩
/-! SRV_ACCSTATE (R515) -/
def srvAccstate_state : Fld := ⟨.srvAccstate, 63, 60, .ro, (.val 0x0)⟩
def srvAccstate_prio : Fld := ⟨.srvAccstate, 59, 58, .ro, (.val 0b00)⟩
def srvAccstate_tenant : Fld := ⟨.srvAccstate, 57, 46, .ro, (.val 0x000)⟩
def srvAccstate_depth : Fld := ⟨.srvAccstate, 45, 42, .rw, (.val 0x0)⟩
def srvAccstate_late : Fld := ⟨.srvAccstate, 41, 41, .ro, (.val 0b0)⟩
def srvAccstate_adopted : Fld := ⟨.srvAccstate, 40, 40, .ro, (.val 0b0)⟩
def srvAccstate_deadline : Fld := ⟨.srvAccstate, 39, 0, .ro, (.val 0x0000000000)⟩
/-! SRV_ACCLEN (R516) -/
def srvAcclen_len : Fld := ⟨.srvAcclen, 63, 44, .ro, (.val 0x00000)⟩
def srvAcclen_emitted : Fld := ⟨.srvAcclen, 43, 24, .ro, (.val 0x00000)⟩
def srvAcclen_pages : Fld := ⟨.srvAcclen, 23, 13, .ro, (.val 0x000)⟩
def srvAcclen_slot : Fld := ⟨.srvAcclen, 12, 0, .ro, (.val 0x1FFF)⟩
/-! SRV_TENSEL (R517) -/
def srvTensel_tenant : Fld := ⟨.srvTensel, 11, 0, .rw, (.val 0x000)⟩
/-! SRV_TENBAL (R518) -/
def srvTenbal_balance : Fld := ⟨.srvTenbal, 63, 32, .ro, (.val 0x00000000)⟩
def srvTenbal_limit : Fld := ⟨.srvTenbal, 31, 0, .ro, (.val 0x00000000)⟩
/-! SRV_TENCFG (R519) -/
def srvTencfg_window : Fld := ⟨.srvTencfg, 31, 16, .ro, (.val 0x0000)⟩
def srvTencfg_funcs : Fld := ⟨.srvTencfg, 15, 0, .ro, (.val 0x0000)⟩
/-! DMA_BCCTL (R541) -/
def dmaBcctl_timeout : Fld := ⟨.dmaBcctl, 31, 16, .rw, (.val 0xEA60)⟩
def dmaBcctl_stall : Fld := ⟨.dmaBcctl, 15, 0, .rw, (.val 0x01F4)⟩
/-! DMA_BCSTAT (R542) -/
def dmaBcstat_state : Fld := ⟨.dmaBcstat, 63, 60, .ro, (.val 0x0)⟩
def dmaBcstat_held : Fld := ⟨.dmaBcstat, 58, 32, .ro, (.val 0x0000000)⟩
def dmaBcstat_total : Fld := ⟨.dmaBcstat, 26, 0, .ro, (.val 0x0000000)⟩
/-! SRV_SWAPn (R543) -/
def srvSwap_state : Fld := ⟨.srvSwap, 31, 28, .ro, (.val 0x0)⟩
def srvSwap_units : Fld := ⟨.srvSwap, 24, 16, .ro, (.val 0x000)⟩
def srvSwap_done : Fld := ⟨.srvSwap, 8, 0, .ro, (.val 0x000)⟩
/-! MIR_CTL (R561) -/
def mirCtl_idlehb : Fld := ⟨.mirCtl, 31, 16, .rw, (.val 0x03E8)⟩
def mirCtl_ackwait : Fld := ⟨.mirCtl, 15, 4, .rw, (.val 0x1F4)⟩
def mirCtl_manual : Fld := ⟨.mirCtl, 1, 1, .rw, (.val 0b0)⟩
/-! MIR_STATE (R562) -/
def mirState_state : Fld := ⟨.mirState, 63, 60, .ro, (.val 0x0)⟩
def mirState_leader : Fld := ⟨.mirState, 59, 59, .ro, (.val 0b0)⟩
def mirState_adopted : Fld := ⟨.mirState, 58, 58, .ro, (.val 0b0)⟩
def mirState_portsup : Fld := ⟨.mirState, 54, 52, .ro, (.val 0b000)⟩
def mirState_missed : Fld := ⟨.mirState, 51, 48, .ro, (.val 0x0)⟩
def mirState_peerstep : Fld := ⟨.mirState, 47, 0, .ro, (.val 0x000000000000)⟩
/-! MIR_STAT (R563) -/
def mirStat_losses : Fld := ⟨.mirStat, 63, 48, .rw, (.val 0x0000)⟩
def mirStat_digestmm : Fld := ⟨.mirStat, 47, 32, .rw, (.val 0x0000)⟩
def mirStat_acklate : Fld := ⟨.mirStat, 31, 16, .rw, (.val 0x0000)⟩
def mirStat_adoptions : Fld := ⟨.mirStat, 15, 0, .rw, (.val 0x0000)⟩
/-! CLK_STATE (R584) -/
def clkState_stretch : Fld := ⟨.clkState, 23, 23, .ro, (.val 0b0)⟩
def clkState_catchup : Fld := ⟨.clkState, 22, 22, .ro, (.val 0b0)⟩
def clkState_holdover : Fld := ⟨.clkState, 21, 21, .ro, (.val 0b0)⟩
def clkState_refok : Fld := ⟨.clkState, 20, 20, .ro, (.val 0b0)⟩
def clkState_pendvalid : Fld := ⟨.clkState, 11, 11, .ro, (.val 0b0)⟩
def clkState_pending : Fld := ⟨.clkState, 10, 8, .ro, (.val 0b000)⟩
def clkState_step : Fld := ⟨.clkState, 2, 0, .ro, (.val 0b100)⟩
/-! CLK_STEPCMD (R585) -/
def clkStepcmd_go : Fld := ⟨.clkStepcmd, 31, 31, .wo, (.val 0b0)⟩
def clkStepcmd_reason : Fld := ⟨.clkStepcmd, 10, 8, .ro, (.val 0b000)⟩
def clkStepcmd_target : Fld := ⟨.clkStepcmd, 2, 0, .rw, (.val 0b100)⟩
/-! CLK_DROOP (R586) -/
def clkDroop_events : Fld := ⟨.clkDroop, 63, 32, .rw, (.val 0x00000000)⟩
def clkDroop_stretched : Fld := ⟨.clkDroop, 31, 0, .rw, (.val 0x00000000)⟩
/-! PWR_THERMCTL (R587) -/
def pwrThermctl_trip : Fld := ⟨.pwrThermctl, 23, 16, .rw, (.val 0x73)⟩
def pwrThermctl_throttle : Fld := ⟨.pwrThermctl, 15, 8, .rw, (.val 0x69)⟩
def pwrThermctl_guard : Fld := ⟨.pwrThermctl, 7, 0, .rw, (.val 0x64)⟩
/-! PWR_THERMSTAT (R588) -/
def pwrThermstat_temp : Fld := ⟨.pwrThermstat, 55, 48, .ro, (.val 0x00)⟩
def pwrThermstat_source : Fld := ⟨.pwrThermstat, 47, 44, .ro, (.val 0x0)⟩
def pwrThermstat_level : Fld := ⟨.pwrThermstat, 43, 42, .ro, (.val 0b00)⟩
def pwrThermstat_guardholds : Fld := ⟨.pwrThermstat, 31, 0, .rw, (.val 0x00000000)⟩
/-! PWR_CTL (R589) -/
def pwrCtl_cap : Fld := ⟨.pwrCtl, 63, 48, .rw, .fuse⟩
def pwrCtl_idle : Fld := ⟨.pwrCtl, 47, 32, .rw, (.val 0x03E8)⟩
def pwrCtl_length : Fld := ⟨.pwrCtl, 31, 10, .rw, (.val 0x000000)⟩
def pwrCtl_thrman : Fld := ⟨.pwrCtl, 1, 1, .rw, (.val 0b0)⟩
def pwrCtl_auto : Fld := ⟨.pwrCtl, 0, 0, .rw, (.val 0b1)⟩
/-! PWR_INPUT (R590) -/
def pwrInput_vin : Fld := ⟨.pwrInput, 63, 48, .ro, (.val 0x0000)⟩
def pwrInput_iin : Fld := ⟨.pwrInput, 47, 32, .ro, (.val 0x0000)⟩
def pwrInput_pin : Fld := ⟨.pwrInput, 31, 16, .ro, (.val 0x0000)⟩
/-! GAL_GATE (R591) -/
def galGate_awake : Fld := ⟨.galGate, 1, 1, .ro, (.val 0b0)⟩
def galGate_gate : Fld := ⟨.galGate, 0, 0, .rw, .image⟩
/-! TIL_BANKGATE (R592) -/
def tilBankgate_gated : Fld := ⟨.tilBankgate, 31, 0, .rw, (.val 0x00000000)⟩
/-! FUS_CFG (R622) -/
def fusCfg_cap : Fld := ⟨.fusCfg, 31, 16, .ro, .fuse⟩
def fusCfg_ownlock : Fld := ⟨.fusCfg, 12, 12, .ro, .fuse⟩
def fusCfg_ownset : Fld := ⟨.fusCfg, 11, 11, .ro, .fuse⟩
def fusCfg_keyrev : Fld := ⟨.fusCfg, 10, 9, .ro, .fuse⟩
def fusCfg_debugdis : Fld := ⟨.fusCfg, 8, 8, .ro, .fuse⟩
def fusCfg_hostset : Fld := ⟨.fusCfg, 4, 4, .ro, .fuse⟩
def fusCfg_windef : Fld := ⟨.fusCfg, 3, 3, .ro, .fuse⟩
def fusCfg_expw : Fld := ⟨.fusCfg, 2, 2, .ro, .fuse⟩
def fusCfg_grade : Fld := ⟨.fusCfg, 0, 0, .ro, .fuse⟩
/-! FUS_HARVEST (R623) -/
def fusHarvest_hcol : Fld := ⟨.fusHarvest, 39, 0, .ro, .fuse⟩
/-! FUS_ARB (R623) -/
def fusArb_arb : Fld := ⟨.fusArb, 63, 0, .ro, .fuse⟩
/-! FUS_VKEYsn (R623) -/
def fusVkey_hash : Fld := ⟨.fusVkey, 63, 0, .ro, .fuse⟩
/-! FUS_OWNKEYn (R623) -/
def fusOwnkey_hash : Fld := ⟨.fusOwnkey, 63, 0, .ro, .fuse⟩
/-! SEC_BOOTSTAT (R624) -/
def secBootstat_boots : Fld := ⟨.secBootstat, 55, 48, .ro, (.val 0x00)⟩
def secBootstat_reset : Fld := ⟨.secBootstat, 47, 44, .ro, (.val 0x0)⟩
def secBootstat_stateb : Fld := ⟨.secBootstat, 39, 36, .ro, (.val 0x0)⟩
def secBootstat_statea : Fld := ⟨.secBootstat, 35, 32, .ro, (.val 0x0)⟩
def secBootstat_setfmt : Fld := ⟨.secBootstat, 31, 16, .ro, (.val 0x0000)⟩
def secBootstat_fallback : Fld := ⟨.secBootstat, 3, 3, .ro, (.val 0b0)⟩
def secBootstat_trial : Fld := ⟨.secBootstat, 2, 2, .ro, (.val 0b0)⟩
def secBootstat_setarea : Fld := ⟨.secBootstat, 1, 1, .ro, (.val 0b0)⟩
def secBootstat_active : Fld := ⟨.secBootstat, 0, 0, .ro, (.val 0b0)⟩
/-! SEC_FAULT (R625) -/
def secFault_sticky : Fld := ⟨.secFault, 31, 31, .w1c, (.val 0b0)⟩
def secFault_count : Fld := ⟨.secFault, 15, 8, .rw, (.val 0x00)⟩
def secFault_code : Fld := ⟨.secFault, 7, 0, .ro, (.val 0x00)⟩
/-! SEC_IDPUBn (R626) -/
def secIdpub_key : Fld := ⟨.secIdpub, 63, 0, .ro, (.val 0x0000000000000000)⟩
/-! SEC_POLICY (R626) -/
def secPolicy_seq : Fld := ⟨.secPolicy, 63, 32, .ro, (.val 0x00000000)⟩
def secPolicy_lock : Fld := ⟨.secPolicy, 1, 1, .ro, (.val 0b0)⟩
def secPolicy_reqsign : Fld := ⟨.secPolicy, 0, 0, .ro, (.val 0b0)⟩
/-! UPD_CTL (R627) -/
def updCtl_window : Fld := ⟨.updCtl, 31, 16, .rws, (.val 0x012C)⟩
def updCtl_hostconf : Fld := ⟨.updCtl, 0, 0, .rws, (.val 0b0)⟩
/-! UPD_STATE (R628) -/
def updState_state : Fld := ⟨.updState, 63, 60, .ro, (.val 0x0)⟩
def updState_locked : Fld := ⟨.updState, 54, 54, .ro, (.val 0b0)⟩
def updState_mirror : Fld := ⟨.updState, 53, 53, .ro, (.val 0b0)⟩
def updState_supply : Fld := ⟨.updState, 52, 52, .ro, (.val 0b0)⟩
def updState_winleft : Fld := ⟨.updState, 47, 32, .ro, (.val 0x0000)⟩
def updState_total : Fld := ⟨.updState, 25, 16, .ro, (.val 0x000)⟩
def updState_written : Fld := ⟨.updState, 9, 0, .ro, (.val 0x000)⟩

end Sys2Proof.Machine.F

namespace Sys2Proof.Machine

/-- The fields of each register, high bits first (the spec's register tables). -/
def RegKind.fields : RegKind → List Fld
  | .hstHistate => [F.hstHistate_last_status, F.hstHistate_state, F.hstHistate_modified, F.hstHistate_fast, F.hstHistate_expert, F.hstHistate_signed]
  | .hstHiid => [F.hstHiid_image_id]
  | .hstHidigest => [F.hstHidigest_digest]
  | .hstHierr => [F.hstHierr_status, F.hstHierr_section, F.hstHierr_offset]
  | .tilPadctl => [F.tilPadctl_qland, F.tilPadctl_hop, F.tilPadctl_mdrain, F.tilPadctl_mstream, F.tilPadctl_vstage, F.tilPadctl_sload, F.tilPadctl_smul, F.tilPadctl_salu]
  | .tilState => [F.tilState_invocations, F.tilState_run, F.tilState_active, F.tilState_pc]
  | .tilDescevt => [F.tilDescevt_pc, F.tilDescevt_level, F.tilDescevt_kind, F.tilDescevt_ag, F.tilDescevt_sticky, F.tilDescevt_count]
  | .galFetch => [F.galFetch_state, F.galFetch_streamed, F.galFetch_ring_fill, F.galFetch_next_block]
  | .tilHndb => [F.tilHndb_size, F.tilHndb_base]
  | .tilHndc => [F.tilHndc_valid, F.tilHndc_rwrite, F.tilHndc_rread, F.tilHndc_hash]
  | .tilSlotcmd => [F.tilSlotcmd_action, F.tilSlotcmd_last, F.tilSlotcmd_first]
  | .tilSlotmap => [F.tilSlotmap_full]
  | .tilSpcnt => [F.tilSpcnt_faults, F.tilSpcnt_slotwait, F.tilSpcnt_bankwait]
  | .tilSpfault => [F.tilSpfault_kind, F.tilSpfault_handle, F.tilSpfault_pc, F.tilSpfault_sticky, F.tilSpfault_offset]
  | .dieHarvest => [F.dieHarvest_hcol]
  | .dieXstat => [F.dieXstat_absent, F.dieXstat_trained]
  | .tilMxctl => [F.tilMxctl_rset, F.tilMxctl_rrow, F.tilMxctl_local]
  | .tilMxkrow => [F.tilMxkrow_poison, F.tilMxkrow_started, F.tilMxkrow_depth, F.tilMxkrow_knext, F.tilMxkrow_kbase]
  | .tilMxstat => [F.tilMxstat_wait, F.tilMxstat_faults, F.tilMxstat_w1fmt, F.tilMxstat_w0fmt, F.tilMxstat_drain, F.tilMxstat_stream, F.tilMxstat_load]
  | .tilMxfault => [F.tilMxfault_kind, F.tilMxfault_set, F.tilMxfault_row, F.tilMxfault_pc, F.tilMxfault_sticky, F.tilMxfault_kidx]
  | .tilVctl => [F.tilVctl_keep]
  | .tilVcsel => [F.tilVcsel_chain, F.tilVcsel_stage]
  | .tilVcword => [F.tilVcword_word]
  | .tilVstat => [F.tilVstat_wait, F.tilVstat_faults, F.tilVstat_sats, F.tilVstat_nancvt, F.tilVstat_busy]
  | .ptcCount => [F.ptcCount_count]
  | .ptcSched => [F.ptcSched_sched]
  | .ptcAdj => [F.ptcAdj_adj]
  | .ptcState => [F.ptcState_unsync, F.ptcState_parked, F.ptcState_held, F.ptcState_causes]
  | .ptcHoldreq => [F.ptcHoldreq_length]
  | .ptcHlogptr => [F.ptcHlogptr_wrapped, F.ptcHlogptr_next]
  | .ptcHloga => [F.ptcHloga_start]
  | .ptcHlogb => [F.ptcHlogb_causes, F.ptcHlogb_source, F.ptcHlogb_length]
  | .ptcRuna => [F.ptcRuna_schedlen, F.ptcRuna_holdcyc]
  | .ptcRunb => [F.ptcRunb_maxlate, F.ptcRunb_latetiles, F.ptcRunb_worst, F.ptcRunb_lateissue, F.ptcRunb_loss, F.ptcRunb_order, F.ptcRunb_exact, F.ptcRunb_valid]
  | .tilLate => [F.tilLate_last, F.tilLate_cur]
  | .tilQstat => [F.tilQstat_qlate, F.tilQstat_qfull, F.tilQstat_outst]
  | .galQstat => [F.galQstat_entries, F.galQstat_peak]
  | .ptcOccwin => [F.ptcOccwin_window]
  | .ptcOcc => [F.ptcOcc_mean, F.ptcOcc_peak, F.ptcOcc_peakid]
  | .galOcc => [F.galOcc_bankuse, F.galOcc_free]
  | .memCfg => [F.memCfg_channels, F.memCfg_annex, F.memCfg_granule]
  | .memPlan => [F.memPlan_size, F.memPlan_base]
  | .memRef => [F.memRef_order, F.memRef_window, F.memRef_phase]
  | .memStat => [F.memStat_ce, F.memStat_ue, F.memStat_retry, F.memStat_holdreq, F.memStat_winacc]
  | .memErrlog => [F.memErrlog_kind, F.memErrlog_channel, F.memErrlog_sticky, F.memErrlog_granule]
  | .memCal => [F.memCal_progress, F.memCal_reduced, F.memCal_src, F.memCal_class, F.memCal_sett, F.memCal_load, F.memCal_tbin, F.memCal_force, F.memCal_auto]
  | .memStepok => [F.memStepok_tested, F.memStepok_ok]
  | .anxCtl => [F.anxCtl_retrain, F.anxCtl_enable, F.anxCtl_timeout]
  | .anxStat => [F.anxStat_size, F.anxStat_state, F.anxStat_width, F.anxStat_rate, F.anxStat_timeouts, F.anxStat_poison]
  | .dmaSrc => [F.dmaSrc_addr]
  | .dmaDst => [F.dmaDst_addr]
  | .dmaLen => [F.dmaLen_len]
  | .dmaNext => [F.dmaNext_addr, F.dmaNext_chain]
  | .dmaCtl => [F.dmaCtl_go, F.dmaCtl_pause, F.dmaCtl_abort, F.dmaCtl_func, F.dmaCtl_irq, F.dmaCtl_swap, F.dmaCtl_dstsp, F.dmaCtl_srcsp]
  | .dmaStat => [F.dmaStat_state, F.dmaStat_cause, F.dmaStat_dir, F.dmaStat_errsp, F.dmaStat_descs]
  | .dmaErr => [F.dmaErr_addr]
  | .hstCmdring => [F.hstCmdring_base, F.hstCmdring_size, F.hstCmdring_enable]
  | .hstCplring => [F.hstCplring_base, F.hstCplring_size, F.hstCplring_enable]
  | .hstEvring => [F.hstEvring_base, F.hstEvring_size, F.hstEvring_enable]
  | .hstSbaddr => [F.hstSbaddr_addr]
  | .hstRingstat => [F.hstRingstat_failaddr, F.hstRingstat_restart, F.hstRingstat_state]
  | .hstEvstat => [F.hstEvstat_lost]
  | .hstIrqmod => [F.hstIrqmod_gap]
  | .hstFwctl => [F.hstFwctl_hostset, F.hstFwctl_windef, F.hstFwctl_expw]
  | .hstFwbase => [F.hstFwbase_base, F.hstFwbase_wr, F.hstFwbase_rd]
  | .hstFwlim => [F.hstFwlim_limit]
  | .lnkCtl => [F.lnkCtl_retrain, F.lnkCtl_wreq, F.lnkCtl_role, F.lnkCtl_rto]
  | .lnkStat => [F.lnkStat_peermod, F.lnkStat_peerport, F.lnkStat_state, F.lnkStat_width, F.lnkStat_degraded, F.lnkStat_gen1, F.lnkStat_rtt, F.lnkStat_unacked]
  | .lnkErr => [F.lnkErr_crcerr, F.lnkErr_replays, F.lnkErr_dups, F.lnkErr_retrains, F.lnkErr_late]
  | .lnkBudget => [F.lnkBudget_used, F.lnkBudget_flits]
  | .lnkPool => [F.lnkPool_shared, F.lnkPool_rsched, F.lnkPool_rbulk, F.lnkPool_rmgmt, F.lnkPool_rxused]
  | .fabId => [F.fabId_valid, F.fabId_id]
  | .fabCtl => [F.fabCtl_noroute, F.fabCtl_altwait]
  | .fabEpoch => [F.fabEpoch_epoch, F.fabEpoch_state, F.fabEpoch_quiet, F.fabEpoch_live]
  | .fabEpochcmd => [F.fabEpochcmd_cmd]
  | .fabDisc => [F.fabDisc_stale, F.fabDisc_noroute, F.fabDisc_routef, F.fabDisc_notices]
  | .fabSyncctl => [F.fabSyncctl_root, F.fabSyncctl_port, F.fabSyncctl_depth]
  | .fabSyncstat => [F.fabSyncstat_theta, F.fabSyncstat_exch, F.fabSyncstat_lost]
  | .fabBarctl => [F.fabBarctl_timeout, F.fabBarctl_margin]
  | .fabLaunch => [F.fabLaunch_launch_id]
  | .fabLstat => [F.fabLstat_state, F.fabLstat_node, F.fabLstat_nodes]
  | .fabStrag => [F.fabStrag_suspect, F.fabStrag_last]
  | .ptcRepro => [F.ptcRepro_promise, F.ptcRepro_lateissue, F.ptcRepro_loss, F.ptcRepro_modified, F.ptcRepro_localtile, F.ptcRepro_localimg]
  | .srvCtl => [F.srvCtl_configured, F.srvCtl_pause, F.srvCtl_adapt]
  | .srvCap => [F.srvCap_att, F.srvCap_dec]
  | .srvWall => [F.srvWall_wall]
  | .srvOcc => [F.srvOcc_attres, F.srvOcc_decres, F.srvOcc_entries, F.srvOcc_pfback]
  | .srvPages => [F.srvPages_free, F.srvPages_reserved]
  | .srvUtil => [F.srvUtil_step, F.srvUtil_util]
  | .srvStat => [F.srvStat_late, F.srvStat_overrun, F.srvStat_refused, F.srvStat_cancels]
  | .srvAccsel => [F.srvAccsel_index]
  | .srvAccstate => [F.srvAccstate_state, F.srvAccstate_prio, F.srvAccstate_tenant, F.srvAccstate_depth, F.srvAccstate_late, F.srvAccstate_adopted, F.srvAccstate_deadline]
  | .srvAcclen => [F.srvAcclen_len, F.srvAcclen_emitted, F.srvAcclen_pages, F.srvAcclen_slot]
  | .srvTensel => [F.srvTensel_tenant]
  | .srvTenbal => [F.srvTenbal_balance, F.srvTenbal_limit]
  | .srvTencfg => [F.srvTencfg_window, F.srvTencfg_funcs]
  | .dmaBcctl => [F.dmaBcctl_timeout, F.dmaBcctl_stall]
  | .dmaBcstat => [F.dmaBcstat_state, F.dmaBcstat_held, F.dmaBcstat_total]
  | .srvSwap => [F.srvSwap_state, F.srvSwap_units, F.srvSwap_done]
  | .mirCtl => [F.mirCtl_idlehb, F.mirCtl_ackwait, F.mirCtl_manual]
  | .mirState => [F.mirState_state, F.mirState_leader, F.mirState_adopted, F.mirState_portsup, F.mirState_missed, F.mirState_peerstep]
  | .mirStat => [F.mirStat_losses, F.mirStat_digestmm, F.mirStat_acklate, F.mirStat_adoptions]
  | .clkState => [F.clkState_stretch, F.clkState_catchup, F.clkState_holdover, F.clkState_refok, F.clkState_pendvalid, F.clkState_pending, F.clkState_step]
  | .clkStepcmd => [F.clkStepcmd_go, F.clkStepcmd_reason, F.clkStepcmd_target]
  | .clkDroop => [F.clkDroop_events, F.clkDroop_stretched]
  | .pwrThermctl => [F.pwrThermctl_trip, F.pwrThermctl_throttle, F.pwrThermctl_guard]
  | .pwrThermstat => [F.pwrThermstat_temp, F.pwrThermstat_source, F.pwrThermstat_level, F.pwrThermstat_guardholds]
  | .pwrCtl => [F.pwrCtl_cap, F.pwrCtl_idle, F.pwrCtl_length, F.pwrCtl_thrman, F.pwrCtl_auto]
  | .pwrInput => [F.pwrInput_vin, F.pwrInput_iin, F.pwrInput_pin]
  | .galGate => [F.galGate_awake, F.galGate_gate]
  | .tilBankgate => [F.tilBankgate_gated]
  | .fusCfg => [F.fusCfg_cap, F.fusCfg_ownlock, F.fusCfg_ownset, F.fusCfg_keyrev, F.fusCfg_debugdis, F.fusCfg_hostset, F.fusCfg_windef, F.fusCfg_expw, F.fusCfg_grade]
  | .fusHarvest => [F.fusHarvest_hcol]
  | .fusArb => [F.fusArb_arb]
  | .fusVkey => [F.fusVkey_hash]
  | .fusOwnkey => [F.fusOwnkey_hash]
  | .secBootstat => [F.secBootstat_boots, F.secBootstat_reset, F.secBootstat_stateb, F.secBootstat_statea, F.secBootstat_setfmt, F.secBootstat_fallback, F.secBootstat_trial, F.secBootstat_setarea, F.secBootstat_active]
  | .secFault => [F.secFault_sticky, F.secFault_count, F.secFault_code]
  | .secIdpub => [F.secIdpub_key]
  | .secPolicy => [F.secPolicy_seq, F.secPolicy_lock, F.secPolicy_reqsign]
  | .updCtl => [F.updCtl_window, F.updCtl_hostconf]
  | .updState => [F.updState_state, F.updState_locked, F.updState_mirror, F.updState_supply, F.updState_winleft, F.updState_total, F.updState_written]

/-- The register's width, which is 32 or 64 bits. -/
def RegKind.width : RegKind → Nat
  | .hstHistate | .tilPadctl | .galFetch | .tilSlotcmd | .dieHarvest | .dieXstat | .tilMxctl | .tilVctl | .tilVcsel | .ptcState | .ptcHoldreq | .ptcHlogptr | .galQstat | .ptcOccwin | .galOcc | .memCfg | .memRef | .memCal | .memStepok | .anxCtl | .dmaLen | .dmaCtl | .dmaStat | .hstEvstat | .hstIrqmod | .hstFwctl | .lnkCtl | .lnkBudget | .fabId | .fabCtl | .fabEpoch | .fabEpochcmd | .fabSyncctl | .fabBarctl | .fabLstat | .fabStrag | .ptcRepro | .srvCtl | .srvCap | .srvAccsel | .srvTensel | .srvTencfg | .dmaBcctl | .srvSwap | .mirCtl | .clkState | .clkStepcmd | .pwrThermctl | .galGate | .tilBankgate | .fusCfg | .secFault | .updCtl => 32
  | _ => 64

/-- A number for each register kind: the upper part of its key in the register store. -/
def RegKind.code : RegKind → Nat
  | .hstHistate => 0
  | .hstHiid => 1
  | .hstHidigest => 2
  | .hstHierr => 3
  | .tilPadctl => 4
  | .tilState => 5
  | .tilDescevt => 6
  | .galFetch => 7
  | .tilHndb => 8
  | .tilHndc => 9
  | .tilSlotcmd => 10
  | .tilSlotmap => 11
  | .tilSpcnt => 12
  | .tilSpfault => 13
  | .dieHarvest => 14
  | .dieXstat => 15
  | .tilMxctl => 16
  | .tilMxkrow => 17
  | .tilMxstat => 18
  | .tilMxfault => 19
  | .tilVctl => 20
  | .tilVcsel => 21
  | .tilVcword => 22
  | .tilVstat => 23
  | .ptcCount => 24
  | .ptcSched => 25
  | .ptcAdj => 26
  | .ptcState => 27
  | .ptcHoldreq => 28
  | .ptcHlogptr => 29
  | .ptcHloga => 30
  | .ptcHlogb => 31
  | .ptcRuna => 32
  | .ptcRunb => 33
  | .tilLate => 34
  | .tilQstat => 35
  | .galQstat => 36
  | .ptcOccwin => 37
  | .ptcOcc => 38
  | .galOcc => 39
  | .memCfg => 40
  | .memPlan => 41
  | .memRef => 42
  | .memStat => 43
  | .memErrlog => 44
  | .memCal => 45
  | .memStepok => 46
  | .anxCtl => 47
  | .anxStat => 48
  | .dmaSrc => 49
  | .dmaDst => 50
  | .dmaLen => 51
  | .dmaNext => 52
  | .dmaCtl => 53
  | .dmaStat => 54
  | .dmaErr => 55
  | .hstCmdring => 56
  | .hstCplring => 57
  | .hstEvring => 58
  | .hstSbaddr => 59
  | .hstRingstat => 60
  | .hstEvstat => 61
  | .hstIrqmod => 62
  | .hstFwctl => 63
  | .hstFwbase => 64
  | .hstFwlim => 65
  | .lnkCtl => 66
  | .lnkStat => 67
  | .lnkErr => 68
  | .lnkBudget => 69
  | .lnkPool => 70
  | .fabId => 71
  | .fabCtl => 72
  | .fabEpoch => 73
  | .fabEpochcmd => 74
  | .fabDisc => 75
  | .fabSyncctl => 76
  | .fabSyncstat => 77
  | .fabBarctl => 78
  | .fabLaunch => 79
  | .fabLstat => 80
  | .fabStrag => 81
  | .ptcRepro => 82
  | .srvCtl => 83
  | .srvCap => 84
  | .srvWall => 85
  | .srvOcc => 86
  | .srvPages => 87
  | .srvUtil => 88
  | .srvStat => 89
  | .srvAccsel => 90
  | .srvAccstate => 91
  | .srvAcclen => 92
  | .srvTensel => 93
  | .srvTenbal => 94
  | .srvTencfg => 95
  | .dmaBcctl => 96
  | .dmaBcstat => 97
  | .srvSwap => 98
  | .mirCtl => 99
  | .mirState => 100
  | .mirStat => 101
  | .clkState => 102
  | .clkStepcmd => 103
  | .clkDroop => 104
  | .pwrThermctl => 105
  | .pwrThermstat => 106
  | .pwrCtl => 107
  | .pwrInput => 108
  | .galGate => 109
  | .tilBankgate => 110
  | .fusCfg => 111
  | .fusHarvest => 112
  | .fusArb => 113
  | .fusVkey => 114
  | .fusOwnkey => 115
  | .secBootstat => 116
  | .secFault => 117
  | .secIdpub => 118
  | .secPolicy => 119
  | .updCtl => 120
  | .updState => 121

/-- How many registers of a kind the register windows hold: one a tile (64y + x), gallery, channel, port, die, engine, region
or function, or as their names count them (R331). -/
def RegKind.count : RegKind → Nat
  | .tilPadctl | .tilState | .tilDescevt | .tilSlotcmd | .tilSpcnt | .tilSpfault | .tilMxctl | .tilMxkrow | .tilMxstat
  | .tilMxfault | .tilVctl | .tilVcsel | .tilVcword | .tilVstat | .tilLate | .tilQstat | .tilBankgate => 3072
  | .tilHndb | .tilHndc | .tilSlotmap => 196608
  | .galFetch | .galQstat | .galOcc | .galGate => 192
  | .memRef | .memStat | .memCal => 48
  | .dieHarvest | .dieXstat | .ptcRuna | .ptcRunb | .srvSwap | .fusVkey => 8
  | .dmaSrc | .dmaDst | .dmaLen | .dmaNext | .dmaCtl | .dmaStat | .dmaErr => 320
  | .hstCmdring | .hstCplring | .hstEvring | .hstSbaddr | .hstRingstat | .hstEvstat | .hstIrqmod => 16
  | .hstFwbase | .hstFwlim => 128
  | .hstHidigest | .fusOwnkey | .secIdpub => 4
  | .lnkCtl | .lnkStat | .lnkErr | .lnkBudget | .lnkPool => 32
  | .ptcHloga | .ptcHlogb => 256
  | .ptcOcc => 6
  | .anxCtl | .anxStat | .fabEpoch | .fabEpochcmd | .fabDisc | .dmaBcstat | .srvCtl | .srvCap | .srvOcc | .srvPages | .srvUtil
  | .srvStat | .srvAccsel | .srvAccstate | .srvAcclen | .srvTensel | .srvTenbal | .srvTencfg => 2
  | .fabStrag => 1024
  | .hstHistate | .hstHiid | .hstHierr | .hstFwctl | .dmaBcctl | .ptcCount | .ptcSched | .ptcAdj | .ptcState | .ptcHoldreq | .ptcHlogptr | .ptcOccwin
  | .memCfg | .memPlan | .memErrlog | .memStepok | .fabId | .fabCtl | .fabSyncctl | .fabSyncstat | .fabBarctl
  | .fabLaunch | .fabLstat | .ptcRepro | .srvWall | .mirCtl | .mirState | .mirStat | .clkState | .clkStepcmd | .clkDroop
  | .pwrThermctl | .pwrThermstat | .pwrCtl | .pwrInput | .fusCfg | .fusHarvest | .fusArb | .secBootstat | .secFault
  | .secPolicy | .updCtl | .updState => 1

end Sys2Proof.Machine
end

