-- ==== Sys2Proof/Syntax.lean ====
section
/-! DEFINITION. The commands of the block: one constructor of `Instr` for each row of spec/opcode_table.json, with the
row's operands.  The comment after a constructor names its row and its rule. -/

namespace Sys2Proof
open Machine

/-- A tile's logical coordinate (R27, R114). -/
structure Xy where
  x : Nat
  y : Nat
  deriving DecidableEq, Repr

/-- The three slots of a triple (R52). -/
inductive Slot where
  | s | v | x
  deriving DecidableEq, Repr

/-- A router port's direction (R112); its code is that of R118. -/
inductive Dir where
  | north | east | south | west
  deriving DecidableEq, Repr

/-- The register-register scalar operations (R62, OP 0x10 to 0x1E). -/
inductive AluOp where
  | add | sub | and | or | xor | shl | shr | sra | mul | mulhu | min | max | minu | maxu | sel
  deriving DecidableEq, Repr

/-- The immediate scalar operations (R62, OP 0x20 to 0x2F). -/
inductive AluImmOp where
  | addi | andi | ori | xori | shli | shri | srai | muli | ldi | ldhi
  deriving DecidableEq, Repr

/-- The compare relations in the order of OP 0x30 to 0x35 (R62, R63). -/
inductive Rel where
  | eq | ne | lt | ltu | ge | geu
  deriving DecidableEq, Repr

/-- The fields of a `vrun` (R183). -/
structure VrunF where
  chain : Fin 8
  rcnt : Fin 64
  src : Fin 8
  inp : Fin 16
  iw : Fin 8
  sp : Fin 32
  auxen : Bool
  agAux : Fin 16
  sink : Fin 4
  ow : Fin 8
  out : Fin 16
  mskw : Bool
  sc : Fin 32
  nstg : Fin 16
  deriving DecidableEq, Repr

/-- The fields of an `mmul` (R158). -/
structure MmulF where
  wbuf : Fin 2
  aset : Fin 2
  agA : Fin 16
  afmt : Fin 16
  row0 : Fin 64
  rcnt : Fin 64
  sk : Fin 32
  klvl : Fin 4
  kle : Bool
  agS : Fin 16
  deriving DecidableEq, Repr

/-- The fields of an `mdrain` or `mdrainv` (R158); an `mdrainv` has no `ag_d`. -/
structure DrainF where
  aset : Fin 2
  row0 : Fin 64
  rcnt : Fin 64
  node : Fin 16
  part : Bool
  clr : Bool
  deriving DecidableEq, Repr

/-- The fields of a `qrd` or `qwr` (R218). -/
structure QueueF where
  agExt : Fin 16
  agLoc : Fin 16
  size : Fin 16
  tag : Fin 16
  dly : BitVec 20
  deriving DecidableEq, Repr

/-- The fields of a `wget` or `wput` (R118). -/
structure WinF where
  sa : Fin 32
  agRemote : Fin 16
  rhandle : Fin 64
  agLocal : Fin 16
  deriving DecidableEq, Repr

/-- Who writes a register: the host on a PCIe function (0 the PF), or firmware of a module controller
(0 IO-N, 1 IO-S) (R350, R569). -/
inductive Writer where
  | host (fn : Nat)
  | firmware (io : Nat)
  deriving DecidableEq, Repr

/-- What the host has done since the last scan: the bytes it has written to its memory, and how many virtual functions the PF driver
has enabled by now (R330, R335). -/
structure HostDone where
  writes : List (Nat × Byte)
  vfs : Fin 16
  deriving DecidableEq, Repr

/-- The part of a command-ring entry every command has: function, TAG, IRQ flag and ring index (R338). -/
structure Cmd where
  fn : Nat
  tag : BitVec 32
  irq : Bool
  index : Nat
  deriving DecidableEq, Repr

/-- A register: its kind and its place among the registers of that kind. -/
structure Reg where
  kind : RegKind
  idx : Nat
  deriving DecidableEq, Repr

/-- A DMA descriptor (R312). -/
structure Desc where
  src : BitVec 64
  dst : BitVec 64
  len : BitVec 32
  ctrl : BitVec 32
  next : BitVec 64
  deriving DecidableEq, Repr

/-- A DMA channel: die 0 to 7 for D0 to D7, 8 IO-N, 9 IO-S, and the channel within it (R35, R305). -/
structure Chan where
  die : Nat
  ch : Nat
  deriving DecidableEq, Repr

/-- What a GDDR7 controller finds when it serves a granule (R283). -/
inductive GranRes where
  | clean
  | corrected (n : Nat)
  | retried (n ce : Nat)
  | lost
  deriving DecidableEq, Repr

/-- The next access of a DMA channel: its direction, and what the controller of a GDDR7 granule finds (R283, R307). -/
structure DmaTry where
  write : Bool
  res : GranRes
  deriving DecidableEq, Repr

/-- Why a DMA access fails outside the module's own checks: an error on PCIe, a granule of GDDR7 lost, poisoned data of the annex
device, or no response of it in time (causes 1, 4 and 5 of R320). -/
inductive DmaLoss where
  | pcie | granule | poisoned | timeout
  deriving DecidableEq, Repr

/-- What the annex device answers to a request (R287, R288). -/
inductive AnxRes where
  | done
  | poisoned (granules : List Nat)
  deriving DecidableEq, Repr

/-- What training of an annex port ends with: capacity in bytes, link width and rate codes (R286, R303). -/
structure AnxLink where
  capacity : Nat
  width : Fin 3
  rate : Fin 3
  deriving DecidableEq, Repr

/-- A flit: the header fields of R363 and the payload bytes of R362. -/
structure Flit where
  kind : Nat
  seq : Nat
  ackseq : Nat
  nak : Bool
  cclass : Nat
  ccount : Nat
  sop : Bool
  eop : Bool
  spec : BitVec 20
  payload : List Byte
  deriving DecidableEq, Repr

/-- What the far end and the lanes give a training phase (R382). -/
structure TrainInfo where
  width : Fin 3        -- 0 x4, 1 x2, 2 x1: the width agreed in phase 3
  peerGen : Nat
  peerMod : Nat
  peerPort : Nat
  peerE : Nat
  occSched : Nat
  occBulk : Nat
  occMgmt : Nat
  peerKept : Option Nat
  rtt : Nat
  deriving DecidableEq, Repr

/-- A bulk or management packet (R405). -/
structure Packet where
  type : Nat
  epoch : Nat
  dest : Nat
  origin : Nat
  ref : BitVec 64
  frag : Nat
  frags : Nat
  body : List Byte
  deriving DecidableEq, Repr

/-- Where a packet an I/O die routes comes from (R409). -/
inductive PktSrc where
  | origin
  | port (p : Nat)
  deriving DecidableEq, Repr

/-- A node of a launch tree or broadcast tree descriptor (R423, R521). -/
structure TreeNode where
  module : Nat
  parent : Nat
  alt : Nat
  region : Nat
  plan : Nat
  dest : Nat
  map : Nat
  chan : Nat
  deriving DecidableEq, Repr

/-- A launch tree descriptor (R423). -/
structure Tree where
  launchId : BitVec 64
  step : Nat
  nodes : List TreeNode
  deriving DecidableEq, Repr

/-- A broadcast tree descriptor with the stream LENGTH of its OPEN (R521, R523). -/
structure BTree where
  bcastId : BitVec 64
  length : Nat
  nodes : List TreeNode
  deriving DecidableEq, Repr

/-- The payload of a SYNCRSP (R419): times in sixteenths of a plan cycle. -/
structure SyncRsp where
  depth : Nat
  synced : Bool
  step : Nat
  eps : Int
  t2 : Nat
  t3 : Nat
  deriving DecidableEq, Repr

/-- What HELLO carries (R545). -/
structure Hello where
  id : Nat
  mirror : Nat
  imageId : BitVec 64
  digest : List Byte
  deriving DecidableEq, Repr

/-- The full image of an accession entry, as a step record, a sync or a handover carries it (R550, R556); `pages` are the
sender's page numbers, and with the tables come the tokens the entry still holds. -/
structure MirReq where
  rid : BitVec 32
  region : Nat
  state : Nat
  prio : Nat
  tenant : Nat
  fn : Nat
  tag : BitVec 32
  len : Nat
  emitted : Nat
  maxnew : Nat
  depth : Nat
  depthReq : Nat
  deadline : Option Nat
  gap : Nat
  seed : BitVec 64
  topk : Nat
  temp : Lane
  topp : Lane
  rep : Lane
  freq : Lane
  pres : Lane
  flags : Nat
  pub : BitVec 64
  pages : List Nat
  reps : List (Nat × Nat)
  promptLen : Nat
  pfxLen : Nat
  pfxFull : Nat
  addr : Nat
  prefilled : Nat
  attRes : Nat
  pageRes : Nat
  firstWait : Bool
  late : Bool
  hist : List Nat
  toks : List Nat
  deriving DecidableEq, Repr

/-- A catalogue entry as a step record publishes it (R550). -/
structure MirCat where
  tenant : Nat
  handle : BitVec 64
  count : Nat
  pages : List Nat
  tail : List Nat
  deriving DecidableEq, Repr

/-- An emission entry (R498). -/
structure Emission where
  fn : Nat
  rid : BitVec 32
  late : Bool
  final : Bool
  pubfail : Bool
  reason : Nat
  pos : Nat
  tag : BitVec 32
  toks : List Nat
  step : Nat
  deadline : Option Nat
  gap : Nat
  region : Nat
  deriving DecidableEq, Repr

/-- A step record of the pairing protocol (R550); its committed load counts the sender's submissions before the query `loadQuery`
(R548). -/
structure StepRecord where
  step : Nat
  engine : Nat
  kvCount : Nat
  loadDec : Nat
  loadAtt : Nat
  loadPages : Nat
  loadQuery : Nat
  reqs : List MirReq
  emissions : List Emission
  catAdd : List MirCat
  catDrop : List (Nat × BitVec 64)
  deriving DecidableEq, Repr

/-- Why the prompt or a prefix page of a request does not come: a cause its fetch gives, a granule lost in a page being moved, or the
annex device, whose read data are poisoned or whose response does not come (R283, R288, R502). -/
inductive FetchErr where
  | fetch (cause : Nat)
  | granule (addr : BitVec 64)
  | poisoned (addr : BitVec 64)
  | timeout (addr : BitVec 64)
  deriving DecidableEq, Repr

/-- The end of a catalogue move on an engine: the granules that its copy has lost (R283, R288, R488). -/
structure MoveEnd where
  engine : Fin 2
  lost : List (BitVec 64)
  deriving DecidableEq, Repr

/-- A KV packet of the pairing protocol (R547, R550). -/
structure KvPacket where
  page : Nat
  first : Nat
  count : Nat
  step : Nat
  engine : Nat
  data : List Byte
  deriving DecidableEq, Repr

/-- A serving command forwarded to the leader in twin mode (R557). -/
structure TwinCmd where
  kind : Nat            -- the opcode forwarded: 0x0101, 0x0102, 0x0202, 0x0203, 0x0204, 0x0205
  cmd : Cmd
  region : Nat
  rid : BitVec 32
  block : List Byte
  prompt : Option (List Nat)  -- the tokens fetched; none where the fetch failed
  wall : Nat
  fromPartner : Bool
  verdict : Nat
  applyStep : Nat
  deriving DecidableEq, Repr

/-- A partner's heartbeat (R553). -/
structure Heartbeat where
  step : Nat
  wall : Nat
  digest : List Byte
  deriving DecidableEq, Repr

/-- The causes of a warm reset, with the code SEC_BOOTSTAT.RESET takes (R597, R624). -/
inductive ResetCause where
  | perst | pfFlr | watchdog | activation | trialWindow | milug | ecc
  deriving DecidableEq, Repr

/-- The commands: one constructor for each row of spec/opcode_table.json, in its order. -/
inductive Instr where
  -- chapter 02: issue and the S slot
  | tripleIssue (t : Xy) -- TRIPLE_ISSUE R53
  | nop (t : Xy) (slot : Slot) (pr : Fin 16) -- NOP R54
  | mark (t : Xy) (pr : Fin 16) (code : BitVec 16) -- MARK R62
  | scalarAlu (t : Xy) (pr : Fin 16) (op : AluOp) (sd sa sb : Fin 32) (ps : Fin 16) -- SCALAR_ALU R62
  | scalarAluImmediate (t : Xy) (pr : Fin 16) (op : AluImmOp) (sd sa : Fin 32) (imm : BitVec 32) -- SCALAR_ALU_IMMEDIATE R62
  | cmp (t : Xy) (pr : Fin 16) (rel : Rel) (pd : Fin 16) (sa sb : Fin 32) -- CMP R62
  | cmpi (t : Xy) (pr : Fin 16) (rel : Rel) (pd : Fin 16) (sa : Fin 32) (imm : BitVec 32) -- CMPI R62
  | plog (t : Xy) (pr : Fin 16) (pd pa pb : Fin 16) (tt : BitVec 4) -- PLOG R62
  | sld (t : Xy) (pr : Fin 16) (sd sa : Fin 32) (h : Fin 64) (off : BitVec 21) -- SLD R64
  | sst (t : Xy) (pr : Fin 16) (ss sa : Fin 32) (h : Fin 64) (off : BitVec 21) -- SST R64
  | sldAg (t : Xy) (pr : Fin 16) (sd : Fin 32) (ag : Fin 16) -- SLD_AG R64
  | sstAg (t : Xy) (pr : Fin 16) (ss : Fin 32) (ag : Fin 16) -- SST_AG R64
  | sget (t : Xy) (pr : Fin 16) (sd : Fin 32) (sreg : BitVec 8) -- SGET R65
  | loop (t : Xy) (level : Fin 4) (count : BitVec 20) (body : BitVec 12) -- LOOP R66
  | loopd (t : Xy) (level : Fin 4) (body : BitVec 12) -- LOOPD R66
  | agbase (t : Xy) (pr : Fin 16) (ag : Fin 16) (imm : BitVec 48) -- AGBASE R62
  | agset (t : Xy) (pr : Fin 16) (ag : Fin 16) (sa : Fin 32) -- AGSET R62
  | agadd (t : Xy) (pr : Fin 16) (ag : Fin 16) (sa : Fin 32) -- AGADD R62
  | aghnd (t : Xy) (pr : Fin 16) (ag : Fin 16) (space : Bool) (h : Fin 64) -- AGHND R62
  | dwrC (t : Xy) (level : Fin 4) (count : BitVec 20) -- DWR_C R70
  | dwrS (t : Xy) (pr : Fin 16) (level : Fin 4) (ag : Fin 16) (sa : Fin 32) -- DWR_S R70
  | dwrSi (t : Xy) (pr : Fin 16) (level : Fin 4) (ag : Fin 16) (imm : BitVec 32) -- DWR_SI R70
  | resultWriteback (t : Xy) -- RESULT_WRITEBACK R60
  -- chapter 04: the matrix unit
  | mload (t : Xy) (pr : Fin 16) (wbuf : Fin 2) (ag : Fin 16) (wfmt : Fin 16) -- MLOAD R162
  | mscl (t : Xy) (pr : Fin 16) (wbuf : Fin 2) (ag : Fin 16) -- MSCL R162
  | mzero (t : Xy) (pr : Fin 16) (aset : Fin 2) (row0 rcnt : Fin 64) -- MZERO R162
  | mmul (t : Xy) (pr : Fin 16) (f : MmulF) -- MMUL R162
  | mdrain (t : Xy) (pr : Fin 16) (f : DrainF) (agD : Fin 16) -- MDRAIN R162
  | mdrainv (t : Xy) (pr : Fin 16) (f : DrainF) -- MDRAINV R162
  | leafEnter (t : Xy) -- LEAF_ENTER R152
  | drainRowWrite (t : Xy) -- DRAIN_ROW_WRITE R167
  -- chapter 05: the vector engine
  | vdef (t : Xy) (pr : Fin 16) (chain stage : Fin 8) (word : BitVec 46) -- VDEF R181
  | vrun (t : Xy) (pr : Fin 16) (f : VrunF) -- VRUN R183
  | vrunRowWrite (t : Xy) -- VRUN_ROW_WRITE R204
  -- chapter 03: the mesh
  | cput (t : Xy) (pr : Fin 16) (sa : Fin 32) (agSrc agDst : Fin 16) (dh : Fin 64) -- CPUT R119
  | nput (t : Xy) (pr : Fin 16) (dir : Dir) (agSrc agDst : Fin 16) (dh : Fin 64) -- NPUT R120
  | wget (t : Xy) (pr : Fin 16) (f : WinF) -- WGET R125
  | wput (t : Xy) (pr : Fin 16) (f : WinF) -- WPUT R125
  | packetDepart (pkt : Nat) -- PACKET_DEPART R119
  | packetLand (pkt : Nat) -- PACKET_LAND R119
  | creditReturn (pkt : Nat) -- CREDIT_RETURN R121
  | windowPacketHop (t : Xy) (dir : Dir) -- WINDOW_PACKET_HOP R124
  | windowReadServe (pkt : Nat) -- WINDOW_READ_SERVE R125
  -- chapters 06 and 07: queues and external memory
  | qrd (t : Xy) (pr : Fin 16) (f : QueueF) -- QRD R218
  | qwr (t : Xy) (pr : Fin 16) (f : QueueF) -- QWR R222
  | qwait (t : Xy) (pr : Fin 16) (mask : BitVec 16) -- QWAIT R224
  | qwrSourceRead (acc : Nat) -- QWR_SOURCE_READ R222
  | queueRequestArrive (acc : Nat) -- QUEUE_REQUEST_ARRIVE R227
  | commitPoint (acc : Nat) (ready : List (Nat × Nat)) -- COMMIT_POINT R280
  | queueLanding (acc : Nat) -- QUEUE_LANDING R221
  | writeTakesEffect (acc : Nat) -- WRITE_TAKES_EFFECT R222
  | granuleServe (acc : Nat) (gran : Nat) (res : GranRes) -- GRANULE_SERVE R279
  | calendarWindowOpen (ch : Nat) (j : Fin 4) (scrubFixed : GranRes) -- CALENDAR_WINDOW_OPEN R275
  | retrimComplete (ch : Nat) -- RETRIM_COMPLETE R292
  | temperatureBinChange (ch : Nat) (temp : BitVec 8) -- TEMPERATURE_BIN_CHANGE R290
  | retrimForce (by_ : Writer) (ch : Nat) (off : Nat) (val : BitVec 32) -- RETRIM_FORCE R300
  | holdRefresh (ch : Nat) (bank : Fin 16) -- HOLD_REFRESH R278
  | refreshOverdue (ch : Nat) (bank : Fin 16) -- REFRESH_OVERDUE R278
  | memRefWrite (by_ : Writer) (ch : Nat) (off : Nat) (val : BitVec 32) -- MEM_REF_WRITE R297
  | annexRequestSend (port : Fin 2) (acc : Nat) -- ANNEX_REQUEST_SEND R287
  | annexResponse (port : Fin 2) (acc : Nat) (res : AnxRes) -- ANNEX_RESPONSE R287
  | annexTimeout (port : Fin 2) -- ANNEX_TIMEOUT R288
  | annexLinkDown (port : Fin 2) -- ANNEX_LINK_DOWN R288
  | annexTrainingEnd (port : Fin 2) (link : Option AnxLink) -- ANNEX_TRAINING_END R286
  | annexRetrain (by_ : Writer) (port : Fin 2) (off : Nat) (val : BitVec 32) -- ANNEX_RETRAIN R302
  -- chapters 02 and 06: plan streaming, starts, holds
  | fetchOpportunity (g : Nat) (late : Nat) -- FETCH_OPPORTUNITY R83
  | blockLanding (g : Nat) (res : List (Nat × GranRes)) -- BLOCK_LANDING R83
  | blockBroadcast (g : Nat) -- BLOCK_BROADCAST R83
  | parkRequest -- PARK_REQUEST R243
  | invocationStart (region : Fin 8) -- INVOCATION_START R87
  | invocationEnd (t : Xy) -- INVOCATION_END R87
  | launchCountDecision (region : Fin 8) -- LAUNCH_COUNT_DECISION R245
  | holdBegin -- HOLD_BEGIN R231
  | holdEnd -- HOLD_END R231
  | boundaryHoldRequest -- BOUNDARY_HOLD_REQUEST R235
  | ptcHoldreqWrite (by_ : Writer) (off : Nat) (val : BitVec 32) -- PTC_HOLDREQ_WRITE R258
  | occWindowEnd -- OCC_WINDOW_END R251
  -- chapter 08: DMA
  | dmaStart (c : Cmd) (ch : Chan) (d : Desc) -- DMA_START R313
  | dmaGo (by_ : Writer) (ch : Chan) (off : Nat) (val : BitVec 32) -- DMA_GO R326
  | dmaPause (by_ : Writer) (ch : Chan) (off : Nat) (val : BitVec 32) -- DMA_PAUSE R326
  | dmaResume (by_ : Writer) (ch : Chan) (off : Nat) (val : BitVec 32) -- DMA_RESUME R317
  | dmaAbort (by_ : Writer) (ch : Chan) (off : Nat) (val : BitVec 32) -- DMA_ABORT R326
  | dmaSlotAccess (ch : Chan) (acc : DmaTry) -- DMA_SLOT_ACCESS R307
  | dmaDrainEnd (ch : Chan) -- DMA_DRAIN_END R318
  | dmaAccessFail (ch : Chan) (write : Bool) (addr : BitVec 64) (cause : DmaLoss) -- DMA_ACCESS_FAIL R320
  | dmaPacketHop (pkt : Nat) -- DMA_PACKET_HOP R311
  | bankGateEffect (t : Xy) -- BANK_GATE_EFFECT R322
  -- chapter 09: host interface
  | ringScan (host : HostDone) -- RING_SCAN R334
  | nopCommand (c : Cmd) -- NOP_COMMAND R340
  | loadImage (c : Cmd) (addr : BitVec 64) (len : BitVec 32) (sigOk : Bool) -- LOAD_IMAGE R38
  | planLoad (c : Cmd) (addr : BitVec 64) (len : BitVec 32) -- PLAN_LOAD R341
  | planFree (c : Cmd) (plan : BitVec 32) -- PLAN_FREE R341
  | launch (c : Cmd) (region : BitVec 8) (mode : BitVec 8) (plan : BitVec 32) (count : BitVec 64) (tree : BitVec 64) (reads : List (Nat × GranRes)) -- LAUNCH R342
  | stop (c : Cmd) (region : BitVec 8) -- STOP R344
  | completionWrite (fn : Nat) -- COMPLETION_WRITE R345
  | eventWrite (fn : Nat) -- EVENT_WRITE R348
  | interruptRaise (fn : Nat) (vec : Fin 8) -- INTERRUPT_RAISE R349
  | ringAccessFail (fn : Nat) (addr : BitVec 64) -- RING_ACCESS_FAIL R351
  | ringRestart (fn : Nat) -- RING_RESTART R351
  | ringEnable (fn : Nat) (ring : Fin 3) (val : BitVec 64) -- RING_ENABLE R352
  | firewallWindowWrite (by_ : Writer) (fn : Nat) (k : Fin 8) (lim : Bool) (off : Nat) (val : BitVec 64) -- FIREWALL_WINDOW_WRITE R350
  | absentAccess (by_ : Writer) (off : Nat) (val : Option (BitVec 64)) -- ABSENT_ACCESS R13
  | vfFlr (fn : Nat) -- VF_FLR R333
  | registerWrite (by_ : Writer) (r : Reg) (off : Nat) (val : BitVec 64) -- REGISTER_WRITE R16
  | handleEntryWrite (by_ : Writer) (t : Xy) (n : Fin 64) (ctl : Bool) (off : Nat) (val : BitVec 64) -- HANDLE_ENTRY_WRITE R106
  | slotCommand (by_ : Writer) (t : Xy) (off : Nat) (val : BitVec 32) -- SLOT_COMMAND R132
  | mxctlWrite (by_ : Writer) (t : Xy) (off : Nat) (val : BitVec 32) -- MXCTL_WRITE R173
  | vctlWrite (by_ : Writer) (t : Xy) (off : Nat) (val : BitVec 32) -- VCTL_WRITE R209
  | vcwordWrite (by_ : Writer) (t : Xy) (off : Nat) (val : BitVec 64) -- VCWORD_WRITE R211
  -- chapter 10: the link
  | linkCycle (p : Fin 32) -- LINK_CYCLE R379
  | flitReceive (p : Fin 32) (b : List Byte) (crc : BitVec 64) -- FLIT_RECEIVE R367
  | ackPoint (p : Fin 32) -- ACK_POINT R369
  | replayTimerExpiry (p : Fin 32) -- REPLAY_TIMER_EXPIRY R371
  | scheduledFlitDelivery (p : Fin 32) -- SCHEDULED_FLIT_DELIVERY R378
  | fullTrainingAttempt (p : Fin 32) -- FULL_TRAINING_ATTEMPT R383
  | trainingPhaseEnd (p : Fin 32) (info : TrainInfo) -- TRAINING_PHASE_END R382
  | trainingTimeout (p : Fin 32) -- TRAINING_TIMEOUT R382
  | lossOfSignal (p : Fin 32) -- LOSS_OF_SIGNAL R383
  | keptStateExpiry (p : Fin 32) -- KEPT_STATE_EXPIRY R386
  | fecRateWindow (p : Fin 32) (bad : Nat) -- FEC_RATE_WINDOW R383
  | lnkRetrain (by_ : Writer) (p : Fin 32) (off : Nat) (val : BitVec 32) -- LNK_RETRAIN R389
  | lnkRoleWrite (by_ : Writer) (p : Fin 32) (off : Nat) (val : BitVec 32) -- LNK_ROLE_WRITE R389
  | lnkWreqWrite (by_ : Writer) (p : Fin 32) (off : Nat) (val : BitVec 32) -- LNK_WREQ_WRITE R389
  -- chapter 11: the fabric
  | fabIdWrite (by_ : Writer) (off : Nat) (val : BitVec 32) -- FAB_ID_WRITE R396
  | scheduledPacketSend (die : Fin 2) (stream : Fin 64) -- SCHEDULED_PACKET_SEND R400
  | edgeUnitDelivery (die : Fin 2) -- EDGE_UNIT_DELIVERY R402
  | packetRoute (die : Fin 2) (src : PktSrc) -- PACKET_ROUTE R409
  | norouteTimeout (die : Fin 2) -- NOROUTE_TIMEOUT R410
  | undeliverableNotice (type : Nat) (ref : BitVec 64) (cause : Fin 4) -- UNDELIVERABLE_NOTICE R408
  | fragmentReceive (pkt : Packet) -- FRAGMENT_RECEIVE R407
  | reassemblyTimeout (type : Nat) (origin : Nat) (ref : BitVec 64) -- REASSEMBLY_TIMEOUT R407
  | tableWrite (by_ : Writer) (die : Fin 2) (bank : Fin 2) (id : BitVec 20) (off : Nat) (mask : BitVec 32) -- TABLE_WRITE R412
  | drain (by_ : Writer) (die : Fin 2) (off : Nat) -- DRAIN R416
  | switch (by_ : Writer) (die : Fin 2) (off : Nat) -- SWITCH R416
  | epochRelease (by_ : Writer) (die : Fin 2) (off : Nat) -- EPOCH_RELEASE R416
  | syncreqSend -- SYNCREQ_SEND R419
  | syncreqReceive (p : Fin 32) (t1 : Nat) -- SYNCREQ_RECEIVE R419
  | syncrspReceive (p : Fin 32) (r : SyncRsp) (at_ : Fin 16) -- SYNCRSP_RECEIVE R421
  | fabSyncctlWrite (by_ : Writer) (off : Nat) (val : BitVec 32) -- FAB_SYNCCTL_WRITE R441
  | launchMessageReceive (tree : Tree) (count : BitVec 64) -- LAUNCH_MESSAGE_RECEIVE R427
  | altwaitExpiry (child : Nat) -- ALTWAIT_EXPIRY R426
  | lackReceive (child : Nat) (id : BitVec 64) -- LACK_RECEIVE R426
  | lfailReceive (node : Nat) (id : BitVec 64) (status : BitVec 16) -- LFAIL_RECEIVE R428
  | abortReceive (id : BitVec 64) -- ABORT_RECEIVE R428
  | armReceive (tree : Tree) (count : BitVec 64) -- ARM_RECEIVE R429
  | readyReceive (node : Nat) (id : BitVec 64) -- READY_RECEIVE R430
  | releaseFlitReceive (p : Fin 32) (remain : Nat) (fwdDelay : Nat) -- RELEASE_FLIT_RECEIVE R430
  | barrierTimeout -- BARRIER_TIMEOUT R431
  | arriveReceive (node : Nat) (id : BitVec 64) (unsync : Bool) -- ARRIVE_RECEIVE R432
  | stepReleaseReceive (last : Nat) (next : Nat) (abort : Bool) -- STEP_RELEASE_RECEIVE R433
  | stepBarrierTimeout -- STEP_BARRIER_TIMEOUT R435
  -- chapter 13: the serving engine
  | srvConfig (c : Cmd) (region : BitVec 8) (addr : BitVec 64) -- SRV_CONFIG R464
  | submit (c : Cmd) (region : BitVec 8) (addr : BitVec 64) -- SUBMIT R479
  | cancel (c : Cmd) (rid : BitVec 32) -- CANCEL R503
  | outring (c : Cmd) (base : BitVec 64) (size : BitVec 8) -- OUTRING R474
  | tenantSet (c : Cmd) (engine : BitVec 8) (tenant : BitVec 16) (limit : BitVec 32) (window : BitVec 16) (funcs : BitVec 16) -- TENANT_SET R490
  | catDrop (c : Cmd) (engine : BitVec 8) (tenant : BitVec 16) (handle : BitVec 64) -- CAT_DROP R489
  | catMove (c : Cmd) (engine : BitVec 8) (tenant : BitVec 16) (handle : BitVec 64) (tier : BitVec 8) -- CAT_MOVE R488
  | catMoveComplete (engine : MoveEnd) (tenant : BitVec 16) (handle : BitVec 64) -- CAT_MOVE_COMPLETE R488
  | promptFetchComplete (rid : BitVec 32) (error : Option FetchErr) -- PROMPT_FETCH_COMPLETE R471
  | boundaryWork (engine : Fin 2) -- BOUNDARY_WORK R466
  | stepStart (region : Fin 8) -- STEP_START R465
  | emissionWrite (fn : Nat) -- EMISSION_WRITE R498
  | tenantRefill (engine : Fin 2) (tenant : BitVec 12) -- TENANT_REFILL R490
  | depthWrite (by_ : Writer) (engine : Fin 2) (off : Nat) (val : BitVec 64) -- DEPTH_WRITE R497
  -- chapter 14: weights
  | bcast (c : Cmd) (tree : BitVec 64) (src : BitVec 64) (length : BitVec 64) (srcsp : BitVec 8) (chan : BitVec 8) -- BCAST R523
  | openReceive (b : BTree) -- OPEN_RECEIVE R523
  | bcastReadyReceive (node : Nat) (id : BitVec 64) -- BCAST_READY_RECEIVE R523
  | chunkReceive (die : Fin 2) (id : BitVec 64) (j : Nat) (data : List Byte) -- CHUNK_RECEIVE R524
  | bcastStall (die : Fin 2) -- BCAST_STALL R525
  | needReceive (die : Fin 2) (node : Nat) (id : BitVec 64) (j : Nat) -- NEED_RECEIVE R525
  | bcfailReceive (node : Nat) (id : BitVec 64) -- BCFAIL_RECEIVE R527
  | bcastDoneReceive (node : Nat) (id : BitVec 64) -- BCAST_DONE_RECEIVE R527
  | bcastTimeout (die : Fin 2) -- BCAST_TIMEOUT R527
  | bcastAbortReceive (die : Fin 2) (id : BitVec 64) -- BCAST_ABORT_RECEIVE R527
  | wtable (c : Cmd) (region : BitVec 8) (addr : BitVec 64) -- WTABLE R530
  | wptr (c : Cmd) (region : BitVec 8) (first : BitVec 8) (count : BitVec 16) (addr : BitVec 64) -- WPTR R531
  | swap (c : Cmd) (addr : BitVec 64) (units : BitVec 16) (perStep : BitVec 8) -- SWAP R533
  | swapCopy -- SWAP_COPY R534
  | swapCopyEnd -- SWAP_COPY_END R535
  | fenceOut (c : Cmd) (region : BitVec 8) -- FENCE_OUT R538
  | fenceIn (c : Cmd) (region : BitVec 8) -- FENCE_IN R539
  -- chapter 15: pairs
  | helloReceive (p : Fin 32) (h : Hello) -- HELLO_RECEIVE R545
  | syncComplete -- SYNC_COMPLETE R556
  | admitQueryReceive (engine : Fin 2) (region : Fin 8) (dec att pages : Nat) (query : Nat) -- ADMIT_QUERY_RECEIVE R548
  | admitVerdictReceive (query : Nat) (status : BitVec 16) -- ADMIT_VERDICT_RECEIVE R548
  | twinCommandReceive (cmd : TwinCmd) -- TWIN_COMMAND_RECEIVE R557
  | kvPacketReceive (k : KvPacket) -- KV_PACKET_RECEIVE R551
  | stepRecordApply (r : StepRecord) -- STEP_RECORD_APPLY R551
  | ackReceive (step : Nat) (engine : Fin 2) -- ACK_RECEIVE R551
  | ackwaitExpiry (engine : Fin 2) -- ACKWAIT_EXPIRY R551
  | heartbeatReceive (p : Fin 32) (h : Heartbeat) -- HEARTBEAT_RECEIVE R553
  | idleHeartbeat -- IDLE_HEARTBEAT R553
  | heartbeatInterval -- HEARTBEAT_INTERVAL R553
  | pairJoin (c : Cmd) -- PAIR_JOIN R560
  | pairDrop (c : Cmd) -- PAIR_DROP R560
  | pairDropReceive -- PAIR_DROP_RECEIVE R560
  -- chapter 16: clocks, steps and power
  | stepRequest (by_ : Writer) (off : Nat) (val : BitVec 32) -- STEP_REQUEST R569
  | pendingStepRelease -- PENDING_STEP_RELEASE R569
  | dividerSwitch -- DIVIDER_SWITCH R570
  | droopTrip -- DROOP_TRIP R572
  | stretchEnd (n : Nat) -- STRETCH_END R572
  | catchupEnd -- CATCHUP_END R574
  | referenceLoss -- REFERENCE_LOSS R575
  | referenceReturn -- REFERENCE_RETURN R576
  | inputBoundaryCrossing (vin : BitVec 16) (iin : BitVec 16) -- INPUT_BOUNDARY_CROSSING R578
  | inputLowReset -- INPUT_LOW_RESET R578
  | powerStageRestart -- POWER_STAGE_RESTART R578
  | galGateWrite (by_ : Writer) (g : Nat) (off : Nat) (val : BitVec 32) -- GAL_GATE_WRITE R579
  | autoGate (g : Nat) -- AUTO_GATE R579
  | galleryWakeEnd (region : Fin 8) -- GALLERY_WAKE_END R579
  | tilBankgateWrite (by_ : Writer) (t : Xy) (off : Nat) (val : BitVec 32) -- TIL_BANKGATE_WRITE R580
  | bankUngateReady (t : Xy) (bank : Fin 32) -- BANK_UNGATE_READY R580
  | thermalLevelChange (guard : Fin 10) (temp : BitVec 8) -- THERMAL_LEVEL_CHANGE R581
  | guardHoldTick (guard : Fin 10) -- GUARD_HOLD_TICK R581
  | throttleHold -- THROTTLE_HOLD R582
  | overtempRailOff -- OVERTEMP_RAIL_OFF R583
  -- chapter 17: start-up, trust and update
  | vstbyApply (senseMatch milugOk : Bool) -- VSTBY_APPLY R594
  | supplyStage -- SUPPLY_STAGE R594
  | controllerStage (passA passB : Bool) -- CONTROLLER_STAGE R602
  | rootClockLock -- ROOT_CLOCK_LOCK R594
  | referenceWaitTimeout -- REFERENCE_WAIT_TIMEOUT R594
  | dieStage (untrained : List (Nat × Nat)) -- DIE_STAGE R594
  | selfTest (pass : List (BitVec 48)) -- SELF_TEST R294
  | moduleReady -- MODULE_READY R594
  | warmReset (cause : ResetCause) -- WARM_RESET R597
  | watchdogExpiry (io : Fin 2) -- WATCHDOG_EXPIRY R598
  | controllerEccError (io : Fin 2) -- CONTROLLER_ECC_ERROR R598
  | updBegin (c : Cmd) (addr : BitVec 64) (len : BitVec 32) (sigOk : Bool) -- UPD_BEGIN R610
  | updBlock (c : Cmd) (block : BitVec 16) (crc : BitVec 32) (addr : BitVec 64) -- UPD_BLOCK R610
  | updActivate (c : Cmd) (sigOk : Bool) -- UPD_ACTIVATE R611
  | updAbort (c : Cmd) -- UPD_ABORT R610
  | updConfirm (c : Cmd) -- UPD_CONFIRM R612
  | trialConfirmation -- TRIAL_CONFIRMATION R613
  | trialWindowExpiry -- TRIAL_WINDOW_EXPIRY R614
  | attest (c : Cmd) (nonce : BitVec 256) (addr : BitVec 64) (len : BitVec 32) -- ATTEST R619
  | policy (c : Cmd) (addr : BitVec 64) (sigOk : Bool) -- POLICY R617
  | ownerSet (c : Cmd) (hash : BitVec 256) -- OWNER_SET R617
  -- chapter 18: Milug
  | ident -- IDENT R644
  | setId (id : BitVec 20) -- SET_ID R644
  | telem -- TELEM R644
  | power (on : BitVec 8) -- POWER R644
  | reset -- RESET R644
  | fault -- FAULT R644
  | alertack -- ALERTACK R644
  | milugOwnerSet (hash : BitVec 256) -- MILUG_OWNER_SET R644
  | policyData (off : BitVec 16) (data : List Byte) -- POLICY_DATA R644
  | policyCommit (sigOk : Bool) -- POLICY_COMMIT R644
  -- the last rows of the table
  | pairJoinReceive -- PAIR_JOIN_RECEIVE R556
  | handoverReceive (step : Nat) (rids : List (BitVec 32)) (mirrored : List MirReq) -- HANDOVER_RECEIVE R556
  | powerCapCrossing (power : BitVec 16) -- POWER_CAP_CROSSING R582
  | vstbyLoss -- VSTBY_LOSS R635
  deriving DecidableEq, Repr

end Sys2Proof
end

