-- ==== Sys2Proof/Machine/State.lean ====
section
/-! DEFINITION. The state of the module as plain data, everything the spec gives it, and the state right after power-on
reset.  Registers of the spec's register tables live in `regs` (a register a field of `State` computes is a view of that
field, see `Machine.readReg`); the other fields hold what the chapters name beside the registers. -/

namespace Sys2Proof.Machine

/-- A sparse map with natural-number keys: keys strictly rising, no entry equal to the map's default. -/
abbrev SMap (α : Type) := List (Nat × α)

/-- The reasons a step may stop with a fault.  The block has none: no row of the table ends the machine's run. -/
inductive Fault where
  /-- Raised by no command.  It is safe: a claim that a step faults can be proved of no state. -/
  | none
  deriving DecidableEq, Repr

/-- The reasons a step may be refused. -/
inductive Refusal where
  /-- Raised by an arm of `exec` that has no meaning yet; safe, since nothing can be proved of a next state there. -/
  | notModelled (mnemonic : String)
  deriving DecidableEq, Repr

/-! ## The tile -/

/-- A loop level: active, index, latched count, first and end triple of the body, latched strides (R66, R67). -/
structure LoopLvl where
  active : Bool := false
  idx : Nat := 0
  count : Nat := 0
  first : Nat := 0
  last : Nat := 0
  strides : SMap (BitVec 32) := []
  deriving DecidableEq, Repr

/-- An address generator (R73); the latched strides stand with the loop levels. -/
structure Gen where
  base : BitVec 48 := 0
  space : Bool := false
  handle : Nat := 0
  deriving DecidableEq, Repr

/-- An outstanding scalar or predicate result (R60): its cycle, its register, its value, and whether a later-issued
write of the register has completed already. -/
structure OutWrite where
  due : Nat
  pred : Bool
  reg : Nat
  val : Word
  dead : Bool := false
  run : Nat := 0                          -- the vector run that will give the value (R200); 0 when it is known
  deriving DecidableEq, Repr

/-- A weight buffer (R138): format code (15 when not valid), block bytes and scale bytes. -/
structure WBuf where
  fmt : Nat := 15
  block : List Byte := []
  scales : List Byte := []
  deriving DecidableEq, Repr

/-- A stack entry of an accumulator row: level, index, and the value of each of the 64 columns (R153). -/
structure AccEntry where
  lvl : Nat
  idx : Nat
  vals : List Lane
  deriving DecidableEq, Repr

/-- An accumulator row: K state and the tree stack, top first (R138). -/
structure AccRow where
  kbase : Nat := 0
  knext : Nat := 0
  started : Bool := false
  poison : Bool := false
  cls : Nat := 0
  stack : List AccEntry := []
  deriving DecidableEq, Repr

/-- A handle entry as read (R95, R104). -/
structure Hnd where
  valid : Bool
  rread : Bool
  rwrite : Bool
  sync : Bool
  mode : Nat
  base : Nat
  size : Nat
  gated : Nat := 0                        -- the tile's banks that are gated (R580)
  deriving DecidableEq, Repr

/-- A run of consecutive bytes within a handle. -/
structure Span where
  off : Nat
  len : Nat
  deriving DecidableEq, Repr

/-- A scratchpad access: handle, space, direction, spans. -/
structure OwnAcc where
  h : Nat
  space : Bool
  wr : Bool
  sps : List Span
  deriving DecidableEq, Repr

/-- What an access to an accumulator row does when its cycle comes (R166, R167). -/
inductive AccKind where
  | zero
  | leaf (op r : Nat)
  | poison (cls : Nat)
  | read (op : Nat) (r : Nat) (node : Nat) (part clr : Bool)
  deriving DecidableEq, Repr

/-- A queued access to row `row` of set `set` in schedule cycle `due`, issued by the triple at `pc`. -/
structure AccAcc where
  due : Nat
  set : Nat
  row : Nat
  pc : Nat
  kind : AccKind
  deriving DecidableEq, Repr

/-- An `mmul` in progress (R158, R166, R167): its number, fields, class and KIDX, the buffer as latched, and the bytes of its
activation rows and scales read so far. -/
structure MulOp where
  op : Nat
  f : MmulF
  cls : Nat
  kidx : Nat
  w : WBuf
  act : SMap (List Byte) := []
  scl : SMap (List Byte) := []
  deriving DecidableEq, Repr

/-- A drained row on its way to the scratchpad or to a chain (R167): operation number, row number within it, its write
cycle, its values once read, and where it goes. -/
structure DrainRow where
  op : Nat
  r : Nat
  due : Nat
  vals : Option (List Lane) := none
  toChain : Bool := false
  hnd : Option Hnd := none                -- the handle entry the operation's issue governs it by (R105)
  handle : Nat := 0
  off : Nat := 0
  space : Bool := false
  pc : Nat := 0
  deriving DecidableEq, Repr

/-- A vector row in flight (R204): its write cycle, the run it belongs to and its number in it, and its lanes and auxiliary
lanes as they entered (none while they have not come). -/
structure VRow where
  due : Nat
  run : Nat
  r : Nat
  lanes : Option (List Lane)
  aux : Option (List Lane)
  last : Bool
  enters : Nat := 0                       -- the cycle it enters, and the vector register it reads then (SRC vector register)
  reg : Option Nat := none
  deriving DecidableEq, Repr

/-- A chain run in flight (R177, R182): its latched stage words and operands, its fields, its compress count. -/
structure VRunSt where
  id : Nat
  words : List (BitVec 46)
  opB : List (List Lane)
  opC : List (List Lane)
  f : VrunF
  outHandle : Nat
  outHnd : Hnd
  outOff : Nat
  outSpace : Bool
  count : Nat := 0
  pc : Nat
  chainOp : Nat := 0                      -- the mdrainv that feeds it, for SRC matrix
  deriving DecidableEq, Repr

/-- What an access of the engines is for: the block or the scales of a weight buffer, an activation row or the scales of a pair of rows, a
chain's source or auxiliary row, the write of a drained row or of a sink, the source of a `qwr`, a load or store of an S slot
deferred behind its own X slot (and whether it may name a control handle), or bytes not used. -/
inductive AccUse where
  | unused
  | block (wbuf : Nat)
  | scales (wbuf : Nat)
  | act (op : Nat) (rows : List Nat)
  | actScale (op q : Nat)
  | src (run r : Nat)
  | aux (run r : Nat)
  | drain (op r : Nat)
  | sink (run r : Nat)
  | source (acc k : Nat)
  | load (sd : Nat) (ctl : Bool)
  | store (v : Word) (ctl : Bool)
  deriving DecidableEq, Repr

/-- A pending scratchpad access of an engine (R99, R102, R110, R170, R206): its cycle, its place in the order, the access
with the handle entry in force at its issue, and, once it has begun, the banks of the words still to be served and the
PTC_COUNT at which it began. -/
structure BankReq where
  due : Nat
  prio : Nat
  acc : OwnAcc
  hnd : Hnd
  pc : Nat
  job : AccUse
  left : Option (List Nat) := none
  began : Nat := 0
  deriving DecidableEq, Repr

/-- A landing, window or DMA access of which some bank words have been served (R110): the packet or queue access it belongs to,
the access with its handle entry, the banks of the words still to be served, and the PTC_COUNT at which it began. -/
structure BufAcc where
  id : Nat
  acc : OwnAcc
  hnd : Hnd
  left : List Nat
  began : Nat
  deriving DecidableEq, Repr

/-- A wait for a text block in progress (R83, R240): its first cycle, the lateness then, and its cycles that are slips for
another reason. -/
structure TextWait where
  first : Nat
  late : Nat
  slips : List Nat := []
  deriving DecidableEq, Repr

/-- A tile (chapters 02 to 06). -/
structure Tile where
  sregs : SMap Word := []
  preds : BitVec 16 := 0
  pc : Nat := 0
  issuePc : Nat := 0
  moved : Bool := true                    -- R67 has moved the counter past the triple at issuePc
  lvls : SMap LoopLvl := []
  dcount : SMap Nat := []
  dstride : SMap (BitVec 32) := []        -- key 16 * level + generator
  gens : SMap Gen := []
  was : Option (Nat × SMap Gen × SMap LoopLvl) := none  -- the last cycle, plus one, whose S slot changed generators or levels, and these before (R56)
  outs : List OutWrite := []
  inInv : Bool := false                   -- the tile is part-way through an invocation
  waiting : Bool := false                 -- the last TRIPLE_ISSUE of the tile issued nothing
  invs : Nat := 0
  late : Nat := 0                         -- the lateness of R215
  bcast : Nat := 0                        -- text blocks broadcast to the tile's ring (R83)
  bcastAt : List (Nat × Nat × Nat) := []  -- block, cycle of its broadcast, its position b_k (R240)
  vregs : SMap Lane := []                 -- key 64 * register + lane
  chains : SMap (BitVec 46) := []         -- key 8 * chain + stage
  vruns : List VRunSt := []
  vrows : List VRow := []
  vlastIn : Nat := 0                      -- last entry cycle of every earlier run, plus one
  vlastOut : Nat := 0                     -- last write cycle of every earlier run, plus one
  vpend : List (Nat × Nat) := []          -- (vector register, its write cycle)
  wbufs : SMap WBuf := []
  wready : SMap Nat := []                 -- first cycle an mmul on the buffer may issue
  wused : SMap Nat := []                  -- last row read of an mmul on the buffer
  accs : SMap AccRow := []                -- key 64 * set + row
  accq : List AccAcc := []
  muls : List MulOp := []
  accLast : SMap Nat := []                -- last access cycle of a row, key 64 * set + row
  drains : List DrainRow := []
  loadFree : Nat := 0
  streamFree : Nat := 0
  drainFree : Nat := 0
  loadAt : Nat := 1                       -- first cycle since which each pipe has been occupied without a gap (R167, R175)
  streamAt : Nat := 1
  drainAt : Nat := 1
  opNo : Nat := 0
  pipeEnd : Nat := 0                      -- cycle in which the last suppressed operation would complete (R165)
  bankq : List BankReq := []
  bufq : List BufAcc := []
  credPort : SMap Nat := []               -- nput credits by direction, default 8
  credCirc : SMap Nat := []               -- cput credits by circuit, default 8
  scratch : List Host.Cell := []
  full : BitVec 4096 := 0
  fullAt : Nat := 0                       -- PTC_COUNT, plus one, of the last change of a full bit (R109)
  fullWas : BitVec 4096 := 0              -- the full bits at the start of that cycle
  ungate : SMap Nat := []                 -- bank to the cycle it becomes usable
  gateReq : BitVec 32 := 0                -- bank gates requested and not yet in effect (R322)
  lostPc : List Nat := []                 -- replaced triples (R86)
  lastAt : Nat := 0                       -- schedule cycle of the last TRIPLE_ISSUE, plus one
  stall : Bool := false                   -- the S access of the last triple is deferred behind its X access (R99)
  padw : BitVec 32 := 0                   -- the pads in force, latched at t0 (R90)
  locm : Bool := false                    -- local trees in force, latched at t0 (R173)
  hndw : List (Nat × Nat × Bool × Word) := []  -- handle entry writes of sst and the cycle from which they govern (R105)
  qw : Option (Nat × List Nat) := none    -- the qwait in progress: the latest cycle of R224 without λ, its accesses
  textFrom : Option TextWait := none      -- a wait for a text block in progress (R83, R240)
  bankAt : Nat := 0                       -- schedule cycle, plus one, of the bank words in bankUsed
  bankUsed : List Nat := []               -- banks that serve a word in that cycle (R99)
  chainAt : Nat := 0                      -- entry cycle of row 0 of the last mdrainv (R167)
  chainOp : Nat := 0                      -- its operation number
  deriving DecidableEq, Repr

/-! ## Mesh packets (chapter 03) -/

/-- The kinds of mesh packets: circuit, neighbour, egress to an I/O die, window request, reply and
write, DMA, and delivery from an I/O die. -/
inductive MKind where
  | circuit | neighbour | egress | winReq | winReply | winWrite | dma | edge
  deriving DecidableEq, Repr

/-- A mesh packet: source and destination tiles, payload, destination handle and offset, and its place in its journey. -/
structure MPkt where
  id : Nat
  kind : MKind
  src : Nat
  dst : Nat
  circ : Nat := 0
  dir : Dir := .north
  data : List Byte := []
  handle : Nat := 0
  off : Nat := 0
  pc : Nat := 0
  issued : Nat := 0
  depart : Option Nat := none
  land : Nat := 0
  path : Nat := 0                         -- forward path latency
  landed : Option Nat := none
  at_ : Nat := 0                          -- router a window or DMA packet waits in
  since : Nat := 0                        -- cycle of its last departure
  hops : Nat := 0
  localH : Nat := 0
  localOff : Nat := 0
  localSpace : Bool := false
  write : Bool := false
  chan : Nat := 0                         -- the DMA channel it serves, and where its bytes stand in the stream
  soff : Nat := 0
  len : Nat := 64
  banks : List Nat := []                  -- the banks a DMA write counts toward (R322)
  served : Bool := false
  outside : Bool := false                 -- it waits for a place in its first router's output queue (R127)
  via : Nat := 0                          -- the output port of its last hop, as 4 * tile + direction
  deriving DecidableEq, Repr

/-! ## Plan time, regions, queues -/

/-- A hold request (R229): made in cycle `made`, covering `first` to `first + len - 1`. -/
structure HoldReq where
  made : Nat
  first : Nat
  len : Nat
  cause : Nat
  source : Nat
  deriving DecidableEq, Repr

/-- A park (R243): its first covered cycle, and the cycle of t0 once it is known. -/
structure Park where
  made : Nat
  first : Nat
  t0 : Option Nat
  region : Nat
  deriving DecidableEq, Repr

/-- How a start is made (R342). -/
inductive StartMode where
  | here | count | barrier
  deriving DecidableEq, Repr

/-- A pending start (R649, R243): since when, how, the count of t0, and the release of a barrier start. -/
structure Start where
  since : Nat
  mode : StartMode
  count : Nat := 0
  release : Option Nat := none
  go : Option Nat := none                 -- the cycle a launch at count was decided for
  lost : List (Nat × GranRes) := []       -- what each text granule of its install is read as, where not whole (R86)
  deriving DecidableEq, Repr

/-- A series of steps (R342, R465). -/
structure Series where
  step : Nat := 0
  stopReq : Bool := false
  between : Bool := false
  tree : Bool := false
  endedAt : Option Nat := none            -- schedule cycle at which the step's invocation ended
  nextAt : Option Nat := none             -- PTC_COUNT of the next step, from a step release
  late : Bool := false
  arrived : Bool := false
  aborted : Bool := false                 -- it ends with the step in progress (R435)
  deriving DecidableEq, Repr

/-- A region's run state (R8, R649, R239). -/
structure Region where
  plan : Option Nat := none
  launchPlan : Nat := 0
  running : Bool := false
  inInv : Bool := false
  t0 : Nat := 0                           -- PTC_SCHED at t0
  t0c : Nat := 0                          -- PTC_COUNT at t0
  t0w : Nat := 0                          -- SRV_WALL at t0
  begun : Bool := false                   -- the current launch has had its t0
  launchT0 : Nat := 0                     -- PTC_SCHED at the t0 that began the current launch (R377)
  pend : Option Start := none
  cmd : Option Cmd := none
  stops : List Cmd := []                  -- the STOPs that wait for the series to end
  series : Option Series := none
  invNo : Nat := 0
  lateIssue : Nat := 0
  loss : Bool := false
  wake : Option Nat := none               -- PTC_COUNT at which its woken galleries are usable (R579)
  instEnd : Nat := 0                      -- PTC_COUNT at which its launch's install is complete (R82)
  lastLaunch : Nat := 0                   -- SRV_WALL of its last launch (R579)
  armed : Bool := false                   -- a draft region armed (R463)
  deriving DecidableEq, Repr

/-- A queue access (R217 to R227). -/
structure QAcc where
  id : Nat
  tile : Nat
  gal : Nat
  region : Nat
  write : Bool
  addr : Nat
  slots : Nat
  handle : Nat
  off : Nat
  tag : Nat
  issued : Nat                            -- schedule cycle of issue
  deadline : Nat                          -- schedule cycle
  pc : Nat := 0
  suppressed : Bool := false
  faulted : Bool := false
  arrived : Bool := false
  lateIssued : Bool := false
  committed : Bool := false
  served : List (Nat × Nat) := []         -- granules served, each with the PTC_COUNT at which it is ready
  lost : List Nat := []
  data : List (Nat × List Byte) := []     -- granule data captured before a later write (R223)
  src : List Byte := []                   -- source bytes of a write
  ent : Option Hnd := none                -- the handle entry its source reads go by, that of its issue (R105)
  srcSlots : Nat := 0
  landed : Nat := 0
  sent : Bool := false                    -- sent by the annex port
  sentAt : Nat := 0
  retr : List (Nat × Nat) := []           -- granules whose service a retry delayed, each with the cycles
  winSeen : List Nat := []                -- the channels that have counted its delay by a window (R277, R298)
  landAt : Nat := 0                       -- schedule cycle, plus one, of its last slot's landing (R221)
  arrData : Bool := false                 -- the annex device answered
  doneAt : Option Nat := none
  deriving DecidableEq, Repr

/-- A staged text block of a gallery's fetcher: the block, the gallery plan position of its landing, whether it has landed (R83). -/
structure Staged where
  block : Nat
  land : Nat
  landed : Bool
  lost : List Nat := []
  ready : Nat := 0                        -- PTC_COUNT at which its granules are there by the calendar and the channels' queues (R86)
  deriving DecidableEq, Repr

/-- A gallery: plan fetcher, decoupling queue peak, gate (R217, R83, R579). -/
structure Gallery where
  nextBlock : Nat := 0
  opp : Nat := 0
  staged : List Staged := []
  ring : List Nat := []                   -- blocks in ring positions
  ringFree : List (Nat × Nat) := []       -- free positions: cycle and plan position from which each can receive (R84)
  asked : List (Nat × Nat × Bool × Nat) := []  -- requests accepted with the triples of a cycle, until their command: cycle, plus one, tile, write, slots (R217)
  lastBcast : Nat := 0                    -- schedule cycle, plus one, of the last broadcast
  lastB : Nat := 0                        -- its position b_k, plus one
  gatePend : Bool := false
  awake : Bool := false
  wake : Option Nat := none               -- PTC_COUNT at which a gallery woken by a write is usable
  deriving DecidableEq, Repr

/-! ## External memory (chapter 07) -/

/-- A trim set: the bins at which it was taken (R290). -/
structure Trim where
  bin : Nat
  full : Bool
  no : Nat := 0                           -- which training took it
  deriving DecidableEq, Repr

/-- A re-trim in progress: the slot count done, its bin, whether every period was FULL-occupied (R290, R292). -/
structure Retrim where
  done : Nat
  bin : Nat
  allFull : Bool
  deriving DecidableEq, Repr

/-- A GDDR7 channel (R275 to R294). -/
structure ChanSt where
  bin : Nat := 0
  selfSets : SMap Trim := []              -- by clock step
  runSets : SMap Trim := []               -- key 4 * step + bin
  inUse : Trim := ⟨0, true, 0⟩
  useRun : Bool := false
  useStep : Nat := 4                      -- the step the set in use is for
  retrim : Option Retrim := none
  lastRef : SMap Nat := []                -- bank to PTC_COUNT of its last refresh
  refEnd : SMap Nat := []                 -- bank to PTC_COUNT at which its refresh ends
  scrub : Nat := 0
  oldCal : Option (Nat × Nat) := none     -- the calendar that governs until a schedule cycle (R297)
  busy : Nat := 0                         -- granules transferred in the calendar period, held cycles apart (for the class of a re-trim)
  overdue : SMap Nat := []                -- bank to the PTC_COUNT at which its hold was requested (R278)
  pins : Nat := 0                         -- when the pins are free, in 25ths of cycles of PTC_COUNT (R273)
  deriving DecidableEq, Repr

/-- An annex port beside its registers (R286 to R288). -/
structure AnnexPort where
  waitHold : List Nat := []               -- accesses whose data is awaited past the commit point
  cap : Nat := 0                          -- the capacity of the device it has trained, in MiB (R286)
  deriving DecidableEq, Repr

/-! ## DMA (chapter 08) -/

/-- Why a channel drains (R318). -/
inductive DrainKind where
  | none | pause | abort | fail
  deriving DecidableEq, Repr

/-- A DMA channel beside its registers: how far its stream has been read and written, the bytes read from the last whole
swap unit on, why it drains, and the command it completes. -/
structure DmaChan where
  rdSent : Nat := 0                       -- stream bytes whose reads have left the channel
  rd : Nat := 0                           -- stream bytes read
  wrSent : Nat := 0                       -- stream bytes whose writes have left the channel
  wr : Nat := 0                           -- stream bytes written
  bufAt : Nat := 0                        -- stream position of the first byte of buf
  buf : List Byte := []                   -- bytes as read, before the swap
  drain : DrainKind := .none
  failAddr : Nat := 0
  failWrite : Bool := false
  failSp : Nat := 0
  failCause : Nat := 0
  cmd : Option Cmd := none
  desc : Nat := 0                         -- address of the descriptor in force, for events
  rmw : Bool := false                     -- the read of a read-modify-write has used its slot
  fetch : Bool := false                   -- the descriptor at NEXT is to be read (R314)
  slotAt : SMap Nat := []                 -- resource to the cycle, plus one, of the channel's last slot
  drainAt : Nat := 0                      -- PTC_COUNT, plus one, at which PAUSE or ABORT began the last drain (R321)
  haltAt : Nat := 0                       -- PTC_COUNT, plus one, of the last halt (R321)
  deriving DecidableEq, Repr

/-! ## Host interface (chapter 09) -/

/-- A command entry taken from a ring and not yet started (R335, R351). -/
structure Taken where
  index : Nat
  bytes : List Byte
  scan : Nat := 0                         -- the scan that took it (R335)
  deriving DecidableEq, Repr

/-- A load in progress (R38 to R42): its command, the bytes fetched, what the check of the signature answers, whether the
apply phase has begun, and the role and width cap each port had before a full one (R43). -/
structure Loading where
  cmd : Cmd
  bytes : List Byte
  sigOk : Bool
  applied : Bool
  ports : List (Nat × Nat) := []
  deriving DecidableEq, Repr

/-- A completion that waits for its ring (R345). -/
structure Cpl where
  status : Nat
  tag : BitVec 32
  opcode : Nat
  index : Nat
  irq : Bool
  result : Nat := 0
  report : Option (Word × Word) := none
  deriving DecidableEq, Repr

/-- An event that waits for its ring (R347): code, source kind and index, time, items. -/
structure Ev where
  code : Nat
  kind : Nat
  index : Nat
  time : Nat
  items : List (Nat × Nat) := []          -- (width in bytes, value), placed by R651
  deriving DecidableEq, Repr

/-- A PCIe function's rings (R334 to R351). -/
structure Func where
  cmdIdx : Nat := 0
  cmdPhase : Bool := true
  cplIdx : Nat := 0
  cplPhase : Bool := true
  evIdx : Nat := 0
  evPhase : Bool := true
  outIdx : Nat := 0
  outPhase : Bool := true
  outBase : BitVec 64 := 0
  outSize : Nat := 0
  outOn : Bool := false
  taken : List Taken := []
  waits : Bool := false                   -- the first of them waits for something else than its turn
  cpls : List Cpl := []
  evs : List Ev := []
  held : List Ev := []                    -- events held before the ring is first enabled (R596)
  everEn : Bool := false
  lostNote : Nat := 0                     -- events lost since the last event 0x0013
  emis : List Emission := []
  irqLast : SMap Nat := []
  irqPend : BitVec 8 := 0
  msix : SMap (BitVec 32) := []           -- the dwords of its MSI-X table (R331)
  deriving DecidableEq, Repr

/-! ## Image and plans (chapters 01 and 02) -/

/-- A REGION record (R26). -/
structure RegionRec where
  id : Nat
  role : Nat
  engine : Nat
  draftOf : Nat
  galCount : Nat
  deriving DecidableEq, Repr

/-- A GALMAP entry (R27). -/
structure GalRec where
  region : Nat
  roles : BitVec 32
  deriving DecidableEq, Repr

/-- A CIRCUIT record (R28). -/
structure CircRec where
  id : Nat
  sx : Nat
  sy : Nat
  dx : Nat
  dy : Nat
  hops : Nat
  period : Nat
  phase : Nat
  path : List Nat
  deriving DecidableEq, Repr

/-- A HANDLE record (R29). -/
structure HandRec where
  x0 : Nat
  y0 : Nat
  x1 : Nat
  y1 : Nat
  handle : Nat
  hash : Nat
  rights : Nat
  base : Nat
  size : Nat
  deriving DecidableEq, Repr

/-- A REFRESH record (R31). -/
structure RefRec where
  phase : Nat
  window : Nat
  order : Nat
  deriving DecidableEq, Repr

/-- A VITRINE record (R34). -/
structure VitRec where
  region : Nat
  depth : Nat
  slots : Nat
  prefills : Nat
  att : Nat
  cycles : Nat
  deriving DecidableEq, Repr

/-- A GRANT record (R35). -/
structure GrantRec where
  die : Nat
  ch : Nat
  res : Nat
  period : Nat
  phase : Nat
  deriving DecidableEq, Repr

/-- A FABRIC record (R36). -/
structure FabRec where
  first : Nat
  count : Nat
  mask : BitVec 32
  dies : Nat
  deriving DecidableEq, Repr

/-- The MODE section (R25). -/
structure Mode where
  step : Nat := 0
  mirror : Nat := 0
  start : Nat := 0
  reduction : Nat := 0
  swap : Nat := 0
  ixlGen : Nat := 0
  reserve : Nat := 0
  headroom : Nat := 0
  partner : Nat := 0
  suspect : Nat := 0
  deriving DecidableEq, Repr

/-- The MEMMAP section (R30). -/
structure MemMap where
  granule : Nat := 0
  annex : Nat := 0
  channels : Nat := 0
  planBase : Nat := 0
  planSize : Nat := 0
  deriving DecidableEq, Repr

/-- The held hanging image (R20 to R36). -/
structure Image where
  expert : Bool
  signed : Bool
  grade : Nat
  profile : Nat
  id : BitVec 64
  setup : List Byte
  digest : List Byte
  mode : Mode
  regions : List RegionRec
  gals : List GalRec
  circs : List CircRec
  hands : List HandRec
  mem : MemMap
  refs : List RefRec
  ports : List Nat
  vits : List VitRec
  grants : List GrantRec
  fabs : List FabRec
  pads : Nat                              -- the pads of PROFILE on the stepping, as TIL_PADCTL holds them (R89)
  pairRaw : List Byte                     -- REGION, VITRINE and four MODE bytes, for the pair digest (R545)
  deriving DecidableEq, Repr

/-- A plan image in the plan area (R77 to R79, R650). -/
structure Plan where
  id : Nat
  region : Nat
  expert : Bool
  profile : Nat
  offset : Nat
  bytes : Nat                             -- length of the image
  digest : List Byte                      -- SHA-256 of the image as uploaded (R619)
  text : List (BitVec 192)
  dcount : SMap Nat
  dstride : SMap (BitVec 32)
  gens : SMap Gen
  params : SMap (List Word)               -- by tile 64 * y + x
  deriving DecidableEq, Repr

/-! ## Links and fabric (chapters 10 and 11) -/

/-- A scheduled packet on its way out of a port (R400, R401): where its bytes come from (stream, or 64 + port), the
SPEC of its flits, the bytes still to come, the bytes not yet sent, and whether its first flit has been sent. -/
structure OutPkt where
  src : Nat
  region : Nat
  due : Nat
  left : Nat
  bytes : List Byte
  started : Bool := false
  deriving DecidableEq, Repr

/-- A scheduled packet whose flits leave a port's receive pool: the SEQ of its first flit, where it goes (false: to the port `port`,
true: to an edge tile), and its bytes still to come (R401, R402). -/
structure RxPkt where
  seq : Nat
  edge : Bool
  port : Nat
  left : Nat
  deriving DecidableEq, Repr

/-- An IXL port beside its registers (R363 to R386). -/
structure Link where
  cyc : Nat := 0                          -- link cycles since training
  seq : Nat := 0                          -- SEQ of the next new data flit
  e : Nat := 0                            -- expected SEQ
  adv : Nat := 4095                       -- advertised ACKSEQ
  unadv : Nat := 0                        -- flits accepted since it last advanced
  unadvAt : Nat := 0                      -- link cycle of the first acceptance not yet advertised
  nakPend : Bool := false
  replayBuf : List Flit := []             -- copies, oldest first
  replayQ : List Flit := []               -- flits of the replay in progress, next first
  replayStart : Nat := 0
  replayAt : Option Nat := none           -- link cycle of the last replay start
  replayRep : Nat := 0                    -- consecutive replays at one SEQ
  replayNo : Nat := 0
  replayAsk : Bool := false               -- a replay starts with the next link cycle (R370, R371)
  heads : SMap Packet := []               -- by KIND, the header of the packet whose first flit's copy was released last
  timer : Nat := 0                        -- link cycle at which the replay timer (re)started
  outS : List OutPkt := []                -- scheduled packets to send, in order
  txB : List Flit := []
  txM : List Flit := []
  txC : List Flit := []                   -- link control flits
  fabricIn : List (List Byte) := []       -- payloads of FABRIC flits that have come and that nothing has taken
  grpUsed : Nat := 0                      -- scheduled flits in the current group of 64
  ccNext : Nat := 0
  freed : SMap Nat := []                  -- buffers freed by class since training
  seen : SMap Nat := []                   -- last CCOUNT seen by class
  freshR : SMap Nat := []                 -- credits that came back in this link cycle: to a class's reserve (R375)
  freshS : Nat := 0                       -- and to the shared credits
  pool : List (Flit × Nat × Nat) := []    -- received data flits; a scheduled one with its delivery schedule cycle and the SEQ of its packet's first flit
  rxSop : Nat := 0                        -- SEQ of the first flit of the scheduled packet that comes in
  rx : List RxPkt := []                   -- scheduled packets on their way out of the pool
  phase : Nat := 0                        -- training phase in progress
  full : Bool := false                    -- a full training
  resume : Bool := false                  -- the training ends as a retrain does
  peerE : Nat := 0                        -- the peer's E from phase 4
  trained : Bool := false                 -- a training has begun before
  trainAt : Nat := 0                      -- SRV_WALL of the training's or attempt's start
  downAt : Nat := 0
  tried : Bool := false                   -- an attempt was made since the port entered DOWN
  kept : Bool := false                    -- it keeps its state since it entered DOWN (R386)
  peer : Option Nat := none               -- the last peer's identity
  peerGen : Nat := 0                      -- the generation it reported in phase 4
  blocked : Bool := false                 -- peer with the same ID (R397)
  reqSent : Bool := false                 -- RTREQ sent and not yet acknowledged
  reqWidth : Nat := 0                     -- width requested in the training in progress
  out : Option Flit := none               -- the flit of the last link cycle
  crc : BitVec 64 := 0                    -- and its CRC-64
  deriving DecidableEq, Repr

/-- A scheduled packet that a destination I/O die delivers to its edge tile (R402): the bytes of its data units that have
come so far, of `units` units. -/
structure EdgeDel where
  dcol : Nat
  handle : Nat
  offset : Nat
  due : Nat                               -- schedule cycle of the delivery
  port : Nat
  seq : Nat
  next : Nat                              -- next unit
  units : Nat
  bytes : List Byte
  deriving DecidableEq, Repr

/-- An I/O die's fabric side (R398, R409, R413). -/
structure FabDie where
  streams : SMap (List (Nat × List Byte)) := []  -- units with the schedule cycle of their arrival
  opened : SMap (Nat × Nat) := []         -- stream to the port its packet goes to (32: discarded) and its units to come
  edge : List EdgeDel := []
  edgeAt : SMap Nat := []                 -- column to the schedule cycle, plus one, of its last delivery
  router : List (Packet × Nat) := []      -- packets waiting for a permitted port, with the SRV_WALL they began
  origin : List Packet := []              -- packets that originate at the die
  routes : List (Packet × Nat) := []      -- messages whose fragments go on one by one: a fragment without index and body, and its port (R407)
  arrived : List Packet := []             -- packets for this module that its controller and its receivers have yet to take (R406)
  bank0 : SMap (BitVec 32) := []
  bank1 : SMap (BitVec 32) := []
  deriving DecidableEq, Repr

/-- A message in reassembly (R407). -/
structure Reasm where
  type : Nat
  origin : Nat
  ref : BitVec 64
  frags : Nat
  got : List (Nat × List Byte)
  since : Nat
  deriving DecidableEq, Repr

/-- A launch tree in which this module takes part (R423 to R435). -/
structure LaunchSt where
  tree : Tree
  node : Nat
  arm : Bool                              -- barrier start
  count : Nat
  since : Nat                             -- SRV_WALL at which the message in force was first held
  msg : Nat := 0x20                       -- the TYPE and the items of the message in force
  args : List Nat := []
  lacks : List Nat := []
  alts : List Nat := []                   -- alternate children already sent to
  readys : List Nat := []
  lfailed : Bool := false
  fails : List Nat := []                  -- nodes whose LFAIL has been forwarded
  readyAt : Option Nat := none            -- SRV_WALL at which READY was sent
  released : Bool := false
  arrivals : List (Nat × Nat) := []       -- the nodes whose ARRIVE it has taken, with the PTC_COUNT of each
  queued : Bool := false                  -- the start waits for the invocation that runs on its region (R342, R427)
  passedBy : Bool := false                -- another run of its region has begun since
  firstArr : Option Nat := none
  deriving DecidableEq, Repr

/-- A message the module has sent: destination module, type, reference, and its content by the rule that sends it. -/
structure Msg where
  dest : Nat
  type : Nat
  ref : BitVec 64
  args : List Nat
  deriving DecidableEq, Repr

/-- The fabric state common to both I/O dies (R407, R419 to R435). -/
structure Fab where
  dies : SMap FabDie := []
  reasm : List Reasm := []
  inbox : List Reasm := []                -- whole messages not yet acted on
  launches : List LaunchSt := []
  sent : List Msg := []                   -- controller messages sent, newest last
  eps : Int := 0                          -- residual, in sixteenths (R421)
  phis : List Int := []                   -- the last usable values of phi
  syncT1 : Option Nat := none             -- t1 of the exchange in progress
  syncAt : Nat := 0                       -- SRV_WALL of the last SYNCREQ
  syncBad : Bool := false                 -- a stretch or a catch-up falls in the exchange in progress (R574)
  unsyncArr : Bool := false               -- bit 0 of the next ARRIVE (R575)
  deriving DecidableEq, Repr

/-! ## Serving (chapter 13) -/

/-- A serving configuration (R464). -/
structure SrvCfg where
  region : Nat
  vocab : Nat
  pageBytes : Nat
  pageBase : Nat
  pageCount : Nat
  annexPages : Nat
  annexBase : Nat
  workBase : Nat
  workSize : Nat
  maxPages : Nat
  dma : Nat
  candDone : Nat
  stepBound : Nat
  loadBound : Nat
  migRate : Nat
  stop : List Nat
  raw : List Byte
  deriving DecidableEq, Repr

/-- An accession entry (R470, R471). -/
structure Req where
  state : Nat := 0
  rid : BitVec 32 := 0
  region : Nat := 0
  prio : Nat := 0
  tenant : Nat := 0
  fn : Nat := 0
  tag : BitVec 32 := 0
  len : Nat := 0
  emitted : Nat := 0
  maxnew : Nat := 0
  promptLen : Nat := 0
  addr : Nat := 0                         -- PROMPT_ADDR
  prompt : Option (List Nat) := none      -- a prompt a partner fetched (R557)
  noPrompt : Bool := false                -- its fetch failed there
  pfxC : Nat := 0
  pfxF : Nat := 0
  pfxAnnex : Bool := false
  pages : List Nat := []                  -- page list, in page order
  pageRes : Nat := 0                      -- pages reserved and not yet allocated
  attRes : Nat := 0
  deadline : Option Nat := none
  firstWait : Bool := true
  gap : Nat := 0
  seed : BitVec 64 := 0
  topk : Nat := 0
  temp : Lane := 0
  topp : Lane := 0
  rep : Lane := 0
  freq : Lane := 0
  pres : Lane := 0
  flags : Nat := 0
  pub : BitVec 64 := 0
  depthReq : Nat := 0
  depth : Nat := 0
  depthAt : Option Nat := none            -- PTC_COUNT of the last write of SRV_ACCSTATE.DEPTH (R19, R515)
  slot : Option Nat := none
  hist : List Nat := []                   -- j of the last speculative steps, newest first
  reps : List (Nat × Nat) := []           -- repetition table, most recently emitted first
  pfxAt : BitVec 64 := 0                  -- the prefix's handle
  toks : List Nat := []                   -- prefix tail, prompt and emitted tokens from position 256 F on
  loaded : Bool := false
  readyAt : Nat := 0
  order : Nat := 0                        -- admission order
  prefilled : Nat := 0                    -- prefill vitrines run
  late : Bool := false
  adopted : Bool := false
  fenced : Bool := false
  silent : Bool := false                  -- the partner is the voice (R557)
  deriving DecidableEq, Repr

/-- A catalogue entry (R486). -/
structure CatEnt where
  tenant : Nat
  handle : BitVec 64
  count : Nat
  full : Nat
  pages : List Nat
  tail : List Nat
  annex : Bool
  moving : Option (Bool × Cmd × List Nat) := none
  no : Nat := 0                           -- its number in the catalogue, where its page list and tail lie in the work area
  deriving DecidableEq, Repr

/-- A tenant counter (R490). -/
structure Tenant where
  balance : Nat := 0
  limit : Nat := 0
  window : Nat := 0
  funcs : BitVec 16 := 0
  last : Nat := 0                         -- the window multiple last refilled at
  upAt : Nat := 0                         -- PTC_COUNT of the last update, plus one
  base : Nat := 0                         -- the balance before the updates of that cycle
  ups : List (Nat × Int) := []            -- those updates with their accession indices, in increasing index (R491)
  deriving DecidableEq, Repr

/-- A filled decode slot of the step table in force (R468). -/
structure SlotRec where
  slot : Nat
  acc : Nat
  depth : Nat
  pos : Nat
  live : Bool
  deriving DecidableEq, Repr

/-- A filled prefill vitrine of the step table in force (R468). -/
structure PreRec where
  vit : Nat
  acc : Nat
  q : Nat
  ntok : Nat
  last : Bool
  live : Bool
  deriving DecidableEq, Repr

/-- A serving engine (R460 to R519). -/
structure Engine where
  cfg : Option SrvCfg := none
  reqs : SMap Req := []
  gens : SMap Nat := []
  cat : List CatEnt := []
  tens : SMap Tenant := []
  pageCnt : SMap Nat := []                -- page number (bit 31 annex) to its count
  admNo : Nat := 0
  slots : List SlotRec := []
  pres : List PreRec := []
  tabStep : Nat := 0                      -- the step whose table is complete, plus one
  tabAt : Nat := 0                        -- schedule cycle at which it was complete
  emisOut : List Emission := []           -- the emissions of the last step, in the order of R492
  doneNow : List (BitVec 32 × Nat × Nat) := []  -- RID and function of requests that ended, with PTC_COUNT of their final emission (R504)
  sentReqs : SMap Req := []               -- the entries as the last step record gave them (R550)
  sentCat : List MirCat := []             -- the catalogue as the last step record left it
  fencedOut : Bool := false
  mirLoad : Nat × Nat × Nat := (0, 0, 0)  -- the partner's committed load (R548)
  deriving DecidableEq, Repr

/-- A SUBMIT that waits for the leader's verdict (R548, R557). -/
structure Query where
  no : Nat
  cmd : Cmd
  engine : Nat
  req : Req
  deriving DecidableEq, Repr

/-! ## Weights (chapter 14) -/

/-- A broadcast on an I/O die (R521 to R527): the tree, this module's node in it and its channel, the chunks it holds (the
map lies in memory), the message in force with who has acknowledged it, the nodes it has adopted, what node 0 has heard, and
the stream node 0 still sends. -/
structure Bc where
  tree : BTree
  node : Nat
  chan : Nat                              -- laid out as the CHANNEL operand
  held : List Nat := []
  last : Nat := 0                         -- SRV_WALL of OPEN, of the last chunk, or of NEED
  opened : Nat := 0
  msg : Nat := 0x10                       -- the subtype of the message in force: OPEN or ABORT
  since : Nat := 0                        -- SRV_WALL at which it was first held
  lacks : List Nat := []
  alts : List Nat := []                   -- alternate children it has been sent to
  needed : Bool := false
  failSent : Bool := false
  adopted : List Nat := []
  readys : List Nat := []
  dones : List Nat := []
  sending : Bool := false
  left : Nat := 0                         -- bytes not yet in a descriptor of the sending channel
  sent : Nat := 0                         -- bytes it has moved to the broadcast space
  chunk : List Byte := []                 -- of these, the bytes of the chunk not yet complete
  wpend : List (Nat × List Byte × Nat) := []  -- chunks to be written, with the bytes of each already written (R524)
  rpend : List (Nat × Nat × List Byte) := []  -- chunks to be read back for a node in need, with the bytes already read (R525)
  rmw : Bool := false                     -- the first slot of a narrow write of a chunk has been used (R316)
  cmd : Option Cmd := none
  src : Nat := 0
  srcsp : Nat := 0
  stopped : Bool := false
  deriving DecidableEq, Repr

/-- A unit of a swap list (R532). -/
structure SwapUnit where
  region : Nat
  layer : Nat
  bytes : Nat
  src : Nat
  done : Bool := false
  deriving DecidableEq, Repr

/-- The swap in progress (R533, R534). -/
structure SwapSt where
  cmd : Option Cmd                        -- none for a partner's command of a twin pair
  units : List SwapUnit
  perStep : Nat
  copied : Option Nat := none             -- PTC_SCHED at the t0 of the step at whose end the last group was copied
  copyEnd : Option Nat := none            -- PTC_COUNT at which the copy in progress ends
  deriving DecidableEq, Repr

/-- A WPTR that completes at the t0 of a step (R531). -/
structure WptrWait where
  cmd : Option Cmd
  region : Nat
  step : Nat
  first : Nat
  ptrs : List (BitVec 64)
  deriving DecidableEq, Repr

/-- The weights' state (R530 to R539). -/
structure Weights where
  bcs : SMap Bc := []
  areas : SMap Nat := []
  wptrs : List WptrWait := []
  sealed : SMap Nat := []                 -- region to the number of steps whose buffer is sealed
  swap : Option SwapSt := none
  copyDone : Nat := 0                     -- PTC_COUNT of the end of the last copy of a swap
  fenceCmd : SMap Cmd := []               -- region to the FENCE_OUT in progress
  fenceIn : SMap Cmd := []                -- region to the FENCE_IN in progress
  fenced : List Nat := []                 -- regions fenced out
  deriving DecidableEq, Repr

/-! ## Pairs (chapter 15) -/

/-- The pairing protocol's state (R544 to R559). -/
structure Mirror where
  hello : Option Hello := none
  helloSent : Bool := false               -- a HELLO of this module's own has gone out and the partner's has not come since (R545)
  mirrored : List (Nat × MirReq) := []    -- (engine, request) mirrored from the partner
  mirCat : List (Nat × MirCat) := []      -- (engine, catalogue entry) mirrored from the partner
  adoptMap : List (BitVec 32 × Nat × Nat) := []  -- foreign RID to engine and accession index
  pageMap : List (Nat × Nat × Nat × Nat) := []  -- (partner's engine, its page, own engine, own page)
  kvGot : List (Nat × Nat × Nat) := []    -- (engine, step, KV packets received)
  kvPages : List (Nat × Nat × Nat) := []  -- (engine, step, page) of KV packets whose record is not yet applied
  loading : List (Nat × BitVec 32) := []  -- (engine, RID) of the partner's requests in LOADING, which are not mirrored (R552, R555)
  grants : List (Nat × Nat × Nat × Nat × Nat) := []  -- (query, engine, decode, attention, pages) granted and in no record yet (R548)
  pendEmis : List Emission := []          -- emissions of records whose heartbeat has not come (R555)
  waitAck : List (Nat × Nat × Nat) := []  -- (engine, step, SRV_WALL sent)
  hbStep : Nat := 0                       -- one more than the step of the partner's last heartbeat
  hbPend : List (Nat × Nat × List Byte) := []  -- (region, step, digest) whose heartbeats wait for their emissions (R553)
  hbLast : Nat := 0                       -- SRV_WALL of the last heartbeat or of the last missed interval
  hbIdle : Nat := 0                       -- SRV_WALL of the last idle heartbeat sent
  digests : List (Nat × List Byte) := []  -- own step digests
  peerDigs : List (Nat × List Byte) := [] -- digests of the partner's heartbeats for steps this module has not ended
  okStep : Nat := 0                       -- one more than the last step whose digests matched
  ownStep : Nat := 0                      -- step of this module's last heartbeat after a step
  adopt : Bool := false                   -- adoption is due at the next boundary
  dropAt : Bool := false                  -- DEGRADED is due at the next boundary
  handover : Option Nat := none           -- step H of a handover in progress
  handRids : List (BitVec 32) := []       -- the requests this module takes over at H
  giveRids : List (BitVec 32) := []       -- the requests it gives up at H
  giving : Bool := false                  -- this module has named those it gives up
  heard : Bool := false                   -- the partner has
  cover : Bool := false                   -- the partner gives them up for a fence or an activation
  fencing : Bool := false                 -- this module gives them up for a fence
  joinCmd : Option Cmd := none
  queries : List Query := []
  queryNo : Nat := 0
  twins : List TwinCmd := []
  launched : List Nat := []               -- the regions whose LAUNCH the partner has executed (R558)
  launchSent : List Nat := []             -- the regions of whose LAUNCH the partner has been told
  adoptedAny : Bool := false
  updAct : Option Cmd := none             -- the UPD_ACTIVATE whose requests are being handed over
  updReady : Bool := false                -- they have been (R611)
  deriving DecidableEq, Repr

/-! ## Clocks, power, start-up (chapters 16 to 18) -/

/-- The step request under way (R569 to R571). -/
structure StepChg where
  target : Nat
  asked : Nat                             -- PTC_COUNT at which firmware asked
  first : Option Nat := none              -- first cycle the cause-7 request covers
  switched : Bool := false
  was : Nat := 0                          -- the step before the switch
  deriving DecidableEq, Repr

/-- Clocks (R567 to R576). -/
structure Clocks where
  phase : Nat := 0                        -- 256ths of root periods since the last reference edge counted
  chg : Option StepChg := none
  pendIo : Option Nat := none             -- the controller whose request for a slower step waits (R569)
  debt : Nat := 0                         -- what the root lags the reference by after a stretch, in 256ths of root periods
  refLost : Bool := false
  deriving DecidableEq, Repr

/-- The rails that are present beside VSTBY: [n] of VCORE for VCORE_Dn (R577). -/
structure Rails where
  vcore : BitVec 8 := 0
  vsram : Bool := false
  vioN : Bool := false
  vioS : Bool := false
  vphy : Bool := false
  vmem : Bool := false
  vmemq : Bool := false
  deriving DecidableEq, Repr

/-- Power stage, rails and guards (R577 to R583); the times are Milug's. -/
structure PowerSt where
  stage : Bool := false                   -- power stage on
  offOver : Bool := false                 -- off because the input rose above 58.0 V
  off : Bool := false                     -- off by POWER 0, until POWER 1 (R645)
  restarts : List Nat := []               -- restarts after an over-voltage
  latched : Bool := false                 -- off until POWER 1 or VSTBY is lost
  window : Option Nat := none             -- since when the input has stayed within 48.0 to 56.0 V
  lowAt : Option Nat := none              -- since when the input has been below 46.0 V
  rails : Rails := {}
  defect : Bool := false                  -- the power stage cannot bring its rails up: no command changes it (R594)
  cut : Bool := false                     -- VCORE rails removed at 125 degrees (R583)
  vcore : Nat := 4                        -- the step whose voltage VCORE has
  vin : Nat := 0                          -- input voltage, units of 10 mV
  iin : Nat := 0                          -- input current, units of 0.1 A
  pin : Nat := 0                          -- input power averaged over 10 ms, units of 10 W
  levels : SMap Nat := []                 -- level of each guard
  temps : SMap Nat := []
  thrAt : Nat := 0                        -- PTC_COUNT at which PWR_CTL.LENGTH last left 0 (R235)
  guardAt : SMap Nat := []                -- PTC_COUNT of each guard's last cause-6 request
  inputThr : Bool := false                -- R578 requires a throttle
  therm : Bool := false                   -- THERMTRIP# low
  deriving DecidableEq, Repr

/-- A settings area of the flash (R600): the format its header names, its settings, of which the spec states nothing, and its runtime
calibration data (R291). -/
structure SetArea where
  fmt : Nat := 0
  settings : List Byte := []
  sets : SMap Trim := []                  -- key 32 * channel + 4 * step + bin
  used : Bool := false                    -- a slot's; released at the confirmation of another (R613)
  deriving DecidableEq, Repr

/-- What the boot record holds of a slot (R601). -/
structure BootSlot where
  state : Nat := 0
  svn : Nat := 0
  area : Nat := 0
  tried : Bool := false
  deriving DecidableEq, Repr

/-- A copy of the boot record in the flash (R600, R601). -/
structure BootCopy where
  seq : Nat := 0
  a : BootSlot := {}
  b : BootSlot := {}
  ok : Nat := 0                           -- MEM_STEPOK.OK of the last confirmed boot
  crc : BitVec 32 := 0
  deriving DecidableEq, Repr

/-- The identity key in the key store of IO-N, derived at boot (R618). -/
structure IdKey where
  skSeed : List Byte
  skPrf : List Byte
  pub : List Byte
  deriving DecidableEq, Repr

/-- A firmware slot of the flash (R600, R601). -/
structure FwSlot where
  state : Nat := 0
  svn : Nat := 0
  area : Nat := 0
  tried : Bool := false
  setfmt : Nat := 0
  keyslot : Nat := 0
  revoke : Bool := false
  manifest : List Byte := []
  blocks : Nat := 0
  written : List Nat := []
  data : List Host.Cell := []             -- the parts area
  deriving DecidableEq, Repr

/-- Boot, flash and Milug (R594 to R619, R642 to R646). -/
structure Boot where
  vstby : Bool := false
  stage : Nat := 0                        -- last stage of R594 that has ended
  recovery : Bool := false
  bootRes : Nat := 0                      -- the reset cause SEC_BOOTSTAT will record
  slotA : FwSlot := {}
  slotB : FwSlot := {}
  active : Nat := 0                       -- running slot
  trial : Bool := false
  seq : Nat := 0                          -- SEQ of the boot record
  copy : Nat := 0                         -- copy that holds it
  copy0 : BootCopy := {}
  copy1 : BootCopy := {}
  area0 : SetArea := {}
  area1 : SetArea := {}
  idKey : Option IdKey := none
  okRec : Nat := 0                        -- MEM_STEPOK.OK of the last confirmed boot
  stage4At : Nat := 0                     -- Milug's time at the start of stage 4
  refFault : Bool := false
  trialAt : Nat := 0                      -- Milug's time of the trial boot
  faulted : Bool := false                 -- a fault since the trial boot
  hostConf : Bool := false                -- UPD_CONFIRM received in the trial
  policy : List Byte := []                -- installed policy record
  holdup : Bool := false                  -- hold-up store full
  firmware : Bool := false                -- module controller firmware has started
  deriving DecidableEq, Repr

/-- Milug beside the boot state (R566, R642 to R646): its time in ticks of 10 ns, alert, whether it runs firmware or its ROM,
staging buffer, held ID, and the responses it has given (status and data), newest last. -/
structure Milug where
  time : Nat := 0
  phase : Nat := 0                        -- 256ths of root periods since its last tick
  alert : Bool := false
  fw : Bool := false
  up : Bool := false
  slot : Nat := 0                         -- the slot whose part it runs (R604)
  supplyFail : Bool := false              -- the rails have not come up (R594)
  staging : List Host.Cell := []
  heldId : Option (BitVec 20) := none
  resp : List (Nat × List Byte) := []
  deriving DecidableEq, Repr

/-- The fuse map (R599) and the stepping. -/
structure Fuses where
  grade : Bool := false                   -- false TK9-A, true TK9-B
  stepping : Nat := Config.stepping
  hcol : List Nat := [16, 16, 16, 16, 16, 16, 16, 16]
  cap : Nat := 0x0258
  expw : Bool := true
  windef : Bool := true
  hostset : Bool := true
  debugdis : Bool := false
  vkey0 : BitVec 256 := 0
  vkey1 : BitVec 256 := 0
  keyrev : BitVec 2 := 0
  ownkey : BitVec 256 := 0
  ownset : Bool := false
  ownlock : Bool := false
  arb : BitVec 64 := 0
  seed : BitVec 256 := 0
  deriving DecidableEq, Repr

/-- An occupancy window's counts (R251), by level and unit. -/
structure Occ where
  start : Nat := 0                        -- schedule cycle at which the window began
  window : Nat := 0x100000                -- the window in force
  use : SMap Nat := []                    -- key level * 2^32 + unit
  deriving DecidableEq, Repr

/-- A register write of the cycle in progress (R19): the register, the value, whether it came through the window of IO-S, whether it
was refused as it came, and what the register held. -/
structure RegWr where
  reg : Reg
  val : Nat
  south : Bool := false
  refused : Bool := false
  old : Nat := 0
  deriving DecidableEq, Repr

/-- The whole module. -/
structure State where
  pending : List Instr
  regs : SMap (BitVec 64)
  reqs : List HoldReq
  park : Option Park
  hold : Option (Nat × Nat × Nat)         -- the hold in progress: its first cycle, its log entry, its last cycle so far
  regions : SMap Region
  tiles : SMap Tile
  gals : SMap Gallery
  mpkts : List MPkt
  accs : List QAcc
  chans : SMap ChanSt
  anx : SMap AnnexPort
  ext : List Host.Cell                    -- GDDR7 and annex (R270)
  hostMem : List Host.Cell                -- host memory as its host left it
  dma : SMap DmaChan
  bankOut : SMap Nat                      -- DMA writes outstanding toward a bank, key 32 * tile + bank (R322)
  fns : SMap Func
  irqs : List (Nat × Nat × Nat)           -- (function, vector, SRV_WALL) raised, newest last
  img : Option Image
  loading : Option Loading
  plans : List Plan
  links : SMap Link
  fab : Fab
  engs : SMap Engine
  wts : Weights
  mir : Mirror
  clk : Clocks
  pwr : PowerSt
  boot : Boot
  milug : Milug
  fuses : Fuses
  occ : Occ
  boundaryAsk : List (Nat × Nat × Nat × Nat)  -- boundary holds asked for: (cause, source, length, PTC_COUNT asked)
  scanAt : Nat                            -- SRV_WALL of the last cadence scan
  scans : Nat                             -- scans made (R335)
  vfs : Fin 16                            -- virtual functions that the PF driver has enabled (R330)
  scanDue : Bool                          -- a step boundary or invocation end calls for a scan (R334)
  written : List RegWr                    -- the register writes of this cycle, in order (R19)
  heldRuns : List (Nat × Nat)             -- the held cycles a waiting access may look back on: first and number, newest first (R238)
  nextId : Nat                            -- identity numbers of packets and accesses
  freeCtr : Nat                           -- counter of the free values
  deriving DecidableEq, Repr

/-- The slot that ships with firmware (DESIGN CHOICE, notes/assumptions/3.md). -/
def FwSlot.shipped : FwSlot := { state := 4, setfmt := 1, blocks := 0 }

/-- The state right after power-on reset (R17): every register at its Reset column (`regs` lists only registers that
differ from it), no image (R20), nothing running, the stages of R594 not yet begun. -/
def State.reset : State where
  pending := []
  regs := []
  reqs := []
  park := none
  hold := none
  regions := []
  tiles := []
  gals := []
  mpkts := []
  accs := []
  chans := []
  anx := []
  ext := []
  hostMem := []
  dma := []
  bankOut := []
  fns := []
  irqs := []
  img := none
  loading := none
  plans := []
  links := []
  fab := {}
  engs := []
  wts := {}
  mir := {}
  clk := {}
  pwr := {}
  boot := { slotA := FwSlot.shipped, copy0 := { a := { state := 4 }, crc := 0x042261DA }, area0 := { fmt := 1, used := true } }
  milug := {}
  fuses := {}
  occ := {}
  boundaryAsk := []
  scanAt := 0
  scans := 0
  vfs := 0
  scanDue := false
  written := []
  heldRuns := []
  nextId := 0
  freeCtr := 0

end Sys2Proof.Machine
end

