-- ==== Sys2Proof/Machine/Ops.lean ====
section
/-! DEFINITION. The named operations over memories, sparse maps, registers, plan time, events, completions and the
firewall, which the meanings of the commands share. -/

namespace Sys2Proof.Machine

/-! ## Sparse maps and memories -/

/-- The entry at key `k`, none when the map lists none. -/
def mfind {α : Type} : SMap α → Nat → Option α
  | [], _ => none
  | (k', v) :: m, k => if k' = k then some v else mfind m k

/-- The value at key `k`, `d` when the map lists none. -/
def mget {α : Type} (m : SMap α) (k : Nat) (d : α) : α := (mfind m k).getD d

/-- `m` with `v` at key `k`, the keys strictly rising. -/
def mput {α : Type} : SMap α → Nat → α → SMap α
  | [], k, v => [(k, v)]
  | (k', v') :: m, k, v =>
    if k < k' then (k, v) :: (k', v') :: m
    else if k = k' then (k, v) :: m
    else (k', v') :: mput m k v

/-- `m` without an entry at key `k`. -/
def mdel {α : Type} : SMap α → Nat → SMap α
  | [], _ => []
  | (k', v') :: m, k => if k' = k then m else (k', v') :: mdel m k

/-- What an unlisted byte of a memory reads as.  DESIGN CHOICE, notes/assumptions/5.md. -/
def unlisted : Byte := 0

/-- The byte at address `a`. -/
def rdByte (m : List Host.Cell) (a : Nat) : Byte := mget m a unlisted

/-- `m` with `b` at address `a`, in the canonical form. -/
def wrByte (m : List Host.Cell) (a : Nat) (b : Byte) : List Host.Cell :=
  if b = unlisted then mdel m a else mput m a b

/-- The `n` bytes from address `a`. -/
def rdBytes (m : List Host.Cell) (a n : Nat) : List Byte := (List.range n).map fun i => rdByte m (a + i)

/-- `m` with the bytes `bs` from address `a`. -/
def wrBytes (m : List Host.Cell) (a : Nat) : List Byte → List Host.Cell
  | [] => m
  | b :: bs => wrBytes (wrByte m a b) (a + 1) bs

/-- `m` with what an unlisted address reads as in the `n` bytes from address `a`. -/
def memClear (m : List Host.Cell) (a n : Nat) : List Host.Cell := m.filter fun c => !(decide (a ≤ c.1) && decide (c.1 < a + n))

/-- The strictly rising keys of the canonical form. -/
def keysRise {α : Type} : SMap α → Bool
  | [] => true
  | [_] => true
  | (k, _) :: (k', v') :: m => decide (k < k') && keysRise ((k', v') :: m)

/-- The canonical form of a memory: addresses strictly rising and no entry equal to what an unlisted address reads. -/
def memWf (m : List Host.Cell) : Bool := keysRise m && m.all fun c => decide (c.2 ≠ unlisted)

/-- The number little-endian bytes spell (R15). -/
def leNat : List Byte → Nat
  | [] => 0
  | b :: bs => b.toNat + 256 * leNat bs

/-- The `n` little-endian bytes of a number (R15). -/
def leBytes : Nat → Nat → List Byte
  | 0, _ => []
  | n + 1, v => BitVec.ofNat 8 v :: leBytes n (v / 256)

/-- The little-endian field of `n` bytes at an offset. -/
def leAt (b : List Byte) (off n : Nat) : Nat := leNat ((b.drop off).take n)

/-- Bits `[hi:lo]` of a number. -/
def bits (v hi lo : Nat) : Nat := v / 2 ^ lo % 2 ^ (hi + 1 - lo)

/-- The signed value of the low `w` bits of a number. -/
def sgn (w v : Nat) : Int := if v % 2 ^ w < 2 ^ (w - 1) then (v % 2 ^ w : Int) else (v % 2 ^ w : Int) - 2 ^ w

/-- The two's complement of an integer in `w` bits. -/
def unsgn (w : Nat) (v : Int) : Nat := (v % (2 ^ w : Int)).toNat

/-- 1 for true, 0 for false. -/
def b2n (b : Bool) : Nat := if b then 1 else 0

/-! ## The register store -/

/-- The key of a register in the store. -/
def regKey (k : RegKind) (i : Nat) : Nat := k.code * 2 ^ 32 + i

/-- The HANDLE record that presets a handle of a tile (R29). -/
def Image.hand (im : Image) (y h : Nat) : Option HandRec :=
  im.hands.find? fun r => r.handle == h && decide (r.x0 ≤ y % 64) && decide (y % 64 ≤ r.x1) && decide (r.y0 ≤ y / 64)
    && decide (y / 64 ≤ r.y1)

/-- The value the held image gives a field whose Reset column reads "image" (R17): the field begins at bit `lo`. -/
def Image.fieldVal (im : Image) (k : RegKind) (lo i : Nat) : Nat :=
  match k with
  | .tilPadctl => bits im.pads (lo + 3) lo
  | .tilHndb => match im.hand (i / 64) (i % 64) with | some h => if lo = 0 then h.base else h.size | none => 0
  | .tilHndc => match im.hand (i / 64) (i % 64) with
    | some h => if lo = 15 then 1 else if lo = 9 then bits h.rights 1 1 else if lo = 8 then bits h.rights 0 0 else h.hash
    | none => 0
  | .tilMxctl => im.mode.reduction
  | .ptcRepro => im.mode.reduction
  | .memCfg => if lo = 4 then im.mem.annex else im.mem.granule
  | .memPlan => if lo = 0 then im.mem.planBase else im.mem.planSize
  | .memRef => match im.refs[i]? with
    | some r => if im.grade = 0x0B ∧ (i / 6 = 3 ∨ i / 6 = 7) then 0
        else if lo = 24 then r.order else if lo = 12 then r.window else r.phase
    | none => 0
  | .anxCtl => bits im.mem.annex i i
  | .lnkCtl => bits (im.ports.getD i 0) (if lo = 27 then 3 else 1) (if lo = 27 then 2 else 0)
  | .lnkBudget => 256 * im.mode.headroom
  | .galGate => b2n ((im.gals.getD i ⟨0xFF, 0⟩).roles == 0)
  | _ => 0

/-- DIE_XSTAT.ABSENT of a die: bit 0 its west crossing, 1 its east one, 2 north-south, 3 to its I/O die (R1, R4, R137). -/
def Fuses.absentCrossings (f : Fuses) (d : Nat) : Nat :=
  b2n (d % 4 == 0) + 2 * b2n (d % 4 == 3 || (f.grade && d % 4 == 2))

/-- The field of FUS_CFG that begins at a bit (R599, R622). -/
def Fuses.cfgVal (f : Fuses) (lo : Nat) : Nat :=
  match lo with
  | 16 => f.cap
  | 12 => b2n f.ownlock
  | 11 => b2n f.ownset
  | 9 => f.keyrev.toNat
  | 8 => b2n f.debugdis
  | 4 => b2n f.hostset
  | 3 => b2n f.windef
  | 2 => b2n f.expw
  | _ => b2n f.grade

/-- The value a field has while the store does not list its register: its Reset column, what the fuses give, or what the
held image gives (R17). -/
def Fld.reset (s : State) (f : Fld) (i : Nat) : Nat :=
  match f.rst with
  | .val n => n
  | .image => match s.img with | some im => im.fieldVal f.kind f.lo i | none => 0
  | .fuse =>
    match f.kind with
    | .hstFwbase => if s.fuses.windef && decide (i % 8 = 0) then 1 else 0
    | .pwrCtl => s.fuses.cap
    | .hstFwctl => b2n (if f.lo = 2 then s.fuses.hostset else if f.lo = 1 then s.fuses.windef else s.fuses.expw)
    | .dieHarvest => s.fuses.hcol.getD i 0
    | .dieXstat => s.fuses.absentCrossings i
    | .memCfg => if s.fuses.grade then 36 else 48
    | .fusCfg => s.fuses.cfgVal f.lo
    | .fusHarvest => ((List.range 8).map fun d => s.fuses.hcol.getD d 0 * 2 ^ (5 * d)).foldl (· + ·) 0
    | .fusArb => s.fuses.arb.toNat
    | .fusVkey => (if i / 4 = 0 then s.fuses.vkey0 else s.fuses.vkey1).toNat / 2 ^ (64 * (i % 4)) % 2 ^ 64
    | .fusOwnkey => s.fuses.ownkey.toNat / 2 ^ (64 * i) % 2 ^ 64
    | _ => 0

/-- The value of a register while the store does not list it. -/
def regReset (s : State) (k : RegKind) (i : Nat) : Nat :=
  k.fields.foldl (fun a f => a + Fld.reset s f i * 2 ^ f.lo) 0

/-- The whole register as the store holds it. -/
def State.reg (s : State) (k : RegKind) (i : Nat) : Nat :=
  match mfind s.regs (regKey k i) with
  | some v => v.toNat
  | none => regReset s k i

/-- The store with the whole register set. -/
def State.setReg (s : State) (k : RegKind) (i v : Nat) : State :=
  { s with regs := mput s.regs (regKey k i) (BitVec.ofNat 64 v) }

/-- A field of a register. -/
def State.fld (s : State) (f : Fld) (i : Nat) : Nat := bits (s.reg f.kind i) f.hi f.lo

/-- A number with bits `[hi:lo]` replaced by those of `v`. -/
def putBits (r hi lo v : Nat) : Nat :=
  r % 2 ^ lo + (v % 2 ^ (hi + 1 - lo)) * 2 ^ lo + r / 2 ^ (hi + 1) * 2 ^ (hi + 1)

/-- The state with a field of a register set. -/
def State.setFld (s : State) (f : Fld) (i v : Nat) : State :=
  s.setReg f.kind i (putBits (s.reg f.kind i) f.hi f.lo v)

/-- The registers with a field whose Reset column reads "image" (R17). -/
def imageKinds : List RegKind :=
  [.tilPadctl, .tilHndb, .tilHndc, .tilMxctl, .memCfg, .memPlan, .memRef, .anxCtl, .lnkCtl, .lnkBudget, .ptcRepro, .galGate]

/-- The "image" fields of the listed registers that `sel` selects take what the held image gives (R41, R579). -/
def State.reloadImage (s : State) (sel : RegKind → Nat → Bool) : State :=
  { s with regs := s.regs.map fun e =>
      match imageKinds.find? fun k => k.code == e.1 / 2 ^ 32 && sel k (e.1 % 2 ^ 32) with
      | some k => (e.1, BitVec.ofNat 64 (k.fields.foldl (fun v f =>
          if f.rst = .image then putBits v f.hi f.lo (Fld.reset s f (e.1 % 2 ^ 32)) else v) e.2.toNat))
      | none => e }

/-- A counter field raised by `n`, stopping at its largest value. -/
def State.satAdd (s : State) (f : Fld) (i n : Nat) : State :=
  s.setFld f i (min (s.fld f i + n) (2 ^ f.width - 1))

/-- A counter field raised by `n`, wrapping. -/
def State.wrapAdd (s : State) (f : Fld) (i n : Nat) : State := s.setFld f i (s.fld f i + n)

/-- What a write of `v` to a register leaves, field by field under R16: RW and RWS take the value, W1C clears, RO and WO
keep; reserved bits stay zero (R18). -/
def writeFields (fs : List Fld) (old v : Nat) : Nat :=
  fs.foldl (fun r f =>
    match f.acc with
    | .rw | .rws => putBits r f.hi f.lo (bits v f.hi f.lo)
    | .w1c => if bits v f.hi f.lo = 1 then putBits r f.hi f.lo 0 else r
    | .ro | .wo => r) old

/-- R16: a register write's effect on the register itself. -/
def State.rwWrite (s : State) (k : RegKind) (i v : Nat) : State :=
  s.setReg k i (writeFields k.fields (s.reg k i) v)

/-- A write of the cycle is kept, for its end (R19). -/
def State.keepWrite (s : State) (w : RegWr) : State := { s with written := s.written ++ [w] }

/-- A write to a register with fields that hardware changes too; the cycle's end applies it again, after them (R19).  `south` tells a
write through the window of IO-S to a register that both I/O dies show (chapter 11). -/
def State.lastWrite (s : State) (k : RegKind) (i v : Nat) (south : Bool) : State :=
  (s.rwWrite k i v).keepWrite { reg := ⟨k, i⟩, val := v, south := south, old := s.reg k i }

/-- What a register held before the writes of this cycle: what hardware's change of a field counts from (R19). -/
def State.beforeWrites (s : State) (k : RegKind) (i : Nat) : Nat :=
  match s.written.find? fun w => w.reg == ⟨k, i⟩ with | some w => w.old | none => s.reg k i

/-! ## Parts of the state by index -/

/-- The key of a tile: 64y + x. -/
def tIx (t : Xy) : Nat := 64 * t.y + t.x

/-- The coordinate with key `n`. -/
def xyOf (n : Nat) : Xy := ⟨n % 64, n / 64⟩

def State.tile (s : State) (n : Nat) : Tile := mget s.tiles n {}
def State.setTile (s : State) (n : Nat) (t : Tile) : State := { s with tiles := mput s.tiles n t }
def State.modTile (s : State) (n : Nat) (f : Tile → Tile) : State := s.setTile n (f (s.tile n))
def State.region (s : State) (n : Nat) : Region := mget s.regions n {}
def State.modRegion (s : State) (n : Nat) (f : Region → Region) : State :=
  { s with regions := mput s.regions n (f (s.region n)) }
def State.gal (s : State) (n : Nat) : Gallery := mget s.gals n {}
def State.modGal (s : State) (n : Nat) (f : Gallery → Gallery) : State :=
  { s with gals := mput s.gals n (f (s.gal n)) }
def State.chan (s : State) (n : Nat) : ChanSt := mget s.chans n {}
def State.modChan (s : State) (n : Nat) (f : ChanSt → ChanSt) : State :=
  { s with chans := mput s.chans n (f (s.chan n)) }
def State.annex (s : State) (n : Nat) : AnnexPort := mget s.anx n {}
def State.modAnnex (s : State) (n : Nat) (f : AnnexPort → AnnexPort) : State :=
  { s with anx := mput s.anx n (f (s.annex n)) }
def State.dmaCh (s : State) (n : Nat) : DmaChan := mget s.dma n {}
def State.modDma (s : State) (n : Nat) (f : DmaChan → DmaChan) : State :=
  { s with dma := mput s.dma n (f (s.dmaCh n)) }
def State.func (s : State) (n : Nat) : Func := mget s.fns n {}
def State.modFunc (s : State) (n : Nat) (f : Func → Func) : State :=
  { s with fns := mput s.fns n (f (s.func n)) }
def State.link (s : State) (n : Nat) : Link := mget s.links n {}
def State.modLink (s : State) (n : Nat) (f : Link → Link) : State :=
  { s with links := mput s.links n (f (s.link n)) }
def State.eng (s : State) (n : Nat) : Engine := mget s.engs n {}
def State.modEng (s : State) (n : Nat) (f : Engine → Engine) : State :=
  { s with engs := mput s.engs n (f (s.eng n)) }
def State.modClk (s : State) (f : Clocks → Clocks) : State := { s with clk := f s.clk }
def State.modPwr (s : State) (f : PowerSt → PowerSt) : State := { s with pwr := f s.pwr }
def State.modBoot (s : State) (f : Boot → Boot) : State := { s with boot := f s.boot }
def State.modMilug (s : State) (f : Milug → Milug) : State := { s with milug := f s.milug }
def State.modFab (s : State) (f : Fab → Fab) : State := { s with fab := f s.fab }
def State.modWts (s : State) (f : Weights → Weights) : State := { s with wts := f s.wts }
def State.modMir (s : State) (f : Mirror → Mirror) : State := { s with mir := f s.mir }
def State.fdie (s : State) (n : Nat) : FabDie := mget s.fab.dies n {}
def State.modFdie (s : State) (n : Nat) (f : FabDie → FabDie) : State :=
  { s with fab := { s.fab with dies := mput s.fab.dies n (f (s.fdie n)) } }

/-- A slot: 0 A, 1 B. -/
def Boot.slot (b : Boot) (i : Nat) : FwSlot := if i = 0 then b.slotA else b.slotB

def State.modSlot (s : State) (i : Nat) (f : FwSlot → FwSlot) : State :=
  s.modBoot fun b => if i = 0 then { b with slotA := f b.slotA } else { b with slotB := f b.slotB }

/-- A settings area of the flash (R600). -/
def Boot.area (b : Boot) (i : Nat) : SetArea := if i = 0 then b.area0 else b.area1

def State.modArea (s : State) (i : Nat) (f : SetArea → SetArea) : State :=
  s.modBoot fun b => if i = 0 then { b with area0 := f b.area0 } else { b with area1 := f b.area1 }

/-- A runtime set goes into the settings area of the running slot (R291, R600, R612). -/
def State.keepSet (s : State) (ch k : Nat) (t : Trim) : State :=
  s.modArea (s.boot.slot s.boot.active).area fun a => { a with sets := mput a.sets (32 * ch + k) t }

/-- The runtime sets of a settings area go into their channels, at a boot of its slot (R291, R600, R612). -/
def State.loadSets (s : State) (i : Nat) : State :=
  (s.boot.area i).sets.foldl (fun s x => s.modChan (x.1 / 32) fun c => { c with runSets := mput c.runSets (x.1 % 32) x.2 }) s

/-! ## The MSI-X table -/

/-- The dwords of a function's MSI-X table: four for each of its vectors, 8 of the PF and 2 of a VF (R330, R331; their layout and their
masks, each set at reset, are PCIe's own: notes/assumptions/69.md). -/
def msixDwords (fn : Nat) : Nat := if fn = 0 then 32 else 8

/-! ## Grade, mesh and image -/

/-- The mesh columns of the grade (R3). -/
def State.cols (s : State) : Nat := if s.fuses.grade then 48 else 64

/-- The coordinate lies in the grade's mesh (R3, R4). -/
def State.inMesh (s : State) (t : Xy) : Bool := decide (t.x < s.cols) && decide (t.y < 48)

/-- The gallery position of a tile (R27). -/
def galOf (t : Xy) : Nat := 16 * (t.y / 4) + t.x / 4

/-- The tile index within its gallery (R27). -/
def tInGal (t : Xy) : Nat := 4 * (t.y % 4) + t.x % 4

/-- The tile of gallery `g` with index `k` (R27). -/
def tileAt (g k : Nat) : Xy := ⟨4 * (g % 16) + k % 4, 4 * (g / 16) + k / 4⟩

/-- The die of a tile: D0 to D3 north, D4 to D7 south, 16 columns each (R1, R114). -/
def dieOf (t : Xy) : Nat := t.x / 16 + 4 * (t.y / 24)

/-- The die is fused off in the grade (R4). -/
def State.dieAbsent (s : State) (d : Nat) : Bool := s.fuses.grade && (d == 3 || d == 7)

/-- The gallery position exists in the grade (R4). -/
def State.galPresent (s : State) (g : Nat) : Bool := decide (g < 192) && (!s.fuses.grade || decide (g % 16 < 12))

/-- The GDDR7 channel position exists in the grade: 6 × die + channel (R4, R31). -/
def State.chanPresent (s : State) (c : Nat) : Bool := decide (c < 48) && !s.dieAbsent (c / 6)

/-- The GALMAP entry of a gallery; an unassigned one without an image. -/
def State.galRec (s : State) (g : Nat) : GalRec :=
  match s.img with
  | some im => im.gals.getD g ⟨0xFF, 0⟩
  | none => ⟨0xFF, 0⟩

/-- The region of a tile, 0xFF when its gallery is unassigned (R27). -/
def State.regionOf (s : State) (t : Xy) : Nat := (s.galRec (galOf t)).region

/-- The role of a tile: 0 gated, 1 active, 2 relay (R27). -/
def State.role (s : State) (t : Xy) : Nat :=
  if s.inMesh t then bits (s.galRec (galOf t)).roles.toNat (2 * tInGal t + 1) (2 * tInGal t) else 0

/-- The galleries of a region, in increasing position. -/
def State.galsOf (s : State) (r : Nat) : List Nat :=
  (List.range 192).filter fun g => (s.galRec g).region == r

/-- The active tiles of a gallery, in increasing tile index. -/
def State.activeOf (s : State) (g : Nat) : List Xy :=
  ((List.range 16).map (tileAt g)).filter fun t => s.role t == 1

/-- The active tiles of a region. -/
def State.tilesOf (s : State) (r : Nat) : List Xy := (s.galsOf r).flatMap s.activeOf

/-- The REGION record of a region. -/
def State.regionRec (s : State) (r : Nat) : Option RegionRec :=
  s.img.bind fun im => im.regions.find? fun x => x.id == r

/-- The VITRINE record of a region. -/
def State.vit (s : State) (r : Nat) : Option VitRec :=
  s.img.bind fun im => im.vits.find? fun x => x.region == r

/-- The MODE section of the held image; all zero without an image. -/
def State.mode (s : State) : Mode := (s.img.map (·.mode)).getD {}

/-- The held image has FLAGS.EXPERT 1. -/
def State.expert (s : State) : Bool := (s.img.map (·.expert)).getD false

/-- The plan with an identity. -/
def State.planOf (s : State) (p : Nat) : Option Plan := s.plans.find? fun x => x.id == p

/-- The installed plan of a region. -/
def State.installed (s : State) (r : Nat) : Option Plan := (s.region r).plan.bind s.planOf

/-- R649: the region is running. -/
def State.running (s : State) (r : Nat) : Bool := (s.region r).running

/-- R649: some region of the module runs or has a pending start. -/
def State.anyRunning (s : State) : Bool := (List.range 8).any fun r => s.running r || (s.region r).pend.isSome

/-- Some region of the module is part-way through an invocation. -/
def State.anyInv (s : State) : Bool := (List.range 8).any fun r => (s.region r).inInv

/-! ## Plan time -/

/-- PTC_COUNT (R213). -/
def State.cnt (s : State) : Nat := s.reg .ptcCount 0

/-- PTC_SCHED, the schedule cycle (R214). -/
def State.sched (s : State) : Nat := s.reg .ptcSched 0

/-- SRV_WALL, in ticks of 10 ns (R477, R509). -/
def State.wall (s : State) : Nat := s.reg .srvWall 0

/-- The slot counter (R112, R214). -/
def State.slotCtr (s : State) : Nat := s.sched % 64

/-- A request covers a cycle (R229). -/
def HoldReq.covers (q : HoldReq) (c : Nat) : Bool := decide (q.first ≤ c) && decide (c < q.first + q.len)

/-- The park covers a cycle (R243). -/
def Park.covers (p : Park) (c : Nat) : Bool :=
  decide (p.first ≤ c) && (match p.t0 with | none => true | some t => decide (c < t))

/-- The module holds in a cycle (R229, R243). -/
def State.heldAt (s : State) (c : Nat) : Bool :=
  s.reqs.any (·.covers c) || (match s.park with | some p => p.covers c | none => false)

/-- The module holds in the current cycle. -/
def State.held (s : State) : Bool := s.heldAt s.cnt

/-- The causes whose request covers a cycle, as a mask (R257). -/
def State.causesAt (s : State) (c : Nat) : Nat :=
  let qs := (s.reqs.filter (·.covers c)).map (·.cause)
  let ps := match s.park with | some p => if p.covers c then [9] else [] | none => []
  ((List.range 16).filter fun n => (qs ++ ps).contains n).foldl (fun a n => a + 2 ^ n) 0

/-- R229: a request made now with cause, source and length, covering the cycles 64 to 63 + L later.  A length of 0 asks
nothing; R230 bounds a length to 65,535. -/
def State.request (s : State) (cause source len : Nat) : State :=
  if len = 0 then s
  else { s with reqs := s.reqs ++ [⟨s.cnt, s.cnt + 64, min len 65535, cause, source⟩] }

/-- The number of held cycles already published from now until `c`, of the 64 cycles that are published (R230). -/
def State.publishedHeld (s : State) (c : Nat) : Nat :=
  ((List.range (min 64 (c - s.cnt))).filter fun k => s.heldAt (s.cnt + k)).length

/-- The schedule cycle that a requester reckons a coming PTC_COUNT cycle reads, with the published holds (R230). -/
def State.schedPub (s : State) (c : Nat) : Nat := s.sched + (c - s.cnt) - s.publishedHeld c

/-- The schedule cycle that a coming PTC_COUNT cycle reads, with the holds requested so far (R214, R230). -/
def State.schedAt (s : State) (c : Nat) : Nat := s.sched + ((List.range (c - s.cnt)).filter fun k => !s.heldAt (s.cnt + k)).length

/-- The schedule cycle that a past PTC_COUNT cycle read, by the held cycles since (R214, R238). -/
def State.schedOf (s : State) (c : Nat) : Nat :=
  s.sched - ((s.cnt - c) - s.heldRuns.foldl (fun n r => n + (min s.cnt (r.1 + r.2) - max c r.1)) 0)

/-! ## Events, completions, firewall -/

/-- The function's rings are running: not stopped (R351, R354). -/
def State.ringStopped (s : State) (fn : Nat) : Bool := s.fld F.hstRingstat_state fn == 2

/-- R347, R348: an event for a function's ring: written later, held (R596), or dropped and counted. -/
def State.eventTo (s : State) (fn code kind idx : Nat) (items : List (Nat × Nat)) : State :=
  let e : Ev := ⟨code, kind, idx, s.cnt, items⟩
  if s.fld F.hstEvring_enable fn = 1 ∧ s.ringStopped fn = false then
    s.modFunc fn fun f => { f with evs := f.evs ++ [e] }
  else if fn = 0 ∧ (s.func 0).everEn = false ∧ (s.func 0).held.length < 16 then
    s.modFunc 0 fun f => { f with held := f.held ++ [e] }
  else (s.modFunc fn fun f => { f with lostNote := f.lostNote + 1 }).satAdd F.hstEvstat_lost fn 1

/-- An event for the PF's ring (R347). -/
def State.event (s : State) (code kind idx : Nat) (items : List (Nat × Nat)) : State := s.eventTo 0 code kind idx items

/-- PTC_REPRO.LOSS: a loss as R448 lists them (R459). -/
def State.lossSeen (s : State) : State := s.setFld F.ptcRepro_loss 0 1

/-- The image-busy event of a register write (R42, R332). -/
def State.imageBusy (s : State) (off : Nat) : State := s.event 0x0011 8 0 [(8, off)]

/-- The event of a write the firewall discards (R350). -/
def State.gateEvent (s : State) (off val : Nat) : State := s.event 0x0012 8 0 [(8, off), (8, val)]

/-- HST_HISTATE.MODIFIED is set (R48). -/
def State.modified (s : State) : State := s.setFld F.hstHistate_modified 0 1

/-- The host can reach the module: stage 7 of R594 has ended, or the boot ROM has brought up the PF and its rings in
recovery mode (R595, R605). -/
def State.ready (s : State) : Bool := decide (7 ≤ s.boot.stage) || s.boot.recovery

/-- R350, R331: a write to a register of a module block: firmware's always, the host's on the PF when EXPW admits it.  Until
the module is ready a host's write is discarded (R595). -/
def State.gated (s : State) (w : Writer) (off val : Nat) (f : State → State) : State :=
  match w with
  | .firmware _ => f s
  | .host fn => if fn ≠ 0 ∨ s.ready = false then s else if s.fuses.expw then f s else s.gateEvent off val

/-- R42: a write that arrives during validation or apply is discarded, with an image-busy event, where its register's reset
value is "image". -/
def State.imgWrite (s : State) (k : RegKind) (off : Nat) (f : State → State) : State :=
  if s.loading.isSome && imageKinds.contains k then s.imageBusy off else f s

/-- The time by which the controllers scan and pace interrupts: SRV_WALL, or Milug's while recovery mode has no root clock. -/
def State.ctlTime (s : State) : Nat := if s.boot.recovery then s.milug.time else s.wall

/-- The retained set-up digest becomes zero (R45). -/
def State.zeroDigest (s : State) : State :=
  (((s.setReg .hstHidigest 0 0).setReg .hstHidigest 1 0).setReg .hstHidigest 2 0).setReg .hstHidigest 3 0

/-- The number of entries of a function's ring (R336, R352). -/
def ringLen (size : Nat) : Nat := 2 ^ (6 + min size 10)

/-- A window of a function admits a range of host addresses in a direction (R350, R358). -/
def State.fwAllows (s : State) (fn : Nat) (wr : Bool) (a n : Nat) : Bool :=
  (List.range 8).any fun k =>
    let i := 8 * fn + k
    (if wr then s.fld F.hstFwbase_wr i == 1 else s.fld F.hstFwbase_rd i == 1)
      && decide (s.fld F.hstFwbase_base i * 4096 ≤ a)
      && decide (a + n ≤ (s.fld F.hstFwlim_limit i + 1) * 4096)

/-- R350: every byte of a host access lies in an enabled window that permits the direction. -/
def State.fwPass (s : State) (fn : Nat) (wr : Bool) (a n : Nat) : Bool :=
  decide (a + n ≤ 2 ^ 64) &&
    (s.fwAllows fn wr a n ||
      (List.range ((a + n - 1) / 4096 + 1 - a / 4096)).all fun p =>
        s.fwAllows fn wr ((a / 4096 + p) * 4096) 4096)

/-- The address of a function's status block (R353). -/
def State.sbAddr (s : State) (fn : Nat) : Nat := s.fld F.hstSbaddr_addr fn * 64

/-- The host's index in the status block: 0 for completions, 4 for events, 8 for the output ring (R339, R498). -/
def State.hostIdx (s : State) (fn off : Nat) : Nat := leNat (rdBytes s.hostMem (s.sbAddr fn + off) 4)

/-- R346: the completion ring of a function is full, or not enabled. -/
def State.cplFull (s : State) (fn : Nat) : Bool :=
  s.fld F.hstCplring_enable fn == 0
    || ((s.func fn).cplIdx + 1) % ringLen (s.fld F.hstCplring_size fn) == s.hostIdx fn 0

/-- R345, R351: the completion of a command; discarded while the function's rings are stopped.  That of a load command is
LAST_STATUS (R48). -/
def State.complete (s : State) (c : Cmd) (opcode status : Nat) (result : Nat := 0)
    (report : Option (Word × Word) := none) : State :=
  let s := if opcode = 0x0001 then s.setFld F.hstHistate_last_status 0 status else s
  if s.ringStopped c.fn then s
  else s.modFunc c.fn fun f => { f with cpls := f.cpls ++ [⟨status, c.tag, opcode, c.index, c.irq, result, report⟩] }

/-- The operands of a ring command in its entry: offset, bytes and value (R340, R342, R464, R474, R479, R488 to R490, R503, R523, R530,
R531, R533, R538, R610, R617, R619); a command without operands has none. -/
def operandsOf : Instr → List (Nat × Nat × Nat)
  | .dmaStart _ ch d => [(8, 1, ch.die), (9, 1, ch.ch), (16, 8, d.src.toNat), (24, 8, d.dst.toNat), (32, 4, d.len.toNat),
      (36, 4, d.ctrl.toNat), (40, 8, d.next.toNat)]
  | .loadImage _ addr len _ => [(8, 8, addr.toNat), (16, 4, len.toNat)]
  | .planLoad _ addr len => [(8, 8, addr.toNat), (16, 4, len.toNat)]
  | .planFree _ plan => [(8, 4, plan.toNat)]
  | .launch _ region mode plan count tree _ => [(8, 1, region.toNat), (9, 1, mode.toNat), (12, 4, plan.toNat), (16, 8, count.toNat), (24, 8, tree.toNat)]
  | .stop _ region => [(8, 1, region.toNat)]
  | .srvConfig _ region addr => [(8, 1, region.toNat), (16, 8, addr.toNat)]
  | .submit _ region addr => [(8, 1, region.toNat), (16, 8, addr.toNat)]
  | .cancel _ rid => [(8, 4, rid.toNat)]
  | .outring _ base size => [(8, 8, base.toNat), (16, 1, size.toNat)]
  | .tenantSet _ engine tenant limit window funcs => [(8, 1, engine.toNat), (10, 2, tenant.toNat), (12, 4, limit.toNat), (16, 2, window.toNat), (18, 2, funcs.toNat)]
  | .catDrop _ engine tenant handle => [(8, 1, engine.toNat), (10, 2, tenant.toNat), (16, 8, handle.toNat)]
  | .catMove _ engine tenant handle tier => [(8, 1, engine.toNat), (10, 2, tenant.toNat), (16, 8, handle.toNat), (24, 1, tier.toNat)]
  | .bcast _ tree src length srcsp chan => [(8, 8, tree.toNat), (16, 8, src.toNat), (24, 8, length.toNat), (32, 1, srcsp.toNat), (33, 1, chan.toNat)]
  | .wtable _ region addr => [(8, 1, region.toNat), (16, 8, addr.toNat)]
  | .wptr _ region first count addr => [(8, 1, region.toNat), (9, 1, first.toNat), (10, 2, count.toNat), (16, 8, addr.toNat)]
  | .swap _ addr units perStep => [(8, 8, addr.toNat), (16, 2, units.toNat), (18, 1, perStep.toNat)]
  | .fenceOut _ region => [(8, 1, region.toNat)]
  | .fenceIn _ region => [(8, 1, region.toNat)]
  | .updBegin _ addr len _ => [(8, 8, addr.toNat), (16, 4, len.toNat)]
  | .updBlock _ block crc addr => [(8, 2, block.toNat), (12, 4, crc.toNat), (16, 8, addr.toNat)]
  | .attest _ nonce addr len => [(8, 32, nonce.toNat), (40, 8, addr.toNat), (48, 4, len.toNat)]
  | .policy _ addr _ => [(8, 8, addr.toNat)]
  | .ownerSet _ hash => [(8, 32, hash.toNat)]
  | _ => []

/-- The operand bytes an opcode uses, as offset and length in the entry; none for an opcode R340 does not list. -/
def cmdSpans : Nat → Option (List (Nat × Nat))
  | 0x0000 => some []
  | 0x0001 | 0x0002 => some [(8, 8), (16, 4)]
  | 0x0003 | 0x0102 => some [(8, 4)]
  | 0x0004 => some [(8, 1), (9, 1), (12, 4), (16, 8), (24, 8)]
  | 0x0005 | 0x0204 | 0x0205 => some [(8, 1)]
  | 0x0006 => some [(8, 1), (9, 1), (16, 32)]
  | 0x0100 | 0x0101 | 0x0201 => some [(8, 1), (16, 8)]
  | 0x0103 => some [(8, 8), (16, 1)]
  | 0x0104 => some [(8, 1), (10, 2), (12, 4), (16, 2), (18, 2)]
  | 0x0105 => some [(8, 1), (10, 2), (16, 8)]
  | 0x0106 => some [(8, 1), (10, 2), (16, 8), (24, 1)]
  | 0x0200 => some [(8, 8), (16, 8), (24, 8), (32, 1), (33, 1)]
  | 0x0202 => some [(8, 1), (9, 1), (10, 2), (16, 8)]
  | 0x0203 => some [(8, 8), (16, 2), (18, 1)]
  | 0x0210 | 0x0211 | 0x0302 | 0x0303 | 0x0304 => some []
  | 0x0300 => some [(8, 8), (16, 4)]
  | 0x0301 => some [(8, 2), (12, 4), (16, 8)]
  | 0x0310 => some [(8, 32), (40, 8), (48, 4)]
  | 0x0311 => some [(8, 8)]
  | 0x0312 => some [(8, 32)]
  | _ => none

/-- The opcodes a virtual function may issue (R340, R473). -/
def vfOpcode (op : Nat) : Bool := [0x0000, 0x0101, 0x0102, 0x0103, 0x0105, 0x0106].contains op

/-- The opcodes the boot ROM executes in recovery mode (R605). -/
def recoveryOpcode (op : Nat) : Bool := [0x0000, 0x0300, 0x0301, 0x0302].contains op

/-- The opcode of a command entry. -/
def Taken.opcode (t : Taken) : Nat := leNat (t.bytes.take 2)

/-- The part of a command entry every command has (R338). -/
def Taken.cmd (t : Taken) (fn : Nat) : Cmd :=
  ⟨fn, BitVec.ofNat 32 (leNat ((t.bytes.drop 4).take 4)), bits (t.bytes.getD 2 0).toNat 1 1 == 1, t.index⟩

/-- The status with which an entry is answered without a meaning of its own: unknown (R340), forbidden (R340, R605), or
with reserved bits or unused operand bytes not zero (R346). -/
def State.badStatus (s : State) (fn : Nat) (t : Taken) : Option Nat :=
  let op := t.opcode
  if s.boot.recovery ∧ recoveryOpcode op = false then some 0x00A9
  else match cmdSpans op with
  | none => some 0x0010
  | some sp =>
    if fn ≠ 0 ∧ vfOpcode op = false then some 0x0011
    else if bits (t.bytes.getD 2 0).toNat 7 2 = 0 ∧ t.bytes.getD 3 0 = 0
        ∧ (List.range 56).all (fun i => sp.any (fun u => decide (u.1 ≤ 8 + i) && decide (8 + i < u.1 + u.2))
            || t.bytes.getD (8 + i) 0 == 0) then none
    else some 0x0012

/-- The function is the PF, or a VF that the PF driver has enabled (R330). -/
def State.fnOn (s : State) (fn : Nat) : Bool := decide (fn ≤ s.vfs.val)

/-- The function's commands may begin: it is enabled (R330), the rings are usable (R594, R605) and not stopped (R351), the completion
ring has room (R346), and no load is being validated or applied (R41; notes/assumptions/11.md). -/
def State.ringsFree (s : State) (fn : Nat) : Bool :=
  s.ready && !s.ringStopped fn && s.fnOn fn && s.loading.isNone && !s.cplFull fn

/-- The entry holds the command: its common part, its opcode and its operands as read (R337, R338). -/
def Taken.holds (t : Taken) (c : Cmd) (opcode : Nat) (ops : List (Nat × Nat × Nat)) : Bool :=
  t.cmd c.fn == c && t.opcode == opcode && ops.all fun o => leAt t.bytes o.1 o.2.1 == o.2.2

/-- R335: commands of different rings taken in one scan begin in function order: a function of a lower number has one of that scan
that need not wait for something else. -/
def State.lowerFirst (s : State) (fn scan : Nat) : Bool :=
  (List.range fn).any fun g =>
    ((s.func g).taken.any fun t => t.scan == scan) && s.ringsFree g && !(s.func g).waits

/-- A command may begin: it is the first of its ring that a scan has taken and that has not begun, and those of lower functions that
the same scan took have begun (R335). -/
def State.cmdReady (s : State) (c : Cmd) (opcode : Nat) (ops : List (Nat × Nat × Nat)) : Bool :=
  s.ringsFree c.fn
    && (match (s.func c.fn).taken with | [] => false | t :: _ => t.holds c opcode ops && !s.lowerFirst c.fn t.scan)

/-- The command has begun: it leaves the entries taken. -/
def State.popCmd (s : State) (c : Cmd) : State :=
  s.modFunc c.fn fun f => { f with taken := f.taken.tail, waits := false }

/-- The first command of a function's ring waits for something else than its turn (R342, R387, R558). -/
def State.cmdWaits (s : State) (fn : Nat) : State := s.modFunc fn fun f => { f with waits := true }

/-- The entries at the front of those taken that have no meaning of their own are answered in ring order, as their turn comes
(R335, R340). -/
def State.answerBad (s : State) (fn : Nat) : Nat → State
  | 0 => s
  | n + 1 =>
    match (s.func fn).taken with
    | [] => s
    | t :: _ =>
      match s.badStatus fn t with
      | some st =>
        if s.ringsFree fn && !s.lowerFirst fn t.scan then ((s.popCmd (t.cmd fn)).complete (t.cmd fn) t.opcode st).answerBad fn n else s
      | none => s

/-- The entries without a meaning at the front of a function's taken entries are answered, and then those of the functions above it
whose turn that brings (R335). -/
def State.answerAll (s : State) (fn : Nat) : State :=
  ((List.range 16).filter (fn ≤ ·)).foldl (fun s g => s.answerBad g (s.func g).taken.length) s

/-- Runs a command that may begin; otherwise nothing changes.  A command its function may not issue completes with 0x0011
(R340), and in recovery mode one outside R605's list with 0x00A9. -/
def State.runCmd (s : State) (c : Cmd) (opcode : Nat) (ops : List (Nat × Nat × Nat)) (allFns : Bool) (f : State → State) : State :=
  if s.cmdReady c opcode ops then
    let s := s.popCmd c
    (if s.boot.recovery ∧ recoveryOpcode opcode = false then s.complete c opcode 0x00A9
     else if c.fn = 0 ∨ allFns then f s else s.complete c opcode 0x0011).answerAll c.fn
  else s

/-- A cause of an MSI-X vector arises: INTERRUPT_RAISE raises it, at once or when its gap ends (R349). -/
def State.irqCause (s : State) (fn vec : Nat) : State :=
  s.modFunc fn fun f => { f with irqPend := f.irqPend ||| BitVec.ofNat 8 (2 ^ vec) }

/-- R348, R355: `n` events of a function are lost. -/
def State.loseEvents (s : State) (fn n : Nat) : State :=
  (s.modFunc fn fun f => { f with lostNote := f.lostNote + n }).satAdd F.hstEvstat_lost fn n

/-- R351: a ring or status-block access of a function is refused or fails: its rings stop, the address is latched, vector 2
of the PF is caused, completions not yet written are discarded and events not yet written are dropped and counted; the commands of
higher functions no longer wait for its own (R335). -/
def State.stopRings (s : State) (fn addr : Nat) : State :=
  if s.ringStopped fn then s
  else
    let s := (s.setFld F.hstRingstat_state fn 2).setFld F.hstRingstat_failaddr fn (addr / 256)
    let n := (s.func fn).evs.length
    (((s.modFunc fn fun f => { f with cpls := [], evs := [] }).loseEvents fn n).irqCause 0 2).answerAll fn

/-- R251: `n` busy units of capacity of a level's unit in the current occupancy window; held cycles are excluded. -/
def State.occAdd (s : State) (lvl unit n : Nat) : State :=
  let k := lvl * 2 ^ 32 + unit
  if s.held then s
  else { s with occ := { s.occ with use := mput s.occ.use k (mget s.occ.use k 0 + n) } }

/-- The next free value's counter advances. -/
def State.freeStep (s : State) (n : Nat) : State := { s with freeCtr := s.freeCtr + n }

/-- The next `n` free bytes at the counter (R283, R428). -/
def State.freeBytes (s : State) (n : Nat) : List Byte :=
  (List.range n).map fun i => Config.freeByte (s.freeCtr + i)

end Sys2Proof.Machine
end

