-- ==== Sys2Proof/Decode.lean ====
section
/-! DEFINITION. Decoding.  No row of spec/opcode_table.json gives bits, so `decodeTableWord` answers none; the slots of a
triple (R52) have encodings of the spec's own, and `decodeSlotS`, `decodeSlotV` and `decodeSlotX` read them as the commands
of the slots' operations, none where check 6 of R80 refuses the slot. -/

namespace Sys2Proof

/-- The command a word spells by the table's bits: none, since the table gives no row bits. -/
def decodeTableWord (_nbits _w : Nat) : Option Instr := none

namespace Machine

/-- Bits `[hi:lo]` of a slot. -/
def sb (w : BitVec 64) (hi lo : Nat) : Nat := bits w.toNat hi lo

/-- Every bit of `[51:0]` outside the listed ranges is zero (R18, R54). -/
def onlyBits (w : BitVec 64) (used : List (Nat × Nat)) : Bool :=
  (used.foldl (fun v r => putBits v r.1 r.2 0) (sb w 51 0)) == 0

/-- `some a` under a check, none otherwise. -/
def guardSome {α : Type} (c : Bool) (a : α) : Option α := if c then some a else none

def f4 (w : BitVec 64) (lo : Nat) : Fin 16 := Fin.ofNat 16 (sb w (lo + 3) lo)
def f5 (w : BitVec 64) (lo : Nat) : Fin 32 := Fin.ofNat 32 (sb w (lo + 4) lo)
def f6 (w : BitVec 64) (lo : Nat) : Fin 64 := Fin.ofNat 64 (sb w (lo + 5) lo)

/-- The predicate register of a slot (R54). -/
def slotPred (w : BitVec 64) : Fin 16 := f4 w 52

/-- The opcode of a slot (R54). -/
def slotOp (w : BitVec 64) : Nat := sb w 63 56

/-- The register-register operation of an opcode (R62). -/
def aluOpOf : Nat → Option AluOp
  | 0x10 => some .add | 0x11 => some .sub | 0x12 => some .and | 0x13 => some .or | 0x14 => some .xor
  | 0x15 => some .shl | 0x16 => some .shr | 0x17 => some .sra | 0x18 => some .mul | 0x19 => some .mulhu
  | 0x1A => some .min | 0x1B => some .max | 0x1C => some .minu | 0x1D => some .maxu | 0x1E => some .sel
  | _ => none

/-- The immediate operation of an opcode (R62). -/
def aluImmOpOf : Nat → Option AluImmOp
  | 0x20 => some .addi | 0x22 => some .andi | 0x23 => some .ori | 0x24 => some .xori | 0x25 => some .shli
  | 0x26 => some .shri | 0x27 => some .srai | 0x28 => some .muli | 0x2E => some .ldi | 0x2F => some .ldhi
  | _ => none

/-- The relation of a compare opcode's low bits (R62). -/
def relOf : Nat → Option Rel
  | 0 => some .eq | 1 => some .ne | 2 => some .lt | 3 => some .ltu | 4 => some .ge | 5 => some .geu
  | _ => none

/-- R65: the special values `sget` reads. -/
def sregDefined (n : Nat) : Bool :=
  decide (n ≤ 5) || (decide (0x10 ≤ n) && decide (n ≤ 0x17)) || (decide (0x20 ≤ n) && decide (n ≤ 0x22))

/-- An S slot as its command (R61 to R65, R70). -/
def decodeSlotS (t : Xy) (w : BitVec 64) : Option Instr :=
  let pr := slotPred w
  let op := slotOp w
  let imm : BitVec 32 := BitVec.ofNat 32 (sb w 41 10)
  let lvl : Fin 4 := Fin.ofNat 4 (sb w 51 50)
  if op = 0x00 then guardSome (onlyBits w []) (.nop t .s pr)
  else if op = 0x01 then guardSome (onlyBits w [(51, 36)]) (.mark t pr (BitVec.ofNat 16 (sb w 51 36)))
  else if 0x10 ≤ op ∧ op ≤ 0x1E then
    (aluOpOf op).bind fun o =>
      guardSome (onlyBits w ([(51, 47), (46, 42), (41, 37)] ++ if op = 0x1E then [(36, 33)] else []))
        (.scalarAlu t pr o (f5 w 47) (f5 w 42) (f5 w 37) (f4 w 33))
  else if 0x20 ≤ op ∧ op ≤ 0x2F then
    (aluImmOpOf op).bind fun o =>
      guardSome (onlyBits w [(51, 47), (46, 42), (41, 10)]
          && (!(op == 0x2E || op == 0x2F) || sb w 46 42 == 0)
          && (!(op == 0x25 || op == 0x26 || op == 0x27) || decide (imm.toNat ≤ 63)))
        (.scalarAluImmediate t pr o (f5 w 47) (f5 w 42) imm)
  else if 0x30 ≤ op ∧ op ≤ 0x35 then
    (relOf (op - 0x30)).bind fun r =>
      guardSome (onlyBits w [(51, 48), (47, 43), (42, 38)] && sb w 51 48 != 0)
        (.cmp t pr r (f4 w 48) (f5 w 43) (f5 w 38))
  else if 0x38 ≤ op ∧ op ≤ 0x3D then
    (relOf (op - 0x38)).bind fun r =>
      guardSome (onlyBits w [(51, 48), (47, 43), (42, 11)] && sb w 51 48 != 0)
        (.cmpi t pr r (f4 w 48) (f5 w 43) (BitVec.ofNat 32 (sb w 42 11)))
  else if op = 0x3F then
    guardSome (onlyBits w [(51, 48), (47, 44), (43, 40), (39, 36)] && sb w 51 48 != 0)
      (.plog t pr (f4 w 48) (f4 w 44) (f4 w 40) (BitVec.ofNat 4 (sb w 39 36)))
  else if op = 0x40 ∨ op = 0x41 then
    let off : BitVec 21 := BitVec.ofNat 21 (sb w 35 15)
    guardSome (onlyBits w [(51, 47), (46, 42), (41, 36), (35, 15)])
      (if op = 0x40 then .sld t pr (f5 w 47) (f5 w 42) (f6 w 36) off
       else .sst t pr (f5 w 47) (f5 w 42) (f6 w 36) off)
  else if op = 0x42 ∨ op = 0x43 then
    guardSome (onlyBits w [(51, 47), (46, 43)])
      (if op = 0x42 then .sldAg t pr (f5 w 47) (f4 w 43) else .sstAg t pr (f5 w 47) (f4 w 43))
  else if op = 0x48 then
    guardSome (onlyBits w [(51, 47), (46, 39)] && sregDefined (sb w 46 39))
      (.sget t pr (f5 w 47) (BitVec.ofNat 8 (sb w 46 39)))
  else if op = 0x50 then
    guardSome (onlyBits w [(51, 50), (49, 30), (29, 18)] && sb w 29 18 != 0)
      (.loop t lvl (BitVec.ofNat 20 (sb w 49 30)) (BitVec.ofNat 12 (sb w 29 18)))
  else if op = 0x51 then
    guardSome (onlyBits w [(51, 50), (29, 18)] && sb w 29 18 != 0) (.loopd t lvl (BitVec.ofNat 12 (sb w 29 18)))
  else if op = 0x58 then some (.agbase t pr (f4 w 48) (BitVec.ofNat 48 (sb w 47 0)))
  else if op = 0x59 ∨ op = 0x5A then
    guardSome (onlyBits w [(51, 48), (47, 43)])
      (if op = 0x59 then .agset t pr (f4 w 48) (f5 w 43) else .agadd t pr (f4 w 48) (f5 w 43))
  else if op = 0x5B then
    guardSome (onlyBits w [(51, 48), (47, 47), (46, 41)]) (.aghnd t pr (f4 w 48) (sb w 47 47 == 1) (f6 w 41))
  else if op = 0x60 then
    guardSome (onlyBits w [(51, 50), (49, 30)]) (.dwrC t lvl (BitVec.ofNat 20 (sb w 49 30)))
  else if op = 0x61 then
    guardSome (onlyBits w [(51, 50), (49, 46), (45, 41)]) (.dwrS t pr lvl (f4 w 46) (f5 w 41))
  else if op = 0x62 then
    guardSome (onlyBits w [(51, 50), (49, 46), (45, 14)]) (.dwrSi t pr lvl (f4 w 46) (BitVec.ofNat 32 (sb w 45 14)))
  else none

/-! ## Stage words (R181, R188, R189) -/

/-- The fields of a stage word. -/
def swSop (w : BitVec 46) : Nat := bits w.toNat 45 40
def swTy (w : BitVec 46) : Nat := bits w.toNat 39 37
def swBsrc (w : BitVec 46) : Nat := bits w.toNat 36 35
def swBreg (w : BitVec 46) : Nat := bits w.toNat 34 30
def swCsel (w : BitVec 46) : Nat := bits w.toNat 29 29
def swCreg (w : BitVec 46) : Nat := bits w.toNat 28 24
def swImm (w : BitVec 46) : Nat := bits w.toNat 23 8
def swRnd (w : BitVec 46) : Nat := bits w.toNat 7 6
def swParam (w : BitVec 46) : Nat := bits w.toNat 5 0

/-- A stage operation the engine has (R189). -/
def sopDefined (n : Nat) : Bool :=
  decide (n ≤ 0x0B) || (decide (0x10 ≤ n) && decide (n ≤ 0x16)) || (decide (0x18 ≤ n) && decide (n ≤ 0x1B))
    || n == 0x20 || n == 0x24 || n == 0x28 || n == 0x2C || n == 0x2D

/-- The stage uses operand B (R189). -/
def swUsesB (w : BitVec 46) : Bool :=
  let o := swSop w
  (decide (0x01 ≤ o) && decide (o ≤ 0x0B)) || (decide (0x10 ≤ o) && decide (o ≤ 0x15))
    || (o == 0x16 && swParam w == 2) || o == 0x18 || o == 0x19 || o == 0x1A

/-- The stage's TY is one its operation accepts (R189, R194). -/
def swTyOk (w : BitVec 46) : Bool :=
  let o := swSop w
  let ty := swTy w
  if o = 0x00 then ty == 0
  else if o ≤ 0x0B then decide (ty ≤ 5)
  else if 0x10 ≤ o ∧ o ≤ 0x16 then decide (6 ≤ ty)
  else if o = 0x18 then true
  else if o = 0x20 then decide (6 ≤ ty)
  else if o = 0x28 then (if bits (swParam w) 3 2 < 2 then ty == 6 else decide (ty ≤ 5))
  else ty == 0

/-- The stage's PARAM is in range (R189, R193 to R195). -/
def swParamOk (w : BitVec 46) : Bool :=
  let o := swSop w
  let p := swParam w
  if o = 0x16 then decide (p ≤ 2)
  else if o = 0x18 then decide (bits p 2 0 ≤ 5) && decide (bits p 4 3 ≤ 2) && bits p 5 5 == 0
  else if o = 0x20 then decide (p ≤ 9)
  else if o = 0x28 then decide (p < 16)
  else p == 0

/-- The stage's RND is one its operation uses (R181, R188, R194, R197). -/
def swRndOk (w : BitVec 46) : Bool :=
  let o := swSop w
  let r := swRnd w
  if 0x01 ≤ o ∧ o ≤ 0x0B then decide (r ≤ 1)
  else if o = 0x24 then decide (r ≤ 2)
  else if o = 0x28 ∧ bits (swParam w) 3 2 = 2 then decide (r ≤ 1)
  else r == 0

/-- The stage's operand fields: those it does not use are zero, a vector register is below 16 (R188). -/
def swFieldsOk (w : BitVec 46) : Bool :=
  let usesB := swUsesB w
  let src := swBsrc w
  (usesB || src == 0)
    && (swSop w != 0x1A || src == 1)
    && (if usesB && decide (src ≤ 1) then decide (src = 1 ∨ swBreg w ≤ 15) else swBreg w == 0)
    && (if swSop w = 0x24 then decide (swImm w < 0x100) && decide (bits (swImm w) 7 4 ≤ 0xB)
          && decide (bits (swImm w) 3 0 ≤ 0xB)
        else (usesB && src == 2) || swImm w == 0)
    && (if swSop w = 0x13 then decide (swCsel w = 1 ∨ swCreg w ≤ 15) else swCsel w == 0 && swCreg w == 0)

/-- R188: a stage word a `vdef` may carry. -/
def swOk (w : BitVec 46) : Bool := sopDefined (swSop w) && swTyOk w && swParamOk w && swRndOk w && swFieldsOk w

/-- The fields of a `vrun` (R183). -/
def vrunOf (w : BitVec 64) : VrunF :=
  { chain := Fin.ofNat 8 (sb w 51 49), rcnt := f6 w 43, src := Fin.ofNat 8 (sb w 42 40), inp := f4 w 36,
    iw := Fin.ofNat 8 (sb w 35 33), sp := f5 w 28, auxen := sb w 27 27 == 1, agAux := f4 w 23,
    sink := Fin.ofNat 4 (sb w 22 21), ow := Fin.ofNat 8 (sb w 20 18), out := f4 w 14, mskw := sb w 13 13 == 1,
    sc := f5 w 8, nstg := f4 w 4 }

/-- The element width in bits of IW and OW (R183). -/
def ewBits (n : Nat) : Nat :=
  if n = 0 then 32 else if n = 1 then 16 else if n = 2 then 8 else if n = 3 then 6 else 4

/-- R188: the fields of a `vrun` of a plan that loads. -/
def vrunOk (f : VrunF) : Bool :=
  decide (f.src.val ≤ 4) && decide (f.iw.val ≤ 4) && decide (f.sink.val ≤ 2) && decide (f.ow.val ≤ 4)
    && decide (f.nstg.val ≤ 8)
    && (!(f.src.val == 1 || f.src.val == 3 || f.src.val == 4) || f.iw.val == 0)
    && (f.src.val != 2 || (decide (f.iw.val ≤ 2) && (f.rcnt.val + 1) % (16 / (ewBits f.iw.val / 8)) == 0))
    && (f.src.val != 4 || decide (f.inp.val + f.rcnt.val ≤ 15))
    && (f.sink.val != 1 || decide (f.out.val + f.rcnt.val ≤ 15))
    && (f.src.val == 1 || f.src.val == 2 || f.sp.val == 0)
    && (f.auxen || f.agAux.val == 0)
    && (f.sink.val != 2 || (f.ow.val == 0 && f.out.val == 0 && !f.mskw))
    && !(f.mskw && (f.ow.val == 3 || f.ow.val == 4))

/-- A V slot as its command (R180 to R183, R188). -/
def decodeSlotV (t : Xy) (w : BitVec 64) : Option Instr :=
  let pr := slotPred w
  let op := slotOp w
  if op = 0x00 then guardSome (onlyBits w []) (.nop t .v pr)
  else if op = 0x40 then
    let word : BitVec 46 := BitVec.ofNat 46 (sb w 45 0)
    guardSome (swOk word) (.vdef t pr (Fin.ofNat 8 (sb w 51 49)) (Fin.ofNat 8 (sb w 48 46)) word)
  else if op = 0x41 then guardSome (sb w 3 0 == 0 && vrunOk (vrunOf w)) (.vrun t pr (vrunOf w))
  else none

/-- A direction's code (R118). -/
def dirOf : Nat → Dir
  | 0 => .north | 1 => .east | 2 => .south | _ => .west

/-- An X slot as its command (R118, R158, R159, R218, R219). -/
def decodeSlotX (t : Xy) (w : BitVec 64) : Option Instr :=
  let pr := slotPred w
  let op := slotOp w
  let wb : Fin 2 := Fin.ofNat 2 (sb w 51 51)
  let as : Fin 2 := Fin.ofNat 2 (sb w 50 50)
  let rowsOk := decide (sb w 41 36 + sb w 35 30 ≤ 63)
  let dr : DrainF := { aset := as, row0 := f6 w 36, rcnt := f6 w 30, node := f4 w 26, part := sb w 25 25 == 1,
                       clr := sb w 24 24 == 1 }
  let drOk := rowsOk && (dr.part || dr.node.val == 0)
  if op = 0x00 then guardSome (onlyBits w []) (.nop t .x pr)
  else if op = 0x80 then
    guardSome (onlyBits w [(51, 51), (50, 47), (46, 43)] && decide (sb w 46 43 ≤ 6)) (.mload t pr wb (f4 w 47) (f4 w 43))
  else if op = 0x81 then guardSome (onlyBits w [(51, 51), (50, 47)]) (.mscl t pr wb (f4 w 47))
  else if op = 0x82 then
    guardSome (onlyBits w [(50, 50), (41, 36), (35, 30)] && rowsOk) (.mzero t pr as (f6 w 36) (f6 w 30))
  else if op = 0x84 then
    let f : MmulF := { wbuf := wb, aset := as, agA := f4 w 46, afmt := f4 w 42, row0 := f6 w 36, rcnt := f6 w 30,
                       sk := f5 w 25, klvl := Fin.ofNat 4 (sb w 24 23), kle := sb w 22 22 == 1, agS := f4 w 18 }
    guardSome (onlyBits w [(51, 18)] && rowsOk && decide (f.afmt.val ≤ 6)
        && ((decide (3 ≤ f.afmt.val) && decide (f.afmt.val ≤ 5)) || f.agS.val == 0)) (.mmul t pr f)
  else if op = 0x88 then guardSome (onlyBits w [(50, 46), (41, 24)] && drOk) (.mdrain t pr dr (f4 w 46))
  else if op = 0x89 then guardSome (onlyBits w [(50, 50), (41, 24)] && drOk) (.mdrainv t pr dr)
  else if op = 0xA0 then
    guardSome (onlyBits w [(51, 33)]) (.cput t pr (f5 w 47) (f4 w 43) (f4 w 39) (f6 w 33))
  else if op = 0xA1 then
    guardSome (onlyBits w [(51, 36)]) (.nput t pr (dirOf (sb w 51 50)) (f4 w 46) (f4 w 42) (f6 w 36))
  else if op = 0xA4 ∨ op = 0xA5 then
    let f : WinF := { sa := f5 w 47, agRemote := f4 w 43, rhandle := f6 w 37, agLocal := f4 w 33 }
    guardSome (onlyBits w [(51, 33)]) (if op = 0xA4 then .wget t pr f else .wput t pr f)
  else if op = 0xC0 ∨ op = 0xC1 then
    let f : QueueF := { agExt := f4 w 48, agLoc := f4 w 44, size := f4 w 40, tag := f4 w 36,
                        dly := BitVec.ofNat 20 (sb w 35 16) }
    guardSome (onlyBits w [(51, 16)] && decide (f.size.val ≤ 4) && decide (640 ≤ f.dly.toNat))
      (if op = 0xC0 then .qrd t pr f else .qwr t pr f)
  else if op = 0xC4 then
    guardSome (onlyBits w [(51, 36)] && sb w 51 36 != 0) (.qwait t pr (BitVec.ofNat 16 (sb w 51 36)))
  else none

/-- The slots of a triple (R52). -/
def slotS (w : BitVec 192) : BitVec 64 := w.extractLsb' 0 64
def slotV (w : BitVec 192) : BitVec 64 := w.extractLsb' 64 64
def slotX (w : BitVec 192) : BitVec 64 := w.extractLsb' 128 64

/-- The scalar and predicate destinations of a slot's command (R57); s0 names none. -/
def destsOf : Instr → List (Bool × Nat)
  | .scalarAlu _ _ _ sd .. | .scalarAluImmediate _ _ _ sd .. | .sld _ _ sd .. | .sldAg _ _ sd .. | .sget _ _ sd _ =>
    if sd.val = 0 then [] else [(false, sd.val)]
  | .cmp _ _ _ pd .. | .cmpi _ _ _ pd .. | .plog _ _ pd .. => [(true, pd.val)]
  | .vrun _ _ f => if f.sc.val = 0 then [] else [(false, f.sc.val)]
  | _ => []

/-- R57, R188: no two slots name one destination, and a matrix-source `vrun` stands with an `mdrainv` of the same RCNT
and PRED. -/
def tripleOk (si vi xi : Instr) : Bool :=
  ((destsOf si).all fun d => !(destsOf vi).contains d)
    && (match vi, xi with
        | .vrun _ p f, .mdrainv _ q d => f.src.val == 3 && f.rcnt == d.rcnt && p == q
        | .vrun _ _ f, _ => f.src.val != 3
        | _, .mdrainv .. => false
        | _, _ => true)

/-- The three commands of a triple of a plan that loads, none where check 6 of R80 refuses it. -/
def decodeTriple (t : Xy) (w : BitVec 192) : Option (Instr × Instr × Instr) :=
  (decodeSlotS t (slotS w)).bind fun a => (decodeSlotV t (slotV w)).bind fun b => (decodeSlotX t (slotX w)).bind fun c =>
    guardSome (tripleOk a b c) (a, b, c)

end Machine
end Sys2Proof
end

