-- ==== Sys2Proof/Machine/Flags.lean ====
section
/-! DEFINITION. The status a command leaves beside its result: slips and their counters (R215, R237), fault registers and
their events (R98, R135, R172, R208, R219), latencies with their pads (R88, R248). -/

namespace Sys2Proof.Machine

/-! ## Latencies (R88, R168, R203, R225, R248) -/

/-- The units whose latency a pad of TIL_PADCTL adjusts, by the number of the pad's nibble (R90). -/
inductive LatUnit where
  | salu | smul | sload | vstage | mstream | mdrain | hop | qland
  deriving DecidableEq, Repr

/-- The pad's place in TIL_PADCTL (R90). -/
def LatUnit.lo : LatUnit → Nat
  | .salu => 0 | .smul => 4 | .sload => 8 | .vstage => 12 | .mstream => 16 | .mdrain => 20 | .hop => 24 | .qland => 28

/-- The native latency on a stepping: A0 and A1, or B0 (R88, R113, R168, R203, R225). -/
def nativeLat (b0 : Bool) : LatUnit → Nat
  | .salu => 1
  | .smul => if b0 then 2 else 3
  | .sload => if b0 then 5 else 6
  | .vstage => if b0 then 2 else 3
  | .mstream => if b0 then 10 else 12
  | .mdrain => if b0 then 5 else 6
  | .hop => 1
  | .qland => if b0 then 3 else 4

/-- The latency a timing profile carries (R248). -/
def profileLat (profile : Nat) (u : LatUnit) : Nat := nativeLat (decide (profile = 2)) u

/-- The stepping is B0 or newer (R21). -/
def State.isB0 (s : State) : Bool := decide (0x10 ≤ s.fuses.stepping)

/-- The padded latency of a unit of a tile (R248). -/
def State.lat (s : State) (y : Nat) (u : LatUnit) : Nat :=
  nativeLat s.isB0 u + bits (s.tile y).padw.toNat (u.lo + 3) u.lo

/-- R89: the pads of a profile on the stepping, none when one would be negative or above 15. -/
def State.padWord (s : State) (profile : Nat) : Option Nat :=
  if profile ≠ 1 ∧ profile ≠ 2 then none
  else
    let us : List LatUnit := [.salu, .smul, .sload, .vstage, .mstream, .mdrain, .hop, .qland]
    if us.all fun u => decide (nativeLat s.isB0 u ≤ profileLat profile u)
        && decide (profileLat profile u ≤ nativeLat s.isB0 u + 15) then
      some (us.foldl (fun a u => a + (profileLat profile u - nativeLat s.isB0 u) * 2 ^ u.lo) 0)
    else none

/-! ## Slips (R215, R237) -/

/-- Why a tile issues nothing in a cycle: the sources of R237, and the two scheduled waits, which are no slip. -/
inductive Wait where
  | reg | bank | slot | mesh | matrix | vector | qfull | qlate | text | sched
  deriving DecidableEq, Repr

/-- The counter of a wait (R237). -/
def State.waitCount (s : State) (y : Nat) : Wait → State
  | .bank => s.satAdd F.tilSpcnt_bankwait y 1
  | .slot => s.satAdd F.tilSpcnt_slotwait y 1
  | .matrix => s.satAdd F.tilMxstat_wait y 1
  | .vector => s.satAdd F.tilVstat_wait y 1
  | .qfull => s.satAdd F.tilQstat_qfull y 1
  | .qlate => s.satAdd F.tilQstat_qlate y 1
  | .reg | .mesh | .text | .sched => s

/-- The waits of a list, each once. -/
def dedupW : List Wait → List Wait
  | [] => []
  | w :: ws => if ws.contains w then dedupW ws else w :: dedupW ws

/-- R237: a cycle in which the tile issues nothing for the listed waits: one slip, unless every wait is a scheduled one,
and each applicable counter raised by one; a cycle already counted is one slip still. -/
def State.slip (s : State) (y : Nat) (ws : List Wait) : State :=
  let s := s.modTile y fun t =>
    { t with
      lastAt := s.sched + 1, waiting := true
      late := if ws.all (· == .sched) || (t.waiting && t.lastAt == s.sched + 1) then t.late else t.late + 1 }
  (dedupW ws).foldl (fun s w => s.waitCount y w) s

/-! ## Faults of a tile -/

/-- The scratchpad fault register and counter (R134, R135). -/
def State.spFaultReg (s : State) (y kind h pc off : Nat) : State :=
  let s := ((s.setFld F.tilSpfault_kind y kind).setFld F.tilSpfault_handle y h).setFld F.tilSpfault_pc y pc
  ((s.setFld F.tilSpfault_sticky y 1).setFld F.tilSpfault_offset y off).satAdd F.tilSpcnt_faults y 1

/-- R98: the record of a bounds fault. -/
def State.boundsFault (s : State) (y pc h off : Nat) : State :=
  (s.event 0x0210 0 y [(4, pc), (1, h), (4, off % 2 ^ 21)]).spFaultReg y 1 h pc off

/-- R105: the record of a refused handle entry: HANDLE is the entry's number, OFFSET 0 (R135; DESIGN CHOICE, notes/assumptions/59.md). -/
def State.handleFault (s : State) (y pc h : Nat) : State := (s.event 0x0211 0 y []).spFaultReg y 2 h pc 0

/-- R126: the record of a missing right. -/
def State.rightsFault (s : State) (y pc h off : Nat) : State := (s.event 0x0212 0 y []).spFaultReg y 3 h pc off

/-- R122: the record of a mesh fault: DHANDLE or RHANDLE, and the offset within it. -/
def State.meshFault (s : State) (y pc h off : Nat) : State := (s.event 0x0213 0 y []).spFaultReg y 4 h pc off

/-- R128: the record of a window meeting; TIL_SPFAULT takes the handle, the counter and the offset of the packet that goes first
(DESIGN CHOICE, notes/assumptions/59.md). -/
def State.meetingFault (s : State) (y : Nat) (p : MPkt) : State :=
  (s.event 0x0214 0 y []).spFaultReg y 5 p.handle p.pc p.off

/-- R172, R176: the record of a matrix event. -/
def State.mxFault (s : State) (y code kind set row pc kidx : Nat) : State :=
  let s := s.event code 0 y [(4, pc)]
  let s := ((s.setFld F.tilMxfault_kind y kind).setFld F.tilMxfault_set y set).setFld F.tilMxfault_row y row
  ((((s.setFld F.tilMxfault_pc y pc).setFld F.tilMxfault_sticky y 1).setFld F.tilMxfault_kidx y kidx)).satAdd
    F.tilMxstat_faults y 1

/-- R208: the record of a vector engine event. -/
def State.vFault (s : State) (y code pc : Nat) : State :=
  (s.event code 0 y [(4, pc)]).satAdd F.tilVstat_faults y 1

/-- R71, R92: the record of a descriptor write to an active level; AG reads 0 after a count (DESIGN CHOICE,
notes/assumptions/60.md). -/
def State.descEvent (s : State) (y pc lvl : Nat) (stride : Bool) (ag : Nat) : State :=
  let s := s.event 0x0201 0 y ([(4, pc), (1, lvl), (1, b2n stride)] ++ if stride then [(1, ag)] else [])
  let s := ((s.setFld F.tilDescevt_pc y pc).setFld F.tilDescevt_level y lvl).setFld F.tilDescevt_kind y (b2n stride)
  ((s.setFld F.tilDescevt_ag y (if stride then ag else 0)).setFld F.tilDescevt_sticky y 1).satAdd F.tilDescevt_count y 1

end Sys2Proof.Machine
end

