-- ==== Sys2Proof/Machine/Operands.lean ====
section
/-! DEFINITION. The operand forms of the tile's operations: scalar and predicate registers, address generators, handles
with their bounds, banks and slots, and the accesses through them (R58, R73 to R75, R94 to R111). -/

namespace Sys2Proof.Machine

/-! ## Scalar and predicate registers -/

/-- A scalar register: s0 reads zero (R58). -/
def Tile.s (t : Tile) (n : Nat) : Word := if n = 0 then 0 else mget t.sregs n 0

/-- A predicate register: p0 reads 1 (R58). -/
def Tile.p (t : Tile) (n : Nat) : Bool := decide (n = 0) || t.preds.getLsbD n

/-- A scalar register set; s0 discards the write (R58). -/
def Tile.setS (t : Tile) (n : Nat) (v : Word) : Tile := if n = 0 then t else { t with sregs := mput t.sregs n v }

/-- A predicate register set; p0 cannot be written (R58). -/
def Tile.setP (t : Tile) (n : Nat) (v : Bool) : Tile :=
  if n = 0 then t else { t with preds := BitVec.ofNat 16 (putBits t.preds.toNat n n (b2n v)) }

/-- R60: a result of latency `l` is issued: outstanding until RESULT_WRITEBACK. -/
def State.result (s : State) (y : Nat) (pred : Bool) (r : Nat) (v : Word) (l : Nat) : State :=
  if r = 0 then s else s.modTile y fun t => { t with outs := t.outs ++ [⟨s.sched + l, pred, r, v, false, 0⟩] }

/-- A register has an outstanding write (R60). -/
def Tile.outstanding (t : Tile) (pred : Bool) (r : Nat) : Bool := t.outs.any fun o => o.pred == pred && o.reg == r

/-! ## Loops and generators -/

def Tile.lvl (t : Tile) (l : Nat) : LoopLvl := mget t.lvls l {}

/-- The address of a generator (R74). -/
def Tile.agAddr (t : Tile) (a : Nat) : Nat :=
  let g := mget t.gens a {}
  let part (l : Nat) : Int :=
    let v := t.lvl l
    if v.active then (v.idx : Int) * (mget v.strides a 0).toInt else 0
  ((g.base.toNat : Int) + part 0 + part 1 + part 2 + part 3).emod (2 ^ 48) |>.toNat

def Tile.gen (t : Tile) (a : Nat) : Gen := mget t.gens a {}

/-- R56: the generators and levels are kept as they stand, before the S slot of a triple of schedule cycle `c` changes them. -/
def Tile.keepWas (c : Nat) (t : Tile) : Tile :=
  match t.was with
  | some w => if w.1 = c + 1 then t else { t with was := some (c + 1, t.gens, t.lvls) }
  | none => { t with was := some (c + 1, t.gens, t.lvls) }

/-- R56: the tile as the V and X slots of a triple of schedule cycle `c` see it: without what its S slot has changed. -/
def Tile.before (c : Nat) (t : Tile) : Tile :=
  match t.was with
  | some w => if w.1 = c + 1 then { t with gens := w.2.1, lvls := w.2.2 } else t
  | none => t

/-! ## Handles -/

/-- The banks of a tile that are gated: all in a gallery that is not awake, those of TIL_BANKGATE whose gate has taken
effect, and those ungated less than 256 cycles ago (R322, R579, R580). -/
def State.gatedBanks (s : State) (y : Nat) : Nat :=
  if (s.gal (galOf (xyOf y))).awake then
    let t := s.tile y
    (t.ungate.foldl (fun m b => m ||| 2 ^ b.1) 0) ||| (s.fld F.tilBankgate_gated y &&& (~~~t.gateReq).toNat)
  else 0xFFFFFFFF

/-- The two registers of a handle entry with the writes of `sst` that govern by now (R105). -/
def State.hndRegs (s : State) (y n : Nat) : Nat × Nat :=
  ((s.tile y).hndw.filter fun w => decide (w.1 ≤ s.sched) && w.2.1 == n).foldl
    (fun r w => if w.2.2.1 then (r.1, w.2.2.2.toNat) else (w.2.2.2.toNat, putBits r.2 15 15 0))
    (s.reg .tilHndb (64 * y + n), s.reg .tilHndc (64 * y + n))

/-- Handle entry `n` of a tile. -/
def State.hnd (s : State) (y n : Nat) : Hnd :=
  let (b, c) := s.hndRegs y n
  { valid := bits c 15 15 == 1, rread := bits c 8 8 == 1, rwrite := bits c 9 9 == 1, sync := bits c 3 3 == 1,
    mode := bits c 2 0, base := bits b 20 0, size := bits b 53 32, gated := s.gatedBanks y }

/-- The bank of a physical address under a hash mode (R95). -/
def bankOf (mode a : Nat) : Nat :=
  if mode = 1 then (bits a 9 5) ^^^ (bits a 14 10)
  else if mode = 2 then (bits a 9 5) ^^^ (bits a 14 10) ^^^ (bits a 19 15) ^^^ (bits a 20 20)
  else bits a 9 5

/-- R97: an access lies within a handle that is valid and not a control handle. -/
def Hnd.inRange (h : Hnd) (sp : Span) : Bool := h.valid && h.mode != 7 && decide (sp.off + sp.len ≤ h.size)

/-- The units of `2 ^ k` bytes a span touches, by number of physical address. -/
def Hnd.units (h : Hnd) (k : Nat) (sp : Span) : List Nat :=
  if sp.len = 0 then []
  else
    let a := (h.base + sp.off) / 2 ^ k
    (List.range ((h.base + sp.off + sp.len - 1) / 2 ^ k + 1 - a)).map (a + ·)

/-- The bank of every bank word an access touches (R94, R95). -/
def Hnd.banks (h : Hnd) (sps : List Span) : List Nat :=
  sps.flatMap fun sp => (h.units 5 sp).map fun w => bankOf h.mode (32 * w)

/-- R97, R580: an access through a handle lies in bounds, and no bank it touches is gated. -/
def Hnd.inBounds (h : Hnd) (sp : Span) : Bool :=
  h.inRange sp && (h.gated == 0 || (h.banks [sp]).all fun b => !h.gated.testBit b)

/-- The slots an access touches (R107). -/
def Hnd.slots (h : Hnd) (sps : List Span) : List Nat := sps.flatMap (h.units 9)

/-- The slots whose final word an access includes (R108). -/
def Hnd.finals (h : Hnd) (sps : List Span) : List Nat :=
  sps.flatMap fun sp => ((h.units 5 sp).filter fun w => w % 16 == 15).map (· / 16)

/-- R109, R110: the full bits as accesses in cycle `c` test them: as they stood at its start. -/
def Tile.fullSeen (t : Tile) (c : Nat) : BitVec 4096 := if t.fullAt = c + 1 then t.fullWas else t.full

/-- The full bits change in cycle `c`. -/
def Tile.setFull (t : Tile) (c : Nat) (f : BitVec 4096) : Tile :=
  { t with full := f, fullWas := t.fullSeen c, fullAt := c + 1 }

/-- R110: an access that began before cycle `c` and whose words are not all served holds a slot. -/
def Tile.holds (t : Tile) (c k : Nat) : Bool :=
  (t.bankq.any fun q => q.left.isSome && decide (q.began < c) && q.hnd.sync && (q.hnd.slots q.acc.sps).contains k)
    || t.bufq.any fun q => decide (q.began < c) && q.hnd.sync && (q.hnd.slots q.acc.sps).contains k

/-- R109, R110: an access waits for a slot: a read for an empty one, a write for a full one, under SYNC 1. -/
def State.slotWaits (s : State) (y : Nat) (h : Hnd) (wr : Bool) (sps : List Span) : Bool :=
  h.sync && (h.slots sps).any fun k => ((s.tile y).fullSeen s.cnt).getLsbD k == wr || (s.tile y).holds s.cnt k

/-- R108: the full bits after an access in cycle `c`. -/
def Tile.mark (t : Tile) (c : Nat) (h : Hnd) (wr : Bool) (sps : List Span) : Tile :=
  if h.sync then
    t.setFull c ((h.finals sps).foldl (fun f k =>
      if wr then f ||| (1#4096 <<< k) else f &&& ~~~(1#4096 <<< k)) t.full)
  else t

/-- The bytes of an access that lies in bounds. -/
def Tile.bytesAt (t : Tile) (h : Hnd) (sp : Span) : List Byte := rdBytes t.scratch (h.base + sp.off) sp.len

/-- R97, R98, R108: a read of one access through the entry `e` of handle `h`: its spans in order; zeros and a bounds fault
when one is out of bounds. -/
def State.spReadE (s : State) (y pc h : Nat) (e : Hnd) (space : Bool) (sps : List Span) : State × List Byte :=
  if !space && sps.all e.inBounds then
    ((s.modTile y fun t => t.mark s.cnt e false sps).occAdd 0 (galOf (xyOf y)) (e.banks sps).length, sps.flatMap fun sp => (s.tile y).bytesAt e sp)
  else (s.boundsFault y pc h ((sps.head?.map (·.off)).getD 0), sps.flatMap fun sp => List.replicate sp.len 0)

/-- A read through a handle's entry in force. -/
def State.spRead (s : State) (y pc h : Nat) (space : Bool) (sps : List Span) : State × List Byte :=
  s.spReadE y pc h (s.hnd y h) space sps

/-- R97, R98, R108: a write of one access. -/
def State.spWriteE (s : State) (y pc h : Nat) (e : Hnd) (space : Bool) (off : Nat) (bs : List Byte) : State :=
  let sp : Span := ⟨off, bs.length⟩
  if !space && e.inBounds sp then
    (s.modTile y fun t => { t.mark s.cnt e true [sp] with scratch := wrBytes t.scratch (e.base + off) bs }).occAdd 0
      (galOf (xyOf y)) (e.banks [sp]).length
  else s.boundsFault y pc h off

/-- A write through a handle's entry in force. -/
def State.spWrite (s : State) (y pc h : Nat) (space : Bool) (off : Nat) (bs : List Byte) : State :=
  s.spWriteE y pc h (s.hnd y h) space off bs

/-- R187: a masked write: every bank word it covers counts as written, the bytes of masked-off lanes stay. -/
def State.spWriteMasked (s : State) (y pc h : Nat) (e : Hnd) (space : Bool) (off : Nat) (bs : List (Option Byte)) : State :=
  let sp : Span := ⟨off, bs.length⟩
  if !space && e.inBounds sp then
    (s.modTile y fun t =>
      { t.mark s.cnt e true [sp] with
        scratch := (bs.zipIdx).foldl (fun m b => match b.1 with
          | some v => wrByte m (e.base + off + b.2) v
          | none => m) t.scratch }).occAdd 0 (galOf (xyOf y)) (e.banks [sp]).length
  else s.boundsFault y pc h off

/-- The access is in bounds under an entry, so that slots and banks are concerned. -/
def OwnAcc.ok (a : OwnAcc) (e : Hnd) : Bool := !a.space && a.sps.all e.inBounds

/-- The access waits for a slot (R109). -/
def State.accWaits (s : State) (y : Nat) (a : OwnAcc) : Bool :=
  a.ok (s.hnd y a.h) && s.slotWaits y (s.hnd y a.h) a.wr a.sps

/-- A pending access that has not begun waits for a slot (R109, R110). -/
def State.reqWaits (s : State) (y : Nat) (q : BankReq) : Bool :=
  q.left.isNone && q.acc.ok q.hnd && s.slotWaits y q.hnd q.acc.wr q.acc.sps

/-- The banks an access needs under an entry (R99); none when it is out of bounds. -/
def OwnAcc.banks (a : OwnAcc) (e : Hnd) : List Nat := if a.ok e then e.banks a.sps else []

/-- The banks an access needs (R99). -/
def State.accBanks (s : State) (y : Nat) (a : OwnAcc) : List Nat := a.banks (s.hnd y a.h)

/-- R99: the banks serve words in this cycle. -/
def State.useBanks (s : State) (y : Nat) (bs : List Nat) : State :=
  s.modTile y fun t =>
    { t with bankAt := s.sched + 1, bankUsed := if t.bankAt = s.sched + 1 then bs ++ t.bankUsed else bs }

/-- The banks of a tile that have served a word in this cycle. -/
def State.banksUsed (s : State) (y : Nat) : List Nat :=
  if (s.tile y).bankAt = s.sched + 1 then (s.tile y).bankUsed else []

/-- The words an access is served in a cycle whose banks `used` are taken: the banks then taken, and the words left over. -/
def serveWords (ws used : List Nat) : List Nat × List Nat :=
  ws.foldl (fun (a : List Nat × List Nat) b => if a.1.contains b then (a.1, a.2 ++ [b]) else (b :: a.1, a.2)) (used, [])

/-- R99, R109, R110: a landing, window or DMA access that has not begun is served whole if it is served now, the banks `taken` being
those that accesses of earlier places need: no slot it touches makes it wait, and no bank it needs serves another word. -/
def State.bufferReady (s : State) (y id : Nat) (a : OwnAcc) (taken : List Nat) : Bool :=
  !((s.tile y).bufq.any fun q => q.id == id) && !s.accWaits y a
    && (serveWords (s.accBanks y a) (taken ++ s.banksUsed y)).2.isEmpty

/-- The words of this cycle go to the banks `ws` beside those that serve already, and the buffers' accesses that have begun. -/
def State.setBuf (s : State) (y : Nat) (ws : List Nat) (q : List BufAcc) : State :=
  s.modTile y fun t => { t with bankAt := s.sched + 1, bankUsed := ws ++ s.banksUsed y, bufq := q }

/-- R99, R109, R110: an access of a buffer, which begins under the entry `e`, is served in this cycle as far as the banks allow.  It
tests its slots in the cycle that serves its first word; with its last it is done, under the handle entry it began with. -/
def State.bufServeE (s : State) (y id : Nat) (e : Hnd) (a : OwnAcc) (taken : List Nat) : State × Option Hnd :=
  let q := (s.tile y).bufq
  let rest := q.filter fun x => x.id != id
  let busy := taken ++ s.banksUsed y
  let now (ws : List Nat) : List Nat := ws.filter fun b => !busy.contains b
  match q.find? fun x => x.id == id with
  | some x =>
    let left := (serveWords x.left busy).2
    if left.isEmpty then (s.setBuf y (now x.left) rest, some x.hnd)
    else (s.setBuf y (now x.left) (rest ++ [{ x with left := left }]), none)
  | none =>
    let ws := a.banks e
    let left := (serveWords ws busy).2
    if (a.ok e && s.slotWaits y e a.wr a.sps) || (!ws.isEmpty && left.length == ws.length) then (s, none)
    else if left.isEmpty then (s.setBuf y (now ws) q, some e)
    else (s.setBuf y (now ws) (q ++ [⟨id, a, e, left, s.cnt⟩]), none)

/-- An access of a buffer under the entry in force. -/
def State.bufServe (s : State) (y id : Nat) (a : OwnAcc) (taken : List Nat) : State × Option Hnd :=
  s.bufServeE y id (s.hnd y a.h) a taken

/-- The banks an access of a buffer needs in this cycle; none while a slot makes it wait. -/
def State.bufNeeds (s : State) (y id : Nat) (a : OwnAcc) : List Nat :=
  match (s.tile y).bufq.find? fun x => x.id == id with
  | some x => x.left
  | none => if s.accWaits y a then [] else s.accBanks y a

/-- A read through a generator whose address must be a multiple of 32 and whose SPACE must be 0; one that breaks either
rule is a bounds fault for the access (R159, R185). -/
def Tile.agAcc (t : Tile) (a : Nat) (wr : Bool) (sps : List Span) : OwnAcc :=
  let g := t.gen a
  ⟨g.handle, g.space || decide (t.agAddr a % 32 ≠ 0), wr, sps⟩

/-- The access's read. -/
def State.accRead (s : State) (y pc : Nat) (a : OwnAcc) : State × List Byte := s.spRead y pc a.h a.space a.sps

end Sys2Proof.Machine
end

