-- ==== Sys2Proof/Machine/ExtSpace.lean ====
section
/-! DEFINITION. The external address space, its channels and calendars, and the trim sets the channels use (R270 to R276,
R290 to R293). -/

namespace Sys2Proof.Machine

/-! ## Address space (R270 to R274) -/

/-- C: the size of GDDR7 (R270). -/
def State.gddrSize (s : State) : Nat := if s.fuses.grade then 0x3600000000 else 0x4800000000

/-- The base of an annex port's range. -/
def annexBase (p : Nat) : Nat := 0x400000000000 + p * 0x100000000000

/-- The mapped size of an annex port, in bytes (R286). -/
def State.annexSize (s : State) (p : Nat) : Nat := s.fld F.anxStat_size p * 2 ^ 20

/-- The annex port whose range holds an address. -/
def annexPortOf (a : Nat) : Option Nat :=
  if 0x400000000000 ≤ a ∧ a < 0x500000000000 then some 0 else if 0x500000000000 ≤ a ∧ a < 0x600000000000 then some 1 else none

/-- An annex port is enabled and up. -/
def State.annexUp (s : State) (p : Nat) : Bool := s.fld F.anxCtl_enable p == 1 && s.fld F.anxStat_state p == 2

/-- The plan area of the held image, in bytes (R30). -/
def State.planArea (s : State) : Nat × Nat :=
  match s.img with
  | some im => (im.mem.planBase * 2 ^ 20, im.mem.planSize * 2 ^ 20)
  | none => (0, 0)

/-- The bytes lie in the mapped external space (R270). -/
def State.mapped (s : State) (a n : Nat) : Bool :=
  decide (a + n ≤ s.gddrSize) ||
    match annexPortOf a with
    | some p => s.annexUp p && decide (a + n ≤ annexBase p + s.annexSize p)
    | none => false

/-- R271: the bytes lie in one range of a region's external space. -/
def State.inRegionSpace (s : State) (a n : Nat) : Bool :=
  s.mapped a n && (decide (s.gddrSize < a + n) || (let q := s.planArea; q.2 == 0 || decide (a + n ≤ q.1) || decide (q.1 + q.2 ≤ a)))

/-- The granule size of MEMMAP.GRANULE (R274). -/
def State.interleave (s : State) : Nat :=
  match s.fld F.memCfg_granule 0 with | 0 => 256 | 1 => 1024 | _ => 4096

/-- The channel position and the bank group of a GDDR7 address (R274). -/
def State.place (s : State) (a : Nat) : Nat × Nat :=
  let g := s.interleave
  let n := if s.fuses.grade then 36 else 48
  let i := a / g % n
  (if s.fuses.grade ∧ 18 ≤ i then i + 6 else i, bits (a / g / n * g + a % g) 11 10)

/-! ## Calendar (R275, R276) -/

/-- The least WINDOW at a clock step (R276). -/
def minWindow (p : Nat) : Nat := if p = 0 then 160 else if p = 1 then 152 else if p = 2 then 144 else if p = 3 then 136 else 128

/-- The length of a per-bank refresh in a hold (R276). -/
def refreshLen (p : Nat) : Nat := if p = 0 then 24 else if p = 1 then 20 else if p = 2 then 16 else if p = 3 then 12 else 6

/-- A calendar is feasible at a clock step (R32). -/
def calFeasible (window step : Nat) : Bool := decide (4 * window ≤ 2304) && decide (minWindow step ≤ window)

/-- The clock step in force. -/
def State.step_ (s : State) : Nat := s.fld F.clkState_step 0

/-- The step that the conversions of R225, R361 and R477 use: through the hold of a step change the one before it (R571). -/
def State.convStep (s : State) : Nat :=
  match s.clk.chg with
  | some g => if g.switched && s.held then g.was else s.step_
  | none => s.step_

/-- The MEM_REFn word that governs a channel at a schedule cycle (R297). -/
def State.calAt (s : State) (ch c : Nat) : Nat :=
  match (s.chan ch).oldCal with
  | some (o, v) => if c < o then v else s.reg .memRef ch
  | none => s.reg .memRef ch

/-- The calendar position at which window `j` opens. -/
def calOpen (w j : Nat) : Nat := (bits w 11 0 + j * bits w 23 12) % 2304

/-- A calendar position lies in window `j`. -/
def inWindow (w j pos : Nat) : Bool := decide ((pos + 2304 - calOpen w j) % 2304 < bits w 23 12)

/-- The bank group of window `j` (R31). -/
def calGroup (w j : Nat) : Nat := bits w (25 + 2 * j) (24 + 2 * j)

/-- The calendar position of a schedule cycle. -/
def calPos (c : Nat) : Nat := c % 2304

/-- A position lies in the trim slot (R275). -/
def inTrim (w pos : Nat) : Bool := decide ((pos + 2304 - calOpen w 0) % 2304 < 16)

/-- R275: a bank group is unavailable at a schedule cycle. -/
def State.away (s : State) (ch bg c : Nat) : Bool :=
  let w := s.calAt ch c
  decide (bits w 23 12 ≠ 0) &&
    (inTrim w (calPos c) || [0, 1, 2, 3].any fun j => calGroup w j == bg && inWindow w j (calPos c))

/-- R278: the bank that holds a granule is under a refresh. -/
def State.refreshing (s : State) (a : Nat) : Bool :=
  let p := s.place a
  (s.chan p.1).refEnd.any fun e => decide (s.cnt < e.2) && e.1 == 4 * p.2 + (Config.bankIn a).toNat

/-- R277, R278: a granule may be served now: a hold suspends the calendar, and a bank under a refresh waits for its end. -/
def State.available (s : State) (a : Nat) : Bool :=
  (s.held || (let p := s.place a; !s.away p.1 p.2 s.sched)) && !s.refreshing a

/-! ## Trim sets (R290 to R293) -/

/-- The self-test set of a channel at a step. -/
def ChanSt.selfSet (c : ChanSt) (p : Nat) : Trim := mget c.selfSets p ⟨0, true, 0⟩

/-- R291: the set a channel is to use in a load bin: whether it is a runtime set, and the set. -/
def ChanSt.target (c : ChanSt) (p : Nat) (full : Bool) : Bool × Trim :=
  match mfind c.runSets (4 * p + c.bin) with
  | some t => if t.full || !full then (true, t) else (false, c.selfSet p)
  | none => (false, c.selfSet p)

/-- R292: the current bin of the channel has no FULL runtime set. -/
def ChanSt.lacksFull (c : ChanSt) (p : Nat) : Bool :=
  match mfind c.runSets (4 * p + c.bin) with | some t => !t.full | none => true

/-- MEM_CALn.REDUCED (R291). -/
def ChanSt.reduced (c : ChanSt) : Bool := c.inUse.bin != c.bin

/-- R292: a re-trim begins, unless one is in progress. -/
def State.retrimStart (s : State) (ch : Nat) : State :=
  s.modChan ch fun c => if c.retrim.isSome then c else { c with retrim := some ⟨0, c.bin, true⟩ }

/-- R292: an automatic re-trim begins when the set in use became one of another bin, or under load without a FULL set. -/
def State.retrimCheck (s : State) (ch : Nat) (reduced : Bool) : State :=
  if s.fld F.memCal_auto ch = 1 ∧ (reduced ∨ (s.anyRunning ∧ (s.chan ch).lacksFull s.step_)) then s.retrimStart ch else s

/-- R292, R293: the set in use becomes the target, with event 0x0264 when another set comes into use; a re-trim begins when
REDUCED becomes 1 by it. -/
def State.trimNow (s : State) (ch : Nat) : State :=
  let c := s.chan ch
  let t := c.target s.step_ s.anyRunning
  if c.useRun = t.1 ∧ c.inUse = t.2 ∧ (c.useStep = s.step_) then s
  else
    let s := (s.modChan ch fun c => { c with useRun := t.1, inUse := t.2, useStep := s.step_ }).event 0x0264 3 ch
      [(1, t.2.bin), (1, b2n t.2.full)]
    s.retrimCheck ch (!c.reduced && (s.chan ch).reduced)

/-- The channels of the grade. -/
def State.channels (s : State) : List Nat := (List.range 48).filter s.chanPresent

/-- R292: the load bin may have become FULL. -/
def State.loadBin (s : State) : State := s.channels.foldl (fun s ch => s.retrimCheck ch false) s

/-- R293: what the load bin's change to FULL asks takes effect in the park. -/
def State.parkTrim (s : State) : State :=
  s.channels.foldl (fun s ch => if (s.chan ch).useRun && !(s.chan ch).inUse.full then s.trimNow ch else s) s

/-! ## Records of the memory controllers (R283, R299) -/

/-- R299: the record of a lost granule. -/
def State.errLog (s : State) (kind chn addr : Nat) : State :=
  (((s.setFld F.memErrlog_kind 0 kind).setFld F.memErrlog_channel 0 chn).setFld F.memErrlog_sticky 0 1).setFld
    F.memErrlog_granule 0 (bits addr 47 6)

/-- R277: a delay is due to a window: the granule's bank group was away in the last cycle that would have been on time. -/
def State.windowNote (s : State) (a last : Nat) : State :=
  let p := s.place a
  (s.event 0x0263 3 p.1 [(4, calPos last)]).satAdd F.memStat_winacc p.1 1

/-- The retries a granule's service takes: a read one, a write up to three (R283). -/
def granRetries (write : Bool) (res : GranRes) : Nat :=
  match res with
  | .retried n _ => if write then min n 3 else min n 1
  | .lost => if write then 3 else 1
  | _ => 0

/-- R283, R299: the record of a granule read or written: its retries, the corrections of a read, its loss. -/
def State.granRecord (s : State) (write : Bool) (addr : Nat) (res : GranRes) : State :=
  let ch := (s.place addr).1
  let s := (List.range (granRetries write res)).foldl (fun s _ => (s.event 0x0260 3 ch [(8, addr)]).satAdd F.memStat_retry ch 1) s
  match res with
  | .corrected n | .retried _ n => if write then s else s.satAdd F.memStat_ce ch n
  | .lost =>
    ((s.lossSeen.event (if write then 0x0262 else 0x0261) 3 ch [(8, addr)]).satAdd F.memStat_ue ch 1).errLog (if write then 2 else 1)
      ch addr
  | .clean => s

/-- R273: the pins of a channel can begin a transfer in this cycle. -/
def State.pinsFree (s : State) (ch : Nat) : Bool := decide ((s.chan ch).pins < 25 * (s.cnt + 1))

/-- R251, R273, R290: a granule's transfer on its channel: 12/25 of a cycle, in units of 1/25.  One in a held cycle counts toward no
occupancy. -/
def State.granBusy (s : State) (addr : Nat) : State :=
  let ch := (s.place addr).1
  (s.occAdd 3 ch 12).modChan ch fun c =>
    { c with busy := if s.held then c.busy else c.busy + 1, pins := max c.pins (25 * s.cnt) + 12 }

/-- R283: what a granule holds after a write of `new` is lost: each bit its old or its new value. -/
def State.mixed (s : State) (addr : Nat) (new : List Byte) : State × List Byte :=
  let m := s.freeBytes new.length
  (s.freeStep new.length, (List.range new.length).map fun i =>
    (rdByte s.ext (addr + i) &&& ~~~(m.getD i 0)) ||| (new.getD i 0 &&& m.getD i 0))

end Sys2Proof.Machine
end

