-- ==== Sys2Proof/Machine/Waits.lean ====
section
/-! DEFINITION. When a slot's operation may issue: the accesses it makes, its timing in the matrix and vector pipes, and
the waits of R60, R109, R119 to R121, R169, R205, R217 and R224. -/

namespace Sys2Proof.Machine

/-! ## Element formats (R140) -/

/-- The width in bits of an element format. -/
def fmtBits (f : Nat) : Nat := if f ≤ 2 then 8 else if f ≤ 4 then 6 else if f = 5 then 4 else 16

/-- The class of a format: 0 FP8, 1 INT8, 2 MX, 3 BF16, and 4 for no format. -/
def fmtClass (f : Nat) : Nat :=
  if f ≤ 1 then 0 else if f = 2 then 1 else if f ≤ 5 then 2 else if f = 6 then 3 else 4

/-- Row bytes RB. -/
def fmtRB (f : Nat) : Nat := 8 * fmtBits f

/-- Load cycles C. -/
def fmtC (f : Nat) : Nat := 2 * fmtBits f

/-! ## Timing of the matrix operations (R167) -/

/-- The cycle, after issue, of row `r`'s last read of an `mmul` of class `c`. -/
def mmulRead (c r : Nat) : Nat := if c = 2 then 1 + r / 2 else if c = 3 then 4 + 4 * r else 1 + r

/-- FOLD (R168): 16 for PART 0 in canonical mode. -/
def foldLat (loc part : Bool) : Nat := if loc || part then 0 else 16

/-- The cycle, after issue, of the entry of row 0 of an `mdrainv` into its chain, or of row 0's write by an `mdrain`. -/
def State.drainLat (s : State) (y : Nat) (part : Bool) : Nat :=
  1 + s.lat y .mdrain + foldLat (s.tile y).locm part

/-- The access cycles, after issue, of an operation at the accumulator rows it names: (row key, cycle). -/
def State.accCycles (s : State) (y : Nat) : Instr → List (Nat × Nat)
  | .mzero _ _ a r0 n => (List.range (n.val + 1)).map fun r => (64 * a.val + r0.val + r, 1 + r)
  | .mdrain _ _ f _ => (List.range (f.rcnt.val + 1)).map fun r => (64 * f.aset.val + f.row0.val + r, 1 + r)
  | .mdrainv _ _ f => (List.range (f.rcnt.val + 1)).map fun r => (64 * f.aset.val + f.row0.val + r, 1 + r)
  | .mmul _ _ f => (List.range (f.rcnt.val + 1)).map fun r =>
      (64 * f.aset.val + f.row0.val + r, mmulRead (fmtClass f.afmt.val) r + s.lat y .mstream)
  | _ => []

/-- R169: a matrix operation may issue now. -/
def State.matrixFree (s : State) (y : Nat) (i : Instr) : Bool :=
  let t := s.tile y
  let c := s.sched
  let rows := (s.accCycles y i).all fun a => decide (mget t.accLast a.1 0 < c + a.2)
  match i with
  | .mload _ _ b _ _ | .mscl _ _ b _ => decide (t.loadFree ≤ c) && decide (mget t.wused b.val 0 < c + 1)
  | .mmul _ _ f => decide (t.streamFree ≤ c) && decide (mget t.wready f.wbuf.val 0 ≤ c) && rows
  | .mzero .. | .mdrain .. | .mdrainv .. => decide (t.drainFree ≤ c) && rows
  | _ => true

/-! ## Timing of a chain run (R204, R205) -/

/-- The stage words a run latches: stages 0 to NSTG − 1 of its chain (R182). -/
def Tile.stages (t : Tile) (f : VrunF) : List (BitVec 46) :=
  (List.range f.nstg.val).map fun k => mget t.chains (8 * f.chain.val + k) 0

/-- The stage names its operand B as a scalar, or as a vector register. -/
def swScalarB (w : BitVec 46) : Bool := swUsesB w && swBsrc w == 1
def swVectorB (w : BitVec 46) : Bool := swUsesB w && swBsrc w == 0

/-- The scalar registers a `vrun` names (R205). -/
def Tile.vrunScalars (t : Tile) (f : VrunF) : List Nat :=
  [f.sp.val, f.sc.val] ++ (t.stages f).flatMap fun w =>
    (if swScalarB w then [swBreg w] else []) ++ (if swSop w = 0x13 ∧ swCsel w = 1 then [swCreg w] else [])

/-- The vector registers a `vrun` reads (R205). -/
def Tile.vrunVectors (t : Tile) (f : VrunF) : List Nat :=
  (if f.src.val = 4 then (List.range (f.rcnt.val + 1)).map (f.inp.val + ·) else [])
    ++ (t.stages f).flatMap fun w =>
      (if swVectorB w then [swBreg w] else []) ++ (if swSop w = 0x13 ∧ swCsel w = 0 then [swCreg w] else [])

/-- The cycles from a row's entry to its sink write (R204). -/
def State.vrunLat (s : State) (y : Nat) (f : VrunF) : Nat := f.nstg.val * s.lat y .vstage + 1

/-- R205: a `vrun` whose row 0 enters in cycle `e0` may issue now. -/
def State.vectorFree (s : State) (y : Nat) (f : VrunF) (e0 : Nat) : Bool :=
  let t := s.tile y
  decide (t.vlastIn ≤ e0) && decide (t.vlastOut ≤ e0 + s.vrunLat y f)
    && (t.vrunVectors f).all (fun v => t.vpend.all fun p => p.1 != v || decide (p.2 < s.sched))
    && (t.vrunScalars f).all fun r => !t.outstanding false r

/-! ## Scratchpad accesses at issue -/

/-- The bytes of an 8-byte word of `sld` and `sst`: the address with bits [2:0] ignored (R64). -/
def wordSpan (o : Nat) : Span := ⟨o / 8 * 8, 8⟩

/-- The 64 bytes of a mesh operation: address bits [5:0] ignored (R118). -/
def lineSpan (o : Nat) : Span := ⟨o / 64 * 64, 64⟩

/-- The scratchpad offset of `sld` and `sst` (R64); the sum wraps as R63 says of integer arithmetic (DEDUCED,
notes/assumptions/38.md). -/
def Tile.smOff (t : Tile) (sa : Nat) (off : BitVec 21) : Nat := ((t.s sa).toNat + off.toNat) % 2 ^ 64

/-- The reads of an `mload`: C accesses of 256 bytes (R162, R167). -/
def Tile.mloadAccs (t : Tile) (ag fmt : Nat) : List OwnAcc :=
  (List.range (fmtC fmt)).map fun k => t.agAcc ag false [⟨t.agAddr ag + 256 * k, 256⟩]

/-- The reads of the activation rows of an `mmul` (R160, R167), with the rows each covers. -/
def Tile.mmulAccs (t : Tile) (f : MmulF) : List (List Nat × OwnAcc) :=
  let rb := fmtRB f.afmt.val
  let a := t.agAddr f.agA.val
  let n := f.rcnt.val + 1
  if fmtClass f.afmt.val = 2 then
    (List.range ((n + 1) / 2)).map fun q =>
      let k := min 2 (n - 2 * q)
      ((List.range k).map (2 * q + ·), t.agAcc f.agA.val false [⟨a + 2 * rb * q, k * rb⟩])
  else if fmtClass f.afmt.val = 3 then
    (List.range (4 * n)).map fun k => ([k / 4], t.agAcc f.agA.val false [⟨a + 32 * k, 32⟩])
  else (List.range n).map fun r => ([r], t.agAcc f.agA.val false [⟨a + rb * r, rb⟩])

/-- The reads of the activation scales of an MX `mmul`: two bytes a row, those of rows 2q and 2q + 1 together, as their rows
are (R147, R160, R167).  DEDUCED, notes/assumptions/12.md. -/
def Tile.scaleAccs (t : Tile) (f : MmulF) : List OwnAcc :=
  if fmtClass f.afmt.val = 2 then
    let n := f.rcnt.val + 1
    (List.range ((n + 1) / 2)).map fun q => t.agAcc f.agS.val false [⟨t.agAddr f.agS.val + 4 * q, 2 * min 2 (n - 2 * q)⟩]
  else []

/-- R183, R185: the pitch of a `vrun` is legal. -/
def pitchOk (p : Nat) : Bool := p % 32 == 0 && decide (32 ≤ p) && decide (p ≤ 0x10000)

/-- The pitch P of a `vrun`: bits [16:0] of s[sp]. -/
def Tile.pitch (t : Tile) (f : VrunF) : Nat := bits (t.s f.sp.val).toNat 16 0

/-- The source reads of a `vrun` from the scratchpad, each with its row (R100, R101, R184): contiguous and strided rows,
transposed blocks. -/
def Tile.vsrcAccs (t : Tile) (f : VrunF) : List (Nat × OwnAcc) :=
  let a := t.agAddr f.inp.val
  let p := t.pitch f
  let rows := List.range (f.rcnt.val + 1)
  let acc (sps : List Span) (pitched : Bool) : OwnAcc :=
    let o := t.agAcc f.inp.val false sps
    { o with space := o.space || (pitched && !pitchOk p) }
  if f.src.val = 0 then
    let rb := 8 * ewBits f.iw.val
    rows.map fun r => (r, acc [⟨a + rb * r, rb⟩] false)
  else if f.src.val = 1 then
    rows.map fun r => (r, acc ((List.range 8).map fun k => ⟨a + 8 * p * r + k * p, 32⟩) true)
  else if f.src.val = 2 then
    let per := 16 / (ewBits f.iw.val / 8)
    (List.range ((f.rcnt.val + 1) / per)).map fun q =>
      (q * per, acc ((List.range 32).map fun j => ⟨a + 32 * p * q + j * p, 32⟩) true)
  else []

/-- The auxiliary reads of a `vrun` (R185). -/
def Tile.auxAccs (t : Tile) (f : VrunF) : List OwnAcc :=
  if f.auxen then
    (List.range (f.rcnt.val + 1)).map fun r => t.agAcc f.agAux.val false [⟨t.agAddr f.agAux.val + 256 * r, 256⟩]
  else []

/-- The scratchpad accesses a slot's operation makes with its step (R55: none when suppressed). -/
def State.ownAccs (s : State) (y : Nat) (i : Instr) : List OwnAcc :=
  let t := s.tile y
  match i with
  | .sld _ _ _ sa h off => [⟨h.val, false, false, [wordSpan (t.smOff sa.val off)]⟩]
  | .sst _ _ _ sa h off => [⟨h.val, false, true, [wordSpan (t.smOff sa.val off)]⟩]
  | .sldAg _ _ _ a => [⟨(t.gen a.val).handle, (t.gen a.val).space, false, [wordSpan (t.agAddr a.val)]⟩]
  | .sstAg _ _ _ a => [⟨(t.gen a.val).handle, (t.gen a.val).space, true, [wordSpan (t.agAddr a.val)]⟩]
  | .cput _ _ _ a _ _ | .nput _ _ _ a _ _ =>
      [⟨(t.gen a.val).handle, (t.gen a.val).space, false, [lineSpan (t.agAddr a.val)]⟩]
  | .wput _ _ f => [⟨(t.gen f.agLocal.val).handle, (t.gen f.agLocal.val).space, false, [lineSpan (t.agAddr f.agLocal.val)]⟩]
  | .mload _ _ _ a fmt => t.mloadAccs a.val fmt.val
  | .mscl _ _ _ a => [t.agAcc a.val false [⟨t.agAddr a.val, 128⟩]]
  | .mmul _ _ f => (t.mmulAccs f).map (·.2) ++ t.scaleAccs f
  | .vrun _ _ f => (t.vsrcAccs f).map (·.2) ++ t.auxAccs f
  | _ => []

/-- The operation's accesses fall in its issue cycle. -/
def accessesAtIssue : Instr → Bool
  | .sld .. | .sst .. | .sldAg .. | .sstAg .. | .cput .. | .nput .. | .wput .. => true
  | _ => false

/-! ## Registers a slot reads (R60) -/

/-- The scalar registers a slot's operation reads, those of a `vrun` apart. -/
def readsS : Instr → List Nat
  | .scalarAlu _ _ _ _ sa sb _ => [sa.val, sb.val]
  | .scalarAluImmediate _ _ op sd sa _ => if op = .ldhi then [sd.val] else if op = .ldi then [] else [sa.val]
  | .cmp _ _ _ _ sa sb => [sa.val, sb.val]
  | .cmpi _ _ _ _ sa _ => [sa.val]
  | .sld _ _ _ sa _ _ => [sa.val]
  | .sst _ _ ss sa _ _ => [ss.val, sa.val]
  | .sstAg _ _ ss _ => [ss.val]
  | .agset _ _ _ sa | .agadd _ _ _ sa | .dwrS _ _ _ _ sa => [sa.val]
  | .cput _ _ sa _ _ _ => [sa.val]
  | .wget _ _ f | .wput _ _ f => [f.sa.val]
  | .mmul _ _ f => [f.sk.val]
  | _ => []

/-- The predicate register a slot names in its header, 0 for the operations without one (R54, R68, R70). -/
def slotPr : Instr → Nat
  | .nop .. => 0
  | .mark _ p _ | .scalarAlu _ p .. | .scalarAluImmediate _ p .. | .cmp _ p .. | .cmpi _ p .. | .plog _ p ..
  | .sld _ p .. | .sst _ p .. | .sldAg _ p .. | .sstAg _ p .. | .sget _ p .. | .agbase _ p .. | .agset _ p ..
  | .agadd _ p .. | .aghnd _ p .. | .dwrS _ p .. | .dwrSi _ p .. | .mload _ p .. | .mscl _ p .. | .mzero _ p ..
  | .mmul _ p _ | .mdrain _ p .. | .mdrainv _ p _ | .vdef _ p .. | .vrun _ p _ | .cput _ p .. | .nput _ p ..
  | .wget _ p _ | .wput _ p _ | .qrd _ p _ | .qwr _ p _ | .qwait _ p _ => p.val
  | _ => 0

/-- The predicate registers a slot reads. -/
def readsP (i : Instr) : List Nat :=
  slotPr i :: match i with
  | .scalarAlu _ _ op _ _ _ ps => if op = .sel then [ps.val] else []
  | .plog _ _ _ pa pb _ => [pa.val, pb.val]
  | _ => []

/-- R60: a register the slot reads has an outstanding write. -/
def Tile.regWait (t : Tile) (i : Instr) : Bool :=
  (readsS i).any (fun r => r != 0 && t.outstanding false r) || (readsP i).any fun p => p != 0 && t.outstanding true p

/-! ## Mesh and queue conditions -/

/-- R119: a packet of a circuit has not departed. -/
def State.circPending (s : State) (circ : Nat) : Bool :=
  s.mpkts.any fun p => p.kind == .circuit && p.circ == circ && p.depart.isNone

/-- R120: an `nput` packet of a port has not departed. -/
def State.portPending (s : State) (y : Nat) (d : Dir) : Bool :=
  s.mpkts.any fun p => (p.kind == .neighbour || p.kind == .egress) && p.src == y && p.dir == d && p.depart.isNone

/-- A direction's code (R118). -/
def dirCode : Dir → Nat
  | .north => 0 | .east => 1 | .south => 2 | .west => 3

/-- R119 to R121: the mesh conditions of a `cput` or `nput`. -/
def State.meshWait (s : State) (y : Nat) (i : Instr) : Bool :=
  match i with
  | .cput _ _ sa _ _ _ =>
    let c := bits ((s.tile y).s sa.val).toNat 15 0
    s.circPending c || decide (mget (s.tile y).credCirc c 8 = 0)
  | .nput _ _ d _ _ _ => s.portPending y d || decide (mget (s.tile y).credPort (dirCode d) 8 = 0)
  | _ => false

/-- The slots of a queue transfer (R218). -/
def qSlots (size : Nat) : Nat := 2 ^ size

/-- An access that holds a place in its gallery's queue. -/
def QAcc.live (a : QAcc) : Bool := !a.suppressed && !a.faulted && a.doneAt.isNone

/-- The requests a gallery's queue has accepted with triples of this cycle whose commands are still to come (R217). -/
def State.qAsked (s : State) (g : Nat) : List (Nat × Nat × Bool × Nat) := (s.gal g).asked.filter fun q => q.1 == s.sched + 1

/-- The entries of a gallery's decoupling queue in use (R217). -/
def State.qEntries (s : State) (g : Nat) : Nat := (s.accs.filter fun a => a.gal == g && a.live).length + (s.qAsked g).length

/-- The landing store of a gallery in use, in slots of 512 bytes (R217). -/
def State.qStore (s : State) (g : Nat) : Nat :=
  (((s.accs.filter fun a => a.gal == g && a.live && !a.write).map fun a => a.slots - a.landed)
    ++ ((s.qAsked g).filter fun q => !q.2.2.1).map (·.2.2.2)).foldl (· + ·) 0

/-- R217: a queue operation of `n` slots must wait for an entry or for landing store. -/
def State.queueFull (s : State) (y : Nat) (write : Bool) (n : Nat) : Bool :=
  let g := galOf (xyOf y)
  decide (1024 ≤ s.qEntries g) || (!write && decide (1024 < s.qStore g + n))

/-- The cycle, without λ, at which R224 lets a `qwait` issue for one access: its last deadline, with QLAND for a read. -/
def State.qCycle (s : State) (a : QAcc) : Nat :=
  if a.write then a.deadline else a.deadline + a.slots - 1 + s.lat a.tile .qland

/-- An access is outstanding (R224, R226, R219): a suppressed or faulted one until its last deadline. -/
def State.qOutstanding (s : State) (a : QAcc) : Bool :=
  if a.suppressed || a.faulted then
    decide (s.sched < if a.write || a.faulted then a.deadline else a.deadline + a.slots - 1)
  else a.doneAt.isNone

/-- The accesses a `qwait` awaits. -/
def State.awaited (s : State) (y : Nat) (mask : BitVec 16) : List QAcc :=
  s.accs.filter fun a => a.tile == y && mask.getLsbD a.tag && s.qOutstanding a

/-- The `qwait` in progress, or the one that begins now: the latest cycle of R224 and the awaited accesses. -/
def State.qwState (s : State) (y : Nat) (mask : BitVec 16) : Nat × List Nat :=
  match (s.tile y).qw with
  | some q => q
  | none =>
    let as := s.awaited y mask
    (as.foldl (fun m a => max m (s.qCycle a)) 0, as.map (·.id))

/-- An awaited access has landed QLAND cycles before, or has taken effect (R224). -/
def State.qSettled (s : State) (id : Nat) : Bool :=
  match s.accs.find? fun a => a.id == id with
  | none => true
  | some a =>
    if a.suppressed || a.faulted then true
    else match a.doneAt with
      | none => false
      | some d => decide (if a.write then d ≤ s.sched else d + s.lat a.tile .qland ≤ s.sched)

/-- R224, R226: why a `qwait` waits. -/
def State.qwaitWait (s : State) (y : Nat) (supp : Bool) (mask : BitVec 16) : List Wait :=
  let (e, ids) := s.qwState y mask
  if ids.isEmpty then []
  else if s.sched < e + (s.tile y).late then [.sched]
  else if supp || ids.all s.qSettled then [] else [.qlate]

/-! ## The waits of one slot -/

/-- The slot's predicate reads 1 (R55). -/
def Tile.acts (t : Tile) (i : Instr) : Bool := t.p (slotPr i)

/-- R55, R237: why a slot's operation may not issue now.  `e0` is the entry cycle of row 0 of a `vrun`.
A suppressed `cput` or `nput` does not wait for an earlier packet's departure (R119, R120, R123; DESIGN CHOICE,
notes/assumptions/67.md); a `cput`, `nput` or `wput` that is going to fault (R122) waits for the slot and the bank of its source as
any other does, though it reads nothing (DESIGN CHOICE, notes/assumptions/59.md). -/
def State.waitsOf (s : State) (y e0 : Nat) (i : Instr) : List Wait :=
  let t := s.tile y
  let acts := t.acts i
  (if t.regWait i then [.reg] else [])
    ++ (if acts && accessesAtIssue i && (s.ownAccs y i).any (s.accWaits y) then [.slot] else [])
    ++ (match i with
        | .vrun _ _ f => if s.vectorFree y f e0 then [] else [.vector]
        | .cput .. | .nput .. => if acts && s.meshWait y i then [.mesh] else []
        | .qrd _ _ f => if acts && s.queueFull y false (qSlots f.size.val) then [.qfull] else []
        | .qwr _ _ f => if acts && s.queueFull y true (qSlots f.size.val) then [.qfull] else []
        | .qwait _ _ m => s.qwaitWait y (!acts) m
        | _ => if s.matrixFree y i then [] else [.matrix])

/-- The entry cycle of row 0 of a `vrun` issued now (R204): with SRC matrix that of its `mdrainv`. -/
def State.vrunEntry (s : State) (y : Nat) (v x : Instr) : Nat :=
  match v, x with
  | .vrun _ _ f, .mdrainv _ _ d => if f.src.val = 3 then s.sched + s.drainLat y d.part else s.sched + 1
  | .vrun _ _ f, _ => if f.src.val = 3 then (s.tile y).chainAt else s.sched + 1
  | _, _ => 0

/-! ## Commands of a slot -/

/-- The tile is part-way through an invocation and the cycle is not held, so that its slots act (R53, R231). -/
def State.canAct (s : State) (y : Nat) : Bool :=
  (s.tile y).inInv && !s.held && !((s.tile y).lastAt == s.sched + 1 && (s.tile y).waiting)

/-- The tile's triple of this cycle has issued, its waits tested (TRIPLE_ISSUE). -/
def State.issuedNow (s : State) (y : Nat) : Bool := (s.tile y).lastAt == s.sched + 1 && !(s.tile y).waiting

/-- The operations of the V and X slots that read a generator or a loop index. -/
def readsGens : Instr → Bool
  | .mload .. | .mscl .. | .mmul .. | .mdrain .. | .mdrainv .. | .vrun .. | .cput .. | .nput .. | .wget .. | .wput .. | .qrd ..
  | .qwr .. => true
  | _ => false

/-- R56: an operation's effect, its generators and loop indices read as they stood before its triple issued: the S slot of the triple
may have changed them since. -/
def State.asIssued (s : State) (y : Nat) (i : Instr) (f : State → State) : State :=
  let T := s.tile y
  if readsGens i && T.before s.sched != T then
    (f (s.setTile y (T.before s.sched))).modTile y fun t => { t with gens := T.gens, lvls := T.lvls }
  else f s

/-- The command of a slot: nothing when the tile does not issue, a slip while an issue condition is not met, the
suppressed form when the predicate reads 0, else the effect (R53, R55, R56, R237). -/
def State.slotCmd (s : State) (y : Nat) (i : Instr) (supp eff : State → State) : State :=
  if s.canAct y then
    let ws := if s.issuedNow y then [] else s.waitsOf y (s.vrunEntry y i i) i
    if ws.isEmpty then s.asIssued y i (if (s.tile y).acts i then eff else supp) else s.slip y ws
  else s

end Sys2Proof.Machine
end

