-- ==== Sys2Proof/Machine/Scalar.lean ====
section
/-! DEFINITION. The commands of the S slot and the arrival of its results, and the release of text blocks (chapter 02). -/

namespace Sys2Proof.Machine

/-- An outcome of the block: every command answers a next state. -/
abbrev Out := Host.Outcome State Fault Refusal

/-- A slot's effect as an outcome. -/
def State.slotOut (s : State) (t : Xy) (i : Instr) (eff : State → State) (supp : State → State := id) : Out :=
  .next (s.slotCmd (tIx t) i supp eff)

/-! ## Arithmetic (R62, R63) -/

/-- A shift amount is an unsigned 64-bit value; 64 or more gives zeros, or copies of the sign. -/
def aluOp (op : AluOp) (a b : Word) (sel : Bool) : Word :=
  match op with
  | .add => a + b
  | .sub => a - b
  | .and => a &&& b
  | .or => a ||| b
  | .xor => a ^^^ b
  | .shl => if 64 ≤ b.toNat then 0 else a <<< b.toNat
  | .shr => if 64 ≤ b.toNat then 0 else a >>> b.toNat
  | .sra => a.sshiftRight (min b.toNat 64)
  | .mul => a * b
  | .mulhu => BitVec.ofNat 64 (a.toNat * b.toNat / 2 ^ 64)
  | .min => if a.slt b then a else b
  | .max => if a.slt b then b else a
  | .minu => if a.ult b then a else b
  | .maxu => if a.ult b then b else a
  | .sel => if sel then a else b

/-- The immediate operations: imm32 sign-extended, but for `ldhi`, which keeps bits [31:0] of sd. -/
def aluImmOp (op : AluImmOp) (d a : Word) (imm : BitVec 32) : Word :=
  let i : Word := imm.signExtend 64
  match op with
  | .addi => a + i
  | .andi => a &&& i
  | .ori => a ||| i
  | .xori => a ^^^ i
  | .shli => aluOp .shl a (imm.zeroExtend 64) false
  | .shri => aluOp .shr a (imm.zeroExtend 64) false
  | .srai => aluOp .sra a (imm.zeroExtend 64) false
  | .muli => a * i
  | .ldi => i
  | .ldhi => (imm ++ d.extractLsb' 0 32 : BitVec 64)

/-- The compare relations: `lt` and `ge` signed, `ltu` and `geu` unsigned. -/
def relHolds (r : Rel) (a b : Word) : Bool :=
  match r with
  | .eq => a == b
  | .ne => a != b
  | .lt => a.slt b
  | .ltu => a.ult b
  | .ge => !a.slt b
  | .geu => !a.ult b

/-- The latency unit of a register-register operation (R88). -/
def aluLat (op : AluOp) : LatUnit := if op = .mul ∨ op = .mulhu then .smul else .salu

/-- R54: `nop` does nothing. -/
def execNop (t : Xy) (slot : Slot) (pr : Fin 16) (s : State) : Out := s.slotOut t (.nop t slot pr) id

/-- R62: `mark` records event 0x0200 with CODE and the program counter. -/
def execMark (t : Xy) (pr : Fin 16) (code : BitVec 16) (s : State) : Out :=
  s.slotOut t (.mark t pr code) fun s =>
    s.event 0x0200 0 (tIx t) [(4, code.toNat), (4, (s.tile (tIx t)).issuePc)]

/-- R62, R63: the register-register operations. -/
def execScalarAlu (t : Xy) (pr : Fin 16) (op : AluOp) (sd sa sb : Fin 32) (ps : Fin 16) (s : State) : Out :=
  s.slotOut t (.scalarAlu t pr op sd sa sb ps) fun s =>
    let T := s.tile (tIx t)
    s.result (tIx t) false sd (aluOp op (T.s sa) (T.s sb) (T.p ps)) (s.lat (tIx t) (aluLat op))

/-- R62, R63: the immediate operations. -/
def execScalarAluImmediate (t : Xy) (pr : Fin 16) (op : AluImmOp) (sd sa : Fin 32) (imm : BitVec 32) (s : State) : Out :=
  s.slotOut t (.scalarAluImmediate t pr op sd sa imm) fun s =>
    let T := s.tile (tIx t)
    s.result (tIx t) false sd (aluImmOp op (T.s sd) (T.s sa) imm)
      (s.lat (tIx t) (if op = .muli then .smul else .salu))

/-- R62, R63: the compares write pd. -/
def execCmp (t : Xy) (pr : Fin 16) (rel : Rel) (pd : Fin 16) (sa sb : Fin 32) (s : State) : Out :=
  s.slotOut t (.cmp t pr rel pd sa sb) fun s =>
    let T := s.tile (tIx t)
    s.result (tIx t) true pd (BitVec.ofNat 64 (b2n (relHolds rel (T.s sa) (T.s sb)))) (s.lat (tIx t) .salu)

/-- R62, R63: the compares with an immediate. -/
def execCmpi (t : Xy) (pr : Fin 16) (rel : Rel) (pd : Fin 16) (sa : Fin 32) (imm : BitVec 32) (s : State) : Out :=
  s.slotOut t (.cmpi t pr rel pd sa imm) fun s =>
    let T := s.tile (tIx t)
    s.result (tIx t) true pd (BitVec.ofNat 64 (b2n (relHolds rel (T.s sa) (imm.signExtend 64)))) (s.lat (tIx t) .salu)

/-- R62: `plog`: pd = TT[2 × p[pa] + p[pb]]. -/
def execPlog (t : Xy) (pr : Fin 16) (pd pa pb : Fin 16) (tt : BitVec 4) (s : State) : Out :=
  s.slotOut t (.plog t pr pd pa pb tt) fun s =>
    let T := s.tile (tIx t)
    s.result (tIx t) true pd (BitVec.ofNat 64 (b2n (tt.getLsbD (2 * b2n (T.p pa) + b2n (T.p pb))))) (s.lat (tIx t) .salu)

/-! ## Scratchpad words and the handle table (R64, R104, R105) -/

/-- R105: the conditions a handle entry meets when VALID is written as 1. -/
def entryOk (b c : Nat) : Bool :=
  let base := bits b 20 0
  let size := bits b 53 32
  let mode := bits c 2 0
  let al := if mode = 0 then 512 else 1024
  decide (base + size ≤ 0x200000) && decide (size ≠ 0) && decide (base % al = 0) && decide (size % al = 0) && decide (mode ≤ 2)

/-- R105, R106: the two registers of an entry after a write of HNDB or HNDC, and whether event 0x0211 is recorded.  The
entry of a control handle discards the write; HASH[7:4] is reserved (R18, R95). -/
def entryWrite (b c : Nat) (ctl : Bool) (v : Nat) : (Nat × Nat) × Bool :=
  if bits c 15 15 = 1 ∧ bits c 2 0 = 7 then ((b, c), true)
  else if ctl then
    let c' := putBits (writeFields RegKind.tilHndc.fields c v) 7 4 0
    if bits c' 15 15 = 1 ∧ entryOk b c' = false then ((b, putBits c' 15 15 0), true) else ((b, c'), false)
  else ((writeFields RegKind.tilHndb.fields b v, putBits c 15 15 0), false)

/-- A handle entry's registers as every `sst` issued so far leaves them, those not yet governing included. -/
def State.hndLatest (s : State) (y n : Nat) : Nat × Nat :=
  ((s.tile y).hndw.filter fun w => w.2.1 == n).foldl
    (fun r w => if w.2.2.1 then (r.1, w.2.2.2.toNat) else (w.2.2.2.toNat, putBits r.2 15 15 0))
    (s.reg .tilHndb (64 * y + n), s.reg .tilHndc (64 * y + n))

/-- R105: an `sst` through a control handle; the entry governs from two cycles later. -/
def State.hndStore (s : State) (y pc n : Nat) (ctl : Bool) (v : Word) : State :=
  let (b, c) := s.hndLatest y n
  let (r, bad) := entryWrite b c ctl v.toNat
  let ctrl := bits c 15 15 = 1 ∧ bits c 2 0 = 7
  let s := if bad then s.handleFault y pc n else s
  if ctrl then s
  else (s.modTile y fun t =>
    { t with hndw := t.hndw ++ [(s.sched + 2, n, ctl, BitVec.ofNat 64 (if ctl then r.2 else r.1))] }).modified

/-- R97, R104: an `sld` or `sst` reaches the handle table through the entry `e` of a control handle. -/
def viaControl (ctlOk : Bool) (e : Hnd) (o : Nat) : Bool := ctlOk && e.valid && e.mode == 7 && decide (o + 8 ≤ e.size)

/-- R64, R97, R104: the word a load reads under the handle entry `e`: of the scratchpad, or of the handle table through a control
handle. -/
def State.loadWord (s : State) (y pc : Nat) (e : Hnd) (a : OwnAcc) (ctlOk : Bool) : State × Word :=
  let o := (a.sps.head?.map (·.off)).getD 0
  if viaControl ctlOk e o then
    let (b, c) := s.hndRegs y (o / 16)
    (s, BitVec.ofNat 64 (if o / 8 % 2 = 0 then b else c))
  else
    let (s', bs) := s.spReadE y pc a.h e a.space a.sps
    (s', BitVec.ofNat 64 (leNat bs))

/-- R64, R105: a store of a word under the handle entry `e`. -/
def State.storeWord (s : State) (y pc : Nat) (e : Hnd) (a : OwnAcc) (ctlOk : Bool) (v : Word) : State :=
  let o := (a.sps.head?.map (·.off)).getD 0
  if viaControl ctlOk e o then s.hndStore y pc (o / 16) (o / 8 % 2 == 1) v
  else s.spWriteE y pc a.h e a.space o (leBytes 8 v.toNat)

/-- An access of the engines will fall in cycle `due`, in place `prio` of the order of R99, R170 and R206, under the handle
entry in force now. -/
def State.pushReq (s : State) (y due prio : Nat) (a : OwnAcc) (job : AccUse) : State :=
  s.modTile y fun t => { t with bankq := t.bankq ++ [⟨due, prio, a, s.hnd y a.h, t.issuePc, job, none, 0⟩] }

/-- R99: the S access of the triple that issues in this cycle is deferred behind the access of its own X slot, to be served from
the next cycle on, in the S place. -/
def State.deferred (s : State) (y : Nat) : Bool := (s.tile y).stall && s.issuedNow y

/-- A load's effect: the word under the handle entry to sd, after the load latency. -/
def State.loadNow (s : State) (y pc : Nat) (e : Hnd) (a : OwnAcc) (ctlOk : Bool) (sd : Nat) : State :=
  let r := s.loadWord y pc e a ctlOk
  r.1.result y false sd r.2 (s.lat y .sload)

/-- A load's command: the access of the slot, made now or deferred. -/
def State.loadTo (s : State) (y : Nat) (i : Instr) (ctlOk : Bool) (sd : Fin 32) : State :=
  match s.ownAccs y i with
  | a :: _ =>
    if s.deferred y then s.pushReq y (s.sched + 1) 8 a (.load sd ctlOk)
    else s.loadNow y (s.tile y).issuePc (s.hnd y a.h) a ctlOk sd
  | [] => s

/-- A store's command. -/
def State.storeFrom (s : State) (y : Nat) (i : Instr) (ctlOk : Bool) (ss : Fin 32) : State :=
  match s.ownAccs y i with
  | a :: _ =>
    if s.deferred y then s.pushReq y (s.sched + 1) 8 a (.store ((s.tile y).s ss) ctlOk)
    else s.storeWord y (s.tile y).issuePc (s.hnd y a.h) a ctlOk ((s.tile y).s ss)
  | [] => s

/-- R64: `sld`. -/
def execSld (t : Xy) (pr : Fin 16) (sd sa : Fin 32) (h : Fin 64) (off : BitVec 21) (s : State) : Out :=
  s.slotOut t (.sld t pr sd sa h off) fun s => s.loadTo (tIx t) (.sld t pr sd sa h off) true sd

/-- R64: `sst`. -/
def execSst (t : Xy) (pr : Fin 16) (ss sa : Fin 32) (h : Fin 64) (off : BitVec 21) (s : State) : Out :=
  s.slotOut t (.sst t pr ss sa h off) fun s => s.storeFrom (tIx t) (.sst t pr ss sa h off) true ss

/-- R64: `sld.ag`; a generator may not name a control handle (R97 admits `sld` and `sst` only). -/
def execSldAg (t : Xy) (pr : Fin 16) (sd : Fin 32) (ag : Fin 16) (s : State) : Out :=
  s.slotOut t (.sldAg t pr sd ag) fun s => s.loadTo (tIx t) (.sldAg t pr sd ag) false sd

/-- R64: `sst.ag`. -/
def execSstAg (t : Xy) (pr : Fin 16) (ss : Fin 32) (ag : Fin 16) (s : State) : Out :=
  s.slotOut t (.sstAg t pr ss ag) fun s => s.storeFrom (tIx t) (.sstAg t pr ss ag) false ss

/-- R65: the value an SREG names. -/
def State.special (s : State) (t : Xy) (n : Nat) : Nat :=
  let T := s.tile (tIx t)
  if n = 0x00 then t.x
  else if n = 0x01 then t.y
  else if n = 0x02 then galOf t
  else if n = 0x03 then s.regionOf t
  else if n = 0x04 then dieOf t
  else if n = 0x05 then T.invs
  else if 0x10 ≤ n ∧ n ≤ 0x13 then (if (T.lvl (n - 0x10)).active then (T.lvl (n - 0x10)).idx else 0)
  else if 0x14 ≤ n ∧ n ≤ 0x17 then (if (T.lvl (n - 0x14)).active then (T.lvl (n - 0x14)).count else 0)
  else if n = 0x20 then (if s.fuses.grade then 0x0B else 0x0A)
  else if n = 0x21 then s.fuses.stepping
  else if n = 0x22 then (s.img.map (·.profile)).getD 0
  else 0

/-- R65: `sget`. -/
def execSget (t : Xy) (pr : Fin 16) (sd : Fin 32) (sreg : BitVec 8) (s : State) : Out :=
  s.slotOut t (.sget t pr sd sreg) fun s =>
    s.result (tIx t) false sd (BitVec.ofNat 64 (s.special t sreg.toNat)) (s.lat (tIx t) .salu)

/-! ## Loops and generators (R66, R67, R70, R71, R76) -/

/-- R67: the active loops whose body ends on triple `k`, innermost first; `k + 1` when none repeats. -/
def Tile.loopEnd (t : Tile) (k : Nat) : List Nat → Tile
  | [] => { t with pc := k + 1 }
  | l :: ls =>
    let v := t.lvl l
    if v.active ∧ v.last = k then
      if v.idx + 1 < v.count then { t with pc := v.first, lvls := mput t.lvls l { v with idx := v.idx + 1 } }
      else Tile.loopEnd { t with lvls := mput t.lvls l { v with active := false, idx := 0 } } k ls
    else Tile.loopEnd t k ls

/-- The tile once R67 has moved its counter past the triple issued last. -/
def Tile.advance (t : Tile) : Tile := if t.moved then t else { t.loopEnd t.issuePc [0, 1, 2, 3] with moved := true }

/-- R66: a `loop` or `loopd` of level `l`, count `c` and body length `b` issues at triple `n`. -/
def Tile.openLoop (t : Tile) (l c b : Nat) : Tile :=
  let n := t.issuePc
  if c = 0 then { t.loopEnd (n + b) [0, 1, 2, 3] with moved := true }
  else
    let st := (List.range 16).foldl (fun m a =>
      let v := mget t.dstride (16 * l + a) 0
      if v = 0 then m else mput m a v) []
    { t with pc := n + 1, moved := true, lvls := mput t.lvls l ⟨true, 0, c, n + 1, n + b, st⟩ }

/-! ## The release of text blocks (R82 to R84, R240) -/

/-- The text of the tile's region (R82). -/
def State.textOf (s : State) (t : Xy) : List (BitVec 192) := ((s.installed (s.regionOf t)).map (·.text)).getD []

/-- R82: a plan of more than 1,360 triples is streamed. -/
def streamedLen (n : Nat) : Bool := decide (1360 < n)

/-- λ_g: the largest lateness of a gallery's active tiles. -/
def State.galLate (s : State) (g : Nat) : Nat := (s.activeOf g).foldl (fun m t => max m (s.tile (tIx t)).late) 0

/-- The gallery plan position (R240). -/
def State.galPos (s : State) (g : Nat) : Nat := s.sched - (s.region (s.galRec g).region).t0 - s.galLate g

/-- R84: a block of the ring is released: every active tile of the gallery has issued past all its triples, and no active loop's
body holds any of them.  The last block of a text may be a partial one. -/
def State.blockPassed (s : State) (g b : Nat) : Bool :=
  (s.activeOf g).all fun t =>
    let T := (s.tile (tIx t)).advance
    let last := min (16 * b + 15) ((s.textOf t).length - 1)
    decide (last < T.pc) &&
      [0, 1, 2, 3].all fun l => let v := T.lvl l; !(v.active && decide (v.first ≤ last) && decide (16 * b ≤ v.last))

/-- R84: the ring positions of a gallery that every active tile has passed can receive a block from the next cycle on. -/
def State.releasePassed (s : State) (g : Nat) : State :=
  s.modGal g fun v =>
    { v with
      ring := v.ring.filter fun b => !s.blockPassed g b
      ringFree := v.ringFree ++ (v.ring.filter (s.blockPassed g)).map fun _ => (s.sched + 1, s.galPos g + 1) }

/-- R84: what a triple issued in this cycle releases. -/
def State.releaseRing (s : State) (t : Xy) : State :=
  if streamedLen (s.textOf t).length then s.releasePassed (galOf t) else s

/-- R66: `loop`; one of count 0 may pass the rest of a text block. -/
def execLoop (t : Xy) (level : Fin 4) (count : BitVec 20) (body : BitVec 12) (s : State) : Out :=
  s.slotOut t (.loop t level count body) fun s =>
    (s.modTile (tIx t) fun T => (T.keepWas s.sched).openLoop level count.toNat body.toNat).releaseRing t

/-- R66: `loopd`: the count is the descriptor count of the level. -/
def execLoopd (t : Xy) (level : Fin 4) (body : BitVec 12) (s : State) : Out :=
  s.slotOut t (.loopd t level body) fun s =>
    (s.modTile (tIx t) fun T => (T.keepWas s.sched).openLoop level (mget T.dcount level 0) body.toNat).releaseRing t

/-- A generator of a tile changed, for the triples that follow (R56). -/
def State.modGen (s : State) (y a : Nat) (f : Gen → Gen) : State :=
  s.modTile y fun t => { t.keepWas s.sched with gens := mput t.gens a (f (t.gen a)) }

/-- R62: `agbase`. -/
def execAgbase (t : Xy) (pr : Fin 16) (ag : Fin 16) (imm : BitVec 48) (s : State) : Out :=
  s.slotOut t (.agbase t pr ag imm) fun s => s.modGen (tIx t) ag fun g => { g with base := imm }

/-- R62: `agset`. -/
def execAgset (t : Xy) (pr : Fin 16) (ag : Fin 16) (sa : Fin 32) (s : State) : Out :=
  s.slotOut t (.agset t pr ag sa) fun s =>
    s.modGen (tIx t) ag fun g => { g with base := ((s.tile (tIx t)).s sa).truncate 48 }

/-- R62: `agadd`. -/
def execAgadd (t : Xy) (pr : Fin 16) (ag : Fin 16) (sa : Fin 32) (s : State) : Out :=
  s.slotOut t (.agadd t pr ag sa) fun s =>
    s.modGen (tIx t) ag fun g => { g with base := g.base + ((s.tile (tIx t)).s sa).truncate 48 }

/-- R62: `aghnd`. -/
def execAghnd (t : Xy) (pr : Fin 16) (ag : Fin 16) (space : Bool) (h : Fin 64) (s : State) : Out :=
  s.slotOut t (.aghnd t pr ag space h) fun s =>
    s.modGen (tIx t) ag fun g => { g with space := space, handle := h }

/-- R71: a descriptor write to a level that is active records event 0x0201. -/
def State.descNote (s : State) (y l : Nat) (stride : Bool) (ag : Nat) : State :=
  if ((s.tile y).lvl l).active then s.descEvent y (s.tile y).issuePc l stride ag else s

/-- A descriptor stride set (R70). -/
def State.setStride (s : State) (y l ag : Nat) (v : BitVec 32) : State :=
  (s.modTile y fun t => { t with dstride := mput t.dstride (16 * l + ag) v }).descNote y l true ag

/-- R70: `dwr.c` sets the descriptor count of a level. -/
def execDwrC (t : Xy) (level : Fin 4) (count : BitVec 20) (s : State) : Out :=
  s.slotOut t (.dwrC t level count) fun s =>
    (s.modTile (tIx t) fun T => { T with dcount := mput T.dcount level count.toNat }).descNote (tIx t) level false 0

/-- R70: `dwr.s` sets a stride from a register. -/
def execDwrS (t : Xy) (pr : Fin 16) (level : Fin 4) (ag : Fin 16) (sa : Fin 32) (s : State) : Out :=
  s.slotOut t (.dwrS t pr level ag sa) fun s =>
    s.setStride (tIx t) level ag (((s.tile (tIx t)).s sa).truncate 32)

/-- R70: `dwr.si` sets a stride from its immediate. -/
def execDwrSi (t : Xy) (pr : Fin 16) (level : Fin 4) (ag : Fin 16) (imm : BitVec 32) (s : State) : Out :=
  s.slotOut t (.dwrSi t pr level ag imm) fun s => s.setStride (tIx t) level ag imm

/-! ## Results (R60) -/

/-- R60: the results of a tile due by cycle `c` reach their registers in issue order; a register ends with its most
recently issued write, so an older write still outstanding no longer counts. -/
def Tile.writeback (c : Nat) (t : Tile) : Tile :=
  t.outs.foldl (fun (t : Tile) o =>
    if o.due ≤ c ∧ o.run = 0 then
      let t := if o.dead then t else if o.pred then t.setP o.reg (o.val != 0) else t.setS o.reg o.val
      { t with outs := t.outs.map fun o' =>
          if o'.pred = o.pred ∧ o'.reg = o.reg then { o' with dead := true } else o' }
    else { t with outs := t.outs ++ [o] }) { t with outs := [] }

/-- R60: RESULT_WRITEBACK. -/
def execResultWriteback (t : Xy) (s : State) : Out :=
  .next (if s.held then s else s.modTile (tIx t) (Tile.writeback s.sched))

end Sys2Proof.Machine
end

