-- ==== Sys2Proof/Machine/Fp.lean ====
section
/-! DEFINITION. The number formats and the exact arithmetic under one rounding (R142 to R150, R156, R192, R193, R197). -/

namespace Sys2Proof.Machine

/-! ## Exact values -/

/-- A decoded value: NaN, an infinity, or a sign with the magnitude `m × 2^e`. -/
inductive FV where
  | nan
  | inf (neg : Bool)
  | fin (neg : Bool) (m : Nat) (e : Int)
  deriving DecidableEq, Repr

/-- A dyadic number `n × 2^e`. -/
structure Dy where
  n : Int
  e : Int
  deriving DecidableEq, Repr

/-- A dyadic number's numerator at a lower exponent. -/
def Dy.at_ (a : Dy) (e : Int) : Int := a.n * 2 ^ (a.e - e).toNat

/-- The exact sum. -/
def Dy.add (a b : Dy) : Dy := let e := min a.e b.e; ⟨a.at_ e + b.at_ e, e⟩

/-- The exact product. -/
def Dy.mul (a b : Dy) : Dy := ⟨a.n * b.n, a.e + b.e⟩

/-- The signed dyadic of a finite value. -/
def FV.dy : FV → Dy
  | .fin neg m e => ⟨if neg then -(m : Int) else m, e⟩
  | _ => ⟨0, 0⟩

/-- How a value is rounded (R197): to nearest with ties to even, or toward zero. -/
inductive Rnd where
  | near | zero
  deriving DecidableEq, Repr

/-- `m / 2^k` rounded. -/
def shiftRnd (rm : Rnd) (m k : Nat) : Nat :=
  let q := m / 2 ^ k
  let r := m % 2 ^ k
  match rm with
  | .zero => q
  | .near => if 2 * r > 2 ^ k ∨ (2 * r = 2 ^ k ∧ q % 2 = 1) then q + 1 else q

/-- The magnitude `m × 2^e` rounded to `p` fraction bits with least exponent `emin`: the significand and its exponent. -/
def roundMag (rm : Rnd) (p : Nat) (emin : Int) (m : Nat) (e : Int) : Nat × Int :=
  if m = 0 then (0, emin - p)
  else
    let u := max (e + Nat.log2 m - p) (emin - p)
    if u ≤ e then (m * 2 ^ (e - u).toNat, u) else (shiftRnd rm m (u - e).toNat, u)

/-! ## Formats (R143) -/

/-- A floating-point format: exponent and fraction bits, bias, and whether it has infinities (2), one NaN (1) or neither
(0). -/
structure FFmt where
  eb : Nat
  p : Nat
  bias : Nat
  spec : Nat
  deriving DecidableEq, Repr

def fE4M3 : FFmt := ⟨4, 3, 7, 1⟩
def fE5M2 : FFmt := ⟨5, 2, 15, 2⟩
def fE3M2 : FFmt := ⟨3, 2, 3, 0⟩
def fE2M3 : FFmt := ⟨2, 3, 1, 0⟩
def fE2M1 : FFmt := ⟨2, 1, 1, 0⟩
def fBF16 : FFmt := ⟨8, 7, 127, 2⟩
def fFP32 : FFmt := ⟨8, 23, 127, 2⟩

/-- The format of an element code (R140, R197), none for the others. -/
def ffmtOf : Nat → Option FFmt
  | 0x0 => some fE4M3 | 0x1 => some fE5M2 | 0x3 => some fE3M2 | 0x4 => some fE2M3 | 0x5 => some fE2M1
  | 0x6 => some fBF16 | 0x7 => some fFP32
  | _ => none

/-- The least normal exponent. -/
def FFmt.emin (f : FFmt) : Int := 1 - f.bias

/-- R142, R143: the value of a pattern. -/
def FFmt.decode (f : FFmt) (w : Nat) : FV :=
  let neg := bits w (f.eb + f.p) (f.eb + f.p) == 1
  let e := bits w (f.eb + f.p - 1) f.p
  let m := bits w (f.p - 1) 0
  let top := 2 ^ f.eb - 1
  if f.spec = 2 ∧ e = top then (if m = 0 then .inf neg else .nan)
  else if f.spec = 1 ∧ e = top ∧ m = 2 ^ f.p - 1 then .nan
  else if e = 0 then .fin neg m (f.emin - f.p)
  else .fin neg (2 ^ f.p + m) (e - f.bias - f.p)

/-- The pattern of the largest finite magnitude. -/
def FFmt.maxPat (f : FFmt) : Nat :=
  if f.spec = 2 then (2 ^ f.eb - 1) * 2 ^ f.p - 1
  else if f.spec = 1 then 2 ^ (f.eb + f.p) - 2 else 2 ^ (f.eb + f.p) - 1

/-- The pattern, without sign, of a rounded magnitude; patterns above `maxPat` have overflowed. -/
def FFmt.pattern (f : FFmt) (r : Nat × Int) : Nat :=
  if r.1 < 2 ^ f.p then r.1 else ((r.2 + f.p + f.bias).toNat - 1) * 2 ^ f.p + r.1

/-- The sign bit. -/
def FFmt.sign (f : FFmt) (neg : Bool) : Nat := if neg then 2 ^ (f.eb + f.p) else 0

/-- The canonical NaN: the exponent all ones and the top fraction bit (R156, R192, R197: 0x7F in the FP8 formats). -/
def FFmt.nan (f : FFmt) : Nat :=
  if f.spec = 2 ∧ f.eb = 8 then (2 ^ f.eb - 1) * 2 ^ f.p + 2 ^ (f.p - 1) else 0x7F

/-- The infinity of a sign. -/
def FFmt.inf (f : FFmt) (neg : Bool) : Nat := (2 ^ f.eb - 1) * 2 ^ f.p + f.sign neg

/-- An exact dyadic number rounded once to nearest, ties to even; overflow gives infinity; `zneg` is the sign of an exact
zero (R149, R156, R192). -/
def FFmt.ofDy (f : FFmt) (d : Dy) (zneg : Bool) : Nat :=
  if d.n = 0 then f.sign zneg
  else
    let neg := decide (d.n < 0)
    let pat := f.pattern (roundMag .near f.p f.emin d.n.natAbs d.e)
    if f.maxPat < pat then f.inf neg else pat + f.sign neg

/-! ## Arithmetic (R156, R192) -/

def FV.isZero : FV → Bool
  | .fin _ m _ => m == 0
  | _ => false

def FV.neg? : FV → Bool
  | .fin s _ _ => s
  | .inf s => s
  | .nan => false

/-- Addition of R156: to nearest, ties to even; (+0) + (−0) is +0. -/
def FFmt.add (f : FFmt) (a b : Nat) : Nat :=
  match f.decode a, f.decode b with
  | .nan, _ | _, .nan => f.nan
  | .inf s, .inf t => if s = t then f.inf s else f.nan
  | .inf s, _ | _, .inf s => f.inf s
  | x, y => f.ofDy (x.dy.add y.dy) (x.isZero && y.isZero && x.neg? && y.neg?)

/-- The sign bit flipped. -/
def FFmt.negate (f : FFmt) (a : Nat) : Nat := a ^^^ f.sign true

/-- R192: x × B + C under one rounding; `fmul` is the form without C. -/
def FFmt.fma (f : FFmt) (a b : Nat) (c : Option Nat) : Nat :=
  let z := (c.map f.decode).getD (.fin ((f.decode a).neg? != (f.decode b).neg?) 0 0)
  match f.decode a, f.decode b, z with
  | .nan, _, _ | _, .nan, _ | _, _, .nan => f.nan
  | x, y, z =>
    let neg := x.neg? != y.neg?
    match x, y with
    | .inf _, w | w, .inf _ =>
      if w.isZero then f.nan
      else match z with
        | .inf t => if t = neg then f.inf neg else f.nan
        | _ => f.inf neg
    | _, _ =>
      match z with
      | .inf t => f.inf t
      | z =>
        let p := x.dy.mul y.dy
        f.ofDy (p.add z.dy) (decide (p.n = 0) && z.isZero && neg && z.neg?)

def FFmt.mul (f : FFmt) (a b : Nat) : Nat := f.fma a b none

/-- The order of two values that are not NaN, −0 before +0 when `zeros`. -/
def FV.lt (zeros : Bool) (x y : FV) : Bool :=
  match x, y with
  | .nan, _ | _, .nan => false
  | .inf s, .inf t => s && !t
  | .inf s, _ => s
  | _, .inf t => !t
  | x, y =>
    let d := x.dy.add ⟨-y.dy.n, y.dy.e⟩
    decide (d.n < 0) || (zeros && x.isZero && y.isZero && x.neg? && !y.neg?)

/-- `fmin` and `fmax` (R192). -/
def FFmt.minmax (f : FFmt) (isMax : Bool) (a b : Nat) : Nat :=
  match f.decode a, f.decode b with
  | .nan, _ | _, .nan => f.nan
  | x, y => if (if isMax then FV.lt true y x else FV.lt true x y) then a else b

/-- The floating-point relations of R193: 0 equal, 1 not equal, 2 less, 3 less or equal, 4 greater, 5 greater or equal. -/
def FFmt.rel (f : FFmt) (r a b : Nat) : Bool :=
  match f.decode a, f.decode b with
  | .nan, _ | _, .nan => r == 1
  | x, y =>
    let l := FV.lt false x y
    let g := FV.lt false y x
    if r = 0 then !l && !g else if r = 1 then l || g else if r = 2 then l else if r = 3 then !g
    else if r = 4 then g else !l

/-- The addition of R156 on FP32 patterns. -/
def fadd32 (a b : Lane) : Lane := BitVec.ofNat 32 (fFP32.add a.toNat b.toNat)

/-! ## The block dot product (R147 to R150) -/

/-- An E8M0 scale: none for NaN (R145). -/
def e8m0 (x : Nat) : Option Int := if x = 0xFF then none else some ((x : Int) - 127)

/-- One term of the sum of R148 with what R149 asks of it. -/
inductive Term where
  | nan
  | inf (neg : Bool)
  | val (d : Dy) (negZero : Bool)
  deriving DecidableEq, Repr

/-- The product a_k × w_k scaled by 2^sc. -/
def termOf (a w : FV) (sc : Int) : Term :=
  let neg := a.neg? != w.neg?
  match a, w with
  | .nan, _ | _, .nan => .nan
  | .inf _, x | x, .inf _ => if x.isZero then .nan else .inf neg
  | x, y => let p := x.dy.mul y.dy; .val ⟨p.n, p.e + sc⟩ (decide (p.n = 0) && neg)

/-- R149: the leaf of the terms of a floating-point class. -/
def leafOf (ts : List Term) : Lane :=
  let infP := ts.any fun t => t == .inf false
  let infN := ts.any fun t => t == .inf true
  if (ts.any fun t => t == .nan) || (infP && infN) then 0x7FC00000
  else if infP then BitVec.ofNat 32 (fFP32.inf false)
  else if infN then BitVec.ofNat 32 (fFP32.inf true)
  else
    let sum := ts.foldl (fun d t => match t with | .val x _ => d.add x | _ => d) ⟨0, 0⟩
    let allNeg := ts.all fun t => match t with | .val _ z => z | _ => false
    BitVec.ofNat 32 (fFP32.ofDy sum allNeg)

/-- Bit string of bytes: element `i` of width `w` (R146). -/
def elemAt (w : Nat) (bs : List Byte) (i : Nat) : Nat :=
  let lo := w * i
  bits (leNat ((bs.drop (lo / 8)).take 5)) (lo % 8 + w - 1) (lo % 8)

/-- The 64 elements of a row or column of a format (R146). -/
def elems (fmt : Nat) (bs : List Byte) : List Nat := (List.range 64).map (elemAt (fmtBits fmt) bs)

/-- The values of the 64 elements of a floating-point format. -/
def elemVals (fmt : Nat) (bs : List Byte) : List FV :=
  match ffmtOf fmt with
  | some f => (elems fmt bs).map f.decode
  | none => []

/-- R148, R150: the leaf of an activation row and a weight column, with the scales of the two halves. -/
def blockLeaf (afmt wfmt : Nat) (a w : List Byte) (sa sw : List Nat) : Lane :=
  if fmtClass afmt = 1 then
    BitVec.ofInt 32 (((elems 2 a).zip (elems 2 w)).foldl (fun (x : Int) p => x + sgn 8 p.1 * sgn 8 p.2) 0)
  else
    let mx := fmtClass afmt = 2
    let sc (h : Nat) : Option Int :=
      if mx then (e8m0 (sa.getD h 0x7F)).bind fun x => (e8m0 (sw.getD h 0x7F)).map (x + ·) else some 0
    match sc 0, sc 1 with
    | some s0, some s1 =>
      leafOf (((elemVals afmt a).zip (elemVals wfmt w)).zipIdx.map fun p =>
        termOf p.1.1 p.1.2 (if p.2 < 32 then s0 else s1))
    | _, _ => 0x7FC00000

end Sys2Proof.Machine
end

