-- ==== Sys2Proof/Machine/Matrix.lean ====
section
/-! DEFINITION. The matrix unit's operations, the entry of leaves and the writes of drained rows (chapter 04). -/

namespace Sys2Proof.Machine

/-! ## Pipes -/

/-- An access still stands in the queue. -/
def Tile.queued (t : Tile) (j : AccUse) : Bool := t.bankq.any fun q => q.job == j

/-- A pending access that makes the pipes and the vector engine stand still while it waits: a matrix or V-slot access (R170,
R206). -/
def BankReq.ofPipes (q : BankReq) : Bool := q.prio != 4 && q.prio != 8

/-- A row's scratchpad write is due in cycle `c` and has been served. -/
def Tile.sunk (t : Tile) (c : Nat) (v : VRow) : Bool :=
  v.due == c && (t.vruns.any fun u => u.id == v.run && u.f.sink.val == 0) && !t.queued (.sink v.run v.r)

/-- R170, R206: cycle `c`, in which an access of the engines waits: everything they still have to do from that cycle on comes one
cycle later, but for a write of that cycle whose access has been served. -/
def Tile.stallAt (c : Nat) (t : Tile) : Tile :=
  let up (n : Nat) : Nat := if c ≤ n then n + 1 else n
  let next (n : Nat) : Nat := if c < n then n + 1 else n
  let upM (m : SMap Nat) : SMap Nat := m.map fun p => (p.1, up p.2)
  { t with
    accq := t.accq.map fun a => { a with due := up a.due }
    drains := t.drains.map fun d => if d.due = c ∧ d.hnd.isSome ∧ !t.queued (.drain d.op d.r) then d else { d with due := up d.due }
    vrows := t.vrows.map fun v => if t.sunk c v then v else { v with due := up v.due, enters := up v.enters }
    bankq := t.bankq.map fun b => if b.ofPipes then { b with due := up b.due } else b
    wready := upM t.wready, wused := upM t.wused, accLast := upM t.accLast
    loadFree := up t.loadFree, streamFree := up t.streamFree, drainFree := up t.drainFree, pipeEnd := up t.pipeEnd
    vlastIn := next t.vlastIn, vlastOut := next t.vlastOut, chainAt := up t.chainAt
    vpend := t.vpend.map fun p => (p.1, up p.2) }

/-- Reads a list of accesses in order. -/
def State.readAll (s : State) (y pc : Nat) : List OwnAcc → State × List Byte
  | [] => (s, [])
  | a :: as =>
    let (s, b) := s.accRead y pc a
    let (s, bs) := s.readAll y pc as
    (s, b ++ bs)

/-- The accesses of the accumulator rows an operation names are recorded for R169. -/
def State.markRows (s : State) (y : Nat) (i : Instr) : State :=
  s.modTile y fun t =>
    { t with accLast := (s.accCycles y i).foldl (fun m a => mput m a.1 (s.sched + a.2)) t.accLast }

/-! ## Load pipe -/

/-- The first cycle since which a pipe is occupied without a gap, once an operation issues in cycle `c` on one that was occupied
from `at_` to `free` (R167). -/
def pipeFrom (c at_ free : Nat) : Nat := if c = free then at_ else c + 1

/-- The load pipe is occupied, and the buffer ready later (R167). -/
def State.loadBusy (s : State) (y b last ready : Nat) : State :=
  s.modTile y fun t =>
    { t with
      loadAt := pipeFrom s.sched t.loadAt t.loadFree, loadFree := s.sched + last
      wready := mput t.wready b (s.sched + ready) }

/-- A suppressed operation would complete `n` cycles from now (R165). -/
def State.suppBusy (s : State) (y n : Nat) : State := s.modTile y fun t => { t with pipeEnd := max t.pipeEnd (s.sched + n) }

/-- R162: `mload`; WnFMT shows the new format from the issue cycle on (R162, R175; DESIGN CHOICE, notes/assumptions/68.md). -/
def execMload (t : Xy) (pr : Fin 16) (wbuf : Fin 2) (ag : Fin 16) (wfmt : Fin 16) (s : State) : Out :=
  let y := tIx t
  let c := fmtC wfmt
  s.slotOut t (.mload t pr wbuf ag wfmt) (supp := fun s => (s.loadBusy y wbuf c (c + 2)).suppBusy y c) fun s =>
    let as := (s.tile y).mloadAccs ag wfmt
    let scl : List Byte := if fmtClass wfmt = 2 then List.replicate 128 0x7F else []
    let s := s.modTile y fun t => { t with wbufs := mput t.wbufs wbuf ⟨wfmt, [], scl⟩ }
    ((as.zipIdx).foldl (fun s a => s.pushReq y (s.sched + 1 + a.2) 0 a.1 (.block wbuf)) s).loadBusy y wbuf c (c + 2)

/-- R162: `mscl`; on a buffer that is not MX the event is recorded at the issue (R172; DESIGN CHOICE, notes/assumptions/68.md). -/
def execMscl (t : Xy) (pr : Fin 16) (wbuf : Fin 2) (ag : Fin 16) (s : State) : Out :=
  let y := tIx t
  s.slotOut t (.mscl t pr wbuf ag) (supp := fun s => (s.loadBusy y wbuf 1 3).suppBusy y 1) fun s =>
    let T := s.tile y
    let a := T.agAcc ag false [⟨T.agAddr ag, 128⟩]
    let mx := decide (fmtClass (mget T.wbufs wbuf {}).fmt = 2)
    let s := (s.pushReq y (s.sched + 1) 0 a (if mx then .scales wbuf else .unused)).loadBusy y wbuf 1 3
    if mx then s else s.mxFault y 0x0221 2 0 0 T.issuePc 0

/-! ## Stream pipe -/

/-- The stream pipe's timing of an `mmul` (R167, R169). -/
def State.streamBusy (s : State) (y : Nat) (i : Instr) (f : MmulF) : State :=
  let last := s.sched + mmulRead (fmtClass f.afmt) f.rcnt
  (s.modTile y fun t =>
    { t with
      streamAt := pipeFrom s.sched t.streamAt t.streamFree, streamFree := last
      wused := mput t.wused f.wbuf last }).markRows y i

/-- The accumulator accesses of an operation join the tile's queue. -/
def State.queueAcc (s : State) (y : Nat) (as : List AccAcc) : State :=
  s.modTile y fun t => { t with accq := t.accq ++ as }

/-- R161: the KIDX of an `mmul`. -/
def Tile.kidx (t : Tile) (f : MmulF) : Nat :=
  (bits (t.s f.sk).toNat 19 0 + if f.kle ∧ (t.lvl f.klvl).active then (t.lvl f.klvl).idx else 0) % 2 ^ 20

/-- R162: `mmul`: the rows are read, and their leaves enter, in the cycles of R167; on a bad buffer the event is recorded at the issue, and
each row is poisoned when its leaf would enter (R172; DESIGN CHOICE, notes/assumptions/68.md). -/
def execMmul (t : Xy) (pr : Fin 16) (f : MmulF) (s : State) : Out :=
  let y := tIx t
  let i : Instr := .mmul t pr f
  let done := mmulRead (fmtClass f.afmt) f.rcnt + s.lat y .mstream
  s.slotOut t i (supp := fun s => (s.streamBusy y i f).suppBusy y done) fun s =>
    let T := s.tile y
    let pc := T.issuePc
    let ms := s.lat y .mstream
    let cls := fmtClass f.afmt
    let w := mget T.wbufs f.wbuf {}
    let op := T.opNo + 1
    let ok := fmtClass w.fmt = cls
    let at_ (r : Nat) : Nat := s.sched + mmulRead cls r
    let s := ((T.mmulAccs f).zipIdx).foldl (fun s a =>
      s.pushReq y (s.sched + 1 + a.2) 1 a.1.2 (if ok then .act op a.1.1 else .unused)) s
    let s := ((T.scaleAccs f).zipIdx).foldl (fun s a => s.pushReq y (s.sched + 1 + a.2) 1 a.1 (if ok then .actScale op a.2 else .unused)) s
    let acc (r : Nat) : AccAcc :=
      { due := at_ r + ms, set := f.aset, row := f.row0 + r, pc := pc, kind := if ok then .leaf op r else .poison cls }
    let s := s.queueAcc y ((List.range (f.rcnt + 1)).map acc)
    let s := s.modTile y fun t =>
      { t with opNo := op, muls := if ok then t.muls ++ [{ op := op, f := f, cls := cls, kidx := T.kidx f, w := w }] else t.muls }
    let s := if ok then s else s.mxFault y 0x0221 2 f.aset f.row0 pc 0
    s.streamBusy y i f

/-! ## Drain pipe -/

/-- The drain pipe's timing of an operation on `n + 1` rows. -/
def State.drainBusy (s : State) (y : Nat) (i : Instr) (n : Nat) : State :=
  (s.modTile y fun t =>
    { t with drainAt := pipeFrom s.sched t.drainAt t.drainFree, drainFree := s.sched + 1 + n }).markRows y i

/-- R162: `mzero`. -/
def execMzero (t : Xy) (pr : Fin 16) (aset : Fin 2) (row0 rcnt : Fin 64) (s : State) : Out :=
  let y := tIx t
  let i : Instr := .mzero t pr aset row0 rcnt
  s.slotOut t i (supp := fun s => (s.drainBusy y i rcnt).suppBusy y (1 + rcnt)) fun s =>
    (s.queueAcc y ((List.range (rcnt + 1)).map fun r =>
      ⟨s.sched + 1 + r, aset, row0 + r, (s.tile y).issuePc, .zero⟩)).drainBusy y i rcnt

/-- The reads of a drain and its rows on their way (R162, R167): to a scratchpad handle at an offset, or to the chain. -/
def State.startDrain (s : State) (y : Nat) (f : DrainF) (dst : Option (Nat × Nat × Bool)) : State :=
  let T := s.tile y
  let op := T.opNo + 1
  let at_ := s.sched + s.drainLat y f.part
  let rows := List.range (f.rcnt + 1)
  let s := s.queueAcc y (rows.map fun r =>
    ⟨s.sched + 1 + r, f.aset, f.row0 + r, T.issuePc, .read op r f.node f.part f.clr⟩)
  s.modTile y fun t =>
    { t with
      opNo := op
      drains := t.drains ++ rows.map fun r =>
        match dst with
        | some (h, off, space) =>
          { op := op, r := r, due := at_ + r, hnd := some (s.hnd y h), handle := h, off := off + 256 * r, space := space,
            pc := T.issuePc }
        | none => { op := op, r := r, due := at_ + r, toChain := true, pc := T.issuePc } }

/-- R162: `mdrain`. -/
def execMdrain (t : Xy) (pr : Fin 16) (f : DrainF) (agD : Fin 16) (s : State) : Out :=
  let y := tIx t
  let i : Instr := .mdrain t pr f agD
  let lat := s.drainLat y f.part
  s.slotOut t i (supp := fun s => (s.drainBusy y i f.rcnt).suppBusy y (lat + f.rcnt)) fun s =>
    let T := s.tile y
    let d := T.agAddr agD
    let s := (List.range (f.rcnt + 1)).foldl
      (fun s r => s.pushReq y (s.sched + lat + r) 2 (T.agAcc agD true [⟨d + 256 * r, 256⟩]) (.drain (T.opNo + 1) r)) s
    (s.startDrain y f (some ((T.gen agD).handle, d, (T.agAcc agD true []).space))).drainBusy y i f.rcnt

/-- The entry of row 0 into a chain, for the `vrun` of the same triple (R204). -/
def State.chainEntry (s : State) (y : Nat) (part : Bool) : State :=
  s.modTile y fun t => { t with chainAt := s.sched + s.drainLat y part, chainOp := t.opNo }

/-- R162: `mdrainv`. -/
def execMdrainv (t : Xy) (pr : Fin 16) (f : DrainF) (s : State) : Out :=
  let y := tIx t
  let i : Instr := .mdrainv t pr f
  let lat := s.drainLat y f.part
  s.slotOut t i
    (supp := fun s => (((s.modTile y fun t => { t with opNo := t.opNo + 1 }).chainEntry y f.part).drainBusy y i
      f.rcnt).suppBusy y (lat + f.rcnt))
    fun s => ((s.startDrain y f none).chainEntry y f.part).drainBusy y i f.rcnt

/-! ## Accumulators (R152 to R157, R163) -/

/-- `add` of R153: FP32 addition, or exact integer addition for the INT8 class. -/
def accAdd (cls : Nat) (a b : List Lane) : List Lane :=
  List.zipWith (fun x y => if cls = 1 then x + y else fadd32 x y) a b

/-- R153: the merge of the two top entries; `n` bounds the merges. -/
def mergeTop (cls : Nat) : Nat → List AccEntry → List AccEntry
  | n + 1, e2 :: e1 :: st =>
    if e1.lvl = e2.lvl ∧ e1.idx % 2 = 0 ∧ e2.idx = e1.idx + 1 then
      mergeTop cls n (⟨e1.lvl + 1, e1.idx / 2, accAdd cls e1.vals e2.vals⟩ :: st)
    else e2 :: e1 :: st
  | _, st => st

/-- R153: a leaf is pushed and merged. -/
def AccRow.push (a : AccRow) (kidx : Nat) (vals : List Lane) : AccRow :=
  { a with stack := mergeTop a.cls (a.stack.length + 1) (⟨0, kidx, vals⟩ :: a.stack) }

/-- R152, R157: a leaf at an accumulator row: the row after it, and the event code recorded (0 for none). -/
def AccRow.leaf (loc : Bool) (a : AccRow) (cls kidx : Nat) (vals : List Lane) : AccRow × Nat :=
  if a.poison then (a, 0)
  else if loc then
    if !a.started then
      ({ a with started := true, cls := cls, kbase := 0, knext := 1, stack := [⟨0, 0, vals⟩] }, 0)
    else if cls ≠ a.cls then ({ a with poison := true }, 0x0221)
    else if 256 ≤ a.knext then ({ a with poison := true }, 0x0222)
    else
      ({ a with knext := a.knext + 1
                stack := match a.stack with | e :: _ => [{ e with vals := accAdd cls e.vals vals }] | [] => [] }, 0)
  else if !a.started then
    ({ a with started := true, cls := cls, kbase := kidx, knext := (kidx + 1) % 2 ^ 20 }.push kidx vals, 0)
  else if cls ≠ a.cls then ({ a with poison := true }, 0x0221)
  else if kidx ≠ a.knext then ({ a with poison := true }, 0x0220)
  else if 255 < (kidx + 2 ^ 20 - a.kbase) % 2 ^ 20 then ({ a with poison := true }, 0x0222)
  else ({ a with knext := (kidx + 1) % 2 ^ 20 }.push kidx vals, 0)

/-- The kind field of TIL_MXFAULT for an event (R176). -/
def mxKind (code : Nat) : Nat := if code = 0x0220 then 1 else if code = 0x0221 then 2 else if code = 0x0222 then 3 else 4

/-- R154: the canonical fold of a stack, from the top down. -/
def foldStack (cls : Nat) : List AccEntry → List Lane
  | [] => List.replicate 64 0
  | e :: st => st.foldl (fun r e' => accAdd cls e'.vals r) e.vals

/-- R163: the values a drain takes from a row. -/
def AccRow.drainVals (loc : Bool) (a : AccRow) (part : Bool) (node : Nat) : List Lane :=
  let zero := List.replicate 64 (0 : Lane)
  if a.poison then List.replicate 64 (if a.cls = 1 then 0x80000000 else 0x7FC00000)
  else if !a.started then zero
  else if part then
    (if loc then (if node = 0 then (a.stack.head?.map (·.vals)).getD zero else zero)
     else (a.stack.reverse[node]?.map (·.vals)).getD zero)
  else foldStack a.cls a.stack

/-- The activation bytes, and for the MX class the scale bytes, of a row have been read. -/
def MulOp.has (m : MulOp) (r : Nat) : Bool :=
  (mget m.act r []).length == fmtRB m.f.afmt && (m.cls != 2 || (mfind m.scl r).isSome)

/-- The leaves of a row, one for each column (R143 to R151). -/
def MulOp.leaves (m : MulOp) (r : Nat) : List Lane :=
  (List.range 64).map fun n =>
    blockLeaf m.f.afmt m.w.fmt (mget m.act r []) ((m.w.block.drop (fmtRB m.w.fmt * n)).take (fmtRB m.w.fmt))
      ((mget m.scl r []).map (·.toNat)) ((m.w.scales.drop (2 * n)).take 2 |>.map (·.toNat))

/-- The operation an access of the queue belongs to. -/
def Tile.mulOf (t : Tile) (op : Nat) : Option MulOp := t.muls.find? fun m => m.op == op

/-- What an access of the queue does to its row (R152, R162, R163); a class mismatch that discards a leaf records the leaf's KIDX (R176;
DESIGN CHOICE, notes/assumptions/68.md). -/
def State.accApply (s : State) (y : Nat) (q : AccAcc) : State :=
  let T := s.tile y
  let k := 64 * q.set + q.row
  let a := mget T.accs k {}
  let put (a : AccRow) : State := s.modTile y fun t => { t with accs := mput t.accs k a }
  match q.kind with
  | .zero => put {}
  | .poison cls => put { a with poison := true, cls := if a.started then a.cls else cls }
  | .leaf op r =>
    match T.mulOf op with
    | some m =>
      let (a', ev) := a.leaf T.locm m.cls m.kidx (m.leaves r)
      let s := if ev = 0 then put a' else (put a').mxFault y ev (mxKind ev) q.set q.row q.pc m.kidx
      if r = m.f.rcnt.val then s.modTile y fun t => { t with muls := t.muls.filter fun x => x.op != op } else s
    | none => s
  | .read op r node part clr =>
    let v := a.drainVals T.locm part node
    let s := put (if clr then {} else a)
    (if a.poison then s.lossSeen else s).modTile y fun t =>
      { t with drains := t.drains.map fun d => if d.op = op ∧ d.r = r then { d with vals := some v } else d }

/-- What the access needs has been read. -/
def Tile.accReady (t : Tile) (q : AccAcc) : Bool :=
  match q.kind with | .leaf op r => (match t.mulOf op with | some m => m.has r | none => true) | _ => true

/-- The accumulator accesses due by now take place, in the order they were issued (R166). -/
def State.settleAcc (s : State) (y : Nat) : State :=
  let now := (s.tile y).accq.filter fun a => decide (a.due ≤ s.sched)
  if now.all (s.tile y).accReady then
    now.foldl (fun s a => s.accApply y a) <|
      s.modTile y fun t => { t with accq := t.accq.filter fun a => !decide (a.due ≤ s.sched) }
  else s

/-- R152: LEAF_ENTER: the leaves and resets due by now enter their rows. -/
def execLeafEnter (t : Xy) (s : State) : Out := .next (if s.held then s else s.settleAcc (tIx t))

/-- R167: DRAIN_ROW_WRITE: the next drained row due enters its chain, or is written to the scratchpad once TRIPLE_ISSUE has
served its access. -/
def execDrainRowWrite (t : Xy) (s : State) : Out :=
  .next <|
    let y := tIx t
    if s.held then s
    else
      let s := s.settleAcc y
      match (s.tile y).drains.find? fun d => decide (d.due ≤ s.sched) with
      | none => s
      | some d =>
        match d.vals with
        | none => s
        | some vals =>
          let gone (s : State) : State :=
            s.modTile y fun t => { t with drains := t.drains.filter fun e => !(e.op == d.op && e.r == d.r) }
          match d.hnd with
          | none =>
            (gone s).modTile y fun t =>
              { t with vrows := t.vrows.map fun v =>
                  if v.r = d.r ∧ v.lanes = none ∧ (t.vruns.any fun u => u.id == v.run && u.chainOp == d.op) then
                    { v with lanes := some vals } else v }
          | some e =>
            if (s.tile y).queued (.drain d.op d.r) then s
            else (gone s).spWriteE y d.pc d.handle e d.space d.off (vals.flatMap fun v => leBytes 4 v.toNat)

end Sys2Proof.Machine
end

