-- ==== Sys2Proof/Machine/Tab.lean ====
section
/-! DEFINITION. The functions of the `tab` stage (R195): the exact real value is enclosed between two dyadic numbers, and
both ends rounded to FP32; where they differ, the result is the free value Config.tabHard (notes/assumptions/8.md). -/

namespace Sys2Proof.Machine

/-! ## Enclosures: pairs of integers in units of 2^−640 -/

/-- The fraction bits of an enclosure. -/
def ivP : Nat := 640

/-- An enclosure: the real lies between `lo` and `hi`, in units of 2^−640. -/
structure Iv where
  lo : Int
  hi : Int
  deriving DecidableEq, Repr

def ivOne : Int := 2 ^ ivP

/-- The floor and ceiling of an integer over 2^640. -/
def dnP (a : Int) : Int := a.fdiv ivOne
def upP (a : Int) : Int := -((-a).fdiv ivOne)

def Iv.ofInt (n : Int) : Iv := ⟨n * ivOne, n * ivOne⟩
def Iv.add (a b : Iv) : Iv := ⟨a.lo + b.lo, a.hi + b.hi⟩
def Iv.neg (a : Iv) : Iv := ⟨-a.hi, -a.lo⟩
def Iv.sub (a b : Iv) : Iv := a.add b.neg
def Iv.widen (a : Iv) (n : Nat) : Iv := ⟨a.lo - n, a.hi + n⟩

def Iv.mul (a b : Iv) : Iv :=
  let ps := [a.lo * b.lo, a.lo * b.hi, a.hi * b.lo, a.hi * b.hi]
  ⟨dnP (ps.foldl min (a.lo * b.lo)), upP (ps.foldl max (a.lo * b.lo))⟩

/-- The enclosure over a positive natural number. -/
def Iv.divNat (a : Iv) (n : Nat) : Iv := ⟨a.lo.fdiv n, -((-a.hi).fdiv n)⟩

/-- The quotient by a positive enclosure. -/
def Iv.div (a b : Iv) : Iv :=
  let q (x y : Int) : Int := (x * ivOne).fdiv y
  let qs := [q a.lo b.lo, q a.lo b.hi, q a.hi b.lo, q a.hi b.hi]
  ⟨qs.foldl min (q a.lo b.lo), qs.foldl max (q a.lo b.lo) + 1⟩

/-- The sum of the Taylor series of e^r for |r| ≤ 1: term `k`, the sum so far. -/
def expTerms (r : Iv) : Nat → Nat → Iv → Iv → Iv
  | 0, _, _, sum => sum.widen 4
  | n + 1, k, term, sum =>
    let t := (term.mul r).divNat k
    expTerms r n (k + 1) t (sum.add t)

/-- e^r for |r| ≤ 1: 180 terms leave a remainder below a unit. -/
def ivExp1 (r : Iv) : Iv := expTerms r 180 1 (Iv.ofInt 1) (Iv.ofInt 1)

/-- The series z + z³/3 + z⁵/5 + …, `k` odd, the power so far. -/
def atanhTerms (z2 : Iv) (alt : Bool) : Nat → Nat → Iv → Iv → Iv
  | 0, _, _, sum => sum.widen 4
  | n + 1, k, pow, sum =>
    let p := pow.mul z2
    let p := if alt then p.neg else p
    atanhTerms z2 alt n (k + 2) p (sum.add (p.divNat (k + 2)))

/-- atanh z for |z| ≤ 1/3. -/
def ivAtanh (z : Iv) : Iv := atanhTerms (z.mul z) false 205 1 z z

/-- ln 2 = 2 atanh(1/3). -/
def ivLn2 : Iv := let a := ivAtanh ((Iv.ofInt 1).divNat 3); a.add a

/-- arctan(1/q) for q ≥ 5. -/
def ivAtan (q : Nat) : Iv :=
  let z := (Iv.ofInt 1).divNat q
  atanhTerms (z.mul z) true 145 1 z z

/-- π by Machin's formula. -/
def ivPi : Iv :=
  let a := ivAtan 5
  let b := ivAtan 239
  ((a.add a).add (a.add a)).sub b |> fun c => (c.add c).add (c.add c)

/-- The integer square root by bisection of `n` bits, from bit `n − 1` down. -/
def sqrtBits (v : Nat) : Nat → Nat → Nat
  | 0, r => r
  | n + 1, r => let r' := r + 2 ^ n; if r' * r' ≤ v then sqrtBits v n r' else sqrtBits v n r

/-- The square root of a nonnegative enclosure. -/
def ivSqrt (a : Iv) : Iv :=
  ⟨sqrtBits (a.lo.toNat * 2 ^ ivP) 1300 0, sqrtBits (a.hi.toNat * 2 ^ ivP) 1300 0 + 1⟩

/-- A finite FP32 value as an enclosure. -/
def ivOf (d : Dy) : Iv := let n := d.at_ (-640); ⟨n, n⟩

/-- An enclosure times a power of two. -/
structure Sc where
  iv : Iv
  k : Int
  deriving DecidableEq, Repr

/-- e^x for an enclosed x: x = k ln 2 + r. -/
def scExp (x : Iv) : Sc :=
  let k := (x.lo * 2 + ivLn2.lo).fdiv (2 * ivLn2.lo)
  ⟨ivExp1 (x.sub ((Iv.ofInt k).mul ivLn2)), k⟩

/-- The scaled enclosure in plain units, for results below 2^400. -/
def Sc.plain (s : Sc) : Iv :=
  if 0 ≤ s.k then ⟨s.iv.lo * 2 ^ s.k.toNat, s.iv.hi * 2 ^ s.k.toNat⟩
  else ⟨s.iv.lo.fdiv (2 ^ (-s.k).toNat), -((-s.iv.hi).fdiv (2 ^ (-s.k).toNat))⟩

/-- ln of m × 2^e, m > 0. -/
def ivLn (m : Nat) (e : Int) : Iv :=
  let b := Nat.log2 m
  let f : Iv := ⟨(m : Int) * 2 ^ (ivP - b), (m : Int) * 2 ^ (ivP - b)⟩
  let at2 := ivAtanh ((f.sub (Iv.ofInt 1)).div (f.add (Iv.ofInt 1)))
  ((Iv.ofInt (e + b)).mul ivLn2).add (at2.add at2)

/-- The series of Φ: Σ (−1)^n x^(2n+1) / (2^n n! (2n+1)), `pow` the power over 2^n n!. -/
def phiTerms (x2 : Iv) : Nat → Nat → Iv → Iv → Iv
  | 0, _, _, sum => sum.widen 4
  | n + 1, k, pow, sum =>
    let p := ((pow.mul x2).divNat (2 * k)).neg
    phiTerms x2 n (k + 1) p (sum.add (p.divNat (2 * k + 1)))

/-- Φ(x) for |x| ≤ 15. -/
def ivPhi (x : Iv) : Iv :=
  let half := (Iv.ofInt 1).divNat 2
  half.add ((phiTerms (x.mul x) 900 1 x x).div (ivSqrt (ivPi.add ivPi)))

/-! ## Rounding an enclosure -/

/-- The FP32 pattern of an enclosure scaled by 2^k, when both ends round to the same one. -/
def Sc.round (s : Sc) : Option Nat :=
  let r (n : Int) : Nat := fFP32.ofDy ⟨n, s.k - ivP⟩ false
  if r s.iv.lo = r s.iv.hi ∧ ¬ (s.iv.lo < 0 ∧ 0 < s.iv.hi) then some (r s.iv.lo) else none

/-- A plain enclosure rounded. -/
def Iv.round (a : Iv) : Option Nat := (Sc.mk a 0).round

/-- The quotient of two positive naturals times 2^e rounded: a sticky bit stands for the remainder. -/
def roundQuot (neg : Bool) (a b : Nat) (e : Int) : Nat :=
  let n : Int := ((2 * (a * 2 ^ 400 / b) + if a * 2 ^ 400 % b = 0 then 0 else 1 : Nat) : Int)
  fFP32.ofDy ⟨if neg then -n else n, e - 401⟩ neg

/-- 1/√(m × 2^e) rounded: the square root of its square with a sticky bit. -/
def roundRsqrt (m : Nat) (e : Int) : Nat :=
  let odd := e % 2 = 1
  let m' := if odd then 2 * m else m
  let e' := if odd then e - 1 else e
  let v := 2 ^ 800 / m'
  let r := sqrtBits v 401 0
  let n : Int := ((2 * r + if r * r = v ∧ 2 ^ 800 % m' = 0 then 0 else 1 : Nat) : Int)
  fFP32.ofDy ⟨n, -(e' / 2) - 401⟩ false

/-! ## The functions -/

/-- R195: function `fn` of a finite nonzero input with sign, magnitude and pattern `w`: none where the enclosure does not
decide. -/
def tabFinite (fn : Nat) (neg : Bool) (m : Nat) (e : Int) (w : Nat) : Option Nat :=
  let d : Dy := ⟨if neg then -(m : Int) else m, e⟩
  let x := ivOf d
  let big (n : Int) : Bool := decide (n * ivOne < x.hi)
  let one : Iv := Iv.ofInt 1
  if fn = 0 then
    if big 90 then some 0x7F800000 else if x.lo < -110 * ivOne then some 0 else (scExp x).round
  else if fn = 1 then
    if big 130 then some 0x7F800000
    else if x.lo < -160 * ivOne then some 0
    else
      let k := x.lo.fdiv ivOne
      let fr : Iv := ⟨x.lo - k * ivOne, x.hi - k * ivOne⟩
      if fr.lo = 0 then some (fFP32.ofDy ⟨1, k⟩ false) else (Sc.mk (ivExp1 (fr.mul ivLn2)) k).round
  else if fn = 2 ∨ fn = 3 then
    if neg then some 0x7FC00000
    else if w = 0x3F800000 then some 0
    else if fn = 2 then (ivLn m e).round
    else if m = 2 ^ Nat.log2 m then some (fFP32.ofDy ⟨e + Nat.log2 m, 0⟩ false)
    else ((ivLn m e).div ivLn2).round
  else if fn = 4 then some (roundQuot neg 1 m (-e))
  else if fn = 5 then (if neg then some 0x7FC00000 else some (roundRsqrt m e))
  else if fn = 6 then
    if big 110 then some 0x3F800000
    else if x.lo < -110 * ivOne then some 0
    else let ex := (scExp x).plain; (ex.div (one.add ex)).round
  else if fn = 7 then
    if big 60 then some 0x3F800000
    else if x.lo < -60 * ivOne then some 0xBF800000
    else let e2 := (scExp (x.add x)).plain; ((e2.sub one).div (e2.add one)).round
  else if fn = 8 then
    if big 15 then some w
    else if x.lo < -15 * ivOne then some 0x80000000
    else (x.mul (ivPhi x)).round
  else
    if big 120 then some w
    else if x.lo < -120 * ivOne then some 0x80000000
    else let ex := (scExp x).plain; (x.mul (ex.div (one.add ex))).round

/-- R195: the FP32 result of a function at ±0. -/
def tabZero (fn : Nat) (neg : Bool) : Nat :=
  let z := if neg then 0x80000000 else 0
  if fn = 0 ∨ fn = 1 then 0x3F800000
  else if fn = 2 ∨ fn = 3 then 0xFF800000
  else if fn = 4 ∨ fn = 5 then 0x7F800000 + z
  else if fn = 6 then 0x3F000000
  else z

/-- R195: the FP32 result of a function at ±∞. -/
def tabInf (fn : Nat) (neg : Bool) : Nat :=
  let z := if neg then 0x80000000 else 0
  if fn = 0 ∨ fn = 1 then (if neg then 0 else 0x7F800000)
  else if fn = 2 ∨ fn = 3 then (if neg then 0x7FC00000 else 0x7F800000)
  else if fn = 4 then z
  else if fn = 5 then (if neg then 0x7FC00000 else 0)
  else if fn = 6 then (if neg then 0 else 0x3F800000)
  else if fn = 7 then 0x3F800000 + z
  else (if neg then 0x80000000 else 0x7F800000)

/-- R195: the `tab` stage on FP32 patterns. -/
def tab32 (fn : Nat) (w : BitVec 32) : BitVec 32 :=
  match fFP32.decode w.toNat with
  | .nan => 0x7FC00000
  | .inf neg => BitVec.ofNat 32 (tabInf fn neg)
  | .fin neg m e =>
    if m = 0 then BitVec.ofNat 32 (tabZero fn neg)
    else match tabFinite fn neg m e w.toNat with
      | some r => BitVec.ofNat 32 r
      | none => Config.tabHard fn w

/-- A BF16 pattern widened exactly, and an FP32 pattern rounded to BF16 (R195, R197). -/
def bf16ToFp32 (w : Nat) : BitVec 32 := BitVec.ofNat 32 (w % 2 ^ 16 * 2 ^ 16)
def fp32ToBf16 (w : BitVec 32) : Nat :=
  match fFP32.decode w.toNat with
  | .nan => fBF16.nan
  | .inf s => fBF16.inf s
  | .fin s m e => fBF16.ofDy (FV.fin s m e).dy s

end Sys2Proof.Machine
end

