-- ==== Sys2Proof/Machine/Vector.lean ====
section
/-! DEFINITION. The vector engine: stage words, chain runs and their rows (chapter 05). -/

namespace Sys2Proof.Machine

/-! ## Types of a stage (R179, R181, R191) -/

/-- The width of a TY. -/
def tyBits (ty : Nat) : Nat := if ty = 1 ∨ ty = 4 ∨ ty = 7 then 16 else if ty = 2 ∨ ty = 5 then 8 else 32

/-- The TY is signed. -/
def tySigned (ty : Nat) : Bool := decide (ty ≤ 2)

/-- The integer a lane holds under a TY. -/
def tyVal (ty : Nat) (x : Lane) : Int :=
  let v := x.toNat % 2 ^ tyBits ty
  if tySigned ty then sgn (tyBits ty) v else v

/-- The range of an integer TY. -/
def tyMin (ty : Nat) : Int := if tySigned ty then -(2 ^ (tyBits ty - 1)) else 0
def tyMax (ty : Nat) : Int := if tySigned ty then 2 ^ (tyBits ty - 1) - 1 else 2 ^ tyBits ty - 1

/-- The full lane of a pattern of the TY's width (R179). -/
def tyLane (ty : Nat) (v : Nat) : Lane :=
  if tySigned ty then BitVec.ofInt 32 (sgn (tyBits ty) v) else BitVec.ofNat 32 (v % 2 ^ tyBits ty)

/-- The floating-point format of TY 6 and 7. -/
def tyFmt (ty : Nat) : FFmt := if ty = 7 then fBF16 else fFP32

/-- R191: the exact result reduced: wrapped, or clamped and counted. -/
def intReduce (ty rnd : Nat) (v : Int) : Lane × Nat :=
  if rnd = 1 ∧ v < tyMin ty then (tyLane ty (unsgn (tyBits ty) (tyMin ty)), 1)
  else if rnd = 1 ∧ tyMax ty < v then (tyLane ty (unsgn (tyBits ty) (tyMax ty)), 1)
  else (tyLane ty (unsgn (tyBits ty) v), 0)

/-- R191: an integer stage at one lane: the lane and whether it saturated. -/
def intStage (sop ty rnd : Nat) (x b : Lane) : Lane × Nat :=
  let w := tyBits ty
  let xv := tyVal ty x
  let bv := tyVal ty b
  let xu := x.toNat % 2 ^ w
  let bu := b.toNat % 2 ^ w
  let n := b.toNat
  if sop = 0x01 then intReduce ty rnd (xv + bv)
  else if sop = 0x02 then intReduce ty rnd (xv - bv)
  else if sop = 0x03 then intReduce ty rnd (xv * bv)
  else if sop = 0x04 then (tyLane ty (if xv ≤ bv then xu else bu), 0)
  else if sop = 0x05 then (tyLane ty (if bv ≤ xv then xu else bu), 0)
  else if sop = 0x06 then (tyLane ty (xu &&& bu), 0)
  else if sop = 0x07 then (tyLane ty (xu ||| bu), 0)
  else if sop = 0x08 then (tyLane ty (xu ^^^ bu), 0)
  else if sop = 0x09 then
    if w ≤ n then
      (if rnd = 1 ∧ xv ≠ 0 then (tyLane ty (unsgn w (if 0 < xv then tyMax ty else tyMin ty)), 1) else (0, 0))
    else intReduce ty rnd (xv * 2 ^ n)
  else if sop = 0x0A then (tyLane ty (if w ≤ n then 0 else xu / 2 ^ n), 0)
  else (tyLane ty (unsgn w (xv.fdiv (2 ^ min n w))), 0)

/-- R192: a floating-point stage at one lane. -/
def fltStage (sop ty param : Nat) (x b c : Lane) : Lane :=
  let f := tyFmt ty
  let m := 2 ^ (1 + f.eb + f.p)
  let x := x.toNat % m
  let b := b.toNat % m
  let c := c.toNat % m
  let mag (v : Nat) : Nat := v % 2 ^ (f.eb + f.p)
  BitVec.ofNat 32 <|
    if sop = 0x10 then f.add x b
    else if sop = 0x11 then f.add x (f.negate b)
    else if sop = 0x12 then f.mul x b
    else if sop = 0x13 then f.fma x b (some c)
    else if sop = 0x14 then f.minmax false x b
    else if sop = 0x15 then f.minmax true x b
    else if param = 0 then mag x
    else if param = 1 then f.negate x
    else mag x + (b - mag b)

/-- R193: the relation of `cmp`. -/
def stageRel (ty r : Nat) (x b : Lane) : Bool :=
  if 6 ≤ ty then
    let f := tyFmt ty
    let m := 2 ^ (1 + f.eb + f.p)
    f.rel r (x.toNat % m) (b.toNat % m)
  else
    let xv := tyVal ty x
    let bv := tyVal ty b
    if r = 0 then xv == bv else if r = 1 then xv != bv else if r = 2 then decide (xv < bv)
    else if r = 3 then decide (xv ≤ bv) else if r = 4 then decide (bv < xv) else decide (bv ≤ xv)

/-! ## Conversions (R197) -/

/-- The result of a conversion: the lane, and what it adds to SATS and NANCVT. -/
structure CvtRes where
  lane : Lane
  sat : Nat := 0
  nan : Nat := 0
  deriving DecidableEq, Repr

/-- The source value of a lane. -/
def cvtSource (code : Nat) (x : Lane) : FV :=
  let int (v : Int) : FV := .fin (decide (v < 0)) v.natAbs 0
  match ffmtOf code with
  | some f => f.decode (x.toNat % 2 ^ (1 + f.eb + f.p))
  | none =>
    if code = 0x2 then int (sgn 8 x.toNat)
    else if code = 0x8 then int (sgn 32 x.toNat)
    else if code = 0x9 then int (sgn 16 x.toNat)
    else if code = 0xA then int (x.toNat % 256 : Nat)
    else if x.toNat % 256 = 0xFF then .nan
    else .fin false 1 ((x.toNat % 256 : Nat) - 127 : Int)

/-- The conversion to a floating-point format. -/
def cvtFloat (f : FFmt) (rnd : Nat) (v : FV) : CvtRes :=
  let lane (n : Nat) : Lane := BitVec.ofNat 32 n
  let big (s : Bool) : CvtRes := ⟨lane (f.maxPat + f.sign s), 1, 0⟩
  match v with
  | .nan => if f.spec = 0 then ⟨0, 0, 1⟩ else ⟨lane f.nan, 0, 0⟩
  | .inf s =>
    if rnd = 2 ∨ f.spec = 0 then big s else if f.spec = 1 then ⟨0x7F, 0, 0⟩ else ⟨lane (f.inf s), 0, 0⟩
  | .fin s m e =>
    let pat := f.pattern (roundMag (if rnd = 1 then .zero else .near) f.p f.emin m e)
    if pat ≤ f.maxPat then ⟨lane (pat + f.sign s), 0, 0⟩
    else if rnd ≠ 0 ∨ f.spec = 0 then big s
    else if f.spec = 1 then ⟨0x7F, 0, 0⟩
    else ⟨lane (f.inf s), 0, 0⟩

/-- The conversion to an integer of `w` bits. -/
def cvtInt (w : Nat) (signed : Bool) (rnd : Nat) (v : FV) : CvtRes :=
  let lo : Int := if signed then -(2 ^ (w - 1)) else 0
  let hi : Int := if signed then 2 ^ (w - 1) - 1 else 2 ^ w - 1
  let lane (n : Int) : Lane := if signed then BitVec.ofInt 32 n else BitVec.ofNat 32 (unsgn w n)
  match v with
  | .nan => ⟨0, 0, 1⟩
  | .inf s => ⟨lane (if s then lo else hi), 1, 0⟩
  | .fin s m e =>
    let q := if 0 ≤ e then m * 2 ^ e.toNat else shiftRnd (if rnd = 1 then .zero else .near) m (-e).toNat
    let n : Int := if s then -(q : Int) else q
    if n < lo then ⟨lane lo, 1, 0⟩ else if hi < n then ⟨lane hi, 1, 0⟩ else ⟨lane n, 0, 0⟩

/-- The conversion to E8M0. -/
def cvtE8m0 (v : FV) : CvtRes :=
  match v with
  | .nan | .inf _ => ⟨0xFF, 0, 0⟩
  | .fin _ m e =>
    if m = 0 then ⟨0, 0, 0⟩
    else
      let x : Int := e + Nat.log2 m + 127
      if x < 0 then ⟨0, 1, 0⟩ else if 0xFE < x then ⟨0xFE, 1, 0⟩ else ⟨BitVec.ofInt 32 x, 0, 0⟩

/-- R197: `cvt` at one lane. -/
def cvtLane (imm rnd : Nat) (x : Lane) : CvtRes :=
  let dst := bits imm 3 0
  let v := cvtSource (bits imm 7 4) x
  match ffmtOf dst with
  | some f => cvtFloat f rnd v
  | none =>
    if dst = 0x2 then cvtInt 8 true rnd v
    else if dst = 0x8 then cvtInt 32 true rnd v
    else if dst = 0x9 then cvtInt 16 true rnd v
    else if dst = 0xA then cvtInt 8 false rnd v
    else cvtE8m0 v

/-! ## A row in the chain -/

/-- A row between stages: lanes, mask, and what it has counted. -/
structure ChainRow where
  lanes : List Lane
  mask : List Bool
  sats : Nat := 0
  nans : Nat := 0
  count : Nat := 0
  deriving DecidableEq, Repr

/-- One level of a pairwise tree (R194): op(y_2j, y_2j+1), and the saturations. -/
def pairs (op : Lane → Lane → Lane × Nat) : List Lane → List Lane × Nat
  | a :: b :: l => let (r, n) := op a b; let (rs, m) := pairs op l; (r :: rs, n + m)
  | l => (l, 0)

/-- The tree of a group: `n` levels. -/
def treeRed (op : Lane → Lane → Lane × Nat) : Nat → List Lane → Lane × Nat
  | 0, l => (l.headD 0, 0)
  | n + 1, l => let (l', k) := pairs op l; let (r, m) := treeRed op n l'; (r, k + m)

/-- R194: the operation of a group reduction. -/
def hredOp (ty rnd op : Nat) (a b : Lane) : Lane × Nat :=
  if op = 0 then (fadd32 a b, 0)
  else if op = 1 then (BitVec.ofNat 32 (fFP32.minmax true a.toNat b.toNat), 0)
  else if op = 2 then intReduce ty rnd (tyVal ty a + tyVal ty b)
  else intStage 0x05 ty 0 a b

/-- R194: `hred`. -/
def hredRow (w : BitVec 46) (r : ChainRow) : ChainRow :=
  let p := swParam w
  let lg := 3 + bits p 1 0
  let g := 2 ^ lg
  let groups := (List.range (64 / g)).map fun k => treeRed (hredOp (swTy w) (swRnd w) (bits p 3 2)) lg
    (((r.lanes.drop (g * k)).take g).map fun x => if bits p 3 2 < 2 then x else tyLane (swTy w) x.toNat)
  { r with
    lanes := groups.flatMap fun v => List.replicate g v.1
    sats := r.sats + (groups.filter fun v => v.2 != 0).length * g }

/-- R200: `cmpr`. -/
def cmprRow (r : ChainRow) : ChainRow :=
  let kept := ((r.lanes.zip r.mask).filter (·.2)).map (·.1)
  let c := kept.length
  { r with lanes := kept ++ List.replicate (64 - c) 0, mask := (List.range 64).map fun i => decide (i < c)
           count := r.count + c }

/-- R201: the lanes of `expd`: the next value of `src` for each set mask bit. -/
def expdLanes : List Bool → List Lane → List Lane
  | [], _ => []
  | true :: ms, x :: xs => x :: expdLanes ms xs
  | true :: ms, [] => 0 :: expdLanes ms []
  | false :: ms, xs => 0 :: expdLanes ms xs

/-- A stage that gives each lane a value of its own and counts saturations. -/
def ChainRow.mapLanes (r : ChainRow) (b c : List Lane) (f : Lane → Lane → Lane → CvtRes) : ChainRow :=
  let v := List.zipWith (fun x bc => f x bc.1 bc.2) r.lanes (b.zip c)
  { r with lanes := v.map (·.lane), sats := r.sats + (v.map (·.sat)).sum, nans := r.nans + (v.map (·.nan)).sum }

/-- R189 to R201: one stage, with its operands B and C at each lane. -/
def stageRow (w : BitVec 46) (b c : List Lane) (r : ChainRow) : ChainRow :=
  let sop := swSop w
  let ty := swTy w
  let p := swParam w
  if sop = 0x00 then r
  else if sop ≤ 0x0B then
    r.mapLanes b c fun x b _ => let v := intStage sop ty (swRnd w) x b; ⟨v.1, v.2, 0⟩
  else if 0x10 ≤ sop ∧ sop ≤ 0x16 then r.mapLanes b c fun x b c => ⟨fltStage sop ty p x b c, 0, 0⟩
  else if sop = 0x18 then
    let q := List.zipWith (stageRel ty (bits p 2 0)) r.lanes b
    { r with mask := List.zipWith (fun m q => if bits p 4 3 = 0 then q else if bits p 4 3 = 1 then m && q else m || q)
                       r.mask q }
  else if sop = 0x19 then
    { r with lanes := List.zipWith (fun (x : Lane × Lane) m => if m then x.1 else x.2) (r.lanes.zip b) r.mask }
  else if sop = 0x1A then { r with mask := b.map fun v => v.getLsbD 0 }
  else if sop = 0x1B then { r with mask := r.mask.map (!·) }
  else if sop = 0x20 then
    r.mapLanes b c fun x _ _ =>
      ⟨if ty = 7 then BitVec.ofNat 32 (fp32ToBf16 (tab32 p (bf16ToFp32 x.toNat))) else tab32 p x, 0, 0⟩
  else if sop = 0x24 then r.mapLanes b c fun x _ _ => cvtLane (swImm w) (swRnd w) x
  else if sop = 0x28 then hredRow w r
  else if sop = 0x2C then cmprRow r
  else { r with lanes := expdLanes r.mask r.lanes }

/-- The stages of a run in order, each with its operands. -/
def runStages (aux : List Lane) : List (BitVec 46) → List (List Lane) → List (List Lane) → ChainRow → ChainRow
  | w :: ws, b :: bs, c :: cs, r =>
    runStages aux ws bs cs (stageRow w (if swBsrc w = 3 then aux else b) c r)
  | _, _, _, r => r

/-- R198: a row through its run: every row enters with M all ones. -/
def VRunSt.row (u : VRunSt) (lanes aux : List Lane) : ChainRow :=
  runStages aux u.words u.opB u.opC { lanes := lanes, mask := List.replicate 64 true }

/-! ## Issue (R181 to R186, R190, R204) -/

/-- A vector register's lanes. -/
def Tile.vreg (t : Tile) (n : Nat) : List Lane := (List.range 64).map fun i => mget t.vregs (64 * n + i) 0

/-- A vector register set, lanes with a false mask kept. -/
def Tile.setVreg (t : Tile) (n : Nat) (v : List Lane) (mask : List Bool) : Tile :=
  { t with vregs := ((v.zip mask).zipIdx).foldl (fun m x =>
      if x.1.2 then mput m (64 * n + x.2) x.1.1 else m) t.vregs }

/-- A scalar broadcast (R186). -/
def bcastLanes (ty : Nat) (v : Word) : List Lane :=
  List.replicate 64 (BitVec.ofNat 32 (if ty = 7 then v.toNat % 2 ^ 16 else v.toNat))

/-- R186: operand B of a stage as latched. -/
def Tile.opB (t : Tile) (w : BitVec 46) : List Lane :=
  let ty := swTy w
  if !swUsesB w || swBsrc w == 3 then List.replicate 64 0
  else if swSop w = 0x1A then (List.range 64).map fun i => if (t.s (swBreg w)).getLsbD i then 1 else 0
  else if swBsrc w = 0 then t.vreg (swBreg w)
  else if swBsrc w = 1 then bcastLanes ty (t.s (swBreg w))
  else
    let i := swImm w
    List.replicate 64 (if ty = 6 then BitVec.ofNat 32 (i * 2 ^ 16) else if ty ≤ 2 then BitVec.ofInt 32 (sgn 16 i)
      else BitVec.ofNat 32 i)

/-- R186: operand C of `fma` as latched. -/
def Tile.opC (t : Tile) (w : BitVec 46) : List Lane :=
  if swSop w ≠ 0x13 then List.replicate 64 0
  else if swCsel w = 1 then bcastLanes (swTy w) (t.s (swCreg w)) else t.vreg (swCreg w)

/-- R190: a run's stages with those beyond the first of a limited kind as `pass`. -/
def limitStages (mul tab cmpr : Bool) : List (BitVec 46) → List (BitVec 46)
  | [] => []
  | w :: ws =>
    let o := swSop w
    let m := o == 0x03 || o == 0x12 || o == 0x13
    let tb := o == 0x20
    let c := o == 0x2C
    (if (m && mul) || (tb && tab) || (c && cmpr) then 0 else w)
      :: limitStages (mul || m) (tab || tb) (cmpr || c) ws

/-- The rows of a transposed block (R101, R184): row `k` of the block of 32 rows of 32 bytes, elements of `w` bytes. -/
def transRow (w k : Nat) (block : List Byte) : List Lane :=
  (List.range 64).map fun e =>
    let l := 64 * k + e
    BitVec.ofNat 32 (leNat ((block.drop (32 * (l % 32) + w * (l / 32))).take w))

/-- The rows a source read gives, from row `r` on (R184): one row, or the rows of a transposed block. -/
def srcRows (f : VrunF) (r : Nat) (bs : List Byte) : List (Nat × List Lane) :=
  let w := ewBits f.iw
  if f.src.val = 2 then (List.range (16 / (w / 8))).map fun k => (r + k, transRow (w / 8) k bs)
  else [(r, (List.range 64).map fun i => BitVec.ofNat 32 (elemAt w bs i))]

/-- R204, R205: the timing a `vrun` leaves, suppressed or not. -/
def State.vrunBusy (s : State) (y : Nat) (f : VrunF) (e0 : Nat) : State :=
  let w0 := e0 + s.vrunLat y f
  s.modTile y fun t =>
    { t with
      vlastIn := e0 + f.rcnt + 1
      vlastOut := w0 + f.rcnt + 1
      vpend := (t.vpend.filter fun p => decide (s.sched ≤ p.2)) ++
        if f.sink.val = 1 then (List.range (f.rcnt + 1)).map fun r => (f.out.val + r, w0 + r) else [] }

/-- R181, R182: `vdef` writes one stage word. -/
def execVdef (t : Xy) (pr : Fin 16) (chain stage : Fin 8) (word : BitVec 46) (s : State) : Out :=
  s.slotOut t (.vdef t pr chain stage word) fun s =>
    s.modTile (tIx t) fun T => { T with chains := mput T.chains (8 * chain + stage) word }

/-- R183 to R186: `vrun` latches its chain and operands and reads its rows. -/
def execVrun (t : Xy) (pr : Fin 16) (f : VrunF) (s : State) : Out :=
  let y := tIx t
  let i : Instr := .vrun t pr f
  let e0 := s.vrunEntry y i i
  s.slotOut t i (supp := fun s => (s.vrunBusy y f e0).suppBusy y (e0 + s.vrunLat y f + f.rcnt - s.sched)) fun s =>
    let T := s.tile y
    let pc := T.issuePc
    let words := T.stages f
    let lim := limitStages false false false words
    let id := s.nextId + 1
    let w0 := e0 + s.vrunLat y f
    let o := T.agAcc f.out true []
    let u : VRunSt :=
      { id := id, words := lim, opB := lim.map T.opB, opC := lim.map T.opC, f := f, outHandle := o.h,
        outHnd := s.hnd y o.h, outOff := T.agAddr f.out, outSpace := o.space, pc := pc, chainOp := if f.src.val = 3 then T.chainOp else 0 }
    let s := (T.vsrcAccs f).foldl (fun s a => s.pushReq y (e0 + a.1) 6 a.2 (.src id a.1)) s
    let s := ((T.auxAccs f).zipIdx).foldl (fun s a => s.pushReq y (e0 + a.2) 7 a.1 (.aux id a.2)) s
    let rb := 8 * ewBits f.ow
    let s := if f.sink.val = 0 then (List.range (f.rcnt + 1)).foldl
        (fun s r => s.pushReq y (w0 + r) 5 (T.agAcc f.out true [⟨u.outOff + rb * r, rb⟩]) (.sink id r)) s else s
    let reg (r : Nat) : Option Nat := if f.src.val = 4 then some (f.inp + r) else none
    let aux : Option (List Lane) := if f.auxen then none else some (List.replicate 64 0)
    let rows := (List.range (f.rcnt + 1)).map fun r =>
      ({ due := w0 + r, run := id, r := r, lanes := none, aux := aux, last := r == f.rcnt.val, enters := e0 + r, reg := reg r } : VRow)
    let s := s.modTile y fun t =>
      { t with
        vruns := t.vruns ++ [u]
        vrows := t.vrows ++ rows
        outs := if f.sc.val = 0 then t.outs else t.outs ++ [⟨w0 + f.rcnt + 1, false, f.sc, 0, false, id⟩] }
    let s := { s with nextId := id }
    let s := if lim = words then s else s.vFault y 0x0230 pc
    s.vrunBusy y f e0

/-! ## The sink (R187, R200, R204) -/

/-- The bytes of a packed row of lanes of `w` bits (R146). -/
def packRow (w : Nat) (lanes : List Lane) : List Byte :=
  leBytes (8 * w) (lanes.foldr (fun x a => x.toNat % 2 ^ w + 2 ^ w * a) 0)

/-- The bytes of a masked write: those of lanes whose M bit is 0 are kept. -/
def maskBytes (w : Nat) (bs : List Byte) (mask : List Bool) : List (Option Byte) :=
  (bs.zipIdx).map fun b => if mask.getD (b.2 / (w / 8)) false then some b.1 else none

/-- The run's count, and s[sc] once its last row is written (R200, R204). -/
def Tile.runDone (t : Tile) (c : Nat) (u : VRunSt) (v : VRow) (n : Nat) : Tile :=
  let t := { t with vrows := t.vrows.filter fun x => !(x.run == v.run && x.r == v.r) }
  if v.last then
    { t with
      vruns := t.vruns.filter fun x => x.id != u.id
      outs := t.outs.map fun o =>
        if o.run = u.id then { o with run := 0, due := c + 1, val := BitVec.ofNat 64 (u.count + n) } else o }
  else { t with vruns := t.vruns.map fun x => if x.id = u.id then { x with count := x.count + n } else x }

/-- R204: the rows that have entered by cycle `c` from vector registers hold what their registers held then. -/
def Tile.enterRows (t : Tile) (c : Nat) : Tile :=
  { t with vrows := t.vrows.map fun v =>
      match v.lanes, v.reg with
      | none, some n => if v.enters ≤ c then { v with lanes := some (t.vreg n) } else v
      | _, _ => v }

/-- R187, R204: VRUN_ROW_WRITE: the next row due passes its stages and is written by its sink, once TRIPLE_ISSUE has served
the sink's access. -/
def execVrunRowWrite (t : Xy) (s : State) : Out :=
  .next <|
    let y := tIx t
    if s.held then s
    else
      let s := s.modTile y fun T => T.enterRows s.sched
      let T := s.tile y
      match T.vrows.find? fun v => decide (v.due ≤ s.sched) with
      | none => s
      | some v =>
        match v.lanes, v.aux, T.vruns.find? fun u => u.id == v.run with
        | some lanes, some aux, some u =>
          if T.queued (.sink u.id v.r) then s
          else
            let r := u.row lanes aux
            let rb := 8 * ewBits u.f.ow
            let off := u.outOff + rb * v.r
            let s := s.modTile y fun t => t.runDone s.sched u v r.count
            let s := (s.satAdd F.tilVstat_sats y r.sats).satAdd F.tilVstat_nancvt y r.nans
            if u.f.sink.val = 0 then
              let bs := packRow (ewBits u.f.ow) r.lanes
              if u.f.mskw then
                s.spWriteMasked y u.pc u.outHandle u.outHnd u.outSpace off (maskBytes (ewBits u.f.ow) bs r.mask)
              else s.spWriteE y u.pc u.outHandle u.outHnd u.outSpace off bs
            else if u.f.sink.val = 1 then
              s.modTile y fun t =>
                t.setVreg (u.f.out + v.r) r.lanes (if u.f.mskw then r.mask else List.replicate 64 true)
            else s
        | _, _, _ => s

/-! ## The reads of the engines (R160, R162, R184, R185) -/

/-- What the bytes an engine has read become. -/
def Tile.take (t : Tile) (job : AccUse) (bs : List Byte) : Tile :=
  match job with
  | .block b => let w := mget t.wbufs b {}; { t with wbufs := mput t.wbufs b { w with block := w.block ++ bs } }
  | .scales b => let w := mget t.wbufs b {}; { t with wbufs := mput t.wbufs b { w with scales := bs } }
  | .act op rows => { t with muls := t.muls.map fun m =>
      if m.op = op then
        let rb := bs.length / rows.length
        { m with act := (rows.zipIdx).foldl (fun a r => mput a r.1 (mget a r.1 [] ++ (bs.drop (rb * r.2)).take rb)) m.act }
      else m }
  | .actScale op q => { t with muls := t.muls.map fun m =>
      if m.op = op then
        let scl := mput m.scl (2 * q) (bs.take 2)
        { m with scl := if bs.length = 4 then mput scl (2 * q + 1) (bs.drop 2) else scl }
      else m }
  | .src run r =>
    match t.vruns.find? fun u => u.id == run with
    | some u =>
      let rows := srcRows u.f r bs
      { t with vrows := t.vrows.map fun v =>
          if v.run = run then
            match rows.find? fun x => x.1 == v.r with | some x => { v with lanes := some x.2 } | none => v
          else v }
    | none => t
  | .aux run r => { t with vrows := t.vrows.map fun v =>
      if v.run = run ∧ v.r = r then
        { v with aux := some ((List.range 64).map fun i => BitVec.ofNat 32 (elemAt 32 bs i)) } else v }
  | .unused | .drain .. | .sink .. | .source .. | .load .. | .store .. => t

/-- An access whose bank words are all served: an engine's read takes its bytes, an engine's write waits for its own command, and
a deferred load or store of an S slot takes place. -/
def State.accServed (s : State) (y : Nat) (q : BankReq) : State :=
  match q.job with
  | .drain .. | .sink .. | .source .. => s
  | .load sd ctl => s.loadNow y q.pc q.hnd q.acc ctl sd
  | .store v ctl => s.storeWord y q.pc q.hnd q.acc ctl v
  | _ =>
    let (s, bs) := s.spReadE y q.pc q.acc.h q.hnd q.acc.space q.acc.sps
    s.modTile y fun t => t.take q.job bs

end Sys2Proof.Machine
end

