-- ==== Sys2Proof/Machine/Issue.lean ====
section
/-! DEFINITION. The issue of a triple (R53 to R60, R66, R67, R83, R99, R110, R240). -/

namespace Sys2Proof.Machine

/-- What a cycle's service of the pending accesses gives: the state, the banks taken, the accesses that remain, and why they
wait. -/
structure Served where
  s : State
  used : List Nat
  left : List BankReq := []
  waits : List Wait := []

/-- R99, R109, R110, R170, R206: the due accesses are served in order: the test of the full bits once, then a word a bank in
each cycle; one whose last word is served takes effect, and one that has served none yet has not begun. -/
def serveReqs (y : Nat) : List BankReq → Served → Served
  | [], r => r
  | q :: qs, r =>
    if r.s.reqWaits y q then serveReqs y qs { r with left := r.left ++ [q], waits := r.waits ++ [.slot] }
    else
      let ws := q.left.getD (q.acc.banks q.hnd)
      let w := serveWords ws r.used
      if w.2.isEmpty then serveReqs y qs { r with s := r.s.accServed y q, used := w.1 }
      else
        let q' := if w.2.length = ws.length then q else { q with left := some w.2, began := if q.left.isSome then q.began else r.s.cnt }
        serveReqs y qs { r with used := w.1, left := r.left ++ [q'], waits := r.waits ++ [.bank] }

/-- The requests of a place in the order put before those of later places. -/
def sortPrio (qs : List BankReq) : List BankReq :=
  (List.range 10).flatMap fun p => qs.filter fun q => q.prio == p

/-- R86: the triple the tile issues at `pc`: three `nop`s in place of a lost one. -/
def State.tripleAt (s : State) (t : Xy) (pc : Nat) : BitVec 192 :=
  if (s.tile (tIx t)).lostPc.contains pc then 0 else (s.textOf t).getD pc 0

/-- The three commands of a triple; three `nop`s for one no loaded plan holds. -/
def slotsAt (t : Xy) (w : BitVec 192) : Instr × Instr × Instr :=
  (decodeTriple t w).getD (.nop t .s 0, .nop t .v 0, .nop t .x 0)

/-- R83: the text block of the tile's next triple has been broadcast, so that it may issue now. -/
def State.textReady (s : State) (t : Xy) (pc : Nat) : Bool :=
  !streamedLen (s.textOf t).length || decide (pc < 1024)
    || (s.tile (tIx t)).bcastAt.any fun b => b.1 == pc / 16 && decide (b.2.1 < s.sched)

/-- R240: the lateness of a tile after cycles of a wait for a text block whose scheduled part ends `base` + λ: each later cycle
is a slip, and each that is one for another reason, which moves the scheduled part on. -/
def textLate (base : Nat) (slips : List Nat) : List Nat → Nat → Nat
  | [], late => late
  | c :: cs, late => textLate base slips cs (if slips.contains c ∨ base + late < c then late + 1 else late)

/-- R83, R240: the position of a block's coming broadcast, once it follows from the blocks staged, the free ring positions and the
position after the last broadcast. -/
def comingPos (block : Nat) : List Staged → List (Nat × Nat) → Nat → Option Nat
  | b :: bs, f :: fs, last =>
    let bk := max (max b.land last) f.2
    if b.block = block then some bk else comingPos block bs fs (bk + 1)
  | _, _, _ => none

/-- R240: the position b_k of a text block of a tile's plan, when it is known: of its broadcast, or of the one to come. -/
def State.blockPos (s : State) (t : Xy) (block : Nat) : Option Nat :=
  match (s.tile (tIx t)).bcastAt.find? fun b => b.1 == block with
  | some b => some b.2.2
  | none => let v := s.gal (galOf t); comingPos block v.staged v.ringFree v.lastB

/-- R240: the lateness of a tile with its wait for a text block until cycle `c`: the cycles after τ0 + λ + b_k are slips, as soon as
b_k is known. -/
def State.lateThrough (s : State) (t : Xy) (block c : Nat) (w : TextWait) : Nat :=
  match s.blockPos t block with
  | some bk => textLate ((s.region (s.regionOf t)).t0 + bk) w.slips ((List.range (c + 1 - w.first)).map (w.first + ·)) w.late
  | none => w.late + w.slips.length

/-- R240: a wait for a text block that has now come ends, with the lateness it has brought. -/
def State.textCome (s : State) (t : Xy) (pc : Nat) : State :=
  let T := s.tile (tIx t)
  let late := match T.textFrom, T.bcastAt.find? fun b => b.1 == pc / 16 with
    | some w, some b => s.lateThrough t (pc / 16) b.2.1 w
    | _, _ => T.late
  s.modTile (tIx t) fun T => { T with textFrom := none, late := max T.late late }

/-- R99: banks of accesses made in the issue cycle itself. -/
def State.issueBanks (s : State) (y : Nat) (i : Instr) : List Nat :=
  if accessesAtIssue i && (s.tile y).acts i then (s.ownAccs y i).flatMap (s.accBanks y) else []

/-- The tile's triple at `pc` issues, and the slots' commands act in this cycle; R67 moves the counter after them.  `stall`: its
S access is deferred. -/
def State.issueTriple (s : State) (t : Xy) (stall : Bool) : State :=
  let y := tIx t
  let T := s.tile y
  let s := if T.lostPc.contains T.pc then s.modRegion (s.regionOf t) fun r => { r with loss := true } else s
  (s.modTile y fun T =>
    { T with issuePc := T.pc, moved := false, lastAt := s.sched + 1, waiting := false, qw := none, stall := stall }).releaseRing t

/-- The accesses of a tile's own slots and engines that are due are served; when one of the engines waits, the engines advance
nothing (R170, R206).  An S access deferred behind its X access is a wait of the cycle it is served in too (R99). -/
def State.serveTile (s : State) (y : Nat) : Served :=
  let T := s.tile y
  let due := sortPrio (T.bankq.filter fun q => decide (q.due ≤ s.sched))
  let r := serveReqs y due ⟨s, s.banksUsed y, [], []⟩
  let t := r.s.modTile y fun T =>
    { T with
      bankq := r.left ++ T.bankq.filter fun q => !decide (q.due ≤ s.sched)
      bankAt := s.sched + 1, bankUsed := r.used
      stall := r.left.any fun q => q.prio == 8 }
  { r with
    s := if r.left.any BankReq.ofPipes then t.modTile y (Tile.stallAt s.sched) else t
    waits := if T.stall && !(r.left.any fun q => q.prio == 8) then .bank :: r.waits else r.waits }

/-- A cycle of a wait for a text block: a scheduled wait, but for what else makes it a slip, and a slip after τ0 + λ + b_k (R83,
R237, R240). -/
def State.textWait (s : State) (t : Xy) (block : Nat) (ws : List Wait) : State :=
  let y := tIx t
  let w := ((s.tile y).textFrom).getD ⟨s.sched, (s.tile y).late, []⟩
  let w := if ws.isEmpty then w else { w with slips := w.slips ++ [s.sched] }
  let late := s.lateThrough t block s.sched w
  ((s.modTile y fun T => { T with textFrom := some w }).slip y (if ws.isEmpty then [.sched] else ws)).modTile y fun T =>
    { T with late := max T.late late }

/-! ## The order of the requests of one cycle (R217) -/

/-- The request that the queue operation of an X slot places: whether it writes, and its slots. -/
def requestOf : Instr → Option (Bool × QueueF)
  | .qrd _ _ f => some (false, f)
  | .qwr _ _ f => some (true, f)
  | _ => none

/-- R217: a gallery's queue takes the requests of one cycle in increasing tile index: while it could not take one more of each tile, a
request waits until TRIPLE_ISSUE has come to the tiles before its own. -/
def State.queueTurn (s : State) (t : Xy) (x : Instr) : Bool :=
  let g := galOf t
  (requestOf x).isNone || decide (s.qEntries g + 16 ≤ 1024 ∧ s.qStore g + 256 ≤ 1024)
    || (s.activeOf g).all fun u =>
      decide (tInGal t ≤ tInGal u) || !(s.tile (tIx u)).inInv || (s.tile (tIx u)).lastAt == s.sched + 1

/-- R219: the operation's generators, addresses and handle are valid. -/
def State.queueOk (s : State) (y : Nat) (f : QueueF) : Bool :=
  let t := s.tile y
  let n := 512 * qSlots f.size
  let e := t.agAddr f.agExt
  let l := t.agAddr f.agLoc
  (t.gen f.agExt).space && e % 64 == 0 && s.inRegionSpace e n && !(t.gen f.agLoc).space && l % 512 == 0
    && (s.hnd y (t.gen f.agLoc).handle).inRange ⟨l, n⟩

/-- R217: the queue accepts the request of the triple that issues. -/
def State.askQueue (s : State) (y : Nat) (x : Instr) : State :=
  match requestOf x with
  | some (wr, f) =>
    if (s.tile y).acts x && s.queueOk y f then
      s.modGal (galOf (xyOf y)) fun v =>
        { v with asked := (v.asked.filter fun q => q.1 == s.sched + 1) ++ [(s.sched + 1, y, wr, qSlots f.size)] }
    else s
  | none => s

/-- R53: TRIPLE_ISSUE: in an unheld cycle of an invocation the accesses of the tile's engines are served, and the tile issues
its next triple, or issues nothing while a condition of R237 is not met or its text has ended.  Between the end of its issue and
the end of the invocation, TIL_STATE.RUN reads 2 (DESIGN CHOICE, notes/assumptions/60.md). -/
def execTripleIssue (t : Xy) (s : State) : Out :=
  .next <|
    let y := tIx t
    let T := (s.tile y).advance
    if !T.inInv || s.held || T.lastAt == s.sched + 1
        || !s.queueTurn t (slotsAt t (s.tripleAt t T.pc)).2.2 then s
    else
      let r := (s.setTile y T).serveTile y
      let s := r.s
      let T := s.tile y
      if (s.textOf t).length ≤ T.pc then
        s.slip y (if r.waits.isEmpty then [.sched] else r.waits)
      else if !s.textReady t T.pc then s.textWait t (T.pc / 16) r.waits
      else
        let s := s.textCome t T.pc
        let (si, vi, xi) := slotsAt t (s.tripleAt t T.pc)
        let xb := s.issueBanks y xi
        let behind := (s.issueBanks y si).any xb.contains
        let own := if behind then xb else xb ++ s.issueBanks y si
        let e0 := s.vrunEntry y vi xi
        let sw := (s.waitsOf y e0 si).filter fun w => !(behind && w == .slot)
        let ws := sw ++ s.waitsOf y e0 vi ++ s.waitsOf y e0 xi ++ r.waits ++ (if own.any r.used.contains then [.bank] else [])
        if ws.isEmpty then ((s.useBanks y own).askQueue y xi).issueTriple t behind
        else
          (s.modTile y fun T => { T with qw := match xi with | .qwait _ _ m => some (s.qwState y m) | _ => T.qw }).slip y ws

end Sys2Proof.Machine
end

