-- ==== Sys2Proof/Machine/Mesh.lean ====
section
/-! DEFINITION. The mesh: circuits, neighbour transfers, windows, landings and credits (chapter 03). -/

namespace Sys2Proof.Machine

/-! ## Topology (R112 to R115) -/

/-- The far end of a router port: a tile, an I/O die (0 IO-N, 1 IO-S), or nothing. -/
inductive MeshEnd where
  | tile (y : Nat)
  | io (die : Nat)
  | none
  deriving DecidableEq, Repr

/-- The far end of port `d` of tile `y` (R114). -/
def State.farEnd (s : State) (y : Nat) (d : Dir) : MeshEnd :=
  let t := xyOf y
  let onto (u : Xy) : MeshEnd := if s.inMesh u then .tile (tIx u) else .none
  match d with
  | .north => if t.y = 0 then .io 0 else onto ⟨t.x, t.y - 1⟩
  | .south => if t.y = 47 then .io 1 else onto ⟨t.x, t.y + 1⟩
  | .east => onto ⟨t.x + 1, t.y⟩
  | .west => if t.x = 0 then .none else onto ⟨t.x - 1, t.y⟩

/-- The bit of DIE_XSTAT for a crossing in direction `d` (R137). -/
def crossBit : Dir → Nat
  | .west => 0 | .east => 1 | .north => 2 | .south => 2

/-- DIE_XSTAT shows a crossing of a die trained. -/
def State.trained (s : State) (die bit : Nat) : Bool := bits (s.fld F.dieXstat_trained die) bit bit == 1

/-- A hop from `y` in direction `d` is on one die or over a trained crossing (R115). -/
def State.hopTrained (s : State) (y : Nat) (d : Dir) : Bool :=
  let a := dieOf (xyOf y)
  match s.farEnd y d with
  | .tile z =>
    let b := dieOf (xyOf z)
    a == b || (s.trained a (crossBit d) && s.trained b (if d = .west then 1 else if d = .east then 0 else 2))
  | .io _ => s.trained a 3
  | .none => false

/-- The latency of a hop: `pad` delays one on a die (R113). -/
def State.hopLat (s : State) (y : Nat) (d : Dir) (pad : Nat) : Nat :=
  match s.farEnd y d with
  | .tile z => if dieOf (xyOf y) = dieOf (xyOf z) then 1 + pad else 6
  | .io _ => 8
  | .none => 0

/-- The direction with code `n` (R28, R118). -/
def dirOfCode (n : Nat) : Dir := if n = 0 then .north else if n = 1 then .east else if n = 2 then .south else .west

/-- The opposite direction: the input port a packet sent in direction `d` arrives on. -/
def backPort : Dir → Dir
  | .north => .south | .south => .north | .east => .west | .west => .east

/-- The hops of a path from `y`: tile, direction, and D_i; then the end and D_H (R116); `pad` is the pad of a tile's hops on its
die. -/
def State.walk (s : State) (pad : Nat → Nat) : List Nat → Nat → Nat → List (Nat × Dir × Nat) × Nat × Nat
  | [], y, d => ([], y, d)
  | c :: cs, y, d =>
    let r := s.walk pad cs (match s.farEnd y (dirOfCode c) with | .tile z => z | _ => y) (d + s.hopLat y (dirOfCode c) (pad y))
    ((y, dirOfCode c, d) :: r.1, r.2)

/-- The circuit of the held image with an identity. -/
def State.circuit (s : State) (c : Nat) : Option CircRec := s.img.bind fun im => im.circs.find? fun x => x.id == c

/-- A circuit's hops by the latencies of R113, by which its claims are fixed (R116). -/
def State.circHops (s : State) (c : CircRec) : List (Nat × Dir × Nat) × Nat × Nat :=
  s.walk (fun _ => 0) (c.path.take c.hops) (tIx ⟨c.sx, c.sy⟩) 0

/-- The pad in force on the hops a tile's router sends within its die: TIL_PADCTL.HOP (R113). -/
def State.hopPad (s : State) (y : Nat) : Nat := bits (s.tile y).padw.toNat 27 24

/-- The latency of a circuit's path with the pads in force (R113, R119). -/
def State.circLat (s : State) (c : CircRec) : Nat :=
  (s.walk s.hopPad (c.path.take c.hops) (tIx ⟨c.sx, c.sy⟩) 0).2.2

/-- R116, R310: output port `d` of tile `y` is claimed in slot `k`: by a circuit, or by a mesh grant of the die. -/
def State.claimed (s : State) (y : Nat) (d : Dir) (k : Nat) : Bool :=
  match s.img with
  | none => false
  | some im =>
    im.circs.any (fun c => (s.circHops c).1.any fun h => h.1 == y && h.2.1 == d && k % c.period == (c.phase + h.2.2) % c.period)
      || im.grants.any fun g => g.res == 0 && g.die == dieOf (xyOf y) && k % g.period == g.phase

/-- A window slot (R116). -/
def windowSlot (k : Nat) : Bool := k % 8 == 7

/-! ## Packets -/

/-- A packet of the mesh changed. -/
def State.modPkt (s : State) (id : Nat) (f : MPkt → MPkt) : State :=
  { s with mpkts := s.mpkts.map fun p => if p.id = id then f p else p }

/-- A packet leaves the mesh. -/
def State.dropPkt (s : State) (id : Nat) : State := { s with mpkts := s.mpkts.filter fun p => p.id != id }

/-- A packet enters the mesh; `p.id` becomes a new identity. -/
def State.newPkt (s : State) (p : MPkt) : State :=
  { s with mpkts := s.mpkts ++ [{ p with id := s.nextId }], nextId := s.nextId + 1 }

def State.pkt (s : State) (id : Nat) : Option MPkt := s.mpkts.find? fun p => p.id == id

/-- The unit of an output port in an occupancy level (R251). -/
def portUnit (y : Nat) (d : Dir) : Nat := 4 * y + dirCode d

/-- The source access of a `cput`, `nput` or `wput`: its bytes read in the issue cycle. -/
def State.meshRead (s : State) (y : Nat) (i : Instr) : State × List Byte :=
  s.readAll y (s.tile y).issuePc (s.ownAccs y i)

/-! ## cput and nput (R118 to R123) -/

/-- R119: `cput`. -/
def execCput (t : Xy) (pr : Fin 16) (sa : Fin 32) (agSrc agDst : Fin 16) (dh : Fin 64) (s : State) : Out :=
  let i : Instr := .cput t pr sa agSrc agDst dh
  let y := tIx t
  s.slotOut t i fun s =>
    let T := s.tile y
    let c := bits (T.s sa).toNat 15 0
    match s.circuit c with
    | some k =>
      if tIx ⟨k.sx, k.sy⟩ = y then
        let (s, bs) := s.meshRead y i
        (s.modTile y fun T => { T with credCirc := mput T.credCirc c (mget T.credCirc c 8 - 1) }).newPkt
          { id := 0, kind := .circuit, src := y, dst := tIx ⟨k.dx, k.dy⟩, circ := c, data := bs, handle := dh,
            off := T.agAddr agDst / 64 * 64, pc := T.issuePc, issued := s.sched }
      else s.meshFault y T.issuePc dh (T.agAddr agDst / 64 * 64)
    | none => s.meshFault y T.issuePc dh (T.agAddr agDst / 64 * 64)

/-- R122: where an `nput` may go: an active neighbour over a usable hop, or an I/O die. -/
def State.nputEnd (s : State) (y : Nat) (d : Dir) : MeshEnd :=
  if s.hopTrained y d then
    match s.farEnd y d with
    | .tile z => if s.role (xyOf z) = 1 then .tile z else .none
    | e => e
  else .none

/-- R120, R398: `nput`; toward an I/O die DHANDLE names the egress stream. -/
def execNput (t : Xy) (pr : Fin 16) (dir : Dir) (agSrc agDst : Fin 16) (dh : Fin 64) (s : State) : Out :=
  let i : Instr := .nput t pr dir agSrc agDst dh
  let y := tIx t
  s.slotOut t i fun s =>
    let T := s.tile y
    let go (s : State) (kind : MKind) (dst : Nat) : State :=
      let (s, bs) := s.meshRead y i
      (s.modTile y fun T =>
        { T with credPort := mput T.credPort (dirCode dir) (mget T.credPort (dirCode dir) 8 - 1) }).newPkt
        { id := 0, kind := kind, src := y, dst := dst, dir := dir, data := bs, handle := dh,
          off := T.agAddr agDst / 64 * 64, pc := T.issuePc, issued := s.sched }
    match s.nputEnd y dir with
    | .tile z => go s .neighbour z
    | .io d => go s .egress d
    | .none => s.meshFault y T.issuePc dh (T.agAddr agDst / 64 * 64)

/-- R119, R120: the packet departs in the first cycle after its issue whose slot it may use. -/
def State.depart (s : State) (p : MPkt) : State :=
  let go (lat : Nat) (ports : List (Nat × Dir)) : State :=
    ports.foldl (fun s q => s.occAdd 1 (portUnit q.1 q.2) 1) <|
      s.modPkt p.id fun p => { p with depart := some s.sched, path := lat, land := s.sched + lat + 1 }
  match p.kind with
  | .circuit =>
    match s.circuit p.circ with
    | some c =>
      if s.slotCtr % c.period = c.phase then go (s.circLat c) ((s.circHops c).1.map fun h => (h.1, h.2.1)) else s
    | none => s
  | .neighbour | .egress =>
    if windowSlot s.slotCtr || s.claimed p.src p.dir s.slotCtr then s
    else go (s.hopLat p.src p.dir (s.hopPad p.src)) [(p.src, p.dir)]
  | _ => s

/-- PACKET_DEPART (R119, R120). -/
def execPacketDepart (pkt : Nat) (s : State) : Out :=
  .next <| match s.pkt pkt with
    | some p => if s.held || p.depart.isSome || decide (s.sched ≤ p.issued) then s else s.depart p
    | none => s

/-! ## Landings -/

/-- The access of a landing of 64 bytes. -/
def landAcc (h off : Nat) (space : Bool) : OwnAcc := ⟨h, space, true, [⟨off, 64⟩]⟩

/-- A window packet (R124). -/
def MPkt.isWindow (p : MPkt) : Bool := p.kind == .winReq || p.kind == .winReply || p.kind == .winWrite

/-- A packet has reached the router of the tile it is for, and its cycle of landing or service has come. -/
def State.arrived (s : State) (p : MPkt) : Bool :=
  p.depart.isSome && p.landed.isNone && decide (p.land ≤ s.sched) && (!p.isWindow || p.at_ == p.dst)

/-- R126: the right a window access needs on its target. -/
def State.windowRight (s : State) (y h : Nat) (write : Bool) : Bool :=
  s.role (xyOf y) == 1 && (let e := s.hnd y h; if write then e.rwrite else e.rread)

/-- The access a packet makes at its tile when it lands or is served (R119, R120, R125, R311); none for one that makes none
there. -/
def State.pktAcc (s : State) (p : MPkt) : Option OwnAcc :=
  let begun := (s.tile p.dst).bufq.any fun q => q.id == p.id
  match p.kind with
  | .circuit | .neighbour | .edge => some (landAcc p.handle p.off false)
  | .winReply => some (landAcc p.localH p.localOff p.localSpace)
  | .winWrite => if begun || s.windowRight p.dst p.handle true then some (landAcc p.handle p.off false) else none
  | .winReq => if begun || s.windowRight p.dst p.handle false then some ⟨p.handle, false, false, [⟨p.off, 64⟩]⟩ else none
  | .dma => if p.served then none else some ⟨p.handle, false, p.write, [⟨p.off, p.len⟩]⟩
  | .egress => none

/-- The packet's access may be made in this cycle. -/
def State.pktAsks (s : State) (p : MPkt) : Bool :=
  if p.kind = .dma then p.at_ == p.dst && !p.served && decide (p.since < s.sched) else s.arrived p

/-- R99: the place of a landing among those of its tile: 0 to 3 by input port, 4 window service, 5 DMA.  A `wput` lands at its target as
window service (DESIGN CHOICE, notes/assumptions/59.md).  A window's reply lands by its input port, a faulted `wget`'s zeros among window services, a delivery of an I/O die by the port toward it (DEDUCED,
notes/assumptions/59.md). -/
def State.landPlace (s : State) (p : MPkt) : Nat :=
  match p.kind with
  | .circuit => match s.circuit p.circ with
    | some c => dirCode (backPort (dirOfCode ((c.path.take c.hops).getLastD 0)))
    | none => 0
  | .neighbour | .egress => dirCode (backPort p.dir)
  | .edge => if p.dst < 64 then dirCode .north else dirCode .south
  | .winReply => if p.hops = 0 then 4 else dirCode (backPort p.dir)
  | .winReq | .winWrite => 4
  | .dma => 5

/-- The first of two packets in the order of R99; those of one place in the order of their cycles, then of their issue. -/
def State.landsBefore (s : State) (p q : MPkt) : Bool :=
  decide ([s.landPlace p, p.land, p.id] < [s.landPlace q, q.land, q.id])

/-- R99: the banks of a tile that packets before this one in the order need in this cycle. -/
def State.landTaken (s : State) (p : MPkt) : List Nat :=
  s.mpkts.flatMap fun q =>
    if q.id != p.id && q.dst == p.dst && s.pktAsks q && s.landsBefore q p then
      match s.pktAcc q with | some a => s.bufNeeds q.dst q.id a | none => []
    else []

/-- R99: the accesses of the tile's own slots of this cycle have been served, so that those of its buffers may follow. -/
def State.ownServed (s : State) (y : Nat) : Bool := !(s.tile y).inInv || (s.tile y).lastAt == s.sched + 1

/-- R99, R109, R98: 64 bytes land through a handle, or wait in their landing entry. -/
def State.landAt (s : State) (p : MPkt) (h off : Nat) (space : Bool) (done : State → State) : State :=
  if s.ownServed p.dst then
    match s.bufServe p.dst p.id (landAcc h off space) (s.landTaken p) with
    | (t, some e) => done (t.spWriteE p.dst p.pc h e space off p.data)
    | (t, none) => t
  else s

/-- R398: no other unit for the same egress stream has come before a unit, or in the same cycle from a column to its west. -/
def State.egressFirst (s : State) (p : MPkt) : Bool :=
  s.mpkts.all fun q =>
    !(q.kind == .egress && q.dst == p.dst && q.handle == p.handle && q.landed.isNone && s.arrived q
      && (decide (q.land < p.land) || (q.land == p.land && decide ((xyOf q.src).x < (xyOf p.src).x))))

/-- The unit of an egress stream (R398): it waits while the stream holds 128, and for the units that go before it. -/
def State.egressUnit (s : State) (p : MPkt) (done : State → State) : State :=
  let q := mget (s.fdie p.dst).streams p.handle []
  if q.length < 128 ∧ s.egressFirst p then
    done (s.modFdie p.dst fun f => { f with streams := mput f.streams p.handle (q ++ [(s.sched, p.data)]) })
  else s

/-- R126: a window access without its right is recorded on both tiles. -/
def State.noRight (s : State) (p : MPkt) : State := (s.rightsFault p.dst p.pc p.handle p.off).rightsFault p.src p.pc p.handle p.off

/-- A packet lands (R119, R120, R125, R126, R398). -/
def State.landPkt (s : State) (p : MPkt) : State :=
  let landed (s : State) : State := s.modPkt p.id fun p => { p with landed := some s.sched }
  match p.kind with
  | .circuit | .neighbour => s.landAt p p.handle p.off false landed
  | .egress => s.egressUnit p landed
  | .edge => s.landAt p p.handle p.off false fun s => s.dropPkt p.id
  | .winReply => s.landAt p p.localH p.localOff p.localSpace fun s => s.dropPkt p.id
  | .winWrite =>
    if (s.pktAcc p).isSome then s.landAt p p.handle p.off false fun s => s.dropPkt p.id else (s.noRight p).dropPkt p.id
  | _ => s

/-- PACKET_LAND: a packet that has reached the router of its tile lands, unless it must wait (R99, R109, R119, R120, R125). -/
def execPacketLand (pkt : Nat) (s : State) : Out :=
  .next <| match s.pkt pkt with
    | some p => if s.held || !s.arrived p then s else s.landPkt p
    | none => s

/-- R121: the credit of a landed packet is back at its sender. -/
def execCreditReturn (pkt : Nat) (s : State) : Out :=
  .next <| match s.pkt pkt with
    | some p =>
      match p.landed with
      | some l =>
        if s.held || decide (s.sched < l + p.path) then s
        else (s.modTile p.src fun T =>
          if p.kind = .circuit then { T with credCirc := mput T.credCirc p.circ (min 8 (mget T.credCirc p.circ 8 + 1)) }
          else { T with credPort := mput T.credPort (dirCode p.dir) (min 8 (mget T.credPort (dirCode p.dir) 8 + 1)) }).dropPkt p.id
      | none => s
    | none => s

/-! ## Windows (R124 to R129) -/

/-- The output port a window or DMA packet needs at router `y` toward tile `d`: east or west first (R124, R311). -/
def nextDir (y d : Nat) : Dir :=
  let a := xyOf y
  let b := xyOf d
  if a.x < b.x then .east else if b.x < a.x then .west else if a.y < b.y then .south else .north

/-- The number of hops from one tile to another. -/
def hopCount (y d : Nat) : Nat :=
  let a := xyOf y
  let b := xyOf d
  (a.x - b.x) + (b.x - a.x) + (a.y - b.y) + (b.y - a.y)

/-- R122: every hop of the route is usable and no tile between its ends is gated. -/
def State.routeOk (s : State) (d : Nat) : Nat → Nat → Bool
  | 0, y => y == d
  | n + 1, y =>
    s.hopTrained y (nextDir y d) &&
      match s.farEnd y (nextDir y d) with
      | .tile z => (z == d || s.role (xyOf z) != 0) && s.routeOk d n z
      | _ => false

/-- R122: a window operation of tile `y` may go to tile `d`. -/
def State.windowOk (s : State) (y : Nat) (t : Xy) (reply : Bool) : Bool :=
  let d := tIx t
  d != y && s.inMesh t && s.routeOk d (hopCount y d) y && (!reply || s.routeOk y (hopCount d y) d)

/-- The target of a window operation (R118). -/
def Tile.winTarget (t : Tile) (f : WinF) : Xy :=
  ⟨bits (t.s f.sa).toNat 7 0, bits (t.s f.sa).toNat 15 8⟩

/-- The packets that stand in router `y` for output port `d`, or wait for a place there, DMA packets with them (R127, R311). -/
def State.portQueue (s : State) (y : Nat) (d : Dir) : List MPkt :=
  s.mpkts.filter fun p => (p.isWindow || p.kind == .dma) && p.at_ != p.dst && p.at_ == y && nextDir y p.dst == d

/-- R127: a queue of 4 places has none left. -/
def State.portFull (s : State) (y : Nat) (d : Dir) : Bool := decide (4 ≤ ((s.portQueue y d).filter fun p => !p.outside).length)

/-- R127: a packet enters its first router's output queue, or waits where it is until a place frees. -/
def State.enterPkt (s : State) (p : MPkt) : State :=
  s.newPkt { p with outside := p.at_ != p.dst && s.portFull p.at_ (nextDir p.at_ p.dst) }

/-- R127: the packets that wait for a place of an output queue take those that are free, in the order they came. -/
def State.settleQueue (s : State) (y : Nat) (d : Dir) : State :=
  let q := s.portQueue y d
  let ids := ((q.filter (·.outside)).take (4 - (q.filter fun p => !p.outside).length)).map (·.id)
  { s with mpkts := s.mpkts.map fun p => if ids.contains p.id then { p with outside := false } else p }

/-- R125: `wget`; a faulted one lands zeros one cycle after issue (R122). -/
def execWget (t : Xy) (pr : Fin 16) (f : WinF) (s : State) : Out :=
  let y := tIx t
  s.slotOut t (.wget t pr f) fun s =>
    let T := s.tile y
    let u := T.winTarget f
    let p : MPkt :=
      { id := 0, kind := .winReq, src := y, dst := tIx u, handle := f.rhandle, off := T.agAddr f.agRemote / 64 * 64,
        pc := T.issuePc, issued := s.sched, at_ := y, since := s.sched, localH := (T.gen f.agLocal).handle,
        localOff := T.agAddr f.agLocal / 64 * 64, localSpace := (T.gen f.agLocal).space }
    if s.windowOk y u true then s.enterPkt p
    else (s.meshFault y T.issuePc f.rhandle p.off).newPkt
      { p with kind := .winReply, dst := y, data := List.replicate 64 0, depart := some s.sched, land := s.sched + 1 }

/-- R125: `wput`. -/
def execWput (t : Xy) (pr : Fin 16) (f : WinF) (s : State) : Out :=
  let i : Instr := .wput t pr f
  let y := tIx t
  s.slotOut t i fun s =>
    let T := s.tile y
    let u := T.winTarget f
    if s.windowOk y u false then
      let (s, bs) := s.meshRead y i
      s.enterPkt
        { id := 0, kind := .winWrite, src := y, dst := tIx u, handle := f.rhandle, off := T.agAddr f.agRemote / 64 * 64,
          data := bs, pc := T.issuePc, issued := s.sched, at_ := y, since := s.sched }
    else s.meshFault y T.issuePc f.rhandle (T.agAddr f.agRemote / 64 * 64)

/-- The first cycle a window packet may leave its router: the first after its issue, or eight after the last (R124). -/
def MPkt.mayGo (p : MPkt) : Nat := if p.hops = 0 ∧ p.kind ≠ .winReply then p.issued + 1 else p.since + 8

/-- R128: the place of a packet among those that need one output port. -/
def MPkt.inputOrder (p : MPkt) : Nat := if p.hops = 0 then 0 else 1 + dirCode (backPort p.dir)

/-- The first packet in the fixed order (R128). -/
def firstPkt : List MPkt → Option MPkt
  | [] => none
  | p :: ps => match firstPkt ps with
    | some q => if q.inputOrder < p.inputOrder then some q else some p
    | none => some p

/-- R127: the next router has a place for the packet, beside those that wait there already: always at its target.  Those go first
(DESIGN CHOICE, notes/assumptions/59.md). -/
def State.nextPlace (s : State) (p : MPkt) (z : Nat) : Bool :=
  z == p.dst || decide ((s.portQueue z (nextDir z p.dst)).length < 4)

/-- A packet moves one hop; at its target its service or landing cycle is known (R125). -/
def State.hopPkt (s : State) (p : MPkt) (d : Dir) (z : Nat) : State :=
  s.modPkt p.id fun p =>
    { p with
      at_ := z, since := s.sched, hops := p.hops + 1, dir := d, via := portUnit p.at_ d, depart := some (p.depart.getD s.sched)
      land := s.sched + (if p.kind = .winReq then 8 else 9) }

/-- A window or DMA packet has left by this output port in this cycle: a port carries 64 bytes in a plan cycle (R112). -/
def State.portUsed (s : State) (y : Nat) (d : Dir) : Bool :=
  s.mpkts.any fun q => q.via == portUnit y d && q.since == s.sched && decide (0 < q.hops)

/-- WINDOW_PACKET_HOP: in a window slot the first packet of an output port moves on, and a meeting is recorded (R124,
R127, R128).  While the first in the fixed order finds its next queue full, no later one leaves (DESIGN CHOICE,
notes/assumptions/59.md). -/
def execWindowPacketHop (t : Xy) (dir : Dir) (s : State) : Out :=
  .next <|
    let y := tIx t
    let ps := (s.portQueue y dir).filter fun p => p.kind != .dma && !p.outside && decide (p.mayGo ≤ s.sched)
    match firstPkt ps, s.farEnd y dir with
    | some p, .tile z =>
      if s.held || !windowSlot s.slotCtr || s.portUsed y dir then s
      else
        let s := if 1 < ps.length then s.meetingFault y p else s
        if s.nextPlace p z then ((s.hopPkt p dir z).settleQueue y dir).occAdd 2 (portUnit y dir) 1 else s
    | _, _ => s

/-- R125: the reply of a window read enters its router's output queue; it leaves eight cycles after the service. -/
def State.windowReply (s : State) (p : MPkt) (bs : List Byte) : State :=
  let full := s.portFull p.dst (nextDir p.dst p.src)
  s.modPkt p.id fun q =>
    { q with
      kind := .winReply, src := p.dst, dst := p.src, data := bs, hops := 0, via := 0, since := s.sched, depart := none, land := 0
      outside := full }

/-- WINDOW_READ_SERVE: the target serves a window access: a write lands, and the reply of a read leaves eight cycles later (R125,
R126). -/
def execWindowReadServe (pkt : Nat) (s : State) : Out :=
  .next <| match s.pkt pkt with
    | some p =>
      if s.held || !s.arrived p then s
      else if p.kind = .winWrite then s.landPkt p
      else if p.kind ≠ .winReq then s
      else match s.pktAcc p with
        | none => (s.noRight p).windowReply p (List.replicate 64 0)
        | some a =>
          if s.ownServed p.dst then
            match s.bufServe p.dst p.id a (s.landTaken p) with
            | (t, some e) =>
              let r := t.spReadE p.dst p.pc p.handle e false a.sps
              r.1.windowReply p r.2
            | (t, none) => t
          else s
    | none => s

end Sys2Proof.Machine
end

