-- ==== Sys2Proof/Machine/Queue.lean ====
section
/-! DEFINITION. The decoupling queues: issue, arrival, prediction, service, landings and writes (R217 to R227, R279 to
R283). -/

namespace Sys2Proof.Machine

/-! ## Accesses -/

def State.acc (s : State) (id : Nat) : Option QAcc := s.accs.find? fun a => a.id == id

def State.modAcc (s : State) (id : Nat) (f : QAcc → QAcc) : State :=
  { s with accs := s.accs.map fun a => if a.id = id then f a else a }

def QAcc.bytes (a : QAcc) : Nat := 512 * a.slots
def QAcc.granules (a : QAcc) : Nat := 8 * a.slots

/-- The port of an access to the annex. -/
def QAcc.port (a : QAcc) : Option Nat := annexPortOf a.addr

/-- The granule's data or its write is complete at a PTC_COUNT. -/
def QAcc.readyBy (a : QAcc) (c g : Nat) : Bool := a.served.any fun q => q.1 == g && decide (q.2 ≤ c)

/-- R223: the order of accesses to one granule. -/
def QAcc.before (a b : QAcc) : Bool :=
  let key (x : QAcc) : List Nat := [x.deadline, if x.write then 0 else 1, x.gal, tInGal (xyOf x.tile), x.id]
  decide (key a < key b)

/-- The accesses share a granule. -/
def QAcc.meets (a b : QAcc) : Bool := decide (a.addr < b.addr + b.bytes) && decide (b.addr < a.addr + a.bytes)

/-- A write of the order of R223 that is still to take effect and must come before the access. -/
def State.awaitsWrite (s : State) (a : QAcc) : Bool :=
  s.accs.any fun b => b.write && b.live && !b.lateIssued && b.id != a.id && b.meets a && b.before a

/-- R287: a write to one of the access's granules with an earlier place in that order has no completion. -/
def State.annexWrite (s : State) (a : QAcc) : Bool :=
  s.accs.any fun b => b.write && b.live && b.id != a.id && b.meets a && b.before a

/-- The event source of an access: its channel, or its annex port. -/
def State.accSource (s : State) (a : QAcc) (g : Nat) : Nat × Nat :=
  match a.port with | some p => (4, p) | none => (3, (s.place (a.addr + 64 * g)).1)

/-- R277, R298: the delay of some granules of an access is due to a channel's window when one of them was away in the last cycle in
which its service would have been on time; each channel records and counts the access once, with the first such granule. -/
def State.windowDelay (s : State) (a : QAcc) (gs : List Nat) (last : Nat → Nat) : State :=
  gs.foldl (fun s g =>
    let p := s.place (a.addr + 64 * g)
    let seen := match s.acc a.id with | some b => b.winSeen.contains p.1 | none => true
    if seen || !s.away p.1 p.2 (last g) then s
    else (s.windowNote (a.addr + 64 * g) (last g)).modAcc a.id fun a => { a with winSeen := a.winSeen ++ [p.1] }) s

/-! ## Issue (R218 to R220, R225, R226) -/

/-- R225: the least deadline distance of an address. -/
def State.minDly (s : State) (addr : Nat) : Nat :=
  if (annexPortOf addr).isSome then
    match s.convStep with | 0 => 9600 | 1 => 7680 | 2 => 6400 | 3 => 4800 | _ => 2400
  else 640

/-- The access a queue operation makes. -/
def State.queueAccess (s : State) (y : Nat) (f : QueueF) (write : Bool) : QAcc :=
  let t := s.tile y
  { id := s.nextId, tile := y, gal := galOf (xyOf y), region := s.regionOf (xyOf y), write := write,
    addr := t.agAddr f.agExt, slots := qSlots f.size, handle := (t.gen f.agLoc).handle, off := t.agAddr f.agLoc,
    tag := f.tag, issued := s.sched, deadline := s.sched - t.late + f.dly.toNat, pc := t.issuePc
    ent := if write then some (s.hnd y (t.gen f.agLoc).handle) else none }

/-- An access joins the queue. -/
def State.pushAcc (s : State) (a : QAcc) : State := { s with accs := s.accs ++ [a], nextId := s.nextId + 1 }

/-- The request of a tile's triple has its command: it counts as an access from now on (R217). -/
def State.takeAsked (s : State) (y : Nat) : State :=
  s.modGal (galOf (xyOf y)) fun v => { v with asked := v.asked.filter fun q => q.2.1 != y }

/-- A queue operation acts: an access, or a fault whose tag completes at the deadline (R217, R219, R220, R225). -/
def State.queueOp (s : State) (y : Nat) (f : QueueF) (write : Bool) : State :=
  let s := s.takeAsked y
  let a := s.queueAccess y f write
  if s.queueOk y f then
    let s := if f.dly.toNat < s.minDly a.addr then s.event 0x0241 0 y [] else s
    let s := s.pushAcc a
    let g := a.gal
    s.setFld F.galQstat_peak g (max (s.fld F.galQstat_peak g) (s.qEntries g))
  else (s.event 0x0240 0 y []).pushAcc { a with faulted := true }

/-- R226: a suppressed queue operation keeps its tag's place. -/
def State.queueSupp (s : State) (y : Nat) (f : QueueF) (write : Bool) : State :=
  s.pushAcc { s.queueAccess y f write with suppressed := true }

/-- R218: `qrd`. -/
def execQrd (t : Xy) (pr : Fin 16) (f : QueueF) (s : State) : Out :=
  s.slotOut t (.qrd t pr f) (supp := fun s => s.queueSupp (tIx t) f false) fun s => s.queueOp (tIx t) f false

/-- The source reads of a `qwr`, one slot a cycle from the next cycle on, after queue landings (R222). -/
def State.sourceBanks (s : State) (y : Nat) (f : QueueF) : State :=
  if s.queueOk y f then
    let t := s.tile y
    (List.range (qSlots f.size)).foldl (fun s k =>
      s.pushReq y (s.sched + 1 + k) 4 ⟨(t.gen f.agLoc).handle, false, false, [⟨t.agAddr f.agLoc + 512 * k, 512⟩]⟩
        (.source s.nextId k)) s
  else s

/-- R222: `qwr`. -/
def execQwr (t : Xy) (pr : Fin 16) (f : QueueF) (s : State) : Out :=
  s.slotOut t (.qwr t pr f) (supp := fun s => s.queueSupp (tIx t) f true) fun s =>
    (s.sourceBanks (tIx t) f).queueOp (tIx t) f true

/-- R224: `qwait`; the accesses it awaits are latched in its first waiting cycle. -/
def execQwait (t : Xy) (pr : Fin 16) (mask : BitVec 16) (s : State) : Out :=
  let y := tIx t
  let drop (s : State) : State := s.modTile y fun T => { T with qw := none }
  let latched := if s.canAct y && !s.issuedNow y then s.modTile y fun T => { T with qw := some (s.qwState y mask) } else s
  latched.slotOut t (.qwait t pr mask) (supp := drop) drop

/-! ## On the way (R222, R227, R280) -/

/-- QWR_SOURCE_READ: the next slot of a write's source is read, one slot in each cycle after the issue, once TRIPLE_ISSUE has
served the access; after the invocation's end, when its slot lets it (R222).  It goes by the handle entry of the issue (R105). -/
def execQwrSourceRead (acc : Nat) (s : State) : Out :=
  .next <| match s.acc acc with
    | some a =>
      if s.held || !a.write || !a.live || decide (a.slots ≤ a.srcSlots) || decide (s.sched < a.issued + 1 + a.srcSlots) then s
      else
        let x : OwnAcc := ⟨a.handle, false, false, [⟨a.off + 512 * a.srcSlots, 512⟩]⟩
        let e := a.ent.getD (s.hnd a.tile a.handle)
        let take (s : State) : State :=
          let r := s.spReadE a.tile a.pc x.h e x.space x.sps
          r.1.modAcc acc fun a => { a with src := a.src ++ r.2, srcSlots := a.srcSlots + 1 }
        if (s.tile a.tile).inInv then (if (s.tile a.tile).queued (.source acc a.srcSlots) then s else take s)
        else match s.bufServeE a.tile acc e x [] with
          | (t, some _) => take t
          | (t, none) => t
    | none => s

/-- QUEUE_REQUEST_ARRIVE: a request that comes after its commit point is late-issued; what it returns is what its service finds
(R227). -/
def execQueueRequestArrive (acc : Nat) (s : State) : Out :=
  .next <| match s.acc acc with
    | some a =>
      if a.arrived || !a.live then s
      else
        let s := s.modAcc acc fun a => { a with arrived := true }
        if s.sched + 160 ≤ a.deadline then s
        else
          ((s.modAcc acc fun a => { a with lateIssued := true, committed := true, data := [] }).modRegion a.region fun r =>
            { r with lateIssue := r.lateIssue + 1 }).event 0x0243 0 a.tile []
    | none => s

/-- The length of a hold that has no end yet (R287). -/
def openHold : Nat := 2 ^ 64

/-- R287: an annex port asks to hold from 64 cycles after the commit point on. -/
def State.openWait (s : State) (p id : Nat) : State :=
  let s := if (s.annex p).waitHold.isEmpty then
      { s with reqs := s.reqs ++ [⟨s.cnt, s.cnt + 64, openHold, 2, 0x2000 + p⟩] } else s
  s.modAnnex p fun x => { x with waitHold := x.waitHold ++ [id] }

/-- R287: what an access awaited has come: the port's holds end 64 cycles later once it awaits nothing. -/
def State.closeWait (s : State) (p : Nat) (ids : List Nat) : State :=
  let s' := s.modAnnex p fun x => { x with waitHold := x.waitHold.filter fun i => !ids.contains i }
  if (s.annex p).waitHold.isEmpty || !(s'.annex p).waitHold.isEmpty then s'
  else { s' with reqs := s'.reqs.map fun q =>
    if q.len = openHold ∧ q.source = 0x2000 + p then { q with len := s.cnt + 64 - q.first } else q }

/-- The first of at most `n` cycles from `k` on that `p` admits. -/
def firstOpen (p : Nat → Bool) : Nat → Nat → Nat
  | 0, k => k
  | n + 1, k => if p k then k else firstOpen p n (k + 1)

/-- R230, R280: in `k` cycles from now a bank group is available, by the calendar and the published holds. -/
def State.openIn (s : State) (ch bg k : Nat) : Bool :=
  (decide (k < 64) && s.heldAt (s.cnt + k)) || !s.away ch bg (s.schedPub (s.cnt + k))

/-- R279, R280: the PTC_COUNT cycle in which a granule of a bank group of a channel can be served: its group is available, the pins are
free, and the granules that go before it have been served at 12/25 of a cycle each: `all` of its channel from now on, and `own` of its
group from the cycle on in which that opens (DESIGN CHOICE, notes/assumptions/61.md). -/
def State.serveCycle (s : State) (ch bg all own : Nat) : Nat :=
  let first := firstOpen (s.openIn ch bg) 4608 0
  let k := max ((s.chan ch).pins / 25 - s.cnt + 12 * all / 25) (first + 12 * own / 25)
  s.cnt + firstOpen (s.openIn ch bg) 4608 k

/-- The granules of an access, of its first `n`, that a place is asked of and that have not been served. -/
def State.unserved (s : State) (b : QAcc) (n : Nat) (p : Nat × Nat → Bool) : Nat :=
  ((List.range n).filter fun i => p (s.place (b.addr + 64 * i)) && !b.served.any fun q => q.1 == i).length

/-- R279, R280: the PTC_COUNT cycle in which a granule of an access that is still to be served can be served, after those its channel
holds of earlier places in the order of R223. -/
def State.serveAt (s : State) (a : QAcc) (g : Nat) : Nat :=
  let p := s.place (a.addr + 64 * g)
  let ahead (f : Nat × Nat → Bool) : Nat := s.accs.foldl (fun n b =>
    if b.live && b.arrived && b.port.isNone && b.before a then n + s.unserved b b.granules f else n) (s.unserved a g f)
  s.serveCycle p.1 p.2 (ahead fun q => q.1 == p.1) (ahead (· == p))

/-- R280: the schedule cycle in which a granule of an access will be ready: what its service has given, or will give. -/
def State.granReady (s : State) (a : QAcc) (g : Nat) : Nat :=
  let c := match a.served.find? fun q => q.1 == g with
    | some q => q.2
    | none => s.serveAt a g + if a.write then 32 else 224
  if c < s.cnt then s.schedOf c else s.schedPub c

/-- The schedule cycle by which a granule is to be ready: its slot's landing, or the write's effect. -/
def QAcc.dueBy (a : QAcc) (g : Nat) : Nat := if a.write then a.deadline else a.deadline + g / 8

/-- R280: a channel predicts its own granules of an access, from what it holds and from what it finds beyond that (`ready`), and asks
for the cycles that miss; a window that makes one of them late is recorded (R277). -/
def State.predictLate (s : State) (a : QAcc) (ch ready : Nat) : State :=
  let gs := (List.range a.granules).filter fun g => (s.place (a.addr + 64 * g)).1 == ch
  let late := gs.foldl (fun m g => max m (s.granReady a g - a.dueBy g)) (ready - a.deadline)
  if gs.isEmpty ∨ late = 0 then s
  else
    ((s.request 1 (0x1000 + ch) late).satAdd F.memStat_holdreq ch 1).windowDelay a
      (gs.filter fun g => decide (a.dueBy g < s.granReady a g) && !(a.retr.any fun r => r.1 == g))
      fun g => a.dueBy g - if a.write then 32 else 224

/-- COMMIT_POINT: at schedule cycle deadline − 160 each channel predicts when its granules of the access will be ready, from its
queue, the calendar and the published holds, and asks for the cycles that miss (R280); `ready` gives, by channel, the cycle that
what else it knows leads it to (DESIGN CHOICE, notes/assumptions/61.md).  An annex port whose data has not come asks to hold until
it does (R287). -/
def execCommitPoint (acc : Nat) (ready : List (Nat × Nat)) (s : State) : Out :=
  .next <| match s.acc acc with
    | some a =>
      if s.held || a.committed || !a.live || !a.arrived || decide (s.sched + 160 < a.deadline) then s
      else
        let s := s.modAcc acc fun a => { a with committed := true }
        match a.port with
        | some p => if a.arrData then s else s.openWait p acc
        | none => (List.range 48).foldl (fun s ch => s.predictLate a ch (((ready.find? fun r => r.1 == ch).map (·.2)).getD 0)) s
    | none => s

/-! ## Effects on external memory (R223, R279, R283) -/

/-- The bytes an access writes at one granule: what it read from its source; after a loss a mixture of those with what
the granule held (R283). -/
def State.granuleBytes (s : State) (a : QAcc) (g : Nat) : State × List Byte :=
  let new := (List.range 64).map fun i => a.src.getD (64 * g + i) 0
  if a.lost.contains g then s.mixed (a.addr + 64 * g) new else (s, new)

/-- A granule's address lies in a fenced page: one that a cancelled request alone holds (R503). -/
def State.fencedAt (s : State) (addr : Nat) : Bool :=
  [0, 1].any fun e =>
    let g := s.eng e
    match g.cfg with
    | none => false
    | some c => g.reqs.any fun r => r.2.fenced && r.2.pages.any fun p =>
        mget g.pageCnt p 0 == 1 &&
          (let b := if p < 2 ^ 31 then c.pageBase + p * c.pageBytes else c.annexBase + (p - 2 ^ 31) * c.pageBytes
           decide (b ≤ addr) && decide (addr < b + c.pageBytes))

/-- R223: before a write changes a granule, the reads that come before it take the data they are to return; one issued late stands
outside that order (R227). -/
def State.capture (s : State) (w : QAcc) (g : Nat) : State :=
  let addr := w.addr + 64 * g
  { s with accs := s.accs.map fun r =>
      if !r.write && r.live && !r.lateIssued && r.before w && decide (r.addr ≤ addr) && decide (addr < r.addr + r.bytes)
          && !(r.data.any fun d => d.1 == (addr - r.addr) / 64) then
        { r with data := r.data ++ [((addr - r.addr) / 64, rdBytes s.ext addr 64)] }
      else r }

/-- One granule of a write takes effect, unless it is fenced. -/
def State.granuleEffect (s : State) (a : QAcc) (g : Nat) : State :=
  let (s, bs) := s.granuleBytes a g
  if s.fencedAt (a.addr + 64 * g) then s
  else let s := s.capture a g; { s with ext := wrBytes s.ext (a.addr + 64 * g) bs }

/-- All granules of a write take effect: it is complete. -/
def State.writeEffect (s : State) (a : QAcc) : State :=
  ((List.range a.granules).foldl (fun s g => s.granuleEffect a g) s).modAcc a.id fun a => { a with doneAt := some s.sched }

/-- A read takes the data of a granule now. -/
def State.takeData (s : State) (a : QAcc) (g : Nat) : State :=
  s.modAcc a.id fun x =>
    if x.data.any fun d => d.1 == g then x else { x with data := x.data ++ [(g, rdBytes s.ext (a.addr + 64 * g) 64)] }

/-- A granule of an access waits at its controller and could be served now. -/
def State.servable (s : State) (a : QAcc) (g : Nat) : Bool :=
  a.live && a.arrived && a.port.isNone && decide (g < a.granules) && !(a.served.any fun q => q.1 == g)
    && s.available (a.addr + 64 * g) && s.pinsFree (s.place (a.addr + 64 * g)).1 && !(a.write && decide (a.srcSlots ≤ g / 8))

/-- R279: a granule of an earlier deadline, ties broken as in R223, waits at the channel and could be served now. -/
def State.serveFirst (s : State) (a : QAcc) (ch : Nat) : Bool :=
  s.accs.any fun b => b.id != a.id && b.before a
    && (List.range b.granules).any fun g => (s.place (b.addr + 64 * g)).1 == ch && s.servable b g

/-- GRANULE_SERVE: a controller serves a granule of an access, those of earlier deadlines first, while the pins carry it (R273, R277,
R279, R283): its retries, its
loss, and, of an access issued late, its effect at once (R227).  Read data is ready 224 cycles after its service, a write 32 cycles
after it is written (R279; DEDUCED, notes/assumptions/38.md). -/
def execGranuleServe (acc : Nat) (gran : Nat) (res : GranRes) (s : State) : Out :=
  .next <| match s.acc acc with
    | some a =>
      let addr := a.addr + 64 * gran
      if !s.servable a gran || s.serveFirst a (s.place addr).1 then s
      else
        let delay := 48 * granRetries a.write res
        let at_ := s.cnt + delay + if a.write = false then 224 else if a.lateIssued then 0 else 32
        let s := ((s.granRecord a.write addr res).granBusy addr).modAcc acc fun a =>
          { a with
            served := a.served ++ [(gran, at_)]
            lost := if res = .lost then a.lost ++ [gran] else a.lost
            retr := if delay = 0 then a.retr else a.retr ++ [(gran, delay)] }
        if a.lateIssued then
          if a.write then s.granuleEffect ((s.acc acc).getD a) gran else s.takeData a gran
        else s
    | none => s

/-- WRITE_TAKES_EFFECT: at its deadline, or later when its last granule is written later, a write takes effect in the
order of R223; one issued late has done so granule by granule (R222, R227, R281). -/
def execWriteTakesEffect (acc : Nat) (s : State) : Out :=
  .next <| match s.acc acc with
    | some a =>
      if !a.write || !a.live || a.port.isSome || !((List.range a.granules).all (a.readyBy s.cnt)) then s
      else if a.lateIssued then s.modAcc acc fun a => { a with doneAt := some s.sched }
      else if s.held || decide (s.sched < a.deadline) || s.awaitsWrite a then s
      else s.writeEffect a
    | none => s

/-! ## Landings (R221, R238) -/

/-- The bytes that slot `k` of a read lands: 0xFF for a lost granule, the data taken before a later write, or memory. -/
def State.slotBytes (s : State) (a : QAcc) (k : Nat) : List Byte :=
  (List.range 8).flatMap fun i =>
    let g := 8 * k + i
    if a.lost.contains g then List.replicate 64 0xFF
    else match a.data.find? fun d => d.1 == g with
      | some d => d.2
      | none => rdBytes s.ext (a.addr + 64 * g) 64

/-- The schedule cycle in which slot `k`'s data was ready: when it was served, and when the writes it must follow had taken effect
(R238, R281). -/
def State.readyCycle (s : State) (a : QAcc) (k : Nat) : Nat :=
  let r := (a.served.filter fun q => q.1 / 8 == k).foldl (fun m q => max m q.2) 0
  s.accs.foldl (fun m b =>
    if b.write && !b.lateIssued && b.id != a.id && b.meets a && b.before a then max m (b.doneAt.getD 0) else m)
    (s.schedOf r)

/-- R277: the granules of slot `k` that were ready late, but for the cycles of their retries. -/
def State.lateGrans (s : State) (a : QAcc) (k : Nat) : List Nat :=
  (a.served.filter fun q => q.1 / 8 == k
    && decide (a.deadline + k < s.schedOf (q.2 - ((a.retr.find? fun r => r.1 == q.1).map (·.2)).getD 0))).map (·.1)

/-- R99, R170, R221: the banks that earlier accesses of the X-slot place need in this cycle. -/
def State.matrixTaken (s : State) (y : Nat) : List Nat :=
  ((s.tile y).bankq.filter fun q => decide (q.due ≤ s.sched) && decide (q.prio ≤ 2) && !s.reqWaits y q).flatMap fun q =>
    q.left.getD (q.acc.banks q.hnd)

/-- R238: a landing whose data was ready after its cycle is recorded, with the window that delayed it (R277). -/
def State.lateLanding (s : State) (a : QAcc) (k : Nat) : State :=
  let rc := s.readyCycle a k
  if !a.lateIssued && decide (a.deadline + k < rc) then
    let s := s.event 0x0242 0 a.tile [(4, a.tag), (4, rc - (a.deadline + k))]
    if a.port.isNone then s.windowDelay a (s.lateGrans a k) (fun _ => a.deadline + k - 224) else s
  else s

/-- QUEUE_LANDING: the next slot of a read lands, one in a cycle, at its cycle or when its data is there, unless a bank or a slot
makes it wait (R221, R238); the events of a late landing follow. -/
def execQueueLanding (acc : Nat) (s : State) : Out :=
  .next <| match s.acc acc with
    | some a =>
      let k := a.landed
      let x : OwnAcc := ⟨a.handle, false, true, [⟨a.off + 512 * k, 512⟩]⟩
      if s.held || a.write || !a.live || a.landAt == s.sched + 1 || decide (s.sched < a.deadline + k)
          || !((List.range 8).all fun i => a.readyBy s.cnt (8 * k + i)) || (!a.lateIssued && s.awaitsWrite a) then s
      else match s.bufServe a.tile acc x (s.matrixTaken a.tile) with
        | (t, none) => t
        | (t, some e) =>
          let t := t.lateLanding a k
          let lost := (List.range 8).any fun i => a.lost.contains (8 * k + i)
          let t := if lost then t.modRegion a.region fun r => { r with loss := true } else t
          (t.spWriteE a.tile a.pc a.handle e false (a.off + 512 * k) (s.slotBytes a k)).modAcc acc fun a =>
            { a with
              landed := k + 1, landAt := s.sched + 1
              doneAt := if a.slots ≤ k + 1 then some s.sched else none }
    | none => s

end Sys2Proof.Machine
end

