-- ==== Sys2Proof/Machine/ExtMem.lean ====
section
/-! DEFINITION. The memory controllers' own events, calendars and calibration, and the annex ports (chapter 07). -/

namespace Sys2Proof.Machine

/-! ## Registers of an absent die (R13) -/

/-- The compute die whose window holds a register, none for a register elsewhere. -/
def regDie (r : Reg) : Option Nat :=
  match r.kind with
  | .tilPadctl | .tilState | .tilDescevt | .tilSlotcmd | .tilSpcnt | .tilSpfault | .tilMxctl | .tilMxkrow | .tilMxstat
  | .tilMxfault | .tilVctl | .tilVcsel | .tilVcword | .tilVstat | .tilLate | .tilQstat | .tilBankgate =>
    some (dieOf (xyOf r.idx))
  | .tilHndb | .tilHndc | .tilSlotmap => some (dieOf (xyOf (r.idx / 64)))
  | .galFetch | .galQstat | .galOcc | .galGate => some (dieOf (tileAt r.idx 0))
  | .memRef | .memStat | .memCal => some (r.idx / 6)
  | .dieHarvest | .dieXstat => some r.idx
  | .dmaSrc | .dmaDst | .dmaLen | .dmaNext | .dmaCtl | .dmaStat | .dmaErr => if r.idx / 32 < 8 then some (r.idx / 32) else none
  | _ => none

/-- R13: a register access to the window of a fused-off die is recorded and does nothing. -/
def State.absentOr (s : State) (die off : Nat) (f : State → State) : State :=
  if s.dieAbsent die then s.event 0x0010 8 0 [(8, off)] else f s

/-! ## Calendar and refresh (R275, R278, R284, R292, R297) -/

/-- The banks of a bank group: four a group (chapter 07). -/
def groupBanks (bg : Nat) : List Nat := (List.range 4).map (4 * bg + ·)

/-- A bank's refresh begins. -/
def State.refreshBank (s : State) (ch bank : Nat) : State :=
  s.modChan ch fun c =>
    { c with
      lastRef := mput c.lastRef bank s.cnt, refEnd := mput c.refEnd bank (s.cnt + refreshLen s.step_)
      overdue := mdel c.overdue bank }

/-- The module address of a channel address: the place of R274 turned round. -/
def State.chanAddr (s : State) (ch l : Nat) : Nat :=
  let g := s.interleave
  let n := if s.fuses.grade then 36 else 48
  (l / g * n + if s.fuses.grade ∧ 24 ≤ ch then ch - 6 else ch) * g + l % g

/-- R283, R284: the scrub's read of one granule, upward through the channel address, with its corrections, its retry or its loss. -/
def State.scrubOne (s : State) (ch : Nat) (res : GranRes) : State :=
  let a := s.chanAddr ch (s.chan ch).scrub
  ((s.granRecord false a res).granBusy a).modChan ch fun c => { c with scrub := (c.scrub + 64) % 0x180000000 }

/-- The work of a trim slot: a change of the set in use, and a re-trim's step or a scrub read (R284, R292, R293).  The calendar
period that ends counts toward the class of a re-trim in progress: 2,880 of its 4,800 granules are 60% (R273, R290). -/
def State.trimSlot (s : State) (ch : Nat) (res : GranRes) : State :=
  let full := decide (2880 ≤ (s.chan ch).busy)
  let s := s.modChan ch fun c =>
    { c with busy := 0, retrim := c.retrim.map fun r => { r with allFull := r.allFull && (full || r.done == 1024) } }
  let s := if s.anyRunning && (s.chan ch).useRun && !(s.chan ch).inUse.full then s else s.trimNow ch
  let s := s.retrimCheck ch false
  match (s.chan ch).retrim with
  | some r =>
    if r.done < 1024 then s.modChan ch fun c => { c with retrim := some { r with done := r.done + 1 } } else s
  | none => s.scrubOne ch res

/-- CALENDAR_WINDOW_OPEN: bank-group window `j` of a channel opens and its banks are refreshed; window 0 begins with the
trim slot (R275).  `scrubFixed`: what the scrub read of the slot finds (R283, R284). -/
def execCalendarWindowOpen (ch : Nat) (j : Fin 4) (scrubFixed : GranRes) (s : State) : Out :=
  .next <|
    let w := s.calAt ch s.sched
    if s.held || !s.chanPresent ch || decide (bits w 23 12 = 0) || decide (calPos s.sched ≠ calOpen w j) then s
    else
      let s := (groupBanks (calGroup w j)).foldl (fun s b => s.refreshBank ch b) s
      if j.val = 0 then s.trimSlot ch scrubFixed else s

/-- RETRIM_COMPLETE: after 1,024 trim slots the new set is recorded, in the settings area too (R291, R292, R600). -/
def execRetrimComplete (ch : Nat) (s : State) : Out :=
  .next <| match (s.chan ch).retrim with
    | some r =>
      if r.done < 1024 then s
      else
        let k := 4 * s.step_ + r.bin
        let new : Trim := ⟨r.bin, r.allFull, s.nextId + 1⟩
        let keep := match mfind (s.chan ch).runSets k with | some t => t.full && !new.full | none => false
        let s := s.modChan ch fun c =>
          { c with retrim := none, runSets := if keep then c.runSets else mput c.runSets k new }
        let s := if keep then s else s.keepSet ch k new
        ({ s with nextId := s.nextId + 1 }.event 0x0265 3 ch []).retrimCheck ch false
    | none => s

/-- The temperature above or from which each bin begins: T1 from 50, T2 from 70, T3 above 85 (R290). -/
def binFrom (b : Nat) : Nat := if b = 1 then 50 else if b = 2 then 70 else 85

/-- The bin of a temperature in degrees (R290). -/
def binOf (t : Nat) : Nat := if 85 < t then 3 else if 70 ≤ t then 2 else if 50 ≤ t then 1 else 0

/-- R290: the bin moves up with the temperature, and down only once the temperature is 3 degrees below the boundary. -/
def binAfter (t : Nat) : Nat → Nat
  | 0 => binOf t
  | b + 1 => if b + 1 ≤ binOf t then binOf t else if t + 3 ≤ binFrom (b + 1) then binAfter t b else b + 1

/-- TEMPERATURE_BIN_CHANGE: the hottest device of a channel reads `temp` degrees.  When that changes the channel's bin, a re-trim in
progress is abandoned, and a new one starts if R292 asks it. -/
def execTemperatureBinChange (ch : Nat) (temp : BitVec 8) (s : State) : Out :=
  .next <|
    let bin := binAfter temp.toNat (s.chan ch).bin
    if !s.chanPresent ch || decide ((s.chan ch).bin = bin) then s
    else
      let was := (s.chan ch).reduced
      let s := if (s.chan ch).retrim.isSome then s.event 0x0266 3 ch [] else s
      let s := s.modChan ch fun c => { c with bin := bin, retrim := none }
      s.retrimCheck ch (!was && (s.chan ch).reduced)

/-- R292, R300: what a write of MEM_CALn does: AUTO as written, and FORCE starts a re-trim. -/
def State.writeMemCal (s : State) (ch v : Nat) : State :=
  let s := s.setFld F.memCal_auto ch (bits v 0 0)
  if bits v 1 1 = 1 then s.retrimStart ch else s.retrimCheck ch false

/-- RETRIM_FORCE: a write of MEM_CALn (R292, R300). -/
def execRetrimForce (by_ : Writer) (ch : Nat) (off : Nat) (val : BitVec 32) (s : State) : Out :=
  .next <| s.gated by_ off val.toNat fun s => s.absentOr (ch / 6) off fun s => s.writeMemCal ch val.toNat

/-- HOLD_REFRESH: in a hold, a bank whose last refresh began 2,304 or more cycles before is refreshed, one bank of a group
at a time, when every cycle of the refresh is published as held (R278). -/
def execHoldRefresh (ch : Nat) (bank : Fin 16) (s : State) : Out :=
  .next <|
    let c := s.chan ch
    let n := refreshLen s.step_
    if !s.held || !s.chanPresent ch || decide (s.cnt < mget c.lastRef bank 0 + 2304)
        || (groupBanks (bank / 4)).any (fun b => decide (s.cnt < mget c.refEnd b 0))
        || !(List.range n).all (fun k => s.heldAt (s.cnt + k)) then s
    else s.refreshBank ch bank

/-- R278: a bank may ask for its hold in cycle `now`: it waits for none that is still to come or in progress, and no bank of its group
asked within the length `n` of a refresh, so that the refreshes of a group, one at a time, each have their cycles (DESIGN CHOICE,
notes/assumptions/61.md). -/
def ChanSt.mayAsk (c : ChanSt) (bank now n : Nat) : Bool :=
  (match mfind c.overdue bank with | some at_ => decide (at_ + 64 + n ≤ now) | none => true)
    && (groupBanks (bank / 4)).all fun b => match mfind c.overdue b with | some at_ => decide (at_ + n ≤ now) | none => true

/-- REFRESH_OVERDUE: a bank not refreshed for 4,032 cycles: a hold of one refresh is requested (R278). -/
def execRefreshOverdue (ch : Nat) (bank : Fin 16) (s : State) : Out :=
  .next <|
    let c := s.chan ch
    if !s.chanPresent ch || !c.mayAsk bank s.cnt (refreshLen s.step_) || decide (s.cnt < mget c.lastRef bank 0 + 4032) then s
    else
      ((s.request 1 (0x1000 + ch) (refreshLen s.step_)).satAdd F.memStat_holdreq ch 1).modChan ch fun c =>
        { c with overdue := mput c.overdue bank s.cnt }

/-- R297: ORDER is a permutation of 0 to 3. -/
def orderOk (o : Nat) : Bool := [0, 1, 2, 3].all fun g => (List.range 4).any fun j => bits o (2 * j + 1) (2 * j) == g

/-- MEM_REF_WRITE: a calendar written at the expert level takes effect at the next calendar origin (R297). -/
def execMemRefWrite (by_ : Writer) (ch : Nat) (off : Nat) (val : BitVec 32) (s : State) : Out :=
  .next <| s.gated by_ off val.toNat fun s =>
    s.absentOr (ch / 6) off fun s => s.imgWrite .memRef off fun s =>
      let v := val.toNat
      if s.anyRunning then s.imageBusy off
      else if 2303 < bits v 11 0 || !orderOk (bits v 31 24) || !calFeasible (bits v 23 12) s.step_ then s.event 0x0267 3 ch []
      else
        let old := s.calAt ch s.sched
        ((s.modChan ch fun c => { c with oldCal := some ((s.sched / 2304 + 1) * 2304, old) }).rwWrite .memRef ch v).modified

/-! ## The annex (R286 to R288, R302, R303) -/

/-- The flits that carry `n` bytes: 256 each (R285). -/
def annexFlits (n : Nat) : Nat := max 1 (ceilDiv n 256)

/-- R287: a request has come to its port, and no write of the order of R223 to its granules is without its completion. -/
def State.annexSendable (s : State) (a : QAcc) : Bool :=
  a.live && a.arrived && !a.sent && !s.annexWrite a && !(a.write && decide (a.srcSlots < a.slots))

/-- R288: the record of poisoned data from a port. -/
def State.annexPoison (s : State) (p addr : Nat) : State :=
  ((s.lossSeen.event 0x0268 4 p [(8, addr)]).satAdd F.anxStat_poison p 1).errLog 3 (0x3E + p) addr

/-- ANNEX_REQUEST_SEND: the port sends a request at once, but not past a write of the order of R223 to its granules that
has no completion (R287). -/
def execAnnexRequestSend (port : Fin 2) (acc : Nat) (s : State) : Out :=
  .next <| match s.acc acc with
    | some a =>
      if a.port != some port.val || !s.annexUp port || !s.annexSendable a then s
      else (s.modAcc acc fun a => { a with sent := true, sentAt := s.wall }).occAdd 4 port
        (if a.write then annexFlits a.bytes else 1)
    | none => s

/-- Read data has come: its granules are ready (R287).  What they return follows R223 until they land; an access issued late takes what
it finds (R227). -/
def State.annexData (s : State) (a : QAcc) : State :=
  let s := if a.lateIssued then (List.range a.granules).foldl (fun s g => s.takeData a g) s else s
  s.modAcc a.id fun x => { x with arrData := true, served := (List.range a.granules).map fun g => (g, s.cnt) }

/-- ANNEX_RESPONSE: read data, poisoned granules as 0xFF (R288), or the completion of a write, which then takes effect
(R287). -/
def execAnnexResponse (port : Fin 2) (acc : Nat) (res : AnxRes) (s : State) : Out :=
  .next <| match s.acc acc with
    | some a =>
      if !a.live || !a.sent || a.arrData || a.port != some port.val then s
      else
        let s := s.closeWait port [acc]
        if a.write then (s.writeEffect a).modAcc acc fun a => { a with arrData := true }
        else
          let bad := match res with
            | .poisoned gs => (List.range a.granules).filter fun g => gs.contains g
            | .done => []
          let s := (s.annexData a).occAdd 4 port (annexFlits a.bytes)
          let s := bad.foldl (fun s g => s.annexPoison port (a.addr + 64 * g)) s
          s.modAcc acc fun a => { a with lost := bad }
    | none => s

/-- R288: a port's failure: it ends its hold requests, outstanding reads will land 0xFF, outstanding writes are dropped,
and the port is down. -/
def State.annexFail (s : State) (p : Nat) : State :=
  let s := s.closeWait p (s.annex p).waitHold
  let s := { s with accs := s.accs.map fun (a : QAcc) =>
    if a.live && a.port == some p && !a.arrData then
      if a.write then { a with arrData := true, doneAt := some s.sched }
      else
        { a with
          arrived := true, sent := true, arrData := true, lost := List.range a.granules
          served := (List.range a.granules).map fun g => (g, s.cnt) }
    else a }
  (s.setFld F.anxStat_state p 3).satAdd F.anxStat_timeouts p 1

/-- R288: a request to a port found no response in time: the record, and the port's failure. -/
def State.annexLate (s : State) (p addr : Nat) : State :=
  ((s.annexFail p).errLog 4 (0x3E + p) addr).lossSeen.event 0x0269 4 p [(8, addr)]

/-- TIMEOUT in ticks: 0 is taken as 1 µs (R302). -/
def State.annexLimit (s : State) (p : Nat) : Nat := 100 * max 1 (s.fld F.anxCtl_timeout p)

/-- ANNEX_TIMEOUT: no response within the limit of sending (R288). -/
def execAnnexTimeout (port : Fin 2) (s : State) : Out :=
  .next <| match s.accs.find? fun a =>
      a.live && a.port == some port.val && a.sent && !a.arrData && decide (a.sentAt + s.annexLimit port ≤ s.wall) with
    | some a =>
      if s.fld F.anxStat_state port = 2 then s.annexLate port a.addr else s
    | none => s

/-- ANNEX_LINK_DOWN: as for a timeout (R288). -/
def execAnnexLinkDown (port : Fin 2) (s : State) : Out :=
  .next <| if s.fld F.anxStat_state port = 2 then (s.annexFail port).event 0x026A 4 port [] else s

/-- The most both annex ports map together: 4 TiB, in MiB (R286). -/
def annexLimitMiB : Nat := 2 ^ 22

/-- R286: what the ports map: each that is up its device's capacity, port 0 first, 4 TiB together. -/
def State.mapAnnex (s : State) : State :=
  let n (p room : Nat) : Nat := if s.fld F.anxStat_state p = 2 then min (s.annex p).cap room else 0
  let n0 := n 0 annexLimitMiB
  (s.setFld F.anxStat_size 0 n0).setFld F.anxStat_size 1 (n 1 (annexLimitMiB - n0))

/-- An annex port goes into another state, with event 0x026A (R304). -/
def State.annexState (s : State) (p st : Nat) : State := (s.setFld F.anxStat_state p st).event 0x026A 4 p []

/-- R286: a port trains anew: it maps nothing until it is up. -/
def State.annexTrain (s : State) (p : Nat) : State := (s.setFld F.anxStat_size p 0).annexState p 1

/-- ANNEX_TRAINING_END: the port is up with its capacity mapped, port 0 first, or it stays down (R286). -/
def execAnnexTrainingEnd (port : Fin 2) (link : Option AnxLink) (s : State) : Out :=
  .next <|
    if s.fld F.anxStat_state port ≠ 1 then s
    else match link with
      | none => (s.annexState port 3).mapAnnex
      | some l =>
        let s := (s.setFld F.anxStat_width port l.width).setFld F.anxStat_rate port l.rate
        ((s.modAnnex port fun x => { x with cap := l.capacity / 2 ^ 20 }).annexState port 2).mapAnnex

/-- A write of ANX_CTLp (R302): RETRAIN is refused while a region runs or has a start pending. -/
def State.writeAnxCtl (s : State) (by_ : Writer) (port off v : Nat) : State :=
  s.gated by_ off v fun s => s.imgWrite .anxCtl off fun s =>
    let retrain := bits v 17 17 = 1
    let s := s.setFld F.anxCtl_timeout port (bits v 15 0)
    if retrain ∧ s.anyRunning then s.imageBusy off
    else if retrain ∧ s.fld F.anxCtl_enable port = 1 then
        let s := if s.fld F.anxStat_state port = 2 then
            (s.annexFail port).setFld F.anxStat_timeouts port (s.fld F.anxStat_timeouts port) else s
        s.annexTrain port
    else s

/-- ANNEX_RETRAIN: a write of ANX_CTLp: TIMEOUT as written; RETRAIN 1 retrains an enabled port, and that bit is discarded with an
image-busy event while any region runs or has a start pending (R288, R302).  DEDUCED, notes/assumptions/11.md. -/
def execAnnexRetrain (by_ : Writer) (port : Fin 2) (off : Nat) (val : BitVec 32) (s : State) : Out :=
  .next <| s.writeAnxCtl by_ port off val.toNat


end Sys2Proof.Machine
end

