-- ==== Sys2Proof/Machine/Crypto.lean ====
section
/-! DEFINITION. The digests and checksums the spec names: SHA-256 (R22, R44, R492, R602), CRC-32C (R24, R77, R608) and
CRC-64 with the ECMA-182 polynomial (R362). -/

namespace Sys2Proof.Machine

/-- The eight words of 32 bits that a number of 256 bits holds, the most significant first. -/
def words8 (n : Nat) : List (BitVec 32) := (List.range 8).map fun i => BitVec.ofNat 32 (n >>> (224 - 32 * i))

/-- The round constants of SHA-256, eight to a number: the first 32 fractional bits of the cube roots of the first 64 primes. -/
def shaRows : List Nat :=
  [0x428a2f9871374491b5c0fbcfe9b5dba53956c25b59f111f1923f82a4ab1c5ed5,
   0xd807aa9812835b01243185be550c7dc372be5d7480deb1fe9bdc06a7c19bf174,
   0xe49b69c1efbe47860fc19dc6240ca1cc2de92c6f4a7484aa5cb0a9dc76f988da,
   0x983e5152a831c66db00327c8bf597fc7c6e00bf3d5a7914706ca635114292967,
   0x27b70a852e1b21384d2c6dfc53380d13650a7354766a0abb81c2c92e92722c85,
   0xa2bfe8a1a81a664bc24b8b70c76c51a3d192e819d6990624f40e3585106aa070,
   0x19a4c1161e376c082748774c34b0bcb5391c0cb34ed8aa4a5b9cca4f682e6ff3,
   0x748f82ee78a5636f84c878148cc7020890befffaa4506cebbef9a3f7c67178f2]

/-- The round constants as words. -/
def shaK : List (BitVec 32) := shaRows.flatMap words8

/-- The initial hash value of SHA-256: the first 32 fractional bits of the square roots of the first eight primes. -/
def shaInit : List (BitVec 32) := words8 0x6a09e667bb67ae853c6ef372a54ff53a510e527f9b05688c1f83d9ab5be0cd19

/-- The message schedule: the words so far, the newest first, extended by `n` words. -/
def shaExtend : Nat → List (BitVec 32) → List (BitVec 32)
  | 0, w => w
  | n + 1, w =>
    let a := w.getD 14 0
    let b := w.getD 1 0
    let s0 := a.rotateRight 7 ^^^ a.rotateRight 18 ^^^ (a >>> 3)
    let s1 := b.rotateRight 17 ^^^ b.rotateRight 19 ^^^ (b >>> 10)
    shaExtend n ((w.getD 15 0 + s0 + w.getD 6 0 + s1) :: w)

/-- One round of SHA-256 on its eight working words. -/
def shaRound (h : List (BitVec 32)) (kw : BitVec 32) : List (BitVec 32) :=
  match h with
  | [a, b, c, d, e, f, g, hh] =>
    let s1 := e.rotateRight 6 ^^^ e.rotateRight 11 ^^^ e.rotateRight 25
    let ch := (e &&& f) ^^^ (~~~e &&& g)
    let t1 := hh + s1 + ch + kw
    let s0 := a.rotateRight 2 ^^^ a.rotateRight 13 ^^^ a.rotateRight 22
    let mj := (a &&& b) ^^^ (a &&& c) ^^^ (b &&& c)
    [t1 + s0 + mj, a, b, c, d + t1, e, f, g]
  | _ => h

/-- One block of 64 bytes. -/
def shaBlock (h : List (BitVec 32)) (blk : List Byte) : List (BitVec 32) :=
  let w := (List.range 16).map fun i =>
    (blk.getD (4 * i) 0 ++ blk.getD (4 * i + 1) 0 ++ blk.getD (4 * i + 2) 0 ++ blk.getD (4 * i + 3) 0 : BitVec 32)
  let ws := (shaExtend 48 w.reverse).reverse
  let r := (shaK.zip ws).foldl (fun h k => shaRound h (k.1 + k.2)) h
  (h.zip r).map fun p => p.1 + p.2

/-- The blocks of a padded message, at most `n`. -/
def shaBlocks : Nat → List Byte → List (BitVec 32) → List (BitVec 32)
  | 0, _, h => h
  | n + 1, bs, h => if bs.isEmpty then h else shaBlocks n (bs.drop 64) (shaBlock h (bs.take 64))

/-- SHA-256 of a byte string. -/
def sha256 (bs : List Byte) : List Byte :=
  let n := bs.length
  let pad := (119 - n % 64) % 64
  let m := bs ++ [0x80] ++ List.replicate pad 0 ++ (leBytes 8 (8 * n)).reverse
  (shaBlocks (m.length / 64) m shaInit).flatMap fun w => (leBytes 4 w.toNat).reverse

/-- One bit of a reflected CRC. -/
def crcBit (poly : BitVec 32) : Nat → BitVec 32 → BitVec 32
  | 0, c => c
  | n + 1, c => crcBit poly n (if c.getLsbD 0 then (c >>> 1) ^^^ poly else c >>> 1)

/-- The reflected Castagnoli CRC of a byte string from a value on; the value is matched after each byte so that an evaluation holds
one number at a time. -/
def crcRun : List Byte → BitVec 32 → BitVec 32
  | [], c => c
  | b :: bs, c =>
    match (crcBit 0x82F63B78 8 (c ^^^ b.zeroExtend 32)).toNat with
    | 0 => crcRun bs 0
    | n + 1 => crcRun bs (BitVec.ofNat 32 (n + 1))

/-- CRC-32C: the reflected Castagnoli polynomial, all ones at the start and inverted at the end. -/
def crc32c (bs : List Byte) : BitVec 32 := ~~~(crcRun bs 0xFFFFFFFF)

/-- One bit of the CRC-64. -/
def crc64Bit : Nat → BitVec 64 → BitVec 64
  | 0, c => c
  | n + 1, c => crc64Bit n (if c.getLsbD 63 then (c <<< 1) ^^^ 0x42F0E1EBA9EA3693 else c <<< 1)

/-- The CRC-64 register after a byte string, matched after each byte as that of `crcRun` is. -/
def crc64Run : List Byte → BitVec 64 → BitVec 64
  | [], c => c
  | b :: bs, c =>
    match (crc64Bit 8 (c ^^^ (b ++ (0 : BitVec 56)))).toNat with
    | 0 => crc64Run bs 0
    | n + 1 => crc64Run bs (BitVec.ofNat 64 (n + 1))

/-- CRC-64 of R362: polynomial of ECMA-182, all ones at the start, inverted at the end, most significant bit first
(DEDUCED, notes/assumptions/13.md). -/
def crc64 (bs : List Byte) : BitVec 64 := ~~~(crc64Run bs 0xFFFFFFFFFFFFFFFF)

/-- Four register words as the 32 bytes they hold, byte 8n at bits [7:0] of word n (R50). -/
def wordsBytes (ws : List Nat) : List Byte := ws.flatMap (leBytes 8)

/-- The four register words of 32 bytes. -/
def bytesWords (bs : List Byte) : List Nat := (List.range 4).map fun i => leNat ((bs.drop (8 * i)).take 8)

end Sys2Proof.Machine
end

