-- ==== Sys2Proof/Machine/Tick.lean ====
section
/-! DEFINITION. What a tile clock cycle does when no command waits (R213, R214, R231, R233, R293, R477, R565, R572, R574). -/

namespace Sys2Proof.Machine

/-- The divider of a clock step (R567). -/
def stepDiv (p : Nat) : Nat := if p = 0 then 4 else if p = 1 then 5 else if p = 2 then 6 else if p = 3 then 8 else 16

/-- The part of a lag the root recovers in one tile cycle of divider `d`, in 256ths of root periods: 1/256 (R574). -/
def recovery (d debt : Nat) : Nat := min d debt

/-- The 256ths of root periods, as the reference counts them, that a tile cycle lasts: 256 for each root period, 288 while the
root is stretched, 255 while it recovers the phase (R572, R574). -/
def State.cycleLen (s : State) : Nat :=
  let d := stepDiv (s.fld F.clkState_step 0)
  if s.fld F.clkState_stretch 0 = 1 then 288 * d
  else if s.fld F.clkState_catchup 0 = 1 then 256 * d - recovery d s.clk.debt
  else 256 * d

/-- The 256ths of root periods between two edges of the reference: the root is 48 times the reference (R565). -/
def refLen : Nat := 12288

/-- Milug's time passes by so many 256ths of root periods (R566). -/
def State.milugPass (s : State) (n : Nat) : State :=
  s.modMilug fun m => { m with time := m.time + (m.phase + n) / refLen, phase := (m.phase + n) % refLen }

/-- SRV_WALL counts the reference edges of one tile cycle; none come while the reference is lost (R477, R575).  The lag of a
stretch shrinks while the root recovers it (R574). -/
def State.tickWall (s : State) : State :=
  let n := s.cycleLen
  let t := if s.fld F.clkState_stretch 0 = 0 ∧ s.fld F.clkState_catchup 0 = 1 then
      s.modClk fun k => { k with debt := k.debt - recovery (stepDiv (s.fld F.clkState_step 0)) k.debt }
    else s
  let t := t.milugPass n
  if s.clk.refLost then t
  else
    let p := s.clk.phase + n
    (t.setReg .srvWall 0 (s.wall + p / refLen)).modClk fun k => { k with phase := p % refLen }

/-- R238: a held cycle is kept for the queue accesses that are still to land or to take effect. -/
def State.keepHeld (s : State) : State :=
  if s.accs.isEmpty then { s with heldRuns := [] }
  else if !s.held then s
  else { s with heldRuns := match s.heldRuns with
    | r :: rs => if r.1 + r.2 = s.cnt then (r.1, r.2 + 1) :: rs else (s.cnt, 1) :: r :: rs
    | [] => [(s.cnt, 1)] }

/-- The mask of the hold in progress gains the causes that cover the current cycle (R233). -/
def State.tickHold (s : State) : State :=
  match s.hold with
  | some (c, n, _) =>
    if s.held then
      { s.setFld F.ptcHlogb_causes n (s.fld F.ptcHlogb_causes n ||| s.causesAt s.cnt) with hold := some (c, n, s.cnt) }
    else s
  | none => s

/-- Requests and parks that have ended no longer stand once their hold is over (R229). -/
def State.dropPast (s : State) : State :=
  if s.held then s else { s with reqs := s.reqs.filter fun q => decide (s.cnt < q.first + q.len) }

/-- R293: what the load bin's change to FULL asks of the trim sets takes effect as the park begins. -/
def State.parkBegins (s : State) : State :=
  match s.park with
  | some k => if k.first = s.cnt then s.parkTrim else s
  | none => s

/-- The root clock runs: stage 4 of R594 has ended (R213, R565). -/
def State.clocked (s : State) : Bool := s.pwr.stage && decide (4 ≤ s.boot.stage)

end Sys2Proof.Machine
end

