-- ==== Sys2Proof/Machine/Peer.lean ====
section
/-! DEFINITION. What the chapters on links, fabric, serving and pairs share: packets and messages (R405 to R407), the
pair's state and loss (R546, R547, R554), UNSYNC (R421), and the time conversions of R361, R385 and R477. -/

namespace Sys2Proof.Machine

/-! ## Conversions -/

/-- The divider of the step that the conversions use (R571). -/
def State.divider (s : State) : Nat := stepDiv s.convStep

/-- Microseconds converted to plan cycles at the step in force, rounded up (R385): 4,800 root periods are a microsecond. -/
def State.usToPlan (s : State) (us : Nat) : Nat := ceilDiv (us * 4800) s.divider

/-- Plan cycles converted to ticks of SRV_WALL at the step in force, rounded up: 48 root periods are a tick (R477). -/
def State.ticks (s : State) (cycles : Nat) : Nat := ceilDiv (cycles * s.divider) 48

/-- The role of a port (R389). -/
def State.portRole (s : State) (p : Nat) : Nat := s.fld F.lnkCtl_role p

/-- The state of a port (R383, R390): 0 OFF, 1 DOWN, 2 TRAINING, 3 UP, 4 RETRAIN. -/
def State.portState (s : State) (p : Nat) : Nat := s.fld F.lnkStat_state p

/-- A fabric port runs generation 1 when MODE.IXL_GEN is 1; a mirror port never does (R360). -/
def State.gen1 (s : State) (p : Nat) : Bool := s.mode.ixlGen == 1 && s.portRole p != 2

/-- Link cycles of a port converted to plan cycles at the step in force, rounded up (R361): a generation 2 link cycle at x4
is 6.144 root periods. -/
def State.linkToPlan (s : State) (p m : Nat) : Nat :=
  ceilDiv (m * 6144 * 2 ^ s.fld F.lnkStat_width p * (if s.gen1 p then 2 else 1)) (1000 * s.divider)

/-- The module's global ID (R395). -/
def State.ownId (s : State) : Nat := s.fld F.fabId_id 0

/-- The port identity (R382). -/
def State.portIdent (s : State) (p : Nat) : Nat := 256 * s.ownId + p

/-- R421: PTC_STATE.UNSYNC becomes 1, and 0 again at once on a root with the reference. -/
def State.setUnsync (s : State) : State :=
  let s := if s.fld F.ptcState_unsync 0 = 1 then s else (s.setFld F.ptcState_unsync 0 1).event 0x0297 8 0 []
  let s := s.modFab fun f => { f with phis := [] }
  if s.fld F.fabSyncctl_root 0 = 1 ∧ s.clk.refLost = false then
    ((s.setFld F.ptcState_unsync 0 0).event 0x0297 8 0 []).modFab fun f => { f with eps := 0 }
  else s

/-! ## Packets and messages -/

/-- The header of a bulk or management packet (R405). -/
def pktHeader (p : Packet) : List Byte :=
  leBytes 1 p.type ++ [0] ++ leBytes 2 p.epoch ++ leBytes 4 p.dest ++ leBytes 4 p.origin ++ leBytes 4 p.body.length
    ++ leBytes 8 p.ref.toNat ++ leBytes 2 p.frag ++ leBytes 2 p.frags ++ [0, 0, 0, 0]

/-- The packet a byte stream begins with (R405). -/
def packetOf (b : List Byte) : Packet where
  type := leNat (b.take 1)
  epoch := leNat ((b.drop 2).take 2)
  dest := leNat ((b.drop 4).take 4) % 2 ^ 20
  origin := leNat ((b.drop 8).take 4) % 2 ^ 20
  ref := BitVec.ofNat 64 (leNat ((b.drop 16).take 8))
  frag := leNat ((b.drop 24).take 2)
  frags := leNat ((b.drop 26).take 2)
  body := (b.drop 32).take (leNat ((b.drop 12).take 4))

/-- A bulk packet: the types of the bulk class (R405, R547). -/
def pktBulk (p : Packet) : Bool := p.type == 0x01 || p.type == 0x51

/-- 240 bytes of payload (R362). -/
def padPayload (b : List Byte) : List Byte := b.take 240 ++ List.replicate (240 - b.length) 0

/-- A byte stream as flits of a kind, the last padded with zero bytes (R405). -/
def flitsOf (kind : Nat) (b : List Byte) : List Flit :=
  let n := ceilDiv b.length 240
  (List.range n).map fun i =>
    { kind := kind, seq := 0, ackseq := 0, nak := false, cclass := 0, ccount := 0, sop := i == 0, eop := i + 1 == n, spec := 0,
      payload := padPayload (b.drop (240 * i)) }

/-- The flits of a packet. -/
def pktFlits (p : Packet) : List Flit := flitsOf (if pktBulk p then 2 else 3) (pktHeader p ++ p.body)

/-- A packet is queued on a port, in its class. -/
def State.queueOn (s : State) (port : Nat) (p : Packet) : State :=
  s.modLink port fun L => if pktBulk p then { L with txB := L.txB ++ pktFlits p } else { L with txM := L.txM ++ pktFlits p }

/-- A message as the packets that carry it: one, or fragments of 20,480 bytes (R407). -/
def fragments (type dest origin : Nat) (ref : BitVec 64) (body : List Byte) : List Packet :=
  let n := max 1 (ceilDiv body.length 20480)
  (List.range n).map fun i => ⟨type, 0, dest, origin, ref, i, n, (body.drop (20480 * i)).take 20480⟩

/-- The bytes of a message's items where the spec gives no layout: eight bytes each (DESIGN CHOICE,
notes/assumptions/15.md). -/
def argBytes (args : List Nat) : List Byte := args.flatMap (leBytes 8)

/-- A management message to another module originates at IO-N (R405 to R407; DESIGN CHOICE, notes/assumptions/15.md). -/
def State.sendMsg (s : State) (dest type : Nat) (ref : BitVec 64) (args : List Nat) (body : List Byte) : State :=
  let s := s.modFab fun f => { f with sent := f.sent ++ [⟨dest, type, ref, args⟩] }
  s.modFdie 0 fun d => { d with origin := d.origin ++ fragments type dest s.ownId ref body }

/-- A message whose items the spec gives no layout for. -/
def State.sendArgs (s : State) (dest type : Nat) (ref : BitVec 64) (args : List Nat) : State :=
  s.sendMsg dest type ref args (argBytes args)

/-- The body of a whole message. -/
def Reasm.body (r : Reasm) : List Byte := r.got.flatMap (·.2)

/-- A message has a reference and a body. -/
def Reasm.says (r : Reasm) (ref : BitVec 64) (body : List Byte) : Bool := r.ref == ref && r.body == body

/-- The controller holds a whole message of a TYPE that `mine` knows (R407). -/
def State.hasMsg (s : State) (type : Nat) (mine : Reasm → Bool) : Bool := s.fab.inbox.any fun m => m.type == type && mine m

/-- The first such message is taken. -/
def State.dropMsg (s : State) (type : Nat) (mine : Reasm → Bool) : State :=
  s.modFab fun b => { b with inbox := b.inbox.eraseP fun m => m.type == type && mine m }

/-- R407: the controller acts on a message only when it holds it whole, and once. -/
def State.onMsg (s : State) (type : Nat) (mine : Reasm → Bool) (f : State → State) : State :=
  if s.hasMsg type mine then f (s.dropMsg type mine) else s

/-- A packet for this module that `mine` knows has come (R406). -/
def State.hasArrived (s : State) (mine : Packet → Bool) : Bool := (s.fdie 0).arrived.any mine || (s.fdie 1).arrived.any mine

/-- The first such packet is taken, IO-N's before IO-S's. -/
def State.dropArrived (s : State) (mine : Packet → Bool) : State :=
  s.modFdie (if (s.fdie 0).arrived.any mine then 0 else 1) fun d => { d with arrived := d.arrived.eraseP mine }

/-- R406: a receiver acts on a packet that has come for this module, once. -/
def State.onArrived (s : State) (mine : Packet → Bool) (f : State → State) : State :=
  if s.hasArrived mine then f (s.dropArrived mine) else s

/-- The body of a notice (R408). -/
def noticeBytes (type : Nat) (ref : BitVec 64) (cause : Nat) : List Byte := leBytes 1 type ++ leBytes 8 ref.toNat ++ leBytes 1 cause

/-- R408: an undeliverable notice to the origin of a discarded packet; never about a notice. -/
def State.notice (s : State) (p : Packet) (cause : Nat) : State :=
  if p.type = 0x10 then s
  else s.sendMsg p.origin 0x10 p.ref [p.type, p.ref.toNat, cause] (noticeBytes p.type p.ref cause)

/-! ## Shares and layout (R460, R467) -/

/-- An engine's share of `n` vitrines or pages of a region: its first index and how many (R460). -/
def State.own (s : State) (r e n : Nat) : Nat × Nat :=
  match s.regionRec r with
  | some x =>
    if x.engine = 3 then (if e = 0 then (0, (n + 1) / 2) else ((n + 1) / 2, n / 2))
    else if bits x.engine e e = 1 then (0, n) else (0, 0)
  | none => (0, 0)

/-- The VITRINE record of a region, empty where it has none. -/
def State.vitOf (s : State) (r : Nat) : VitRec := (s.vit r).getD ⟨r, 0, 0, 0, 0, 0⟩

/-- TB: the bytes of a step table (R467). -/
def tableBytes (v : VitRec) : Nat := 64 + 32 * v.slots + 32 * v.prefills + 16 * v.att

/-- CAND: the entries of a candidate list (R467). -/
def SrvCfg.cand (c : SrvCfg) : Nat := min c.vocab 1280

/-- ROWS_T (R467). -/
def rowsOf (v : VitRec) (slots prefills : Nat) : Nat := slots * (v.depth + 1) + prefills

/-- The items of the work area in order (R467). -/
def SrvCfg.items (c : SrvCfg) (v : VitRec) : List Nat :=
  [tableBytes v, tableBytes v, 32 * v.slots, 8 * c.cand * rowsOf v v.slots v.prefills, 2 * 8192 * 4096, 2 * 65536 * 1024,
   2 * 8192 * 4 * c.maxPages, 2 * 65536 * 4 * c.maxPages, 2 * (c.pageCount + c.annexPages)]

/-- The address of an item of the work area. -/
def SrvCfg.item (c : SrvCfg) (v : VitRec) (i : Nat) : Nat :=
  c.workBase + ((c.items v).take i).foldl (fun a n => a + roundUp n 4096) 0

/-- The sum of R467. -/
def SrvCfg.workSum (c : SrvCfg) (v : VitRec) : Nat := (c.items v).foldl (fun a n => a + roundUp n 4096) 0

/-- The address of a page by its number, [31] naming the annex pool (R468). -/
def SrvCfg.page (c : SrvCfg) (p : Nat) : Nat :=
  if p < 2 ^ 31 then c.pageBase + p * c.pageBytes else c.annexBase + (p - 2 ^ 31) * c.pageBytes

/-- A page's number in the table of page counts: the GDDR7 pages, then those of the annex (R467; DEDUCED,
notes/assumptions/65.md). -/
def SrvCfg.countNo (c : SrvCfg) (p : Nat) : Nat := if p < 2 ^ 31 then p else c.pageCount + (p - 2 ^ 31)

/-- The counts of pages as they lie in the work area (R467). -/
def State.putCounts (s : State) (e : Nat) (ps : List Nat) : State :=
  match (s.eng e).cfg with
  | some c =>
    let at_ := c.item (s.vitOf c.region) 8
    { s with ext := ps.foldl (fun m p => wrBytes m (at_ + 2 * c.countNo p) (leBytes 2 (mget (s.eng e).pageCnt p 0))) s.ext }
  | none => s

/-! ## The pair (R544 to R554) -/

/-- The mirror ports. -/
def State.mirPorts (s : State) : List Nat := (List.range 32).filter fun p => s.portRole p == 2

/-- The mirror ports that are UP, in increasing number. -/
def State.mirUp (s : State) : List Nat := s.mirPorts.filter fun p => s.portState p == 3

/-- MIR_STATE.STATE (R546). -/
def State.pairState (s : State) : Nat := s.fld F.mirState_state 0

/-- The module is the leader of its pair (R544). -/
def State.leader (s : State) : Bool := decide (s.ownId < s.mode.partner)

/-- MIR_STATE.LEADER of a module that may pair (R544, R562). -/
def State.setLeader (s : State) : State := s.setFld F.mirState_leader 0 (b2n (s.mode.mirror != 0 && s.leader))

/-- A control message of the pairing protocol, or a record or heartbeat, on the lowest-numbered UP mirror port (R547). -/
def State.mirSend (s : State) (type : Nat) (args : List Nat) (body : List Byte) : State :=
  match s.mirUp with
  | [] => s
  | p :: _ =>
    let s := s.modFab fun f => { f with sent := f.sent ++ [⟨s.mode.partner, type, 0, args⟩] }
    (fragments type s.mode.partner s.ownId 0 body).foldl (fun s k => s.queueOn p k) s

/-- A page's count falls by one; at zero the page is free (R475). -/
def pageDown (m : SMap Nat) (p : Nat) : SMap Nat :=
  let n := mget m p 0
  if n ≤ 1 then mdel m p else mput m p (n - 1)

/-- A page's count rises by one (R475). -/
def pageUp (m : SMap Nat) (p : Nat) : SMap Nat := mput m p (mget m p 0 + 1)

/-- R552: the module frees its mirror of the other. -/
def State.freeMirror (s : State) : State :=
  let s := s.mir.pageMap.foldl (fun s q =>
    (s.modEng q.2.2.1 fun e => { e with pageCnt := pageDown e.pageCnt q.2.2.2 }).putCounts q.2.2.1 [q.2.2.2]) s
  s.modMir fun m =>
    { m with
      mirrored := [], mirCat := [], waitAck := [], pageMap := [], kvGot := [], kvPages := [], loading := [], grants := []
      pendEmis := if s.mode.mirror = 2 then m.pendEmis else [] }

/-- R538, R615: a handover that has not taken place is given up, and no request moves: an activation that waits for it completes with
0x00A7, a FENCE_OUT with 0x0087, and their engines admit again. -/
def State.abandon (s : State) : State :=
  let act := s.mir.updAct
  let cmds := s.wts.fenceCmd
  let s := s.modMir fun m => { m with
    updAct := none, updReady := false, handover := none, handRids := [], giveRids := [], giving := false, heard := false, cover := false
    fencing := false }
  let s := s.modWts fun w => { w with fenceCmd := [], fenced := w.fenced.filter fun r => !cmds.any fun f => f.1 == r }
  let open_ (g : Engine) : Engine :=
    { g with fencedOut := match g.cfg with | some c => s.wts.fenced.contains c.region | none => false }
  let s := if act.isSome || !cmds.isEmpty then { s with engs := s.engs.map fun (g : Nat × Engine) => (g.1, open_ g.2) } else s
  let s := cmds.foldl (fun s f => s.complete f.2 0x0204 0x0087) s
  match act with | some c => s.complete c 0x0302 0x00A7 | none => s

/-- R546: the pair's state changes, with event 0x02C0; entering DEGRADED frees the mirror (R552), and a departure other than to FENCED
gives up a handover in progress (R538, R615). -/
def State.setPair (s : State) (st : Nat) : State :=
  if s.pairState = st then s
  else
    let s := if st = 7 then s else s.abandon
    let s := (s.setFld F.mirState_state 0 st).event 0x02C0 8 0 []
    if st = 5 then s.freeMirror else s

/-- R558, R559: the module becomes the voice of every request, and writes the emissions of the partner's voice from a step on. -/
def State.takeVoice (s : State) (from_ : Nat) : State :=
  let due := s.mir.pendEmis.filter fun m => decide (from_ ≤ m.step)
  let s := due.foldl (fun s m => s.modFunc m.fn fun f => { f with emis := f.emis ++ [m] }) s
  { s with
    mir := { s.mir with pendEmis := [] }
    engs := s.engs.map fun (g : Nat × Engine) =>
      (g.1, { g.2 with reqs := g.2.reqs.map fun (q : Nat × Req) => (q.1, { q.2 with silent := false }) }) }

/-- R554: the partner is lost once every mirror port is DOWN and MISSED is at least 3. -/
def State.checkLoss (s : State) : State :=
  if [3, 4, 5, 7, 8].contains s.pairState && s.mirPorts.all (fun p => s.portState p == 1) && !s.mirPorts.isEmpty
      && decide (3 ≤ s.fld F.mirState_missed 0) then
    let s := (((s.setPair 6).event 0x02C2 8 0 []).satAdd F.mirStat_losses 0 1).modMir fun m =>
      { m with adopt := true, dropAt := false, waitAck := [] }
    if s.mode.mirror = 2 then s.takeVoice s.mir.hbStep else s
  else s

/-- The bytes of a configuration block as the pair digest takes them (R545). -/
def pairBlock (raw : List Byte) : List Byte :=
  raw.zipIdx.map fun b =>
    if (0x10 ≤ b.2 ∧ b.2 < 0x18) ∨ (0x20 ≤ b.2 ∧ b.2 < 0x30) ∨ (0x3A ≤ b.2 ∧ b.2 < 0x3C) then 0 else b.1

/-- R545: the pair digest. -/
def State.pairDigest (s : State) : List Byte :=
  let blocks := (List.range 8).flatMap fun r =>
    match [0, 1].find? fun e => (match (s.eng e).cfg with | some c => c.region == r | none => false) with
    | some e => ((s.eng e).cfg.map fun c => pairBlock c.raw).getD []
    | none => []
  sha256 (((s.img.map (·.pairRaw)).getD []) ++ blocks)

/-- The body of HELLO (R545; layout in notes/assumptions/15.md). -/
def helloBytes (h : Hello) : List Byte := leBytes 4 h.id ++ leBytes 1 h.mirror ++ leBytes 8 h.imageId.toNat ++ h.digest

/-- HELLO goes to the partner (R545). -/
def State.tellHello (s : State) : State :=
  if s.mode.mirror = 0 then s
  else
    let id := (s.img.map (·.id)).getD 0
    s.mirSend 0x50 [s.ownId, s.mode.mirror, id.toNat]
      (helloBytes ⟨s.ownId, s.mode.mirror, id, s.pairDigest⟩)

/-- R545: HELLO of an UP port, a load or an SRV_CONFIG, after which the partner sends its own. -/
def State.sendHello (s : State) : State :=
  if s.mirUp.isEmpty then s.tellHello else s.tellHello.modMir fun m => { m with helloSent := true }

end Sys2Proof.Machine
end

