-- ==== Sys2Proof/Machine/Dma.lean ====
section
/-! DEFINITION. The DMA engines: descriptors, slots, swapping, states, halts and bank gates (chapter 08). -/

namespace Sys2Proof.Machine

/-! ## Channels and grants (R305 to R310) -/

/-- The key of a channel. -/
def chIx (c : Chan) : Nat := 32 * c.die + c.ch

/-- The channel with a key. -/
def chanOf (ix : Nat) : Chan := ⟨ix / 32, ix % 32⟩

/-- The channel exists: 32 on an I/O die, 4 on a compute die (R305). -/
def chanExists (c : Chan) : Bool := if c.die ≤ 7 then decide (c.ch ≤ 3) else decide (c.die ≤ 9) && decide (c.ch ≤ 31)

/-- The channel's event source index (R347). -/
def dmaSource (ix : Nat) : Nat := 16 * (ix / 32) + ix % 32

/-- The grants of a channel for a resource: 0 mesh, 1 GDDR7, 2 annex (R35, R308). -/
def State.grantsOf (s : State) (ix res : Nat) : List GrantRec :=
  let c := chanOf ix
  ((s.img.map (·.grants)).getD []).filter fun g =>
    g.res == res && g.die == c.die && g.ch == (if c.die ≤ 7 then c.ch else c.ch / 2)

/-- R307: the channel has a slot of a resource in this cycle. -/
def State.dmaSlot (s : State) (ix res : Nat) : Bool :=
  let c := if res = 0 then s.sched else s.cnt
  (s.grantsOf ix res).any fun g => c % g.period == g.phase

/-- The cycle, plus one, a slot of a resource is counted in. -/
def State.slotMark (s : State) (res : Nat) : Nat := if res = 0 then s.sched + 1 else s.cnt + 1

/-- The resource an access needs a slot of, by its space and address (R307, R313). -/
def State.resOf (s : State) (sp a : Nat) : Option Nat :=
  if sp = 0 then (if a < s.gddrSize then some 1 else (annexPortOf a).map fun _ => 2) else if sp = 2 then some 0 else none

/-- DMA_STATn.STATE (R317). -/
def State.dmaState (s : State) (ix : Nat) : Nat := s.fld F.dmaStat_state ix

/-- A descriptor's fields as DMA_CTLn[15:0] lays them out (R312, R326). -/
def ctlSrcsp (c : Nat) : Nat := bits c 2 0
def ctlDstsp (c : Nat) : Nat := bits c 5 3
def ctlSwap (c : Nat) : Nat := bits c 10 8

/-- The swap unit in bytes (R315). -/
def swapUnit (sw : Nat) : Nat := if sw = 0 then 1 else if sw = 1 then 2 else if sw = 2 ∨ sw = 4 then 4 else 8

/-- The byte of its unit that a byte of the reordered stream comes from (R315). -/
def swapFrom (sw j : Nat) : Nat :=
  if sw = 0 then j else if sw = 4 then (j + 2) % 4 else if sw = 5 then (j + 4) % 8 else swapUnit sw - 1 - j

/-- A space a channel's die may name (R305). -/
def spaceOk (die sp : Nat) : Bool := if die ≤ 7 then sp == 0 || sp == 2 else sp == 0 || sp == 1 || sp == 3

/-- The reserved bits of an address are zero (R306). -/
def addrOk (sp a : Nat) : Bool :=
  if sp = 2 then bits a 63 48 == 0 && bits a 31 30 == 0 && bits a 23 21 == 0 else if sp = 3 then a == 0 else true

/-- R313: the checks of a start but that of the state; the status, 0 when it is accepted. -/
def State.descCheck (s : State) (ix : Nat) (d : Desc) : Nat :=
  let ctl := d.ctrl.toNat
  let sp := ctlSrcsp ctl
  let dp := ctlDstsp ctl
  let die := ix / 32
  if d.len = 0 ∨ !spaceOk die sp ∨ !spaceOk die dp ∨ (sp = 1 ∧ dp = 1) ∨ (sp = 3 ∧ dp = 3) ∨ 5 < ctlSwap ctl
      ∨ d.len.toNat % swapUnit (ctlSwap ctl) ≠ 0 ∨ bits ctl 31 16 ≠ 0 ∨ bits ctl 7 6 ≠ 0
      ∨ bits d.next.toNat 63 48 ≠ 0 ∨ bits d.next.toNat 4 1 ≠ 0 ∨ !addrOk sp d.src.toNat ∨ !addrOk dp d.dst.toNat then 0x0071
  else
    let need := (s.resOf sp d.src.toNat).toList ++ (s.resOf dp d.dst.toNat).toList
      ++ (if bits d.next.toNat 0 0 = 1 then [1] else [])
    if need.any fun r => (s.grantsOf ix r).isEmpty then 0x0072 else 0

/-- The channel's registers as a descriptor. -/
def State.dmaRegs (s : State) (ix : Nat) : Desc :=
  ⟨BitVec.ofNat 64 (s.reg .dmaSrc ix), BitVec.ofNat 64 (s.reg .dmaDst ix), BitVec.ofNat 32 (s.reg .dmaLen ix),
   BitVec.ofNat 32 (bits (s.reg .dmaCtl ix) 15 0), BitVec.ofNat 64 (s.reg .dmaNext ix)⟩

/-- A descriptor is loaded into the channel's registers (R312). -/
def State.loadDesc (s : State) (ix : Nat) (d : Desc) : State :=
  let s := ((s.setReg .dmaSrc ix d.src.toNat).setReg .dmaDst ix d.dst.toNat).setReg .dmaLen ix d.len.toNat
  (s.setReg .dmaCtl ix (putBits (s.reg .dmaCtl ix) 15 0 d.ctrl.toNat)).setReg .dmaNext ix d.next.toNat

/-- The channel runs from its registers. -/
def State.dmaRun (s : State) (ix : Nat) : State :=
  ((s.setFld F.dmaStat_state ix 1).setFld F.dmaStat_cause ix 0).modDma ix fun c =>
    { c with rdSent := 0, rd := 0, wrSent := 0, wr := 0, bufAt := 0, buf := [], drain := .none, rmw := false, fetch := false }

/-- A command-started transfer completes (R345). -/
def State.dmaComplete (s : State) (ix status : Nat) : State :=
  match (s.dmaCh ix).cmd with
  | some c => (s.modDma ix fun c => { c with cmd := none }).complete c 0x0006 status (s.reg .dmaStat ix)
  | none => s

/-! ## Drains and halts (R318, R320, R322) -/

/-- The stream bytes a drain, or a write, may reach: whole swap units of what has been read. -/
def State.dmaLimit (s : State) (ix : Nat) : Nat :=
  let u := swapUnit (s.fld F.dmaCtl_swap ix)
  (s.dmaCh ix).rd / u * u

/-- A DMA write no longer counts toward its banks (R322). -/
def State.bankDone (s : State) (p : MPkt) : State :=
  { s with bankOut := p.banks.foldl (fun m b =>
      let k := 32 * p.src + b
      let n := mget m k 0
      if n ≤ 1 then mdel m k else mput m k (n - 1)) s.bankOut }

/-- The packets of a channel that a predicate selects leave the mesh, with their places in its queues and their accesses. -/
def State.dropDma (s : State) (ix : Nat) (f : MPkt → Bool) : State :=
  let gone := s.mpkts.filter fun p => p.kind == .dma && p.chan == ix && f p
  let s := { s with mpkts := s.mpkts.filter fun p => !(p.kind == .dma && p.chan == ix && f p) }
  gone.foldl (fun s p =>
    let s := if p.write then s.bankDone p else s
    (s.modTile p.src fun T => { T with bufq := T.bufq.filter fun x => x.id != p.id }).settleQueue p.at_ (nextDir p.at_ p.dst)) s

/-- A drain begins: no new reads (R318). -/
def State.dmaDrain (s : State) (ix : Nat) (k : DrainKind) : State :=
  (s.dropDma ix fun p => !p.write).modDma ix fun c => { c with drain := k, rdSent := c.rd, rmw := false, drainAt := s.cnt + 1 }

/-- R320: the access at stream position `pos` fails: the channel writes what precedes it and then halts; the record of an
earlier failure stands. -/
def State.dmaFail (s : State) (ix : Nat) (write : Bool) (sp addr cause pos : Nat) : State :=
  let c := s.dmaCh ix
  let s := if c.drain = .fail then s
    else s.modDma ix fun c =>
      { c with drain := .fail, failAddr := addr, failWrite := write, failSp := sp, failCause := cause, rmw := false }
  if write then
    let s := s.dropDma ix fun p => !p.write || decide (pos ≤ p.soff)
    (s.setReg .dmaSrc ix (s.reg .dmaSrc ix - (c.rd - pos))).modDma ix fun c =>
      { c with rd := min c.rd pos, rdSent := min c.rd pos, wrSent := min c.wrSent pos, buf := c.buf.take (pos - c.bufAt) }
  else (s.dropDma ix fun p => !p.write && decide (pos ≤ p.soff)).modDma ix fun c => { c with rdSent := min c.rdSent pos }

/-- DMA_DST counts the bytes written, but for the broadcast space, which has no address (R306). -/
def State.setDst (s : State) (ix v : Nat) : State := if s.fld F.dmaCtl_dstsp ix = 3 then s else s.setReg .dmaDst ix v

/-- The registers address the first byte of the first swap unit not wholly written, so that a start from them completes the
transfer; bytes read beyond are discarded (R318; DEDUCED, notes/assumptions/18.md). -/
def State.dmaSettle (s : State) (ix : Nat) : State :=
  let c := s.dmaCh ix
  let k := c.wr / swapUnit (s.fld F.dmaCtl_swap ix) * swapUnit (s.fld F.dmaCtl_swap ix)
  let s := ((s.setReg .dmaSrc ix (s.reg .dmaSrc ix - (c.rd - k))).setDst ix (s.reg .dmaDst ix - (c.wr - k))).setReg
    .dmaLen ix (s.reg .dmaLen ix + (c.wr - k))
  s.modDma ix fun c => { c with rdSent := 0, rd := 0, wrSent := 0, wr := 0, bufAt := 0, buf := [], drain := .none, rmw := false }

/-- R317, R320: the channel is HALTED with a cause, event 0x0271 or 0x0272. -/
def State.dmaHalt (s : State) (ix : Nat) (write : Bool) (sp addr cause : Nat) : State :=
  let s := (((s.setFld F.dmaStat_state ix 4).setFld F.dmaStat_cause ix cause).setFld F.dmaStat_dir ix (b2n write)).setFld
    F.dmaStat_errsp ix sp
  let s := ((s.modDma ix fun c => { c with haltAt := s.cnt + 1 }).setReg .dmaErr ix addr).event (if cause = 7 then 0x0272 else 0x0271) 5 (dmaSource ix) [(8, (s.dmaCh ix).desc)]
  s.dmaComplete ix 0x0074

/-- The end of a drain: PAUSED, IDLE or HALTED (R318, R320). -/
def State.dmaDrained (s : State) (ix : Nat) : State :=
  let c := s.dmaCh ix
  let s := s.dmaSettle ix
  match c.drain with
  | .pause => s.setFld F.dmaStat_state ix 3
  | .abort => (s.setFld F.dmaStat_state ix 0).dmaComplete ix 0x0073
  | .fail => s.dmaHalt ix c.failWrite c.failSp c.failAddr c.failCause
  | .none => s

/-! ## Descriptors (R312 to R314) -/

/-- The descriptor at a GDDR7 address. -/
def State.descAt (s : State) (a : Nat) : Desc :=
  let f (o n : Nat) : Nat := leNat (rdBytes s.ext (a + o) n)
  ⟨BitVec.ofNat 64 (f 0 8), BitVec.ofNat 64 (f 8 8), BitVec.ofNat 32 (f 16 4), BitVec.ofNat 32 (f 20 4), BitVec.ofNat 64 (f 24 8)⟩

/-- The broadcast whose stream a channel sends (R523). -/
def State.bcOf (s : State) (ix : Nat) : Option Bc :=
  if 8 ≤ ix / 32 then
    match mfind s.wts.bcs (ix / 32 - 8) with
    | some b => if b.sending && b.chan % 32 == ix % 32 then some b else none
    | none => none
  else none

/-- The broadcast open on an I/O die changed. -/
def State.modBc (s : State) (die : Nat) (f : Bc → Bc) : State :=
  s.modWts fun w => match mfind w.bcs die with | some b => { w with bcs := mput w.bcs die (f b) } | none => w

/-- The longest descriptor of a broadcast (R523). -/
def bcDescMax : Nat := 0xFFFFC000

/-- R314: a channel's LEN has reached 0: the descriptor at NEXT is to be read, in a slot of the GDDR7 grant, also while the channel
drains (R318; DEDUCED, notes/assumptions/62.md); or DONE. -/
def State.descEnd (s : State) (ix : Nat) : State :=
  let c := s.dmaCh ix
  let s := s.setFld F.dmaStat_descs ix (s.fld F.dmaStat_descs ix + 1)
  let s := if s.fld F.dmaCtl_irq ix = 1 then s.event 0x0270 5 (dmaSource ix) [(8, c.desc)] else s
  match s.bcOf ix with
  | some b =>
    if 0 < b.left then
      ((s.setReg .dmaLen ix (min b.left bcDescMax)).dmaRun ix).modBc (ix / 32 - 8) fun b =>
        { b with left := b.left - min b.left bcDescMax }
    else (s.dmaSettle ix).setFld F.dmaStat_state ix 5
  | none =>
    if s.fld F.dmaNext_chain ix = 1 then
      let a := s.fld F.dmaNext_addr ix * 32
      let s := s.dmaSettle ix
      if !s.mapped a 32 then s.dmaHalt ix false 0 a 3
      else if s.gddrSize < a + 32 then s.dmaHalt ix false 0 a 9
      else s.modDma ix fun k => { k with fetch := true, drain := c.drain }
    else if c.drain = .abort then ((s.dmaSettle ix).setFld F.dmaStat_state ix 0).dmaComplete ix 0x0073
    else ((s.dmaSettle ix).setFld F.dmaStat_state ix 5).dmaComplete ix 0x0000

/-- The read of a chained descriptor fails, or what it holds does (R314, R320). -/
def State.fetchFails (s : State) (ix addr cause : Nat) : State :=
  (s.modDma ix fun c => { c with fetch := false, drain := .none }).dmaHalt ix false 0 addr cause

/-- A chained descriptor has been read: the channel goes on with it, or is paused or idle at the end of its drain (R314, R318). -/
def State.descRead (s : State) (ix a : Nat) : State :=
  let c := s.dmaCh ix
  let d := s.descAt a
  if s.descCheck ix d ≠ 0 then s.fetchFails ix a 9
  else
    let s := (s.loadDesc ix d).modDma ix fun k => { k with desc := a, fetch := false, drain := .none }
    match c.drain with
    | .pause => s.setFld F.dmaStat_state ix 3
    | .abort => (s.setFld F.dmaStat_state ix 0).dmaComplete ix 0x0073
    | _ => s.dmaRun ix

/-! ## Accesses (R307, R315, R316) -/

/-- The address of the next byte to read, and the bytes of the next read access. -/
def State.nextRead (s : State) (ix : Nat) : Nat × Nat :=
  let c := s.dmaCh ix
  let a := s.reg .dmaSrc ix + (c.rdSent - c.rd)
  (a, min (64 - a % 64) (s.reg .dmaLen ix - (c.rdSent - c.wr)))

/-- The address of the next byte to write, and the bytes of the next write access; 0 bytes while it is not ready. -/
def State.nextWrite (s : State) (ix : Nat) : Nat × Nat :=
  let c := s.dmaCh ix
  let a := s.reg .dmaDst ix + (c.wrSent - c.wr)
  let want := min (64 - a % 64) (s.reg .dmaLen ix - (c.wrSent - c.wr))
  let have_ := s.dmaLimit ix - c.wrSent
  (a, if want ≤ have_ then want else if c.drain = .none then 0 else have_)

/-- R315: `n` bytes of the reordered stream from a position. -/
def State.swapped (s : State) (ix at_ n : Nat) : List Byte :=
  let c := s.dmaCh ix
  let sw := s.fld F.dmaCtl_swap ix
  let u := swapUnit sw
  (List.range n).map fun k =>
    let i := at_ + k
    c.buf.getD (i / u * u + swapFrom sw (i % u) - c.bufAt) 0

/-- The anchor tile of a compute die (R311). -/
def anchor (die : Nat) : Nat := tIx ⟨16 * (die % 4) + 8, if die < 4 then 12 else 36⟩

/-- The tile, handle and offset a scratchpad address names (R306). -/
def spXy (a : Nat) : Xy := ⟨bits a 47 40, bits a 39 32⟩
def spTile (a : Nat) : Nat := tIx (spXy a)
def spHandle (a : Nat) : Nat := bits a 29 24

/-- The offset within the handle: a transfer that runs on past 2 MiB leaves its handle and does not come back to offset 0. -/
def spOff (a : Nat) : Nat := bits a 23 0

/-- A scratchpad address names a tile of the mesh that the grade does not have (R4, R10). -/
def State.spAbsent (s : State) (sp a : Nat) : Bool :=
  sp == 2 && decide ((spXy a).x < 64) && decide ((spXy a).y < 48) && s.dieAbsent (dieOf (spXy a))

/-- R311, R320: a scratchpad access cannot be made: absent tile, invalid handle, out of bounds, or a route fault, of a read on the way
back too. -/
def State.spBad (s : State) (die : Nat) (write : Bool) (a n : Nat) : Bool :=
  let y := spTile a
  let x := anchor die
  !s.inMesh (spXy a) || dieOf (xyOf y) != die || s.role (xyOf y) != 1 || s.role (xyOf x) == 0
    || !s.routeOk y (hopCount x y) x || (!write && !s.routeOk x (hopCount y x) y) || !(s.hnd y (spHandle a)).inRange ⟨spOff a, n⟩

/-- R320: the cause an access fails for, as far as the module itself finds it; 0 for none. -/
def State.dmaCause (s : State) (ix : Nat) (write : Bool) (sp a n : Nat) : Nat :=
  if sp = 1 then (if s.fwPass (s.fld F.dmaCtl_func ix) write a n then 0 else 2)
  else if sp = 0 then
    if !s.mapped a n then 3
    else if write && decide (a + n ≤ s.gddrSize) && !s.inRegionSpace a n then 3
    else 0
  else if sp = 2 then (if s.spBad (ix / 32) write a n then 6 else 0)
  else 0

/-- Bytes read join the stream. -/
def State.dmaGot (s : State) (ix : Nat) (bs : List Byte) : State :=
  (s.setReg .dmaSrc ix (s.reg .dmaSrc ix + bs.length)).modDma ix fun c => { c with rd := c.rd + bs.length, buf := c.buf ++ bs }

/-- `n` bytes have been written; LEN may have reached 0. -/
def State.dmaPut (s : State) (ix n : Nat) : State :=
  let u := swapUnit (s.fld F.dmaCtl_swap ix)
  let s := (s.setDst ix (s.reg .dmaDst ix + n)).setReg .dmaLen ix (s.reg .dmaLen ix - n)
  let s := s.modDma ix fun c =>
    let keep := (c.wr + n) / u * u
    { c with wr := c.wr + n, bufAt := keep, buf := c.buf.drop (keep - c.bufAt) }
  if s.reg .dmaLen ix = 0 then s.descEnd ix else s

/-- The primary children of a node, and those it has adopted (R424, R525). -/
def Bc.children (b : Bc) : List Nat :=
  ((List.range b.tree.nodes.length).filter fun i =>
    i != 0 && ((b.tree.nodes.map (·.parent)).getD i 0xFFFF == b.node)) ++ b.adopted

/-- The body of a chunk's packet (R522). -/
def chunkBody (id : BitVec 64) (data : List Byte) : List Byte :=
  leBytes 8 id.toNat ++ leBytes 4 data.length ++ [0, 0, 0, 0] ++ data

/-- A packet carries chunk `j` of a broadcast (R522). -/
def chunkHolds (id : BitVec 64) (j : Nat) (data : List Byte) (p : Packet) : Bool :=
  p.type == 0x01 && p.ref.toNat / 2 ^ 16 == j && p.body == chunkBody id data

/-- R522: a chunk goes to a child as a bulk packet that originates at the die. -/
def State.sendChunk (s : State) (die : Nat) (b : Bc) (child j : Nat) (data : List Byte) : State :=
  let dest := (b.tree.nodes.map (·.module)).getD child 0
  s.modFdie die fun d => { d with origin := d.origin ++
    [⟨0x01, 0, dest, s.ownId, BitVec.ofNat 64 (j * 2 ^ 16 + die * 256 + b.chan % 32), 0, 1,
      chunkBody b.tree.bcastId data⟩] }

/-- The length of a chunk, and the number of chunks of a stream (R522). -/
def chunkLen : Nat := 16384
def chunksOf (t : BTree) : Nat := ceilDiv t.length chunkLen

/-- R523, R527: node 0 holds DONE from a node, of itself once its stream is sent; with the last of them BCAST completes. -/
def State.bcNodeDone (s : State) (die node : Nat) : State :=
  match mfind s.wts.bcs die with
  | none => s
  | some b =>
    if b.node ≠ 0 ∨ b.cmd.isNone ∨ b.tree.nodes.length ≤ node ∨ b.dones.contains node then s
    else
      let s := s.modBc die fun b => { b with dones := b.dones ++ [node] }
      if b.dones.length + 1 < b.tree.nodes.length then s
      else
        let s := match b.cmd with | some c => s.complete c 0x0200 0 | none => s
        ((s.event 0x02B0 8 0 [(8, b.tree.bcastId.toNat)]).setFld F.dmaBcstat_state die 3).modBc die fun b =>
          { b with cmd := none, stopped := true, sending := false }

/-- The bodies of the messages of a broadcast: OPEN carries the descriptor and LENGTH alone, 32,840 bytes for 1,024 nodes (R407, R523); the
others hold their subtype in byte 0 and their items behind it (R523; DESIGN CHOICE, notes/assumptions/15.md). -/
def bcBytes (t : BTree) (sub : Nat) (args : List Nat) : List Byte :=
  if sub = 0x10 then
    leBytes 4 0x54424B54 ++ leBytes 2 1 ++ leBytes 2 t.nodes.length ++ leBytes 8 t.bcastId.toNat ++ List.replicate 48 0
      ++ (t.nodes.flatMap fun n => leBytes 4 n.module ++ leBytes 2 n.parent ++ leBytes 2 n.alt ++ leBytes 8 n.dest ++ leBytes 8 n.map
        ++ leBytes 1 n.chan ++ List.replicate 7 0) ++ leBytes 8 t.length
  else leBytes 1 sub ++ argBytes args

/-- No tree: the messages of a broadcast but OPEN carry none. -/
def noTree : BTree := ⟨0, 0, []⟩

/-- A message of a broadcast goes to a node. -/
def State.bcSend (s : State) (b : Bc) (node sub : Nat) (args : List Nat) : State :=
  s.sendMsg ((b.tree.nodes.map (·.module)).getD node 0) 0x40 b.tree.bcastId (sub :: args) (bcBytes b.tree sub args)

/-- A node that only relays (R521). -/
def relayOnly (n : TreeNode) : Bool := n.dest == 2 ^ 64 - 1

/-- The entry of this module's node. -/
def Bc.entry (b : Bc) : TreeNode := b.tree.nodes.getD b.node ⟨0, 0xFFFF, 0xFFFF, 0, 0, 2 ^ 64 - 1, 0, 0⟩

/-- The bytes of chunk `j` of a stream. -/
def chunkBytesOf (t : BTree) (j : Nat) : Nat := min chunkLen (t.length - chunkLen * j)

/-- The node holds a chunk, or a write of it is on its way to memory. -/
def Bc.has (b : Bc) (j : Nat) : Bool := b.held.contains j || b.wpend.any fun w => w.1 == j

/-- R524, R527: the node holds chunk `j`: its map bit is set, and DONE goes to node 0 with the last. -/
def State.bcHeld (s : State) (die j : Nat) : State :=
  match mfind s.wts.bcs die with
  | none => s
  | some b =>
    let m := b.entry.map + j / 8
    let s := if relayOnly b.entry then s
      else { s with ext := wrByte s.ext m (rdByte s.ext m ||| BitVec.ofNat 8 (2 ^ (j % 8))) }
    let s := (s.modBc die fun b => { b with held := b.held ++ [j] }).setFld F.dmaBcstat_held die (b.held.length + 1)
    if b.held.length + 1 = chunksOf b.tree then (s.setFld F.dmaBcstat_state die 3).bcSend b 0 0x14 [b.node] else s

/-- The broadcast whose chunks a channel writes and reads back at a node that receives it (R524, R525). -/
def State.bcRecv (s : State) (ix : Nat) : Option Bc :=
  if 8 ≤ ix / 32 then
    match mfind s.wts.bcs (ix / 32 - 8) with
    | some b => if b.node != 0 && !b.stopped && !relayOnly b.entry && b.chan % 32 == ix % 32 then some b else none
    | none => none
  else none

/-- The next access of GDDR7 that a channel makes for such a broadcast: its address and length. -/
def State.bcAcc (s : State) (ix : Nat) (write : Bool) : Option (Nat × Nat) :=
  match s.bcRecv ix with
  | none => none
  | some b =>
    let acc (j done len : Nat) : Option (Nat × Nat) :=
      let a := b.entry.dest + chunkLen * j + done
      some (a, min (64 - a % 64) (len - done))
    if write then (match b.wpend with | (j, data, done) :: _ => acc j done data.length | [] => none)
    else match b.rpend with | (_, j, got) :: _ => acc j got.length (chunkBytesOf b.tree j) | [] => none

/-- Bytes reach the broadcast space; every chunk that is complete is sent to node 0's primary children (R522, R523). -/
def State.bcastOut (s : State) (die : Nat) (bs : List Byte) : State :=
  match mfind s.wts.bcs die with
  | none => s
  | some b =>
    let all := b.chunk ++ bs
    let sent := b.sent + bs.length
    if all.length < chunkLen ∧ sent < b.tree.length then s.modBc die fun b => { b with chunk := all, sent := sent }
    else
      let j := (sent - 1) / chunkLen
      let s := b.children.foldl (fun s c => s.sendChunk die b c j (all.take chunkLen)) s
      let s := (s.modBc die fun b => { b with chunk := all.drop chunkLen, sent := sent, held := b.held ++ [j] }).setFld
        F.dmaBcstat_held die (b.held.length + 1)
      if b.tree.length ≤ sent then s.bcNodeDone die 0 else s

/-- A read access is made. -/
def State.dmaRead (s : State) (ix sp a n : Nat) : State :=
  let s := s.modDma ix fun c => { c with rdSent := c.rdSent + n }
  if sp = 0 then s.dmaGot ix (rdBytes s.ext a n)
  else if sp = 1 then s.dmaGot ix (rdBytes s.hostMem a n)
  else if sp = 2 then
    let c := s.dmaCh ix
    s.enterPkt { id := 0, kind := .dma, src := spTile a, dst := spTile a, handle := spHandle a, off := spOff a, issued := s.sched,
                 at_ := anchor (ix / 32), since := s.sched, chan := ix, soff := c.rdSent - n, len := n }
  else s

/-- A write access is made. -/
def State.dmaWrite (s : State) (ix sp a n : Nat) : State :=
  let bs := s.swapped ix (s.dmaCh ix).wrSent n
  let s := s.modDma ix fun c => { c with wrSent := c.wrSent + n, rmw := false }
  if sp = 0 then { s with ext := wrBytes s.ext a bs }.dmaPut ix n
  else if sp = 1 then { s with hostMem := wrBytes s.hostMem a bs }.dmaPut ix n
  else if sp = 2 then
    let banks := (s.hnd (spTile a) (spHandle a)).banks [⟨spOff a, n⟩]
    let s := { s with bankOut := banks.foldl (fun m b => mput m (32 * spTile a + b) (mget m (32 * spTile a + b) 0 + 1)) s.bankOut }
    s.enterPkt { id := 0, kind := .dma, src := spTile a, dst := spTile a, handle := spHandle a, off := spOff a, issued := s.sched,
                 at_ := anchor (ix / 32), since := s.sched, chan := ix, soff := (s.dmaCh ix).wrSent - n, len := n, data := bs,
                 write := true, banks := banks }
  else (s.bcastOut (ix / 32 - 8) bs).dmaPut ix n

/-- The channel has an access of a direction ready: its space, address and length (R307, R318); that of a chained descriptor (R314)
comes alone. -/
def State.dmaNextAcc (s : State) (ix : Nat) (write : Bool) : Option (Nat × Nat × Nat) :=
  let st := s.dmaState ix
  let c := s.dmaCh ix
  if c.fetch then (if !write && (st == 1 || st == 2) then some (0, s.fld F.dmaNext_addr ix * 32, 32) else none)
  else if write then
    let q := s.nextWrite ix
    let sp := s.fld F.dmaCtl_dstsp ix
    let blocked := sp == 3 && ((s.bcOf ix).isNone || s.fld F.fabEpoch_state (ix / 32 - 8) == 1)
    if (st = 1 ∨ st = 2) ∧ q.2 ≠ 0 ∧ !blocked then some (sp, q.1, q.2) else none
  else
    let q := s.nextRead ix
    let sp := s.fld F.dmaCtl_srcsp ix
    if st = 1 ∧ c.drain = .none ∧ q.2 ≠ 0 ∧ sp ≠ 3 then some (sp, q.1, q.2) else none

/-- The channel has an access ready that needs a slot of a resource. -/
def State.dmaReady (s : State) (ix res : Nat) : Bool :=
  [true, false].any fun w =>
    (match s.dmaNextAcc ix w with | some (sp, a, _) => s.resOf sp a == some res | none => false) || (res == 1 && (s.bcAcc ix w).isSome)

/-- R309: queue accesses leave no capacity: one waits at the granule's channel and could be served, or a request at the annex port
and could be sent. -/
def State.queuesFirst (s : State) (a : Nat) : Bool :=
  match annexPortOf a with
  | some p => s.accs.any fun b => b.port == some p && s.annexSendable b
  | none => s.accs.any fun b => (List.range b.granules).any fun g =>
      (s.place (b.addr + 64 * g)).1 == (s.place a).1 && s.servable b g

/-- R307 to R309: the access may be made now. -/
def State.dmaMay (s : State) (ix sp a : Nat) : Bool :=
  match s.resOf sp a with
  | none => true
  | some r =>
    let m := s.slotMark r
    let pair := decide (8 ≤ ix / 32) && ix % 2 == 1
    s.dmaSlot ix r && mget (s.dmaCh ix).slotAt r 0 != m && !(r == 0 && s.held) && (r != 1 || (s.available a && s.pinsFree (s.place a).1))
      && !(r != 0 && s.queuesFirst a)
      && !(8 ≤ ix / 32 && mget (s.dmaCh (if ix % 2 = 1 then ix - 1 else ix + 1)).slotAt r 0 == m) && !(pair && s.dmaReady (ix - 1) r)

/-- R251, R283: the record of an access to external memory: a granule's on its channel, or the flits of the annex link. -/
def State.dmaMoved (s : State) (write : Bool) (a n : Nat) (res : GranRes) : State :=
  match annexPortOf a with
  | some p => s.occAdd 4 p (if write then annexFlits n else 1 + annexFlits n)
  | none => (s.granRecord write (a / 64 * 64) res).granBusy (a / 64 * 64)

/-- A granule of GDDR7 is lost in the next access of a direction: what a lost write leaves of its bytes (R283), and the halt
(R320). -/
def State.dmaLost (s : State) (ix : Nat) (write : Bool) (a n addr : Nat) : State :=
  let c := s.dmaCh ix
  if c.fetch then s.fetchFails ix addr 4
  else if write then
    let r := s.mixed a (s.swapped ix c.wrSent n)
    ({ r.1 with ext := wrBytes r.1.ext a r.2 }).dmaFail ix true 0 addr 4 c.wrSent
  else s.dmaFail ix false 0 addr 4 c.rdSent

/-- R524, R525: a channel's access for a broadcast that the node receives, in a slot of its GDDR7 grant: a chunk's bytes are written, a
narrow write in two slots (R316), or read back; a granule lost is recorded, and its bytes are as R283 leaves them (DEDUCED,
notes/assumptions/23.md). -/
def State.bcSlot (s : State) (ix : Nat) (write : Bool) (res : GranRes) : State :=
  match s.bcRecv ix, s.bcAcc ix write with
  | some b, some (a, n) =>
    if !s.dmaMay ix 0 a then s
    else
      let die := ix / 32 - 8
      let s := s.modDma ix fun c => { c with slotAt := mput c.slotAt 1 (s.slotMark 1) }
      let first := write && decide (n < 64) && !b.rmw
      let s := s.dmaMoved (write && !first) a n res
      if first then s.modBc die fun b => { b with rmw := true }
      else if write then
        match b.wpend with
        | (j, data, done) :: rest =>
          let bs := (data.drop done).take n
          let r := if res = .lost then s.mixed a bs else (s, bs)
          let s := { r.1 with ext := wrBytes r.1.ext a r.2 }
          if done + n < data.length then s.modBc die fun b => { b with rmw := false, wpend := (j, data, done + n) :: rest }
          else (s.modBc die fun b => { b with rmw := false, wpend := rest }).bcHeld die j
        | [] => s
      else
        match b.rpend with
        | (c, j, got) :: rest =>
          let got := got ++ (if res = .lost then List.replicate n 0xFF else rdBytes s.ext a n)
          if got.length < chunkBytesOf b.tree j then s.modBc die fun b => { b with rpend := (c, j, got) :: rest }
          else (s.modBc die fun b => { b with rpend := rest }).sendChunk die b c j got
        | [] => s
  | _, _ => s

/-- DMA_SLOT_ACCESS: the channel makes its next access of a direction in a slot it holds; a narrow write to memory uses two
slots (R307, R316); an access that fails halts the channel (R320).  A slot the channel does not need for itself serves the broadcast
that its node receives (R524, R525).  The operand also tells what the controller of a GDDR7 granule finds (R283). -/
def execDmaSlotAccess (ch : Chan) (acc : DmaTry) (s : State) : Out :=
  .next <|
    let ix := chIx ch
    let write := acc.write
    let res := acc.res
    match s.dmaNextAcc ix write with
    | none => s.bcSlot ix write res
    | some (sp, a, n) =>
      if !s.dmaMay ix sp a then s.bcSlot ix write res
      else
        let s := match s.resOf sp a with
          | some r => s.modDma ix fun c => { c with slotAt := mput c.slotAt r (s.slotMark r) }
          | none => s
        let c := s.dmaCh ix
        let cause := s.dmaCause ix write sp a n
        let first := write && decide (n < 64) && !c.rmw
        if cause ≠ 0 ∧ c.fetch then s.fetchFails ix a cause
        else if cause ≠ 0 then s.dmaFail ix write sp a cause (if write then c.wrSent else c.rdSent)
        else
          let s := if sp = 0 then s.dmaMoved (write && !first) a n res else s
          if sp = 0 ∧ a < s.gddrSize ∧ res = .lost then
            if first then s.dmaFail ix true 0 a 4 c.wrSent else s.dmaLost ix write a n a
          else if c.fetch then s.descRead ix a
          else if write then (if sp = 0 ∧ first then s.modDma ix fun c => { c with rmw := true } else s.dmaWrite ix sp a n)
          else s.dmaRead ix sp a n

/-- DMA_DRAIN_END: every byte of the drain is written, and no chained descriptor is still to be read (R318, R320).  A drain of PAUSE or
ABORT does not end in the cycle of that write, in which an error still applies (R321; DESIGN CHOICE, notes/assumptions/18.md). -/
def execDmaDrainEnd (ch : Chan) (s : State) : Out :=
  .next <|
    let ix := chIx ch
    let c := s.dmaCh ix
    if c.drain ≠ .none ∧ c.drainAt ≠ s.cnt + 1 ∧ c.fetch = false ∧ (s.dmaState ix = 1 ∨ s.dmaState ix = 2) ∧ c.wr = c.wrSent ∧ c.rd = c.rdSent ∧ s.dmaLimit ix ≤ c.wr then s.dmaDrained ix
    else s

/-- R321: the access of a direction that fails in this cycle: the next one, or the read that a PAUSE or an ABORT of the same cycle has
kept from following. -/
def State.dmaFailAcc (s : State) (ix : Nat) (write : Bool) : Option (Nat × Nat × Nat) :=
  let c := s.dmaCh ix
  if !write && s.dmaState ix == 2 && !c.fetch && c.drainAt == s.cnt + 1 && (c.drain == .pause || c.drain == .abort) then
    (s.setFld F.dmaStat_state ix 1 |>.modDma ix fun c => { c with drain := .none }).dmaNextAcc ix false
  else s.dmaNextAcc ix write

/-- DMA_ACCESS_FAIL: the next access of a direction fails outside the module's own checks: on PCIe, in GDDR7, or at the annex device,
whose read data, that of the read half of a narrow write included (R316), is poisoned or whose response does not come (R283, R288,
R320). -/
def execDmaAccessFail (ch : Chan) (write : Bool) (addr : BitVec 64) (cause : DmaLoss) (s : State) : Out :=
  .next <|
    let ix := chIx ch
    match s.dmaFailAcc ix write with
    | none => s
    | some (sp, a, n) =>
      let ad := addr.toNat
      let reads := !write || (decide (n < 64) && !(s.dmaCh ix).rmw)
      let fails (s : State) (c : Nat) : State := s.dmaFail ix write sp ad c (if write then (s.dmaCh ix).wrSent else (s.dmaCh ix).rdSent)
      if ad < a ∨ a + n ≤ ad then s
      else match cause with
        | .pcie => if sp = 1 then fails s 1 else s
        | .granule => if sp = 0 ∧ a < s.gddrSize then (s.granRecord write (ad / 64 * 64) .lost).dmaLost ix write a n ad else s
        | .poisoned => match sp, reads, annexPortOf a with
          | 0, true, some p => fails (s.annexPoison p (ad / 64 * 64)) 5
          | _, _, _ => s
        | .timeout => match sp, annexPortOf a with
          | 0, some p => fails (s.annexLate p ad) 5
          | _, _ => s

/-! ## DMA packets on the mesh (R311, R322) -/

/-- A DMA packet is at its tile: in the DMA place of R99 a write lands, or halts its channel at a gated bank, and a read is served
and starts back (R306, R311, R320, R322). -/
def State.dmaServe (s : State) (p : MPkt) : State :=
  let e := s.hnd p.src p.handle
  let sp : Span := ⟨p.off, p.len⟩
  let addr := (p.src % 64) * 2 ^ 40 + (p.src / 64) * 2 ^ 32 + p.handle * 2 ^ 24 + p.off
  let begun := (s.tile p.src).bufq.any fun x => x.id == p.id
  if !begun && !e.inRange sp then (s.dmaFail p.chan p.write 2 addr 6 p.soff).dropDma p.chan fun q => q.id == p.id
  else if !begun && !e.inBounds sp then (s.dmaFail p.chan p.write 2 addr 7 p.soff).dropDma p.chan fun q => q.id == p.id
  else if !s.ownServed p.src then s
  else match s.bufServe p.src p.id ⟨p.handle, false, p.write, [sp]⟩ (s.landTaken p) with
    | (t, none) => t
    | (t, some e) =>
      if p.write then
        ((t.spWriteE p.src 0 p.handle e false p.off p.data).dropDma p.chan fun q => q.id == p.id).dmaPut p.chan p.len
      else
        let r := t.spReadE p.src 0 p.handle e false [sp]
        let y := anchor (p.chan / 32)
        let full := p.src != y && r.1.portFull p.src (nextDir p.src y)
        r.1.modPkt p.id fun q => { q with data := r.2, served := true, dst := y, outside := full }

/-- R112, R127, R311: a DMA packet may move on: in a slot of its channel's mesh grant, by a port that carries nothing else in this
cycle, to a router with a place, none of its channel before it. -/
def State.dmaHops (s : State) (p : MPkt) (d : Dir) (z : Nat) : Bool :=
  s.dmaSlot p.chan 0 && !p.outside && decide (p.since < s.sched) && !s.portUsed p.at_ d && s.nextPlace p z
    && !(s.portQueue p.at_ d).any fun q => q.kind == .dma && q.chan == p.chan && !q.outside && decide (q.id < p.id)

/-- DMA_PACKET_HOP: a DMA packet moves one hop in a slot of its channel's mesh grant, is served at its tile, or brings its
bytes back (R311). -/
def execDmaPacketHop (pkt : Nat) (s : State) : Out :=
  .next <| match s.pkt pkt with
    | none => s
    | some p =>
      if p.kind ≠ .dma ∨ s.held then s
      else if p.at_ = p.dst then
        if s.sched ≤ p.since then s
        else if p.served then
          if (s.dmaCh p.chan).rd = p.soff then (s.dropPkt p.id).dmaGot p.chan p.data else s
        else s.dmaServe p
      else
        let d := nextDir p.at_ p.dst
        match s.farEnd p.at_ d with
        | .tile z => if s.dmaHops p d z then ((s.hopPkt p d z).settleQueue p.at_ d).occAdd 1 (portUnit p.at_ d) 1 else s
        | _ => s

/-- BANK_GATE_EFFECT: the gates asked for take effect on the banks of a tile, and on its gallery, toward which no DMA write
is outstanding (R322, R579). -/
def execBankGateEffect (t : Xy) (s : State) : Out :=
  .next <|
    let y := tIx t
    let g := galOf t
    let free (u b : Nat) : Bool := mget s.bankOut (32 * u + b) 0 == 0
    let s := s.modTile y fun T =>
      { T with gateReq := BitVec.ofNat 32 ((List.range 32).foldl (fun m b =>
          if T.gateReq.getLsbD b && !free y b then m + 2 ^ b else m) 0) }
    if (s.gal g).gatePend && (List.range 16).all fun k => (List.range 32).all fun b => free (tIx (tileAt g k)) b then
      (s.modGal g fun v => { v with gatePend := false, awake := false }).setFld F.galGate_awake g 0
    else s

/-! ## Starts and DMA_CTLn (R313, R317, R319, R326) -/

/-- The status of a DMA_START: an absent die, or a tile of one in its descriptor, refuses the whole command (R10, R11); a channel that
no grade has is an invalid descriptor (the spec gives no status: DESIGN CHOICE, notes/assumptions/62.md); then R313. -/
def State.startStatus (s : State) (ch : Chan) (d : Desc) : Nat :=
  let ctl := d.ctrl.toNat
  if (ch.die < 8 ∧ s.dieAbsent ch.die) ∨ s.spAbsent (ctlSrcsp ctl) d.src.toNat ∨ s.spAbsent (ctlDstsp ctl) d.dst.toNat then 0x0021
  else if !chanExists ch then 0x0071
  else if s.dmaState (chIx ch) = 1 ∨ s.dmaState (chIx ch) = 2 then 0x0070
  else s.descCheck (chIx ch) d

/-- DMA_START (R10, R11, R313).  The command whose transfer a PAUSED channel still holds completes as an aborted one does (R345;
DESIGN CHOICE, notes/assumptions/62.md). -/
def execDmaStart (c : Cmd) (ch : Chan) (d : Desc) (s : State) : Out :=
  .next <| s.runCmd c 0x0006 (operandsOf (.dmaStart c ch d)) false fun s =>
    let ix := chIx ch
    let st := s.startStatus ch d
    if st ≠ 0 then s.complete c 0x0006 st
    else (((s.dmaComplete ix 0x0073).loadDesc ix d).dmaRun ix).modDma ix fun k => { k with cmd := some c, desc := 0 }

/-- The status of a start by a write of 1 to GO (R313). -/
def State.goStatus (s : State) (ix : Nat) : Nat :=
  if s.dmaState ix = 1 ∨ s.dmaState ix = 2 then 0x0070 else s.descCheck ix (s.dmaRegs ix)

/-- A write of 1 to GO: a start, or a restart of a PAUSED or HALTED channel (R313, R319). -/
def State.dmaGoBit (s : State) (ix : Nat) : State :=
  if s.goStatus ix = 0 then
    let keep := s.dmaState ix = 3 ∨ s.dmaState ix = 4
    (s.dmaRun ix).modDma ix fun c => if keep then c else { c with cmd := none, desc := 0 }
  else s.event 0x0273 5 (dmaSource ix) [(8, (s.dmaCh ix).desc), (4, s.goStatus ix)]

/-- R317: PAUSE written 1 while RUNNING drains; written 0 while PAUSED resumes, but not beside a start that is refused and so changes
nothing (R313). -/
def State.dmaPauseBit (s : State) (ix v : Nat) (refused : Bool) : State :=
  let s := s.setFld F.dmaCtl_pause ix v
  if v = 1 ∧ s.dmaState ix = 1 ∧ (s.dmaCh ix).drain = .none then (s.dmaDrain ix .pause).setFld F.dmaStat_state ix 2
  else if v = 0 ∧ s.dmaState ix = 3 ∧ refused = false then s.dmaRun ix
  else s

/-- R317, R320, R326: ABORT drains a running channel, and ends a paused or halted one in IDLE, but not one whose error halted it in this
cycle (R321). -/
def State.dmaAbortBit (s : State) (ix : Nat) : State :=
  let st := s.dmaState ix
  if st = 1 ∨ st = 2 then
    if (s.dmaCh ix).drain = .fail then s else (s.dmaDrain ix .abort).setFld F.dmaStat_state ix 2
  else if st = 3 ∨ (st = 4 ∧ (s.dmaCh ix).haltAt ≠ s.cnt + 1) then
    ((s.setFld F.dmaStat_state ix 0).setFld F.dmaStat_cause ix 0).dmaComplete ix 0x0073
  else s

/-- The channel's die is present, so that its registers are (R305). -/
def State.chanHere (s : State) (ix : Nat) : Bool := decide (8 ≤ ix / 32) || !s.dieAbsent (ix / 32)

/-- A register of the DMA windows belongs to a channel that its die has (R305); every other register exists. -/
def dmaRegHere (r : Reg) : Bool :=
  match r.kind with
  | .dmaSrc | .dmaDst | .dmaLen | .dmaNext | .dmaCtl | .dmaStat | .dmaErr => chanExists (chanOf r.idx)
  | _ => true

/-- A write of DMA_CTLn (R319, R326): [15:0] is accepted only in IDLE, PAUSED, HALTED and DONE, then GO, PAUSE and ABORT
act. -/
def State.writeDmaCtl (s : State) (by_ : Writer) (ix off val : Nat) : State :=
  s.gated by_ off val fun s =>
    if !s.chanHere ix then s.event 0x0010 8 0 [(8, off)]
    else if !chanExists (chanOf ix) then s
    else
      let low := putBits (putBits (bits val 15 0) 7 6 0) 15 12 (bits val 15 12)
      let busy := s.dmaState ix == 1 || s.dmaState ix == 2
      let s := if low = bits (s.reg .dmaCtl ix) 15 0 then s
        else if busy then s.event 0x0274 5 (dmaSource ix) [(8, (s.dmaCh ix).desc)]
        else s.setReg .dmaCtl ix (putBits (s.reg .dmaCtl ix) 15 0 low)
      let go := bits val 31 31 == 1
      let refused := go && s.goStatus ix != 0
      let s := if go then s.dmaGoBit ix else s
      let s := s.dmaPauseBit ix (bits val 30 30) refused
      if bits val 29 29 = 1 then s.dmaAbortBit ix else s

/-- DMA_GO: a write of DMA_CTLn with GO (R313, R319, R326). -/
def execDmaGo (by_ : Writer) (ch : Chan) (off : Nat) (val : BitVec 32) (s : State) : Out :=
  .next <| s.writeDmaCtl by_ (chIx ch) off val.toNat

/-- DMA_PAUSE: a write of DMA_CTLn with PAUSE 1 (R317, R326). -/
def execDmaPause (by_ : Writer) (ch : Chan) (off : Nat) (val : BitVec 32) (s : State) : Out :=
  .next <| s.writeDmaCtl by_ (chIx ch) off val.toNat

/-- DMA_RESUME: a write of DMA_CTLn with PAUSE 0 (R317, R326). -/
def execDmaResume (by_ : Writer) (ch : Chan) (off : Nat) (val : BitVec 32) (s : State) : Out :=
  .next <| s.writeDmaCtl by_ (chIx ch) off val.toNat

/-- DMA_ABORT: a write of DMA_CTLn with ABORT (R318, R326). -/
def execDmaAbort (by_ : Writer) (ch : Chan) (off : Nat) (val : BitVec 32) (s : State) : Out :=
  .next <| s.writeDmaCtl by_ (chIx ch) off val.toNat

end Sys2Proof.Machine
end

