-- ==== Sys2Proof/Machine/Link.lean ====
section
/-! DEFINITION. The Iaxasar link: flits, reliable delivery, credits, scheduled delivery and training (chapter 10). -/

namespace Sys2Proof.Machine

/-! ## Flits on the wire (R362, R363) -/

/-- The 64-bit header word of a flit (R363). -/
def flitHeader (f : Flit) : Nat :=
  f.kind * 2 ^ 61 + f.seq * 2 ^ 49 + f.ackseq * 2 ^ 37 + b2n f.nak * 2 ^ 36 + f.cclass * 2 ^ 34 + f.ccount * 2 ^ 22
    + b2n f.sop * 2 ^ 21 + b2n f.eop * 2 ^ 20 + f.spec.toNat

/-- Bytes 0 to 247 of a flit, which its CRC covers (R362). -/
def flitBytes (f : Flit) : List Byte := leBytes 8 (flitHeader f) ++ padPayload f.payload

/-- The flit that bytes 0 to 247 spell (R362, R363). -/
def flitOf (b : List Byte) : Flit :=
  let h := leNat (b.take 8)
  { kind := bits h 63 61, seq := bits h 60 49, ackseq := bits h 48 37, nak := bits h 36 36 == 1, cclass := bits h 35 34
    ccount := bits h 33 22, sop := bits h 21 21 == 1, eop := bits h 20 20 == 1, spec := BitVec.ofNat 20 (bits h 19 0)
    payload := (b.drop 8).take 240 }

/-- The CRC-64 of a flit (R362). -/
def flitCrc (f : Flit) : BitVec 64 := crc64 (flitBytes f)

/-! ## Credits and headers (R363, R374, R375) -/

/-- The reserved minimum of a class (R374). -/
def reserved (c : Nat) : Nat := if c = 0 then 512 else if c = 1 then 256 else 64

/-- The register field that holds a sender's reserved credits of a class (R393). -/
def credFld (c : Nat) : Fld := if c = 0 then F.lnkPool_rsched else if c = 1 then F.lnkPool_rbulk else F.lnkPool_rmgmt

/-- The reserved credits of a class that came before this link cycle (R375). -/
def State.oldCredits (s : State) (p c : Nat) : Nat := s.fld (credFld c) p - mget (s.link p).freshR c 0

/-- R375: a data flit of a class may be sent for the first time: a credit that comes in a link cycle waits for the next. -/
def State.hasCredit (s : State) (p c : Nat) : Bool :=
  decide (1 ≤ s.oldCredits p c + (s.fld F.lnkPool_shared p - (s.link p).freshS))

/-- R375: one credit is taken. -/
def State.takeCredit (s : State) (p c : Nat) : State :=
  if 0 < s.oldCredits p c then s.setFld (credFld c) p (s.fld (credFld c) p - 1)
  else s.setFld F.lnkPool_shared p (s.fld F.lnkPool_shared p - 1)

/-- R375: `k` credits come back, for use from the next link cycle on. -/
def State.giveCredits (s : State) (p c k : Nat) : State :=
  let r := s.fld (credFld c) p
  let toR := min k (reserved c - r)
  ((s.setFld (credFld c) p (r + toR)).setFld F.lnkPool_shared p (s.fld F.lnkPool_shared p + (k - toR))).modLink p fun L =>
    { L with freshR := mput L.freshR c (mget L.freshR c 0 + toR), freshS := L.freshS + (k - toR) }

/-- The buffers of a class in use in the receive pool. -/
def Link.used (L : Link) (c : Nat) : Nat := (L.pool.filter fun q => q.1.kind == c + 1).length

/-- R374, R376: a buffer is free for a class. -/
def Link.bufferFree (L : Link) (c : Nat) : Bool :=
  decide (L.used c < reserved c)
    || decide ((L.used 0 - reserved 0) + (L.used 1 - reserved 1) + (L.used 2 - reserved 2) < 704)

/-- A flit with the header fields current when it is sent (R364, R368, R373). -/
def Link.stamp (L : Link) (f : Flit) : Flit :=
  { f with ackseq := L.adv, nak := L.nakPend, cclass := L.ccNext, ccount := mget L.freed L.ccNext 0 % 4096 }

/-- A link control flit (R365). -/
def ctlFlit (ctype : Nat) (payload : List Byte) : Flit :=
  { kind := 4, seq := 0, ackseq := 0, nak := false, cclass := 0, ccount := 0, sop := false, eop := false,
    spec := BitVec.ofNat 20 (ctype * 2 ^ 16), payload := padPayload payload }

/-- Some region of the module runs. -/
def State.someRuns (s : State) : Bool := (List.range 8).any s.running

/-! ## Retrains, replays and loss of the port (R370 to R372, R381 to R386) -/

/-- The source identity of a port's hold requests (R234). -/
def portSource (p : Nat) : Nat := 0x4000 + p

/-- R230: a port requests a hold of a length, but for the cycles that published holds already give it. -/
def State.portHold (s : State) (p cause len : Nat) : State :=
  s.request cause (portSource p) (len - s.publishedHeld (s.cnt + 64))

/-- R385: the hold of a training that starts while a region runs. -/
def State.trainHold (s : State) (p : Nat) : State := if s.someRuns then s.portHold p 4 (s.usToPlan 40) else s

/-- R383, R384: a retrain starts from UP with RTREQ; event 0x0282 carries the trigger and that the port led. -/
def State.startRetrain (s : State) (p trigger width : Nat) : State :=
  if s.portState p ≠ 3 then s
  else
    let req := ctlFlit 2 (leBytes 8 (s.portIdent p) ++ leBytes 1 width)
    let s := s.modLink p fun L =>
      { L with phase := 0, full := false, resume := true, reqSent := true, reqWidth := width, trainAt := s.wall,
               trained := true, replayQ := [], replayAsk := false, txC := L.txC ++ [req] }
    (((s.setFld F.lnkStat_state p 4).satAdd F.lnkErr_retrains p 1).event 0x0282 6 p [(4, trigger), (4, 1)]).trainHold p

/-- R370 to R372, R381: a replay of every copy starts; none starts while there is no copy to send (DEDUCED,
notes/assumptions/16.md).  The fourth in a row at one SEQ starts a retrain, and the count begins again. -/
def State.startReplay (s : State) (p : Nat) : State :=
  let s := s.modLink p fun L => { L with replayAsk := false }
  let L := s.link p
  match L.replayBuf with
  | [] => s
  | f :: _ =>
    let n := L.replayBuf.length
    let m := if s.someRuns then n - (s.fld F.lnkBudget_flits p - s.fld F.lnkBudget_used p) else 0
    let rep := if L.replayRep ≠ 0 ∧ L.replayStart = f.seq then L.replayRep + 1 else 1
    let s := (s.modLink p fun L =>
      { L with replayQ := L.replayBuf, replayStart := f.seq, replayAt := some L.cyc, timer := L.cyc
               replayRep := if rep = 4 then 0 else rep, replayNo := L.replayNo + 1 }).satAdd F.lnkErr_replays p 1
    let s := if m = 0 then s
      else
        let s := (s.portHold p 4 (s.linkToPlan p m)).event 0x0284 6 p []
        if s.gen1 p then s
        else s.modLink p fun L => { L with txC := L.txC ++ [ctlFlit 1 (leBytes 2 n ++ leBytes 2 m ++ leBytes 4 L.replayNo)] }
    if rep = 4 then s.startRetrain p 0 (s.fld F.lnkCtl_wreq p) else s

/-- The copies an ACKSEQ covers. -/
def Link.covered (L : Link) (ack : Nat) : Nat :=
  match L.replayBuf with
  | [] => 0
  | f :: _ => let n := (ack + 1 + 4096 - f.seq) % 4096; if n ≤ L.replayBuf.length then n else 0

/-- A flit of the bulk or the management class. -/
def pktFlit (f : Flit) : Bool := f.kind == 2 || f.kind == 3

/-- R366, R371: the copies an ACKSEQ covers are released; the timer restarts. -/
def Link.release (L : Link) (ack : Nat) : Link :=
  if L.covered ack = 0 then L
  else
    { L with replayBuf := L.replayBuf.drop (L.covered ack), timer := L.cyc, replayRep := 0
             heads := (L.replayBuf.take (L.covered ack)).foldl
               (fun m f => if pktFlit f && f.sop then mput m f.kind (packetOf f.payload) else m) L.heads }

/-- R369: an ack point. -/
def Link.ackPoint (L : Link) : Link := { L with adv := (L.e + 4095) % 4096, unadv := 0 }

/-- R367, R368: the receiver enters NAK-pending, which makes an ack point. -/
def Link.enterNak (L : Link) : Link := if L.nakPend then L else { L.ackPoint with nakPend := true }

/-- The flits from the first that begins a packet. -/
def fromSop : List Flit → List Flit
  | [] => []
  | f :: fs => if f.sop then f :: fs else fromSop fs

/-- The packets of a KIND that are lost with the replay buffer, of which `tx` still waits to be sent: one whose first flits
are gone, and those whose first flit is there (R386). -/
def Link.lostPkts (L : Link) (kind : Nat) (tx : List Flit) : List Packet :=
  let buf := L.replayBuf.filter fun f => f.kind == kind
  let cut := match buf ++ tx.takeWhile (fun f => !f.sop) with
    | f :: _ => if f.sop then [] else (mfind L.heads kind).toList
    | [] => []
  cut ++ (buf.filter (·.sop)).map fun f => packetOf f.payload

/-- The scheduled flits lost with the replay buffer: the copies, and those of the open packets that are still to be sent. -/
def Link.lostSched (L : Link) : Nat :=
  ((L.outS.filter (·.started)).map fun o => ceilDiv (o.bytes.length + o.left) 240).foldl (· + ·)
    (L.replayBuf.filter fun f => f.kind == 1).length

/-- R386, R389: the replay buffer is discarded, with the rest of each packet that it holds a part of, event 0x0286 and a notice for
each packet lost, and the pool is freed. -/
def State.discardKept (s : State) (p : Nat) : State :=
  let L := s.link p
  let bulk := L.lostPkts 2 L.txB
  let mgmt := L.lostPkts 3 L.txM
  let s := s.modLink p fun L =>
    { L with replayBuf := [], replayQ := [], replayAsk := false, heads := [], pool := [], kept := false, rx := []
             outS := L.outS.filter (fun o => !o.started), txB := fromSop L.txB, txM := fromSop L.txM }
  if !L.kept && L.replayBuf.isEmpty && bulk.isEmpty && mgmt.isEmpty && L.lostSched == 0 then s
  else
    ((bulk ++ mgmt).foldl (fun s q => s.notice q 3) (if 0 < L.lostSched then s.lossSeen else s)).event 0x0286 6 p
      [(4, bulk.length), (4, L.lostSched)]

/-- R383, R386: the port enters DOWN and keeps its buffers. -/
def State.portDown (s : State) (p : Nat) : State :=
  let s := s.modLink p fun L =>
    { L with phase := 0, reqSent := false, kept := L.peer.isSome, downAt := s.wall, tried := false, replayQ := []
             replayAsk := false, txC := [] }
  ((s.setFld F.lnkStat_state p 1).event 0x0281 6 p []).checkLoss

/-- A training that fails puts the port in DOWN; one that was an attempt made there leaves the time of the next, and what the port has
kept since it came there, as they stand (R382, R383, R386). -/
def State.portDownTry (s : State) (p : Nat) : State :=
  let L := s.link p
  let s := s.portDown p
  if L.full && L.tried then s.modLink p fun M => { M with tried := true, kept := L.kept, downAt := L.downAt } else s

/-- R382, R383, R395: a full training begins. -/
def State.startFull (s : State) (p : Nat) : State :=
  let again := (s.link p).trained
  let s := s.modLink p fun L =>
    { L with phase := 1, full := true, resume := false, reqSent := false, trainAt := s.wall, tried := false, trained := true
             reqWidth := s.fld F.lnkCtl_wreq p, replayQ := [], replayAsk := false, txC := [] }
  let s := s.setFld F.lnkStat_state p 2
  (if again then s.satAdd F.lnkErr_retrains p 1 else s).trainHold p

/-- The module may begin to train a port (R395, R397). -/
def State.mayTrain (s : State) (p : Nat) : Bool := s.fld F.fabId_valid 0 == 1 && !(s.link p).blocked

/-- R389, R388: the port's role has become `r`: OFF for disabled, a full training for the others. -/
def State.roleChanged (s : State) (p : Nat) : State :=
  if s.portRole p = 0 then
    let s := s.discardKept p
    ((s.modLink p fun L => { L with phase := 0, reqSent := false, txC := [] }).setFld F.lnkStat_state p 0).checkLoss
  else if s.mayTrain p then s.startFull p
  else (s.modLink p fun L => { L with downAt := s.wall, tried := false }).setFld F.lnkStat_state p 1

/-! ## Outbound (R366, R379) -/

/-- The next flit of the scheduled packet at the head of a port, once its bytes are there (R400). -/
def Link.nextSched (L : Link) (gen1 : Bool) : Option (Flit × List OutPkt) :=
  match L.outS with
  | [] => none
  | o :: os =>
    if o.bytes.length < 240 ∧ (o.left ≠ 0 ∨ o.bytes = []) then none
    else
      let eop := o.left == 0 && decide (o.bytes.length ≤ 240)
      let f : Flit :=
        { kind := 1, seq := 0, ackseq := 0, nak := false, cclass := 0, ccount := 0, sop := !o.started, eop := eop
          spec := if gen1 then 0 else BitVec.ofNat 20 (o.region * 2 ^ 17 + o.due), payload := padPayload o.bytes }
      some (f, if eop then os else { o with bytes := o.bytes.drop 240, started := true } :: os)

/-- R366: a new data flit takes a credit and the next SEQ, and a copy of it is kept. -/
def State.sendNew (s : State) (p : Nat) (f : Flit) : State :=
  let f := { (s.link p).stamp f with seq := (s.link p).seq }
  (s.takeCredit p (f.kind - 1)).modLink p fun L =>
    { L with seq := (L.seq + 1) % 4096, timer := if L.replayBuf.isEmpty then L.cyc else L.timer
             replayBuf := L.replayBuf ++ [f], out := some f }

/-- The first of R379 that is ready is sent; LNK_BUDGETp.USED counts a replayed flit (R380). -/
def State.linkSend (s : State) (p : Nat) : State :=
  let L := s.link p
  let free := decide (L.replayBuf.length < 1024)
  let idle (s : State) : State := s.modLink p fun L =>
    { L with out := some (L.stamp { kind := 0, seq := L.seq, ackseq := 0, nak := false, cclass := 0, ccount := 0, sop := false,
                                    eop := false, spec := 0, payload := padPayload [] }) }
  let sched (s : State) : Option State :=
    match L.nextSched (s.gen1 p) with
    | some (f, os) => if free && s.hasCredit p 0 then
        some ((s.sendNew p f).modLink p fun L => { L with outS := os, grpUsed := L.grpUsed + 1 }) else none
    | none => none
  match L.txC, L.replayQ with
  | c :: cs, _ => s.modLink p fun L => { L with out := some { L.stamp c with seq := 0 }, txC := cs }
  | [], r :: rs =>
    if s.portState p = 3 then
      let s := s.modLink p fun L => { L with out := some (L.stamp r), replayQ := rs }
      if s.someRuns then s.satAdd F.lnkBudget_used p 1 else s
    else idle s
  | [], [] =>
    if s.portState p ≠ 3 then idle s
    else
      let first := if L.grpUsed < 64 - s.mode.headroom then sched s else none
      match first with
      | some s => s
      | none =>
        match L.txM, L.txB with
        | m :: ms, b => if free && s.hasCredit p 2 then (s.sendNew p m).modLink p fun L => { L with txM := ms }
            else match b with
              | b :: bs => if free && s.hasCredit p 1 then (s.sendNew p b).modLink p fun L => { L with txB := bs }
                  else (sched s).getD (idle s)
              | [] => (sched s).getD (idle s)
        | [], b :: bs => if free && s.hasCredit p 1 then (s.sendNew p b).modLink p fun L => { L with txB := bs }
            else (sched s).getD (idle s)
        | [], [] => (sched s).getD (idle s)

/-- LINK_CYCLE: one link cycle of an UP port, or of one whose RTREQ is not yet acknowledged: a replay asked for starts, and one flit is
sent with its CRC (R361, R362, R364, R370, R373, R379, R384). -/
def execLinkCycle (p : Fin 32) (s : State) : Out :=
  .next <|
    if s.portState p = 3 ∨ (s.portState p = 4 ∧ ((s.link p).reqSent = true ∨ (s.link p).txC ≠ [])) then
      let s := if (s.link p).replayAsk && s.portState p == 3 then s.startReplay p else s
      let s := s.linkSend p
      let busy := match (s.link p).out with | some f => f.kind == 1 | none => false
      let s := if s.held then s else (s.occAdd 6 p 1).occAdd 5 p (b2n busy)
      s.modLink p fun L =>
        { L with cyc := L.cyc + 1, ccNext := (L.ccNext + 1) % 3, grpUsed := if (L.cyc + 1) % 64 = 0 then 0 else L.grpUsed
                 crc := (L.out.map flitCrc).getD 0, freshR := [], freshS := 0 }
    else s

/-! ## Inbound (R364 to R371, R375 to R378, R384) -/

/-- The schedule cycle τ0 of the launch a region runs; while its first t0 is still to come, the next calendar origin
(R377; DEDUCED, notes/assumptions/17.md). -/
def State.launchOrigin (s : State) (r : Nat) : Option Nat :=
  let R := s.region r
  if R.running then some (if R.begun then R.launchT0 else roundUp s.sched 2304) else none

/-- R377: the schedule cycle of delivery of a flit with DUE accepted now. -/
def dueCycle (t0 sched due : Nat) : Int :=
  let rho : Int := (sched : Int) - t0
  (t0 : Int) + (rho - 2 ^ 16 + ((due : Int) - (rho - 2 ^ 16)) % 2 ^ 17)

/-- A buffer of a class leaves the pool. -/
def Link.freeBuf (L : Link) (c : Nat) : Link := { L with freed := mput L.freed c (mget L.freed c 0 + 1) }

/-- R377, R378: a scheduled flit enters the pool with its delivery cycle; one for a region with no running launch is
discarded. -/
def State.acceptSched (s : State) (p : Nat) (f : Flit) : State :=
  let s := if f.sop then s.modLink p fun L => { L with rxSop := f.seq } else s
  if s.gen1 p then s.modLink p fun L => { L with pool := L.pool ++ [(f, s.sched, L.rxSop)] }
  else
    match s.launchOrigin (bits f.spec.toNat 19 17) with
    | none => (s.modLink p fun L => L.freeBuf 0).event 0x0288 6 p []
    | some t0 =>
      let d := dueCycle t0 s.sched (bits f.spec.toNat 16 0)
      let s := if d < s.sched then (s.event 0x0285 6 p []).satAdd F.lnkErr_late p 1 else s
      s.modLink p fun L => { L with pool := L.pool ++ [(f, d.toNat, L.rxSop)] }

/-- R367, R376: a data flit with the expected SEQ. -/
def State.acceptFlit (s : State) (p : Nat) (f : Flit) : State :=
  if (s.link p).bufferFree (f.kind - 1) then
    let s := s.modLink p fun L =>
      { L with e := (L.e + 1) % 4096, nakPend := false, unadv := L.unadv + 1
               unadvAt := if L.unadv = 0 then L.cyc else L.unadvAt }
    if f.kind = 1 then s.acceptSched p f else s.modLink p fun L => { L with pool := L.pool ++ [(f, 0, 0)] }
  else (s.event 0x0287 6 p []).startRetrain p 1 (s.fld F.lnkCtl_wreq p)

/-- R367, R368: a data flit by its distance from the expected SEQ. -/
def State.dataFlit (s : State) (p : Nat) (f : Flit) : State :=
  let d := (f.seq + 4096 - (s.link p).e) % 4096
  if d = 0 then s.acceptFlit p f
  else if d < 2048 then s.modLink p Link.enterNak
  else (s.modLink p Link.ackPoint).satAdd F.lnkErr_dups p 1

/-- R384: an RTREQ arrives: its answer, and which end leads when both have asked. -/
def State.rtreq (s : State) (p : Nat) (f : Flit) : State :=
  let peer := leNat (f.payload.take 8)
  let w := leNat ((f.payload.drop 8).take 1)
  let follow (s : State) : State :=
    ((s.modLink p fun L =>
      { L with phase := 3, full := false, resume := true, reqSent := false, reqWidth := w, trained := true, replayQ := []
               trainAt := s.wall, txC := L.txC ++ [ctlFlit 3 (f.payload.take 9)] }).setFld F.lnkStat_state p 4).event 0x0282 6 p
      [(4, 4), (4, 0)]
  if s.portState p = 3 then ((follow s).satAdd F.lnkErr_retrains p 1).trainHold p
  else if (s.link p).reqSent ∧ s.portIdent p < peer then follow s
  else s

/-- R384: an RTACK arrives; one that does not match the RTREQ sent is discarded. -/
def State.rtack (s : State) (p : Nat) (f : Flit) : State :=
  let L := s.link p
  if L.reqSent ∧ leNat (f.payload.take 8) = s.portIdent p ∧ leNat ((f.payload.drop 8).take 1) = L.reqWidth then
    s.modLink p fun L => { L with reqSent := false, phase := 3 }
  else s

/-- A link control flit by its CTYPE (R365, R381, R384); the payload of a FABRIC flit waits for what it is for (R419, R430). -/
def State.ctlReceive (s : State) (p : Nat) (f : Flit) : State :=
  match bits f.spec.toNat 19 16 with
  | 1 => s.portHold p 5 (s.linkToPlan p (leNat ((f.payload.drop 2).take 2)))
  | 2 => s.rtreq p f
  | 3 => s.rtack p f
  | 4 => s.modLink p fun L => { L with fabricIn := L.fabricIn ++ [f.payload] }
  | _ => s

/-- A FABRIC flit whose payload begins with some bytes has come on a port. -/
def State.hasFabric (s : State) (p : Nat) (b : List Byte) : Bool := (s.link p).fabricIn.any fun q => q.take b.length == b

/-- The first such payload is taken. -/
def State.dropFabric (s : State) (p : Nat) (b : List Byte) : State :=
  s.modLink p fun L => { L with fabricIn := L.fabricIn.eraseP fun q => q.take b.length == b }

/-- What a FABRIC flit is for acts on it, once (R365). -/
def State.onFabric (s : State) (p : Nat) (b : List Byte) (f : State → State) : State :=
  if s.hasFabric p b then f (s.dropFabric p b) else s

/-- The header of an intact flit: credits, acknowledgement and NAK, whose replay starts with the link cycle, as that of a timer that
expires in it (R366, R370, R371, R375). -/
def State.headerIn (s : State) (p : Nat) (f : Flit) : State :=
  let k := (f.ccount + 4096 - mget (s.link p).seen f.cclass 0) % 4096
  let s := (s.giveCredits p f.cclass k).modLink p fun L =>
    { L.release f.ackseq with seen := mput L.seen f.cclass f.ccount }
  let L := s.link p
  let recent := match L.replayAt with | some a => decide (L.cyc < a + 256) | none => false
  let start := match L.replayBuf with | g :: _ => g.seq | [] => L.seq
  if f.nak && (!recent || (!L.replayQ.isEmpty && L.replayStart != start)) && s.portState p == 3 then
    s.modLink p fun L => { L with replayAsk := true }
  else s

/-- FLIT_RECEIVE: bytes 0 to 247 of a flit, as the PHY FEC leaves them, and its CRC-64 (R362 to R365, R367). -/
def execFlitReceive (p : Fin 32) (b : List Byte) (crc : BitVec 64) (s : State) : Out :=
  .next <|
    let f := flitOf b
    if s.portState p ≠ 3 ∧ ¬(s.portState p = 4 ∧ (s.link p).reqSent) then s
    else if crc != crc64 b || decide (4 < f.kind) || decide (2 < f.cclass) then
      (s.modLink p Link.enterNak).satAdd F.lnkErr_crcerr p 1
    else if f.kind = 4 ∧ (bits f.spec.toNat 19 16 = 0 ∨ 4 < bits f.spec.toNat 19 16) then s.satAdd F.lnkErr_crcerr p 1
    else
      let s := s.headerIn p f
      if f.kind = 0 then (if f.seq ≠ (s.link p).e then s.modLink p Link.enterNak else s)
      else if f.kind = 4 then s.ctlReceive p f
      else s.dataFlit p f

/-- ACK_POINT: 32 flits accepted, or 64 link cycles since the first of them (R369). -/
def execAckPoint (p : Fin 32) (s : State) : Out :=
  .next <|
    let L := s.link p
    if s.portState p = 3 ∧ 0 < L.unadv ∧ (32 ≤ L.unadv ∨ L.unadvAt + 64 ≤ L.cyc) then s.modLink p Link.ackPoint else s

/-- REPLAY_TIMER_EXPIRY (R370, R371): RTO below 0x0100 is taken as 0x0100 (R389); one replay starts with the link cycle. -/
def execReplayTimerExpiry (p : Fin 32) (s : State) : Out :=
  .next <|
    let L := s.link p
    if s.portState p = 3 ∧ !L.replayBuf.isEmpty ∧ L.timer + max 0x100 (s.fld F.lnkCtl_rto p) ≤ L.cyc then
      s.modLink p fun L => { L with replayAsk := true }
    else s

/-! ## Delivery of scheduled flits (R378, R399 to R404) -/

/-- Hop `i` of a route unit: its word (R399). -/
def hopWord (r : List Byte) (i : Nat) : Nat := leNat ((r.drop (16 + 4 * i)).take 4)

/-- R403: a route unit keeps R399. -/
def routeUnitOk (r : List Byte) : Bool :=
  let b (i : Nat) : Nat := leNat ((r.drop i).take 1)
  let units := leNat ((r.drop 4).take 2)
  b 0 == 1 && decide (1 ≤ b 1) && decide (b 1 ≤ 12) && decide (1 ≤ units) && decide (units ≤ 256) && decide (b 2 < b 1)
    && decide (b 3 ≤ 1) && leNat ((r.drop 12).take 4) == 0 && (List.range 12).all fun i => bits (hopWord r i) 23 17 == 0

/-- R400, R401, R403: a packet on an I/O die may leave on a port. -/
def State.departOk (s : State) (die port : Nat) : Bool := port / 16 == die && s.portRole port == 1

/-- R403: a scheduled packet is discarded whole. -/
def State.routeFault (s : State) (die : Nat) : State :=
  (s.lossSeen.event 0x0291 8 0 []).satAdd F.fabDisc_routef die 1

/-- What a relayed packet is known by among the packets of its outbound port: its inbound port and the SEQ of its first flit. -/
def relaySrc (p seq : Nat) : Nat := 64 + 4096 * p + seq

/-- The first flit of a scheduled packet reaches an I/O die's router: relayed, delivered to an edge tile, or discarded
(R401 to R403). -/
def State.openRx (s : State) (p : Nat) (f : Flit) (due : Nat) : State :=
  let die := p / 16
  let r := f.payload.take 64
  let b (i : Nat) : Nat := leNat ((r.drop i).take 1)
  let total := 64 * (leNat ((r.drop 4).take 2) + 1)
  let set (s : State) (edge : Bool) (port : Nat) : State := s.modLink p fun L => { L with rx := L.rx ++ [⟨f.seq, edge, port, total⟩] }
  if !routeUnitOk r then s.routeFault die
  else if b 2 + 1 < b 1 then
    let w := hopWord r (b 2 + 1)
    let q := bits w 31 27
    if s.departOk die q then
      (set s false q).modLink q fun L =>
        { L with outS := L.outS ++ [⟨relaySrc p f.seq, bits w 26 24, bits w 16 0, total, [], false⟩] }
    else s.routeFault die
  else
    let t : Xy := ⟨b 6, if die = 0 then 0 else 47⟩
    if b 3 = die ∧ s.inMesh t = true ∧ s.role t = 1 ∧ s.trained (dieOf t) 3 = true then
      (set s true 0).modFdie die fun d =>
        { d with edge := d.edge ++ [⟨b 6, b 7, leNat ((r.drop 8).take 4), due, p, f.seq, 0, leNat ((r.drop 4).take 2), []⟩] }
    else s.routeFault die

/-- The bytes of a flit go where its packet goes, or are dropped with it; a relay advances NEXT (R401). -/
def State.moveRx (s : State) (p : Nat) (f : Flit) (sop : Nat) : State :=
  match (s.link p).rx.find? fun r => r.seq == sop with
  | none => s
  | some r =>
    let bs := f.payload.take r.left
    let s := s.modLink p fun L =>
      { L with rx := (L.rx.filter fun q => !(q.seq == sop && f.eop)).map fun q =>
          if q.seq = sop then { q with left := q.left - bs.length } else q }
    if r.edge then
      s.modFdie (p / 16) fun d => { d with edge := d.edge.map fun e =>
        if e.port = p ∧ e.seq = sop then { e with bytes := e.bytes ++ (if f.sop then bs.drop 64 else bs) } else e }
    else
      let bs := if f.sop then bs.set 2 (bs.getD 2 0 + 1) else bs
      s.modLink r.port fun M =>
        { M with outS := M.outS.map fun o =>
            if o.src = relaySrc p sop ∧ o.left ≠ 0 then { o with bytes := o.bytes ++ bs, left := o.left - bs.length } else o }

/-- The scheduled flit of a pool that leaves it next: the earliest due, then the first accepted (R378). -/
def firstDue : List (Flit × Nat × Nat) → Option (Flit × Nat × Nat)
  | [] => none
  | q :: qs =>
    match firstDue qs with
    | some m => if q.1.kind = 1 ∧ q.2.1 ≤ m.2.1 then some q else some m
    | none => if q.1.kind = 1 then some q else none

/-- SCHEDULED_FLIT_DELIVERY: a scheduled flit of the pool whose delivery cycle has come leaves it, an on-time one of generation 2 not in
the held cycles that read that cycle (R214, R378). -/
def execScheduledFlitDelivery (p : Fin 32) (s : State) : Out :=
  .next <| match firstDue (s.link p).pool with
    | some (f, due, sop) =>
      if s.sched < due || (s.held && s.sched == due && !s.gen1 p) then s
      else
        let s := s.modLink p fun L =>
          { L.freeBuf 0 with pool := L.pool.eraseP fun q => q.1.kind == 1 && q.1.seq == f.seq }
        (if f.sop then s.openRx p f due else s).moveRx p f sop
    | none => s

/-! ## Training (R382 to R388) -/

/-- FULL_TRAINING_ATTEMPT: 100 µs after entry to DOWN, then every 10 ms (R383). -/
def execFullTrainingAttempt (p : Fin 32) (s : State) : Out :=
  .next <|
    let L := s.link p
    let due := if L.tried then L.trainAt + 1000000 else L.downAt + 10000
    if s.portState p = 1 ∧ s.portRole p ≠ 0 ∧ s.mayTrain p ∧ due ≤ s.wall then (s.startFull p).modLink p fun L => { L with tried := true }
    else s

/-- The code of a width as R390 numbers it, none wider than the cap and the request (R382). -/
def State.agreedWidth (s : State) (p w : Nat) : Nat :=
  min 2 (max w (max ((((s.img.map (·.ports)).getD []).getD p 0) / 4 % 4) (s.link p).reqWidth))

/-- Phase 4 ends: identities, kept state, credits (R376, R382, R386, R397). -/
def State.exchange (s : State) (p : Nat) (i : TrainInfo) : State :=
  let peer := 256 * i.peerMod + i.peerPort
  if i.peerMod = s.ownId then
    ((s.event 0x0290 6 p []).modLink p fun L => { L with blocked := true }).portDown p
  else
    let L := s.link p
    let s := match L.peer with | some q => if q = peer then s else s.event 0x0289 6 p [] | none => s
    let resume := L.resume || (L.kept && L.peer == some peer && i.peerKept == some (s.portIdent p))
    let s := if resume then s.modLink p fun L => L.release ((i.peerE + 4095) % 4096)
      else (s.discardKept p).modLink p fun L =>
        { L with seq := 0, e := 0, adv := 4095, unadv := 0, nakPend := false, replayAt := none, replayRep := 0, replayNo := 0
                 freed := [], seen := [] }
    let s := s.modLink p fun L =>
      { L with resume := resume, peerE := i.peerE, peer := some peer, peerGen := i.peerGen, kept := false, phase := 5 }
    let occ (c : Nat) : Nat := if c = 0 then i.occSched else if c = 1 then i.occBulk else i.occMgmt
    let s := [0, 1, 2].foldl (fun s c => s.setFld (credFld c) p (reserved c - occ c)) s
    let s := s.setFld F.lnkPool_shared p (704 - ((occ 0 - reserved 0) + (occ 1 - reserved 1) + (occ 2 - reserved 2)))
    (s.setFld F.lnkStat_peermod p i.peerMod).setFld F.lnkStat_peerport p i.peerPort

/-- Phase 5 ends: the port is UP; after a retrain, and a full training that ends as one, the credit counts go on and what the peer has
not accepted is replayed (R382, R385, R545; DEDUCED, notes/assumptions/64.md). -/
def State.portUp (s : State) (p rtt : Nat) : State :=
  let cap := (((s.img.map (·.ports)).getD []).getD p 0) / 4 % 4
  let s := s.modLink p fun L =>
    { L with phase := 0, cyc := 0, grpUsed := 0, ccNext := 0, freshR := [], freshS := 0, timer := 0, replayAt := none
             unadvAt := 0, txC := [], replayAsk := L.resume }
  let s := ((s.setFld F.lnkStat_rtt p rtt).setFld F.lnkStat_gen1 p (b2n (s.gen1 p))).setFld F.lnkStat_degraded p
    (b2n (decide (cap < s.fld F.lnkStat_width p)))
  let s := (s.setFld F.lnkStat_state p 3).event 0x0280 6 p []
  if s.portRole p = 2 then s.sendHello else s

/-- TRAINING_PHASE_END: the phase in progress ends; a retrain runs phases 3 to 5 once its RTREQ is answered (R382). -/
def execTrainingPhaseEnd (p : Fin 32) (info : TrainInfo) (s : State) : Out :=
  .next <|
    let L := s.link p
    let st := s.portState p
    if (st ≠ 2 ∧ st ≠ 4) ∨ L.reqSent then s
    else match L.phase with
      | 1 => s.modLink p fun L => { L with phase := 2 }
      | 2 => s.modLink p fun L => { L with phase := 3 }
      | 3 =>
        let w := s.agreedWidth p info.width
        let s := if w ≠ s.fld F.lnkStat_width p then (s.setFld F.lnkStat_width p w).event 0x0283 6 p [] else s
        s.modLink p fun L => { L with phase := 4 }
      | 4 => s.exchange p info
      | 5 => s.portUp p info.rtt
      | _ => s

/-- TRAINING_TIMEOUT: a retrain ends within 40 µs and a full training within 2 ms, or fails (R382). -/
def execTrainingTimeout (p : Fin 32) (s : State) : Out :=
  .next <|
    let L := s.link p
    if (s.portState p = 4 ∧ L.trainAt + 4000 ≤ s.wall) ∨ (s.portState p = 2 ∧ L.trainAt + 200000 ≤ s.wall) then s.portDownTry p
    else s

/-- LOSS_OF_SIGNAL: no valid signal for 1 µs (R383). -/
def execLossOfSignal (p : Fin 32) (s : State) : Out :=
  .next <|
    if s.portState p = 3 ∨ s.portState p = 4 then s.portDown p
    else if s.portState p = 2 ∧ 1 < (s.link p).phase then s.portDownTry p
    else s

/-- KEPT_STATE_EXPIRY: 10 ms after the port entered DOWN (R386). -/
def execKeptStateExpiry (p : Fin 32) (s : State) : Out :=
  .next <|
    let L := s.link p
    if L.kept ∧ s.portState p ≠ 3 ∧ L.downAt + 1000000 ≤ s.wall then s.discardKept p else s

/-- FEC_RATE_WINDOW: more than 16 uncorrectable flits on one lane in 2^24 link cycles ask for a narrower width (R383). -/
def execFecRateWindow (p : Fin 32) (bad : Nat) (s : State) : Out :=
  .next <| if 16 < bad then s.startRetrain p 2 (min 2 (s.fld F.lnkStat_width p + 1)) else s

/-! ## LNK_CTLp (R389) -/

/-- A write of LNK_CTLp; `fields` says that it is a write of ROLE or WREQ, whatever their values (R45, R389; DESIGN CHOICE,
notes/assumptions/58.md). -/
def State.writeLnkCtl (s : State) (by_ : Writer) (p off val : Nat) (fields : Bool) : State :=
  s.gated by_ off val fun s => s.imgWrite .lnkCtl off fun s =>
    let role := bits val 26 25
    let wreq := bits val 28 27
    let setup := fields || decide (role ≠ s.portRole p) || decide (wreq ≠ s.fld F.lnkCtl_wreq p)
    if setup && s.someRuns then s.imageBusy off
    else
      let old := s.portRole p
      let s := s.setFld F.lnkCtl_rto p (bits val 15 0)
      let s := if setup then
          let s := (s.setFld F.lnkCtl_wreq p wreq).zeroDigest.modified
          if role = 3 then s else s.setFld F.lnkCtl_role p role
        else s
      let s := if s.portRole p ≠ old then s.roleChanged p else s
      if bits val 31 31 = 1 then s.startRetrain p 3 (s.fld F.lnkCtl_wreq p) else s

/-- LNK_RETRAIN: a write of LNK_CTLp.RETRAIN (R383, R389). -/
def execLnkRetrain (by_ : Writer) (p : Fin 32) (off : Nat) (val : BitVec 32) (s : State) : Out :=
  .next <| s.writeLnkCtl by_ p off val.toNat false

/-- LNK_ROLE_WRITE: a write of LNK_CTLp.ROLE (R45, R389). -/
def execLnkRoleWrite (by_ : Writer) (p : Fin 32) (off : Nat) (val : BitVec 32) (s : State) : Out :=
  .next <| s.writeLnkCtl by_ p off val.toNat true

/-- LNK_WREQ_WRITE: a write of LNK_CTLp.WREQ (R45, R389). -/
def execLnkWreqWrite (by_ : Writer) (p : Fin 32) (off : Nat) (val : BitVec 32) (s : State) : Out :=
  .next <| s.writeLnkCtl by_ p off val.toNat true

end Sys2Proof.Machine
end

