-- ==== Sys2Proof/Machine/Fabric.lean ====
section
/-! DEFINITION. The fabric: identity, scheduled packets at their source and destination, routing of bulk and management
packets, messages in fragments, tables and epochs, and the alignment of plan counters (R395 to R422). -/

namespace Sys2Proof.Machine

/-! ## Identity (R395 to R397) -/

/-- FAB_ID_WRITE: accepted only while every port is OFF or DOWN; the lower ID of a pair leads (R396, R544). -/
def execFabIdWrite (by_ : Writer) (off : Nat) (val : BitVec 32) (s : State) : Out :=
  .next <| s.gated by_ off val.toNat fun s =>
    if (List.range 32).all fun p => s.portState p ≤ 1 then
      let s := ((s.setFld F.fabId_id 0 (bits val.toNat 19 0)).setFld F.fabId_valid 0 1).setLeader
      { s with links := s.links.map fun l => (l.1, { l.2 with blocked := false }) }
    else s.event 0x0290 8 0 []

/-! ## Scheduled packets at the source (R398 to R400) -/

/-- The route units of a stream whose first `n` units belong to a packet that is open: the port of hop 0 that each names, and the cycle
it arrived in (R399). -/
def routeUnits : List (Nat × List Byte) → Nat → List (Nat × Nat)
  | [], _ => []
  | _ :: q, n + 1 => routeUnits q n
  | (t, u) :: q, 0 => (if routeUnitOk u then [(bits (hopWord u 0) 31 27, t)] else []) ++ routeUnits q (leNat ((u.drop 4).take 2))

/-- The route units that a stream holds, behind the data units of a packet still open too. -/
def FabDie.waiting (d : FabDie) (st : Nat) : List (Nat × Nat) :=
  routeUnits (mget d.streams st []) (match mfind d.opened st with | some o => o.2 | none => 0)

/-- R400: no other stream of the die has a route unit for the port that came earlier, or in the same cycle on a lower stream. -/
def FabDie.firstInOrder (d : FabDie) (st : Nat) : Bool :=
  match mget d.streams st [] with
  | [] => true
  | (t, u) :: _ => !routeUnitOk u || (List.range 64).all fun v =>
      v == st || (d.waiting v).all fun w => w.1 != bits (hopWord u 0) 31 27 || decide (t < w.2) || (t == w.2 && decide (st < v))

/-- The first unit leaves a stream. -/
def FabDie.pop (d : FabDie) (st : Nat) : FabDie :=
  let q := (mget d.streams st []).tail
  { d with streams := if q.isEmpty then mdel d.streams st else mput d.streams st q }

/-- R399, R400, R403: a route unit opens its packet on the port of hop 0, or its packet is discarded. -/
def State.openStream (s : State) (die st : Nat) (u : List Byte) : State :=
  let w := hopWord u 0
  let port := bits w 31 27
  let units := leNat ((u.drop 4).take 2)
  let left (s : State) (p : Nat) : State := s.modFdie die fun d =>
    { d.pop st with opened := if units = 0 then mdel d.opened st else mput d.opened st (p, units) }
  if routeUnitOk u && (u.getD 2 0) == 0 && s.departOk die port then
    (left s port).modLink port fun L =>
      { L with outS := L.outS ++ [⟨st, bits w 26 24, bits w 16 0, 64 * units, u, false⟩] }
  else left (s.routeFault die) 32

/-- A data unit of an open packet moves to its port, or is discarded with its packet. -/
def State.moveUnit (s : State) (die st port n : Nat) (u : List Byte) : State :=
  let s := s.modFdie die fun d =>
    { d.pop st with opened := if n ≤ 1 then mdel d.opened st else mput d.opened st (port, n - 1) }
  if 32 ≤ port then s
  else s.modLink port fun L => { L with outS := L.outS.map fun o =>
    if o.src = st ∧ o.left ≠ 0 then { o with bytes := o.bytes ++ u, left := o.left - u.length } else o }

/-- Up to `n` units of a stream move on, to the end of its packet. -/
def State.moveUnits (s : State) (die st : Nat) : Nat → State
  | 0 => s
  | n + 1 =>
    match mfind (s.fdie die).opened st, mget (s.fdie die).streams st [] with
    | some (port, k), (_, u) :: _ => (s.moveUnit die st port k u).moveUnits die st n
    | _, _ => s

/-- SCHEDULED_PACKET_SEND: the units a stream holds of its next packet go to the port of hop 0 (R399, R400). -/
def execScheduledPacketSend (die : Fin 2) (stream : Fin 64) (s : State) : Out :=
  .next <|
    let d := s.fdie die
    match mfind d.opened stream.val, mget d.streams stream [] with
    | some _, q => s.moveUnits die stream q.length
    | none, (_, u) :: q =>
      if d.firstInOrder stream then (s.openStream die stream u).moveUnits die stream q.length else s
    | none, [] => s

/-! ## Delivery to edge tiles (R402) -/

/-- The packet whose unit goes first to a column: the earliest due, then the lowest port, then the earliest come. -/
def firstEdge (col : Nat) : List EdgeDel → Option EdgeDel
  | [] => none
  | e :: es =>
    match firstEdge col es with
    | some f => if e.dcol = col ∧ (e.due < f.due ∨ (e.due = f.due ∧ e.port ≤ f.port)) then some e else some f
    | none => if e.dcol = col then some e else none

/-- One unit leaves the die toward the edge tile of a column; its bounds fault records PC 0, as no operation of this module sent it (R135;
DESIGN CHOICE, notes/assumptions/59.md). -/
def State.edgeUnit (s : State) (die col : Nat) : State :=
  match firstEdge col (s.fdie die).edge with
  | none => s
  | some e =>
    if s.sched < e.due ∨ e.bytes.length < 64 * (e.next + 1) ∨ mget (s.fdie die).edgeAt col 0 = s.sched + 1 then s
    else
      let y := tIx ⟨col, if die = 0 then 0 else 47⟩
      let s := s.modFdie die fun d =>
        { d with
          edgeAt := mput d.edgeAt col (s.sched + 1)
          edge := (d.edge.map fun f => if f.port = e.port ∧ f.seq = e.seq then { f with next := f.next + 1 } else f).filter
            fun f => decide (f.next < f.units) }
      s.newPkt { id := 0, kind := .edge, src := y, dst := y, data := (e.bytes.drop (64 * e.next)).take 64, handle := e.handle,
                 off := e.offset + 64 * e.next, issued := s.sched, depart := some s.sched, land := s.sched + 9 }

/-- EDGE_UNIT_DELIVERY: in an unheld cycle that is no window slot, one due unit leaves for each column (R402). -/
def execEdgeUnitDelivery (die : Fin 2) (s : State) : Out :=
  .next <| if s.held || windowSlot s.sched then s else (List.range s.cols).foldl (fun s x => s.edgeUnit die x) s

/-! ## Routing (R405 to R416) -/

/-- The TYPE values of the packets that fabric ports carry (R405). -/
def fabricType (t : Nat) : Bool :=
  [0x01, 0x10, 0x20, 0x21, 0x22, 0x23, 0x24, 0x25, 0x30, 0x31, 0x40].contains t

/-- The live epoch, and the state: 0 STABLE, 1 DRAINING, 2 SWITCHED (R413). -/
def State.epoch (s : State) (die : Nat) : Nat := s.fld F.fabEpoch_epoch die
def State.epochState (s : State) (die : Nat) : Nat := s.fld F.fabEpoch_state die

/-- R414: the die's state accepts an epoch. -/
def State.accepts (s : State) (die e : Nat) : Bool :=
  let E := s.epoch die
  e == E || (s.epochState die == 1 && e == (E + 1) % 65536) || (s.epochState die == 2 && e == (E + 65535) % 65536)

/-- A table bank of a die. -/
def FabDie.bank (d : FabDie) (b : Nat) : SMap (BitVec 32) := if b = 0 then d.bank0 else d.bank1

/-- The entry for a destination, in the die's own ports (R409). -/
def State.tableMask (s : State) (die epoch dest : Nat) : Nat :=
  let m := (mget ((s.fdie die).bank (epoch % 2)) dest 0).toNat
  if die = 0 then bits m 15 0 else bits m 31 16 * 65536

/-- The flits waiting on a port that count for the choice of R409. -/
def State.portLoad (s : State) (p : Nat) : Nat := (s.link p).txB.length + (s.link p).txM.length

/-- R409: the permitted port with the fewest flits waiting, the lowest of equals. -/
def State.choosePort (s : State) (die mask : Nat) : Option Nat :=
  let ok := (List.range 16).map (16 * die + ·) |>.filter fun p =>
    bits mask p p == 1 && s.portRole p == 1 && s.portState p == 3
  ok.foldl (fun b p => match b with
    | some q => if s.portLoad p < s.portLoad q then some p else b
    | none => some p) none

/-- What the fragments of a packet's message have in common (R407). -/
def msgOf (p : Packet) : Packet := { p with frag := 0, body := [] }

/-- R407, R409: the port of a packet: that of its message's fragments before it while it is still permitted, or the one R409
chooses. -/
def State.portFor (s : State) (die : Nat) (p : Packet) : Option Nat :=
  let m := s.tableMask die p.epoch p.dest
  match (s.fdie die).routes.find? fun r => r.1 == msgOf p with
  | some r => if bits m r.2 r.2 == 1 && s.portRole r.2 == 1 && s.portState r.2 == 3 then some r.2 else s.choosePort die m
  | none => s.choosePort die m

/-- A packet leaves the die on a port; a message of several fragments keeps it to its last. -/
def State.leaveOn (s : State) (die q : Nat) (p : Packet) : State :=
  let s := s.queueOn q p
  if p.frags ≤ 1 then s
  else s.modFdie die fun d =>
    { d with routes := (d.routes.filter fun r => r.1 != msgOf p) ++ if p.frag + 1 < p.frags then [(msgOf p, q)] else [] }

/-- A packet for this module waits for the receiver it is for (R406). -/
def State.deliver (s : State) (die : Nat) (p : Packet) : State := s.modFdie die fun d => { d with arrived := d.arrived ++ [p] }

/-- R410: a packet without a route is discarded. -/
def State.noRoute (s : State) (die : Nat) (p : Packet) : State :=
  ((s.event 0x0292 8 0 []).satAdd F.fabDisc_noroute die 1).notice p 1

/-- R406, R407, R409, R410, R414, R415: a packet with its epoch is delivered here, routed, waits, or is discarded. -/
def State.routePkt (s : State) (die : Nat) (p : Packet) : State :=
  if !fabricType p.type then s.satAdd F.fabDisc_routef die 1
  else if p.dest = s.ownId then s.deliver die p
  else if !s.accepts die p.epoch then ((s.event 0x0293 8 0 []).satAdd F.fabDisc_stale die 1).notice p 2
  else
    if s.tableMask die p.epoch p.dest = 0 then s.noRoute die p
    else match s.portFor die p with
      | some q => s.leaveOn die q p
      | none => s.modFdie die fun d => { d with router := d.router ++ [(p, s.wall)] }

/-- R410: the packets that wait in the router go once a port is permitted. -/
def State.routeWaiting (s : State) (die : Nat) : State :=
  let ws := (s.fdie die).router
  ws.foldl (fun s w =>
    match s.portFor die w.1 with
    | some q => s.leaveOn die q w.1
    | none => s.modFdie die fun d => { d with router := d.router ++ [w] }) (s.modFdie die fun d => { d with router := [] })

/-- The first flits of a class of a pool, to the end of the packet they carry. -/
def toEop : List Flit → Option (List Flit)
  | [] => none
  | f :: fs => if f.eop then some [f] else (toEop fs).map (f :: ·)

/-- The first whole packet of a class in a pool. -/
def Link.wholePkt (L : Link) (kind : Nat) : Option (List Flit) := toEop ((L.pool.map (·.1)).filter fun f => f.kind == kind)

/-- The flits of the class of the first whole packet in a pool leave it, and their buffers are free (R375). -/
def Link.takePkt (L : Link) (kind : Nat) (fs : List Flit) : Link :=
  { L with pool := L.pool.filter fun q => !(q.1.kind == kind && fs.any fun f => f.seq == q.1.seq)
           freed := mput L.freed (kind - 1) (mget L.freed (kind - 1) 0 + fs.length) }

/-- A packet that originates at the die: the first, or in DRAINING the first that is not bulk (R416). -/
def State.nextOrigin (s : State) (die : Nat) : Option (Packet × List Packet) :=
  let go (p : Packet) : Bool := !(pktBulk p && s.epochState die == 1)
  let o := (s.fdie die).origin
  match o.find? go with
  | some p => some (p, (o.takeWhile fun q => !go q) ++ ((o.dropWhile fun q => !go q).drop 1))
  | none => none

/-- The first whole packet that a port holds. -/
def Link.ready (L : Link) : Option (Nat × List Flit) :=
  match L.pool.find? fun f => pktFlit f.1 && f.1.eop with
  | some e => (L.wholePkt e.1.kind).map fun fs => (e.1.kind, fs)
  | none => none

/-- R409: nothing that goes before the packets of a port waits at its die: no packet that originates there, and none of a lower
port. -/
def State.portTurn (s : State) (die p : Nat) : Bool :=
  (s.nextOrigin die).isNone && (List.range (p % 16)).all fun i => (s.link (16 * die + i)).ready.isNone

/-- The TYPE values of the packets that mirror ports carry (R547). -/
def mirrorType (t : Nat) : Bool := [0x50, 0x51, 0x52, 0x53].contains t

/-- PACKET_ROUTE: waiting packets go on, then one packet that originates at the die or that a port holds whole, in the order of
R409; a mirror port's packets are never routed: they are for this module, which their DEST names (R406, R409, R414, R544, R547). -/
def execPacketRoute (die : Fin 2) (src : PktSrc) (s : State) : Out :=
  .next <|
    let s := s.routeWaiting die
    match src with
    | .origin =>
      match s.nextOrigin die with
      | some (p, rest) =>
        (s.modFdie die fun d => { d with origin := rest }).routePkt die { p with epoch := s.epoch die }
      | none => s
    | .port p =>
      if p / 16 ≠ die.val ∨ !s.portTurn die p then s
      else match (s.link p).ready with
        | some (k, fs) =>
          let q := packetOf (fs.flatMap (·.payload))
          let s := s.modLink p fun L => L.takePkt k fs
          if s.portRole p ≠ 2 then s.routePkt die q
          else if mirrorType q.type && q.dest == s.ownId then s.deliver die q
          else s.satAdd F.fabDisc_routef die 1
        | none => s

/-- NOROUTE_TIMEOUT: a packet that has waited FAB_CTL.NOROUTE µs goes if it now can, and is discarded otherwise (R410). -/
def execNorouteTimeout (die : Fin 2) (s : State) : Out :=
  .next <|
    let s := s.routeWaiting die
    match (s.fdie die).router with
    | (p, t) :: ws =>
      if t + 100 * s.fld F.fabCtl_noroute 0 ≤ s.wall then (s.modFdie die fun d => { d with router := ws }).noRoute die p else s
    | [] => s

/-- R526: node 0's sending channel, halted because a child cannot be reached, restarts at once. -/
def State.restartSend (s : State) (ix : Nat) : State :=
  match s.bcOf ix with
  | some b => if b.node = 0 then (s.dmaRun ix).event 0x02B2 8 0 [] else s
  | none => s

/-- UNDELIVERABLE_NOTICE: a notice about a packet of TYPE `type` has reached its origin (R408). -/
def execUndeliverableNotice (type : Nat) (ref : BitVec 64) (cause : Fin 4) (s : State) : Out :=
  .next <| s.onMsg 0x10 (·.says ref (noticeBytes type ref cause)) fun s =>
    let die := if type = 1 then bits ref.toNat 8 8 else 0
    let s := s.satAdd F.fabDisc_notices die 1
    let ix := chIx ⟨8 + die, bits ref.toNat 7 0⟩
    if type = 1 ∧ cause ≠ 0 ∧ bits ref.toNat 7 0 ≤ 31 ∧ [1, 2, 3].contains (s.dmaState ix) then
      ((s.dmaSettle ix).dmaHalt ix true (s.fld F.dmaCtl_dstsp ix) (s.reg .dmaDst ix) 8).restartSend ix
    else s.event 0x0294 8 0 [(8, ref.toNat)]

/-! ## Messages in fragments (R407) -/

/-- R407: the event of a discarded message. -/
def State.fragEvent (s : State) (type origin ref : Nat) : State :=
  s.event 0x029F 8 0 [(4, type), (4, origin), (8, ref)]

/-- The message in reassembly is the one of a packet. -/
def Reasm.ofPkt (r : Reasm) (p : Packet) : Bool := r.type == p.type && r.origin == p.origin && r.ref == p.ref

/-- A whole message leaves reassembly for the controller to act on. -/
def State.inbox (s : State) (r : Reasm) : State := s.modFab fun f => { f with inbox := f.inbox ++ [r] }

/-- FRAGMENT_RECEIVE: a management packet that has come for this module joins its message (R406, R407). -/
def execFragmentReceive (pkt : Packet) (s : State) : Out :=
  .next <| if pktBulk pkt then s else s.onArrived (· == pkt) fun s =>
    if pkt.frags ≤ pkt.frag then s
    else if pkt.frags = 1 then s.inbox ⟨pkt.type, pkt.origin, pkt.ref, 1, [(0, pkt.body)], s.wall⟩
    else
      match s.fab.reasm.find? (·.ofPkt pkt) with
      | none =>
        if 8 ≤ s.fab.reasm.length then s.fragEvent pkt.type pkt.origin pkt.ref.toNat
        else s.modFab fun f =>
          { f with reasm := f.reasm ++ [⟨pkt.type, pkt.origin, pkt.ref, pkt.frags, [(pkt.frag, pkt.body)], s.wall⟩] }
      | some r =>
        if r.got.any (fun g => g.1 == pkt.frag) then s
        else
          let r := { r with got := mput r.got pkt.frag pkt.body }
          if r.got.length = r.frags then
            (s.modFab fun f => { f with reasm := f.reasm.filter fun q => !q.ofPkt pkt }).inbox r
          else s.modFab fun f => { f with reasm := f.reasm.map fun q => if q.ofPkt pkt then r else q }

/-- REASSEMBLY_TIMEOUT: 1 ms after its first fragment a message not yet whole is discarded (R407). -/
def execReassemblyTimeout (type : Nat) (origin : Nat) (ref : BitVec 64) (s : State) : Out :=
  .next <|
    let mine (r : Reasm) : Bool := r.type == type && r.origin == origin && r.ref == ref
    match s.fab.reasm.find? mine with
    | some r =>
      if r.since + 100000 ≤ s.wall then
        (s.modFab fun f => { f with reasm := f.reasm.filter fun q => !mine q }).fragEvent type origin ref.toNat
      else s
    | none => s

/-! ## Tables and epochs (R412 to R416) -/

/-- A table bank of a die with an entry set. -/
def FabDie.setEntry (d : FabDie) (b id : Nat) (mask : BitVec 32) : FabDie :=
  let m := if mask = 0 then mdel (d.bank b) id else mput (d.bank b) id mask
  if b = 0 then { d with bank0 := m } else { d with bank1 := m }

/-- TABLE_WRITE: an entry of the bank that is neither live nor kept (R412). -/
def execTableWrite (by_ : Writer) (die : Fin 2) (bank : Fin 2) (id : BitVec 20) (off : Nat) (mask : BitVec 32) (s : State) :
    Out :=
  .next <| s.gated by_ off mask.toNat fun s =>
    if s.epochState die = 2 ∨ s.epoch die % 2 = bank.val then s.event 0x0295 8 0 []
    else (s.modFdie die fun d => d.setEntry bank id.toNat mask).zeroDigest.modified

/-- The flits of a die's ports in the receive pools, the replay buffers and the queues to be sent. -/
def State.dieFlits (s : State) (die : Nat) : List (List Flit) :=
  (List.range 16).flatMap fun p =>
    let L := s.link (16 * die + p)
    [L.pool.map (·.1), L.replayBuf, L.txB, L.txM]

/-- Some part of a packet of an epoch is among the flits to be sent or acknowledged of a class: a first flit of one, or, in front, the
flits of one whose first flit has been acknowledged and is gone (R416). -/
def Link.holdsOld (L : Link) (kind old : Nat) (tx : List Flit) : Bool :=
  let fs := (L.replayBuf ++ tx).filter fun f => f.kind == kind
  fs.any (fun f => f.sop && (packetOf f.payload).epoch == old)
    || (match fs with
        | f :: _ => !f.sop && (match mfind L.heads kind with | some p => p.epoch == old | none => false)
        | [] => false)

/-- R416: FAB_EPOCH.QUIET. -/
def State.quiet (s : State) (die : Nat) : Bool :=
  let old := (s.epoch die + 65535) % 65536
  if s.epochState die = 1 then
    !((s.fdie die).router.any fun w => pktBulk w.1) && (s.dieFlits die).all fun l => l.all fun f => f.kind != 2
  else if s.epochState die = 2 then
    !((s.fdie die).router.any fun w => w.1.epoch == old)
      && (List.range 16).all fun p =>
        let L := s.link (16 * die + p)
        !L.holdsOld 2 old L.txB && !L.holdsOld 3 old L.txM
          && L.pool.all fun q => !(pktFlit q.1 && q.1.sop && (packetOf q.1.payload).epoch == old)
  else false

/-- The state of a die's tables changes, with event 0x0296. -/
def State.setEpochState (s : State) (die st : Nat) : State := (s.setFld F.fabEpoch_state die st).event 0x0296 8 0 []

/-- R416: a command of FAB_EPOCHCMD: 1 DRAIN, 2 SWITCH, 3 RELEASE. -/
def State.epochCmd (s : State) (die cmd : Nat) : State :=
  let st := s.epochState die
  if cmd = 1 ∧ st = 0 then s.setEpochState die 1
  else if cmd = 2 ∧ st = 1 ∧ s.quiet die then
    let e := (s.epoch die + 1) % 65536
    (((s.setFld F.fabEpoch_epoch die e).setFld F.fabEpoch_live die (e % 2)).setEpochState die 2).zeroDigest
  else if cmd = 3 ∧ st = 2 ∧ s.quiet die then s.setEpochState die 0
  else s.event 0x0295 8 0 []

/-- DRAIN (R416). -/
def execDrain (by_ : Writer) (die : Fin 2) (off : Nat) (s : State) : Out :=
  .next <| s.gated by_ off 1 fun s => s.epochCmd die 1

/-- SWITCH (R45, R416). -/
def execSwitch (by_ : Writer) (die : Fin 2) (off : Nat) (s : State) : Out :=
  .next <| s.gated by_ off 2 fun s => s.epochCmd die 2

/-- EPOCH_RELEASE (R416). -/
def execEpochRelease (by_ : Writer) (die : Fin 2) (off : Nat) (s : State) : Out :=
  .next <| s.gated by_ off 3 fun s => s.epochCmd die 3

/-! ## Aligning plan counters (R419 to R422) -/

/-- A FABRIC link control flit with a payload is queued on a port that is UP (R365, R419). -/
def State.fabricFlit (s : State) (p : Nat) (payload : List Byte) : State :=
  if s.portState p = 3 then s.modLink p fun L => { L with txC := L.txC ++ [ctlFlit 4 payload] } else s

/-- What a SYNCREQ and a SYNCRSP carry (R419). -/
def syncreqBytes (t1 : Nat) : List Byte := leBytes 8 1 ++ leBytes 8 t1
def syncrspBytes (r : SyncRsp) : List Byte :=
  leBytes 1 2 ++ leBytes 1 r.depth ++ leBytes 1 (128 * b2n r.synced + r.step) ++ [0] ++ leBytes 2 (unsgn 16 r.eps) ++ [0, 0]
    ++ leBytes 8 r.t2 ++ leBytes 8 r.t3

/-- PTC_COUNT as a timestamp in sixteenths; the row stands at the start of its cycle (DESIGN CHOICE,
notes/assumptions/19.md). -/
def State.stamp16 (s : State) : Nat := 16 * s.cnt

/-- The port toward the sync parent. -/
def State.syncPort (s : State) : Nat := s.fld F.fabSyncctl_port 0

/-- SYNCREQ_SEND: every 100 µs a module that is not the root sends SYNCREQ to its parent; an exchange still open is lost, and ends the
run of consecutive usable ones (R419, R421, R442). -/
def execSyncreqSend (s : State) : Out :=
  .next <|
    if s.fld F.fabSyncctl_root 0 = 1 ∨ s.clk.refLost = true ∨ s.wall < s.fab.syncAt + 10000 then s
    else
      let s := if s.fab.syncT1.isSome then (s.satAdd F.fabSyncstat_lost 0 1).modFab fun f => { f with phis := [] } else s
      (s.fabricFlit s.syncPort (syncreqBytes s.stamp16)).modFab fun f =>
        { f with syncT1 := some s.stamp16, syncAt := s.wall
                 syncBad := s.fld F.clkState_stretch 0 == 1 || s.fld F.clkState_catchup 0 == 1 }

/-- SYNCREQ_RECEIVE: the parent answers SYNCRSP (R419). -/
def execSyncreqReceive (p : Fin 32) (t1 : Nat) (s : State) : Out :=
  .next <| s.onFabric p (syncreqBytes t1) fun s =>
    s.fabricFlit p (syncrspBytes
      { depth := s.fld F.fabSyncctl_depth 0, synced := s.fld F.ptcState_unsync 0 == 0, step := s.step_
        eps := if s.fld F.fabSyncctl_root 0 = 1 then 0 else s.fab.eps, t2 := s.stamp16, t3 := s.stamp16 })

/-- The counters that stand in PTC_COUNT move with a load of it, so that what is due stays due in the same cycle. -/
def State.shiftCount (s : State) (d : Int) : State :=
  let m (n : Nat) : Nat := ((n : Int) + d).toNat
  { s.setReg .ptcCount 0 (m s.cnt) with
    reqs := s.reqs.map fun q => { q with made := m q.made, first := m q.first }
    hold := s.hold.map fun h => (m h.1, h.2.1, m h.2.2)
    boundaryAsk := s.boundaryAsk.map fun a => (a.1, a.2.1, a.2.2.1, m a.2.2.2)
    chans := s.chans.map fun c => (c.1, { c.2 with
      lastRef := c.2.lastRef.map (fun r => (r.1, m r.2)), refEnd := c.2.refEnd.map (fun r => (r.1, m r.2))
      overdue := c.2.overdue.map (fun r => (r.1, m r.2)), pins := ((c.2.pins : Int) + 25 * d).toNat })
    tiles := s.tiles.map fun t => (t.1, { t.2 with ungate := t.2.ungate.map fun u => (u.1, m u.2) })
    regions := s.regions.map fun r => (r.1, { r.2 with wake := r.2.wake.map m })
    gals := s.gals.map fun g => (g.1, { g.2 with wake := g.2.wake.map m })
    pwr := { s.pwr with guardAt := s.pwr.guardAt.map (fun g => (g.1, m g.2)), thrAt := m s.pwr.thrAt }
    wts := { s.wts with copyDone := if s.wts.copyDone = 0 then 0 else m s.wts.copyDone, swap := s.wts.swap.map fun w => { w with copyEnd := w.copyEnd.map m } }
    clk := { s.clk with chg := s.clk.chg.map fun g => { g with asked := m g.asked, first := g.first.map m } } }

/-- The spread of the last values of φ. -/
def spread (l : List Int) : Int := l.foldl max (l.headD 0) - l.foldl min (l.headD 0)

/-- R421: a usable value of φ while UNSYNC is 1: the fourth that agrees loads PTC_COUNT. -/
def State.syncValue (s : State) (phi : Int) : State :=
  let phis := (phi :: s.fab.phis).take 4
  if phis.length = 4 ∧ spread phis ≤ 16 ∧ s.anyRunning = false then
    let load := (phi + 8) / 16
    let eps := phi - 16 * load
    let s := s.shiftCount load
    let s := s.setReg .ptcAdj 0 (unsgn 64 (sgn 64 (s.reg .ptcAdj 0) + load))
    ((s.setFld F.ptcState_unsync 0 0).event 0x0297 8 0 [(4, unsgn 32 phi), (4, unsgn 32 eps)]).modFab fun f =>
      { f with phis := [], eps := eps }
  else s.modFab fun f => { f with phis := phis }

/-- SYNCRSP_RECEIVE: the child takes t4, its PTC_COUNT with the sixteenth of the cycle that the operand names, forms φ, checks the
exchange, which neither a stretch nor a catch-up may touch, and loads PTC_COUNT or keeps its residual (R419 to R421, R574). -/
def execSyncrspReceive (p : Fin 32) (r : SyncRsp) (at_ : Fin 16) (s : State) : Out :=
  .next <| s.onFabric p (syncrspBytes r) fun s =>
    let t4 := s.stamp16 + at_.val
    match s.fab.syncT1 with
    | none => s
    | some t1 =>
      if s.fld F.fabSyncctl_root 0 = 1 ∨ p.val ≠ s.syncPort then s
      else
        let s := s.modFab fun f => { f with syncT1 := none }
        if !r.synced || r.step != s.step_ || decide (7 < r.depth) || s.gen1 p || s.fab.syncBad
            || s.fld F.clkState_stretch 0 == 1 || s.fld F.clkState_catchup 0 == 1 then
          (s.satAdd F.fabSyncstat_lost 0 1).modFab fun f => { f with phis := [] }
        else
          let theta : Int := (((r.t2 : Int) - t1) + ((r.t3 : Int) - t4)) / 2
          let phi := theta + r.eps
          let s := ((s.setFld F.fabSyncctl_depth 0 (r.depth + 1)).wrapAdd F.fabSyncstat_exch 0 1).setFld F.fabSyncstat_theta 0
            (unsgn 32 phi)
          if s.fld F.ptcState_unsync 0 = 1 then s.syncValue phi
          else if phi < -32 ∨ 32 < phi then s.setUnsync.syncValue phi
          else s.modFab fun f => { f with eps := phi }

/-- FAB_SYNCCTL_WRITE (R421, R441). -/
def execFabSyncctlWrite (by_ : Writer) (off : Nat) (val : BitVec 32) (s : State) : Out :=
  .next <| s.gated by_ off val.toNat fun s =>
    let root := bits val.toNat 31 31
    let s := ((s.setFld F.fabSyncctl_root 0 root).setFld F.fabSyncctl_port 0 (bits val.toNat 28 24)).setFld F.fabSyncctl_depth 0
      (if root = 1 then 0 else 15)
    (s.modFab fun f => { f with syncT1 := none }).setUnsync

end Sys2Proof.Machine
end

