-- ==== Sys2Proof/Machine/PlanTime.lean ====
section
/-! DEFINITION. Holds and their log, parks, occupancy, and the plan fetchers of streamed plans (R83 to R86, R228 to R252). -/

namespace Sys2Proof.Machine

/-! ## Holds (R229 to R235, R258) -/

/-- The first cycle of the run of held cycles that holds cycle `c`, going back over at most `n` requests. -/
def State.runStart (s : State) : Nat → Nat → Nat
  | 0, c => c
  | n + 1, c =>
    let fs := ((s.reqs.filter fun q => decide (q.first < c) && decide (c ≤ q.first + q.len)).map (·.first))
      ++ (match s.park with | some p => if p.first < c ∧ s.heldAt (c - 1) ∧ p.covers (c - 1) then [p.first] else [] | none => [])
    match fs with
    | [] => c
    | f :: r => s.runStart n (r.foldl min f)

/-- The requests that cover a cycle: when made, cause and source (R233). -/
def State.openers (s : State) (c : Nat) : List (Nat × Nat × Nat) :=
  ((s.reqs.filter (·.covers c)).map fun q => (q.made, q.cause, q.source))
    ++ (match s.park with | some p => if p.covers c then [(p.made, 9, 0x7000)] else [] | none => [])

/-- The request that opened a hold: the earliest made, then of the lowest cause, then of the lowest source (R233). -/
def firstOpener : List (Nat × Nat × Nat) → Option (Nat × Nat × Nat)
  | [] => none
  | a :: as => match firstOpener as with
    | some b => if b.1 < a.1 ∨ (b.1 = a.1 ∧ (b.2.1 < a.2.1 ∨ (b.2.1 = a.2.1 ∧ b.2.2 < a.2.2))) then some b else some a
    | none => some a

/-- HOLD_BEGIN: the hold is entered in the log, whose oldest entry is overwritten (R233). -/
def execHoldBegin (s : State) : Out :=
  .next <|
    if !s.held || s.hold.isSome then s
    else
      let c := s.runStart (s.reqs.length + 1) s.cnt
      let n := s.fld F.ptcHlogptr_next 0
      let lap := (mfind s.regs (regKey .ptcHloga n)).isSome
      let src := match firstOpener (s.openers c) with | some o => o.2.2 | none => 0
      let s := ((s.setReg .ptcHloga n c).setReg .ptcHlogb n 0).setFld F.ptcHlogb_source n src
      let s := (s.setFld F.ptcHlogb_causes n (s.causesAt c ||| s.causesAt s.cnt)).setFld F.ptcHlogptr_next 0 (n + 1)
      let s := if lap then s.setFld F.ptcHlogptr_wrapped 0 1 else s
      { s with hold := some (c, n, s.cnt) }

/-- After the hold of a step change firmware gives VCORE the voltage of the new step (R570). -/
def State.stepSettled (s : State) : State :=
  match s.clk.chg with
  | some g =>
    if g.switched then
      { s with clk := { s.clk with chg := none }, pwr := { s.pwr with vcore := s.fld F.clkState_step 0 } }
    else s
  | none => s

/-- HOLD_END: the first unheld cycle fills in the hold's length (R231, R233). -/
def execHoldEnd (s : State) : Out :=
  .next <| match s.hold with
    | some (c, n, last) =>
      if s.held then s else { s.setFld F.ptcHlogb_length n (last + 1 - c) with hold := none }.stepSettled
    | none => s

/-- BOUNDARY_HOLD_REQUEST: in the last cycle before a module boundary the holds firmware asked for at least 64 cycles
before that boundary are requested (R235, R570). -/
def execBoundaryHoldRequest (s : State) : Out :=
  .next <| if s.anyInv then s else
    let due := s.boundaryAsk.filter fun a => decide (a.2.2.2 + 64 ≤ s.cnt + 1)
    let s := { s with boundaryAsk := s.boundaryAsk.filter fun a => !decide (a.2.2.2 + 64 ≤ s.cnt + 1) }
    due.foldl (fun s a =>
      let s := s.request a.1 a.2.1 a.2.2.1
      if a.1 = 7 then s.modClk fun k => { k with chg := k.chg.map fun g => { g with first := some (s.cnt + 64) } } else s) s

/-- PTC_HOLDREQ_WRITE: a request of cause 10; a LENGTH of 0 has no effect (R258). -/
def execPtcHoldreqWrite (by_ : Writer) (off : Nat) (val : BitVec 32) (s : State) : Out :=
  .next <| s.gated by_ off val.toNat fun s => s.request 10 0x8000 (bits val.toNat 15 0)

/-! ## Occupancy (R251, R252) -/

/-- A list of spans put in order of their first byte. -/
def insSpan (a : Nat × Nat) : List (Nat × Nat) → List (Nat × Nat)
  | [] => [a]
  | b :: bs => if a.1 ≤ b.1 then a :: b :: bs else b :: insSpan a bs

/-- The bytes from `at_` to the end of the scratchpad outside the spans, which come in order. -/
def uncovered : List (Nat × Nat) → Nat → Nat
  | [], at_ => 0x200000 - at_
  | b :: bs, at_ => (b.1 - at_) + uncovered bs (max at_ (b.1 + b.2))

/-- The scratchpad of a tile that no valid handle covers. -/
def State.freeScratch (s : State) (y : Nat) : Nat :=
  let hs := ((List.range 64).map (s.hnd y)).filter fun h => h.valid && h.mode != 7
  uncovered ((hs.map fun h => (h.base, h.size)).foldl (fun l a => insSpan a l) []) 0

/-- GAL_OCC.FREE: the scratchpad of a gallery's active tiles that no valid handle covers, in units of 64 KiB (R252, R269). -/
def State.galFree (s : State) (g : Nat) : Nat := (s.activeOf g).foldl (fun a t => a + s.freeScratch (tIx t)) 0 / 0x10000

/-- A share in units of 1/65,535, rounded down. -/
def share (use cap : Nat) : Nat := if cap = 0 then 0 else min 65535 (use * 65535 / cap)

/-- The units of an occupancy level with their capacity over a window of `w` schedule cycles (DEDUCED,
notes/assumptions/12.md). -/
def State.occUnits (s : State) (lvl w : Nat) : List (Nat × Nat) :=
  let ports : List Nat := (List.range 48).flatMap fun y => (List.range s.cols).flatMap fun x =>
    if s.role ⟨x, y⟩ = 0 then [] else (List.range 4).map fun p => 4 * tIx ⟨x, y⟩ + p
  match lvl with
  | 0 => (List.range 192).filterMap fun g =>
      let n := (s.activeOf g).length
      if n = 0 then none else some (g, 32 * n * w)
  | 1 => ports.map fun u => (u, w - w / 8)
  | 2 => ports.map fun u => (u, w / 8)
  | 3 => s.channels.map fun c => (c, 25 * w)
  | 4 => ((List.range 2).filter fun p => s.fld F.anxCtl_enable p == 1).map fun p => (p, w)
  | 5 => (List.range 32).filterMap fun p =>
      let n := mget s.occ.use (6 * 2 ^ 32 + p) 0
      if n = 0 then none else some (p, n * (64 - s.mode.headroom) / 64)
  | _ => []

/-- The unit whose use is the largest share of its capacity, the first of equals: its number, use and capacity (R251, R268). -/
def busiest (us : List (Nat × Nat × Nat)) : Nat × Nat × Nat :=
  us.foldl (fun a u => if a.2.1 * u.2.2 < u.2.1 * a.2.2 then u else a) (0, 0, 1)

/-- PTC_OCCn of a window: mean, peak and its unit. -/
def State.occLevel (s : State) (lvl w : Nat) : State :=
  let us := (s.occUnits lvl w).map fun u => (u.1, mget s.occ.use (lvl * 2 ^ 32 + u.1) 0, u.2)
  let use := us.foldl (fun a u => a + u.2.1) 0
  let cap := us.foldl (fun a u => a + u.2.2) 0
  let pk := busiest us
  ((s.setFld F.ptcOcc_mean lvl (share use cap)).setFld F.ptcOcc_peak lvl (share pk.2.1 pk.2.2)).setFld F.ptcOcc_peakid lvl pk.1

/-- OCC_WINDOW_END: PTC_OCCn and GAL_OCC of the window; a written WINDOW takes effect (R251, R252, R267). -/
def execOccWindowEnd (s : State) : Out :=
  .next <|
    let w := s.occ.window
    if s.held || decide (s.sched < s.occ.start + w) then s
    else
      let s' := (List.range 6).foldl (fun s n => s.occLevel n w) s
      let s' := (List.range 192).foldl (fun s' g =>
        if s.galPresent g then s'.setFld F.galOcc_bankuse g (share (mget s.occ.use g 0) (32 * (s.activeOf g).length * w)) else s') s'
      { s' with occ := { start := s.sched, window := max 0x1000 (s.fld F.ptcOccwin_window 0), use := [] } }

/-! ## Plan fetchers (R83 to R86, R240) -/

/-- The installed plan of a gallery's region while an invocation of it is in progress and it is streamed. -/
def State.streaming (s : State) (g : Nat) : Option Plan :=
  let r := (s.galRec g).region
  if (s.region r).inInv then (s.installed r).bind fun p => if streamedLen p.text.length then some p else none else none

/-- The blocks of a text. -/
def textBlocks (p : Plan) : Nat := (p.text.length + 15) / 16

/-- The GDDR7 address of a text's block (R77, R650). -/
def State.blockAddr (s : State) (p : Plan) (k : Nat) : Nat := s.planArea.1 + p.offset + p.bytes - 24 * p.text.length + 384 * k

/-- R86: the six reads of a text block as a channel takes them: a read due 640 cycles from now. -/
def State.textAcc (s : State) (g addr : Nat) : QAcc :=
  { id := s.nextId, tile := 0, gal := g, region := (s.galRec g).region, write := false, addr := addr, slots := 1, handle := 0, off := 0,
    tag := 0, issued := s.sched, deadline := s.sched + 640, arrived := true }

/-- R86, R277, R279: the PTC_COUNT cycle in which each granule of a text block will be there, by the calendar, the published holds and
what the channels hold (DESIGN CHOICE, notes/assumptions/61.md). -/
def State.textGrans (s : State) (g addr : Nat) : List Nat := (List.range 6).map fun i => s.serveAt (s.textAcc g addr) i + 224

/-- R86, R277: the windows that make granules of a text block late are recorded, one for each channel. -/
def State.textWindow (s : State) (addr : Nat) (ready : List Nat) : State :=
  let late := (List.range 6).filter fun i =>
    let p := s.place (addr + 64 * i)
    decide (s.sched + 640 < s.schedPub (ready.getD i 0)) && s.away p.1 p.2 (s.sched + 416)
  let first := late.filter fun i => !(late.any fun j => decide (j < i) && (s.place (addr + 64 * j)).1 == (s.place (addr + 64 * i)).1)
  first.foldl (fun t i => t.windowNote (addr + 64 * i) (s.sched + 416)) s

/-- FETCH_OPPORTUNITY: the next block is read if a staging place is free, and the cycles by which the fetcher predicts it will miss its
landing are requested as a hold of cause 3: by the calendar and the channels' queues, or, by what else they know, ready `late` cycles
beyond 640 (R83, R86, R228, R230, R240; DESIGN CHOICE, notes/assumptions/61.md). -/
def execFetchOpportunity (g : Nat) (late : Nat) (s : State) : Out :=
  .next <| match s.streaming g with
    | none => s
    | some p =>
      let v := s.gal g
      let pos := s.galPos g
      if s.held || decide (pos % 6 ≠ 0) || decide (pos / 6 < v.opp) then s
      else
        let s := s.modGal g fun v => { v with opp := pos / 6 + 1 }
        if v.staged.length < 128 ∧ v.nextBlock < textBlocks p then
          let a := s.blockAddr p v.nextBlock
          let rs := s.textGrans g a
          let ready := rs.foldl max 0
          let miss := s.schedPub (max ready (s.cnt + 640 + late)) - (s.sched + 640)
          let s := ((s.modGal g fun v =>
            { v with nextBlock := v.nextBlock + 1, staged := v.staged ++ [⟨v.nextBlock, pos + 640, false, [], ready⟩] }).request 3
            (0x3000 + g) miss).textWindow a rs
          (List.range 6).foldl (fun s i => s.granBusy (a + 64 * i)) s
        else s

/-- The triples that lie wholly or partly in granule `i` of a run of triples that begins on a granule. -/
def granTriples (i : Nat) : List Nat := (List.range ((64 * i + 63) / 24 + 1 - 64 * i / 24)).map (64 * i / 24 + ·)

/-- R86, R283: the records of the reads of `n` granules of plan text from an address on, each clean but for what `res` says of it. -/
def State.textRecord (s : State) (addr n : Nat) (res : List (Nat × GranRes)) : State :=
  (List.range n).foldl (fun s i =>
    s.granRecord false (addr + 64 * i) (match res.find? fun r => r.1 == i with | some r => r.2 | none => .clean)) s

/-- R86, R251, R283: the reads of `n` granules of plan text from an address on. -/
def State.textRead (s : State) (addr n : Nat) (res : List (Nat × GranRes)) : State :=
  (List.range n).foldl (fun s i => s.granBusy (addr + 64 * i)) (s.textRecord addr n res)

/-- The granules that were lost, of the first `n`. -/
def lostGrans (n : Nat) (res : List (Nat × GranRes)) : List Nat :=
  (List.range n).filter fun i => match res.find? fun r => r.1 == i with | some r => r.2 == .lost | none => false

/-- BLOCK_LANDING: the block awaited longest lands in its staging place; `res` tells what became of its six granules, and the triples
of a lost one become nops (R83, R86). -/
def execBlockLanding (g : Nat) (res : List (Nat × GranRes)) (s : State) : Out :=
  .next <| match s.streaming g, (s.gal g).staged.find? fun b => !b.landed with
    | some p, some b =>
      if s.held || decide (s.galPos g < b.land) || decide (s.cnt < b.ready) then s
      else
        (s.textRecord (s.blockAddr p b.block) 6 res).modGal g fun v =>
          { v with staged := v.staged.map fun c =>
              if c.block = b.block then { c with landed := true, lost := (lostGrans 6 res).flatMap granTriples } else c }
    | _, _ => s

/-- BLOCK_BROADCAST: the first staged block goes to a free ring position of every active tile, at most one block a cycle,
and its position b_k is that of the compiled schedule (R83, R84, R240).  The position of a block that every active tile has passed
already is released again (R84). -/
def execBlockBroadcast (g : Nat) (s : State) : Out :=
  .next <| match s.streaming g, (s.gal g).staged, (s.gal g).ringFree with
    | some _, b :: rest, f :: fs =>
      let v := s.gal g
      if s.held || !b.landed || decide (s.sched < f.1) || decide (s.sched < v.lastBcast) then s
      else
        let bk := max (max b.land v.lastB) f.2
        let ring := v.ring ++ [b.block]
        let s := s.modGal g fun v =>
          { v with staged := rest, ring := ring, ringFree := fs, lastBcast := s.sched + 1, lastB := bk + 1 }
        ((s.activeOf g).foldl (fun s t => s.modTile (tIx t) fun T =>
          { T with
            bcast := T.bcast + 1
            bcastAt := (T.bcastAt.filter fun q => ring.contains q.1) ++ [(b.block, s.sched, bk)]
            lostPc := T.lostPc ++ b.lost.map (16 * b.block + ·) }) s).releasePassed g
    | _, _, _ => s

/-! ## Parks (R242, R243) -/

/-- The schedule cycle that PTC_SCHED will read 64 cycles from now, with the holds already published (R230). -/
def State.schedIn64 (s : State) : Nat := s.sched + ((List.range 64).filter fun k => !s.heldAt (s.cnt + k)).length

/-- The regions whose start is pending under R243. -/
def State.parkable (s : State) : List Nat :=
  (List.range 8).filter fun r => match (s.region r).pend with | some p => decide (p.since ≤ s.cnt) | none => false

/-- The cycle at which the park of a start made now ends, when it is known (R243). -/
def parkEnd (p : Start) (first : Nat) : Option Nat :=
  match p.mode with
  | .here => some (first + 64)
  | .count => some p.count
  | .barrier => p.release.map (· + 64)

/-- PARK_REQUEST: with a start pending and no region in an invocation, the module parks from 64 cycles on, where PTC_SCHED
would read a multiple of 2,304 (R243). -/
def execParkRequest (s : State) : Out :=
  .next <|
    match s.parkable with
    | [] => s
    | r :: _ =>
      if s.anyInv || s.park.isSome || decide (s.schedIn64 % 2304 ≠ 0) then s
      else
        match (s.region r).pend with
        | none => s
        | some p =>
          let first := s.cnt + 64
          if p.mode = .count ∧ p.count < first + 64 then s
          else { s with park := some ⟨s.cnt, first, parkEnd p first, r⟩ }

end Sys2Proof.Machine
end

