-- ==== Sys2Proof/Machine/Image.lean ====
section
/-! DEFINITION. The hanging image: its container and sections (R21 to R36) and the thirteen checks of a load (R39, R40). -/

namespace Sys2Proof.Machine

/-! ## The container (R21 to R24) -/

/-- A directory entry (R22): section type, offset, length and CRC, and where the entry stands. -/
structure Sect where
  type : Nat
  off : Nat
  len : Nat
  crc : Nat
  deriving DecidableEq, Repr

/-- What a failed check reports (R40): status, section and offset. -/
structure ChkFail where
  status : Nat
  sect : Nat
  off : Nat
  deriving DecidableEq, Repr

/-- A check that fails unless `ok`. -/
def chk (ok : Bool) (st sect off : Nat) : Option ChkFail := if ok then none else some ⟨st, sect, off⟩

/-- The first failure of a list of checks. -/
def firstFail : List (Option ChkFail) → Option ChkFail
  | [] => none
  | some f :: _ => some f
  | none :: cs => firstFail cs

/-- The first record of a section that breaks a rule, reported at its offset. -/
def chkRecs {α : Type} (st sect size : Nat) (rs : List α) (ok : Nat → α → Bool) : Option ChkFail :=
  firstFail (rs.zipIdx.map fun r => chk (ok r.2 r.1) st sect (size * r.2))

/-- The directory of an image. -/
def dirOfImage (b : List Byte) : List Sect :=
  (List.range (leAt b 0x0C 2)).map fun i =>
    let e := 0x100 + 16 * i
    ⟨leAt b e 2, leAt b (e + 4) 4, leAt b (e + 8) 4, leAt b (e + 12) 4⟩

/-- The body of a section; empty when the image has none. -/
def secBody (b : List Byte) (t : Nat) : List Byte :=
  match (dirOfImage b).find? fun e => e.type == t with
  | some e => (b.drop e.off).take e.len
  | none => []

def hasSec (b : List Byte) (t : Nat) : Bool := (dirOfImage b).any fun e => e.type == t

/-- A byte string cut into records of `size` bytes. -/
def cut (size : Nat) (b : List Byte) : List (List Byte) :=
  (List.range (b.length / size)).map fun i => (b.drop (size * i)).take size

/-- Every byte is zero. -/
def allZero (b : List Byte) : Bool := b.all (· == 0)

/-- The position of the first byte that is not zero among `n` from an offset. -/
def firstNonZero (b : List Byte) (off n : Nat) : Option Nat := (List.range n).find? fun i => (b.getD (off + i) 0) != 0

/-- The sections in increasing offset, those of one offset in directory order. -/
def insSect (e : Sect) : List Sect → List Sect
  | [] => [e]
  | f :: fs => if e.off ≤ f.off then e :: f :: fs else f :: insSect e fs

def sortSects : List Sect → List Sect
  | [] => []
  | e :: es => insSect e (sortSects es)

/-- Sections in increasing offset do not overlap: of two that do, the TYPE of the one that begins later is named (R22; DESIGN CHOICE,
notes/assumptions/56.md). -/
def sectOverlap : List Sect → Nat → Option ChkFail
  | [], _ => none
  | e :: es, at_ => if e.off < at_ then some ⟨0x0031, e.type, 0⟩ else sectOverlap es (e.off + e.len)

/-- The bytes outside sections are zero; the offset of the first that is not is reported (R22, R40; DESIGN CHOICE,
notes/assumptions/56.md). -/
def padding (b : List Byte) (total : Nat) : List Sect → Nat → Option ChkFail
  | [], at_ => (firstNonZero b at_ (total - at_)).map fun i => ⟨0x0031, 0, at_ + i⟩
  | e :: es, at_ =>
    match firstNonZero b at_ (e.off - at_) with
    | some i => some ⟨0x0031, 0, at_ + i⟩
    | none => padding b total es (e.off + e.len)

/-- The length R24 to R36 give a section: fixed, or a whole number of records. -/
def secLenOk (t n : Nat) : Bool :=
  if t = 1 then n == 16 else if t = 3 then n == 1536 else if t = 6 then n == 32 else if t = 7 then n == 384
  else if t = 8 then n == 32 else n % (if t = 4 then 48 else if t = 5 then 24 else if t = 10 then 8 else 16) == 0

/-- The length of a signature trailer (R23). -/
def trailerLen : Nat := 16272

/-- Check 2 of R39.  A section without bytes overlaps none.  The order of its parts, and the offset reported when the file's
length is not that of its header and trailer (8, or 0 when it holds no whole header), are not in the spec: DESIGN CHOICE,
notes/assumptions/56.md. -/
def check2 (b : List Byte) : Option ChkFail :=
  let n := leAt b 0x0C 2
  let total := leAt b 8 4
  let flags := leAt b 0x0E 2
  let dirEnd := 0x100 + 16 * n
  let ss := dirOfImage b
  let so := sortSects ss
  let held := so.filter fun e => e.len != 0
  let h (ok : Bool) (off : Nat) := chk ok 0x0031 0 off
  firstFail <|
    [h (decide (0x100 ≤ b.length)) 0, h (leAt b 0 4 == 0x49484B54) 0, h (leAt b 4 2 == 1) 4, h (leAt b 6 2 == 0x100) 6,
     h (decide (1 ≤ n) && decide (n ≤ 11)) 0x0C,
     h (total % 16 == 0 && decide (total ≤ 0x4000000) && decide (dirEnd ≤ total)) 8, h (decide (flags < 4)) 0x0E,
     h (b.length == total + (if bits flags 0 0 = 1 then trailerLen else 0)) 8, h (leAt b 0x14 4 == 0) 0x14,
     h (allZero ((b.drop 0x60).take 160)) 0x60] ++
    (ss.zipIdx.map fun e =>
      h (decide (1 ≤ e.1.type) && decide (e.1.type ≤ 11) && (leAt b (0x100 + 16 * e.2 + 2) 1 == 1)
          && (leAt b (0x100 + 16 * e.2 + 3) 1 == 0) && e.1.off % 16 == 0 && decide (dirEnd ≤ e.1.off)
          && !(ss.take e.2).any fun f => f.type == e.1.type) (0x100 + 16 * e.2)) ++
    (ss.map fun e => chk (decide (e.off + e.len ≤ total)) 0x0031 e.type 0) ++
    [sectOverlap held dirEnd,
     h (roundUp (so.foldl (fun m e => max m (e.off + e.len)) dirEnd) 16 == total) 8,
     padding b total held dirEnd] ++
    (so.map fun e => chk ((crc32c ((b.drop e.off).take e.len)).toNat == e.crc) 0x0031 e.type 0) ++
    ([1, 2, 3, 6, 7, 8].map fun t => chk (hasSec b t) 0x0031 t 0) ++
    (so.map fun e => chk (secLenOk e.type e.len) 0x0031 e.type 0) ++
    [chk (((cut 16 (secBody b 2)).any fun r => leAt r 1 1 == 1) == hasSec b 9) 0x0031 9 0]

/-! ## The sections (R25 to R36) -/

def modeOf (r : List Byte) : Mode :=
  { step := leAt r 0 1, mirror := leAt r 1 1, start := leAt r 2 1, reduction := leAt r 3 1, swap := leAt r 4 1,
    ixlGen := leAt r 5 1, reserve := leAt r 6 1, headroom := leAt r 7 1, partner := leAt r 8 4, suspect := leAt r 12 2 }

def regionRecOf (r : List Byte) : RegionRec := ⟨leAt r 0 1, leAt r 1 1, leAt r 2 1, leAt r 3 1, leAt r 4 2⟩

def galRecOf (r : List Byte) : GalRec := ⟨leAt r 0 1, BitVec.ofNat 32 (leAt r 4 4)⟩

def circRecOf (r : List Byte) : CircRec :=
  ⟨leAt r 0 2, leAt r 2 1, leAt r 3 1, leAt r 4 1, leAt r 5 1, leAt r 6 1, leAt r 8 2, leAt r 10 2,
   (List.range 128).map fun i => bits (leAt r (16 + i / 4) 1) (2 * (i % 4) + 1) (2 * (i % 4))⟩

def handRecOf (r : List Byte) : HandRec :=
  ⟨leAt r 0 1, leAt r 1 1, leAt r 2 1, leAt r 3 1, leAt r 4 1, leAt r 5 1, leAt r 6 1, leAt r 8 4, leAt r 12 4⟩

/-- The plan area in units of 1 MiB. -/
def memMapOf (r : List Byte) : MemMap :=
  ⟨leAt r 0 1, leAt r 1 1, leAt r 4 4, leAt r 8 8 / 2 ^ 20, leAt r 16 8 / 2 ^ 20⟩

def refRecOf (r : List Byte) : RefRec := ⟨leAt r 0 2, leAt r 2 2, leAt r 4 1⟩

def vitRecOf (r : List Byte) : VitRec := ⟨leAt r 0 1, leAt r 1 1, leAt r 2 2, leAt r 4 2, leAt r 6 2, leAt r 8 4⟩

def grantRecOf (r : List Byte) : GrantRec := ⟨leAt r 0 1 / 16, leAt r 0 1 % 16, leAt r 1 1, leAt r 2 2, leAt r 4 2⟩

def fabRecOf (r : List Byte) : FabRec := ⟨leAt r 0 4, leAt r 4 4, BitVec.ofNat 32 (leAt r 8 4), leAt r 12 1⟩

/-- The image its bytes describe. -/
def imageOf (b : List Byte) (pads : Nat) : Image where
  expert := bits (leAt b 0x0E 2) 1 1 == 1
  signed := bits (leAt b 0x0E 2) 0 0 == 1
  grade := leAt b 0x10 1
  profile := leAt b 0x12 2
  id := BitVec.ofNat 64 (leAt b 0x18 8)
  setup := (b.drop 0x20).take 32
  digest := (b.drop 0x40).take 32
  mode := modeOf (secBody b 1)
  regions := (cut 16 (secBody b 2)).map regionRecOf
  gals := (cut 8 (secBody b 3)).map galRecOf
  circs := (cut 48 (secBody b 4)).map circRecOf
  hands := (cut 24 (secBody b 5)).map handRecOf
  mem := memMapOf (secBody b 6)
  refs := (cut 8 (secBody b 7)).map refRecOf
  ports := (secBody b 8).map (·.toNat)
  vits := (cut 16 (secBody b 9)).map vitRecOf
  grants := (cut 8 (secBody b 10)).map grantRecOf
  fabs := (cut 16 (secBody b 11)).map fabRecOf
  pads := pads
  pairRaw := secBody b 2 ++ secBody b 9 ++ [1, 6, 4, 3].map fun i => (secBody b 1).getD i 0

/-! ## Checks 3 to 8 -/

/-- R21: the image digest. -/
def imageDigest (b : List Byte) : List Byte := sha256 (b.take 0x40 ++ (b.take (leAt b 8 4)).drop 0x100)

/-- R44: the set-up digest. -/
def setupDigest (b : List Byte) : List Byte :=
  sha256 (secBody b 8 ++ secBody b 4 ++ secBody b 11 ++ [(secBody b 1).getD 5 0, (secBody b 1).getD 7 0])

/-- The SHA-256 of a public key is the owner key hash in the fuses (R23, R617). -/
def Fuses.ownerKey (f : Fuses) (key : List Byte) : Bool := f.ownset && leNat (sha256 key) == f.ownkey.toNat

/-- Checks 3 to 7 of R39; `sigOk` says whether the signature is one of the key over the bytes (notes/assumptions/7.md).  On TK9-B check 7
refuses a CIRCUIT end or a HANDLE rectangle with x from 48 to 63 at any y, above 47 too, where no grade has a tile (R28; DESIGN CHOICE,
notes/assumptions/56.md). -/
def State.check3 (s : State) (b : List Byte) (sigOk : Bool) : Option ChkFail :=
  let total := leAt b 8 4
  let signed := bits (leAt b 0x0E 2) 0 0 == 1
  let absent (p : Nat) : Bool := s.fuses.grade && (p / 6 == 3 || p / 6 == 7)
  firstFail <|
    [if signed then chk (s.fuses.ownerKey ((b.drop total).take 48) && sigOk) 0x0032 0 total
     else chk (s.fld F.secPolicy_reqsign 0 == 0) 0x0032 0 0x0E,
     chk (imageDigest b == (b.drop 0x40).take 32) 0x0033 0 0x40,
     chk (setupDigest b == (b.drop 0x20).take 32) 0x0033 0 0x20,
     chk (leAt b 0x10 1 == if s.fuses.grade then 0x0B else 0x0A) 0x0034 0 0x10,
     chk (decide (leAt b 0x11 1 ≤ s.fuses.stepping)) 0x0035 0 0x11,
     chk (s.padWord (leAt b 0x12 2)).isSome 0x0035 0 0x12,
     chkRecs 0x0021 3 8 (cut 8 (secBody b 3)) fun g r =>
       !s.fuses.grade || decide (g % 16 < 12) || (leAt r 0 1 == 0xFF && allZero (r.drop 1)),
     chkRecs 0x0021 4 48 (cut 48 (secBody b 4)) fun _ r =>
       !s.fuses.grade || !([leAt r 2 1, leAt r 4 1] : List Nat).any fun x => decide (48 ≤ x) && decide (x ≤ 63),
     chkRecs 0x0021 5 24 (cut 24 (secBody b 5)) fun _ r =>
       !s.fuses.grade || decide (min (leAt r 2 1) 63 < max (leAt r 0 1) 48),
     chkRecs 0x0021 7 8 (cut 8 (secBody b 7)) fun p r => !absent p || r.all (· == 0xFF),
     chkRecs 0x0021 10 8 (cut 8 (secBody b 10)) fun _ r => !s.fuses.grade || (leAt r 0 1 / 16 != 3 && leAt r 0 1 / 16 != 7)]

/-- A power of two from 1 to `top`. -/
def powTwoTo (n top : Nat) : Bool := decide (n ≤ top) && (List.range 13).any fun k => n == 2 ^ k

/-- A calendar's ORDER is a permutation of 0 to 3 (R31). -/
def orderPerm (o : Nat) : Bool := [0, 1, 2, 3].all fun g => (List.range 4).any fun j => bits o (2 * j + 1) (2 * j) == g

/-- The value ranges of a HANDLE record (R29, R96), its bounds (check 11) left out.  That the rectangle lies in the coordinate
space of R27 with X0 ≤ X1 and Y0 ≤ Y1 is such a range: DESIGN CHOICE, notes/assumptions/56.md. -/
def handleRangeOk (r : List Byte) : Bool :=
  let hash := leAt r 5 1
  let mode := hash % 8
  let base := leAt r 8 4
  let size := leAt r 12 4
  decide (leAt r 0 1 ≤ leAt r 2 1) && decide (leAt r 2 1 < 64) && decide (leAt r 1 1 ≤ leAt r 3 1) && decide (leAt r 3 1 < 48)
    && decide (leAt r 4 1 < 64) && decide (hash < 16) && [0, 1, 2, 7].contains mode && decide (leAt r 6 1 < 4)
    && leAt r 7 1 == 0 && allZero (r.drop 16) && base % 512 == 0 && size % 512 == 0 && size != 0
    && (!(mode == 1 || mode == 2) || (base % 1024 == 0 && size % 1024 == 0))
    && (mode != 7 || (hash == 7 && leAt r 6 1 == 0 && base == 0 && size == 0x400))

/-- Check 8 of R39: the value ranges of R25 to R36, the reserved bytes of the sections (R18) and the plan area of R272.  A
REGION_ID that an earlier record has (R26) counts as out of range: DESIGN CHOICE, notes/assumptions/56.md. -/
def State.check8 (s : State) (b : List Byte) : Option ChkFail :=
  let m := secBody b 1
  let k (sect size : Nat) (ok : Nat → List Byte → Bool) := chkRecs 0x0036 sect size (cut size (secBody b sect)) ok
  let le (r : List Byte) (o n top : Nat) : Bool := decide (leAt r o n ≤ top)
  firstFail
    [k 1 16 fun _ m => le m 0 1 4 && le m 1 1 2 && le m 2 1 1 && le m 3 1 1 && le m 4 1 1 && decide (1 ≤ leAt m 5 1) && le m 5 1 2
       && le m 6 1 32 && decide (4 ≤ leAt m 7 1) && le m 7 1 16 && le m 8 4 0xFFFFF && leAt m 12 2 != 0 && leAt m 14 2 == 0,
     k 2 16 fun i r => le r 0 1 7 && le r 1 1 2 && allZero (r.drop 6)
       && !((cut 16 (secBody b 2)).take i).any (fun q => leAt q 0 1 == leAt r 0 1)
       && (if leAt r 1 1 = 1 then decide (1 ≤ leAt r 2 1) && le r 2 1 3 else leAt r 2 1 == 0)
       && (if leAt r 1 1 = 2 then le r 3 1 7 else leAt r 3 1 == 0xFF),
     k 3 8 fun _ r => (le r 0 1 7 || leAt r 0 1 == 0xFF) && leAt r 1 3 == 0
       && (List.range 16).all fun t => bits (leAt r 4 4) (2 * t + 1) (2 * t) != 3,
     k 4 48 fun _ r => decide (1 ≤ leAt r 6 1) && le r 6 1 128 && powTwoTo (leAt r 8 2) 64
       && decide (leAt r 10 2 < leAt r 8 2) && leAt r 7 1 == 0 && leAt r 12 4 == 0,
     k 5 24 fun _ r => handleRangeOk r,
     k 6 32 fun _ r => le r 0 1 2 && le r 1 1 3 && leAt r 2 2 == 0 && leAt r 24 8 == 0
       && leAt r 4 4 == (if s.fuses.grade then 36 else 48) && leAt r 8 8 % 2 ^ 20 == 0 && leAt r 16 8 % 2 ^ 20 == 0
       && leAt r 16 8 != 0 && decide (leAt r 8 8 + leAt r 16 8 ≤ s.gddrSize),
     k 7 8 fun p r => !s.chanPresent p || (le r 0 2 2303 && orderPerm (leAt r 4 1) && leAt r 5 3 == 0),
     k 8 1 fun _ r => leAt r 0 1 % 4 != 3 && bits (leAt r 0 1) 3 2 != 3 && le r 0 1 15,
     k 9 16 fun _ r => le r 1 1 8 && decide (1 ≤ leAt r 2 2) && le r 2 2 4096 && le r 4 2 1024 && le r 6 2 16384
       && decide (65536 ≤ leAt r 8 4) && leAt r 12 4 == 0,
     k 10 8 fun _ r => le r 0 1 0x9F && (decide (128 ≤ leAt r 0 1) || decide (leAt r 0 1 % 16 ≤ 3)) && le r 1 1 2
       && powTwoTo (leAt r 2 2) 4096 && decide (leAt r 4 2 < leAt r 2 2) && leAt r 6 2 == 0,
     k 11 16 fun _ r => le r 0 4 0xFFFFF && decide (1 ≤ leAt r 4 4) && decide (leAt r 0 4 + leAt r 4 4 ≤ 1048576)
       && le r 12 1 3 && leAt r 13 3 == 0,
     chk (!m.isEmpty) 0x0036 1 0]

/-! ## Checks 9 to 13, on the state that would hold the image -/

/-- The number of ports with a role. -/
def Image.roleCount (im : Image) (r : Nat) : Nat := (im.ports.filter fun p => p % 4 == r).length

/-- The serving regions of an image. -/
def Image.serving (im : Image) : List RegionRec := im.regions.filter fun r => r.role == 1

/-- Check 9 of R39: the rows of R37 in table order; the expert rule of a control handle comes last (R96). -/
def State.check9 (s : State) (im : Image) : Option ChkFail :=
  let m := im.mode
  let mode (ok : Bool) := chk ok 0x0037 1 0
  let count (r : Nat) : Nat := (im.gals.filter fun g => g.region == r).length
  let known (r : Nat) : Bool := im.regions.any fun x => x.id == r
  let mir := im.roleCount 2
  firstFail
    [chk (decide (1 ≤ im.regions.length) && decide (im.regions.length ≤ 8)) 0x0037 2 0,
     chkRecs 0x0037 2 16 im.regions fun i r =>
       let upto := (im.regions.take (i + 1)).filter fun x => x.role == 1
       decide (0 < count r.id) && r.galCount == count r.id
         && (r.role != 1 || decide (upto.length ≤ 1)
           || (upto.length == 2 && (upto.map (·.engine) == [1, 2] || upto.map (·.engine) == [2, 1])))
         && (r.role != 2 || (im.serving.any (fun x => x.id == r.draftOf)
           && !(im.regions.take i).any fun x => x.role == 2 && x.draftOf == r.draftOf)),
     chkRecs 0x0037 3 8 im.gals fun _ g => g.region == 0xFF || known g.region,
     chkRecs 0x0037 2 16 im.regions fun _ r => !(s.tilesOf r.id).isEmpty,
     chkRecs 0x0037 3 8 im.gals fun _ g => g.region != 0xFF || g.roles == 0,
     mode (m.mirror != 0 || (mir == 0 && m.partner == 0xFFFFF && m.reserve == 0)),
     mode (m.mirror != 1 || (decide (1 ≤ mir) && decide (mir ≤ 4) && m.partner != 0xFFFFF && !im.serving.isEmpty
       && decide (8 ≤ m.reserve) && decide (m.reserve ≤ 32))),
     mode (m.mirror != 2 || (decide (1 ≤ mir) && decide (mir ≤ 4) && m.partner != 0xFFFFF && m.reserve == 0)),
     mode (m.start == 1 || m.ixlGen == 2),
     mode (m.swap == 0 || (m.mirror != 0 && !im.serving.isEmpty)),
     mode (m.reduction == 0 || im.expert),
     chkRecs 0x0037 9 16 im.vits fun _ v => v.depth == 0 || im.regions.any fun x => x.role == 2 && x.draftOf == v.region,
     chkRecs 0x0037 2 16 im.regions fun _ r => r.role != 1 || im.vits.any fun v => v.region == r.id,
     chkRecs 0x0037 9 16 im.vits fun i v => im.serving.any (fun r => r.id == v.region)
       && !(im.vits.take i).any fun w => w.region == v.region,
     chkRecs 0x0037 5 24 im.hands fun _ h => im.expert || h.hash % 8 != 7]

/-- R28: the path of a circuit from a tile by the codes of its hops: usable hops between tiles, ending on `dst`. -/
def State.pathOk (s : State) (dst : Nat) : List Nat → Nat → Bool
  | [], y => y == dst && s.role (xyOf y) == 1
  | c :: cs, y =>
    match s.farEnd y (dirOfCode c) with
    | .tile z => s.hopTrained y (dirOfCode c) && (s.role (xyOf z) == 1 || s.role (xyOf z) == 2) && s.pathOk dst cs z
    | _ => false

/-- The slots of a period and phase (R112). -/
def slotsOf (period phase : Nat) : List Nat := (List.range 64).filter fun k => k % period == phase % period

/-- The claims of a circuit: port and slot (R116). -/
def State.claimsOf (s : State) (c : CircRec) : List (Nat × Dir × Nat) :=
  (s.circHops c).1.flatMap fun h => (slotsOf c.period (c.phase + h.2.2)).map fun k => (h.1, h.2.1, k)

/-- Check 10 of R39 (R28, R116). -/
def State.check10 (s : State) (im : Image) : Option ChkFail :=
  chkRecs 0x0038 4 48 im.circs fun i c =>
    let before := im.circs.take i
    let mine := s.claimsOf c
    s.role ⟨c.sx, c.sy⟩ == 1 && s.role ⟨c.dx, c.dy⟩ == 1 && s.pathOk (tIx ⟨c.dx, c.dy⟩) (c.path.take c.hops) (tIx ⟨c.sx, c.sy⟩)
      && !before.any (fun d => d.id == c.id)
      && !mine.any (fun q => windowSlot q.2.2)
      && !before.any (fun d => (s.claimsOf d).any mine.contains)
      && decide ((before.filter fun d => d.dx == c.dx && d.dy == c.dy).length < 8)

/-- Check 11 of R39 (R29, R96): every handle lies in bounds, no two records set one handle of one tile, and no two handles of
one tile overlap. -/
def check11 (im : Image) : Option ChkFail :=
  chkRecs 0x0039 5 24 im.hands fun i h =>
    decide (h.base + h.size ≤ 0x200000) && !(im.hands.take i).any fun g =>
      decide (g.x0 ≤ h.x1) && decide (h.x0 ≤ g.x1) && decide (g.y0 ≤ h.y1) && decide (h.y0 ≤ g.y1)
        && (g.handle == h.handle || (g.hash % 8 != 7 && h.hash % 8 != 7
          && decide (g.base < h.base + h.size) && decide (h.base < g.base + g.size)))

/-- A clock step is usable: its bit in MEM_STEPOK is set (R568); none is after a self-test that failed at P4 (R620). -/
def State.stepUsable (s : State) (p : Nat) : Bool :=
  bits (s.fld F.memStepok_ok 0) p p == 1 && (s.fld F.memStepok_tested 0 != 31 || bits (s.fld F.memStepok_ok 0) 4 4 == 1)

/-- The first record of a present channel that is infeasible at a step (R32). -/
def State.badRef (s : State) (im : Image) (p : Nat) : Option Nat :=
  (List.range 48).find? fun ch => s.chanPresent ch && !calFeasible (im.refs.getD ch ⟨0, 0, 0⟩).window p

/-- R568: the step the apply phase sets. -/
def State.imageStep (s : State) (im : Image) : Option Nat :=
  let want := im.mode.step
  if s.stepUsable want then some want
  else match (List.range 5).find? fun p => decide (want < p) && s.stepUsable p with
    | some p => some p
    | none => (List.range 5).reverse.find? fun p => decide (p < want) && s.stepUsable p && (s.badRef im p).isNone

/-- Check 12 of R39 (R32, R568). -/
def State.check12 (s : State) (im : Image) : Option ChkFail :=
  match s.imageStep im with
  | none => some ⟨0x003A, 7, 0xFFFFFFFF⟩
  | some p => (s.badRef im p).map fun ch => ⟨0x003A, 7, 8 * ch⟩

/-- Check 13 of R39: the mesh grants (R310), then the FABRIC records (R36).  Two mesh grants of one die conflict in a shared slot
when they name one channel too, as R310 says without exception (DEDUCED, notes/assumptions/57.md). -/
def State.check13 (s : State) (im : Image) : Option ChkFail :=
  let claims := im.circs.flatMap s.claimsOf
  firstFail
    [chkRecs 0x003B 10 8 im.grants fun i g =>
       let mine := slotsOf g.period g.phase
       g.res != 0 || (decide (g.period ≤ 64) && decide (g.die < 8) && !mine.any windowSlot
         && !claims.any (fun q => dieOf (xyOf q.1) == g.die && mine.contains q.2.2)
         && !(im.grants.take i).any fun h => h.res == 0 && h.die == g.die
             && (slotsOf h.period h.phase).any mine.contains),
     chkRecs 0x003B 11 16 im.fabs fun i f =>
       (List.range 32).all (fun p => !f.mask.getLsbD p || im.ports.getD p 0 % 4 == 1)
         && !(im.fabs.take i).any fun g =>
             (List.range 2).any fun d => bits f.dies d d == 1 && bits g.dies d d == 1
               && decide (g.first < f.first + f.count) && decide (f.first < g.first + g.count)]

/-- Checks 2 to 13 of R39 on the bytes read; the image when none fails. -/
def State.checkImage (s : State) (b : List Byte) (sigOk : Bool) : Except ChkFail Image :=
  match firstFail [check2 b, s.check3 b sigOk, s.check8 b] with
  | some f => .error f
  | none =>
    let im := imageOf b ((s.padWord (leAt b 0x12 2)).getD 0)
    let s' := { s with img := some im }
    match firstFail [s'.check9 im, s'.check10 im, check11 im, s'.check12 im, s'.check13 im] with
    | some f => .error f
    | none => .ok im

end Sys2Proof.Machine
end

