-- ==== Sys2Proof/Machine/Load.lean ====
section
/-! DEFINITION. Loading a hanging image (R38 to R51), and loading and releasing plans (R77 to R80, R341, R650). -/

namespace Sys2Proof.Machine

/-! ## The clock step (R567, R568) -/

/-- The step becomes `p`, with the trim sets of the step, and UNSYNC is set (R421, R568, R569). -/
def State.setClockStep (s : State) (p : Nat) : State :=
  if s.step_ = p then s
  else
    let s := (s.setFld F.clkState_step 0 p).modPwr fun w => { w with vcore := p }
    (s.channels.foldl (fun s ch => s.trimNow ch) s).setUnsync

/-! ## The load (R38 to R47) -/

/-- R38: the module is idle. -/
def State.idleForLoad (s : State) : Bool :=
  !s.anyRunning && ([0, 1].all fun e => (s.eng e).reqs.all fun q => q.2.state == 0) && !s.mir.adoptedAny
    && s.epochState 0 == 0 && s.epochState 1 == 0

/-- R40: a refused load leaves the held image and records the failure. -/
def State.loadFails (s : State) (c : Cmd) (f : ChkFail) : State :=
  let s := { s with loading := none }.setFld F.hstHistate_state 0 (if s.img.isSome then 3 else 0)
  (((s.setFld F.hstHierr_status 0 f.status).setFld F.hstHierr_section 0 f.sect).setFld F.hstHierr_offset 0 f.off).complete
    c 0x0001 f.status

/-- A gallery is gated or powered by its GATE (R579): its contents are lost while it is gated.  While the VCORE rails are removed none
wakes (R583). -/
def State.galByGate (s : State) (g : Nat) : State :=
  let on := s.fld F.galGate_gate g == 0
  let was := (s.gal g).awake
  if on && !was && !s.pwr.cut then
    ((List.range 16).foldl (fun s k => s.modTile (tIx (tileAt g k)) fun T => { T with scratch := [], full := 0, fullAt := 0 }) s).modGal g
      (fun _ => { awake := true }) |>.setFld F.galGate_awake g 1
  else s.modGal g fun _ => { awake := was, gatePend := was && !on }

/-- R46, R418: the FABRIC records go into the live bank of each I/O die, and the other bank is cleared. -/
def State.loadTables (s : State) (im : Image) : State :=
  [0, 1].foldl (fun s die =>
    let live := s.epoch die % 2
    let d : FabDie := { s.fdie die with bank0 := [], bank1 := [] }
    let d := im.fabs.foldl (fun d r =>
      if bits r.dies die die = 1 then
        (List.range r.count).foldl (fun d k => d.setEntry live (r.first + k) r.mask) d
      else d) d
    s.modFdie die fun _ => d) s

/-- The width cap the held image gives a port (R33). -/
def State.portCap (s : State) (p : Nat) : Nat := ((s.img.map (·.ports)).getD []).getD p 0 / 4 % 4

/-- R43, R388: once the apply phase of a full load has ended, the ports whose role or width cap changed begin to train, or go
OFF; `old` gives what each had before it. -/
def State.loadPorts (s : State) (old : List (Nat × Nat)) : State :=
  old.zipIdx.foldl (fun s o =>
    let p := o.2
    if s.portRole p ≠ o.1.1 ∨ (s.portCap p ≠ o.1.2 ∧ s.portRole p ≠ 0) then s.roleChanged p else s) s

/-- R286: the annex ports the image enables begin to train; the others are disabled, and those that stay up map their devices anew. -/
def State.loadAnnex (s : State) : State :=
  State.mapAnnex <| [0, 1].foldl (fun s p =>
    let on := s.fld F.anxCtl_enable p == 1
    let st := s.fld F.anxStat_state p
    if on && (st == 0 || st == 3) then s.annexTrain p
    else if !on && st != 0 then (s.annexState p 0).setFld F.anxStat_size p 0
    else s) s

/-- R461, R489, R530: what the serving engines and the weights hold for an image is cleared; a WPTR that waits has no area
any more, and the status of a swap that waits is not stated (DESIGN CHOICE, notes/assumptions/20.md). -/
def State.loadEngines (s : State) : State :=
  let s := [0, 1].foldl (fun s e => (s.modEng e fun g =>
    { g with cfg := none, cat := [], pageCnt := [], slots := [], pres := [], tabStep := 0, tabAt := 0, admNo := 0 }).setFld
      F.srvCtl_configured e 0) s
  let s := s.wts.wptrs.foldl (fun s w => match w.cmd with | some c => s.complete c 0x0202 0x0081 | none => s) s
  let s := match s.wts.swap.bind (·.cmd) with
    | some c => (s.freeStep 2).complete c 0x0203 (leNat (s.freeBytes 2))
    | none => s
  let s := (List.range 8).foldl (fun s r => s.setReg .srvSwap r 0) s
  s.modWts fun w => { w with areas := [], sealed := [], swap := none, wptrs := [], fenced := [] }

/-- R544 to R546: the pair's state after a load, and HELLO. -/
def State.loadPair (s : State) : State :=
  let s := s.abandon.freeMirror.modMir fun m => { m with hello := none, queries := [], twins := [] }
  let s := (s.setFld F.mirState_missed 0 0).setLeader
  (s.setPair (if s.mode.mirror = 0 then 0 else 1)).sendHello

/-- R46: the load of an image is fast. -/
def State.fastLoad (s : State) (im : Image) : Bool :=
  (wordsBytes ((List.range 4).map fun i => s.reg .hstHidigest i)) == im.setup && !allZero im.setup

/-- R41: the apply phase.  The retained set-up digest is zero while a full load's phase lasts (R45). -/
def State.applyImage (s : State) (im : Image) : State :=
  let fast := s.fastLoad im
  let s := { s with img := some im, plans := []
                    regions := im.regions.foldl (fun (m : SMap Region) (r : RegionRec) => mput m r.id { lastLaunch := s.wall }) []
                    chans := s.chans.map fun (c : Nat × ChanSt) => (c.1, { c.2 with oldCal := none }) }
  let s := s.reloadImage fun k _ => !(fast && k == .lnkCtl)
  let s := (List.range 8).foldl (fun s r => s.setFld F.ptcRunb_valid r 0) s
  let s := (s.setFld F.ptcRepro_lateissue 0 0).setFld F.ptcRepro_loss 0 0
  let s := { s with tiles := s.tiles.map fun (t : Nat × Tile) => (t.1, { t.2 with full := 0, fullAt := 0, hndw := [] }) }
  let s := (List.range 192).foldl (fun s g => if s.galPresent g then s.galByGate g else s) s
  let s := match s.imageStep im with
    | some p =>
      let s := s.setClockStep p
      if p = im.mode.step then s else s.event 0x02D3 8 0 []
    | none => s
  let s := s.loadAnnex.loadEngines.loadPair
  let s := if fast then s else (s.loadTables im).zeroDigest
  let s := ((s.setFld F.hstHistate_fast 0 (b2n fast)).setFld F.hstHistate_expert 0
    (b2n im.expert)).setFld F.hstHistate_signed 0 (b2n im.signed)
  ((s.setFld F.hstHistate_modified 0 0).setReg .hstHiid 0 im.id.toNat).loadBin

/-- R43, R45: the end of the apply phase of a full load: the digest it retains, and the ports that train. -/
def State.fullEnd (s : State) (old : List (Nat × Nat)) : State :=
  let s := match s.img with
    | some im => (List.range 4).foldl (fun (s : State) i => s.setReg .hstHidigest i (leNat (im.setup.drop (8 * i) |>.take 8))) s
    | none => s
  s.loadPorts old

/-- R39, R41: a load goes on: validation ends in a refusal or begins the apply phase, and the end of that phase posts the
completion. -/
def State.goOnLoad (s : State) (L : Loading) : State :=
  if L.applied then
    let s := ({ s with loading := none }).setFld F.hstHistate_state 0 3
    let s := if s.fld F.hstHistate_fast 0 = 1 then s else s.fullEnd L.ports
    (s.complete L.cmd 0x0001 0x0000).answerAll L.cmd.fn
  else match s.checkImage L.bytes L.sigOk with
    | .error f => (s.loadFails L.cmd f).answerAll L.cmd.fn
    | .ok im =>
      { (s.applyImage im).setFld F.hstHistate_state 0 2 with
        loading := some { L with applied := true, ports := (List.range 32).map fun p => (s.portRole p, s.portCap p) } }

/-- LOAD_IMAGE: the image is read from host memory and its validation begins, or the load is refused; the row given again for
the same command ends the validation, and once more the apply phase (R38 to R42, R48, R341; DESIGN CHOICE,
notes/assumptions/37.md). -/
def execLoadImage (c : Cmd) (addr : BitVec 64) (len : BitVec 32) (sigOk : Bool) (s : State) : Out :=
  .next <|
    match s.loading with
    | some L => if L.cmd = c then s.goOnLoad L else s
    | none => s.runCmd c 0x0001 (operandsOf (.loadImage c addr len sigOk)) false fun s =>
      if !s.fwPass 0 false addr.toNat len.toNat then s.complete c 0x0001 0x0013
      else if !s.idleForLoad then s.loadFails c ⟨0x0030, 0, 0⟩
      else { s.setFld F.hstHistate_state 0 1 with
        loading := some ⟨c, rdBytes s.hostMem addr.toNat len.toNat, sigOk, false, []⟩ }

/-! ## Plans (R77 to R80, R650) -/

/-- Reserved bytes of a plan's header are zero, and its fields are in range (R77 to R79; check 2 of R80).  So are the reserved bits of
the descriptor preset and the parameter blocks, which check 2 does not name: DESIGN CHOICE, notes/assumptions/66.md. -/
def planWellFormed (b : List Byte) : Bool :=
  let n := leAt b 0x0C 4
  let pc := leAt b 0x18 4
  let to_ := leAt b 0x20 4
  let key (i : Nat) : Nat := leAt b (0x250 + 72 * i + 1) 1 * 256 + leAt b (0x250 + 72 * i) 1
  leAt b 0 4 == 0x4C504B54 && leAt b 4 2 == 1 && decide (leAt b 6 2 ≤ 1) && leAt b 9 1 == 0
    && decide (1 ≤ n) && decide (n < 2 ^ 24) && allZero ((b.drop 0x24).take 28)
    && to_ % 64 == 0 && decide (0x250 + 72 * pc ≤ to_) && b.length == to_ + 24 * n
    && ((List.range 4).all fun l => decide (leAt b (0x40 + 68 * l) 4 < 2 ^ 20))
    && ((List.range 16).all fun a => decide (leAt b (0x150 + 16 * a) 8 < 2 ^ 48) && decide (leAt b (0x158 + 16 * a) 8 < 128))
    && ((List.range pc).all fun i => leAt b (0x252 + 72 * i) 6 == 0 && (i == 0 || decide (key (i - 1) < key i)))
    && (crc32c (b.drop 0x40)).toNat == leAt b 0x1C 4

/-- The plan its bytes describe, with the identity and the place given. -/
def planFrom (b : List Byte) (id off : Nat) : Plan where
  id := id
  region := leAt b 8 1
  expert := leAt b 6 2 == 1
  profile := leAt b 0x0A 2
  offset := off
  bytes := b.length
  digest := sha256 b
  text := (List.range (leAt b 0x0C 4)).map fun i => BitVec.ofNat 192 (leAt b (leAt b 0x20 4 + 24 * i) 24)
  dcount := (List.range 4).foldl (fun m l => mput m l (leAt b (0x40 + 68 * l) 4)) []
  dstride := (List.range 64).foldl (fun m k =>
    mput m k (BitVec.ofNat 32 (leAt b (0x44 + 68 * (k / 16) + 4 * (k % 16)) 4))) []
  gens := (List.range 16).foldl (fun m a =>
    let w := leAt b (0x158 + 16 * a) 8
    mput m a { base := BitVec.ofNat 48 (leAt b (0x150 + 16 * a) 8), space := bits w 6 6 == 1, handle := bits w 5 0 }) []
  params := (List.range (leAt b 0x18 4)).foldl (fun m i =>
    let o := 0x250 + 72 * i
    mput m (tIx ⟨leAt b o 1, leAt b (o + 1) 1⟩) ((List.range 8).map fun k => BitVec.ofNat 64 (leAt b (o + 8 + 8 * k) 8))) []

/-- The tiles the parameter blocks of a plan name (R79). -/
def planTiles (b : List Byte) : List Xy :=
  (List.range (leAt b 0x18 4)).map fun i => ⟨leAt b (0x250 + 72 * i) 1, leAt b (0x251 + 72 * i) 1⟩

/-- The level and body of a `loop` or `loopd` of a triple, and that its PRED is not zero (R66, R68). -/
def loopOf (w : BitVec 192) : Option (Nat × Nat × Bool) :=
  let x := slotS w
  let p := (slotPred x).val != 0
  match decodeSlotS ⟨0, 0⟩ x with
  | some (.loop _ l _ b) | some (.loopd _ l b) => some (l.val, b.toNat, p)
  | _ => none

/-- R68: the loop structure from triple `n` on, with the level and end triple of each loop open there. -/
def loopsOk (len : Nat) : List (BitVec 192) → Nat → List (Nat × Nat) → Bool
  | [], _, _ => true
  | w :: ws, n, open_ =>
    let open_ := open_.filter fun o => decide (n ≤ o.2)
    match loopOf w with
    | none => loopsOk len ws (n + 1) open_
    | some (l, b, p) =>
      !p && decide (n + b < len) && (open_.all fun o => decide (l < o.1) && decide (n + b ≤ o.2))
        && loopsOk len ws (n + 1) ((l, n + b) :: open_)

/-- R85: the outermost nests of a streamed plan; `upto` is the first triple outside the nests so far. -/
def nestsOk : List (BitVec 192) → Nat → Nat → Bool
  | [], _, _ => true
  | w :: ws, n, upto =>
    match loopOf w with
    | some (_, b, _) =>
      if n < upto then nestsOk ws (n + 1) upto
      else (if n < 1024 then decide (n + b < 1024) else decide (b ≤ 319)) && nestsOk ws (n + 1) (n + b + 1)
    | none => nestsOk ws (n + 1) upto

/-- A descriptor write, and one a plan may not hold at all: a `dwr.c` with a PRED (R70, R72). -/
def descWrite (w : BitVec 192) : Bool := [0x60, 0x61, 0x62].contains (slotOp (slotS w))
def descPred (w : BitVec 192) : Bool := slotOp (slotS w) == 0x60 && (slotPred (slotS w)).val != 0

/-- The bytes of the plan area a plan occupies (R650). -/
def Plan.room (p : Plan) : Nat := roundUp p.bytes 4096

/-- R650: the lowest offset at which an image of `n` bytes can be placed. -/
def State.planPlace (s : State) (n : Nat) : Option Nat :=
  let m := roundUp n 4096
  let ok (o : Nat) : Bool := decide (o + m ≤ s.planArea.2)
    && s.plans.all fun p => decide (o + m ≤ p.offset) || decide (p.offset + p.room ≤ o)
  ((0 :: s.plans.map fun p => p.offset + p.room).filter ok).foldl (fun b o => match b with
    | some q => some (min q o)
    | none => some o) none

/-- The lowest plan ID not in use (R650). -/
def State.freePlanId (s : State) : Option Nat :=
  ((List.range 65535).map (· + 1)).find? fun i => !s.plans.any fun p => p.id == i

/-- The checks of R80; the status of the first that fails. -/
def State.planCheck (s : State) (b : List Byte) : Nat :=
  match s.img with
  | none => if b.length < 64 then 0x0041 else 0x0040
  | some im =>
    let r := leAt b 8 1
    let p := planFrom b 0 0
    let expert := p.expert && im.expert
    if b.length < 64 then 0x0041
    else if leAt b 0x10 8 ≠ im.id.toNat ∨ (s.regionRec r).isNone then 0x0040
    else if !planWellFormed b then 0x0041
    else if (s.padWord p.profile).isNone ∨ p.profile ≠ im.profile then 0x0035
    else if !((planTiles b).all s.inMesh) then 0x0021
    else if !((planTiles b).all fun t => s.role t == 1 && s.regionOf t == r) then 0x0041
    else if !(p.text.all fun w => (decodeTriple ⟨0, 0⟩ w).isSome) then 0x0042
    else if !loopsOk p.text.length p.text 0 [] then 0x0043
    else if p.text.any (fun w => descPred w || (descWrite w && !expert)) then 0x0044
    else if streamedLen p.text.length && !nestsOk p.text 0 0 then 0x0045
    else if (s.planPlace b.length).isNone then 0x0046
    else if s.freePlanId.isNone then 0x004D
    else 0

/-- PLAN_LOAD (R80, R341, R650). -/
def execPlanLoad (c : Cmd) (addr : BitVec 64) (len : BitVec 32) (s : State) : Out :=
  .next <| s.runCmd c 0x0002 (operandsOf (.planLoad c addr len)) false fun s =>
    if !s.fwPass 0 false addr.toNat len.toNat then s.complete c 0x0002 0x0013
    else
      let b := rdBytes s.hostMem addr.toNat len.toNat
      let st := s.planCheck b
      match s.planPlace b.length, s.freePlanId with
      | some o, some id =>
        if st ≠ 0 then s.complete c 0x0002 st
        else
          { s with plans := s.plans ++ [planFrom b id o], ext := wrBytes s.ext (s.planArea.1 + o) b }.complete c 0x0002 0 id
      | _, _ => s.complete c 0x0002 st

/-- PLAN_FREE: of the installed plan of a running region, refused; of an identity in no use, nothing is released and the
spec states no status (R341; DESIGN CHOICE, notes/assumptions/20.md). -/
def execPlanFree (c : Cmd) (plan : BitVec 32) (s : State) : Out :=
  .next <| s.runCmd c 0x0003 (operandsOf (.planFree c plan)) false fun s =>
    let p := plan.toNat
    if (List.range 8).any fun r => s.running r && (s.region r).plan == some p then s.complete c 0x0003 0x0049
    else if (s.planOf p).isNone then (s.freeStep 2).complete c 0x0003 (leNat (s.freeBytes 2))
    else
      { s with
        plans := s.plans.filter fun x => x.id != p
        regions := s.regions.map fun (r : Nat × Region) => (r.1, if r.2.plan = some p then { r.2 with plan := none } else r.2) }.complete c 0x0003 0

end Sys2Proof.Machine
end

