-- ==== Sys2Proof/Machine/HostIf.lean ====
section
/-! DEFINITION. The host interface: ring scans, completions, events, interrupts, ring errors, ring and firewall registers
(R330 to R358, R651). -/

namespace Sys2Proof.Machine

/-! ## Interrupts (R349) -/

/-- INTERRUPT_RAISE: a vector with a cause is raised, at most once per HST_IRQMOD.GAP µs; the PF has 8 vectors, an enabled VF 2
(R330, R349). -/
def execInterruptRaise (fn : Nat) (vec : Fin 8) (s : State) : Out :=
  .next <|
    let f := s.func fn
    let free := match mfind f.irqLast vec with
      | none => true
      | some at_ => decide (at_ + 100 * s.fld F.hstIrqmod_gap fn ≤ s.ctlTime)
    if f.irqPend.getLsbD vec && free && s.ready && s.fnOn fn && (fn == 0 || decide (vec.val < 2)) then
      { s.modFunc fn fun f => { f with irqPend := f.irqPend &&& ~~~(BitVec.ofNat 8 (2 ^ vec.val)),
                                       irqLast := mput f.irqLast vec s.ctlTime } with
        irqs := s.irqs ++ [(fn, vec.val, s.ctlTime)] }
    else s

/-! ## Rings and status block (R336, R337, R339) -/

/-- The next index and phase of a ring of `n` entries (R337). -/
def ringNext (n idx : Nat) (phase : Bool) : Nat × Bool := if idx + 1 < n then (idx + 1, phase) else (0, !phase)

/-- A write to host memory made for a function, or the stop of its rings where the firewall refuses it (R350, R351). -/
def State.hostPut (s : State) (fn a : Nat) (bs : List Byte) (f : State → State) : State :=
  if s.fwPass fn true a bs.length then f { s with hostMem := wrBytes s.hostMem a bs } else s.stopRings fn a

/-- The module's indices are written into the status block (R339). -/
def State.putIndices (s : State) (fn : Nat) : State :=
  let f := s.func fn
  s.hostPut fn (s.sbAddr fn + 0x20) (leBytes 4 f.cmdIdx ++ leBytes 4 f.cplIdx ++ leBytes 4 f.evIdx) id

/-- R335, R337: up to `n` valid entries are taken from a function's command ring. -/
def State.takeEntries (s : State) (fn : Nat) : Nat → State
  | 0 => s
  | n + 1 =>
    let f := s.func fn
    let a := s.fld F.hstCmdring_base fn * 4096 + 64 * f.cmdIdx
    if s.fwPass fn false a 64 then
      let e := rdBytes s.hostMem a 64
      if (bits (e.getD 2 0).toNat 0 0 == 1) = f.cmdPhase then
        let nx := ringNext (ringLen (s.fld F.hstCmdring_size fn)) f.cmdIdx f.cmdPhase
        (s.modFunc fn fun f =>
          { f with taken := f.taken ++ [⟨f.cmdIdx, e, s.scans⟩], cmdIdx := nx.1, cmdPhase := nx.2 }).takeEntries fn n
      else s
    else s.stopRings fn a

/-- One function's part of a scan: its status block is read, entries are taken, those without a meaning are answered as
their turn comes, and its indices are written (R335, R339, R346). -/
def State.scanFn (s : State) (fn : Nat) : State :=
  if s.fnOn fn = false ∨ s.fld F.hstCmdring_enable fn = 0 ∨ s.ringStopped fn = true then s
  else if s.fwPass fn false (s.sbAddr fn) 12 then
    let s := s.takeEntries fn 64
    if s.ringStopped fn then s else (s.answerAll fn).putIndices fn
  else s.stopRings fn (s.sbAddr fn)

/-- A scan is due: at a step boundary or an invocation's end, and every 16 µs (R334). -/
def State.scanIsDue (s : State) : Bool :=
  s.ready && (s.scanDue || decide (s.scanAt + 1600 ≤ s.ctlTime))

/-- RING_SCAN: when a scan is due, every enabled function's ring is scanned, in increasing function number; `host` lists what
the host has written to its memory since the last scan, and the virtual functions enabled by then (R330, R334, R335). -/
def execRingScan (host : HostDone) (s : State) : Out :=
  .next <|
    if s.scanIsDue then
      let at_ := if s.scanAt + 1600 ≤ s.ctlTime then s.ctlTime / 1600 * 1600 else s.scanAt
      let s := { s with
        hostMem := host.writes.foldl (fun m w => if w.1 < 2 ^ 64 then wrByte m w.1 w.2 else m) s.hostMem
        vfs := host.vfs
        scans := s.scans + 1
        scanDue := false
        scanAt := at_ }
      (List.range 16).foldl State.scanFn s
    else s

/-- NOP_COMMAND: completes with status 0x0000 (R340). -/
def execNopCommand (c : Cmd) (s : State) : Out := .next <| s.runCmd c 0x0000 (operandsOf (.nopCommand c)) true fun s => s.complete c 0x0000 0x0000

/-! ## Completions (R345, R346) -/

/-- The 32 bytes of a completion entry (R345). -/
def cplBytes (c : Cpl) (phase : Bool) : List Byte :=
  leBytes 2 c.status ++ leBytes 2 (b2n phase + 2 * b2n c.report.isSome) ++ leBytes 4 c.tag.toNat ++ leBytes 2 c.opcode
    ++ leBytes 2 c.index ++ leBytes 4 c.result
    ++ (match c.report with | some r => leBytes 8 r.1.toNat ++ leBytes 8 r.2.toNat | none => List.replicate 16 0)

/-- A function's oldest completion is written when its ring has room (R345, R346); a command with IRQ causes vector 0
(R349). -/
def State.writeCpl (s : State) (fn : Nat) : State :=
  match (s.func fn).cpls with
  | [] => s
  | c :: rest =>
    if s.ringStopped fn || s.cplFull fn then s
    else
      let f := s.func fn
      let a := s.fld F.hstCplring_base fn * 4096 + 32 * f.cplIdx
      let nx := ringNext (ringLen (s.fld F.hstCplring_size fn)) f.cplIdx f.cplPhase
      s.hostPut fn a (cplBytes c f.cplPhase) fun s =>
        let s := s.modFunc fn fun f => { f with cpls := rest, cplIdx := nx.1, cplPhase := nx.2 }
        ((if c.irq then s.irqCause fn 0 else s).putIndices fn).answerAll fn

/-- COMPLETION_WRITE (R345, R346). -/
def execCompletionWrite (fn : Nat) (s : State) : Out := .next <| s.writeCpl fn

/-- The function's completions are written as long as they can be, at most `n`. -/
def State.writeCpls (s : State) (fn : Nat) : Nat → State
  | 0 => s
  | n + 1 => (s.writeCpl fn).writeCpls fn n

/-! ## Events (R347, R348, R596, R651) -/

/-- The SOURCE word of an event. -/
def Ev.source (e : Ev) : Nat := e.kind * 2 ^ 28 + e.index % 2 ^ 28

/-- R651: the items placed from byte `at_` on, each aligned to its width; the first that would pass byte 15 and all after it
are left out. -/
def evItems : List (Nat × Nat) → Nat → List Byte
  | [], at_ => List.replicate (16 - at_) 0
  | (w, v) :: is, at_ =>
    let p := (at_ + w - 1) / w * w
    if w = 0 ∨ 16 < p + w then List.replicate (16 - at_) 0
    else List.replicate (p - at_) 0 ++ leBytes w v ++ evItems is (p + w)

/-- The 32 bytes of an event entry (R347). -/
def evBytes (e : Ev) (phase : Bool) : List Byte :=
  leBytes 2 e.code ++ leBytes 2 (b2n phase) ++ leBytes 4 e.source ++ leBytes 8 e.time ++ evItems e.items 0

/-- R348: the order of events, by TIME, then SOURCE, then CODE. -/
def Ev.before (a b : Ev) : Bool :=
  decide (a.time < b.time) || (a.time == b.time && (decide (a.source < b.source)
    || (a.source == b.source && decide (a.code < b.code))))

/-- The first event of a list in the order of R348, and the others. -/
def firstEv : List Ev → Option (Ev × List Ev)
  | [] => none
  | e :: es =>
    match firstEv es with
    | none => some (e, [])
    | some (m, rest) => if m.before e then some (m, e :: rest) else some (e, es)

/-- The event ring is full (R348). -/
def State.evFull (s : State) (fn : Nat) : Bool :=
  ((s.func fn).evIdx + 1) % ringLen (s.fld F.hstEvring_size fn) == s.hostIdx fn 4

/-- An event is written to the ring; a ring that was empty as the status block shows it causes vector 1 (R349). -/
def State.putEvent (s : State) (fn : Nat) (e : Ev) (f : Func → Func) : State :=
  let g := s.func fn
  let empty := g.evIdx == s.hostIdx fn 4
  let nx := ringNext (ringLen (s.fld F.hstEvring_size fn)) g.evIdx g.evPhase
  s.hostPut fn (s.fld F.hstEvring_base fn * 4096 + 32 * g.evIdx) (evBytes e g.evPhase) fun s =>
    let s := s.modFunc fn fun g => { f g with evIdx := nx.1, evPhase := nx.2 }
    (if empty then s.irqCause fn 1 else s).putIndices fn

/-- EVENT_WRITE: the function's next event is written: those held before the PF ring was first enabled, then event 0x0013
when any was lost, then newer ones; an event that finds the ring full is dropped and counted (R348, R596). -/
def execEventWrite (fn : Nat) (s : State) : Out :=
  .next <|
    let f := s.func fn
    if s.fld F.hstEvring_enable fn = 0 ∨ s.ringStopped fn = true then s
    else
      let full := s.evFull fn
      match firstEv f.held with
      | some (e, rest) =>
        if full then (s.modFunc fn fun f => { f with held := rest }).loseEvents fn 1
        else s.putEvent fn e fun f => { f with held := rest }
      | none =>
        if 0 < f.lostNote ∧ full = false then
          s.putEvent fn ⟨0x0013, 8, 0, s.cnt, [(4, f.lostNote)]⟩ fun f => { f with lostNote := 0 }
        else match firstEv f.evs with
          | some (e, rest) =>
            if full then (s.modFunc fn fun f => { f with evs := rest }).loseEvents fn 1
            else s.putEvent fn e fun f => { f with evs := rest }
          | none => s

/-! ## Ring errors and registers (R351 to R354) -/

/-- RING_ACCESS_FAIL: an access to a function's rings or status block fails (R351). -/
def execRingAccessFail (fn : Nat) (addr : BitVec 64) (s : State) : Out :=
  .next <| if s.fnOn fn then s.stopRings fn addr.toNat else s

/-- A write of 1 to HST_RINGSTAT.RESTART: stopped rings resume from the latched indices (R351, R354). -/
def State.restartRings (s : State) (fn : Nat) : State :=
  if s.ringStopped fn then (s.setFld F.hstRingstat_state fn (s.fld F.hstCmdring_enable fn)).answerAll fn else s

/-- RING_RESTART (R351). -/
def execRingRestart (fn : Nat) (s : State) : Out := .next <| if s.fnOn fn ∧ s.ready then s.restartRings fn else s

/-- The register of a ring: 0 command, 1 completion, 2 event. -/
def ringKind (ring : Nat) : RegKind := if ring = 0 then .hstCmdring else if ring = 1 then .hstCplring else .hstEvring

/-- A write of a ring register (R352): BASE and SIZE are kept while ENABLE is 1; enabling restarts index and phase, and the
PF event ring's first enabling ends the holding of R596. -/
def State.ringWrite (s : State) (fn ring v : Nat) : State :=
  let k := ringKind ring
  let old := s.reg k fn
  let on := bits v 0 0
  let was := bits old 0 0
  let s := if was = 1 then s.setReg k fn (putBits old 0 0 on) else s.rwWrite k fn v
  let s := if ring = 0 ∧ s.ringStopped fn = false then s.setFld F.hstRingstat_state fn on else s
  if on = 1 ∧ was = 0 then
    s.modFunc fn fun f =>
      if ring = 0 then { f with cmdIdx := 0, cmdPhase := true }
      else if ring = 1 then { f with cplIdx := 0, cplPhase := true }
      else { f with evIdx := 0, evPhase := true, everEn := true }
  else if on = 0 ∧ ring = 2 then (s.modFunc fn fun f => { f with evs := [] }).loseEvents fn (s.func fn).evs.length
  else s

/-- RING_ENABLE: a write of one of the ring registers of a function, through the function's own window (R352). -/
def execRingEnable (fn : Nat) (ring : Fin 3) (val : BitVec 64) (s : State) : Out :=
  .next <| if s.fnOn fn ∧ s.ready then s.ringWrite fn ring val.toNat else s

/-! ## Firewall windows and absent dies (R13, R332, R350, R358) -/

/-- A write of HST_FWBASEk or HST_FWLIMk of a function: firmware always, the PF while HOSTSET is 1, a VF never (R350). -/
def State.fwWrite (s : State) (by_ : Writer) (fn k : Nat) (lim : Bool) (off v : Nat) : State :=
  let put := s.rwWrite (if lim then .hstFwlim else .hstFwbase) (8 * fn + k) v
  match by_ with
  | .firmware _ => put
  | .host 0 => if !s.ready then s else if s.fuses.hostset then put else s.gateEvent off v
  | .host _ => s

/-- FIREWALL_WINDOW_WRITE (R350, R358). -/
def execFirewallWindowWrite (by_ : Writer) (fn : Nat) (k : Fin 8) (lim : Bool) (off : Nat) (val : BitVec 64) (s : State) :
    Out := .next <| if fn < 16 then s.fwWrite by_ fn k lim off val.toNat else s

/-- The compute die whose window of BAR0 holds an offset (R331). -/
def windowDie (off : Nat) : Option Nat :=
  let w := off / 0x1000000
  if 1 ≤ w ∧ w ≤ 8 then some (w - 1) else none

/-- A host's write of 8 bytes at an offset of its MSI-X table (R331). -/
def State.msixWrite (s : State) (fn off : Nat) (v : BitVec 64) : State :=
  let k := (off - 0x8000) / 4
  s.modFunc fn fun f =>
    let put (m : SMap (BitVec 32)) (k : Nat) (w : BitVec 32) : SMap (BitVec 32) := if k < msixDwords fn then mput m k w else m
    { f with msix := put (put f.msix k (v.setWidth 32)) (k + 1) ((v >>> 32).setWidth 32) }

/-- ABSENT_ACCESS: an access at an offset of BAR0 that holds no register the module has: a read (`val` none) gives zero and a write is
discarded, a host's write beyond the function's own registers after the inbound gate; in the window of a fused-off die either
records event 0x0010 (R13, R331, R332, R350).  A write in the part of the MSI-X table is the function's own. -/
def execAbsentAccess (by_ : Writer) (off : Nat) (val : Option (BitVec 64)) (s : State) : Out :=
  .next <|
    let absent := match windowDie off with | some d => s.dieAbsent d | none => false
    let ev (s : State) : State := if absent then s.event 0x0010 8 0 [(8, off)] else s
    match val, by_ with
    | some v, .firmware _ => s.gated by_ off v.toNat ev
    | some v, .host fn =>
      if 0x8000 ≤ off ∧ off < 0x9000 then (if s.fnOn fn then s.msixWrite fn off v else s)
      else if off < 0x10000 ∨ 0x10000000 ≤ off then s else s.gated by_ off v.toNat ev
    | none, .firmware _ => ev s
    | none, .host fn => if fn = 0 ∧ s.ready then ev s else s

end Sys2Proof.Machine
end

