-- ==== Sys2Proof/Machine/RegWrite.lean ====
section
/-! DEFINITION. Register writes through the register windows: the common rule (R16), and the registers whose writes a rule
treats apart (R90, R106, R132, R173, R209, R211, R319, R324). -/

namespace Sys2Proof.Machine

/-! ## Registers apart (R331) -/

/-- The registers each function has in its own window (R352 to R358). -/
def ringWindow (k : RegKind) : Bool :=
  match k with
  | .hstCmdring | .hstCplring | .hstEvring | .hstSbaddr | .hstRingstat | .hstEvstat | .hstIrqmod | .hstFwctl | .hstFwbase
  | .hstFwlim => true
  | _ => false

/-- The registers whose writes are rows of their own, whatever the field. -/
def ownRow (k : RegKind) : Bool :=
  match k with
  | .hstCmdring | .hstCplring | .hstEvring | .hstRingstat | .hstFwbase | .hstFwlim | .tilHndb | .tilHndc | .tilSlotcmd
  | .tilMxctl | .tilVctl | .tilVcword | .ptcHoldreq | .memRef | .fabId | .fabEpochcmd | .fabSyncctl | .clkStepcmd | .galGate
  | .tilBankgate | .srvAccstate => true
  | _ => false

/-- The module-wide registers that appear in the windows of both I/O dies (chapter 11, R541, R561). -/
def bothDies (k : RegKind) : Bool :=
  match k with
  | .fabId | .fabCtl | .fabSyncctl | .fabSyncstat | .fabBarctl | .fabLaunch | .fabLstat | .fabStrag | .dmaBcctl | .mirCtl => true
  | _ => false

/-- The die whose window an access to a register goes through: its own, or for a register that every compute die shows the one that
holds the offset (R13, R331). -/
def accessDie (r : Reg) (off : Nat) : Option Nat := match regDie r with | some d => some d | none => windowDie off

/-- A write to a module block's register: the inbound gate (R350), then the absent die (R13), then a load in
progress (R42), then the write. -/
def State.moduleWrite (s : State) (by_ : Writer) (r : Reg) (off v : Nat) (f : State → State) : State :=
  s.gated by_ off v fun s => match accessDie r off with
    | some d => s.absentOr d off fun s => s.imgWrite r.kind off f
    | none => s.imgWrite r.kind off f

/-! ## Throttle (R582, R589) -/

/-- What makes firmware throttle (R582). -/
def State.throttleDue (s : State) : Bool := s.pwr.levels.any (fun l => decide (2 ≤ l.2)) || decide (s.fld F.pwrCtl_cap 0 < s.pwr.pin)
    || s.pwr.inputThr

/-- While THRMAN is 0 firmware sets PWR_CTL.LENGTH while it must throttle, and clears it otherwise (R582).  The spec does not
say to what it sets LENGTH: a free value from 1 to 1,023 (DESIGN CHOICE, notes/assumptions/29.md). -/
def State.setThrottle (s : State) : State :=
  if s.fld F.pwrCtl_thrman 0 = 1 then s
  else if s.throttleDue then
    if s.fld F.pwrCtl_length 0 = 0 then
      ((s.freeStep 2).setFld F.pwrCtl_length 0 (1 + leNat (s.freeBytes 2) % 1023)).modPwr fun p => { p with thrAt := s.cnt }
    else s
  else s.setFld F.pwrCtl_length 0 0

/-- A write of PWR_CTL: LENGTH takes what is written while THRMAN is 1 (R582, R589). -/
def State.writePwrCtl (s : State) (v : Nat) : State :=
  let t := s.rwWrite .pwrCtl 0 v
  if bits v 1 1 = 1 then (if s.fld F.pwrCtl_length 0 = 0 then t.modPwr fun p => { p with thrAt := s.cnt } else t) else (t.setFld F.pwrCtl_length 0 (s.fld F.pwrCtl_length 0)).setThrottle

/-! ## The common rule (R16) -/

/-- A write of SRC, DST, LEN or NEXT at the end of its cycle: a channel that was busy as it came and is still so discards it with event
0x0274; where hardware has ended a drain in the cycle it takes the write (R19, R319). -/
def State.dmaWriteLast (s : State) (w : RegWr) : State :=
  if s.dmaState w.reg.idx = 1 ∨ s.dmaState w.reg.idx = 2 then
    (if w.refused then s.event 0x0274 5 (dmaSource w.reg.idx) [(8, (s.dmaCh w.reg.idx).desc)] else s)
  else s.rwWrite w.reg.kind w.reg.idx w.val


/-- The region of a tile runs (R649). -/
def State.tileRuns (s : State) (y : Nat) : Bool := s.running (s.regionOf (xyOf y))

/-- The effect of a write to a register without a row of its own, past the gates. -/
def State.plainWrite (s : State) (r : Reg) (off v : Nat) : State :=
  let put := s.lastWrite r.kind r.idx v (bothDies r.kind && decide (0xA000000 ≤ off))
  match r.kind with
  | .tilPadctl =>
    if s.tileRuns r.idx then s.imageBusy off
    else if put.reg .tilPadctl r.idx = s.reg .tilPadctl r.idx then put else put.modified
  | .pwrCtl => s.writePwrCtl v
  | .lnkBudget => if put.reg .lnkBudget r.idx = s.reg .lnkBudget r.idx then put else put.modified
  | .memCal => s.writeMemCal r.idx v
  | .galQstat => let t := s.rwWrite .galQstat r.idx v
    t.setFld F.galQstat_peak r.idx (max (t.fld F.galQstat_peak r.idx) (s.qEntries r.idx))
  | .dmaSrc | .dmaDst | .dmaLen | .dmaNext =>
    let st := s.dmaState r.idx
    if st = 1 ∨ st = 2 then s.keepWrite { reg := r, val := v, refused := true } else put
  | _ => put

/-- REGISTER_WRITE: a write to a register that has no row of its own (R16, R331, R350).  LNK_CTLp, DMA_CTLn and ANX_CTLp hold
fields with and without a row; a write of one acts as those rows do.  A write of a register whose every field has a row is
that row, and none through here. -/
def execRegisterWrite (by_ : Writer) (r : Reg) (off : Nat) (val : BitVec 64) (s : State) : Out :=
  .next <|
    let v := val.toNat
    if ownRow r.kind || decide (r.kind.count ≤ r.idx) || !dmaRegHere r then s
    else if ringWindow r.kind then
      match by_ with
      | .firmware _ => s.lastWrite r.kind r.idx v false
      | .host fn => if fn = r.idx ∧ s.fnOn fn ∧ s.ready then s.lastWrite r.kind r.idx v false else s
    else match r.kind with
      | .lnkCtl => s.writeLnkCtl by_ r.idx off v false
      | .dmaCtl => s.writeDmaCtl by_ r.idx off v
      | .anxCtl => s.writeAnxCtl by_ r.idx off v
      | _ => s.moduleWrite by_ r off v fun s => s.plainWrite r off v

/-! ## Handle entries and slots (R106, R132) -/

/-- HANDLE_ENTRY_WRITE: a window write of TIL_HNDBn or TIL_HNDCn (R106). -/
def execHandleEntryWrite (by_ : Writer) (t : Xy) (n : Fin 64) (ctl : Bool) (off : Nat) (val : BitVec 64) (s : State) : Out :=
  .next <|
    let y := tIx t
    s.moduleWrite by_ ⟨.tilPadctl, y⟩ off val.toNat fun s =>
      if s.tileRuns y then s.imageBusy off
      else
        let bc := s.hndLatest y n
        let r := entryWrite bc.1 bc.2 ctl val.toNat
        let s := if r.2 then s.handleFault y (s.tile y).advance.pc n else s
        if bits bc.2 15 15 = 1 ∧ bits bc.2 2 0 = 7 then s
        else
          let s := s.modTile y fun T => { T with hndw := T.hndw.filter fun w => w.2.1 != n.val }
          ((s.setReg .tilHndb (64 * y + n) r.1.1).setReg .tilHndc (64 * y + n) r.1.2).modified

/-- The slots `a` to `b` as a mask of full bits. -/
def slotMask (a b : Nat) : BitVec 4096 := BitVec.ofNat 4096 (2 ^ (b + 1) - 2 ^ a)

/-- SLOT_COMMAND: a write of TIL_SLOTCMD sets a range of slots empty or full (R111, R132). -/
def execSlotCommand (by_ : Writer) (t : Xy) (off : Nat) (val : BitVec 32) (s : State) : Out :=
  .next <|
    let y := tIx t
    let v := val.toNat
    s.moduleWrite by_ ⟨.tilSlotcmd, y⟩ off v fun s =>
      if s.tileRuns y then s.imageBusy off
      else if bits v 27 16 < bits v 11 0 then s
      else
        let m := slotMask (bits v 11 0) (bits v 27 16)
        if bits v 31 30 = 1 then s.modTile y fun T => T.setFull s.cnt (T.full &&& ~~~m)
        else if bits v 31 30 = 2 then s.modTile y fun T => T.setFull s.cnt (T.full ||| m)
        else s

/-! ## Matrix and vector control (R173, R209, R211) -/

/-- MXCTL_WRITE: RSET and RROW always; LOCAL when it differs, the region does not run and the image is expert (R173). -/
def execMxctlWrite (by_ : Writer) (t : Xy) (off : Nat) (val : BitVec 32) (s : State) : Out :=
  .next <|
    let y := tIx t
    let v := val.toNat
    s.moduleWrite by_ ⟨.tilMxctl, y⟩ off v fun s =>
      let s := (s.setFld F.tilMxctl_rset y (bits v 14 14)).setFld F.tilMxctl_rrow y (bits v 13 8)
      if bits v 0 0 = s.fld F.tilMxctl_local y then s
      else if s.tileRuns y then s.imageBusy off
      else if s.img.isSome ∧ s.expert = false then s.mxFault y 0x0223 4 0 0 (s.tile y).advance.pc 0
      else (s.setFld F.tilMxctl_local y (bits v 0 0)).modified

/-- VCTL_WRITE: KEEP, from the next invocation (R209). -/
def execVctlWrite (by_ : Writer) (t : Xy) (off : Nat) (val : BitVec 32) (s : State) : Out :=
  .next <|
    let y := tIx t
    s.moduleWrite by_ ⟨.tilVctl, y⟩ off val.toNat fun s =>
      if s.tileRuns y then s.imageBusy off
      else if s.img.isSome ∧ s.expert = false then s.vFault y 0x0231 (s.tile y).advance.pc
      else (s.rwWrite .tilVctl y val.toNat).modified

/-- VCWORD_WRITE: the stage word TIL_VCSEL selects; a reserved SOP is refused with event 0x0231 (R208, R211). -/
def execVcwordWrite (by_ : Writer) (t : Xy) (off : Nat) (val : BitVec 64) (s : State) : Out :=
  .next <|
    let y := tIx t
    let v := val.toNat
    s.moduleWrite by_ ⟨.tilVcword, y⟩ off v fun s =>
      if s.tileRuns y then s.imageBusy off
      else if sopDefined (bits v 45 40) = false then s.vFault y 0x0231 (s.tile y).advance.pc
      else
        let k := 8 * s.fld F.tilVcsel_chain y + s.fld F.tilVcsel_stage y
        s.modTile y fun T => { T with chains := mput T.chains k (BitVec.ofNat 46 v) }

end Sys2Proof.Machine
end

