-- ==== Sys2Proof/Machine/Reset.lean ====
section
/-! DEFINITION. Resets, power-off, module faults and the boot record (R578, R597, R601, R620, R645, R646). -/

namespace Sys2Proof.Machine

/-! ## Alerts and faults (R620, R646) -/

/-- Milug raises MG_ALERT#, once it runs (R594, R646). -/
def State.alert (s : State) : State := if s.milug.up then s.modMilug fun m => { m with alert := true } else s

/-- R620: a module fault. -/
def State.modFault (s : State) (code : Nat) : State :=
  let s := s.event 0x02E4 8 0 [(1, code)]
  let s := ((s.setFld F.secFault_sticky 0 1).setFld F.secFault_code 0 code).satAdd F.secFault_count 0 1
  ((s.irqCause 0 3).modBoot fun b => { b with faulted := true }).alert

/-! ## Resets (R597) -/

/-- What every reset leaves: everything at its reset value, but what lies outside the main domain's registers (fuses, flash,
Milug, the host's memory, the annex devices' memory), and the model's own records.  GDDR7 and scratchpads read as at power-on (DESIGN CHOICE,
notes/assumptions/5.md). -/
def State.cleared (s : State) : State :=
  { State.reset with
    pending := s.pending
    fuses := s.fuses
    hostMem := s.hostMem
    ext := s.ext.filter fun (c : Host.Cell) => decide (annexBase 0 ≤ c.1)
    irqs := s.irqs
    freeCtr := s.freeCtr
    nextId := s.nextId
    milug := s.milug
    boot := { s.boot with idKey := none, recovery := false, firmware := false, refFault := false, trial := false, hostConf := false, faulted := false }
    pwr := s.pwr }

/-- The main power stage goes off, or a power-on reset without VSTBY's loss begins: what follows is stage 2 (R578, R597, R644);
`cause` is what SEC_BOOTSTAT.RESET will hold. -/
def State.mainOff (s : State) (cause : Nat) : State :=
  let s := s.cleared
  { s with
    boot := { s.boot with stage := min s.boot.stage 1, bootRes := cause }
    pwr := { s.pwr with stage := false, rails := {}, cut := false, vcore := 4, levels := [], temps := [], guardAt := []
                        inputThr := false, therm := false } }

/-- Bytes of a tile's scratchpad. -/
def scratchBytes : Nat := 0x200000

/-- The scratchpad of a tile holds free values. -/
def State.spoilTile (s : State) (y : Nat) : State :=
  (s.modTile y fun T => { T with scratch := wrBytes [] 0 (s.freeBytes scratchBytes) }).freeStep scratchBytes

/-- The active tiles of the regions whose launch has begun. -/
def State.begunTiles (s : State) : List Nat :=
  (List.range 8).flatMap fun r => if (s.region r).begun then (s.tilesOf r).map tIx else []

/-- R597: a warm reset of the powered module, then stages 3 to 7; PTC_STATE.UNSYNC becomes 1, with event 0x0297 where it was 0 (R421);
registers with access RWS and SEC_BOOTSTAT.BOOTS are kept, and
the outputs of the regions it stops are undefined: the scratchpads of their active tiles hold free values
(notes/assumptions/21.md).  Of a reset from Milug and PERST# that fall together, SEC_BOOTSTAT.RESET records PERST# (R645). -/
def State.warmReset (s : State) (cause : Nat) : State :=
  if !s.pwr.stage || decide (s.boot.stage < 2) then s
  else
    let again := s.boot.stage == 2 && !s.boot.recovery && ((s.boot.bootRes == 1 && cause == 6) || (s.boot.bootRes == 6 && cause == 1))
    let t := s.begunTiles.foldl State.spoilTile s.cleared
    let t := { t with boot := { t.boot with stage := 2, bootRes := if again then 1 else cause }
                      pwr := { t.pwr with guardAt := [] } }
    let t := (t.setFld F.updCtl_window 0 (s.fld F.updCtl_window 0)).setFld F.updCtl_hostconf 0 (s.fld F.updCtl_hostconf 0)
    let t := t.setFld F.secBootstat_boots 0 (s.fld F.secBootstat_boots 0)
    if s.fld F.ptcState_unsync 0 = 1 then t else t.event 0x0297 8 0 []

/-! ## The firmware slots (R600, R601) -/

/-- The slot in a state, A before B. -/
def Boot.slotIn (b : Boot) (st : Nat) : Option Nat := [0, 1].find? fun i => (b.slot i).state == st

/-- What the boot record holds of a slot. -/
def FwSlot.inRecord (f : FwSlot) : BootSlot := { state := f.state, svn := f.svn, area := f.area, tried := f.tried }

/-- A slot as the boot record has it. -/
def FwSlot.from_ (f : FwSlot) (r : BootSlot) : FwSlot := { f with state := r.state, svn := r.svn, area := r.area, tried := r.tried }

/-- The bytes of a slot in the boot record (layout in notes/assumptions/72.md). -/
def BootSlot.bytes (r : BootSlot) : List Byte := leBytes 1 r.state ++ leBytes 1 r.svn ++ leBytes 1 r.area ++ leBytes 1 (b2n r.tried)

/-- The bytes of the boot record that its CRC-32C covers (R601; layout in notes/assumptions/72.md). -/
def BootCopy.bytes (c : BootCopy) : List Byte := leBytes 8 c.seq ++ c.a.bytes ++ c.b.bytes ++ leBytes 1 c.ok

/-- A copy of the boot record is valid when its CRC-32C is right (R601). -/
def BootCopy.valid (c : BootCopy) : Bool := crc32c c.bytes == c.crc

/-- The boot record as it is written with a SEQ. -/
def Boot.record (b : Boot) (seq : Nat) : BootCopy :=
  let c : BootCopy := { seq := seq, a := b.slotA.inRecord, b := b.slotB.inRecord, ok := b.okRec }
  { c with crc := crc32c c.bytes }

/-- The valid copy with the higher SEQ (R601). -/
def Boot.newest (b : Boot) : Option Nat :=
  match b.copy0.valid, b.copy1.valid with
  | true, true => some (if b.copy0.seq < b.copy1.seq then 1 else 0)
  | true, false => some 0
  | false, true => some 1
  | false, false => none

/-- A write of the boot record goes to the other copy, with SEQ raised by one (R601). -/
def State.writeRecord (s : State) : State :=
  s.modBoot fun b =>
    let c := b.record (b.seq + 1)
    if b.copy = 0 then { b with seq := b.seq + 1, copy := 1, copy1 := c } else { b with seq := b.seq + 1, copy := 0, copy0 := c }

/-- R601: the ROM reads the boot record from the valid copy with the higher SEQ; where neither is valid no slot can boot (DESIGN CHOICE,
notes/assumptions/72.md). -/
def State.readRecord (s : State) : State :=
  s.modBoot fun b =>
    match b.newest with
    | some i =>
      let c := if i = 0 then b.copy0 else b.copy1
      { b with seq := c.seq, copy := i, okRec := c.ok, slotA := b.slotA.from_ c.a, slotB := b.slotB.from_ c.b }
    | none => { b with slotA := { b.slotA with state := 0 }, slotB := { b.slotB with state := 0 } }

/-! ## The activation (R611, R615) -/

/-- The slot an update stages: STAGING or STAGED. -/
def Boot.staged (b : Boot) : Option Nat := [0, 1].find? fun i => (b.slot i).state == 1 || (b.slot i).state == 2

/-- Steps 3 and 4 of R611: the record names the trial, the completion is posted and written, and the module resets. -/
def State.activate (s : State) (c : Cmd) : State :=
  match s.boot.staged with
  | none => s.complete c 0x0302 0x00A7
  | some i =>
    let s := (s.modSlot i fun f => { f with state := 3, tried := false }).writeRecord
    let s := s.complete c 0x0302 0x0000
    (s.writeCpls c.fn (s.func c.fn).cpls.length).warmReset 4

/-- R611: the activation goes on once its requests have been handed over. -/
def State.finishActivate (s : State) : State :=
  match s.mir.updAct with
  | some c => if s.mir.updReady then s.activate c else s
  | none => s

end Sys2Proof.Machine
end

