-- ==== Sys2Proof/Machine/Launch.lean ====
section
/-! DEFINITION. Starting regions: installs and pointer buffers, launches on this module, at a count and by barrier, the
messages of launch trees, and step barriers (R59, R82, R342 to R344, R423 to R435, R531). -/

namespace Sys2Proof.Machine

/-! ## Layer pointer buffers (R530, R531) -/

/-- The address of a pointer buffer of a region. -/
def State.ptrBuf (s : State) (r j : Nat) : Option Nat := (mfind s.wts.areas r).map fun a => a + 2048 * (j % 2)

/-- R531: the buffer of step `j` of a region is sealed: the pointers last in force, then the waiting WPTRs in ring order. -/
def State.sealBuffer (s : State) (r j : Nat) : State :=
  match s.ptrBuf r j with
  | none => s
  | some a =>
    let n := mget s.wts.sealed r 0
    let s := match s.ptrBuf r (n + 1) with
      | some b => if n = 0 ∨ b = a then s else { s with ext := wrBytes s.ext a (rdBytes s.ext b 2048) }
      | none => s
    let mine := s.wts.wptrs.filter fun w => w.region == r && w.step == 0
    let s := { s with ext := mine.foldl (fun (m : List Host.Cell) (w : WptrWait) => wrBytes m (a + 8 * w.first) (w.ptrs.flatMap fun (p : BitVec 64) => leBytes 8 p.toNat)) s.ext }
    s.modWts fun w =>
      { w with sealed := mput w.sealed r (j + 1)
               wptrs := w.wptrs.map fun (q : WptrWait) => if q.region = r ∧ q.step = 0 then { q with step := j + 1 } else q }

/-- R531: a WPTR completes at the t0 of the first step that uses its pointers. -/
def State.wptrDone (s : State) (r : Nat) : State :=
  let mine (w : WptrWait) : Bool := w.region == r && w.step != 0
  let s' := (s.wts.wptrs.filter mine).foldl (fun s w => match w.cmd with | some c => s.complete c 0x0202 0 | none => s) s
  s'.modWts fun w => { w with wptrs := w.wptrs.filter fun q => !mine q }

/-! ## Installing a plan (R82, R86, R164, R178, R249) -/

/-- The blocks an install copies. -/
def installBlocks (p : Plan) : Nat := if streamedLen p.text.length then 64 else textBlocks p

/-- The state of a tile's units after an install, and at the start of an invocation unless the vector unit keeps its own: no
pipe, run, access or deferred write of an earlier invocation remains, but the source of a `qwr` of the queue (R87, R164, R178). -/
def Tile.clearUnits (t : Tile) (keep : Bool) : Tile :=
  { t with
    outs := [], vruns := [], vrows := [], vlastIn := 0, vlastOut := 0, vpend := []
    wbufs := [], wready := [], wused := [], accs := [], accq := [], accLast := [], muls := [], drains := []
    loadFree := 0, streamFree := 0, drainFree := 0, loadAt := 1, streamAt := 1, drainAt := 1, chainAt := 0, chainOp := 0
    pipeEnd := 0, bankq := t.bankq.filter fun q => q.prio == 4, stall := false
    vregs := if keep then t.vregs else [], chains := if keep then t.chains else [] }

/-- R82, R86: a plan is installed on a region; `reads` tells which granules of its text the install's reads did not get whole at
once.  The tiles' counters keep their values until the next t0 (R91; DESIGN CHOICE, notes/assumptions/60.md), and NEXT_BLOCK
reads the installed blocks (R93; the same entry). -/
def State.install (s : State) (r : Nat) (p : Plan) (reads : List (Nat × GranRes)) : State :=
  let n := ceilDiv (24 * min p.text.length (16 * installBlocks p)) 64
  let s := s.textRead (s.blockAddr p 0) n reads
  let gone := ((lostGrans n reads).flatMap granTriples).filter fun k => decide (k < 16 * installBlocks p)
  let s := (s.tilesOf r).foldl (fun s t =>
    ((s.modTile (tIx t) fun T => { T.clearUnits false with sregs := [], invs := 0, lostPc := gone, bcast := 0, bcastAt := [] }).setReg
      .tilPadctl (tIx t) ((s.padWord p.profile).getD 0))) s
  let s := (s.galsOf r).foldl (fun s g => s.modGal g fun v =>
    { v with nextBlock := installBlocks p, staged := [], ring := [], ringFree := [] }) s
  s.modRegion r fun R => { R with plan := some p.id, invNo := 0 }

/-! ## Tree launches (R426, R445) -/

/-- The node with an index. -/
def nodeOf (t : Tree) (i : Nat) : TreeNode := t.nodes.getD i ⟨0, 0xFFFF, 0xFFFF, 0, 0, 0, 0, 0⟩

/-- The launch with an identity. -/
def State.launchBy (s : State) (id : BitVec 64) : Option LaunchSt := s.fab.launches.find? fun L => L.tree.launchId == id

/-- A launch changed. -/
def State.modLaunch (s : State) (id : BitVec 64) (f : LaunchSt → LaunchSt) : State :=
  s.modFab fun b => { b with launches := b.launches.map fun L => if L.tree.launchId = id then f L else L }

/-- The region a launch starts on this module. -/
def LaunchSt.region (L : LaunchSt) : Nat := (nodeOf L.tree L.node).region

/-- The launch that started a region's run, or whose start is pending there. -/
def State.launchOf (s : State) (r : Nat) : Option LaunchSt :=
  s.fab.launches.find? fun L => L.region == r && !L.passedBy && !L.queued && !L.lfailed

/-- FAB_LSTAT.STATE of a launch, while the register is the one of that launch: the last that began on the module (R444, R445). -/
def State.lstat (s : State) (L : LaunchSt) (v : Nat) : State :=
  if s.reg .fabLaunch 0 = L.tree.launchId.toNat then s.setFld F.fabLstat_state 0 v else s

/-- FAB_LSTAT.STATE once the run of a region is over. -/
def State.lstatOver (s : State) (r : Nat) : State := match s.launchOf r with | some L => s.lstat L 0 | none => s

/-- A run of a region begins: the launches it had before are over, but for the one that begins. -/
def State.retire (s : State) (r : Nat) (keep : Option (BitVec 64)) : State :=
  s.modFab fun f => { f with launches := f.launches.map fun L =>
    if L.region = r ∧ keep ≠ some L.tree.launchId then { L with passedBy := true } else L }

/-! ## The start of an invocation (R59, R87, R112, R164, R178, R215) -/

/-- R380: the replayed flits of a step are counted anew. -/
def State.clearBudget (s : State) (r : Nat) : State :=
  let serving := (List.range 8).filter fun q => s.running q && (match s.regionRec q with | some x => x.role == 1 | none => false)
  let lead := match serving with
    | q :: _ => some q
    | [] => (List.range 8).find? s.running
  if lead = some r then (List.range 32).foldl (fun s p => s.setFld F.lnkBudget_used p 0) s else s

/-- The state of a tile at the start of an invocation (R59, R90, R173, R215). -/
def Tile.begin_ (t : Tile) (p : Plan) (ix pads : Nat) (loc keep : Bool) : Tile :=
  let par := (mget p.params ix []).zipIdx.foldl (fun m w => mput m (24 + w.2) w.1) (t.sregs.filter fun q => decide (q.1 < 24))
  { t.clearUnits keep with
    pc := 0, issuePc := 0, moved := true, sregs := par, preds := 0, lvls := [], dcount := p.dcount, dstride := p.dstride, gens := p.gens
    inInv := true, waiting := false, late := 0, bcast := 0, bcastAt := [], padw := BitVec.ofNat 32 pads, locm := loc
    lostPc := if streamedLen p.text.length then t.lostPc.filter fun k => decide (k < 1024) else t.lostPc
    lastAt := 0, stall := false, qw := none, textFrom := none }

/-- t0: an invocation of a region starts on every active tile. -/
def State.invBegin (s : State) (r : Nat) : State :=
  match s.installed r with
  | none => s
  | some p =>
    let s := s.clearBudget r
    let s := (s.tilesOf r).foldl (fun s t =>
      let y := tIx t
      s.modTile y fun T => T.begin_ p y (s.reg .tilPadctl y) (s.fld F.tilMxctl_local y == 1) (s.fld F.tilVctl_keep y == 1)) s
    let s := (s.galsOf r).foldl (fun s g => s.modGal g fun v =>
      { v with
        nextBlock := installBlocks p, opp := 0, staged := [], ring := []
        ringFree := if streamedLen p.text.length then List.replicate 21 (0, 0) else [], lastBcast := 0, lastB := 0 }) s
    let s := s.modRegion r fun R =>
      { R with inInv := true, t0 := s.sched, t0c := s.cnt, t0w := s.wall, launchT0 := if R.begun then R.launchT0 else s.sched, begun := true,
               pend := none, lateIssue := 0, loss := false }
    let s := match s.park with
      | some k => match k.t0 with | some t => if t ≤ s.cnt then { s with park := none } else s | none => s
      | none => s
    let s := match s.launchOf r with | some L => if s.fld F.fabLstat_state 0 = 1 then s.lstat L 2 else s | none => s
    s.loadBin.wptrDone r

/-! ## The end of a region's run (R428, R435, R583, R649) -/

/-- R428, R583: every tile of a region stops issuing and the region becomes idle; its outputs are undefined, so that the
scratchpads of its active tiles hold free values (notes/assumptions/21.md). -/
def State.stopRegion (s : State) (r : Nat) : State :=
  let s := if (s.region r).begun then
      (s.tilesOf r).foldl (fun s t =>
        ((s.modTile (tIx t) fun T =>
          { T with inInv := false, waiting := false, scratch := wrBytes [] 0 (s.freeBytes scratchBytes) })).freeStep scratchBytes) s
    else s
  let s := match s.park with
    | some k => if k.region = r ∧ k.t0.isNone then { s with park := some { k with t0 := some (s.cnt + 64) } } else s
    | none => s
  s.modRegion r fun R =>
    { R with running := false, inInv := false, begun := false, pend := none, series := none, armed := false, wake := none }

/-- The commands of a region's run complete with a status (R344, R428, R435). -/
def State.runDone (s : State) (r status : Nat) (report : Option (Word × Word) := none) : State :=
  let R := s.region r
  let s := match R.cmd with | some c => s.complete c 0x0004 status 0 report | none => s
  let s := R.stops.foldl (fun s c => s.complete c 0x0005 0) s
  s.modRegion r fun R => { R with cmd := none, stops := [] }

/-- The lowest-numbered running serving region. -/
def State.firstServing (s : State) : Option Nat :=
  (List.range 8).find? fun q => s.running q && (match s.regionRec q with | some x => x.role == 1 | none => false)

/-- R553, R555, R558, R559: heartbeats number the steps of the lowest-numbered running serving region; when it changes from what it was,
no heartbeat or digest of the series it is now is held. -/
def State.hbSeries (s : State) (was : Option Nat) : State :=
  if s.firstServing = was then s
  else s.modMir fun m =>
    { m with hbStep := 0, okStep := 0, digests := [], peerDigs := []
             pendEmis := if s.mode.mirror = 2 then m.pendEmis.filter (fun x => decide (m.hbStep ≤ x.step)) else m.pendEmis }

/-- R344, R649: a series or an invocation is over and the region no longer runs. -/
def State.regionDone (s : State) (r : Nat) : State :=
  (s.modRegion r fun R => { R with running := false, inInv := false, begun := false, pend := none, series := none, armed := false }).hbSeries
    s.firstServing

/-! ## Launch trees (R423 to R426) -/

/-- The bytes of a launch tree descriptor (R423). -/
def treeBytes (t : Tree) : List Byte :=
  leBytes 4 0x544C4B54 ++ leBytes 2 1 ++ leBytes 2 t.nodes.length ++ leBytes 8 t.launchId.toNat ++ leBytes 1 t.step
    ++ List.replicate 47 0 ++ t.nodes.flatMap fun n =>
      leBytes 4 n.module ++ leBytes 2 n.parent ++ leBytes 2 n.alt ++ leBytes 1 n.region ++ [0] ++ leBytes 2 n.plan ++ leBytes 4 0

/-- The rules of R424 on parents, alternates and modules. -/
def nodesOk (ns : List TreeNode) (own : Nat) : Bool :=
  (match ns with | n :: _ => n.module == own && n.parent == 0xFFFF && n.alt == 0xFFFF | [] => false)
    && ns.zipIdx.all fun n => n.2 == 0 ||
      (decide (n.1.parent < n.2) && decide (n.1.alt < n.2) && (n.1.alt != n.1.parent || n.1.parent == 0)
        && !((ns.take n.2).any fun m => m.module == n.1.module))

/-- The number of PARENT links from a node to node 0, looking at most `k` up. -/
def depthOf (ns : List TreeNode) : Nat → Nat → Nat
  | 0, _ => 0
  | k + 1, i => if i = 0 then 0 else 1 + depthOf ns k ((ns.map (·.parent)).getD i 0)

/-- R423, R424: the descriptor at a GDDR7 address, when it is valid. -/
def State.treeAt (s : State) (a : Nat) (barrier : Bool) : Option Tree :=
  if s.gddrSize < a + 64 then none
  else
    let h := rdBytes s.ext a 64
    let n := leAt h 6 2
    if leAt h 0 4 ≠ 0x544C4B54 ∨ leAt h 4 2 ≠ 1 ∨ n = 0 ∨ 1024 < n ∨ !allZero (h.drop 17) ∨ 4 < leAt h 16 1
        ∨ s.gddrSize < a + 64 + 16 * n then none
    else
      let es := cut 16 (rdBytes s.ext (a + 64) (16 * n))
      let ns : List TreeNode := es.map fun e => ⟨leAt e 0 4, leAt e 4 2, leAt e 6 2, leAt e 8 1, leAt e 10 2, 0, 0, 0⟩
      if (es.all fun e => leAt e 9 1 == 0 && leAt e 12 4 == 0 && decide (leAt e 0 4 < 2 ^ 20)) && nodesOk ns s.ownId
          && (!barrier || ((List.range n).all fun i => decide (depthOf ns 9 i ≤ 8))) then
        some ⟨BitVec.ofNat 64 (leAt h 8 8), leAt h 16 1, ns⟩
      else none

/-- The primary and the alternate children of a node, in increasing index (R424). -/
def primaryOf (t : Tree) (i : Nat) : List Nat := (List.range t.nodes.length).filter fun k => k != 0 && (nodeOf t k).parent == i
def alternateOf (t : Tree) (i : Nat) : List Nat := (List.range t.nodes.length).filter fun k => k != 0 && (nodeOf t k).alt == i

/-- The node of the tree that names this module. -/
def State.nodeIn (s : State) (t : Tree) : Option Nat :=
  (List.range t.nodes.length).find? fun i => (nodeOf t i).module == s.ownId

/-- A message of a launch goes to a node: the descriptor with the COUNT, or the items (R426). -/
def State.toNode (s : State) (L : LaunchSt) (i type : Nat) (args : List Nat) : State :=
  s.sendMsg (nodeOf L.tree i).module type L.tree.launchId args
    ((if type = 0x20 ∨ type = 0x24 then treeBytes L.tree else []) ++ argBytes args)

/-- R426: a node that holds a message sends it at once to its primary children, and its alternate children are awaited. -/
def State.forward (s : State) (id : BitVec 64) (type : Nat) (args : List Nat) : State :=
  match s.launchBy id with
  | none => s
  | some L =>
    (((primaryOf L.tree L.node).foldl (fun s i => s.toNode L i type args) s)).modLaunch id fun L =>
      { L with since := s.wall, msg := type, args := args, lacks := [], alts := [] }

/-- R426, R427: a message of a node goes to its PARENT and its ALT, once when they are one. -/
def State.upTree (s : State) (L : LaunchSt) (type : Nat) (args : List Nat) : State :=
  let n := nodeOf L.tree L.node
  let s := if n.parent < L.tree.nodes.length then s.toNode L n.parent type args else s
  if n.alt < L.tree.nodes.length ∧ n.alt ≠ n.parent then s.toNode L n.alt type args else s

/-- R426: LACK. -/
def State.lack (s : State) (L : LaunchSt) : State := s.upTree L 0x21 [L.node]

/-- R427: LFAIL with a status, event 0x029A. -/
def State.lfail (s : State) (L : LaunchSt) (status : Nat) : State :=
  ((s.upTree L 0x22 [L.node, status]).event 0x029A 8 0 [(4, status)]).modLaunch L.tree.launchId fun L =>
    { L with lfailed := true, fails := L.fails ++ [L.node] }

/-- R434, R444, R445: a tree launch begins on the module. -/
def State.treeBegins (s : State) (t : Tree) (node count : Nat) (arm : Bool) : State :=
  let s := { s with regs := s.regs.filter fun e => e.1 / 2 ^ 32 != RegKind.fabStrag.code }
  let s := (s.setReg .fabLaunch 0 t.launchId.toNat).setReg .fabLstat 0 0
  let s := ((s.setFld F.fabLstat_state 0 1).setFld F.fabLstat_node 0 node).setFld F.fabLstat_nodes 0 t.nodes.length
  s.modFab fun f =>
    { f with launches := { tree := t, node := node, arm := arm, count := count, since := s.wall, msg := if arm then 0x24 else 0x20
                           args := [count] } :: f.launches.filter fun L => L.tree.launchId != t.launchId }

/-- A start of a launch that waits for its region is cancelled; one that does not wait ends with the region's run. -/
def State.cancel (s : State) (L : LaunchSt) : State :=
  if L.queued then s.modLaunch L.tree.launchId fun L => { L with queued := false } else if L.passedBy then s else s.stopRegion L.region

/-- R428: this module's part of a job is aborted: a pending start is cancelled, and a region that has started stops, with event
0x029B. -/
def State.abortHere (s : State) (L : LaunchSt) : State :=
  let begun := s.running L.region && (s.region L.region).begun && !L.queued && !L.passedBy && !L.lfailed
  let s := if L.lfailed then s else s.cancel L
  (if begun then s.event 0x029B 8 0 [] else s).lstat L 4

/-- R428: node 0 completes the LAUNCH with 0x0053 and aborts the job. -/
def State.jobFails (s : State) (L : LaunchSt) : State :=
  if L.lfailed || L.passedBy then s
  else
    let s := (s.runDone L.region 0x0053).forward L.tree.launchId 0x23 []
    (s.abortHere L).modLaunch L.tree.launchId fun L => { L with lfailed := true }

/-- A start of this module's part that fails: R427, R431, R244. -/
def State.nodeFails (s : State) (L : LaunchSt) (status : Nat) : State :=
  if L.node = 0 then s.jobFails L
  else if L.lfailed then s
  else
    ((s.cancel L).lfail L status).lstat L 3

/-! ## The release of a barrier start (R430) -/

/-- The release margin in plan cycles. -/
def State.margin (s : State) : Nat := 64 * s.fld F.fabBarctl_margin 0

/-- Half a port's round trip in plan cycles, the trip rounded to the nearest (R430). -/
def State.halfTrip (s : State) (p : Nat) : Nat :=
  let num := s.fld F.lnkStat_rtt p * 6144 * 2 ^ s.fld F.lnkStat_width p * (if s.gen1 p then 2 else 1)
  let den := 1000 * s.divider
  (2 * num + den) / (2 * den) / 2

/-- The lowest-numbered UP fabric port to a module. -/
def State.portTo (s : State) (m : Nat) : Option Nat :=
  (List.range 32).find? fun p => s.portRole p == 1 && s.portState p == 3 && s.fld F.lnkStat_peermod p == m

/-- What a release flit carries (R430). -/
def releaseBytes (remain : Nat) : List Byte := leBytes 8 3 ++ leBytes 4 remain

/-- R430: the release goes to each primary child as a FABRIC flit with what remains less the delays. -/
def State.sendRelease (s : State) (L : LaunchSt) (remain own : Nat) : State :=
  (primaryOf L.tree L.node).foldl (fun s i =>
    match s.portTo (nodeOf L.tree i).module with
    | some p => s.fabricFlit p (releaseBytes (remain - own - s.halfTrip p))
    | none => s) s

/-- A barrier start's release moment is known (R243, R430). -/
def State.releaseAt (s : State) (r at_ : Nat) : State :=
  let s := s.modRegion r fun R => { R with pend := R.pend.map fun p => { p with release := some at_ } }
  match s.park with
  | some k => if k.region = r ∧ k.t0.isNone then { s with park := some { k with t0 := some (at_ + 64) } } else s
  | none => s

/-- R430: node 0 holds READY from every node, and releases. -/
def State.releaseJob (s : State) (L : LaunchSt) : State :=
  ((s.sendRelease L s.margin 0).releaseAt L.region (s.cnt + s.margin)).modLaunch L.tree.launchId fun L => { L with released := true }

/-! ## Running a launch (R82, R342, R343, R579, R649) -/

/-- The galleries of a region that are gated. -/
def State.gatedGals (s : State) (r : Nat) : List Nat := (s.galsOf r).filter fun g => !(s.gal g).awake

/-- The engines that serve a region (R26, R460). -/
def State.enginesOf (s : State) (r : Nat) : List Nat :=
  match s.regionRec r with
  | some x => if x.role = 1 then [0, 1].filter fun e => bits x.engine e e == 1 else []
  | none => []

/-- R462: the engines of a region on this module pack its steps: not on a node other than node 0 of its tree. -/
def State.packsHere (s : State) (r : Nat) : Bool :=
  match (s.region r).series with
  | some x => !x.tree || (match s.launchOf r with | some L => L.node == 0 | none => true)
  | none => true

/-- R531: the pointer buffers of the step whose table is complete are sealed: of the serving region and of the drafts that run
for it. -/
def State.sealStep (s : State) (r k : Nat) : State :=
  (List.range 8).foldl (fun s d =>
    let R := s.region d
    if (match s.regionRec d with | some x => x.role == 2 && x.draftOf == r | none => false) && R.running then
      s.sealBuffer d (match R.series with | some x => if R.begun then x.step + 1 else 0 | none => 0)
    else s) (s.sealBuffer r k)

/-- The start of a region's run: it is running; gated galleries wake first; a plan not installed is installed (R82, R531,
R579, R649). -/
def State.startRun (s : State) (r plan : Nat) (cmd : Option Cmd) (mode : StartMode) (count : Nat) (reads : List (Nat × GranRes)) (tree : Bool) :
    State :=
  match s.planOf plan, s.regionRec r with
  | some p, some rec_ =>
    let was := s.firstServing
    let s := if tree then s else s.retire r none
    let gated := !(s.gatedGals r).isEmpty
    let fresh := gated || (s.region r).plan != some plan
    let wake := if gated then 16384 else 0
    let since := s.cnt + wake + (if fresh then 6 * installBlocks p + 40 else 0)
    let s := if gated then s.modRegion r fun R => { R with wake := some (s.cnt + 16384), plan := none }
      else if fresh then s.install r p reads else s
    let start : Start := ⟨since, mode, count, none, none, if gated then reads else []⟩
    let s := s.modRegion r fun R =>
      { R with running := true, launchPlan := plan, instEnd := since, begun := false, cmd := cmd, lastLaunch := s.wall, inInv := false, stops := []
               armed := rec_.role == 2, pend := if rec_.role = 2 then none else some start
               series := if rec_.role = 0 then none else some { tree := tree } }
    let s := (s.enginesOf r).foldl (fun s e => s.modEng e fun E => { E with tabStep := 0, slots := [], pres := [] }) s
    let s := if rec_.role = 0 then s.sealBuffer r (if fresh then 0 else (s.region r).invNo)
      else if rec_.role = 1 ∧ !s.packsHere r then s.sealStep r 0 else s
    s.loadBin.hbSeries was
  | _, _ => s

/-- Checks 1 to 3, 5 and 6 of R343; 0 when none fails. -/
def State.launchCheck (s : State) (r mode plan : Nat) : Nat :=
  match s.img with
  | none => 0x0047
  | some im =>
    let ok := match s.regionRec r, s.planOf plan with | some _, some p => p.region == r | _, _ => false
    if !ok || decide (2 < mode) then 0x0048
    else if (match s.regionRec r with | some x => x.role != 0 | none => false) && s.running r then 0x0049
    else if mode = 1 ∧ s.fld F.ptcState_unsync 0 = 1 then 0x004B
    else if (mode = 1 ∧ im.mode.start = 1) ∨ (mode = 2 ∧ im.mode.start = 0) then 0x004C
    else 0

/-- R461: a LAUNCH of a serving region needs its engines' configuration. -/
def State.unconfigured (s : State) (r : Nat) : Bool :=
  (s.enginesOf r).any fun e => match (s.eng e).cfg with | some c => c.region != r | none => true

/-- The IXL ports of a fabric or mirror role in a state (R387). -/
def State.somePort (s : State) (f : Nat → Bool) : Bool :=
  (List.range 32).any fun p => (s.portRole p == 1 || s.portRole p == 2) && f (s.portState p)

/-- R429: every edge of this node, from its PARENT and to its primary children, is a direct link over an UP fabric port. -/
def State.directLinks (s : State) (t : Tree) (i : Nat) : Bool :=
  (i == 0 || (s.portTo (nodeOf t (nodeOf t i).parent).module).isSome)
    && (primaryOf t i).all fun k => (s.portTo (nodeOf t k).module).isSome

/-- The start mode of a MODE operand. -/
def startMode (m : Nat) : StartMode := if m = 0 then .here else if m = 1 then .count else .barrier

/-- LAUNCH after its checks: on this module, or as node 0 of a tree (R342, R426, R429). -/
def State.doLaunch (s : State) (c : Cmd) (r mode plan count : Nat) (tree : Option Tree) (reads : List (Nat × GranRes)) : State :=
  match tree with
  | some t =>
    let s := ((s.retire r none).treeBegins t 0 count (mode == 2)).startRun r plan (some c) (startMode mode) count reads true
    let s := s.forward t.launchId (if mode = 2 then 0x24 else 0x20) [count]
    if mode = 2 then
      let s := s.modLaunch t.launchId fun L => { L with readys := [0], readyAt := some s.wall }
      if t.nodes.length = 1 then (match s.launchBy t.launchId with | some L => s.releaseJob L | none => s) else s
    else s
  | none =>
    let s := s.startRun r plan (some c) (startMode mode) count reads false
    if mode = 2 then s.releaseAt r (s.cnt + s.margin) else s

/-- The first of the checks of R343, and of R461, R425, R429 and R387 after them, that a LAUNCH fails; 0 when it passes them. -/
def State.launchStatus (s : State) (r m plan n tree : Nat) : Nat :=
  let st := s.launchCheck r m plan
  let t := if tree = 0 then none else s.treeAt tree (m == 2)
  let apart := match t with | some t => m == 2 && !s.directLinks t 0 | none => false
  if st ≠ 0 ∧ st < 0x004B then st
  else if m = 1 ∧ n < s.cnt + 2 ^ 20 then 0x004A
  else if st ≠ 0 then st
  else if s.unconfigured r then 0x0061
  else if tree ≠ 0 ∧ (t.isNone ∨ m = 0) then 0x0051
  else if (t.map (·.step)).getD s.step_ ≠ s.step_ then 0x0052
  else if apart then 0x0051
  else if m ≠ 0 ∧ s.somePort fun st => st != 3 then 0x0050
  else 0

/-- A LAUNCH waits in its ring: for the invocation of a plan region (R342), or for a port's training (R387). -/
def State.launchWaits (s : State) (r mode : Nat) : Bool :=
  ((s.regionRec r).map (·.role) == some 0 && s.running r) || ((mode == 1 || mode == 2) && s.somePort fun st => st == 2)

/-- R558: the steps of a twin are coupled to the partner's: it has formed a pair, and is not LOST, FENCED or COVER (DEDUCED,
notes/assumptions/26.md). -/
def State.twinCoupled (s : State) : Bool := s.mode.mirror == 2 && [3, 4, 5].contains s.pairState

/-- R558: the LAUNCH of a serving region is one of a twin. -/
def State.twinLaunch (s : State) (r : Nat) : Bool := (s.regionRec r).map (·.role) == some 1 && s.twinCoupled

/-- R558: the partner is told, once, that this module executes its LAUNCH. -/
def State.tellLaunch (s : State) (r : Nat) : State :=
  if s.twinLaunch r && !s.mir.launchSent.contains r then
    (s.mirSend 0x50 [0x0004, r] (leBytes 2 4 ++ leBytes 1 r)).modMir fun m => { m with launchSent := m.launchSent ++ [r] }
  else s

/-- LAUNCH (R342, R343, R387, R425, R461); one that passes its checks waits for the twin partner's (R558). -/
def execLaunch (c : Cmd) (region : BitVec 8) (mode : BitVec 8) (plan : BitVec 32) (count : BitVec 64) (tree : BitVec 64)
    (reads : List (Nat × GranRes)) (s : State) : Out :=
  .next <|
    let r := region.toNat
    let m := mode.toNat
    let n := count.toNat
    let status := s.launchStatus r m plan.toNat n tree.toNat
    if s.cmdReady c 0x0004 (operandsOf (.launch c region mode plan count tree reads)) ∧ c.fn = 0 ∧ s.launchWaits r m then (s.cmdWaits 0).answerAll 1
    else if s.cmdReady c 0x0004 (operandsOf (.launch c region mode plan count tree reads)) ∧ c.fn = 0 ∧ status = 0 ∧ s.twinLaunch r ∧ s.mir.launched.contains r = false then ((s.tellLaunch r).cmdWaits 0).answerAll 1
    else s.runCmd c 0x0004 (operandsOf (.launch c region mode plan count tree reads)) false fun s =>
      let status := s.launchStatus r m plan.toNat n tree.toNat
      if status ≠ 0 then s.complete c 0x0004 status
      else
        let s := (s.tellLaunch r).modMir fun x =>
          { x with launched := x.launched.filter (· != r), launchSent := x.launchSent.filter (· != r) }
        s.doLaunch c r m plan.toNat n (if tree = 0 then none else s.treeAt tree.toNat (m == 2)) reads

/-- A series is over: its commands complete, its region no longer runs, and the launch that started it is none (R344, R445). -/
def State.seriesEnds (s : State) (r : Nat) : State := (((s.lstatOver r).runDone r 0).regionDone r)

/-- STOP: the series ends at its next step boundary, at once where the series is between two steps and no engine of this
module has work at that boundary (R344). -/
def execStop (c : Cmd) (region : BitVec 8) (s : State) : Out :=
  .next <| s.runCmd c 0x0005 (operandsOf (.stop c region)) false fun s =>
    let r := region.toNat
    let R := s.region r
    match R.series with
    | none => s.complete c 0x0005 0x0049
    | some x =>
      if !R.running then s.complete c 0x0005 0x0049
      else
        let s := s.modRegion r fun R =>
          { R with stops := R.stops ++ [c], series := some { x with stopReq := true } }
        if R.armed ∧ !R.inInv then s.seriesEnds r
        else if x.endedAt.isSome ∧ !s.packsHere r then s.seriesEnds r
        else s

/-! ## The messages of a launch tree (R426 to R431) -/

/-- The start of a launch becomes pending on this node's region; READY answers ARM (R427, R429). -/
def State.nodeBegins (s : State) (L : LaunchSt) : State :=
  let n := nodeOf L.tree L.node
  let s := (s.retire n.region (some L.tree.launchId)).startRun n.region n.plan none (if L.arm then .barrier else .count) L.count [] true
  if L.arm then (s.toNode L 0 0x25 [L.node]).modLaunch L.tree.launchId fun L => { L with readyAt := some s.wall } else s

/-- The invocation of a region is over: the start of a launch that waited for it becomes pending (R342, R427). -/
def State.dequeue (s : State) (r : Nat) : State :=
  match s.fab.launches.find? fun L => L.region == r && L.queued && !L.lfailed with
  | some L => (s.modLaunch L.tree.launchId fun L => { L with queued := false }).nodeBegins L
  | none => s

/-- The first of a message at a node: forwarded, answered and checked (R426, R427, R429).  The checks let a plan region run: its next
start then waits for its invocation to end, as a LAUNCH does (R342; DEDUCED, notes/assumptions/70.md). -/
def State.treeMsg (s : State) (t : Tree) (count : Nat) (arm : Bool) : State :=
  match s.nodeIn t with
  | none => s
  | some i =>
    if i = 0 then s
    else match s.launchBy t.launchId with
      | some L => s.lack L
      | none =>
        let n := nodeOf t i
        let s := (s.treeBegins t i count arm).event 0x0299 8 0 [(8, t.launchId.toNat)]
        let s := s.forward t.launchId (if arm then 0x24 else 0x20) [count]
        match s.launchBy t.launchId with
        | none => s
        | some L =>
          let s := s.lack L
          let st := s.launchCheck n.region (if arm then 2 else 1) n.plan
          let st := if st ≠ 0 then st
            else if t.step ≠ s.step_ then 0x0052
            else if arm ∧ !s.directLinks t i then 0x0051 else 0
          if st ≠ 0 then (s.lfail L st).lstat L 3
          else if s.running n.region then s.modLaunch t.launchId fun L => { L with queued := true }
          else s.nodeBegins L

/-- LAUNCH_MESSAGE_RECEIVE (R426, R427). -/
def execLaunchMessageReceive (tree : Tree) (count : BitVec 64) (s : State) : Out :=
  .next <| s.onMsg 0x20 (·.says tree.launchId (treeBytes tree ++ argBytes [count.toNat])) fun s => s.treeMsg tree count.toNat false

/-- ARM_RECEIVE: ARM carries what LAUNCH does (R429). -/
def execArmReceive (tree : Tree) (count : BitVec 64) (s : State) : Out :=
  .next <| s.onMsg 0x24 (·.says tree.launchId (treeBytes tree ++ argBytes [count.toNat])) fun s => s.treeMsg tree count.toNat true

/-- R426: no LACK has come from an alternate child in time. -/
def LaunchSt.altDue (L : LaunchSt) (child wall wait : Nat) : Bool :=
  (alternateOf L.tree L.node).contains child && !L.lacks.contains child && !L.alts.contains child
    && decide (L.since + wait ≤ wall)

/-- The alternate children of a node of a broadcast (R424). -/
def Bc.alternates (b : Bc) : List Nat :=
  (List.range b.tree.nodes.length).filter fun i => i != 0 && (b.tree.nodes.map (·.alt)).getD i 0xFFFF == b.node

/-- R426, R523: no LACK has come from an alternate child in time. -/
def Bc.altDue (b : Bc) (child wall wait : Nat) : Bool :=
  b.alternates.contains child && !b.lacks.contains child && !b.alts.contains child && decide (b.since + wait ≤ wall)

/-- ALTWAIT_EXPIRY: no LACK from an alternate child within FAB_CTL.ALTWAIT µs: the message is sent to it (R426). -/
def execAltwaitExpiry (child : Nat) (s : State) : Out :=
  .next <|
    let wait := 100 * s.fld F.fabCtl_altwait 0
    match s.fab.launches.find? fun L => L.altDue child s.wall wait with
    | some L =>
      ((s.toNode L child L.msg L.args).event 0x0298 8 0 []).modLaunch L.tree.launchId fun L => { L with alts := L.alts ++ [child] }
    | none =>
      match s.wts.bcs.find? fun d => d.2.altDue child s.wall wait with
      | some d =>
        ((s.bcSend d.2 child d.2.msg []).event 0x0298 8 0 []).modBc d.1 fun b => { b with alts := b.alts ++ [child] }
      | none => s

/-- LACK_RECEIVE: for a launch, or a broadcast (R426, R523). -/
def execLackReceive (child : Nat) (id : BitVec 64) (s : State) : Out :=
  .next <| s.onMsg 0x21 (·.says id (argBytes [child])) fun s =>
    let s := s.modLaunch id fun L => if L.lacks.contains child then L else { L with lacks := L.lacks ++ [child] }
    s.modWts fun w => { w with bcs := w.bcs.map fun (d : Nat × Bc) =>
      if d.2.tree.bcastId = id ∧ !d.2.lacks.contains child then (d.1, { d.2 with lacks := d.2.lacks ++ [child] }) else d }

/-- LFAIL_RECEIVE: forwarded once, or at node 0 the end of the job (R427, R428). -/
def execLfailReceive (node : Nat) (id : BitVec 64) (status : BitVec 16) (s : State) : Out :=
  .next <| s.onMsg 0x22 (·.says id (argBytes [node, status.toNat])) fun s => match s.launchBy id with
    | none => s
    | some L =>
      if L.node = 0 then s.jobFails L
      else if L.fails.contains node then s
      else (s.upTree L 0x22 [node, status.toNat]).modLaunch id fun L => { L with fails := L.fails ++ [node] }

/-- ABORT_RECEIVE (R426, R428). -/
def execAbortReceive (id : BitVec 64) (s : State) : Out :=
  .next <| s.onMsg 0x23 (·.says id []) fun s => match s.launchBy id with
    | none => s
    | some L =>
      if L.node = 0 then s
      else if L.msg = 0x23 then s.lack L
      else ((s.forward id 0x23 []).lack L).abortHere L

/-- READY_RECEIVE: at node 0; the last of them releases the job (R430). -/
def execReadyReceive (node : Nat) (id : BitVec 64) (s : State) : Out :=
  .next <| s.onMsg 0x25 (·.says id (argBytes [node])) fun s => match s.launchBy id with
    | none => s
    | some L =>
      if L.node ≠ 0 ∨ !L.arm ∨ L.released ∨ L.lfailed ∨ L.tree.nodes.length ≤ node ∨ L.readys.contains node then s
      else
        let s := s.modLaunch id fun L => { L with readys := L.readys ++ [node] }
        if L.readys.length + 1 = L.tree.nodes.length then s.releaseJob L else s

/-- R430: a release flit arrives: the start, or the next step, is released `remain` plan cycles from now, and the flit goes
on to the primary children. -/
def execReleaseFlitReceive (p : Fin 32) (remain : Nat) (fwdDelay : Nat) (s : State) : Out :=
  .next <| s.onFabric p (releaseBytes remain) fun s =>
    let waits (L : LaunchSt) : Bool :=
      L.arm && L.node != 0 && !L.lfailed && !L.passedBy && !L.queued && s.running L.region && s.portState p == 3
        && (!L.released || (match (s.region L.region).series with | some x => x.between | none => false))
    match s.fab.launches.find? waits with
    | none => s
    | some L =>
      let s := s.sendRelease L remain fwdDelay
      let r := L.region
      let s := if L.released then
          s.modRegion r fun R =>
            { R with pend := if R.armed then none else some ⟨s.cnt, .barrier, 0, none, none, []⟩
                     series := R.series.map fun x => { x with between := false, nextAt := some (s.cnt + remain + 64) } }
        else s
      (s.releaseAt r (s.cnt + remain)).modLaunch L.tree.launchId fun L => { L with released := true }

/-- BARRIER_TIMEOUT: no release FAB_BARCTL.TIMEOUT µs after READY: the start is cancelled and LFAIL sent; the spec states no
status for it (R431; DESIGN CHOICE, notes/assumptions/20.md). -/
def execBarrierTimeout (s : State) : Out :=
  .next <|
    let late (L : LaunchSt) : Bool :=
      L.arm && !L.released && !L.lfailed && !L.passedBy
        && (match L.readyAt with | some t => decide (t + 100 * s.fld F.fabBarctl_timeout 0 ≤ s.wall) | none => false)
    match s.fab.launches.find? late with
    | some L => (s.freeStep 2).nodeFails L (leNat (s.freeBytes 2))
    | none => s

/-! ## Step barriers (R432 to R435) -/

/-- R434, R435: node `n` is flagged suspect, with event 0x029D when `ev`. -/
def State.suspect (s : State) (n : Nat) (ev : Bool) : State :=
  if s.fld F.fabStrag_suspect n = 1 then s
  else
    let s := s.setFld F.fabStrag_suspect n 1
    if ev then s.event 0x029D 8 0 [] else s

/-- R434: the last node of a step barrier is counted; the count is what hardware makes it, before a write of the cycle (R19). -/
def State.straggler (s : State) (n : Nat) : State :=
  let c := min (bits (s.beforeWrites .fabStrag n) 15 0 + 1) 0xFFFF
  let s := s.satAdd F.fabStrag_last n 1
  if c = s.mode.suspect then s.suspect n true else s

/-- The cycles until the park of a start made now would begin (R243). -/
def State.toPark (s : State) : Nat := 64 + (2304 - s.schedIn64 % 2304) % 2304

/-- R432, R433: a node's next step is to start at NEXT, or, when RELEASE came too late for its park, at the first calendar
origin at least 64 cycles from now.  A draft's step has no park: it begins with the first step of its serving region at NEXT or after
(R463; DEDUCED, notes/assumptions/70.md). -/
def State.nextStepAt (s : State) (r next : Nat) : State :=
  let late := !(s.region r).armed && decide (next < s.cnt + s.toPark + 64)
  let s := if late then s.event 0x029C 8 0 [] else s
  s.modRegion r fun R =>
    { R with pend := if late || R.armed then none else some ⟨s.cnt, .count, next, none, none, []⟩
             series := R.series.map fun x =>
               { x with between := false, late := late, nextAt := some (if late then s.cnt + 64 else next) } }

/-- R432: every node has arrived: node 0 releases the step. -/
def State.barrierDone (s : State) (L : LaunchSt) (last : Nat) : State :=
  let r := L.region
  let next := s.cnt + s.margin
  let s := (s.modLaunch L.tree.launchId fun L => { L with arrivals := [], firstArr := none }).straggler last
  if L.arm then
    let s := s.sendRelease L s.margin 0
    let s := s.modRegion r fun R =>
      { R with pend := if R.armed then none else some ⟨s.cnt, .barrier, 0, none, none, []⟩
               series := R.series.map fun x => { x with between := false, nextAt := some (next + 64) } }
    s.releaseAt r next
  else (s.forward L.tree.launchId 0x31 [last, next, 0]).nextStepAt r next

/-- R432: node 0 takes the arrival of a node; of those of one cycle, which it takes in increasing node index, the highest completes the
set. -/
def State.takeArrival (s : State) (L : LaunchSt) (node : Nat) : State :=
  if (L.arrivals.any fun a => a.1 == node) ∨ L.tree.nodes.length ≤ node then s
  else if L.arrivals.length + 1 = L.tree.nodes.length then
    s.barrierDone L (((L.arrivals.filter fun a => a.2 == s.cnt).map (·.1)).foldl max node)
  else s.modLaunch L.tree.launchId fun L =>
    { L with arrivals := L.arrivals ++ [(node, s.cnt)], firstArr := some (L.firstArr.getD s.wall) }

/-- R432, R575: this node arrives at the step barrier of its series. -/
def State.arrive (s : State) (r : Nat) : State :=
  match s.launchOf r with
  | none => s
  | some L =>
    let s := s.modRegion r fun R => { R with series := R.series.map fun x => { x with between := true, arrived := true } }
    if L.node = 0 then s.takeArrival L 0
    else (s.toNode L 0 0x30 [b2n s.fab.unsyncArr]).modFab fun f => { f with unsyncArr := false }

/-- ARRIVE_RECEIVE: at node 0, from the module of a node (R432, R575). -/
def execArriveReceive (node : Nat) (id : BitVec 64) (unsync : Bool) (s : State) : Out :=
  .next <| match s.launchBy id with
    | none => s
    | some L => s.onMsg 0x30 (fun m => m.origin == (nodeOf L.tree node).module && m.says id (argBytes [b2n unsync])) fun s =>
      if L.node ≠ 0 ∨ node = 0 ∨ !s.running L.region then s
      else
        let s := if unsync then s.event 0x02D2 8 0 [(4, node)] else s
        s.takeArrival L node

/-- R435: the series of a job ends at this node's step boundary: now, or with the step still in progress; node 0's LAUNCH completes
with 0x0054. -/
def State.barrierAborts (s : State) (L : LaunchSt) (missing : Nat) : State :=
  let r := L.region
  let s := (s.suspect missing false).event 0x029E 8 0 []
  let s := match (s.region r).cmd with | some c => s.complete c 0x0004 0x0054 | none => s
  let s := s.modRegion r fun R => { R with cmd := none, series := R.series.map fun x => { x with aborted := true } }
  if (s.region r).inInv then s else s.seriesEnds r

/-- The launch that a RELEASE waiting with some items is for, by its LAUNCH_ID (R426, R432). -/
def State.releaseFor (s : State) (args : List Nat) : Option LaunchSt :=
  s.fab.launches.find? fun L => L.node != 0 && s.hasMsg 0x31 (·.says L.tree.launchId (argBytes args))

/-- STEP_RELEASE_RECEIVE: RELEASE at a node: forwarded, answered, and the next step set, or the series ended (R432 to
R435); a repeat is only answered (R426). -/
def execStepReleaseReceive (last : Nat) (next : Nat) (abort : Bool) (s : State) : Out :=
  .next <|
    let args := [last, next, b2n abort]
    match s.releaseFor args with
    | none => s.onMsg 0x31 (fun m => m.body == argBytes args) id
    | some L => s.onMsg 0x31 (·.says L.tree.launchId (argBytes args)) fun s =>
      if L.msg = 0x31 ∧ L.args = args then s.lack L
      else
        let s := (s.forward L.tree.launchId 0x31 args).lack L
        if L.passedBy || L.lfailed || !s.running L.region || (s.region L.region).series.isNone then s
        else if abort then s.barrierAborts L last else (s.straggler last).nextStepAt L.region next

/-- STEP_BARRIER_TIMEOUT: at node 0, FAB_BARCTL.TIMEOUT µs after the first arrival (R435). -/
def execStepBarrierTimeout (s : State) : Out :=
  .next <|
    let late (L : LaunchSt) : Bool :=
      L.node == 0 && !L.passedBy && (match L.firstArr with | some t => decide (t + 100 * s.fld F.fabBarctl_timeout 0 ≤ s.wall) | none => false)
    match s.fab.launches.find? late with
    | none => s
    | some L =>
      let missing := ((List.range L.tree.nodes.length).find? fun i => !L.arrivals.any fun a => a.1 == i).getD 0
      let s := s.forward L.tree.launchId 0x31 [missing, 0, 1]
      (s.modLaunch L.tree.launchId fun L => { L with arrivals := [], firstArr := none }).barrierAborts L missing

end Sys2Proof.Machine
end

