-- ==== Sys2Proof/Machine/Starts.lean ====
section
/-! DEFINITION. The starts and ends of invocations and steps (R87, R239, R242 to R245, R262 to R264, R463, R465). -/

namespace Sys2Proof.Machine

/-! ## Starts (R242 to R245) -/

/-- No copy of a swap is in progress, and the galleries and the plan of a region are ready, its install complete (R82, R534,
R579). -/
def State.mayBegin (s : State) (r : Nat) : Bool :=
  !s.held && s.sched % 2304 == 0 && !(s.region r).inInv && (s.region r).wake.isNone && (s.installed r).isSome
    && decide ((s.region r).instEnd ≤ s.cnt)
    && (match s.wts.swap with | some w => w.copyEnd.isNone | none => true)

/-- R243, R245: the pending start of a region takes t0 in this cycle. -/
def State.startDue (s : State) (r : Nat) : Bool :=
  match (s.region r).pend with
  | none => false
  | some p =>
    let parked := match s.park with
      | some k => (match k.t0 with | some t => decide (t ≤ s.cnt) && decide (p.since ≤ k.made) | none => false)
      | none => false
    match p.mode with
    | .here => parked || (s.anyInv && decide (p.since + 64 ≤ s.cnt))
    | .count => decide (p.count ≤ s.cnt) && (parked || p.go.isSome)
    | .barrier => match p.release with
      | some a => decide (a + 64 ≤ s.cnt) && (parked || s.anyInv)
      | none => false

/-- R432: the step barrier of a draft series with a TREE is released, and its NEXT has come. -/
def State.draftFree (s : State) (R : Region) : Bool :=
  match R.series with
  | some x => !x.tree || !R.begun || (!x.between && (match x.nextAt with | some c => decide (c ≤ s.cnt) | none => false))
  | none => false

/-- R463: the armed draft regions of a serving region begin their step at its t0, one with a TREE behind its own step barrier (R432). -/
def State.beginDrafts (s : State) (r : Nat) : State :=
  (List.range 8).foldl (fun s d =>
    let R := s.region d
    if (match s.regionRec d with | some x => x.role == 2 && x.draftOf == r | none => false) && R.running && R.armed && s.mayBegin d && s.draftFree R then
      (s.invBegin d).modRegion d fun q => { q with series := q.series.map fun x =>
        { x with step := x.step + b2n R.begun, endedAt := none, between := false, nextAt := none, arrived := false } }
    else s) s

/-- The step table of step `k` is complete on every engine that serves a region (R468). -/
def State.tableDone (s : State) (r k : Nat) : Bool := (s.enginesOf r).all fun e => decide (k < (s.eng e).tabStep)

/-- INVOCATION_START: t0 of a plan region's invocation or of a series' first step (R87, R242, R243, R245). -/
def execInvocationStart (region : Fin 8) (s : State) : Out :=
  .next <|
    let r := region.val
    if !s.mayBegin r || !s.startDue r || (s.region r).begun || (s.packsHere r && !s.tableDone r 0) then s
    else (s.invBegin r).beginDrafts r

/-- A launch at count whose start waits for the invocation that runs on a region, at c − 64 (R244, R427). -/
def State.queuedDue (s : State) (r : Nat) : Option LaunchSt :=
  s.fab.launches.find? fun L => L.region == r && L.queued && !L.lfailed && !L.arm && decide (L.count ≤ s.cnt + 64)

/-- R244: a launch at count fails: its start is cancelled, and the region is idle with its plan installed. -/
def State.countFails (s : State) (r : Nat) (L : Option LaunchSt) : State :=
  let s := s.event 0x0250 10 r []
  let st := leNat (s.freeBytes 2)
  match L with
  | some L => (s.freeStep 2).nodeFails L st
  | none => ((s.freeStep 2).runDone r st).regionDone r

/-- LAUNCH_COUNT_DECISION: at c − 64 a launch at count has its park, or starts without one in an unheld calendar origin
while another region is in an invocation, or fails (R244, R245); the status of a failure outside a job is not stated
(DESIGN CHOICE, notes/assumptions/20.md). -/
def execLaunchCountDecision (region : Fin 8) (s : State) : Out :=
  .next <|
    let r := region.val
    match (s.region r).pend with
    | none => match s.queuedDue r with | some L => s.countFails r (some L) | none => s
    | some p =>
      if p.mode ≠ .count ∨ p.go.isSome ∨ s.cnt + 64 < p.count then s
      else
        let parked := match s.park with | some k => decide (k.first + 64 ≤ p.count) | none => false
        if parked then s
        else if s.anyInv && decide (s.cnt ≤ p.count) && decide (p.since ≤ p.count) && !s.heldAt p.count && s.schedAt p.count % 2304 == 0 then
          s.modRegion r fun R => { R with pend := R.pend.map fun q => { q with go := some p.count } }
        else s.countFails r (s.launchOf r)

/-! ## Steps (R465) -/

/-- S: the step length of a region in schedule cycles (R465). -/
def State.stepLen (s : State) (r : Nat) : Nat := roundUp ((s.vit r).map (·.cycles) |>.getD 0) 2304

/-- R465: the earliest schedule cycle of the next step of a series without a TREE. -/
def State.nextStep (s : State) (r : Nat) : Option Nat :=
  match (s.region r).series with
  | some x =>
    match x.endedAt with
    | some e =>
      let tab := (s.enginesOf r).foldl (fun m k => max m ((s.eng k).tabAt)) 0
      some (roundUp (max (max ((s.region r).t0 + s.stepLen r) (e + 64)) (tab + 64)) 2304)
    | none => none
  | none => none

/-- R558: in twin mode a step of the region whose steps heartbeats number starts only when the partner's heartbeat of the step before
the last is held. -/
def State.twinReady (s : State) (r step : Nat) : Bool :=
  !s.twinCoupled || s.firstServing != some r || decide (step ≤ s.mir.hbStep + 1)

/-- R465, R433: the next step of a series takes t0 in this cycle. -/
def State.stepDue (s : State) (r : Nat) : Bool :=
  match (s.region r).series with
  | none => false
  | some x =>
    if x.tree then
      if x.late then (match x.nextAt with | some c => decide (c ≤ s.cnt) | none => false) else s.startDue r
    else (match s.nextStep r with | some t => decide (t ≤ s.sched) | none => false)
      && s.tableDone r (x.step + 1) && decide (s.wts.copyDone = 0 ∨ s.wts.copyDone + 64 ≤ s.cnt)

/-- R465, R506: step `k` overran its length by `n` cycles. -/
def State.overrun (s : State) (r k n : Nat) : State :=
  (s.enginesOf r).foldl (fun s e => (s.event 0x02A1 7 e [(8, k), (4, n)]).satAdd F.srvStat_overrun e 1) s

/-- STEP_START: t0 of the next step of a serving series, and of the drafts armed for it (R463, R465, R531, R558). -/
def execStepStart (region : Fin 8) (s : State) : Out :=
  .next <|
    let r := region.val
    match (s.region r).series with
    | none => s
    | some x =>
      if !(s.region r).begun || (s.region r).armed || x.stopReq || !s.mayBegin r || !s.stepDue r || !s.twinReady r (x.step + 1) then s
      else
        let s := if !x.tree && decide ((s.region r).t0 + s.stepLen r < s.sched) then s.overrun r x.step (s.sched - (s.region r).t0 - s.stepLen r) else s
        let s := (s.invBegin r).modRegion r fun R =>
          { R with series := R.series.map fun y =>
              { y with step := y.step + 1, endedAt := none, between := false, late := false, nextAt := none, arrived := false } }
        s.beginDrafts r

/-! ## The end of an invocation (R87, R239) -/

/-- R87: everything the tile issued has completed: writes, pipes, mesh packets and window accesses. -/
def State.tileDone (s : State) (y : Nat) (len : Nat) : Bool :=
  let T := (s.tile y).advance
  decide (len ≤ T.pc) && (List.range 4).all (fun l => !(mget T.lvls l {}).active) && T.outs.isEmpty
    && (T.bankq.all fun q => q.prio == 4) && decide (T.pipeEnd ≤ s.sched) && T.vrows.isEmpty && T.vruns.isEmpty && (T.vpend.all fun p => decide (p.2 < s.sched)) && T.accq.isEmpty && T.drains.isEmpty
    && decide (T.loadFree ≤ s.sched) && decide (T.streamFree ≤ s.sched) && decide (T.drainFree ≤ s.sched)
    && !T.stall
    && !(s.mpkts.any fun p => (if p.kind == .winReply then p.dst else p.src) == y && p.kind != .dma && p.kind != .edge && p.landed.isNone)

/-- PTC_RUNAn and PTC_RUNBn of an invocation that ends now (R239, R262, R263). -/
def State.runReport (s : State) (r : Nat) : State :=
  let R := s.region r
  let ts := (s.tilesOf r).map fun t => (64 * t.y + t.x, (s.tile (tIx t)).late)
  let late := ts.foldl (fun m t => max m t.2) 0
  let mx := min late (2 ^ 24 - 1)
  let worst := (ts.filter fun t => min t.2 (2 ^ 24 - 1) == mx).foldl (fun m t => min m t.1) 4095
  let len := s.sched + 1 - R.t0
  let s := (s.setFld F.ptcRuna_schedlen r (min len (2 ^ 32 - 1))).setFld F.ptcRuna_holdcyc r
    (min (s.cnt + 1 - R.t0c - len) (2 ^ 32 - 1))
  let s := ((s.setReg .ptcRunb r 0).setFld F.ptcRunb_maxlate r mx).setFld F.ptcRunb_latetiles r (ts.filter fun t => 0 < t.2).length
  let s := (s.setFld F.ptcRunb_worst r worst).setFld F.ptcRunb_lateissue r (min R.lateIssue 255)
  let s := ((s.setFld F.ptcRunb_loss r (b2n R.loss)).setFld F.ptcRunb_order r (b2n (decide (0 < R.lateIssue)))).setFld F.ptcRunb_exact r
    (b2n (decide (late = 0 ∧ R.lateIssue = 0)))
  let s := s.setFld F.ptcRunb_valid r 1
  let s := if 0 < R.lateIssue then s.setFld F.ptcRepro_lateissue 0 1 else s
  (s.tilesOf r).foldl (fun s t => s.setFld F.tilLate_last (tIx t) (min (s.tile (tIx t)).late (2 ^ 32 - 1))) s

/-- The report words of a region. -/
def State.runWords (s : State) (r : Nat) : Word × Word :=
  (BitVec.ofNat 64 (s.reg .ptcRuna r), BitVec.ofNat 64 (s.reg .ptcRunb r))

/-- The copy time of the next group of a swap (R534). -/
def State.copyTime (s : State) (us : List SwapUnit) : Nat :=
  ceilDiv (us.foldl (fun a u => a + u.bytes) 0) ((if s.fuses.grade then 36 else 48) * 64) + 4096

/-- The next group of the swap in progress. -/
def SwapSt.group (w : SwapSt) : List SwapUnit := (w.units.filter fun u => !u.done).take w.perStep

/-- R534: a launch at count is pending within the copy time plus 128 cycles: the boundary is passed over. -/
def State.swapPassed (s : State) (w : SwapSt) : Bool :=
  (List.range 8).any fun q => match (s.region q).pend with
    | some p => p.mode == .count && decide (p.count ≤ s.cnt + s.copyTime w.group + 128)
    | none => false

/-- R534: the boundary that ends a step of region `r` is one at which a group of the swap is to be copied. -/
def State.swapDue (s : State) (r : Nat) : Bool :=
  match s.wts.swap with
  | some w =>
    !w.group.isEmpty && s.firstServing == some r && !s.anyInv && w.copied != some (s.region r).t0 && !s.swapPassed w
      && (match (s.region r).series with | some x => x.endedAt.isSome | none => false)
  | none => false

/-- R465, R432: a series with a TREE arrives at its step barrier once its invocation has ended, on node 0 the next table is
complete, and no copy of a swap is due or in progress. -/
def State.tryArrive (s : State) (r : Nat) : State :=
  match (s.region r).series with
  | none => s
  | some x =>
    let copying := match s.wts.swap with | some w => w.copyEnd.isSome | none => false
    if x.tree && x.endedAt.isSome && !x.arrived && !copying && !s.swapDue r && !x.stopReq
        && (!s.packsHere r || s.tableDone r (x.step + 1)) then s.arrive r
    else s

/-- The invocation of a region has ended on its last tile; on a node whose steps node 0 packs, the pointers of the next step are sealed
now (R87, R239, R344, R432, R649; R531: DESIGN CHOICE, notes/assumptions/71.md). -/
def State.regionEnd (s : State) (r : Nat) : State :=
  let s := (s.runReport r).modRegion r fun R => { R with inInv := false, invNo := R.invNo + 1 }
  let s := { s with scanDue := true }
  let w := s.runWords r
  match (s.region r).series with
  | none =>
    (((s.lstatOver r).runDone r 0 (some w)).regionDone r).dequeue r
  | some x =>
    let s := (s.event 0x0251 10 r [(8, w.1.toNat), (8, w.2.toNat)]).modRegion r fun R =>
      { R with series := R.series.map fun y => { y with endedAt := some s.sched } }
    let s := if (s.regionRec r).map (·.role) == some 1 && !s.packsHere r then s.sealStep r (x.step + 1) else s
    if x.aborted || (x.stopReq && ((s.region r).armed || !s.packsHere r)) then s.seriesEnds r else s.tryArrive r

/-- INVOCATION_END: the invocation ends on a tile, and with its last tile on the region (R87, R239). -/
def execInvocationEnd (t : Xy) (s : State) : Out :=
  .next <|
    let y := tIx t
    let r := s.regionOf t
    if s.held || !(s.tile y).inInv || !s.tileDone y (s.textOf t).length then s
    else
      let s := s.modTile y fun T => { T.advance with inInv := false, waiting := false, invs := T.invs + 1 }
      if (s.tilesOf r).all fun u => !(s.tile (tIx u)).inInv then s.regionEnd r else s

end Sys2Proof.Machine
end

