-- ==== Sys2Proof/Machine/Serving.lean ====
section
/-! DEFINITION. The serving engines: configuration, admission, the serving commands, the catalogue, tenants and emissions
(R460 to R482, R485 to R491, R497 to R504). -/

namespace Sys2Proof.Machine

/-! ## SRV_CONFIG (R461, R464, R466) -/

/-- The configuration a block holds (R464). -/
def cfgOf (b : List Byte) : SrvCfg where
  region := leAt b 0x06 1
  vocab := leAt b 0x08 4
  pageBytes := leAt b 0x0C 4
  pageBase := leAt b 0x10 8
  pageCount := leAt b 0x18 4
  annexPages := leAt b 0x1C 4
  annexBase := leAt b 0x20 8
  workBase := leAt b 0x28 8
  workSize := leAt b 0x30 8
  maxPages := leAt b 0x38 2
  dma := leAt b 0x3A 2
  candDone := leAt b 0x3C 4
  stepBound := leAt b 0x40 4
  loadBound := leAt b 0x44 4
  migRate := leAt b 0x48 4
  stop := (List.range 8).map fun i => leAt b (0x50 + 4 * i) 4
  raw := b

/-- Two spans share no byte. -/
def apart (a b : Nat × Nat) : Bool :=
  a.2 == 0 || b.2 == 0 || decide (a.1 + a.2 ≤ b.1) || decide (b.1 + b.2 ≤ a.1)

/-- Every two spans of a list share no byte. -/
def allApart : List (Nat × Nat) → Bool
  | [] => true
  | a :: as => as.all (apart a) && allApart as

/-- W: the bound on an engine's boundary work, in plan cycles (R466, R549). -/
def State.workCycles (s : State) (r e : Nat) : Nat :=
  let v := s.vitOf r
  4096 + 64 * rowsOf v (s.own r e v.slots).2 (s.own r e v.prefills).2 + 4 * 8192
    + (if s.mode.mirror = 1 then ceilDiv (s.fld F.mirCtl_ackwait 0 * 4800) (stepDiv s.mode.step) else 0)

/-- R464: the block is accepted. -/
def State.cfgOk (s : State) (r : Nat) (b : List Byte) : Bool :=
  let c := cfgOf b
  let v := s.vitOf r
  let mib := 2 ^ 20
  let len := s.stepLen r
  let pool := (c.pageBase, c.pageBytes * c.pageCount)
  let annex := (c.annexBase, c.pageBytes * c.annexPages)
  let work := (c.workBase, c.workSize)
  let inGddr (a : Nat × Nat) : Bool := decide (a.1 + a.2 ≤ s.gddrSize)
  leAt b 0 4 == 0x43534B54 && leAt b 4 2 == 1 && c.region == r && leAt b 7 1 == 0 && leAt b 0x4C 4 == 0
    && leAt b 0x70 16 == 0 && bits c.dma 7 5 == 0 && bits c.dma 15 13 == 0
    && decide (2 ≤ c.vocab) && decide (c.vocab ≤ 262144)
    && c.pageBytes % mib == 0 && decide (0 < c.pageBytes) && c.pageBase % mib == 0 && c.workBase % mib == 0
    && decide (1 ≤ c.pageCount) && decide (c.pageCount ≤ 1048575) && decide (c.annexPages ≤ 1048575)
    && decide (1 ≤ c.maxPages) && decide (c.maxPages ≤ 1024) && decide (len ≤ c.stepBound) && decide (1 ≤ c.migRate)
    && inGddr pool && inGddr work
    && (c.annexPages == 0 || (decide (annexBase 0 ≤ c.annexBase) && s.mapped annex.1 annex.2))
    && allApart [pool, annex, work, s.planArea] && decide (c.workSum v ≤ c.workSize)
    && (s.enginesOf r).all fun e => decide (s.workCycles r e + 64 + c.candDone ≤ len)

/-- The accession entries of an engine that are in use. -/
def Engine.used (g : Engine) : SMap Req := g.reqs.filter fun q => q.2.state != 0

/-! ## Requests (R470 to R472) -/

/-- E: the largest context of a request (R479). -/
def Req.context (q : Req) : Nat := q.pfxC + q.promptLen + q.maxnew + q.depthReq

/-- A: the attention reservation (R479). -/
def Req.att (q : Req) : Nat := ceilDiv q.context 256

/-- V: the prefill vitrines a request needs (R479). -/
def Req.vitrines (q : Req) : Nat := ceilDiv (q.pfxC + q.promptLen - 256 * q.pfxF) 256

/-- G: the pages a request reserves (R479). -/
def Req.need (q : Req) : Nat := q.att - q.pfxF + (if q.pfxAnnex then q.pfxF else 0)

/-- The admitted requests of an engine with their accession indices. -/
def Engine.admitted (g : Engine) : SMap Req := g.reqs.filter fun q => decide (1 ≤ q.2.state) && decide (q.2.state ≤ 3)

/-- The attention admitted requests hold reserved. -/
def Engine.attRes (g : Engine) : Nat := g.admitted.foldl (fun a q => a + q.2.attRes) 0

/-- The pages reserved and not yet allocated. -/
def Engine.pageRes (g : Engine) : Nat := g.used.foldl (fun a q => a + q.2.pageRes) 0

/-- R472: the side bit of the module's own RIDs. -/
def State.sideBit (s : State) : Nat := if s.mode.mirror = 1 ∧ s.leader = false then 1 else 0

/-- R472: a RID. -/
def ridOf (gen e side idx : Nat) : BitVec 32 := BitVec.ofNat 32 (gen % 256 * 2 ^ 24 + e * 2 ^ 23 + side * 2 ^ 22 + idx)

/-- R472: the engine and the accession index a RID names, through the adoption map for a foreign one. -/
def State.findReq (s : State) (rid : BitVec 32) : Option (Nat × Nat) :=
  let n := rid.toNat
  let at_ := if bits n 22 22 = s.sideBit then some (bits n 23 23, bits n 12 0)
    else (s.mir.adoptMap.find? fun a => a.1 == rid).map fun a => a.2
  match at_ with
  | some (e, i) => let q := mget (s.eng e).reqs i {}; if q.state ≠ 0 ∧ q.rid = rid then some (e, i) else none
  | none => none

/-- An accession entry. -/
def State.accn (s : State) (e i : Nat) : Req := mget (s.eng e).reqs i {}

/-- An accession entry changed. -/
def State.modReq (s : State) (e i : Nat) (f : Req → Req) : State :=
  s.modEng e fun g => { g with reqs := mput g.reqs i (f (mget g.reqs i {})) }

/-! ## Pages (R485) -/

/-- The page numbers an engine may take from: its share of the GDDR7 pool, or of the annex pool (R460, R485). -/
def State.poolOf (s : State) (e : Nat) (annex : Bool) : Nat × Nat :=
  match (s.eng e).cfg with
  | some c => let o := s.own c.region e (if annex then c.annexPages else c.pageCount); (o.1 + (if annex then 2 ^ 31 else 0), o.2)
  | none => (0, 0)

/-- The number of free pages of a pool. -/
def State.freePages (s : State) (e : Nat) (annex : Bool) : Nat :=
  let p := s.poolOf e annex
  p.2 - ((s.eng e).pageCnt.filter fun q => decide (p.1 ≤ q.1) && decide (q.1 < p.1 + p.2)).length

/-- An element of a list of free places, which one the spec leaves open (notes/assumptions/22.md). -/
def pickOf (l : List Nat) : Option Nat := l[Config.pick l % l.length]?

/-- A free page of a pool is taken. -/
def State.takePage (s : State) (e : Nat) (annex : Bool) : State × Option Nat :=
  let p := s.poolOf e annex
  match pickOf (((List.range p.2).map (p.1 + ·)).filter fun k => mget (s.eng e).pageCnt k 0 == 0) with
  | some k => ((s.modEng e fun g => { g with pageCnt := mput g.pageCnt k 1 }).putCounts e [k], some k)
  | none => (s, none)

/-- `n` free pages are taken. -/
def State.takePages (s : State) (e : Nat) (annex : Bool) : Nat → State × List Nat
  | 0 => (s, [])
  | n + 1 =>
    match s.takePage e annex with
    | (s, some k) => let t := s.takePages e annex n; (t.1, k :: t.2)
    | (s, none) => (s, [])

/-- References to pages are dropped; a page at count 0 is free. -/
def State.dropPages (s : State) (e : Nat) (ps : List Nat) : State :=
  (s.modEng e fun g => { g with pageCnt := ps.foldl pageDown g.pageCnt }).putCounts e ps

/-- A page list as it lies in the work area: MAXPAGES places, those not used all ones (R485). -/
def SrvCfg.listBytes (c : SrvCfg) (ps : List Nat) : List Byte :=
  ((ps ++ List.replicate (c.maxPages - ps.length) 0xFFFFFFFF).take c.maxPages).flatMap (leBytes 4)

/-- The page list of an accession entry goes into the work area (R467, R485). -/
def State.putPageList (s : State) (e i : Nat) (ps : List Nat) : State :=
  match (s.eng e).cfg with
  | some c =>
    { s with ext := wrBytes s.ext (c.item (s.vitOf c.region) 6 + 4 * c.maxPages * (8192 * e + i)) (c.listBytes ps) }
  | none => s

/-- The page list and the tail of a catalogue entry go into the work area (R467, R485, R487). -/
def State.putCatalogue (s : State) (e : Nat) (x : CatEnt) : State :=
  match (s.eng e).cfg with
  | some c =>
    let v := s.vitOf c.region
    let m := wrBytes s.ext (c.item v 7 + 4 * c.maxPages * (65536 * e + x.no)) (c.listBytes x.pages)
    { s with ext := wrBytes m (c.item v 5 + 1024 * (65536 * e + x.no)) (x.tail.flatMap (leBytes 4)) }
  | none => s

/-- The repetition table of an accession entry goes into the work area: four bytes a token, its ID and above it its count, the token
emitted last first (R467, R494; the layout is open: DESIGN CHOICE, notes/assumptions/65.md). -/
def State.putReps (s : State) (e i : Nat) (reps : List (Nat × Nat)) : State :=
  match (s.eng e).cfg with
  | some c =>
    let a := c.item (s.vitOf c.region) 4 + 4096 * (8192 * e + i)
    { s with ext := wrBytes (memClear s.ext a 4096) a (reps.flatMap fun x => leBytes 3 x.1 ++ leBytes 1 x.2) }
  | none => s

/-- The bytes of a page copied to another. -/
def State.copyPage (s : State) (c : SrvCfg) (a b : Nat) : State :=
  { s with ext := wrBytes s.ext (c.page b) (rdBytes s.ext (c.page a) c.pageBytes) }

/-! ## The catalogue (R486 to R489) -/

/-- The catalogue entry with a key. -/
def Engine.entry (g : Engine) (tenant : Nat) (handle : BitVec 64) : Option CatEnt :=
  g.cat.find? fun c => c.tenant == tenant && c.handle == handle

/-- A status the spec does not state (notes/assumptions/20.md). -/
def State.freeStatus (s : State) (c : Cmd) (op : Nat) : State := (s.freeStep 2).complete c op (leNat (s.freeBytes 2))

/-- An entry leaves the catalogue with its references; a move under way ends with it. -/
def State.dropEntry (s : State) (e : Nat) (x : CatEnt) : State :=
  let s := (s.dropPages e x.pages).modEng e fun g =>
    { g with cat := g.cat.filter fun c => !(c.tenant == x.tenant && c.handle == x.handle) }
  match x.moving with
  | some (_, c, ps) => (s.dropPages e ps).freeStatus c 0x0106
  | none => s

/-- A request in use continues the entry (R486). -/
def Engine.uses (g : Engine) (x : CatEnt) : Bool :=
  g.used.any fun q => q.2.tenant == x.tenant && bits q.2.flags 0 0 == 1 && q.2.pfxAt == x.handle && q.2.pages.take x.full == x.pages

/-- The requests in use whose prefix is the entry, with its pages as it has them. -/
def Engine.users (g : Engine) (x : CatEnt) : SMap Req :=
  g.used.filter fun q => q.2.tenant == x.tenant && bits q.2.flags 0 0 == 1 && q.2.pfxAt == x.handle && q.2.pages.take x.full == x.pages

/-- The pages of an entry move to `ps`: they are copied, and named in their place in the entry and, in GDDR7, by the requests that
continue it; each reference moves with its holder, and a page that nothing else references is free; event 0x02A5 (R485, R488). -/
def State.moveEntry (s : State) (e : Nat) (x : CatEnt) (ps : List Nat) (annex : Bool) (moving : Option (Bool × Cmd × List Nat)) : State :=
  match (s.eng e).cfg with
  | none => s
  | some c =>
    let s := (x.pages.zip ps).foldl (fun s p => s.copyPage c p.1 p.2) s
    let users := if annex then [] else (s.eng e).users x
    let refs := List.range (1 + users.length)
    let s := s.modEng e fun g =>
      { g with
        pageCnt := refs.foldl (fun m _ => x.pages.foldl pageDown m) (ps.foldl (fun m p => mput m p refs.length) g.pageCnt)
        reqs := users.foldl (fun m q => mput m q.1 { q.2 with pages := ps ++ q.2.pages.drop x.full }) g.reqs
        cat := g.cat.map fun (y : CatEnt) =>
          if y.tenant = x.tenant ∧ y.handle = x.handle then { y with pages := ps, annex := annex, moving := moving } else y }
    let s := (s.putCounts e (x.pages ++ ps)).putCatalogue e { x with pages := ps }
    let s := users.foldl (fun s q => s.putPageList e q.1 (s.accn e q.1).pages) s
    s.event 0x02A5 7 e [(8, x.handle.toNat), (4, b2n annex)]

/-- CAT_DROP (R473, R489). -/
def execCatDrop (c : Cmd) (engine : BitVec 8) (tenant : BitVec 16) (handle : BitVec 64) (s : State) : Out :=
  .next <| s.runCmd c 0x0105 (operandsOf (.catDrop c engine tenant handle)) true fun s =>
    let e := engine.toNat
    let t := tenant.toNat
    if 1 < e ∨ 4095 < t then s.freeStatus c 0x0105
    else if !(mget (s.eng e).tens t {}).funcs.getLsbD c.fn then s.complete c 0x0105 0x006B
    else match (s.eng e).entry t handle with
      | none => s.complete c 0x0105 0x0066
      | some x => (s.dropEntry e x).complete c 0x0105 0

/-- CAT_MOVE: the pages of an entry are to be copied to the other tier (R488). -/
def execCatMove (c : Cmd) (engine : BitVec 8) (tenant : BitVec 16) (handle : BitVec 64) (tier : BitVec 8) (s : State) : Out :=
  .next <| s.runCmd c 0x0106 (operandsOf (.catMove c engine tenant handle tier)) true fun s =>
    let e := engine.toNat
    let t := tenant.toNat
    let annex := tier == 1
    if 1 < e ∨ 4095 < t ∨ 1 < tier.toNat then s.freeStatus c 0x0106
    else if !(mget (s.eng e).tens t {}).funcs.getLsbD c.fn then s.complete c 0x0106 0x006B
    else match (s.eng e).entry t handle with
      | none => s.complete c 0x0106 0x0066
      | some x =>
        if annex && (s.eng e).uses x then s.complete c 0x0106 0x006C
        else if x.moving.isSome then s.freeStatus c 0x0106
        else if x.annex == annex then s.complete c 0x0106 0
        else if s.freePages e annex < x.full + (if annex then 0 else (s.eng e).pageRes) then s.complete c 0x0106 0x0065
        else
          let t' := s.takePages e annex x.full
          t'.1.modEng e fun g =>
            { g with cat := g.cat.map fun (y : CatEnt) =>
                if y.tenant = t ∧ y.handle = handle then { y with moving := some (annex, c, t'.2) } else y }

/-- A granule that the controller or the annex device loses in a page being moved (R283, R288, R448). -/
def State.moveLost (s : State) (a : Nat) : State :=
  match annexPortOf a with
  | some p => s.annexPoison p a
  | none => s.granRecord false a .lost

/-- What the copy of a move leaves of the granules it lost: 64 bytes of 0xFF each (R283, R288). -/
def State.copyLost (s : State) (c : SrvCfg) (old new : List Nat) (lost : List (BitVec 64)) : State :=
  lost.foldl (fun s a =>
    match (old.zip new).find? fun p => decide (c.page p.1 ≤ a.toNat) && decide (a.toNat < c.page p.1 + c.pageBytes) with
    | some p => { s.moveLost a.toNat with ext := wrBytes (s.moveLost a.toNat).ext (c.page p.2 + (a.toNat - c.page p.1)) (List.replicate 64 0xFF) }
    | none => s) s

/-- CAT_MOVE_COMPLETE: the copy of a move has ended: the old pages lose the entry's references, the entry is in its tier (R488). -/
def execCatMoveComplete (engine : MoveEnd) (tenant : BitVec 16) (handle : BitVec 64) (s : State) : Out :=
  .next <|
    let e := engine.engine.val
    match (s.eng e).entry tenant.toNat handle with
    | some x =>
      match x.moving with
      | some (annex, c, ps) =>
        if x.annex = annex then
          ((s.dropPages e ps).modEng e fun g => { g with cat := g.cat.map fun (y : CatEnt) =>
            if y.tenant = x.tenant ∧ y.handle = x.handle then { y with moving := none } else y }).complete c 0x0106 0
        else
          let s := s.moveEntry e x ps annex none
          let s := match (s.eng e).cfg with | some g => s.copyLost g x.pages ps engine.lost | none => s
          s.complete c 0x0106 0
      | none => s
    | none => s

/-! ## Tenants (R490, R491) -/

/-- TENANT_SET (R490). -/
def execTenantSet (c : Cmd) (engine : BitVec 8) (tenant : BitVec 16) (limit : BitVec 32) (window : BitVec 16)
    (funcs : BitVec 16) (s : State) : Out :=
  .next <| s.runCmd c 0x0104 (operandsOf (.tenantSet c engine tenant limit window funcs)) false fun s =>
    if 1 < engine.toNat ∨ 4095 < tenant.toNat ∨ window = 0 then s.freeStatus c 0x0104
    else (s.modEng engine.toNat fun g =>
      { g with tens := mput g.tens tenant.toNat ({ balance := limit.toNat, limit := limit.toNat, window := window.toNat, funcs := funcs, last := s.wall / (100000 * window.toNat) }) }).complete c 0x0104 0

/-- A counter with the refill that has come due: it applies before any change of the same cycle (R490, R491). -/
def Tenant.due (t : Tenant) (wall : Nat) : Tenant :=
  let k := wall / (100000 * t.window)
  if t.window = 0 ∨ k ≤ t.last then t else { t with balance := t.limit, last := k }

/-- An update put in increasing accession index behind those of its index. -/
def insUp (a : Nat × Int) : List (Nat × Int) → List (Nat × Int)
  | [] => [a]
  | b :: bs => if a.1 < b.1 then a :: b :: bs else b :: insUp a bs

/-- R491: the update of a counter for an accession index, applied in that order among those of its cycle. -/
def Tenant.update (t : Tenant) (cnt i : Nat) (d : Int) : Tenant :=
  let same := t.upAt = cnt + 1
  let base := if same then t.base else t.balance
  let ups := insUp (i, d) (if same then t.ups else [])
  { t with balance := (ups.foldl (fun (b : Int) u => min (t.limit : Int) (b + u.2)) base).toNat, upAt := cnt + 1, base := base, ups := ups }

/-- The counter of a tenant (R490). -/
def State.tenant (s : State) (e n : Nat) : Tenant := (mget (s.eng e).tens n {}).due s.wall

/-- TENANT_REFILL: at a multiple of the window the balance is the limit (R490, R491). -/
def execTenantRefill (engine : Fin 2) (tenant : BitVec 12) (s : State) : Out :=
  .next <|
    if s.tenant engine tenant.toNat = mget (s.eng engine).tens tenant.toNat {} then s
    else s.modEng engine fun g => { g with tens := mput g.tens tenant.toNat (s.tenant engine tenant.toNat) }

/-! ## Admission (R479 to R481, R548, R549) -/

/-- The share less the reserve (R25, R479). -/
def State.avail (s : State) (n : Nat) : Nat := n - n * s.mode.reserve / 64

/-- A cap of SRV_CAP; 0 means none. -/
def capped (cap n : Nat) : Nat := if cap = 0 then n else min cap n

/-- A request in the prefill simulation: its first deadline, priority, admission order, ready time, next page and the
vitrines left. -/
structure SimReq where
  dl : Nat
  prio : Nat
  order : Nat
  ready : Nat
  q : Nat
  left : Nat
  deriving DecidableEq, Repr

/-- R480: by first deadline, then higher priority, then earlier admission. -/
def SimReq.before (a b : SimReq) : Bool :=
  decide (a.dl < b.dl) || (a.dl == b.dl && (decide (b.prio < a.prio) || (a.prio == b.prio && decide (a.order < b.order))))

/-- A request put in order. -/
def insSim (a : SimReq) : List SimReq → List SimReq
  | [] => [a]
  | b :: bs => if a.before b then a :: b :: bs else b :: insSim a bs

/-- A request's vitrines placed in page order while they fit, each costing one vitrine and Q + 1 attention: what is left of
both, the request, and whether one did not fit. -/
def placeV : Nat → Nat → Nat → SimReq → (Nat × Nat) × SimReq × Bool
  | 0, v, a, x => ((v, a), x, false)
  | n + 1, v, a, x =>
    if 1 ≤ v ∧ x.q + 1 ≤ a then placeV n (v - 1) (a - (x.q + 1)) { x with q := x.q + 1, left := x.left - 1 } else ((v, a), x, true)

/-- One step of the simulation over the requests in order; those that may not take part yet are skipped. -/
def simStep (may : SimReq → Bool) : Nat → Nat → List SimReq → List SimReq
  | _, _, [] => []
  | v, a, x :: xs =>
    if may x then
      let p := placeV x.left v a x
      if p.2.2 then p.2.1 :: xs else p.2.1 :: simStep may p.1.1 p.1.2 xs
    else x :: simStep may v a xs

/-- The simulation from step `j` on, at most `n` steps: every request's bound meets its first deadline. -/
def simulate (may : Nat → SimReq → Bool) (bound : Nat → Nat) (v a : Nat) : Nat → Nat → List SimReq → Bool
  | 0, _, xs => xs.isEmpty
  | n + 1, j, xs =>
    let ys := simStep (may j) v a xs
    if (ys.filter (·.left == 0)).all fun y => decide (bound (j + 1) ≤ y.dl) then
      let rest := ys.filter (·.left != 0)
      rest.isEmpty || simulate may bound v a n (j + 1) rest
    else false

/-- The vitrines of a request in the packed table of the step that has not begun. -/
def State.packedNext (s : State) (r e i : Nat) : Nat :=
  let k := match (s.region r).series with | some x => if (s.region r).begun then x.step + 1 else 0 | none => 0
  if k < (s.eng e).tabStep then ((s.eng e).pres.filter fun p => p.acc == i).length else 0

/-- R549: T_take, in ticks. -/
def State.tTake (s : State) (c : SrvCfg) : Nat := if s.mode.mirror = 1 then 5 * s.ticks c.stepBound else 0

/-- Check 8: the prefill simulation with the new request meets every first deadline (R480). -/
def State.simOk (s : State) (e : Nat) (c : SrvCfg) (q : Req) : Bool :=
  let g := s.eng e
  let r := c.region
  let v := s.vitOf r
  let R := s.region r
  let k := match R.series with | some x => if R.begun then x.step else 0 | none => 0
  let t0 := if R.begun then R.t0w else s.wall
  let floorT (n : Nat) : Nat := n * s.divider / 48
  let may (j : Nat) (x : SimReq) : Bool := decide (x.ready ≤ t0 + (j - 1 - k) * floorT (s.stepLen r) + floorT c.candDone)
  let bound (j : Nat) : Nat := t0 + (j - k) * s.ticks c.stepBound + s.tTake c
  let old := (g.admitted.filter fun p => p.2.firstWait).map fun p =>
    let n := p.2.prefilled - s.packedNext r e p.1
    (⟨p.2.deadline.getD 0, p.2.prio, p.2.order, if p.2.state = 1 then p.2.readyAt else 0, p.2.pfxF + n, p.2.vitrines - n⟩ : SimReq)
  let new : SimReq := ⟨q.deadline.getD 0, q.prio, g.admNo, q.readyAt, q.pfxF, q.vitrines⟩
  let all := (new :: old).foldl (fun l x => insSim x l) []
  let att := capped (s.fld F.srvCap_att e) (s.avail (s.own r e v.att).2) - (g.attRes + q.attRes)
  let work := all.foldl (fun a x => a + x.left) 0
  let wait := all.foldl (fun a x => max a ((x.ready - t0) / max 1 (floorT (s.stepLen r)))) 0
  (all.filter (·.left == 0)).all (fun x => decide (bound (k + 1) ≤ x.dl))
    && simulate may bound (s.avail (s.own r e v.prefills).2) att (work + wait + 3) (k + 1) (all.filter (·.left != 0))

/-- R548: the load an engine has committed: requests, attention, GDDR7 pages, the partner's mapped pages left out. -/
def State.committed (s : State) (e : Nat) : Nat × Nat × Nat :=
  let g := s.eng e
  let p := s.poolOf e false
  let used := (g.pageCnt.filter fun q => decide (p.1 ≤ q.1) && decide (q.1 < p.1 + p.2)).length
  (g.admitted.length, g.attRes, used - (s.mir.pageMap.filter fun m => m.2.2.1 == e).length + g.pageRes)

/-- R548: with the new load the committed load of both modules fits one engine's share; the partner's is that of its last record and
what the leader has granted since. -/
def State.pairFits (s : State) (e : Nat) (c : SrvCfg) (dec att pages : Nat) : Bool :=
  let v := s.vitOf c.region
  let own := s.committed e
  let granted := s.mir.grants.filter fun g => g.2.1 == e
  let sum (f : Nat × Nat × Nat × Nat × Nat → Nat) : Nat := granted.foldl (fun n g => n + f g) 0
  let load := (s.eng e).mirLoad
  let other := (load.1 + sum (·.2.2.1), load.2.1 + sum (·.2.2.2.1), load.2.2 + sum (·.2.2.2.2))
  decide (own.1 + other.1 + dec ≤ (s.own c.region e v.slots).2)
    && decide (own.2.1 + other.2.1 + att ≤ (s.own c.region e v.att).2)
    && decide (own.2.2 + other.2.2 + pages ≤ (s.poolOf e false).2)

/-- The status of checks 2 to 5 of R479 for a request on an engine; 0 when they pass. -/
def State.admitFirst (s : State) (e : Nat) (c : SrvCfg) (q : Req) (pair : Bool) : Nat :=
  let g := s.eng e
  let v := s.vitOf c.region
  let t := s.tenant e q.tenant
  let slots := capped (s.fld F.srvCap_dec e) (s.avail (s.own c.region e v.slots).2)
  let att := capped (s.fld F.srvCap_att e) (s.avail (s.own c.region e v.att).2)
  let prefixFull := (q.pages.take q.pfxF).any fun p => decide (65535 ≤ mget g.pageCnt p 0)
  if !t.funcs.getLsbD q.fn then 0x006B
  else if bits q.flags 0 0 = 1 ∧ (g.entry q.tenant q.pfxAt).isNone then 0x0066
  else if s.fld F.srvCtl_pause e = 1 ∨ g.fencedOut = true ∨ 8192 ≤ g.used.length then 0x0062
  else if c.maxPages < q.att ∨ slots < g.admitted.length + 1 ∨ att < g.attRes + q.att
      ∨ s.freePages e false < g.pageRes + q.need ∨ prefixFull = true
      ∨ (pair = true ∧ s.pairFits e c 1 q.att q.need = false) then 0x0065
  else 0

/-- The status of checks 2 to 8 of R479 for a request on an engine; 0 when it may be admitted. -/
def State.admitStatus (s : State) (e : Nat) (c : SrvCfg) (q : Req) (pair : Bool) : Nat :=
  let t := s.tenant e q.tenant
  let first := s.admitFirst e c q pair
  if first ≠ 0 then first
  else if t.balance < q.promptLen + q.maxnew then 0x0064
  else if q.gap ≠ 0 ∧ 100 * q.gap < s.ticks c.stepBound + s.tTake c then 0x0063
  else if s.simOk e c q then 0 else 0x0063

/-- R475: the ranges of a request block, the draft depth apart. -/
def blockOk (b : List Byte) : Bool :=
  let f (off : Nat) : Nat := leAt b off 4
  leAt b 0 2 == 1 && decide (leAt b 2 1 ≤ 3) && decide (leAt b 3 1 < 8) && decide (leAt b 4 2 ≤ 4095) && leAt b 7 1 == 0
    && decide (leAt b 8 2 ≤ 256) && leAt b 0x0A 2 == 0 && decide (f 0x0C < 0x7F800000)
    && decide (0 < f 0x10) && decide (f 0x10 ≤ 0x3F800000) && decide (0x3F800000 ≤ f 0x14) && decide (f 0x14 < 0x7F800000)
    && decide (f 0x18 < 0x7F800000) && decide (f 0x1C < 0x7F800000)
    && decide (1 ≤ f 0x38) && decide (f 0x38 ≤ 262144) && decide (1 ≤ f 0x3C) && decide (1 ≤ f 0x48)
    && allZero ((b.drop 0x50).take 0x30)

/-- The request a block asks for (R475). -/
def reqOf (c : Cmd) (region wall : Nat) (b : List Byte) : Req :=
  let f (off : Nat) : Nat := leAt b off 4
  { region := region, prio := leAt b 2 1, flags := leAt b 3 1, tenant := leAt b 4 2, fn := c.fn, tag := c.tag
    depthReq := leAt b 6 1, depth := leAt b 6 1, topk := leAt b 8 2
    temp := BitVec.ofNat 32 (f 0x0C), topp := BitVec.ofNat 32 (f 0x10), rep := BitVec.ofNat 32 (f 0x14)
    freq := BitVec.ofNat 32 (f 0x18), pres := BitVec.ofNat 32 (f 0x1C), seed := BitVec.ofNat 64 (leAt b 0x20 8)
    pfxAt := BitVec.ofNat 64 (leAt b 0x28 8), pub := BitVec.ofNat 64 (leAt b 0x30 8)
    promptLen := f 0x38, maxnew := f 0x3C, addr := leAt b 0x40 8
    deadline := some (wall + 100 * f 0x48), gap := f 0x4C }

/-- The prefix of a request as an engine's catalogue gives it. -/
def Engine.withPrefix (g : Engine) (q : Req) : Req :=
  if bits q.flags 0 0 = 1 then
    match g.entry q.tenant q.pfxAt with
    | some x => { q with pfxC := x.count, pfxF := x.full, pfxAnnex := x.annex, pages := x.pages, toks := x.tail, len := x.count }
    | none => q
  else q

/-- The engines of a region that hold its configuration (R461). -/
def State.served (s : State) (r : Nat) : List Nat :=
  (s.enginesOf r).filter fun e => match (s.eng e).cfg with | some c => c.region == r | none => false

/-- R476: the engine of a request. -/
def State.engineFor (s : State) (q : Req) : Option Nat :=
  match s.served q.region with
  | [] => none
  | [e] => some e
  | e :: e' :: _ =>
    match (if bits q.flags 0 0 = 1 then [e, e'].find? fun k => ((s.eng k).entry q.tenant q.pfxAt).isSome else none) with
    | some k => some k
    | none => if (s.eng e').used.length < (s.eng e).used.length then some e' else some e

/-- The request with what its engine adds: prefix, reservations, length and ready time (R479, R480). -/
def State.readied (s : State) (e : Nat) (c : SrvCfg) (q : Req) : Req :=
  let q := (s.eng e).withPrefix q
  let mig := if q.pfxAnnex then 100 * ceilDiv (q.pfxF * c.pageBytes) c.migRate else 0
  { q with attRes := q.att, pageRes := q.need, len := q.pfxC + q.promptLen, readyAt := s.wall + 100 * c.loadBound + mig }

/-- R481: the request is admitted at an accession index: LOADING, charged, with a reference on its prefix's pages. -/
def State.admitReq (s : State) (e i : Nat) (rid : BitVec 32) (q : Req) : State :=
  let s := s.modEng e fun g =>
    { g with
      reqs := mput g.reqs i { q with state := 1, rid := rid, order := g.admNo }
      gens := mput g.gens i ((bits rid.toNat 31 24 + 1) % 256)
      admNo := g.admNo + 1
      pageCnt := (q.pages.take q.pfxF).foldl pageUp g.pageCnt
      tens := mput g.tens q.tenant
        ((s.tenant e q.tenant).update s.cnt i (-(q.promptLen + q.maxnew : Nat))) }
  ((s.putCounts e (q.pages.take q.pfxF)).putPageList e i q.pages).putReps e i []

/-- The accession index and the RID a new request of an engine gets (R471, R472). -/
def State.newRid (s : State) (e : Nat) : Nat × BitVec 32 :=
  let g := s.eng e
  let i := (pickOf ((List.range 8192).filter fun i => (mget g.reqs i {}).state == 0)).getD 0
  (i, ridOf (mget g.gens i 0) e s.sideBit i)

/-- A refused submission is counted (R479). -/
def State.refuse (s : State) (c : Cmd) (e status : Nat) : State := (s.satAdd F.srvStat_refused e 1).complete c 0x0101 status

/-- Check 1 of R479, and R462: the status, or the engine, its configuration and the request ready for the other checks. -/
def State.submitPlace (s : State) (q : Req) (b : List Byte) : Except Nat (Nat × SrvCfg × Req) :=
  if !blockOk b then .error 0x0067
  else match s.engineFor q with
    | none => .error 0x0061
    | some e =>
      match (s.eng e).cfg with
      | none => .error 0x0061
      | some c =>
        if !s.packsHere q.region then .error 0x0061
        else if (s.vitOf q.region).depth < q.depthReq then .error 0x0067
        else .ok (e, c, s.readied e c q)

/-- The step of a serving region that runs, or 0. -/
def State.curStep (s : State) (r : Nat) : Nat := match (s.region r).series with | some x => x.step | none => 0

/-- R557: the serving region whose steps a twin command is timed by: its own where that runs, the lowest-numbered running one
otherwise. -/
def State.twinRegion (s : State) (t : TwinCmd) : Option Nat :=
  if (s.region t.region).series.isSome then some t.region else s.firstServing

/-- The items of a forwarded command (R557; layout in notes/assumptions/15.md). -/
def twinItems (t : TwinCmd) : List Nat :=
  [0x0003, t.kind, t.region, t.rid.toNat, t.wall, b2n t.fromPartner, t.verdict, t.applyStep, t.cmd.tag.toNat, t.cmd.fn,
    match t.prompt with | some p => p.length | none => 2 ^ 32] ++ t.prompt.getD []

/-- The body of a twin command; a LAUNCH carries its region (R557, R558; layout in notes/assumptions/15.md). -/
def twinBytes (t : TwinCmd) : List Byte :=
  if t.kind = 0x0004 then leBytes 2 4 ++ leBytes 1 t.region else argBytes (twinItems t) ++ t.block

/-- R557: a serving command is forwarded in twin mode: the leader gives it an apply step and tells its partner, the follower
sends it to the leader. -/
def State.twinForward (s : State) (t : TwinCmd) : State :=
  let t := if s.leader then { t with applyStep := s.curStep ((s.twinRegion t).getD 0) + 3 } else t
  let s := s.modMir fun m => { m with twins := m.twins ++ [t] }
  s.mirSend 0x50 (twinItems t) (twinBytes t)

/-- The requests of waiting twin commands admitted, for the checks at assignment (R557). -/
def State.twinAdmitted (s : State) : State :=
  s.mir.twins.foldl (fun s t =>
    if t.kind = 0x0101 ∧ t.verdict = 0 ∧ t.applyStep ≠ 0 then
      let q := reqOf t.cmd t.region t.wall t.block
      match s.submitPlace q t.block with
      | .ok (e, _, q) => s.admitReq e (bits t.rid.toNat 12 0) t.rid q
      | .error _ => s
    else s) s

/-- R557: the leader's verdict on a SUBMIT and the RID it assigns. -/
def State.twinVerdict (s : State) (t : TwinCmd) : TwinCmd :=
  let s := s.twinAdmitted
  match s.submitPlace (reqOf t.cmd t.region t.wall t.block) t.block with
  | .error st => { t with verdict := st }
  | .ok (e, c, q) =>
    let st := s.admitStatus e c q false
    if st = 0 then { t with verdict := 0, rid := (s.newRid e).2 } else { t with verdict := st }

/-- Serving commands go through the leader: a twin pair that is PAIRED (R557). -/
def State.twinPaired (s : State) : Bool := s.mode.mirror == 2 && s.pairState == 4

/-- SUBMIT (R473 to R481, R548, R557). -/
def execSubmit (c : Cmd) (region : BitVec 8) (addr : BitVec 64) (s : State) : Out :=
  .next <| s.runCmd c 0x0101 (operandsOf (.submit c region addr)) true fun s =>
    if !s.fwPass c.fn false addr.toNat 128 then s.complete c 0x0101 0x0013
    else
      let b := rdBytes s.hostMem addr.toNat 128
      let q := reqOf c region.toNat s.wall b
      if s.twinPaired then
        let toks := (List.range q.promptLen).map fun i => leNat (rdBytes s.hostMem (q.addr + 4 * i) 4)
        let prompt := if !blockOk b then some [] else if s.fwPass c.fn false q.addr (4 * q.promptLen) then some toks else none
        let t : TwinCmd := ⟨0x0101, c, region.toNat, 0, b, prompt, s.wall, false, 0, 0⟩
        s.twinForward (if s.leader then s.twinVerdict t else t)
      else match s.submitPlace q b with
        | .error st => s.refuse c ((s.engineFor q).getD 0) st
        | .ok (e, g, q) =>
          let shadow := s.mode.mirror = 1 ∧ s.pairState = 4
          let asks := shadow ∧ s.leader = false
          let st := if asks then s.admitFirst e g q false else s.admitStatus e g q (decide shadow)
          if st ≠ 0 then s.refuse c e st
          else if asks then
            let no := s.mir.queryNo
            let s := s.modMir fun m => { m with queryNo := no + 1, queries := m.queries ++ [⟨no, c, e, q⟩] }
            let items := [0x0001, e, q.region, 1, q.att, q.need, no]
            s.mirSend 0x50 items (argBytes items)
          else
            let n := s.newRid e
            (s.admitReq e n.1 n.2 q).complete c 0x0101 0 n.2.toNat

/-! ## Ends of requests (R471, R491, R499, R502 to R504) -/

/-- R491: a request ends: MAXNEW less the tokens emitted goes back to its tenant, up to the limit. -/
def State.endReq (s : State) (e i st : Nat) : State :=
  s.modEng e fun g =>
    let q := mget g.reqs i {}
    let t := s.tenant e q.tenant
    { g with
      reqs := mput g.reqs i { q with state := st }
      tens := mput g.tens q.tenant (t.update s.cnt i (q.maxnew - q.emitted : Nat)) }

/-- An emission of a request: for its function's output ring, or kept while the partner is the voice (R498, R557). -/
def State.emit (s : State) (e : Nat) (q : Req) (toks : List Nat) (final pubfail : Bool) (reason pos step : Nat) : State :=
  let m : Emission := ⟨q.fn, q.rid, false, final, pubfail, reason, pos, q.tag, toks, step, q.deadline, q.gap, q.region⟩
  let s := s.modEng e fun g =>
    { g with
      emisOut := g.emisOut ++ [m]
      doneNow := if final then g.doneNow.filter (fun d => d.2.2 == s.cnt) ++ [(q.rid, q.fn, s.cnt)] else g.doneNow }
  if q.silent then s.modMir fun x => { x with pendEmis := x.pendEmis ++ [m] }
  else s.modFunc q.fn fun f => { f with emis := f.emis ++ [m] }

/-- R502: a request ends in error. -/
def State.reqError (s : State) (e i cause : Nat) : State :=
  let q := s.accn e i
  let s := (s.endReq e i 4).emit e q [] true false 2 (q.len) (s.curStep q.region)
  s.eventTo q.fn 0x02A3 7 e [(4, q.rid.toNat), (4, cause)]

/-- R503: a request is cancelled: its live valid bits clear, the pages it alone holds are fenced. -/
def State.cancelReq (s : State) (e i : Nat) : State :=
  let s := (s.endReq e i 5).modReq e i fun q => { q with fenced := true }
  (s.modEng e fun g =>
    { g with
      slots := g.slots.map fun (x : SlotRec) => if x.acc = i then { x with live := false } else x
      pres := g.pres.map fun (x : PreRec) => if x.acc = i then { x with live := false } else x }).satAdd F.srvStat_cancels e 1

/-- The status a CANCEL of a RID gives, and its effect when it is 0; a request whose final emission the sampler has written in this
cycle is DONE (R503, R504). -/
def State.doCancel (s : State) (fn : Nat) (rid : BitVec 32) : State × Nat :=
  match s.findReq rid with
  | none =>
    match ((s.eng 0).doneNow ++ (s.eng 1).doneNow).find? fun d => d.1 == rid && d.2.2 == s.cnt with
    | some d => (s, if fn ≠ 0 ∧ d.2.1 ≠ fn then 0x0011 else 0x0069)
    | none => (s, 0x0068)
  | some (e, i) =>
    let q := s.accn e i
    if fn ≠ 0 ∧ q.fn ≠ fn then (s, 0x0011)
    else if q.state = 4 then (s, 0x0069)
    else if q.state = 5 then (s, 0)
    else (s.cancelReq e i, 0)

/-- CANCEL (R503, R504, R557). -/
def execCancel (c : Cmd) (rid : BitVec 32) (s : State) : Out :=
  .next <| s.runCmd c 0x0102 (operandsOf (.cancel c rid)) true fun s =>
    if s.twinPaired then
      let r := match s.findReq rid with | some (e, i) => (s.accn e i).region | none => (s.firstServing.getD 0)
      s.twinForward ⟨0x0102, c, r, rid, [], some [], s.wall, false, 0, 0⟩
    else let d := s.doCancel c.fn rid; d.1.complete c 0x0102 d.2

/-- VF_FLR: a function-level reset of a virtual function: its rings stop and return to reset, and its requests are cancelled as by
CANCEL; event 0x02A2 of each finds the event ring disabled and is counted as lost (R333, R348, R504, R506); commands of higher functions
wait for it no longer (R335). -/
def execVfFlr (fn : Nat) (s : State) : Out :=
  .next <|
    if fn = 0 ∨ 16 ≤ fn then s
    else
      let kinds : List RegKind := [.hstCmdring, .hstCplring, .hstEvring, .hstSbaddr, .hstRingstat, .hstEvstat, .hstIrqmod]
      let s := kinds.foldl (fun s k => { s with regs := mdel s.regs (regKey k fn) }) s
      let s := { s with fns := mdel s.fns fn }
      let s := [0, 1].foldl (fun s e => ((s.eng e).admitted.filter fun q => q.2.fn == fn).foldl (fun s q =>
        (s.cancelReq e q.1).eventTo fn 0x02A2 7 e [(4, q.2.rid.toNat)]) s) s
      s.answerAll fn

/-! ## The prompt fetch (R471, R481, R488, R502) -/

/-- The prompt of a request: as a partner fetched it, or read from host memory through the firewall. -/
def State.promptOf (s : State) (q : Req) : Option (List Nat) :=
  if q.noPrompt then none
  else match q.prompt with
  | some p => some p
  | none => if s.fwPass q.fn false q.addr (4 * q.promptLen)
      then some ((List.range q.promptLen).map fun i => leNat (rdBytes s.hostMem (q.addr + 4 * i) 4)) else none

/-- R488: the prefix pages of a request that lie in the annex move to GDDR7, with their entry where it still has them, on pages the
request reserved; pages that have left the annex meanwhile take none. -/
def State.migrate (s : State) (e i : Nat) : State :=
  let q := s.accn e i
  let mine := q.pages.take q.pfxF
  let done (s : State) : State := s.modReq e i fun q => { q with pageRes := q.pageRes - q.pfxF, pfxAnnex := false }
  if mine.all fun p => decide (p < 2 ^ 31) then done s
  else
    let t := s.takePages e false q.pfxF
    match (s.eng e).entry q.tenant q.pfxAt, (s.eng e).cfg with
    | some x, some c =>
      if x.annex && x.pages == mine then done (t.1.moveEntry e x t.2 false x.moving)
      else
        let s := (mine.zip t.2).foldl (fun s p => s.copyPage c p.1 p.2) t.1
        done ((s.dropPages e mine).modReq e i fun q => { q with pages := t.2 ++ q.pages.drop q.pfxF })
    | none, some c =>
      let s := (mine.zip t.2).foldl (fun s p => s.copyPage c p.1 p.2) t.1
      done ((s.dropPages e mine).modReq e i fun q => { q with pages := t.2 ++ q.pages.drop q.pfxF })
    | _, none => s

/-- What the module records of a prompt fetch or a page move that fails, and the cause the request's event gives: the causes of R320
(R283, R288, R502; DEDUCED, notes/assumptions/20.md). -/
def State.fetchErr (s : State) (x : FetchErr) : State × Nat :=
  match x with
  | .fetch n => (s, n)
  | .granule a => (s.granRecord false (a.toNat / 64 * 64) .lost, 4)
  | .poisoned a => (match annexPortOf a.toNat with | some p => s.annexPoison p (a.toNat / 64 * 64) | none => s, 5)
  | .timeout a => (match annexPortOf a.toNat with | some p => s.annexLate p a.toNat | none => s, 5)

/-- PROMPT_FETCH_COMPLETE: the prompt and the prefix pages of a LOADING request are in GDDR7, or its fetch fails; `error` is
the cause the module cannot find itself (R471, R488, R502). -/
def execPromptFetchComplete (rid : BitVec 32) (error : Option FetchErr) (s : State) : Out :=
  .next <|
    match s.findReq rid with
    | none => s
    | some (e, i) =>
      let q := s.accn e i
      if q.state ≠ 1 ∨ q.loaded = true then s
      else match error, s.promptOf q, (s.eng e).cfg with
        | some x, _, _ => (s.fetchErr x).1.reqError e i (s.fetchErr x).2
        | none, none, _ => s.reqError e i 2
        | none, some ts, some c =>
          if ts.any fun t => decide (c.vocab ≤ t) then (s.freeStep 4).reqError e i (leNat (s.freeBytes 4))
          else
            let s := s.modReq e i fun q => { q with toks := q.toks ++ ts, loaded := true }
            let s := if q.pfxAnnex then s.migrate e i else s
            s.putPageList e i (s.accn e i).pages
        | none, some _, none => s

/-! ## OUTRING and the depth in force (R474, R497) -/

/-- OUTRING (R473, R474, R498). -/
def execOutring (c : Cmd) (base : BitVec 64) (size : BitVec 8) (s : State) : Out :=
  .next <| s.runCmd c 0x0103 (operandsOf (.outring c base size)) true fun s =>
    if [0, 1].any fun e => (s.eng e).used.any fun q => q.2.fn == c.fn then s.complete c 0x0103 0x006D
    else if base.toNat % 4096 ≠ 0 ∨ 10 < size.toNat then s.freeStatus c 0x0103
    else (s.modFunc c.fn fun f =>
      { f with outBase := base, outSize := size.toNat, outOn := true, outIdx := 0, outPhase := true }).complete c 0x0103 0

/-- DEPTH_WRITE: a write of SRV_ACCSTATE.DEPTH for the entry SRV_ACCSEL selects; a boundary in the same cycle leaves what is
written (R19, R497, R515). -/
def execDepthWrite (by_ : Writer) (engine : Fin 2) (off : Nat) (val : BitVec 64) (s : State) : Out :=
  .next <| s.gated by_ off val.toNat fun s =>
    let e := engine.val
    let i := s.fld F.srvAccsel_index e
    let q := s.accn e i
    let d := bits val.toNat 45 42
    if q.depthReq < d then s.eventTo q.fn 0x02A6 7 e []
    else if q.state = 0 then s
    else s.modReq e i fun q => { q with depth := d, depthAt := some s.cnt }

/-! ## Emissions (R498, R500, R551, R553) -/

/-- The 64 bytes of an emission entry (R498). -/
def emisBytes (m : Emission) (phase : Bool) (time : Nat) : List Byte :=
  leBytes 4 m.rid.toNat ++ leBytes 1 (b2n phase + 2 * b2n m.late + 4 * b2n m.final + 8 * b2n m.pubfail) ++ leBytes 1 m.toks.length
    ++ leBytes 1 (if m.final then m.reason else 0) ++ [0] ++ leBytes 4 m.pos ++ leBytes 4 m.tag.toNat ++ leBytes 8 time
    ++ (m.toks.flatMap (leBytes 4)) ++ List.replicate (36 - 4 * m.toks.length) 0 ++ List.replicate 4 0

/-- The engine an emission comes from. -/
def State.emisEngine (s : State) (m : Emission) : Nat :=
  match s.findReq m.rid with | some (e, _) => e | none => bits m.rid.toNat 23 23

/-- R551: the emissions of a step wait for the partner's acknowledgement of its record. -/
def State.emisWaits (s : State) (m : Emission) : Bool :=
  s.mir.waitAck.any fun w => w.1 == s.emisEngine m && w.2.1 == m.step

/-- The body of a heartbeat (R553; layout in notes/assumptions/15.md). -/
def heartbeatBytes (h : Heartbeat) : List Byte := leBytes 8 h.step ++ leBytes 8 h.wall ++ h.digest

/-- R553: a heartbeat goes out on every UP mirror port. -/
def State.sendHeartbeat (s : State) (k : Nat) (dig : List Byte) : State :=
  let body := heartbeatBytes ⟨k, s.wall, if s.mode.mirror = 2 then dig else []⟩
  s.mirUp.foldl (fun s p =>
    (fragments 0x53 s.mode.partner s.ownId 0 body).foldl (fun s f => s.queueOn p f)
      (s.modFab fun f => { f with sent := f.sent ++ [⟨s.mode.partner, 0x53, 0, [k, s.wall, leNat dig]⟩] })) s

/-- R553: the heartbeats of steps, in order, each once the emissions of its region's step are written: as many as `n`. -/
def State.tryHeartbeats (s : State) : Nat → State
  | 0 => s
  | n + 1 =>
    match s.mir.hbPend with
    | [] => s
    | (r, k, dig) :: rest =>
      if s.fns.any fun f => f.2.emis.any fun m => m.region == r && decide (m.step ≤ k) then s
      else ((s.sendHeartbeat k dig).modMir fun m => { m with hbPend := rest, ownStep := k }).tryHeartbeats n

/-- R553: the heartbeats that are due go out. -/
def State.tryHeartbeat (s : State) : State := s.tryHeartbeats s.mir.hbPend.length

/-- R477, R500: the effect of writing an emission on its request and on those of the request that wait: the next deadline. -/
def State.emitted (s : State) (m : Emission) : State :=
  let next := if m.gap = 0 then none else some (s.wall + 100 * m.gap)
  let s := s.modFunc m.fn fun f =>
    { f with emis := f.emis.map fun (x : Emission) => if x.rid = m.rid then { x with deadline := next } else x }
  match s.findReq m.rid with
  | some (e, i) => s.modReq e i fun q => { q with deadline := next, late := q.late || m.late }
  | none => s

/-- The oldest emission of a function is written to its output ring, when it has room and the rings run (R351, R498, R500, R551). -/
def State.writeEmission (s : State) (fn : Nat) : State :=
  let f := s.func fn
  match f.emis with
  | [] => s
  | m :: rest =>
    let full := (f.outIdx + 1) % ringLen f.outSize == s.hostIdx fn 8
    if !f.outOn || full || s.ringStopped fn || s.emisWaits m then s
    else
      let late := match m.deadline with | some d => decide (d < s.wall) | none => false
      let m' := { m with late := late }
      let nx := ringNext (ringLen f.outSize) f.outIdx f.outPhase
      s.hostPut fn (f.outBase.toNat + 64 * f.outIdx) (emisBytes m' f.outPhase s.wall) fun s =>
        let e := s.emisEngine m
        let s := s.modFunc fn fun f => { f with emis := rest, outIdx := nx.1, outPhase := nx.2 }
        let s := if late then
            (s.satAdd F.srvStat_late e 1).eventTo fn 0x02A0 7 e [(4, m.rid.toNat), (4, s.wall - m.deadline.getD 0)]
          else s
        ((s.emitted m').putIndices fn).tryHeartbeat

/-- R498: the emissions of every function that can be written are, in order, before the step table that follows. -/
def State.writeEmissions (s : State) : State :=
  s.fns.foldl (fun s f => f.2.emis.foldl (fun s _ => s.writeEmission f.1) s) s

/-- EMISSION_WRITE: the oldest emission of a function that waited for room or for the partner is written (R351, R498, R500, R551). -/
def execEmissionWrite (fn : Nat) (s : State) : Out := .next (s.writeEmission fn)

end Sys2Proof.Machine
end

