-- ==== Sys2Proof/Machine/Clocks.lean ====
section
/-! DEFINITION. Clock steps, droop and the reference (R565 to R576, R584 to R586). -/

namespace Sys2Proof.Machine

/-! ## Step requests (R478, R569 to R571) -/

/-- Some engine holds an admitted request (R478). -/
def State.admittedAny (s : State) : Bool := [0, 1].any fun e => !(s.eng e).admitted.isEmpty

/-- The reason to refuse a step request; 0 for none (R569). -/
def State.stepReason (s : State) (target : Nat) : Nat :=
  if 4 < target ∨ bits (s.fld F.memStepok_ok 0) target target = 0 then 1
  else if s.img.isSome ∧ s.channels.any (fun ch => !calFeasible (s.fld F.memRef_window ch) target) then 2
  else if s.fld F.fabLstat_state 0 = 1 ∨ s.fld F.fabLstat_state 0 = 2 then 3
  else if s.clk.pendIo.isSome ∨ s.clk.chg.isSome then 4
  else 0

/-- The change begins: for a faster target VCORE rises first, and firmware asks for the boundary hold (R235, R570). -/
def State.beginStep (s : State) (io target : Nat) : State :=
  let s := if target < s.pwr.vcore then s.modPwr fun p => { p with vcore := target } else s
  { s with
    clk := { s.clk with chg := some { target := target, asked := s.cnt }, pendIo := none }
    boundaryAsk := s.boundaryAsk ++ [(7, 0x6000 + io, 12288, s.cnt)] }

/-- A CLK_STEPCMD write by firmware: TARGET, and with GO a request (R569, R585). -/
def State.stepCommand (s : State) (io v : Nat) : State :=
  let t := bits v 2 0
  let s := s.setFld F.clkStepcmd_target 0 t
  if bits v 31 31 = 0 then s
  else
    let why := s.stepReason t
    if why ≠ 0 then (s.setFld F.clkStepcmd_reason 0 why).event 0x02D4 8 0 [(1, why)]
    else if s.step_ < t ∧ s.admittedAny then
      ((s.setFld F.clkState_pendvalid 0 1).setFld F.clkState_pending 0 t).modClk fun k => { k with pendIo := some io }
    else s.beginStep io t

/-- STEP_REQUEST: a write of CLK_STEPCMD; a host's is discarded with event 0x0012 (R569). -/
def execStepRequest (by_ : Writer) (off : Nat) (val : BitVec 32) (s : State) : Out :=
  .next <| match by_ with
    | .firmware io => s.stepCommand (io % 2) val.toNat
    | .host fn => if fn = 0 ∧ s.ready then s.gateEvent off val.toNat else s

/-- PENDING_STEP_RELEASE: the deferred request proceeds once the engines are empty (R478, R569). -/
def execPendingStepRelease (s : State) : Out :=
  .next <| match s.clk.pendIo with
    | some io =>
      if s.admittedAny then s
      else (s.setFld F.clkState_pendvalid 0 0).beginStep io (s.fld F.clkState_pending 0)
    | none => s

/-- DIVIDER_SWITCH: after the first 2,048 cycles that the cause-7 request covers every divider switches; a slower step's VCORE
falls after the hold, and event 0x02D0 is recorded (R570, R571).  DEDUCED: the other three ways of R569 record only their own
events, notes/assumptions/11.md. -/
def execDividerSwitch (s : State) : Out :=
  .next <| match s.clk.chg with
    | some g =>
      match g.first with
      | some f =>
        if g.switched ∨ s.cnt < f + 2048 then s
        else
          let v := min s.pwr.vcore g.target
          let s := s.event 0x02D0 8 0 [(1, s.step_), (1, g.target)]
          ((s.setClockStep g.target).modPwr fun p => { p with vcore := v }).modClk fun k =>
            { k with chg := some { g with switched := true, was := s.step_ } }
      | none => s
    | none => s

/-! ## Droop (R572 to R574, R586) -/

/-- DROOP_TRIP: the root is stretched, and the sync exchange in progress is not usable (R572, R574). -/
def execDroopTrip (s : State) : Out :=
  .next <|
    if s.fld F.clkState_stretch 0 = 1 then s
    else (((s.setFld F.clkState_stretch 0 1).setFld F.clkState_catchup 0 0).satAdd F.clkDroop_events 0 1).modFab fun f =>
      { f with syncBad := true }

/-- STRETCH_END: a stretch of `n` tile cycles ends, and the root begins to recover its phase (R572, R574). -/
def execStretchEnd (n : Nat) (s : State) : Out :=
  .next <|
    if s.fld F.clkState_stretch 0 = 0 then s
    else
      let s := (s.setFld F.clkState_stretch 0 0).setFld F.clkState_catchup 0 1
      let s := (s.satAdd F.clkDroop_stretched 0 n).event 0x02D5 8 0 [(4, n)]
      s.modClk fun k => { k with debt := k.debt + 32 * stepDiv s.step_ * n }

/-- CATCHUP_END: the phase is recovered (R574). -/
def execCatchupEnd (s : State) : Out :=
  .next <| if s.fld F.clkState_catchup 0 = 1 ∧ s.clk.debt = 0 then s.setFld F.clkState_catchup 0 0 else s

/-! ## The reference (R575, R576) -/

/-- REFERENCE_LOSS: the PLL holds over, UNSYNC is set, and the next ARRIVE of a tree series says so (R575). -/
def execReferenceLoss (s : State) : Out :=
  .next <|
    if s.fld F.clkState_refok 0 = 0 then s
    else
      let s := (s.setFld F.clkState_refok 0 0).setFld F.clkState_holdover 0 1
      let s := ((s.modClk fun k => { k with refLost := true }).setUnsync).event 0x02D1 8 0 []
      if (List.range 8).any fun r => (match (s.region r).series with | some x => x.tree | none => false) then
        s.modFab fun f => { f with unsyncArr := true }
      else s

/-- REFERENCE_RETURN: the PLL relocks; UNSYNC clears only under R421, at once on a root (R576). -/
def execReferenceReturn (s : State) : Out :=
  .next <|
    if s.clk.refLost = false then s
    else
      let s := (s.setFld F.clkState_refok 0 1).setFld F.clkState_holdover 0 0
      let s := (s.modClk fun k => { k with refLost := false }).event 0x02D1 8 0 []
      if s.fld F.fabSyncctl_root 0 = 1 ∧ s.fld F.ptcState_unsync 0 = 1 then s.setUnsync else s

end Sys2Proof.Machine
end

