-- ==== Sys2Proof/Machine/Power.lean ====
section
/-! DEFINITION. The input and its rails, gating, thermal guards and throttle (R577 to R583, R587 to R592). -/

namespace Sys2Proof.Machine

/-! ## Throttle (R582) -/

/-- THROTTLE_HOLD: in the last cycle before a module boundary at least 64 cycles after LENGTH was set firmware requests LENGTH × 64
cycles of hold (R235, R582). -/
def execThrottleHold (s : State) : Out :=
  .next <|
    if s.anyInv || decide (s.cnt + 1 < s.pwr.thrAt + 64) || s.reqs.any fun q => q.cause == 8 && q.covers (s.cnt + 64) then s
    else s.request 8 0x6000 (64 * min 1023 (s.fld F.pwrCtl_length 0))

/-- POWER_CAP_CROSSING: the average input power, in units of 10 W, passes PWR_CTL.CAP (R582, R590). -/
def execPowerCapCrossing (power : BitVec 16) (s : State) : Out :=
  .next <|
    let p := power.toNat
    (s.modPwr fun w => { w with pin := p }).setThrottle

/-! ## The input (R577, R578, R635) -/

/-- The band of R578 an input voltage lies in, from below 46.0 V up. -/
def inputBand (v : Nat) : Nat := if v < 4600 then 0 else if v < 4800 then 1 else if v ≤ 5600 then 2 else if v ≤ 5800 then 3 else 4

/-- The input lies in the operating window. -/
def State.inWindow (s : State) : Bool := inputBand s.pwr.vin == 2

/-- The rails when all are up: VCORE of the present compute dies, and the others (R577, R594). -/
def State.railsOn (s : State) : Rails :=
  { vcore := BitVec.ofNat 8 (((List.range 8).filter fun d => !s.dieAbsent d).foldl (fun m d => m + 2 ^ d) 0)
    vsram := true, vioN := true, vioS := true, vphy := true, vmem := true, vmemq := true }

/-- Milug enables the power stage, and the rails come up at the voltage of P4: stage 2 of R594; where they do not the stage is off, and
Milug reports it. -/
def State.supplyOn (s : State) : State :=
  if s.pwr.defect then s.modMilug fun m => { m with supplyFail := true }
  else { s with
    milug := { s.milug with supplyFail := false }
    boot := { s.boot with stage := 2 }
    pwr := { s.pwr with stage := true, rails := s.railsOn, cut := false, vcore := 4, offOver := false, off := false, lowAt := none } }

/-- An event for each boundary crossed, while the module is powered, and Milug's alert (R578, R646). -/
def State.crossings (s : State) (n : Nat) : State :=
  if n = 0 then s
  else ((List.range n).foldl (fun s _ => if s.pwr.stage then s.event 0x02D8 8 0 [] else s) s).alert

/-- INPUT_BOUNDARY_CROSSING: the input voltage, in units of 10 mV, and current, in units of 0.1 A, pass to another band: above
58.0 V the power stage goes off (R578, R582, R645, R646). -/
def execInputBoundaryCrossing (vin iin : BitVec 16) (s : State) : Out :=
  .next <|
    let a := inputBand s.pwr.vin
    let b := inputBand vin.toNat
    let t := s.milug.time
    let s := s.crossings (max a b - min a b)
    let s := s.modPwr fun p =>
      { p with
        vin := vin.toNat, iin := iin.toNat, inputThr := b == 1
        window := if b = 2 then (if p.window.isSome then p.window else some t) else none
        lowAt := if b = 0 then (if p.lowAt.isSome then p.lowAt else some t) else none }
    if b = 4 ∧ s.pwr.stage then (s.mainOff 0).modPwr fun p => { p with offOver := true } else if s.pwr.stage then s.setThrottle else s

/-- INPUT_LOW_RESET: 100 µs below 46.0 V reset the module, from stage 2 on (R578, R597). -/
def execInputLowReset (s : State) : Out :=
  .next <| match s.pwr.lowAt with
    | some t =>
      if s.pwr.stage && decide (t + 10000 ≤ s.milug.time) then (s.mainOff 7).modPwr fun p => { p with lowAt := none } else s
    | none => s

/-- POWER_STAGE_RESTART: after 1 s within the window Milug restarts the power stage; after three restarts within 10 minutes it
stays off (R578). -/
def execPowerStageRestart (s : State) : Out :=
  .next <| match s.pwr.window with
    | some w =>
      let t := s.milug.time
      if !s.pwr.offOver || s.pwr.off || s.pwr.latched || s.boot.stage != 1 || decide (t < w + 100000000) then s
      else
        let late := s.pwr.restarts.filter fun r => decide (t < r + 60000000000)
        if 3 ≤ late.length then s.modPwr fun p => { p with latched := true }
        else (s.modPwr fun p => { p with restarts := late ++ [t] }).supplyOn
    | none => s

/-! ## Gating (R579, R580, R591, R592) -/

/-- A gate request for a gallery is accepted: no region that includes it runs or has a start pending (R579). -/
def State.gateOk (s : State) (g : Nat) : Bool :=
  let r := (s.galRec g).region
  !(s.running r || (s.region r).pend.isSome)

/-- A gallery is to be gated; BANK_GATE_EFFECT takes its power away (R322, R579). -/
def State.gateGallery (s : State) (g : Nat) : State :=
  (s.setFld F.galGate_gate g 1).modGal g fun v => { v with gatePend := v.awake, wake := none }

/-- A woken gallery: its scratchpads read zero, its full bits are clear, its registers with reset "image" are reloaded,
and its region has no plan installed (R579).  While the VCORE rails are removed none wakes (R583). -/
def State.wakeGallery (s : State) (g : Nat) : State :=
  if s.pwr.cut then s
  else
    let ys := (List.range 16).map fun k => tIx (tileAt g k)
    let s := ys.foldl (fun s y => s.modTile y fun T => { T with scratch := [], full := 0, fullAt := 0, ungate := [], gateReq := 0, hndw := [] }) s
    let s := s.reloadImage fun k i => match k with
      | .tilPadctl | .tilMxctl => ys.contains i
      | .tilHndb | .tilHndc => ys.contains (i / 64)
      | _ => false
    let r := (s.galRec g).region
    let s := if r < 8 then s.modRegion r fun R => { R with plan := none } else s
    ((s.modGal g fun v => { v with awake := true, gatePend := false, wake := none }).setFld F.galGate_awake g 1).setFld
      F.galGate_gate g 0

/-- What a write of GATE asks: 1 the gate; 0 withdraws a gate that has not taken effect, or wakes the gallery, which takes 16,384
cycles (R579, R591). -/
def State.writeGate (s : State) (g v : Nat) : State :=
  let old := s.fld F.galGate_gate g
  if v = old then s
  else if old = 0 then (if s.gateOk g then (s.gateGallery g).modified else s)
  else
    let at_ := s.cnt + 16384
    ((s.setFld F.galGate_gate g 0).modGal g fun x => { x with gatePend := false, wake := if x.awake then none else some at_ }).modified

/-- GAL_GATE_WRITE: a write of GATE, which prevails over what hardware does to it in the cycle (R19, R579, R591). -/
def execGalGateWrite (by_ : Writer) (g : Nat) (off : Nat) (val : BitVec 32) (s : State) : Out :=
  .next <|
    if 192 ≤ g then s
    else
      s.moduleWrite by_ ⟨.galGate, g⟩ off val.toNat fun s =>
        (s.writeGate g (bits val.toNat 0 0)).keepWrite { reg := ⟨.galGate, g⟩, val := bits val.toNat 0 0 }

/-- AUTO_GATE: with AUTO 1 firmware gates an unassigned gallery, and one of a region that has had no launch for IDLE ms
(R579). -/
def execAutoGate (g : Nat) (s : State) : Out :=
  .next <|
    let r := (s.galRec g).region
    let idle := r == 0xFF || decide ((s.region r).lastLaunch + 100000 * s.fld F.pwrCtl_idle 0 ≤ s.wall)
    if s.fld F.pwrCtl_auto 0 = 1 && s.galPresent g && s.img.isSome && (s.gal g).awake && !(s.gal g).gatePend && idle && s.gateOk g then
      s.gateGallery g
    else s

/-- A PTC_COUNT a wake waits for has come. -/
def reachedAt (w : Option Nat) (c : Nat) : Bool := match w with | some t => decide (t ≤ c) | none => false

/-- The galleries that no region has (R579). -/
def State.galsFree (s : State) : List Nat := (List.range 192).filter fun g => s.galPresent g && decide (8 ≤ (s.galRec g).region)

/-- GALLERY_WAKE_END: 16,384 cycles after a region's launch, or after a write of GAL_GATE, its galleries are usable, and with them the
unassigned ones whose wake has ended; a launch that waited for them installs its plan (R82, R579). -/
def execGalleryWakeEnd (region : Fin 8) (s : State) : Out :=
  .next <|
    let r := region.val
    let now := reachedAt (s.region r).wake s.cnt
    let s := (s.galsFree.filter fun g => !(s.gal g).awake && reachedAt (s.gal g).wake s.cnt).foldl State.wakeGallery s
    let s := ((s.galsOf r).filter fun g => !(s.gal g).awake && (now || reachedAt (s.gal g).wake s.cnt)).foldl State.wakeGallery s
    if now then
      let R := s.region r
      let s := match s.planOf R.launchPlan with
        | some p => s.install r p (match R.pend with | some k => k.lost | none => [])
        | none => s
      s.modRegion r fun R => { R with wake := none }
    else s

/-- The mode under which a physical address of a tile's scratchpad is hashed: that of the handle that covers it (R95, R96). -/
def State.modeAt (s : State) (y a : Nat) : Nat :=
  match ((List.range 64).map (s.hnd y)).find? fun h => h.valid && h.mode != 7 && decide (h.base ≤ a) && decide (a < h.base + h.size) with
  | some h => h.mode
  | none => 0

/-- TIL_BANKGATE_WRITE: banks are gated, or ungated, which takes 256 cycles (R580, R592). -/
def execTilBankgateWrite (by_ : Writer) (t : Xy) (off : Nat) (val : BitVec 32) (s : State) : Out :=
  .next <|
    let y := tIx t
    s.moduleWrite by_ ⟨.tilBankgate, y⟩ off val.toNat fun s =>
      if s.tileRuns y then s.imageBusy off
      else
        let old := BitVec.ofNat 32 (s.fld F.tilBankgate_gated y)
        let at_ := s.cnt + 256
        let s := s.modTile y fun T =>
          let freed := old &&& ~~~val &&& ~~~T.gateReq
          let asked := (val &&& ~~~old).toNat
          let fresh := (List.range 32).filter fun b => asked.testBit b && (mfind T.ungate b).isNone
          { T with
            gateReq := (T.gateReq &&& val) ||| BitVec.ofNat 32 (fresh.foldl (fun m b => m + 2 ^ b) 0)
            ungate := (List.range 32).foldl (fun m b => if freed.getLsbD b then mput m b at_ else m)
              (T.ungate.filter fun u => !val.getLsbD u.1) }
        s.setFld F.tilBankgate_gated y val.toNat

/-- BANK_UNGATE_READY: an ungated bank is usable; it reads zero, and the full bits of the slots with words in it are clear
(R580). -/
def execBankUngateReady (t : Xy) (bank : Fin 32) (s : State) : Out :=
  .next <|
    let y := tIx t
    match mfind (s.tile y).ungate bank.val with
    | none => s
    | some at_ =>
      if s.cnt < at_ then s
      else
        let inBank (a : Nat) : Bool := bankOf (s.modeAt y a) a == bank.val
        let slots := (List.range 4096).filter fun k => (List.range 16).any fun w => inBank (512 * k + 32 * w)
        s.modTile y fun T =>
          { T.setFull s.cnt (slots.foldl (fun f k => f &&& ~~~(1#4096 <<< k)) T.full) with
            ungate := mdel T.ungate bank.val
            scratch := T.scratch.filter fun c => !inBank c.1 }

/-! ## Thermal guards (R581 to R583, R587, R588) -/

/-- The threshold of a guard level (R587). -/
def State.threshold (s : State) (lvl : Nat) : Nat :=
  min 115 (if lvl = 1 then s.fld F.pwrThermctl_guard 0 else if lvl = 2 then s.fld F.pwrThermctl_throttle 0 else s.fld F.pwrThermctl_trip 0)

/-- The level whose threshold a temperature has reached. -/
def State.levelFor (s : State) (temp : Nat) : Nat :=
  if s.threshold 3 ≤ temp then 3 else if s.threshold 2 ≤ temp then 2 else if s.threshold 1 ≤ temp then 1 else 0

/-- R581: a guard goes down a level only once the sensor is 3 °C below the level's threshold. -/
def State.levelDown (s : State) (temp : Nat) : Nat → Nat
  | 0 => 0
  | l + 1 => if s.levelFor temp < l + 1 ∧ temp + 3 ≤ s.threshold (l + 1) then s.levelDown temp l else l + 1

/-- R502, R583: every serving request ends with a final emission of REASON 2. -/
def State.endAllReqs (s : State) : State :=
  [0, 1].foldl (fun s e => (s.eng e).admitted.foldl (fun s q =>
    (s.endReq e q.1 4).emit e q.2 [] true false 2 q.2.len (s.curStep q.2.region)) s) s

/-- R583: a region stops; what the LAUNCH of its run completes with is not stated (DESIGN CHOICE, notes/assumptions/20.md). -/
def State.tripRegion (s : State) (r : Nat) : State :=
  if s.running r ∨ (s.region r).pend.isSome then
    let s := s.stopRegion r
    (s.freeStep 2).runDone r (leNat (s.freeBytes 2))
  else s

/-- R583: the requests end, every region is idle and every gallery gated. -/
def State.tripTiles (s : State) : State :=
  let s := (List.range 8).foldl State.tripRegion s.endAllReqs
  (List.range 192).foldl (fun s g =>
    if s.galPresent g then
      ((s.setFld F.galGate_gate g 1).setFld F.galGate_awake g 0).modGal g fun v => { v with awake := false, gatePend := false, wake := none }
    else s) s

/-- R583: a thermal trip. -/
def State.trip (s : State) : State :=
  let s := s.abandon.tripTiles
  let s := (s.mirPorts).foldl (fun s p => (s.setFld F.lnkCtl_role p 0).roleChanged p) s
  let s := ((s.modClk fun k => { k with chg := none, pendIo := none }).setFld F.clkState_pendvalid 0 0).setClockStep 4
  ((s.modPwr fun p => { p with therm := true }).event 0x02D7 8 0 []).modFault 0x06

/-- THERMAL_LEVEL_CHANGE: a guard's hottest sensor reads `temp`, and the guard moves to the level that gives (R581 to R583,
R646). -/
def execThermalLevelChange (guard : Fin 10) (temp : BitVec 8) (s : State) : Out :=
  .next <|
    let g := guard.val
    let t := temp.toNat
    if g < 8 ∧ s.dieAbsent g then s
    else
      let old := mget s.pwr.levels g 0
      let s := s.modPwr fun p => { p with temps := mput p.temps g t }
      let new := max (s.levelFor t) (s.levelDown t old)
      if new = old then s
      else
        let s := (s.modPwr fun p => { p with levels := mput p.levels g new }).event 0x02D6 8 0 [(1, g), (1, new)]
        let s := (if 2 ≤ new then s.alert else s).setThrottle
        if new = 3 then s.trip else s

/-- GUARD_HOLD_TICK: a guard at GUARD or above requests a hold of 1,024 cycles, every 8,192 cycles (R234, R581, R588). -/
def execGuardHoldTick (guard : Fin 10) (s : State) : Out :=
  .next <|
    let g := guard.val
    let due := match mfind s.pwr.guardAt g with | some t => decide (t + 8192 ≤ s.cnt) | none => true
    if mget s.pwr.levels g 0 = 0 ∨ due = false then s
    else
      ((s.request 6 (0x5000 + g) 1024).modPwr fun p => { p with guardAt := mput p.guardAt g s.cnt }).satAdd F.pwrThermstat_guardholds 0 1

/-- OVERTEMP_RAIL_OFF: a sensor reaches 125 °C: the power stage removes every VCORE rail, with which what runs since the trip stops
(R583). -/
def execOvertempRailOff (s : State) : Out :=
  .next <|
    if s.pwr.stage then
      let s := if s.pwr.therm then s.tripTiles else s.trip
      s.modPwr fun p => { p with rails := { p.rails with vcore := 0 }, cut := true }
    else s

end Sys2Proof.Machine
end

