-- ==== Sys2Proof/Machine/Cycle.lean ====
section
/-! DEFINITION. The end of a tile clock cycle: the register writes that prevail (R19), and the counters (R213, R214, R509). -/

namespace Sys2Proof.Machine

/-- A register write of the cycle, once more at its end. -/
def State.writeAgain (s : State) (w : RegWr) : State :=
  match w.reg.kind with
  | .galGate => s.writeGate w.reg.idx w.val
  | .dmaSrc | .dmaDst | .dmaLen | .dmaNext => s.dmaWriteLast w
  | _ => s.rwWrite w.reg.kind w.reg.idx w.val

/-- R19: the writes of the cycle that ends prevail over what hardware changed in it; those of IO-S come after IO-N's (chapter 11). -/
def State.writesLast (s : State) : State :=
  ((s.written.filter fun w => !w.south) ++ s.written.filter (·.south)).foldl State.writeAgain { s with written := [] }

/-- One tile clock cycle ends: the writes of the cycle prevail (R19), PTC_COUNT advances, PTC_SCHED unless the module held in the
cycle, and SRV_WALL with the reference.  While the root clock does not run, 10 ns of Milug's time pass (DESIGN CHOICE, notes/assumptions/1.md). -/
def tick (s : State) : State :=
  let s := s.writesLast
  if s.clocked then
    let s := s.keepHeld.tickHold.dropPast.tickWall
    let s' := s.setReg .ptcCount 0 (s.cnt + 1)
    (if s.held then s' else s'.setReg .ptcSched 0 (s.sched + 1)).parkBegins
  else s.milugPass refLen

end Sys2Proof.Machine
end

