-- ==== Sys2Proof/Machine/Boot.lean ====
section
/-! DEFINITION. Power-up, the boot chain and the resets (R594 to R607, R613, R614, R618, R624 to R626). -/

namespace Sys2Proof.Machine

/-! ## Manifests (R603, R607) -/

/-- Bytes of a manifest as a number. -/
def manAt (b : List Byte) (at_ n : Nat) : Nat := leNat ((b.drop at_).take n)

/-- The part entries of a manifest: TYPE, OFFSET, LENGTH and SHA-256 (R607). -/
def manParts (b : List Byte) : List (Nat × Nat × Nat × List Byte) :=
  (List.range 5).map fun i =>
    let o := 0x80 + 64 * i
    (manAt b o 1, manAt b (o + 4) 4, manAt b (o + 8) 4, (b.drop (o + 32)).take 32)

/-- R607: a manifest is well formed. -/
def manOk (b : List Byte) : Bool :=
  let zero (at_ n : Nat) : Bool := ((b.drop at_).take n).all fun x => x == 0
  decide (16720 ≤ b.length) && decide (b.length ≤ 0x10000) && manAt b 0 4 == 0x4D554B54 && manAt b 4 2 == 1 && manAt b 6 1 == 5
    && decide (manAt b 7 1 ≤ 1) && decide (manAt b 8 1 ≤ 64) && decide (manAt b 9 1 ≤ 1) && decide (1 ≤ manAt b 0x0A 2)
    && decide (1 ≤ manAt b 0x0C 4) && decide (manAt b 0x0C 4 ≤ 1008) && zero 0x19 103
    && ((List.range 5).all fun i => zero (0x81 + 64 * i) 3 && zero (0x8C + 64 * i) 4 && zero (0x98 + 64 * i) 8)
    && ([1, 2, 3, 4, 5].all fun t => (manParts b).any fun p => p.1 == t)
    && ((manParts b).all fun p => decide (p.2.1 + p.2.2.1 ≤ 65536 * manAt b 0x0C 4))

/-- The fused security version (R599). -/
def Fuses.svn (f : Fuses) : Nat := ((List.range 64).filter fun i => f.arb.getLsbD i).length

/-- A key that verifies a manifest: not revoked, its SHA-256 in the fuses (R603). -/
def Fuses.keyOk (f : Fuses) (b : List Byte) : Bool :=
  let k := manAt b 7 1
  !f.keyrev.getLsbD k && leNat (sha256 ((b.drop 0x1C0).take 48)) == (if k = 0 then f.vkey0 else f.vkey1).toNat

/-- R603 apart from the part digests; `sigOk` says that the signature verifies. -/
def State.manPasses (s : State) (b : List Byte) (sigOk : Bool) : Bool :=
  manOk b && s.fuses.keyOk b && sigOk && decide (s.fuses.svn ≤ manAt b 8 1) && decide (manAt b 0x18 1 ≤ s.fuses.stepping)

/-- R603: every part's SHA-256 equals its manifest entry. -/
def FwSlot.partsOk (f : FwSlot) : Bool := (manParts f.manifest).all fun p => sha256 (rdBytes f.data p.2.1 p.2.2.1) == p.2.2.2

/-- The slot that ships, of which the model knows no bytes: its key is not revoked and its SVN is not below the fused one, and for
what R603 asks beside that `sigOk` decides (notes/assumptions/3.md). -/
def State.shippedPasses (s : State) (f : FwSlot) (sigOk : Bool) : Bool :=
  sigOk && !s.fuses.keyrev.getLsbD f.keyslot && decide (s.fuses.svn ≤ f.svn)

/-- R603: a slot passes verification. -/
def State.slotPasses (s : State) (f : FwSlot) (sigOk : Bool) : Bool :=
  if f.manifest.isEmpty then s.shippedPasses f sigOk else s.manPasses f.manifest sigOk && f.partsOk

/-- R604: Milug's own part passes against a slot's manifest: the part of TYPE 5. -/
def State.milugPasses (s : State) (f : FwSlot) (sigOk : Bool) : Bool :=
  if f.manifest.isEmpty then s.shippedPasses f sigOk
  else s.manPasses f.manifest sigOk &&
    (manParts f.manifest).all fun p => p.1 != 5 || sha256 (rdBytes f.data p.2.1 p.2.2.1) == p.2.2.2

/-! ## The choice of a slot (R602) -/

/-- R602: the slot the ROM chooses from the boot record, whether as a trial, and whether it falls back; the boot record is written. -/
def State.chooseSlot (s : State) : State × Option Nat × Bool × Bool :=
  let s := s.readRecord
  match s.boot.slotIn 3 with
  | some t =>
    if (s.boot.slot t).tried then ((s.modSlot t fun f => { f with state := 6 }).writeRecord, s.boot.slotIn 4, false, true)
    else ((s.modSlot t fun f => { f with tried := true }).writeRecord, some t, true, false)
  | none => (s, s.boot.slotIn 4, false, false)

/-- R602: the slot that boots: the one chosen if it passes, the other if it is ACTIVE or RETIRED and passes. -/
def bootSlot (b : Boot) (pass : Nat → Bool) (chosen : Option Nat) : Option Nat :=
  match chosen.bind fun c => if pass c then some c else none with
  | some c => some c
  | none => [0, 1].find? fun i => chosen != some i && ((b.slot i).state == 4 || (b.slot i).state == 5) && pass i

/-! ## Stages 1 and 2 (R594, R635, R636) -/

/-- R602, R604: the slot whose part Milug's ROM starts, by the same choice; the boot record it leaves to IO-N's ROM to write. -/
def State.milugSlot (s : State) (sigOk : Bool) : Option Nat :=
  let ch := s.chooseSlot
  bootSlot ch.1.boot (fun i => s.milugPasses (s.boot.slot i) sigOk) ch.2.1

/-- VSTBY_APPLY: the fuses are sensed and Milug starts; a mismatch is fault 0x01, and the main supply stays off; `milugOk` says
that the signature of the slot's manifest verifies (R594, R597, R602, R604, R620).  The model takes the hold-up store as full from then on (DESIGN CHOICE, notes/assumptions/30.md). -/
def execVstbyApply (senseMatch milugOk : Bool) (s : State) : Out :=
  .next <|
    if s.boot.vstby then s
    else
      let s := s.mainOff 0
      let own := s.milugSlot milugOk
      let s := (s.modBoot fun b => { b with vstby := true, holdup := true, stage := if senseMatch then 1 else 0 }).modMilug fun m =>
        { m with up := true, fw := own.isSome, slot := own.getD m.slot }
      if senseMatch then s else s.modFault 0x01

/-- SUPPLY_STAGE: with the input in its window Milug enables the power stage; where the rails do not come up the stage goes off again, and
Milug reports it (R577, R594). -/
def execSupplyStage (s : State) : Out :=
  .next <|
    if s.boot.stage = 1 && s.inWindow && !s.pwr.stage && !s.pwr.off && !s.pwr.offOver then s.supplyOn else s

/-! ## Stage 3: the boot chain (R602 to R605, R612 to R614) -/

/-- R613, steps 3 and 4: the fused SVN follows the slot's, and REVOKE_OTHER revokes the other vendor key. -/
def State.fuseSlot (s : State) (f : FwSlot) : State :=
  { s with fuses := { s.fuses with
      arb := s.fuses.arb ||| BitVec.ofNat 64 (2 ^ f.svn - 1)
      keyrev := if f.revoke then s.fuses.keyrev ||| BitVec.ofNat 2 (2 ^ (1 - f.keyslot)) else s.fuses.keyrev } }

/-- R618: the identity key: SK.seed, SK.prf and PK.seed from the device seed, and PK.root, which the model leaves free
(notes/assumptions/7.md). -/
def Fuses.idKey (f : Fuses) : IdKey :=
  let seed := leBytes 32 f.seed.toNat
  let sk := sha256 (seed ++ [1])
  { skSeed := sk.take 16, skPrf := sk.drop 16
    pub := (sha256 (seed ++ [2])).take 16 ++ (List.range 16).map fun i => Config.sigByte (2 * f.seed.toNat) i }

/-- R618, R626: the boot ROM derives the identity key, and SEC_IDPUBn shows its public key. -/
def State.deriveKey (s : State) : State :=
  let k := s.fuses.idKey
  (List.range 4).foldl (fun s i => s.setReg .secIdpub i (leNat ((k.pub.drop (8 * i)).take 8))) (s.modBoot fun b => { b with idKey := some k })

/-- SEC_POLICY, and the windows where the host may not set them, from the installed policy (R350, R617, R626). -/
def State.policyRegs (s : State) : State :=
  let b := s.boot.policy
  let fl := if s.fuses.ownset then manAt b 6 2 else 0
  let s := ((s.setFld F.secPolicy_seq 0 (manAt b 8 4)).setFld F.secPolicy_reqsign 0 (bits fl 0 0)).setFld F.secPolicy_lock 0
    (max (bits fl 1 1) (b2n s.fuses.ownlock))
  if b.isEmpty || s.fuses.hostset then s
  else (List.range 128).foldl (fun s i =>
    (s.rwWrite .hstFwbase i (manAt b (0x10 + 16 * i) 8)).rwWrite .hstFwlim i (manAt b (0x18 + 16 * i) 8)) s

/-- SEC_BOOTSTAT at a boot (R624). -/
def State.bootstat (s : State) (slot : Nat) (trial fallback : Bool) : State :=
  let f := s.boot.slot slot
  let s := (s.satAdd F.secBootstat_boots 0 1).setFld F.secBootstat_reset 0 s.boot.bootRes
  let s := (s.setFld F.secBootstat_stateb 0 s.boot.slotB.state).setFld F.secBootstat_statea 0 s.boot.slotA.state
  let s := ((s.setFld F.secBootstat_setfmt 0 f.setfmt).setFld F.secBootstat_setarea 0 f.area).setFld F.secBootstat_active 0 slot
  (s.setFld F.secBootstat_trial 0 (b2n trial)).setFld F.secBootstat_fallback 0 (b2n fallback)

/-- R612: the firmware on trial reads the settings area of the ACTIVE slot and writes it, in its own format, into the other, which the
boot record then names as its own. -/
def State.trialArea (s : State) (slot : Nat) : State :=
  match s.boot.slotIn 4 with
  | none => s
  | some a =>
    let old := (s.boot.slot a).area
    let from_ := s.boot.area old
    let fmt := (s.boot.slot slot).setfmt
    let mine : SetArea :=
      { fmt := fmt, sets := from_.sets, used := true
        settings := if from_.fmt = fmt then from_.settings else Config.convertSettings from_.fmt fmt from_.settings }
    ((s.modArea (1 - old) fun _ => mine).modSlot slot fun f => { f with area := 1 - old }).writeRecord

/-- Firmware starts from a slot: a trial takes the settings area the ACTIVE slot does not use, a confirmed slot has its fuses
completed, an ID held by Milug is written; the runtime trim sets are those of the slot's settings area, and firmware throttles where it
must (R291, R582, R602, R604, R612 to R614, R644). -/
def State.bootFrom (s : State) (slot : Nat) (trial fallback : Bool) : State :=
  let t := s.milug.time
  let s := if trial then s.trialArea slot
    else if (s.boot.slot slot).state = 4 then s.fuseSlot (s.boot.slot slot)
    else s
  let s := s.modBoot fun b =>
    { b with stage := 3, firmware := true, active := slot, trial := trial, stage4At := t, trialAt := if trial then t else b.trialAt
             faulted := false, hostConf := false }
  let s := if trial || fallback then s.modMilug fun m => { m with fw := true, slot := slot } else s
  let s := ((s.bootstat slot trial fallback).policyRegs.loadSets (s.boot.slot slot).area).setThrottle
  let s := match s.milug.heldId with
    | some i => (((s.setFld F.fabId_id 0 i.toNat).setFld F.fabId_valid 0 1)).modMilug fun m => { m with heldId := none }
    | none => s
  if fallback then s.event 0x02E1 8 0 [] else s

/-- CONTROLLER_STAGE: the boot ROM chooses and verifies a slot and starts its firmware, or enters recovery mode; the operands say
whether the signature of each slot verifies (R594, R602, R603, R605, R618). -/
def execControllerStage (passA passB : Bool) (s : State) : Out :=
  .next <|
    if s.boot.stage ≠ 2 ∨ s.boot.recovery then s
    else
      let ch := s.deriveKey.chooseSlot
      let s := ch.1
      let pass (i : Nat) : Bool := s.slotPasses (s.boot.slot i) (if i = 0 then passA else passB)
      match bootSlot s.boot pass ch.2.1 with
      | some i => s.bootFrom i (ch.2.2.1 && ch.2.1 == some i) ch.2.2.2
      | none =>
        ((s.modBoot fun b => { b with recovery := true }).bootstat ((ch.2.1).getD 0) false ch.2.2.2).policyRegs.modFault 0x02

/-! ## Stages 4 to 7 (R594) -/

/-- ROOT_CLOCK_LOCK: the root PLL locks to the reference at P4 (R565, R594). -/
def execRootClockLock (s : State) : Out :=
  .next <|
    if s.boot.stage = 3 then
      ((s.setFld F.clkState_refok 0 1).modBoot fun b => { b with stage := 4 }).modClk fun k => { k with phase := 0, refLost := false }
    else s

/-- REFERENCE_WAIT_TIMEOUT: 1 s into stage 4 without a reference: fault 0x07, and the wait goes on (R594, R620). -/
def execReferenceWaitTimeout (s : State) : Out :=
  .next <|
    if s.boot.stage = 3 ∧ s.boot.refFault = false ∧ s.boot.stage4At + 100000000 ≤ s.milug.time then
      (s.modBoot fun b => { b with refFault := true }).modFault 0x07
    else s

/-- The other end of a die's crossing (R114, R137): crossing 0 west, 1 east, 2 north-south; 3 leads to the I/O die. -/
def farCrossing (d k : Nat) : Nat × Nat :=
  if k = 0 then (d - 1, 1) else if k = 1 then (d + 1, 0) else if k = 2 then ((d + 4) % 8, 2) else (d, 3)

/-- DIE_STAGE: the crossings are trained, but for those the operand names by die and crossing (R115, R130, R137, R594). -/
def execDieStage (untrained : List (Nat × Nat)) (s : State) : Out :=
  .next <|
    if s.boot.stage ≠ 4 then s
    else
      let bad (d k : Nat) : Bool := untrained.contains (d, k) || untrained.contains (farCrossing d k)
      let exists_ (d k : Nat) : Bool := bits (s.fld F.dieXstat_absent d) k k == 0
      let dies := (List.range 8).filter fun d => !s.dieAbsent d
      let s' := dies.foldl (fun s d => s.setFld F.dieXstat_trained d
        (((List.range 4).filter fun k => exists_ d k && !bad d k).foldl (fun m k => m + 2 ^ k) 0)) s
      let lost := dies.flatMap fun d => ((List.range 4).filter fun k => exists_ d k && bad d k && (k == 1 || k == 3 || (k == 2 && d < 4))).map
        fun k => (d, k)
      (lost.foldl (fun s _ => s.event 0x02E6 8 0 []) s').modBoot fun b => { b with stage := 5 }

/-- A channel passes the self-test at a step. -/
def passesAt (pass : List (BitVec 48)) (p ch : Nat) : Bool := (pass.getD p 0).getLsbD ch

/-- SELF_TEST: the channels are trained and tested at P4, P3, P2, P1 and P0; bit c of element p of the operand says that channel c
passes at Pp, and has its set of that step by it.  A step is usable when every present channel passes; a failure at P4 is
fault 0x03 (R294, R301, R568, R594, R620). -/
def execSelfTest (pass : List (BitVec 48)) (s : State) : Out :=
  .next <|
    if s.boot.stage ≠ 5 then s
    else
      let ok := (List.range 5).filter fun p => s.channels.all (passesAt pass p)
      let s := (s.setFld F.memStepok_tested 0 31).setFld F.memStepok_ok 0 (ok.foldl (fun m p => m + 2 ^ p) 0)
      let no := s.nextId
      let s := s.channels.foldl (fun s ch => s.modChan ch fun c =>
        let sets := (List.range 5).foldl (fun m p => if passesAt pass p ch then mput m p ⟨c.bin, true, no + p⟩ else m) c.selfSets
        { c with selfSets := sets, inUse := mget sets s.step_ ⟨c.bin, true, 0⟩, useRun := false, useStep := s.step_ }) s
      let s := { s with nextId := no + 5 }.modBoot fun b => { b with stage := 6 }
      if ok.contains 4 then s else s.modFault 0x03

/-- MODULE_READY: the rings become usable, with event 0x02E0 (R594); a boot of a confirmed slot leaves its MEM_STEPOK.OK in the
boot record (R601; DEDUCED, notes/assumptions/31.md). -/
def execModuleReady (s : State) : Out :=
  .next <|
    if s.boot.stage ≠ 6 then s
    else
      let ok := s.fld F.memStepok_ok 0
      let s := (s.modBoot fun b => { b with stage := 7 }).event 0x02E0 8 0 [(1, s.boot.active), (1, s.boot.bootRes)]
      if s.boot.trial ∨ s.boot.okRec = ok then s else (s.modBoot fun b => { b with okRec := ok }).writeRecord

/-! ## Resets (R597, R598) -/

/-- The code of a reset's cause in SEC_BOOTSTAT.RESET (R624). -/
def causeCode : ResetCause → Nat
  | .perst => 1
  | .pfFlr => 2
  | .watchdog => 3
  | .activation => 4
  | .trialWindow => 5
  | .milug => 6
  | .ecc => 8

/-- WARM_RESET (R597, R614, R615). -/
def execWarmReset (cause : ResetCause) (s : State) : Out := .next <| s.warmReset (causeCode cause)

/-- A warm reset with a fault: the fault is recorded in what the reset leaves, so that it is seen once the rings are usable
(R598, R620; DEDUCED, notes/assumptions/32.md). -/
def State.faultReset (s : State) (cause code : Nat) : State := (s.warmReset cause).modFault code

/-- WATCHDOG_EXPIRY: a controller's firmware has not restarted its watchdog for 100 ms (R598). -/
def execWatchdogExpiry (_io : Fin 2) (s : State) : Out := .next <| if s.boot.firmware then s.faultReset 3 0x04 else s

/-- CONTROLLER_ECC_ERROR (R597, R598). -/
def execControllerEccError (_io : Fin 2) (s : State) : Out :=
  .next <| if s.boot.firmware || s.boot.recovery then s.faultReset 8 0x05 else s

end Sys2Proof.Machine
end

