-- ==== Sys2Proof/Machine/Sampler.lean ====
section
/-! DEFINITION. The sampler: penalties, order, top-p and draw, repetition tables, and the draft rows of a slot (R492 to R496). -/

namespace Sys2Proof.Machine

/-- FP32 division by a finite divisor that is not zero, rounded to nearest even (R192, R492). -/
def fdiv32 (a b : Nat) : Nat :=
  match fFP32.decode a, fFP32.decode b with
  | .inf s, .fin t _ _ => fFP32.inf (s != t)
  | .fin s m e, .fin t n f => if m = 0 then fFP32.sign (s != t) else roundQuot (s != t) m n (e - f)
  | _, _ => fFP32.nan

/-- FP32 subtraction. -/
def fsub32 (a b : Nat) : Nat := fFP32.add a (fFP32.negate b)

/-- An integer as FP32. -/
def fpOfNat (n : Nat) : Nat := fFP32.ofDy ⟨n, 0⟩ false

/-- A candidate: token and logit (R469). -/
abbrev Cand := Nat × Nat

/-- R492 1: a candidate the request has emitted is penalised; a NaN logit, one that the penalty gives too, is taken as −∞. -/
def penalised (q : Req) (reps : List (Nat × Nat)) (x : Cand) : Cand :=
  let l := match reps.find? fun r => r.1 == x.1 && r.2 != 0 with
    | none => x.2
    | some r =>
      let l := if fFP32.rel 4 x.2 0 then fdiv32 x.2 q.rep.toNat else fFP32.mul x.2 q.rep.toNat
      fsub32 (fsub32 l (fFP32.mul (fpOfNat r.2) q.freq.toNat)) q.pres.toNat
  (x.1, if fFP32.decode l = .nan then fFP32.inf true else l)

/-- R492 2: the higher logit first, ties to the lower token ID. -/
def candBefore (a b : Cand) : Bool := fFP32.rel 4 a.2 b.2 || (!fFP32.rel 4 b.2 a.2 && decide (a.1 < b.1))

/-- A candidate put in order. -/
def insCand (a : Cand) : List Cand → List Cand
  | [] => [a]
  | b :: bs => if candBefore a b then a :: b :: bs else b :: insCand a bs

/-- The running sums S of R492 4. -/
def runSums : Nat → List Nat → List Nat
  | _, [] => []
  | acc, x :: xs => let a := fFP32.add acc x; a :: runSums a xs

/-- u24 of R492: from the request's seed and the position. -/
def draw24 (seed : BitVec 64) (p : Nat) : Nat :=
  leNat ((sha256 (leBytes 8 seed.toNat ++ leBytes 4 p ++ [0, 0, 0, 0])).take 3)

/-- R492 3 to 6: the token from the ordered candidates kept; none where an operation gives NaN and no token follows. -/
def drawToken (q : Req) (p : Nat) (cs : List Cand) : Option Nat :=
  match cs with
  | [] => none
  | c0 :: _ =>
    if q.temp.toNat % 2 ^ 31 = 0 then some c0.1
    else
      let qs := cs.map fun c => (tab32 0 (BitVec.ofNat 32 (fdiv32 (fsub32 c.2 c0.2) q.temp.toNat))).toNat
      let ss := match qs with | [] => [] | x :: xs => x :: runSums x xs
      let top := fFP32.mul q.topp.toNat (ss.getLastD 0)
      match ss.find? fun x => fFP32.rel 5 x top with
      | none => none
      | some sm =>
        let y := fFP32.mul (fFP32.mul (fpOfNat (draw24 q.seed p)) 0x33800000) sm
        let m := (ss.takeWhile fun x => !fFP32.rel 5 x top).length + 1
        ((cs.zip ss).take m).find? (fun c => fFP32.rel 4 c.2 y) |>.map (·.1.1)

/-- The candidate list with a number in the work area of a region (R467, R469). -/
def State.candidates (s : State) (c : SrvCfg) (list : Nat) : List Cand :=
  let a := c.item (s.vitOf c.region) 3 + 8 * c.cand * list
  (List.range c.cand).map fun i => (leNat (rdBytes s.ext (a + 8 * i) 4), leNat (rdBytes s.ext (a + 8 * i + 4) 4))

/-- R492: the token at position `p` from a candidate list; a free value of the row and the settings alone where the rule leaves none
(R456; notes/assumptions/8.md). -/
def State.sample (s : State) (c : SrvCfg) (q : Req) (reps : List (Nat × Nat)) (p list : Nat) : Nat :=
  let cs := ((s.candidates c list).map (penalised q reps)).foldl (fun l x => insCand x l) []
  let k := min (if q.topk = 0 then 256 else q.topk) c.cand
  match drawToken q p (cs.take k) with
  | some t => t
  | none =>
    (Config.noToken ([q.temp.toNat, q.topp.toNat, q.seed.toNat, p] ++ (cs.take k).flatMap fun x => [x.1, x.2])).toNat

/-- R494: an emitted token is counted; the table keeps the 1,024 tokens emitted most recently. -/
def countToken (reps : List (Nat × Nat)) (t : Nat) : List (Nat × Nat) :=
  let n := ((reps.find? fun r => r.1 == t).map (·.2)).getD 0
  ((t, min (n + 1) 255) :: reps.filter fun r => r.1 != t).take 1024

/-- R495: the rows of a slot sampled in turn from row `i`, `n` rows at most: it stops after the row that differs from its
draft token. -/
def State.sampleRows (s : State) (c : SrvCfg) (q : Req) (slot pos d : Nat) : Nat → Nat → List (Nat × Nat) → List Nat
  | 0, _, _ => []
  | n + 1, i, reps =>
    let v := s.vitOf c.region
    let t := s.sample c q reps (pos + i) (slot * (v.depth + 1) + i)
    let g := leNat (rdBytes s.ext (c.item v 2 + 32 * slot + 4 * i) 4)
    if i < d ∧ t = g then t :: s.sampleRows c q slot pos d n (i + 1) (countToken reps t) else [t]

/-- R499: the tokens of an emission that are kept, and the reason when it is final. -/
def kept (q : Req) (stop : List Nat) (ts : List Nat) : List Nat × Option Nat :=
  let ts := ts.take (q.maxnew - q.emitted)
  let isStop (t : Nat) : Bool := bits q.flags 2 2 == 1 && t != 0xFFFFFFFF && stop.contains t
  let head := ts.takeWhile fun t => !isStop t
  if head.length < ts.length then (ts.take (head.length + 1), some 0)
  else if q.emitted + ts.length = q.maxnew then (ts, some 1) else (ts, none)

end Sys2Proof.Machine
end

