-- ==== Sys2Proof/Machine/Weights.lean ====
section
/-! DEFINITION. Broadcast loading, layer pointers, layered swaps and fences (chapter 14). -/

namespace Sys2Proof.Machine

/-! ## Broadcast trees (R521, R523, R529) -/

/-- The bytes lie in GDDR7 outside the plan area (R523, R530, R533). -/
def State.inGddr (s : State) (a n : Nat) : Bool := decide (a + n ≤ s.gddrSize) && s.inRegionSpace a n

/-- A CHANNEL byte names a channel of an I/O die (R520, R521): its die and its key. -/
def chanByteOk (c : Nat) : Bool := bits c 6 5 == 0
def chanByteDie (c : Nat) : Nat := bits c 7 7
def chanByteIx (c : Nat) : Nat := chIx ⟨8 + chanByteDie c, bits c 4 0⟩

/-- R521, R424: the descriptor at a GDDR7 address, with the LENGTH of its broadcast, when it is valid. -/
def State.bcTreeAt (s : State) (a length : Nat) : Option BTree :=
  if s.gddrSize < a + 64 then none
  else
    let h := rdBytes s.ext a 64
    let n := leAt h 6 2
    if leAt h 0 4 ≠ 0x54424B54 ∨ leAt h 4 2 ≠ 1 ∨ n = 0 ∨ 1024 < n ∨ !allZero (h.drop 16) ∨ s.gddrSize < a + 64 + 32 * n then none
    else
      let es := cut 32 (rdBytes s.ext (a + 64) (32 * n))
      let ns : List TreeNode := es.map fun e => ⟨leAt e 0 4, leAt e 4 2, leAt e 6 2, 0, 0, leAt e 8 8, leAt e 16 8, leAt e 24 1⟩
      if (es.all fun e => allZero (e.drop 25) && decide (leAt e 0 4 < 2 ^ 20)) && (ns.all fun e => chanByteOk e.chan) && nodesOk ns s.ownId
        then some ⟨BitVec.ofNat 64 (leAt h 8 8), length, ns⟩ else none

/-- The broadcast holds its I/O die: node 0 until its BCAST has completed, another node until its map is full or it stops
(R529). -/
def Bc.open_ (b : Bc) : Bool := !b.stopped && (b.node == 0 || decide (b.held.length < chunksOf b.tree))

/-- The broadcast with an identity on a die. -/
def State.bcById (s : State) (die : Nat) (id : BitVec 64) : Option Bc :=
  (mfind s.wts.bcs die).bind fun b => if b.tree.bcastId = id then some b else none

/-- The die on which this module is node 0 of a broadcast with an identity that has not completed. -/
def State.bcRoot (s : State) (id : BitVec 64) : Option (Nat × Bc) :=
  (s.wts.bcs.find? fun d => d.2.tree.bcastId == id && d.2.node == 0 && d.2.cmd.isSome)

/-- A broadcast begins on a die: DMA_BCSTAT opening (R542). -/
def State.bcOpens (s : State) (die : Nat) (b : Bc) : State :=
  let s := s.modWts fun w => { w with bcs := mput w.bcs die { b with opened := s.wall, since := s.wall, last := s.wall } }
  ((s.setReg .dmaBcstat die 0).setFld F.dmaBcstat_state die 1).setFld F.dmaBcstat_total die (chunksOf b.tree)

/-- R426, R523: the message in force goes to the primary children; the alternate children are awaited. -/
def State.bcForward (s : State) (die sub : Nat) : State :=
  match mfind s.wts.bcs die with
  | none => s
  | some b =>
    ((primaryOf ⟨0, 0, b.tree.nodes⟩ b.node).foldl (fun s i => s.bcSend b i sub []) s).modBc die fun b =>
      { b with msg := sub, since := s.wall, lacks := [], alts := [] }

/-- R426, R523: LACK for a broadcast goes to PARENT and ALT, once when they are one. -/
def State.bcLack (s : State) (b : Bc) : State :=
  let n := b.entry
  let tell (s : State) (i : Nat) : State :=
    s.sendArgs ((b.tree.nodes.map (·.module)).getD i 0) 0x21 b.tree.bcastId [b.node]
  let s := if n.parent < b.tree.nodes.length then tell s n.parent else s
  if n.alt < b.tree.nodes.length ∧ n.alt ≠ n.parent then tell s n.alt else s

/-- R523: node 0 holds READY from every node: the channel runs from SRC to the broadcast space. -/
def State.bcStart (s : State) (die : Nat) : State :=
  match mfind s.wts.bcs die with
  | none => s
  | some b =>
    let ix := chanByteIx b.chan
    let n := min b.tree.length bcDescMax
    let d : Desc := ⟨BitVec.ofNat 64 b.src, 0, BitVec.ofNat 32 n, BitVec.ofNat 32 (b.srcsp + 8 * 3), 0⟩
    let s := ((s.loadDesc ix d).dmaRun ix).modDma ix fun c => { c with cmd := none, desc := 0 }
    (s.setFld F.dmaBcstat_state die 2).modBc die fun b => { b with sending := true, left := b.tree.length - n }

/-- BCAST: node 0 checks, opens the broadcast and sends OPEN (R520 to R523, R529). -/
def execBcast (c : Cmd) (tree : BitVec 64) (src : BitVec 64) (length : BitVec 64) (srcsp : BitVec 8) (chan : BitVec 8)
    (s : State) : Out :=
  .next <| s.runCmd c 0x0200 (operandsOf (.bcast c tree src length srcsp chan)) false fun s =>
    let k := chan.toNat
    let die := chanByteDie k
    let len := length.toNat
    let first : Desc := ⟨src, 0, BitVec.ofNat 32 (min len bcDescMax), BitVec.ofNat 32 (srcsp.toNat + 8 * 3), 0⟩
    let busy := match mfind s.wts.bcs die with | some b => b.open_ | none => false
    let ix := chanByteIx k
    let bad := !chanByteOk k || decide (len = 0) || decide (2 ^ 40 < len) || decide (1 < srcsp.toNat)
    if bad || busy || s.dmaState ix == 1 || s.dmaState ix == 2 || s.descCheck ix first != 0 then s.complete c 0x0200 0x0080
    else match s.bcTreeAt tree.toNat len with
      | none => s.complete c 0x0200 0x0080
      | some t =>
        let b : Bc := { tree := t, node := 0, chan := k, cmd := some c, src := src.toNat, srcsp := srcsp.toNat, readys := [0] }
        let s := (s.bcOpens die b).bcForward die 0x10
        if t.nodes.length = 1 then s.bcStart die else s

/-- R523: a receiving node's checks of its own entry: its channel holds a GDDR7 grant, DEST and MAP lie in GDDR7 outside the
plan area; a node that only relays writes neither (DEDUCED, notes/assumptions/23.md). -/
def State.bcEntryOk (s : State) (t : BTree) (n : TreeNode) : Bool :=
  chanByteOk n.chan && !(s.grantsOf (chanByteIx n.chan) 1).isEmpty
    && (relayOnly n || (s.inGddr n.dest t.length && s.inGddr n.map (ceilDiv (chunksOf t) 8)))

/-- OPEN_RECEIVE (R523, R526, R529). -/
def execOpenReceive (b : BTree) (s : State) : Out :=
  .next <| s.onMsg 0x40 (·.says b.bcastId (bcBytes b 0x10 [])) fun s =>
    match s.nodeIn ⟨b.bcastId, 0, b.nodes⟩ with
    | none => s
    | some i =>
      let n := b.nodes.getD i ⟨0, 0, 0, 0, 0, 0, 0, 0⟩
      let die := chanByteDie n.chan
      if i = 0 ∨ b.length = 0 then s
      else match s.bcById die b.bcastId with
        | some d => s.bcLack d
        | none =>
          let new : Bc := { tree := b, node := i, chan := n.chan }
          let busy := match mfind s.wts.bcs die with | some d => d.open_ | none => false
          if busy then (s.bcLack new).bcSend new 0 0x13 [i]
          else
            let s := ((s.bcOpens die new).bcForward die 0x10).bcLack new
            if s.bcEntryOk b n then
              let s := if relayOnly n then s
                else { s with ext := wrBytes s.ext n.map (List.replicate (ceilDiv (chunksOf b) 8) 0) }
              s.bcSend new 0 0x11 [i]
            else (s.bcSend new 0 0x13 [i]).modBc die fun d => { d with stopped := true, failSent := true }

/-- BCAST_READY_RECEIVE: at node 0; with the last of them the stream begins (R523). -/
def execBcastReadyReceive (node : Nat) (id : BitVec 64) (s : State) : Out :=
  .next <| s.onMsg 0x40 (·.says id (bcBytes noTree 0x11 [node])) fun s => match s.bcRoot id with
    | none => s
    | some (die, b) =>
      if b.tree.nodes.length ≤ node ∨ b.readys.contains node ∨ b.sending then s
      else
        let s := s.modBc die fun b => { b with readys := b.readys ++ [node] }
        if b.readys.length + 1 = b.tree.nodes.length then s.bcStart die else s

/-! ## Chunks (R522, R524, R525) -/

/-- CHUNK_RECEIVE: every chunk goes on to the children at once; one that is neither held nor on its way to memory is to be written
through CHAN, or, at a node that only relays, is held (R524, R527). -/
def execChunkReceive (die : Fin 2) (id : BitVec 64) (j : Nat) (data : List Byte) (s : State) : Out :=
  .next <| s.onArrived (chunkHolds id j data) fun s => match s.bcById die id with
    | none => s
    | some b =>
      if b.node = 0 ∨ b.stopped ∨ chunksOf b.tree ≤ j ∨ data.length ≠ chunkBytesOf b.tree j then s
      else
        let s := b.children.foldl (fun s c => s.sendChunk die b c j data) s
        let s := (s.modBc die fun b => { b with last := s.wall, needed := false })
        let s := if s.fld F.dmaBcstat_state die = 1 then s.setFld F.dmaBcstat_state die 2 else s
        if b.has j then s
        else if relayOnly b.entry then s.bcHeld die j
        else s.modBc die fun b => { b with wpend := b.wpend ++ [(j, data, 0)] }

/-- BCAST_STALL: no chunk for DMA_BCCTL.STALL µs: NEED goes to the ALT, and after another silence BCFAIL to node 0 (R525). -/
def execBcastStall (die : Fin 2) (s : State) : Out :=
  .next <| match mfind s.wts.bcs die with
    | none => s
    | some b =>
      if b.node = 0 ∨ !b.open_ ∨ b.failSent ∨ s.wall < b.last + 100 * s.fld F.dmaBcctl_stall 0 then s
      else match (List.range (chunksOf b.tree)).find? fun j => !b.has j with
        | none => s
        | some j =>
          if b.needed then (s.bcSend b 0 0x13 [b.node]).modBc die fun b => { b with failSent := true }
          else
            ((s.bcSend b b.entry.alt 0x12 [b.node, j]).event 0x02B4 8 0 [(4, j)]).modBc die fun b =>
              { b with needed := true, last := s.wall }

/-- NEED_RECEIVE: the alternate is to read back through its CHAN, and send, the chunks it holds from `j` on, and adopts the node
(R525). -/
def execNeedReceive (die : Fin 2) (node : Nat) (id : BitVec 64) (j : Nat) (s : State) : Out :=
  .next <| s.onMsg 0x40 (·.says id (bcBytes noTree 0x12 [node, j])) fun s => match s.bcById die id with
    | none => s
    | some b =>
      if b.stopped ∨ node = 0 ∨ (b.tree.nodes.map (·.alt)).getD node 0xFFFF ≠ b.node then s
      else
        let mine := if relayOnly b.entry then [] else (List.range (chunksOf b.tree)).filter fun k => decide (j ≤ k) && b.held.contains k
        s.modBc die fun b =>
          { b with rpend := b.rpend ++ mine.map fun k => (node, k, [])
                   adopted := if b.children.contains node then b.adopted else b.adopted ++ [node] }

/-! ## The end of a broadcast (R527) -/

/-- R527: BCAST fails at node 0: status 0x0082, event 0x02B1, ABORT down the tree; its channel ends in IDLE (DEDUCED,
notes/assumptions/23.md). -/
def State.bcFails (s : State) (die : Nat) (b : Bc) (node : Nat) : State :=
  let s := match b.cmd with | some c => s.complete c 0x0200 0x0082 | none => s
  let s := ((s.event 0x02B1 8 0 [(4, node)]).bcForward die 0x15).setFld F.dmaBcstat_state die 4
  let ix := chanByteIx b.chan
  let s := if b.sending then ((s.dmaSettle ix).setFld F.dmaStat_state ix 0).setFld F.dmaStat_cause ix 0 else s
  s.modBc die fun b => { b with cmd := none, stopped := true, sending := false }

/-- BCFAIL_RECEIVE: at node 0 (R527). -/
def execBcfailReceive (node : Nat) (id : BitVec 64) (s : State) : Out :=
  .next <| s.onMsg 0x40 (·.says id (bcBytes noTree 0x13 [node])) fun s => match s.bcRoot id with
    | none => s
    | some (die, b) => s.bcFails die b node

/-- BCAST_DONE_RECEIVE: at node 0 (R527). -/
def execBcastDoneReceive (node : Nat) (id : BitVec 64) (s : State) : Out :=
  .next <| s.onMsg 0x40 (·.says id (bcBytes noTree 0x14 [node])) fun s => match s.bcRoot id with
    | none => s
    | some (die, _) => if node = 0 then s else s.bcNodeDone die node

/-- BCAST_TIMEOUT: DMA_BCCTL.TIMEOUT ms after OPEN without every DONE (R527). -/
def execBcastTimeout (die : Fin 2) (s : State) : Out :=
  .next <| match mfind s.wts.bcs die with
    | none => s
    | some b =>
      if b.node ≠ 0 ∨ b.cmd.isNone ∨ s.wall < b.opened + 100000 * s.fld F.dmaBcctl_timeout 0 then s
      else s.bcFails die b (((List.range b.tree.nodes.length).find? fun i => !b.dones.contains i).getD 0)

/-- BCAST_ABORT_RECEIVE: the node stops and keeps what it has; the message goes down the tree (R426, R527). -/
def execBcastAbortReceive (die : Fin 2) (id : BitVec 64) (s : State) : Out :=
  .next <| s.onMsg 0x40 (·.says id (bcBytes noTree 0x15 [])) fun s => match s.bcById die id with
    | none => s
    | some b =>
      if b.node = 0 then s
      else if b.msg = 0x15 then s.bcLack b
      else (((s.bcForward die 0x15).bcLack b).setFld F.dmaBcstat_state die 4).modBc die fun b => { b with stopped := true }

/-! ## Layer pointers (R530, R531) -/

/-- WTABLE (R530). -/
def execWtable (c : Cmd) (region : BitVec 8) (addr : BitVec 64) (s : State) : Out :=
  .next <| s.runCmd c 0x0201 (operandsOf (.wtable c region addr)) false fun s =>
    if (s.regionRec region.toNat).isNone ∨ addr.toNat % 4096 ≠ 0 then s.freeStatus c 0x0201
    else if !s.inGddr addr.toNat 4096 then s.complete c 0x0201 0x0081
    else (s.modWts fun w => { w with areas := mput w.areas region.toNat addr.toNat }).complete c 0x0201 0

/-- A layer that a swap in progress still holds (R533). -/
def State.swapHolds (s : State) (r layer : Nat) : Bool :=
  match s.wts.swap with
  | some w => w.units.any fun u => !u.done && u.region == r && u.layer == layer
  | none => false

/-- R530, R531, R533: the status of a WPTR, and its effect when it is 0: it waits for the next step whose buffer is not
sealed. -/
def State.takeWptr (s : State) (cmd : Option Cmd) (r first : Nat) (ptrs : List (BitVec 64)) : State × Nat :=
  if (mfind s.wts.areas r).isNone ∨ 256 < first + ptrs.length then (s, 0x0081)
  else if (List.range ptrs.length).any fun k => s.swapHolds r (first + k) then (s, 0x0085)
  else (s.modWts fun w => { w with wptrs := w.wptrs ++ [⟨cmd, r, 0, first, ptrs⟩] }, 0)

/-- 64-bit words of bytes. -/
def words64 (b : List Byte) : List (BitVec 64) := (cut 8 b).map fun w => BitVec.ofNat 64 (leNat w)

/-- WPTR (R520, R530, R531, R557). -/
def execWptr (c : Cmd) (region : BitVec 8) (first : BitVec 8) (count : BitVec 16) (addr : BitVec 64) (s : State) : Out :=
  .next <| s.runCmd c 0x0202 (operandsOf (.wptr c region first count addr)) false fun s =>
    let r := region.toNat
    let n := count.toNat
    if (mfind s.wts.areas r).isNone ∨ 256 < first.toNat + n then s.complete c 0x0202 0x0081
    else if n = 0 then s.freeStatus c 0x0202
    else if !s.fwPass 0 false addr.toNat (8 * n) then s.complete c 0x0202 0x0013
    else
      let b := rdBytes s.hostMem addr.toNat (8 * n)
      if s.twinPaired then s.twinForward ⟨0x0202, c, r, 0, leBytes 1 first.toNat ++ b, some [], s.wall, false, 0, 0⟩
      else
        let t := s.takeWptr (some c) r first.toNat (words64 b)
        if t.2 = 0 then t.1 else t.1.complete c 0x0202 t.2

/-! ## Layered swap (R532 to R536) -/

/-- A region's current pointer for a layer: in the buffer sealed last, buffer 0 before any is (R531, R532). -/
def State.curPtr (s : State) (r layer : Nat) : Nat :=
  match s.ptrBuf r (mget s.wts.sealed r 0 - 1) with
  | some a => leNat (rdBytes s.ext (a + 8 * layer) 8)
  | none => 0

/-- An entry of a swap list (R532). -/
def swapUnitOf (b : List Byte) : SwapUnit := { region := leAt b 0 1, layer := leAt b 1 1, bytes := leAt b 4 4, src := leAt b 8 8 }

/-- The groups of consecutive units. -/
def groupsOf (n : Nat) : Nat → List SwapUnit → List (List SwapUnit)
  | 0, _ => []
  | k + 1, us => if us.isEmpty then [] else us.take n :: groupsOf n k (us.drop n)

/-- The serving regions that run. -/
def State.servingRuns (s : State) : List Nat :=
  (List.range 8).filter fun q => s.running q && (match s.regionRec q with | some x => x.role == 1 | none => false)

/-- STEP_BOUND of a serving region. -/
def State.stepBound (s : State) (r : Nat) : Nat :=
  (s.served r).foldl (fun m e => max m (((s.eng e).cfg.map (·.stepBound)).getD 0)) 0

/-- SRV_SWAPn of the regions of a swap. -/
def State.swapRegs (s : State) (w : SwapSt) (st : Nat → Nat) : State :=
  (List.range 8).foldl (fun s r =>
    let mine := w.units.filter fun u => u.region == r
    if mine.isEmpty then s
    else ((s.setFld F.srvSwap_state r (st r)).setFld F.srvSwap_units r mine.length).setFld F.srvSwap_done r
      (mine.filter (·.done)).length) s

/-- Check 3 of R533: every unit's region has a pointer area, and its ranges lie in GDDR7 outside the plan area. -/
def State.swapLies (s : State) (us : List SwapUnit) : Bool :=
  us.all fun u => (mfind s.wts.areas u.region).isSome && s.inGddr u.src u.bytes && s.inGddr (s.curPtr u.region u.layer) u.bytes

/-- Checks 2 to 5 of R533 on a swap list, in order, and the swap's beginning when none fails. -/
def State.takeSwap (s : State) (cmd : Option Cmd) (perStep : Nat) (us : List SwapUnit) : State × Nat :=
  let chans := if s.fuses.grade then 36 else 48
  let fits (g : List SwapUnit) : Bool := s.servingRuns.all fun r => decide (s.copyTime g + s.stepLen r ≤ s.stepBound r)
  if s.wts.swap.isSome then (s, 0x0083)
  else if !s.swapLies us then (s, 0x0081)
  else if !us.all fun u => u.src % (chans * s.interleave) == s.curPtr u.region u.layer % (chans * s.interleave) then (s, 0x0084)
  else if !(groupsOf perStep us.length us).all fits then (s, 0x0084)
  else
    let w : SwapSt := ⟨cmd, us, perStep, none, none⟩
    ((s.modWts fun x => { x with swap := some w }).swapRegs w fun _ => 1, 0)

/-- SWAP (R532, R533, R557); the status of operands out of range, and of a list whose entries break their own layout, is not stated
where checks 1 to 3 pass (DESIGN CHOICE, notes/assumptions/20.md). -/
def execSwap (c : Cmd) (addr : BitVec 64) (units : BitVec 16) (perStep : BitVec 8) (s : State) : Out :=
  .next <| s.runCmd c 0x0203 (operandsOf (.swap c addr units perStep)) false fun s =>
    let n := units.toNat
    let p := perStep.toNat
    if s.mode.swap = 1 then s.complete c 0x0203 0x0086
    else if s.wts.swap.isSome then s.complete c 0x0203 0x0083
    else if !s.fwPass 0 false addr.toNat (16 * n) then s.complete c 0x0203 0x0013
    else
      let b := rdBytes s.hostMem addr.toNat (16 * n)
      let bad := decide (n = 0 ∨ 256 < n ∨ p = 0 ∨ 16 < p) || (cut 16 b).any fun e => leAt e 2 2 != 0 || leAt e 4 4 % 64 != 0
      if bad then (if s.swapLies ((cut 16 b).map swapUnitOf) then s.freeStatus c 0x0203 else s.complete c 0x0203 0x0081)
      else if s.twinPaired then
        s.twinForward ⟨0x0203, c, s.firstServing.getD 0, 0, leBytes 1 p ++ b, some [], s.wall, false, 0, 0⟩
      else
        let t := s.takeSwap (some c) p ((cut 16 b).map swapUnitOf)
        if t.2 = 0 then t.1 else t.1.complete c 0x0203 t.2

/-- SWAP_COPY: at a swap boundary the copy of the next group begins (R534). -/
def execSwapCopy (s : State) : Out :=
  .next <| match s.wts.swap with
    | none => s
    | some w =>
      let due := match s.firstServing with | some r => s.swapDue r | none => !s.anyInv && !w.group.isEmpty && !s.swapPassed w
      if w.copyEnd.isSome ∨ !due then s
      else
        let at_ := s.firstServing.map fun r => (s.region r).t0
        let group := w.group
        let w' := { w with copied := at_, copyEnd := some (s.cnt + s.copyTime group) }
        (s.modWts fun x => { x with swap := some w' }).swapRegs w' fun r => if group.any fun u => u.region == r then 2 else 1

/-- The granules of a range of GDDR7 each take a transfer of their channel (R251). -/
def State.rangeBusy (s : State) (a n : Nat) : State :=
  (List.range (ceilDiv (a % 64 + n) 64)).foldl (fun s k => s.granBusy (a / 64 * 64 + 64 * k)) s

/-- A unit is copied over the region's current pointer, with event 0x02B3 (R532, R535); its granules are read and written on their
channels (R251). -/
def State.copyUnit (s : State) (u : SwapUnit) : State :=
  let s := (s.rangeBusy u.src u.bytes).rangeBusy (s.curPtr u.region u.layer) u.bytes
  { s with ext := wrBytes s.ext (s.curPtr u.region u.layer) (rdBytes s.ext u.src u.bytes) }.event 0x02B3 8 0 [(4, u.region), (4, u.layer)]

/-- The first `n` units not yet done are done. -/
def markDone : Nat → List SwapUnit → List SwapUnit
  | _, [] => []
  | 0, us => us
  | n + 1, u :: us => if u.done then u :: markDone (n + 1) us else { u with done := true } :: markDone n us

/-- SWAP_COPY_END: the group is in place; the swap ends with its last unit (R534, R535).  The bytes change at the end of the
copy (DESIGN CHOICE, notes/assumptions/24.md). -/
def execSwapCopyEnd (s : State) : Out :=
  .next <| match s.wts.swap with
    | none => s
    | some w =>
      match w.copyEnd with
      | none => s
      | some t =>
        if s.cnt < t then s
        else
          let s := w.group.foldl (fun s u => s.copyUnit u) s
          let w' := { w with copyEnd := none, units := markDone w.group.length w.units }
          let ended := w'.group.isEmpty
          let s := (s.modWts fun x => { x with swap := if ended then none else some w', copyDone := s.cnt }).swapRegs w' fun _ =>
            if ended then 0 else 1
          let s := match ended, w.cmd with | true, some c => s.complete c 0x0203 0 | _, _ => s
          (List.range 8).foldl (fun s r => s.tryArrive r) s

/-! ## Fences (R538, R539, R556, R557) -/

/-- The requests of a region that this module holds: engine, accession index and request. -/
def State.liveOf (s : State) (r : Nat) : List (Nat × Nat × Req) :=
  (s.served r).flatMap fun e => (s.eng e).admitted.map fun q => (e, q.1, q.2)

/-- R556: the step H of a handover, which the leader names: its current step plus 2. -/
def State.handStep (s : State) (r : Nat) : Nat := s.curStep r + 2

/-- The items of HANDOVER (R547, R556; layout in notes/assumptions/15.md). -/
def handItems (h : Nat) (rids : List (BitVec 32)) : List Nat := [0x0005, h, rids.length] ++ rids.map (·.toNat)

/-- Before the RIDs of a fence or an activation; no RID has this value (layout in notes/assumptions/15.md). -/
def fenceMark : BitVec 32 := 0xFFFFFFFF

/-- The step of a HANDOVER by which the follower asks the leader for H (layout in notes/assumptions/15.md). -/
def askStep : Nat := 0

/-- HANDOVER goes to the partner: the requests that change hands at step H. -/
def State.sendHandover (s : State) (h : Nat) (rids : List (BitVec 32)) : State :=
  s.mirSend 0x50 (handItems h rids) (argBytes (handItems h rids))

/-- R538, R556, R611: the requests are named that go to the partner for a fence or an activation, at a step the leader names. -/
def State.nameRids (s : State) (h : Nat) (rids : List (BitVec 32)) : State :=
  (s.sendHandover h (fenceMark :: rids)).modMir fun m => { m with handover := some h, giveRids := rids, giving := true }

/-- R556: a handover of this module's for a fence or an activation begins: the leader names H, the follower asks for it. -/
def State.beginHand (s : State) (r : Nat) (rids : List (BitVec 32)) : State :=
  if s.leader then s.nameRids (s.handStep r) rids
  else (s.sendHandover askStep [fenceMark]).modMir fun m => { m with handover := none, giveRids := rids, giving := false }

/-- R538: the fence of a region begins: admissions stop, and its requests are to be handed over at step H. -/
def State.fenceBegins (s : State) (r : Nat) : State :=
  let rids := (s.liveOf r).map (·.2.2.rid)
  let s := (s.served r).foldl (fun s e => s.modEng e fun g => { g with fencedOut := true }) s
  ((s.beginHand r rids).modMir fun m => { m with fencing := true }).modWts fun w => { w with fenced := w.fenced ++ [r] }

/-- A handover is under way. -/
def State.handing (s : State) : Bool := s.mir.handover.isSome || s.mir.fencing || s.mir.updAct.isSome

/-- FENCE_OUT (R538, R540, R557). -/
def execFenceOut (c : Cmd) (region : BitVec 8) (s : State) : Out :=
  .next <| s.runCmd c 0x0204 (operandsOf (.fenceOut c region)) false fun s =>
    let r := region.toNat
    if s.mode.swap = 0 then s.complete c 0x0204 0x0086
    else if (s.served r).isEmpty ∨ s.pairState ≠ 4 ∨ s.wts.fenced.contains r ∨ s.handing then s.complete c 0x0204 0x0087
    else if s.twinPaired then s.twinForward ⟨0x0204, c, r, 0, [], some [], s.wall, false, 0, 0⟩
    else (s.fenceBegins r).modWts fun w => { w with fenceCmd := mput w.fenceCmd r c }

end Sys2Proof.Machine
end

