-- ==== Sys2Proof/Machine/Mirror.lean ====
section
/-! DEFINITION. What a pair does at step boundaries: images, KV packets and step records, adoption and handover, twin commands
and step digests (R550 to R558). -/

namespace Sys2Proof.Machine

/-! ## Images (R550) -/

/-- The image of an accession entry; its tokens and tables go with it (DEDUCED, notes/assumptions/26.md). -/
def mirOf (q : Req) : MirReq where
  rid := q.rid
  region := q.region
  state := q.state
  prio := q.prio
  tenant := q.tenant
  fn := q.fn
  tag := q.tag
  len := q.len
  emitted := q.emitted
  maxnew := q.maxnew
  depth := q.depth
  depthReq := q.depthReq
  deadline := q.deadline
  gap := q.gap
  seed := q.seed
  topk := q.topk
  temp := q.temp
  topp := q.topp
  rep := q.rep
  freq := q.freq
  pres := q.pres
  flags := q.flags
  pub := q.pub
  pages := q.pages
  reps := q.reps
  promptLen := q.promptLen
  pfxLen := q.pfxC
  pfxFull := q.pfxF
  addr := q.addr
  prefilled := q.prefilled
  attRes := q.attRes
  pageRes := q.pageRes
  firstWait := q.firstWait
  late := q.late
  hist := q.hist
  toks := q.toks

/-- The accession entry an image gives, with its pages as this module numbers them and its admission order (R555). -/
def reqFrom (m : MirReq) (pages : List Nat) (order wall : Nat) : Req where
  rid := m.rid
  region := m.region
  state := m.state
  prio := m.prio
  tenant := m.tenant
  fn := m.fn
  tag := m.tag
  len := m.len
  emitted := m.emitted
  maxnew := m.maxnew
  depth := m.depth
  depthReq := m.depthReq
  deadline := m.deadline
  gap := m.gap
  seed := m.seed
  topk := m.topk
  temp := m.temp
  topp := m.topp
  rep := m.rep
  freq := m.freq
  pres := m.pres
  flags := m.flags
  pub := m.pub
  pages := pages
  reps := m.reps
  promptLen := m.promptLen
  pfxC := m.pfxLen
  pfxF := m.pfxFull
  addr := m.addr
  prefilled := m.prefilled
  attRes := m.attRes
  pageRes := m.pageRes
  firstWait := m.firstWait
  late := m.late
  hist := m.hist
  toks := m.toks
  loaded := m.state != 1
  readyAt := wall
  order := order
  adopted := true

/-- Records are exchanged: in PAIRED, and while the catch-up copy runs (R546, R550, R556). -/
def State.mirroring (s : State) : Bool := s.mode.mirror == 1 && (s.pairState == 4 || s.pairState == 3)

/-- Z: the KV bytes of a position (R550). -/
def kvBytes (pageBytes : Nat) : Nat := (pageBytes - 1024) / 256 / 64 * 64

/-- The mirror port of a KV packet: the (p mod u)-th that is UP (R547). -/
def State.kvPort (s : State) (p : Nat) : Option Nat := s.mirUp[p % s.mirUp.length]?

/-- The body of a KV packet (R547; layout in notes/assumptions/15.md). -/
def kvBody (k : KvPacket) : List Byte :=
  leBytes 4 k.page ++ leBytes 4 k.first ++ leBytes 4 k.count ++ leBytes 8 k.step ++ leBytes 4 k.engine ++ k.data

/-- The positions of a page that a KV packet carries at most (layout in notes/assumptions/15.md). -/
def kvPer (z : Nat) : Nat := max 1 ((20480 - 24) / (4 + z))

/-- Positions `[at, at + n)` of a page as KV packets of a step (R547, R550): the packets still to cut are at most `fuel`. -/
def State.sendKv (s : State) (c : SrvCfg) (e step page : Nat) : Nat → Nat → Nat → State
  | 0, _, _ => s
  | fuel + 1, at_, n =>
    if n = 0 then s
    else
      let z := kvBytes c.pageBytes
      let k := min n (kvPer z)
      let one (i : Nat) : List Byte :=
        rdBytes s.ext (c.page page + 4 * (at_ + i)) 4 ++ rdBytes s.ext (c.page page + 1024 + z * (at_ + i)) z
      let body := kvBody ⟨page, at_, k, step, e, (List.range k).flatMap one⟩
      let s := match s.kvPort page with
        | some p => s.queueOn p ⟨0x51, 0, s.mode.partner, s.ownId, 0, 0, 1, body⟩
        | none => s
      s.sendKv c e step page fuel (at_ + k) (n - k)

/-- The number of KV packets for `n` positions of a page. -/
def kvPackets (c : SrvCfg) (n : Nat) : Nat := ceilDiv n (kvPer (kvBytes c.pageBytes))

/-- A span of positions of a request, cut by page: page number, first position within it, and length. -/
def pageSpans (pages : List Nat) (p n : Nat) : List (Nat × Nat × Nat) :=
  (List.range ((p + n + 255) / 256 - p / 256)).map fun i =>
    let q := p / 256 + i
    let a := max p (256 * q)
    let b := min (p + n) (256 * (q + 1))
    (pages.getD q 0, a % 256, b - a)

/-- The spans an engine's filled vitrines wrote in the step in force (R550). -/
def Engine.written (g : Engine) : List (Nat × Nat × Nat) :=
  (g.slots.flatMap fun x => pageSpans (mget g.reqs x.acc {}).pages (x.pos - 1) (x.depth + 1))
    ++ g.pres.flatMap fun x => pageSpans (mget g.reqs x.acc {}).pages (256 * x.q) x.ntok

/-- The catalogue of an engine as the partner mirrors it: its GDDR7 entries (R550, R552). -/
def Engine.catImages (g : Engine) : List MirCat :=
  (g.cat.filter fun x => !x.annex).map fun x => ⟨x.tenant, x.handle, x.count, x.pages, x.tail⟩

/-- The bytes of a record's lists where the spec gives no layout (notes/assumptions/15.md). -/
def mirBytes (m : MirReq) : List Byte :=
  argBytes [m.rid.toNat, m.region, m.state, m.prio, m.tenant, m.fn, m.tag.toNat, m.len, m.emitted, m.maxnew, m.depth, m.depthReq,
    m.deadline.getD 0, m.gap, m.seed.toNat, m.topk, m.temp.toNat, m.topp.toNat, m.rep.toNat, m.freq.toNat, m.pres.toNat, m.flags,
    m.pub.toNat, m.promptLen, m.pfxLen, m.pfxFull, m.addr, m.prefilled, m.attRes, m.pageRes, b2n m.firstWait, b2n m.late,
    m.pages.length, m.hist.length, m.toks.length]
  ++ argBytes (m.pages ++ m.hist ++ m.toks)

/-- R548: the submission that waits longest for the leader's verdict; without one the next to come. -/
def State.firstQuery (s : State) : Nat := match s.mir.queries with | q :: _ => q.no | [] => s.mir.queryNo

/-- The record of an engine's step, and the number of the KV packets that go before it (R550). -/
def State.recordOf (s : State) (e step kv : Nat) : StepRecord :=
  let g := s.eng e
  let load := s.committed e
  let cats := g.catImages
  { step := step, engine := e, kvCount := kv, loadDec := load.1, loadAtt := load.2.1, loadPages := load.2.2, loadQuery := s.firstQuery
    reqs := (g.used.filter fun q => mfind g.sentReqs q.1 != some q.2).map fun q => mirOf q.2
    emissions := g.emisOut
    catAdd := cats.filter fun x => !g.sentCat.contains x
    catDrop := (g.sentCat.filter fun x => !cats.any fun y => y.tenant == x.tenant && y.handle == x.handle).map fun x => (x.tenant, x.handle) }

/-- The body of a step record (R550; layout in notes/assumptions/15.md). -/
def recordBytes (r : StepRecord) : List Byte :=
  leBytes 8 r.step ++ leBytes 4 r.engine ++ leBytes 4 r.kvCount ++ argBytes [r.loadDec, r.loadAtt, r.loadPages, r.loadQuery, r.reqs.length]
    ++ r.reqs.flatMap mirBytes ++ leBytes 8 r.emissions.length ++ (r.emissions.flatMap fun m => emisBytes m false 0)
    ++ (r.reqs.flatMap fun m => argBytes (m.reps.length :: m.reps.flatMap fun x => [x.1, x.2])) ++ argBytes [r.catAdd.length, r.catDrop.length]
    ++ (r.catAdd.flatMap fun x => argBytes ([x.tenant, x.handle.toNat, x.count, x.pages.length] ++ x.pages ++ x.tail))
    ++ r.catDrop.flatMap fun x => argBytes [x.1, x.2.toNat]

/-- A step record goes to the partner (R550). -/
def State.sendRecord (s : State) (r : StepRecord) : State :=
  s.mirSend 0x52 [r.step, r.engine, r.kvCount, r.reqs.length, r.emissions.length] (recordBytes r)

/-- The record of an engine is sent, and what it told is noted. -/
def State.tellRecord (s : State) (e step kv : Nat) : State :=
  (s.sendRecord (s.recordOf e step kv)).modEng e fun g => { g with sentReqs := g.used, sentCat := g.catImages }

/-- R550: the KV of a step, then its record; in PAIRED the step's emissions wait for its ACK (R551). -/
def State.sendStep (s : State) (e step : Nat) : State :=
  if !s.mirroring then s
  else match (s.eng e).cfg with
    | none => s
    | some c =>
      let spans := (s.eng e).written
      let kv := spans.foldl (fun n x => n + kvPackets c x.2.2) 0
      let s := spans.foldl (fun s x => s.sendKv c e step x.1 256 x.2.1 x.2.2) s
      let s := s.tellRecord e step kv
      if s.pairState = 4 then s.modMir fun m => { m with waitAck := m.waitAck ++ [(e, step, s.wall)] } else s

/-- R552, R556: the catch-up copy: the KV of every position of an engine's live requests but those in LOADING, and of its catalogue,
then a record of all of them. -/
def State.sendSync (s : State) (e : Nat) : State :=
  match (s.eng e).cfg with
  | none => s
  | some c =>
    let g := s.eng e
    let spans := ((g.used.filter fun q => q.2.state != 1).flatMap fun q => pageSpans q.2.pages 0 (q.2.len - 1))
      ++ (g.cat.filter fun x => !x.annex).flatMap fun x => pageSpans x.pages 0 (256 * x.full)
    let kv := spans.foldl (fun n x => n + kvPackets c x.2.2) 0
    let s := spans.foldl (fun s x => s.sendKv c e (s.curStep c.region) x.1 256 x.2.1 x.2.2) s
    (s.modEng e fun g => { g with sentReqs := [], sentCat := [] }).tellRecord e (s.curStep c.region) kv

/-! ## Adoption (R555) -/

/-- The engine that takes a partner's request of a region: of the same number where it serves the region. -/
def State.takerOf (s : State) (e r : Nat) : Option Nat :=
  if (s.served r).contains e then some e else (s.served r).head?

/-- A page of this module's for a partner's page: the mapped one, or one taken now (R551). -/
def State.mapPage (s : State) (e own p : Nat) : State × Nat :=
  match s.mir.pageMap.find? fun m => m.1 == e && m.2.1 == p with
  | some m => (s, m.2.2.2)
  | none =>
    match s.takePage own false with
    | (s, some k) => (s.modMir fun m => { m with pageMap := m.pageMap ++ [(e, p, own, k)] }, k)
    | (s, none) => (s, 0xFFFFFFFF)

/-- The pages of an image as this module numbers them. -/
def State.mapPages (s : State) (e own : Nat) : List Nat → State × List Nat
  | [] => (s, [])
  | p :: ps =>
    let t := s.mapPage e own p
    let u := t.1.mapPages e own ps
    (u.1, t.2 :: u.2)

/-- A RID is of this module's own. -/
def State.ownRid (s : State) (rid : BitVec 32) : Bool := bits rid.toNat 22 22 == s.sideBit

/-- R555, R556: a request of the partner's becomes an entry here: at the index its own RID names when it is this module's, at a
free index with a place in the adoption map otherwise; one this module holds already stays as it is. -/
def State.adoptReq (s : State) (e : Nat) (m : MirReq) : State :=
  match s.takerOf e m.region, s.findReq m.rid with
  | none, _ | _, some _ => s
  | some own, none =>
    let t := s.mapPages e own m.pages
    let s := t.1
    let mine := s.ownRid m.rid
    let i := if mine then bits m.rid.toNat 12 0
      else (pickOf ((List.range 8192).filter fun i => (mget (s.eng own).reqs i {}).state == 0)).getD 0
    let q := { reqFrom m t.2 (s.eng own).admNo s.wall with adopted := !mine, silent := s.mode.mirror == 2 }
    let s := s.modEng own fun g =>
      { g with reqs := mput g.reqs i q, admNo := g.admNo + 1, pageCnt := t.2.foldl pageUp g.pageCnt }
    let s := ((s.putCounts own t.2).putPageList own i t.2).putReps own i m.reps
    if mine then s
    else (s.modMir fun x => { x with adoptMap := x.adoptMap.filter (fun a => a.1 != m.rid) ++ [(m.rid, own, i)], adoptedAny := true })
      |>.setFld F.mirState_adopted 0 1

/-- The mapped pages that no mirrored request and no mirrored catalogue entry of an engine names, and for which no KV packet has come of
a step whose record is still to be applied, are free (R551). -/
def State.trimMap (s : State) : State :=
  let used (m : Nat × Nat × Nat × Nat) : Bool :=
    (s.mir.kvPages.any fun k => k.1 == m.1 && k.2.2 == m.2.1) || (s.mir.mirrored.any fun q => q.1 == m.1 && q.2.pages.contains m.2.1) || s.mir.mirCat.any fun c => c.1 == m.1 && c.2.pages.contains m.2.1
  let gone := s.mir.pageMap.filter fun m => !used m
  let s := gone.foldl (fun s m => s.dropPages m.2.2.1 [m.2.2.2]) s
  s.modMir fun x => { x with pageMap := x.pageMap.filter used }

/-- Requests of the partner's become entries here: of those that bear its RIDs the count is recorded and the event told (R555, R563,
R564). -/
def State.adoptReqs (s : State) (qs : List (Nat × MirReq)) (always : Bool) : State :=
  let n := (qs.filter fun q => !s.ownRid q.2.rid && (s.findReq q.2.rid).isNone).length
  let s := qs.foldl (fun s q => s.adoptReq q.1 q.2) s
  if n = 0 ∧ !always then s else (s.event 0x02C6 8 0 [(4, n)]).satAdd F.mirStat_adoptions 0 n

/-- R555: adoption of the lost partner's requests: the emissions whose heartbeat has not come are written, the requests become
entries, those LOADING are named and gone. -/
def State.adoptAll (s : State) : State :=
  if !s.mir.adopt then s
  else
    let s := s.modMir fun m => { m with adopt := false }
    if s.mode.mirror ≠ 1 then s
    else
      let s := s.mir.pendEmis.foldl (fun s m => s.modFunc m.fn fun f => { f with emis := f.emis ++ [m] }) s
      let s := s.adoptReqs s.mir.mirrored true
      let s := s.mir.loading.foldl (fun s q => s.event 0x02C8 8 0 [(4, q.2.toNat)]) s
      (s.modMir fun m => { m with pendEmis := [], mirrored := [], loading := [], kvGot := [], kvPages := [] }).trimMap

/-! ## Handover (R538, R539, R556) -/

/-- A request leaves this module without ending: its pages are dropped, its place in the adoption map cleared. -/
def State.giveReq (s : State) (e i : Nat) : State :=
  let q := s.accn e i
  let s := (s.dropPages e q.pages).modEng e fun g =>
    { g with
      reqs := mdel g.reqs i
      slots := g.slots.map fun (x : SlotRec) => if x.acc = i then { x with live := false } else x
      pres := g.pres.map fun (x : PreRec) => if x.acc = i then { x with live := false } else x }
  (s.putPageList e i []).modMir fun m => { m with adoptMap := m.adoptMap.filter fun a => a.1 != q.rid }

/-- The adopted requests of this module: engine and accession index. -/
def State.adoptedReqs (s : State) : List (Nat × Nat) :=
  [0, 1].flatMap fun e => ((s.eng e).used.filter fun q => q.2.adopted).map fun q => (e, q.1)

/-- MIR_STATE.ADOPTED follows whether an adopted request remains (R562). -/
def State.adoptedBit (s : State) : State :=
  let any_ := !s.adoptedReqs.isEmpty
  (s.setFld F.mirState_adopted 0 (b2n any_)).modMir fun m => { m with adoptedAny := any_ }

/-- R538: the fence has taken effect: the module is FENCED and FENCE_OUT completes. -/
def State.fenceDone (s : State) : State :=
  let s := (s.setPair 7).modMir fun m => { m with fencing := false, mirrored := [], mirCat := [], loading := [], kvGot := [], kvPages := [] }
  let s := s.wts.fenced.foldl (fun s r =>
    let s := s.setFld F.srvSwap_state r 3
    match mfind s.wts.fenceCmd r with | some c => s.complete c 0x0204 0 | none => s) s
  (s.modWts fun w => { w with fenceCmd := [] }).trimMap

/-- R556, R558, R611: what follows a handover: an activation goes on in FENCED, a fence has taken effect, or the partner's fence leaves
this module in COVER, the voice of every request in twin mode. -/
def State.handedOver (s : State) (cover : Bool) : State :=
  if s.mir.updAct.isSome then (s.setPair 7).modMir fun m => { m with updReady := true }
  else if s.mir.fencing then s.fenceDone
  else if cover then
    let s := s.setPair 8
    if s.mode.mirror = 2 then s.takeVoice s.mir.hbStep else s
  else s

/-- R556: at the packing of step H or the first packing after it, once the image of every request taken over is here, the requests of
a handover change hands. -/
def State.doHandover (s : State) (next : Nat) : State :=
  match s.mir.handover with
  | none => s
  | some h =>
    let rids := s.mir.handRids
    if next < h ∨ rids.any fun rid => (s.findReq rid).isNone && !s.mir.mirrored.any fun q => q.2.rid == rid then s
    else
      let cover := s.mir.cover
      let s := s.adoptReqs (s.mir.mirrored.filter fun q => rids.contains q.2.rid) false
      let s := s.mir.giveRids.foldl (fun s rid => match s.findReq rid with | some (e, i) => s.giveReq e i | none => s) s
      let s := (s.modMir fun m =>
        { m with
          handover := none, handRids := [], giveRids := [], cover := false
          mirrored := m.mirrored.filter fun q => !rids.contains q.2.rid }).adoptedBit.trimMap
      s.handedOver cover

/-- While no serving region runs on this module there is no packing: a handover takes place at once (DEDUCED,
notes/assumptions/25.md). -/
def State.handNow (s : State) : State :=
  match s.mir.handover with
  | some h => if s.firstServing.isNone then s.doHandover h else s
  | none => s

/-! ## The sync (R556) -/

/-- The RIDs of the requests this module hands to its partner in a sync: the adopted ones, in twin mode a copy of all. -/
def State.syncRids (s : State) : List (BitVec 32) :=
  if s.mode.mirror = 2 then [0, 1].flatMap fun e => (s.eng e).admitted.map fun q => q.2.rid
  else (s.adoptedReqs.map fun q => s.accn q.1 q.2).filterMap fun q => if q.state ≤ 3 then some q.rid else none

/-- R556: a handover in which this module hands requests over at step H; in twin mode it keeps them too. -/
def State.handBack (s : State) (h : Nat) : State :=
  let rids := s.syncRids
  (s.sendHandover h rids).modMir fun m =>
    { m with handover := some h, giveRids := if s.mode.mirror = 2 then [] else rids, giving := true }

/-- R556: SYNCING begins: each module sends its live requests, and the leader names the step of the handback, for which the follower
asks. -/
def State.startSync (s : State) : State :=
  let s := (s.setPair 3).modMir fun m =>
    { m with handover := none, handRids := [], giveRids := [], giving := false, heard := false, cover := false }
  let s := [0, 1].foldl (fun s e => s.sendSync e) s
  if s.leader then s.handBack (s.handStep (s.firstServing.getD 0)) else s.sendHandover askStep []

/-! ## Verdicts (R548) -/

/-- R548: a submission with the leader's verdict: admitted when this engine's own checks still pass. -/
def State.decideQuery (s : State) (w : Query) (verdict : Nat) : State :=
  match (s.eng w.engine).cfg with
  | none => s.refuse w.cmd w.engine 0x0061
  | some c =>
    let q := s.readied w.engine c w.req
    let st := if verdict ≠ 0 then verdict else s.admitStatus w.engine c q false
    if st ≠ 0 then s.refuse w.cmd w.engine st
    else
      let n := s.newRid w.engine
      (s.admitReq w.engine n.1 n.2 q).complete w.cmd 0x0101 0 n.2.toNat

/-! ## Twin commands and digests (R557, R558) -/

/-- R548, R552: the submissions that wait for the leader's verdict are decided here once the pair is no longer PAIRED. -/
def State.settleQueries (s : State) : State :=
  if s.pairState = 4 then s
  else
    let qs := s.mir.queries
    qs.foldl (fun s w => s.decideQuery w 0) (s.modMir fun m => { m with queries := [] })

/-- The status of a command completes where it was issued. -/
def State.twinReply (s : State) (t : TwinCmd) (status result : Nat) : State :=
  if t.fromPartner then s else s.complete t.cmd t.kind status result

/-- R557: a twin command takes effect, with its verdict. -/
def State.applyTwin (s : State) (t : TwinCmd) : State :=
  let own : Option Cmd := if t.fromPartner then none else some t.cmd
  if t.kind = 0x0101 then
    if t.verdict ≠ 0 then
      if t.fromPartner then s else s.refuse t.cmd ((s.engineFor (reqOf t.cmd t.region t.wall t.block)).getD 0) t.verdict
    else
      let q := { reqOf t.cmd t.region t.wall t.block with prompt := t.prompt, noPrompt := t.prompt.isNone, silent := t.fromPartner }
      match s.submitPlace q t.block with
      | .ok (e, _, q) => (s.admitReq e (bits t.rid.toNat 12 0) t.rid q).twinReply t 0 t.rid.toNat
      | .error st => s.twinReply t st 0
  else if t.kind = 0x0102 then
    let d := s.doCancel t.cmd.fn t.rid
    d.1.twinReply t d.2 0
  else if t.kind = 0x0202 then
    let u := s.takeWptr own t.region (leNat (t.block.take 1)) (words64 (t.block.drop 1))
    if u.2 = 0 then u.1 else u.1.twinReply t u.2 0
  else if t.kind = 0x0203 then
    let u := s.takeSwap own (leNat (t.block.take 1)) ((cut 16 (t.block.drop 1)).map swapUnitOf)
    if u.2 = 0 then u.1 else u.1.twinReply t u.2 0
  else if t.kind = 0x0204 then
    if t.fromPartner then (s.setPair 8).takeVoice s.mir.hbStep
    else
      let es := s.served t.region
      let s := es.foldl (fun s e => (s.eng e).used.foldl (fun s q => s.giveReq e q.1) s) s
      let s := es.foldl (fun s e => s.modEng e fun g => { g with fencedOut := true }) s
      (s.modWts fun w => { w with fenced := w.fenced ++ [t.region], fenceCmd := mput w.fenceCmd t.region t.cmd }).fenceDone
  else if t.kind = 0x0205 then
    if s.pairState ≠ (if t.fromPartner then 8 else 7) then s.twinReply t 0x0087 0
    else if t.fromPartner then s.startSync
    else (s.setFld F.srvSwap_state t.region 4 |>.modWts fun w => { w with fenceIn := mput w.fenceIn t.region t.cmd }).startSync
  else s

/-- R557: a command goes through the leader: in PAIRED, and FENCE_IN while one of the pair is fenced. -/
def State.twinLinked (s : State) (kind : Nat) : Bool :=
  s.twinPaired || (kind == 0x0205 && s.mode.mirror == 2 && (s.pairState == 7 || s.pairState == 8))

/-- A twin command is due at the packing of step `next` of region `r`, at once while no serving region runs; one the leader
never answered is taken by a module that serves alone. -/
def State.twinDue (s : State) (r : Option Nat) (next : Nat) (t : TwinCmd) : Bool :=
  if t.applyStep = 0 then !s.twinLinked t.kind && !t.fromPartner
  else match s.twinRegion t with
    | none => true
    | some q => r == some q && decide (t.applyStep ≤ next)

/-- R557: the twin commands due at the packing of step `next` of region `r`, in the leader's order. -/
def State.applyTwins (s : State) (r : Option Nat) (next : Nat) : State :=
  let due := s.mir.twins.filter (s.twinDue r next)
  let s := s.modMir fun m => { m with twins := m.twins.filter fun t => !s.twinDue r next t }
  due.foldl (fun s t => s.applyTwin (if t.applyStep = 0 ∧ t.kind = 0x0101 then s.twinVerdict t else t)) s

/-- R558: a digest that differs degrades the pair: the leader becomes the voice of every request and writes the emissions from
the last step whose digests matched, the follower's series ends at its next boundary. -/
def State.digestMismatch (s : State) (step : Nat) : State :=
  let s := ((s.event 0x02C5 8 0 [(8, step)]).satAdd F.mirStat_digestmm 0 1).setPair 5
  if s.leader then s.takeVoice (s.mir.okStep - 1)
  else
    let s := { s with engs := s.engs.map fun (g : Nat × Engine) =>
      (g.1, { g.2 with reqs := g.2.reqs.map fun (q : Nat × Req) => (q.1, { q.2 with silent := true }) }) }
    let s := { s with fns := s.fns.map fun (f : Nat × Func) => (f.1, { f.2 with emis := [] }) }
    s.servingRuns.foldl (fun s r => s.modRegion r fun R => { R with series := R.series.map fun x => { x with stopReq := true } }) s

/-- R558: own and partner's digests of a step are compared once both are held. -/
def State.checkDigest (s : State) (step : Nat) : State :=
  match s.mir.digests.find? (fun d => d.1 == step), s.mir.peerDigs.find? fun d => d.1 == step with
  | some a, some b =>
    if s.pairState ≠ 4 ∨ step < s.mir.okStep then s
    else if a.2.take 16 = b.2 then
      s.modMir fun m => { m with
        okStep := step + 1, pendEmis := m.pendEmis.filter (fun x => decide (step ≤ x.step))
        digests := m.digests.filter (fun d => decide (step ≤ d.1)), peerDigs := m.peerDigs.filter fun d => decide (step < d.1) }
    else s.digestMismatch step
  | _, _ => s

/-- R558: the digest of step `k` of the region whose steps heartbeats number: its step table and the emission entries it gave. -/
def State.ownDigest (s : State) (r k : Nat) : State :=
  if s.mode.mirror ≠ 2 ∨ s.firstServing ≠ some r then s
  else match (s.served r).head?.bind fun e => (s.eng e).cfg with
    | none => s
    | some c =>
      let v := s.vitOf r
      let table := rdBytes s.ext (c.item v (k % 2)) (tableBytes v)
      let es := (s.served r).flatMap fun e => (s.eng e).emisOut.filter fun m => m.step == k
      let d := sha256 (table ++ es.flatMap fun m => emisBytes m false 0)
      (s.modMir fun m => { m with digests := m.digests.filter (fun x => x.1 != k) ++ [(k, d)] }).checkDigest k

/-- R553: the heartbeat of step `k` is due once the step's emissions are written. -/
def State.dueHeartbeat (s : State) (r k : Nat) : State :=
  if s.mode.mirror = 0 ∨ s.firstServing ≠ some r then s
  else
    let dig := ((s.mir.digests.find? fun d => d.1 == k).map fun d => d.2.take 16).getD []
    (s.modMir fun m => { m with hbPend := m.hbPend ++ [(r, k, dig)] }).tryHeartbeat

end Sys2Proof.Machine
end

