-- ==== Sys2Proof/Machine/Boundary.lean ====
section
/-! DEFINITION. The boundary work of a serving engine: sampling and emissions, packing, pages, the step table and the end of
a series (R466 to R469, R483, R485, R487, R492 to R501, R531). -/

namespace Sys2Proof.Machine

/-! ## Emissions of a step (R487, R492 to R499) -/

/-- R487: the catalogue takes what a request leaves; the flag tells a publish that failed. -/
def State.publish (s : State) (e i : Nat) : State × Bool :=
  let q := s.accn e i
  if bits q.flags 1 1 = 0 then (s, false)
  else
    let old := (s.eng e).entry q.tenant q.pub
    if old.isNone ∧ 65536 ≤ (s.eng e).cat.length then (s.eventTo q.fn 0x02A4 7 e [], true)
    else
      let full := (q.len - 1) / 256
      let pages := q.pages.take full
      let s := s.modEng e fun g => { g with pageCnt := pages.foldl pageUp g.pageCnt }
      let s := match old with | some x => s.dropEntry e x | none => s
      let no := (pickOf ((List.range 65536).filter fun k => !(s.eng e).cat.any fun y => y.no == k)).getD 0
      let x : CatEnt := ⟨q.tenant, q.pub, q.len, full, pages, q.toks.drop (256 * (full - q.pfxF)), false, none, no⟩
      (((s.modEng e fun g => { g with cat := g.cat ++ [x] }).putCounts e pages).putCatalogue e x, false)

/-- The token at a position of a request. -/
def Req.tokAt (q : Req) (p : Nat) : Nat := q.toks.getD (p - 256 * q.pfxF) 0

/-- The token IDs of positions `[a, b)` of a request go into the first KiB of their pages (R467). -/
def State.putTokens (s : State) (c : SrvCfg) (q : Req) (a b : Nat) : State :=
  { s with ext := (List.range (b - a)).foldl (fun m k =>
      let p := a + k
      wrBytes m (c.page (q.pages.getD (p / 256) 0) + 4 * (p % 256)) (leBytes 4 (q.tokAt p))) s.ext }

/-- R496 to R499: the tokens a step gives a request are emitted: its length, tables, history and, at a final emission, its
end.  Their IDs go into the pages the request has (R467). -/
def State.giveTokens (s : State) (e i k : Nat) (stop : List Nat) (pos depth : Nat) (ts : List Nat) : State :=
  let q := s.accn e i
  let kp := kept q stop ts
  let s := s.modReq e i fun q =>
    { q with
      state := 3, len := q.len + kp.1.length, emitted := q.emitted + kp.1.length, firstWait := false
      reps := kp.1.foldl countToken q.reps, toks := q.toks ++ kp.1
      hist := if depth = 0 then q.hist else ((ts.length - 1) :: q.hist).take 8 }
  let r := s.accn e i
  let s := match (s.eng e).cfg with
    | some c => s.putTokens c r (max (256 * r.pfxF) (q.len - 1)) (min r.len (256 * r.pages.length))
    | none => s
  let s := s.putReps e i r.reps
  match kp.2 with
  | none => s.emit e q kp.1 false false 0 pos k
  | some reason =>
    let p := s.publish e i
    (p.1.endReq e i 4).emit e q kp.1 true p.2 reason pos k

/-- R492, R495: a decode slot of the step in force is sampled. -/
def State.sampleSlot (s : State) (e k : Nat) (c : SrvCfg) (x : SlotRec) : State :=
  if !x.live then s
  else
    s.giveTokens e x.acc k c.stop x.pos x.depth
      (s.sampleRows c (s.accn e x.acc) x.slot x.pos x.depth (x.depth + 1) 0 (s.accn e x.acc).reps)

/-- R492: the LAST prefill vitrine of a request is sampled. -/
def State.samplePre (s : State) (e k : Nat) (c : SrvCfg) (x : PreRec) : State :=
  if !x.live || !x.last then s
  else
    let v := s.vitOf c.region
    let q := s.accn e x.acc
    s.giveTokens e x.acc k c.stop q.len 0 [s.sample c q q.reps q.len (v.slots * (v.depth + 1) + x.vit)]

/-- The sampling of step `k` on an engine: slots in slot order, then prefill vitrines (R492). -/
def State.sampleStep (s : State) (e k : Nat) (c : SrvCfg) : State :=
  let g := s.eng e
  let s := s.modEng e fun g => { g with emisOut := g.emisOut.filter fun m => decide (k ≤ m.step) }
  let s := g.slots.foldl (fun s x => s.sampleSlot e k c x) s
  g.pres.foldl (fun s x => s.samplePre e k c x) s

/-! ## Packing (R483, R497) -/

/-- R497: the depth in force at a boundary; one written in its cycle stands (R19, R515). -/
def State.adaptDepth (s : State) (e : Nat) : State :=
  if s.fld F.srvCtl_adapt e = 0 then s
  else s.modEng e fun g => { g with reqs := g.reqs.map fun (q : Nat × Req) =>
    let h := q.2.hist.foldl (· + ·) 0 + (8 - q.2.hist.length) * q.2.depthReq
    (q.1, if q.2.depthAt = some s.cnt then q.2 else { q.2 with depth := min q.2.depthReq (h / 8 + 1) }) }

/-- R483 2: the requests in DECODE with their slots: kept ones, then adopted and other new ones in increasing index, each in the
lowest free slot. -/
def State.slotPlan (s : State) (e : Nat) (c : SrvCfg) : List (Nat × Nat) :=
  let g := s.eng e
  let o := s.own c.region e (s.vitOf c.region).slots
  let dec := g.reqs.filter fun q => q.2.state == 3
  let old := dec.filterMap fun q => q.2.slot.map fun k => (k, q.1)
  let fresh := (dec.filter fun q => q.2.slot.isNone && q.2.adopted) ++ dec.filter fun q => q.2.slot.isNone && !q.2.adopted
  fresh.foldl (fun l q =>
    match ((List.range o.2).map (o.1 + ·)).find? fun k => !(l.any fun x => x.1 == k) with
    | some k => l ++ [(k, q.1)]
    | none => l) old

/-- A slot put in slot order. -/
def insSlot (a : Nat × Nat) : List (Nat × Nat) → List (Nat × Nat)
  | [] => [a]
  | b :: bs => if a.1 < b.1 then a :: b :: bs else b :: insSlot a bs

/-- R483 2, 3: the filled decode slots of the next step. -/
def State.packSlots (s : State) (e : Nat) (c : SrvCfg) : List SlotRec :=
  ((s.slotPlan e c).foldl (fun l x => insSlot x l) []).map fun x =>
    let q := s.accn e x.2
    ⟨x.1, x.2, min q.depth (q.context - q.len), q.len, true⟩

/-- A request's prefill vitrines in page order while they fit: what is left of vitrines and attention, the vitrines placed, and
whether one did not fit. -/
def fillV (acc : Nat) : Nat → Nat → Nat → Nat → List (Nat × Nat) → (Nat × Nat) × List (Nat × Nat) × Bool
  | 0, v, a, _, l => ((v, a), l, false)
  | n + 1, v, a, q, l => if 1 ≤ v ∧ q + 1 ≤ a then fillV acc n (v - 1) (a - (q + 1)) (q + 1) (l ++ [(acc, q)]) else ((v, a), l, true)

/-- The requests in order filled until a vitrine does not fit. -/
def fillAll : Nat → Nat → List (Nat × SimReq) → List (Nat × Nat) → (Nat × Nat) × List (Nat × Nat) × Bool
  | v, a, [], l => ((v, a), l, false)
  | v, a, x :: xs, l =>
    let p := fillV x.1 x.2.left v a x.2.q l
    if p.2.2 then p else fillAll p.1.1 p.1.2 xs p.2.1

/-- A request put in the order of R480. -/
def insPre (a : Nat × SimReq) : List (Nat × SimReq) → List (Nat × SimReq)
  | [] => [a]
  | b :: bs => if a.2.before b.2 then a :: b :: bs else b :: insPre a bs

/-- R483 4: the prefill vitrines of the next step as accession index and page index: adopted requests first, over the whole
share, then the others within what the reserve leaves (DEDUCED, notes/assumptions/27.md). -/
def State.packPre (s : State) (e : Nat) (c : SrvCfg) : List (Nat × Nat) :=
  let g := s.eng e
  let r := c.region
  let v := s.vitOf r
  let pre (ad : Bool) : List (Nat × SimReq) :=
    ((g.reqs.filter fun q => q.2.state == 2 && q.2.adopted == ad).map fun q =>
      (q.1, (⟨q.2.deadline.getD 0, q.2.prio, q.2.order, 0, q.2.pfxF + q.2.prefilled, q.2.vitrines - q.2.prefilled⟩ : SimReq))).foldl
        (fun l x => insPre x l) []
  let vs := (s.own r e v.prefills).2
  let as_ := (s.own r e v.att).2
  let ownRes := (g.admitted.filter fun q => !q.2.adopted).foldl (fun a q => a + q.2.attRes) 0
  let first := fillAll vs (as_ - g.attRes) (pre true) []
  if first.2.2 then first.2.1
  else
    let a := min first.1.2 (capped (s.fld F.srvCap_att e) (s.avail as_) - ownRes)
    (fillAll (min first.1.1 (s.avail vs)) a (pre false) first.2.1).2.1

/-- The filled prefill vitrines of the next step. -/
def State.preRecs (s : State) (e : Nat) (c : SrvCfg) : List PreRec :=
  let o := s.own c.region e (s.vitOf c.region).prefills
  (s.packPre e c).zipIdx.map fun x =>
    let q := s.accn e x.1.1
    let total := q.pfxC + q.promptLen
    let n := min 256 (total - 256 * x.1.2)
    ⟨o.1 + x.2, x.1.1, x.1.2, n, total == 256 * x.1.2 + n, true⟩

/-- R485, R483 5: pages for the positions a step writes are taken until the request's list holds `n`. -/
def State.growPages (s : State) (e i n : Nat) : Nat → State
  | 0 => s
  | fuel + 1 =>
    let q := s.accn e i
    if n ≤ q.pages.length then s
    else match s.takePage e false with
      | (s, some k) => (s.modReq e i fun q => { q with pages := q.pages ++ [k], pageRes := q.pageRes - 1 }).growPages e i n fuel
      | (s, none) => s

/-- R483 5: the pages and token IDs of the step's vitrines. -/
def State.allocate (s : State) (e : Nat) (c : SrvCfg) (slots : List SlotRec) (pres : List PreRec) : State :=
  let s := slots.foldl (fun s x =>
    let s := s.growPages e x.acc ((x.pos + x.depth - 1) / 256 + 1) 1024
    let q := s.accn e x.acc
    (s.putTokens c q (max (256 * q.pfxF) (x.pos - 9)) x.pos).putPageList e x.acc q.pages) s
  pres.foldl (fun s x =>
    let s := s.growPages e x.acc (x.q + 1) 1024
    let q := s.accn e x.acc
    (s.putTokens c q (256 * x.q) (256 * x.q + x.ntok)).putPageList e x.acc q.pages) s

/-! ## The step table (R467, R468) -/

/-- The bytes of a decode record whose attention records begin at `att`. -/
def decRecord (q : Req) (x : SlotRec) (att : Nat) : List Byte :=
  let i := (x.pos - 1) / 256
  leBytes 1 1 ++ leBytes 1 x.depth ++ leBytes 2 x.acc ++ leBytes 4 x.pos ++ leBytes 4 (q.tokAt (x.pos - 1))
    ++ leBytes 4 (q.pages.getD i 0) ++ leBytes 4 (q.pages.getD (i + 1) 0xFFFFFFFF) ++ leBytes 4 att ++ leBytes 2 (ceilDiv x.pos 256)
    ++ List.replicate 6 0

/-- The bytes of a prefill record. -/
def preRecord (q : Req) (x : PreRec) (att : Nat) : List Byte :=
  leBytes 1 1 ++ leBytes 1 (b2n x.last) ++ leBytes 2 x.acc ++ leBytes 4 (q.pages.getD x.q 0) ++ leBytes 4 x.q ++ leBytes 2 x.ntok
    ++ leBytes 2 (x.q + 1) ++ leBytes 4 att ++ List.replicate 12 0

/-- The bytes of an attention record. -/
def attRecord (kind owner page q ntok : Nat) : List Byte :=
  leBytes 1 1 ++ leBytes 1 kind ++ leBytes 2 owner ++ leBytes 4 page ++ leBytes 4 q ++ leBytes 2 ntok ++ [0, 0]

/-- R468, R483 3: the attention records of a decode slot. -/
def slotAtt (q : Req) (x : SlotRec) : List (List Byte) :=
  (List.range (ceilDiv x.pos 256)).map fun j => attRecord 0 x.slot (q.pages.getD j 0) j (min 256 (x.pos - 1 - 256 * j))

/-- R468: the attention records of a prefill vitrine; the pages its request filled before the step hold KV. -/
def preAtt (q : Req) (x : PreRec) (before : Nat) : List (List Byte) :=
  (List.range (x.q + 1)).map fun j => attRecord 1 x.vit (q.pages.getD j 0) j (if j < q.pfxF + before then 256 else 0)

/-- The record with a number among filled ones; zeros where it is not filled. -/
def recordAt (n : Nat) (l : List (Nat × List Byte)) (i : Nat) : List Byte := ((l.find? fun x => x.1 == i).map (·.2)).getD (List.replicate n 0)

/-- R468: an engine writes its share of the step table of step `k`. -/
def State.writeTable (s : State) (e k : Nat) (c : SrvCfg) (slots : List SlotRec) (pres : List PreRec) : State :=
  let r := c.region
  let v := s.vitOf r
  let base := c.item v (k % 2)
  let o := s.own r e v.slots
  let p := s.own r e v.prefills
  let a := s.own r e v.att
  let q (i : Nat) : Req := s.accn e i
  let sAtt := slots.map fun x => slotAtt (q x.acc) x
  let before (x : PreRec) : Nat := (q x.acc).prefilled - (pres.filter fun y => y.acc == x.acc).length
  let pAtt := pres.map fun x => preAtt (q x.acc) x (before x)
  let starts (l : List (List (List Byte))) (i : Nat) : Nat := ((l.take i).map List.length).foldl (· + ·) a.1
  let sRecs := slots.zipIdx.map fun x => (x.1.slot, decRecord (q x.1.acc) x.1 (starts sAtt x.2))
  let nSlot := (sAtt.map List.length).foldl (· + ·) 0
  let pRecs := pres.zipIdx.map fun x => (x.1.vit, preRecord (q x.1.acc) x.1 (starts pAtt x.2 + nSlot))
  let atts := sAtt.flatten ++ pAtt.flatten
  let m := wrBytes s.ext base (leBytes 8 k ++ List.replicate 56 0)
  let m := wrBytes m (base + 64 + 32 * o.1) ((List.range o.2).flatMap fun i => recordAt 32 sRecs (o.1 + i))
  let m := wrBytes m (base + 64 + 32 * v.slots + 32 * p.1) ((List.range p.2).flatMap fun i => recordAt 32 pRecs (p.1 + i))
  let m := wrBytes m (base + 64 + 32 * v.slots + 32 * v.prefills + 16 * a.1)
    ((List.range a.2).flatMap fun i => atts.getD i (List.replicate 16 0))
  let filled := slots.length + pres.length + atts.length
  let all := o.2 + p.2 + a.2
  { s with ext := m }.setFld F.srvUtil_util e (if all = 0 then 0 else min 65535 (65535 * filled / all))

/-! ## The step end (R471, R485, R501, R531) -/

/-- R471: the entries that have ended become FREE and their pages are dropped. -/
def State.freeEnded (s : State) (e : Nat) : State :=
  (((s.eng e).reqs.filter fun q => decide (4 ≤ q.2.state)).foldl (fun s q => s.giveReq e q.1) s).adoptedBit

/-- The packing of step `k` on an engine, from the twin commands to the step table and the step end (R483, R555 to R557). -/
def State.packStep (s : State) (e k : Nat) (c : SrvCfg) : State :=
  let s := ((s.applyTwins (some c.region) k).settleQueries.adoptAll.doHandover k).adaptDepth e
  let s := s.modEng e fun g => { g with reqs := g.reqs.map fun (q : Nat × Req) =>
    if q.2.state = 1 ∧ q.2.loaded = true then (q.1, { q.2 with state := 2 }) else q }
  let slots := s.packSlots e c
  let pres := s.preRecs e c
  let s := slots.foldl (fun s x => s.modReq e x.acc fun q => { q with slot := some x.slot }) s
  let s := pres.foldl (fun s x => s.modReq e x.acc fun q => { q with prefilled := q.prefilled + 1 }) s
  let s := ((s.allocate e c slots pres).writeTable e k c slots pres).freeEnded e
  let s := s.modEng e fun g => { g with slots := slots, pres := pres, tabStep := k + 1, tabAt := s.sched }
  if s.tableDone c.region k then s.sealStep c.region k else s

/-- R560: a PAIR_DROP takes effect at the boundary, unless the partner has been lost. -/
def State.dropPair (s : State) : State :=
  if s.mir.dropAt then
    let s := s.modMir fun m => { m with dropAt := false }
    if s.pairState = 4 then s.setPair 5 else s
  else s

/-- The lateness of a region's furthest gallery: CAND_DONE is a plan position (R215, R464). -/
def State.regionLate (s : State) (r : Nat) : Nat := (s.galsOf r).foldl (fun m g => max m (s.galLate g)) 0

/-- R501: every request of the engine gets a final emission with REASON 3. -/
def State.endRequests (s : State) (e k : Nat) : State :=
  (s.eng e).admitted.foldl (fun s q => (s.endReq e q.1 4).emit e q.2 [] true false 3 q.2.len k) s

/-- R550: the record of the final emissions of a series whose last step has been told already. -/
def State.lastRecord (s : State) (e k : Nat) : State :=
  if !s.mirroring then s
  else
    let s := s.tellRecord e k 0
    if s.pairState = 4 then s.modMir fun m => { m with waitAck := m.waitAck ++ [(e, k, s.wall)] } else s

/-- R501: the series ends on an engine: the step not yet sampled is, every request ends, and their pages and entries are free; the
partner is told, and the step's heartbeat goes out with the last engine (R550, R553, R560). -/
def State.endSeries (s : State) (e k : Nat) (c : SrvCfg) (last : Bool) : State :=
  let s := if last then s.sampleStep e k c else s.modEng e fun g => { g with emisOut := [] }
  let s := s.dropPair.endRequests e k
  let s := if last then s.sendStep e k else s.lastRecord e k
  let s := s.writeEmissions.freeEnded e
  s.modEng e fun g => { g with slots := [], pres := [], tabStep := k + 3, tabAt := s.sched }

/-- R344, R501: with its last engine the series is over. -/
def State.seriesOver (s : State) (r k : Nat) (last : Bool) : State :=
  if (s.enginesOf r).all fun e => (s.eng e).tabStep == k + 3 then
    (if last then (s.ownDigest r k).dueHeartbeat r k else s).seriesEnds r
  else s

/-- The boundary work of step `k` on an engine: sampling, record, emissions, packing of step k + 1, heartbeat, arrival (R466, R498, R550,
R553). -/
def State.boundary (s : State) (e k : Nat) (c : SrvCfg) : State :=
  let r := c.region
  let s := (((s.sampleStep e k c).dropPair).sendStep e k).writeEmissions
  let s := s.packStep e (k + 1) c
  if s.tableDone r (k + 1) then ((s.ownDigest r k).dueHeartbeat r k).tryArrive r else s

/-- The work of an engine at a step boundary, at the start of a series, at the series' end, or, for twin commands and
handovers alone, while its region has none (R466, R468, R483, R501, R555 to R557). -/
def State.boundaryWork (s : State) (e : Nat) : State :=
    match (s.eng e).cfg with
    | none => s
    | some c =>
      let r := c.region
      let R := s.region r
      let t := (s.eng e).tabStep
      match R.series with
      | none => (((s.applyTwins none 0).dropPair).settleQueries).handNow
      | some x =>
        if !R.running || !s.packsHere r then s
        else if !R.begun then (if t = 0 then s.packStep e 0 c else s)
        else
          let k := x.step
          let reached := x.endedAt.isSome || decide (R.t0 + s.regionLate r + c.candDone ≤ s.sched)
          if x.stopReq then
            if x.endedAt.isNone then s
            else if t = k + 1 then (s.endSeries e k c true).seriesOver r k true
            else if t = k + 2 then (s.endSeries e k c false).seriesOver r k false
            else s
          else if t = k + 1 ∧ reached then s.boundary e k c
          else s

/-- BOUNDARY_WORK (R466, R468, R483, R501, R555, R557); an activation whose requests have now changed hands goes on (R611). -/
def execBoundaryWork (engine : Fin 2) (s : State) : Out := .next <| (s.boundaryWork engine.val).finishActivate

end Sys2Proof.Machine
end

