-- ==== Sys2Proof/Machine/Pairs.lean ====
section
/-! DEFINITION. The commands of the pairing protocol (R544 to R560). -/

namespace Sys2Proof.Machine

/-! ## HELLO and the sync (R544, R545, R556, R560) -/

/-- R544, R545: a partner's HELLO is compatible. -/
def State.compatible (s : State) (h : Hello) : Bool :=
  s.mode.mirror != 0 && h.id == s.mode.partner && h.mirror == s.mode.mirror && h.digest == s.pairDigest
    && (s.mode.mirror != 2 || h.imageId == (s.img.map (·.id)).getD 0)

/-- R544 to R546, R556: what the partner's HELLO is judged to mean for the pair. -/
def State.judge (s : State) (h : Hello) : State :=
  let st := s.pairState
  if !s.compatible h then if st = 2 then s else (s.setPair 2).event 0x02C1 8 0 []
  else if st = 1 ∨ st = 2 then s.startSync
  else if (st = 5 ∨ st = 6) ∧ s.fld F.mirCtl_manual 0 = 0 then s.startSync
  else s

/-- R545: the partner's HELLO judged anew after a change of this module's own digest. -/
def State.judgeHello (s : State) : State :=
  match s.mir.hello with
  | some h => if s.mode.mirror = 0 ∨ s.mirUp.isEmpty then s else s.judge h
  | none => s

/-- HELLO_RECEIVE: a HELLO that does not follow one of this module's own is answered (R544, R545, R556). -/
def execHelloReceive (p : Fin 32) (h : Hello) (s : State) : Out :=
  .next <| s.onMsg 0x50 (·.says 0 (helloBytes h)) fun s =>
    if s.mode.mirror = 0 ∨ s.portRole p ≠ 2 then s
    else
      let s := if s.mir.helloSent then s else s.tellHello
      (s.modMir fun m => { m with hello := some h, helloSent := false }).judge h

/-- SRV_CONFIG: the block is checked and installed on the engines of the region, every page free; HELLO tells the partner, whose own is
judged anew (R461, R464, R467, R474, R489, R545). -/
def execSrvConfig (c : Cmd) (region : BitVec 8) (addr : BitVec 64) (s : State) : Out :=
  .next <| s.runCmd c 0x0100 (operandsOf (.srvConfig c region addr)) false fun s =>
    let r := region.toNat
    let es := s.enginesOf r
    if es = [] then s.complete c 0x0100 0x0061
    else if s.running r || es.any fun e => !(s.eng e).used.isEmpty then s.complete c 0x0100 0x006D
    else if !s.fwPass c.fn false addr.toNat 128 then s.complete c 0x0100 0x0013
    else
      let b := rdBytes s.hostMem addr.toNat 128
      if !s.cfgOk r b then s.complete c 0x0100 0x0060
      else
        let n := cfgOf b
        let s := es.foldl (fun s e => (s.modEng e fun g =>
          { g with cfg := some n, cat := [], pageCnt := [], sentReqs := [], sentCat := [] }).setFld F.srvCtl_configured e 1) s
        let s := { s with ext := memClear s.ext (n.item (s.vitOf r) 8) (2 * (n.pageCount + n.annexPages)) }
        s.sendHello.judgeHello.complete c 0x0100 0

/-- SYNC_COMPLETE: the copy is done, and what each module hands over has changed hands: PAIRED, and what waited for it completes (R539, R556). -/
def execSyncComplete (s : State) : Out :=
  .next <|
    if s.pairState ≠ 3 ∨ !s.mir.heard ∨ !s.mir.giveRids.isEmpty ∨ !s.mir.handRids.isEmpty ∨ (s.mode.mirror = 1 ∧ !s.adoptedReqs.isEmpty)
      then s
    else
      let s := (s.setPair 4).event 0x02C7 8 0 []
      let s := match s.mir.joinCmd with | some c => s.complete c 0x0210 0 | none => s
      let s := s.wts.fenceIn.foldl (fun s f => s.complete f.2 0x0205 0) s
      let s := s.wts.fenced.foldl (fun s r =>
        (s.served r).foldl (fun s e => s.modEng e fun g => { g with fencedOut := false }) (s.setFld F.srvSwap_state r 0)) s
      (s.modWts fun w => { w with fenceIn := [], fenced := [] }).modMir fun m =>
        { m with joinCmd := none, hbLast := s.wall, adopt := false, handover := none, giving := false, heard := false }

/-- FENCE_IN: the handback begins as a sync; in twin mode the leader times it (R539, R540, R556, R557). -/
def execFenceIn (c : Cmd) (region : BitVec 8) (s : State) : Out :=
  .next <| s.runCmd c 0x0205 (operandsOf (.fenceIn c region)) false fun s =>
    let r := region.toNat
    if !s.wts.fenced.contains r ∨ s.pairState ≠ 7 then s.complete c 0x0205 0x0087
    else if s.mode.mirror = 2 then s.twinForward ⟨0x0205, c, r, 0, [], some [], s.wall, false, 0, 0⟩
    else
      let s := (s.setFld F.srvSwap_state r 4).modWts fun w => { w with fenceIn := mput w.fenceIn r c }
      (s.mirSend 0x50 [0x0006] (leBytes 2 6)).startSync

/-- PAIR_JOIN (R556, R560). -/
def execPairJoin (c : Cmd) (s : State) : Out :=
  .next <| s.runCmd c 0x0210 (operandsOf (.pairJoin c)) false fun s =>
    if s.mode.mirror = 0 ∨ s.mirUp.isEmpty then s.complete c 0x0210 0x0090
    else if !(match s.mir.hello with | some h => s.compatible h | none => false) then s.complete c 0x0210 0x0091
    else if s.pairState ≠ 5 ∧ s.pairState ≠ 6 then s.complete c 0x0210 0x0092
    else ((s.mirSend 0x50 [0x0006] (leBytes 2 6)).modMir fun m => { m with joinCmd := some c }).startSync

/-- PAIR_JOIN_RECEIVE: a survivor in LOST, DEGRADED or COVER starts SYNCING (R539, R556). -/
def execPairJoinReceive (s : State) : Out :=
  .next <| s.onMsg 0x50 (·.says 0 (leBytes 2 6)) fun s => if s.mode.mirror ≠ 0 ∧ (s.pairState = 5 ∨ s.pairState = 6 ∨ s.pairState = 8) then s.startSync else s

/-- R560: the pair is to be DEGRADED at the next boundary: at once while no serving region runs. -/
def State.dropSoon (s : State) : State :=
  let s := s.modMir fun m => { m with dropAt := true }
  if s.firstServing.isNone then s.dropPair.settleQueries else s

/-- PAIR_DROP (R560). -/
def execPairDrop (c : Cmd) (s : State) : Out :=
  .next <| s.runCmd c 0x0211 (operandsOf (.pairDrop c)) false fun s =>
    if s.mode.mirror = 0 then s.complete c 0x0211 0x0090
    else if s.pairState ≠ 4 then s.complete c 0x0211 0x0092
    else ((s.mirSend 0x50 [0x0008] (leBytes 2 8)).dropSoon).complete c 0x0211 0

/-- PAIR_DROP_RECEIVE (R560). -/
def execPairDropReceive (s : State) : Out := .next <| s.onMsg 0x50 (·.says 0 (leBytes 2 8)) fun s => if s.pairState = 4 then s.dropSoon else s

/-- R556, R611: the follower names what it hands over at the step H that the leader has named. -/
def State.answerHand (s : State) (h : Nat) : State :=
  if s.mir.fencing ∨ s.mir.updAct.isSome then s.nameRids h s.mir.giveRids else s.handBack h

/-- HANDOVER_RECEIVE: the partner names step H and the requests it hands over, for which the follower names its own; or the follower asks
the leader for H (R538, R539, R556, R611). -/
def execHandoverReceive (step : Nat) (rids : List (BitVec 32)) (mirrored : List MirReq) (s : State) : Out :=
  .next <| s.onMsg 0x50 (·.says 0 (argBytes (handItems step rids))) fun s =>
    if s.pairState ≠ 3 ∧ s.pairState ≠ 4 then s
    else if step = askStep then
      if !s.leader then s
      else match s.mir.handover with
        | some h => s.sendHandover h s.mir.giveRids
        | none => s.handBack (s.handStep (s.firstServing.getD 0))
    else
      let known (m : MirReq) : Bool := s.mir.mirrored.any fun q => q.2.rid == m.rid
      let s := s.modMir fun m =>
        { m with
          handover := some step, handRids := rids.filter (· != fenceMark), heard := true, cover := rids.head? == some fenceMark
          mirrored := m.mirrored ++ (mirrored.filter fun x => !known x).map fun x => (bits x.rid.toNat 23 23, x) }
      if s.leader || s.mir.giving then s else s.answerHand step

/-! ## Admission of a pair (R548) -/

/-- ADMIT_QUERY_RECEIVE: the leader decides against the pair's committed load and answers (R548). -/
def execAdmitQueryReceive (engine : Fin 2) (region : Fin 8) (dec att pages : Nat) (query : Nat) (s : State) : Out :=
  .next <| s.onMsg 0x50 (·.says 0 (argBytes [0x0001, engine.val, region.val, dec, att, pages, query])) fun s =>
    if s.mode.mirror ≠ 1 ∨ s.pairState ≠ 4 ∨ !s.leader then s
    else match s.takerOf engine region with
      | none => s
      | some e =>
        let fits := match (s.eng e).cfg with | some c => s.pairFits e c dec att pages | none => false
        let items := [0x0002, query, if fits then 0 else 0x0065]
        let s := s.mirSend 0x50 items (argBytes items)
        if fits then s.modMir fun m => { m with grants := m.grants ++ [(query, e, dec, att, pages)] } else s

/-- ADMIT_VERDICT_RECEIVE: the submission that waited is admitted or refused (R479, R481, R548). -/
def execAdmitVerdictReceive (query : Nat) (status : BitVec 16) (s : State) : Out :=
  .next <| s.onMsg 0x50 (·.says 0 (argBytes [0x0002, query, status.toNat])) fun s => match s.mir.queries.find? fun w => w.no == query with
    | none => s
    | some w => (s.modMir fun m => { m with queries := m.queries.filter fun x => x.no != query }).decideQuery w status.toNat

/-! ## Twin commands (R557, R558) -/

/-- TWIN_COMMAND_RECEIVE: the leader gives a forwarded command its verdict and its step; the follower takes the leader's
answer, or the leader's own command; or the partner's LAUNCH waits (R557, R558). -/
def execTwinCommandReceive (cmd : TwinCmd) (s : State) : Out :=
  .next <| s.onMsg 0x50 (·.says 0 (twinBytes cmd)) fun s =>
    if s.mode.mirror ≠ 2 then s
    else if cmd.kind = 0x0004 then
      if s.twinCoupled then s.modMir fun m => { m with launched := m.launched.filter (· != cmd.region) ++ [cmd.region] } else s
    else if !s.twinLinked cmd.kind then s
    else if s.leader then
      let t := { cmd with fromPartner := true }
      s.twinForward (if t.kind = 0x0101 then s.twinVerdict t else t)
    else if cmd.fromPartner then
      let mine (t : TwinCmd) : Bool := t.applyStep == 0 && !t.fromPartner && t.kind == cmd.kind && t.cmd.fn == cmd.cmd.fn && t.cmd.tag == cmd.cmd.tag
      match s.mir.twins.find? mine with
      | none => s
      | some t =>
        s.modMir fun m => { m with twins := m.twins.filter (fun x => x != t) ++ [{ cmd with cmd := t.cmd, fromPartner := false }] }
    else s.modMir fun m => { m with twins := m.twins ++ [{ cmd with fromPartner := true }] }

/-! ## KV packets and records (R550, R551) -/

/-- A module takes mirror traffic while the pair is PAIRED or SYNCING (R552, R556). -/
def State.takesMirror (s : State) : Bool := s.mode.mirror != 0 && (s.pairState == 4 || s.pairState == 3)

/-- The own engine that stands for a partner's engine. -/
def State.ownFor (s : State) (e : Nat) : Nat := if (s.eng e).cfg.isSome then e else 1 - e

/-- KV_PACKET_RECEIVE: token IDs and KV go into the mapped page (R550, R551). -/
def execKvPacketReceive (k : KvPacket) (s : State) : Out :=
  .next <| s.onArrived (fun p => p.type == 0x51 && p.body == kvBody k) fun s =>
    let own := s.ownFor k.engine
    match (s.eng own).cfg with
    | none => s
    | some c =>
      let z := kvBytes c.pageBytes
      if !s.takesMirror || decide (k.data.length ≠ k.count * (4 + z)) || decide (256 < k.first + k.count) then s
      else
        let t := s.mapPage k.engine own k.page
        let s := t.1
        let put (m : List Host.Cell) (i : Nat) : List Host.Cell :=
          let d := k.data.drop (i * (4 + z))
          wrBytes (wrBytes m (c.page t.2 + 4 * (k.first + i)) (d.take 4)) (c.page t.2 + 1024 + z * (k.first + i)) ((d.drop 4).take z)
        let s := { s with ext := (List.range k.count).foldl put s.ext }
        let n := ((s.mir.kvGot.find? fun g => g.1 == k.engine && g.2.1 == k.step).map (·.2.2)).getD 0
        s.modMir fun m =>
          { m with kvGot := m.kvGot.filter (fun g => !(g.1 == k.engine && g.2.1 == k.step)) ++ [(k.engine, k.step, n + 1)]
                   kvPages := m.kvPages.filter (· != (k.engine, k.step, k.page)) ++ [(k.engine, k.step, k.page)] }

/-- STEP_RECORD_APPLY: the images, emissions and catalogue entries of a record that has come whole with all its KV packets are taken,
and ACK is sent; of a request in LOADING the RID alone is kept, and one that has ended is handed over no more (R548, R550 to R552,
R555). -/
def execStepRecordApply (r : StepRecord) (s : State) : Out :=
  .next <|
    let got := ((s.mir.kvGot.find? fun g => g.1 == r.engine && g.2.1 == r.step).map (·.2.2)).getD 0
    if !s.takesMirror || decide (got < r.kvCount) then s
    else s.onMsg 0x52 (·.says 0 (recordBytes r)) fun s =>
      let own := s.ownFor r.engine
      let live := r.reqs.filter fun m => decide (2 ≤ m.state) && decide (m.state ≤ 3)
      let over_ (rid : BitVec 32) : Bool := r.reqs.any fun m => m.rid == rid && decide (3 < m.state)
      let named (rid : BitVec 32) : Bool := r.reqs.any fun m => m.rid == rid
      let dropped (e : Nat) (c : MirCat) : Bool :=
        e == r.engine && (r.catDrop.contains (c.tenant, c.handle) || r.catAdd.any fun x => x.tenant == c.tenant && x.handle == c.handle)
      let s := s.modMir fun m =>
        { m with
          mirrored := m.mirrored.filter (fun q => !(q.1 == r.engine && named q.2.rid)) ++ live.map (fun q => (r.engine, q))
          mirCat := m.mirCat.filter (fun c => !dropped c.1 c.2) ++ r.catAdd.map (fun c => (r.engine, c))
          pendEmis := if s.mode.mirror = 1 then m.pendEmis ++ r.emissions else m.pendEmis
          kvGot := m.kvGot.filter fun g => !(g.1 == r.engine && g.2.1 == r.step)
          kvPages := m.kvPages.filter fun g => !(g.1 == r.engine && g.2.1 == r.step)
          loading := m.loading.filter (fun q => !named q.2) ++ (r.reqs.filter fun q => q.state == 1).map fun q => (r.engine, q.rid)
          grants := m.grants.filter fun g => g.2.1 != own || decide (r.loadQuery ≤ g.1)
          handRids := m.handRids.filter fun rid => !over_ rid }
      let s := live.foldl (fun s q => (s.mapPages r.engine own q.pages).1) s
      let s := (s.modEng own fun g => { g with mirLoad := (r.loadDec, r.loadAtt, r.loadPages) }).trimMap
      let items := [0x0007, r.step, r.engine]
      s.mirSend 0x50 items (argBytes items)

/-- ACK_RECEIVE: the step's emissions may be written (R551). -/
def execAckReceive (step : Nat) (engine : Fin 2) (s : State) : Out :=
  .next <| s.onMsg 0x50 (·.says 0 (argBytes [0x0007, step, engine.val])) fun s => s.modMir fun m => { m with waitAck := m.waitAck.filter fun w => !(w.1 == engine.val && w.2.1 == step) }

/-- ACKWAIT_EXPIRY: no ACK in MIR_CTL.ACKWAIT µs (R551). -/
def execAckwaitExpiry (engine : Fin 2) (s : State) : Out :=
  .next <|
    if s.mir.waitAck.any fun w => w.1 == engine.val && decide (w.2.2 + 100 * s.fld F.mirCtl_ackwait 0 ≤ s.wall) then
      (((s.modMir fun m => { m with waitAck := [] }).event 0x02C4 8 0 []).satAdd F.mirStat_acklate 0 1 |>.setPair 5).settleQueries
    else s

/-! ## Heartbeats (R553, R554, R558) -/

/-- HEARTBEAT_RECEIVE (R553, R555, R558). -/
def execHeartbeatReceive (p : Fin 32) (h : Heartbeat) (s : State) : Out :=
  .next <| s.onMsg 0x53 (·.says 0 (heartbeatBytes h)) fun s =>
    if s.mode.mirror = 0 ∨ s.portRole p ≠ 2 then s
    else
      let s := (s.setFld F.mirState_missed 0 0).setFld F.mirState_peerstep 0 h.step
      let s := s.modMir fun m =>
        { m with
          hbStep := h.step + 1, hbLast := s.wall
          pendEmis := if s.mode.mirror = 1 then m.pendEmis.filter (fun x => decide (h.step < x.step)) else m.pendEmis
          peerDigs := if s.mode.mirror = 2 then m.peerDigs.filter (fun d => d.1 != h.step) ++ [(h.step, h.digest)] else m.peerDigs }
      if s.mode.mirror = 2 then (s.checkDigest h.step).settleQueries else s

/-- IDLE_HEARTBEAT: every MIR_CTL.IDLEHB µs while no serving region runs (R553). -/
def execIdleHeartbeat (s : State) : Out :=
  .next <|
    if s.mode.mirror = 0 ∨ s.firstServing.isSome ∨ s.wall < s.mir.hbIdle + 100 * max 1 (s.fld F.mirCtl_idlehb 0) then s
    else
      let dig := ((s.mir.digests.find? fun d => d.1 == s.mir.ownStep).map fun d => d.2.take 16).getD []
      (s.modMir fun m => { m with hbIdle := s.wall }).sendHeartbeat s.mir.ownStep dig

/-- R553: a heartbeat interval, in ticks. -/
def State.hbInterval (s : State) : Nat :=
  match s.firstServing with
  | some r => s.ticks (s.stepBound r)
  | none => 100 * max 1 (s.fld F.mirCtl_idlehb 0)

/-- HEARTBEAT_INTERVAL: an interval has passed without a heartbeat from the partner (R553, R554). -/
def execHeartbeatInterval (s : State) : Out :=
  .next <|
    if s.mode.mirror = 0 ∨ s.pairState < 3 ∨ s.wall < s.mir.hbLast + s.hbInterval then s
    else
      let s := (s.satAdd F.mirState_missed 0 1).modMir fun m => { m with hbLast := m.hbLast + s.hbInterval }
      let s := s.checkLoss
      if s.fld F.mirState_missed 0 = 3 ∧ !s.mirUp.isEmpty ∧ [3, 4, 7, 8].contains s.pairState then
        ((s.event 0x02C3 8 0 []).setPair 5).settleQueries
      else s.settleQueries

end Sys2Proof.Machine
end

