-- ==== Sys2Proof/Machine/Update.lean ====
section
/-! DEFINITION. Firmware updates, the owner's policy and attestation (R608 to R619). -/

namespace Sys2Proof.Machine

/-! ## Checks (R609) -/

/-- Check 3 of R609: the pair is not at rest, or adopted requests are carried; never in recovery mode (R605). -/
def State.mirrorBusy (s : State) : Bool :=
  !s.boot.recovery && ([3, 5, 6, 7, 8].contains s.pairState || s.fld F.mirState_adopted 0 == 1)

/-- Check 2 of R609. -/
def State.supplyPoor (s : State) : Bool := decide (s.pwr.vin < 5000) || !s.boot.holdup

/-- Check 4 of R609 for UPD_BEGIN. -/
def State.beginOut (s : State) : Bool := (s.boot.slotIn 1).isSome || (s.boot.slotIn 3).isSome

/-- Check 4 of R609 for UPD_BLOCK and UPD_ACTIVATE. -/
def State.stageOut (s : State) : Bool := s.boot.staged.isNone

/-- R609: the status of the first check that fails, 0 for none; `out` is check 4. -/
def State.updCheck (s : State) (out : Bool) : Nat :=
  if s.fuses.ownlock || s.fld F.secPolicy_lock 0 == 1 then 0x00A0
  else if s.supplyPoor then 0x00A1
  else if s.mirrorBusy then 0x00A2
  else if out then 0x00A4
  else 0

/-! ## Staging (R610) -/

/-- The slot with a manifest written to its block 0, no block of the manifest's parts written (R601, R607, R610). -/
def slotFrom (b : List Byte) (f : FwSlot) : FwSlot :=
  { f with
    state := 1
    svn := manAt b 8 1
    tried := false
    setfmt := manAt b 0x0A 2
    keyslot := manAt b 7 1
    revoke := bits (manAt b 9 1) 0 0 == 1
    manifest := b
    blocks := manAt b 0x0C 4
    written := [] }

/-- UPD_BEGIN (R609, R610). -/
def execUpdBegin (c : Cmd) (addr : BitVec 64) (len : BitVec 32) (sigOk : Bool) (s : State) : Out :=
  .next <| s.runCmd c 0x0300 (operandsOf (.updBegin c addr len sigOk)) false fun s =>
    let st := s.updCheck s.beginOut
    let i := if s.boot.slotA.state = 4 then 1 else 0
    if st ≠ 0 then s.complete c 0x0300 st
    else if !s.fwPass 0 false addr.toNat len.toNat then s.complete c 0x0300 0x0013
    else
      let b := rdBytes s.hostMem addr.toNat len.toNat
      if !s.manPasses b sigOk then s.complete c 0x0300 0x00A5
      else ((s.modSlot i fun f => slotFrom b f).writeRecord).complete c 0x0300 0

/-- Every block of a slot is written. -/
def FwSlot.whole (f : FwSlot) : Bool := (List.range f.blocks).all fun k => f.written.contains (k + 1)

/-- A slot that is STAGING or STAGED is STAGED when every block is written; the change is in the boot record, and STAGED
records event 0x02E3 (R610). -/
def State.restage (s : State) (i : Nat) : State :=
  let f := s.boot.slot i
  let st := if f.whole then 2 else 1
  if f.state = st then s
  else
    let s := (s.modSlot i fun f => { f with state := st }).writeRecord
    if st = 2 then s.event 0x02E3 8 0 [] else s

/-- UPD_BLOCK: the block is written and read back; where the check value of either differs it is marked unwritten (R610).  The status for a block
outside the manifest's is not stated (DESIGN CHOICE, notes/assumptions/20.md). -/
def execUpdBlock (c : Cmd) (block : BitVec 16) (crc : BitVec 32) (addr : BitVec 64) (s : State) : Out :=
  .next <| s.runCmd c 0x0301 (operandsOf (.updBlock c block crc addr)) false fun s =>
    let st := s.updCheck s.stageOut
    let k := block.toNat
    if st ≠ 0 then s.complete c 0x0301 st
    else match s.boot.staged with
    | none => s.complete c 0x0301 0x00A4
    | some i =>
      if k = 0 ∨ (s.boot.slot i).blocks < k then s.freeStatus c 0x0301
      else if !s.fwPass 0 false addr.toNat 65536 then s.complete c 0x0301 0x0013
      else
        let b := rdBytes s.hostMem addr.toNat 65536
        let s := s.modSlot i fun f => { f with data := wrBytes f.data (65536 * (k - 1)) b }
        let back := rdBytes (s.boot.slot i).data (65536 * (k - 1)) 65536
        let ok := crc32c b == crc && crc32c back == crc
        let s := s.modSlot i fun f =>
          { f with written := f.written.filter (· != k) ++ (if ok then [k] else []) }
        (s.restage i).complete c 0x0301 (if ok then 0 else 0x00A3)

/-- UPD_ABORT: the slot is EMPTY; with none staged the command is out of sequence (R610; DEDUCED, notes/assumptions/33.md). -/
def execUpdAbort (c : Cmd) (s : State) : Out :=
  .next <| s.runCmd c 0x0303 (operandsOf (.updAbort c)) false fun s =>
    match s.boot.staged with
    | some i => ((s.modSlot i fun f => { f with state := 0 }).writeRecord).complete c 0x0303 0
    | none => s.complete c 0x0303 0x00A4

/-! ## Activation (R611, R615) -/

/-- The RIDs of every request held (R611). -/
def State.heldRids (s : State) : List (BitVec 32) := [0, 1].flatMap fun e => (s.eng e).admitted.map fun q => q.2.rid

/-- R611: every request held goes to the partner at step H; admissions end meanwhile. -/
def State.handAll (s : State) (c : Cmd) : State :=
  let rids := s.heldRids
  let s := { s with engs := s.engs.map fun (g : Nat × Engine) => (g.1, { g.2 with fencedOut := true }) }
  let s := (s.beginHand (s.firstServing.getD 0) rids).modMir fun m => { m with updAct := some c, updReady := false }
  s.handNow.finishActivate

/-- UPD_ACTIVATE (R609, R611); `sigOk` says that the staged slot's signature verifies. -/
def execUpdActivate (c : Cmd) (sigOk : Bool) (s : State) : Out :=
  .next <| s.runCmd c 0x0302 (operandsOf (.updActivate c sigOk)) false fun s =>
    let st := s.updCheck s.stageOut
    if st ≠ 0 then s.complete c 0x0302 st
    else match s.boot.staged with
    | none => s.complete c 0x0302 0x00A4
    | some i =>
      let f := s.boot.slot i
      if !(s.manPasses f.manifest sigOk && f.partsOk) then s.complete c 0x0302 0x00A6
      else if s.heldRids.isEmpty then s.activate c
      else if s.pairState ≠ 4 ∨ s.handing then s.complete c 0x0302 0x00A7
      else s.handAll c

/-! ## The trial (R612 to R614) -/

/-- UPD_CONFIRM (R612). -/
def execUpdConfirm (c : Cmd) (s : State) : Out :=
  .next <| s.runCmd c 0x0304 (operandsOf (.updConfirm c)) false fun s =>
    if s.boot.trial then (s.modBoot fun b => { b with hostConf := true }).complete c 0x0304 0 else s.complete c 0x0304 0x00A4

/-- The end of the trial window, in Milug's time: WINDOW seconds from the trial boot, 0 taken as 1 (R612, R627). -/
def State.trialEnd (s : State) : Nat := s.boot.trialAt + 100000000 * max 1 (s.fld F.updCtl_window 0)

/-- R612: the firmware on trial may confirm itself. -/
def State.mayConfirm (s : State) : Bool :=
  s.boot.trial && s.boot.stage == 7 && s.fld F.memStepok_ok 0 == s.boot.okRec && !s.boot.faulted
    && (s.fld F.updCtl_hostconf 0 == 0 || s.boot.hostConf) && decide (s.milug.time < s.trialEnd)

/-- TRIAL_CONFIRMATION (R612, R613). -/
def execTrialConfirmation (s : State) : Out :=
  .next <|
    if !s.mayConfirm then s
    else
      let i := s.boot.active
      let s := (s.modSlot i fun f => { f with state := 4 }).modSlot (1 - i) fun f => if f.state = 4 then { f with state := 5 } else f
      let s := s.modArea (1 - (s.boot.slot i).area) fun a => { a with used := false }
      let s := ((s.modBoot fun b => { b with trial := false, okRec := s.fld F.memStepok_ok 0 }).writeRecord).fuseSlot (s.boot.slot i)
      s.event 0x02E2 8 0 [(4, (s.boot.slot i).svn)]

/-- TRIAL_WINDOW_EXPIRY: a warm reset, after which the ROM falls back (R612, R614). -/
def execTrialWindowExpiry (s : State) : Out :=
  .next <| if s.boot.trial && decide (s.trialEnd ≤ s.milug.time) then s.warmReset 5 else s

/-! ## Owner key and policy (R616, R617) -/

/-- OWNER_SET's effect: OWNKEY and OWNSET, once; the status (R617). -/
def State.setOwner (s : State) (hash : BitVec 256) : State × Nat :=
  if s.fuses.ownset then (s, 0x00AB) else ({ s with fuses := { s.fuses with ownkey := hash, ownset := true } }, 0)

/-- The value of a hash given as bytes, byte 0 lowest. -/
def hashVal (b : List Byte) : BitVec 256 := BitVec.ofNat 256 (leNat b)

/-- OWNER_SET (R608, R617). -/
def execOwnerSet (c : Cmd) (hash : BitVec 256) (s : State) : Out :=
  .next <| s.runCmd c 0x0312 (operandsOf (.ownerSet c hash)) false fun s => let r := s.setOwner hash; r.1.complete c 0x0312 r.2

/-- The bytes of a policy record (R616). -/
def policyBytes : Nat := 18336

/-- R616, R617: a policy record is accepted. -/
def State.policyOk (s : State) (b : List Byte) (sigOk : Bool) : Bool :=
  s.fuses.ownset && b.length == policyBytes && manAt b 0 4 == 0x504F4B54 && manAt b 4 2 == 1 && decide (manAt b 6 2 < 16)
    && manAt b 0x0C 4 == 0 && hashVal (sha256 ((b.drop 0x810).take 48)) == s.fuses.ownkey && sigOk
    && (s.boot.policy.isEmpty || decide (manAt s.boot.policy 8 4 < manAt b 8 4))

/-- R617: a policy takes effect; the status. -/
def State.setPolicy (s : State) (b : List Byte) (sigOk : Bool) : State × Nat :=
  if s.policyOk b sigOk then
    let fl := manAt b 6 2
    let s := { s with
      fuses := { s.fuses with ownlock := s.fuses.ownlock || bits fl 2 2 == 1, debugdis := s.fuses.debugdis || bits fl 3 3 == 1 }
      boot := { s.boot with policy := b } }
    (s.policyRegs.event 0x02E5 8 0 [(4, manAt b 8 4)], 0)
  else (s, 0x00AA)

/-- POLICY (R608, R616, R617). -/
def execPolicy (c : Cmd) (addr : BitVec 64) (sigOk : Bool) (s : State) : Out :=
  .next <| s.runCmd c 0x0311 (operandsOf (.policy c addr sigOk)) false fun s =>
    if !s.fwPass 0 false addr.toNat policyBytes then s.complete c 0x0311 0x0013
    else let r := s.setPolicy (rdBytes s.hostMem addr.toNat policyBytes) sigOk; r.1.complete c 0x0311 r.2

/-! ## Attestation (R619) -/

/-- The FLAGS of a report (R619). -/
def State.reportFlags (s : State) : Nat :=
  b2n (!s.fuses.debugdis) + 2 * b2n s.img.isSome + 4 * s.fld F.hstHistate_signed 0 + 8 * s.fld F.hstHistate_modified 0
    + 16 * s.fld F.hstHistate_fast 0 + 32 * s.fld F.hstHistate_expert 0 + 64 * b2n s.fuses.ownset
    + 128 * s.fld F.secPolicy_lock 0 + 256 * s.fld F.secPolicy_reqsign 0 + 512 * b2n s.boot.trial
    + 1024 * s.fld F.secBootstat_fallback 0

/-- A plan joins a list in increasing ID. -/
def insPlan (p : Plan) : List Plan → List Plan
  | [] => [p]
  | q :: qs => if p.id ≤ q.id then p :: q :: qs else q :: insPlan p qs

/-- The plan records of a report, in increasing ID (R619). -/
def State.planRecords (s : State) : List Byte :=
  (s.plans.foldr insPlan []).flatMap fun p => leBytes 4 p.id ++ leBytes 1 p.region ++ [0, 0, 0] ++ p.digest

/-- `n` zero bytes. -/
def zeros (n : Nat) : List Byte := List.replicate n 0

/-- The 32 bytes at 0x40: the hash of the running manifest, free for the slot that ships (R619; notes/assumptions/3.md). -/
def State.manifestHash (s : State) : List Byte :=
  let m := (s.boot.slot s.boot.active).manifest
  if m.isEmpty then s.freeBytes 32 else sha256 (m.take 0x1C0)

/-- The report before its signature (R619). -/
def State.report (s : State) (nonce : BitVec 256) : List Byte :=
  leBytes 4 0x52414B54 ++ leBytes 2 1 ++ leBytes 1 (if s.fuses.grade then 0x0B else 0x0A) ++ leBytes 1 s.fuses.stepping
    ++ leBytes 4 (s.reg .fabId 0) ++ leBytes 4 s.reportFlags ++ leBytes 1 s.fuses.svn ++ leBytes 1 s.boot.active
    ++ leBytes 2 s.plans.length ++ zeros 4 ++ leBytes 8 s.cnt ++ leBytes 32 nonce.toNat ++ s.manifestHash
    ++ (match s.img with | some im => im.digest | none => zeros 32)
    ++ (if s.boot.policy.isEmpty then zeros 32 else sha256 (s.boot.policy.take 0x810)) ++ sha256 s.planRecords
    ++ leBytes 8 ((s.img.map fun im => im.id.toNat).getD 0) ++ zeros 24
    ++ (List.range 4).flatMap (fun i => leBytes 8 (s.reg .secIdpub i)) ++ s.planRecords

/-- ATTEST: the report and its signature of 17,088 bytes, which the model leaves free (R619; notes/assumptions/7.md). -/
def execAttest (c : Cmd) (nonce : BitVec 256) (addr : BitVec 64) (len : BitVec 32) (s : State) : Out :=
  .next <| s.runCmd c 0x0310 (operandsOf (.attest c nonce addr len)) false fun s =>
    let r := s.report nonce ++ (List.range 17088).map fun i => Config.sigByte (2 * s.freeCtr + 1) i
    if len.toNat < r.length then s.complete c 0x0310 0x00A8
    else if !s.fwPass 0 true addr.toNat r.length then s.complete c 0x0310 0x0013
    else ({ s with hostMem := wrBytes s.hostMem addr.toNat r }.freeStep 32).complete c 0x0310 0

end Sys2Proof.Machine
end

