-- ==== Sys2Proof/Machine/Milug.lean ====
section
/-! DEFINITION. The management bus: Milug's commands, and the loss of VSTBY (R635, R642 to R646). -/

namespace Sys2Proof.Machine

/-- Milug's response to a command: a status byte and then the data (R643). -/
def State.respond (s : State) (status : Nat) (data : List Byte) : State :=
  s.modMilug fun m => { m with resp := m.resp ++ [(status, data)] }

/-- A command Milug runs, once the bus is usable (R594, R595, R644). -/
def State.bus (s : State) (f : State → State) : State := if s.milug.up then f s else s

/-- The main supply is on (R644). -/
def State.mainOn (s : State) : Bool := s.pwr.stage

/-- IDENT: grade, stepping, serial number, fused SVN and FAB_ID (R644; layout in notes/assumptions/34.md). -/
def execIdent (s : State) : Out :=
  .next <| s.bus fun s => s.respond 0
    (leBytes 1 (if s.fuses.grade then 0x0B else 0x0A) ++ leBytes 1 s.fuses.stepping ++ leBytes 8 Config.serial.toNat
      ++ leBytes 1 s.fuses.svn ++ leBytes 4 (s.reg .fabId 0))

/-- SET_ID: firmware writes FAB_ID, or Milug holds the value until the firmware starts (R395, R396, R644). -/
def execSetId (id : BitVec 20) (s : State) : Out :=
  .next <| s.bus fun s =>
    if !s.boot.firmware then (s.modMilug fun m => { m with heldId := some id }).respond 0 []
    else if (List.range 32).all fun p => s.portState p ≤ 1 then
      let s := (s.setFld F.fabId_id 0 id.toNat).setFld F.fabId_valid 0 1
      ({ s with links := s.links.map fun (l : Nat × Link) => (l.1, { l.2 with blocked := false }) }).respond 0 []
    else (s.event 0x0290 8 0 []).respond 2 []

/-- The hottest temperature a guard has read, and the guard, the lowest of those that read it (R588). -/
def State.hottest (s : State) : Nat × Nat :=
  s.pwr.temps.foldl (fun (a : Nat × Nat) t => if a.1 < t.2 then (t.2, t.1) else a) (0, 0)

/-- The highest guard level (R588). -/
def State.topLevel (s : State) : Nat := s.pwr.levels.foldl (fun a l => max a l.2) 0

/-- PWR_INPUT as it reads (R590). -/
def State.pwrInputWord (s : State) : Nat :=
  bits s.pwr.vin 15 0 * 2 ^ 48 + bits s.pwr.iin 15 0 * 2 ^ 32 + bits s.pwr.pin 15 0 * 2 ^ 16

/-- PWR_THERMSTAT as it reads (R588). -/
def State.thermWord (s : State) : Nat :=
  bits s.hottest.1 7 0 * 2 ^ 48 + bits s.hottest.2 3 0 * 2 ^ 44 + bits s.topLevel 1 0 * 2 ^ 42 + s.fld F.pwrThermstat_guardholds 0

/-- TELEM: PWR_INPUT, PWR_THERMSTAT[55:42] and CLK_STATE (R644). -/
def execTelem (s : State) : Out :=
  .next <| s.bus fun s => s.respond 0
    (leBytes 8 s.pwrInputWord ++ leBytes 2 (bits s.thermWord 55 42) ++ leBytes 4 (s.reg .clkState 0))

/-- POWER: 1 runs stage 2, 0 takes the power stage off (R594, R644, R645). -/
def execPower (on : BitVec 8) (s : State) : Out :=
  .next <| s.bus fun s =>
    if on = 0 then ((s.mainOff 0).modPwr fun p => { p with off := true }).respond 0 []
    else if on = 1 then
      if !s.inWindow then s.respond 2 []
      else
        let s := s.modPwr fun p => { p with off := false, offOver := false, latched := false, restarts := [] }
        (if s.boot.stage = 1 ∧ s.pwr.stage = false then s.supplyOn else s).respond 0 []
    else s.respond 3 []

/-- RESET: a warm reset of cause 6 (R597, R644). -/
def execReset (s : State) : Out :=
  .next <| s.bus fun s => if s.mainOn then (s.warmReset 6).respond 0 [] else s.respond 2 []

/-- FAULT: SEC_FAULT, SEC_BOOTSTAT and Milug's own state: 1 for firmware, and 2 where the rails have not come up (R594, R644; layout in notes/assumptions/34.md). -/
def execFault (s : State) : Out :=
  .next <| s.bus fun s => s.respond 0
    (leBytes 4 (s.reg .secFault 0) ++ leBytes 8 (s.reg .secBootstat 0) ++ leBytes 1 (b2n s.milug.fw + 2 * b2n s.milug.supplyFail))

/-- ALERTACK: MG_ALERT# is cleared (R642, R644). -/
def execAlertack (s : State) : Out :=
  .next <| s.bus fun s => (s.modMilug fun m => { m with alert := false }).respond 0 []

/-- OWNER_SET over the management bus (R617, R644). -/
def execMilugOwnerSet (hash : BitVec 256) (s : State) : Out :=
  .next <| s.bus fun s =>
    if s.fuses.ownset || !s.mainOn then s.respond 2 [] else (s.setOwner hash).1.respond 0 []

/-- POLICY_DATA: 1 to 192 bytes into the staging buffer (R644). -/
def execPolicyData (off : BitVec 16) (data : List Byte) (s : State) : Out :=
  .next <| s.bus fun s =>
    if data.length = 0 ∨ 192 < data.length ∨ policyBytes < off.toNat + data.length then s.respond 3 []
    else (s.modMilug fun m => { m with staging := wrBytes m.staging off.toNat data }).respond 0 []

/-- POLICY_COMMIT: firmware checks and installs the staged record; the data carries the status of POLICY (R617, R644). -/
def execPolicyCommit (sigOk : Bool) (s : State) : Out :=
  .next <| s.bus fun s =>
    if !s.mainOn || !s.boot.firmware then s.respond 2 []
    else
      let r := s.setPolicy (rdBytes s.milug.staging 0 policyBytes) sigOk
      r.1.respond 0 (leBytes 2 r.2)

/-- VSTBY_LOSS: the standby domain and the main supply stop; the flash stays (R578, R595, R635, R636). -/
def execVstbyLoss (s : State) : Out :=
  .next <|
    let s := s.mainOff 0
    { s with
      boot := { s.boot with vstby := false, stage := 0, holdup := false }
      pwr := { s.pwr with offOver := false, off := false, latched := false, restarts := [], window := none, lowAt := none }
      milug := { time := s.milug.time, phase := s.milug.phase } }

end Sys2Proof.Machine
end

