-- ==== Sys2Proof/Machine/Dispatch.lean ====
section
/-! DEFINITION. The dispatch of a command to its meaning, one arm per row of the opcode table. -/

namespace Sys2Proof.Machine

/-- The effect of a command on everything but the queue. -/
def exec (i : Instr) (s : State) : Host.Outcome State Fault Refusal :=
  match i with
  -- chapter 02: issue and the S slot
  | .tripleIssue t => Sys2Proof.Machine.execTripleIssue t s
  | .nop t slot pr => Sys2Proof.Machine.execNop t slot pr s
  | .mark t pr code => Sys2Proof.Machine.execMark t pr code s
  | .scalarAlu t pr op sd sa sb ps => Sys2Proof.Machine.execScalarAlu t pr op sd sa sb ps s
  | .scalarAluImmediate t pr op sd sa imm => Sys2Proof.Machine.execScalarAluImmediate t pr op sd sa imm s
  | .cmp t pr rel pd sa sb => Sys2Proof.Machine.execCmp t pr rel pd sa sb s
  | .cmpi t pr rel pd sa imm => Sys2Proof.Machine.execCmpi t pr rel pd sa imm s
  | .plog t pr pd pa pb tt => Sys2Proof.Machine.execPlog t pr pd pa pb tt s
  | .sld t pr sd sa h off => Sys2Proof.Machine.execSld t pr sd sa h off s
  | .sst t pr ss sa h off => Sys2Proof.Machine.execSst t pr ss sa h off s
  | .sldAg t pr sd ag => Sys2Proof.Machine.execSldAg t pr sd ag s
  | .sstAg t pr ss ag => Sys2Proof.Machine.execSstAg t pr ss ag s
  | .sget t pr sd sreg => Sys2Proof.Machine.execSget t pr sd sreg s
  | .loop t level count body => Sys2Proof.Machine.execLoop t level count body s
  | .loopd t level body => Sys2Proof.Machine.execLoopd t level body s
  | .agbase t pr ag imm => Sys2Proof.Machine.execAgbase t pr ag imm s
  | .agset t pr ag sa => Sys2Proof.Machine.execAgset t pr ag sa s
  | .agadd t pr ag sa => Sys2Proof.Machine.execAgadd t pr ag sa s
  | .aghnd t pr ag space h => Sys2Proof.Machine.execAghnd t pr ag space h s
  | .dwrC t level count => Sys2Proof.Machine.execDwrC t level count s
  | .dwrS t pr level ag sa => Sys2Proof.Machine.execDwrS t pr level ag sa s
  | .dwrSi t pr level ag imm => Sys2Proof.Machine.execDwrSi t pr level ag imm s
  | .resultWriteback t => Sys2Proof.Machine.execResultWriteback t s
  -- chapter 04: the matrix unit
  | .mload t pr wbuf ag wfmt => Sys2Proof.Machine.execMload t pr wbuf ag wfmt s
  | .mscl t pr wbuf ag => Sys2Proof.Machine.execMscl t pr wbuf ag s
  | .mzero t pr aset row0 rcnt => Sys2Proof.Machine.execMzero t pr aset row0 rcnt s
  | .mmul t pr f => Sys2Proof.Machine.execMmul t pr f s
  | .mdrain t pr f agD => Sys2Proof.Machine.execMdrain t pr f agD s
  | .mdrainv t pr f => Sys2Proof.Machine.execMdrainv t pr f s
  | .leafEnter t => Sys2Proof.Machine.execLeafEnter t s
  | .drainRowWrite t => Sys2Proof.Machine.execDrainRowWrite t s
  -- chapter 05: the vector engine
  | .vdef t pr chain stage word => Sys2Proof.Machine.execVdef t pr chain stage word s
  | .vrun t pr f => Sys2Proof.Machine.execVrun t pr f s
  | .vrunRowWrite t => Sys2Proof.Machine.execVrunRowWrite t s
  -- chapter 03: the mesh
  | .cput t pr sa agSrc agDst dh => Sys2Proof.Machine.execCput t pr sa agSrc agDst dh s
  | .nput t pr dir agSrc agDst dh => Sys2Proof.Machine.execNput t pr dir agSrc agDst dh s
  | .wget t pr f => Sys2Proof.Machine.execWget t pr f s
  | .wput t pr f => Sys2Proof.Machine.execWput t pr f s
  | .packetDepart pkt => Sys2Proof.Machine.execPacketDepart pkt s
  | .packetLand pkt => Sys2Proof.Machine.execPacketLand pkt s
  | .creditReturn pkt => Sys2Proof.Machine.execCreditReturn pkt s
  | .windowPacketHop t dir => Sys2Proof.Machine.execWindowPacketHop t dir s
  | .windowReadServe pkt => Sys2Proof.Machine.execWindowReadServe pkt s
  -- chapters 06 and 07: queues and external memory
  | .qrd t pr f => Sys2Proof.Machine.execQrd t pr f s
  | .qwr t pr f => Sys2Proof.Machine.execQwr t pr f s
  | .qwait t pr mask => Sys2Proof.Machine.execQwait t pr mask s
  | .qwrSourceRead acc => Sys2Proof.Machine.execQwrSourceRead acc s
  | .queueRequestArrive acc => Sys2Proof.Machine.execQueueRequestArrive acc s
  | .commitPoint acc ready => Sys2Proof.Machine.execCommitPoint acc ready s
  | .queueLanding acc => Sys2Proof.Machine.execQueueLanding acc s
  | .writeTakesEffect acc => Sys2Proof.Machine.execWriteTakesEffect acc s
  | .granuleServe acc gran res => Sys2Proof.Machine.execGranuleServe acc gran res s
  | .calendarWindowOpen ch j scrubFixed => Sys2Proof.Machine.execCalendarWindowOpen ch j scrubFixed s
  | .retrimComplete ch => Sys2Proof.Machine.execRetrimComplete ch s
  | .temperatureBinChange ch temp => Sys2Proof.Machine.execTemperatureBinChange ch temp s
  | .retrimForce by_ ch off val => Sys2Proof.Machine.execRetrimForce by_ ch off val s
  | .holdRefresh ch bank => Sys2Proof.Machine.execHoldRefresh ch bank s
  | .refreshOverdue ch bank => Sys2Proof.Machine.execRefreshOverdue ch bank s
  | .memRefWrite by_ ch off val => Sys2Proof.Machine.execMemRefWrite by_ ch off val s
  | .annexRequestSend port acc => Sys2Proof.Machine.execAnnexRequestSend port acc s
  | .annexResponse port acc res => Sys2Proof.Machine.execAnnexResponse port acc res s
  | .annexTimeout port => Sys2Proof.Machine.execAnnexTimeout port s
  | .annexLinkDown port => Sys2Proof.Machine.execAnnexLinkDown port s
  | .annexTrainingEnd port link => Sys2Proof.Machine.execAnnexTrainingEnd port link s
  | .annexRetrain by_ port off val => Sys2Proof.Machine.execAnnexRetrain by_ port off val s
  -- chapters 02 and 06: plan streaming, starts, holds
  | .fetchOpportunity g late => Sys2Proof.Machine.execFetchOpportunity g late s
  | .blockLanding g res => Sys2Proof.Machine.execBlockLanding g res s
  | .blockBroadcast g => Sys2Proof.Machine.execBlockBroadcast g s
  | .parkRequest => Sys2Proof.Machine.execParkRequest s
  | .invocationStart region => Sys2Proof.Machine.execInvocationStart region s
  | .invocationEnd t => Sys2Proof.Machine.execInvocationEnd t s
  | .launchCountDecision region => Sys2Proof.Machine.execLaunchCountDecision region s
  | .holdBegin => Sys2Proof.Machine.execHoldBegin s
  | .holdEnd => Sys2Proof.Machine.execHoldEnd s
  | .boundaryHoldRequest => Sys2Proof.Machine.execBoundaryHoldRequest s
  | .ptcHoldreqWrite by_ off val => Sys2Proof.Machine.execPtcHoldreqWrite by_ off val s
  | .occWindowEnd => Sys2Proof.Machine.execOccWindowEnd s
  -- chapter 08: DMA
  | .dmaStart c ch d => Sys2Proof.Machine.execDmaStart c ch d s
  | .dmaGo by_ ch off val => Sys2Proof.Machine.execDmaGo by_ ch off val s
  | .dmaPause by_ ch off val => Sys2Proof.Machine.execDmaPause by_ ch off val s
  | .dmaResume by_ ch off val => Sys2Proof.Machine.execDmaResume by_ ch off val s
  | .dmaAbort by_ ch off val => Sys2Proof.Machine.execDmaAbort by_ ch off val s
  | .dmaSlotAccess ch acc => Sys2Proof.Machine.execDmaSlotAccess ch acc s
  | .dmaDrainEnd ch => Sys2Proof.Machine.execDmaDrainEnd ch s
  | .dmaAccessFail ch write addr cause => Sys2Proof.Machine.execDmaAccessFail ch write addr cause s
  | .dmaPacketHop pkt => Sys2Proof.Machine.execDmaPacketHop pkt s
  | .bankGateEffect t => Sys2Proof.Machine.execBankGateEffect t s
  -- chapter 09: host interface
  | .ringScan host => Sys2Proof.Machine.execRingScan host s
  | .nopCommand c => Sys2Proof.Machine.execNopCommand c s
  | .loadImage c addr len sigOk => Sys2Proof.Machine.execLoadImage c addr len sigOk s
  | .planLoad c addr len => Sys2Proof.Machine.execPlanLoad c addr len s
  | .planFree c plan => Sys2Proof.Machine.execPlanFree c plan s
  | .launch c region mode plan count tree reads => Sys2Proof.Machine.execLaunch c region mode plan count tree reads s
  | .stop c region => Sys2Proof.Machine.execStop c region s
  | .completionWrite fn => Sys2Proof.Machine.execCompletionWrite fn s
  | .eventWrite fn => Sys2Proof.Machine.execEventWrite fn s
  | .interruptRaise fn vec => Sys2Proof.Machine.execInterruptRaise fn vec s
  | .ringAccessFail fn addr => Sys2Proof.Machine.execRingAccessFail fn addr s
  | .ringRestart fn => Sys2Proof.Machine.execRingRestart fn s
  | .ringEnable fn ring val => Sys2Proof.Machine.execRingEnable fn ring val s
  | .firewallWindowWrite by_ fn k lim off val => Sys2Proof.Machine.execFirewallWindowWrite by_ fn k lim off val s
  | .absentAccess by_ off val => Sys2Proof.Machine.execAbsentAccess by_ off val s
  | .vfFlr fn => Sys2Proof.Machine.execVfFlr fn s
  | .registerWrite by_ r off val => Sys2Proof.Machine.execRegisterWrite by_ r off val s
  | .handleEntryWrite by_ t n ctl off val => Sys2Proof.Machine.execHandleEntryWrite by_ t n ctl off val s
  | .slotCommand by_ t off val => Sys2Proof.Machine.execSlotCommand by_ t off val s
  | .mxctlWrite by_ t off val => Sys2Proof.Machine.execMxctlWrite by_ t off val s
  | .vctlWrite by_ t off val => Sys2Proof.Machine.execVctlWrite by_ t off val s
  | .vcwordWrite by_ t off val => Sys2Proof.Machine.execVcwordWrite by_ t off val s
  -- chapter 10: the link
  | .linkCycle p => Sys2Proof.Machine.execLinkCycle p s
  | .flitReceive p b crc => Sys2Proof.Machine.execFlitReceive p b crc s
  | .ackPoint p => Sys2Proof.Machine.execAckPoint p s
  | .replayTimerExpiry p => Sys2Proof.Machine.execReplayTimerExpiry p s
  | .scheduledFlitDelivery p => Sys2Proof.Machine.execScheduledFlitDelivery p s
  | .fullTrainingAttempt p => Sys2Proof.Machine.execFullTrainingAttempt p s
  | .trainingPhaseEnd p info => Sys2Proof.Machine.execTrainingPhaseEnd p info s
  | .trainingTimeout p => Sys2Proof.Machine.execTrainingTimeout p s
  | .lossOfSignal p => Sys2Proof.Machine.execLossOfSignal p s
  | .keptStateExpiry p => Sys2Proof.Machine.execKeptStateExpiry p s
  | .fecRateWindow p bad => Sys2Proof.Machine.execFecRateWindow p bad s
  | .lnkRetrain by_ p off val => Sys2Proof.Machine.execLnkRetrain by_ p off val s
  | .lnkRoleWrite by_ p off val => Sys2Proof.Machine.execLnkRoleWrite by_ p off val s
  | .lnkWreqWrite by_ p off val => Sys2Proof.Machine.execLnkWreqWrite by_ p off val s
  -- chapter 11: the fabric
  | .fabIdWrite by_ off val => Sys2Proof.Machine.execFabIdWrite by_ off val s
  | .scheduledPacketSend die stream => Sys2Proof.Machine.execScheduledPacketSend die stream s
  | .edgeUnitDelivery die => Sys2Proof.Machine.execEdgeUnitDelivery die s
  | .packetRoute die src => Sys2Proof.Machine.execPacketRoute die src s
  | .norouteTimeout die => Sys2Proof.Machine.execNorouteTimeout die s
  | .undeliverableNotice type ref cause => Sys2Proof.Machine.execUndeliverableNotice type ref cause s
  | .fragmentReceive pkt => Sys2Proof.Machine.execFragmentReceive pkt s
  | .reassemblyTimeout type origin ref => Sys2Proof.Machine.execReassemblyTimeout type origin ref s
  | .tableWrite by_ die bank id off mask => Sys2Proof.Machine.execTableWrite by_ die bank id off mask s
  | .drain by_ die off => Sys2Proof.Machine.execDrain by_ die off s
  | .switch by_ die off => Sys2Proof.Machine.execSwitch by_ die off s
  | .epochRelease by_ die off => Sys2Proof.Machine.execEpochRelease by_ die off s
  | .syncreqSend => Sys2Proof.Machine.execSyncreqSend s
  | .syncreqReceive p t1 => Sys2Proof.Machine.execSyncreqReceive p t1 s
  | .syncrspReceive p r at_ => Sys2Proof.Machine.execSyncrspReceive p r at_ s
  | .fabSyncctlWrite by_ off val => Sys2Proof.Machine.execFabSyncctlWrite by_ off val s
  | .launchMessageReceive tree count => Sys2Proof.Machine.execLaunchMessageReceive tree count s
  | .altwaitExpiry child => Sys2Proof.Machine.execAltwaitExpiry child s
  | .lackReceive child id => Sys2Proof.Machine.execLackReceive child id s
  | .lfailReceive node id status => Sys2Proof.Machine.execLfailReceive node id status s
  | .abortReceive id => Sys2Proof.Machine.execAbortReceive id s
  | .armReceive tree count => Sys2Proof.Machine.execArmReceive tree count s
  | .readyReceive node id => Sys2Proof.Machine.execReadyReceive node id s
  | .releaseFlitReceive p remain fwdDelay => Sys2Proof.Machine.execReleaseFlitReceive p remain fwdDelay s
  | .barrierTimeout => Sys2Proof.Machine.execBarrierTimeout s
  | .arriveReceive node id unsync => Sys2Proof.Machine.execArriveReceive node id unsync s
  | .stepReleaseReceive last next abort => Sys2Proof.Machine.execStepReleaseReceive last next abort s
  | .stepBarrierTimeout => Sys2Proof.Machine.execStepBarrierTimeout s
  -- chapter 13: the serving engine
  | .srvConfig c region addr => Sys2Proof.Machine.execSrvConfig c region addr s
  | .submit c region addr => Sys2Proof.Machine.execSubmit c region addr s
  | .cancel c rid => Sys2Proof.Machine.execCancel c rid s
  | .outring c base size => Sys2Proof.Machine.execOutring c base size s
  | .tenantSet c engine tenant limit window funcs => Sys2Proof.Machine.execTenantSet c engine tenant limit window funcs s
  | .catDrop c engine tenant handle => Sys2Proof.Machine.execCatDrop c engine tenant handle s
  | .catMove c engine tenant handle tier => Sys2Proof.Machine.execCatMove c engine tenant handle tier s
  | .catMoveComplete engine tenant handle => Sys2Proof.Machine.execCatMoveComplete engine tenant handle s
  | .promptFetchComplete rid error => Sys2Proof.Machine.execPromptFetchComplete rid error s
  | .boundaryWork engine => Sys2Proof.Machine.execBoundaryWork engine s
  | .stepStart region => Sys2Proof.Machine.execStepStart region s
  | .emissionWrite fn => Sys2Proof.Machine.execEmissionWrite fn s
  | .tenantRefill engine tenant => Sys2Proof.Machine.execTenantRefill engine tenant s
  | .depthWrite by_ engine off val => Sys2Proof.Machine.execDepthWrite by_ engine off val s
  -- chapter 14: weights
  | .bcast c tree src length srcsp chan => Sys2Proof.Machine.execBcast c tree src length srcsp chan s
  | .openReceive b => Sys2Proof.Machine.execOpenReceive b s
  | .bcastReadyReceive node id => Sys2Proof.Machine.execBcastReadyReceive node id s
  | .chunkReceive die id j data => Sys2Proof.Machine.execChunkReceive die id j data s
  | .bcastStall die => Sys2Proof.Machine.execBcastStall die s
  | .needReceive die node id j => Sys2Proof.Machine.execNeedReceive die node id j s
  | .bcfailReceive node id => Sys2Proof.Machine.execBcfailReceive node id s
  | .bcastDoneReceive node id => Sys2Proof.Machine.execBcastDoneReceive node id s
  | .bcastTimeout die => Sys2Proof.Machine.execBcastTimeout die s
  | .bcastAbortReceive die id => Sys2Proof.Machine.execBcastAbortReceive die id s
  | .wtable c region addr => Sys2Proof.Machine.execWtable c region addr s
  | .wptr c region first count addr => Sys2Proof.Machine.execWptr c region first count addr s
  | .swap c addr units perStep => Sys2Proof.Machine.execSwap c addr units perStep s
  | .swapCopy => Sys2Proof.Machine.execSwapCopy s
  | .swapCopyEnd => Sys2Proof.Machine.execSwapCopyEnd s
  | .fenceOut c region => Sys2Proof.Machine.execFenceOut c region s
  | .fenceIn c region => Sys2Proof.Machine.execFenceIn c region s
  -- chapter 15: pairs
  | .helloReceive p h => Sys2Proof.Machine.execHelloReceive p h s
  | .syncComplete => Sys2Proof.Machine.execSyncComplete s
  | .admitQueryReceive engine region dec att pages query => Sys2Proof.Machine.execAdmitQueryReceive engine region dec att pages query s
  | .admitVerdictReceive query status => Sys2Proof.Machine.execAdmitVerdictReceive query status s
  | .twinCommandReceive cmd => Sys2Proof.Machine.execTwinCommandReceive cmd s
  | .kvPacketReceive k => Sys2Proof.Machine.execKvPacketReceive k s
  | .stepRecordApply r => Sys2Proof.Machine.execStepRecordApply r s
  | .ackReceive step engine => Sys2Proof.Machine.execAckReceive step engine s
  | .ackwaitExpiry engine => Sys2Proof.Machine.execAckwaitExpiry engine s
  | .heartbeatReceive p h => Sys2Proof.Machine.execHeartbeatReceive p h s
  | .idleHeartbeat => Sys2Proof.Machine.execIdleHeartbeat s
  | .heartbeatInterval => Sys2Proof.Machine.execHeartbeatInterval s
  | .pairJoin c => Sys2Proof.Machine.execPairJoin c s
  | .pairDrop c => Sys2Proof.Machine.execPairDrop c s
  | .pairDropReceive => Sys2Proof.Machine.execPairDropReceive s
  -- chapter 16: clocks, steps and power
  | .stepRequest by_ off val => Sys2Proof.Machine.execStepRequest by_ off val s
  | .pendingStepRelease => Sys2Proof.Machine.execPendingStepRelease s
  | .dividerSwitch => Sys2Proof.Machine.execDividerSwitch s
  | .droopTrip => Sys2Proof.Machine.execDroopTrip s
  | .stretchEnd n => Sys2Proof.Machine.execStretchEnd n s
  | .catchupEnd => Sys2Proof.Machine.execCatchupEnd s
  | .referenceLoss => Sys2Proof.Machine.execReferenceLoss s
  | .referenceReturn => Sys2Proof.Machine.execReferenceReturn s
  | .inputBoundaryCrossing vin iin => Sys2Proof.Machine.execInputBoundaryCrossing vin iin s
  | .inputLowReset => Sys2Proof.Machine.execInputLowReset s
  | .powerStageRestart => Sys2Proof.Machine.execPowerStageRestart s
  | .galGateWrite by_ g off val => Sys2Proof.Machine.execGalGateWrite by_ g off val s
  | .autoGate g => Sys2Proof.Machine.execAutoGate g s
  | .galleryWakeEnd region => Sys2Proof.Machine.execGalleryWakeEnd region s
  | .tilBankgateWrite by_ t off val => Sys2Proof.Machine.execTilBankgateWrite by_ t off val s
  | .bankUngateReady t bank => Sys2Proof.Machine.execBankUngateReady t bank s
  | .thermalLevelChange guard temp => Sys2Proof.Machine.execThermalLevelChange guard temp s
  | .guardHoldTick guard => Sys2Proof.Machine.execGuardHoldTick guard s
  | .throttleHold => Sys2Proof.Machine.execThrottleHold s
  | .overtempRailOff => Sys2Proof.Machine.execOvertempRailOff s
  -- chapter 17: start-up, trust and update
  | .vstbyApply senseMatch milugOk => Sys2Proof.Machine.execVstbyApply senseMatch milugOk s
  | .supplyStage => Sys2Proof.Machine.execSupplyStage s
  | .controllerStage passA passB => Sys2Proof.Machine.execControllerStage passA passB s
  | .rootClockLock => Sys2Proof.Machine.execRootClockLock s
  | .referenceWaitTimeout => Sys2Proof.Machine.execReferenceWaitTimeout s
  | .dieStage untrained => Sys2Proof.Machine.execDieStage untrained s
  | .selfTest pass => Sys2Proof.Machine.execSelfTest pass s
  | .moduleReady => Sys2Proof.Machine.execModuleReady s
  | .warmReset cause => Sys2Proof.Machine.execWarmReset cause s
  | .watchdogExpiry io => Sys2Proof.Machine.execWatchdogExpiry io s
  | .controllerEccError io => Sys2Proof.Machine.execControllerEccError io s
  | .updBegin c addr len sigOk => Sys2Proof.Machine.execUpdBegin c addr len sigOk s
  | .updBlock c block crc addr => Sys2Proof.Machine.execUpdBlock c block crc addr s
  | .updActivate c sigOk => Sys2Proof.Machine.execUpdActivate c sigOk s
  | .updAbort c => Sys2Proof.Machine.execUpdAbort c s
  | .updConfirm c => Sys2Proof.Machine.execUpdConfirm c s
  | .trialConfirmation => Sys2Proof.Machine.execTrialConfirmation s
  | .trialWindowExpiry => Sys2Proof.Machine.execTrialWindowExpiry s
  | .attest c nonce addr len => Sys2Proof.Machine.execAttest c nonce addr len s
  | .policy c addr sigOk => Sys2Proof.Machine.execPolicy c addr sigOk s
  | .ownerSet c hash => Sys2Proof.Machine.execOwnerSet c hash s
  -- chapter 18: Milug
  | .ident => Sys2Proof.Machine.execIdent s
  | .setId id => Sys2Proof.Machine.execSetId id s
  | .telem => Sys2Proof.Machine.execTelem s
  | .power on => Sys2Proof.Machine.execPower on s
  | .reset => Sys2Proof.Machine.execReset s
  | .fault => Sys2Proof.Machine.execFault s
  | .alertack => Sys2Proof.Machine.execAlertack s
  | .milugOwnerSet hash => Sys2Proof.Machine.execMilugOwnerSet hash s
  | .policyData off data => Sys2Proof.Machine.execPolicyData off data s
  | .policyCommit sigOk => Sys2Proof.Machine.execPolicyCommit sigOk s
  -- the last rows of the table
  | .pairJoinReceive => Sys2Proof.Machine.execPairJoinReceive s
  | .handoverReceive step rids mirrored => Sys2Proof.Machine.execHandoverReceive step rids mirrored s
  | .powerCapCrossing power => Sys2Proof.Machine.execPowerCapCrossing power s
  | .vstbyLoss => Sys2Proof.Machine.execVstbyLoss s

end Sys2Proof.Machine
end

