-- ==== Sys2Proof/Machine/Views.lean ====
section
/-! DEFINITION. What a register reads: the store, with the read-only fields that show other state put in (R16, R18, R91, R93,
R110, R174, R175, R212, R257, R264 to R266, R300, R390, R393, R438, R459, R510 to R519, R562, R588, R590, R628). -/

namespace Sys2Proof.Machine

/-- What a tile is doing: 0 idle, 1 issuing, 2 waiting, 3 held (R91). -/
def State.tileRun (s : State) (y : Nat) : Nat :=
  let t := s.tile y
  if !t.inInv then 0 else if s.held then 3 else if t.waiting then 2 else 1

/-- The state of a gallery's fetcher: 0 idle, 1 installing, 2 fetching, 3 ring full (R93); a streamed invocation with nothing left to fetch
or to broadcast reads 2 until it ends (DESIGN CHOICE, notes/assumptions/60.md). -/
def State.fetchState (s : State) (g : Nat) : Nat :=
  let v := s.gal g
  let R := s.region (s.galRec g).region
  if R.running && R.wake.isNone && decide (s.cnt < R.instEnd) then 1 else if (s.streaming g).isNone then 0 else if v.ring.length = 21 then 3 else 2

/-- The decode and prefill load of an engine: requests with a decode reservation, prefill vitrines not yet run (R510). -/
def Engine.backlog (g : Engine) (packed : Nat → Nat) : Nat :=
  g.admitted.foldl (fun a q => a + (q.2.vitrines - (q.2.prefilled - packed q.1))) 0

/-- UPD_STATE.STATE (R628). -/
def State.updPhase (s : State) : Nat :=
  if s.mir.updAct.isSome then 3
  else if s.boot.trial then 4
  else match s.boot.staged with | some i => (s.boot.slot i).state | none => 0

/-- The seconds left in the trial window (R628). -/
def State.winLeft (s : State) : Nat := if s.boot.trial then ceilDiv (s.trialEnd - s.milug.time) 100000000 else 0

/-- The fields of a register that show state held elsewhere, with their values. -/
def State.views (s : State) (k : RegKind) (i : Nat) : List (Fld × Nat) :=
  match k with
  | .tilState =>
    let t := (s.tile i).advance
    [(F.tilState_invocations, t.invs), (F.tilState_run, s.tileRun i), (F.tilState_pc, t.pc),
     (F.tilState_active, ((List.range 4).filter fun l => (t.lvl l).active).foldl (fun m l => m + 2 ^ l) 0)]
  | .galFetch =>
    let v := s.gal i
    [(F.galFetch_state, s.fetchState i), (F.galFetch_streamed, b2n (match s.installed (s.galRec i).region with | some p => streamedLen p.text.length | none => false)), (F.galFetch_ring_fill, v.ring.length),
     (F.galFetch_next_block, v.nextBlock)]
  | .tilHndb => [(F.tilHndb_base, bits (s.hndRegs (i / 64) (i % 64)).1 F.tilHndb_base.hi F.tilHndb_base.lo),
     (F.tilHndb_size, bits (s.hndRegs (i / 64) (i % 64)).1 F.tilHndb_size.hi F.tilHndb_size.lo)]
  | .tilHndc => RegKind.tilHndc.fields.map fun f => (f, bits (s.hndRegs (i / 64) (i % 64)).2 f.hi f.lo)
  | .tilSlotmap => [(F.tilSlotmap_full, bits (s.tile (i / 64)).full.toNat (64 * (i % 64) + 63) (64 * (i % 64)))]
  | .tilMxkrow =>
    let t := s.tile i
    let a := mget t.accs (64 * s.fld F.tilMxctl_rset i + s.fld F.tilMxctl_rrow i) {}
    [(F.tilMxkrow_poison, b2n a.poison), (F.tilMxkrow_started, b2n a.started),
     (F.tilMxkrow_depth, if t.locm then b2n a.started else a.stack.length), (F.tilMxkrow_knext, a.knext), (F.tilMxkrow_kbase, a.kbase)]
  | .tilMxstat =>
    let t := s.tile i
    [(F.tilMxstat_w0fmt, (mget t.wbufs 0 {}).fmt), (F.tilMxstat_w1fmt, (mget t.wbufs 1 {}).fmt),
     (F.tilMxstat_load, b2n (t.loadAt ≤ s.sched && s.sched ≤ t.loadFree)),
     (F.tilMxstat_stream, b2n (t.streamAt ≤ s.sched && s.sched ≤ t.streamFree)),
     (F.tilMxstat_drain, b2n (t.drainAt ≤ s.sched && s.sched ≤ t.drainFree))]
  | .tilVstat => [(F.tilVstat_busy, b2n ((s.tile i).vrows.any fun v => decide (v.enters ≤ s.sched)))]
  | .tilVcword => [(F.tilVcword_word, (mget (s.tile i).chains (8 * s.fld F.tilVcsel_chain i + s.fld F.tilVcsel_stage i) 0).toNat)]
  | .ptcState =>
    [(F.ptcState_held, b2n s.held), (F.ptcState_causes, s.causesAt s.cnt),
     (F.ptcState_parked, b2n (match s.park with | some p => p.covers s.cnt | none => false))]
  | .tilLate => [(F.tilLate_cur, min (s.tile i).late (2 ^ 32 - 1))]
  | .tilQstat => [(F.tilQstat_outst, ((List.range 16).filter fun n =>
      s.accs.any fun a => a.tile == i && a.tag == n && s.qOutstanding a).foldl (fun m n => m + 2 ^ n) 0)]
  | .galQstat => [(F.galQstat_entries, s.qEntries i), (F.galQstat_peak, max (s.fld F.galQstat_peak i) (s.qEntries i))]
  | .galOcc => [(F.galOcc_free, min (s.galFree i) 0xFFFF)]
  | .memCal =>
    let c := s.chan i
    [(F.memCal_progress, match c.retrim with | some r => 1024 - r.done | none => 0), (F.memCal_reduced, b2n c.reduced),
     (F.memCal_src, b2n c.useRun), (F.memCal_class, b2n c.inUse.full), (F.memCal_sett, c.inUse.bin),
     (F.memCal_load, b2n s.anyRunning), (F.memCal_tbin, c.bin)]
  | .lnkStat => [(F.lnkStat_unacked, (s.link i).replayBuf.length)]
  | .lnkPool => [(F.lnkPool_rxused, (s.link i).pool.length)]
  | .fabEpoch => [(F.fabEpoch_quiet, b2n (s.quiet i)), (F.fabEpoch_live, s.epoch i % 2)]
  | .ptcRepro =>
    let m := s.fld F.hstHistate_modified 0
    let t := b2n ((List.range 192).any fun g => (s.activeOf g).any fun u => s.fld F.tilMxctl_local (tIx u) == 1)
    let bad := max (max m t) (max (max (s.fld F.ptcRepro_lateissue 0) (s.fld F.ptcRepro_loss 0)) (s.fld F.ptcRepro_localimg 0))
    [(F.ptcRepro_modified, m), (F.ptcRepro_localtile, t), (F.ptcRepro_promise, if s.img.isSome then 1 - bad else 0)]
  | .srvOcc =>
    let g := s.eng i
    [(F.srvOcc_attres, g.attRes), (F.srvOcc_decres, g.admitted.length), (F.srvOcc_entries, g.used.length),
     (F.srvOcc_pfback, g.backlog fun n => match g.cfg with | some c => s.packedNext c.region i n | none => 0)]
  | .srvPages => [(F.srvPages_free, s.freePages i false), (F.srvPages_reserved, (s.eng i).pageRes)]
  | .srvUtil => [(F.srvUtil_step, match (s.eng i).cfg with | some c => s.curStep c.region | none => 0)]
  | .srvAccstate =>
    let q := mget (s.eng i).reqs (s.fld F.srvAccsel_index i) {}
    [(F.srvAccstate_state, q.state), (F.srvAccstate_prio, q.prio), (F.srvAccstate_tenant, q.tenant),
     (F.srvAccstate_depth, q.depth), (F.srvAccstate_late, b2n q.late), (F.srvAccstate_adopted, b2n q.adopted),
     (F.srvAccstate_deadline, bits (q.deadline.getD 0) 39 0)]
  | .srvAcclen =>
    let q := mget (s.eng i).reqs (s.fld F.srvAccsel_index i) {}
    [(F.srvAcclen_len, q.len), (F.srvAcclen_emitted, q.emitted), (F.srvAcclen_pages, q.pages.length),
     (F.srvAcclen_slot, q.slot.getD 0x1FFF)]
  | .srvTenbal =>
    let t := s.tenant i (s.fld F.srvTensel_tenant i)
    [(F.srvTenbal_balance, t.balance), (F.srvTenbal_limit, t.limit)]
  | .srvTencfg =>
    let t := mget (s.eng i).tens (s.fld F.srvTensel_tenant i) {}
    [(F.srvTencfg_window, t.window), (F.srvTencfg_funcs, t.funcs.toNat)]
  | .mirState => [(F.mirState_portsup, s.mirUp.length)]
  | .pwrThermstat => [(F.pwrThermstat_temp, s.hottest.1), (F.pwrThermstat_source, s.hottest.2), (F.pwrThermstat_level, s.topLevel)]
  | .pwrInput => [(F.pwrInput_vin, s.pwr.vin), (F.pwrInput_iin, s.pwr.iin), (F.pwrInput_pin, s.pwr.pin)]
  | .updState =>
    let f := match s.boot.staged with | some i => s.boot.slot i | none => {}
    [(F.updState_state, s.updPhase), (F.updState_locked, b2n (s.fuses.ownlock || s.fld F.secPolicy_lock 0 == 1)),
     (F.updState_mirror, b2n s.mirrorBusy), (F.updState_supply, b2n s.supplyPoor), (F.updState_winleft, s.winLeft),
     (F.updState_total, f.blocks), (F.updState_written, f.written.length)]
  | _ => []

/-- The value a read of a register gives: 0 for one in the window of an absent die, or of a channel its die does not have (R13,
R305, R331). -/
def State.readReg (s : State) (k : RegKind) (i : Nat) : Nat :=
  if (match regDie ⟨k, i⟩ with | some d => s.dieAbsent d | none => false) || !dmaRegHere ⟨k, i⟩ then 0
  else (s.views k i).foldl (fun v f => putBits v f.1.hi f.1.lo f.2) (s.reg k i)

/-- What a host function's read of a register through BAR0 returns: zero until the rings are usable (R595), or from a function that is
not enabled (R330), or of a ring register that is not its own (R331). -/
def State.hostRead (s : State) (fn : Nat) (k : RegKind) (i : Nat) : Nat :=
  if !s.ready || !s.fnOn fn || (if k = .hstFwctl then fn ≠ 0 else if ringWindow k then i / (k.count / 16) ≠ fn else fn ≠ 0) then 0
  else s.readReg k i

/-- A dword of a function's MSI-X table, and of its pending-bit array, in which a vector is pending from its cause until it is raised
(R331, R349). -/
def State.msixRead (s : State) (fn k : Nat) : BitVec 32 := if s.fnOn fn then mget (s.func fn).msix k (b2n (k % 4 == 3 && decide (k < msixDwords fn))) else 0
def State.pendingRead (s : State) (fn k : Nat) : BitVec 32 := if s.fnOn fn ∧ k = 0 then (s.func fn).irqPend.setWidth 32 else 0

/-- A read of a table entry through the window of its I/O die (R412). -/
def State.tableRead (s : State) (fn die bank id : Nat) : BitVec 32 :=
  if fn = 0 ∧ s.ready then mget ((s.fdie die).bank bank) id 0 else 0

/-! ## Pins (R639, R642) -/

/-- FAULT# is low. -/
def State.faultPin (s : State) : Bool := s.fld F.secFault_sticky 0 == 1

/-- THERMTRIP# is low. -/
def State.thermtripPin (s : State) : Bool := s.pwr.therm

/-- MG_ALERT# is low. -/
def State.alertPin (s : State) : Bool := s.milug.alert

/-- STBY_OK is high. -/
def State.stbyOk (s : State) : Bool := s.boot.vstby

/-- CXL_PERST# of an annex port is low: the port is not enabled or not trained. -/
def State.cxlPerst (s : State) (p : Nat) : Bool := s.fld F.anxStat_state p != 2

end Sys2Proof.Machine
end

