-- ==== Sys2Proof/WellFormed.lean ====
section
/-! DEFINITION. Well-formed commands: every operand lies in the range its rule gives it (R16, R27, R305, R331, R338, R363, R405,
R423, R521).  The meanings do not rest on it: they are total. -/

namespace Sys2Proof
open Machine

/-- A tile coordinate of the largest mesh (R3). -/
def xyOk (t : Xy) : Bool := decide (t.x < 64) && decide (t.y < 48)

/-- A writer: one of 16 functions, or one of two module controllers (R330, R350). -/
def writerOk : Writer → Bool
  | .host fn => decide (fn < 16)
  | .firmware io => decide (io < 2)

/-- A command of one of 16 functions, at a place of a ring of at most 65,536 entries (R336, R338). -/
def cmdOk (c : Cmd) : Bool := decide (c.fn < 16) && decide (c.index < 65536)

/-- A register the windows hold (R331). -/
def regOk (r : Reg) : Bool := decide (r.idx < r.kind.count)

/-- The window of a compute die in BAR0 (R331). -/
def dieWindow (d : Nat) : Nat := 0x1000000 * (d + 1)

/-- Where BAR0 holds the registers of a tile, from its coordinates (R331): the first offset and the length. -/
def tileWindow (y : Nat) : Nat × Nat :=
  let c := y % 64
  let r := y / 64
  (dieWindow (c / 16 + 4 * (r / 24)) + 0x800000 + 0x4000 * (c % 16 + 16 * (r % 24)), 0x4000)

/-- The part of BAR0 that R331 gives a register's block: the first offset and the length.  It gives no place within a block, and no
order of the galleries of a die. -/
def regWindow (r : Reg) : Nat × Nat :=
  let i := r.idx
  match r.kind with
  | .tilPadctl | .tilState | .tilDescevt | .tilSlotcmd | .tilSpcnt | .tilSpfault | .tilMxctl | .tilMxkrow | .tilMxstat
  | .tilMxfault | .tilVctl | .tilVcsel | .tilVcword | .tilVstat | .tilLate | .tilQstat | .tilBankgate => tileWindow i
  | .tilHndb | .tilHndc | .tilSlotmap => tileWindow (i / 64)
  | .galFetch | .galQstat | .galOcc | .galGate => (dieWindow (i % 16 / 4 + 4 * (i / 96)) + 0x400000, 0x18000)
  | .dieHarvest | .dieXstat => (dieWindow i, 0x100000)
  | .memRef | .memStat | .memCal => (dieWindow (i / 6) + 0x100000, 0x100000)
  | .memCfg | .memPlan | .memErrlog | .memStepok => (dieWindow 0 + 0x100000, 0x100000)
  | .dmaSrc | .dmaDst | .dmaLen | .dmaNext | .dmaCtl | .dmaStat | .dmaErr =>
    if i / 32 < 8 then (dieWindow (i / 32) + 0x200000, 0x200000) else (dieWindow (i / 32), 0x1000000)
  | .lnkCtl | .lnkStat | .lnkErr | .lnkBudget | .lnkPool => (dieWindow (8 + i / 16), 0x1000000)
  | .anxCtl | .anxStat | .fabEpoch | .fabEpochcmd | .fabDisc | .srvCtl | .srvCap | .srvOcc | .srvPages | .srvUtil | .srvStat
  | .srvAccsel | .srvAccstate | .srvAcclen | .srvTensel | .srvTenbal | .srvTencfg | .dmaBcstat => (dieWindow (8 + i), 0x1000000)
  | .fabId | .fabCtl | .fabSyncctl | .fabSyncstat | .fabBarctl | .fabLaunch | .fabLstat | .fabStrag | .srvWall | .srvSwap
  | .dmaBcctl | .mirCtl | .mirState | .mirStat => (dieWindow 8, 0x2000000)
  | .hstCmdring | .hstCplring | .hstEvring | .hstSbaddr | .hstRingstat | .hstEvstat | .hstIrqmod | .hstFwctl | .hstFwbase
  | .hstFwlim => (0, 0x8000)
  | .hstHistate | .hstHiid | .hstHierr | .hstHidigest | .ptcCount | .ptcSched | .ptcAdj | .ptcState | .ptcHoldreq | .ptcHlogptr
  | .ptcHloga | .ptcHlogb | .ptcRuna | .ptcRunb | .ptcOccwin | .ptcOcc | .ptcRepro | .clkState | .clkStepcmd | .clkDroop
  | .pwrThermctl | .pwrThermstat | .pwrCtl | .pwrInput | .fusCfg | .fusHarvest | .fusArb | .fusVkey | .fusOwnkey | .secBootstat
  | .secFault | .secPolicy | .secIdpub | .updCtl | .updState => (0x10000, 0xFF0000)

/-- The places at which BAR0 shows a register's block: MEM's module-wide registers stand in the MEM block of every compute die's window,
every other register in its own (R331). -/
def regWindows (r : Reg) : List (Nat × Nat) :=
  match r.kind with
  | .memCfg | .memPlan | .memErrlog | .memStepok => (List.range 8).map fun d => (dieWindow d + 0x100000, 0x100000)
  | _ => [regWindow r]

/-- The offset of an access lies in a part of BAR0 that holds its register (R331, R332). -/
def offOk (k : RegKind) (i off : Nat) : Bool := (regWindows ⟨k, i⟩).any fun w => decide (w.1 ≤ off) && decide (off < w.1 + w.2)

/-- Where BAR0 shows an entry of a table bank: bank 0 at 0x80_0000 and bank 1 at 0xC0_0000 of the window of its I/O die, entry ID at
4 × ID (R412). -/
def tableOff (die bank id : Nat) : Nat := dieWindow (8 + die) + (if bank = 0 then 0x800000 else 0xC00000) + 4 * id

/-- A DMA channel: four a compute die, 32 an I/O die (R305). -/
def chanOk (c : Chan) : Bool := if c.die < 8 then decide (c.ch < 4) else decide (c.die < 10) && decide (c.ch < 32)

/-- A packet: its header fields in their widths, at most 20,480 bytes of body (R405, R407). -/
def packetOk (p : Packet) : Bool :=
  decide (p.type < 256) && decide (p.epoch < 65536) && decide (p.dest < 2 ^ 20) && decide (p.origin < 2 ^ 20)
    && decide (p.frag < p.frags) && decide (p.frags < 65536) && decide (p.body.length ≤ 20480)

/-- Where a packet comes from: a port that exists (R359). -/
def pktSrcOk : PktSrc → Bool
  | .origin => true
  | .port p => decide (p < 32)

/-- A node of a tree: its fields in their widths (R423, R521). -/
def nodeOk (n : TreeNode) : Bool :=
  decide (n.module < 2 ^ 20) && decide (n.parent < 65536) && decide (n.alt < 65536) && decide (n.region < 256)
    && decide (n.plan < 2 ^ 32) && decide (n.dest < 2 ^ 64) && decide (n.map < 2 ^ 64) && decide (n.chan < 256)

/-- A launch tree: 1 to 1,024 nodes (R423). -/
def treeOk (t : Tree) : Bool := decide (1 ≤ t.nodes.length) && decide (t.nodes.length ≤ 1024) && t.nodes.all nodeOk

/-- A broadcast tree: 1 to 1,024 nodes (R521). -/
def bTreeOk (t : BTree) : Bool :=
  decide (1 ≤ t.nodes.length) && decide (t.nodes.length ≤ 1024) && decide (t.length < 2 ^ 64) && t.nodes.all nodeOk

/-- What a training finds (R382). -/
def trainOk (i : TrainInfo) : Bool :=
  decide (i.peerMod < 2 ^ 20) && decide (i.peerPort < 32) && decide (i.peerE < 4096) && decide (i.rtt < 4096)

/-- What a controller finds when it serves a granule: the corrected symbols and retries are counts of 32 bits (R283). -/
def granResOk : GranRes → Bool
  | .clean | .lost => true
  | .corrected n => decide (n < 2 ^ 32)
  | .retried n ce => decide (n < 2 ^ 32) && decide (ce < 2 ^ 32)

/-- The results of a plan's text reads name granules of a text (R82, R86). -/
def readsOk (rs : List (Nat × GranRes)) : Bool := rs.all fun r => decide (r.1 < 2 ^ 24) && granResOk r.2

/-- The poisoned granules an annex device names lie in the access (R288). -/
def anxResOk : AnxRes → Bool
  | .done => true
  | .poisoned gs => gs.all fun g => decide (g < 128)

/-- What an annex training ends with: a capacity that fits the address space (R286). -/
def anxLinkOk : Option AnxLink → Bool
  | none => true
  | some l => decide (l.capacity < 2 ^ 48)

/-- A SYNCRSP: its fields in their widths (R419). -/
def syncOk (r : SyncRsp) : Bool := decide (r.depth < 256) && decide (r.step < 5) && decide (r.t2 < 2 ^ 68) && decide (r.t3 < 2 ^ 68)

/-- A HELLO: a module ID, a mirror mode and a digest of 32 bytes (R545). -/
def helloOk (h : Hello) : Bool := decide (h.id < 2 ^ 20) && decide (h.mirror < 3) && decide (h.digest.length = 32)

/-- An accession image: its fields in the ranges of R471 and R484. -/
def mirReqOk (m : MirReq) : Bool :=
  decide (m.region < 8) && decide (m.state < 6) && decide (m.prio < 4) && decide (m.tenant < 4096) && decide (m.fn < 16)

/-- A step record: an engine that exists, accession images in range (R550). -/
def recordOk (r : StepRecord) : Bool := decide (r.engine < 2) && decide (r.step < 2 ^ 48) && r.reqs.all mirReqOk

/-- A KV packet: an engine that exists, positions within a page (R550). -/
def kvOk (k : KvPacket) : Bool := decide (k.engine < 2) && decide (k.first + k.count ≤ 256)

/-- A forwarded command: its region and its time in range (R557). -/
def twinOk (t : TwinCmd) : Bool := decide (t.region < 8) && decide (t.wall < 2 ^ 64)

/-- A heartbeat: its step and time in range (R553). -/
def heartbeatOk (h : Heartbeat) : Bool := decide (h.step < 2 ^ 48) && decide (h.wall < 2 ^ 64)

/-- The command is well formed. -/
def Instr.wf : Instr → Bool
  | .tripleIssue t => xyOk t
  | .nop t _ _ => xyOk t
  | .mark t _ _ => xyOk t
  | .scalarAlu t _ _ _ _ _ _ => xyOk t
  | .scalarAluImmediate t _ _ _ _ _ => xyOk t
  | .cmp t _ _ _ _ _ => xyOk t
  | .cmpi t _ _ _ _ _ => xyOk t
  | .plog t _ _ _ _ _ => xyOk t
  | .sld t _ _ _ _ _ => xyOk t
  | .sst t _ _ _ _ _ => xyOk t
  | .sldAg t _ _ _ => xyOk t
  | .sstAg t _ _ _ => xyOk t
  | .sget t _ _ _ => xyOk t
  | .loop t _ _ _ => xyOk t
  | .loopd t _ _ => xyOk t
  | .agbase t _ _ _ => xyOk t
  | .agset t _ _ _ => xyOk t
  | .agadd t _ _ _ => xyOk t
  | .aghnd t _ _ _ _ => xyOk t
  | .dwrC t _ _ => xyOk t
  | .dwrS t _ _ _ _ => xyOk t
  | .dwrSi t _ _ _ _ => xyOk t
  | .resultWriteback t => xyOk t
  | .mload t _ _ _ _ => xyOk t
  | .mscl t _ _ _ => xyOk t
  | .mzero t _ _ _ _ => xyOk t
  | .mmul t _ _ => xyOk t
  | .mdrain t _ _ _ => xyOk t
  | .mdrainv t _ _ => xyOk t
  | .leafEnter t => xyOk t
  | .drainRowWrite t => xyOk t
  | .vdef t _ _ _ _ => xyOk t
  | .vrun t _ _ => xyOk t
  | .vrunRowWrite t => xyOk t
  | .cput t _ _ _ _ _ => xyOk t
  | .nput t _ _ _ _ _ => xyOk t
  | .wget t _ _ => xyOk t
  | .wput t _ _ => xyOk t
  | .packetDepart _ => true
  | .packetLand _ => true
  | .creditReturn _ => true
  | .windowPacketHop t _ => xyOk t
  | .windowReadServe _ => true
  | .qrd t _ _ => xyOk t
  | .qwr t _ _ => xyOk t
  | .qwait t _ _ => xyOk t
  | .qwrSourceRead _ => true
  | .queueRequestArrive _ => true
  | .commitPoint _ ready => decide (ready.length ≤ 48) && ready.all fun r => decide (r.1 < 48) && decide (r.2 < 2 ^ 64)
  | .queueLanding _ => true
  | .writeTakesEffect _ => true
  | .granuleServe _ gran res => decide (gran < 128) && granResOk res
  | .calendarWindowOpen ch _ _ => decide (ch < 48)
  | .retrimComplete ch => decide (ch < 48)
  | .temperatureBinChange ch _ => decide (ch < 48)
  | .retrimForce by_ ch off _ => writerOk by_ && decide (ch < 48) && offOk .memCal ch off
  | .holdRefresh ch _ => decide (ch < 48)
  | .refreshOverdue ch _ => decide (ch < 48)
  | .memRefWrite by_ ch off _ => writerOk by_ && decide (ch < 48) && offOk .memRef ch off
  | .annexRequestSend _ _ => true
  | .annexResponse _ _ res => anxResOk res
  | .annexTimeout _ => true
  | .annexLinkDown _ => true
  | .annexTrainingEnd _ link => anxLinkOk link
  | .annexRetrain by_ p off _ => writerOk by_ && offOk .anxCtl p off
  | .fetchOpportunity g late => decide (g < 192) && decide (late < 2 ^ 16)
  | .blockLanding g res => decide (g < 192) && readsOk res
  | .blockBroadcast g => decide (g < 192)
  | .parkRequest => true
  | .invocationStart _ => true
  | .invocationEnd t => xyOk t
  | .launchCountDecision _ => true
  | .holdBegin => true
  | .holdEnd => true
  | .boundaryHoldRequest => true
  | .ptcHoldreqWrite by_ off _ => writerOk by_ && offOk .ptcHoldreq 0 off
  | .occWindowEnd => true
  | .dmaStart c ch _ => cmdOk c && chanOk ch
  | .dmaGo by_ ch off _ => writerOk by_ && chanOk ch && offOk .dmaCtl (32 * ch.die + ch.ch) off
  | .dmaPause by_ ch off _ => writerOk by_ && chanOk ch && offOk .dmaCtl (32 * ch.die + ch.ch) off
  | .dmaResume by_ ch off _ => writerOk by_ && chanOk ch && offOk .dmaCtl (32 * ch.die + ch.ch) off
  | .dmaAbort by_ ch off _ => writerOk by_ && chanOk ch && offOk .dmaCtl (32 * ch.die + ch.ch) off
  | .dmaSlotAccess ch acc => chanOk ch && granResOk acc.res
  | .dmaDrainEnd ch => chanOk ch
  | .dmaAccessFail ch _ _ _ => chanOk ch
  | .dmaPacketHop _ => true
  | .bankGateEffect t => xyOk t
  | .ringScan host => (host.writes.all fun w => decide (w.1 < 2 ^ 64))
  | .nopCommand c => cmdOk c
  | .loadImage c _ _ _ => cmdOk c
  | .planLoad c _ _ => cmdOk c
  | .planFree c _ => cmdOk c
  | .launch c _ _ _ _ _ reads => cmdOk c && readsOk reads
  | .stop c _ => cmdOk c
  | .completionWrite fn => decide (fn < 16)
  | .eventWrite fn => decide (fn < 16)
  | .interruptRaise fn _ => decide (fn < 16)
  | .ringAccessFail fn _ => decide (fn < 16)
  | .ringRestart fn => decide (fn < 16)
  | .ringEnable fn _ _ => decide (fn < 16)
  | .firewallWindowWrite by_ fn _ _ off _ => writerOk by_ && decide (fn < 16) && offOk .hstFwbase 0 off
  | .absentAccess by_ off _ => writerOk by_ && decide (off < 2 ^ 28)
  | .vfFlr fn => decide (fn < 16)
  | .registerWrite by_ r off _ => writerOk by_ && regOk r && offOk r.kind r.idx off
  | .handleEntryWrite by_ t _ _ off _ => writerOk by_ && xyOk t && offOk .tilHndb (64 * (64 * t.y + t.x)) off
  | .slotCommand by_ t off _ => writerOk by_ && xyOk t && offOk .tilSlotcmd (64 * t.y + t.x) off
  | .mxctlWrite by_ t off _ => writerOk by_ && xyOk t && offOk .tilMxctl (64 * t.y + t.x) off
  | .vctlWrite by_ t off _ => writerOk by_ && xyOk t && offOk .tilVctl (64 * t.y + t.x) off
  | .vcwordWrite by_ t off _ => writerOk by_ && xyOk t && offOk .tilVcword (64 * t.y + t.x) off
  | .linkCycle _ => true
  | .flitReceive _ b _ => b.length == 248
  | .ackPoint _ => true
  | .replayTimerExpiry _ => true
  | .scheduledFlitDelivery _ => true
  | .fullTrainingAttempt _ => true
  | .trainingPhaseEnd _ info => trainOk info
  | .trainingTimeout _ => true
  | .lossOfSignal _ => true
  | .keptStateExpiry _ => true
  | .fecRateWindow _ bad => decide (bad < 2 ^ 32)
  | .lnkRetrain by_ p off _ => writerOk by_ && offOk .lnkCtl p off
  | .lnkRoleWrite by_ p off _ => writerOk by_ && offOk .lnkCtl p off
  | .lnkWreqWrite by_ p off _ => writerOk by_ && offOk .lnkCtl p off
  | .fabIdWrite by_ off _ => writerOk by_ && offOk .fabId 0 off
  | .scheduledPacketSend _ _ => true
  | .edgeUnitDelivery _ => true
  | .packetRoute _ src => pktSrcOk src
  | .norouteTimeout _ => true
  | .undeliverableNotice type _ _ => decide (type < 256)
  | .fragmentReceive pkt => packetOk pkt
  | .reassemblyTimeout type origin _ => decide (type < 256) && decide (origin < 2 ^ 20)
  | .tableWrite by_ d b id off _ => writerOk by_ && decide (off = tableOff d b id.toNat)
  | .drain by_ d off => writerOk by_ && offOk .fabEpochcmd d off
  | .switch by_ d off => writerOk by_ && offOk .fabEpochcmd d off
  | .epochRelease by_ d off => writerOk by_ && offOk .fabEpochcmd d off
  | .syncreqSend => true
  | .syncreqReceive _ t1 => decide (t1 < 2 ^ 64)
  | .syncrspReceive _ r _ => syncOk r
  | .fabSyncctlWrite by_ off _ => writerOk by_ && offOk .fabSyncctl 0 off
  | .launchMessageReceive tree _ => treeOk tree
  | .altwaitExpiry child => decide (child < 1024)
  | .lackReceive child _ => decide (child < 1024)
  | .lfailReceive node _ _ => decide (node < 1024)
  | .abortReceive _ => true
  | .armReceive tree _ => treeOk tree
  | .readyReceive node _ => decide (node < 1024)
  | .releaseFlitReceive _ remain fwdDelay => decide (remain < 2 ^ 32) && decide (fwdDelay < 2 ^ 32)
  | .barrierTimeout => true
  | .arriveReceive node _ _ => decide (node < 1024)
  | .stepReleaseReceive last next _ => decide (last < 1024) && decide (next < 2 ^ 64)
  | .stepBarrierTimeout => true
  | .srvConfig c _ _ => cmdOk c
  | .submit c _ _ => cmdOk c
  | .cancel c _ => cmdOk c
  | .outring c _ _ => cmdOk c
  | .tenantSet c _ _ _ _ _ => cmdOk c
  | .catDrop c _ _ _ => cmdOk c
  | .catMove c _ _ _ _ => cmdOk c
  | .catMoveComplete m _ _ => m.lost.all fun a => decide (a.toNat % 64 = 0)
  | .promptFetchComplete _ _ => true
  | .boundaryWork _ => true
  | .stepStart _ => true
  | .emissionWrite fn => decide (fn < 16)
  | .tenantRefill _ _ => true
  | .depthWrite by_ e off _ => writerOk by_ && offOk .srvAccstate e off
  | .bcast c _ _ _ _ _ => cmdOk c
  | .openReceive b => bTreeOk b
  | .bcastReadyReceive node _ => decide (node < 1024)
  | .chunkReceive _ _ j data => decide (j < 2 ^ 32) && decide (data.length ≤ 65536)
  | .bcastStall _ => true
  | .needReceive _ node _ j => decide (node < 1024) && decide (j < 2 ^ 32)
  | .bcfailReceive node _ => decide (node < 1024)
  | .bcastDoneReceive node _ => decide (node < 1024)
  | .bcastTimeout _ => true
  | .bcastAbortReceive _ _ => true
  | .wtable c _ _ => cmdOk c
  | .wptr c _ _ _ _ => cmdOk c
  | .swap c _ _ _ => cmdOk c
  | .swapCopy => true
  | .swapCopyEnd => true
  | .fenceOut c _ => cmdOk c
  | .fenceIn c _ => cmdOk c
  | .helloReceive _ h => helloOk h
  | .syncComplete => true
  | .admitQueryReceive _ _ dec att pages query => decide (dec < 2 ^ 32) && decide (att < 2 ^ 32) && decide (pages < 2 ^ 32) && decide (query < 2 ^ 32)
  | .admitVerdictReceive query _ => decide (query < 2 ^ 32)
  | .twinCommandReceive cmd => twinOk cmd
  | .kvPacketReceive k => kvOk k
  | .stepRecordApply r => recordOk r
  | .ackReceive step _ => decide (step < 2 ^ 48)
  | .ackwaitExpiry _ => true
  | .heartbeatReceive _ h => heartbeatOk h
  | .idleHeartbeat => true
  | .heartbeatInterval => true
  | .pairJoin c => cmdOk c
  | .pairDrop c => cmdOk c
  | .pairDropReceive => true
  | .stepRequest by_ off _ => writerOk by_ && offOk .clkStepcmd 0 off
  | .pendingStepRelease => true
  | .dividerSwitch => true
  | .droopTrip => true
  | .stretchEnd n => decide (n < 2 ^ 32)
  | .catchupEnd => true
  | .referenceLoss => true
  | .referenceReturn => true
  | .inputBoundaryCrossing _ _ => true
  | .inputLowReset => true
  | .powerStageRestart => true
  | .galGateWrite by_ g off _ => writerOk by_ && decide (g < 192) && offOk .galGate g off
  | .autoGate g => decide (g < 192)
  | .galleryWakeEnd _ => true
  | .tilBankgateWrite by_ t off _ => writerOk by_ && xyOk t && offOk .tilBankgate (64 * t.y + t.x) off
  | .bankUngateReady t _ => xyOk t
  | .thermalLevelChange _ _ => true
  | .guardHoldTick _ => true
  | .throttleHold => true
  | .overtempRailOff => true
  | .vstbyApply _ _ => true
  | .supplyStage => true
  | .controllerStage _ _ => true
  | .rootClockLock => true
  | .referenceWaitTimeout => true
  | .dieStage untrained => (untrained.all fun u => decide (u.1 < 8) && decide (u.2 < 4))
  | .selfTest pass => decide (pass.length = 5)
  | .moduleReady => true
  | .warmReset _ => true
  | .watchdogExpiry _ => true
  | .controllerEccError _ => true
  | .updBegin c _ _ _ => cmdOk c
  | .updBlock c _ _ _ => cmdOk c
  | .updActivate c _ => cmdOk c
  | .updAbort c => cmdOk c
  | .updConfirm c => cmdOk c
  | .trialConfirmation => true
  | .trialWindowExpiry => true
  | .attest c _ _ _ => cmdOk c
  | .policy c _ _ => cmdOk c
  | .ownerSet c _ => cmdOk c
  | .ident => true
  | .setId _ => true
  | .telem => true
  | .power _ => true
  | .reset => true
  | .fault => true
  | .alertack => true
  | .milugOwnerSet _ => true
  | .policyData _ data => decide (data.length ≤ 65536)
  | .policyCommit _ => true
  | .pairJoinReceive => true
  | .handoverReceive step _ mirrored => decide (step < 2 ^ 48) && (mirrored.all mirReqOk)
  | .powerCapCrossing _ => true
  | .vstbyLoss => true

end Sys2Proof
end

