-- ==== Sys2Proof/Safety.lean ====
section
/-! DEFINITION. What the claims mean, in their own terms: a run that goes on, a command that answers a next state with a property,
the data invariants every step keeps, and the parts of the state a command leaves as they were. -/

namespace Sys2Proof.Machine

/-- A run goes on: the outcome is a next state. -/
def goesOn (o : Host.Outcome State Fault Refusal) : Prop := ∃ t, o = .next t

/-- The command answers a next state that has the property. -/
def Yields (c : Instr) (s : State) (P : State → Prop) : Prop := ∃ t, exec c s = .next t ∧ P t

/-- The memories are in their canonical form: external memory, the host's memory, every tile's scratchpad, the parts area of both
firmware slots, and Milug's staging buffer. -/
structure MemInv (s : State) : Prop where
  ext : memWf s.ext = true
  host : memWf s.hostMem = true
  scratch : ∀ y, memWf (s.tile y).scratch = true
  slotA : memWf s.boot.slotA.data = true
  slotB : memWf s.boot.slotB.data = true
  staging : memWf s.milug.staging = true

/-- The stores of the state list each key once, the keys rising, so that equal stores are equal data. -/
structure StoreInv (s : State) : Prop where
  regs : keysRise s.regs = true
  regions : keysRise s.regions = true
  tiles : keysRise s.tiles = true
  gals : keysRise s.gals = true
  chans : keysRise s.chans = true
  dma : keysRise s.dma = true
  fns : keysRise s.fns = true
  links : keysRise s.links = true
  engs : keysRise s.engs = true

/-- The operation of a slot acts: the tile is in an invocation and the cycle is not held, nothing makes the slot wait or its triple
has issued, and its predicate reads 1 (R53, R55, R237). -/
def State.slotActs (s : State) (t : Xy) (i : Instr) : Bool :=
  s.canAct (tIx t) && (s.issuedNow (tIx t) || (s.waitsOf (tIx t) (s.vrunEntry (tIx t) i i) i).isEmpty) && (s.tile (tIx t)).acts i

/-- The firewall lets the writer's write of a register of a module block through: firmware's always, the host's on the PF of a ready
module whose EXPW admits it (R331, R350, R595). -/
def State.mayWrite (s : State) (w : Writer) : Bool :=
  match w with
  | .firmware _ => true
  | .host fn => fn == 0 && s.ready && s.fuses.expw

/-- Memory `m'` holds the bytes `bs` from address `a` on and is `m` everywhere else. -/
def Stored (m m' : List Host.Cell) (a : Nat) (bs : List Byte) : Prop :=
  ∀ b, rdByte m' b = if a ≤ b ∧ b < a + bs.length then bs.getD (b - a) 0 else rdByte m b

/-- A ring command may begin on its function: its turn has come, and it is one the function and the mode may issue (R335, R340,
R605), and the entry taken holds it with its operands (R337). -/
def State.begins (s : State) (i : Instr) (c : Cmd) (opcode : Nat) (allFns : Bool) : Prop :=
  s.cmdReady c opcode (operandsOf i) = true ∧ (s.boot.recovery = true → recoveryOpcode opcode = true) ∧ (c.fn = 0 ∨ allFns = true)

/-- A ring command that begins leaves the entries taken, its effect has the property, and the entries behind it that have no meaning
of their own are answered (R335, R340). -/
def Answers (i : Instr) (c : Cmd) (s : State) (P : State → Prop) : Prop := ∃ u, exec i s = .next (u.answerAll c.fn) ∧ P u

/-- One completion of the command, with a status and a result, waits for its ring behind those that did (R345). -/
def Completed (s u : State) (c : Cmd) (opcode status : Nat) (result : Nat := 0) : Prop :=
  (u.func c.fn).cpls = (s.func c.fn).cpls ++ [⟨status, c.tag, opcode, c.index, c.irq, result, none⟩]

/-! ## Frames -/

/-- The parts of the state that a command of chapters 02 to 05 does not
reach are as before it; a command of other chapters, and one that can reset the module, is not spoken of. -/
def frameTiles (i : Instr) (s u : State) : State :=
  match i with
  | .tripleIssue .. => { s with
      regs := u.regs, regions := u.regions, tiles := u.tiles, gals := u.gals, fns := u.fns, occ := u.occ }
  | .nop .. | .scalarAlu .. | .scalarAluImmediate .. | .cmp .. | .cmpi .. | .plog .. | .sget .. | .agbase .. | .agset .. |
    .agadd .. | .aghnd .. | .mload .. | .mzero .. | .mdrain .. | .mdrainv .. | .vdef .. => { s with
      regs := u.regs, tiles := u.tiles }
  | .mark .. | .dwrC .. | .dwrS .. | .dwrSi .. | .mscl .. | .mmul .. | .leafEnter .. => { s with
      regs := u.regs, tiles := u.tiles, fns := u.fns }
  | .sld .. | .sst .. | .sldAg .. | .sstAg .. | .drainRowWrite .. | .vrunRowWrite .. => { s with
      regs := u.regs, tiles := u.tiles, fns := u.fns, occ := u.occ }
  | .loop .. | .loopd .. => { s with
      regs := u.regs, tiles := u.tiles, gals := u.gals }
  | .resultWriteback .. => { s with
      tiles := u.tiles }
  | .vrun .. => { s with
      regs := u.regs, tiles := u.tiles, fns := u.fns, nextId := u.nextId }
  | .cput .. | .nput .. | .wput .. => { s with
      regs := u.regs, tiles := u.tiles, mpkts := u.mpkts, fns := u.fns, occ := u.occ, nextId := u.nextId }
  | .wget .. => { s with
      regs := u.regs, tiles := u.tiles, mpkts := u.mpkts, fns := u.fns, nextId := u.nextId }
  | .packetDepart .. => { s with
      mpkts := u.mpkts, occ := u.occ }
  | .packetLand .. | .windowReadServe .. => { s with
      regs := u.regs, tiles := u.tiles, mpkts := u.mpkts, fns := u.fns, fab := u.fab, occ := u.occ }
  | .creditReturn .. => { s with
      tiles := u.tiles, mpkts := u.mpkts }
  | .windowPacketHop .. => { s with
      regs := u.regs, mpkts := u.mpkts, fns := u.fns, occ := u.occ }
  | _ => u

/-- The parts of the state that a command of chapters 01, 02 and 06 to 09 does not
reach are as before it; a command of other chapters, and one that can reset the module, is not spoken of. -/
def framePlan (i : Instr) (s u : State) : State :=
  match i with
  | .qrd .. | .qwr .. => { s with
      regs := u.regs, tiles := u.tiles, gals := u.gals, accs := u.accs, fns := u.fns, nextId := u.nextId }
  | .qwait .. => { s with
      regs := u.regs, tiles := u.tiles }
  | .qwrSourceRead .. => { s with
      regs := u.regs, tiles := u.tiles, accs := u.accs, fns := u.fns, occ := u.occ }
  | .queueRequestArrive .. => { s with
      regs := u.regs, regions := u.regions, accs := u.accs, fns := u.fns }
  | .commitPoint .. | .annexTimeout .. | .annexLinkDown .. | .annexRetrain .. => { s with
      regs := u.regs, reqs := u.reqs, accs := u.accs, anx := u.anx, fns := u.fns }
  | .queueLanding .. => { s with
      regs := u.regs, regions := u.regions, tiles := u.tiles, accs := u.accs, fns := u.fns, occ := u.occ }
  | .writeTakesEffect .. => { s with
      accs := u.accs, ext := u.ext, freeCtr := u.freeCtr }
  | .granuleServe .. => { s with
      regs := u.regs, accs := u.accs, chans := u.chans, ext := u.ext, fns := u.fns, occ := u.occ, freeCtr := u.freeCtr }
  | .calendarWindowOpen .. => { s with
      regs := u.regs, chans := u.chans, fns := u.fns, occ := u.occ }
  | .retrimComplete .. => { s with
      regs := u.regs, chans := u.chans, fns := u.fns, boot := u.boot, nextId := u.nextId }
  | .temperatureBinChange .. | .retrimForce .. | .memRefWrite .. => { s with
      regs := u.regs, chans := u.chans, fns := u.fns }
  | .holdRefresh .. => { s with
      chans := u.chans }
  | .refreshOverdue .. => { s with
      regs := u.regs, reqs := u.reqs, chans := u.chans }
  | .annexRequestSend .. => { s with
      accs := u.accs, occ := u.occ }
  | .annexResponse .. => { s with
      regs := u.regs, reqs := u.reqs, accs := u.accs, anx := u.anx, ext := u.ext, fns := u.fns, occ := u.occ,
      freeCtr := u.freeCtr }
  | .annexTrainingEnd .. => { s with
      regs := u.regs, anx := u.anx, fns := u.fns }
  | .fetchOpportunity .. => { s with
      regs := u.regs, reqs := u.reqs, gals := u.gals, chans := u.chans, fns := u.fns, occ := u.occ }
  | .blockLanding .. => { s with
      regs := u.regs, gals := u.gals, fns := u.fns }
  | .blockBroadcast .. => { s with
      tiles := u.tiles, gals := u.gals }
  | .parkRequest => { s with
      park := u.park }
  | .invocationStart .. => { s with
      regs := u.regs, park := u.park, regions := u.regions, tiles := u.tiles, gals := u.gals, chans := u.chans,
      fns := u.fns, wts := u.wts }
  | .invocationEnd .. => { s with
      regs := u.regs, park := u.park, regions := u.regions, tiles := u.tiles, gals := u.gals, chans := u.chans,
      ext := u.ext, fns := u.fns, links := u.links, fab := u.fab, engs := u.engs, wts := u.wts, mir := u.mir,
      occ := u.occ, scanDue := u.scanDue }
  | .launchCountDecision .. => { s with
      regs := u.regs, park := u.park, regions := u.regions, tiles := u.tiles, fns := u.fns, fab := u.fab,
      mir := u.mir, freeCtr := u.freeCtr }
  | .holdBegin => { s with
      regs := u.regs, hold := u.hold }
  | .holdEnd => { s with
      regs := u.regs, hold := u.hold, clk := u.clk, pwr := u.pwr }
  | .boundaryHoldRequest => { s with
      reqs := u.reqs, clk := u.clk, boundaryAsk := u.boundaryAsk }
  | .ptcHoldreqWrite .. => { s with
      regs := u.regs, reqs := u.reqs, fns := u.fns }
  | .occWindowEnd => { s with
      regs := u.regs, occ := u.occ }
  | .dmaStart .. | .dmaDrainEnd .. => { s with
      regs := u.regs, dma := u.dma, fns := u.fns }
  | .dmaGo .. | .dmaPause .. | .dmaResume .. | .dmaAbort .. => { s with
      regs := u.regs, tiles := u.tiles, mpkts := u.mpkts, dma := u.dma, bankOut := u.bankOut, fns := u.fns }
  | .dmaSlotAccess .. => { s with
      regs := u.regs, tiles := u.tiles, mpkts := u.mpkts, chans := u.chans, ext := u.ext, hostMem := u.hostMem,
      dma := u.dma, bankOut := u.bankOut, fns := u.fns, fab := u.fab, wts := u.wts, occ := u.occ, nextId := u.nextId,
      freeCtr := u.freeCtr }
  | .dmaAccessFail .. => { s with
      regs := u.regs, reqs := u.reqs, tiles := u.tiles, mpkts := u.mpkts, accs := u.accs, anx := u.anx, ext := u.ext,
      dma := u.dma, bankOut := u.bankOut, fns := u.fns, freeCtr := u.freeCtr }
  | .dmaPacketHop .. => { s with
      regs := u.regs, tiles := u.tiles, mpkts := u.mpkts, dma := u.dma, bankOut := u.bankOut, fns := u.fns,
      wts := u.wts, occ := u.occ }
  | .bankGateEffect .. => { s with
      regs := u.regs, tiles := u.tiles, gals := u.gals }
  | .ringScan .. => { s with
      regs := u.regs, hostMem := u.hostMem, fns := u.fns, scanAt := u.scanAt, scans := u.scans, vfs := u.vfs,
      scanDue := u.scanDue }
  | .nopCommand .. | .ringAccessFail .. | .ringRestart .. | .ringEnable .. | .firewallWindowWrite .. | .absentAccess .. => { s with
      regs := u.regs, fns := u.fns }
  | .loadImage .. => { s with
      regs := u.regs, reqs := u.reqs, regions := u.regions, tiles := u.tiles, gals := u.gals, chans := u.chans,
      ext := u.ext, fns := u.fns, img := u.img, loading := u.loading, plans := u.plans, links := u.links,
      fab := u.fab, engs := u.engs, wts := u.wts, mir := u.mir, pwr := u.pwr, freeCtr := u.freeCtr }
  | .planLoad .. => { s with
      regs := u.regs, ext := u.ext, fns := u.fns, plans := u.plans }
  | .planFree .. => { s with
      regs := u.regs, regions := u.regions, fns := u.fns, plans := u.plans, freeCtr := u.freeCtr }
  | .launch .. => { s with
      regs := u.regs, park := u.park, regions := u.regions, tiles := u.tiles, gals := u.gals, chans := u.chans,
      ext := u.ext, fns := u.fns, links := u.links, fab := u.fab, engs := u.engs, wts := u.wts, mir := u.mir,
      occ := u.occ }
  | .stop .. => { s with
      regs := u.regs, regions := u.regions, fns := u.fns, mir := u.mir }
  | .completionWrite .. | .eventWrite .. => { s with
      regs := u.regs, hostMem := u.hostMem, fns := u.fns }
  | .interruptRaise .. => { s with
      fns := u.fns, irqs := u.irqs }
  | .vfFlr .. => { s with
      regs := u.regs, fns := u.fns, engs := u.engs }
  | _ => u

/-- The parts of the state that a command of register writes and chapters 10 and 11 does not
reach are as before it; a command of other chapters, and one that can reset the module, is not spoken of. -/
def frameLinks (i : Instr) (s u : State) : State :=
  match i with
  | .registerWrite .. => { s with
      regs := u.regs, reqs := u.reqs, tiles := u.tiles, mpkts := u.mpkts, accs := u.accs, chans := u.chans,
      anx := u.anx, ext := u.ext, dma := u.dma, bankOut := u.bankOut, fns := u.fns, links := u.links, fab := u.fab,
      engs := u.engs, wts := u.wts, mir := u.mir, pwr := u.pwr, written := u.written, freeCtr := u.freeCtr }
  | .handleEntryWrite .. | .slotCommand .. | .vcwordWrite .. => { s with
      regs := u.regs, tiles := u.tiles, fns := u.fns }
  | .mxctlWrite .. | .vctlWrite .. | .drain .. | .switch .. | .epochRelease .. => { s with
      regs := u.regs, fns := u.fns }
  | .linkCycle .. => { s with
      regs := u.regs, reqs := u.reqs, fns := u.fns, links := u.links, occ := u.occ }
  | .flitReceive .. | .fecRateWindow .. => { s with
      regs := u.regs, reqs := u.reqs, fns := u.fns, links := u.links }
  | .ackPoint .. | .replayTimerExpiry .. | .syncreqReceive .. => { s with
      links := u.links }
  | .scheduledFlitDelivery .. | .keptStateExpiry .. | .scheduledPacketSend .. | .packetRoute .. | .norouteTimeout .. => { s with
      regs := u.regs, fns := u.fns, links := u.links, fab := u.fab }
  | .fullTrainingAttempt .. => { s with
      regs := u.regs, reqs := u.reqs, links := u.links }
  | .trainingPhaseEnd .. => { s with
      regs := u.regs, ext := u.ext, fns := u.fns, links := u.links, fab := u.fab, engs := u.engs, wts := u.wts,
      mir := u.mir }
  | .trainingTimeout .. | .lossOfSignal .. => { s with
      regs := u.regs, ext := u.ext, fns := u.fns, links := u.links, engs := u.engs, wts := u.wts, mir := u.mir }
  | .lnkRetrain .. | .lnkRoleWrite .. | .lnkWreqWrite .. => { s with
      regs := u.regs, reqs := u.reqs, ext := u.ext, fns := u.fns, links := u.links, fab := u.fab, engs := u.engs,
      wts := u.wts, mir := u.mir }
  | .fabIdWrite .. => { s with
      regs := u.regs, fns := u.fns, links := u.links }
  | .edgeUnitDelivery .. => { s with
      mpkts := u.mpkts, fab := u.fab, nextId := u.nextId }
  | .undeliverableNotice .. => { s with
      regs := u.regs, dma := u.dma, fns := u.fns, fab := u.fab }
  | .fragmentReceive .. | .reassemblyTimeout .. | .tableWrite .. | .fabSyncctlWrite .. => { s with
      regs := u.regs, fns := u.fns, fab := u.fab }
  | .syncreqSend => { s with
      regs := u.regs, links := u.links, fab := u.fab }
  | .syncrspReceive .. => { s with
      regs := u.regs, reqs := u.reqs, hold := u.hold, regions := u.regions, tiles := u.tiles, gals := u.gals,
      chans := u.chans, fns := u.fns, links := u.links, fab := u.fab, wts := u.wts, clk := u.clk, pwr := u.pwr,
      boundaryAsk := u.boundaryAsk }
  | .launchMessageReceive .. | .armReceive .. => { s with
      regs := u.regs, regions := u.regions, tiles := u.tiles, gals := u.gals, chans := u.chans, ext := u.ext,
      fns := u.fns, fab := u.fab, engs := u.engs, wts := u.wts, mir := u.mir, occ := u.occ }
  | .altwaitExpiry .. => { s with
      regs := u.regs, fns := u.fns, fab := u.fab, wts := u.wts }
  | .lackReceive .. => { s with
      fab := u.fab, wts := u.wts }
  | .lfailReceive .. | .abortReceive .. | .barrierTimeout => { s with
      regs := u.regs, park := u.park, regions := u.regions, tiles := u.tiles, fns := u.fns, fab := u.fab,
      freeCtr := u.freeCtr }
  | .readyReceive .. | .releaseFlitReceive .. => { s with
      park := u.park, regions := u.regions, links := u.links, fab := u.fab }
  | .arriveReceive .. => { s with
      regs := u.regs, park := u.park, regions := u.regions, fns := u.fns, links := u.links, fab := u.fab }
  | .stepReleaseReceive .. | .stepBarrierTimeout => { s with
      regs := u.regs, regions := u.regions, fns := u.fns, fab := u.fab, mir := u.mir }
  | _ => u

/-- The parts of the state that a command of chapters 13 to 18 does not
reach are as before it; a command of other chapters, and one that can reset the module, is not spoken of. -/
def frameServices (i : Instr) (s u : State) : State :=
  match i with
  | .srvConfig .. | .fenceIn .. | .helloReceive .. | .pairJoin .. | .pairDrop .. | .pairJoinReceive => { s with
      regs := u.regs, ext := u.ext, fns := u.fns, links := u.links, fab := u.fab, engs := u.engs, wts := u.wts,
      mir := u.mir }
  | .submit .. => { s with
      regs := u.regs, ext := u.ext, fns := u.fns, links := u.links, fab := u.fab, engs := u.engs, mir := u.mir }
  | .cancel .. => { s with
      regs := u.regs, fns := u.fns, links := u.links, fab := u.fab, engs := u.engs, mir := u.mir }
  | .outring .. => { s with
      regs := u.regs, fns := u.fns, freeCtr := u.freeCtr }
  | .tenantSet .. => { s with
      regs := u.regs, fns := u.fns, engs := u.engs, freeCtr := u.freeCtr }
  | .catDrop .. | .catMove .. => { s with
      regs := u.regs, ext := u.ext, fns := u.fns, engs := u.engs, freeCtr := u.freeCtr }
  | .catMoveComplete .. => { s with
      regs := u.regs, ext := u.ext, fns := u.fns, engs := u.engs }
  | .promptFetchComplete .. => { s with
      regs := u.regs, reqs := u.reqs, accs := u.accs, anx := u.anx, ext := u.ext, fns := u.fns, engs := u.engs,
      mir := u.mir, freeCtr := u.freeCtr }
  | .stepStart .. => { s with
      regs := u.regs, park := u.park, regions := u.regions, tiles := u.tiles, gals := u.gals, chans := u.chans,
      fns := u.fns, wts := u.wts }
  | .emissionWrite .. => { s with
      regs := u.regs, hostMem := u.hostMem, fns := u.fns, links := u.links, fab := u.fab, engs := u.engs, mir := u.mir }
  | .tenantRefill .. => { s with
      engs := u.engs }
  | .depthWrite .. => { s with
      regs := u.regs, fns := u.fns, engs := u.engs }
  | .bcast .. | .bcfailReceive .. | .bcastTimeout .. => { s with
      regs := u.regs, dma := u.dma, fns := u.fns, fab := u.fab, wts := u.wts }
  | .openReceive .. | .chunkReceive .. => { s with
      regs := u.regs, ext := u.ext, fab := u.fab, wts := u.wts }
  | .bcastReadyReceive .. => { s with
      regs := u.regs, dma := u.dma, fab := u.fab, wts := u.wts }
  | .bcastStall .. | .bcastDoneReceive .. => { s with
      regs := u.regs, fns := u.fns, fab := u.fab, wts := u.wts }
  | .needReceive .. => { s with
      fab := u.fab, wts := u.wts }
  | .bcastAbortReceive .. => { s with
      regs := u.regs, fab := u.fab, wts := u.wts }
  | .wtable .. => { s with
      regs := u.regs, fns := u.fns, wts := u.wts, freeCtr := u.freeCtr }
  | .wptr .. | .swap .. => { s with
      regs := u.regs, fns := u.fns, links := u.links, fab := u.fab, wts := u.wts, mir := u.mir, freeCtr := u.freeCtr }
  | .swapCopy => { s with
      regs := u.regs, wts := u.wts }
  | .swapCopyEnd => { s with
      regs := u.regs, park := u.park, regions := u.regions, chans := u.chans, ext := u.ext, fns := u.fns,
      links := u.links, fab := u.fab, wts := u.wts, occ := u.occ }
  | .fenceOut .. => { s with
      regs := u.regs, fns := u.fns, links := u.links, fab := u.fab, engs := u.engs, wts := u.wts, mir := u.mir }
  | .syncComplete | .ackwaitExpiry .. | .heartbeatInterval => { s with
      regs := u.regs, ext := u.ext, fns := u.fns, engs := u.engs, wts := u.wts, mir := u.mir }
  | .admitQueryReceive .. | .idleHeartbeat | .handoverReceive .. => { s with
      links := u.links, fab := u.fab, mir := u.mir }
  | .admitVerdictReceive .. => { s with
      regs := u.regs, ext := u.ext, fns := u.fns, fab := u.fab, engs := u.engs, mir := u.mir }
  | .twinCommandReceive .. | .stepRecordApply .. => { s with
      ext := u.ext, links := u.links, fab := u.fab, engs := u.engs, mir := u.mir }
  | .kvPacketReceive .. => { s with
      ext := u.ext, fab := u.fab, engs := u.engs, mir := u.mir }
  | .ackReceive .. => { s with
      fab := u.fab, mir := u.mir }
  | .heartbeatReceive .. => { s with
      regs := u.regs, regions := u.regions, ext := u.ext, fns := u.fns, fab := u.fab, engs := u.engs, wts := u.wts,
      mir := u.mir }
  | .pairDropReceive => { s with
      regs := u.regs, ext := u.ext, fns := u.fns, fab := u.fab, engs := u.engs, wts := u.wts, mir := u.mir }
  | .stepRequest .. => { s with
      regs := u.regs, fns := u.fns, clk := u.clk, pwr := u.pwr, boundaryAsk := u.boundaryAsk }
  | .pendingStepRelease => { s with
      regs := u.regs, clk := u.clk, pwr := u.pwr, boundaryAsk := u.boundaryAsk }
  | .dividerSwitch => { s with
      regs := u.regs, chans := u.chans, fns := u.fns, fab := u.fab, clk := u.clk, pwr := u.pwr }
  | .droopTrip => { s with
      regs := u.regs, fab := u.fab }
  | .stretchEnd .. => { s with
      regs := u.regs, fns := u.fns, clk := u.clk }
  | .catchupEnd => { s with
      regs := u.regs }
  | .referenceLoss | .referenceReturn => { s with
      regs := u.regs, fns := u.fns, fab := u.fab, clk := u.clk }
  | .powerStageRestart | .supplyStage => { s with
      pwr := u.pwr, boot := u.boot, milug := u.milug }
  | .galGateWrite .. => { s with
      regs := u.regs, gals := u.gals, fns := u.fns, written := u.written }
  | .autoGate .. => { s with
      regs := u.regs, gals := u.gals }
  | .galleryWakeEnd .. => { s with
      regs := u.regs, regions := u.regions, tiles := u.tiles, gals := u.gals, chans := u.chans, fns := u.fns,
      occ := u.occ }
  | .tilBankgateWrite .. => { s with
      regs := u.regs, tiles := u.tiles, fns := u.fns }
  | .bankUngateReady .. => { s with
      tiles := u.tiles }
  | .thermalLevelChange .. | .overtempRailOff => { s with
      regs := u.regs, reqs := u.reqs, park := u.park, regions := u.regions, tiles := u.tiles, gals := u.gals,
      chans := u.chans, ext := u.ext, fns := u.fns, links := u.links, fab := u.fab, engs := u.engs, wts := u.wts,
      mir := u.mir, clk := u.clk, pwr := u.pwr, boot := u.boot, milug := u.milug, freeCtr := u.freeCtr }
  | .guardHoldTick .. => { s with
      regs := u.regs, reqs := u.reqs, pwr := u.pwr }
  | .throttleHold => { s with
      reqs := u.reqs }
  | .controllerStage .. => { s with
      regs := u.regs, chans := u.chans, fns := u.fns, pwr := u.pwr, boot := u.boot, milug := u.milug,
      fuses := u.fuses, freeCtr := u.freeCtr }
  | .rootClockLock => { s with
      regs := u.regs, clk := u.clk, boot := u.boot }
  | .referenceWaitTimeout => { s with
      regs := u.regs, fns := u.fns, boot := u.boot, milug := u.milug }
  | .dieStage .. | .moduleReady | .updBegin .. | .updAbort .. | .updConfirm .. => { s with
      regs := u.regs, fns := u.fns, boot := u.boot }
  | .selfTest .. => { s with
      regs := u.regs, chans := u.chans, fns := u.fns, boot := u.boot, milug := u.milug, nextId := u.nextId }
  | .updBlock .. => { s with
      regs := u.regs, fns := u.fns, boot := u.boot, freeCtr := u.freeCtr }
  | .trialConfirmation | .policy .. => { s with
      regs := u.regs, fns := u.fns, boot := u.boot, fuses := u.fuses }
  | .attest .. => { s with
      regs := u.regs, hostMem := u.hostMem, fns := u.fns, freeCtr := u.freeCtr }
  | .ownerSet .. => { s with
      regs := u.regs, fns := u.fns, fuses := u.fuses }
  | .ident | .telem | .fault | .alertack | .policyData .. => { s with
      milug := u.milug }
  | .setId .. => { s with
      regs := u.regs, fns := u.fns, links := u.links, milug := u.milug }
  | .milugOwnerSet .. => { s with
      milug := u.milug, fuses := u.fuses }
  | .policyCommit .. => { s with
      regs := u.regs, fns := u.fns, boot := u.boot, milug := u.milug, fuses := u.fuses }
  | .powerCapCrossing .. => { s with
      regs := u.regs, pwr := u.pwr, freeCtr := u.freeCtr }
  | _ => u

/-- What a command can change within a tile: every other field of every tile is as before it; a command not named changes no tile, and
one that can reset the module is not spoken of. -/
def frameTile (i : Instr) (T U : Tile) : Tile :=
  match i with
  | .tripleIssue .. => { T with
      issuePc := U.issuePc, moved := U.moved, outs := U.outs, waiting := U.waiting, late := U.late, vrows := U.vrows,
      vlastIn := U.vlastIn, vlastOut := U.vlastOut, vpend := U.vpend, wbufs := U.wbufs, wready := U.wready,
      wused := U.wused, accq := U.accq, muls := U.muls, accLast := U.accLast, drains := U.drains,
      loadFree := U.loadFree, streamFree := U.streamFree, drainFree := U.drainFree, pipeEnd := U.pipeEnd,
      bankq := U.bankq, scratch := U.scratch, full := U.full, fullAt := U.fullAt, fullWas := U.fullWas,
      lastAt := U.lastAt, stall := U.stall, hndw := U.hndw, qw := U.qw, textFrom := U.textFrom, bankAt := U.bankAt,
      bankUsed := U.bankUsed, chainAt := U.chainAt }
  | .nop .. | .mark .. | .wget .. | .qrd .. => { T with
      waiting := U.waiting, late := U.late, lastAt := U.lastAt }
  | .scalarAlu .. | .scalarAluImmediate .. | .cmp .. | .cmpi .. | .plog .. | .sget .. => { T with
      outs := U.outs, waiting := U.waiting, late := U.late, lastAt := U.lastAt }
  | .sld .. | .sldAg .. => { T with
      outs := U.outs, waiting := U.waiting, late := U.late, bankq := U.bankq, full := U.full, fullAt := U.fullAt,
      fullWas := U.fullWas, lastAt := U.lastAt }
  | .sst .. | .sstAg .. => { T with
      waiting := U.waiting, late := U.late, bankq := U.bankq, scratch := U.scratch, full := U.full,
      fullAt := U.fullAt, fullWas := U.fullWas, lastAt := U.lastAt, hndw := U.hndw }
  | .loop .. | .loopd .. => { T with
      pc := U.pc, moved := U.moved, lvls := U.lvls, was := U.was, waiting := U.waiting, late := U.late,
      lastAt := U.lastAt }
  | .agbase .. | .agset .. | .agadd .. | .aghnd .. => { T with
      gens := U.gens, was := U.was, waiting := U.waiting, late := U.late, lastAt := U.lastAt }
  | .dwrC .. => { T with
      dcount := U.dcount, waiting := U.waiting, late := U.late, lastAt := U.lastAt }
  | .dwrS .. | .dwrSi .. => { T with
      dstride := U.dstride, waiting := U.waiting, late := U.late, lastAt := U.lastAt }
  | .resultWriteback .. => { T with
      sregs := U.sregs, preds := U.preds, outs := U.outs }
  | .mload .. => { T with
      waiting := U.waiting, late := U.late, wbufs := U.wbufs, wready := U.wready, loadFree := U.loadFree,
      loadAt := U.loadAt, pipeEnd := U.pipeEnd, bankq := U.bankq, lastAt := U.lastAt }
  | .mscl .. => { T with
      waiting := U.waiting, late := U.late, wready := U.wready, loadFree := U.loadFree, loadAt := U.loadAt,
      pipeEnd := U.pipeEnd, bankq := U.bankq, lastAt := U.lastAt }
  | .mzero .. => { T with
      waiting := U.waiting, late := U.late, accq := U.accq, accLast := U.accLast, drainFree := U.drainFree,
      drainAt := U.drainAt, pipeEnd := U.pipeEnd, lastAt := U.lastAt }
  | .mmul .. => { T with
      waiting := U.waiting, late := U.late, wused := U.wused, accq := U.accq, muls := U.muls, accLast := U.accLast,
      streamFree := U.streamFree, streamAt := U.streamAt, opNo := U.opNo, pipeEnd := U.pipeEnd, bankq := U.bankq,
      lastAt := U.lastAt }
  | .mdrain .. => { T with
      waiting := U.waiting, late := U.late, accq := U.accq, accLast := U.accLast, drains := U.drains,
      drainFree := U.drainFree, drainAt := U.drainAt, opNo := U.opNo, pipeEnd := U.pipeEnd, bankq := U.bankq,
      lastAt := U.lastAt }
  | .mdrainv .. => { T with
      waiting := U.waiting, late := U.late, accq := U.accq, accLast := U.accLast, drains := U.drains,
      drainFree := U.drainFree, drainAt := U.drainAt, opNo := U.opNo, pipeEnd := U.pipeEnd, lastAt := U.lastAt,
      chainAt := U.chainAt, chainOp := U.chainOp }
  | .leafEnter .. => { T with
      accs := U.accs, accq := U.accq, muls := U.muls, drains := U.drains }
  | .drainRowWrite .. => { T with
      vrows := U.vrows, accs := U.accs, accq := U.accq, muls := U.muls, drains := U.drains, scratch := U.scratch,
      full := U.full, fullAt := U.fullAt, fullWas := U.fullWas }
  | .vdef .. => { T with
      waiting := U.waiting, late := U.late, chains := U.chains, lastAt := U.lastAt }
  | .vrun .. => { T with
      outs := U.outs, waiting := U.waiting, late := U.late, vruns := U.vruns, vrows := U.vrows, vlastIn := U.vlastIn,
      vlastOut := U.vlastOut, vpend := U.vpend, pipeEnd := U.pipeEnd, bankq := U.bankq, lastAt := U.lastAt }
  | .vrunRowWrite .. => { T with
      outs := U.outs, vregs := U.vregs, vruns := U.vruns, vrows := U.vrows, scratch := U.scratch, full := U.full,
      fullAt := U.fullAt, fullWas := U.fullWas }
  | .cput .. => { T with
      waiting := U.waiting, late := U.late, credCirc := U.credCirc, full := U.full, fullAt := U.fullAt,
      fullWas := U.fullWas, lastAt := U.lastAt }
  | .nput .. => { T with
      waiting := U.waiting, late := U.late, credPort := U.credPort, full := U.full, fullAt := U.fullAt,
      fullWas := U.fullWas, lastAt := U.lastAt }
  | .wput .. => { T with
      waiting := U.waiting, late := U.late, full := U.full, fullAt := U.fullAt, fullWas := U.fullWas,
      lastAt := U.lastAt }
  | .packetLand .. | .windowReadServe .. | .queueLanding .. | .dmaPacketHop .. => { T with
      bufq := U.bufq, scratch := U.scratch, full := U.full, fullAt := U.fullAt, fullWas := U.fullWas,
      bankAt := U.bankAt, bankUsed := U.bankUsed }
  | .creditReturn .. => { T with
      credPort := U.credPort, credCirc := U.credCirc }
  | .qwr .. => { T with
      waiting := U.waiting, late := U.late, bankq := U.bankq, lastAt := U.lastAt }
  | .qwait .. => { T with
      waiting := U.waiting, late := U.late, lastAt := U.lastAt, qw := U.qw }
  | .qwrSourceRead .. => { T with
      bufq := U.bufq, full := U.full, fullAt := U.fullAt, fullWas := U.fullWas, bankAt := U.bankAt,
      bankUsed := U.bankUsed }
  | .blockBroadcast .. => { T with
      moved := U.moved, bcast := U.bcast, bcastAt := U.bcastAt, lostPc := U.lostPc }
  | .invocationStart .. | .stepStart .. => { T with
      sregs := U.sregs, preds := U.preds, pc := U.pc, issuePc := U.issuePc, moved := U.moved, lvls := U.lvls,
      dcount := U.dcount, dstride := U.dstride, gens := U.gens, outs := U.outs, inInv := U.inInv,
      waiting := U.waiting, late := U.late, bcast := U.bcast, bcastAt := U.bcastAt, vregs := U.vregs,
      chains := U.chains, vruns := U.vruns, vrows := U.vrows, vlastIn := U.vlastIn, vlastOut := U.vlastOut,
      vpend := U.vpend, wbufs := U.wbufs, wready := U.wready, wused := U.wused, accs := U.accs, accq := U.accq,
      muls := U.muls, accLast := U.accLast, drains := U.drains, loadFree := U.loadFree, streamFree := U.streamFree,
      drainFree := U.drainFree, loadAt := U.loadAt, streamAt := U.streamAt, drainAt := U.drainAt,
      pipeEnd := U.pipeEnd, bankq := U.bankq, lostPc := U.lostPc, lastAt := U.lastAt, stall := U.stall,
      padw := U.padw, locm := U.locm, qw := U.qw, textFrom := U.textFrom, chainAt := U.chainAt, chainOp := U.chainOp }
  | .invocationEnd .. => { T with
      sregs := U.sregs, moved := U.moved, outs := U.outs, inInv := U.inInv, waiting := U.waiting, invs := U.invs,
      bcast := U.bcast, bcastAt := U.bcastAt, vregs := U.vregs, chains := U.chains, vruns := U.vruns,
      vrows := U.vrows, vlastIn := U.vlastIn, vlastOut := U.vlastOut, vpend := U.vpend, wbufs := U.wbufs,
      wready := U.wready, wused := U.wused, accs := U.accs, accq := U.accq, muls := U.muls, accLast := U.accLast,
      drains := U.drains, loadFree := U.loadFree, streamFree := U.streamFree, drainFree := U.drainFree,
      loadAt := U.loadAt, streamAt := U.streamAt, drainAt := U.drainAt, pipeEnd := U.pipeEnd, bankq := U.bankq,
      lostPc := U.lostPc, stall := U.stall, chainAt := U.chainAt, chainOp := U.chainOp }
  | .launchCountDecision .. | .lfailReceive .. | .abortReceive .. | .barrierTimeout | .thermalLevelChange .. |
    .overtempRailOff => { T with
      inInv := U.inInv, waiting := U.waiting, scratch := U.scratch }
  | .dmaGo .. | .dmaPause .. | .dmaResume .. | .dmaAbort .. | .dmaSlotAccess .. | .dmaAccessFail .. | .registerWrite .. => { T with
      bufq := U.bufq }
  | .bankGateEffect .. => { T with
      gateReq := U.gateReq }
  | .loadImage .. => { T with
      scratch := U.scratch, full := U.full, fullAt := U.fullAt, hndw := U.hndw }
  | .launch .. | .launchMessageReceive .. | .armReceive .. => { T with
      sregs := U.sregs, outs := U.outs, invs := U.invs, bcast := U.bcast, bcastAt := U.bcastAt, vregs := U.vregs,
      chains := U.chains, vruns := U.vruns, vrows := U.vrows, vlastIn := U.vlastIn, vlastOut := U.vlastOut,
      vpend := U.vpend, wbufs := U.wbufs, wready := U.wready, wused := U.wused, accs := U.accs, accq := U.accq,
      muls := U.muls, accLast := U.accLast, drains := U.drains, loadFree := U.loadFree, streamFree := U.streamFree,
      drainFree := U.drainFree, loadAt := U.loadAt, streamAt := U.streamAt, drainAt := U.drainAt,
      pipeEnd := U.pipeEnd, bankq := U.bankq, lostPc := U.lostPc, stall := U.stall, chainAt := U.chainAt,
      chainOp := U.chainOp }
  | .handleEntryWrite .. => { T with
      moved := U.moved, hndw := U.hndw }
  | .slotCommand .. => { T with
      full := U.full, fullAt := U.fullAt, fullWas := U.fullWas }
  | .vcwordWrite .. => { T with
      moved := U.moved, chains := U.chains }
  | .syncrspReceive .. => { T with
      ungate := U.ungate }
  | .galleryWakeEnd .. => { T with
      sregs := U.sregs, outs := U.outs, invs := U.invs, bcast := U.bcast, bcastAt := U.bcastAt, vregs := U.vregs,
      chains := U.chains, vruns := U.vruns, vrows := U.vrows, vlastIn := U.vlastIn, vlastOut := U.vlastOut,
      vpend := U.vpend, wbufs := U.wbufs, wready := U.wready, wused := U.wused, accs := U.accs, accq := U.accq,
      muls := U.muls, accLast := U.accLast, drains := U.drains, loadFree := U.loadFree, streamFree := U.streamFree,
      drainFree := U.drainFree, loadAt := U.loadAt, streamAt := U.streamAt, drainAt := U.drainAt,
      pipeEnd := U.pipeEnd, bankq := U.bankq, scratch := U.scratch, full := U.full, fullAt := U.fullAt,
      ungate := U.ungate, gateReq := U.gateReq, lostPc := U.lostPc, stall := U.stall, hndw := U.hndw,
      chainAt := U.chainAt, chainOp := U.chainOp }
  | .tilBankgateWrite .. => { T with
      ungate := U.ungate, gateReq := U.gateReq }
  | .bankUngateReady .. => { T with
      scratch := U.scratch, full := U.full, fullAt := U.fullAt, fullWas := U.fullWas, ungate := U.ungate }
  | .boundaryWork .. | .inputBoundaryCrossing .. | .inputLowReset | .vstbyApply .. | .warmReset .. | .watchdogExpiry .. |
    .controllerEccError .. | .updActivate .. | .trialWindowExpiry | .power .. | .reset | .vstbyLoss => U
  | _ => T

/-- The tile whose operation, engine row or writeback a command is. -/
def opTile (i : Instr) : Option Xy :=
  match i with
  | .tripleIssue t | .nop t .. | .mark t .. | .scalarAlu t .. | .scalarAluImmediate t .. | .cmp t .. | .cmpi t .. | .plog t .. | .sld t .. |
    .sst t .. | .sldAg t .. | .sstAg t .. | .sget t .. | .loop t .. | .loopd t .. | .agbase t .. | .agset t .. | .agadd t .. | .aghnd t .. |
    .dwrC t .. | .dwrS t .. | .dwrSi t .. | .resultWriteback t | .mload t .. | .mscl t .. | .mzero t .. | .mmul t .. | .mdrain t .. |
    .mdrainv t .. | .leafEnter t | .drainRowWrite t | .vdef t .. | .vrun t .. | .vrunRowWrite t | .cput t .. | .nput t .. | .wget t .. |
    .wput t .. | .qrd t .. | .qwr t .. | .qwait t .. => some t
  | _ => none

/-- The tile a command acts on: of its operations, or of a write to one of its registers. -/
def tileOf (i : Instr) : Option Xy :=
  match i with
  | .invocationEnd t | .bankGateEffect t | .handleEntryWrite _ t .. | .slotCommand _ t .. | .mxctlWrite _ t .. | .vctlWrite _ t .. |
    .vcwordWrite _ t .. | .tilBankgateWrite _ t .. | .bankUngateReady t _ => some t
  | i => opTile i

/-- The registers an operation of a tile can change: its own event, fault and counter registers, its gallery's queue peak, PTC_REPRO,
HST_HISTATE.MODIFIED and the count of lost events. -/
def opRegs (t : Xy) : List (RegKind × Nat) :=
  ([.tilDescevt, .tilMxfault, .tilMxstat, .tilQstat, .tilSpcnt, .tilSpfault, .tilVstat].map fun k => (k, tIx t))
    ++ [(.galQstat, galOf t), (.ptcRepro, 0), (.hstHistate, 0), (.hstEvstat, 0)]

end Sys2Proof.Machine
end

