-- ==== Sys2Proof/Certificates/Slice0/Obligations.lean ====
section
/-! DEFINITION. The statements for the provers: the step, the invariants, the frames, and for every command the next state its own
effect gives. -/

open Sys2Proof Sys2Proof.Machine

/-! ## The step, the data, reset -/

/-- The block takes the command at the front of its queue and runs it on the rest (the model's own queue: notes/assumptions/1.md). -/
def Obligations.StepRunsFront : Prop :=
  ∀ (s : State) (c : Instr) (cs : List Instr), s.pending = c :: cs → step s = exec c { s with pending := cs }


/-- Every command answers a next state: no fault, no refusal (the model's reading: no rule of the spec stops the block). -/
def Obligations.EveryCommandGoesOn : Prop := ∀ (c : Instr) (s : State), goesOn (exec c s)

/-- Every step keeps the memories in their canonical form, from every state that has it. -/
def Obligations.StepKeepsMemories : Prop := ∀ s t : State, MemInv s → step s = .next t → MemInv t

/-- Every step keeps the keys of every store of the state strictly rising. -/
def Obligations.StepKeepsStores : Prop := ∀ s t : State, StoreInv s → step s = .next t → StoreInv t

/-- The state after reset has both. -/
def Obligations.ResetHasInvariants : Prop := MemInv State.reset ∧ StoreInv State.reset

/-! ## Chapter 02: the scalar core -/

/-- `nop`, `mark` and the operations of the S slot with a scalar or predicate result: the result and its latency (R54, R60, R62,
R65, R88). -/
def Obligations.ScalarOperationsIssueResults : Prop :=
  ∀ (s : State) (t : Xy) (pr : Fin 16),
    let y := tIx t
    let T := s.tile y
    (∀ slot, s.slotActs t (.nop t slot pr) = true → exec (.nop t slot pr) s = .next s) ∧
    (∀ code, s.slotActs t (.mark t pr code) = true →
      exec (.mark t pr code) s = .next (s.event 0x0200 0 y [(4, code.toNat), (4, T.issuePc)])) ∧
    (∀ op sd sa sb ps, s.slotActs t (.scalarAlu t pr op sd sa sb ps) = true →
      exec (.scalarAlu t pr op sd sa sb ps) s =
        .next (s.result y false sd (aluOp op (T.s sa) (T.s sb) (T.p ps))
          (s.lat y (if op = .mul ∨ op = .mulhu then .smul else .salu)))) ∧
    (∀ op sd sa imm, s.slotActs t (.scalarAluImmediate t pr op sd sa imm) = true →
      exec (.scalarAluImmediate t pr op sd sa imm) s =
        .next (s.result y false sd (aluImmOp op (T.s sd) (T.s sa) imm) (s.lat y (if op = .muli then .smul else .salu)))) ∧
    (∀ rel pd sa sb, s.slotActs t (.cmp t pr rel pd sa sb) = true →
      exec (.cmp t pr rel pd sa sb) s =
        .next (s.result y true pd (if relHolds rel (T.s sa) (T.s sb) then 1 else 0) (s.lat y .salu))) ∧
    (∀ rel pd sa imm, s.slotActs t (.cmpi t pr rel pd sa imm) = true →
      exec (.cmpi t pr rel pd sa imm) s =
        .next (s.result y true pd (if relHolds rel (T.s sa) (imm.signExtend 64) then 1 else 0) (s.lat y .salu))) ∧
    (∀ pd pa pb tt, s.slotActs t (.plog t pr pd pa pb tt) = true →
      exec (.plog t pr pd pa pb tt) s =
        .next (s.result y true pd (if tt.getLsbD (2 * b2n (T.p pa) + b2n (T.p pb)) then 1 else 0) (s.lat y .salu))) ∧
    (∀ sd sreg, s.slotActs t (.sget t pr sd sreg) = true →
      exec (.sget t pr sd sreg) s =
        .next (s.result y false sd (BitVec.ofNat 64 (s.special t sreg.toNat)) (s.lat y .salu)))

/-- A result is outstanding from its issue for its latency, and reaches its register when its cycle comes; s0 reads as zero and p0 as 1, and a
write of either is discarded; every other register reads what was last written to it (R58, R60, R61). -/
def Obligations.ResultsReachRegisters : Prop :=
  ((∀ (s : State) (y : Nat) (pred : Bool) (r : Nat) (v : Word) (l : Nat),
      s.result y pred r v l =
        if r = 0 then s
        else s.setTile y { s.tile y with outs := (s.tile y).outs ++ [⟨s.sched + l, pred, r, v, false, 0⟩] }) ∧
   (∀ (s : State) (t : Xy),
      let y := tIx t
      let T := s.tile y
      s.held = false → (∀ o ∈ T.outs, o.due ≤ s.sched ∧ o.run = 0 ∧ o.dead = false ∧ 0 < o.reg ∧ (o.pred = true → o.reg < 16)) →
      T.outs.Pairwise (fun o o' => (o.pred, o.reg) ≠ (o'.pred, o'.reg)) →
        Yields (.resultWriteback t) s fun u =>
          (u.tile y).outs = [] ∧
          (∀ o ∈ T.outs, if o.pred then (u.tile y).p o.reg = (o.val != 0) else (u.tile y).s o.reg = o.val) ∧
          (∀ n, (∀ o ∈ T.outs, o.pred = true ∨ o.reg ≠ n) → (u.tile y).s n = T.s n) ∧
          (∀ n, n < 16 → (∀ o ∈ T.outs, o.pred = false ∨ o.reg ≠ n) → (u.tile y).p n = T.p n) ∧
          u = s.setTile y (u.tile y))) ∧
  (∀ (t : Tile),
     t.s 0 = 0 ∧ t.p 0 = true ∧
     (∀ v, t.setS 0 v = t) ∧ (∀ b, t.setP 0 b = t) ∧
     (∀ n v m, 0 < n → (t.setS n v).s m = if m = n then v else t.s m) ∧
     (∀ n b m, 0 < n → n < 16 → m < 16 → (t.setP n b).p m = if m = n then b else t.p m))

/-- R63 in whole numbers: arithmetic wraps modulo 2^64; a shift by 64 or more gives zero, or 64 copies of bit 63; the relations
compare signed or unsigned values. -/
def Obligations.ScalarArithmetic : Prop :=
  ∀ (a b : Word) (ps : Bool),
    (aluOp .add a b ps).toNat = (a.toNat + b.toNat) % 2 ^ 64 ∧
    ((aluOp .sub a b ps).toNat : Int) = ((a.toNat : Int) - b.toNat) % 2 ^ 64 ∧
    (aluOp .mul a b ps).toNat = a.toNat * b.toNat % 2 ^ 64 ∧
    (aluOp .mulhu a b ps).toNat = a.toNat * b.toNat / 2 ^ 64 ∧
    (aluOp .shl a b ps).toNat = (if 64 ≤ b.toNat then 0 else a.toNat * 2 ^ b.toNat % 2 ^ 64) ∧
    (aluOp .shr a b ps).toNat = (if 64 ≤ b.toNat then 0 else a.toNat / 2 ^ b.toNat) ∧
    (aluOp .sra a b ps).toInt = (if 64 ≤ b.toNat then (if a.msb then -1 else 0) else a.toInt / 2 ^ b.toNat) ∧
    (aluOp .min a b ps).toInt = min a.toInt b.toInt ∧ (aluOp .max a b ps).toInt = max a.toInt b.toInt ∧
    (aluOp .minu a b ps).toNat = min a.toNat b.toNat ∧ (aluOp .maxu a b ps).toNat = max a.toNat b.toNat ∧
    aluOp .sel a b ps = (if ps then a else b) ∧
    (relHolds .lt a b = true ↔ a.toInt < b.toInt) ∧ (relHolds .ge a b = true ↔ b.toInt ≤ a.toInt) ∧
    (relHolds .ltu a b = true ↔ a.toNat < b.toNat) ∧ (relHolds .geu a b = true ↔ b.toNat ≤ a.toNat) ∧
    (relHolds .eq a b = true ↔ a = b) ∧ (relHolds .ne a b = true ↔ a ≠ b)


/-- `sld`, `sst`, `sld.ag` and `sst.ag`, each of whose accesses is made in the issue cycle, or joins the accesses to be served from the next
cycle on where its own triple's X access takes its bank first (R99).  Made now, through an entry that is no control handle's and in bounds:
the load's result is the eight bytes, the store changes exactly those eight bytes of the tile's scratchpad (R64, R97). -/
def Obligations.ScratchpadWords : Prop :=
  ∀ (s : State) (t : Xy) (pr : Fin 16),
    let y := tIx t
    let T := s.tile y
    (∀ sd sa h off, s.slotActs t (.sld t pr sd sa h off) = true →
      let a := ((T.s sa).toNat + off.toNat) % 2 ^ 64 / 8 * 8
      let e := s.hnd y h
      (s.deferred y = true → exec (.sld t pr sd sa h off) s = .next (s.pushReq y (s.sched + 1) 8 ⟨h, false, false, [⟨a, 8⟩]⟩ (.load sd true))) ∧
      (s.deferred y = false → e.inBounds ⟨a, 8⟩ = true →
      Yields (.sld t pr sd sa h off) s fun u =>
        (sd.val ≠ 0 → (u.tile y).outs = T.outs ++
          [⟨s.sched + s.lat y .sload, false, sd, BitVec.ofNat 64 (leNat (rdBytes T.scratch (e.base + a) 8)), false, 0⟩]) ∧
        (u.tile y).scratch = T.scratch)) ∧
    (∀ ss sa h off, s.slotActs t (.sst t pr ss sa h off) = true →
      let a := ((T.s sa).toNat + off.toNat) % 2 ^ 64 / 8 * 8
      let e := s.hnd y h
      (s.deferred y = true → exec (.sst t pr ss sa h off) s = .next (s.pushReq y (s.sched + 1) 8 ⟨h, false, true, [⟨a, 8⟩]⟩ (.store (T.s ss) true))) ∧
      (s.deferred y = false → e.inBounds ⟨a, 8⟩ = true → memWf T.scratch = true →
      Yields (.sst t pr ss sa h off) s fun u =>
        Stored T.scratch (u.tile y).scratch (e.base + a) (leBytes 8 (T.s ss).toNat) ∧
        (u.tile y).outs = T.outs)) ∧
    (∀ sd ag, s.slotActs t (.sldAg t pr sd ag) = true →
      let a := T.agAddr ag / 8 * 8
      let e := s.hnd y (T.gen ag).handle
      (s.deferred y = true → exec (.sldAg t pr sd ag) s = .next (s.pushReq y (s.sched + 1) 8 ⟨(T.gen ag).handle, (T.gen ag).space, false, [⟨a, 8⟩]⟩ (.load sd false))) ∧
      (s.deferred y = false → (T.gen ag).space = false → e.inBounds ⟨a, 8⟩ = true →
      Yields (.sldAg t pr sd ag) s fun u =>
        (sd.val ≠ 0 → (u.tile y).outs = T.outs ++
          [⟨s.sched + s.lat y .sload, false, sd, BitVec.ofNat 64 (leNat (rdBytes T.scratch (e.base + a) 8)), false, 0⟩]) ∧
        (u.tile y).scratch = T.scratch)) ∧
    (∀ ss ag, s.slotActs t (.sstAg t pr ss ag) = true →
      let a := T.agAddr ag / 8 * 8
      let e := s.hnd y (T.gen ag).handle
      (s.deferred y = true → exec (.sstAg t pr ss ag) s = .next (s.pushReq y (s.sched + 1) 8 ⟨(T.gen ag).handle, (T.gen ag).space, true, [⟨a, 8⟩]⟩ (.store (T.s ss) false))) ∧
      (s.deferred y = false → (T.gen ag).space = false → e.inBounds ⟨a, 8⟩ = true → memWf T.scratch = true →
      Yields (.sstAg t pr ss ag) s fun u =>
        Stored T.scratch (u.tile y).scratch (e.base + a) (leBytes 8 (T.s ss).toNat) ∧
        (u.tile y).outs = T.outs))

/-- `loop` and `loopd` of a count of at least 1, and the operations on address generators and the descriptor file: what each
changes of its tile, exactly, the generators and levels being kept as they stood for the other slots of the triple (R56, R62, R66, R70,
R71, R73). -/
def Obligations.LoopsAndGenerators : Prop :=
  ∀ (s : State) (t : Xy) (pr : Fin 16),
    let y := tIx t
    let T := s.tile y
    let opened (l : Fin 4) (c b : Nat) (U : Tile) : Prop :=
      U.pc = T.issuePc + 1 ∧ (U.lvl l).active = true ∧ (U.lvl l).idx = 0 ∧ (U.lvl l).count = c ∧
      (U.lvl l).first = T.issuePc + 1 ∧ (U.lvl l).last = T.issuePc + b ∧
      (∀ a < 16, mget (U.lvl l).strides a 0 = mget T.dstride (16 * l + a) 0) ∧ (∀ k, k ≠ l.val → U.lvl k = T.lvl k)
    (∀ level count body, s.slotActs t (.loop t level count body) = true → 1 ≤ count.toNat →
      Yields (.loop t level count body) s fun u => opened level count.toNat body.toNat (u.tile y)) ∧
    (∀ level body, s.slotActs t (.loopd t level body) = true → 1 ≤ mget T.dcount level 0 →
      Yields (.loopd t level body) s fun u => opened level (mget T.dcount level 0) body.toNat (u.tile y)) ∧
    (∀ ag imm, s.slotActs t (.agbase t pr ag imm) = true →
      exec (.agbase t pr ag imm) s = .next (s.setTile y { T.keepWas s.sched with gens := mput T.gens ag { T.gen ag with base := imm } })) ∧
    (∀ ag sa, s.slotActs t (.agset t pr ag sa) = true →
      exec (.agset t pr ag sa) s =
        .next (s.setTile y { T.keepWas s.sched with gens := mput T.gens ag { T.gen ag with base := (T.s sa).truncate 48 } })) ∧
    (∀ ag sa, s.slotActs t (.agadd t pr ag sa) = true →
      exec (.agadd t pr ag sa) s =
        .next (s.setTile y { T.keepWas s.sched with gens := mput T.gens ag { T.gen ag with base := (T.gen ag).base + (T.s sa).truncate 48 } })) ∧
    (∀ ag sp h, s.slotActs t (.aghnd t pr ag sp h) = true →
      exec (.aghnd t pr ag sp h) s =
        .next (s.setTile y { T.keepWas s.sched with gens := mput T.gens ag { T.gen ag with space := sp, handle := h } })) ∧
    (∀ level count, s.slotActs t (.dwrC t level count) = true →
      let u := s.setTile y { T with dcount := mput T.dcount level count.toNat }
      exec (.dwrC t level count) s =
        .next (if (T.lvl level).active then u.descEvent y T.issuePc level false 0 else u)) ∧
    (∀ level ag sa, s.slotActs t (.dwrS t pr level ag sa) = true →
      let u := s.setTile y { T with dstride := mput T.dstride (16 * level + ag) ((T.s sa).truncate 32) }
      exec (.dwrS t pr level ag sa) s =
        .next (if (T.lvl level).active then u.descEvent y T.issuePc level true ag else u)) ∧
    (∀ level ag imm, s.slotActs t (.dwrSi t pr level ag imm) = true →
      let u := s.setTile y { T with dstride := mput T.dstride (16 * level + ag) imm }
      exec (.dwrSi t pr level ag imm) s =
        .next (if (T.lvl level).active then u.descEvent y T.issuePc level true ag else u))


/-- TRIPLE_ISSUE: a triple that waits for nothing issues and the counter is to move on; a loop's end goes back to its start until its count
runs out; what the S slot of a triple has done to generators and loop indices, its V and X slots do not see (R53, R56, R66, R67). -/
def Obligations.TriplesIssue : Prop :=
  (∀ (s : State) (t : Xy),
     let y := tIx t
     let T := (s.tile y).advance
     let i := slotsAt t (s.tripleAt t T.pc)
     let r := s.setTile y { T with bankAt := s.sched + 1, bankUsed := if T.bankAt = s.sched + 1 then T.bankUsed else [] }
     (s.tile y).inInv = true → s.held = false → (s.tile y).lastAt ≠ s.sched + 1 → (∀ q ∈ (s.tile y).bankq, s.sched < q.due) →
     T.pc < (s.textOf t).length → (s.textOf t).length ≤ 1360 → T.lostPc = [] → T.textFrom = none → T.stall = false →
     (∀ e, r.waitsOf y e i.1 = []) → (∀ e, r.waitsOf y e i.2.1 = []) → (∀ e, r.waitsOf y e i.2.2 = []) →
     r.issueBanks y i.1 = [] → r.issueBanks y i.2.2 = [] → s.queueTurn t i.2.2 = true →
       Yields (.tripleIssue t) s fun u =>
         (u.tile y).issuePc = T.pc ∧ (u.tile y).moved = false ∧ u.issuedNow y = true ∧ (u.tile y).late = T.late) ∧
  (∀ (T : Tile) (l : Nat), l < 4 → (T.lvl l).active = true → (T.lvl l).last = T.issuePc → T.moved = false →
     (∀ k, k ≠ l → k < 4 → ¬((T.lvl k).active = true ∧ (T.lvl k).last = T.issuePc)) →
       ((T.lvl l).idx + 1 < (T.lvl l).count →
         T.advance.pc = (T.lvl l).first ∧ T.advance.lvl l = { T.lvl l with idx := (T.lvl l).idx + 1 }) ∧
       ((T.lvl l).count ≤ (T.lvl l).idx + 1 →
         T.advance.pc = T.issuePc + 1 ∧ T.advance.lvl l = { T.lvl l with active := false, idx := 0 }) ∧
       (∀ k, k ≠ l → T.advance.lvl k = T.lvl k)) ∧
  (∀ (s : State) (i : Instr) (t : Xy),
     let y := tIx t
     let T := s.tile y
     opTile i = some t → readsGens i = true → s.issuedNow y = true → T.before s.sched ≠ T →
       ∃ u, exec i (s.setTile y (T.before s.sched)) = .next u ∧
         exec i s = .next (u.modTile y fun U => { U with gens := T.gens, lvls := T.lvls }))

/-- The matrix unit's three pipes: loads of weights and scales, the streaming of a multiply, and the drains (R146 to R170). -/
def Obligations.MatrixPipes : Prop :=
  (∀ (s : State) (t : Xy) (pr : Fin 16) (b : Fin 2) (ag : Fin 16),
     let y := tIx t
     let T := s.tile y
     T.before s.sched = T →
     let h := (T.gen ag).handle
     (∀ f, s.slotActs t (.mload t pr b ag f) = true →
       Yields (.mload t pr b ag f) s fun u =>
         let U := u.tile y
         (mget U.wbufs b {}).fmt = f.val ∧ (mget U.wbufs b {}).block = [] ∧
         (mget U.wbufs b {}).scales = (if fmtClass f = 2 then List.replicate 128 0x7F else []) ∧
         U.loadFree = s.sched + fmtC f ∧ mget U.wready b 0 = s.sched + fmtC f + 2 ∧
         U.bankq = T.bankq ++ (List.range (fmtC f)).map fun k =>
           ⟨s.sched + 1 + k, 0, T.agAcc ag false [⟨T.agAddr ag + 256 * k, 256⟩], s.hnd y h, T.issuePc, .block b, none, 0⟩) ∧
     (s.slotActs t (.mscl t pr b ag) = true → fmtClass (mget T.wbufs b {}).fmt = 2 →
       Yields (.mscl t pr b ag) s fun u =>
         let U := u.tile y
         U.wbufs = T.wbufs ∧ U.loadFree = s.sched + 1 ∧ mget U.wready b 0 = s.sched + 3 ∧
         U.bankq = T.bankq ++
           [⟨s.sched + 1, 0, T.agAcc ag false [⟨T.agAddr ag, 128⟩], s.hnd y h, T.issuePc, .scales b, none, 0⟩])) ∧
  (∀ (s : State) (t : Xy) (pr : Fin 16),
     let y := tIx t
     let T := s.tile y
     let asIs : Prop := T.before s.sched = T
     (∀ f, asIs → s.slotActs t (.mmul t pr f) = true →
       let cls := fmtClass f.afmt
       fmtClass (mget T.wbufs f.wbuf {}).fmt = cls →
       Yields (.mmul t pr f) s fun u =>
         let U := u.tile y
         U.accq = T.accq ++ (List.range (f.rcnt + 1)).map (fun r =>
           ⟨s.sched + mmulRead cls r + s.lat y .mstream, f.aset, f.row0 + r, T.issuePc, .leaf (T.opNo + 1) r⟩) ∧
         U.streamFree = s.sched + mmulRead cls f.rcnt ∧
         U.muls = T.muls ++ [{ op := T.opNo + 1, f := f, cls := cls, kidx := T.kidx f, w := mget T.wbufs f.wbuf {} }] ∧
         u.fns = s.fns) ∧
     (∀ set r0 n, s.slotActs t (.mzero t pr set r0 n) = true →
       Yields (.mzero t pr set r0 n) s fun u =>
         let U := u.tile y
         U.accq = T.accq ++ (List.range (n + 1)).map (fun r => ⟨s.sched + 1 + r, set, r0 + r, T.issuePc, .zero⟩) ∧
         U.drainFree = s.sched + 1 + n) ∧
     (∀ f d, asIs → s.slotActs t (.mdrain t pr f d) = true →
       let at_ := s.sched + 1 + s.lat y .mdrain + foldLat T.locm f.part
       Yields (.mdrain t pr f d) s fun u =>
         let U := u.tile y
         U.accq = T.accq ++ (List.range (f.rcnt + 1)).map (fun r =>
           ⟨s.sched + 1 + r, f.aset, f.row0 + r, T.issuePc, .read (T.opNo + 1) r f.node f.part f.clr⟩) ∧
         U.drainFree = s.sched + 1 + f.rcnt ∧
         (U.drains.drop T.drains.length).map (fun v => (v.r, v.due, v.handle, v.off, v.toChain)) =
           (List.range (f.rcnt + 1)).map fun r => (r, at_ + r, (T.gen d).handle, T.agAddr d + 256 * r, false)) ∧
     (∀ f, asIs → s.slotActs t (.mdrainv t pr f) = true →
       let at_ := s.sched + 1 + s.lat y .mdrain + foldLat T.locm f.part
       Yields (.mdrainv t pr f) s fun u =>
         let U := u.tile y
         U.accq = T.accq ++ (List.range (f.rcnt + 1)).map (fun r =>
           ⟨s.sched + 1 + r, f.aset, f.row0 + r, T.issuePc, .read (T.opNo + 1) r f.node f.part f.clr⟩) ∧
         U.drainFree = s.sched + 1 + f.rcnt ∧ U.chainAt = at_ ∧
         (U.drains.drop T.drains.length).map (fun v => (v.r, v.due, v.toChain)) =
           (List.range (f.rcnt + 1)).map fun r => (r, at_ + r, true)))

/-- The levels a stack of the fixed tree has after `n` leaves: those of the ones of `n`, the lowest on top (R153). -/
def treeLevels : Nat → Nat → List Nat
  | 0, _ => []
  | fuel + 1, n => (List.range (fuel + 1)).filter fun l => n.testBit l

/-- The fixed tree of R153: after the leaves 0 to n − 1 the stack holds one subtree for each one of n, and the leaves of a full
subtree fold to one entry that covers its range. -/
def Obligations.TreeOfLeaves : Prop :=
  ∀ (cls : Nat) (leaf : Nat → List Lane) (n : Nat), n ≤ 256 →
    let row := (List.range n).foldl (fun (a : AccRow) k => a.push k (leaf k)) { started := true, cls := cls }
    row.stack.map (·.lvl) = treeLevels 9 n ∧
    ∀ e ∈ row.stack, (e.idx + 1) * 2 ^ e.lvl ≤ n

/-- The accumulator accesses due enter their rows in the order they were issued, once what each needs has been read: a reset, a leaf, a
class error, a drain's read (R152, R156, R157, R162, R163); a drained row due is written through its handle or enters its chain (R167); a
chain's stage is defined; a chain run's accesses and rows get their cycles; and a row due is written by its sink, with its lane mask where
that is asked for (R181 to R187, R200, R204). -/
def Obligations.RowsAndChains : Prop :=
  (∀ (s : State) (t : Xy),
     let y := tIx t
     let T := s.tile y
     let now := T.accq.filter fun a => decide (a.due ≤ s.sched)
     let later := T.accq.filter fun a => !decide (a.due ≤ s.sched)
     s.held = false → now.all T.accReady = true →
       exec (.leafEnter t) s = .next (now.foldl (fun s a => s.accApply y a) (s.setTile y { T with accq := later })) ∧
       ∀ q, now = [q] →
         let k := 64 * q.set + q.row
         let a := mget T.accs k {}
         Yields (.leafEnter t) s fun u =>
           let U := u.tile y
           let other : Prop := ∀ j, j ≠ k → mget U.accs j {} = mget T.accs j {}
           U.accq = later ∧
           (q.kind = .zero → mget U.accs k {} = {} ∧ U.drains = T.drains ∧ other) ∧
           (∀ cls, q.kind = .poison cls →
             mget U.accs k {} = { a with poison := true, cls := if a.started then a.cls else cls } ∧ U.drains = T.drains ∧ other) ∧
           (∀ op r m, q.kind = .leaf op r → T.mulOf op = some m →
             mget U.accs k {} = (a.leaf T.locm m.cls m.kidx (m.leaves r)).1 ∧
             U.muls = (if r = m.f.rcnt.val then T.muls.filter fun x => x.op != op else T.muls) ∧ U.drains = T.drains ∧ other) ∧
           (∀ op r node part clr, q.kind = .read op r node part clr →
             mget U.accs k {} = (if clr then {} else a) ∧ U.muls = T.muls ∧ other ∧
             U.drains = T.drains.map fun d =>
               if d.op = op ∧ d.r = r then { d with vals := some (a.drainVals T.locm part node) } else d)) ∧
  (∀ (s : State) (t : Xy) (d : DrainRow) (vals : List Lane),
     let y := tIx t
     let u := s.settleAcc y
     let T := u.tile y
     s.held = false →
     (T.drains.find? fun d => decide (d.due ≤ u.sched)) = some d → d.vals = some vals →
       (∀ e, d.hnd = some e →
         (T.queued (.drain d.op d.r) = true → exec (.drainRowWrite t) s = .next u) ∧
         (T.queued (.drain d.op d.r) = false → memWf T.scratch = true →
           Yields (.drainRowWrite t) s fun v =>
             (v.tile y).drains = (T.drains.filter fun x => !(x.op == d.op && x.r == d.r)) ∧
             if d.space = false ∧ e.inBounds ⟨d.off, 4 * vals.length⟩ = true
             then Stored T.scratch (v.tile y).scratch (e.base + d.off) (vals.flatMap fun x => leBytes 4 x.toNat)
             else (v.tile y).scratch = T.scratch)) ∧
       (d.hnd = none →
         Yields (.drainRowWrite t) s fun v =>
           (v.tile y).drains = (T.drains.filter fun x => !(x.op == d.op && x.r == d.r)) ∧ (v.tile y).scratch = T.scratch ∧
           (v.tile y).vrows = T.vrows.map fun x =>
             if x.r = d.r ∧ x.lanes = none ∧ (T.vruns.any fun n => n.id == x.run && n.chainOp == d.op)
             then { x with lanes := some vals } else x)) ∧
  (∀ (s : State) (t : Xy) (pr : Fin 16),
     let y := tIx t
     let T := s.tile y
     (∀ chain stage word, s.slotActs t (.vdef t pr chain stage word) = true →
       exec (.vdef t pr chain stage word) s = .next (s.setTile y { T with chains := mput T.chains (8 * chain + stage) word })) ∧
     (∀ f, T.before s.sched = T → s.slotActs t (.vrun t pr f) = true →
       let id := s.nextId + 1
       let e0 := s.vrunEntry y (.vrun t pr f) (.vrun t pr f)
       let w0 := e0 + (f.nstg * s.lat y .vstage + 1)
       let rows := List.range (f.rcnt + 1)
       let rb := 8 * ewBits f.ow
       let req (due prio : Nat) (a : OwnAcc) (j : AccUse) : BankReq := ⟨due, prio, a, s.hnd y a.h, T.issuePc, j, none, 0⟩
       Yields (.vrun t pr f) s fun u =>
         let U := u.tile y
         U.vrows = T.vrows ++ rows.map (fun r =>
           { due := w0 + r, run := id, r := r, lanes := none, aux := if f.auxen then none else some (List.replicate 64 0),
             last := r == f.rcnt.val, enters := e0 + r, reg := if f.src.val = 4 then some (f.inp + r) else none }) ∧
         U.bankq = T.bankq ++ (T.vsrcAccs f).map (fun a => req (e0 + a.1) 6 a.2 (.src id a.1)) ++
           ((T.auxAccs f).zipIdx).map (fun a => req (e0 + a.2) 7 a.1 (.aux id a.2)) ++
           (if f.sink.val = 0 then rows.map fun r =>
             req (w0 + r) 5 (T.agAcc f.out true [⟨T.agAddr f.out + rb * r, rb⟩]) (.sink id r) else []) ∧
         (U.vruns.drop T.vruns.length).map (fun v => (v.id, v.words, v.f)) = [(id, limitStages false false false (T.stages f), f)] ∧
         U.outs = T.outs ++ (if f.sc.val = 0 then [] else [⟨w0 + f.rcnt + 1, false, f.sc, 0, false, id⟩]) ∧
         U.vlastIn = e0 + f.rcnt + 1 ∧ U.vlastOut = w0 + f.rcnt + 1 ∧ u.nextId = id)) ∧
  (∀ (s : State) (t : Xy) (v : VRow) (x : VRunSt) (lanes aux : List Lane),
     let y := tIx t
     let T := (s.tile y).enterRows s.sched
     let r := x.row lanes aux
     let w := ewBits x.f.ow
     let bs := packRow w r.lanes
     let a := x.outHnd.base + x.outOff + 8 * w * v.r
     let lands : Prop := x.outSpace = false ∧ x.outHnd.inBounds ⟨x.outOff + 8 * w * v.r, 8 * w⟩ = true
     s.held = false → (T.vrows.find? fun v => decide (v.due ≤ s.sched)) = some v → v.lanes = some lanes → v.aux = some aux →
     (T.vruns.find? fun u => u.id == v.run) = some x → T.queued (.sink x.id v.r) = false → memWf T.scratch = true →
       Yields (.vrunRowWrite t) s fun u =>
         let U := u.tile y
         U.vrows = (T.vrows.filter fun z => !(z.run == v.run && z.r == v.r)) ∧
         (v.last = true → U.vruns = (T.vruns.filter fun z => z.id != x.id) ∧
           U.outs = T.outs.map fun o =>
             if o.run = x.id then { o with run := 0, due := s.sched + 1, val := BitVec.ofNat 64 (x.count + r.count) } else o) ∧
         (v.last = false → U.outs = T.outs ∧
           U.vruns = T.vruns.map fun z => if z.id = x.id then { z with count := z.count + r.count } else z) ∧
         (x.f.sink.val ≠ 0 → U.scratch = T.scratch) ∧ (x.f.sink.val ≠ 1 → U.vregs = T.vregs) ∧
         (x.f.sink.val = 0 → ¬lands → U.scratch = T.scratch) ∧
         (x.f.sink.val = 0 → x.f.mskw = false → lands → Stored T.scratch U.scratch a bs) ∧
         (x.f.sink.val = 0 → x.f.mskw = true → lands →
           ∀ b, rdByte U.scratch b =
             if a ≤ b ∧ b < a + 8 * w ∧ r.mask.getD ((b - a) / (w / 8)) false = true then bs.getD (b - a) 0 else rdByte T.scratch b) ∧
         (x.f.sink.val = 1 →
           U.vregs = (T.setVreg (x.f.out + v.r) r.lanes (if x.f.mskw then r.mask else List.replicate 64 true)).vregs))

/-! ## Chapter 03: the mesh -/

/-- The mesh operations send their packets with their credits, or fault and send none (R117 to R128). -/
def Obligations.MeshSendsAndFaults : Prop :=
  (∀ (s : State) (t : Xy) (pr : Fin 16),
     let y := tIx t
     let T := s.tile y
     T.before s.sched = T →
     let line (ag : Fin 16) := rdBytes T.scratch ((s.hnd y (T.gen ag).handle).base + T.agAddr ag / 64 * 64) 64
     let readable (ag : Fin 16) : Prop := (T.gen ag).space = false ∧ (s.hnd y (T.gen ag).handle).inBounds ⟨T.agAddr ag / 64 * 64, 64⟩ = true
     (∀ sa src dst dh k, s.slotActs t (.cput t pr sa src dst dh) = true → readable src →
       s.circuit ((T.s sa).toNat % 65536) = some k → tIx ⟨k.sx, k.sy⟩ = y →
       Yields (.cput t pr sa src dst dh) s fun u =>
         u.mpkts = s.mpkts ++
           [{ id := s.nextId, kind := .circuit, src := y, dst := tIx ⟨k.dx, k.dy⟩, circ := (T.s sa).toNat % 65536, data := line src,
              handle := dh, off := T.agAddr dst / 64 * 64, pc := T.issuePc, issued := s.sched }] ∧
         u.nextId = s.nextId + 1 ∧ (u.tile y).scratch = T.scratch ∧ (u.tile y).credPort = T.credPort ∧
         ∀ c, mget (u.tile y).credCirc c 8 = mget T.credCirc c 8 - (if c = (T.s sa).toNat % 65536 then 1 else 0)) ∧
     (∀ dir src dst dh kind z, s.slotActs t (.nput t pr dir src dst dh) = true → readable src →
       (kind = .neighbour ∧ s.nputEnd y dir = .tile z ∨ kind = .egress ∧ s.nputEnd y dir = .io z) →
       Yields (.nput t pr dir src dst dh) s fun u =>
         u.mpkts = s.mpkts ++
           [{ id := s.nextId, kind := kind, src := y, dst := z, dir := dir, data := line src, handle := dh,
              off := T.agAddr dst / 64 * 64, pc := T.issuePc, issued := s.sched }] ∧
         u.nextId = s.nextId + 1 ∧ (u.tile y).scratch = T.scratch ∧ (u.tile y).credCirc = T.credCirc ∧
         ∀ d, mget (u.tile y).credPort d 8 = mget T.credPort d 8 - (if d = dirCode dir then 1 else 0)) ∧
     (∀ f, s.slotActs t (.wget t pr f) = true → s.windowOk y (T.winTarget f) true = true →
       exec (.wget t pr f) s = .next { s with
         nextId := s.nextId + 1
         mpkts := s.mpkts ++
           [{ id := s.nextId, kind := .winReq, src := y, dst := tIx (T.winTarget f), handle := f.rhandle,
              off := T.agAddr f.agRemote / 64 * 64, pc := T.issuePc, issued := s.sched, at_ := y, since := s.sched,
              localH := (T.gen f.agLocal).handle, localOff := T.agAddr f.agLocal / 64 * 64,
              localSpace := (T.gen f.agLocal).space, outside := s.portFull y (nextDir y (tIx (T.winTarget f))) }] }) ∧
     (∀ f, s.slotActs t (.wput t pr f) = true → s.windowOk y (T.winTarget f) false = true → readable f.agLocal →
       Yields (.wput t pr f) s fun u =>
         u.mpkts = s.mpkts ++
           [{ id := s.nextId, kind := .winWrite, src := y, dst := tIx (T.winTarget f), handle := f.rhandle,
              off := T.agAddr f.agRemote / 64 * 64, data := line f.agLocal, pc := T.issuePc, issued := s.sched, at_ := y,
              since := s.sched, outside := s.portFull y (nextDir y (tIx (T.winTarget f))) }] ∧
         u.nextId = s.nextId + 1 ∧ (u.tile y).scratch = T.scratch)) ∧
  (∀ (s : State) (t : Xy) (pr : Fin 16),
     let y := tIx t
     let T := s.tile y
     T.before s.sched = T →
     (∀ sa src dst dh, s.slotActs t (.cput t pr sa src dst dh) = true →
       (∀ k, s.circuit ((T.s sa).toNat % 65536) = some k → tIx ⟨k.sx, k.sy⟩ ≠ y) →
       exec (.cput t pr sa src dst dh) s = .next (s.meshFault y T.issuePc dh (T.agAddr dst / 64 * 64))) ∧
     (∀ dir src dst dh, s.slotActs t (.nput t pr dir src dst dh) = true → s.nputEnd y dir = .none →
       exec (.nput t pr dir src dst dh) s = .next (s.meshFault y T.issuePc dh (T.agAddr dst / 64 * 64))) ∧
     (∀ f, s.slotActs t (.wput t pr f) = true → s.windowOk y (T.winTarget f) false = false →
       exec (.wput t pr f) s = .next (s.meshFault y T.issuePc f.rhandle (T.agAddr f.agRemote / 64 * 64))) ∧
     (∀ f, s.slotActs t (.wget t pr f) = true → s.windowOk y (T.winTarget f) true = false →
       Yields (.wget t pr f) s fun u =>
         ∃ p, u.mpkts = s.mpkts ++ [p] ∧ p.kind = .winReply ∧ p.dst = y ∧ p.at_ = y ∧ p.land = s.sched + 1 ∧
           p.data = List.replicate 64 0) ∧
     (∀ pc h off,
       let u := s.meshFault y pc h off
       u.fld F.tilSpfault_kind y = 4 ∧ u.fld F.tilSpfault_sticky y = 1 ∧ u.fld F.tilSpfault_offset y = off % 2 ^ 21 ∧
       u.mpkts = s.mpkts ∧ u.tiles = s.tiles))

/-- A packet on its way: it departs in a slot of its circuit, or of no claim and no window; a window packet moves one hop in a
window slot; 64 bytes land through the destination handle once the tile's own accesses of the cycle are served and no earlier landing
takes a bank; a landed packet's credit comes back; a window read is answered with the target's bytes (R99, R112, R119, R120, R121, R124,
R125, R127). -/
def Obligations.PacketsMove : Prop :=
  ∀ (s : State) (id : Nat) (p : MPkt), s.held = false → s.pkt id = some p →
    let gone (lat : Nat) := s.mpkts.map fun q => if q.id = id then { q with depart := some s.sched, path := lat, land := s.sched + lat + 1 } else q
    let e := s.hnd p.dst p.handle
    let now (a : OwnAcc) : Prop := s.ownServed p.dst = true ∧ s.bufferReady p.dst id a (s.landTaken p) = true
    (p.depart = none → p.issued < s.sched →
      (∀ c, p.kind = .circuit → s.circuit p.circ = some c → s.slotCtr % c.period = c.phase →
        Yields (.packetDepart id) s fun u => u.mpkts = gone (s.circLat c)) ∧
      (p.kind = .neighbour ∨ p.kind = .egress → windowSlot s.slotCtr = false → s.claimed p.src p.dir s.slotCtr = false →
        Yields (.packetDepart id) s fun u =>
          u.mpkts = gone (s.hopLat p.src p.dir (bits (s.tile p.src).padw.toNat 27 24)))) ∧
    (s.arrived p = true → p.data.length = 64 →
      (p.kind = .circuit ∨ p.kind = .neighbour → now ⟨p.handle, false, true, [⟨p.off, 64⟩]⟩ →
        e.inBounds ⟨p.off, 64⟩ = true → memWf (s.tile p.dst).scratch = true →
        Yields (.packetLand id) s fun u =>
          Stored (s.tile p.dst).scratch (u.tile p.dst).scratch (e.base + p.off) p.data ∧
          u.mpkts = s.mpkts.map fun q => if q.id = id then { q with landed := some s.sched } else q) ∧
      (∀ h off, (p.kind = .edge ∧ h = p.handle ∧ off = p.off ∨
          p.kind = .winReply ∧ p.localSpace = false ∧ h = p.localH ∧ off = p.localOff ∨
          p.kind = .winWrite ∧ s.windowRight p.dst p.handle true = true ∧ h = p.handle ∧ off = p.off) →
        now ⟨h, false, true, [⟨off, 64⟩]⟩ → (s.hnd p.dst h).inBounds ⟨off, 64⟩ = true →
        memWf (s.tile p.dst).scratch = true →
        Yields (.packetLand id) s fun u =>
          Stored (s.tile p.dst).scratch (u.tile p.dst).scratch ((s.hnd p.dst h).base + off) p.data ∧
          u.mpkts = s.mpkts.filter fun q => q.id != id) ∧
      (p.kind = .egress → (mget (s.fdie p.dst).streams p.handle []).length < 128 → s.egressFirst p = true →
        Yields (.packetLand id) s fun u =>
          mget (u.fdie p.dst).streams p.handle [] = mget (s.fdie p.dst).streams p.handle [] ++ [(s.sched, p.data)] ∧
          u.mpkts = s.mpkts.map fun q => if q.id = id then { q with landed := some s.sched } else q)) ∧
    (∀ l, p.landed = some l → l + p.path ≤ s.sched →
      Yields (.creditReturn id) s fun u =>
        u.mpkts = s.mpkts.filter (fun q => q.id != id) ∧
        (if p.kind = .circuit then mget (u.tile p.src).credCirc p.circ 8 = min 8 (mget (s.tile p.src).credCirc p.circ 8 + 1)
         else mget (u.tile p.src).credPort (dirCode p.dir) 8 = min 8 (mget (s.tile p.src).credPort (dirCode p.dir) 8 + 1)) ∧
        (u.tile p.src).scratch = (s.tile p.src).scratch) ∧
    (p.kind = .winReq → s.arrived p = true → s.windowRight p.dst p.handle false = true →
      now ⟨p.handle, false, false, [⟨p.off, 64⟩]⟩ → e.inBounds ⟨p.off, 64⟩ = true →
      Yields (.windowReadServe id) s fun u =>
        (u.tile p.dst).scratch = (s.tile p.dst).scratch ∧
        u.mpkts = s.mpkts.map fun q => if q.id = id then
          { q with kind := .winReply, src := p.dst, dst := p.src, hops := 0, via := 0, since := s.sched, depart := none, land := 0,
                   outside := s.portFull p.dst (nextDir p.dst p.src),
                   data := rdBytes (s.tile p.dst).scratch (e.base + p.off) 64 } else q) ∧
    (∀ t dir z, windowSlot s.slotCtr = true → s.portUsed (tIx t) dir = false → s.farEnd (tIx t) dir = .tile z →
      s.nextPlace p z = true →
      firstPkt ((s.portQueue (tIx t) dir).filter fun q => q.kind != .dma && !q.outside && decide (q.mayGo ≤ s.sched)) = some p →
      Yields (.windowPacketHop t dir) s fun u =>
        let moved : State := { s with mpkts := s.mpkts.map fun q => if q.id = id then
          { q with at_ := z, since := s.sched, hops := q.hops + 1, dir := dir, via := portUnit q.at_ dir,
                   depart := some (q.depart.getD s.sched), land := s.sched + (if q.kind = .winReq then 8 else 9) } else q }
        u.mpkts = (moved.settleQueue (tIx t) dir).mpkts)

/-! ## Chapters 06 and 07: queues, external memory, the annex -/

/-- The queue operations issue or wait, and their accesses are served, land and take effect (R216 to R228, R279 to R281). -/
def Obligations.QueueOperationsAndService : Prop :=
  (∀ (s : State) (t : Xy) (pr : Fin 16) (f : QueueF),
     let y := tIx t
     let T := s.tile y
     let a (write : Bool) : QAcc :=
       { id := s.nextId, tile := y, gal := galOf (xyOf y), region := s.regionOf (xyOf y), write := write, addr := T.agAddr f.agExt,
         slots := 2 ^ f.size.val, handle := (T.gen f.agLoc).handle, off := T.agAddr f.agLoc, tag := f.tag, issued := s.sched,
         deadline := s.sched - T.late + f.dly.toNat, pc := T.issuePc
         ent := if write then some (s.hnd y (T.gen f.agLoc).handle) else none }
     (T.before s.sched = T → s.slotActs t (.qrd t pr f) = true →
       Yields (.qrd t pr f) s fun u =>
         u.accs = s.accs ++ [if s.queueOk y f then a false else { a false with faulted := true }] ∧
         u.nextId = s.nextId + 1 ∧ u.ext = s.ext ∧ u.tiles = s.tiles) ∧
     (T.before s.sched = T → s.slotActs t (.qwr t pr f) = true →
       Yields (.qwr t pr f) s fun u =>
         u.accs = s.accs ++ [if s.queueOk y f then a true else { a true with faulted := true }] ∧
         u.nextId = s.nextId + 1 ∧ u.ext = s.ext ∧ (u.tile y).scratch = T.scratch ∧
         (s.queueOk y f = true → (u.tile y).bankq = T.bankq ++ (List.range (2 ^ f.size.val)).map fun k =>
           ⟨s.sched + 1 + k, 4, ⟨(T.gen f.agLoc).handle, false, false, [⟨T.agAddr f.agLoc + 512 * k, 512⟩]⟩,
            s.hnd y (T.gen f.agLoc).handle, T.issuePc, .source s.nextId k, none, 0⟩)) ∧
     (T.before s.sched = T → s.canAct y = true → s.issuedNow y = true → T.acts (.qrd t pr f) = false →
       exec (.qrd t pr f) s = .next (s.pushAcc { a false with suppressed := true }) ∧
       exec (.qwr t pr f) s = .next (s.pushAcc { a true with suppressed := true })) ∧
     (∀ mask, s.slotActs t (.qwait t pr mask) = true →
       exec (.qwait t pr mask) s = .next (s.setTile y { T with qw := none }))) ∧
  (∀ (s : State) (id : Nat) (a : QAcc), s.acc id = some a → a.live = true → a.lateIssued = false →
     (∀ gran res retries, a.arrived = true → a.port = none → gran < a.granules → (∀ q ∈ a.served, q.1 ≠ gran) →
       s.available (a.addr + 64 * gran) = true → s.pinsFree (s.place (a.addr + 64 * gran)).1 = true →
       (a.write = true → gran / 8 < a.srcSlots) → s.serveFirst a (s.place (a.addr + 64 * gran)).1 = false →
       (res = .clean ∧ retries = 0 ∨ (∃ n, res = .corrected n) ∧ retries = 0 ∨
         (∃ n ce, res = .retried n ce ∧ retries = min n (if a.write then 3 else 1)) ∨ res = .lost ∧ retries = if a.write then 3 else 1) →
       Yields (.granuleServe id gran res) s fun u =>
         u.ext = s.ext ∧ u.accs = s.accs.map fun q => if q.id = id then
           { q with served := q.served ++ [(gran, s.cnt + 48 * retries + if a.write then 32 else 224)],
                    lost := if res = .lost then q.lost ++ [gran] else q.lost,
                    retr := if retries = 0 then q.retr else q.retr ++ [(gran, 48 * retries)] } else q) ∧
     (s.held = false → a.write = true → a.port = none → (∀ g < a.granules, a.readyBy s.cnt g = true) → a.deadline ≤ s.sched →
       s.awaitsWrite a = false → a.lost = [] → (∀ g < a.granules, s.fencedAt (a.addr + 64 * g) = false) →
       a.src.length = a.bytes → memWf s.ext = true →
       Yields (.writeTakesEffect id) s fun u =>
         Stored s.ext u.ext a.addr a.src ∧ u.acc id = some { a with doneAt := some s.sched }) ∧
     (s.held = false → a.tile < 3072 → a.write = false → a.landAt ≠ s.sched + 1 → a.deadline + a.landed ≤ s.sched →
       (∀ i < 8, a.readyBy s.cnt (8 * a.landed + i) = true) → s.awaitsWrite a = false →
       s.bufferReady a.tile id ⟨a.handle, false, true, [⟨a.off + 512 * a.landed, 512⟩]⟩ (s.matrixTaken a.tile) = true →
       (s.hnd a.tile a.handle).inBounds ⟨a.off + 512 * a.landed, 512⟩ = true → (s.slotBytes a a.landed).length = 512 →
       memWf (s.tile a.tile).scratch = true →
       Yields (.queueLanding id) s fun u =>
         Stored (s.tile a.tile).scratch (u.tile a.tile).scratch ((s.hnd a.tile a.handle).base + (a.off + 512 * a.landed))
           (s.slotBytes a a.landed) ∧ u.ext = s.ext ∧
         ∃ w : List Nat, u.accs = s.accs.map fun q => if q.id = id then
           { q with landed := a.landed + 1, landAt := s.sched + 1, winSeen := q.winSeen ++ w,
                    doneAt := if q.slots ≤ a.landed + 1 then some s.sched else none } else q))

/-- An access on its way to its deadline: a slot of a write's source is read; the request arrives; at the commit point each channel
predicts its granules in turn and asks to hold for the cycles that miss, and for nothing when none does (R222, R227, R230, R280, R287).  What
a channel knows beyond its queue is an operand (notes/assumptions/61.md). -/
def Obligations.QueuePrediction : Prop :=
  ∀ (s : State) (id : Nat) (a : QAcc), s.acc id = some a → a.live = true →
    let upd (g : QAcc → QAcc) := s.accs.map fun q => if q.id = id then g q else q
    let e := a.ent.getD (s.hnd a.tile a.handle)
    let x : OwnAcc := ⟨a.handle, false, false, [⟨a.off + 512 * a.srcSlots, 512⟩]⟩
    (s.held = false → a.write = true → a.srcSlots < a.slots → a.issued + 1 + a.srcSlots ≤ s.sched →
      (if (s.tile a.tile).inInv then (s.tile a.tile).queued (.source id a.srcSlots) = false
       else (s.bufServeE a.tile id e x []).2 = some e) →
      e.inBounds ⟨a.off + 512 * a.srcSlots, 512⟩ = true →
      let slot := rdBytes (s.tile a.tile).scratch (e.base + (a.off + 512 * a.srcSlots)) 512
      Yields (.qwrSourceRead id) s fun u =>
        u.accs = upd (fun q => { q with src := q.src ++ slot, srcSlots := q.srcSlots + 1 }) ∧
        (u.tile a.tile).scratch = (s.tile a.tile).scratch) ∧
    (a.arrived = false →
      (s.sched + 160 ≤ a.deadline →
        exec (.queueRequestArrive id) s = .next (s.modAcc id fun q => { q with arrived := true })) ∧
      (a.deadline < s.sched + 160 →
        Yields (.queueRequestArrive id) s fun u =>
          u.accs = upd (fun q => { q with arrived := true, lateIssued := true, committed := true, data := [] }) ∧
          (u.region a.region).lateIssue = (s.region a.region).lateIssue + 1)) ∧
    (s.held = false → a.committed = false → a.arrived = true → a.deadline ≤ s.sched + 160 →
      (∀ ready, a.port = none →
        let done := s.modAcc id fun q => { q with committed := true }
        exec (.commitPoint id ready) s = .next ((List.range 48).foldl
          (fun u ch => u.predictLate a ch (((ready.find? fun r => r.1 == ch).map (·.2)).getD 0)) done) ∧
        ((∀ r ∈ ready, r.2 ≤ a.deadline) → (∀ g < a.granules, s.granReady a g ≤ a.dueBy g) →
          exec (.commitPoint id ready) s = .next done)) ∧
      (∀ p ready, a.port = some p → a.arrData = true →
        exec (.commitPoint id ready) s = .next (s.modAcc id fun q => { q with committed := true })) ∧
      (∀ ch c,
        let gs := (List.range a.granules).filter fun g => (s.place (a.addr + 64 * g)).1 == ch
        let late := gs.foldl (fun m g => max m (s.granReady a g - a.dueBy g)) (c - a.deadline)
        (gs = [] → s.predictLate a ch c = s) ∧ (late = 0 → s.predictLate a ch c = s) ∧
        (gs ≠ [] → 0 < late →
          (s.predictLate a ch c).reqs = s.reqs ++ [⟨s.cnt, s.cnt + 64, min late 65535, 1, 0x1000 + ch⟩] ∧
          ∃ w : List Nat, (s.predictLate a ch c).accs = upd fun q => { q with winSeen := q.winSeen ++ w })) ∧
      (∀ p ready, a.port = some p → a.arrData = false → (s.annex p).waitHold = [] →
        Yields (.commitPoint id ready) s fun u =>
          (∃ q, u.reqs = s.reqs ++ [q] ∧ q.first = s.cnt + 64 ∧ q.cause = 2 ∧ q.source = 0x2000 + p) ∧
          (u.annex p).waitHold = [id]))


/-- Refresh, trim and their registers: the calendar's windows, refresh within a hold, what is overdue, a re-trim and a new temperature bin,
and the writes of MEM_CALn and MEM_REFn (R275 to R278, R290 to R300). -/
def Obligations.RefreshTrimAndRegisters : Prop :=
  (∀ (s : State) (ch : Nat), s.chanPresent ch = true →
     let c := s.chan ch
     let w := s.calAt ch s.sched
     let n := refreshLen s.step_
     (∀ (j : Fin 4) (fixed : GranRes), s.held = false → bits w 23 12 ≠ 0 → calPos s.sched = calOpen w j →
       Yields (.calendarWindowOpen ch j fixed) s fun u =>
         (∀ b, mget (u.chan ch).lastRef b 0 = if b / 4 = calGroup w j then s.cnt else mget c.lastRef b 0) ∧
         (∀ b, mget (u.chan ch).refEnd b 0 = if b / 4 = calGroup w j then s.cnt + n else mget c.refEnd b 0) ∧
         (j.val ≠ 0 → u.regs = s.regs ∧ (u.chan ch).scrub = c.scrub) ∧
         (∀ n, j.val = 0 → fixed = .corrected n → c.retrim = none → s.fld F.memCal_auto ch = 0 →
           u.fld F.memStat_ce ch = min (s.fld F.memStat_ce ch + n) (2 ^ 20 - 1)) ∧
         (j.val = 0 → c.retrim = none → s.fld F.memCal_auto ch = 0 → (u.chan ch).scrub = (c.scrub + 64) % 0x180000000)) ∧
     (∀ b : Fin 16, s.held = true → mget c.lastRef b 0 + 2304 ≤ s.cnt → (∀ x, x / 4 = b.val / 4 → mget c.refEnd x 0 ≤ s.cnt) →
       (∀ k < n, s.heldAt (s.cnt + k) = true) →
       let c' := { c with lastRef := mput c.lastRef b s.cnt, refEnd := mput c.refEnd b (s.cnt + n), overdue := mdel c.overdue b }
       exec (.holdRefresh ch b) s = .next { s with chans := mput s.chans ch c' }) ∧
     (∀ b : Fin 16, c.mayAsk b s.cnt n = true → mget c.lastRef b 0 + 4032 ≤ s.cnt →
       Yields (.refreshOverdue ch b) s fun u =>
         u.reqs = s.reqs ++ [⟨s.cnt, s.cnt + 64, n, 1, 0x1000 + ch⟩] ∧ (u.chan ch).overdue = mput c.overdue b s.cnt) ∧
     (∀ r, c.retrim = some r → 1024 ≤ r.done → s.fld F.memCal_auto ch = 0 →
       Yields (.retrimComplete ch) s fun u =>
         (u.chan ch).retrim = none ∧
         mfind (u.chan ch).runSets (4 * s.step_ + r.bin) =
           (match mfind c.runSets (4 * s.step_ + r.bin) with
            | some t => if t.full = true ∧ r.allFull = false then some t else some ⟨r.bin, r.allFull, s.nextId + 1⟩
            | none => some ⟨r.bin, r.allFull, s.nextId + 1⟩)) ∧
     (∀ temp : BitVec 8, binAfter temp.toNat c.bin ≠ c.bin → s.fld F.memCal_auto ch = 0 →
       Yields (.temperatureBinChange ch temp) s fun u =>
         (u.chan ch).bin = binAfter temp.toNat c.bin ∧ (u.chan ch).retrim = none ∧ (u.chan ch).runSets = c.runSets)) ∧
  (∀ temp b : Nat, b ≤ 3 →
     (binOf temp = if temp < 50 then 0 else if temp < 70 then 1 else if temp ≤ 85 then 2 else 3) ∧ binOf temp ≤ binAfter temp b ∧
     (b ≤ binOf temp → binAfter temp b = binOf temp) ∧
     (binOf temp < b → binAfter temp b ≤ b ∧ (binAfter temp b = b ↔ (if b = 1 then 50 else if b = 2 then 70 else 85) < temp + 3))) ∧
  (∀ (s : State) (w : Writer) (ch off : Nat) (v : BitVec 32), s.mayWrite w = true → s.chanPresent ch = true →
     Yields (.retrimForce w ch off v) s (fun u =>
       u.fld F.memCal_auto ch = v.toNat % 2 ∧ (v.getLsbD 1 = true → (u.chan ch).retrim.isSome = true)) ∧
     (s.loading = none → s.anyRunning = false → bits v.toNat 11 0 < 2304 → orderOk (bits v.toNat 31 24) = true →
       calFeasible (bits v.toNat 23 12) s.step_ = true →
       Yields (.memRefWrite w ch off v) s fun u =>
         u.reg .memRef ch % 2 ^ 32 = v.toNat ∧ (u.chan ch).oldCal = some ((s.sched / 2304 + 1) * 2304, s.calAt ch s.sched) ∧
         u.fld F.hstHistate_modified 0 = 1))

/-- The annex ports: a request sent, its answer, a failure that drops writes and makes reads lost, and the end of training with the
capacity mapped, port 0 first (R286, R287, R288, R302). -/
def Obligations.AnnexPorts : Prop :=
  ∀ (s : State) (p : Fin 2),
    (∀ id a, s.acc id = some a → a.live = true → a.port = some p.val → a.sent = false → a.arrived = true → s.annexUp p = true →
      s.annexWrite a = false → (a.write = true → a.slots ≤ a.srcSlots) →
      Yields (.annexRequestSend p id) s fun u =>
        u.accs = s.accs.map fun q => if q.id = id then { q with sent := true, sentAt := s.wall } else q) ∧
    (∀ id a, s.acc id = some a → a.live = true → a.port = some p.val → a.sent = true → a.arrData = false →
      (a.write = false → ∀ bad, Yields (.annexResponse p id (.poisoned bad)) s fun u =>
        u.ext = s.ext ∧ ∃ b, u.acc id = some b ∧ b.arrData = true ∧ b.lost = (List.range a.granules).filter bad.contains ∧
          b.served = (List.range a.granules).map fun g => (g, s.cnt)) ∧
      (a.write = true → a.lost = [] → (∀ g < a.granules, s.fencedAt (a.addr + 64 * g) = false) → a.src.length = a.bytes →
        memWf s.ext = true → ∀ res, Yields (.annexResponse p id res) s fun u =>
          Stored s.ext u.ext a.addr a.src ∧ ∃ b, u.acc id = some b ∧ b.doneAt = some s.sched)) ∧
    (s.fld F.anxStat_state p = 2 →
      let fails (u : State) : Prop :=
        u.fld F.anxStat_state p = 3 ∧ u.ext = s.ext ∧
        (∀ a ∈ u.accs, a.port = some p.val → a.live = true → a.arrData = true) ∧ (u.annex p).waitHold = [] ∧
        ∀ id a, s.acc id = some a → a.live = true → a.port = some p.val → a.arrData = false → a.write = false →
          ∃ b, u.acc id = some b ∧ b.lost = List.range a.granules
      Yields (.annexLinkDown p) s fails ∧
      (∀ a ∈ s.accs, a.live = true → a.port = some p.val → a.sent = true → a.arrData = false →
        a.sentAt + 100 * max 1 (s.fld F.anxCtl_timeout p) ≤ s.wall → Yields (.annexTimeout p) s fails)) ∧
    (s.fld F.anxStat_state p = 1 →
      Yields (.annexTrainingEnd p none) s (fun u => u.fld F.anxStat_state p = 3) ∧
      ∀ l : AnxLink, Yields (.annexTrainingEnd p (some l)) s fun u =>
        u.fld F.anxStat_state p = 2 ∧ u.fld F.anxStat_width p = l.width ∧ u.fld F.anxStat_rate p = l.rate ∧
        u.fld F.anxStat_size p = min (l.capacity / 2 ^ 20) (if p.val = 0 then 2 ^ 22 else 2 ^ 22 - u.fld F.anxStat_size 0) ∧
        (p.val = 1 → u.fld F.anxStat_size 0 = if s.fld F.anxStat_state 0 = 2 then min (s.annex 0).cap (2 ^ 22) else 0)) ∧
    (∀ w off v, s.mayWrite w = true → s.loading = none → s.anyRunning = false →
      Yields (.annexRetrain w p off v) s fun u =>
        u.fld F.anxCtl_timeout p = bits v.toNat 15 0 ∧
        (s.fld F.anxCtl_enable p = 1 → v.getLsbD 17 = true → u.fld F.anxStat_state p = 1 ∧ u.fld F.anxStat_size p = 0))

/-! ## Chapters 02 and 06: plan time, holds, plan streaming, starts -/

/-- Time: on an empty queue one tile clock cycle passes and the block goes on (notes/assumptions/1.md); in it PTC_COUNT advances by one, and
PTC_SCHED by one unless the cycle is held (R213, R214). -/
def Obligations.TimeAdvances : Prop :=
  (∀ (s t : State), s.pending = [] → s.clocked = true → (∀ h, s.hold = some h → h.2.1 < 256) → step s = .next t →
     t.cnt = (s.cnt + 1) % 2 ^ 64 ∧ t.sched = (if s.held then s.sched else (s.sched + 1) % 2 ^ 64)) ∧
  (∀ s : State, s.pending = [] → step s = .next (tick s))

/-- A request made in cycle c with length L covers the cycles c + 64 to c + 63 + L, and the module holds on every cycle that any
request covers (R229). -/
def Obligations.RequestsHold : Prop :=
  ∀ (s : State) (cause source l c : Nat), 1 ≤ l → l ≤ 65535 →
    ((s.request cause source l).heldAt c = true ↔ s.heldAt c = true ∨ s.cnt + 64 ≤ c ∧ c ≤ s.cnt + 63 + l) ∧
    (s.held = s.heldAt s.cnt) ∧
    (s.held = true → s.hold.isSome = true → exec .holdBegin s = .next s ∧ exec .holdEnd s = .next s)

/-- A hold begins and ends with its log entry, requests are made at a boundary or by a write, and the occupancy window closes (R229 to R236,
R251 to R258). -/
def Obligations.HoldsAndOccupancy : Prop :=
  (∀ (s : State),
     (s.held = true → s.hold = none →
       let n := s.fld F.ptcHlogptr_next 0
       let c := s.runStart (s.reqs.length + 1) s.cnt
       Yields .holdBegin s fun u =>
         u.hold = some (c, n, s.cnt) ∧ u.reg .ptcHloga n = c % 2 ^ 64 ∧ u.fld F.ptcHlogb_length n = 0 ∧
         u.fld F.ptcHlogptr_next 0 = (n + 1) % 256 ∧ u.reqs = s.reqs ∧ u.tiles = s.tiles) ∧
     (∀ c n last, s.hold = some (c, n, last) → s.held = false →
       Yields .holdEnd s fun u =>
         u.hold = none ∧ u.fld F.ptcHlogb_length n = (last + 1 - c) % 2 ^ 32 ∧ u.reqs = s.reqs ∧ u.tiles = s.tiles) ∧
     (s.anyInv = true → exec .boundaryHoldRequest s = .next s) ∧
     (s.anyInv = false → Yields .boundaryHoldRequest s fun u =>
       let due (a : Nat × Nat × Nat × Nat) : Bool := decide (a.2.2.2 + 64 ≤ s.cnt + 1)
       u.boundaryAsk = s.boundaryAsk.filter (fun a => !due a) ∧
       u.reqs = s.reqs ++ ((s.boundaryAsk.filter due).filter fun a => a.2.2.1 != 0).map fun a =>
         ⟨s.cnt, s.cnt + 64, min a.2.2.1 65535, a.1, a.2.1⟩) ∧
     (∀ w off v, s.mayWrite w = true →
       let l := bits v.toNat 15 0
       exec (.ptcHoldreqWrite w off v) s =
         .next (if l = 0 then s else { s with reqs := s.reqs ++ [⟨s.cnt, s.cnt + 64, l, 10, 0x8000⟩] }))) ∧
  (∀ (s : State), s.held = false → s.occ.start + s.occ.window ≤ s.sched →
     Yields .occWindowEnd s fun u =>
       u.occ = { start := s.sched, window := max 0x1000 (s.fld F.ptcOccwin_window 0), use := [] } ∧
       ∀ lvl < 6, u.fld F.ptcOcc_mean lvl =
         share (((s.occUnits lvl s.occ.window).map fun q => mget s.occ.use (lvl * 2 ^ 32 + q.1) 0).sum)
           (((s.occUnits lvl s.occ.window).map (·.2)).sum))


/-- An invocation from its park to its end: the park's request, the decision of a launch at count, t0, the next step of a series, and the end
on a tile and on the region (R87, R239 to R246, R465). -/
def Obligations.InvocationsStartAndEnd : Prop :=
  (∀ (s : State),
     (∀ r rs p, s.parkable = r :: rs → s.anyInv = false → s.park = none → s.schedIn64 % 2304 = 0 → (s.region r).pend = some p →
       ¬(p.mode = .count ∧ p.count < s.cnt + 128) →
       Yields .parkRequest s fun u =>
         u.park = some ⟨s.cnt, s.cnt + 64, parkEnd p (s.cnt + 64), r⟩ ∧ u.regions = s.regions ∧ u.tiles = s.tiles) ∧
     (∀ (r : Fin 8) p, (s.region r).pend = some p → p.mode = .count → p.go = none → p.count ≤ s.cnt + 64 →
       ((∃ k, s.park = some k ∧ k.first + 64 ≤ p.count) → exec (.launchCountDecision r) s = .next s) ∧
       ((∀ k, s.park = some k → p.count < k.first + 64) → s.anyInv = true → s.cnt ≤ p.count → p.since ≤ p.count → s.heldAt p.count = false →
         s.schedAt p.count % 2304 = 0 →
         exec (.launchCountDecision r) s = .next (s.modRegion r fun R => { R with pend := some { p with go := some p.count } })) ∧
       ((∀ k, s.park = some k → p.count < k.first + 64) → s.anyInv = false → s.launchOf r = none →
         Yields (.launchCountDecision r) s fun u =>
           (u.region r).running = false ∧ (u.region r).pend = none ∧ (u.region r).plan = (s.region r).plan)) ∧
     (∀ r : Fin 8, s.mayBegin r = true → s.startDue r = true → (s.region r).begun = false →
       (s.packsHere r = true → s.tableDone r 0 = true) →
       Yields (.invocationStart r) s fun u =>
         (u.region r).inInv = true ∧ (u.region r).t0 = s.sched ∧ (u.region r).t0c = s.cnt ∧ (u.region r).pend = none ∧
         ∀ t ∈ s.tilesOf r,
           let U := u.tile (tIx t)
           U.inInv = true ∧ U.pc = 0 ∧ U.late = 0 ∧ U.lvls = [] ∧ U.preds = 0 ∧ U.scratch = (s.tile (tIx t)).scratch ∧
           U.vregs = (if s.fld F.tilVctl_keep (tIx t) = 1 then (s.tile (tIx t)).vregs else []))) ∧
  (∀ (s : State) (r : Fin 8) (x : Series), (s.region r).series = some x → (s.region r).begun = true → (s.region r).armed = false →
     x.stopReq = false → s.mayBegin r = true → s.stepDue r = true → s.twinReady r (x.step + 1) = true →
       Yields (.stepStart r) s fun u =>
         (u.region r).inInv = true ∧ (u.region r).t0 = s.sched ∧
         (∃ z, (u.region r).series = some z ∧ z.step = x.step + 1 ∧ z.endedAt = none ∧ z.stopReq = false) ∧
         ∀ t ∈ s.tilesOf r, (u.tile (tIx t)).inInv = true ∧ (u.tile (tIx t)).pc = 0) ∧
  (∀ (s : State) (t : Xy),
     let y := tIx t
     let r := s.regionOf t
     s.held = false → (s.tile y).inInv = true → s.tileDone y (s.textOf t).length = true → r < 8 →
       (∀ x ∈ s.tilesOf r, tIx x ≠ y → (s.tile (tIx x)).inInv = false) → (∀ L ∈ s.fab.launches, L.region = r → L.queued = false) →
       Yields (.invocationEnd t) s fun u =>
         (u.tile y).inInv = false ∧ (u.tile y).invs = (s.tile y).invs + 1 ∧ (u.tile y).scratch = (s.tile y).scratch ∧
         (u.region r).inInv = false ∧ (u.region r).invNo = (s.region r).invNo + 1 ∧
         u.fld F.ptcRuna_schedlen r = min (s.sched + 1 - (s.region r).t0) (2 ^ 32 - 1) ∧ u.fld F.ptcRunb_valid r = 1 ∧
         u.scanDue = true)

/-! ## Chapter 08: DMA -/

/-- DMA channels start, run, pause, resume and abort, and a drain ends in the state it was for (R312 to R320, R326). -/
def Obligations.DmaControlsAndDrains : Prop :=
  (∀ (s : State) (ch : Chan), chanExists ch = true →
     let ix := chIx ch
     let st := s.dmaState ix
     let others (u : State) : Prop := ∀ k, k ≠ ix → u.dmaCh k = s.dmaCh k
     (∀ c d, s.begins (.dmaStart c ch d) c 0x0006 false → (ch.die < 8 → s.dieAbsent ch.die = false) →
       s.spAbsent (ctlSrcsp d.ctrl.toNat) d.src.toNat = false → s.spAbsent (ctlDstsp d.ctrl.toNat) d.dst.toNat = false →
       st ≠ 1 → st ≠ 2 → s.descCheck ix d = 0 →
       Answers (.dmaStart c ch d) c s fun u =>
         u.dmaState ix = 1 ∧ u.reg .dmaSrc ix = d.src.toNat ∧ u.reg .dmaDst ix = d.dst.toNat ∧ u.reg .dmaLen ix = d.len.toNat ∧
         u.reg .dmaNext ix = d.next.toNat ∧ (u.dmaCh ix).cmd = some c ∧ (u.dmaCh ix).rd = 0 ∧ (u.dmaCh ix).wr = 0 ∧ others u) ∧
     (∀ w off v, s.mayWrite w = true → s.chanHere ix = true →
       let low := putBits (bits v.toNat 15 0) 7 6 0
       (v.getLsbD 31 = true → v.getLsbD 29 = false → st ≠ 1 → st ≠ 2 → (v.getLsbD 30 = false) →
         s.descCheck ix { s.dmaRegs ix with ctrl := BitVec.ofNat 32 low } = 0 →
         Yields (.dmaGo w ch off v) s fun u =>
           u.dmaState ix = 1 ∧ bits (u.reg .dmaCtl ix) 15 0 = low ∧ (u.dmaCh ix).rd = 0 ∧ (u.dmaCh ix).wr = 0 ∧ others u) ∧
       (v.getLsbD 31 = false → v.getLsbD 30 = true → v.getLsbD 29 = false → st = 1 → (s.dmaCh ix).drain = .none →
         Yields (.dmaPause w ch off v) s fun u =>
           u.dmaState ix = 2 ∧ (u.dmaCh ix).drain = .pause ∧ (u.dmaCh ix).buf = (s.dmaCh ix).buf ∧ others u) ∧
       (v.getLsbD 31 = false → v.getLsbD 30 = false → v.getLsbD 29 = false → st = 3 →
         Yields (.dmaResume w ch off v) s fun u => u.dmaState ix = 1 ∧ (u.dmaCh ix).drain = .none ∧ others u) ∧
       (v.getLsbD 31 = false → v.getLsbD 30 = true → v.getLsbD 29 = true →
         (st = 1 ∨ st = 2 → (s.dmaCh ix).drain ≠ .fail →
           Yields (.dmaAbort w ch off v) s fun u => u.dmaState ix = 2 ∧ (u.dmaCh ix).drain = .abort ∧ others u) ∧
         (st = 3 ∨ st = 4 → (s.dmaCh ix).haltAt ≠ s.cnt + 1 →
           Yields (.dmaAbort w ch off v) s fun u => u.dmaState ix = 0 ∧ (u.dmaCh ix).cmd = none ∧ others u)))) ∧
  (∀ (s : State) (ch : Chan), chanExists ch = true →
     let ix := chIx ch
     let C := s.dmaCh ix
     s.dmaState ix = 1 ∨ s.dmaState ix = 2 → C.wr = C.wrSent → C.rd = C.rdSent → s.dmaLimit ix ≤ C.wr → C.fetch = false →
       C.drain ≠ .none → C.drainAt ≠ s.cnt + 1 →
       Yields (.dmaDrainEnd ch) s fun u =>
         u.dmaState ix = (match C.drain with | .pause => 3 | .abort => 0 | _ => 4) ∧ (u.dmaCh ix).drain = .none ∧
         (C.drain = .fail → u.reg .dmaErr ix = C.failAddr % 2 ^ 64 ∧ u.fld F.dmaStat_cause ix = C.failCause % 16) ∧
         (C.drain ≠ .pause → (u.dmaCh ix).cmd = none) ∧ (C.drain = .pause → (u.dmaCh ix).cmd = C.cmd))

/-- An access of a channel in its slot: bytes read join the stream, bytes written are the stream's bytes reordered and reach their
space, a scratchpad access goes out as a packet; a chained descriptor is read and goes on; a failing access makes the channel drain, or
halts it where it was the descriptor's (R283, R307, R311, R314, R315, R316, R320). -/
def Obligations.DmaAccesses : Prop :=
  ∀ (s : State) (ch : Chan), chanExists ch = true →
    let ix := chIx ch
    let C := s.dmaCh ix
    (∀ sp a n res, s.dmaNextAcc ix false = some (sp, a, n) → s.dmaMay ix sp a = true → s.dmaCause ix false sp a n = 0 →
      (sp = 0 → a < s.gddrSize → res ≠ .lost) →
      (C.fetch = false → sp = 0 ∨ sp = 1 →
        Yields (.dmaSlotAccess ch ⟨false, res⟩) s fun u =>
          (u.dmaCh ix).buf = C.buf ++ rdBytes (if sp = 0 then s.ext else s.hostMem) a n ∧ (u.dmaCh ix).rd = C.rd + n ∧
          (u.dmaCh ix).rdSent = C.rdSent + n ∧ u.reg .dmaSrc ix = (s.reg .dmaSrc ix + n) % 2 ^ 64 ∧
          u.ext = s.ext ∧ u.hostMem = s.hostMem) ∧
      (C.fetch = false → sp = 2 →
        Yields (.dmaSlotAccess ch ⟨false, res⟩) s fun u =>
          (u.dmaCh ix).rdSent = C.rdSent + n ∧ ∃ p, u.mpkts = s.mpkts ++ [p] ∧ p.kind = .dma ∧ p.write = false ∧
            p.src = spTile a ∧ p.handle = spHandle a ∧ p.off = spOff a ∧ p.len = n ∧ p.soff = C.rdSent ∧ p.chan = ix) ∧
      (C.fetch = true →
        let d := s.descAt a
        (s.descCheck ix d = 0 → C.drain = .none →
          Yields (.dmaSlotAccess ch ⟨false, res⟩) s fun u =>
            u.dmaState ix = 1 ∧ u.reg .dmaSrc ix = d.src.toNat ∧ u.reg .dmaDst ix = d.dst.toNat ∧ u.reg .dmaLen ix = d.len.toNat ∧
            u.reg .dmaNext ix = d.next.toNat ∧ (u.dmaCh ix).fetch = false ∧ (u.dmaCh ix).desc = a ∧ (u.dmaCh ix).cmd = C.cmd) ∧
        (s.descCheck ix d ≠ 0 →
          Yields (.dmaSlotAccess ch ⟨false, res⟩) s fun u =>
            u.dmaState ix = 4 ∧ u.fld F.dmaStat_cause ix = 9 ∧ (u.dmaCh ix).fetch = false ∧ (u.dmaCh ix).cmd = none))) ∧
    (∀ sp a n res, s.dmaNextAcc ix true = some (sp, a, n) → s.dmaMay ix sp a = true → s.dmaCause ix true sp a n = 0 →
      (sp = 0 → a < s.gddrSize → res ≠ .lost) →
      (sp = 0 → (n = 64 ∨ C.rmw = true) → memWf s.ext = true →
        Yields (.dmaSlotAccess ch ⟨true, res⟩) s fun u =>
          Stored s.ext u.ext a (s.swapped ix C.wrSent n) ∧ u.hostMem = s.hostMem ∧ u.tiles = s.tiles) ∧
      (sp = 0 → n < 64 → C.rmw = false →
        Yields (.dmaSlotAccess ch ⟨true, res⟩) s fun u =>
          u.ext = s.ext ∧ (u.dmaCh ix).rmw = true ∧ (u.dmaCh ix).wrSent = C.wrSent) ∧
      (sp = 1 → memWf s.hostMem = true →
        Yields (.dmaSlotAccess ch ⟨true, res⟩) s fun u =>
          Stored s.hostMem u.hostMem a (s.swapped ix C.wrSent n) ∧ u.ext = s.ext ∧ u.tiles = s.tiles) ∧
      (sp = 2 →
        Yields (.dmaSlotAccess ch ⟨true, res⟩) s fun u =>
          (u.dmaCh ix).wrSent = C.wrSent + n ∧ ∃ p, u.mpkts = s.mpkts ++ [p] ∧ p.kind = .dma ∧ p.write = true ∧
            p.data = s.swapped ix C.wrSent n ∧ p.src = spTile a ∧ p.handle = spHandle a ∧ p.off = spOff a ∧ p.chan = ix)) ∧
    (∀ w sp a n, s.dmaNextAcc ix w = some (sp, a, n) → C.fetch = false → C.drain ≠ .fail →
      let failed (cause addr : Nat) (u : State) : Prop :=
        (u.dmaCh ix).drain = .fail ∧ (u.dmaCh ix).failCause = cause ∧ (u.dmaCh ix).failAddr = addr ∧ (u.dmaCh ix).failWrite = w
      (s.dmaMay ix sp a = true → s.dmaCause ix w sp a n ≠ 0 →
        ∀ res, Yields (.dmaSlotAccess ch ⟨w, res⟩) s (failed (s.dmaCause ix w sp a n) a)) ∧
      (sp = 0 → a < s.gddrSize → s.dmaMay ix sp a = true → s.dmaCause ix w sp a n = 0 →
        Yields (.dmaSlotAccess ch ⟨w, .lost⟩) s (failed 4 a)) ∧
      ∀ addr : BitVec 64, a ≤ addr.toNat → addr.toNat < a + n →
        (sp = 1 → Yields (.dmaAccessFail ch w addr .pcie) s (failed 1 addr.toNat)) ∧
        (sp = 0 → a < s.gddrSize → Yields (.dmaAccessFail ch w addr .granule) s (failed 4 addr.toNat)) ∧
        (∀ p, sp = 0 → annexPortOf a = some p →
          (w = false ∨ (n < 64 ∧ C.rmw = false) → Yields (.dmaAccessFail ch w addr .poisoned) s (failed 5 addr.toNat)) ∧
          Yields (.dmaAccessFail ch w addr .timeout) s (failed 5 addr.toNat)))

/-- A DMA packet moves one hop in its channel's mesh slot; a gate that was asked for takes effect on a bank once no DMA write is
outstanding toward it (R311, R322, R579). -/
def Obligations.DmaPacketsAndGates : Prop :=
  ∀ (s : State),
    (∀ id p z, s.pkt id = some p → p.kind = .dma → s.held = false → p.at_ ≠ p.dst →
      s.farEnd p.at_ (nextDir p.at_ p.dst) = .tile z → s.dmaHops p (nextDir p.at_ p.dst) z = true →
      Yields (.dmaPacketHop id) s fun u =>
        let d := nextDir p.at_ p.dst
        let moved : State := { s with mpkts := s.mpkts.map fun q => if q.id = id then
          { q with at_ := z, since := s.sched, hops := q.hops + 1, dir := d, via := portUnit q.at_ d, depart := some (q.depart.getD s.sched),
                   land := s.sched + (if q.kind = .winReq then 8 else 9) } else q }
        u.tiles = s.tiles ∧ u.mpkts = (moved.settleQueue p.at_ d).mpkts) ∧
    (∀ t, Yields (.bankGateEffect t) s fun u =>
      (∀ b < 32, (u.tile (tIx t)).gateReq.getLsbD b =
        ((s.tile (tIx t)).gateReq.getLsbD b && decide (mget s.bankOut (32 * tIx t + b) 0 ≠ 0))) ∧
      ((s.gal (galOf t)).gatePend = true → (∀ k < 16, ∀ b < 32, mget s.bankOut (32 * tIx (tileAt (galOf t) k) + b) 0 = 0) →
        (u.gal (galOf t)).awake = false ∧ (u.gal (galOf t)).gatePend = false ∧ u.fld F.galGate_awake (galOf t) = 0) ∧
      (u.tile (tIx t)).scratch = (s.tile (tIx t)).scratch)

/-! ## Chapters 01, 02 and 09: loads, plans, rings, registers -/


/-- Images and plans: LOAD_IMAGE validates and installs; plans are loaded and freed; a streamed plan's blocks are asked for, land and are
broadcast (R38 to R48, R83 to R86, R340, R341). -/
def Obligations.ImagesAndPlans : Prop :=
  (∀ (s : State) (c : Cmd) (addr : BitVec 64) (len : BitVec 32) (ok : Bool),
     (s.loading = none → s.begins (.loadImage c addr len ok) c 0x0001 false → s.fwPass 0 false addr.toNat len.toNat = true → s.idleForLoad = true →
       Answers (.loadImage c addr len ok) c s fun u =>
         u.loading = some ⟨c, rdBytes s.hostMem addr.toNat len.toNat, ok, false, []⟩ ∧ u.fld F.hstHistate_state 0 = 1 ∧
         u.img = s.img ∧ u.plans = s.plans) ∧
     (∀ L, s.loading = some L → L.cmd = c → L.applied = false → c.fn = 0 →
       (∀ f, s.checkImage L.bytes L.sigOk = .error f →
         Answers (.loadImage c addr len ok) c s fun u =>
           u.loading = none ∧ u.img = s.img ∧ u.plans = s.plans ∧ u.regions = s.regions ∧
           u.fld F.hstHistate_state 0 = (if s.img.isSome then 3 else 0) ∧ u.fld F.hstHierr_status 0 = f.status % 2 ^ 16 ∧
           (s.ringStopped 0 = false → Completed s u c 0x0001 f.status)) ∧
       (∀ im, s.checkImage L.bytes L.sigOk = .ok im →
         Yields (.loadImage c addr len ok) s fun u =>
           u.img = some im ∧ u.plans = [] ∧ (∃ ps, u.loading = some { L with applied := true, ports := ps }) ∧ u.fld F.hstHistate_state 0 = 2 ∧
           u.reg .hstHiid 0 = im.id.toNat ∧ u.fld F.hstHistate_modified 0 = 0 ∧ u.ext = s.ext)) ∧
     (∀ L, s.loading = some L → L.cmd = c → L.applied = true → c.fn = 0 →
       Answers (.loadImage c addr len ok) c s fun u =>
         u.loading = none ∧ u.img = s.img ∧ u.fld F.hstHistate_state 0 = 3 ∧ (s.ringStopped 0 = false → Completed s u c 0x0001 0))) ∧
  (∀ (s : State) (c : Cmd),
     (s.begins (.nopCommand c) c 0x0000 true →
       exec (.nopCommand c) s = .next (((s.popCmd c).complete c 0x0000 0).answerAll c.fn) ∧
       Completed s ((s.popCmd c).complete c 0x0000 0) c 0x0000 0) ∧
     (∀ addr len, s.begins (.planLoad c addr len) c 0x0002 false → s.fwPass 0 false addr.toNat len.toNat = true →
       let b := rdBytes s.hostMem addr.toNat len.toNat
       (∀ o id, s.planCheck b = 0 → s.planPlace b.length = some o → s.freePlanId = some id → memWf s.ext = true →
         Answers (.planLoad c addr len) c s fun u =>
           u.plans = s.plans ++ [planFrom b id o] ∧ Stored s.ext u.ext (s.planArea.1 + o) b ∧ Completed s u c 0x0002 0 id ∧
           u.regs = s.regs ∧ u.hostMem = s.hostMem) ∧
       (s.planCheck b ≠ 0 →
         Answers (.planLoad c addr len) c s fun u =>
           u.plans = s.plans ∧ u.ext = s.ext ∧ Completed s u c 0x0002 (s.planCheck b))) ∧
     (∀ p, s.begins (.planFree c p) c 0x0003 false →
       ((∃ r < 8, s.running r = true ∧ (s.region r).plan = some p.toNat) →
         Answers (.planFree c p) c s fun u => u.plans = s.plans ∧ Completed s u c 0x0003 0x0049) ∧
       ((∀ r < 8, s.running r = true → (s.region r).plan ≠ some p.toNat) → (s.planOf p.toNat).isSome = true →
         Answers (.planFree c p) c s fun u =>
           u.plans = s.plans.filter (fun x => x.id != p.toNat) ∧ Completed s u c 0x0003 0 ∧
           ∀ r, (u.region r).plan = if (s.region r).plan = some p.toNat then none else (s.region r).plan))) ∧
  (∀ (s : State) (g : Nat) (p : Plan), s.streaming g = some p → s.held = false →
     let v := s.gal g
     let pos := s.galPos g
     (∀ late, pos % 6 = 0 → v.opp ≤ pos / 6 → v.staged.length < 128 → v.nextBlock < (p.text.length + 15) / 16 →
       let s' := s.modGal g fun v => { v with opp := pos / 6 + 1 }
       let ready := (s'.textGrans g (s'.blockAddr p v.nextBlock)).foldl max 0
       let miss := s.schedPub (max ready (s.cnt + 640 + late)) - (s.sched + 640)
       Yields (.fetchOpportunity g late) s fun u =>
         u.gal g = { v with opp := pos / 6 + 1, nextBlock := v.nextBlock + 1, staged := v.staged ++ [⟨v.nextBlock, pos + 640, false, [], ready⟩] } ∧
         (u.reqs = if miss = 0 then s.reqs else s.reqs ++ [⟨s.cnt, s.cnt + 64, min miss 65535, 3, 0x3000 + g⟩]) ∧
         u.tiles = s.tiles) ∧
     (∀ b res, v.staged.find? (fun b => !b.landed) = some b → b.land ≤ pos → b.ready ≤ s.cnt →
       Yields (.blockLanding g res) s fun u =>
         u.tiles = s.tiles ∧ u.gal g = { v with staged := v.staged.map fun c =>
           if c.block = b.block then { c with landed := true, lost := (lostGrans 6 res).flatMap granTriples } else c }) ∧
     (∀ b rest f fs, v.staged = b :: rest → b.landed = true → v.ringFree = f :: fs → f.1 ≤ s.sched → v.lastBcast ≤ s.sched →
       Yields (.blockBroadcast g) s fun u =>
         let bk := max (max b.land v.lastB) f.2
         let w := { v with staged := rest, ring := v.ring ++ [b.block], ringFree := fs, lastBcast := s.sched + 1, lastB := bk + 1 }
         ((∀ k ∈ w.ring, u.blockPassed g k = false) → u.gal g = w) ∧ (∀ k ∈ (u.gal g).ring, k ∈ w.ring ∧ u.blockPassed g k = false) ∧
         ∀ t ∈ s.activeOf g, (u.tile (tIx t)).bcast = (s.tile (tIx t)).bcast + 1 ∧
           (b.block, s.sched, bk) ∈ (u.tile (tIx t)).bcastAt ∧
           (u.tile (tIx t)).lostPc = (s.tile (tIx t)).lostPc ++ b.lost.map (16 * b.block + ·)))

/-- The rings: a scan takes the host's entries, completions, events and interrupts are written, a failed access stops a function's rings and
a restart, an enable or a function-level reset returns them (R333 to R355). -/
def Obligations.HostRings : Prop :=
  (∀ (s : State) (host : HostDone), s.scanIsDue = true →
     let m := host.writes.foldl (fun m w => if w.1 < 2 ^ 64 then wrByte m w.1 w.2 else m) s.hostMem
     Yields (.ringScan host) s fun u =>
       u.scanDue = false ∧ u.ext = s.ext ∧ u.tiles = s.tiles ∧ u.vfs = host.vfs ∧
       u.scanAt = (if s.scanAt + 1600 ≤ s.ctlTime then s.ctlTime / 1600 * 1600 else s.scanAt) ∧
       ((∀ fn < 16, s.fld F.hstCmdring_enable fn = 0) → u.hostMem = m ∧ u.fns = s.fns ∧ u.regs = s.regs) ∧
       (s.fld F.hstCmdring_enable 0 = 1 → s.ringStopped 0 = false → (∀ fn < 16, 0 < fn → s.fld F.hstCmdring_enable fn = 0) →
         let f := s.func 0
         let base := s.fld F.hstCmdring_base 0 * 4096
         let nx := ringNext (ringLen (s.fld F.hstCmdring_size 0)) f.cmdIdx f.cmdPhase
         let t : Taken := ⟨f.cmdIdx, rdBytes m (base + 64 * f.cmdIdx) 64, s.scans + 1⟩
         s.fwPass 0 false (s.sbAddr 0) 12 = true → s.fwPass 0 false (base + 64 * f.cmdIdx) 64 = true →
         s.fwPass 0 false (base + 64 * nx.1) 64 = true → f.taken = [] →
         (rdByte m (base + 64 * f.cmdIdx + 2)).getLsbD 0 = f.cmdPhase → (rdByte m (base + 64 * nx.1 + 2)).getLsbD 0 = !nx.2 →
         s.badStatus 0 t = none →
           (u.func 0).taken = [t] ∧ (u.func 0).cmdIdx = nx.1 ∧ (u.func 0).cmdPhase = nx.2)) ∧
  (∀ (s : State) (fn : Nat), fn < 16 → s.ringStopped fn = false → s.fwPass fn true (s.sbAddr fn + 0x20) 12 = true → memWf s.hostMem = true →
     let f := s.func fn
     let apart (a : Nat) : Prop := a + 32 ≤ s.sbAddr fn + 0x20 ∨ s.sbAddr fn + 0x2C ≤ a
     (∀ c rest, f.cpls = c :: rest → s.cplFull fn = false →
       let a := s.fld F.hstCplring_base fn * 4096 + 32 * f.cplIdx
       s.fwPass fn true a 32 = true → apart a →
       Yields (.completionWrite fn) s fun u =>
         rdBytes u.hostMem a 32 = cplBytes c f.cplPhase ∧ (rest <+: (u.func fn).cpls) ∧
         ((u.func fn).cplIdx, (u.func fn).cplPhase) = ringNext (ringLen (s.fld F.hstCplring_size fn)) f.cplIdx f.cplPhase ∧
         (c.irq = true → (u.func fn).irqPend.getLsbD 0 = true)) ∧
     (∀ e rest, s.fld F.hstEvring_enable fn = 1 → f.held = [] → f.lostNote = 0 → firstEv f.evs = some (e, rest) →
       let a := s.fld F.hstEvring_base fn * 4096 + 32 * f.evIdx
       (s.evFull fn = false → s.fwPass fn true a 32 = true → apart a →
         Yields (.eventWrite fn) s fun u =>
           rdBytes u.hostMem a 32 = evBytes e f.evPhase ∧ (u.func fn).evs = rest ∧
           ((u.func fn).evIdx, (u.func fn).evPhase) = ringNext (ringLen (s.fld F.hstEvring_size fn)) f.evIdx f.evPhase) ∧
       (s.evFull fn = true →
         Yields (.eventWrite fn) s fun u =>
           u.hostMem = s.hostMem ∧ (u.func fn).evs = rest ∧ (u.func fn).lostNote = 1 ∧
           u.fld F.hstEvstat_lost fn = min (s.fld F.hstEvstat_lost fn + 1) (2 ^ 32 - 1))) ∧
     (∀ vec : Fin 8, f.irqPend.getLsbD vec = true → s.ready = true → s.fnOn fn = true → (fn = 0 ∨ vec.val < 2) →
       (∀ t, mfind f.irqLast vec = some t → t + 100 * s.fld F.hstIrqmod_gap fn ≤ s.ctlTime) →
       Yields (.interruptRaise fn vec) s fun u =>
         u.irqs = s.irqs ++ [(fn, vec.val, s.ctlTime)] ∧ u.regs = s.regs ∧ u.hostMem = s.hostMem ∧
         ∀ k < 8, (u.func fn).irqPend.getLsbD k = (f.irqPend.getLsbD k && decide (k ≠ vec.val)))) ∧
  (∀ (s : State) (fn : Nat), fn < 16 → s.fnOn fn = true →
     (∀ addr, s.ringStopped fn = false →
       Yields (.ringAccessFail fn addr) s fun u =>
         u.fld F.hstRingstat_state fn = 2 ∧ u.fld F.hstRingstat_failaddr fn = addr.toNat / 256 ∧ (u.func fn).cpls = [] ∧
         (u.func fn).evs = [] ∧ (u.func 0).irqPend.getLsbD 2 = true ∧
         u.fld F.hstEvstat_lost fn = min (s.fld F.hstEvstat_lost fn + (s.func fn).evs.length) (2 ^ 32 - 1)) ∧
     (s.ringStopped fn = true → s.ready = true →
       exec (.ringRestart fn) s = .next ((s.setFld F.hstRingstat_state fn (s.fld F.hstCmdring_enable fn)).answerAll fn)) ∧
     (∀ (ring : Fin 3) (v : BitVec 64), s.ready = true → v.getLsbD 0 = true → bits (s.reg (ringKind ring) fn) 0 0 = 0 →
       Yields (.ringEnable fn ring v) s fun u =>
         bits (u.reg (ringKind ring) fn) 63 12 = bits v.toNat 63 12 ∧ bits (u.reg (ringKind ring) fn) 4 0 = bits v.toNat 4 0 ∧
         (ring = 0 → (u.func fn).cmdIdx = 0 ∧ (u.func fn).cmdPhase = true ∧
           (s.ringStopped fn = false → u.fld F.hstRingstat_state fn = 1)) ∧
         (ring = 1 → (u.func fn).cplIdx = 0 ∧ (u.func fn).cplPhase = true) ∧
         (ring = 2 → (u.func fn).evIdx = 0 ∧ (u.func fn).evPhase = true)) ∧
     (1 ≤ fn → StoreInv s →
       Yields (.vfFlr fn) s fun u =>
         let n := (([0, 1] : List Nat).map fun e => ((s.eng e).admitted.filter fun q => q.2.fn == fn).length).sum
         u.func fn = { lostNote := n } ∧ u.fld F.hstEvstat_lost fn = min n (2 ^ 32 - 1) ∧
         u.reg .hstCmdring fn = 0 ∧ u.reg .hstCplring fn = 0 ∧ u.reg .hstEvring fn = 0 ∧ u.reg .hstRingstat fn = 0 ∧
         u.func 0 = s.func 0 ∧ u.hostMem = s.hostMem))

/-- A register's kind has no rule of its own for a write: the common rule holds (R16). -/
def commonKind (k : RegKind) : Bool :=
  !ownRow k && !ringWindow k && !([.lnkCtl, .dmaCtl, .anxCtl, .tilPadctl, .pwrCtl, .lnkBudget, .memCal, .galQstat, .dmaSrc, .dmaDst, .dmaLen, .dmaNext] : List RegKind).contains k

/-- Register writes: the common rule of the access codes, and the windows and registers with a rule of their own (R13, R16, R106, R111, R132,
R173, R209, R211, R350). -/
def Obligations.RegisterAndWindowWrites : Prop :=
  (∀ (s : State) (w : Writer) (r : Reg) (off : Nat) (v : BitVec 64), s.mayWrite w = true → commonKind r.kind = true →
     r.idx < r.kind.count → dmaRegHere r = true → s.loading = none → (∀ d, accessDie r off = some d → s.dieAbsent d = false) →
     Yields (.registerWrite w r off v) s fun u =>
       (∀ f ∈ r.kind.fields, u.fld f r.idx =
         match f.acc with
         | .rw | .rws => bits v.toNat f.hi f.lo
         | .w1c => if bits v.toNat f.hi f.lo = 1 then 0 else s.fld f r.idx
         | .ro | .wo => s.fld f r.idx) ∧
       (∀ k i, regKey k i ≠ regKey r.kind r.idx → u.reg k i = s.reg k i) ∧ u.tiles = s.tiles ∧ u.ext = s.ext ∧
       u.written = s.written ++
         [{ reg := r, val := v.toNat, south := bothDies r.kind && decide (0xA000000 ≤ off), old := s.reg r.kind r.idx }]) ∧
  (∀ (s : State) (w : Writer) (off : Nat),
     (∀ fn k lim v, fn < 16 →
       (w = .host 0 → s.ready = true ∧ s.fuses.hostset = true) → (∀ n, w = .host n → n = 0) →
       exec (.firewallWindowWrite w fn k lim off v) s =
         .next (s.rwWrite (if lim then .hstFwlim else .hstFwbase) (8 * fn + k.val) v.toNat)) ∧
     (∀ fn k lim v n, w = .host (n + 1) → exec (.firewallWindowWrite w fn k lim off v) s = .next s) ∧
     (∀ d v, windowDie off = some d → s.dieAbsent d = true → s.mayWrite w = true →
       exec (.absentAccess w off v) s = .next (s.event 0x0010 8 0 [(8, off)])) ∧
     (∀ k i d, regDie ⟨k, i⟩ = some d → s.dieAbsent d = true → s.readReg k i = 0) ∧
     (∀ t, s.inMesh t = true → s.dieAbsent (dieOf (xyOf (tIx t))) = false → s.mayWrite w = true → s.loading = none → s.tileRuns (tIx t) = false →
       let y := tIx t
       let T := s.tile y
       (∀ (n : Fin 64) (ctl : Bool) (v : BitVec 64), ¬(bits (s.hndLatest y n).2 15 15 = 1 ∧ bits (s.hndLatest y n).2 2 0 = 7) →
         let r := (entryWrite (s.hndLatest y n).1 (s.hndLatest y n).2 ctl v.toNat).1
         Yields (.handleEntryWrite w t n ctl off v) s fun u =>
           u.hndRegs y n = (r.1 % 2 ^ 64, r.2 % 2 ^ 64) ∧ u.fld F.hstHistate_modified 0 = 1 ∧
           (ctl = false → bits (u.hndRegs y n).2 15 15 = 0) ∧ (u.tile y).scratch = T.scratch ∧
           ∀ m : Fin 64, m ≠ n → u.hndRegs y m = s.hndRegs y m) ∧
       (∀ v : BitVec 32, bits v.toNat 31 30 = 1 ∨ bits v.toNat 31 30 = 2 → bits v.toNat 11 0 ≤ bits v.toNat 27 16 →
         Yields (.slotCommand w t off v) s fun u =>
           (∀ k < 4096, (u.tile y).full.getLsbD k = if bits v.toNat 11 0 ≤ k ∧ k ≤ bits v.toNat 27 16
             then decide (bits v.toNat 31 30 = 2) else T.full.getLsbD k) ∧ (u.tile y).scratch = T.scratch ∧ u.regs = s.regs) ∧
       (∀ v : BitVec 32, (s.img.isSome = true → s.expert = true) →
         Yields (.mxctlWrite w t off v) s (fun u =>
           u.fld F.tilMxctl_rset y = bits v.toNat 14 14 ∧ u.fld F.tilMxctl_rrow y = bits v.toNat 13 8 ∧
           u.fld F.tilMxctl_local y = bits v.toNat 0 0 ∧ u.tiles = s.tiles) ∧
         Yields (.vctlWrite w t off v) s fun u =>
           u.fld F.tilVctl_keep y = bits v.toNat 0 0 ∧ u.fld F.hstHistate_modified 0 = 1 ∧ u.tiles = s.tiles) ∧
       (∀ v : BitVec 64, sopDefined (bits v.toNat 45 40) = true →
         let k := 8 * s.fld F.tilVcsel_chain y + s.fld F.tilVcsel_stage y
         exec (.vcwordWrite w t off v) s = .next (s.setTile y { T with chains := mput T.chains k (BitVec.ofNat 46 v.toNat) }))))

/-! ## Chapter 10: the link -/

/-- A port's flits: one link cycle sends the first that is ready with its CRC, a new data flit takes the next SEQ and a copy of it is kept,
a replay asked for starts with its first copy; a flit's fields are laid out and read back; a data flit with the expected SEQ enters the
pool, one out of order or damaged makes the receiver NAK-pending; ack points, the replay timer, and the delivery of scheduled flits, the
earliest due first (R362, R363, R364, R366, R367, R368, R369, R370, R373, R375, R376, R377, R378, R379). -/
def Obligations.LinkDelivery : Prop :=
  (∀ f : Flit, f.kind < 8 → f.seq < 4096 → f.ackseq < 4096 → f.cclass < 4 → f.ccount < 4096 → f.payload.length = 240 →
    (flitBytes f).length = 248 ∧ flitOf (flitBytes f) = f) ∧
  ∀ (s : State) (p : Fin 32), s.portState p = 3 →
    let L := s.link p
    (L.replayAsk = false → Yields (.linkCycle p) s fun u =>
      (u.link p).cyc = L.cyc + 1 ∧ (u.link p).ccNext = (L.ccNext + 1) % 3 ∧ (u.link p).pool = L.pool ∧ (u.link p).e = L.e ∧
      (∀ o, (u.link p).out = some o → (u.link p).crc = crc64 (flitBytes o)) ∧
      (∀ c cs, L.txC = c :: cs → (u.link p).out = some { L.stamp c with seq := 0 } ∧ (u.link p).txC = cs ∧ (u.link p).seq = L.seq) ∧
      (∀ r rs, L.txC = [] → L.replayQ = r :: rs →
        (u.link p).out = some (L.stamp r) ∧ (u.link p).replayQ = rs ∧ (u.link p).seq = L.seq) ∧
      (∀ m ms, L.txC = [] → L.replayQ = [] → L.outS = [] → L.txM = m :: ms → L.replayBuf.length < 1024 → m.kind = 3 →
        s.hasCredit p 2 = true →
        (u.link p).out = some { L.stamp m with seq := L.seq } ∧ (u.link p).seq = (L.seq + 1) % 4096 ∧ (u.link p).txM = ms ∧
        (u.link p).replayBuf = L.replayBuf ++ [{ L.stamp m with seq := L.seq }])) ∧
    (∀ g gs, L.replayAsk = true → L.replayBuf = g :: gs → L.txC = [] → L.replayRep < 3 → s.someRuns = false →
      Yields (.linkCycle p) s fun u =>
        (u.link p).out = some (L.stamp g) ∧ (u.link p).replayQ = gs ∧ (u.link p).replayBuf = L.replayBuf ∧
        (u.link p).timer = L.cyc ∧ (u.link p).replayAsk = false ∧ (u.link p).seq = L.seq ∧
        u.fld F.lnkErr_replays p = min (s.fld F.lnkErr_replays p + 1) (2 ^ F.lnkErr_replays.width - 1)) ∧
    (∀ b crc, crc ≠ crc64 b →
      exec (.flitReceive p b crc) s = .next ((s.modLink p Link.enterNak).satAdd F.lnkErr_crcerr p 1)) ∧
    (∀ b,
      let f := flitOf b
      f.kind = 2 ∨ f.kind = 3 → f.cclass ≤ 2 → f.nak = false →
      (f.seq = L.e → L.e < 4096 → L.bufferFree (f.kind - 1) = true →
        Yields (.flitReceive p b (crc64 b)) s fun u =>
          (u.link p).pool = L.pool ++ [(f, 0, 0)] ∧ (u.link p).e = (L.e + 1) % 4096 ∧ (u.link p).nakPend = false) ∧
      (0 < (f.seq + 4096 - L.e) % 4096 → (f.seq + 4096 - L.e) % 4096 < 2048 →
        Yields (.flitReceive p b (crc64 b)) s fun u =>
          (u.link p).pool = L.pool ∧ (u.link p).e = L.e ∧ (u.link p).nakPend = true)) ∧
    (∀ b t0,
      let f := flitOf b
      f.kind = 1 → f.cclass ≤ 2 → f.nak = false → f.seq = L.e → L.e < 4096 → L.bufferFree 0 = true → s.gen1 p = false →
      s.launchOrigin (bits f.spec.toNat 19 17) = some t0 →
      Yields (.flitReceive p b (crc64 b)) s fun u =>
        (u.link p).e = (L.e + 1) % 4096 ∧
        (u.link p).pool = L.pool ++
          [(f, (dueCycle t0 s.sched (bits f.spec.toNat 16 0)).toNat, if f.sop then f.seq else L.rxSop)]) ∧
    (0 < L.unadv → 32 ≤ L.unadv ∨ L.unadvAt + 64 ≤ L.cyc →
      exec (.ackPoint p) s = .next (s.modLink p fun L => { L with adv := (L.e + 4095) % 4096, unadv := 0 })) ∧
    (L.replayBuf ≠ [] → L.timer + max 0x100 (s.fld F.lnkCtl_rto p) ≤ L.cyc →
      exec (.replayTimerExpiry p) s = .next (s.modLink p fun L => { L with replayAsk := true })) ∧
    (∀ f due sop, firstDue L.pool = some (f, due, sop) → due ≤ s.sched → (s.sched = due → s.gen1 p = true ∨ s.held = false) →
      Yields (.scheduledFlitDelivery p) s fun u =>
        (u.link p).pool = L.pool.eraseP (fun q => q.1.kind == 1 && q.1.seq == f.seq) ∧
        mget (u.link p).freed 0 0 = mget L.freed 0 0 + 1)

/-- Training: an attempt, the phases in their order, a timeout, the loss of the signal, the end of what a port keeps, and the retrains
that a lane's errors and the registers ask for (R382, R383, R384, R385, R386, R389, R397). -/
def Obligations.LinkTraining : Prop :=
  ∀ (s : State) (p : Fin 32),
    let L := s.link p
    (s.portState p = 1 → s.portRole p ≠ 0 → s.mayTrain p = true →
      (if L.tried then L.trainAt + 1000000 else L.downAt + 10000) ≤ s.wall →
      Yields (.fullTrainingAttempt p) s fun u => u.portState p = 2 ∧ (u.link p).phase = 1 ∧ (u.link p).full = true ∧ (u.link p).tried = true) ∧
    (s.portState p = 2 ∨ s.portState p = 4 → L.reqSent = false → ∀ i : TrainInfo,
      (L.phase = 1 ∨ L.phase = 2 → exec (.trainingPhaseEnd p i) s = .next (s.modLink p fun L => { L with phase := L.phase + 1 })) ∧
      (L.phase = 3 → Yields (.trainingPhaseEnd p i) s fun u =>
        (u.link p).phase = 4 ∧ u.fld F.lnkStat_width p = s.agreedWidth p i.width) ∧
      (L.phase = 4 → i.peerMod ≠ s.ownId → Yields (.trainingPhaseEnd p i) s fun u =>
        (u.link p).phase = 5 ∧ (u.link p).peer = some (256 * i.peerMod + i.peerPort) ∧
        u.fld F.lnkStat_peermod p = i.peerMod % 2 ^ 20 ∧ u.fld F.lnkStat_peerport p = i.peerPort % 32) ∧
      (L.phase = 4 → i.peerMod = s.ownId → Yields (.trainingPhaseEnd p i) s fun u =>
        (u.link p).blocked = true ∧ u.portState p = 1) ∧
      (L.phase = 5 → Yields (.trainingPhaseEnd p i) s fun u =>
        u.portState p = 3 ∧ u.fld F.lnkStat_rtt p = i.rtt % 4096 ∧ (u.link p).cyc = 0 ∧ (u.link p).replayAsk = L.resume)) ∧
    ((s.portState p = 4 ∧ L.trainAt + 4000 ≤ s.wall) ∨ (s.portState p = 2 ∧ L.trainAt + 200000 ≤ s.wall) →
      Yields (.trainingTimeout p) s fun u => u.portState p = 1) ∧
    (s.portState p = 3 ∨ s.portState p = 4 →
      Yields (.lossOfSignal p) s fun u => u.portState p = 1 ∧ (u.link p).kept = L.peer.isSome ∧ (u.link p).replayBuf = L.replayBuf) ∧
    (L.kept = true → s.portState p ≠ 3 → L.downAt + 1000000 ≤ s.wall →
      Yields (.keptStateExpiry p) s fun u => (u.link p).kept = false ∧ (u.link p).replayBuf = [] ∧ (u.link p).pool = []) ∧
    (∀ bad, 16 < bad → s.portState p = 3 →
      Yields (.fecRateWindow p bad) s fun u =>
        u.portState p = 4 ∧ (u.link p).reqSent = true ∧ (u.link p).reqWidth = min 2 (s.fld F.lnkStat_width p + 1)) ∧
    (∀ w off (v : BitVec 32), s.mayWrite w = true → s.loading = none →
      (bits v.toNat 26 25 = s.portRole p → bits v.toNat 28 27 = s.fld F.lnkCtl_wreq p → v.getLsbD 31 = true → s.portState p = 3 →
        Yields (.lnkRetrain w p off v) s fun u =>
          u.portState p = 4 ∧ (u.link p).reqSent = true ∧ u.fld F.lnkCtl_rto p = bits v.toNat 15 0) ∧
      (s.someRuns = false → bits v.toNat 26 25 ≠ 3 →
        let written (u : State) : Prop :=
          u.portRole p = bits v.toNat 26 25 ∧ u.fld F.lnkCtl_wreq p = bits v.toNat 28 27 ∧ u.fld F.hstHistate_modified 0 = 1 ∧
          (∀ i < 4, u.reg .hstHidigest i = 0) ∧ (s.portRole p ≠ 0 → bits v.toNat 26 25 = 0 → u.portState p = 0)
        Yields (.lnkRoleWrite w p off v) s written ∧ Yields (.lnkWreqWrite w p off v) s written))

/-! ## Chapter 11: the fabric -/

/-- A write of FAB_ID.ID is accepted only while every port is OFF or DOWN; at any other time it is discarded and records event 0x0290
(R396). -/
def Obligations.FabIdWrites : Prop :=
  ∀ (s : State) (w : Writer) (off : Nat) (v : BitVec 32), s.mayWrite w = true →
    ((∀ p < 32, s.portState p = 0 ∨ s.portState p = 1) →
      Yields (.fabIdWrite w off v) s fun u =>
        u.fld F.fabId_id 0 = bits v.toNat 19 0 ∧ u.fld F.fabId_valid 0 = 1 ∧ u.tiles = s.tiles ∧ u.ext = s.ext ∧ u.fns = s.fns) ∧
    ((∃ p < 32, s.portState p ≠ 0 ∧ s.portState p ≠ 1) →
      exec (.fabIdWrite w off v) s = .next (s.event 0x0290 8 0 []) ∧
      Yields (.fabIdWrite w off v) s fun u =>
        u.fld F.fabId_id 0 = s.fld F.fabId_id 0 ∧ u.fld F.fabId_valid 0 = s.fld F.fabId_valid 0)


/-- The fabric's registers and tables, and the alignment of the plan counters (R394 to R396, R412 to R422, R441). -/
def Obligations.FabricTablesAndTime : Prop :=
  (∀ (s : State) (w : Writer) (die : Fin 2) (off : Nat), s.mayWrite w = true →
     (∀ (bank : Fin 2) (id : BitVec 20) (m : BitVec 32), s.epochState die ≠ 2 → s.epoch die % 2 ≠ bank.val →
       keysRise ((s.fdie die).bank bank) = true →
       Yields (.tableWrite w die bank id off m) s fun u =>
         (∀ k, mget ((u.fdie die).bank bank) k 0 = if k = id.toNat then m else mget ((s.fdie die).bank bank) k 0) ∧
         (u.fdie die).bank (1 - bank.val) = (s.fdie die).bank (1 - bank.val) ∧
         u.fld F.hstHistate_modified 0 = 1 ∧ ∀ i < 4, u.reg .hstHidigest i = 0) ∧
     (s.epochState die = 0 →
       Yields (.drain w die off) s fun u => u.epochState die = 1 ∧ u.epoch die = s.epoch die) ∧
     (s.epochState die = 1 → s.quiet die = true →
       Yields (.switch w die off) s fun u =>
         u.epochState die = 2 ∧ u.epoch die = (s.epoch die + 1) % 65536 ∧ ∀ i < 4, u.reg .hstHidigest i = 0) ∧
     (s.epochState die = 2 → s.quiet die = true →
       Yields (.epochRelease w die off) s fun u => u.epochState die = 0 ∧ u.epoch die = s.epoch die) ∧
     (s.epochState die ≠ 0 → exec (.drain w die off) s = .next (s.event 0x0295 8 0 [])) ∧
     (s.epochState die ≠ 1 ∨ s.quiet die = false → exec (.switch w die off) s = .next (s.event 0x0295 8 0 [])) ∧
     (s.epochState die ≠ 2 ∨ s.quiet die = false → exec (.epochRelease w die off) s = .next (s.event 0x0295 8 0 []))) ∧
  (∀ (s : State) (p : Fin 32),
     (s.fld F.fabSyncctl_root 0 = 0 → s.clk.refLost = false → s.fab.syncAt + 10000 ≤ s.wall →
       Yields .syncreqSend s fun u =>
         u.fab.syncT1 = some (16 * s.cnt) ∧ u.fab.syncAt = s.wall ∧ u.cnt = s.cnt ∧ (s.fab.syncT1.isSome = true → u.fab.phis = []) ∧
         (s.portState s.syncPort = 3 →
           (u.link s.syncPort).txC = (s.link s.syncPort).txC ++ [ctlFlit 4 (leBytes 8 1 ++ leBytes 8 (16 * s.cnt))])) ∧
     (∀ t1, t1 < 2 ^ 64 → s.portState p = 3 → s.hasFabric p (syncreqBytes t1) = true →
       Yields (.syncreqReceive p t1) s fun u =>
         u.regs = s.regs ∧ ∃ b, (u.link p).txC = (s.link p).txC ++ [ctlFlit 4 b] ∧ b.drop 8 = leBytes 8 (16 * s.cnt) ++ leBytes 8 (16 * s.cnt)) ∧
     (∀ (r : SyncRsp) (at_ : Fin 16) (t1 : Nat), s.hasFabric p (syncrspBytes r) = true → s.fab.syncT1 = some t1 → s.fld F.fabSyncctl_root 0 = 0 → p.val = s.syncPort →
       r.synced = true → r.step = s.step_ → r.depth ≤ 7 → s.gen1 p = false → s.fld F.clkState_stretch 0 = 0 →
       s.fld F.clkState_catchup 0 = 0 → s.fab.syncBad = false →
       let t4 := 16 * s.cnt + at_.val
       let phi : Int := (((r.t2 : Int) - t1) + ((r.t3 : Int) - t4)) / 2 + r.eps
       (s.fld F.ptcState_unsync 0 = 0 → -32 ≤ phi → phi ≤ 32 →
         Yields (.syncrspReceive p r at_) s fun u =>
           u.fab.eps = phi ∧ u.cnt = s.cnt ∧ u.fab.syncT1 = none ∧ u.fld F.fabSyncctl_depth 0 = r.depth + 1) ∧
       (∀ a b c, s.fld F.ptcState_unsync 0 = 1 → s.fab.phis = [a, b, c] → spread [phi, a, b, c] ≤ 16 → s.anyRunning = false →
         Yields (.syncrspReceive p r at_) s fun u =>
           u.cnt = ((s.cnt : Int) + (phi + 8) / 16).toNat % 2 ^ 64 ∧ u.fab.eps = phi - 16 * ((phi + 8) / 16) ∧
           u.fld F.ptcState_unsync 0 = 0 ∧ u.fab.phis = [])) ∧
     (∀ w off (v : BitVec 32), s.mayWrite w = true →
       Yields (.fabSyncctlWrite w off v) s fun u =>
         u.fld F.fabSyncctl_root 0 = bits v.toNat 31 31 ∧ u.fld F.fabSyncctl_port 0 = bits v.toNat 28 24 ∧
         u.fld F.ptcState_unsync 0 = (if v.getLsbD 31 = true ∧ s.clk.refLost = false then 0 else 1) ∧ u.fab.syncT1 = none))

/-- Scheduled packets at their source and destination, and packets on their way: units of a stream go to the port of hop 0, a due unit
leaves for its edge tile, a packet is routed with its die's epoch or discarded without a route, fragments join their message (R399,
R400, R402, R407, R408, R409, R410, R411). -/
def Obligations.FabricPackets : Prop :=
  ∀ (s : State) (die : Fin 2),
    let d := s.fdie die
    (∀ (st : Fin 64) t b, mget d.streams st [] = [(t, b)] → keysRise d.streams = true →
      (∀ port k, mfind d.opened st = some (port, k) → port < 32 →
        Yields (.scheduledPacketSend die st) s fun u =>
          mget (u.fdie die).streams st [] = [] ∧ (u.link port).outS = (s.link port).outS.map fun o =>
            if o.src = st.val ∧ o.left ≠ 0 then { o with bytes := o.bytes ++ b, left := o.left - b.length } else o) ∧
      (mfind d.opened st = none → d.firstInOrder st = true → routeUnitOk b = true → b.getD 2 0 = 0 →
        let h := hopWord b 0
        s.departOk die (bits h 31 27) = true →
        Yields (.scheduledPacketSend die st) s fun u =>
          mget (u.fdie die).streams st [] = [] ∧
          mfind (u.fdie die).opened st = some (bits h 31 27, leNat ((b.drop 4).take 2)) ∧
          (u.link (bits h 31 27)).outS = (s.link (bits h 31 27)).outS ++
            [⟨st, bits h 26 24, bits h 16 0, 64 * leNat ((b.drop 4).take 2), b, false⟩])) ∧
    (∀ e, s.held = false → windowSlot s.sched = false → d.edge = [e] → e.dcol < s.cols → e.due ≤ s.sched →
      64 * (e.next + 1) ≤ e.bytes.length → mget d.edgeAt e.dcol 0 ≠ s.sched + 1 →
      Yields (.edgeUnitDelivery die) s fun u =>
        (u.fdie die).edge = (if e.next + 1 < e.units then [{ e with next := e.next + 1 }] else []) ∧
        ∃ p, u.mpkts = s.mpkts ++ [p] ∧ p.kind = .edge ∧ p.dst = tIx ⟨e.dcol, if die = 0 then 0 else 47⟩ ∧ p.handle = e.handle ∧
          p.off = e.offset + 64 * e.next ∧ p.data = (e.bytes.drop (64 * e.next)).take 64 ∧ p.land = s.sched + 9) ∧
    (∀ p rest, d.router = [] → d.origin = p :: rest → s.epochState die ≠ 1 → fabricType p.type = true → p.dest = s.ownId →
      Yields (.packetRoute die .origin) s fun u =>
        (u.fdie die).origin = rest ∧ (u.fdie die).arrived = d.arrived ++ [{ p with epoch := s.epoch die }] ∧ u.links = s.links) ∧
    (∀ p rest, d.router = [] → d.origin = p :: rest → s.epochState die ≠ 1 → fabricType p.type = true → p.dest ≠ s.ownId →
      (∀ q, s.portFor die { p with epoch := s.epoch die } = some q → s.tableMask die (s.epoch die) p.dest ≠ 0 →
        Yields (.packetRoute die .origin) s fun u =>
          (u.fdie die).origin = rest ∧
          u.link q = (if pktBulk p then { s.link q with txB := (s.link q).txB ++ pktFlits { p with epoch := s.epoch die } }
            else { s.link q with txM := (s.link q).txM ++ pktFlits { p with epoch := s.epoch die } })) ∧
      (s.tableMask die (s.epoch die) p.dest = 0 →
        Yields (.packetRoute die .origin) s fun u =>
          u.links = s.links ∧ u.fld F.fabDisc_noroute die = min (s.fld F.fabDisc_noroute die + 1) 65535)) ∧
    (∀ p t, d.router = [(p, t)] → s.portFor die p = none →
      t + 100 * s.fld F.fabCtl_noroute 0 ≤ s.wall →
      Yields (.norouteTimeout die) s fun u =>
        (u.fdie die).router = [] ∧ u.fld F.fabDisc_noroute die = min (s.fld F.fabDisc_noroute die + 1) 65535) ∧
    (∀ type ref (cause : Fin 4), type ≠ 1 →
      let mine (m : Reasm) : Bool := m.says ref (noticeBytes type ref cause)
      s.hasMsg 0x10 mine = true →
      exec (.undeliverableNotice type ref cause) s =
        .next (((s.dropMsg 0x10 mine).satAdd F.fabDisc_notices 0 1).event 0x0294 8 0 [(8, ref.toNat)])) ∧
    (∀ p : Packet, s.hasArrived (· == p) = true → pktBulk p = false → p.frag < p.frags →
      (p.frags = 1 → Yields (.fragmentReceive p) s fun u =>
        u.fab.inbox = s.fab.inbox ++ [⟨p.type, p.origin, p.ref, 1, [(0, p.body)], s.wall⟩]) ∧
      (p.frags ≠ 1 → s.fab.reasm.find? (·.ofPkt p) = none →
        Yields (.fragmentReceive p) s fun u =>
          u.fab.inbox = s.fab.inbox ∧ u.fab.reasm = s.fab.reasm ++ (if s.fab.reasm.length < 8
            then [⟨p.type, p.origin, p.ref, p.frags, [(p.frag, p.body)], s.wall⟩] else [])) ∧
      (∀ r, p.frags ≠ 1 → s.fab.reasm.find? (·.ofPkt p) = some r → r.got.length + 1 = r.frags →
        (∀ g ∈ r.got, g.1 ≠ p.frag) → (mput r.got p.frag p.body).length = r.got.length + 1 →
        Yields (.fragmentReceive p) s fun u =>
          u.fab.inbox = s.fab.inbox ++ [{ r with got := mput r.got p.frag p.body }] ∧
          u.fab.reasm = s.fab.reasm.filter fun q => !q.ofPkt p)) ∧
    (∀ type origin ref r, s.fab.reasm.find? (fun r => r.type == type && r.origin == origin && r.ref == ref) = some r →
      r.since + 100000 ≤ s.wall →
      Yields (.reassemblyTimeout type origin ref) s fun u =>
        u.fab.reasm = s.fab.reasm.filter (fun r => !(r.type == type && r.origin == origin && r.ref == ref)) ∧
        u.fab.inbox = s.fab.inbox)


/-- LAUNCH and STOP on this module, and the messages of a launch tree on one of its nodes (R342 to R344, R423 to R430). -/
def Obligations.LaunchesAndTrees : Prop :=
  (∀ (s : State) (c : Cmd),
     (∀ (r m : BitVec 8) (p : BitVec 32) (n : BitVec 64) tree lost, s.begins (.launch c r m p n tree lost) c 0x0004 false →
       s.launchWaits r.toNat m.toNat = false →
       let st := s.launchStatus r.toNat m.toNat p.toNat n.toNat tree.toNat
       (st = 0 → s.twinLaunch r.toNat = false ∨ s.mir.launched.contains r.toNat = true →
         (tree = 0 → Answers (.launch c r m p n tree lost) c s fun u =>
           let R := u.region r.toNat
           R.running = true ∧ R.launchPlan = p.toNat ∧ R.cmd = some c ∧ R.begun = false ∧
           (∀ x, s.regionRec r.toNat = some x → x.role ≠ 2 → ∃ q, R.pend = some q ∧ q.mode = startMode m.toNat ∧ q.count = n.toNat) ∧
           (∀ x, s.regionRec r.toNat = some x → x.role = 2 → R.armed = true ∧ R.pend = none)) ∧
         (∀ t, tree ≠ 0 → s.treeAt tree.toNat (m.toNat == 2) = some t → Answers (.launch c r m p n tree lost) c s fun u =>
           u.reg .fabLaunch 0 = t.launchId.toNat ∧ (u.region r.toNat).running = true ∧ (u.region r.toNat).launchPlan = p.toNat ∧
           ∃ L, u.launchBy t.launchId = some L ∧ L.tree = t ∧ L.node = 0 ∧ L.arm = (m.toNat == 2))) ∧
       (st = 0 → s.twinLaunch r.toNat = true → s.mir.launched.contains r.toNat = false →
         exec (.launch c r m p n tree lost) s = .next (((s.tellLaunch r.toNat).cmdWaits 0).answerAll 1)) ∧
       (st ≠ 0 → Answers (.launch c r m p n tree lost) c s fun u =>
         Completed s u c 0x0004 st ∧ u.regions = s.regions ∧ u.tiles = s.tiles ∧ u.mir = s.mir ∧ u.links = s.links)) ∧
     (∀ r : BitVec 8, s.begins (.stop c r) c 0x0005 false →
       let R := s.region r.toNat
       (∀ x, R.series = some x → R.running = true → (R.armed = true → R.inInv = true) → (x.endedAt.isSome = true → s.packsHere r.toNat = true) →
         Answers (.stop c r) c s fun u =>
           u.region r.toNat = { R with stops := R.stops ++ [c], series := some { x with stopReq := true } } ∧ u.tiles = s.tiles) ∧
       (R.series = none ∨ R.running = false →
         Answers (.stop c r) c s fun u => Completed s u c 0x0005 0x0049 ∧ u.regions = s.regions))) ∧
  (∀ (s : State),
     (∀ (t : Tree) (i : Nat) (c : Instr) type (mine : Reasm → Bool), s.nodeIn t = some i → i ≠ 0 →
       (∃ n : BitVec 64, c = .launchMessageReceive t n ∧ type = 0x20 ∧ mine = fun m => m.says t.launchId (treeBytes t ++ argBytes [n.toNat])) ∨
         (∃ n : BitVec 64, c = .armReceive t n ∧ type = 0x24 ∧ mine = fun m => m.says t.launchId (treeBytes t ++ argBytes [n.toNat])) →
       s.hasMsg type mine = true →
       (s.launchBy t.launchId = none →
         Yields c s fun u =>
           (∃ L, u.launchBy t.launchId = some L ∧ L.node = i ∧ L.tree = t ∧ (L.arm = true ↔ ∃ n, c = .armReceive t n)) ∧
           ((nodeOf t i).parent < t.nodes.length →
             (⟨(nodeOf t (nodeOf t i).parent).module, 0x21, t.launchId, [i]⟩ : Msg) ∈ u.fab.sent) ∧ u.reg .fabLaunch 0 = t.launchId.toNat) ∧
       (∀ L, s.launchBy t.launchId = some L → exec c s = .next ((s.dropMsg type mine).lack L))) ∧
     (∀ id L node, s.launchBy id = some L → L.node = 0 → L.arm = true → L.released = false → L.lfailed = false →
       node < L.tree.nodes.length → L.readys.contains node = false → s.hasMsg 0x25 (·.says id (argBytes [node])) = true →
       Yields (.readyReceive node id) s fun u =>
         ∃ M, u.launchBy id = some M ∧ M.readys = L.readys ++ [node] ∧
           M.released = decide (L.readys.length + 1 = L.tree.nodes.length)) ∧
     (∀ (p : Fin 32) remain own L q, s.portState p = 3 → s.hasFabric p (releaseBytes remain) = true → s.fab.launches = [L] → L.arm = true → L.node ≠ 0 → L.lfailed = false →
       L.passedBy = false → L.queued = false → s.running L.region = true → L.released = false → (s.region L.region).pend = some q →
       Yields (.releaseFlitReceive p remain own) s fun u =>
         (u.region L.region).pend = some { q with release := some (s.cnt + remain) } ∧ u.fab.launches = [{ L with released := true }]))

/-- What a job's nodes tell one another and when they give up: repeats to alternate children, acknowledgements, a failure forwarded
or ending the job at node 0, ABORT, the barrier's timeouts, arrivals and the release of a step (R426, R427, R428, R431, R432, R433,
R435). -/
def Obligations.JobMessages : Prop :=
  ∀ (s : State) (L : LaunchSt), s.fab.launches = [L] →
    let id := L.tree.launchId
    let r := L.region
    (∀ child, L.altDue child s.wall (100 * s.fld F.fabCtl_altwait 0) = true →
      Yields (.altwaitExpiry child) s fun u =>
        u.fab.launches = [{ L with alts := L.alts ++ [child] }] ∧
        (⟨(nodeOf L.tree child).module, L.msg, id, L.args⟩ : Msg) ∈ u.fab.sent) ∧
    (∀ child, L.lacks.contains child = false → s.hasMsg 0x21 (·.says id (argBytes [child])) = true →
      Yields (.lackReceive child id) s fun u => u.fab.launches = [{ L with lacks := L.lacks ++ [child] }] ∧ u.regions = s.regions) ∧
    (∀ node st, L.node ≠ 0 → L.fails.contains node = false → s.hasMsg 0x22 (·.says id (argBytes [node, st.toNat])) = true →
      Yields (.lfailReceive node id st) s fun u =>
        u.fab.launches = [{ L with fails := L.fails ++ [node] }] ∧ u.regions = s.regions ∧
        ((nodeOf L.tree L.node).parent < L.tree.nodes.length →
          (⟨(nodeOf L.tree (nodeOf L.tree L.node).parent).module, 0x22, id, [node, st.toNat]⟩ : Msg) ∈ u.fab.sent)) ∧
    (∀ node st, L.node = 0 → L.lfailed = false → L.passedBy = false → L.queued = false →
      s.hasMsg 0x22 (·.says id (argBytes [node, st.toNat])) = true →
      Yields (.lfailReceive node id st) s fun u =>
        (u.region r).running = false ∧ (s.reg .fabLaunch 0 = id.toNat → u.fld F.fabLstat_state 0 = 4) ∧
        ∃ M, u.fab.launches = [M] ∧ M.lfailed = true ∧ M.msg = 0x23) ∧
    (L.node ≠ 0 → L.msg ≠ 0x23 → L.lfailed = false → L.passedBy = false → s.hasMsg 0x23 (·.says id []) = true →
      Yields (.abortReceive id) s fun u =>
        (L.queued = false → (u.region r).running = false) ∧ (L.queued = true → u.regions = s.regions) ∧
        (s.reg .fabLaunch 0 = id.toNat → u.fld F.fabLstat_state 0 = 4) ∧
        ∃ M, u.fab.launches = [M] ∧ M.msg = 0x23 ∧ M.queued = false) ∧
    (∀ t0, L.node ≠ 0 → L.arm = true → L.released = false → L.lfailed = false → L.passedBy = false → L.queued = false → L.readyAt = some t0 →
      t0 + 100 * s.fld F.fabBarctl_timeout 0 ≤ s.wall →
      Yields .barrierTimeout s fun u =>
        (u.region r).running = false ∧ (u.region r).pend = none ∧ (s.reg .fabLaunch 0 = id.toNat → u.fld F.fabLstat_state 0 = 3) ∧
        ∃ M, u.fab.launches = [M] ∧ M.lfailed = true) ∧
    (∀ node unsync, L.node = 0 → node ≠ 0 → s.running r = true → (∀ a ∈ L.arrivals, a.1 ≠ node) → node < L.tree.nodes.length →
      L.arrivals.length + 1 < L.tree.nodes.length →
      s.hasMsg 0x30 (fun m => m.origin == (nodeOf L.tree node).module && m.says id (argBytes [b2n unsync])) = true →
      Yields (.arriveReceive node id unsync) s fun u =>
        u.fab.launches = [{ L with arrivals := L.arrivals ++ [(node, s.cnt)], firstArr := some (L.firstArr.getD s.wall) }] ∧
        u.regions = s.regions) ∧
    (∀ last next x, L.node ≠ 0 → L.passedBy = false → L.lfailed = false → last < 1024 → (L.msg ≠ 0x31 ∨ L.args ≠ [last, next, 0]) →
      s.running r = true → (s.region r).armed = false →
      (s.region r).series = some x → s.cnt + s.toPark + 64 ≤ next →
      s.hasMsg 0x31 (·.says id (argBytes [last, next, b2n false])) = true →
      Yields (.stepReleaseReceive last next false) s fun u =>
        (u.region r).pend = some ⟨s.cnt, .count, next, none, none, []⟩ ∧
        (u.region r).series = some { x with between := false, late := false, nextAt := some next }) ∧
    (∀ t0, L.node = 0 → L.passedBy = false → L.firstArr = some t0 → t0 + 100 * s.fld F.fabBarctl_timeout 0 ≤ s.wall →
      Yields .stepBarrierTimeout s fun u =>
        (∃ M, u.fab.launches = [M] ∧ M.arrivals = [] ∧ M.firstArr = none) ∧ (u.region r).cmd = none ∧
        ((s.region r).inInv = false →
          (u.region r).running = false ∧ (u.region r).series = none ∧
          (s.reg .fabLaunch 0 = id.toNat → L.queued = false → L.lfailed = false → u.fld F.fabLstat_state 0 = 0)) ∧
        ((s.region r).inInv = true →
          (u.region r).running = (s.region r).running ∧ (u.region r).series = (s.region r).series.map fun x => { x with aborted := true }))

/-! ## Chapter 13: the serving engines -/

/-- SRV_CONFIG, OUTRING and TENANT_SET: a block that keeps R464 is installed on every engine of its region, one that does not is
refused with 0x0060; an output ring starts empty with phase 1, while the function has requests it stays; a tenant starts with its
limit as balance (R461, R464, R474, R490). -/
def Obligations.ServingConfiguration : Prop :=
  ∀ (s : State) (c : Cmd), c.fn < 16 →
    let p := s.popCmd c
    (∀ region addr, s.begins (.srvConfig c region addr) c 0x0100 false →
      let r := region.toNat
      let b := rdBytes s.hostMem addr.toNat 128
      p.enginesOf r ≠ [] → p.running r = false → (∀ e ∈ p.enginesOf r, (s.eng e).used = []) →
      p.fwPass c.fn false addr.toNat 128 = true →
      (p.cfgOk r b = true → s.mir.updAct = none → s.wts.fenceCmd = [] →
        Answers (.srvConfig c region addr) c s fun u =>
          Completed s u c 0x0100 0 ∧ ∀ e ∈ p.enginesOf r,
            (u.eng e).cfg = some (cfgOf b) ∧ (u.eng e).cat = [] ∧ (u.eng e).pageCnt = [] ∧ u.fld F.srvCtl_configured e = 1) ∧
      (p.cfgOk r b = false →
        Answers (.srvConfig c region addr) c s fun u =>
          Completed s u c 0x0100 0x0060 ∧ u.engs = s.engs ∧ u.regs = s.regs)) ∧
    (∀ base size, s.begins (.outring c base size) c 0x0103 true →
      ((∃ e < 2, ∃ q ∈ (s.eng e).used, q.2.fn = c.fn) →
        Answers (.outring c base size) c s fun u =>
          Completed s u c 0x0103 0x006D ∧ (u.func c.fn).outBase = (s.func c.fn).outBase ∧ u.engs = s.engs) ∧
      ((∀ e < 2, ∀ q ∈ (s.eng e).used, q.2.fn ≠ c.fn) → base.toNat % 4096 = 0 → size.toNat ≤ 10 →
        Answers (.outring c base size) c s fun u =>
          Completed s u c 0x0103 0 ∧ u.engs = s.engs ∧ (u.func c.fn).outBase = base ∧ (u.func c.fn).outSize = size.toNat ∧
          (u.func c.fn).outOn = true ∧ (u.func c.fn).outIdx = 0 ∧ (u.func c.fn).outPhase = true)) ∧
    (∀ engine tenant limit window funcs, s.begins (.tenantSet c engine tenant limit window funcs) c 0x0104 false → engine.toNat ≤ 1 → tenant.toNat ≤ 4095 → window ≠ 0 →
      Answers (.tenantSet c engine tenant limit window funcs) c s fun u =>
        Completed s u c 0x0104 0 ∧ (u.eng engine.toNat).reqs = (s.eng engine.toNat).reqs ∧
        let t := mget (u.eng engine.toNat).tens tenant.toNat {}
        t.balance = limit.toNat ∧ t.limit = limit.toNat ∧ t.window = window.toNat ∧ t.funcs = funcs)

/-- SUBMIT, CANCEL and PROMPT_FETCH_COMPLETE: the request that passes the checks is admitted LOADING under a new RID and its tenant is
charged; one that does not is counted and refused with the first check's status; in a pair the leader's or the partner's word is
asked first; a cancelled request is CANCELLED; the prompt's tokens reach a LOADING request, and a failed fetch ends it (R471, R472,
R479, R481, R502 to R504, R548, R557). -/
def Obligations.RequestsComeAndGo : Prop :=
  ∀ (s : State) (c : Cmd), c.fn < 16 →
    let p := s.popCmd c
    (∀ region addr, s.begins (.submit c region addr) c 0x0101 true → p.fwPass c.fn false addr.toNat 128 = true →
      let b := rdBytes s.hostMem addr.toNat 128
      let q := reqOf c region.toNat s.wall b
      (p.twinPaired = true →
        Answers (.submit c region addr) c s fun u =>
          u.engs = s.engs ∧ (u.func c.fn).cpls = (s.func c.fn).cpls ∧
          ∃ t, u.mir.twins = s.mir.twins ++ [t] ∧ t.kind = 0x0101 ∧ t.cmd = c ∧ t.region = region.toNat ∧ t.block = b) ∧
      (p.twinPaired = false →
        (∀ st, p.submitPlace q b = .error st →
          Answers (.submit c region addr) c s fun u => Completed s u c 0x0101 st ∧ u.engs = s.engs) ∧
        (∀ e g q', p.submitPlace q b = .ok (e, g, q') →
          let shadow := s.mode.mirror = 1 ∧ p.pairState = 4
          let st := if shadow ∧ p.leader = false then p.admitFirst e g q' false else p.admitStatus e g q' (decide shadow)
          let before := s.tenant e q'.tenant
          let n := p.newRid e
          (st ≠ 0 →
            Answers (.submit c region addr) c s fun u =>
              Completed s u c 0x0101 st ∧ u.engs = s.engs ∧
              u.fld F.srvStat_refused e = min (s.fld F.srvStat_refused e + 1) 65535) ∧
          (st = 0 → ¬(shadow ∧ p.leader = false) →
            Answers (.submit c region addr) c s fun u =>
              Completed s u c 0x0101 0 n.2.toNat ∧
              u.accn e n.1 = { q' with state := 1, rid := n.2, order := (s.eng e).admNo } ∧
              (u.eng e).admNo = (s.eng e).admNo + 1 ∧
              mget (u.eng e).tens q'.tenant {} = before.update s.cnt n.1 (-(q'.promptLen + q'.maxnew : Nat)) ∧
              (before.upAt ≠ s.cnt + 1 → before.balance ≤ before.limit →
                (mget (u.eng e).tens q'.tenant {}).balance = before.balance - (q'.promptLen + q'.maxnew))) ∧
          (st = 0 → shadow ∧ p.leader = false →
            Answers (.submit c region addr) c s fun u =>
              u.engs = s.engs ∧ (u.func c.fn).cpls = (s.func c.fn).cpls ∧
              u.mir.queries = s.mir.queries ++ [⟨s.mir.queryNo, c, e, q'⟩])))) ∧
    (∀ rid, s.begins (.cancel c rid) c 0x0102 true → p.twinPaired = false →
      let ended := (s.eng 0).doneNow ++ (s.eng 1).doneNow
      (s.findReq rid = none → (∀ d ∈ ended, d.1 = rid → d.2.2 ≠ s.cnt) →
        Answers (.cancel c rid) c s fun u => Completed s u c 0x0102 0x0068 ∧ u.engs = s.engs) ∧
      (∀ d, s.findReq rid = none → ended.find? (fun d => d.1 == rid && d.2.2 == s.cnt) = some d →
        Answers (.cancel c rid) c s fun u =>
          Completed s u c 0x0102 (if c.fn ≠ 0 ∧ d.2.1 ≠ c.fn then 0x0011 else 0x0069) ∧ u.engs = s.engs) ∧
      (∀ e i, s.findReq rid = some (e, i) → e < 2 →
        let q := s.accn e i
        (c.fn ≠ 0 → q.fn ≠ c.fn → Answers (.cancel c rid) c s fun u => Completed s u c 0x0102 0x0011 ∧ u.engs = s.engs) ∧
        (c.fn = 0 ∨ q.fn = c.fn →
          (q.state = 4 → Answers (.cancel c rid) c s fun u => Completed s u c 0x0102 0x0069 ∧ u.engs = s.engs) ∧
          (q.state = 5 → Answers (.cancel c rid) c s fun u => Completed s u c 0x0102 0 ∧ u.engs = s.engs) ∧
          (q.state ≠ 4 → q.state ≠ 5 →
            Answers (.cancel c rid) c s fun u =>
              Completed s u c 0x0102 0 ∧ (u.accn e i).state = 5 ∧ (u.accn e i).rid = q.rid ∧ (u.accn e i).pages = q.pages ∧
              u.fld F.srvStat_cancels e = min (s.fld F.srvStat_cancels e + 1) 65535)))) ∧
    (∀ rid error e i, s.findReq rid = some (e, i) → (s.accn e i).state = 1 → (s.accn e i).loaded = false →
      let q := s.accn e i
      (∀ x, error = some x → Yields (.promptFetchComplete rid error) s fun u => (u.accn e i).state = 4) ∧
      (error = none → s.promptOf q = none → Yields (.promptFetchComplete rid error) s fun u => (u.accn e i).state = 4) ∧
      (∀ ts cfg, error = none → s.promptOf q = some ts → (s.eng e).cfg = some cfg → (∀ t ∈ ts, t < cfg.vocab) → q.pfxAnnex = false →
        Yields (.promptFetchComplete rid error) s fun u =>
          u.accn e i = { q with toks := q.toks ++ ts, loaded := true }))

/-- CAT_DROP, CAT_MOVE, CAT_MOVE_COMPLETE, TENANT_REFILL and DEPTH_WRITE: an entry leaves with its references, or its pages are asked
for in the other tier and, once copied, named in place of the old ones; a balance is the limit again at a multiple of the window; the
depth in force is written up to the request's own (R486, R488 to R491, R497). -/
def Obligations.CatalogueAndTenants : Prop :=
  ∀ (s : State) (c : Cmd), c.fn < 16 →
    (∀ engine tenant handle, s.begins (.catDrop c engine tenant handle) c 0x0105 true → engine.toNat ≤ 1 → tenant.toNat ≤ 4095 →
      let e := engine.toNat
      let t := tenant.toNat
      ((mget (s.eng e).tens t {}).funcs.getLsbD c.fn = false →
        Answers (.catDrop c engine tenant handle) c s fun u => Completed s u c 0x0105 0x006B ∧ u.engs = s.engs) ∧
      ((mget (s.eng e).tens t {}).funcs.getLsbD c.fn = true →
        ((s.eng e).entry t handle = none →
          Answers (.catDrop c engine tenant handle) c s fun u => Completed s u c 0x0105 0x0066 ∧ u.engs = s.engs) ∧
        (∀ x, (s.eng e).entry t handle = some x → x.moving = none →
          Answers (.catDrop c engine tenant handle) c s fun u =>
            Completed s u c 0x0105 0 ∧ (u.eng e).entry t handle = none ∧
            (u.eng e).pageCnt = x.pages.foldl pageDown (s.eng e).pageCnt))) ∧
    (∀ engine tenant handle tier, s.begins (.catMove c engine tenant handle tier) c 0x0106 true → engine.toNat ≤ 1 → tenant.toNat ≤ 4095 → tier.toNat ≤ 1 →
      let e := engine.toNat
      let t := tenant.toNat
      let annex := tier == 1
      (mget (s.eng e).tens t {}).funcs.getLsbD c.fn = true → ∀ x, (s.eng e).entry t handle = some x →
      (annex = true → (s.eng e).uses x = true →
        Answers (.catMove c engine tenant handle tier) c s fun u => Completed s u c 0x0106 0x006C ∧ u.engs = s.engs) ∧
      ((annex = false ∨ (s.eng e).uses x = false) → x.moving = none → x.annex ≠ annex →
        let room := (s.popCmd c).freePages e annex
        let need := x.full + if annex then 0 else (s.eng e).pageRes
        (room < need → Answers (.catMove c engine tenant handle tier) c s fun u => Completed s u c 0x0106 0x0065 ∧ u.engs = s.engs) ∧
        (need ≤ room → Answers (.catMove c engine tenant handle tier) c s fun u =>
          (u.func c.fn).cpls = (s.func c.fn).cpls ∧
          ∃ ps, (u.eng e).entry t handle = some { x with moving := some (annex, c, ps) }))) ∧
    (∀ (engine : Fin 2) lost tenant handle x annex ps cfg, (s.eng engine).entry tenant.toNat handle = some x →
      x.moving = some (annex, c, ps) → x.annex ≠ annex → (s.eng engine).cfg = some cfg → s.ringStopped c.fn = false →
      Yields (.catMoveComplete ⟨engine, lost⟩ tenant handle) s fun u =>
        (u.eng engine).entry tenant.toNat handle = some { x with pages := ps, annex := annex, moving := none } ∧
        Completed s u c 0x0106 0) ∧
    (∀ (engine : Fin 2) (tenant : BitVec 12),
      let t := mget (s.eng engine).tens tenant.toNat {}
      let k := s.wall / (100000 * t.window)
      t.window ≠ 0 → t.last < k →
      Yields (.tenantRefill engine tenant) s fun u =>
        mget (u.eng engine).tens tenant.toNat {} = { t with balance := t.limit, last := k } ∧
        (u.eng engine).reqs = (s.eng engine).reqs ∧ u.regs = s.regs) ∧
    (∀ w (engine : Fin 2) off val, s.mayWrite w = true →
      let i := s.fld F.srvAccsel_index engine
      let q := s.accn engine i
      let d := bits val.toNat 45 42
      (q.depthReq < d → Yields (.depthWrite w engine off val) s fun u => u.engs = s.engs) ∧
      (d ≤ q.depthReq → q.state ≠ 0 →
        Yields (.depthWrite w engine off val) s fun u => u.accn engine i = { q with depth := d, depthAt := some s.cnt } ∧ u.regs = s.regs))

/-- EMISSION_WRITE writes the oldest emission of a function into its output ring and the index moves on; BOUNDARY_WORK packs the table
of step 0 before the first t0, the next one at a step boundary, and ends a stopped series; an update's activation that waited for the
boundary then goes on (R466, R483, R498, R500, R501). -/
def Obligations.EmissionsAndBoundaries : Prop :=
  (∀ (s : State) fn m rest,
    let f := s.func fn
    let late := match m.deadline with | some d => decide (d < s.wall) | none => false
    let bs := emisBytes { m with late := late } f.outPhase s.wall
    let a := f.outBase.toNat + 64 * f.outIdx
    let sb := s.sbAddr fn + 0x20
    fn < 16 → s.emisEngine m < 2 → f.emis = m :: rest → f.outOn = true → (f.outIdx + 1) % ringLen f.outSize ≠ s.hostIdx fn 8 → s.ringStopped fn = false →
    s.emisWaits m = false → s.fwPass fn true a bs.length = true → memWf s.hostMem = true →
    ∃ u, exec (.emissionWrite fn) s = .next u ∧
      (u.func fn).outIdx = (ringNext (ringLen f.outSize) f.outIdx f.outPhase).1 ∧
      (u.func fn).outPhase = (ringNext (ringLen f.outSize) f.outIdx f.outPhase).2 ∧
      (u.func fn).emis.length = rest.length ∧
      ∀ b, ¬(sb ≤ b ∧ b < sb + 12) →
        rdByte u.hostMem b = if a ≤ b ∧ b < a + bs.length then bs.getD (b - a) 0 else rdByte s.hostMem b) ∧
  (∀ (s : State) (e : Fin 2),
    let Ends (P : State → Prop) : Prop :=
      (∃ v, exec (.boundaryWork e) s = .next v.finishActivate ∧ P v) ∧
      (s.mir.updAct = none → ∃ t, exec (.boundaryWork e) s = .next t ∧ P t)
    ((s.eng e).cfg = none → exec (.boundaryWork e) s = .next s.finishActivate ∧
      (s.mir.updAct = none → exec (.boundaryWork e) s = .next s)) ∧
    (∀ c x, (s.eng e).cfg = some c → (s.region c.region).series = some x → (s.region c.region).running = true →
      s.packsHere c.region = true →
      ((s.region c.region).begun = false → (s.eng e).tabStep = 0 → Ends fun v => (v.eng e).tabStep = 1) ∧
      ((s.region c.region).begun = true → x.stopReq = false → (s.eng e).tabStep = x.step + 1 →
        (x.endedAt.isSome ∨ (s.region c.region).t0 + s.regionLate c.region + c.candDone ≤ s.sched) →
        Ends fun v => (v.eng e).tabStep = x.step + 2) ∧
      ((s.region c.region).begun = true → x.stopReq = true → x.endedAt.isSome → (s.eng e).tabStep = x.step + 1 →
        Ends fun v => (v.eng e).tabStep = x.step + 3 ∧ (v.eng e).slots = [] ∧ (v.eng e).pres = [])))

/-! ## Chapter 14: weights -/

/-- A broadcast begins: BCAST checks and opens it and OPEN goes down the tree; a receiving node clears its map and answers READY, or
refuses; node 0 runs its channel once every node is ready; a chunk not yet held is written at DEST through CHAN, an access in each of
its GDDR7 slots, and then its map bit is set; a node in need is adopted by its alternate, which reads the chunks it holds back through
its CHAN and sends them (R520 to R525, R529, R542). -/
def Obligations.BroadcastsStart : Prop :=
  ∀ (s : State) (die : Fin 2),
    (∀ (c : Cmd) tree src length (srcsp chan : BitVec 8), s.begins (.bcast c tree src length srcsp chan) c 0x0200 false → chanByteDie chan.toNat = die.val →
      let p := s.popCmd c
      let ix := chanByteIx chan.toNat
      let len := length.toNat
      let first : Desc := ⟨src, 0, BitVec.ofNat 32 (min len bcDescMax), BitVec.ofNat 32 (srcsp.toNat + 8 * 3), 0⟩
      let sound := chanByteOk chan.toNat = true ∧ 0 < len ∧ len ≤ 2 ^ 40 ∧ srcsp.toNat ≤ 1 ∧
        (∀ b, mfind s.wts.bcs die = some b → b.open_ = false) ∧ p.dmaState ix ≠ 1 ∧ p.dmaState ix ≠ 2 ∧ p.descCheck ix first = 0
      (∀ t, sound → p.bcTreeAt tree.toNat len = some t →
        Answers (.bcast c tree src length srcsp chan) c s fun u =>
          (u.func 0).cpls = (s.func 0).cpls ∧ u.fld F.dmaBcstat_total die = chunksOf t % 2 ^ 27 ∧
          u.fld F.dmaBcstat_state die = (if t.nodes.length = 1 then 2 else 1) ∧
          ∃ b, mfind u.wts.bcs die = some b ∧ b.tree = t ∧ b.node = 0 ∧ b.cmd = some c ∧ b.readys = [0] ∧ b.held = [] ∧
            ∀ i ∈ primaryOf ⟨0, 0, t.nodes⟩ 0,
              (⟨(t.nodes.map (·.module)).getD i 0, 0x40, t.bcastId, [0x10]⟩ : Msg) ∈ u.fab.sent) ∧
      (¬sound ∨ p.bcTreeAt tree.toNat len = none →
        Answers (.bcast c tree src length srcsp chan) c s fun u => Completed s u c 0x0200 0x0080 ∧ u.wts = s.wts)) ∧
    (∀ b i, s.nodeIn ⟨b.bcastId, 0, b.nodes⟩ = some i → i ≠ 0 → b.length ≠ 0 →
      let n := b.nodes.getD i ⟨0, 0, 0, 0, 0, 0, 0, 0⟩
      let root := (b.nodes.map (·.module)).getD 0 0
      chanByteDie n.chan = die.val → s.bcById die b.bcastId = none → s.hasMsg 0x40 (·.says b.bcastId (bcBytes b 0x10 [])) = true →
      ((∃ d, mfind s.wts.bcs die = some d ∧ d.open_ = true) →
        Yields (.openReceive b) s fun u =>
          u.wts = s.wts ∧ u.ext = s.ext ∧ (⟨root, 0x40, b.bcastId, [0x13, i]⟩ : Msg) ∈ u.fab.sent) ∧
      ((∀ d, mfind s.wts.bcs die = some d → d.open_ = false) → s.bcEntryOk b n = true → memWf s.ext = true →
        Yields (.openReceive b) s fun u =>
          u.fld F.dmaBcstat_state die = 1 ∧ (⟨root, 0x40, b.bcastId, [0x11, i]⟩ : Msg) ∈ u.fab.sent ∧
          (∃ d, mfind u.wts.bcs die = some d ∧ d.tree = b ∧ d.node = i ∧ d.held = [] ∧ d.stopped = false) ∧
          (relayOnly n = true → u.ext = s.ext) ∧
          (relayOnly n = false → Stored s.ext u.ext n.map (List.replicate (ceilDiv (chunksOf b) 8) 0)))) ∧
    (∀ node id b, s.bcRoot id = some (die.val, b) → mfind s.wts.bcs die = some b → node < b.tree.nodes.length →
      b.readys.contains node = false → b.sending = false → s.hasMsg 0x40 (·.says id (bcBytes noTree 0x11 [node])) = true →
      (b.readys.length + 1 ≠ b.tree.nodes.length →
        Yields (.bcastReadyReceive node id) s fun u =>
          mfind u.wts.bcs die = some { b with readys := b.readys ++ [node] } ∧ u.regs = s.regs) ∧
      (b.readys.length + 1 = b.tree.nodes.length →
        Yields (.bcastReadyReceive node id) s fun u =>
          (∃ d, mfind u.wts.bcs die = some d ∧ d.sending = true ∧ d.left = b.tree.length - min b.tree.length bcDescMax) ∧
          u.fld F.dmaBcstat_state die = 2 ∧ u.dmaState (chanByteIx b.chan) = 1 ∧
          u.reg .dmaSrc (chanByteIx b.chan) = b.src % 2 ^ 64)) ∧
    (∀ id b j data, s.bcById die id = some b → b.node ≠ 0 → b.stopped = false → j < chunksOf b.tree →
      data.length = chunkBytesOf b.tree j → s.hasArrived (chunkHolds id j data) = true →
      Yields (.chunkReceive die id j data) s fun u =>
        u.ext = s.ext ∧ ∃ d, mfind u.wts.bcs die = some d ∧ d.last = s.wall ∧ d.needed = false ∧
          (b.has j = true → d.held = b.held ∧ d.wpend = b.wpend) ∧
          (b.has j = false → relayOnly b.entry = false → d.held = b.held ∧ d.wpend = b.wpend ++ [(j, data, 0)]) ∧
          (b.has j = false → relayOnly b.entry = true →
            d.held = b.held ++ [j] ∧ d.wpend = b.wpend ∧ u.fld F.dmaBcstat_held die = (b.held.length + 1) % 2 ^ 27)) ∧
    (∀ (ch : Chan) b a n res, ch.die = 8 + die.val → chanExists ch = true → s.bcRecv (chIx ch) = some b →
      mfind s.wts.bcs die = some b → s.dmaMay (chIx ch) 0 a = true → res ≠ .lost →
      (s.dmaNextAcc (chIx ch) true = none → s.bcAcc (chIx ch) true = some (a, n) →
        (n < 64 → b.rmw = false → Yields (.dmaSlotAccess ch ⟨true, res⟩) s fun u =>
          u.ext = s.ext ∧ mfind u.wts.bcs die = some { b with rmw := true }) ∧
        (∀ j data done rest, b.wpend = (j, data, done) :: rest → done < data.length → n = 64 ∨ b.rmw = true → memWf s.ext = true →
          (done + n < data.length → Yields (.dmaSlotAccess ch ⟨true, res⟩) s fun u =>
            Stored s.ext u.ext a ((data.drop done).take n) ∧
            mfind u.wts.bcs die = some { b with rmw := false, wpend := (j, data, done + n) :: rest }) ∧
          (data.length ≤ done + n →
            let m := b.entry.map + j / 8
            let bs := (data.drop done).take n
            let new (x : Nat) : Byte := if a ≤ x ∧ x < a + bs.length then bs.getD (x - a) 0 else rdByte s.ext x
            Yields (.dmaSlotAccess ch ⟨true, res⟩) s fun u =>
              mfind u.wts.bcs die = some { b with rmw := false, wpend := rest, held := b.held ++ [j] } ∧
              u.fld F.dmaBcstat_held die = (b.held.length + 1) % 2 ^ 27 ∧
              (∀ x, rdByte u.ext x = if x = m then new m ||| BitVec.ofNat 8 (2 ^ (j % 8)) else new x) ∧
              (b.held.length + 1 = chunksOf b.tree →
                u.fld F.dmaBcstat_state die = 3 ∧
                (⟨(b.tree.nodes.map (·.module)).getD 0 0, 0x40, b.tree.bcastId, [0x14, b.node]⟩ : Msg) ∈ u.fab.sent)))) ∧
      (s.dmaNextAcc (chIx ch) false = none → s.bcAcc (chIx ch) false = some (a, n) →
        ∀ c j got rest, b.rpend = (c, j, got) :: rest → got.length < chunkBytesOf b.tree j →
          let bs := got ++ rdBytes s.ext a n
          Yields (.dmaSlotAccess ch ⟨false, res⟩) s fun u =>
            u.ext = s.ext ∧
            (bs.length < chunkBytesOf b.tree j → mfind u.wts.bcs die = some { b with rpend := (c, j, bs) :: rest }) ∧
            (chunkBytesOf b.tree j ≤ bs.length →
              mfind u.wts.bcs die = some { b with rpend := rest } ∧ u.fab = (s.sendChunk die b c j bs).fab))) ∧
    (∀ node id j b, s.bcById die id = some b → b.stopped = false → node ≠ 0 → (b.tree.nodes.map (·.alt)).getD node 0xFFFF = b.node →
      b.children.contains node = false → s.hasMsg 0x40 (·.says id (bcBytes noTree 0x12 [node, j])) = true →
      let mine := if relayOnly b.entry then [] else (List.range (chunksOf b.tree)).filter fun k => decide (j ≤ k) && b.held.contains k
      Yields (.needReceive die node id j) s fun u =>
        mfind u.wts.bcs die = some { b with adopted := b.adopted ++ [node], rpend := b.rpend ++ mine.map fun k => (node, k, []) } ∧
        u.ext = s.ext)

/-- A broadcast ends: silence is told to the alternate and then to node 0; a node's failure, or no DONE in time, fails BCAST with
0x0082; the last DONE completes it; an ABORT stops a node (R525, R527, R542). -/
def Obligations.BroadcastsEnd : Prop :=
  ∀ (s : State) (die : Fin 2) (b : Bc), mfind s.wts.bcs die = some b →
    let modOf (i : Nat) : Nat := (b.tree.nodes.map (·.module)).getD i 0
    let id := b.tree.bcastId
    let fails (u : State) : Prop :=
      u.fld F.dmaBcstat_state die = 4 ∧ (∃ d, mfind u.wts.bcs die = some d ∧ d.stopped = true ∧ d.cmd = none ∧ d.msg = 0x15) ∧
      ∀ c, b.cmd = some c → s.ringStopped c.fn = false → (⟨0x0082, c.tag, 0x0200, c.index, c.irq, 0, none⟩ : Cpl) ∈ (u.func c.fn).cpls
    (b.node ≠ 0 → b.open_ = true → b.failSent = false → b.last + 100 * s.fld F.dmaBcctl_stall 0 ≤ s.wall →
      (b.needed = true → ((List.range (chunksOf b.tree)).any fun j => !b.has j) = true →
        Yields (.bcastStall die) s fun u =>
          mfind u.wts.bcs die = some { b with failSent := true } ∧ (⟨modOf 0, 0x40, id, [0x13, b.node]⟩ : Msg) ∈ u.fab.sent) ∧
      (b.needed = false →
        ∀ j, ((List.range (chunksOf b.tree)).find? fun j => !b.has j) = some j →
          Yields (.bcastStall die) s fun u =>
            mfind u.wts.bcs die = some { b with needed := true, last := s.wall } ∧
            (⟨modOf b.entry.alt, 0x40, id, [0x12, b.node, j]⟩ : Msg) ∈ u.fab.sent)) ∧
    (∀ node, s.bcRoot id = some (die.val, b) → s.hasMsg 0x40 (·.says id (bcBytes noTree 0x13 [node])) = true →
      Yields (.bcfailReceive node id) s fails) ∧
    (∀ node, s.bcRoot id = some (die.val, b) → node ≠ 0 → node < b.tree.nodes.length → b.dones.contains node = false →
      s.hasMsg 0x40 (·.says id (bcBytes noTree 0x14 [node])) = true →
      (b.dones.length + 1 < b.tree.nodes.length →
        Yields (.bcastDoneReceive node id) s fun u =>
          mfind u.wts.bcs die = some { b with dones := b.dones ++ [node] } ∧ u.regs = s.regs) ∧
      (b.tree.nodes.length ≤ b.dones.length + 1 →
        Yields (.bcastDoneReceive node id) s fun u =>
          u.fld F.dmaBcstat_state die = 3 ∧ (∃ d, mfind u.wts.bcs die = some d ∧ d.cmd = none) ∧
          ∀ c, b.cmd = some c → s.ringStopped c.fn = false → Completed s u c 0x0200 0)) ∧
    (b.node = 0 → b.cmd.isSome = true → b.opened + 100000 * s.fld F.dmaBcctl_timeout 0 ≤ s.wall →
      Yields (.bcastTimeout die) s fails) ∧
    (b.node ≠ 0 → b.msg ≠ 0x15 → s.hasMsg 0x40 (·.says id (bcBytes noTree 0x15 [])) = true →
      Yields (.bcastAbortReceive die id) s fun u =>
        u.fld F.dmaBcstat_state die = 4 ∧ u.ext = s.ext ∧ ∃ d, mfind u.wts.bcs die = some d ∧ d.stopped = true ∧ d.msg = 0x15 ∧ d.held = b.held)

/-- WTABLE, WPTR, SWAP, the copies of a swap, and the fences: an area is set; pointers wait for the next step not sealed; a swap whose
list passes its checks begins, its groups are copied over the current pointers, and it completes with its last unit; a fence hands the
region's requests to the partner, and a handback begins as a sync (R530 to R540, R556). -/
def Obligations.PointersAndSwaps : Prop :=
  ∀ (s : State) (c : Cmd),
    let p := s.popCmd c
    (∀ region addr, s.begins (.wtable c region addr) c 0x0201 false → (s.regionRec region.toNat).isSome = true → addr.toNat % 4096 = 0 →
      (p.inGddr addr.toNat 4096 = true →
        Answers (.wtable c region addr) c s fun u =>
          Completed s u c 0x0201 0 ∧ mfind u.wts.areas region.toNat = some addr.toNat ∧ u.ext = s.ext) ∧
      (p.inGddr addr.toNat 4096 = false →
        Answers (.wtable c region addr) c s fun u => Completed s u c 0x0201 0x0081 ∧ u.wts = s.wts)) ∧
    (∀ region first count addr, s.begins (.wptr c region first count addr) c 0x0202 false →
      let r := region.toNat
      let n := count.toNat
      ((mfind s.wts.areas r = none ∨ 256 < first.toNat + n) →
        Answers (.wptr c region first count addr) c s fun u => Completed s u c 0x0202 0x0081 ∧ u.wts = s.wts) ∧
      ((mfind s.wts.areas r).isSome = true → 0 < n → first.toNat + n ≤ 256 → p.fwPass 0 false addr.toNat (8 * n) = true →
        p.twinPaired = false →
        ((∃ k < n, s.swapHolds r (first.toNat + k) = true) →
          Answers (.wptr c region first count addr) c s fun u => Completed s u c 0x0202 0x0085 ∧ u.wts = s.wts) ∧
        ((∀ k < n, s.swapHolds r (first.toNat + k) = false) →
          Answers (.wptr c region first count addr) c s fun u =>
            (u.func c.fn).cpls = (s.func c.fn).cpls ∧ u.ext = s.ext ∧
            u.wts.wptrs = s.wts.wptrs ++ [⟨some c, r, 0, first.toNat, words64 (rdBytes s.hostMem addr.toNat (8 * n))⟩]))) ∧
    (∀ addr units perStep, s.begins (.swap c addr units perStep) c 0x0203 false →
      let n := units.toNat
      let b := rdBytes s.hostMem addr.toNat (16 * n)
      let us := (cut 16 b).map swapUnitOf
      (s.mode.swap = 1 → Answers (.swap c addr units perStep) c s fun u => Completed s u c 0x0203 0x0086 ∧ u.wts = s.wts) ∧
      (s.mode.swap ≠ 1 →
        (s.wts.swap.isSome = true → Answers (.swap c addr units perStep) c s fun u => Completed s u c 0x0203 0x0083 ∧ u.wts = s.wts) ∧
        (s.wts.swap = none → p.fwPass 0 false addr.toNat (16 * n) = true → p.swapLies us = false → p.twinPaired = false →
          Answers (.swap c addr units perStep) c s fun u => Completed s u c 0x0203 0x0081 ∧ u.wts = s.wts) ∧
        (s.wts.swap = none → p.fwPass 0 false addr.toNat (16 * n) = true → 0 < n → n ≤ 256 → 0 < perStep.toNat → perStep.toNat ≤ 16 → (∀ e ∈ cut 16 b, leAt e 2 2 = 0 ∧ leAt e 4 4 % 64 = 0) →
          p.twinPaired = false →
          let st := (p.takeSwap (some c) perStep.toNat us).2
          (st ≠ 0 → Answers (.swap c addr units perStep) c s fun u => Completed s u c 0x0203 st ∧ u.wts = s.wts) ∧
          (st = 0 → Answers (.swap c addr units perStep) c s fun u =>
            (u.func c.fn).cpls = (s.func c.fn).cpls ∧ u.ext = s.ext ∧
            u.wts.swap = some ⟨some c, us, perStep.toNat, none, none⟩ ∧
            ∀ r < 8, (∃ x ∈ us, x.region = r) → u.fld F.srvSwap_state r = 1)))) ∧
    (∀ w, s.wts.swap = some w →
      (w.copyEnd = none → (∀ r, s.firstServing = some r → s.swapDue r = true) →
        (s.firstServing = none → s.anyInv = false ∧ w.group.isEmpty = false ∧ s.swapPassed w = false) →
        Yields .swapCopy s fun u =>
          u.wts.swap = some { w with copied := s.firstServing.map (fun r => (s.region r).t0), copyEnd := some (s.cnt + s.copyTime w.group) } ∧
          u.ext = s.ext) ∧
      (∀ t, w.copyEnd = some t → t ≤ s.cnt →
        let w' := { w with copyEnd := none, units := markDone w.group.length w.units }
        Yields .swapCopyEnd s fun u =>
          u.wts.swap = (if w'.group.isEmpty then none else some w') ∧
          (∀ x, w.group = [x] → memWf s.ext = true →
            Stored s.ext u.ext (s.curPtr x.region x.layer) (rdBytes s.ext x.src x.bytes)) ∧
          (∀ d, w'.group.isEmpty = true → w.cmd = some d → d.fn < 16 → s.ringStopped d.fn = false →
            (⟨0, d.tag, 0x0203, d.index, d.irq, 0, none⟩ : Cpl) ∈ (u.func d.fn).cpls))) ∧
    (∀ region, s.begins (.fenceOut c region) c 0x0204 false →
      let r := region.toNat
      (s.mode.swap = 0 → Answers (.fenceOut c region) c s fun u => Completed s u c 0x0204 0x0086 ∧ u.mir = s.mir) ∧
      (s.mode.swap ≠ 0 → (p.served r).isEmpty = true ∨ p.pairState ≠ 4 ∨ r ∈ s.wts.fenced ∨ p.handing = true →
        Answers (.fenceOut c region) c s fun u => Completed s u c 0x0204 0x0087 ∧ u.mir = s.mir) ∧
      (s.mode.swap ≠ 0 → (p.served r).isEmpty = false → p.pairState = 4 → r ∉ s.wts.fenced → p.handing = false →
        p.twinPaired = false →
        let rids := (p.liveOf r).map fun x => x.2.2.rid
        Answers (.fenceOut c region) c s fun u =>
          (u.func c.fn).cpls = (s.func c.fn).cpls ∧ u.mir.giveRids = rids ∧ u.mir.fencing = true ∧ u.wts.fenced = s.wts.fenced ++ [r] ∧
          (∀ e ∈ p.served r, (u.eng e).fencedOut = true) ∧
          (p.leader = true → u.mir.handover = some (p.handStep r) ∧ u.mir.giving = true ∧
            (s.mirUp ≠ [] → (⟨s.mode.partner, 0x50, 0, handItems (p.handStep r) (fenceMark :: rids)⟩ : Msg) ∈ u.fab.sent)) ∧
          (p.leader = false → u.mir.handover = none ∧ u.mir.giving = false ∧
            (s.mirUp ≠ [] → (⟨s.mode.partner, 0x50, 0, handItems askStep [fenceMark]⟩ : Msg) ∈ u.fab.sent)))) ∧
    (∀ region, s.begins (.fenceIn c region) c 0x0205 false →
      let r := region.toNat
      (r ∉ s.wts.fenced ∨ p.pairState ≠ 7 →
        Answers (.fenceIn c region) c s fun u => Completed s u c 0x0205 0x0087 ∧ u.mir = s.mir) ∧
      (r ∈ s.wts.fenced → p.pairState = 7 → s.mode.mirror = 2 →
        Answers (.fenceIn c region) c s fun u =>
          (u.func c.fn).cpls = (s.func c.fn).cpls ∧ u.engs = s.engs ∧ u.wts = s.wts ∧
          ∃ t, u.mir.twins = s.mir.twins ++ [t] ∧ t.kind = 0x0205 ∧ t.cmd = c ∧ t.fromPartner = false) ∧
      (r ∈ s.wts.fenced → p.pairState = 7 → s.mode.mirror ≠ 2 →
        Answers (.fenceIn c region) c s fun u =>
          u.pairState = 3 ∧ u.fld F.srvSwap_state r = 4 ∧ mfind u.wts.fenceIn r = some c))

/-! ## Chapter 15: pairs and mirroring -/

/-- HELLO, the sync and its end, PAIR_JOIN and PAIR_DROP with their messages, and HANDOVER: the state of the pair each leaves, or the
status of a join or drop refused (R544 to R546, R556, R560). -/
def Obligations.PairsFormAndPart : Prop :=
  ∀ (s : State) (c : Cmd), s.mir.updAct = none → s.wts.fenceCmd = [] → s.mir.queries = [] →
    let p := s.popCmd c
    (∀ (port : Fin 32) h, s.mode.mirror ≠ 0 → s.portRole port = 2 → s.hasMsg 0x50 (·.says 0 (helloBytes h)) = true →
      Yields (.helloReceive port h) s fun u =>
        u.mir.hello = some h ∧
        (s.compatible h = false → u.pairState = 2) ∧
        (s.compatible h = true →
          u.pairState = if s.pairState = 1 ∨ s.pairState = 2 ∨
            ((s.pairState = 5 ∨ s.pairState = 6) ∧ s.fld F.mirCtl_manual 0 = 0) then 3 else s.pairState)) ∧
    (s.pairState = 3 → s.mir.heard = true → s.mir.giveRids = [] → s.mir.handRids = [] → (s.mode.mirror = 1 → s.adoptedReqs = []) → (∀ r ∈ s.wts.fenced, r < 8) →
      Yields .syncComplete s fun u =>
        u.pairState = 4 ∧ u.wts.fenced = [] ∧ u.wts.fenceIn = [] ∧ u.mir.joinCmd = none ∧ u.mir.hbLast = s.wall ∧
        (∀ r ∈ s.wts.fenced, u.fld F.srvSwap_state r = 0) ∧
        ∀ d, s.mir.joinCmd = some d → d.fn < 16 → s.ringStopped d.fn = false →
          (⟨0, d.tag, 0x0210, d.index, d.irq, 0, none⟩ : Cpl) ∈ (u.func d.fn).cpls) ∧
    (s.begins (.pairJoin c) c 0x0210 false →
      let known := ∃ h, s.mir.hello = some h ∧ p.compatible h = true
      (s.mode.mirror = 0 ∨ p.mirUp = [] → Answers (.pairJoin c) c s fun u => Completed s u c 0x0210 0x0090 ∧ u.mir = s.mir) ∧
      (s.mode.mirror ≠ 0 → p.mirUp ≠ [] →
        (¬known → Answers (.pairJoin c) c s fun u => Completed s u c 0x0210 0x0091 ∧ u.mir = s.mir) ∧
        (known → s.pairState ≠ 5 → s.pairState ≠ 6 → Answers (.pairJoin c) c s fun u => Completed s u c 0x0210 0x0092 ∧ u.mir = s.mir) ∧
        (known → s.pairState = 5 ∨ s.pairState = 6 →
          Answers (.pairJoin c) c s fun u =>
            u.pairState = 3 ∧ u.mir.joinCmd = some c ∧ (u.func c.fn).cpls = (s.func c.fn).cpls))) ∧
    (s.begins (.pairDrop c) c 0x0211 false →
      (s.mode.mirror = 0 → Answers (.pairDrop c) c s fun u => Completed s u c 0x0211 0x0090 ∧ u.mir = s.mir) ∧
      (s.mode.mirror ≠ 0 → s.pairState ≠ 4 → Answers (.pairDrop c) c s fun u => Completed s u c 0x0211 0x0092 ∧ u.mir = s.mir) ∧
      (s.mode.mirror ≠ 0 → s.pairState = 4 →
        Answers (.pairDrop c) c s fun u =>
          Completed s u c 0x0211 0 ∧
          (p.firstServing.isSome = true → u.mir.dropAt = true ∧ u.pairState = 4) ∧ (p.firstServing = none → u.pairState = 5))) ∧
    (s.pairState = 4 → s.hasMsg 0x50 (·.says 0 (leBytes 2 8)) = true → Yields .pairDropReceive s fun u =>
      (s.firstServing.isSome = true → u.mir.dropAt = true ∧ u.pairState = 4) ∧ (s.firstServing = none → u.pairState = 5)) ∧
    (s.mode.mirror ≠ 0 → s.pairState = 5 ∨ s.pairState = 6 ∨ s.pairState = 8 → s.hasMsg 0x50 (·.says 0 (leBytes 2 6)) = true →
      Yields .pairJoinReceive s fun u => u.pairState = 3) ∧
    (∀ step rids ms, s.pairState = 3 ∨ s.pairState = 4 → s.hasMsg 0x50 (·.says 0 (argBytes (handItems step rids))) = true →
      let mine := if s.mode.mirror = 2 then [] else s.syncRids
      (step = askStep →
        (s.leader = false → exec (.handoverReceive step rids ms) s = .next (s.dropMsg 0x50 (·.says 0 (argBytes (handItems step rids))))) ∧
        (∀ h, s.leader = true → s.mir.handover = some h → Yields (.handoverReceive step rids ms) s fun u =>
          u.mir = s.mir ∧ u.engs = s.engs ∧
          (s.mirUp ≠ [] → (⟨s.mode.partner, 0x50, 0, handItems h s.mir.giveRids⟩ : Msg) ∈ u.fab.sent)) ∧
        (s.leader = true → s.mir.handover = none → Yields (.handoverReceive step rids ms) s fun u =>
          u.mir.handover = some (s.curStep (s.firstServing.getD 0) + 2) ∧ u.mir.giving = true ∧ u.mir.giveRids = mine ∧ u.engs = s.engs)) ∧
      (step ≠ askStep → Yields (.handoverReceive step rids ms) s fun u =>
        let answers := s.leader = false ∧ s.mir.giving = false
        u.mir.handover = some step ∧ u.mir.handRids = rids.filter (· != fenceMark) ∧ u.mir.heard = true ∧
        u.mir.cover = (rids.head? == some fenceMark) ∧ u.regs = s.regs ∧ u.engs = s.engs ∧
        (¬answers → u.mir.giving = s.mir.giving ∧ u.mir.giveRids = s.mir.giveRids) ∧
        (answers → u.mir.giving = true ∧ u.mir.giveRids = if s.mir.fencing = true then s.mir.giveRids else mine)))

/-- What passes between the modules of a pair: the leader's verdict on an admission and what the asking module does with it, twin
commands, KV packets, step records with their ACK, and heartbeats, with what an expired wait or a missed interval does (R547, R548,
R550, R551, R553, R554, R557, R558). -/
def Obligations.PairTraffic : Prop :=
  ∀ (s : State),
    (∀ (engine : Fin 2) (region : Fin 8) dec att pages query e c, s.mode.mirror = 1 → s.pairState = 4 → s.leader = true →
      s.takerOf engine region = some e → (s.eng e).cfg = some c →
      s.hasMsg 0x50 (·.says 0 (argBytes [0x0001, engine.val, region.val, dec, att, pages, query])) = true →
      Yields (.admitQueryReceive engine region dec att pages query) s fun u =>
        let fits := s.pairFits e c dec att pages
        u.mir.grants = (if fits then s.mir.grants ++ [(query, e, dec, att, pages)] else s.mir.grants) ∧ u.engs = s.engs ∧
        (s.mirUp ≠ [] → (⟨s.mode.partner, 0x50, 0, [0x0002, query, if fits then 0 else 0x0065]⟩ : Msg) ∈ u.fab.sent)) ∧
    (∀ query (status : BitVec 16) w c, s.hasMsg 0x50 (·.says 0 (argBytes [0x0002, query, status.toNat])) = true → s.mir.queries.find? (fun x => x.no == query) = some w → (s.eng w.engine).cfg = some c → w.cmd.fn < 16 →
      w.engine < 2 → s.ringStopped w.cmd.fn = false →
      let q := s.readied w.engine c w.req
      let st := if status.toNat ≠ 0 then status.toNat else s.admitStatus w.engine c q false
      let n := s.newRid w.engine
      (st ≠ 0 → Yields (.admitVerdictReceive query status) s fun u => Completed s u w.cmd 0x0101 st ∧ u.engs = s.engs) ∧
      (st = 0 → Yields (.admitVerdictReceive query status) s fun u =>
        Completed s u w.cmd 0x0101 0 n.2.toNat ∧
        u.accn w.engine n.1 = { q with state := 1, rid := n.2, order := (s.eng w.engine).admNo })) ∧
    (∀ t, s.mode.mirror = 2 → s.hasMsg 0x50 (·.says 0 (twinBytes t)) = true →
      (t.kind = 0x0004 → s.twinCoupled = true → Yields (.twinCommandReceive t) s fun u =>
        t.region ∈ u.mir.launched ∧ (∀ r, r ≠ t.region → (r ∈ u.mir.launched ↔ r ∈ s.mir.launched)) ∧ u.mir.twins = s.mir.twins) ∧
      (t.kind ≠ 0x0004 → s.twinLinked t.kind = true →
        (s.leader = true → Yields (.twinCommandReceive t) s fun u =>
          ∃ x, u.mir.twins = s.mir.twins ++ [x] ∧ x.cmd = t.cmd ∧ x.kind = t.kind ∧ x.fromPartner = true ∧
            x.applyStep = s.curStep ((s.twinRegion t).getD 0) + 3) ∧
        (s.leader = false → t.fromPartner = false → Yields (.twinCommandReceive t) s fun u =>
          u.mir.twins = s.mir.twins ++ [{ t with fromPartner := true }] ∧ u.engs = s.engs) ∧
        (∀ x, s.leader = false → t.fromPartner = true →
          s.mir.twins.find? (fun x => x.applyStep == 0 && !x.fromPartner && x.kind == t.kind && x.cmd.fn == t.cmd.fn && x.cmd.tag == t.cmd.tag)
            = some x →
          Yields (.twinCommandReceive t) s fun u =>
            u.mir.twins = s.mir.twins.filter (fun y => y != x) ++ [{ t with cmd := x.cmd, fromPartner := false }]))) ∧
    (∀ (c : Cmd) (i : Instr) op, s.twinPaired = true → s.begins i c op (op != 0x0202 && op != 0x0203 && op != 0x0204) →
      (∃ rid, i = .cancel c rid ∧ op = 0x0102) ∨
      (∃ r f n a, i = .wptr c r f n a ∧ op = 0x0202 ∧ 0 < n.toNat ∧ n.toNat ≤ 256 ∧ (mfind s.wts.areas r.toNat).isSome = true ∧
        f.toNat + n.toNat ≤ 256 ∧ (s.popCmd c).fwPass 0 false a.toNat (8 * n.toNat) = true) ∨
      (∃ a n k, i = .swap c a n k ∧ op = 0x0203 ∧ s.mode.swap ≠ 1 ∧ 0 < n.toNat ∧ n.toNat ≤ 256 ∧ 0 < k.toNat ∧ k.toNat ≤ 16 ∧
        s.wts.swap = none ∧ (s.popCmd c).fwPass 0 false a.toNat (16 * n.toNat) = true ∧
        ∀ e ∈ cut 16 (rdBytes s.hostMem a.toNat (16 * n.toNat)), leAt e 2 2 = 0 ∧ leAt e 4 4 % 64 = 0) ∨
      (∃ r, i = .fenceOut c r ∧ op = 0x0204 ∧ s.mode.swap ≠ 0 ∧ ((s.popCmd c).served r.toNat).isEmpty = false ∧ r.toNat ∉ s.wts.fenced ∧
        s.handing = false) →
      Answers i c s fun u =>
        (u.func c.fn).cpls = (s.func c.fn).cpls ∧ u.engs = s.engs ∧ u.wts = s.wts ∧
        ∃ t, u.mir.twins = s.mir.twins ++ [t] ∧ t.kind = op ∧ t.cmd = c ∧ t.fromPartner = false) ∧
    (∀ (k : KvPacket) c, (s.eng (s.ownFor k.engine)).cfg = some c → s.takesMirror = true → k.count = 1 → k.first < 256 →
      k.data.length = 4 + kvBytes c.pageBytes → memWf s.ext = true → s.hasArrived (fun p => p.type == 0x51 && p.body == kvBody k) = true →
      Yields (.kvPacketReceive k) s fun u =>
        let t := s.mapPage k.engine (s.ownFor k.engine) k.page
        let g := t.2
        let z := kvBytes c.pageBytes
        let a := c.page g + 4 * k.first
        let b := c.page g + 1024 + z * k.first
        (∀ x, rdByte u.ext x =
          if b ≤ x ∧ x < b + z then k.data.getD (4 + (x - b)) 0
          else if a ≤ x ∧ x < a + 4 then k.data.getD (x - a) 0 else rdByte t.1.ext x) ∧
        (k.engine, k.step, k.page) ∈ u.mir.kvPages ∧ ∃ n, (k.engine, k.step, n + 1) ∈ u.mir.kvGot) ∧
    (∀ r : StepRecord, s.takesMirror = true → s.hasMsg 0x52 (·.says 0 (recordBytes r)) = true →
      r.kvCount ≤ ((s.mir.kvGot.find? fun g => g.1 == r.engine && g.2.1 == r.step).map (·.2.2)).getD 0 →
      Yields (.stepRecordApply r) s fun u =>
        (∀ m ∈ r.reqs, 2 ≤ m.state → m.state ≤ 3 → (r.engine, m) ∈ u.mir.mirrored) ∧
        (∀ m ∈ r.reqs, m.state = 1 → (r.engine, m.rid) ∈ u.mir.loading) ∧
        u.mir.grants = s.mir.grants.filter (fun g => g.2.1 != s.ownFor r.engine || decide (r.loadQuery ≤ g.1)) ∧
        (∀ c ∈ r.catAdd, (r.engine, c) ∈ u.mir.mirCat) ∧
        u.mir.pendEmis = (if s.mode.mirror = 1 then s.mir.pendEmis ++ r.emissions else s.mir.pendEmis) ∧
        (u.eng (s.ownFor r.engine)).mirLoad = (r.loadDec, r.loadAtt, r.loadPages) ∧
        (s.mirUp ≠ [] → (⟨s.mode.partner, 0x50, 0, [0x0007, r.step, r.engine]⟩ : Msg) ∈ u.fab.sent)) ∧
    (∀ step (engine : Fin 2), s.hasMsg 0x50 (·.says 0 (argBytes [0x0007, step, engine.val])) = true → Yields (.ackReceive step engine) s fun u =>
      u.mir.waitAck = s.mir.waitAck.filter (fun w => !(w.1 == engine.val && w.2.1 == step)) ∧ u.regs = s.regs ∧ u.engs = s.engs) ∧
    (∀ engine : Fin 2, s.mir.queries = [] →
      (∃ w ∈ s.mir.waitAck, w.1 = engine.val ∧ w.2.2 + 100 * s.fld F.mirCtl_ackwait 0 ≤ s.wall) →
      Yields (.ackwaitExpiry engine) s fun u =>
        u.pairState = 5 ∧ u.mir.waitAck = [] ∧ u.fld F.mirStat_acklate 0 = min (s.fld F.mirStat_acklate 0 + 1) 65535) ∧
    (∀ (port : Fin 32) h, s.mode.mirror ≠ 0 → s.portRole port = 2 → s.mir.queries = [] → s.hasMsg 0x53 (·.says 0 (heartbeatBytes h)) = true →
      Yields (.heartbeatReceive port h) s fun u =>
        u.fld F.mirState_missed 0 = 0 ∧ u.fld F.mirState_peerstep 0 = h.step % 2 ^ 48 ∧ u.mir.hbStep = h.step + 1 ∧
        u.mir.hbLast = s.wall ∧
        (s.mode.mirror = 1 → u.mir.pendEmis = s.mir.pendEmis.filter fun x => decide (h.step < x.step))) ∧
    (s.mode.mirror ≠ 0 → s.firstServing = none → s.mir.hbIdle + 100 * max 1 (s.fld F.mirCtl_idlehb 0) ≤ s.wall →
      Yields .idleHeartbeat s fun u =>
        u.mir.hbIdle = s.wall ∧
        (s.mirUp ≠ [] →
          ∃ dig, (⟨s.mode.partner, 0x53, 0, [s.mir.ownStep, s.wall, dig]⟩ : Msg) ∈ u.fab.sent)) ∧
    (s.mode.mirror ≠ 0 → 3 ≤ s.pairState → s.mir.hbLast + s.hbInterval ≤ s.wall → s.mir.queries = [] →
      let missed := min (s.fld F.mirState_missed 0 + 1) 15
      Yields .heartbeatInterval s fun u =>
        u.fld F.mirState_missed 0 = missed ∧ u.mir.hbLast = s.mir.hbLast + s.hbInterval ∧
        (s.mirUp ≠ [] → missed = 3 → s.pairState ∈ [3, 4, 7, 8] → u.pairState = 5) ∧
        (s.mirPorts ≠ [] → (∀ q ∈ s.mirPorts, s.portState q = 1) → 3 ≤ missed → s.pairState ∈ [3, 4, 5, 7, 8] →
          u.pairState = 6 ∧ u.mir.adopt = true))

/-! ## Chapter 16: clocks and power -/

/-- Clocks: a step request is refused, deferred or begun and the dividers switch 2,048 cycles into the hold; a droop stretches the root, which
then catches up; the reference is lost and returns (R478, R569 to R576, R584 to R586). -/
def Obligations.ClocksAndReference : Prop :=
  (∀ (s : State),
     (∀ (fn off : Nat) (val : BitVec 32), Yields (.stepRequest (.host fn) off val) s fun u => u.clk = s.clk ∧ u.step_ = s.step_) ∧
     (∀ io off (val : BitVec 32),
       let t := bits val.toNat 2 0
       let why := s.stepReason t
       let go := val.getLsbD 31
       (go = false → Yields (.stepRequest (.firmware io) off val) s fun u => u.fld F.clkStepcmd_target 0 = t ∧ u.clk = s.clk) ∧
       (go = true → why ≠ 0 → Yields (.stepRequest (.firmware io) off val) s fun u =>
         u.fld F.clkStepcmd_reason 0 = why ∧ u.clk = s.clk ∧ u.step_ = s.step_) ∧
       (go = true → why = 0 → s.step_ < t → s.admittedAny = true →
         Yields (.stepRequest (.firmware io) off val) s fun u =>
           u.fld F.clkState_pendvalid 0 = 1 ∧ u.fld F.clkState_pending 0 = t ∧ u.clk.pendIo = some (io % 2) ∧ u.clk.chg = s.clk.chg) ∧
       (go = true → why = 0 → t ≤ s.step_ ∨ s.admittedAny = false →
         Yields (.stepRequest (.firmware io) off val) s fun u =>
           u.clk.chg = some { target := t, asked := s.cnt } ∧ u.pwr.vcore = min s.pwr.vcore t ∧ u.step_ = s.step_ ∧
           u.boundaryAsk = s.boundaryAsk ++ [(7, 0x6000 + io % 2, 12288, s.cnt)])) ∧
     (∀ io, s.clk.pendIo = some io → s.admittedAny = false →
       Yields .pendingStepRelease s fun u =>
         u.clk.pendIo = none ∧ u.clk.chg = some { target := s.fld F.clkState_pending 0, asked := s.cnt } ∧
         u.fld F.clkState_pendvalid 0 = 0) ∧
     (∀ g f, s.clk.chg = some g → g.first = some f → g.switched = false → f + 2048 ≤ s.cnt →
       Yields .dividerSwitch s fun u =>
         u.step_ = g.target % 8 ∧ u.pwr.vcore = min s.pwr.vcore g.target ∧ u.clk.chg = some { g with switched := true, was := s.step_ } ∧
         (s.step_ ≠ g.target → s.fld F.fabSyncctl_root 0 = 0 → u.fld F.ptcState_unsync 0 = 1))) ∧
  (∀ (s : State),
     (s.fld F.clkState_stretch 0 = 0 → Yields .droopTrip s fun u =>
       u.fld F.clkState_stretch 0 = 1 ∧ u.fld F.clkState_catchup 0 = 0 ∧
       u.fld F.clkDroop_events 0 = min (s.fld F.clkDroop_events 0 + 1) (2 ^ 32 - 1) ∧ u.cnt = s.cnt) ∧
     (∀ n, s.fld F.clkState_stretch 0 = 1 → Yields (.stretchEnd n) s fun u =>
       u.fld F.clkState_stretch 0 = 0 ∧ u.fld F.clkState_catchup 0 = 1 ∧
       u.fld F.clkDroop_stretched 0 = min (s.fld F.clkDroop_stretched 0 + n) (2 ^ 32 - 1) ∧
       u.clk.debt = s.clk.debt + 32 * stepDiv s.step_ * n) ∧
     (s.fld F.clkState_catchup 0 = 1 → s.clk.debt = 0 → Yields .catchupEnd s fun u =>
       u.fld F.clkState_catchup 0 = 0 ∧ u.step_ = s.step_) ∧
     (s.fld F.clkState_refok 0 = 1 → Yields .referenceLoss s fun u =>
       u.fld F.clkState_refok 0 = 0 ∧ u.fld F.clkState_holdover 0 = 1 ∧ u.clk.refLost = true ∧ u.fld F.ptcState_unsync 0 = 1 ∧
       ((∃ r < 8, ∃ x, (s.region r).series = some x ∧ x.tree = true) → u.fab.unsyncArr = true)) ∧
     (s.clk.refLost = true → Yields .referenceReturn s fun u =>
       u.fld F.clkState_refok 0 = 1 ∧ u.fld F.clkState_holdover 0 = 0 ∧ u.clk.refLost = false ∧
       u.fld F.ptcState_unsync 0 = (if s.fld F.fabSyncctl_root 0 = 1 then 0 else s.fld F.ptcState_unsync 0)))

/-- The input and the heat: crossings of the input's bands, the reset and the restart they bring; the thermal guards with their holds and
trip, throttling and the removal of the rails (R234, R235, R578, R581 to R583, R587 to R590, R597, R620, R635, R645). -/
def Obligations.InputAndThermal : Prop :=
  (∀ (s : State),
     (∀ vin iin : BitVec 16,
       let b := inputBand vin.toNat
       (b = 4 → s.pwr.stage = true → Yields (.inputBoundaryCrossing vin iin) s fun u =>
         u.pwr.stage = false ∧ u.pwr.rails = {} ∧ u.pwr.offOver = true ∧ u.boot.stage = min s.boot.stage 1 ∧ u.img = none) ∧
       (b ≠ 4 ∨ s.pwr.stage = false → Yields (.inputBoundaryCrossing vin iin) s fun u =>
         u.pwr.stage = s.pwr.stage ∧ u.pwr.vin = vin.toNat ∧ u.pwr.iin = iin.toNat ∧ u.pwr.inputThr = (b == 1) ∧
         u.pwr.window = (if b = 2 then some (s.pwr.window.getD s.milug.time) else none) ∧
         u.pwr.lowAt = (if b = 0 then some (s.pwr.lowAt.getD s.milug.time) else none) ∧
         (inputBand s.pwr.vin ≠ b → s.milug.up = true → u.milug.alert = true))) ∧
     (∀ t, s.pwr.lowAt = some t → s.pwr.stage = true → t + 10000 ≤ s.milug.time →
       Yields .inputLowReset s fun u =>
         u.pwr.stage = false ∧ u.pwr.lowAt = none ∧ u.boot.bootRes = 7 ∧ u.boot.stage = min s.boot.stage 1 ∧ u.img = none ∧
         u.fuses = s.fuses ∧ u.hostMem = s.hostMem) ∧
     (∀ w, s.pwr.window = some w → s.pwr.offOver = true → s.pwr.off = false → s.pwr.latched = false → s.boot.stage = 1 →
       s.pwr.defect = false → w + 100000000 ≤ s.milug.time →
       let late := s.pwr.restarts.filter fun r => decide (s.milug.time < r + 60000000000)
       (late.length < 3 → Yields .powerStageRestart s fun u =>
         u.boot.stage = 2 ∧ u.pwr.stage = true ∧ u.pwr.rails = s.railsOn ∧ u.pwr.vcore = 4 ∧ u.pwr.offOver = false ∧
         u.pwr.restarts = late ++ [s.milug.time]) ∧
       (3 ≤ late.length → Yields .powerStageRestart s fun u =>
         u.pwr.latched = true ∧ u.pwr.stage = s.pwr.stage ∧ u.boot.stage = 1))) ∧
  (∀ (s : State),
     (∀ (guard : Fin 10) (temp : BitVec 8), guard.val < 8 → s.dieAbsent guard = false →
       let old := mget s.pwr.levels guard 0
       let new := max (s.levelFor temp.toNat) (s.levelDown temp.toNat old)
       Yields (.thermalLevelChange guard temp) s fun u =>
         mget u.pwr.temps guard 0 = temp.toNat ∧ mget u.pwr.levels guard 0 = new ∧
         (2 ≤ new → new ≠ old → s.milug.up = true → u.milug.alert = true) ∧
         (new = 3 → new ≠ old →
           u.pwr.therm = true ∧ u.step_ = 4 ∧ u.fld F.secFault_code 0 = 0x06 ∧ ∀ r < 8, u.running r = false)) ∧
     (∀ (guard : Fin 10) (temp : BitVec 8), 8 ≤ guard.val →
       Yields (.thermalLevelChange guard temp) s fun u =>
         mget u.pwr.temps guard 0 = temp.toNat ∧
         mget u.pwr.levels guard 0 = max (s.levelFor temp.toNat) (s.levelDown temp.toNat (mget s.pwr.levels guard 0))) ∧
     (∀ guard : Fin 10, mget s.pwr.levels guard 0 ≠ 0 → (∀ t, mfind s.pwr.guardAt guard = some t → t + 8192 ≤ s.cnt) →
       Yields (.guardHoldTick guard) s fun u =>
         u.reqs = s.reqs ++ [⟨s.cnt, s.cnt + 64, 1024, 6, 0x5000 + guard.val⟩] ∧ mfind u.pwr.guardAt guard = some s.cnt ∧
         u.fld F.pwrThermstat_guardholds 0 = min (s.fld F.pwrThermstat_guardholds 0 + 1) (2 ^ 32 - 1)) ∧
     (s.fld F.pwrCtl_length 0 ≠ 0 → s.anyInv = false → s.pwr.thrAt + 64 ≤ s.cnt + 1 → (∀ q ∈ s.reqs, q.cause = 8 → q.covers (s.cnt + 64) = false) →
       Yields .throttleHold s fun u =>
         u.reqs = s.reqs ++ [⟨s.cnt, s.cnt + 64, 64 * min 1023 (s.fld F.pwrCtl_length 0), 8, 0x6000⟩] ∧ u.regs = s.regs) ∧
     (s.pwr.stage = true → Yields .overtempRailOff s fun u =>
       u.pwr.rails = { s.pwr.rails with vcore := 0 } ∧ u.pwr.cut = true ∧ u.pwr.therm = true ∧ ∀ r < 8, u.running r = false) ∧
     (∀ power : BitVec 16, Yields (.powerCapCrossing power) s fun u =>
       u.pwr.pin = power.toNat ∧
       (s.fld F.pwrCtl_thrman 0 = 0 → (u.throttleDue = true → u.fld F.pwrCtl_length 0 ≠ 0) ∧
         (u.throttleDue = false → u.fld F.pwrCtl_length 0 = 0))))

/-- Gating: a gallery is gated when no region that includes it runs, by a write or by firmware, and wakes with its scratchpads zero;
a bank is gated at once and ungated after 256 cycles, when it reads zero (R579, R580, R591, R592). -/
def Obligations.GalleriesAndBanks : Prop :=
  ∀ (s : State),
    (∀ w (g : Nat) off (val : BitVec 32), g < 192 → s.mayWrite w = true → s.loading = none → s.dieAbsent (dieOf (tileAt g 0)) = false →
      let old := s.fld F.galGate_gate g
      (val.getLsbD 0 = true → old = 0 →
        (s.gateOk g = true → Yields (.galGateWrite w g off val) s fun u =>
          u.fld F.galGate_gate g = 1 ∧ (u.gal g).gatePend = (s.gal g).awake ∧ u.fld F.hstHistate_modified 0 = 1) ∧
        (s.gateOk g = false → Yields (.galGateWrite w g off val) s fun u => u.regs = s.regs ∧ u.gals = s.gals ∧ u.fns = s.fns)) ∧
      (val.getLsbD 0 = false → old = 1 → Yields (.galGateWrite w g off val) s fun u =>
        u.fld F.galGate_gate g = 0 ∧ (u.gal g).gatePend = false ∧ u.fld F.hstHistate_modified 0 = 1 ∧
        (u.gal g).wake = (if (s.gal g).awake then none else some (s.cnt + 16384)))) ∧
    (∀ g, s.fld F.pwrCtl_auto 0 = 1 → s.galPresent g = true → s.img.isSome = true → (s.gal g).awake = true → (s.gal g).gatePend = false →
      s.gateOk g = true →
      ((s.galRec g).region = 0xFF ∨
        (s.region (s.galRec g).region).lastLaunch + 100000 * s.fld F.pwrCtl_idle 0 ≤ s.wall) →
      Yields (.autoGate g) s fun u => u.fld F.galGate_gate g = 1 ∧ (u.gal g).gatePend = true) ∧
    (∀ r : Fin 8, s.pwr.cut = false →
      Yields (.galleryWakeEnd r) s fun u =>
        (∀ g ∈ s.galsOf r, (s.gal g).awake = false → (reachedAt (s.region r).wake s.cnt = true ∨ reachedAt (s.gal g).wake s.cnt = true) →
          (u.gal g).awake = true ∧ u.fld F.galGate_awake g = 1 ∧
          ∀ k < 16, (u.tile (tIx (tileAt g k))).scratch = [] ∧ (u.tile (tIx (tileAt g k))).full = 0) ∧
        (∀ g ∈ s.galsFree, (s.gal g).awake = false → reachedAt (s.gal g).wake s.cnt = true → (u.gal g).awake = true) ∧
        (∀ g ∈ s.galsOf r, (s.gal g).awake = false → reachedAt (s.gal g).wake s.cnt = true → reachedAt (s.region r).wake s.cnt = false →
          (u.region r).plan = none) ∧
        (reachedAt (s.region r).wake s.cnt = true → (u.region r).wake = none)) ∧
    (∀ w t off (val : BitVec 32), s.mayWrite w = true → s.loading = none → s.dieAbsent (dieOf (xyOf (tIx t))) = false →
      let y := tIx t
      let T := s.tile y
      let old := BitVec.ofNat 32 (s.fld F.tilBankgate_gated y)
      (s.tileRuns y = true → Yields (.tilBankgateWrite w t off val) s fun u =>
        u.tiles = s.tiles ∧ u.fld F.tilBankgate_gated y = s.fld F.tilBankgate_gated y) ∧
      (s.tileRuns y = false → Yields (.tilBankgateWrite w t off val) s fun u =>
        u.fld F.tilBankgate_gated y = val.toNat ∧
        ∀ b < 32,
          (val.getLsbD b = true → old.getLsbD b = false → mfind T.ungate b = none → (u.tile y).gateReq.getLsbD b = true) ∧
          (val.getLsbD b = false → old.getLsbD b = true → T.gateReq.getLsbD b = false →
            mfind (u.tile y).ungate b = some (s.cnt + 256)))) ∧
    (∀ t (bank : Fin 32) at_,
      let y := tIx t
      let inBank (a : Nat) : Prop := bankOf (s.modeAt y a) a = bank.val
      mfind (s.tile y).ungate bank = some at_ → at_ ≤ s.cnt →
      Yields (.bankUngateReady t bank) s fun u =>
        (∀ a, (inBank a → rdByte (u.tile y).scratch a = unlisted) ∧ (¬inBank a → rdByte (u.tile y).scratch a = rdByte (s.tile y).scratch a)) ∧
        ∀ k < 4096, (∃ n < 16, inBank (512 * k + 32 * n)) → (u.tile y).full.getLsbD k = false)


/-! ## Chapter 17: start-up, updates, trust -/

/-- The stages of power-up in order, each from the one before, with the fault of each that fails, and the loss of VSTBY (R294, R594,
R602, R604, R605, R613, R620, R635, R644). -/
def Obligations.PowerUpStages : Prop :=
  ∀ (s : State),
    (∀ senseMatch milugOk, s.boot.vstby = false →
      Yields (.vstbyApply senseMatch milugOk) s fun u =>
        u.boot.vstby = true ∧ u.boot.holdup = true ∧ u.milug.up = true ∧ u.milug.fw = (s.milugSlot milugOk).isSome ∧
        (∀ i, s.milugSlot milugOk = some i → u.milug.slot = i) ∧ u.pwr.stage = false ∧
        u.boot.stage = (if senseMatch then 1 else 0) ∧ (senseMatch = false → u.fld F.secFault_code 0 = 0x01)) ∧
    (s.boot.stage = 1 → s.inWindow = true → s.pwr.stage = false → s.pwr.off = false → s.pwr.offOver = false →
      (s.pwr.defect = false → Yields .supplyStage s fun u =>
        u.boot.stage = 2 ∧ u.pwr.stage = true ∧ u.pwr.vcore = 4 ∧
        u.pwr.rails = ⟨u.pwr.rails.vcore, true, true, true, true, true, true⟩ ∧
        (∀ d < 8, u.pwr.rails.vcore.getLsbD d = !s.dieAbsent d) ∧
        (s.fuses.grade = true → u.pwr.rails.vcore.getLsbD 3 = false ∧ u.pwr.rails.vcore.getLsbD 7 = false)) ∧
      (s.pwr.defect = true → Yields .supplyStage s fun u =>
        u.boot.stage = 1 ∧ u.pwr.stage = false ∧ u.milug.supplyFail = true)) ∧
    (∀ passA passB, s.boot.stage = 2 → s.boot.recovery = false →
      let ch := s.chooseSlot
      let pass (i : Nat) : Bool := ch.1.slotPasses (ch.1.boot.slot i) (if i = 0 then passA else passB)
      (∀ i, bootSlot ch.1.boot pass ch.2.1 = some i →
        Yields (.controllerStage passA passB) s fun u =>
          u.boot.stage = 3 ∧ u.boot.firmware = true ∧ u.boot.active = i ∧ u.boot.trial = (ch.2.2.1 && ch.2.1 == some i) ∧
          u.fld F.secBootstat_active 0 = i % 2 ∧
          u.boot.idKey = some s.fuses.idKey ∧
          (∀ n < 4, u.reg .secIdpub n = leNat ((s.fuses.idKey.pub.drop (8 * n)).take 8)) ∧
          (∀ a, ch.1.boot.slotIn 4 = some a → u.boot.trial = true →
            u.boot.area (ch.1.boot.slot a).area = s.boot.area (ch.1.boot.slot a).area ∧
            (u.boot.slot i).area = 1 - (ch.1.boot.slot a).area ∧ (u.boot.area (u.boot.slot i).area).fmt = (ch.1.boot.slot i).setfmt ∧
            (u.boot.area (u.boot.slot i).area).sets = (s.boot.area (ch.1.boot.slot a).area).sets) ∧
          ∀ id, s.milug.heldId = some id → u.fld F.fabId_id 0 = id.toNat ∧ u.fld F.fabId_valid 0 = 1) ∧
      (bootSlot ch.1.boot pass ch.2.1 = none →
        Yields (.controllerStage passA passB) s fun u =>
          u.boot.stage = 2 ∧ u.boot.recovery = true ∧ u.fld F.secFault_code 0 = 0x02 ∧ u.boot.idKey = some s.fuses.idKey)) ∧
    (s.boot.stage = 3 → Yields .rootClockLock s fun u =>
      u.boot.stage = 4 ∧ u.fld F.clkState_refok 0 = 1 ∧ u.clk.refLost = false ∧ u.step_ = s.step_) ∧
    (s.boot.stage = 3 → s.boot.refFault = false → s.boot.stage4At + 100000000 ≤ s.milug.time →
      Yields .referenceWaitTimeout s fun u => u.boot.stage = 3 ∧ u.boot.refFault = true ∧ u.fld F.secFault_code 0 = 0x07) ∧
    (∀ untrained, s.boot.stage = 4 →
      Yields (.dieStage untrained) s fun u =>
        u.boot.stage = 5 ∧ ∀ d < 8, s.dieAbsent d = false → ∀ k < 4,
          (u.fld F.dieXstat_trained d).testBit k =
            (bits (s.fld F.dieXstat_absent d) k k == 0 && !(untrained.contains (d, k) || untrained.contains (farCrossing d k)))) ∧
    (∀ pass, s.boot.stage = 5 →
      Yields (.selfTest pass) s fun u =>
        u.boot.stage = 6 ∧ u.fld F.memStepok_tested 0 = 31 ∧
        (∀ k < 5, (u.fld F.memStepok_ok 0).testBit k = s.channels.all (passesAt pass k)) ∧
        (∀ ch ∈ s.channels,
          (u.chan ch).inUse = mget (u.chan ch).selfSets s.step_ ⟨(s.chan ch).bin, true, 0⟩ ∧ (u.chan ch).useRun = false ∧
          ∀ k < 5, (passesAt pass k ch = true → ∃ t, mfind (u.chan ch).selfSets k = some t ∧ t.bin = (s.chan ch).bin ∧ t.full = true) ∧
            (passesAt pass k ch = false → mfind (u.chan ch).selfSets k = mfind (s.chan ch).selfSets k)) ∧
        (s.channels.all (passesAt pass 4) = false → u.fld F.secFault_code 0 = 0x03)) ∧
    (s.boot.stage = 6 → Yields .moduleReady s fun u =>
      u.boot.stage = 7 ∧ u.ready = true ∧ (s.boot.trial = false → u.boot.okRec = s.fld F.memStepok_ok 0)) ∧
    Yields .vstbyLoss s (fun u =>
      u.boot.vstby = false ∧ u.boot.stage = 0 ∧ u.pwr.stage = false ∧ u.milug.up = false ∧ u.img = none ∧
      u.boot.slotA = s.boot.slotA ∧ u.boot.slotB = s.boot.slotB ∧ u.fuses = s.fuses ∧ u.hostMem = s.hostMem)

/-- The resets of a running module and the end of a trial: what a warm reset leaves, the fault of a watchdog or an ECC error, the
confirmation of a trial, and the reset that ends its window (R597, R598, R612 to R614, R620). -/
def Obligations.ResetsAndTrials : Prop :=
  ∀ (s : State),
    (∀ cause, s.pwr.stage = false ∨ s.boot.stage < 2 → exec (.warmReset cause) s = .next s) ∧
    (s.pwr.stage = true → 2 ≤ s.boot.stage →
      (∀ cause,
        Yields (.warmReset cause) s fun u =>
          u.boot.stage = 2 ∧ u.boot.recovery = false ∧ u.img = none ∧ u.plans = [] ∧ u.regions = [] ∧
          (s.fld F.ptcState_unsync 0 = 1 → u.fns = []) ∧ (∀ fn, u.func fn = if fn = 0 then { held := (u.func 0).held } else {}) ∧
          (∀ y, u.tile y = { scratch := (u.tile y).scratch }) ∧ (∀ y, y ∉ s.begunTiles → u.tile y = {}) ∧
          (∀ a, rdByte u.ext a = if a < annexBase 0 then unlisted else rdByte s.ext a) ∧
          (s.boot.stage ≠ 2 → u.boot.bootRes = causeCode cause) ∧
          u.fuses = s.fuses ∧ u.hostMem = s.hostMem ∧ u.milug = s.milug ∧ u.boot.slotA = s.boot.slotA ∧ u.boot.slotB = s.boot.slotB ∧
          u.pwr.stage = true ∧
          u.fld F.updCtl_window 0 = s.fld F.updCtl_window 0 ∧ u.fld F.updCtl_hostconf 0 = s.fld F.updCtl_hostconf 0 ∧
          u.fld F.secBootstat_boots 0 = s.fld F.secBootstat_boots 0 ∧
          ∀ k i, regKey k i ≠ regKey .updCtl 0 → regKey k i ≠ regKey .secBootstat 0 →
            u.reg k i = State.reg { State.reset with fuses := s.fuses } k i) ∧
      (∀ io, s.boot.firmware = true →
        Yields (.watchdogExpiry io) s fun u => u.boot.stage = 2 ∧ u.fld F.secFault_code 0 = 0x04 ∧ u.fld F.secFault_sticky 0 = 1) ∧
      (∀ io, s.boot.firmware = true ∨ s.boot.recovery = true →
        Yields (.controllerEccError io) s fun u => u.boot.stage = 2 ∧ u.fld F.secFault_code 0 = 0x05 ∧ u.fld F.secFault_sticky 0 = 1) ∧
      (s.boot.trial = true → s.trialEnd ≤ s.milug.time →
        Yields .trialWindowExpiry s fun u => u.boot.stage = 2 ∧ u.boot.bootRes = 5 ∧ u.boot.trial = false)) ∧
    (s.mayConfirm = true → Yields .trialConfirmation s fun u =>
      let i := s.boot.active
      let f := s.boot.slot i
      (u.boot.slot i).state = 4 ∧ (u.boot.slot i).svn = f.svn ∧ u.boot.trial = false ∧ u.boot.okRec = s.fld F.memStepok_ok 0 ∧
      ((s.boot.slot (1 - i)).state = 4 → (u.boot.slot (1 - i)).state = 5) ∧ u.boot.seq = s.boot.seq + 1 ∧
      u.fuses.arb = s.fuses.arb ||| BitVec.ofNat 64 (2 ^ f.svn - 1) ∧
      u.fuses.keyrev = if f.revoke then s.fuses.keyrev ||| BitVec.ofNat 2 (2 ^ (1 - f.keyslot)) else s.fuses.keyrev)

/-- The update commands: the first check of R609 that fails gives the status; a manifest that verifies stages a slot, blocks are
written and checked, a whole slot that passes is activated by a reset, once its requests have been handed over (R609 to R612). -/
def Obligations.FirmwareUpdates : Prop :=
  ∀ (s : State) (c : Cmd),
    let p := s.popCmd c
    (∀ addr len sigOk, s.begins (.updBegin c addr len sigOk) c 0x0300 false →
      let st := p.updCheck p.beginOut
      let b := rdBytes s.hostMem addr.toNat len.toNat
      let i := if s.boot.slotA.state = 4 then 1 else 0
      (st ≠ 0 → Answers (.updBegin c addr len sigOk) c s fun u => Completed s u c 0x0300 st ∧ u.boot = s.boot) ∧
      (st = 0 → p.fwPass 0 false addr.toNat len.toNat = true →
        (p.manPasses b sigOk = false → Answers (.updBegin c addr len sigOk) c s fun u => Completed s u c 0x0300 0x00A5 ∧ u.boot = s.boot) ∧
        (p.manPasses b sigOk = true → Answers (.updBegin c addr len sigOk) c s fun u =>
          Completed s u c 0x0300 0 ∧ u.boot.slot i = slotFrom b (s.boot.slot i) ∧ u.boot.slot (1 - i) = s.boot.slot (1 - i) ∧
          u.boot.seq = s.boot.seq + 1))) ∧
    (∀ (block : BitVec 16) crc addr, s.begins (.updBlock c block crc addr) c 0x0301 false →
      let st := p.updCheck p.stageOut
      let k := block.toNat
      (st ≠ 0 → Answers (.updBlock c block crc addr) c s fun u => Completed s u c 0x0301 st ∧ u.boot = s.boot) ∧
      (∀ i, st = 0 → s.boot.staged = some i → 0 < k → k ≤ (s.boot.slot i).blocks → p.fwPass 0 false addr.toNat 65536 = true →
        memWf (s.boot.slot i).data = true →
        let b := rdBytes s.hostMem addr.toNat 65536
        Answers (.updBlock c block crc addr) c s fun u =>
          Completed s u c 0x0301 (if crc32c b = crc then 0 else 0x00A3) ∧
          Stored (s.boot.slot i).data (u.boot.slot i).data (65536 * (k - 1)) b ∧
          ((u.boot.slot i).written.contains k = true ↔ crc32c b = crc) ∧
          (u.boot.slot i).state = if (u.boot.slot i).whole then 2 else 1)) ∧
    (∀ sigOk, s.begins (.updActivate c sigOk) c 0x0302 false →
      let st := p.updCheck p.stageOut
      (st ≠ 0 → Answers (.updActivate c sigOk) c s fun u => Completed s u c 0x0302 st ∧ u.boot = s.boot) ∧
      (∀ i, st = 0 → s.boot.staged = some i →
        let f := s.boot.slot i
        let good := p.manPasses f.manifest sigOk && f.partsOk
        (good = false → Answers (.updActivate c sigOk) c s fun u => Completed s u c 0x0302 0x00A6 ∧ u.boot = s.boot) ∧
        (good = true → p.heldRids = [] → s.pwr.stage = true → 2 ≤ s.boot.stage →
          Answers (.updActivate c sigOk) c s fun u =>
            u.boot.stage = 2 ∧ u.boot.slot i = { f with state := 3, tried := false } ∧ u.boot.seq = s.boot.seq + 1 ∧ u.img = none) ∧
        (good = true → p.heldRids ≠ [] → s.pairState ≠ 4 ∨ s.handing = true →
          Answers (.updActivate c sigOk) c s fun u => Completed s u c 0x0302 0x00A7 ∧ u.boot = s.boot) ∧
        (good = true → p.heldRids ≠ [] → s.pairState = 4 → s.handing = false → ∀ r, p.firstServing = some r →
          Answers (.updActivate c sigOk) c s fun u =>
            u.mir.updAct = some c ∧ u.mir.giveRids = p.heldRids ∧ u.boot = s.boot ∧ (∀ g ∈ u.engs, g.2.fencedOut = true) ∧
            (p.leader = true → u.mir.handover = some (p.handStep r) ∧ u.mir.giving = true) ∧
            (p.leader = false → u.mir.handover = none ∧ u.mir.giving = false)))) ∧
    (s.begins (.updAbort c) c 0x0303 false →
      (∀ i, s.boot.staged = some i →
        Answers (.updAbort c) c s fun u =>
          Completed s u c 0x0303 0 ∧ u.boot.slot i = { s.boot.slot i with state := 0 } ∧ u.boot.seq = s.boot.seq + 1) ∧
      (s.boot.staged = none →
        Answers (.updAbort c) c s fun u => Completed s u c 0x0303 0x00A4 ∧ u.boot = s.boot)) ∧
    (s.begins (.updConfirm c) c 0x0304 false →
      (s.boot.trial = true → Answers (.updConfirm c) c s fun u =>
        Completed s u c 0x0304 0 ∧ u.boot = { s.boot with hostConf := true }) ∧
      (s.boot.trial = false → Answers (.updConfirm c) c s fun u => Completed s u c 0x0304 0x00A4 ∧ u.boot = s.boot))

/-- ATTEST, POLICY and OWNER_SET: the report is stored when it fits; an accepted policy is installed, another refused with 0x00AA; the
owner's key is fused once (R616, R617, R619). -/
def Obligations.TrustCommands : Prop :=
  ∀ (s : State) (c : Cmd),
    let p := s.popCmd c
    (∀ nonce addr (len : BitVec 32), s.begins (.attest c nonce addr len) c 0x0310 false →
      let r := p.report nonce ++ (List.range 17088).map fun i => Config.sigByte (2 * s.freeCtr + 1) i
      (len.toNat < r.length → Answers (.attest c nonce addr len) c s fun u => Completed s u c 0x0310 0x00A8 ∧ u.hostMem = s.hostMem) ∧
      (r.length ≤ len.toNat →
        (p.fwPass 0 true addr.toNat r.length = false →
          Answers (.attest c nonce addr len) c s fun u => Completed s u c 0x0310 0x0013 ∧ u.hostMem = s.hostMem) ∧
        (p.fwPass 0 true addr.toNat r.length = true → memWf s.hostMem = true →
          Answers (.attest c nonce addr len) c s fun u =>
            Completed s u c 0x0310 0 ∧ Stored s.hostMem u.hostMem addr.toNat r ∧ u.regs = s.regs))) ∧
    (∀ addr sigOk, s.begins (.policy c addr sigOk) c 0x0311 false →
      let b := rdBytes s.hostMem addr.toNat policyBytes
      (p.fwPass 0 false addr.toNat policyBytes = false →
        Answers (.policy c addr sigOk) c s fun u => Completed s u c 0x0311 0x0013 ∧ u.boot = s.boot) ∧
      (p.fwPass 0 false addr.toNat policyBytes = true →
        (p.policyOk b sigOk = false →
          Answers (.policy c addr sigOk) c s fun u => Completed s u c 0x0311 0x00AA ∧ u.boot = s.boot ∧ u.fuses = s.fuses ∧ u.regs = s.regs) ∧
        (p.policyOk b sigOk = true →
          Answers (.policy c addr sigOk) c s fun u =>
            Completed s u c 0x0311 0 ∧ u.boot.policy = b ∧ u.fld F.secPolicy_seq 0 = manAt b 8 4 ∧
            u.fuses.ownlock = (s.fuses.ownlock || bits (manAt b 6 2) 2 2 == 1) ∧
            u.fuses.debugdis = (s.fuses.debugdis || bits (manAt b 6 2) 3 3 == 1)))) ∧
    (∀ hash, s.begins (.ownerSet c hash) c 0x0312 false →
      (s.fuses.ownset = true → Answers (.ownerSet c hash) c s fun u => Completed s u c 0x0312 0x00AB ∧ u.fuses = s.fuses) ∧
      (s.fuses.ownset = false → Answers (.ownerSet c hash) c s fun u =>
        Completed s u c 0x0312 0 ∧ u.fuses = { s.fuses with ownkey := hash, ownset := true }))

/-! ## Chapter 18: the management bus -/

/-- Milug's commands: nothing before Milug runs; then each one's response and effect (R395, R396, R594, R597, R617, R642 to R645). -/
def Obligations.ManagementBus : Prop :=
  ∀ (s : State),
    let Says (i : Instr) (status : Nat) (data : List Byte) (P : State → Prop) : Prop :=
      Yields i s fun u => u.milug.resp = s.milug.resp ++ [(status, data)] ∧ P u
    (s.milug.up = false → ∀ i, (i ∈ [Instr.ident, .telem, .reset, .fault, .alertack] ∨ (∃ id, i = .setId id) ∨ (∃ n, i = .power n) ∨
      (∃ h, i = .milugOwnerSet h) ∨ (∃ o d, i = .policyData o d) ∨ (∃ k, i = .policyCommit k)) → exec i s = .next s) ∧
    (s.milug.up = true →
      Says .ident 0 (leBytes 1 (if s.fuses.grade then 0x0B else 0x0A) ++ leBytes 1 s.fuses.stepping ++ leBytes 8 Config.serial.toNat
        ++ leBytes 1 s.fuses.svn ++ leBytes 4 (s.reg .fabId 0)) (fun u => u.regs = s.regs ∧ u.boot = s.boot) ∧
      Says .telem 0 (leBytes 8 s.pwrInputWord ++ leBytes 2 (bits s.thermWord 55 42) ++ leBytes 4 (s.reg .clkState 0))
        (fun u => u.regs = s.regs ∧ u.pwr = s.pwr) ∧
      Says .fault 0 (leBytes 4 (s.reg .secFault 0) ++ leBytes 8 (s.reg .secBootstat 0) ++ leBytes 1 (b2n s.milug.fw + 2 * b2n s.milug.supplyFail))
        (fun u => u.regs = s.regs ∧ u.boot = s.boot) ∧
      Says .alertack 0 [] (fun u => u.milug.alert = false ∧ u.regs = s.regs) ∧
      (∀ id : BitVec 20,
        (s.boot.firmware = false → Says (.setId id) 0 [] fun u => u.milug.heldId = some id ∧ u.regs = s.regs) ∧
        (s.boot.firmware = true → (∀ p < 32, s.portState p ≤ 1) →
          Says (.setId id) 0 [] fun u => u.fld F.fabId_id 0 = id.toNat ∧ u.fld F.fabId_valid 0 = 1) ∧
        (s.boot.firmware = true → (∃ p < 32, 1 < s.portState p) →
          Says (.setId id) 2 [] fun u => u.reg .fabId 0 = s.reg .fabId 0)) ∧
      (Says (.power 0) 0 [] fun u => u.pwr.stage = false ∧ u.pwr.off = true ∧ u.boot.stage = min s.boot.stage 1 ∧ u.img = none) ∧
      (s.inWindow = false → Says (.power 1) 2 [] fun u => u.pwr = s.pwr ∧ u.boot = s.boot) ∧
      (s.inWindow = true → Says (.power 1) 0 [] fun u =>
        u.pwr.off = false ∧ u.pwr.latched = false ∧ u.pwr.restarts = [] ∧
        (s.boot.stage = 1 → s.pwr.stage = false → s.pwr.defect = false → u.boot.stage = 2 ∧ u.pwr.stage = true ∧ u.pwr.rails = s.railsOn)) ∧
      (∀ n : BitVec 8, n ≠ 0 → n ≠ 1 → Says (.power n) 3 [] fun u => u.pwr = s.pwr ∧ u.boot = s.boot) ∧
      (s.pwr.stage = false → Says .reset 2 [] fun u => u.boot = s.boot ∧ u.regs = s.regs) ∧
      (s.pwr.stage = true → 2 ≤ s.boot.stage → Says .reset 0 [] fun u =>
        u.boot.stage = 2 ∧ u.img = none ∧ (s.boot.stage ≠ 2 → u.boot.bootRes = 6)) ∧
      (∀ hash,
        (s.fuses.ownset = true ∨ s.pwr.stage = false → Says (.milugOwnerSet hash) 2 [] fun u => u.fuses = s.fuses) ∧
        (s.fuses.ownset = false → s.pwr.stage = true →
          Says (.milugOwnerSet hash) 0 [] fun u => u.fuses = { s.fuses with ownkey := hash, ownset := true })) ∧
      (∀ (off : BitVec 16) data,
        (data.length = 0 ∨ 192 < data.length ∨ policyBytes < off.toNat + data.length →
          Says (.policyData off data) 3 [] fun u => u.milug.staging = s.milug.staging) ∧
        (0 < data.length → data.length ≤ 192 → off.toNat + data.length ≤ policyBytes → memWf s.milug.staging = true →
          Says (.policyData off data) 0 [] fun u => Stored s.milug.staging u.milug.staging off.toNat data)) ∧
      (∀ sigOk,
        let b := rdBytes s.milug.staging 0 policyBytes
        (s.pwr.stage = false ∨ s.boot.firmware = false → Says (.policyCommit sigOk) 2 [] fun u => u.boot = s.boot ∧ u.fuses = s.fuses) ∧
        (s.pwr.stage = true → s.boot.firmware = true →
          (s.policyOk b sigOk = true → Says (.policyCommit sigOk) 0 (leBytes 2 0) fun u => u.boot.policy = b) ∧
          (s.policyOk b sigOk = false → Says (.policyCommit sigOk) 0 (leBytes 2 0x00AA) fun u => u.boot = s.boot ∧ u.regs = s.regs))))

/-! ## The registers at reset -/

/-- After reset every field of every register whose Reset column gives a value holds it, bits outside the fields read zero, the step is P4
and the module has not begun to start (chapter 00: Access and Reset columns; R18, R565, R594). -/
def Obligations.ResetRegisters : Prop :=
  (∀ (k : RegKind) (i n : Nat) (f : Fld), f ∈ k.fields → f.rst = .val n → State.reset.fld f i = n) ∧
  (∀ (k : RegKind) (i b : Nat), i < k.count → (∀ f ∈ k.fields, b < f.lo ∨ f.hi < b) → (State.reset.reg k i).testBit b = false) ∧
  State.reset.step_ = 4 ∧ State.reset.boot.stage = 0 ∧ State.reset.ready = false ∧ State.reset.img = none ∧ State.reset.plans = []

/-! ## Frames: what the commands leave as it was -/

/-- No command changes the queue of the commands that wait (notes/assumptions/1.md); a reset, whatever asks for it, keeps the fuses, the
host's memory, the firmware slots and the policy (an activation's reset changes the slot it activates: `FirmwareUpdates`). -/
def Obligations.QueueAndFusesStay : Prop :=
  ∀ (i : Instr) (s u : State), exec i s = .next u →
    u.pending = s.pending ∧
    ((i ∈ [Instr.inputLowReset, .reset, .trialWindowExpiry, .vstbyLoss] ∨ (∃ c, i = .warmReset c) ∨ (∃ v a, i = .inputBoundaryCrossing v a) ∨
        (∃ n, i = .power n) ∨ (∃ io, i = .watchdogExpiry io) ∨ (∃ io, i = .controllerEccError io)) →
      u.fuses = s.fuses ∧ u.hostMem = s.hostMem ∧ u.boot.slotA = s.boot.slotA ∧ u.boot.slotB = s.boot.slotB ∧ u.boot.policy = s.boot.policy)

/-- The commands of tiles and mesh, and those of queues, external memory, plan time, DMA, loads and rings, leave every part of the state they
do not reach (chapters 01 to 09). -/
def Obligations.TileAndPlanFrame : Prop :=
  (∀ (i : Instr) (s u : State), exec i s = .next u → u = frameTiles i s u) ∧
  (∀ (i : Instr) (s u : State), exec i s = .next u → u = framePlan i s u)

/-- The register writes and the commands of link and fabric, and those of serving, weights, pairs, power, start-up and the management bus,
leave every part of the state they do not reach (chapters 10, 11 and 13 to 18). -/
def Obligations.LinkAndServiceFrame : Prop :=
  (∀ (i : Instr) (s u : State), exec i s = .next u → u = frameLinks i s u) ∧
  (∀ (i : Instr) (s u : State), exec i s = .next u → u = frameServices i s u)

/-- Within the tiles, every command changes only the fields it is for: a scalar register or predicate by a writeback alone, a vector register
by a row's write, an accumulator by a leaf or a drain, scratchpad bytes by the commands that store, all apart from starts and resets. -/
def Obligations.TileFieldsFrame : Prop :=
  ∀ (i : Instr) (s u : State) (y : Nat), exec i s = .next u → u.tile y = frameTile i (s.tile y) (u.tile y)

/-- A command of one tile leaves every other tile as it was, but for INVOCATION_END with a launch queued on the tile's region, which can
install the next plan on the region's tiles; an operation, an engine's row or a writeback leaves every register of the module but those of
`opRegs`. -/
def Obligations.OneTileFrame : Prop :=
  ∀ (i : Instr) (t : Xy) (s u : State), tileOf i = some t → exec i s = .next u →
    ((i = .invocationEnd t → ∀ L ∈ s.fab.launches, L.region = s.regionOf t → L.queued = false) →
      ∀ y, y ≠ tIx t → u.tile y = s.tile y) ∧
    (∀ y, y ≠ tIx t → y ∉ (s.tilesOf (s.regionOf t)).map tIx → u.tile y = s.tile y) ∧
    (opTile i = some t → ∀ k n, n < 2 ^ 32 → (k, n) ∉ opRegs t → u.reg k n = s.reg k n)
end

