-- ==== Sys2Proof/Laws/Maps.lean ====
section
/-! SUPPORT. Laws of the sparse maps and of memory: reading after a write, and the canonical form every write keeps. -/

namespace Sys2Proof.Machine

variable {α : Type}

/-! ## Sparse maps -/

@[simp] theorem mfind_nil (k : Nat) : mfind ([] : SMap α) k = none := rfl

@[simp] theorem mget_nil (k : Nat) (d : α) : mget ([] : SMap α) k d = d := rfl

/-- Finding after a `mput`: the value put at its key, what was there at every other. -/
theorem mfind_mput (m : SMap α) (k j : Nat) (v : α) : mfind (mput m k v) j = if j = k then some v else mfind m j := by
  induction m with
  | nil => simp only [mput, mfind, eq_comm]
  | cons p m ih =>
    obtain ⟨k', v'⟩ := p
    unfold mput
    split
    · simp only [mfind, eq_comm (a := k)]
    · split
      · subst_vars; simp only [mfind]; split <;> simp_all [eq_comm]
      · simp only [mfind]
        split
        · split
          · simp_all
          · rfl
        · exact ih

@[simp] theorem mfind_mput_same (m : SMap α) (k : Nat) (v : α) : mfind (mput m k v) k = some v := by simp [mfind_mput]

theorem mfind_mput_ne (m : SMap α) {k j : Nat} (v : α) (h : j ≠ k) : mfind (mput m k v) j = mfind m j := by
  simp [mfind_mput, h]

@[simp] theorem mget_mput_same (m : SMap α) (k : Nat) (v d : α) : mget (mput m k v) k d = v := by simp [mget]

theorem mget_mput_ne (m : SMap α) {k j : Nat} (v d : α) (h : j ≠ k) : mget (mput m k v) j d = mget m j d := by
  simp [mget, mfind_mput_ne m v h]

/-- The head of a map whose keys rise is below every later key. -/
theorem keysRise_cons {k : Nat} {v : α} {m : SMap α} :
    keysRise ((k, v) :: m) = true ↔ (∀ p ∈ m, k < p.1) ∧ keysRise m = true := by
  induction m generalizing k v with
  | nil => simp [keysRise]
  | cons p m ih =>
    obtain ⟨k', v'⟩ := p
    simp only [keysRise, Bool.and_eq_true, decide_eq_true_eq, List.mem_cons, forall_eq_or_imp]
    constructor
    · rintro ⟨h1, h2⟩
      have h3 := (ih (k := k') (v := v')).1 h2
      exact ⟨⟨h1, fun q hq => h1.trans (h3.1 q hq)⟩, h2⟩
    · rintro ⟨⟨h1, _⟩, h2⟩; exact ⟨h1, h2⟩

theorem mem_mput {m : SMap α} {k : Nat} {v : α} {p : Nat × α} (h : p ∈ mput m k v) : p = (k, v) ∨ p ∈ m := by
  induction m with
  | nil => simpa [mput] using h
  | cons q m ih =>
    obtain ⟨k', v'⟩ := q
    unfold mput at h
    split at h
    · simpa using h
    · split at h
      · rcases List.mem_cons.1 h with h | h
        · exact .inl h
        · exact .inr (List.mem_cons_of_mem _ h)
      · rcases List.mem_cons.1 h with h | h
        · exact .inr (h ▸ List.mem_cons_self)
        · rcases ih h with h | h
          · exact .inl h
          · exact .inr (List.mem_cons_of_mem _ h)

theorem mem_mdel {m : SMap α} {k : Nat} {p : Nat × α} (h : p ∈ mdel m k) : p ∈ m := by
  induction m with
  | nil => simp [mdel] at h
  | cons q m ih =>
    obtain ⟨k', v'⟩ := q
    unfold mdel at h
    split at h
    · exact List.mem_cons_of_mem _ h
    · rcases List.mem_cons.1 h with h | h
      · exact h ▸ List.mem_cons_self
      · exact List.mem_cons_of_mem _ (ih h)

/-- `mput` keeps the keys strictly rising. -/
theorem keysRise_mput {m : SMap α} (k : Nat) (v : α) (h : keysRise m = true) : keysRise (mput m k v) = true := by
  induction m with
  | nil => rfl
  | cons q m ih =>
    obtain ⟨k', v'⟩ := q
    have h' := keysRise_cons.1 h
    unfold mput
    split
    · rename_i hk
      exact keysRise_cons.2 ⟨fun p hp => by
        rcases List.mem_cons.1 hp with rfl | hp
        · exact hk
        · exact hk.trans (h'.1 p hp), h⟩
    · split
      · subst_vars; exact keysRise_cons.2 h'
      · refine keysRise_cons.2 ⟨fun p hp => ?_, ih h'.2⟩
        rcases mem_mput hp with rfl | hp
        · simp only; omega
        · exact h'.1 p hp

/-- `mdel` keeps the keys strictly rising. -/
theorem keysRise_mdel {m : SMap α} (k : Nat) (h : keysRise m = true) : keysRise (mdel m k) = true := by
  induction m with
  | nil => rfl
  | cons q m ih =>
    obtain ⟨k', v'⟩ := q
    have h' := keysRise_cons.1 h
    unfold mdel
    split
    · exact h'.2
    · exact keysRise_cons.2 ⟨fun p hp => h'.1 p (mem_mdel hp), ih h'.2⟩

theorem mfind_lt {m : SMap α} {k : Nat} (h : ∀ p ∈ m, k < p.1) : mfind m k = none := by
  induction m with
  | nil => rfl
  | cons q m ih =>
    obtain ⟨k', v'⟩ := q
    have := h (k', v') List.mem_cons_self
    simp only [mfind]
    rw [if_neg (by simp only at this; omega)]
    exact ih fun p hp => h p (List.mem_cons_of_mem _ hp)

/-- Finding after a `mdel` in a map whose keys rise. -/
theorem mfind_mdel {m : SMap α} (k j : Nat) (h : keysRise m = true) :
    mfind (mdel m k) j = if j = k then none else mfind m j := by
  induction m with
  | nil => simp [mdel]
  | cons q m ih =>
    obtain ⟨k', v'⟩ := q
    have h' := keysRise_cons.1 h
    unfold mdel
    split
    · subst_vars
      split
      · subst_vars; exact mfind_lt h'.1
      · simp only [mfind]; rw [if_neg (by omega)]
    · simp only [mfind]
      split
      · rw [if_neg (by omega)]
      · exact ih h'.2

/-- Finding in the part of a map whose keys a test accepts. -/
theorem mfind_filter {α : Type} (p : Nat → Bool) (m : SMap α) (k : Nat) :
    mfind (m.filter fun c => p c.1) k = if p k then mfind m k else none := by
  induction m with
  | nil => cases p k <;> rfl
  | cons c m ih =>
    obtain ⟨j, v⟩ := c
    by_cases h : j = k
    · subst h
      cases hp : p j <;> simp_all [mfind]
    · cases hp : p j <;> simp_all [mfind]

/-- Such a part keeps the keys strictly rising. -/
theorem keysRise_filter {α : Type} (p : Nat → Bool) {m : SMap α} (h : keysRise m = true) :
    keysRise (m.filter fun c => p c.1) = true := by
  induction m with
  | nil => rfl
  | cons c m ih =>
    obtain ⟨hc, hm⟩ := keysRise_cons.1 h
    rw [List.filter_cons]
    split
    · exact keysRise_cons.2 ⟨fun q hq => hc q (List.mem_filter.1 hq).1, ih hm⟩
    · exact ih hm

/-! ## Memory -/

/-- A byte written keeps the memory in its canonical form. -/
theorem memWf_wrByte {m : List Host.Cell} (a : Nat) (b : Byte) (h : memWf m = true) : memWf (wrByte m a b) = true := by
  simp only [memWf, Bool.and_eq_true, List.all_eq_true, decide_eq_true_eq] at h ⊢
  unfold wrByte
  split
  · exact ⟨keysRise_mdel a h.1, fun p hp => h.2 p (mem_mdel hp)⟩
  · rename_i hb
    refine ⟨keysRise_mput a b h.1, fun p hp => ?_⟩
    rcases mem_mput hp with rfl | hp
    · exact hb
    · exact h.2 p hp

/-- Bytes written keep the memory in its canonical form. -/
theorem memWf_wrBytes {m : List Host.Cell} (a : Nat) (bs : List Byte) (h : memWf m = true) :
    memWf (wrBytes m a bs) = true := by
  induction bs generalizing m a with
  | nil => exact h
  | cons b bs ih => exact ih (a + 1) (memWf_wrByte a b h)

/-- A memory cut to the addresses a test accepts reads as before there, and as unlisted elsewhere. -/
theorem rdByte_filter (p : Nat → Bool) (m : List Host.Cell) (a : Nat) :
    rdByte (m.filter fun c => p c.1) a = if p a then rdByte m a else unlisted := by
  unfold rdByte mget
  rw [mfind_filter]
  split <;> rfl

theorem memWf_filter (p : Nat → Bool) {m : List Host.Cell} (h : memWf m = true) : memWf (m.filter fun c => p c.1) = true := by
  simp only [memWf, Bool.and_eq_true, List.all_eq_true] at h ⊢
  exact ⟨keysRise_filter p h.1, fun c hc => h.2 c (List.mem_filter.1 hc).1⟩

/-- Bytes cleared keep the memory in its canonical form. -/
theorem memWf_memClear {m : List Host.Cell} (a n : Nat) (h : memWf m = true) : memWf (memClear m a n) = true :=
  memWf_filter (fun k => !(decide (a ≤ k) && decide (k < a + n))) h

/-- Reading after bytes are cleared. -/
theorem rdByte_memClear (m : List Host.Cell) (a n j : Nat) :
    rdByte (memClear m a n) j = if a ≤ j ∧ j < a + n then unlisted else rdByte m j := by
  rw [memClear, rdByte_filter fun k => !(decide (a ≤ k) && decide (k < a + n))]
  by_cases hj : a ≤ j ∧ j < a + n
  · simp [hj]
  · have : j < a ∨ a + n ≤ j := by omega
    simp [hj, this]

/-- Reading after a byte is written. -/
theorem rdByte_wrByte {m : List Host.Cell} (a j : Nat) (b : Byte) (h : memWf m = true) :
    rdByte (wrByte m a b) j = if j = a then b else rdByte m j := by
  simp only [memWf, Bool.and_eq_true] at h
  unfold wrByte rdByte mget
  split
  · rw [mfind_mdel a j h.1]; split <;> simp_all
  · rw [mfind_mput]; split <;> rfl

/-- Reading after bytes are written: the bytes where they lie, what was there everywhere else. -/
theorem rdByte_wrBytes {m : List Host.Cell} (a j : Nat) (bs : List Byte) (h : memWf m = true) :
    rdByte (wrBytes m a bs) j = if a ≤ j ∧ j < a + bs.length then bs.getD (j - a) 0 else rdByte m j := by
  induction bs generalizing m a with
  | nil => simp only [wrBytes, List.length_nil]; rw [if_neg (by omega)]
  | cons b bs ih =>
    simp only [wrBytes, List.length_cons]
    rw [ih (a + 1) (memWf_wrByte a b h), rdByte_wrByte a j b h]
    by_cases h1 : j = a
    · subst h1
      rw [if_neg (by omega), if_pos rfl, if_pos (by omega)]; simp
    · by_cases h2 : a ≤ j ∧ j < a + (bs.length + 1)
      · obtain ⟨n, hn⟩ : ∃ n, j - a = n + 1 := ⟨j - a - 1, by omega⟩
        rw [if_pos (by omega), if_pos h2, hn, show j - (a + 1) = n by omega]; simp
      · rw [if_neg (by omega), if_neg h1, if_neg h2]

/-- The empty memory reads as unlisted everywhere. -/
@[simp] theorem rdByte_nil (a : Nat) : rdByte [] a = unlisted := rfl

@[simp] theorem rdBytes_length (m : List Host.Cell) (a n : Nat) : (rdBytes m a n).length = n := by simp [rdBytes]

/-- Bytes cut out of bytes that were read are the bytes read there. -/
theorem rdBytes_slice (m : List Host.Cell) (a n o w : Nat) (h : o + w ≤ n) : ((rdBytes m a n).drop o).take w = rdBytes m (a + o) w := by
  apply List.ext_getElem
  · simp; omega
  · intro i h1 h2; simp [rdBytes]; congr 1; omega

@[simp] theorem leBytes_length (n v : Nat) : (leBytes n v).length = n := by
  induction n generalizing v with
  | zero => rfl
  | succ n ih => simp [leBytes, ih]

/-- Little-endian bytes spell the number they were made from. -/
theorem leNat_leBytes (n v : Nat) : leNat (leBytes n v) = v % 256 ^ n := by
  induction n generalizing v with
  | zero => simp [leBytes, leNat, Nat.mod_one]
  | succ n ih =>
    have h : v % 256 ^ (n + 1) = v % 256 + 256 * (v / 256 % 256 ^ n) := by rw [Nat.pow_succ', Nat.mod_mul]
    rw [leBytes, leNat, ih, BitVec.toNat_ofNat, h]

end Sys2Proof.Machine
end

