-- ==== Sys2Proof/Laws/State.lean ====
section
/-! SUPPORT. Laws of the state's updates: what each leaves as it was, field by field, and what reading the part it changes gives.
No later proof need unfold a record update. -/

namespace Sys2Proof.Machine

/-- `State.setReg` leaves every other field of the state. -/
@[simp] theorem State.setReg_fields (s : State) (k : RegKind) (i v : Nat) :
    (s.setReg k i v).pending = s.pending ∧ (s.setReg k i v).reqs = s.reqs ∧ (s.setReg k i v).park = s.park ∧
    (s.setReg k i v).hold = s.hold ∧ (s.setReg k i v).regions = s.regions ∧ (s.setReg k i v).tiles = s.tiles ∧
    (s.setReg k i v).gals = s.gals ∧ (s.setReg k i v).mpkts = s.mpkts ∧ (s.setReg k i v).accs = s.accs ∧
    (s.setReg k i v).chans = s.chans ∧ (s.setReg k i v).anx = s.anx ∧ (s.setReg k i v).ext = s.ext ∧
    (s.setReg k i v).hostMem = s.hostMem ∧ (s.setReg k i v).dma = s.dma ∧ (s.setReg k i v).bankOut = s.bankOut ∧
    (s.setReg k i v).fns = s.fns ∧ (s.setReg k i v).irqs = s.irqs ∧ (s.setReg k i v).img = s.img ∧
    (s.setReg k i v).loading = s.loading ∧ (s.setReg k i v).plans = s.plans ∧ (s.setReg k i v).links = s.links ∧
    (s.setReg k i v).fab = s.fab ∧ (s.setReg k i v).engs = s.engs ∧ (s.setReg k i v).wts = s.wts ∧
    (s.setReg k i v).mir = s.mir ∧ (s.setReg k i v).clk = s.clk ∧ (s.setReg k i v).pwr = s.pwr ∧
    (s.setReg k i v).boot = s.boot ∧ (s.setReg k i v).milug = s.milug ∧ (s.setReg k i v).fuses = s.fuses ∧
    (s.setReg k i v).occ = s.occ ∧ (s.setReg k i v).boundaryAsk = s.boundaryAsk ∧ (s.setReg k i v).scanAt = s.scanAt ∧
    (s.setReg k i v).scans = s.scans ∧ (s.setReg k i v).vfs = s.vfs ∧ (s.setReg k i v).scanDue = s.scanDue ∧
    (s.setReg k i v).written = s.written ∧ (s.setReg k i v).heldRuns = s.heldRuns ∧ (s.setReg k i v).nextId = s.nextId ∧
    (s.setReg k i v).freeCtr = s.freeCtr :=
  by and_intros <;> rfl

/-- What is read elsewhere is as it was. -/
@[simp] theorem State.setReg_reads (s : State) (k : RegKind) (i v : Nat) :
    (∀ m, (s.setReg k i v).tile m = s.tile m) ∧ (∀ m, (s.setReg k i v).region m = s.region m) ∧
    (∀ m, (s.setReg k i v).gal m = s.gal m) ∧ (∀ m, (s.setReg k i v).chan m = s.chan m) ∧
    (∀ m, (s.setReg k i v).annex m = s.annex m) ∧ (∀ m, (s.setReg k i v).dmaCh m = s.dmaCh m) ∧
    (∀ m, (s.setReg k i v).func m = s.func m) ∧ (∀ m, (s.setReg k i v).link m = s.link m) ∧
    (∀ m, (s.setReg k i v).eng m = s.eng m) ∧ (∀ m, (s.setReg k i v).fdie m = s.fdie m) ∧ (s.setReg k i v).ready = s.ready ∧
    (s.setReg k i v).mode = s.mode ∧ (s.setReg k i v).expert = s.expert ∧ (∀ r, (s.setReg k i v).running r = s.running r) ∧
    (s.setReg k i v).anyRunning = s.anyRunning ∧ (∀ c, (s.setReg k i v).heldAt c = s.heldAt c) :=
  by and_intros <;> intros <;> rfl

/-- `State.setFld` leaves every other field of the state. -/
@[simp] theorem State.setFld_fields (s : State) (f : Fld) (i v : Nat) :
    (s.setFld f i v).pending = s.pending ∧ (s.setFld f i v).reqs = s.reqs ∧ (s.setFld f i v).park = s.park ∧
    (s.setFld f i v).hold = s.hold ∧ (s.setFld f i v).regions = s.regions ∧ (s.setFld f i v).tiles = s.tiles ∧
    (s.setFld f i v).gals = s.gals ∧ (s.setFld f i v).mpkts = s.mpkts ∧ (s.setFld f i v).accs = s.accs ∧
    (s.setFld f i v).chans = s.chans ∧ (s.setFld f i v).anx = s.anx ∧ (s.setFld f i v).ext = s.ext ∧
    (s.setFld f i v).hostMem = s.hostMem ∧ (s.setFld f i v).dma = s.dma ∧ (s.setFld f i v).bankOut = s.bankOut ∧
    (s.setFld f i v).fns = s.fns ∧ (s.setFld f i v).irqs = s.irqs ∧ (s.setFld f i v).img = s.img ∧
    (s.setFld f i v).loading = s.loading ∧ (s.setFld f i v).plans = s.plans ∧ (s.setFld f i v).links = s.links ∧
    (s.setFld f i v).fab = s.fab ∧ (s.setFld f i v).engs = s.engs ∧ (s.setFld f i v).wts = s.wts ∧
    (s.setFld f i v).mir = s.mir ∧ (s.setFld f i v).clk = s.clk ∧ (s.setFld f i v).pwr = s.pwr ∧
    (s.setFld f i v).boot = s.boot ∧ (s.setFld f i v).milug = s.milug ∧ (s.setFld f i v).fuses = s.fuses ∧
    (s.setFld f i v).occ = s.occ ∧ (s.setFld f i v).boundaryAsk = s.boundaryAsk ∧ (s.setFld f i v).scanAt = s.scanAt ∧
    (s.setFld f i v).scans = s.scans ∧ (s.setFld f i v).vfs = s.vfs ∧ (s.setFld f i v).scanDue = s.scanDue ∧
    (s.setFld f i v).written = s.written ∧ (s.setFld f i v).heldRuns = s.heldRuns ∧ (s.setFld f i v).nextId = s.nextId ∧
    (s.setFld f i v).freeCtr = s.freeCtr :=
  by and_intros <;> rfl

/-- What is read elsewhere is as it was. -/
@[simp] theorem State.setFld_reads (s : State) (f : Fld) (i v : Nat) :
    (∀ m, (s.setFld f i v).tile m = s.tile m) ∧ (∀ m, (s.setFld f i v).region m = s.region m) ∧
    (∀ m, (s.setFld f i v).gal m = s.gal m) ∧ (∀ m, (s.setFld f i v).chan m = s.chan m) ∧
    (∀ m, (s.setFld f i v).annex m = s.annex m) ∧ (∀ m, (s.setFld f i v).dmaCh m = s.dmaCh m) ∧
    (∀ m, (s.setFld f i v).func m = s.func m) ∧ (∀ m, (s.setFld f i v).link m = s.link m) ∧
    (∀ m, (s.setFld f i v).eng m = s.eng m) ∧ (∀ m, (s.setFld f i v).fdie m = s.fdie m) ∧ (s.setFld f i v).ready = s.ready ∧
    (s.setFld f i v).mode = s.mode ∧ (s.setFld f i v).expert = s.expert ∧ (∀ r, (s.setFld f i v).running r = s.running r) ∧
    (s.setFld f i v).anyRunning = s.anyRunning ∧ (∀ c, (s.setFld f i v).heldAt c = s.heldAt c) :=
  by and_intros <;> intros <;> rfl

/-- `State.satAdd` leaves every other field of the state. -/
@[simp] theorem State.satAdd_fields (s : State) (f : Fld) (i n : Nat) :
    (s.satAdd f i n).pending = s.pending ∧ (s.satAdd f i n).reqs = s.reqs ∧ (s.satAdd f i n).park = s.park ∧
    (s.satAdd f i n).hold = s.hold ∧ (s.satAdd f i n).regions = s.regions ∧ (s.satAdd f i n).tiles = s.tiles ∧
    (s.satAdd f i n).gals = s.gals ∧ (s.satAdd f i n).mpkts = s.mpkts ∧ (s.satAdd f i n).accs = s.accs ∧
    (s.satAdd f i n).chans = s.chans ∧ (s.satAdd f i n).anx = s.anx ∧ (s.satAdd f i n).ext = s.ext ∧
    (s.satAdd f i n).hostMem = s.hostMem ∧ (s.satAdd f i n).dma = s.dma ∧ (s.satAdd f i n).bankOut = s.bankOut ∧
    (s.satAdd f i n).fns = s.fns ∧ (s.satAdd f i n).irqs = s.irqs ∧ (s.satAdd f i n).img = s.img ∧
    (s.satAdd f i n).loading = s.loading ∧ (s.satAdd f i n).plans = s.plans ∧ (s.satAdd f i n).links = s.links ∧
    (s.satAdd f i n).fab = s.fab ∧ (s.satAdd f i n).engs = s.engs ∧ (s.satAdd f i n).wts = s.wts ∧
    (s.satAdd f i n).mir = s.mir ∧ (s.satAdd f i n).clk = s.clk ∧ (s.satAdd f i n).pwr = s.pwr ∧
    (s.satAdd f i n).boot = s.boot ∧ (s.satAdd f i n).milug = s.milug ∧ (s.satAdd f i n).fuses = s.fuses ∧
    (s.satAdd f i n).occ = s.occ ∧ (s.satAdd f i n).boundaryAsk = s.boundaryAsk ∧ (s.satAdd f i n).scanAt = s.scanAt ∧
    (s.satAdd f i n).scans = s.scans ∧ (s.satAdd f i n).vfs = s.vfs ∧ (s.satAdd f i n).scanDue = s.scanDue ∧
    (s.satAdd f i n).written = s.written ∧ (s.satAdd f i n).heldRuns = s.heldRuns ∧ (s.satAdd f i n).nextId = s.nextId ∧
    (s.satAdd f i n).freeCtr = s.freeCtr :=
  by and_intros <;> rfl

/-- What is read elsewhere is as it was. -/
@[simp] theorem State.satAdd_reads (s : State) (f : Fld) (i n : Nat) :
    (∀ m, (s.satAdd f i n).tile m = s.tile m) ∧ (∀ m, (s.satAdd f i n).region m = s.region m) ∧
    (∀ m, (s.satAdd f i n).gal m = s.gal m) ∧ (∀ m, (s.satAdd f i n).chan m = s.chan m) ∧
    (∀ m, (s.satAdd f i n).annex m = s.annex m) ∧ (∀ m, (s.satAdd f i n).dmaCh m = s.dmaCh m) ∧
    (∀ m, (s.satAdd f i n).func m = s.func m) ∧ (∀ m, (s.satAdd f i n).link m = s.link m) ∧
    (∀ m, (s.satAdd f i n).eng m = s.eng m) ∧ (∀ m, (s.satAdd f i n).fdie m = s.fdie m) ∧ (s.satAdd f i n).ready = s.ready ∧
    (s.satAdd f i n).mode = s.mode ∧ (s.satAdd f i n).expert = s.expert ∧ (∀ r, (s.satAdd f i n).running r = s.running r) ∧
    (s.satAdd f i n).anyRunning = s.anyRunning ∧ (∀ c, (s.satAdd f i n).heldAt c = s.heldAt c) :=
  by and_intros <;> intros <;> rfl

/-- `State.wrapAdd` leaves every other field of the state. -/
@[simp] theorem State.wrapAdd_fields (s : State) (f : Fld) (i n : Nat) :
    (s.wrapAdd f i n).pending = s.pending ∧ (s.wrapAdd f i n).reqs = s.reqs ∧ (s.wrapAdd f i n).park = s.park ∧
    (s.wrapAdd f i n).hold = s.hold ∧ (s.wrapAdd f i n).regions = s.regions ∧ (s.wrapAdd f i n).tiles = s.tiles ∧
    (s.wrapAdd f i n).gals = s.gals ∧ (s.wrapAdd f i n).mpkts = s.mpkts ∧ (s.wrapAdd f i n).accs = s.accs ∧
    (s.wrapAdd f i n).chans = s.chans ∧ (s.wrapAdd f i n).anx = s.anx ∧ (s.wrapAdd f i n).ext = s.ext ∧
    (s.wrapAdd f i n).hostMem = s.hostMem ∧ (s.wrapAdd f i n).dma = s.dma ∧ (s.wrapAdd f i n).bankOut = s.bankOut ∧
    (s.wrapAdd f i n).fns = s.fns ∧ (s.wrapAdd f i n).irqs = s.irqs ∧ (s.wrapAdd f i n).img = s.img ∧
    (s.wrapAdd f i n).loading = s.loading ∧ (s.wrapAdd f i n).plans = s.plans ∧ (s.wrapAdd f i n).links = s.links ∧
    (s.wrapAdd f i n).fab = s.fab ∧ (s.wrapAdd f i n).engs = s.engs ∧ (s.wrapAdd f i n).wts = s.wts ∧
    (s.wrapAdd f i n).mir = s.mir ∧ (s.wrapAdd f i n).clk = s.clk ∧ (s.wrapAdd f i n).pwr = s.pwr ∧
    (s.wrapAdd f i n).boot = s.boot ∧ (s.wrapAdd f i n).milug = s.milug ∧ (s.wrapAdd f i n).fuses = s.fuses ∧
    (s.wrapAdd f i n).occ = s.occ ∧ (s.wrapAdd f i n).boundaryAsk = s.boundaryAsk ∧ (s.wrapAdd f i n).scanAt = s.scanAt ∧
    (s.wrapAdd f i n).scans = s.scans ∧ (s.wrapAdd f i n).vfs = s.vfs ∧ (s.wrapAdd f i n).scanDue = s.scanDue ∧
    (s.wrapAdd f i n).written = s.written ∧ (s.wrapAdd f i n).heldRuns = s.heldRuns ∧ (s.wrapAdd f i n).nextId = s.nextId ∧
    (s.wrapAdd f i n).freeCtr = s.freeCtr :=
  by and_intros <;> rfl

/-- What is read elsewhere is as it was. -/
@[simp] theorem State.wrapAdd_reads (s : State) (f : Fld) (i n : Nat) :
    (∀ m, (s.wrapAdd f i n).tile m = s.tile m) ∧ (∀ m, (s.wrapAdd f i n).region m = s.region m) ∧
    (∀ m, (s.wrapAdd f i n).gal m = s.gal m) ∧ (∀ m, (s.wrapAdd f i n).chan m = s.chan m) ∧
    (∀ m, (s.wrapAdd f i n).annex m = s.annex m) ∧ (∀ m, (s.wrapAdd f i n).dmaCh m = s.dmaCh m) ∧
    (∀ m, (s.wrapAdd f i n).func m = s.func m) ∧ (∀ m, (s.wrapAdd f i n).link m = s.link m) ∧
    (∀ m, (s.wrapAdd f i n).eng m = s.eng m) ∧ (∀ m, (s.wrapAdd f i n).fdie m = s.fdie m) ∧
    (s.wrapAdd f i n).ready = s.ready ∧ (s.wrapAdd f i n).mode = s.mode ∧ (s.wrapAdd f i n).expert = s.expert ∧
    (∀ r, (s.wrapAdd f i n).running r = s.running r) ∧ (s.wrapAdd f i n).anyRunning = s.anyRunning ∧
    (∀ c, (s.wrapAdd f i n).heldAt c = s.heldAt c) :=
  by and_intros <;> intros <;> rfl

/-- `State.rwWrite` leaves every other field of the state. -/
@[simp] theorem State.rwWrite_fields (s : State) (k : RegKind) (i v : Nat) :
    (s.rwWrite k i v).pending = s.pending ∧ (s.rwWrite k i v).reqs = s.reqs ∧ (s.rwWrite k i v).park = s.park ∧
    (s.rwWrite k i v).hold = s.hold ∧ (s.rwWrite k i v).regions = s.regions ∧ (s.rwWrite k i v).tiles = s.tiles ∧
    (s.rwWrite k i v).gals = s.gals ∧ (s.rwWrite k i v).mpkts = s.mpkts ∧ (s.rwWrite k i v).accs = s.accs ∧
    (s.rwWrite k i v).chans = s.chans ∧ (s.rwWrite k i v).anx = s.anx ∧ (s.rwWrite k i v).ext = s.ext ∧
    (s.rwWrite k i v).hostMem = s.hostMem ∧ (s.rwWrite k i v).dma = s.dma ∧ (s.rwWrite k i v).bankOut = s.bankOut ∧
    (s.rwWrite k i v).fns = s.fns ∧ (s.rwWrite k i v).irqs = s.irqs ∧ (s.rwWrite k i v).img = s.img ∧
    (s.rwWrite k i v).loading = s.loading ∧ (s.rwWrite k i v).plans = s.plans ∧ (s.rwWrite k i v).links = s.links ∧
    (s.rwWrite k i v).fab = s.fab ∧ (s.rwWrite k i v).engs = s.engs ∧ (s.rwWrite k i v).wts = s.wts ∧
    (s.rwWrite k i v).mir = s.mir ∧ (s.rwWrite k i v).clk = s.clk ∧ (s.rwWrite k i v).pwr = s.pwr ∧
    (s.rwWrite k i v).boot = s.boot ∧ (s.rwWrite k i v).milug = s.milug ∧ (s.rwWrite k i v).fuses = s.fuses ∧
    (s.rwWrite k i v).occ = s.occ ∧ (s.rwWrite k i v).boundaryAsk = s.boundaryAsk ∧ (s.rwWrite k i v).scanAt = s.scanAt ∧
    (s.rwWrite k i v).scans = s.scans ∧ (s.rwWrite k i v).vfs = s.vfs ∧ (s.rwWrite k i v).scanDue = s.scanDue ∧
    (s.rwWrite k i v).written = s.written ∧ (s.rwWrite k i v).heldRuns = s.heldRuns ∧ (s.rwWrite k i v).nextId = s.nextId ∧
    (s.rwWrite k i v).freeCtr = s.freeCtr :=
  by and_intros <;> rfl

/-- What is read elsewhere is as it was. -/
@[simp] theorem State.rwWrite_reads (s : State) (k : RegKind) (i v : Nat) :
    (∀ m, (s.rwWrite k i v).tile m = s.tile m) ∧ (∀ m, (s.rwWrite k i v).region m = s.region m) ∧
    (∀ m, (s.rwWrite k i v).gal m = s.gal m) ∧ (∀ m, (s.rwWrite k i v).chan m = s.chan m) ∧
    (∀ m, (s.rwWrite k i v).annex m = s.annex m) ∧ (∀ m, (s.rwWrite k i v).dmaCh m = s.dmaCh m) ∧
    (∀ m, (s.rwWrite k i v).func m = s.func m) ∧ (∀ m, (s.rwWrite k i v).link m = s.link m) ∧
    (∀ m, (s.rwWrite k i v).eng m = s.eng m) ∧ (∀ m, (s.rwWrite k i v).fdie m = s.fdie m) ∧
    (s.rwWrite k i v).ready = s.ready ∧ (s.rwWrite k i v).mode = s.mode ∧ (s.rwWrite k i v).expert = s.expert ∧
    (∀ r, (s.rwWrite k i v).running r = s.running r) ∧ (s.rwWrite k i v).anyRunning = s.anyRunning ∧
    (∀ c, (s.rwWrite k i v).heldAt c = s.heldAt c) :=
  by and_intros <;> intros <;> rfl

/-- `State.lastWrite` leaves every other field of the state. -/
@[simp] theorem State.lastWrite_fields (s : State) (k : RegKind) (i v : Nat) (b : Bool) :
    (s.lastWrite k i v b).pending = s.pending ∧ (s.lastWrite k i v b).reqs = s.reqs ∧ (s.lastWrite k i v b).park = s.park ∧
    (s.lastWrite k i v b).hold = s.hold ∧ (s.lastWrite k i v b).regions = s.regions ∧
    (s.lastWrite k i v b).tiles = s.tiles ∧ (s.lastWrite k i v b).gals = s.gals ∧ (s.lastWrite k i v b).mpkts = s.mpkts ∧
    (s.lastWrite k i v b).accs = s.accs ∧ (s.lastWrite k i v b).chans = s.chans ∧ (s.lastWrite k i v b).anx = s.anx ∧
    (s.lastWrite k i v b).ext = s.ext ∧ (s.lastWrite k i v b).hostMem = s.hostMem ∧ (s.lastWrite k i v b).dma = s.dma ∧
    (s.lastWrite k i v b).bankOut = s.bankOut ∧ (s.lastWrite k i v b).fns = s.fns ∧ (s.lastWrite k i v b).irqs = s.irqs ∧
    (s.lastWrite k i v b).img = s.img ∧ (s.lastWrite k i v b).loading = s.loading ∧ (s.lastWrite k i v b).plans = s.plans ∧
    (s.lastWrite k i v b).links = s.links ∧ (s.lastWrite k i v b).fab = s.fab ∧ (s.lastWrite k i v b).engs = s.engs ∧
    (s.lastWrite k i v b).wts = s.wts ∧ (s.lastWrite k i v b).mir = s.mir ∧ (s.lastWrite k i v b).clk = s.clk ∧
    (s.lastWrite k i v b).pwr = s.pwr ∧ (s.lastWrite k i v b).boot = s.boot ∧ (s.lastWrite k i v b).milug = s.milug ∧
    (s.lastWrite k i v b).fuses = s.fuses ∧ (s.lastWrite k i v b).occ = s.occ ∧
    (s.lastWrite k i v b).boundaryAsk = s.boundaryAsk ∧ (s.lastWrite k i v b).scanAt = s.scanAt ∧
    (s.lastWrite k i v b).scans = s.scans ∧ (s.lastWrite k i v b).vfs = s.vfs ∧ (s.lastWrite k i v b).scanDue = s.scanDue ∧
    (s.lastWrite k i v b).heldRuns = s.heldRuns ∧ (s.lastWrite k i v b).nextId = s.nextId ∧
    (s.lastWrite k i v b).freeCtr = s.freeCtr :=
  by and_intros <;> rfl

/-- What is read elsewhere is as it was. -/
@[simp] theorem State.lastWrite_reads (s : State) (k : RegKind) (i v : Nat) (b : Bool) :
    (∀ m, (s.lastWrite k i v b).tile m = s.tile m) ∧ (∀ m, (s.lastWrite k i v b).region m = s.region m) ∧
    (∀ m, (s.lastWrite k i v b).gal m = s.gal m) ∧ (∀ m, (s.lastWrite k i v b).chan m = s.chan m) ∧
    (∀ m, (s.lastWrite k i v b).annex m = s.annex m) ∧ (∀ m, (s.lastWrite k i v b).dmaCh m = s.dmaCh m) ∧
    (∀ m, (s.lastWrite k i v b).func m = s.func m) ∧ (∀ m, (s.lastWrite k i v b).link m = s.link m) ∧
    (∀ m, (s.lastWrite k i v b).eng m = s.eng m) ∧ (∀ m, (s.lastWrite k i v b).fdie m = s.fdie m) ∧
    (s.lastWrite k i v b).ready = s.ready ∧ (s.lastWrite k i v b).mode = s.mode ∧ (s.lastWrite k i v b).expert = s.expert ∧
    (∀ r, (s.lastWrite k i v b).running r = s.running r) ∧ (s.lastWrite k i v b).anyRunning = s.anyRunning ∧
    (∀ c, (s.lastWrite k i v b).heldAt c = s.heldAt c) :=
  by and_intros <;> intros <;> rfl

/-- `State.setTile` leaves every other field of the state. -/
@[simp] theorem State.setTile_fields (s : State) (n : Nat) (T : Tile) :
    (s.setTile n T).pending = s.pending ∧ (s.setTile n T).regs = s.regs ∧ (s.setTile n T).reqs = s.reqs ∧
    (s.setTile n T).park = s.park ∧ (s.setTile n T).hold = s.hold ∧ (s.setTile n T).regions = s.regions ∧
    (s.setTile n T).gals = s.gals ∧ (s.setTile n T).mpkts = s.mpkts ∧ (s.setTile n T).accs = s.accs ∧
    (s.setTile n T).chans = s.chans ∧ (s.setTile n T).anx = s.anx ∧ (s.setTile n T).ext = s.ext ∧
    (s.setTile n T).hostMem = s.hostMem ∧ (s.setTile n T).dma = s.dma ∧ (s.setTile n T).bankOut = s.bankOut ∧
    (s.setTile n T).fns = s.fns ∧ (s.setTile n T).irqs = s.irqs ∧ (s.setTile n T).img = s.img ∧
    (s.setTile n T).loading = s.loading ∧ (s.setTile n T).plans = s.plans ∧ (s.setTile n T).links = s.links ∧
    (s.setTile n T).fab = s.fab ∧ (s.setTile n T).engs = s.engs ∧ (s.setTile n T).wts = s.wts ∧
    (s.setTile n T).mir = s.mir ∧ (s.setTile n T).clk = s.clk ∧ (s.setTile n T).pwr = s.pwr ∧
    (s.setTile n T).boot = s.boot ∧ (s.setTile n T).milug = s.milug ∧ (s.setTile n T).fuses = s.fuses ∧
    (s.setTile n T).occ = s.occ ∧ (s.setTile n T).boundaryAsk = s.boundaryAsk ∧ (s.setTile n T).scanAt = s.scanAt ∧
    (s.setTile n T).scans = s.scans ∧ (s.setTile n T).vfs = s.vfs ∧ (s.setTile n T).scanDue = s.scanDue ∧
    (s.setTile n T).written = s.written ∧ (s.setTile n T).heldRuns = s.heldRuns ∧ (s.setTile n T).nextId = s.nextId ∧
    (s.setTile n T).freeCtr = s.freeCtr :=
  by and_intros <;> rfl

/-- What is read elsewhere is as it was. -/
@[simp] theorem State.setTile_reads (s : State) (n : Nat) (T : Tile) :
    (∀ k1 i1, (s.setTile n T).reg k1 i1 = s.reg k1 i1) ∧ (∀ f1 i1, (s.setTile n T).fld f1 i1 = s.fld f1 i1) ∧
    (s.setTile n T).cnt = s.cnt ∧ (s.setTile n T).sched = s.sched ∧ (s.setTile n T).wall = s.wall ∧
    (∀ m, (s.setTile n T).region m = s.region m) ∧ (∀ m, (s.setTile n T).gal m = s.gal m) ∧
    (∀ m, (s.setTile n T).chan m = s.chan m) ∧ (∀ m, (s.setTile n T).annex m = s.annex m) ∧
    (∀ m, (s.setTile n T).dmaCh m = s.dmaCh m) ∧ (∀ m, (s.setTile n T).func m = s.func m) ∧
    (∀ m, (s.setTile n T).link m = s.link m) ∧ (∀ m, (s.setTile n T).eng m = s.eng m) ∧
    (∀ m, (s.setTile n T).fdie m = s.fdie m) ∧ (s.setTile n T).ready = s.ready ∧ (s.setTile n T).mode = s.mode ∧
    (s.setTile n T).expert = s.expert ∧ (∀ r, (s.setTile n T).running r = s.running r) ∧
    (s.setTile n T).anyRunning = s.anyRunning ∧ (∀ c, (s.setTile n T).heldAt c = s.heldAt c) :=
  by and_intros <;> intros <;> rfl

/-- `State.modTile` leaves every other field of the state. -/
@[simp] theorem State.modTile_fields (s : State) (n : Nat) (g : Tile → Tile) :
    (s.modTile n g).pending = s.pending ∧ (s.modTile n g).regs = s.regs ∧ (s.modTile n g).reqs = s.reqs ∧
    (s.modTile n g).park = s.park ∧ (s.modTile n g).hold = s.hold ∧ (s.modTile n g).regions = s.regions ∧
    (s.modTile n g).gals = s.gals ∧ (s.modTile n g).mpkts = s.mpkts ∧ (s.modTile n g).accs = s.accs ∧
    (s.modTile n g).chans = s.chans ∧ (s.modTile n g).anx = s.anx ∧ (s.modTile n g).ext = s.ext ∧
    (s.modTile n g).hostMem = s.hostMem ∧ (s.modTile n g).dma = s.dma ∧ (s.modTile n g).bankOut = s.bankOut ∧
    (s.modTile n g).fns = s.fns ∧ (s.modTile n g).irqs = s.irqs ∧ (s.modTile n g).img = s.img ∧
    (s.modTile n g).loading = s.loading ∧ (s.modTile n g).plans = s.plans ∧ (s.modTile n g).links = s.links ∧
    (s.modTile n g).fab = s.fab ∧ (s.modTile n g).engs = s.engs ∧ (s.modTile n g).wts = s.wts ∧
    (s.modTile n g).mir = s.mir ∧ (s.modTile n g).clk = s.clk ∧ (s.modTile n g).pwr = s.pwr ∧
    (s.modTile n g).boot = s.boot ∧ (s.modTile n g).milug = s.milug ∧ (s.modTile n g).fuses = s.fuses ∧
    (s.modTile n g).occ = s.occ ∧ (s.modTile n g).boundaryAsk = s.boundaryAsk ∧ (s.modTile n g).scanAt = s.scanAt ∧
    (s.modTile n g).scans = s.scans ∧ (s.modTile n g).vfs = s.vfs ∧ (s.modTile n g).scanDue = s.scanDue ∧
    (s.modTile n g).written = s.written ∧ (s.modTile n g).heldRuns = s.heldRuns ∧ (s.modTile n g).nextId = s.nextId ∧
    (s.modTile n g).freeCtr = s.freeCtr :=
  by and_intros <;> rfl

/-- What is read elsewhere is as it was. -/
@[simp] theorem State.modTile_reads (s : State) (n : Nat) (g : Tile → Tile) :
    (∀ k1 i1, (s.modTile n g).reg k1 i1 = s.reg k1 i1) ∧ (∀ f1 i1, (s.modTile n g).fld f1 i1 = s.fld f1 i1) ∧
    (s.modTile n g).cnt = s.cnt ∧ (s.modTile n g).sched = s.sched ∧ (s.modTile n g).wall = s.wall ∧
    (∀ m, (s.modTile n g).region m = s.region m) ∧ (∀ m, (s.modTile n g).gal m = s.gal m) ∧
    (∀ m, (s.modTile n g).chan m = s.chan m) ∧ (∀ m, (s.modTile n g).annex m = s.annex m) ∧
    (∀ m, (s.modTile n g).dmaCh m = s.dmaCh m) ∧ (∀ m, (s.modTile n g).func m = s.func m) ∧
    (∀ m, (s.modTile n g).link m = s.link m) ∧ (∀ m, (s.modTile n g).eng m = s.eng m) ∧
    (∀ m, (s.modTile n g).fdie m = s.fdie m) ∧ (s.modTile n g).ready = s.ready ∧ (s.modTile n g).mode = s.mode ∧
    (s.modTile n g).expert = s.expert ∧ (∀ r, (s.modTile n g).running r = s.running r) ∧
    (s.modTile n g).anyRunning = s.anyRunning ∧ (∀ c, (s.modTile n g).heldAt c = s.heldAt c) :=
  by and_intros <;> intros <;> rfl

/-- `State.modRegion` leaves every other field of the state. -/
@[simp] theorem State.modRegion_fields (s : State) (n : Nat) (g : Region → Region) :
    (s.modRegion n g).pending = s.pending ∧ (s.modRegion n g).regs = s.regs ∧ (s.modRegion n g).reqs = s.reqs ∧
    (s.modRegion n g).park = s.park ∧ (s.modRegion n g).hold = s.hold ∧ (s.modRegion n g).tiles = s.tiles ∧
    (s.modRegion n g).gals = s.gals ∧ (s.modRegion n g).mpkts = s.mpkts ∧ (s.modRegion n g).accs = s.accs ∧
    (s.modRegion n g).chans = s.chans ∧ (s.modRegion n g).anx = s.anx ∧ (s.modRegion n g).ext = s.ext ∧
    (s.modRegion n g).hostMem = s.hostMem ∧ (s.modRegion n g).dma = s.dma ∧ (s.modRegion n g).bankOut = s.bankOut ∧
    (s.modRegion n g).fns = s.fns ∧ (s.modRegion n g).irqs = s.irqs ∧ (s.modRegion n g).img = s.img ∧
    (s.modRegion n g).loading = s.loading ∧ (s.modRegion n g).plans = s.plans ∧ (s.modRegion n g).links = s.links ∧
    (s.modRegion n g).fab = s.fab ∧ (s.modRegion n g).engs = s.engs ∧ (s.modRegion n g).wts = s.wts ∧
    (s.modRegion n g).mir = s.mir ∧ (s.modRegion n g).clk = s.clk ∧ (s.modRegion n g).pwr = s.pwr ∧
    (s.modRegion n g).boot = s.boot ∧ (s.modRegion n g).milug = s.milug ∧ (s.modRegion n g).fuses = s.fuses ∧
    (s.modRegion n g).occ = s.occ ∧ (s.modRegion n g).boundaryAsk = s.boundaryAsk ∧ (s.modRegion n g).scanAt = s.scanAt ∧
    (s.modRegion n g).scans = s.scans ∧ (s.modRegion n g).vfs = s.vfs ∧ (s.modRegion n g).scanDue = s.scanDue ∧
    (s.modRegion n g).written = s.written ∧ (s.modRegion n g).heldRuns = s.heldRuns ∧ (s.modRegion n g).nextId = s.nextId ∧
    (s.modRegion n g).freeCtr = s.freeCtr :=
  by and_intros <;> rfl

/-- What is read elsewhere is as it was. -/
@[simp] theorem State.modRegion_reads (s : State) (n : Nat) (g : Region → Region) :
    (∀ k1 i1, (s.modRegion n g).reg k1 i1 = s.reg k1 i1) ∧ (∀ f1 i1, (s.modRegion n g).fld f1 i1 = s.fld f1 i1) ∧
    (s.modRegion n g).cnt = s.cnt ∧ (s.modRegion n g).sched = s.sched ∧ (s.modRegion n g).wall = s.wall ∧
    (∀ m, (s.modRegion n g).tile m = s.tile m) ∧ (∀ m, (s.modRegion n g).gal m = s.gal m) ∧
    (∀ m, (s.modRegion n g).chan m = s.chan m) ∧ (∀ m, (s.modRegion n g).annex m = s.annex m) ∧
    (∀ m, (s.modRegion n g).dmaCh m = s.dmaCh m) ∧ (∀ m, (s.modRegion n g).func m = s.func m) ∧
    (∀ m, (s.modRegion n g).link m = s.link m) ∧ (∀ m, (s.modRegion n g).eng m = s.eng m) ∧
    (∀ m, (s.modRegion n g).fdie m = s.fdie m) ∧ (s.modRegion n g).ready = s.ready ∧ (s.modRegion n g).mode = s.mode ∧
    (s.modRegion n g).expert = s.expert ∧ (∀ c, (s.modRegion n g).heldAt c = s.heldAt c) :=
  by and_intros <;> intros <;> rfl

/-- `State.modGal` leaves every other field of the state. -/
@[simp] theorem State.modGal_fields (s : State) (n : Nat) (g : Gallery → Gallery) :
    (s.modGal n g).pending = s.pending ∧ (s.modGal n g).regs = s.regs ∧ (s.modGal n g).reqs = s.reqs ∧
    (s.modGal n g).park = s.park ∧ (s.modGal n g).hold = s.hold ∧ (s.modGal n g).regions = s.regions ∧
    (s.modGal n g).tiles = s.tiles ∧ (s.modGal n g).mpkts = s.mpkts ∧ (s.modGal n g).accs = s.accs ∧
    (s.modGal n g).chans = s.chans ∧ (s.modGal n g).anx = s.anx ∧ (s.modGal n g).ext = s.ext ∧
    (s.modGal n g).hostMem = s.hostMem ∧ (s.modGal n g).dma = s.dma ∧ (s.modGal n g).bankOut = s.bankOut ∧
    (s.modGal n g).fns = s.fns ∧ (s.modGal n g).irqs = s.irqs ∧ (s.modGal n g).img = s.img ∧
    (s.modGal n g).loading = s.loading ∧ (s.modGal n g).plans = s.plans ∧ (s.modGal n g).links = s.links ∧
    (s.modGal n g).fab = s.fab ∧ (s.modGal n g).engs = s.engs ∧ (s.modGal n g).wts = s.wts ∧ (s.modGal n g).mir = s.mir ∧
    (s.modGal n g).clk = s.clk ∧ (s.modGal n g).pwr = s.pwr ∧ (s.modGal n g).boot = s.boot ∧
    (s.modGal n g).milug = s.milug ∧ (s.modGal n g).fuses = s.fuses ∧ (s.modGal n g).occ = s.occ ∧
    (s.modGal n g).boundaryAsk = s.boundaryAsk ∧ (s.modGal n g).scanAt = s.scanAt ∧ (s.modGal n g).scans = s.scans ∧
    (s.modGal n g).vfs = s.vfs ∧ (s.modGal n g).scanDue = s.scanDue ∧ (s.modGal n g).written = s.written ∧
    (s.modGal n g).heldRuns = s.heldRuns ∧ (s.modGal n g).nextId = s.nextId ∧ (s.modGal n g).freeCtr = s.freeCtr :=
  by and_intros <;> rfl

/-- What is read elsewhere is as it was. -/
@[simp] theorem State.modGal_reads (s : State) (n : Nat) (g : Gallery → Gallery) :
    (∀ k1 i1, (s.modGal n g).reg k1 i1 = s.reg k1 i1) ∧ (∀ f1 i1, (s.modGal n g).fld f1 i1 = s.fld f1 i1) ∧
    (s.modGal n g).cnt = s.cnt ∧ (s.modGal n g).sched = s.sched ∧ (s.modGal n g).wall = s.wall ∧
    (∀ m, (s.modGal n g).tile m = s.tile m) ∧ (∀ m, (s.modGal n g).region m = s.region m) ∧
    (∀ m, (s.modGal n g).chan m = s.chan m) ∧ (∀ m, (s.modGal n g).annex m = s.annex m) ∧
    (∀ m, (s.modGal n g).dmaCh m = s.dmaCh m) ∧ (∀ m, (s.modGal n g).func m = s.func m) ∧
    (∀ m, (s.modGal n g).link m = s.link m) ∧ (∀ m, (s.modGal n g).eng m = s.eng m) ∧
    (∀ m, (s.modGal n g).fdie m = s.fdie m) ∧ (s.modGal n g).ready = s.ready ∧ (s.modGal n g).mode = s.mode ∧
    (s.modGal n g).expert = s.expert ∧ (∀ r, (s.modGal n g).running r = s.running r) ∧
    (s.modGal n g).anyRunning = s.anyRunning ∧ (∀ c, (s.modGal n g).heldAt c = s.heldAt c) :=
  by and_intros <;> intros <;> rfl

/-- `State.modChan` leaves every other field of the state. -/
@[simp] theorem State.modChan_fields (s : State) (n : Nat) (g : ChanSt → ChanSt) :
    (s.modChan n g).pending = s.pending ∧ (s.modChan n g).regs = s.regs ∧ (s.modChan n g).reqs = s.reqs ∧
    (s.modChan n g).park = s.park ∧ (s.modChan n g).hold = s.hold ∧ (s.modChan n g).regions = s.regions ∧
    (s.modChan n g).tiles = s.tiles ∧ (s.modChan n g).gals = s.gals ∧ (s.modChan n g).mpkts = s.mpkts ∧
    (s.modChan n g).accs = s.accs ∧ (s.modChan n g).anx = s.anx ∧ (s.modChan n g).ext = s.ext ∧
    (s.modChan n g).hostMem = s.hostMem ∧ (s.modChan n g).dma = s.dma ∧ (s.modChan n g).bankOut = s.bankOut ∧
    (s.modChan n g).fns = s.fns ∧ (s.modChan n g).irqs = s.irqs ∧ (s.modChan n g).img = s.img ∧
    (s.modChan n g).loading = s.loading ∧ (s.modChan n g).plans = s.plans ∧ (s.modChan n g).links = s.links ∧
    (s.modChan n g).fab = s.fab ∧ (s.modChan n g).engs = s.engs ∧ (s.modChan n g).wts = s.wts ∧
    (s.modChan n g).mir = s.mir ∧ (s.modChan n g).clk = s.clk ∧ (s.modChan n g).pwr = s.pwr ∧
    (s.modChan n g).boot = s.boot ∧ (s.modChan n g).milug = s.milug ∧ (s.modChan n g).fuses = s.fuses ∧
    (s.modChan n g).occ = s.occ ∧ (s.modChan n g).boundaryAsk = s.boundaryAsk ∧ (s.modChan n g).scanAt = s.scanAt ∧
    (s.modChan n g).scans = s.scans ∧ (s.modChan n g).vfs = s.vfs ∧ (s.modChan n g).scanDue = s.scanDue ∧
    (s.modChan n g).written = s.written ∧ (s.modChan n g).heldRuns = s.heldRuns ∧ (s.modChan n g).nextId = s.nextId ∧
    (s.modChan n g).freeCtr = s.freeCtr :=
  by and_intros <;> rfl

/-- What is read elsewhere is as it was. -/
@[simp] theorem State.modChan_reads (s : State) (n : Nat) (g : ChanSt → ChanSt) :
    (∀ k1 i1, (s.modChan n g).reg k1 i1 = s.reg k1 i1) ∧ (∀ f1 i1, (s.modChan n g).fld f1 i1 = s.fld f1 i1) ∧
    (s.modChan n g).cnt = s.cnt ∧ (s.modChan n g).sched = s.sched ∧ (s.modChan n g).wall = s.wall ∧
    (∀ m, (s.modChan n g).tile m = s.tile m) ∧ (∀ m, (s.modChan n g).region m = s.region m) ∧
    (∀ m, (s.modChan n g).gal m = s.gal m) ∧ (∀ m, (s.modChan n g).annex m = s.annex m) ∧
    (∀ m, (s.modChan n g).dmaCh m = s.dmaCh m) ∧ (∀ m, (s.modChan n g).func m = s.func m) ∧
    (∀ m, (s.modChan n g).link m = s.link m) ∧ (∀ m, (s.modChan n g).eng m = s.eng m) ∧
    (∀ m, (s.modChan n g).fdie m = s.fdie m) ∧ (s.modChan n g).ready = s.ready ∧ (s.modChan n g).mode = s.mode ∧
    (s.modChan n g).expert = s.expert ∧ (∀ r, (s.modChan n g).running r = s.running r) ∧
    (s.modChan n g).anyRunning = s.anyRunning ∧ (∀ c, (s.modChan n g).heldAt c = s.heldAt c) :=
  by and_intros <;> intros <;> rfl

/-- `State.modAnnex` leaves every other field of the state. -/
@[simp] theorem State.modAnnex_fields (s : State) (n : Nat) (g : AnnexPort → AnnexPort) :
    (s.modAnnex n g).pending = s.pending ∧ (s.modAnnex n g).regs = s.regs ∧ (s.modAnnex n g).reqs = s.reqs ∧
    (s.modAnnex n g).park = s.park ∧ (s.modAnnex n g).hold = s.hold ∧ (s.modAnnex n g).regions = s.regions ∧
    (s.modAnnex n g).tiles = s.tiles ∧ (s.modAnnex n g).gals = s.gals ∧ (s.modAnnex n g).mpkts = s.mpkts ∧
    (s.modAnnex n g).accs = s.accs ∧ (s.modAnnex n g).chans = s.chans ∧ (s.modAnnex n g).ext = s.ext ∧
    (s.modAnnex n g).hostMem = s.hostMem ∧ (s.modAnnex n g).dma = s.dma ∧ (s.modAnnex n g).bankOut = s.bankOut ∧
    (s.modAnnex n g).fns = s.fns ∧ (s.modAnnex n g).irqs = s.irqs ∧ (s.modAnnex n g).img = s.img ∧
    (s.modAnnex n g).loading = s.loading ∧ (s.modAnnex n g).plans = s.plans ∧ (s.modAnnex n g).links = s.links ∧
    (s.modAnnex n g).fab = s.fab ∧ (s.modAnnex n g).engs = s.engs ∧ (s.modAnnex n g).wts = s.wts ∧
    (s.modAnnex n g).mir = s.mir ∧ (s.modAnnex n g).clk = s.clk ∧ (s.modAnnex n g).pwr = s.pwr ∧
    (s.modAnnex n g).boot = s.boot ∧ (s.modAnnex n g).milug = s.milug ∧ (s.modAnnex n g).fuses = s.fuses ∧
    (s.modAnnex n g).occ = s.occ ∧ (s.modAnnex n g).boundaryAsk = s.boundaryAsk ∧ (s.modAnnex n g).scanAt = s.scanAt ∧
    (s.modAnnex n g).scans = s.scans ∧ (s.modAnnex n g).vfs = s.vfs ∧ (s.modAnnex n g).scanDue = s.scanDue ∧
    (s.modAnnex n g).written = s.written ∧ (s.modAnnex n g).heldRuns = s.heldRuns ∧ (s.modAnnex n g).nextId = s.nextId ∧
    (s.modAnnex n g).freeCtr = s.freeCtr :=
  by and_intros <;> rfl

/-- What is read elsewhere is as it was. -/
@[simp] theorem State.modAnnex_reads (s : State) (n : Nat) (g : AnnexPort → AnnexPort) :
    (∀ k1 i1, (s.modAnnex n g).reg k1 i1 = s.reg k1 i1) ∧ (∀ f1 i1, (s.modAnnex n g).fld f1 i1 = s.fld f1 i1) ∧
    (s.modAnnex n g).cnt = s.cnt ∧ (s.modAnnex n g).sched = s.sched ∧ (s.modAnnex n g).wall = s.wall ∧
    (∀ m, (s.modAnnex n g).tile m = s.tile m) ∧ (∀ m, (s.modAnnex n g).region m = s.region m) ∧
    (∀ m, (s.modAnnex n g).gal m = s.gal m) ∧ (∀ m, (s.modAnnex n g).chan m = s.chan m) ∧
    (∀ m, (s.modAnnex n g).dmaCh m = s.dmaCh m) ∧ (∀ m, (s.modAnnex n g).func m = s.func m) ∧
    (∀ m, (s.modAnnex n g).link m = s.link m) ∧ (∀ m, (s.modAnnex n g).eng m = s.eng m) ∧
    (∀ m, (s.modAnnex n g).fdie m = s.fdie m) ∧ (s.modAnnex n g).ready = s.ready ∧ (s.modAnnex n g).mode = s.mode ∧
    (s.modAnnex n g).expert = s.expert ∧ (∀ r, (s.modAnnex n g).running r = s.running r) ∧
    (s.modAnnex n g).anyRunning = s.anyRunning ∧ (∀ c, (s.modAnnex n g).heldAt c = s.heldAt c) :=
  by and_intros <;> intros <;> rfl

/-- `State.modDma` leaves every other field of the state. -/
@[simp] theorem State.modDma_fields (s : State) (n : Nat) (g : DmaChan → DmaChan) :
    (s.modDma n g).pending = s.pending ∧ (s.modDma n g).regs = s.regs ∧ (s.modDma n g).reqs = s.reqs ∧
    (s.modDma n g).park = s.park ∧ (s.modDma n g).hold = s.hold ∧ (s.modDma n g).regions = s.regions ∧
    (s.modDma n g).tiles = s.tiles ∧ (s.modDma n g).gals = s.gals ∧ (s.modDma n g).mpkts = s.mpkts ∧
    (s.modDma n g).accs = s.accs ∧ (s.modDma n g).chans = s.chans ∧ (s.modDma n g).anx = s.anx ∧
    (s.modDma n g).ext = s.ext ∧ (s.modDma n g).hostMem = s.hostMem ∧ (s.modDma n g).bankOut = s.bankOut ∧
    (s.modDma n g).fns = s.fns ∧ (s.modDma n g).irqs = s.irqs ∧ (s.modDma n g).img = s.img ∧
    (s.modDma n g).loading = s.loading ∧ (s.modDma n g).plans = s.plans ∧ (s.modDma n g).links = s.links ∧
    (s.modDma n g).fab = s.fab ∧ (s.modDma n g).engs = s.engs ∧ (s.modDma n g).wts = s.wts ∧ (s.modDma n g).mir = s.mir ∧
    (s.modDma n g).clk = s.clk ∧ (s.modDma n g).pwr = s.pwr ∧ (s.modDma n g).boot = s.boot ∧
    (s.modDma n g).milug = s.milug ∧ (s.modDma n g).fuses = s.fuses ∧ (s.modDma n g).occ = s.occ ∧
    (s.modDma n g).boundaryAsk = s.boundaryAsk ∧ (s.modDma n g).scanAt = s.scanAt ∧ (s.modDma n g).scans = s.scans ∧
    (s.modDma n g).vfs = s.vfs ∧ (s.modDma n g).scanDue = s.scanDue ∧ (s.modDma n g).written = s.written ∧
    (s.modDma n g).heldRuns = s.heldRuns ∧ (s.modDma n g).nextId = s.nextId ∧ (s.modDma n g).freeCtr = s.freeCtr :=
  by and_intros <;> rfl

/-- What is read elsewhere is as it was. -/
@[simp] theorem State.modDma_reads (s : State) (n : Nat) (g : DmaChan → DmaChan) :
    (∀ k1 i1, (s.modDma n g).reg k1 i1 = s.reg k1 i1) ∧ (∀ f1 i1, (s.modDma n g).fld f1 i1 = s.fld f1 i1) ∧
    (s.modDma n g).cnt = s.cnt ∧ (s.modDma n g).sched = s.sched ∧ (s.modDma n g).wall = s.wall ∧
    (∀ m, (s.modDma n g).tile m = s.tile m) ∧ (∀ m, (s.modDma n g).region m = s.region m) ∧
    (∀ m, (s.modDma n g).gal m = s.gal m) ∧ (∀ m, (s.modDma n g).chan m = s.chan m) ∧
    (∀ m, (s.modDma n g).annex m = s.annex m) ∧ (∀ m, (s.modDma n g).func m = s.func m) ∧
    (∀ m, (s.modDma n g).link m = s.link m) ∧ (∀ m, (s.modDma n g).eng m = s.eng m) ∧
    (∀ m, (s.modDma n g).fdie m = s.fdie m) ∧ (s.modDma n g).ready = s.ready ∧ (s.modDma n g).mode = s.mode ∧
    (s.modDma n g).expert = s.expert ∧ (∀ r, (s.modDma n g).running r = s.running r) ∧
    (s.modDma n g).anyRunning = s.anyRunning ∧ (∀ c, (s.modDma n g).heldAt c = s.heldAt c) :=
  by and_intros <;> intros <;> rfl

/-- `State.modFunc` leaves every other field of the state. -/
@[simp] theorem State.modFunc_fields (s : State) (n : Nat) (g : Func → Func) :
    (s.modFunc n g).pending = s.pending ∧ (s.modFunc n g).regs = s.regs ∧ (s.modFunc n g).reqs = s.reqs ∧
    (s.modFunc n g).park = s.park ∧ (s.modFunc n g).hold = s.hold ∧ (s.modFunc n g).regions = s.regions ∧
    (s.modFunc n g).tiles = s.tiles ∧ (s.modFunc n g).gals = s.gals ∧ (s.modFunc n g).mpkts = s.mpkts ∧
    (s.modFunc n g).accs = s.accs ∧ (s.modFunc n g).chans = s.chans ∧ (s.modFunc n g).anx = s.anx ∧
    (s.modFunc n g).ext = s.ext ∧ (s.modFunc n g).hostMem = s.hostMem ∧ (s.modFunc n g).dma = s.dma ∧
    (s.modFunc n g).bankOut = s.bankOut ∧ (s.modFunc n g).irqs = s.irqs ∧ (s.modFunc n g).img = s.img ∧
    (s.modFunc n g).loading = s.loading ∧ (s.modFunc n g).plans = s.plans ∧ (s.modFunc n g).links = s.links ∧
    (s.modFunc n g).fab = s.fab ∧ (s.modFunc n g).engs = s.engs ∧ (s.modFunc n g).wts = s.wts ∧
    (s.modFunc n g).mir = s.mir ∧ (s.modFunc n g).clk = s.clk ∧ (s.modFunc n g).pwr = s.pwr ∧
    (s.modFunc n g).boot = s.boot ∧ (s.modFunc n g).milug = s.milug ∧ (s.modFunc n g).fuses = s.fuses ∧
    (s.modFunc n g).occ = s.occ ∧ (s.modFunc n g).boundaryAsk = s.boundaryAsk ∧ (s.modFunc n g).scanAt = s.scanAt ∧
    (s.modFunc n g).scans = s.scans ∧ (s.modFunc n g).vfs = s.vfs ∧ (s.modFunc n g).scanDue = s.scanDue ∧
    (s.modFunc n g).written = s.written ∧ (s.modFunc n g).heldRuns = s.heldRuns ∧ (s.modFunc n g).nextId = s.nextId ∧
    (s.modFunc n g).freeCtr = s.freeCtr :=
  by and_intros <;> rfl

/-- What is read elsewhere is as it was. -/
@[simp] theorem State.modFunc_reads (s : State) (n : Nat) (g : Func → Func) :
    (∀ k1 i1, (s.modFunc n g).reg k1 i1 = s.reg k1 i1) ∧ (∀ f1 i1, (s.modFunc n g).fld f1 i1 = s.fld f1 i1) ∧
    (s.modFunc n g).cnt = s.cnt ∧ (s.modFunc n g).sched = s.sched ∧ (s.modFunc n g).wall = s.wall ∧
    (∀ m, (s.modFunc n g).tile m = s.tile m) ∧ (∀ m, (s.modFunc n g).region m = s.region m) ∧
    (∀ m, (s.modFunc n g).gal m = s.gal m) ∧ (∀ m, (s.modFunc n g).chan m = s.chan m) ∧
    (∀ m, (s.modFunc n g).annex m = s.annex m) ∧ (∀ m, (s.modFunc n g).dmaCh m = s.dmaCh m) ∧
    (∀ m, (s.modFunc n g).link m = s.link m) ∧ (∀ m, (s.modFunc n g).eng m = s.eng m) ∧
    (∀ m, (s.modFunc n g).fdie m = s.fdie m) ∧ (s.modFunc n g).ready = s.ready ∧ (s.modFunc n g).mode = s.mode ∧
    (s.modFunc n g).expert = s.expert ∧ (∀ r, (s.modFunc n g).running r = s.running r) ∧
    (s.modFunc n g).anyRunning = s.anyRunning ∧ (∀ c, (s.modFunc n g).heldAt c = s.heldAt c) :=
  by and_intros <;> intros <;> rfl

/-- `State.modLink` leaves every other field of the state. -/
@[simp] theorem State.modLink_fields (s : State) (n : Nat) (g : Link → Link) :
    (s.modLink n g).pending = s.pending ∧ (s.modLink n g).regs = s.regs ∧ (s.modLink n g).reqs = s.reqs ∧
    (s.modLink n g).park = s.park ∧ (s.modLink n g).hold = s.hold ∧ (s.modLink n g).regions = s.regions ∧
    (s.modLink n g).tiles = s.tiles ∧ (s.modLink n g).gals = s.gals ∧ (s.modLink n g).mpkts = s.mpkts ∧
    (s.modLink n g).accs = s.accs ∧ (s.modLink n g).chans = s.chans ∧ (s.modLink n g).anx = s.anx ∧
    (s.modLink n g).ext = s.ext ∧ (s.modLink n g).hostMem = s.hostMem ∧ (s.modLink n g).dma = s.dma ∧
    (s.modLink n g).bankOut = s.bankOut ∧ (s.modLink n g).fns = s.fns ∧ (s.modLink n g).irqs = s.irqs ∧
    (s.modLink n g).img = s.img ∧ (s.modLink n g).loading = s.loading ∧ (s.modLink n g).plans = s.plans ∧
    (s.modLink n g).fab = s.fab ∧ (s.modLink n g).engs = s.engs ∧ (s.modLink n g).wts = s.wts ∧
    (s.modLink n g).mir = s.mir ∧ (s.modLink n g).clk = s.clk ∧ (s.modLink n g).pwr = s.pwr ∧
    (s.modLink n g).boot = s.boot ∧ (s.modLink n g).milug = s.milug ∧ (s.modLink n g).fuses = s.fuses ∧
    (s.modLink n g).occ = s.occ ∧ (s.modLink n g).boundaryAsk = s.boundaryAsk ∧ (s.modLink n g).scanAt = s.scanAt ∧
    (s.modLink n g).scans = s.scans ∧ (s.modLink n g).vfs = s.vfs ∧ (s.modLink n g).scanDue = s.scanDue ∧
    (s.modLink n g).written = s.written ∧ (s.modLink n g).heldRuns = s.heldRuns ∧ (s.modLink n g).nextId = s.nextId ∧
    (s.modLink n g).freeCtr = s.freeCtr :=
  by and_intros <;> rfl

/-- What is read elsewhere is as it was. -/
@[simp] theorem State.modLink_reads (s : State) (n : Nat) (g : Link → Link) :
    (∀ k1 i1, (s.modLink n g).reg k1 i1 = s.reg k1 i1) ∧ (∀ f1 i1, (s.modLink n g).fld f1 i1 = s.fld f1 i1) ∧
    (s.modLink n g).cnt = s.cnt ∧ (s.modLink n g).sched = s.sched ∧ (s.modLink n g).wall = s.wall ∧
    (∀ m, (s.modLink n g).tile m = s.tile m) ∧ (∀ m, (s.modLink n g).region m = s.region m) ∧
    (∀ m, (s.modLink n g).gal m = s.gal m) ∧ (∀ m, (s.modLink n g).chan m = s.chan m) ∧
    (∀ m, (s.modLink n g).annex m = s.annex m) ∧ (∀ m, (s.modLink n g).dmaCh m = s.dmaCh m) ∧
    (∀ m, (s.modLink n g).func m = s.func m) ∧ (∀ m, (s.modLink n g).eng m = s.eng m) ∧
    (∀ m, (s.modLink n g).fdie m = s.fdie m) ∧ (s.modLink n g).ready = s.ready ∧ (s.modLink n g).mode = s.mode ∧
    (s.modLink n g).expert = s.expert ∧ (∀ r, (s.modLink n g).running r = s.running r) ∧
    (s.modLink n g).anyRunning = s.anyRunning ∧ (∀ c, (s.modLink n g).heldAt c = s.heldAt c) :=
  by and_intros <;> intros <;> rfl

/-- `State.modEng` leaves every other field of the state. -/
@[simp] theorem State.modEng_fields (s : State) (n : Nat) (g : Engine → Engine) :
    (s.modEng n g).pending = s.pending ∧ (s.modEng n g).regs = s.regs ∧ (s.modEng n g).reqs = s.reqs ∧
    (s.modEng n g).park = s.park ∧ (s.modEng n g).hold = s.hold ∧ (s.modEng n g).regions = s.regions ∧
    (s.modEng n g).tiles = s.tiles ∧ (s.modEng n g).gals = s.gals ∧ (s.modEng n g).mpkts = s.mpkts ∧
    (s.modEng n g).accs = s.accs ∧ (s.modEng n g).chans = s.chans ∧ (s.modEng n g).anx = s.anx ∧
    (s.modEng n g).ext = s.ext ∧ (s.modEng n g).hostMem = s.hostMem ∧ (s.modEng n g).dma = s.dma ∧
    (s.modEng n g).bankOut = s.bankOut ∧ (s.modEng n g).fns = s.fns ∧ (s.modEng n g).irqs = s.irqs ∧
    (s.modEng n g).img = s.img ∧ (s.modEng n g).loading = s.loading ∧ (s.modEng n g).plans = s.plans ∧
    (s.modEng n g).links = s.links ∧ (s.modEng n g).fab = s.fab ∧ (s.modEng n g).wts = s.wts ∧ (s.modEng n g).mir = s.mir ∧
    (s.modEng n g).clk = s.clk ∧ (s.modEng n g).pwr = s.pwr ∧ (s.modEng n g).boot = s.boot ∧
    (s.modEng n g).milug = s.milug ∧ (s.modEng n g).fuses = s.fuses ∧ (s.modEng n g).occ = s.occ ∧
    (s.modEng n g).boundaryAsk = s.boundaryAsk ∧ (s.modEng n g).scanAt = s.scanAt ∧ (s.modEng n g).scans = s.scans ∧
    (s.modEng n g).vfs = s.vfs ∧ (s.modEng n g).scanDue = s.scanDue ∧ (s.modEng n g).written = s.written ∧
    (s.modEng n g).heldRuns = s.heldRuns ∧ (s.modEng n g).nextId = s.nextId ∧ (s.modEng n g).freeCtr = s.freeCtr :=
  by and_intros <;> rfl

/-- What is read elsewhere is as it was. -/
@[simp] theorem State.modEng_reads (s : State) (n : Nat) (g : Engine → Engine) :
    (∀ k1 i1, (s.modEng n g).reg k1 i1 = s.reg k1 i1) ∧ (∀ f1 i1, (s.modEng n g).fld f1 i1 = s.fld f1 i1) ∧
    (s.modEng n g).cnt = s.cnt ∧ (s.modEng n g).sched = s.sched ∧ (s.modEng n g).wall = s.wall ∧
    (∀ m, (s.modEng n g).tile m = s.tile m) ∧ (∀ m, (s.modEng n g).region m = s.region m) ∧
    (∀ m, (s.modEng n g).gal m = s.gal m) ∧ (∀ m, (s.modEng n g).chan m = s.chan m) ∧
    (∀ m, (s.modEng n g).annex m = s.annex m) ∧ (∀ m, (s.modEng n g).dmaCh m = s.dmaCh m) ∧
    (∀ m, (s.modEng n g).func m = s.func m) ∧ (∀ m, (s.modEng n g).link m = s.link m) ∧
    (∀ m, (s.modEng n g).fdie m = s.fdie m) ∧ (s.modEng n g).ready = s.ready ∧ (s.modEng n g).mode = s.mode ∧
    (s.modEng n g).expert = s.expert ∧ (∀ r, (s.modEng n g).running r = s.running r) ∧
    (s.modEng n g).anyRunning = s.anyRunning ∧ (∀ c, (s.modEng n g).heldAt c = s.heldAt c) :=
  by and_intros <;> intros <;> rfl

/-- `State.modClk` leaves every other field of the state. -/
@[simp] theorem State.modClk_fields (s : State) (g : Clocks → Clocks) :
    (s.modClk g).pending = s.pending ∧ (s.modClk g).regs = s.regs ∧ (s.modClk g).reqs = s.reqs ∧
    (s.modClk g).park = s.park ∧ (s.modClk g).hold = s.hold ∧ (s.modClk g).regions = s.regions ∧
    (s.modClk g).tiles = s.tiles ∧ (s.modClk g).gals = s.gals ∧ (s.modClk g).mpkts = s.mpkts ∧ (s.modClk g).accs = s.accs ∧
    (s.modClk g).chans = s.chans ∧ (s.modClk g).anx = s.anx ∧ (s.modClk g).ext = s.ext ∧ (s.modClk g).hostMem = s.hostMem ∧
    (s.modClk g).dma = s.dma ∧ (s.modClk g).bankOut = s.bankOut ∧ (s.modClk g).fns = s.fns ∧ (s.modClk g).irqs = s.irqs ∧
    (s.modClk g).img = s.img ∧ (s.modClk g).loading = s.loading ∧ (s.modClk g).plans = s.plans ∧
    (s.modClk g).links = s.links ∧ (s.modClk g).fab = s.fab ∧ (s.modClk g).engs = s.engs ∧ (s.modClk g).wts = s.wts ∧
    (s.modClk g).mir = s.mir ∧ (s.modClk g).pwr = s.pwr ∧ (s.modClk g).boot = s.boot ∧ (s.modClk g).milug = s.milug ∧
    (s.modClk g).fuses = s.fuses ∧ (s.modClk g).occ = s.occ ∧ (s.modClk g).boundaryAsk = s.boundaryAsk ∧
    (s.modClk g).scanAt = s.scanAt ∧ (s.modClk g).scans = s.scans ∧ (s.modClk g).vfs = s.vfs ∧
    (s.modClk g).scanDue = s.scanDue ∧ (s.modClk g).written = s.written ∧ (s.modClk g).heldRuns = s.heldRuns ∧
    (s.modClk g).nextId = s.nextId ∧ (s.modClk g).freeCtr = s.freeCtr :=
  by and_intros <;> rfl

/-- What is read elsewhere is as it was. -/
@[simp] theorem State.modClk_reads (s : State) (g : Clocks → Clocks) :
    (∀ k1 i1, (s.modClk g).reg k1 i1 = s.reg k1 i1) ∧ (∀ f1 i1, (s.modClk g).fld f1 i1 = s.fld f1 i1) ∧
    (s.modClk g).cnt = s.cnt ∧ (s.modClk g).sched = s.sched ∧ (s.modClk g).wall = s.wall ∧
    (∀ m, (s.modClk g).tile m = s.tile m) ∧ (∀ m, (s.modClk g).region m = s.region m) ∧
    (∀ m, (s.modClk g).gal m = s.gal m) ∧ (∀ m, (s.modClk g).chan m = s.chan m) ∧ (∀ m, (s.modClk g).annex m = s.annex m) ∧
    (∀ m, (s.modClk g).dmaCh m = s.dmaCh m) ∧ (∀ m, (s.modClk g).func m = s.func m) ∧
    (∀ m, (s.modClk g).link m = s.link m) ∧ (∀ m, (s.modClk g).eng m = s.eng m) ∧ (∀ m, (s.modClk g).fdie m = s.fdie m) ∧
    (s.modClk g).ready = s.ready ∧ (s.modClk g).mode = s.mode ∧ (s.modClk g).expert = s.expert ∧
    (∀ r, (s.modClk g).running r = s.running r) ∧ (s.modClk g).anyRunning = s.anyRunning ∧
    (∀ c, (s.modClk g).heldAt c = s.heldAt c) :=
  by and_intros <;> intros <;> rfl

/-- `State.modPwr` leaves every other field of the state. -/
@[simp] theorem State.modPwr_fields (s : State) (g : PowerSt → PowerSt) :
    (s.modPwr g).pending = s.pending ∧ (s.modPwr g).regs = s.regs ∧ (s.modPwr g).reqs = s.reqs ∧
    (s.modPwr g).park = s.park ∧ (s.modPwr g).hold = s.hold ∧ (s.modPwr g).regions = s.regions ∧
    (s.modPwr g).tiles = s.tiles ∧ (s.modPwr g).gals = s.gals ∧ (s.modPwr g).mpkts = s.mpkts ∧ (s.modPwr g).accs = s.accs ∧
    (s.modPwr g).chans = s.chans ∧ (s.modPwr g).anx = s.anx ∧ (s.modPwr g).ext = s.ext ∧ (s.modPwr g).hostMem = s.hostMem ∧
    (s.modPwr g).dma = s.dma ∧ (s.modPwr g).bankOut = s.bankOut ∧ (s.modPwr g).fns = s.fns ∧ (s.modPwr g).irqs = s.irqs ∧
    (s.modPwr g).img = s.img ∧ (s.modPwr g).loading = s.loading ∧ (s.modPwr g).plans = s.plans ∧
    (s.modPwr g).links = s.links ∧ (s.modPwr g).fab = s.fab ∧ (s.modPwr g).engs = s.engs ∧ (s.modPwr g).wts = s.wts ∧
    (s.modPwr g).mir = s.mir ∧ (s.modPwr g).clk = s.clk ∧ (s.modPwr g).boot = s.boot ∧ (s.modPwr g).milug = s.milug ∧
    (s.modPwr g).fuses = s.fuses ∧ (s.modPwr g).occ = s.occ ∧ (s.modPwr g).boundaryAsk = s.boundaryAsk ∧
    (s.modPwr g).scanAt = s.scanAt ∧ (s.modPwr g).scans = s.scans ∧ (s.modPwr g).vfs = s.vfs ∧
    (s.modPwr g).scanDue = s.scanDue ∧ (s.modPwr g).written = s.written ∧ (s.modPwr g).heldRuns = s.heldRuns ∧
    (s.modPwr g).nextId = s.nextId ∧ (s.modPwr g).freeCtr = s.freeCtr :=
  by and_intros <;> rfl

/-- What is read elsewhere is as it was. -/
@[simp] theorem State.modPwr_reads (s : State) (g : PowerSt → PowerSt) :
    (∀ k1 i1, (s.modPwr g).reg k1 i1 = s.reg k1 i1) ∧ (∀ f1 i1, (s.modPwr g).fld f1 i1 = s.fld f1 i1) ∧
    (s.modPwr g).cnt = s.cnt ∧ (s.modPwr g).sched = s.sched ∧ (s.modPwr g).wall = s.wall ∧
    (∀ m, (s.modPwr g).tile m = s.tile m) ∧ (∀ m, (s.modPwr g).region m = s.region m) ∧
    (∀ m, (s.modPwr g).gal m = s.gal m) ∧ (∀ m, (s.modPwr g).chan m = s.chan m) ∧ (∀ m, (s.modPwr g).annex m = s.annex m) ∧
    (∀ m, (s.modPwr g).dmaCh m = s.dmaCh m) ∧ (∀ m, (s.modPwr g).func m = s.func m) ∧
    (∀ m, (s.modPwr g).link m = s.link m) ∧ (∀ m, (s.modPwr g).eng m = s.eng m) ∧ (∀ m, (s.modPwr g).fdie m = s.fdie m) ∧
    (s.modPwr g).ready = s.ready ∧ (s.modPwr g).mode = s.mode ∧ (s.modPwr g).expert = s.expert ∧
    (∀ r, (s.modPwr g).running r = s.running r) ∧ (s.modPwr g).anyRunning = s.anyRunning ∧
    (∀ c, (s.modPwr g).heldAt c = s.heldAt c) :=
  by and_intros <;> intros <;> rfl

/-- `State.modBoot` leaves every other field of the state. -/
@[simp] theorem State.modBoot_fields (s : State) (g : Boot → Boot) :
    (s.modBoot g).pending = s.pending ∧ (s.modBoot g).regs = s.regs ∧ (s.modBoot g).reqs = s.reqs ∧
    (s.modBoot g).park = s.park ∧ (s.modBoot g).hold = s.hold ∧ (s.modBoot g).regions = s.regions ∧
    (s.modBoot g).tiles = s.tiles ∧ (s.modBoot g).gals = s.gals ∧ (s.modBoot g).mpkts = s.mpkts ∧
    (s.modBoot g).accs = s.accs ∧ (s.modBoot g).chans = s.chans ∧ (s.modBoot g).anx = s.anx ∧ (s.modBoot g).ext = s.ext ∧
    (s.modBoot g).hostMem = s.hostMem ∧ (s.modBoot g).dma = s.dma ∧ (s.modBoot g).bankOut = s.bankOut ∧
    (s.modBoot g).fns = s.fns ∧ (s.modBoot g).irqs = s.irqs ∧ (s.modBoot g).img = s.img ∧
    (s.modBoot g).loading = s.loading ∧ (s.modBoot g).plans = s.plans ∧ (s.modBoot g).links = s.links ∧
    (s.modBoot g).fab = s.fab ∧ (s.modBoot g).engs = s.engs ∧ (s.modBoot g).wts = s.wts ∧ (s.modBoot g).mir = s.mir ∧
    (s.modBoot g).clk = s.clk ∧ (s.modBoot g).pwr = s.pwr ∧ (s.modBoot g).milug = s.milug ∧ (s.modBoot g).fuses = s.fuses ∧
    (s.modBoot g).occ = s.occ ∧ (s.modBoot g).boundaryAsk = s.boundaryAsk ∧ (s.modBoot g).scanAt = s.scanAt ∧
    (s.modBoot g).scans = s.scans ∧ (s.modBoot g).vfs = s.vfs ∧ (s.modBoot g).scanDue = s.scanDue ∧
    (s.modBoot g).written = s.written ∧ (s.modBoot g).heldRuns = s.heldRuns ∧ (s.modBoot g).nextId = s.nextId ∧
    (s.modBoot g).freeCtr = s.freeCtr :=
  by and_intros <;> rfl

/-- What is read elsewhere is as it was. -/
@[simp] theorem State.modBoot_reads (s : State) (g : Boot → Boot) :
    (∀ k1 i1, (s.modBoot g).reg k1 i1 = s.reg k1 i1) ∧ (∀ f1 i1, (s.modBoot g).fld f1 i1 = s.fld f1 i1) ∧
    (s.modBoot g).cnt = s.cnt ∧ (s.modBoot g).sched = s.sched ∧ (s.modBoot g).wall = s.wall ∧
    (∀ m, (s.modBoot g).tile m = s.tile m) ∧ (∀ m, (s.modBoot g).region m = s.region m) ∧
    (∀ m, (s.modBoot g).gal m = s.gal m) ∧ (∀ m, (s.modBoot g).chan m = s.chan m) ∧
    (∀ m, (s.modBoot g).annex m = s.annex m) ∧ (∀ m, (s.modBoot g).dmaCh m = s.dmaCh m) ∧
    (∀ m, (s.modBoot g).func m = s.func m) ∧ (∀ m, (s.modBoot g).link m = s.link m) ∧ (∀ m, (s.modBoot g).eng m = s.eng m) ∧
    (∀ m, (s.modBoot g).fdie m = s.fdie m) ∧ (s.modBoot g).mode = s.mode ∧ (s.modBoot g).expert = s.expert ∧
    (∀ r, (s.modBoot g).running r = s.running r) ∧ (s.modBoot g).anyRunning = s.anyRunning ∧
    (∀ c, (s.modBoot g).heldAt c = s.heldAt c) :=
  by and_intros <;> intros <;> rfl

/-- `State.modMilug` leaves every other field of the state. -/
@[simp] theorem State.modMilug_fields (s : State) (g : Milug → Milug) :
    (s.modMilug g).pending = s.pending ∧ (s.modMilug g).regs = s.regs ∧ (s.modMilug g).reqs = s.reqs ∧
    (s.modMilug g).park = s.park ∧ (s.modMilug g).hold = s.hold ∧ (s.modMilug g).regions = s.regions ∧
    (s.modMilug g).tiles = s.tiles ∧ (s.modMilug g).gals = s.gals ∧ (s.modMilug g).mpkts = s.mpkts ∧
    (s.modMilug g).accs = s.accs ∧ (s.modMilug g).chans = s.chans ∧ (s.modMilug g).anx = s.anx ∧
    (s.modMilug g).ext = s.ext ∧ (s.modMilug g).hostMem = s.hostMem ∧ (s.modMilug g).dma = s.dma ∧
    (s.modMilug g).bankOut = s.bankOut ∧ (s.modMilug g).fns = s.fns ∧ (s.modMilug g).irqs = s.irqs ∧
    (s.modMilug g).img = s.img ∧ (s.modMilug g).loading = s.loading ∧ (s.modMilug g).plans = s.plans ∧
    (s.modMilug g).links = s.links ∧ (s.modMilug g).fab = s.fab ∧ (s.modMilug g).engs = s.engs ∧
    (s.modMilug g).wts = s.wts ∧ (s.modMilug g).mir = s.mir ∧ (s.modMilug g).clk = s.clk ∧ (s.modMilug g).pwr = s.pwr ∧
    (s.modMilug g).boot = s.boot ∧ (s.modMilug g).fuses = s.fuses ∧ (s.modMilug g).occ = s.occ ∧
    (s.modMilug g).boundaryAsk = s.boundaryAsk ∧ (s.modMilug g).scanAt = s.scanAt ∧ (s.modMilug g).scans = s.scans ∧
    (s.modMilug g).vfs = s.vfs ∧ (s.modMilug g).scanDue = s.scanDue ∧ (s.modMilug g).written = s.written ∧
    (s.modMilug g).heldRuns = s.heldRuns ∧ (s.modMilug g).nextId = s.nextId ∧ (s.modMilug g).freeCtr = s.freeCtr :=
  by and_intros <;> rfl

/-- What is read elsewhere is as it was. -/
@[simp] theorem State.modMilug_reads (s : State) (g : Milug → Milug) :
    (∀ k1 i1, (s.modMilug g).reg k1 i1 = s.reg k1 i1) ∧ (∀ f1 i1, (s.modMilug g).fld f1 i1 = s.fld f1 i1) ∧
    (s.modMilug g).cnt = s.cnt ∧ (s.modMilug g).sched = s.sched ∧ (s.modMilug g).wall = s.wall ∧
    (∀ m, (s.modMilug g).tile m = s.tile m) ∧ (∀ m, (s.modMilug g).region m = s.region m) ∧
    (∀ m, (s.modMilug g).gal m = s.gal m) ∧ (∀ m, (s.modMilug g).chan m = s.chan m) ∧
    (∀ m, (s.modMilug g).annex m = s.annex m) ∧ (∀ m, (s.modMilug g).dmaCh m = s.dmaCh m) ∧
    (∀ m, (s.modMilug g).func m = s.func m) ∧ (∀ m, (s.modMilug g).link m = s.link m) ∧
    (∀ m, (s.modMilug g).eng m = s.eng m) ∧ (∀ m, (s.modMilug g).fdie m = s.fdie m) ∧ (s.modMilug g).ready = s.ready ∧
    (s.modMilug g).mode = s.mode ∧ (s.modMilug g).expert = s.expert ∧ (∀ r, (s.modMilug g).running r = s.running r) ∧
    (s.modMilug g).anyRunning = s.anyRunning ∧ (∀ c, (s.modMilug g).heldAt c = s.heldAt c) :=
  by and_intros <;> intros <;> rfl

/-- `State.modFab` leaves every other field of the state. -/
@[simp] theorem State.modFab_fields (s : State) (g : Fab → Fab) :
    (s.modFab g).pending = s.pending ∧ (s.modFab g).regs = s.regs ∧ (s.modFab g).reqs = s.reqs ∧
    (s.modFab g).park = s.park ∧ (s.modFab g).hold = s.hold ∧ (s.modFab g).regions = s.regions ∧
    (s.modFab g).tiles = s.tiles ∧ (s.modFab g).gals = s.gals ∧ (s.modFab g).mpkts = s.mpkts ∧ (s.modFab g).accs = s.accs ∧
    (s.modFab g).chans = s.chans ∧ (s.modFab g).anx = s.anx ∧ (s.modFab g).ext = s.ext ∧ (s.modFab g).hostMem = s.hostMem ∧
    (s.modFab g).dma = s.dma ∧ (s.modFab g).bankOut = s.bankOut ∧ (s.modFab g).fns = s.fns ∧ (s.modFab g).irqs = s.irqs ∧
    (s.modFab g).img = s.img ∧ (s.modFab g).loading = s.loading ∧ (s.modFab g).plans = s.plans ∧
    (s.modFab g).links = s.links ∧ (s.modFab g).engs = s.engs ∧ (s.modFab g).wts = s.wts ∧ (s.modFab g).mir = s.mir ∧
    (s.modFab g).clk = s.clk ∧ (s.modFab g).pwr = s.pwr ∧ (s.modFab g).boot = s.boot ∧ (s.modFab g).milug = s.milug ∧
    (s.modFab g).fuses = s.fuses ∧ (s.modFab g).occ = s.occ ∧ (s.modFab g).boundaryAsk = s.boundaryAsk ∧
    (s.modFab g).scanAt = s.scanAt ∧ (s.modFab g).scans = s.scans ∧ (s.modFab g).vfs = s.vfs ∧
    (s.modFab g).scanDue = s.scanDue ∧ (s.modFab g).written = s.written ∧ (s.modFab g).heldRuns = s.heldRuns ∧
    (s.modFab g).nextId = s.nextId ∧ (s.modFab g).freeCtr = s.freeCtr :=
  by and_intros <;> rfl

/-- What is read elsewhere is as it was. -/
@[simp] theorem State.modFab_reads (s : State) (g : Fab → Fab) :
    (∀ k1 i1, (s.modFab g).reg k1 i1 = s.reg k1 i1) ∧ (∀ f1 i1, (s.modFab g).fld f1 i1 = s.fld f1 i1) ∧
    (s.modFab g).cnt = s.cnt ∧ (s.modFab g).sched = s.sched ∧ (s.modFab g).wall = s.wall ∧
    (∀ m, (s.modFab g).tile m = s.tile m) ∧ (∀ m, (s.modFab g).region m = s.region m) ∧
    (∀ m, (s.modFab g).gal m = s.gal m) ∧ (∀ m, (s.modFab g).chan m = s.chan m) ∧ (∀ m, (s.modFab g).annex m = s.annex m) ∧
    (∀ m, (s.modFab g).dmaCh m = s.dmaCh m) ∧ (∀ m, (s.modFab g).func m = s.func m) ∧
    (∀ m, (s.modFab g).link m = s.link m) ∧ (∀ m, (s.modFab g).eng m = s.eng m) ∧ (s.modFab g).ready = s.ready ∧
    (s.modFab g).mode = s.mode ∧ (s.modFab g).expert = s.expert ∧ (∀ r, (s.modFab g).running r = s.running r) ∧
    (s.modFab g).anyRunning = s.anyRunning ∧ (∀ c, (s.modFab g).heldAt c = s.heldAt c) :=
  by and_intros <;> intros <;> rfl

/-- `State.modWts` leaves every other field of the state. -/
@[simp] theorem State.modWts_fields (s : State) (g : Weights → Weights) :
    (s.modWts g).pending = s.pending ∧ (s.modWts g).regs = s.regs ∧ (s.modWts g).reqs = s.reqs ∧
    (s.modWts g).park = s.park ∧ (s.modWts g).hold = s.hold ∧ (s.modWts g).regions = s.regions ∧
    (s.modWts g).tiles = s.tiles ∧ (s.modWts g).gals = s.gals ∧ (s.modWts g).mpkts = s.mpkts ∧ (s.modWts g).accs = s.accs ∧
    (s.modWts g).chans = s.chans ∧ (s.modWts g).anx = s.anx ∧ (s.modWts g).ext = s.ext ∧ (s.modWts g).hostMem = s.hostMem ∧
    (s.modWts g).dma = s.dma ∧ (s.modWts g).bankOut = s.bankOut ∧ (s.modWts g).fns = s.fns ∧ (s.modWts g).irqs = s.irqs ∧
    (s.modWts g).img = s.img ∧ (s.modWts g).loading = s.loading ∧ (s.modWts g).plans = s.plans ∧
    (s.modWts g).links = s.links ∧ (s.modWts g).fab = s.fab ∧ (s.modWts g).engs = s.engs ∧ (s.modWts g).mir = s.mir ∧
    (s.modWts g).clk = s.clk ∧ (s.modWts g).pwr = s.pwr ∧ (s.modWts g).boot = s.boot ∧ (s.modWts g).milug = s.milug ∧
    (s.modWts g).fuses = s.fuses ∧ (s.modWts g).occ = s.occ ∧ (s.modWts g).boundaryAsk = s.boundaryAsk ∧
    (s.modWts g).scanAt = s.scanAt ∧ (s.modWts g).scans = s.scans ∧ (s.modWts g).vfs = s.vfs ∧
    (s.modWts g).scanDue = s.scanDue ∧ (s.modWts g).written = s.written ∧ (s.modWts g).heldRuns = s.heldRuns ∧
    (s.modWts g).nextId = s.nextId ∧ (s.modWts g).freeCtr = s.freeCtr :=
  by and_intros <;> rfl

/-- What is read elsewhere is as it was. -/
@[simp] theorem State.modWts_reads (s : State) (g : Weights → Weights) :
    (∀ k1 i1, (s.modWts g).reg k1 i1 = s.reg k1 i1) ∧ (∀ f1 i1, (s.modWts g).fld f1 i1 = s.fld f1 i1) ∧
    (s.modWts g).cnt = s.cnt ∧ (s.modWts g).sched = s.sched ∧ (s.modWts g).wall = s.wall ∧
    (∀ m, (s.modWts g).tile m = s.tile m) ∧ (∀ m, (s.modWts g).region m = s.region m) ∧
    (∀ m, (s.modWts g).gal m = s.gal m) ∧ (∀ m, (s.modWts g).chan m = s.chan m) ∧ (∀ m, (s.modWts g).annex m = s.annex m) ∧
    (∀ m, (s.modWts g).dmaCh m = s.dmaCh m) ∧ (∀ m, (s.modWts g).func m = s.func m) ∧
    (∀ m, (s.modWts g).link m = s.link m) ∧ (∀ m, (s.modWts g).eng m = s.eng m) ∧ (∀ m, (s.modWts g).fdie m = s.fdie m) ∧
    (s.modWts g).ready = s.ready ∧ (s.modWts g).mode = s.mode ∧ (s.modWts g).expert = s.expert ∧
    (∀ r, (s.modWts g).running r = s.running r) ∧ (s.modWts g).anyRunning = s.anyRunning ∧
    (∀ c, (s.modWts g).heldAt c = s.heldAt c) :=
  by and_intros <;> intros <;> rfl

/-- `State.modMir` leaves every other field of the state. -/
@[simp] theorem State.modMir_fields (s : State) (g : Mirror → Mirror) :
    (s.modMir g).pending = s.pending ∧ (s.modMir g).regs = s.regs ∧ (s.modMir g).reqs = s.reqs ∧
    (s.modMir g).park = s.park ∧ (s.modMir g).hold = s.hold ∧ (s.modMir g).regions = s.regions ∧
    (s.modMir g).tiles = s.tiles ∧ (s.modMir g).gals = s.gals ∧ (s.modMir g).mpkts = s.mpkts ∧ (s.modMir g).accs = s.accs ∧
    (s.modMir g).chans = s.chans ∧ (s.modMir g).anx = s.anx ∧ (s.modMir g).ext = s.ext ∧ (s.modMir g).hostMem = s.hostMem ∧
    (s.modMir g).dma = s.dma ∧ (s.modMir g).bankOut = s.bankOut ∧ (s.modMir g).fns = s.fns ∧ (s.modMir g).irqs = s.irqs ∧
    (s.modMir g).img = s.img ∧ (s.modMir g).loading = s.loading ∧ (s.modMir g).plans = s.plans ∧
    (s.modMir g).links = s.links ∧ (s.modMir g).fab = s.fab ∧ (s.modMir g).engs = s.engs ∧ (s.modMir g).wts = s.wts ∧
    (s.modMir g).clk = s.clk ∧ (s.modMir g).pwr = s.pwr ∧ (s.modMir g).boot = s.boot ∧ (s.modMir g).milug = s.milug ∧
    (s.modMir g).fuses = s.fuses ∧ (s.modMir g).occ = s.occ ∧ (s.modMir g).boundaryAsk = s.boundaryAsk ∧
    (s.modMir g).scanAt = s.scanAt ∧ (s.modMir g).scans = s.scans ∧ (s.modMir g).vfs = s.vfs ∧
    (s.modMir g).scanDue = s.scanDue ∧ (s.modMir g).written = s.written ∧ (s.modMir g).heldRuns = s.heldRuns ∧
    (s.modMir g).nextId = s.nextId ∧ (s.modMir g).freeCtr = s.freeCtr :=
  by and_intros <;> rfl

/-- What is read elsewhere is as it was. -/
@[simp] theorem State.modMir_reads (s : State) (g : Mirror → Mirror) :
    (∀ k1 i1, (s.modMir g).reg k1 i1 = s.reg k1 i1) ∧ (∀ f1 i1, (s.modMir g).fld f1 i1 = s.fld f1 i1) ∧
    (s.modMir g).cnt = s.cnt ∧ (s.modMir g).sched = s.sched ∧ (s.modMir g).wall = s.wall ∧
    (∀ m, (s.modMir g).tile m = s.tile m) ∧ (∀ m, (s.modMir g).region m = s.region m) ∧
    (∀ m, (s.modMir g).gal m = s.gal m) ∧ (∀ m, (s.modMir g).chan m = s.chan m) ∧ (∀ m, (s.modMir g).annex m = s.annex m) ∧
    (∀ m, (s.modMir g).dmaCh m = s.dmaCh m) ∧ (∀ m, (s.modMir g).func m = s.func m) ∧
    (∀ m, (s.modMir g).link m = s.link m) ∧ (∀ m, (s.modMir g).eng m = s.eng m) ∧ (∀ m, (s.modMir g).fdie m = s.fdie m) ∧
    (s.modMir g).ready = s.ready ∧ (s.modMir g).mode = s.mode ∧ (s.modMir g).expert = s.expert ∧
    (∀ r, (s.modMir g).running r = s.running r) ∧ (s.modMir g).anyRunning = s.anyRunning ∧
    (∀ c, (s.modMir g).heldAt c = s.heldAt c) :=
  by and_intros <;> intros <;> rfl

/-- `State.modFdie` leaves every other field of the state. -/
@[simp] theorem State.modFdie_fields (s : State) (n : Nat) (g : FabDie → FabDie) :
    (s.modFdie n g).pending = s.pending ∧ (s.modFdie n g).regs = s.regs ∧ (s.modFdie n g).reqs = s.reqs ∧
    (s.modFdie n g).park = s.park ∧ (s.modFdie n g).hold = s.hold ∧ (s.modFdie n g).regions = s.regions ∧
    (s.modFdie n g).tiles = s.tiles ∧ (s.modFdie n g).gals = s.gals ∧ (s.modFdie n g).mpkts = s.mpkts ∧
    (s.modFdie n g).accs = s.accs ∧ (s.modFdie n g).chans = s.chans ∧ (s.modFdie n g).anx = s.anx ∧
    (s.modFdie n g).ext = s.ext ∧ (s.modFdie n g).hostMem = s.hostMem ∧ (s.modFdie n g).dma = s.dma ∧
    (s.modFdie n g).bankOut = s.bankOut ∧ (s.modFdie n g).fns = s.fns ∧ (s.modFdie n g).irqs = s.irqs ∧
    (s.modFdie n g).img = s.img ∧ (s.modFdie n g).loading = s.loading ∧ (s.modFdie n g).plans = s.plans ∧
    (s.modFdie n g).links = s.links ∧ (s.modFdie n g).engs = s.engs ∧ (s.modFdie n g).wts = s.wts ∧
    (s.modFdie n g).mir = s.mir ∧ (s.modFdie n g).clk = s.clk ∧ (s.modFdie n g).pwr = s.pwr ∧
    (s.modFdie n g).boot = s.boot ∧ (s.modFdie n g).milug = s.milug ∧ (s.modFdie n g).fuses = s.fuses ∧
    (s.modFdie n g).occ = s.occ ∧ (s.modFdie n g).boundaryAsk = s.boundaryAsk ∧ (s.modFdie n g).scanAt = s.scanAt ∧
    (s.modFdie n g).scans = s.scans ∧ (s.modFdie n g).vfs = s.vfs ∧ (s.modFdie n g).scanDue = s.scanDue ∧
    (s.modFdie n g).written = s.written ∧ (s.modFdie n g).heldRuns = s.heldRuns ∧ (s.modFdie n g).nextId = s.nextId ∧
    (s.modFdie n g).freeCtr = s.freeCtr :=
  by and_intros <;> rfl

/-- What is read elsewhere is as it was. -/
@[simp] theorem State.modFdie_reads (s : State) (n : Nat) (g : FabDie → FabDie) :
    (∀ k1 i1, (s.modFdie n g).reg k1 i1 = s.reg k1 i1) ∧ (∀ f1 i1, (s.modFdie n g).fld f1 i1 = s.fld f1 i1) ∧
    (s.modFdie n g).cnt = s.cnt ∧ (s.modFdie n g).sched = s.sched ∧ (s.modFdie n g).wall = s.wall ∧
    (∀ m, (s.modFdie n g).tile m = s.tile m) ∧ (∀ m, (s.modFdie n g).region m = s.region m) ∧
    (∀ m, (s.modFdie n g).gal m = s.gal m) ∧ (∀ m, (s.modFdie n g).chan m = s.chan m) ∧
    (∀ m, (s.modFdie n g).annex m = s.annex m) ∧ (∀ m, (s.modFdie n g).dmaCh m = s.dmaCh m) ∧
    (∀ m, (s.modFdie n g).func m = s.func m) ∧ (∀ m, (s.modFdie n g).link m = s.link m) ∧
    (∀ m, (s.modFdie n g).eng m = s.eng m) ∧ (s.modFdie n g).ready = s.ready ∧ (s.modFdie n g).mode = s.mode ∧
    (s.modFdie n g).expert = s.expert ∧ (∀ r, (s.modFdie n g).running r = s.running r) ∧
    (s.modFdie n g).anyRunning = s.anyRunning ∧ (∀ c, (s.modFdie n g).heldAt c = s.heldAt c) :=
  by and_intros <;> intros <;> rfl

@[simp] theorem State.modTile_same (s : State) (n : Nat) (g : Tile → Tile) : (s.modTile n g).tile n = g (s.tile n) := mget_mput_same ..

theorem State.modTile_ne (s : State) (n : Nat) (g : Tile → Tile) {m : Nat} (h : m ≠ n) : (s.modTile n g).tile m = s.tile m := mget_mput_ne _ _ _ h

@[simp] theorem State.modRegion_same (s : State) (n : Nat) (g : Region → Region) : (s.modRegion n g).region n = g (s.region n) := mget_mput_same ..

theorem State.modRegion_ne (s : State) (n : Nat) (g : Region → Region) {m : Nat} (h : m ≠ n) : (s.modRegion n g).region m = s.region m := mget_mput_ne _ _ _ h

@[simp] theorem State.modGal_same (s : State) (n : Nat) (g : Gallery → Gallery) : (s.modGal n g).gal n = g (s.gal n) := mget_mput_same ..

theorem State.modGal_ne (s : State) (n : Nat) (g : Gallery → Gallery) {m : Nat} (h : m ≠ n) : (s.modGal n g).gal m = s.gal m := mget_mput_ne _ _ _ h

@[simp] theorem State.modChan_same (s : State) (n : Nat) (g : ChanSt → ChanSt) : (s.modChan n g).chan n = g (s.chan n) := mget_mput_same ..

theorem State.modChan_ne (s : State) (n : Nat) (g : ChanSt → ChanSt) {m : Nat} (h : m ≠ n) : (s.modChan n g).chan m = s.chan m := mget_mput_ne _ _ _ h

@[simp] theorem State.modAnnex_same (s : State) (n : Nat) (g : AnnexPort → AnnexPort) : (s.modAnnex n g).annex n = g (s.annex n) := mget_mput_same ..

theorem State.modAnnex_ne (s : State) (n : Nat) (g : AnnexPort → AnnexPort) {m : Nat} (h : m ≠ n) : (s.modAnnex n g).annex m = s.annex m := mget_mput_ne _ _ _ h

@[simp] theorem State.modDma_same (s : State) (n : Nat) (g : DmaChan → DmaChan) : (s.modDma n g).dmaCh n = g (s.dmaCh n) := mget_mput_same ..

theorem State.modDma_ne (s : State) (n : Nat) (g : DmaChan → DmaChan) {m : Nat} (h : m ≠ n) : (s.modDma n g).dmaCh m = s.dmaCh m := mget_mput_ne _ _ _ h

@[simp] theorem State.modFunc_same (s : State) (n : Nat) (g : Func → Func) : (s.modFunc n g).func n = g (s.func n) := mget_mput_same ..

theorem State.modFunc_ne (s : State) (n : Nat) (g : Func → Func) {m : Nat} (h : m ≠ n) : (s.modFunc n g).func m = s.func m := mget_mput_ne _ _ _ h

@[simp] theorem State.modLink_same (s : State) (n : Nat) (g : Link → Link) : (s.modLink n g).link n = g (s.link n) := mget_mput_same ..

theorem State.modLink_ne (s : State) (n : Nat) (g : Link → Link) {m : Nat} (h : m ≠ n) : (s.modLink n g).link m = s.link m := mget_mput_ne _ _ _ h

@[simp] theorem State.modEng_same (s : State) (n : Nat) (g : Engine → Engine) : (s.modEng n g).eng n = g (s.eng n) := mget_mput_same ..

theorem State.modEng_ne (s : State) (n : Nat) (g : Engine → Engine) {m : Nat} (h : m ≠ n) : (s.modEng n g).eng m = s.eng m := mget_mput_ne _ _ _ h

@[simp] theorem State.setTile_same (s : State) (n : Nat) (T : Tile) : (s.setTile n T).tile n = T := mget_mput_same ..

theorem State.setTile_ne (s : State) (n : Nat) (T : Tile) {m : Nat} (h : m ≠ n) : (s.setTile n T).tile m = s.tile m := mget_mput_ne _ _ _ h

@[simp] theorem State.modClk_same (s : State) (g : Clocks → Clocks) : (s.modClk g).clk = g s.clk := rfl

@[simp] theorem State.modPwr_same (s : State) (g : PowerSt → PowerSt) : (s.modPwr g).pwr = g s.pwr := rfl

@[simp] theorem State.modBoot_same (s : State) (g : Boot → Boot) : (s.modBoot g).boot = g s.boot := rfl

@[simp] theorem State.modMilug_same (s : State) (g : Milug → Milug) : (s.modMilug g).milug = g s.milug := rfl

@[simp] theorem State.modFab_same (s : State) (g : Fab → Fab) : (s.modFab g).fab = g s.fab := rfl

@[simp] theorem State.modWts_same (s : State) (g : Weights → Weights) : (s.modWts g).wts = g s.wts := rfl

@[simp] theorem State.modMir_same (s : State) (g : Mirror → Mirror) : (s.modMir g).mir = g s.mir := rfl

end Sys2Proof.Machine
end

