-- ==== Sys2Proof/Laws/Regs.lean ====
section
/-! SUPPORT. Laws of the register store: bit fields, reading a register or a field after one is set. -/

namespace Sys2Proof.Machine

/-! ## Bit fields -/

theorem bits_lt (v hi lo : Nat) : bits v hi lo < 2 ^ (hi + 1 - lo) := Nat.mod_lt _ (by positivity)

/-- A field is the bits it selects. -/
theorem testBit_bits (v hi lo i : Nat) : (bits v hi lo).testBit i = (decide (i < hi + 1 - lo) && v.testBit (lo + i)) := by
  unfold bits
  rw [Nat.testBit_mod_two_pow, Nat.testBit_div_two_pow, Nat.add_comm i lo]

/-- The bits of a number with a field replaced. -/
theorem testBit_putBits (r hi lo v i : Nat) (h : lo ≤ hi) :
    (putBits r hi lo v).testBit i =
      if lo ≤ i ∧ i ≤ hi then v.testBit (i - lo) else r.testBit i := by
  have hlo : r % 2 ^ lo < 2 ^ lo := Nat.mod_lt _ (by positivity)
  have hv : v % 2 ^ (hi + 1 - lo) < 2 ^ (hi + 1 - lo) := Nat.mod_lt _ (by positivity)
  have e : putBits r hi lo v =
      2 ^ lo * (2 ^ (hi + 1 - lo) * (r / 2 ^ (hi + 1)) + v % 2 ^ (hi + 1 - lo)) + r % 2 ^ lo := by
    unfold putBits
    have : 2 ^ (hi + 1) = 2 ^ lo * 2 ^ (hi + 1 - lo) := by rw [← pow_add]; congr 1; omega
    rw [this]; ring
  rw [e, Nat.testBit_two_pow_mul_add _ hlo]
  by_cases h1 : i < lo
  · rw [if_pos h1, if_neg (by omega), Nat.testBit_mod_two_pow]; simp [h1]
  · rw [if_neg h1, Nat.testBit_two_pow_mul_add _ hv]
    by_cases h2 : i - lo < hi + 1 - lo
    · rw [if_pos h2, if_pos (by omega), Nat.testBit_mod_two_pow]; simp [h2]
    · rw [if_neg h2, if_neg (by omega), Nat.testBit_div_two_pow]; congr 1; omega

/-- A field just replaced. -/
theorem bits_putBits_same (r hi lo v : Nat) (h : lo ≤ hi) : bits (putBits r hi lo v) hi lo = v % 2 ^ (hi + 1 - lo) := by
  refine Nat.eq_of_testBit_eq fun i => ?_
  rw [testBit_bits, testBit_putBits _ _ _ _ _ h, Nat.testBit_mod_two_pow]
  by_cases h1 : i < hi + 1 - lo
  · rw [if_pos (by omega)]; simp
  · simp [h1]

/-- A field that does not meet the one replaced. -/
theorem bits_putBits_ne (r hi lo v hi' lo' : Nat) (h : lo ≤ hi) (hd : hi' < lo ∨ hi < lo') :
    bits (putBits r hi lo v) hi' lo' = bits r hi' lo' := by
  refine Nat.eq_of_testBit_eq fun i => ?_
  rw [testBit_bits, testBit_bits, testBit_putBits _ _ _ _ _ h]
  by_cases h1 : i < hi' + 1 - lo'
  · rw [if_neg (by omega)]
  · simp [h1]

/-- A field below bit 64 of a register as stored. -/
theorem bits_mod64 (v hi lo : Nat) (h : hi < 64) : bits (v % 2 ^ 64) hi lo = bits v hi lo := by
  refine Nat.eq_of_testBit_eq fun i => ?_
  rw [testBit_bits, testBit_bits, Nat.testBit_mod_two_pow]
  by_cases h1 : i < hi + 1 - lo
  · simp [show lo + i < 64 by omega]
  · simp [h1]

/-! ## The register store -/

/-- The register just set. -/
theorem State.reg_setReg_same (s : State) (k : RegKind) (i v : Nat) : (s.setReg k i v).reg k i = v % 2 ^ 64 := by
  simp [State.reg, State.setReg, BitVec.toNat_ofNat]

/-- Any other register. -/
theorem State.reg_setReg_ne (s : State) {k k' : RegKind} {i i' : Nat} (v : Nat) (h : regKey k' i' ≠ regKey k i) :
    (s.setReg k i v).reg k' i' = s.reg k' i' := by
  unfold State.reg State.setReg
  rw [mfind_mput_ne _ _ h]
  rfl

/-- Registers of two kinds, or of one kind and two indices, lie apart. -/
theorem regKey_ne {k k' : RegKind} {i i' : Nat} (hi : i < 2 ^ 32) (hi' : i' < 2 ^ 32) (h : k'.code ≠ k.code ∨ i' ≠ i) :
    regKey k' i' ≠ regKey k i := by unfold regKey; omega

/-- A field just set. -/
theorem State.fld_setFld_same (s : State) (f : Fld) (i v : Nat) (hl : f.lo ≤ f.hi) (hh : f.hi < 64) :
    (s.setFld f i v).fld f i = v % 2 ^ f.width := by
  unfold State.fld State.setFld Fld.width
  rw [State.reg_setReg_same, bits_mod64 _ _ _ hh, bits_putBits_same _ _ _ _ hl]

/-- Another field of the register of a field just set. -/
theorem State.fld_setFld_apart (s : State) (f g : Fld) (i v : Nat) (hk : g.kind = f.kind) (hl : f.lo ≤ f.hi) (hh : g.hi < 64)
    (hd : g.hi < f.lo ∨ f.hi < g.lo) : (s.setFld f i v).fld g i = s.fld g i := by
  unfold State.fld State.setFld
  rw [hk, State.reg_setReg_same, bits_mod64 _ _ _ hh, bits_putBits_ne _ _ _ _ _ _ hl hd]

/-- A field of another register than that of a field just set. -/
theorem State.fld_setFld_ne (s : State) {f g : Fld} {i j : Nat} (v : Nat) (h : regKey g.kind j ≠ regKey f.kind i) :
    (s.setFld f i v).fld g j = s.fld g j := by
  unfold State.fld State.setFld
  rw [State.reg_setReg_ne _ _ h]

/-- Another register than that of a field just set. -/
theorem State.reg_setFld_ne (s : State) {f : Fld} {k : RegKind} {i j : Nat} (v : Nat) (h : regKey k j ≠ regKey f.kind i) :
    (s.setFld f i v).reg k j = s.reg k j := State.reg_setReg_ne _ _ h

/-- A counter raised below its largest value. -/
theorem State.fld_satAdd (s : State) (f : Fld) (i n : Nat) (hl : f.lo ≤ f.hi) (hh : f.hi < 64) :
    (s.satAdd f i n).fld f i = min (s.fld f i + n) (2 ^ f.width - 1) := by
  unfold State.satAdd
  rw [State.fld_setFld_same _ _ _ _ hl hh]
  exact Nat.mod_eq_of_lt (by have : 0 < 2 ^ f.width := by positivity
                             omega)

end Sys2Proof.Machine
end

