-- ==== Sys2Proof/Laws/Resets.lean ====
section
/-! SUPPORT. Laws of the resets: what the free outputs of stopped regions leave as it was. -/

namespace Sys2Proof.Machine

/-- Free scratchpads change the tiles and the counter of free values alone. -/
theorem foldl_spoilTile (ys : List Nat) (s : State) :
    ys.foldl State.spoilTile s =
      { s with tiles := (ys.foldl State.spoilTile s).tiles, freeCtr := (ys.foldl State.spoilTile s).freeCtr } := by
  induction ys generalizing s with
  | nil => rfl
  | cons y ys ih =>
    rw [List.foldl_cons, ih]
    rfl

/-- Of a tile only the scratchpad is changed, and of a tile not named nothing. -/
theorem tile_spoilTile (s : State) (y z : Nat) :
    (s.spoilTile y).tile z = { s.tile z with scratch := ((s.spoilTile y).tile z).scratch } ∧
      (z ≠ y → (s.spoilTile y).tile z = s.tile z) := by
  by_cases h : z = y
  · subst h
    simp [State.spoilTile, State.tile, State.modTile, State.setTile, State.freeStep]
  · simp [State.spoilTile, State.tile, State.modTile, State.setTile, State.freeStep, mget_mput_ne _ _ _ h]

theorem tile_foldl_spoilTile (ys : List Nat) (s : State) (z : Nat) :
    (ys.foldl State.spoilTile s).tile z = { s.tile z with scratch := ((ys.foldl State.spoilTile s).tile z).scratch } ∧
      (z ∉ ys → (ys.foldl State.spoilTile s).tile z = s.tile z) := by
  induction ys generalizing s with
  | nil => exact ⟨rfl, fun _ => rfl⟩
  | cons y ys ih =>
    rw [List.foldl_cons]
    obtain ⟨h1, h2⟩ := ih (s.spoilTile y)
    obtain ⟨g1, g2⟩ := tile_spoilTile s y z
    refine ⟨?_, fun hz => ?_⟩
    · rw [h1, g1]
    · rw [h2 fun h => hz (List.mem_cons_of_mem _ h), g2 fun h => hz (h ▸ List.mem_cons_self)]

end Sys2Proof.Machine
end

