-- ==== Sys2Proof/Laws/Slots.lean ====
section
/-! SUPPORT. Laws of the slot commands: what a slot whose operation acts answers, and that nothing but the tile's results, slips and
the operation's own effect comes of one. -/

namespace Sys2Proof.Machine

/-- An operation that reads no generator or loop index acts on the state as it stands. -/
theorem State.asIssued_other {s : State} {y : Nat} {i : Instr} {f : State → State} (h : readsGens i = false) :
    s.asIssued y i f = f s := by
  simp [State.asIssued, h]

/-- While the S slot of the triple has changed no generator and no level, an operation acts on the state as it stands. -/
theorem State.asIssued_same {s : State} {y : Nat} {i : Instr} {f : State → State}
    (h : (s.tile y).before s.sched = s.tile y) : s.asIssued y i f = f s := by
  simp [State.asIssued, h]

/-- A slot whose operation acts takes its effect, as its triple issued it. -/
theorem State.slotCmd_acts {s : State} {t : Xy} {i : Instr} {supp eff : State → State} (h : s.slotActs t i = true) :
    s.slotCmd (tIx t) i supp eff = s.asIssued (tIx t) i eff := by
  simp only [State.slotActs, Bool.and_eq_true, Bool.or_eq_true] at h
  obtain ⟨⟨hc, hw⟩, ha⟩ := h
  unfold State.slotCmd
  rw [if_pos hc]
  rcases hw with hw | hw
  · simp [hw, ha]
  · by_cases hi : s.issuedNow (tIx t) = true
    · simp [hi, ha]
    · simp only [hi]
      simp [hw, ha]

/-- The command of a slot whose operation acts answers its effect. -/
theorem State.slotOut_acts {s : State} {t : Xy} {i : Instr} {eff supp : State → State} (h : s.slotActs t i = true) :
    s.slotOut t i eff supp = .next (s.asIssued (tIx t) i eff) := by
  unfold State.slotOut; rw [State.slotCmd_acts h]

/-- A tile that cannot act is left as it was, with the whole state. -/
theorem State.slotCmd_idle {s : State} {y : Nat} {i : Instr} {supp eff : State → State} (h : s.canAct y = false) :
    s.slotCmd y i supp eff = s := by
  unfold State.slotCmd; simp [h]

end Sys2Proof.Machine
end

