-- ==== Sys2Proof/Tests/Base.lean ====
section
/-! SUPPORT. The small states the tests run on, and how a test reads a command's outcome. -/

namespace Sys2Proof.Tests
open Sys2Proof Sys2Proof.Machine

/-- The command answers a next state of which `f` holds. -/
def after (i : Instr) (s : State) (f : State → Bool) : Bool :=
  match exec i s with
  | .next u => f u
  | _ => false

/-- A module that has started, its firmware running, with no image. -/
def up : State :=
  { State.reset with
    boot := { State.reset.boot with vstby := true, stage := 7, firmware := true }
    pwr := { stage := true, rails := State.reset.railsOn, vin := 5200 } }

/-- Tile (0, 0), and a command of the PF. -/
def t00 : Xy := ⟨0, 0⟩
def pf : Cmd := ⟨0, 7, false, 0⟩

/-- An image whose gallery 0 is region 0's with its first two tiles active; region 0 serves with engine 0. -/
def img0 : Image where
  expert := false
  signed := false
  grade := 0x0A
  profile := 1
  id := 0x77
  setup := []
  digest := []
  mode := { ixlGen := 2, start := 1, headroom := 4, partner := 0xFFFFF, suspect := 3 }
  regions := [⟨0, 1, 1, 0xFF, 1⟩]
  gals := [⟨0, 5⟩]
  circs := [⟨7, 0, 0, 1, 0, 1, 4, 0, [1]⟩]
  hands := []
  mem := ⟨0, 0, 48, 0, 1⟩
  refs := []
  ports := []
  vits := [⟨0, 0, 4, 1, 100, 65536⟩]
  grants := []
  fabs := []
  pads := 0
  pairRaw := []

/-- The module with that image, the gallery awake. -/
def held0 : State := { up with img := some img0, gals := [(0, { awake := true })] }

/-- Tile (0, 0) in an invocation, its triple of this cycle issued, handle 1 over its first 4 KiB for reading and writing. -/
def live (T : Tile := {}) : State :=
  ({ held0 with
     tiles := [(0, { T with inInv := true, lastAt := 1, moved := false })]
     regions := [(0, { inInv := true, running := true, begun := true })] }.setReg .tilHndb 1 (4096 * 2 ^ 32)).setReg
    .tilHndc 1 0x8300

/-- The 64 bytes of a command entry, laid out from R338 and the operands' places in R340. -/
def entryOf (i : Instr) (c : Cmd) (op : Nat) : List Byte :=
  (List.range 64).map fun k =>
    match (operandsOf i).find? fun o => decide (o.1 ≤ k) && decide (k < o.1 + o.2.1) with
    | some o => BitVec.ofNat 8 (o.2.2 / 256 ^ (k - o.1))
    | none => (leBytes 2 op ++ leBytes 1 (2 * b2n c.irq) ++ [0] ++ leBytes 4 c.tag.toNat).getD k 0

/-- The state with a command in the entry its ring's last scan took, the completion ring of its function enabled, every VF enabled. -/
def ask (i : Instr) (c : Cmd) (op : Nat) (s : State) : State :=
  { (s.setReg .hstCplring c.fn 0x20001) with
    vfs := 15
    fns := mput s.fns c.fn { s.func c.fn with taken := [⟨c.index, entryOf i c op, 0⟩] } }

/-- The state with a whole message in the controller's hands. -/
def told (type : Nat) (ref : BitVec 64) (body : List Byte) (s : State) (origin : Nat := 0) : State :=
  { s with fab := { s.fab with inbox := s.fab.inbox ++ [⟨type, origin, ref, 1, [(0, body)], 0⟩] } }

/-- The state with a packet for this module that has come. -/
def comes (p : Packet) (s : State) : State := s.deliver 0 p

/-- The state with the payload of a FABRIC flit on a port. -/
def flitIn (p : Nat) (b : List Byte) (s : State) : State := s.modLink p fun L => { L with fabricIn := L.fabricIn ++ [b] }

end Sys2Proof.Tests
end

