-- ==== Sys2Proof/Tests/Hosts.lean ====
section
/-! SUPPORT. Tests of chapters 08, 09 and 01: DMA, images and plans, rings, register writes. -/

set_option Elab.async false

namespace Sys2Proof.Tests
open Sys2Proof Sys2Proof.Machine

/-! ## DMA -/

/-- The module with an image that grants channel 0 of IO-N GDDR7 and channel 0 of D0 its mesh, in every cycle. -/
def granted : State := { held0 with img := some { img0 with grants := [⟨8, 0, 1, 1, 0⟩, ⟨0, 0, 0, 1, 0⟩, ⟨0, 0, 1, 1, 0⟩] } }

def n0 : Chan := ⟨8, 0⟩
def d0 : Chan := ⟨0, 0⟩

/-- A channel that runs from its registers. -/
def runs (c : Chan) (src dst len ctl : Nat) (q : DmaChan := {}) : State :=
  let ix := chIx c
  let s := ((((granted.setReg .dmaSrc ix src).setReg .dmaDst ix dst).setReg .dmaLen ix len).setReg .dmaCtl ix ctl).setFld F.dmaStat_state ix 1
  { s with dma := [(ix, q)], ext := [(0x1000, 7)], hostMem := [(0x2000, 8)] }

theorem witness_DmaControlsAndDrains_dmaStart :
    let d : Desc := ⟨0x1000, 0x2000, 64, 8, 0⟩
    let s := ask (.dmaStart pf n0 d) pf 6 granted
    chanExists n0 = true ∧ s.begins (.dmaStart pf n0 d) pf 0x0006 false ∧ s.spAbsent (ctlSrcsp d.ctrl.toNat) d.src.toNat = false ∧
    s.dmaState 256 ≠ 1 ∧ s.dmaState 256 ≠ 2 ∧ s.descCheck 256 d = 0 ∧
    after (.dmaStart pf n0 d) s (fun u => u.dmaState 256 == 1 && u.reg .dmaSrc 256 == 0x1000) = true :=
  ⟨by decide +kernel, ⟨by decide +kernel, by decide +kernel, by decide +kernel⟩, by decide +kernel, by decide +kernel, by decide +kernel,
   by decide +kernel, by decide +kernel⟩

/-- R10: a scratchpad of D3 in a descriptor, on the smaller grade: 0x0021, and nothing starts. -/
theorem test_dma_absent_tile :
    let d : Desc := ⟨48 * 2 ^ 40, 0x2000, 64, 2, 0⟩
    let s := ask (.dmaStart pf d0 d) pf 6 { granted with fuses := { granted.fuses with grade := true } }
    after (.dmaStart pf d0 d) s (fun u => (u.func 0).cpls.map (·.status) == [0x0021] && u.dmaState 0 == 0) = true := by decide +kernel

/-- GO of a stored descriptor; PAUSE, RESUME and ABORT in the states that take them. -/
theorem witness_DmaControlsAndDrains_dmaControls :
    (let s := (runs n0 0x1000 0x2000 64 8).setFld F.dmaStat_state 256 0
     let v : BitVec 32 := 0x80000008
     let low := putBits (bits v.toNat 15 0) 7 6 0
     s.mayWrite (.host 0) = true ∧ s.chanHere 256 = true ∧ v.getLsbD 31 = true ∧ v.getLsbD 29 = false ∧ v.getLsbD 30 = false ∧
     s.descCheck 256 { s.dmaRegs 256 with ctrl := BitVec.ofNat 32 low } = 0 ∧
     after (.dmaGo (.host 0) n0 0 v) s (fun u => u.dmaState 256 == 1) = true) ∧
    (let s := runs n0 0x1000 0x2000 64 8
     s.dmaState 256 = 1 ∧ (s.dmaCh 256).drain = .none ∧ after (.dmaPause (.host 0) n0 0 0x40000000) s (fun u => u.dmaState 256 == 2) = true ∧
     after (.dmaAbort (.host 0) n0 0 0x60000000) s (fun u => u.dmaState 256 == 2 && (u.dmaCh 256).drain == .abort) = true) ∧
    (let s := (runs n0 0x1000 0x2000 64 8).setFld F.dmaStat_state 256 3
     s.dmaState 256 = 3 ∧ (s.dmaCh 256).haltAt ≠ s.cnt + 1 ∧ after (.dmaResume (.host 0) n0 0 0) s (fun u => u.dmaState 256 == 1) = true ∧
     after (.dmaAbort (.host 0) n0 0 0x60000000) s (fun u => u.dmaState 256 == 0) = true) := by decide +kernel

theorem witness_DmaControlsAndDrains_dmaDrainEnd :
    [DrainKind.pause, .abort, .fail].all (fun k =>
      let s := (runs n0 0x1000 0x2000 64 8 { drain := k, failAddr := 0x1010, failCause := 4 }).setFld F.dmaStat_state 256 2
      decide ((s.dmaCh 256).wr = (s.dmaCh 256).wrSent) && decide ((s.dmaCh 256).rd = (s.dmaCh 256).rdSent) &&
        decide (s.dmaLimit 256 ≤ (s.dmaCh 256).wr) && decide ((s.dmaCh 256).drain ≠ .none) &&
        decide ((s.dmaCh 256).drainAt ≠ s.cnt + 1) &&
        after (.dmaDrainEnd n0) s fun u => u.dmaState 256 == (match k with | .pause => 3 | .abort => 0 | _ => 4)) = true := by decide +kernel

/-- Reads of GDDR7, host memory and a scratchpad. -/
theorem witness_DmaAccesses_dmaReads :
    (let s := runs n0 0x1000 0x2000 64 8
     s.dmaNextAcc 256 false = some (0, 0x1000, 64) ∧ s.dmaMay 256 0 0x1000 = true ∧ s.dmaCause 256 false 0 0x1000 64 = 0 ∧
     after (.dmaSlotAccess n0 ⟨false, .clean⟩) s (fun u => (u.dmaCh 256).buf.take 2 == [7, 0] && u.reg .dmaSrc 256 == 0x1040) = true) ∧
    (let s := runs n0 0x2000 0x1000 64 1
     s.dmaNextAcc 256 false = some (1, 0x2000, 64) ∧ s.dmaMay 256 1 0x2000 = true ∧ s.dmaCause 256 false 1 0x2000 64 = 0 ∧
     after (.dmaSlotAccess n0 ⟨false, .clean⟩) s (fun u => (u.dmaCh 256).buf.take 2 == [8, 0]) = true) := by decide +kernel

/-- A channel of D0 whose anchor is tile (8, 12) reads offset 64 of handle 1 of tile (9, 12), the next one. -/
def dieRun (ctl : Nat) (q : DmaChan := {}) : State :=
  let a := 9 * 2 ^ 40 + 12 * 2 ^ 32 + 1 * 2 ^ 24 + 64
  let s := (((runs d0 a a 64 ctl q).setReg .tilHndb (64 * 777 + 1) (4096 * 2 ^ 32)).setReg .tilHndc (64 * 777 + 1) 0x8300)
  { s with
    img := some { img0 with gals := List.replicate 50 ⟨0xFF, 0⟩ ++ [⟨0, 5⟩], grants := [⟨0, 0, 0, 1, 0⟩, ⟨0, 0, 1, 1, 0⟩] }
    gals := [(50, { awake := true })] }

theorem witness_DmaAccesses_dmaScratchpad :
    (let a := 9 * 2 ^ 40 + 12 * 2 ^ 32 + 1 * 2 ^ 24 + 64
     (dieRun 2).dmaNextAcc 0 false = some (2, a, 64) ∧ (dieRun 2).dmaMay 0 2 a = true ∧ (dieRun 2).dmaCause 0 false 2 a 64 = 0 ∧
     after (.dmaSlotAccess d0 ⟨false, .clean⟩) (dieRun 2) (fun u => u.mpkts.map (fun p => (p.src, p.at_, p.off)) == [(777, 776, 64)]) = true) ∧
    (let a := 9 * 2 ^ 40 + 12 * 2 ^ 32 + 1 * 2 ^ 24 + 64
     let s := dieRun 0x10 { rd := 64, rdSent := 64, buf := List.replicate 64 3 }
     s.dmaNextAcc 0 true = some (2, a, 64) ∧ s.dmaMay 0 2 a = true ∧ s.dmaCause 0 true 2 a 64 = 0 ∧
     after (.dmaSlotAccess d0 ⟨true, .clean⟩) s (fun u => u.mpkts.map (fun p => p.data.length) == [64]) = true) := by decide +kernel

/-- Writes: 64 bytes to GDDR7 with SWAP 1, a narrow one before and after its read slot, and one to host memory. -/
theorem witness_DmaAccesses_dmaWrites :
    (let s := runs n0 0x2040 0x200000 64 0x101 { rd := 64, rdSent := 64, buf := 1 :: 2 :: List.replicate 62 0 }
     s.dmaNextAcc 256 true = some (0, 0x200000, 64) ∧ s.dmaMay 256 0 0x200000 = true ∧ s.dmaCause 256 true 0 0x200000 64 = 0 ∧
     memWf s.ext = true ∧ after (.dmaSlotAccess n0 ⟨true, .clean⟩) s (fun u => rdBytes u.ext 0x200000 3 == [2, 1, 0]) = true) ∧
    (let s (r : Bool) := runs n0 0x2004 0x200000 4 1 { rd := 4, rdSent := 4, buf := [1, 2, 3, 4], rmw := r }
     (s false).dmaNextAcc 256 true = some (0, 0x200000, 4) ∧ (s false).dmaMay 256 0 0x200000 = true ∧ (s false).dmaCause 256 true 0 0x200000 4 = 0 ∧
     ((s false).dmaCh 256).rmw = false ∧ ((s true).dmaCh 256).rmw = true ∧
     after (.dmaSlotAccess n0 ⟨true, .clean⟩) (s false) (fun u => u.ext == [(0x1000, 7)] && (u.dmaCh 256).rmw) = true ∧
     after (.dmaSlotAccess n0 ⟨true, .clean⟩) (s true) (fun u => rdBytes u.ext 0x200000 5 == [1, 2, 3, 4, 0]) = true) ∧
    (let s := runs n0 0x1040 0x2000 64 8 { rd := 64, rdSent := 64, buf := 1 :: List.replicate 63 0 }
     s.dmaNextAcc 256 true = some (1, 0x2000, 64) ∧ s.dmaMay 256 1 0x2000 = true ∧ s.dmaCause 256 true 1 0x2000 64 = 0 ∧
     memWf s.hostMem = true ∧ after (.dmaSlotAccess n0 ⟨true, .clean⟩) s (fun u => rdBytes u.hostMem 0x2000 2 == [1, 0]) = true) := by decide +kernel

/-- A chained descriptor at 0x1000, read alone in a slot of the GDDR7 grant: the one there is LEN 64 of GDDR7 to the host, and one of
LEN 0 halts the channel with cause 9. -/
def fetching (ext : List Host.Cell) : State :=
  { (runs n0 0 0 0 8 { fetch := true }).setReg .dmaNext 256 0x1001 with ext := ext }

theorem witness_DmaAccesses_fetch :
    (let s := fetching [(0x1001, 0x30), (0x1009, 0x20), (0x1010, 64), (0x1014, 8)]
     s.dmaNextAcc 256 false = some (0, 0x1000, 32) ∧ s.dmaMay 256 0 0x1000 = true ∧ s.dmaCause 256 false 0 0x1000 32 = 0 ∧
     s.descCheck 256 (s.descAt 0x1000) = 0 ∧ (s.dmaCh 256).drain = .none ∧
     after (.dmaSlotAccess n0 ⟨false, .clean⟩) s (fun u => u.dmaState 256 == 1 && u.reg .dmaSrc 256 == 0x3000 && (u.dmaCh 256).desc == 0x1000) = true) ∧
    (let s := fetching []
     s.dmaNextAcc 256 false = some (0, 0x1000, 32) ∧ s.dmaMay 256 0 0x1000 = true ∧ s.descCheck 256 (s.descAt 0x1000) ≠ 0 ∧
     after (.dmaSlotAccess n0 ⟨false, .clean⟩) s (fun u => u.dmaState 256 == 4 && u.fld F.dmaStat_cause 256 == 9) = true) := by decide +kernel

/-- A read whose data are poisoned, or that gets no response; the read half of a narrow write. -/
theorem witness_DmaAccesses_annexLoss :
    let s := runs n0 (annexBase 0) 0x2000 64 8
    s.dmaNextAcc 256 false = some (0, annexBase 0, 64) ∧ annexPortOf (annexBase 0) = some 0 ∧
    after (.dmaAccessFail n0 false (BitVec.ofNat 64 (annexBase 0)) .poisoned) s (fun u => (u.dmaCh 256).failCause == 5) = true ∧
    after (.dmaAccessFail n0 false (BitVec.ofNat 64 (annexBase 0)) .timeout) s (fun u => (u.dmaCh 256).failCause == 5) = true ∧
    (let s := runs n0 0x1004 (annexBase 0) 4 8 { rd := 4, rdSent := 4, buf := [1, 2, 3, 4] }
     s.setFld F.dmaCtl_dstsp 256 0 |>.dmaNextAcc 256 true) = some (0, annexBase 0, 4) ∧
    after (.dmaAccessFail n0 true (BitVec.ofNat 64 (annexBase 0)) .poisoned)
      ((runs n0 0x1004 (annexBase 0) 4 8 { rd := 4, rdSent := 4, buf := [1, 2, 3, 4] }).setFld F.dmaCtl_dstsp 256 0)
      (fun u => (u.dmaCh 256).failCause == 5 && (u.dmaCh 256).failWrite) = true := by decide +kernel

theorem witness_DmaAccesses_dmaAccessFail :
    let s := runs n0 0x1000 0x2000 64 8
    s.dmaNextAcc 256 false = some (0, 0x1000, 64) ∧ (0x1000 : Nat) ≤ (0x103F : BitVec 64).toNat ∧ (0x103F : BitVec 64).toNat < 0x1000 + 64 ∧
    (s.dmaCh 256).drain ≠ .fail ∧ (s.dmaCh 256).fetch = false ∧ (0x1000 : Nat) < s.gddrSize ∧ s.dmaMay 256 0 0x1000 = true ∧
    after (.dmaSlotAccess n0 ⟨false, .lost⟩) s (fun u => (u.dmaCh 256).drain == .fail && (u.dmaCh 256).failCause == 4) = true ∧
    after (.dmaAccessFail n0 false 0x103F .granule) s (fun u => (u.dmaCh 256).drain == .fail && (u.dmaCh 256).failAddr == 0x103F) = true := by
  decide +kernel

/-- A DMA packet at the anchor, its tile one hop east; a gate asked for on banks 3 and 4, a write outstanding toward 4. -/
theorem witness_DmaPacketsAndGates :
    (let p : MPkt := { id := 1, kind := .dma, src := 777, dst := 777, at_ := 776, handle := 1, off := 64 }
     let s : State := { (dieRun 2).setReg .ptcSched 0 8 with mpkts := [p] }
     s.pkt 1 = some p ∧ s.held = false ∧ p.at_ ≠ p.dst ∧ s.farEnd 776 (nextDir 776 777) = .tile 777 ∧ s.dmaHops p (nextDir 776 777) 777 = true ∧
     after (.dmaPacketHop 1) s (fun u => u.mpkts.map (·.at_) == [777]) = true) ∧
    (let s : State := { held0 with tiles := [(0, { gateReq := 0x18 })], bankOut := [(4, 1)] }
     after (.bankGateEffect t00) s (fun u => (u.tile 0).gateReq == 0x10) = true) ∧
    (let s : State := { held0 with gals := [(0, { awake := true, gatePend := true })] }
     (s.gal (galOf t00)).gatePend = true ∧ (∀ k < 16, ∀ b < 32, mget s.bankOut (32 * tIx (tileAt (galOf t00) k) + b) 0 = 0) ∧
     after (.bankGateEffect t00) s (fun u => !(u.gal 0).awake) = true) := by decide +kernel

/-! ## Images and plans -/

/-- Commands of the PF and of a VF begin; a load whose 256 bytes are no image is refused, and one in its apply phase ends. -/
theorem witness_ImagesAndPlans_loadImage :
    (let s := ask (.loadImage pf 0x1000 256 true) pf 1 up
     s.loading = none ∧ s.begins (.loadImage pf 0x1000 256 true) pf 0x0001 false ∧ s.fwPass 0 false 0x1000 256 = true ∧ s.idleForLoad = true ∧
     after (.loadImage pf 0x1000 256 true) s (fun u => u.loading.isSome && u.fld F.hstHistate_state 0 == 1) = true) ∧
    (let s : State := { up with loading := some ⟨pf, List.replicate 256 0, true, false, []⟩ }
     after (.loadImage pf 0x1000 256 true) s (fun u => u.loading == none && ((u.func 0).cpls.map (·.status)) == [0x0031]) = true) ∧
    (let s : State := { up with loading := some ⟨pf, [], true, true, []⟩ }
     s.ringStopped 0 = false ∧ after (.loadImage pf 0 0 true) s (fun u => (u.func 0).cpls.map (·.status) == [0]) = true) :=
  ⟨⟨by decide +kernel, ⟨by decide +kernel, by decide +kernel, by decide +kernel⟩, by decide +kernel, by decide +kernel, by decide +kernel⟩,
   by decide +kernel, by decide +kernel⟩

/-- The command of a VF, in its entry; one whose entry holds another address does not begin (R337). -/
theorem witness_ImagesAndPlans_nop :
    let c : Cmd := ⟨15, 9, true, 3⟩
    let s := ask (.nopCommand c) c 0 up
    s.begins (.nopCommand c) c 0x0000 true ∧
    after (.nopCommand c) s (fun u => (u.func 15).cpls.map (fun c => (c.tag, c.index, c.irq)) == [(9, 3, true)]) = true :=
  ⟨⟨by decide +kernel, by decide +kernel, by decide +kernel⟩, by decide +kernel⟩

theorem test_operands_of_the_entry :
    after (.planFree pf 4) (ask (.planFree pf 3) pf 3 up) (fun u => (u.func 0).taken.length == 1 && (u.func 0).cpls == []) = true := by decide +kernel

/-- An image of no bytes is no plan; a plan in use by a running region, and one in use by none. -/
def withPlan (run : Bool) : State :=
  let p : Plan := { id := 3, region := 0, expert := false, profile := 1, offset := 0, bytes := 0, digest := [], text := [], dcount := [],
                    dstride := [], gens := [], params := [] }
  { held0 with plans := [p], regions := [(0, { plan := some 3, running := run })] }

theorem witness_ImagesAndPlans_plans :
    (let s := ask (.planLoad pf 0x1000 0) pf 2 held0
     s.begins (.planLoad pf 0x1000 0) pf 0x0002 false ∧ s.fwPass 0 false 0x1000 0 = true ∧ s.planCheck [] ≠ 0 ∧
     after (.planLoad pf 0x1000 0) s (fun u => u.plans == [] && (u.func 0).cpls.length == 1) = true) ∧
    ((∃ r < 8, (withPlan true).running r = true ∧ ((withPlan true).region r).plan = some (3 : BitVec 32).toNat) ∧
     after (.planFree pf 3) (ask (.planFree pf 3) pf 3 (withPlan true)) (fun u => (u.func 0).cpls.map (·.status) == [0x0049]) = true) ∧
    ((∀ r < 8, (withPlan false).running r = true → ((withPlan false).region r).plan ≠ some (3 : BitVec 32).toNat) ∧
     ((withPlan false).planOf 3).isSome = true ∧
     after (.planFree pf 3) (ask (.planFree pf 3) pf 3 (withPlan false)) (fun u => u.plans == [] && (u.region 0).plan == none) = true) :=
  ⟨⟨⟨by decide +kernel, by decide +kernel, by decide +kernel⟩, by decide +kernel, by decide +kernel, by decide +kernel⟩, by decide +kernel,
   by decide +kernel⟩

/-- A streamed plan of 1,361 triples whose fetcher may read, whose block may land, and whose block may be broadcast. -/
def stream (v : Gallery) (at_ : Nat) : State :=
  let p : Plan := { id := 3, region := 0, expert := false, profile := 1, offset := 0, bytes := 40000, digest := [], text := List.replicate 1361 0,
                    dcount := [], dstride := [], gens := [], params := [] }
  { held0.setReg .ptcSched 0 at_ with
    plans := [p], regions := [(0, { plan := some 3, running := true, inInv := true, begun := true })], gals := [(0, { v with awake := true })] }

theorem witness_ImagesAndPlans_streams :
    (let s := stream { nextBlock := 85 } 600
     (s.streaming 0).isSome = true ∧ s.held = false ∧ s.galPos 0 % 6 = 0 ∧ (s.gal 0).opp ≤ s.galPos 0 / 6 ∧ (s.gal 0).staged.length < 128 ∧
     (s.gal 0).nextBlock < (1361 + 15) / 16 ∧
     after (.fetchOpportunity 0 9) s (fun u => (u.gal 0).staged.map (·.land) == [1240] && u.reqs.map (·.len) == [9]) = true) ∧
    (let s := stream { staged := [⟨70, 640, false, [], 0⟩] } 640
     (s.gal 0).staged.find? (fun b => !b.landed) = some ⟨70, 640, false, [], 0⟩ ∧ 640 ≤ s.galPos 0 ∧
     after (.blockLanding 0 []) s (fun u => (u.gal 0).staged.map (·.landed) == [true]) = true) ∧
    (let s := stream { staged := [⟨70, 640, true, [], 0⟩], ring := List.range 20, ringFree := [(600, 0)] } 640
     (s.gal 0).ringFree = [(600, 0)] ∧ (∀ k < 21, s.blockPassed 0 k = false) ∧ 600 ≤ s.sched ∧ (s.gal 0).lastBcast ≤ s.sched ∧
     after (.blockBroadcast 0) s (fun u => (u.gal 0).ring.length == 21 && (u.tile 1).bcastAt.map (·.1) == [70]) = true) := by decide +kernel

/-! ## Rings -/

/-- The PF's rings: 64 entries each, at 0x10000, 0x20000 and 0x30000, the status block at 0x8000; a completion and an event wait. -/
def rings (mem : List Host.Cell) (f : Func := {}) : State :=
  let s := (((up.setReg .hstCmdring 0 0x10001).setReg .hstCplring 0 0x20001).setReg .hstEvring 0 0x30001).setReg .hstSbaddr 0 0x8000
  { s with hostMem := mem, fns := [(0, f)], scanDue := true }

/-- One NOP in the first entry, with TAG 5, and nothing behind it. -/
theorem witness_HostRings_ringScan :
    let s := rings [(0x10002, 1), (0x10004, 5)]
    s.scanIsDue = true ∧ s.fld F.hstCmdring_enable 0 = 1 ∧ s.ringStopped 0 = false ∧ (∀ fn < 16, 0 < fn → s.fld F.hstCmdring_enable fn = 0) ∧
    s.fwPass 0 false (s.sbAddr 0) 12 = true ∧ s.fwPass 0 false 0x10000 64 = true ∧ s.fwPass 0 false 0x10040 64 = true ∧
    (s.func 0).taken = [] ∧ (rdByte s.hostMem 0x10002).getLsbD 0 = (s.func 0).cmdPhase ∧ (rdByte s.hostMem 0x10042).getLsbD 0 = !true ∧
    s.badStatus 0 ⟨0, rdBytes s.hostMem 0x10000 64, 1⟩ = none ∧
    after (.ringScan ⟨[], 3⟩) s (fun u => (u.func 0).taken.length == 1 && (u.func 0).cmdIdx == 1 && u.vfs == 3) = true ∧
    up.scanIsDue = false ∧ { up with scanDue := true }.scanIsDue = true ∧ (∀ fn < 16, up.fld F.hstCmdring_enable fn = 0) := by decide +kernel

def cpl0 : Cpl := ⟨0, 5, 0, 0, true, 0, none⟩
def ev0 : Ev := ⟨0x0250, 10, 0, 77, []⟩

theorem witness_HostRings_completionsAndEvents :
    (let s := rings [] { cpls := [cpl0], evs := [ev0], irqPend := 2 }
     s.fnOn 0 = true ∧
     s.fwPass 0 true (s.sbAddr 0 + 0x20) 12 = true ∧ memWf s.hostMem = true ∧ s.cplFull 0 = false ∧ s.fwPass 0 true 0x20000 32 = true ∧
     (0x20000 + 32 ≤ s.sbAddr 0 + 0x20 ∨ s.sbAddr 0 + 0x2C ≤ 0x20000) ∧ s.fld F.hstEvring_enable 0 = 1 ∧ (s.func 0).held = [] ∧
     (s.func 0).lostNote = 0 ∧ firstEv (s.func 0).evs = some (ev0, []) ∧ s.evFull 0 = false ∧ s.fwPass 0 true 0x30000 32 = true ∧
     (s.func 0).irqPend.getLsbD 1 = true ∧ s.ready = true ∧ mfind (s.func 0).irqLast 1 = none ∧
     after (.completionWrite 0) s (fun u => rdByte u.hostMem 0x20004 == 5 && rdByte u.hostMem 0x20002 == 1) = true ∧
     after (.eventWrite 0) s (fun u => rdBytes u.hostMem 0x30000 3 == [0x50, 0x02, 1]) = true ∧
     after (.interruptRaise 0 1) s (fun u => u.irqs.map (·.2.1) == [1]) = true) ∧
    (let s := rings [] { evs := [ev0], evIdx := 63 }
     s.evFull 0 = true ∧ after (.eventWrite 0) s (fun u => u.hostMem == [] && u.fld F.hstEvstat_lost 0 == 1) = true) := by decide +kernel

theorem witness_HostRings_ringStops :
    (let s := rings [] { cpls := [cpl0], evs := [ev0] }
     s.ringStopped 0 = false ∧ after (.ringAccessFail 0 0x12345) s (fun u => u.fld F.hstRingstat_failaddr 0 == 0x123 && u.ringStopped 0) = true ∧
     s.ready = true ∧ (0x50003 : BitVec 64).getLsbD 0 = true ∧ bits (up.reg (ringKind 0) 15) 0 0 = 0 ∧ { up with vfs := 15 }.fnOn 15 = true ∧
     after (.ringEnable 15 0 0x50003) { up with vfs := 15 } (fun u => u.reg .hstCmdring 15 == 0x50003) = true) ∧
    (let s := (rings []).setFld F.hstRingstat_state 0 2
     s.ringStopped 0 = true ∧ after (.ringRestart 0) s (fun u => u.fld F.hstRingstat_state 0 == 1) = true) ∧
    after (.vfFlr 15) { up with vfs := 15, fns := [(15, { cmdIdx := 9 })] } (fun u => u.func 15 == {}) = true ∧
    after (.vfFlr 15) { up with vfs := 15, engs := [(0, { reqs := [(5, { state := 2, fn := 15 })] })] } (fun u =>
      u.func 15 == { lostNote := 1 } && u.fld F.hstEvstat_lost 15 == 1) = true := by decide +kernel

/-! ## Register writes -/

theorem witness_RegisterAndWindowWrites_registerWrite :
    up.mayWrite (.host 0) = true ∧ commonKind .fabBarctl = true ∧ 0 < (RegKind.fabBarctl).count ∧ dmaRegHere ⟨.fabBarctl, 0⟩ = true ∧ up.loading = none ∧ accessDie ⟨.fabBarctl, 0⟩ 0 = none ∧
    after (.registerWrite (.host 0) ⟨.fabBarctl, 0⟩ 0 0x004D0100) up (fun u => u.fld F.fabBarctl_timeout 0 == 77) = true := by decide +kernel

/-- A VF's write of a firewall window does nothing; a fused-off die of the smaller grade. -/
theorem witness_RegisterAndWindowWrites_windows :
    up.ready = true ∧ up.fuses.hostset = true ∧ (∀ n, Writer.host 0 = .host n → n = 0) ∧
    after (.firewallWindowWrite (.host 0) 3 7 true 0 0x5000) up (fun u => u.reg .hstFwlim 31 == 0x5000) = true ∧
    (let s : State := { up with fuses := { up.fuses with grade := true } }
     windowDie 0x4000000 = some 3 ∧ s.dieAbsent 3 = true ∧ regDie ⟨.dieHarvest, 3⟩ = some 3 ∧ s.readReg .dieHarvest 3 = 0 ∧ s.mayWrite (.host 0) = true ∧
     after (.absentAccess (.host 0) 0x4000000 none) s (fun u => ((u.func 0).held.map (·.code)) == [0x0010]) = true) :=
  ⟨by decide +kernel, by decide +kernel, fun n h => by injection h with h; exact h.symm, by decide +kernel, by decide +kernel⟩

/-- An idle tile: an entry that is no control handle's, slots 0 to 4,095 filled, the registers of the units. -/
theorem witness_RegisterAndWindowWrites_tileWindows :
    held0.inMesh t00 = true ∧ held0.dieAbsent (dieOf (xyOf (tIx t00))) = false ∧ held0.mayWrite (.host 0) = true ∧ held0.loading = none ∧
    held0.tileRuns 0 = false ∧ ¬(bits (held0.hndLatest 0 63).2 15 15 = 1 ∧ bits (held0.hndLatest 0 63).2 2 0 = 7) ∧
    (held0.img.isSome = true → held0.expert = true) = False ∧ (up.img.isSome = true → up.expert = true) ∧ up.inMesh t00 = true ∧
    up.tileRuns 0 = false ∧ bits (0x8FFF0000 : BitVec 32).toNat 31 30 = 2 ∧
    bits (0x8FFF0000 : BitVec 32).toNat 11 0 ≤ bits (0x8FFF0000 : BitVec 32).toNat 27 16 ∧ sopDefined 0x2D = true ∧
    after (.slotCommand (.host 0) t00 0 0x8FFF0000) held0 (fun u => (u.tile 0).full.getLsbD 4095 && (u.tile 0).full.getLsbD 0) = true ∧
    after (.handleEntryWrite (.host 0) t00 63 false 0 0x0000040000000200) held0
      (fun u => (u.hnd 0 63).base == 0x200 && (u.hnd 0 63).size == 0x400) = true ∧
    after (.mxctlWrite (.host 0) t00 0 0x7F01) up (fun u => u.fld F.tilMxctl_rrow 0 == 63 && u.fld F.tilMxctl_local 0 == 1) = true ∧
    after (.vctlWrite (.host 0) t00 0 1) up (fun u => u.fld F.tilVctl_keep 0 == 1) = true ∧
    after (.vcwordWrite (.host 0) t00 0 5) held0 (fun u => mget (u.tile 0).chains 0 0 == 5) = true := by decide +kernel

end Sys2Proof.Tests
end

