-- ==== Sys2Proof/Tests/Links.lean ====
section
/-! SUPPORT. Tests of chapters 10 and 11: the link, the fabric, launch trees and jobs. -/

set_option Elab.async false

namespace Sys2Proof.Tests
open Sys2Proof Sys2Proof.Machine

/-- Port 3 a fabric port in a state; a state at an SRV_WALL; and a data flit of a kind and a SEQ. -/
def port (st : Nat) (L : Link := {}) : State :=
  { (up.setFld F.lnkCtl_role 3 1).setFld F.lnkStat_state 3 st with links := [(3, L)] }

def late (s : State) (w : Nat) : State := s.setReg .srvWall 0 w

def fl (kind seq : Nat) (spec : BitVec 20 := 0) : Flit :=
  { kind := kind, seq := seq, ackseq := 4095, nak := false, cclass := 0, ccount := 0, sop := true, eop := true, spec := spec, payload := List.replicate 240 0 }

/-- Bytes 0 to 247 of that flit. -/
def fb (kind seq : Nat) (spec : BitVec 20 := 0) : List Byte := flitBytes (fl kind seq spec)

/-! ## The link -/

/-- A flit through its bytes; one link cycle with a control flit, with a replay under way, with one asked for, with a management
flit at SEQ 4,095; a damaged flit, the expected flit and one too far on; a scheduled flit due 2 cycles from now; 32 acceptances to advertise; an old replay timer; a due delivery. -/
theorem witness_LinkDelivery :
    (let f := fl 2 4095 0xABCDE
     f.kind < 8 ∧ f.seq < 4096 ∧ f.ackseq < 4096 ∧ f.cclass < 4 ∧ f.ccount < 4096 ∧ f.payload.length = 240 ∧ flitOf (flitBytes f) = f) ∧
    ((port 3).portState 3 = 3 ∧ ((port 3 { txC := [fl 4 0] }).link 3).replayAsk = false ∧
     after (.linkCycle 3) (port 3 { txC := [fl 4 0], seq := 9, ccNext := 2 }) (fun u =>
       (u.link 3).txC == [] && (u.link 3).seq == 9 && (u.link 3).ccNext == 0 && (u.link 3).out.map (fun o => crc64 (flitBytes o)) == some (u.link 3).crc) = true ∧
     after (.linkCycle 3) (port 3 { replayQ := [fl 2 5] }) (fun u => ((u.link 3).out.map (·.seq)) == some 5) = true) ∧
    (let s := port 3 { replayAsk := true, replayBuf := [fl 2 5, fl 2 6], cyc := 900 }
     (s.link 3).replayAsk = true ∧ (s.link 3).replayBuf = [fl 2 5, fl 2 6] ∧ (s.link 3).txC = [] ∧ (s.link 3).replayRep < 3 ∧ s.someRuns = false ∧
     after (.linkCycle 3) s (fun u => (u.link 3).out.map (·.seq) == some 5 && (u.link 3).replayQ.map (·.seq) == [6] && (u.link 3).timer == 900) = true) ∧
    (let s := port 3 { txM := [fl 3 0], seq := 4095 }
     (s.link 3).replayBuf.length < 1024 ∧ s.hasCredit 3 2 = true ∧
     after (.linkCycle 3) s (fun u => (u.link 3).seq == 0 && (u.link 3).replayBuf.map (·.seq) == [4095]) = true) ∧
    after (.flitReceive 3 (fb 2 0) (crc64 (fb 2 0) + 1)) (port 3) (fun u => (u.link 3).nakPend && u.fld F.lnkErr_crcerr 3 == 1) = true ∧
    (let s := port 3 { e := 4095 }
     (flitOf (fb 3 4095)).kind = 3 ∧ (flitOf (fb 3 4095)).cclass ≤ 2 ∧ (flitOf (fb 3 4095)).nak = false ∧
     (flitOf (fb 3 4095)).seq = (s.link 3).e ∧ (s.link 3).e < 4096 ∧ (s.link 3).bufferFree ((flitOf (fb 3 4095)).kind - 1) = true ∧
     after (.flitReceive 3 (fb 3 4095) (crc64 (fb 3 4095))) s (fun u => (u.link 3).e == 0 && (u.link 3).pool.length == 1) = true ∧
     (flitOf (fb 2 0)).kind = 2 ∧ 0 < ((flitOf (fb 2 0)).seq + 4096 - (s.link 3).e) % 4096 ∧
     ((flitOf (fb 2 0)).seq + 4096 - (s.link 3).e) % 4096 < 2048 ∧
     after (.flitReceive 3 (fb 2 0) (crc64 (fb 2 0))) s (fun u => (u.link 3).e == 4095 && (u.link 3).nakPend) = true) := by decide +kernel

theorem witness_LinkDelivery_due :
    (let s : State := { (port 3).setReg .ptcSched 0 100 with regions := [(0, { running := true, begun := true, launchT0 := 90 })] }
     (flitOf (fb 1 0 12)).kind = 1 ∧ (flitOf (fb 1 0 12)).seq = (s.link 3).e ∧ (s.link 3).bufferFree 0 = true ∧ s.gen1 3 = false ∧
     s.launchOrigin (bits (flitOf (fb 1 0 12)).spec.toNat 19 17) = some 90 ∧
     after (.flitReceive 3 (fb 1 0 12) (crc64 (fb 1 0 12))) s (fun u => (u.link 3).pool.map (·.2) == [(102, 0)]) = true) ∧
    (let s := port 3 { unadv := 32, e := 32, cyc := 40 }
     0 < (s.link 3).unadv ∧ 32 ≤ (s.link 3).unadv ∧
     after (.ackPoint 3) s (fun u => (u.link 3).adv == 31 && (u.link 3).unadv == 0) = true) ∧
    (let s := port 3 { replayBuf := [fl 2 7, fl 2 8], cyc := 70000 }
     (s.link 3).replayBuf ≠ [] ∧ (s.link 3).timer + max 0x100 (s.fld F.lnkCtl_rto 3) ≤ (s.link 3).cyc ∧
     after (.replayTimerExpiry 3) s (fun u => (u.link 3).replayAsk && (u.link 3).replayNo == 0) = true) ∧
    (let s := (port 3 { pool := [(fl 2 4, 0, 0), (fl 1 5, 90, 5), (fl 1 6, 60, 6)] }).setReg .ptcSched 0 60
     firstDue (s.link 3).pool = some (fl 1 6, 60, 6) ∧ 60 ≤ s.sched ∧ (s.sched = 60 → s.gen1 3 = true ∨ s.held = false) ∧
     after (.scheduledFlitDelivery 3) s (fun u => (u.link 3).pool.map (·.1.seq) == [4, 5] && mget (u.link 3).freed 0 0 == 1) = true) := by
  decide +kernel

def ti (mod : Nat) : TrainInfo := ⟨1, 2, mod, 6, 0, 0, 0, 0, none, 77⟩

theorem witness_LinkTraining :
    (let s := late ((port 1).setFld F.fabId_valid 0 1) 10000
     s.portState 3 = 1 ∧ s.portRole 3 ≠ 0 ∧ s.mayTrain 3 = true ∧
     (if (s.link 3).tried then (s.link 3).trainAt + 1000000 else (s.link 3).downAt + 10000) ≤ s.wall ∧
     after (.fullTrainingAttempt 3) s (fun u => u.portState 3 == 2 && (u.link 3).phase == 1 && (u.link 3).full) = true) ∧
    (let s (n : Nat) := port 2 { phase := n, full := true }
     (∀ n < 6, (s n).portState 3 = 2 ∧ ((s n).link 3).reqSent = false ∧ ((s n).link 3).resume = false ∧ (s n).ownId = 0) ∧
     (ti 9).peerMod ≠ (s 4).ownId ∧ (ti 0).peerMod = (s 4).ownId ∧
     after (.trainingPhaseEnd 3 (ti 9)) (s 2) (fun u => (u.link 3).phase == 3) = true ∧
     after (.trainingPhaseEnd 3 (ti 9)) (s 3) (fun u => (u.link 3).phase == 4 && u.fld F.lnkStat_width 3 == 1) = true ∧
     after (.trainingPhaseEnd 3 (ti 9)) (s 4) (fun u => (u.link 3).phase == 5 && u.fld F.lnkStat_peermod 3 == 9) = true ∧
     after (.trainingPhaseEnd 3 (ti 0)) (s 4) (fun u => (u.link 3).blocked && u.portState 3 == 1) = true ∧
     after (.trainingPhaseEnd 3 (ti 9)) (s 5) (fun u => u.portState 3 == 3 && u.fld F.lnkStat_rtt 3 == 77) = true) ∧
    (let s := late (port 4) 4000
     s.portState 3 = 4 ∧ (s.link 3).trainAt + 4000 ≤ s.wall ∧ after (.trainingTimeout 3) s (fun u => u.portState 3 == 1) = true) ∧
    after (.lossOfSignal 3) (port 3 { peer := some 0x906, replayBuf := [fl 2 1] }) (fun u =>
      u.portState 3 == 1 && (u.link 3).kept && (u.link 3).replayBuf.length == 1) = true ∧
    (let s := late (port 1 { kept := true, pool := [(fl 2 1, 0, 0)] }) 1000000
     (s.link 3).kept = true ∧ s.portState 3 ≠ 3 ∧ (s.link 3).downAt + 1000000 ≤ s.wall ∧
     after (.keptStateExpiry 3) s (fun u => !(u.link 3).kept && (u.link 3).pool.length == 0) = true) ∧
    after (.fecRateWindow 3 17) (port 3) (fun u => u.portState 3 == 4 && (u.link 3).reqSent && (u.link 3).reqWidth == 1) = true := by
  decide +kernel

theorem witness_LinkTraining_writes :
    (let s := port 3
     s.mayWrite (.host 0) = true ∧ s.loading = none ∧ bits (0x82001234 : BitVec 32).toNat 26 25 = s.portRole 3 ∧
     bits (0x82001234 : BitVec 32).toNat 28 27 = s.fld F.lnkCtl_wreq 3 ∧ (0x82001234 : BitVec 32).getLsbD 31 = true ∧
     after (.lnkRetrain (.host 0) 3 0 0x82001234) s (fun u => u.portState 3 == 4 && u.fld F.lnkCtl_rto 3 == 0x1234) = true ∧
     s.someRuns = false ∧ s.portRole 3 ≠ 0 ∧ bits (0x00000100 : BitVec 32).toNat 26 25 ≠ 3 ∧
     after (.lnkRoleWrite (.host 0) 3 0 0x00000100) s (fun u => u.portRole 3 == 0 && u.portState 3 == 0) = true ∧
     after (.lnkWreqWrite (.host 0) 3 0 0x0A000100) s (fun u => u.fld F.lnkCtl_wreq 3 == 1) = true) := by decide +kernel

/-! ## The fabric -/

theorem witness_FabIdWrites :
    up.mayWrite (.host 0) = true ∧ (∀ p < 32, up.portState p = 0 ∨ up.portState p = 1) ∧
    after (.fabIdWrite (.host 0) 0 0xABCDE) up (fun u => u.fld F.fabId_id 0 == 0xABCDE && u.fld F.fabId_valid 0 == 1) = true ∧
    ((port 2).mayWrite (.host 0) = true ∧ (port 2).portState 3 ≠ 0 ∧ (port 2).portState 3 ≠ 1) ∧
    after (.fabIdWrite (.host 0) 0 0xABCDE) (port 2) (fun u => u.fld F.fabId_valid 0 == 0) = true := by decide +kernel

/-- Die 0's epoch state set. -/
def ep (st : Nat) : State := up.setFld F.fabEpoch_state 0 st

theorem witness_FabricTablesAndTime :
    (up.mayWrite (.host 0) = true ∧ up.epochState 0 ≠ 2 ∧ up.epoch 0 % 2 ≠ (1 : Fin 2).val ∧ keysRise ((up.fdie 0).bank 1) = true ∧
     after (.tableWrite (.host 0) 0 1 0xFFFFF 0 0x8001) up (fun u => mget (u.fdie 0).bank1 0xFFFFF 0 == 0x8001) = true) ∧
    (after (.drain (.host 0) 0 0) up (fun u => u.epochState 0 == 1) = true ∧
     (ep 1).mayWrite (.host 0) = true ∧ (ep 1).epochState 0 = 1 ∧ (ep 1).quiet 0 = true ∧
     after (.switch (.host 0) 0 0) (ep 1) (fun u => u.epochState 0 == 2 && u.epoch 0 == (up.epoch 0 + 1) % 65536) = true ∧
     (ep 2).epochState 0 = 2 ∧ (ep 2).quiet 0 = true ∧ after (.epochRelease (.host 0) 0 0) (ep 2) (fun u => u.epochState 0 == 0) = true) ∧
    (let s := late ((port 3).setFld F.fabSyncctl_port 0 3) 10000
     s.fld F.fabSyncctl_root 0 = 0 ∧ s.clk.refLost = false ∧ s.fab.syncAt + 10000 ≤ s.wall ∧ s.portState s.syncPort = 3 ∧
     after .syncreqSend s (fun u => u.fab.syncT1 == some 0 && (u.link 3).txC.length == 1) = true ∧
     (flitIn 3 (syncreqBytes 5) s).hasFabric 3 (syncreqBytes 5) = true ∧
     after (.syncreqReceive 3 5) (flitIn 3 (syncreqBytes 5) s) (fun u => (u.link 3).txC.length == 1) = true) ∧
    (let r : SyncRsp := ⟨7, true, (port 3).step_, 3, 132, 132⟩
     let s (un : Nat) : State :=
       flitIn 3 (syncrspBytes r)
         { (((port 3).setReg .ptcCount 0 (6 + 2 * un)).setFld F.fabSyncctl_port 0 3).setFld F.ptcState_unsync 0 un with fab := { syncT1 := some 100, phis := [19, 18, 4] } }
     (s 0).hasFabric 3 (syncrspBytes r) = true ∧ (s 1).hasFabric 3 (syncrspBytes r) = true ∧
     (s 0).fab.syncT1 = some 100 ∧ (s 0).fld F.fabSyncctl_root 0 = 0 ∧ (3 : Fin 32).val = (s 0).syncPort ∧ r.step = (s 0).step_ ∧ r.depth ≤ 7 ∧
     (s 0).gen1 3 = false ∧ (s 0).fld F.clkState_stretch 0 = 0 ∧ (s 0).fld F.clkState_catchup 0 = 0 ∧ (s 0).fab.syncBad = false ∧ (s 0).fld F.ptcState_unsync 0 = 0 ∧
     after (.syncrspReceive 3 r 10) (s 0) (fun u => u.fab.eps == 32 && u.fld F.fabSyncctl_depth 0 == 8) = true ∧
     (s 1).fld F.ptcState_unsync 0 = 1 ∧ spread [19, 19, 18, 4] ≤ 16 ∧ (s 1).anyRunning = false ∧
     after (.syncrspReceive 3 r 4) (s 1) (fun u => u.cnt == 9 && u.fab.eps == 3 && u.fld F.ptcState_unsync 0 == 0) = true) ∧
    after (.fabSyncctlWrite (.host 0) 0 0x85000000) up (fun u => u.fld F.fabSyncctl_root 0 == 1 && u.fld F.fabSyncctl_port 0 == 5) = true := by
  decide +kernel

/-- A route unit: form 1, one hop by port 3 for region 2 with DUE 500, one data unit. -/
def route : List Byte := leBytes 1 1 ++ leBytes 1 1 ++ [0, 0] ++ leBytes 2 1 ++ List.replicate 10 0 ++
  leBytes 4 (3 * 2 ^ 27 + 2 * 2 ^ 24 + 500) ++ List.replicate 44 0

def onDie (d : FabDie) : State := { port 3 with fab := { dies := [(0, d)] } }

def pk (type dest frag frags : Nat) : Packet := ⟨type, 0, dest, 4, 0x55, frag, frags, [7]⟩

theorem witness_FabricPackets :
    (let s := onDie { streams := [(9, [(0, route)])] }
     mget (s.fdie 0).streams 9 [] = [(0, route)] ∧ keysRise (s.fdie 0).streams = true ∧ mfind (s.fdie 0).opened 9 = none ∧
     (s.fdie 0).firstInOrder 9 = true ∧ routeUnitOk route = true ∧ route.getD 2 0 = 0 ∧ s.departOk 0 (bits (hopWord route 0) 31 27) = true ∧
     after (.scheduledPacketSend 0 9) s (fun u => (u.link 3).outS.map (fun o => (o.src, o.region, o.due, o.left)) == [(9, 2, 500, 64)]) = true) ∧
    (let b : List Byte := List.replicate 64 9
     let s : State := { onDie { streams := [(9, [(0, b)])], opened := [(9, (3, 1))] } with links := [(3, { outS := [⟨9, 2, 500, 64, [], true⟩] })] }
     mfind (s.fdie 0).opened 9 = some (3, 1) ∧
     after (.scheduledPacketSend 0 9) s (fun u => (u.link 3).outS.map (fun o => (o.left, o.bytes.length)) == [(0, 64)]) = true) ∧
    (let e : EdgeDel := ⟨5, 3, 128, 50, 3, 0, 0, 1, List.replicate 64 6⟩
     let s := (onDie { edge := [e] }).setReg .ptcSched 0 50
     s.held = false ∧ windowSlot s.sched = false ∧ (s.fdie 0).edge = [e] ∧ e.dcol < s.cols ∧ e.due ≤ s.sched ∧ 64 * (e.next + 1) ≤ e.bytes.length ∧
     mget (s.fdie 0).edgeAt e.dcol 0 ≠ s.sched + 1 ∧
     after (.edgeUnitDelivery 0) s (fun u => (u.fdie 0).edge.length == 0 && u.mpkts.map (fun p => (p.dst, p.off, p.land)) == [(5, 128, 59)]) = true) :=
  by decide +kernel

theorem witness_FabricPackets_routes :
    (let s := onDie { origin := [pk 0x20 9 0 1], bank0 := [(9, 8)] }
     (s.fdie 0).router = [] ∧ (s.fdie 0).origin = [pk 0x20 9 0 1] ∧ s.epochState 0 ≠ 1 ∧ fabricType 0x20 = true ∧ 9 ≠ s.ownId ∧
     s.portFor 0 { pk 0x20 9 0 1 with epoch := s.epoch 0 } = some 3 ∧ s.tableMask 0 (s.epoch 0) 9 ≠ 0 ∧
     after (.packetRoute 0 .origin) s (fun u => (u.fdie 0).origin == [] && (u.link 3).txM.length == 1) = true) ∧
    (let s := onDie { origin := [pk 0x20 0 0 1] }
     (pk 0x20 0 0 1).dest = s.ownId ∧ (s.fdie 0).origin = [pk 0x20 0 0 1] ∧ (s.fdie 0).router = [] ∧ s.epochState 0 ≠ 1 ∧
     after (.packetRoute 0 .origin) s (fun u => (u.fdie 0).origin == [] && (u.fdie 0).arrived.map (·.dest) == [0]) = true) ∧
    (let s := onDie { origin := [pk 0x20 9 0 1] }
     s.tableMask 0 (s.epoch 0) 9 = 0 ∧ after (.packetRoute 0 .origin) s (fun u => u.fld F.fabDisc_noroute 0 == 1) = true) ∧
    (let s := late (onDie { router := [(pk 0x20 9 0 1, 0)], bank0 := [(9, 0x10)] }) 10000000
     (s.fdie 0).router = [(pk 0x20 9 0 1, 0)] ∧ s.portFor 0 (pk 0x20 9 0 1) = none ∧ 0 + 100 * s.fld F.fabCtl_noroute 0 ≤ s.wall ∧
     after (.norouteTimeout 0) s (fun u => (u.fdie 0).router == [] && u.fld F.fabDisc_noroute 0 == 1) = true) ∧
    (let s := told 0x10 7 (noticeBytes 0x20 7 1) up
     s.hasMsg 0x10 (·.says 7 (noticeBytes 0x20 7 (1 : Fin 4))) = true ∧
     after (.undeliverableNotice 0x20 7 1) s (fun u => u.fld F.fabDisc_notices 0 == 1 && u.fab.inbox == []) = true) ∧
    ((comes (pk 0x20 0 0 1) up).hasArrived (· == pk 0x20 0 0 1) = true ∧ pktBulk (pk 0x20 0 0 1) = false ∧
     (comes (pk 0x20 0 0 2) up).hasArrived (· == pk 0x20 0 0 2) = true ∧
     after (.fragmentReceive (pk 0x20 0 0 1)) (comes (pk 0x20 0 0 1) up) (fun u => u.fab.inbox.length == 1) = true ∧
     up.fab.reasm.find? (·.ofPkt (pk 0x20 0 0 2)) = none ∧
     after (.fragmentReceive (pk 0x20 0 0 2)) (comes (pk 0x20 0 0 2) up) (fun u => u.fab.inbox.length == 0 && u.fab.reasm.length == 1) = true) ∧
    (let r : Reasm := ⟨0x20, 4, 0x55, 2, [(0, [1])], 0⟩
     let s := comes (pk 0x20 0 1 2) (late { up with fab := { reasm := [r] } } 100000)
     s.hasArrived (· == pk 0x20 0 1 2) = true ∧
     s.fab.reasm.find? (·.ofPkt (pk 0x20 0 1 2)) = some r ∧ r.got.length + 1 = r.frags ∧ (∀ g ∈ r.got, g.1 ≠ 1) ∧
     (mput r.got 1 [7]).length = r.got.length + 1 ∧
     after (.fragmentReceive (pk 0x20 0 1 2)) s (fun u => u.fab.inbox.length == 1 && u.fab.reasm.length == 0) = true ∧
     s.fab.reasm.find? (fun r => r.type == 0x20 && r.origin == 4 && r.ref == 0x55) = some r ∧ r.since + 100000 ≤ s.wall ∧
     after (.reassemblyTimeout 0x20 4 0x55) s (fun u => u.fab.reasm.length == 0 && u.fab.inbox.length == 0) = true) := by decide +kernel

/-! ## Launches -/

/-- Region 0 an ordinary region with plan 3. -/
def plain (R : Region := {}) : State :=
  { up with
    img := some { img0 with regions := [⟨0, 0, 0xFF, 0xFF, 1⟩], vits := [] }
    plans := [{ id := 3, region := 0, expert := false, profile := 1, offset := 0, bytes := 0, digest := [], text := [], dcount := [],
                dstride := [], gens := [], params := [] }]
    regions := [(0, R)] }

theorem witness_LaunchesAndTrees_commands :
    (let i : Instr := .launch pf 0 0 3 0 0 []
     let s := ask i pf 4 plain
     s.begins i pf 0x0004 false ∧ s.launchWaits 0 0 = false ∧ s.launchStatus 0 0 3 0 0 = 0 ∧ s.twinLaunch 0 = false ∧
     (∃ x, s.regionRec 0 = some x ∧ x.role ≠ 2) ∧
     after i s (fun u => (u.region 0).running && (u.region 0).launchPlan == 3 && (u.func 0).taken == []) = true) ∧
    (let i : Instr := .launch pf 0 0 4 0 0 []
     let s := ask i pf 4 plain
     s.begins i pf 0x0004 false ∧ s.launchWaits 0 0 = false ∧ s.launchStatus 0 0 4 0 0 = 0x0048 ∧
     after i s (fun u => (u.func 0).cpls.map (·.status) == [0x0048] && !(u.region 0).running) = true) ∧
    (let x : Series := {}
     let s := ask (.stop pf 0) pf 5 (plain { running := true, series := some x })
     s.begins (.stop pf 0) pf 0x0005 false ∧ (s.region 0).series = some x ∧ (s.region 0).armed = false ∧ x.endedAt.isSome = false ∧
     after (.stop pf 0) s (fun u => (u.region 0).stops == [pf]) = true) ∧
    (let s := ask (.stop pf 0) pf 5 plain
     (s.region 0).series = none ∧ after (.stop pf 0) s (fun u => (u.func 0).cpls.map (·.status) == [0x0049]) = true) :=
  ⟨⟨⟨by decide +kernel, by decide +kernel, by decide +kernel⟩, by decide +kernel, by decide +kernel, by decide +kernel, ⟨_, rfl, by decide⟩, by decide +kernel⟩,
   ⟨⟨by decide +kernel, by decide +kernel, by decide +kernel⟩, by decide +kernel, by decide +kernel, by decide +kernel⟩,
   ⟨⟨by decide +kernel, by decide +kernel, by decide +kernel⟩, by decide +kernel, by decide +kernel, by decide +kernel, by decide +kernel⟩,
   by decide +kernel⟩

/-- A region that receives bulk: a LAUNCH arms it (R342). -/
theorem witness_LaunchesAndTrees_armed :
    let i : Instr := .launch pf 0 0 3 0 0 []
    let s : State := ask i pf 4 { plain with img := some { img0 with regions := [⟨0, 2, 0xFF, 0xFF, 1⟩], vits := [] } }
    s.begins i pf 0x0004 false ∧ s.launchStatus 0 0 3 0 0 = 0 ∧ (∃ x, s.regionRec 0 = some x ∧ x.role = 2) ∧
    after i s (fun u => (u.region 0).armed && (u.region 0).pend.isNone) = true :=
  ⟨⟨by decide +kernel, by decide +kernel, by decide +kernel⟩, by decide +kernel, ⟨_, rfl, by decide⟩, by decide +kernel⟩

/-- This module as the one node of a tree at address 0x1000 of external memory; a LAUNCH of MODE 1 for a count 2^20 on. -/
def solo : Tree := ⟨0x77, up.step_, [⟨0, 0xFFFF, 0xFFFF, 0, 3, 0, 0, 0⟩]⟩

theorem witness_LaunchesAndTrees_treeLaunch :
    let i : Instr := .launch pf 0 1 3 0x200000 0x1000 []
    let s : State := ask i pf 4
      { plain.setFld F.ptcState_unsync 0 0 with
        ext := wrBytes [] 0x1000 (treeBytes solo)
        img := plain.img.map fun m => { m with mode := { m.mode with start := 2 } } }
    s.begins i pf 0x0004 false ∧ s.launchWaits 0 1 = false ∧ s.launchStatus 0 1 3 0x200000 0x1000 = 0 ∧ s.treeAt 0x1000 false = some solo ∧
    after i s (fun u => (u.region 0).running && u.fab.launches.map (fun L => (L.tree.launchId, L.node)) == [(0x77, 0)]) = true :=
  ⟨⟨by decide +kernel, by decide +kernel, by decide +kernel⟩, by decide +kernel, by decide +kernel, by decide +kernel, by decide +kernel⟩

/-- A launch of three nodes: module 4 is node 0, module 0 node 1, module 6 node 2 below it. -/
def tree : Tree := ⟨0x77, 0, [⟨4, 0xFFFF, 0xFFFF, 0, 3, 0, 0, 0⟩, ⟨0, 0, 0xFFFF, 0, 3, 0, 0, 0⟩, ⟨6, 1, 0, 0, 3, 0, 0, 0⟩]⟩
/-- The same with this module as node 0, node 2 having node 0 as its alternate. -/
def tree0 : Tree := ⟨0x77, 0, [⟨0, 0xFFFF, 0xFFFF, 0, 3, 0, 0, 0⟩, ⟨4, 0, 0xFFFF, 0, 3, 0, 0, 0⟩, ⟨6, 1, 0, 0, 3, 0, 0, 0⟩]⟩

def lst (t : Tree) (n : Nat) (arm : Bool) : LaunchSt := { tree := t, node := n, arm := arm, count := 0, since := 0 }

def inTree (L : LaunchSt) (R : Region := {}) : State :=
  { plain R with
    fab := { launches := [L] }
    links := (port 3).links
    regs := ((late (port 3) 2000000).setReg .fabLaunch 0 L.tree.launchId.toNat).regs }

theorem witness_LaunchesAndTrees_tree :
    (let s := told 0x20 0x77 (treeBytes tree ++ argBytes [0]) plain
     s.nodeIn tree = some 1 ∧ s.launchBy 0x77 = none ∧ (nodeOf tree 1).parent < tree.nodes.length ∧
     s.hasMsg 0x20 (·.says 0x77 (treeBytes tree ++ argBytes [(0 : BitVec 64).toNat])) = true ∧
     after (.launchMessageReceive tree 0) s (fun u => (u.fab.launches.map (·.node)) == [1] && u.reg .fabLaunch 0 == 0x77 &&
       u.fab.sent.any (fun m => m.dest == 4 && m.type == 0x21)) = true ∧
     after (.armReceive tree 9) (told 0x24 0x77 (treeBytes tree ++ argBytes [9]) plain) (fun u => u.fab.launches.map (fun L => (L.arm, L.count)) == [(true, 9)]) = true) ∧
    (let s := told 0x24 0x77 (treeBytes tree ++ argBytes [9]) (inTree (lst tree 1 true))
     s.hasMsg 0x24 (·.says 0x77 (treeBytes tree ++ argBytes [(9 : BitVec 64).toNat])) = true ∧ s.launchBy 0x77 = some (lst tree 1 true) ∧ after (.armReceive tree 9) s (fun u => u.fab.launches.length == 1 && u.fab.sent.length == 1) = true) ∧
    (let L : LaunchSt := { lst tree0 0 true with readys := [0, 1] }
     let s := told 0x25 0x77 (argBytes [2]) (inTree L { running := true })
     s.hasMsg 0x25 (·.says 0x77 (argBytes [2])) = true ∧ s.launchBy 0x77 = some L ∧ L.node = 0 ∧ L.arm = true ∧ L.released = false ∧
     L.lfailed = false ∧ 2 < L.tree.nodes.length ∧ L.readys.contains 2 = false ∧
     after (.readyReceive 2 0x77) s (fun u => u.fab.launches.map (fun M => (M.readys.length, M.released)) == [(3, true)]) = true) ∧
    (let q : Start := ⟨0, .barrier, 0, none, none, []⟩
     let s := flitIn 3 (releaseBytes 700) (inTree (lst tree 1 true) { running := true, pend := some q })
     s.hasFabric 3 (releaseBytes 700) = true ∧ s.portState 3 = 3 ∧ s.running 0 = true ∧ (s.region 0).pend = some q ∧ (lst tree 1 true).region = 0 ∧
     after (.releaseFlitReceive 3 700 0) s (fun u => ((u.region 0).pend.map (·.release)) == some (some 700)) = true) := by
  decide +kernel

theorem witness_JobMessages :
    (let t := { tree0 with nodes := [⟨4, 0xFFFF, 0xFFFF, 0, 3, 0, 0, 0⟩, ⟨0, 0, 0xFFFF, 0, 3, 0, 0, 0⟩, ⟨6, 0, 1, 0, 3, 0, 0, 0⟩] }
     let s := inTree (lst t 1 false)
     (lst t 1 false).altDue 2 s.wall (100 * s.fld F.fabCtl_altwait 0) = true ∧
     after (.altwaitExpiry 2) s (fun u => u.fab.launches.map (·.alts) == [[2]] && u.fab.sent.map (·.dest) == [6]) = true) ∧
    (let L := lst tree 1 true
     let s := inTree L { running := true }
     L.lacks.contains 2 = false ∧ (told 0x21 0x77 (argBytes [2]) s).hasMsg 0x21 (·.says 0x77 (argBytes [2])) = true ∧
     after (.lackReceive 2 0x77) (told 0x21 0x77 (argBytes [2]) s) (fun u => u.fab.launches.map (·.lacks) == [[2]]) = true ∧
     L.node ≠ 0 ∧ L.fails.contains 2 = false ∧
     (told 0x22 0x77 (argBytes [2, 0x45]) s).hasMsg 0x22 (·.says 0x77 (argBytes [2, (0x0045 : BitVec 16).toNat])) = true ∧
     after (.lfailReceive 2 0x77 0x0045) (told 0x22 0x77 (argBytes [2, 0x45]) s) (fun u => u.fab.launches.map (·.fails) == [[2]] && u.fab.sent.map (·.type) == [0x22]) = true ∧
     L.msg ≠ 0x23 ∧ L.lfailed = false ∧ L.passedBy = false ∧ L.queued = false ∧
     (told 0x23 0x77 [] s).hasMsg 0x23 (·.says 0x77 []) = true ∧ after (.abortReceive 0x77) (told 0x23 0x77 [] s) (fun u => !(u.region 0).running && u.fld F.fabLstat_state 0 == 4) = true) ∧
    (let s := told 0x22 0x77 (argBytes [2, 0x45]) (inTree (lst tree0 0 true) { running := true })
     after (.lfailReceive 2 0x77 0x0045) s (fun u => !(u.region 0).running && u.fab.launches.map (·.msg) == [0x23]) = true) ∧
    (let L : LaunchSt := { lst tree 1 true with readyAt := some 0 }
     let s := inTree L { running := true }
     L.released = false ∧ 0 + 100 * s.fld F.fabBarctl_timeout 0 ≤ s.wall ∧
     after .barrierTimeout s (fun u => !(u.region 0).running && u.fld F.fabLstat_state 0 == 3) = true) := by
  decide +kernel

theorem witness_JobMessages_steps :
    (let L := lst tree0 0 true
     let s := told 0x30 0x77 (argBytes [0]) (inTree L { running := true }) (origin := 4)
     s.hasMsg 0x30 (fun m => m.origin == (nodeOf L.tree 1).module && m.says 0x77 (argBytes [b2n false])) = true ∧ (1 : Nat) ≠ 0 ∧ s.running 0 = true ∧ (∀ a ∈ L.arrivals, a.1 ≠ 1) ∧ 1 < L.tree.nodes.length ∧ L.arrivals.length + 1 < L.tree.nodes.length ∧
     after (.arriveReceive 1 0x77 false) s (fun u => u.fab.launches.map (fun M => (M.arrivals, M.firstArr)) == [([(1, s.cnt)], some 2000000)]) = true) ∧
    (let L := lst tree 1 true
     let s := told 0x31 0x77 (argBytes [5, 9000, 0]) (inTree L { running := true, series := some { between := true, tree := true } })
     s.hasMsg 0x31 (·.says 0x77 (argBytes [5, 9000, b2n false])) = true ∧ L.passedBy = false ∧ L.lfailed = false ∧ (s.region 0).armed = false ∧
     L.node ≠ 0 ∧ (5 : Nat) < 1024 ∧ (L.msg ≠ 0x31 ∨ L.args ≠ [5, 9000, 0]) ∧ s.running 0 = true ∧
     (s.region 0).series = some { between := true, tree := true } ∧ s.cnt + s.toPark + 64 ≤ 9000 ∧
     after (.stepReleaseReceive 5 9000 false) s (fun u => ((u.region 0).pend.map (·.count)) == some 9000) = true) ∧
    (let L : LaunchSt := { lst tree0 0 true with firstArr := some 0, arrivals := [(0, 7)] }
     let s := inTree L { running := true, series := some {} }
     let s1 := inTree L { running := true, inInv := true, series := some {} }
     L.node = 0 ∧ L.passedBy = false ∧ L.queued = false ∧ L.lfailed = false ∧ (s.region 0).inInv = false ∧ s.reg .fabLaunch 0 = 0x77 ∧ (s1.region 0).inInv = true ∧
     after .stepBarrierTimeout s1 (fun u => (u.region 0).running && ((u.region 0).series.map (·.aborted)) == some true) = true ∧ 0 + 100 * s.fld F.fabBarctl_timeout 0 ≤ s.wall ∧
     after .stepBarrierTimeout s (fun u => !(u.region 0).running && u.fab.launches.map (·.arrivals) == [[]]) = true) := by
  decide +kernel

end Sys2Proof.Tests
end

