-- ==== Sys2Proof/Tests/Loads.lean ====
section
/-! SUPPORT. The tests of chapter 01 that need whole images: a hanging image and a plan that pass every check. -/

set_option Elab.async false

namespace Sys2Proof.Tests
open Sys2Proof Sys2Proof.Machine

/-- The sections of an image: MODE, one plan region, GALMAP with two active tiles, MEMMAP, REFRESH, PORTS with no role. -/
def imgBody : List Byte :=
  [4, 0, 1, 0, 0, 2, 0, 4, 0xFF, 0xFF, 0xF, 0, 3, 0, 0, 0] ++ [0, 0, 0, 0xFF, 1, 0] ++ List.replicate 10 0 ++
  [0, 0, 0, 0, 5, 0, 0, 0] ++ (List.replicate 191 ([0xFF, 0, 0, 0, 0, 0, 0, 0] : List Byte)).flatten ++
  [0, 0, 0, 0] ++ leBytes 4 48 ++ leBytes 8 0 ++ leBytes 8 0x100000 ++ List.replicate 8 0 ++
  (List.replicate 48 ([0, 0, 192, 0, 0xE4, 0, 0, 0] : List Byte)).flatten ++ List.replicate 32 0

/-- The image: its header with the two digests, the directory with the six CRCs, the sections. -/
def imgBytes : List Byte :=
  leBytes 4 0x49484B54 ++ leBytes 2 1 ++ leBytes 2 0x100 ++ leBytes 4 2368 ++ leBytes 2 6 ++ leBytes 2 0 ++ [0x0A, 0] ++ leBytes 2 1 ++
  leBytes 4 0 ++ leBytes 8 0x77 ++
  leBytes 32 33119631506511943912859747361091338097793930859269128471144804940983349618109 ++
  leBytes 32 24723360871807199491823152103292700721226245630402554489738403662738278147827 ++ List.replicate 160 0 ++
  leBytes 96 840344326777511254214073732167235942549043339356059776528411302319935623273413433377686979674513207196101242295604413719962493945600434511954174669067435628568019811587565414739109443708149365028964399054936604409313910367727976449 ++
  imgBody

/-- A module whose self-test passed at every step, whose load of that image is being validated. -/
def checking : State :=
  { (up.setFld F.memStepok_ok 0 31).setFld F.memStepok_tested 0 31 with loading := some ⟨pf, imgBytes, true, false, []⟩ }

/-- The image passes checks 2 to 13 (R39). -/
theorem witness_ImagesAndPlans_imagePasses :
    checking.loading = some ⟨pf, imgBytes, true, false, []⟩ ∧ ∃ im, checking.checkImage imgBytes true = .ok im :=
  ⟨rfl, by
    have h : (match checking.checkImage imgBytes true with | .ok _ => true | .error _ => false) = true := by decide +kernel
    cases hc : checking.checkImage imgBytes true with
    | ok im => exact ⟨im, rfl⟩
    | error f => rw [hc] at h; cases h⟩

/-- A plan of one triple of `nop`s for region 0 of image 0x77: the header, its descriptors zero, no parameters, the text. -/
def planBytes : List Byte :=
  leBytes 4 0x4C504B54 ++ leBytes 2 1 ++ leBytes 2 0 ++ [0, 0] ++ leBytes 2 1 ++ leBytes 4 1 ++ leBytes 8 0x77 ++ leBytes 4 0 ++
  leBytes 4 (crc32c (List.replicate 600 0)).toNat ++ leBytes 4 0x280 ++ List.replicate 28 0 ++ List.replicate 600 0

/-- Host memory that holds it at 0x1000, and a module that holds the image. -/
def planHost : State := { held0 with hostMem := (planBytes.zipIdx.filter fun b => b.1 != 0).map fun b => (0x1000 + b.2, b.1) }

theorem witness_ImagesAndPlans_planLoad :
    let i : Instr := .planLoad pf 0x1000 664
    let s := ask i pf 2 planHost
    s.begins i pf 0x0002 false ∧ s.fwPass 0 false 0x1000 664 = true ∧ rdBytes s.hostMem 0x1000 664 = planBytes ∧ s.planCheck planBytes = 0 ∧
    s.planPlace planBytes.length = some 0 ∧ s.freePlanId = some 1 ∧ memWf s.ext = true := by
  delta State.begins; decide +kernel

end Sys2Proof.Tests
end

