-- ==== Sys2Proof/Tests/Serve.lean ====
section
/-! SUPPORT. Tests of chapters 13 and 14: the serving engines, broadcasts, pointers and swaps. -/

set_option Elab.async false

namespace Sys2Proof.Tests
open Sys2Proof Sys2Proof.Machine

/-- A serving configuration of region 0: four pages of 1 MiB at 1 GiB, the work area at 2 GiB; and a request block of tenant 1 with a
prompt of 8 tokens at 0x9000. -/
def cfgBlk : List Byte :=
  leBytes 4 0x43534B54 ++ leBytes 2 1 ++ [0, 0] ++ leBytes 4 100 ++ leBytes 4 0x100000 ++ leBytes 8 0x40000000 ++ leBytes 4 4 ++
  leBytes 4 0 ++ leBytes 8 0 ++ leBytes 8 0x80000000 ++ leBytes 8 0x16448000 ++ leBytes 2 4 ++ leBytes 2 0 ++ leBytes 4 100 ++
  leBytes 4 70000 ++ leBytes 4 100 ++ leBytes 4 1 ++ List.replicate 52 0

def reqBlk (version : Nat) : List Byte :=
  leBytes 2 version ++ [0, 0] ++ leBytes 2 1 ++ List.replicate 10 0 ++ leBytes 4 0x3F800000 ++ leBytes 4 0x3F800000 ++
  List.replicate 32 0 ++ leBytes 4 8 ++ leBytes 4 16 ++ leBytes 8 0x9000 ++ leBytes 4 1000000 ++ List.replicate 52 0

/-- The serving module: engine 0 configured, tenant 1 of functions 0 and 1, a request of the PF in accession 5 and a catalogue entry. -/
def eng0 : Engine :=
  { cfg := some (cfgOf cfgBlk), tens := [(1, { balance := 900, limit := 1000, window := 10, funcs := 3 })], cat := [⟨1, 77, 256, 1, [2], [], false, none, 0⟩], pageCnt := [(2, 1)] }

def serv (g : Engine) : State := { held0 with engs := [(0, g)], hostMem := wrBytes (wrBytes [] 0x4000 cfgBlk) 0x5000 (reqBlk 1) }

def rid5 : BitVec 32 := ridOf 3 0 0 5
def req5 (state : Nat) : Req :=
  { state := state, rid := rid5, tenant := 1, maxnew := 16, emitted := 1, promptLen := 8, addr := 0x9000, depthReq := 2, pages := [3] }

theorem witness_ServingConfiguration :
    (let i : Instr := .srvConfig pf 0 0x4000
     let k : Instr := .srvConfig pf 0 0x5000
     let s := ask i pf 0x0100 (serv {})
     let b := rdBytes s.hostMem 0x4000 128
     let p := s.popCmd pf
     s.begins i pf 0x0100 false ∧ p.enginesOf 0 ≠ [] ∧ p.running 0 = false ∧ (∀ e ∈ p.enginesOf 0, (s.eng e).used = []) ∧
     p.fwPass 0 false 0x4000 128 = true ∧ p.cfgOk 0 b = true ∧ p.cfgOk 0 (rdBytes s.hostMem 0x5000 128) = false ∧
     after i s (fun u => (u.eng 0).cfg == some (cfgOf b) && u.fld F.srvCtl_configured 0 == 1) = true ∧
     (ask k pf 0x0100 (serv {})).begins k pf 0x0100 false ∧
     after k (ask k pf 0x0100 (serv {})) (fun u => (u.func 0).cpls.map (·.status) == [0x0060]) = true) ∧
    (let i : Instr := .outring pf 0x10000 10
     let s := ask i pf 0x0103 (serv { eng0 with reqs := [(5, req5 2)] })
     s.begins i pf 0x0103 true ∧ (∃ e < 2, ∃ q ∈ (s.eng e).used, q.2.fn = pf.fn) ∧
     after i s (fun u => (u.func 0).cpls.map (·.status) == [0x006D]) = true ∧
     (let s := ask i pf 0x0103 held0
      s.begins i pf 0x0103 true ∧ (∀ e < 2, ∀ q ∈ (s.eng e).used, q.2.fn ≠ pf.fn) ∧ (0x10000 : BitVec 64).toNat % 4096 = 0 ∧ (10 : BitVec 8).toNat ≤ 10 ∧
      after i s (fun u => (u.func 0).outOn && (u.func 0).outSize == 10) = true)) ∧
    (let i : Instr := .tenantSet pf 1 4095 500 7 0x8000
     (ask i pf 0x0104 held0).begins i pf 0x0104 false ∧ after i (ask i pf 0x0104 held0) (fun u => (mget (u.eng 1).tens 4095 {}).balance == 500) = true) := by
  delta State.begins; decide +kernel

/-- A request that passes every check, one of an unknown version, and one of a tenant unknown. -/
theorem witness_RequestsComeAndGo :
    let i : Instr := .submit pf 0 0x5000
    let s := ask i pf 0x0101 (serv eng0)
    let p := s.popCmd pf
    let q := reqOf pf 0 s.wall (rdBytes s.hostMem 0x5000 128)
    s.begins i pf 0x0101 true ∧ p.fwPass 0 false 0x5000 128 = true ∧ p.twinPaired = false ∧
    (match p.submitPlace q (rdBytes s.hostMem 0x5000 128) with
     | .ok (e, g, q') => decide (e = 0 ∧ p.admitStatus e g q' false = 0 ∧ q'.promptLen = 8 ∧ p.admitStatus e g { q' with tenant := 2 } false = 0x006B)
     | .error _ => false) = true ∧
    (match p.submitPlace q (reqBlk 2) with | .ok _ => 0 | .error st => st) = 0x0067 ∧ (decide (s.mode.mirror = 1)) = false ∧
    after i s (fun u => (u.func 0).cpls.map (·.status) == [0] && (u.eng 0).admNo == 1) = true := by
  delta State.begins; decide +kernel

theorem witness_RequestsComeAndGo_cancels :
    (let i : Instr := .cancel pf rid5
     let c : Cmd := ⟨3, 7, false, 0⟩
     let k : Instr := .cancel c rid5
     let s (n : Nat) := ask i pf 0x0102 (serv { eng0 with reqs := [(5, req5 n)] })
     let s3 := ask k c 0x0102 (serv { eng0 with reqs := [(5, req5 2)] })
     (s 2).begins i pf 0x0102 true ∧ s3.begins k c 0x0102 true ∧ s3.findReq rid5 = some (0, 5) ∧ (s3.accn 0 5).fn = 0 ∧
     (∀ n < 6, 1 ≤ n → (s n).findReq rid5 = some (0, 5)) ∧ (s 2).findReq 0 = none ∧ (s 2).twinPaired = false ∧ ((s 2).accn 0 5).fn = 0 ∧
     after i (s 2) (fun u => (u.accn 0 5).state == 5 && u.fld F.srvStat_cancels 0 == 1) = true ∧
     after i (s 4) (fun u => (u.func 0).cpls.map (·.status) == [0x0069]) = true ∧
     after i (s 5) (fun u => (u.func 0).cpls.map (·.status) == [0]) = true ∧
     after i (ask i pf 0x0102 (serv eng0)) (fun u => (u.func 0).cpls.map (·.status) == [0x0068]) = true ∧
     after k s3 (fun u => (u.func 3).cpls.map (·.status) == [0x0011]) = true ∧
     (let t := ask i pf 0x0102 (serv { eng0 with doneNow := [(rid5, 0, up.cnt)] })
      t.begins i pf 0x0102 true ∧ t.findReq rid5 = none ∧
      ((t.eng 0).doneNow ++ (t.eng 1).doneNow).find? (fun d => d.1 == rid5 && d.2.2 == t.cnt) = some (rid5, 0, t.cnt) ∧
      after i t (fun u => (u.func 0).cpls.map (·.status) == [0x0069]) = true)) ∧
    (let s (n : Nat) := serv { eng0 with reqs := [(5, req5 n)] }
     (s 1).findReq rid5 = some (0, 5) ∧
     ((s 1).accn 0 5).state = 1 ∧ ((s 1).accn 0 5).loaded = false ∧ (s 1).promptOf ((s 1).accn 0 5) = some (List.replicate 8 0) ∧
     ((s 1).eng 0).cfg = some (cfgOf cfgBlk) ∧ (∀ t ∈ List.replicate 8 0, t < (cfgOf cfgBlk).vocab) ∧ ((s 1).accn 0 5).pfxAnnex = false ∧
     after (.promptFetchComplete rid5 (some (.fetch 1))) (s 1) (fun u => (u.accn 0 5).state == 4) = true ∧
     after (.promptFetchComplete rid5 none) (s 1) (fun u => (u.accn 0 5).loaded && (u.accn 0 5).toks.length == 8) = true) := by
  delta State.begins; decide +kernel

def ent77 : CatEnt := ⟨1, 77, 256, 1, [2], [], false, none, 0⟩
def drop (h : BitVec 64) : Instr := .catDrop pf 0 1 h
def move (t : BitVec 8) : Instr := .catMove pf 0 1 77 t

/-- Entry 77 dropped, by a function that is its tenant's and by one that is not; one that is not there; moved to the annex, where no
page is free, and moved back; one that a request uses. -/
theorem witness_CatalogueAndTenants :
    (let s := ask (drop 77) pf 0x0105 (serv eng0)
     s.begins (drop 77) pf 0x0105 true ∧ (mget (s.eng 0).tens 1 {}).funcs.getLsbD 0 = true ∧ (s.eng 0).entry 1 77 = some ent77 ∧ ent77.moving = none ∧
     after (drop 77) s (fun u => (u.eng 0).cat.length == 0 && (u.eng 0).pageCnt.length == 0) = true) ∧
    (let s := ask (drop 78) pf 0x0105 (serv eng0)
     s.begins (drop 78) pf 0x0105 true ∧ (s.eng 0).entry 1 78 = none ∧
     after (drop 78) s (fun u => (u.func 0).cpls.map (·.status) == [0x0066]) = true) ∧
    (let c : Cmd := ⟨2, 7, false, 0⟩
     let i : Instr := .catDrop c 0 1 77
     let s := ask i c 0x0105 (serv eng0)
     s.begins i c 0x0105 true ∧ (mget (s.eng 0).tens 1 {}).funcs.getLsbD 2 = false ∧
     after i s (fun u => (u.func 2).cpls.map (·.status) == [0x006B]) = true) ∧
    (let s := ask (move 1) pf 0x0106 (serv eng0)
     s.begins (move 1) pf 0x0106 true ∧ (s.eng 0).uses ent77 = false ∧ ent77.annex ≠ true ∧ (s.popCmd pf).freePages 0 true < ent77.full ∧
     after (move 1) s (fun u => (u.func 0).cpls.map (·.status) == [0x0065]) = true) ∧
    (let s := ask (move 0) pf 0x0106 (serv { eng0 with cat := [{ ent77 with annex := true, pages := [2 ^ 31] }], pageCnt := [(2 ^ 31, 1)] })
     s.begins (move 0) pf 0x0106 true ∧ ent77.full + (s.eng 0).pageRes ≤ (s.popCmd pf).freePages 0 false ∧ (s.eng 0).entry 1 77 = some { ent77 with annex := true, pages := [2 ^ 31] }) ∧
    (let s := ask (move 1) pf 0x0106 (serv { eng0 with reqs := [(5, { req5 2 with flags := 1, pfxAt := 77, pages := [2] })] })
     s.begins (move 1) pf 0x0106 true ∧ (s.eng 0).uses ent77 = true ∧ after (move 1) s (fun u => (u.func 0).cpls.map (·.status) == [0x006C]) = true) := by
  delta State.begins; decide +kernel

theorem witness_CatalogueAndTenants_later :
    (let y : CatEnt := ⟨1, 77, 0, 0, [], [], true, some (false, pf, []), 0⟩
     let s := serv { eng0 with cat := [y] }
     (s.eng 0).entry 1 77 = some y ∧ y.annex ≠ false ∧ (s.eng 0).cfg = some (cfgOf cfgBlk) ∧ s.ringStopped 0 = false ∧
     after (.catMoveComplete ⟨0, [64]⟩ 1 77) s (fun u => (u.eng 0).cat.map (fun c => (c.annex, c.moving.isSome)) == [(false, false)]) = true) ∧
    (let s := (serv eng0).setReg .srvWall 0 1000000
     (mget (s.eng 0).tens 1 {}).window ≠ 0 ∧ (mget (s.eng 0).tens 1 {}).last < s.wall / (100000 * (mget (s.eng 0).tens 1 {}).window) ∧
     after (.tenantRefill 0 1) s (fun u => (mget (u.eng 0).tens 1 {}).balance == 1000) = true) ∧
    (let s := (serv { eng0 with reqs := [(5, req5 2)] }).setFld F.srvAccsel_index 0 5
     s.mayWrite (.host 0) = true ∧ bits (2 * 2 ^ 42 : BitVec 64).toNat 45 42 ≤ (s.accn 0 5).depthReq ∧ (s.accn 0 5).state ≠ 0 ∧
     (s.accn 0 5).depthReq < bits (3 * 2 ^ 42 : BitVec 64).toNat 45 42 ∧
     after (.depthWrite (.host 0) 0 0 (2 * 2 ^ 42)) s (fun u => (u.accn 0 5).depth == 2) = true ∧
     after (.depthWrite (.host 0) 0 0 (3 * 2 ^ 42)) s (fun u => (u.accn 0 5).depth == 0) = true) := by decide +kernel

/-- An emission of two tokens for the last entry of a ring of 64, the host's index 5. -/
theorem witness_EmissionsAndBoundaries :
    (let m : Emission := ⟨0, rid5, false, false, false, 0, 9, 0x55, [7, 8], 0, some 5, 0, 0⟩
     let s : State := { serv eng0 with
       fns := [(0, { emis := [m], outBase := 0x70000, outSize := 0, outOn := true, outIdx := 63, outPhase := true })], hostMem := [(8, 5)] }
     let bs := emisBytes { m with late := decide (5 < s.wall) } true s.wall
     s.emisEngine m < 2 ∧ (s.func 0).emis = [m] ∧ (s.func 0).outOn = true ∧ ((s.func 0).outIdx + 1) % ringLen (s.func 0).outSize ≠ s.hostIdx 0 8 ∧
     s.ringStopped 0 = false ∧ s.emisWaits m = false ∧ s.fwPass 0 true (0x70000 + 64 * 63) bs.length = true ∧ memWf s.hostMem = true ∧
     after (.emissionWrite 0) s (fun u => (u.func 0).outIdx == 0 && !(u.func 0).outPhase && rdByte u.hostMem 0x70FD8 == 7) = true) ∧
    (let x : Series := { step := 4, endedAt := some 100, stopReq := true }
     let s (b : Bool) (k : Nat) (x : Series) : State :=
       { serv { eng0 with tabStep := k } with regions := [(0, { running := true, begun := b, series := some x })] }
     (s false 0 {}).packsHere 0 = true ∧ ((s false 0 {}).region 0).begun = false ∧ ((s false 0 {}).eng 0).tabStep = 0 ∧
     (s true 5 x).packsHere 0 = true ∧ x.endedAt.isSome = true ∧ ((s true 5 x).eng 0).tabStep = x.step + 1 ∧
     (s true 5 { x with stopReq := false }).packsHere 0 = true ∧ (held0.eng 0).cfg = none ∧
     after (.boundaryWork 0) (s false 0 {}) (fun v => (v.eng 0).tabStep == 1) = true ∧
     after (.boundaryWork 0) (s true 5 { x with stopReq := false }) (fun v => (v.eng 0).tabStep == 6) = true ∧
     after (.boundaryWork 0) (s true 5 x) (fun v => (v.eng 0).tabStep == 7) = true) := by decide +kernel

/-! ## Broadcasts -/

/-- The image with a GDDR7 grant for channels 0 and 1 of IO-N; a tree of two nodes, this module node 0 or node 1, and its descriptor. -/
def bcImg : Image := { img0 with grants := [⟨8, 0, 1, 4, 0⟩] }
def bnode (m p : Nat) : TreeNode := ⟨m, p, if p = 0xFFFF then 0xFFFF else 0, 0, 0, 0x400000, 0x500000, 1⟩
def btree (root leaf : Nat) : BTree := ⟨0x99, 16448, [bnode root 0xFFFF, bnode leaf 0]⟩
def btreeBytes : List Byte :=
  leBytes 4 0x54424B54 ++ leBytes 2 1 ++ leBytes 2 2 ++ leBytes 8 0x99 ++ List.replicate 48 0 ++
  ([bnode 0 0xFFFF, bnode 6 0].flatMap fun n => leBytes 4 n.module ++ leBytes 2 n.parent ++ leBytes 2 n.alt ++ leBytes 8 n.dest ++
    leBytes 8 n.map ++ leBytes 1 n.chan ++ List.replicate 7 0)

def bcs (b : List (Nat × Bc)) : State :=
  { held0 with img := some bcImg, wts := { bcs := b }, ext := wrBytes [] 0x300000 btreeBytes }

theorem witness_BroadcastsStart :
    (let i : Instr := .bcast pf 0x300000 0x600000 16448 0 1
     let s := ask i pf 0x0200 (bcs [])
     let p := s.popCmd pf
     s.begins i pf 0x0200 false ∧
     chanByteDie 1 = 0 ∧ chanByteOk 1 = true ∧ s.wts.bcs = [] ∧ p.dmaState (chanByteIx 1) = 0 ∧
     p.descCheck (chanByteIx 1) ⟨0x600000, 0, BitVec.ofNat 32 (min 16448 bcDescMax), 24, 0⟩ = 0 ∧ p.bcTreeAt 0x300000 16448 = some (btree 0 6) ∧
     after i s (fun u => u.fld F.dmaBcstat_state 0 == 1 && u.fab.sent.map (·.dest) == [6]) = true) ∧
    (let i : Instr := .bcast pf 0x164480 0x600000 16448 0 1
     let s := ask i pf 0x0200 (bcs [])
     s.begins i pf 0x0200 false ∧ (s.popCmd pf).bcTreeAt 0x164480 16448 = none ∧
     after i s (fun u => (u.func 0).cpls.map (·.status) == [0x0080]) = true) ∧
    (let b := btree 4 0
     let s := told 0x40 0x99 (bcBytes b 0x10 []) (bcs [])
     s.hasMsg 0x40 (·.says 0x99 (bcBytes b 0x10 [])) = true ∧
     s.nodeIn ⟨b.bcastId, 0, b.nodes⟩ = some 1 ∧ b.length ≠ 0 ∧ s.bcById 0 b.bcastId = none ∧ s.bcEntryOk b (bnode 0 0) = true ∧
     memWf s.ext = true ∧ relayOnly (bnode 0 0) = false ∧
     after (.openReceive b) s (fun u => u.fld F.dmaBcstat_state 0 == 1 && u.fab.sent.any (fun m => m.dest == 4 && m.args == [0x11, 1])) = true) := by
  delta State.begins; decide +kernel

/-- A message of broadcast 0x99 that lies whole before the controller. -/
def bcTold (sub : Nat) (args : List Nat) (s : State) : State := told 0x40 0x99 (bcBytes noTree sub args) s

def root (b : Bc) : Bc := { b with tree := btree 0 6, node := 0, cmd := some pf, readys := [0] }
def leaf (b : Bc) : Bc := { b with tree := btree 4 0, node := 1 }
def bc0 : Bc := { tree := btree 0 6, node := 0, chan := 1 }

theorem witness_BroadcastsStart_messages :
    (let b : BTree := { btree 4 0 with bcastId := 0x98 }
     let s := told 0x40 0x98 (bcBytes b 0x10 []) (bcs [(0, root bc0)])
     s.hasMsg 0x40 (·.says 0x98 (bcBytes b 0x10 [])) = true ∧ mfind s.wts.bcs 0 = some (root bc0) ∧ (root bc0).open_ = true ∧
     s.nodeIn ⟨0x98, 0, b.nodes⟩ = some 1 ∧ s.bcById 0 0x98 = none ∧
     after (.openReceive b) s (fun u => u.fab.sent.any (fun m => m.dest == 4 && m.args == [0x13, 1])) = true) ∧
    (let s := bcTold 0x11 [1] (bcs [(0, root bc0)])
     s.hasMsg 0x40 (·.says 0x99 (bcBytes noTree 0x11 [1])) = true ∧
     s.bcRoot 0x99 = some (0, root bc0) ∧ mfind s.wts.bcs 0 = some (root bc0) ∧ 1 < (root bc0).tree.nodes.length ∧
     (root bc0).readys.contains 1 = false ∧ (root bc0).sending = false ∧ (root bc0).readys.length + 1 = (root bc0).tree.nodes.length ∧
     after (.bcastReadyReceive 1 0x99) s (fun u => u.fld F.dmaBcstat_state 0 == 2 && u.dmaState (chanByteIx 1) == 1) = true) ∧
    (let z : List Byte := List.replicate 64 0
     let s := comes ⟨1, 0, 0, 4, 0x1FFFF, 0, 1, chunkBody 0x99 z⟩ (bcs [(0, leaf { bc0 with held := [0] })])
     s.bcById 0 0x99 = some (leaf { bc0 with held := [0] }) ∧ (leaf bc0).node ≠ 0 ∧ (leaf bc0).stopped = false ∧ 1 < chunksOf (btree 4 0) ∧
     chunkBytesOf (btree 4 0) 1 = 64 ∧ s.hasArrived (chunkHolds 0x99 1 z) = true ∧
     (leaf { bc0 with held := [0] }).held.contains 1 = false ∧ relayOnly (leaf bc0).entry = false ∧ memWf s.ext = true ∧
     after (.chunkReceive 0 0x99 1 z) s (fun u => (mfind u.wts.bcs 0).map (·.wpend) == some [(1, z, 0)]) = true) ∧
    (let z : List Byte := List.replicate 64 7
     let b := leaf { bc0 with held := [0], wpend := [(1, z, 0)] }
     let s := bcs [(0, b)]
     s.bcRecv (chIx ⟨8, 1⟩) = some b ∧ chanExists ⟨8, 1⟩ = true ∧ s.dmaNextAcc (chIx ⟨8, 1⟩) true = none ∧
     s.bcAcc (chIx ⟨8, 1⟩) true = some (0x404000, 64) ∧ s.dmaMay (chIx ⟨8, 1⟩) 0 0x404000 = true ∧ memWf s.ext = true ∧
     after (.dmaSlotAccess ⟨8, 1⟩ ⟨true, .clean⟩) s (fun u =>
       u.fld F.dmaBcstat_state 0 == 3 && rdByte u.ext 0x500000 == 2 && rdByte u.ext 0x40403F == 7) = true) ∧
    (let z : List Byte := List.replicate 40 7
     let b := leaf { bc0 with tree := ⟨0x99, 16424, (btree 4 0).nodes⟩, wpend := [(1, z, 0)] }
     let b := { b with tree := ⟨0x99, 16424, (btree 4 0).nodes⟩ }
     let s := bcs [(0, b)]
     s.bcRecv (chIx ⟨8, 1⟩) = some b ∧ s.bcAcc (chIx ⟨8, 1⟩) true = some (0x404000, 40) ∧ b.rmw = false ∧
     after (.dmaSlotAccess ⟨8, 1⟩ ⟨true, .clean⟩) s (fun u => (mfind u.wts.bcs 0).map (·.rmw) == some true) = true) ∧
    (let b := leaf { bc0 with held := [1], rpend := [(2, 1, [])] }
     let s := bcs [(0, b)]
     s.bcRecv (chIx ⟨8, 1⟩) = some b ∧ s.dmaNextAcc (chIx ⟨8, 1⟩) false = none ∧ chunkBytesOf b.tree 1 = 64 ∧
     s.bcAcc (chIx ⟨8, 1⟩) false = some (0x404000, 64) ∧ s.dmaMay (chIx ⟨8, 1⟩) 0 0x404000 = true ∧
     after (.dmaSlotAccess ⟨8, 1⟩ ⟨false, .clean⟩) s (fun u => (u.fdie 0).origin.map (·.type) == [0x01]) = true) ∧
    (let t : BTree := ⟨0x99, 16448, [bnode 4 0xFFFF, bnode 0 0, ⟨6, 0, 1, 0, 0, 0, 0, 1⟩]⟩
     let b := { bc0 with tree := t, node := 1 }
     let s := bcTold 0x12 [2, 0] (bcs [(0, b)])
     s.hasMsg 0x40 (·.says 0x99 (bcBytes noTree 0x12 [2, 0])) = true ∧ b.stopped = false ∧
     s.bcById 0 0x99 = some b ∧ (b.tree.nodes.map (·.alt)).getD 2 0xFFFF = b.node ∧ b.children.contains 2 = false ∧
     after (.needReceive 0 2 0x99 0) s (fun u => (mfind u.wts.bcs 0).map (·.adopted) == some [2]) = true) := by decide +kernel

theorem witness_BroadcastsEnd :
    (let b := leaf { bc0 with last := 0 }
     let s (b : Bc) := (bcs [(0, b)]).setReg .srvWall 0 1099511627776
     ((List.range (chunksOf b.tree)).find? fun j => !b.has j) = some 0 ∧
     b.node ≠ 0 ∧ b.open_ = true ∧ b.failSent = false ∧ b.last + 100 * (s b).fld F.dmaBcctl_stall 0 ≤ (s b).wall ∧ b.needed = false ∧
     after (.bcastStall 0) (s b) (fun u => u.fab.sent.map (fun m => (m.dest, m.args)) == [(4, [0x12, 1, 0])]) = true ∧
     after (.bcastStall 0) (s { b with needed := true }) (fun u => u.fab.sent.map (fun m => (m.dest, m.args)) == [(4, [0x13, 1])]) = true ∧
     b.msg ≠ 0x15 ∧ (bcTold 0x15 [] (s b)).hasMsg 0x40 (·.says 0x99 (bcBytes noTree 0x15 [])) = true ∧
     after (.bcastAbortReceive 0 0x99) (bcTold 0x15 [] (s b)) (fun u => u.fld F.dmaBcstat_state 0 == 4) = true) ∧
    (let b := root { bc0 with dones := [0] }
     let s (b : Bc) := (bcs [(0, b)]).setReg .srvWall 0 1099511627776
     let fail := bcTold 0x13 [1] (s b)
     let ends := bcTold 0x14 [1] (s b)
     fail.bcRoot 0x99 = some (0, root b) ∧ fail.hasMsg 0x40 (·.says 0x99 (bcBytes noTree 0x13 [1])) = true ∧
     ends.bcRoot 0x99 = some (0, root b) ∧ ends.hasMsg 0x40 (·.says 0x99 (bcBytes noTree 0x14 [1])) = true ∧
     b.dones.contains 1 = false ∧ b.tree.nodes.length ≤ b.dones.length + 1 ∧
     b.cmd.isSome = true ∧ b.opened + 100000 * (s b).fld F.dmaBcctl_timeout 0 ≤ (s b).wall ∧ (s b).ringStopped 0 = false ∧
     after (.bcfailReceive 1 0x99) fail (fun u => u.fld F.dmaBcstat_state 0 == 4 && (u.func 0).cpls.map (·.status) == [0x0082]) = true ∧
     after (.bcastDoneReceive 1 0x99) ends (fun u => u.fld F.dmaBcstat_state 0 == 3 && (u.func 0).cpls.map (·.status) == [0]) = true ∧
     after (.bcastTimeout 0) (s b) (fun u => (u.func 0).cpls.map (·.status) == [0x0082]) = true) := by decide +kernel

/-! ## Pointers, swaps and fences -/

/-- The serving module with a pointer area at 0x700000 whose layer 0 lies at 0x800000, and swaps allowed. -/
def ptrs (w : Weights) : State :=
  { serv eng0 with
    img := some { bcImg with mode := { bcImg.mode with swap := 2 } }
    wts := { w with areas := [(0, 0x700000)] }
    ext := wrBytes (wrBytes [] 0x700000 (leBytes 8 0x800000)) 0x8FF000 [1, 2, 3] }

def unit0 : SwapUnit := ⟨0, 0, 64, 0x8FF000, false⟩

theorem witness_PointersAndSwaps :
    (let i : Instr := .wtable pf 0 0x701000
     let s := ask i pf 0x0201 (ptrs {})
     s.begins i pf 0x0201 false ∧ (s.regionRec 0).isSome = true ∧ (0x701000 : BitVec 64).toNat % 4096 = 0 ∧ (s.popCmd pf).inGddr 0x701000 4096 = true ∧
     after i s (fun u => mfind u.wts.areas 0 == some 0x701000) = true) ∧
    (let i : Instr := .wtable pf 0 0x10000000000000
     let s := ask i pf 0x0201 (ptrs {})
     s.begins i pf 0x0201 false ∧ (s.popCmd pf).inGddr 0x10000000000000 4096 = false ∧
     after i s (fun u => (u.func 0).cpls.map (·.status) == [0x0081]) = true) ∧
    (let i : Instr := .wptr pf 0 254 2 0x4000
     let s := ask i pf 0x0202 (ptrs {})
     s.begins i pf 0x0202 false ∧ (s.popCmd pf).twinPaired = false ∧ (s.popCmd pf).fwPass 0 false 0x4000 (8 * 2) = true ∧ (254 : BitVec 8).toNat + 2 ≤ 256 ∧
     (∀ k < 2, s.swapHolds 0 (254 + k) = false) ∧
     after i s (fun u => u.wts.wptrs.map (fun p => (p.first, p.ptrs.length)) == [(254, 2)]) = true) ∧
    (let i : Instr := .wptr pf 0 255 2 0x4000
     let s := ask i pf 0x0202 (ptrs {})
     s.begins i pf 0x0202 false ∧ after i s (fun u => (u.func 0).cpls.map (·.status) == [0x0081]) = true) ∧
    (let i : Instr := .wptr pf 0 0 1 0x4000
     let s := ask i pf 0x0202 (ptrs { swap := some ⟨some pf, [unit0], 1, none, none⟩ })
     s.begins i pf 0x0202 false ∧ s.swapHolds 0 (0 + 0) = true ∧ after i s (fun u => (u.func 0).cpls.map (·.status) == [0x0085]) = true) := by
  delta State.begins; decide +kernel

def swap1 : Instr := .swap pf 0x6000 1 1

theorem witness_PointersAndSwaps_swap :
    (let s := ask swap1 pf 0x0203 { ptrs {} with hostMem := wrBytes [] 0x6000 (leBytes 4 0 ++ leBytes 4 64 ++ leBytes 8 0x8FF000) }
     let b := rdBytes s.hostMem 0x6000 16
     s.begins swap1 pf 0x0203 false ∧
     s.mode.swap ≠ 1 ∧ s.wts.swap = none ∧ (s.popCmd pf).fwPass 0 false 0x6000 16 = true ∧ (∀ e ∈ cut 16 b, leAt e 2 2 = 0 ∧ leAt e 4 4 % 64 = 0) ∧
     ((cut 16 b).map swapUnitOf) = [unit0] ∧ (s.popCmd pf).swapLies [unit0] = true ∧ ((s.popCmd pf).takeSwap (some pf) 1 [unit0]).2 = 0 ∧
     ((s.popCmd pf).takeSwap (some pf) 1 [{ unit0 with src := 0x900000 }]).2 = 0x0084 ∧
     after swap1 s (fun u => u.wts.swap == some ⟨some pf, [unit0], 1, none, none⟩ && u.fld F.srvSwap_state 0 == 1) = true) ∧
    (let s := ask swap1 pf 0x0203 { ptrs {} with hostMem := wrBytes [] 0x6000 (leBytes 4 7 ++ leBytes 4 64 ++ leBytes 8 0x8FF000) }
     s.begins swap1 pf 0x0203 false ∧ s.wts.swap = none ∧ (s.popCmd pf).fwPass 0 false 0x6000 16 = true ∧ (s.popCmd pf).twinPaired = false ∧
     (s.popCmd pf).swapLies ((cut 16 (rdBytes s.hostMem 0x6000 16)).map swapUnitOf) = false ∧
     after swap1 s (fun u => (u.func 0).cpls.map (·.status) == [0x0081]) = true) ∧
    (let s := ask swap1 pf 0x0203 (ptrs { swap := some ⟨some pf, [unit0], 1, none, none⟩ })
     s.begins swap1 pf 0x0203 false ∧ s.wts.swap.isSome = true ∧ after swap1 s (fun u => (u.func 0).cpls.map (·.status) == [0x0083]) = true) ∧
    (let w : SwapSt := ⟨some pf, [unit0], 1, none, none⟩
     let s := ptrs { swap := some w }
     w.copyEnd = none ∧ s.firstServing = none ∧ s.anyInv = false ∧ w.group.isEmpty = false ∧ s.swapPassed w = false ∧
     after .swapCopy s (fun u => (u.wts.swap.map (·.copyEnd)) == some (some 4097)) = true) ∧
    (let w : SwapSt := ⟨some pf, [unit0], 1, none, some 0⟩
     let s := ptrs { swap := some w }
     w.copyEnd = some 0 ∧ 0 ≤ s.cnt ∧ w.group = [unit0] ∧ memWf s.ext = true ∧ pf.fn < 16 ∧ s.ringStopped 0 = false ∧
     after .swapCopyEnd s (fun u => u.wts.swap == none && rdBytes u.ext 0x800000 3 == [1, 2, 3] && (u.func 0).cpls.map (·.status) == [0]) = true) := by
  delta State.begins; decide +kernel

/-- FENCE_OUT and FENCE_IN of region 0 in a module whose pair is in a state, with regions fenced. -/
def fence (i : Instr) (op st : Nat) (w : Weights) : State := ask i pf op ((ptrs w).setFld F.mirState_state 0 st)

theorem witness_PointersAndSwaps_fences :
    let out : Instr := .fenceOut pf 0
    let into : Instr := .fenceIn pf 0
    (let s := ask out pf 0x0204 (serv eng0)
     s.begins out pf 0x0204 false ∧ s.mode.swap = 0 ∧ after out s (fun u => (u.func 0).cpls.map (·.status) == [0x0086]) = true) ∧
    (let s := fence out 0x0204 4 {}
     let p := s.popCmd pf
     s.begins out pf 0x0204 false ∧
     s.mode.swap ≠ 0 ∧ (p.served 0).isEmpty = false ∧ p.pairState = 4 ∧ 0 ∉ s.wts.fenced ∧ p.handing = false ∧ p.twinPaired = false ∧ p.leader = true ∧
     after out s (fun u => u.mir.handover == some 2 && u.mir.giving && u.mir.fencing && u.wts.fenced == [0] && (u.eng 0).fencedOut) = true) ∧
    (let s := (fence out 0x0204 4 {}).setFld F.fabId_id 0 0xFFFFF
     s.begins out pf 0x0204 false ∧ (s.popCmd pf).leader = false ∧
     after out s (fun u => u.mir.handover == none && !u.mir.giving && u.mir.fencing) = true) ∧
    (let s := { fence out 0x0204 4 {} with mir := { handover := some 5 } }
     s.begins out pf 0x0204 false ∧ (s.popCmd pf).handing = true ∧ after out s (fun u => (u.func 0).cpls.map (·.status) == [0x0087]) = true) ∧
    (let s := fence out 0x0204 4 { fenced := [0] }
     s.begins out pf 0x0204 false ∧ 0 ∈ s.wts.fenced ∧ after out s (fun u => (u.func 0).cpls.map (·.status) == [0x0087]) = true) ∧
    (let s := fence into 0x0205 4 { fenced := [0] }
     s.begins into pf 0x0205 false ∧ (s.popCmd pf).pairState ≠ 7 ∧ after into s (fun u => (u.func 0).cpls.map (·.status) == [0x0087]) = true) ∧
    (let s := fence into 0x0205 7 { fenced := [0] }
     s.begins into pf 0x0205 false ∧ 0 ∈ s.wts.fenced ∧ (s.popCmd pf).pairState = 7 ∧ s.mode.mirror ≠ 2 ∧
     after into s (fun u => u.pairState == 3 && u.fld F.srvSwap_state 0 == 4) = true) := by
  delta State.begins; decide +kernel

end Sys2Proof.Tests
end

