-- ==== Sys2Proof/Tests/Mirrors.lean ====
section
/-! SUPPORT. Tests of chapter 15: pairs of modules. -/

set_option Elab.async false

namespace Sys2Proof.Tests
open Sys2Proof Sys2Proof.Machine

/-- A module of a pair with a mirror port UP, in a state of the pair; its own ID is 0, so it leads module 9 and follows none. -/
def pairS (mirror st : Nat) (g : Engine := eng0) (own : Nat := 0) : State :=
  { ((((serv g).setFld F.lnkCtl_role 3 2).setFld F.lnkStat_state 3 3).setFld F.fabId_id 0 own).setFld F.mirState_state 0 st with
    img := some { img0 with mode := { img0.mode with mirror := mirror, partner := 9 } } }

/-- A message of the partner that lies whole before the controller. -/
def mirTold (body : List Byte) (s : State) : State := told 0x50 0 body s

theorem witness_PairsFormAndPart :
    (let h : Hello := ⟨8, 1, 0, []⟩
     let s := mirTold (helloBytes h) (pairS 1 1 {})
     s.mir.updAct = none ∧ s.wts.fenceCmd = [] ∧ s.mir.queries = [] ∧ s.mode.mirror ≠ 0 ∧ s.portRole 3 = 2 ∧ s.hasMsg 0x50 (·.says 0 (helloBytes h)) = true ∧
     s.compatible h = false ∧ after (.helloReceive 3 h) s (fun u => u.pairState == 2) = true) ∧
    (let h : Hello := ⟨9, 1, 0, (pairS 1 5 {}).pairDigest⟩
     let s := mirTold (helloBytes h) (pairS 1 5 {})
     s.hasMsg 0x50 (·.says 0 (helloBytes h)) = true ∧ s.compatible h = true ∧ after (.helloReceive 3 h) s (fun u => u.pairState == 3) = true) ∧
    (let s := { pairS 1 3 with wts := { fenced := [0], fenceIn := [(0, pf)] }, mir := { joinCmd := some pf, heard := true } }
     s.pairState = 3 ∧ s.mir.heard = true ∧ s.mir.giveRids = [] ∧ s.mir.handRids = [] ∧ s.wts.fenceCmd = [] ∧ s.adoptedReqs = [] ∧ (∀ r ∈ s.wts.fenced, r < 8) ∧ s.ringStopped 0 = false ∧
     after .syncComplete s (fun u => u.pairState == 4 && u.wts.fenced == [] && (u.func 0).cpls.map (·.opcode) == [0x0210, 0x0205]) = true) := by
  decide +kernel

theorem witness_PairsFormAndPart_joins :
    (let i : Instr := .pairJoin pf
     let h : Hello := ⟨9, 1, 0, (pairS 1 0).pairDigest⟩
     let s (st : Nat) := ask i pf 0x0210 { pairS 1 st with mir := { hello := some h } }
     (s 5).begins i pf 0x0210 false ∧ (s 4).begins i pf 0x0210 false ∧
     (s 5).mode.mirror ≠ 0 ∧ ((s 5).popCmd pf).mirUp ≠ [] ∧ (s 5).mir.hello = some h ∧ ((s 5).popCmd pf).compatible h = true ∧
     after i (s 5) (fun u => u.pairState == 3 && u.mir.joinCmd == some pf) = true ∧
     after i (s 4) (fun u => (u.func 0).cpls.map (·.status) == [0x0092]) = true ∧
     (pairS 1 5).mir.hello = none ∧ after i (ask i pf 0x0210 (pairS 1 5)) (fun u => (u.func 0).cpls.map (·.status) == [0x0091]) = true ∧
     after i (ask i pf 0x0210 held0) (fun u => (u.func 0).cpls.map (·.status) == [0x0090]) = true) ∧
    (let i : Instr := .pairDrop pf
     let s := ask i pf 0x0211 (pairS 1 4)
     let run : State := { s with regions := [(0, { running := true })] }
     s.begins i pf 0x0211 false ∧ s.pairState = 4 ∧ (s.popCmd pf).firstServing = none ∧
     after i s (fun u => u.pairState == 5 && (u.func 0).cpls.map (·.status) == [0]) = true ∧
     after i (ask i pf 0x0211 (pairS 1 5)) (fun u => (u.func 0).cpls.map (·.status) == [0x0092]) = true ∧
     after i (ask i pf 0x0211 held0) (fun u => (u.func 0).cpls.map (·.status) == [0x0090]) = true ∧
     (run.popCmd pf).firstServing.isSome = true ∧ after i run (fun u => u.mir.dropAt && u.pairState == 4) = true) := by
  delta State.begins; decide +kernel

theorem witness_PairsFormAndPart_messages :
    (let s := mirTold (leBytes 2 8) (pairS 1 4)
     s.pairState = 4 ∧ s.hasMsg 0x50 (·.says 0 (leBytes 2 8)) = true ∧ after .pairDropReceive s (fun u => u.pairState == 5) = true) ∧
    (let s := mirTold (leBytes 2 6) (pairS 1 8)
     s.mode.mirror ≠ 0 ∧ s.pairState = 8 ∧ s.hasMsg 0x50 (·.says 0 (leBytes 2 6)) = true ∧ after .pairJoinReceive s (fun u => u.pairState == 3) = true) ∧
    (let it := argBytes (handItems 7 [fenceMark, rid5])
     let s := mirTold it (pairS 1 4)
     s.hasMsg 0x50 (·.says 0 it) = true ∧ s.leader = true ∧ (7 : Nat) ≠ askStep ∧
     after (.handoverReceive 7 [fenceMark, rid5] []) s (fun u =>
       u.mir.handover == some 7 && u.mir.handRids == [rid5] && u.mir.heard && u.mir.cover && !u.mir.giving) = true) ∧
    (let s := mirTold (argBytes (handItems 7 [])) (pairS 1 3 { eng0 with reqs := [(5, { req5 2 with adopted := true })] } 10)
     s.hasMsg 0x50 (·.says 0 (argBytes (handItems 7 []))) = true ∧
     s.pairState = 3 ∧ s.leader = false ∧ s.mir.giving = false ∧ s.mir.fencing = false ∧ s.syncRids = [rid5] ∧
     after (.handoverReceive 7 [] []) s (fun u => u.mir.handover == some 7 && u.mir.giving && u.mir.giveRids == [rid5]) = true) ∧
    (let s := { mirTold (argBytes (handItems 7 [])) (pairS 1 4 eng0 10) with mir := { fencing := true, giveRids := [rid5] } }
     s.hasMsg 0x50 (·.says 0 (argBytes (handItems 7 []))) = true ∧ s.leader = false ∧
     after (.handoverReceive 7 [] []) s (fun u => u.mir.giving && u.mir.giveRids == [rid5]) = true) ∧
    (let it := argBytes (handItems askStep [fenceMark])
     let s := mirTold it (pairS 1 4)
     let t : State := { s with mir := { handover := some 9 } }
     s.hasMsg 0x50 (·.says 0 it) = true ∧ s.leader = true ∧ s.mir.handover = none ∧ t.mirUp ≠ [] ∧ (pairS 1 4 eng0 10).leader = false ∧
     after (.handoverReceive askStep [fenceMark] []) s (fun u => u.mir.handover == some 2 && u.mir.giving) = true ∧
     after (.handoverReceive askStep [fenceMark] []) t (fun u => u.fab.sent.map (·.args) == [handItems 9 []]) = true) := by decide +kernel

def query0 : Query := ⟨6, pf, 0, reqOf pf 0 0 (reqBlk 1)⟩

theorem witness_PairTraffic :
    (let s := mirTold (argBytes [0x0001, 0, 0, 1, 2, 3, 77]) (pairS 1 4)
     s.hasMsg 0x50 (·.says 0 (argBytes [0x0001, 0, 0, 1, 2, 3, 77])) = true ∧
     s.mode.mirror = 1 ∧ s.pairState = 4 ∧ s.leader = true ∧ s.takerOf 0 0 = some 0 ∧ (s.eng 0).cfg = some (cfgOf cfgBlk) ∧ s.mirUp ≠ [] ∧
     after (.admitQueryReceive 0 0 1 2 3 77) s (fun u => u.mir.grants == [(77, 0, 1, 2, 3)] && u.fab.sent.map (·.args) == [[2, 77, 0]]) = true) ∧
    (let m (st : Nat) : List Byte := argBytes [0x0002, 6, st]
     let s (st : Nat) := mirTold (m st) { pairS 1 4 with mir := { queries := [query0] } }
     (∀ st ∈ [0, 0x0065], (s st).hasMsg 0x50 (·.says 0 (m st)) = true) ∧
     (s 0).mir.queries.find? (fun x => x.no == 6) = some query0 ∧ ((s 0).eng query0.engine).cfg = some (cfgOf cfgBlk) ∧ query0.cmd.fn < 16 ∧
     query0.engine < 2 ∧ (s 0).ringStopped 0 = false ∧ (s 0).admitStatus 0 (cfgOf cfgBlk) ((s 0).readied 0 (cfgOf cfgBlk) query0.req) false = 0 ∧
     after (.admitVerdictReceive 6 0) (s 0) (fun u => (u.func 0).cpls.map (·.status) == [0]) = true ∧
     after (.admitVerdictReceive 6 0x0065) (s 0x0065) (fun u => (u.func 0).cpls.map (·.status) == [0x0065] && u.mir.queries.length == 0) = true) ∧
    (let t : TwinCmd := ⟨0x0102, pf, 0, rid5, [], some [], 0, false, 0, 0⟩
     let go (t : TwinCmd) (s : State) (f : State → Bool) : Bool :=
       (mirTold (twinBytes t) s).hasMsg 0x50 (·.says 0 (twinBytes t)) && after (.twinCommandReceive t) (mirTold (twinBytes t) s) f
     let led := pairS 2 4 eng0 10
     (pairS 2 4).leader = true ∧ led.leader = false ∧ led.mode.mirror = 2 ∧ led.twinLinked 0x0102 = true ∧ (pairS 2 4).twinLinked 0x0102 = true ∧ led.twinCoupled = true ∧
     go { t with kind := 4 } led (fun u => u.mir.launched == [0]) = true ∧
     go t (pairS 2 4) (fun u => u.mir.twins.map (fun x => (x.applyStep, x.fromPartner)) == [(3, true)]) = true ∧
     go t led (fun u => u.mir.twins.map (·.fromPartner) == [true]) = true ∧
     (let s := { led with mir := { twins := [t] } }
      s.mir.twins.find? (fun x => x.applyStep == 0 && !x.fromPartner && x.kind == 0x0102 && x.cmd.fn == 0 && x.cmd.tag == t.cmd.tag) = some t ∧
      go { t with fromPartner := true, applyStep := 9 } s (fun u => u.mir.twins.map (fun x => (x.applyStep, x.fromPartner)) == [(9, false)]) = true)) := by
  decide +kernel

theorem witness_PairTraffic_twins :
    (let i : Instr := .cancel pf rid5
     let s := ask i pf 0x0102 (pairS 2 4)
     s.begins i pf 0x0102 true ∧ s.twinPaired = true ∧ after i s (fun u => u.mir.twins.map (·.kind) == [0x0102]) = true) ∧
    (let s : State := { pairS 2 4 with img := some { img0 with mode := { img0.mode with mirror := 2, partner := 9, swap := 2 } }
                                       wts := { areas := [(0, 0x700000)] }, hostMem := [(0x6004, 64)] }
     let ptr : Instr := .wptr pf 0 5 1 0x6000
     let out : Instr := .fenceOut pf 0
     let p := ask ptr pf 0x0202 s
     let w := ask swap1 pf 0x0203 s
     let f := ask out pf 0x0204 s
     p.begins ptr pf 0x0202 false ∧ (mfind p.wts.areas 0).isSome = true ∧ (p.popCmd pf).fwPass 0 false 0x6000 8 = true ∧
     after ptr p (fun u => u.mir.twins.map (·.kind) == [0x0202]) = true ∧
     w.begins swap1 pf 0x0203 false ∧ w.mode.swap ≠ 1 ∧ w.wts.swap = none ∧ (w.popCmd pf).fwPass 0 false 0x6000 16 = true ∧
     (∀ e ∈ cut 16 (rdBytes w.hostMem 0x6000 16), leAt e 2 2 = 0 ∧ leAt e 4 4 % 64 = 0) ∧
     after swap1 w (fun u => u.mir.twins.map (·.kind) == [0x0203]) = true ∧
     f.begins out pf 0x0204 false ∧ f.mode.swap ≠ 0 ∧ ((f.popCmd pf).served 0).isEmpty = false ∧ 0 ∉ f.wts.fenced ∧ f.handing = false ∧
     after out f (fun u => u.mir.twins.map (·.kind) == [0x0204]) = true ∧
     (let into : Instr := .fenceIn pf 0
      let g := ask into pf 0x0205 { s.setFld F.mirState_state 0 7 with wts := { fenced := [0] } }
      g.begins into pf 0x0205 false ∧ 0 ∈ g.wts.fenced ∧ (g.popCmd pf).pairState = 7 ∧ g.mode.mirror = 2 ∧
      after into g (fun u => u.mir.twins.map (·.kind) == [0x0205]) = true)) := by
  delta State.begins; decide +kernel

/-- R558: a LAUNCH of a serving region waits for the partner's, which is told once. -/
theorem witness_LaunchesAndTrees_twin :
    let i : Instr := .launch pf 0 0 3 0 0 []
    let p : Plan := { id := 3, region := 0, expert := false, profile := 1, offset := 0, bytes := 0, digest := [], text := [], dcount := [],
                      dstride := [], gens := [], params := [] }
    let s := ask i pf 4 { pairS 2 4 with plans := [p] }
    s.begins i pf 0x0004 false ∧ s.launchWaits 0 0 = false ∧ s.launchStatus 0 0 3 0 0 = 0 ∧ s.twinLaunch 0 = true ∧ s.mir.launched.contains 0 = false ∧
    after i s (fun u => u.mir.launchSent == [0] && (u.func 0).taken.length == 1 && !(u.region 0).running) = true := by
  delta State.begins; decide +kernel

/-- An engine whose page holds one position of 64 bytes. -/
def small : SrvCfg := { cfgOf cfgBlk with pageBytes := 1024 + 64 * 256 }

def rec0 : StepRecord := ⟨5, 0, 1, 2, 3, 4, 7, [mirOf (req5 2)], [⟨0, rid5, false, false, false, 0, 9, 0x55, [7], 5, none, 0, 0⟩], [⟨1, 77, 256, [], []⟩], []⟩

theorem witness_PairTraffic_records :
    (let s := pairS 1 4 { eng0 with cfg := some small }
     (s.eng (s.ownFor 0)).cfg = some small ∧ s.takesMirror = true ∧ (List.replicate 68 (1 : Byte)).length = 4 + kvBytes small.pageBytes ∧
     memWf s.ext = true) ∧
    (let k : KvPacket := ⟨2, 0, 1, 5, 0, List.replicate 68 1⟩
     (comes ⟨0x51, 0, 0, 9, 0, 0, 1, kvBody k⟩ up).hasArrived (fun p => p.type == 0x51 && p.body == kvBody k) = true) ∧
    (let s := told 0x52 0 (recordBytes rec0) { pairS 1 4 with mir := { kvGot := [(0, 5, 1)] } }
     s.takesMirror = true ∧ s.hasMsg 0x52 (·.says 0 (recordBytes rec0)) = true ∧ rec0.kvCount ≤ ((s.mir.kvGot.find? fun g => g.1 == rec0.engine && g.2.1 == rec0.step).map (·.2.2)).getD 0) ∧
    (let r := { rec0 with reqs := [] }
     let s := told 0x52 0 (recordBytes r) { pairS 1 4 with mir := { kvGot := [(0, 5, 1)] } }
     after (.stepRecordApply r) s (fun u => (u.eng 0).mirLoad == (2, 3, 4) && u.mir.pendEmis.length == 1 && u.mir.mirCat.length == 1) = true) ∧
    (let s := ({ pairS 1 4 with mir := { waitAck := [(1, 5, 0)] } }).setReg .srvWall 0 10000000
     s.mir.queries = [] ∧ (1, 5, 0) ∈ s.mir.waitAck ∧ 0 + 100 * s.fld F.mirCtl_ackwait 0 ≤ s.wall ∧
     (mirTold (argBytes [7, 5, 1]) s).hasMsg 0x50 (·.says 0 (argBytes [0x0007, 5, (1 : Fin 2).val])) = true ∧
     after (.ackReceive 5 1) (mirTold (argBytes [7, 5, 1]) s) (fun u => u.mir.waitAck == []) = true ∧
     after (.ackwaitExpiry 1) s (fun u => u.pairState == 5 && u.fld F.mirStat_acklate 0 == 1) = true) ∧
    (let s := told 0x53 0 (heartbeatBytes ⟨8, 0, []⟩) (pairS 1 4)
     s.mode.mirror ≠ 0 ∧ s.portRole 3 = 2 ∧ s.hasMsg 0x53 (·.says 0 (heartbeatBytes ⟨8, 0, []⟩)) = true ∧ after (.heartbeatReceive 3 ⟨8, 0, []⟩) s (fun u => u.fld F.mirState_peerstep 0 == 8 && u.mir.hbStep == 9) = true) ∧
    (let s := (pairS 1 4).setReg .srvWall 0 100000000
     s.firstServing = none ∧ s.mir.hbIdle + 100 * max 1 (s.fld F.mirCtl_idlehb 0) ≤ s.wall ∧
     s.mirUp ≠ [] ∧ after .idleHeartbeat s (fun u => u.fab.sent.length == 1) = true ∧
     (let s := s.setFld F.mirState_missed 0 2
      3 ≤ s.pairState ∧ s.mir.hbLast + s.hbInterval ≤ s.wall ∧ after .heartbeatInterval s (fun u => u.pairState == 5) = true) ∧
     (let s := (s.setFld F.mirState_missed 0 2).setFld F.lnkStat_state 3 1
      s.mirPorts ≠ [] ∧ (∀ q ∈ s.mirPorts, s.portState q = 1) ∧
      after .heartbeatInterval s (fun u => u.pairState == 6 && u.mir.adopt) = true)) := by decide +kernel

end Sys2Proof.Tests
end

