-- ==== Sys2Proof/Tests/Modules.lean ====
section
/-! SUPPORT. Tests of chapters 16 to 18: clocks, power, start-up, updates and the management bus. -/

set_option Elab.async false

namespace Sys2Proof.Tests
open Sys2Proof Sys2Proof.Machine

/-! ## Clocks -/

/-- A step request has go at bit 31. -/
theorem witness_ClocksAndReference :
    (let s := up.setFld F.memStepok_ok 0 31
     bits (0x80000002 : BitVec 32).toNat 2 0 = 2 ∧ (0x80000002 : BitVec 32).getLsbD 31 = true ∧ s.stepReason 2 = 0 ∧ up.stepReason 2 = 1 ∧
     2 ≤ s.step_ ∧ s.admittedAny = false ∧
     after (.stepRequest (.firmware 1) 0 0x80000002) s (fun u => u.clk.chg == some { target := 2, asked := 0 } && u.pwr.vcore == 2) = true ∧
     after (.stepRequest (.firmware 1) 0 0x80000002) up (fun u => u.fld F.clkStepcmd_reason 0 == 1) = true ∧
     after (.stepRequest (.host 0) 0 0x80000002) s (fun u => u.clk.chg == none) = true) ∧
    (let s : State := { ((serv { eng0 with reqs := [(5, req5 2)] }).setFld F.memStepok_ok 0 31).setFld F.clkState_step 0 1 with img := none }
     s.stepReason 3 = 0 ∧ s.step_ < 3 ∧ s.admittedAny = true ∧
     after (.stepRequest (.firmware 0) 0 0x80000003) s (fun u => u.fld F.clkState_pendvalid 0 == 1 && u.clk.pendIo == some 0) = true) ∧
    (let s := { up.setFld F.clkState_pending 0 3 with clk := { pendIo := some 1 } }
     s.clk.pendIo = some 1 ∧ after .pendingStepRelease s (fun u => u.clk.chg == some { target := 3, asked := 0 }) = true) ∧
    (let s := { up.setReg .ptcCount 0 2100 with clk := { chg := some { target := 2, asked := 0, first := some 52 } } }
     52 + 2048 ≤ s.cnt ∧ s.step_ ≠ 2 ∧ s.fld F.fabSyncctl_root 0 = 0 ∧
     after .dividerSwitch s (fun u => u.step_ == 2 && u.fld F.ptcState_unsync 0 == 1) = true) ∧
    (up.fld F.clkState_stretch 0 = 0 ∧ after .droopTrip up (fun u => u.fld F.clkState_stretch 0 == 1) = true) ∧
    (let s := up.setFld F.clkState_stretch 0 1
     s.fld F.clkState_stretch 0 = 1 ∧ after (.stretchEnd 12) s (fun u => u.fld F.clkDroop_stretched 0 == 12 && 0 < u.clk.debt) = true) ∧
    (let s := up.setFld F.clkState_catchup 0 1
     s.clk.debt = 0 ∧ after .catchupEnd s (fun u => u.fld F.clkState_catchup 0 == 0) = true) ∧
    (let s := { up.setFld F.clkState_refok 0 1 with regions := [(7, { series := some { tree := true } })] }
     s.fld F.clkState_refok 0 = 1 ∧ (∃ x, (s.region 7).series = some x ∧ x.tree = true) ∧
     after .referenceLoss s (fun u => u.clk.refLost && u.fab.unsyncArr) = true) ∧
    (let s := { up.setFld F.fabSyncctl_root 0 1 with clk := { refLost := true } }
     s.clk.refLost = true ∧ after .referenceReturn s (fun u => u.fld F.clkState_refok 0 == 1 && u.fld F.ptcState_unsync 0 == 0) = true) :=
  ⟨by decide +kernel, by decide +kernel, by decide +kernel, by decide +kernel, by decide +kernel, by decide +kernel, by decide +kernel,
   ⟨by decide +kernel, ⟨_, rfl, rfl⟩, by decide +kernel⟩, by decide +kernel⟩

/-! ## Input and heat -/

theorem witness_InputAndThermal :
    (inputBand 5801 = 4 ∧ up.pwr.stage = true ∧ inputBand 5800 = 3 ∧ inputBand 4600 = 1 ∧ inputBand 4599 = 0 ∧ inputBand 5200 = 2 ∧
     after (.inputBoundaryCrossing 5801 9) up (fun u => u.pwr.offOver && !u.pwr.stage && u.boot.stage == 1) = true ∧
     after (.inputBoundaryCrossing 4599 9) up (fun u => u.pwr.lowAt == some 0 && u.pwr.stage) = true) ∧
    (let s := { up with pwr := { up.pwr with lowAt := some 0 }, milug := { time := 10000 } }
     s.pwr.lowAt = some 0 ∧ s.pwr.stage = true ∧ 0 + 10000 ≤ s.milug.time ∧
     after .inputLowReset s (fun u => u.boot.bootRes == 7 && !u.pwr.stage) = true) ∧
    (let s (r : List Nat) : State :=
       { up with pwr := { offOver := true, window := some 0, restarts := r }, boot := { up.boot with stage := 1 }, milug := { time := 100000000 } }
     (s []).pwr.window = some 0 ∧ (s []).pwr.latched = false ∧ ((s []).pwr.restarts.filter fun r => decide ((s []).milug.time < r + 60000000000)).length < 3 ∧
     after .powerStageRestart (s []) (fun u => u.pwr.stage && u.boot.stage == 2 && u.pwr.restarts.length == 1) = true ∧
     3 ≤ ((s [1, 2, 3]).pwr.restarts.filter fun r => decide ((s []).milug.time < r + 60000000000)).length ∧
     after .powerStageRestart (s [1, 2, 3]) (fun u => u.pwr.latched && !u.pwr.stage) = true) ∧
    (up.dieAbsent 0 = false ∧
     after (.thermalLevelChange 0 0) up (fun u => mget u.pwr.temps 0 9 == 0 && mget u.pwr.levels 0 0 == 0) = true ∧
     up.levelFor 255 = 3 ∧ up.dieAbsent 7 = false ∧
     after (.thermalLevelChange 9 0) up (fun u => mget u.pwr.temps 9 9 == 0) = true) ∧
    (let s := { up with pwr := { up.pwr with levels := [(9, 1)] } }
     mget s.pwr.levels 9 0 ≠ 0 ∧ mfind s.pwr.guardAt 9 = none ∧
     after (.guardHoldTick 9) s (fun u => u.reqs.map (·.source) == [0x5009]) = true) ∧
    (let s := (up.setFld F.pwrCtl_length 0 3).setReg .ptcCount 0 63
     s.fld F.pwrCtl_length 0 ≠ 0 ∧ s.anyInv = false ∧ s.pwr.thrAt + 64 ≤ s.cnt + 1 ∧ (∀ q ∈ s.reqs, q.cause = 8 → q.covers (s.cnt + 64) = false) ∧
     after .throttleHold s (fun u => u.reqs.map (·.len) == [192]) = true) ∧
    (up.pwr.therm = false ∧ after .overtempRailOff up (fun u => u.pwr.cut && u.pwr.rails.vcore == 0 && u.pwr.rails.vmem) = true) ∧
    (up.fld F.pwrCtl_thrman 0 = 0 ∧ after (.powerCapCrossing 0) up (fun u => u.fld F.pwrCtl_length 0 == 0 && u.pwr.pin == 0) = true) := by
  decide +kernel

theorem witness_GalleriesAndBanks :
    (held0.mayWrite (.host 0) = true ∧ held0.loading = none ∧ held0.dieAbsent (dieOf (tileAt 0 0)) = false ∧ held0.fld F.galGate_gate 0 = 0 ∧
     held0.gateOk 0 = true ∧ after (.galGateWrite (.host 0) 0 0 1) held0 (fun u => u.fld F.galGate_gate 0 == 1 && (u.gal 0).gatePend) = true) ∧
    (let s : State := { held0 with regions := [(0, { running := true })] }
     s.gateOk 0 = false ∧ after (.galGateWrite (.host 0) 0 0 1) s (fun u => u.fld F.galGate_gate 0 == 0) = true) ∧
    (let s : State := { held0.setFld F.galGate_gate 0 1 with gals := [] }
     s.fld F.galGate_gate 0 = 1 ∧ after (.galGateWrite (.host 0) 0 0 0) s (fun u => (u.gal 0).wake == some 16384) = true) ∧
    (let s := (held0.setFld F.pwrCtl_auto 0 1).setReg .srvWall 0 (2 ^ 40)
     s.fld F.pwrCtl_auto 0 = 1 ∧ s.galPresent 0 = true ∧ s.gateOk 0 = true ∧ s.img.isSome = true ∧ (s.gal 0).awake = true ∧ (s.gal 0).gatePend = false ∧
     (s.region (s.galRec 0).region).lastLaunch + 100000 * s.fld F.pwrCtl_idle 0 ≤ s.wall ∧
     after (.autoGate 0) s (fun u => u.fld F.galGate_gate 0 == 1) = true) ∧
    (let s : State := { held0 with gals := [], regions := [(0, { wake := some 0 })], tiles := [(0, { scratch := [(5, 1)] })] }
     s.pwr.cut = false ∧ 0 ∈ s.galsOf 0 ∧ (s.gal 0).awake = false ∧ reachedAt (s.region 0).wake s.cnt = true) ∧
    (let s : State := { held0 with gals := [(0, { wake := some 0 }), (20, { wake := some 0 })], regions := [(0, { plan := some 3 })] }
     0 ∈ s.galsOf 0 ∧ 20 ∈ s.galsFree ∧ (s.gal 20).awake = false ∧ reachedAt (s.gal 20).wake s.cnt = true ∧
     reachedAt (s.region 0).wake s.cnt = false ∧
     after (.galleryWakeEnd 0) s (fun u => (u.gal 0).awake && (u.gal 20).awake && (u.region 0).plan.isNone) = true) ∧
    (let s : State := { held0.setFld F.tilBankgate_gated 0 2 with tiles := [(0, { scratch := [(0x20, 7), (0x40, 9)], full := 1 })] }
     s.mayWrite (.host 0) = true ∧ s.dieAbsent (dieOf (xyOf (tIx t00))) = false ∧ s.tileRuns 0 = false ∧ (s.tile 0).gateReq.getLsbD 1 = false ∧
     after (.tilBankgateWrite (.host 0) t00 0 1) s (fun u => (u.tile 0).gateReq == 1 && mfind (u.tile 0).ungate 1 == some 256) = true ∧
     (live).tileRuns 0 = true ∧
     (let s : State := { s with tiles := [(0, { scratch := [(0x20, 7), (0x40, 9)], full := 1, ungate := [(1, 0)] })] }
      mfind (s.tile (tIx t00)).ungate 1 = some 0 ∧ 0 ≤ s.cnt ∧ bankOf (s.modeAt 0 0x20) 0x20 = 1)) := by decide +kernel

/-! ## Start-up -/

/-- The module with its standby supply, at a stage. -/
def at_ (n : Nat) : State :=
  { State.reset with
    boot := { State.reset.boot with vstby := true, holdup := true, stage := n, firmware := decide (3 ≤ n) }
    milug := { up := true, fw := true, time := 100000000 }
    pwr := { stage := decide (2 ≤ n), rails := if 2 ≤ n then State.reset.railsOn else {}, vin := 5200 } }

theorem witness_PowerUpStages :
    (State.reset.boot.vstby = false ∧
     after (.vstbyApply true true) State.reset (fun u => u.boot.stage == 1 && u.milug.up) = true ∧
     after (.vstbyApply false true) State.reset (fun u => u.boot.stage == 0 && u.fld F.secFault_code 0 == 1) = true) ∧
    ((at_ 1).boot.stage = 1 ∧ (at_ 1).inWindow = true ∧ (at_ 1).pwr.stage = false ∧ (at_ 1).pwr.off = false ∧ (at_ 1).pwr.offOver = false ∧
     (at_ 1).pwr.defect = false ∧ State.reset.milugSlot true = some 0 ∧ State.reset.milugSlot false = none ∧
     after .supplyStage (at_ 1) (fun u => u.boot.stage == 2 && u.pwr.stage) = true ∧
     after .supplyStage { at_ 1 with fuses := { grade := true } } (fun u => u.pwr.rails.vcore == 0x77) = true ∧
     (let s : State := { at_ 1 with pwr := { (at_ 1).pwr with defect := true } }
      s.pwr.defect = true ∧ s.inWindow = true ∧ after .supplyStage s (fun u => u.boot.stage == 1 && u.milug.supplyFail) = true)) ∧
    (State.reset.boot.copy0.valid = true ∧ State.reset.boot.copy1.valid = false) ∧
    (let b : Boot := { slotA := { state := 4 }, slotB := { state := 3, setfmt := 6 } }
     let t := 32 * 5 + 4
     let s : State := { at_ 2 with boot := { (at_ 2).boot with
       slotA := b.slotA, slotB := b.slotB, copy0 := b.record 9, area0 := { fmt := 6, sets := [(t, ⟨1, true, 7⟩)] } } }
     let ch := s.chooseSlot
     ch.2 = (some 1, true, false) ∧ ch.1.boot.slotIn 4 = some 0 ∧ ch.1.boot.seq = 10 ∧ ch.1.boot.copy = 1 ∧
     after (.controllerStage true true) s (fun u =>
       u.boot.trial && u.boot.slotB.area == 1 && u.boot.area1.sets == [(t, ⟨1, true, 7⟩)] && (u.chan 5).runSets == [(4, ⟨1, true, 7⟩)]) = true) ∧
    (let s : State := { at_ 2 with milug := { (at_ 2).milug with heldId := some 0x1234 } }
     s.boot.stage = 2 ∧ s.boot.recovery = false ∧
     (let ch := s.chooseSlot
      let pass (ok : Bool) (i : Nat) : Bool := ch.1.slotPasses (ch.1.boot.slot i) (if i = 0 then ok else false)
      bootSlot ch.1.boot (pass true) ch.2.1 = some 0 ∧ bootSlot ch.1.boot (pass false) ch.2.1 = none) ∧ s.milug.heldId = some 0x1234 ∧
     after (.controllerStage false false) s (fun u => u.boot.recovery && u.boot.stage == 2) = true) ∧
    after .rootClockLock (at_ 3) (fun u => u.boot.stage == 4) = true ∧
    ((at_ 3).boot.refFault = false ∧ (at_ 3).boot.stage4At + 100000000 ≤ (at_ 3).milug.time ∧
     after .referenceWaitTimeout (at_ 3) (fun u => u.boot.refFault && u.fld F.secFault_code 0 == 7) = true) ∧
    ((at_ 4).dieAbsent 7 = false ∧
     after (.dieStage [(0, 1)]) (at_ 4) (fun u => u.boot.stage == 5 && !(u.fld F.dieXstat_trained 1).testBit 0 && (u.fld F.dieXstat_trained 1).testBit 1) = true) ∧
    (let pass : List (BitVec 48) := [2 ^ 48 - 1, 2 ^ 48 - 1, 2 ^ 48 - 1, 2 ^ 48 - 1, 2 ^ 48 - 2]
     (at_ 5).channels.all (passesAt pass 3) = true ∧ (at_ 5).channels.all (passesAt pass 4) = false ∧ passesAt pass 4 0 = false ∧ passesAt pass 4 47 = true ∧
     after (.selfTest pass) (at_ 5) (fun u => u.boot.stage == 6 && u.fld F.memStepok_ok 0 == 15 && u.fld F.secFault_code 0 == 3 &&
       (mfind (u.chan 0).selfSets 4).isNone && (mfind (u.chan 47).selfSets 4).isSome) = true) ∧
    ((at_ 6).boot.trial = false ∧ after .moduleReady (at_ 6) (fun u => u.boot.stage == 7 && u.ready) = true) ∧
    after .vstbyLoss (at_ 7) (fun u => u.boot.stage == 0 && !u.milug.up && !u.boot.vstby) = true := by decide +kernel

theorem witness_ResetsAndTrials :
    ((at_ 1).pwr.stage = false ∧ after (.warmReset .perst) (at_ 1) (fun u => u.boot.stage == 1) = true) ∧
    (let s : State := { at_ 7 with plans := [], ext := [(5, 5)], hostMem := [(6, 6)] }
     s.pwr.stage = true ∧ 2 ≤ s.boot.stage ∧ s.boot.firmware = true ∧
     after (.warmReset .perst) s (fun u => u.boot.stage == 2 && u.ext == [] && u.hostMem == [(6, 6)] && u.boot.bootRes == 1) = true ∧
     after (.watchdogExpiry 1) s (fun u => u.fld F.secFault_code 0 == 4) = true ∧
     after (.controllerEccError 1) s (fun u => u.fld F.secFault_code 0 == 5) = true) ∧
    (let s : State := { at_ 7 with
       boot := { (at_ 7).boot with trial := true, slotA := { state := 4 }, slotB := { state := 3, svn := 5 }, active := 1 }
       milug := { up := true, time := 2 ^ 40 } }
     s.boot.trial = true ∧ s.trialEnd ≤ s.milug.time ∧ after .trialWindowExpiry s (fun u => u.boot.bootRes == 5 && !u.boot.trial) = true ∧
     (let s := { s with milug := { up := true, time := 5 }, boot := { s.boot with okRec := s.fld F.memStepok_ok 0, hostConf := true } }
      s.mayConfirm = true ∧
      after .trialConfirmation s (fun u => u.boot.slotA.state == 5 && u.boot.slotB.state == 4 && u.fuses.arb == 31) = true)) := by decide +kernel

/-! ## Updates and trust -/

/-- The head of a manifest of one block and SVN 3 whose five parts are empty; behind it all is zero, its key of 48 zero bytes too. -/
def manHead : List Byte :=
  leBytes 4 0x4D554B54 ++ leBytes 2 1 ++ [5, 0, 3, 0] ++ leBytes 2 1 ++ leBytes 4 1 ++ List.replicate 112 0 ++
  ([1, 2, 3, 4, 5].flatMap fun t => t :: List.replicate 31 0 ++
    (leBytes 32 0xE3B0C44298FC1C149AFBF4C8996FB92427AE41E4649B934CA495991B7852B855).reverse)

/-- It, at 0x10000 of a memory. -/
@[irreducible] def manMem : List Host.Cell := manHead.zipIdx.filterMap fun x => if x.1 = 0 then none else some (0x10000 + x.2, x.1)

/-- The module whose fuses hold the hash of that key, a manifest in the host's memory at 0x10000. -/
def upd (st : Nat) : State :=
  { at_ 7 with
    fuses := { (at_ 7).fuses with vkey0 := hashVal (sha256 (List.replicate 48 0)) }
    hostMem := manMem
    boot := { (at_ 7).boot with slotA := { state := 4 }, slotB := if st = 0 then {} else { state := st, manifest := rdBytes manMem 0x10000 16720, blocks := 1 } } }

/-- What the host's memory holds at 0x10000 passes as a manifest. -/
theorem man_passes (s : State) (h : s.fuses = (upd 0).fuses) : s.manPasses (rdBytes manMem 0x10000 16720) true = true := by
  have range5 : List.range 5 = [0, 1, 2, 3, 4] := rfl
  have step0 : leNat (rdBytes manMem (0x10000 + 0x18) 1) = 0 := by decide +kernel
  simp only [State.manPasses, manOk, Fuses.keyOk, manParts, manAt, rdBytes_length, range5, List.all_cons, List.all_nil, List.map_cons, List.map_nil]
  simp (disch := decide) only [rdBytes_slice]
  simp only [Bool.and_eq_true, step0, h]
  refine ⟨⟨⟨⟨?_, ?_⟩, trivial⟩, ?_⟩, ?_⟩
  · simp only [← Bool.and_eq_true]; decide +kernel
  · have e : leNat (rdBytes manMem (0x10000 + 7) 1) = 0 := by decide +kernel
    have k : rdBytes manMem (0x10000 + 0x1C0) 48 = List.replicate 48 0 := by decide +kernel
    rw [e, k]
    decide +kernel
  · decide +kernel
  · simp

theorem upd_mem : (upd 0).hostMem = manMem := rfl

theorem upd_man : ((upd 2).boot.slot 1).manifest = rdBytes manMem 0x10000 16720 := by simp [upd, Boot.slot]

/-- Its parts, all empty, have the hash of no bytes. -/
theorem man_parts : FwSlot.partsOk ((upd 2).boot.slot 1) = true := by
  have e := upd_man
  have range5 : List.range 5 = [0, 1, 2, 3, 4] := rfl
  simp only [FwSlot.partsOk, manParts, manAt, e, range5, List.all_cons, List.all_nil, List.map_cons, List.map_nil]
  simp (disch := decide) only [rdBytes_slice]
  decide +kernel

/-- UPD_BEGIN: the checks pass, the manifest with a signature that verifies, or that does not; a fused lock. -/
theorem witness_FirmwareUpdates :
    let s := ask (.updBegin pf 0x10000 16720 true) pf 0x0300 (upd 0)
    let n := ask (.updBegin pf 0x10000 16720 false) pf 0x0300 (upd 0)
    (s.begins (.updBegin pf 0x10000 16720 true) pf 0x0300 false ∧ (s.popCmd pf).updCheck (s.popCmd pf).beginOut = 0 ∧
     (s.popCmd pf).fwPass 0 false 0x10000 16720 = true ∧ (s.popCmd pf).manPasses (rdBytes s.hostMem 0x10000 16720) true = true) ∧
    (n.begins (.updBegin pf 0x10000 16720 false) pf 0x0300 false ∧ (n.popCmd pf).updCheck (n.popCmd pf).beginOut = 0 ∧
     (n.popCmd pf).manPasses (rdBytes n.hostMem 0x10000 16720) false = false) ∧
    (let k : State := { s with fuses := { s.fuses with ownlock := true } }
     k.begins (.updBegin pf 0x10000 16720 true) pf 0x0300 false ∧ (k.popCmd pf).updCheck (k.popCmd pf).beginOut = 0x00A0 ∧
     after (.updBegin pf 0x10000 16720 true) k (fun u => (u.func 0).cpls.map (·.status) == [0x00A0]) = true) :=
  ⟨⟨⟨by decide +kernel, by decide +kernel, by decide +kernel⟩, by decide +kernel, by decide +kernel, upd_mem ▸ man_passes _ rfl⟩,
   ⟨⟨by decide +kernel, by decide +kernel, by decide +kernel⟩, by decide +kernel, by simp [State.manPasses]⟩,
   ⟨by decide +kernel, by decide +kernel, by decide +kernel⟩, by decide +kernel, by decide +kernel⟩

theorem witness_FirmwareUpdates_blocks :
    (let i : Instr := .updBlock pf 1 0 0
     let s := ask i pf 0x0301 (upd 1)
     s.begins i pf 0x0301 false ∧ (s.popCmd pf).updCheck (s.popCmd pf).stageOut = 0 ∧ s.boot.staged = some 1 ∧
     (1 : BitVec 16).toNat ≤ (s.boot.slot 1).blocks ∧ (s.popCmd pf).fwPass 0 false 0 65536 = true ∧ memWf (s.boot.slot 1).data = true ∧
     after i (ask i pf 0x0301 (upd 0)) (fun u => (u.func 0).cpls.map (·.status) == [0x00A4]) = true) ∧
    (let i : Instr := .updAbort pf
     let s := ask i pf 0x0303 (upd 1)
     s.begins i pf 0x0303 false ∧ s.mir.updAct = none ∧ s.boot.staged = some 1 ∧
     after i s (fun u => u.boot.slotB.state == 0 && u.boot.seq == 1) = true ∧
     (upd 0).boot.staged = none ∧ after i (ask i pf 0x0303 (upd 0)) (fun u => (u.func 0).cpls.map (·.status) == [0x00A4]) = true) ∧
    (let i : Instr := .updConfirm pf
     let s : State := ask i pf 0x0304 { upd 0 with boot := { (upd 0).boot with trial := true } }
     s.begins i pf 0x0304 false ∧ s.boot.trial = true ∧ after i s (fun u => u.boot.hostConf) = true ∧
     after i (ask i pf 0x0304 (upd 0)) (fun u => (u.func 0).cpls.map (·.status) == [0x00A4]) = true) := by
  delta State.begins; decide +kernel

def act : Instr := .updActivate pf true

/-- The staged module, asked to activate. -/
def acts : State := ask act pf 0x0302 (upd 2)

/-- The same with a request, in a state of its pair, its serving region running. -/
def held (st : Nat) : State :=
  ask act pf 0x0302 { (upd 2).setFld F.mirState_state 0 st with
    img := some img0, engs := [(0, { eng0 with reqs := [(5, req5 2)] })], regions := [(0, { running := true })] }

theorem witness_FirmwareUpdates_activate :
    acts.begins act pf 0x0302 false ∧ (acts.popCmd pf).updCheck (acts.popCmd pf).stageOut = 0 ∧ acts.boot.staged = some 1 ∧
    ((acts.popCmd pf).manPasses (acts.boot.slot 1).manifest true && (acts.boot.slot 1).partsOk) = true ∧
    ((acts.popCmd pf).manPasses (acts.boot.slot 1).manifest false && (acts.boot.slot 1).partsOk) = false ∧
    ((acts.popCmd pf).heldRids = [] ∧ acts.pwr.stage = true ∧ 2 ≤ acts.boot.stage) ∧
    (((held 0).popCmd pf).heldRids ≠ [] ∧ (held 0).pairState ≠ 4) ∧
    (((held 4).popCmd pf).updCheck ((held 4).popCmd pf).stageOut = 0 ∧ ((held 4).popCmd pf).heldRids ≠ [] ∧ (held 4).pairState = 4 ∧
     (held 4).mir.handover = none ∧ ((held 4).popCmd pf).firstServing.isSome = true) := by
  have good : ((acts.popCmd pf).manPasses (acts.boot.slot 1).manifest true && (acts.boot.slot 1).partsOk) = true := by
    show ((acts.popCmd pf).manPasses ((upd 2).boot.slot 1).manifest true && ((upd 2).boot.slot 1).partsOk) = true
    rw [man_parts, Bool.and_true]; rw [upd_man]; exact man_passes _ rfl
  exact ⟨⟨by decide +kernel, by decide +kernel, by decide +kernel⟩, by decide +kernel, by decide +kernel, good, by simp [State.manPasses],
    by decide +kernel, by decide +kernel, by decide +kernel⟩

/-- The module with an owner's key of 48 zero bytes, and a policy of SEQ 1 at 0x20000 of the host's memory. -/
def owned : State :=
  { at_ 7 with
    fuses := { (at_ 7).fuses with ownset := true, ownkey := hashVal (sha256 (List.replicate 48 0)) }
    hostMem := [(0x20000, 0x54), (0x20001, 0x4B), (0x20002, 0x4F), (0x20003, 0x50), (0x20004, 1), (0x20008, 1)] }

theorem pol_ok (s : State) (h : s.fuses = owned.fuses) (hp : s.boot.policy = []) :
    s.policyOk (rdBytes owned.hostMem 0x20000 policyBytes) true = true := by
  simp only [State.policyOk, manAt, rdBytes_length, h, hp, policyBytes]
  simp (disch := decide) only [rdBytes_slice]
  decide +kernel

theorem witness_TrustCommands :
    (let i : Instr := .policy pf 0x20000 true
     let s := ask i pf 0x0311 owned
     s.begins i pf 0x0311 false ∧ (s.popCmd pf).fwPass 0 false 0x20000 policyBytes = true ∧
     (s.popCmd pf).policyOk (rdBytes s.hostMem 0x20000 policyBytes) true = true) ∧
    (let i : Instr := .policy pf 0x20000 false
     let s := ask i pf 0x0311 owned
     s.begins i pf 0x0311 false ∧ (s.popCmd pf).policyOk (rdBytes s.hostMem 0x20000 policyBytes) false = false) ∧
    (let i : Instr := .policy pf 0xFFFFFFFFFFFFFFFF false
     let s := ask i pf 0x0311 owned
     s.begins i pf 0x0311 false ∧ (s.popCmd pf).fwPass 0 false 0xFFFFFFFFFFFFFFFF policyBytes = false) ∧
    (let i : Instr := .ownerSet pf 7
     let s := ask i pf 0x0312 owned
     let n := ask i pf 0x0312 (at_ 7)
     s.begins i pf 0x0312 false ∧ s.fuses.ownset = true ∧ after i s (fun u => (u.func 0).cpls.map (·.status) == [0x00AB]) = true ∧
     n.begins i pf 0x0312 false ∧ n.fuses.ownset = false ∧ after i n (fun u => u.fuses.ownset && u.fuses.ownkey == 7) = true) :=
  ⟨⟨⟨by decide +kernel, by decide +kernel, by decide +kernel⟩, by decide +kernel, pol_ok _ rfl rfl⟩,
   ⟨⟨by decide +kernel, by decide +kernel, by decide +kernel⟩, by simp [State.policyOk]⟩,
   ⟨⟨by decide +kernel, by decide +kernel, by decide +kernel⟩, by decide +kernel⟩, by delta State.begins; decide +kernel⟩

/-- A module asked for a report of nonce 5, with room for it at the host's address 0. -/
def reports (addr : BitVec 64) (len : BitVec 32) : State := ask (.attest pf 5 addr len) pf 0x0310 (at_ 7)

/-- A report is longer than no bytes, and has 17,344 in this state. -/
theorem witness_TrustCommands_attest :
    let bytes (s : State) := (s.popCmd pf).report 5 ++ (List.range 17088).map fun i => Config.sigByte (2 * s.freeCtr + 1) i
    (let s := reports 0 0
     s.begins (.attest pf 5 0 0) pf 0x0310 false ∧ (0 : BitVec 32).toNat < (bytes s).length) ∧
    (let s := reports 0 0x10000
     s.begins (.attest pf 5 0 0x10000) pf 0x0310 false ∧ (bytes s).length ≤ (0x10000 : BitVec 32).toNat ∧
     (s.popCmd pf).fwPass 0 true 0 (bytes s).length = true ∧ memWf s.hostMem = true) ∧
    (let s := reports 0xFFFFFFFFFFFFFFFF 0x10000
     s.begins (.attest pf 5 0xFFFFFFFFFFFFFFFF 0x10000) pf 0x0310 false ∧
     (s.popCmd pf).fwPass 0 true 0xFFFFFFFFFFFFFFFF (bytes s).length = false) := by
  have all (a : BitVec 64) (n : BitVec 32) (len : (((reports a n).popCmd pf).report 5).length = 256) :
      (((reports a n).popCmd pf).report 5 ++ (List.range 17088).map fun i => Config.sigByte (2 * (reports a n).freeCtr + 1) i).length = 17344 := by
    rw [List.length_append, len, List.length_map, List.length_range]
  intro bytes
  simp only [bytes, all 0 0 (by decide +kernel), all 0 0x10000 (by decide +kernel), all 0xFFFFFFFFFFFFFFFF 0x10000 (by decide +kernel)]
  delta State.begins; decide +kernel

/-! ## The management bus -/

theorem witness_ManagementBus :
    State.reset.milug.up = false ∧ (∀ s, State.reset.milug.resp.length = s → after .ident State.reset (fun u => u.milug.resp.length == s) = true) ∧
    ((at_ 7).milug.up = true ∧ (at_ 7).boot.firmware = true ∧ (∀ p < 32, (at_ 7).portState p ≤ 1) ∧
     after (.setId 0x1234) (at_ 7) (fun u => u.fld F.fabId_id 0 == 0x1234 && u.milug.resp == [(0, [])]) = true ∧
     (let s := (at_ 7).setFld F.lnkStat_state 31 3
      (∃ p < 32, 1 < s.portState p) ∧ after (.setId 0x1234) s (fun u => u.milug.resp == [(2, [])]) = true)) ∧
    ((at_ 1).milug.up = true ∧ (at_ 1).boot.firmware = false ∧ (at_ 1).inWindow = true ∧ (at_ 1).pwr.stage = false ∧ (at_ 1).boot.stage = 1 ∧
     after (.setId 5) (at_ 1) (fun u => u.milug.heldId == some 5) = true ∧
     after (.power 1) (at_ 1) (fun u => u.boot.stage == 2 && u.pwr.stage) = true ∧
     after .reset (at_ 1) (fun u => u.milug.resp == [(2, [])]) = true) ∧
    (let s : State := { at_ 1 with pwr := { (at_ 1).pwr with vin := 4000 } }
     s.inWindow = false ∧ after (.power 1) s (fun u => u.milug.resp == [(2, [])]) = true) ∧
    (after (.power 0) (at_ 7) (fun u => u.pwr.off && !u.pwr.stage) = true ∧ after (.power 2) (at_ 7) (fun u => u.milug.resp == [(3, [])]) = true) ∧
    ((at_ 7).pwr.stage = true ∧ 2 ≤ (at_ 7).boot.stage ∧ after .reset (at_ 7) (fun u => u.boot.stage == 2 && u.boot.bootRes == 6) = true) ∧
    ((at_ 7).fuses.ownset = false ∧ after (.milugOwnerSet 9) (at_ 7) (fun u => u.fuses.ownkey == 9) = true ∧
     after (.milugOwnerSet 9) owned (fun u => u.milug.resp == [(2, [])]) = true) ∧
    (0 < [(1 : Byte)].length ∧ (18335 : BitVec 16).toNat + 1 ≤ policyBytes ∧ policyBytes < (18336 : BitVec 16).toNat + 1 ∧
     memWf (at_ 7).milug.staging = true ∧
     after (.policyData 18335 [1]) (at_ 7) (fun u => u.milug.staging == [(18335, 1)]) = true ∧
     after (.policyData 18336 [1]) (at_ 7) (fun u => u.milug.resp == [(3, [])]) = true) ∧
    (after .alertack (at_ 7) (fun u => !u.milug.alert) = true ∧ after .telem (at_ 7) (fun u => u.milug.resp.length == 1) = true ∧
     after .fault (at_ 7) (fun u => u.milug.resp.length == 1) = true) :=
  ⟨by decide +kernel, by intro s h; subst h; decide +kernel, by decide +kernel, by decide +kernel, by decide +kernel, by decide +kernel,
   by decide +kernel, by decide +kernel, by decide +kernel, by decide +kernel⟩

/-- Milug's staging buffer with that policy, and with none. -/
theorem witness_ManagementBus_policy :
    (let s : State := { owned with milug := { owned.milug with staging := owned.hostMem.map fun c => (c.1 - 0x20000, c.2) } }
     s.pwr.stage = true ∧ s.boot.firmware = true ∧ s.policyOk (rdBytes s.milug.staging 0 policyBytes) true = true ∧
     s.policyOk (rdBytes s.milug.staging 0 policyBytes) false = false) ∧
    ((at_ 1).pwr.stage = false ∧ after (.policyCommit true) (at_ 1) (fun u => u.milug.resp == [(2, [])]) = true) := by
  refine ⟨⟨by decide +kernel, by decide +kernel, ?_, by simp [State.policyOk]⟩, by decide +kernel⟩
  simp only [State.policyOk, manAt, rdBytes_length, policyBytes]
  simp (disch := decide) only [rdBytes_slice]
  decide +kernel

/-! ## Registers at reset, frames -/

/-- FAB_BARCTL.TIMEOUT has a reset value; bit 25 of FAB_ID lies in no field. -/
theorem witness_ResetRegisters :
    F.fabBarctl_timeout ∈ RegKind.fabBarctl.fields ∧ F.fabBarctl_timeout.rst = .val 0x2710 ∧ 0 < RegKind.fabId.count ∧
    (∀ f ∈ RegKind.fabId.fields, 25 < f.lo ∨ f.hi < 25) := by decide +kernel

theorem witness_QueueAndFusesStay :
    (∃ u, exec (.warmReset .perst) up = .next u) ∧ (∃ u, exec .inputLowReset up = .next u) ∧ (∃ u, exec .reset (at_ 7) = .next u) ∧
    (∃ u, exec (.power 0) (at_ 7) = .next u) := ⟨⟨_, rfl⟩, ⟨_, rfl⟩, ⟨_, rfl⟩, ⟨_, rfl⟩⟩

theorem witness_TileAndPlanFrame :
    (∃ u, exec (.mark t00 0 5) held0 = .next u) ∧ (∃ u, exec (.annexTimeout 0) held0 = .next u) := ⟨⟨_, rfl⟩, ⟨_, rfl⟩⟩

theorem witness_LinkAndServiceFrame :
    (∃ u, exec (.linkCycle 0) held0 = .next u) ∧ (∃ u, exec .ident (at_ 7) = .next u) := ⟨⟨_, rfl⟩, ⟨_, rfl⟩⟩

theorem witness_TileFieldsFrame : (∃ u, exec (.mload t00 0 1 2 3) live = .next u) ∧ (∃ u, exec (.mark t00 0 5) live = .next u) :=
  ⟨⟨_, rfl⟩, ⟨_, rfl⟩⟩

/-- A register that is none of a tile's own. -/
theorem witness_OneTileFrame :
    tileOf (.mark t00 0 5) = some t00 ∧ opTile (.mark t00 0 5) = some t00 ∧ (.hstCmdring, 15) ∉ opRegs t00 ∧ (15 : Nat) < 2 ^ 32 ∧
    (1 : Nat) ≠ tIx t00 ∧ (∃ u, exec (.mark t00 0 5) live = .next u) ∧
    tileOf (.invocationEnd t00) = some t00 ∧ (∀ L ∈ live.fab.launches, L.region = live.regionOf t00 → L.queued = false) ∧
    3071 ∉ (live.tilesOf (live.regionOf t00)).map tIx ∧ (∃ u, exec (.invocationEnd t00) live = .next u) :=
  ⟨rfl, rfl, by decide +kernel, by decide, by decide, ⟨_, rfl⟩, rfl, by decide +kernel, by decide +kernel, ⟨_, rfl⟩⟩

end Sys2Proof.Tests
end

