-- ==== Sys2Proof/Tests/Queues.lean ====
section
/-! SUPPORT. Tests of chapters 06 and 07: queues, external memory, the annex, holds, invocations. -/

set_option Elab.async false

namespace Sys2Proof.Tests
open Sys2Proof Sys2Proof.Machine

/-! ## Queue operations -/

/-- A queue of two generators: the external address 0x100000 and offset 512 of handle 1; predicate 1 reads 0. -/
def que : State :=
  live { gens := [(1, { base := 0x200000, space := true }), (2, { base := 512, handle := 1 })], scratch := [(512, 5)] }

def q0 : QueueF := ⟨1, 2, 1, 3, 700⟩

theorem witness_QueueOperationsAndService :
    (que.tile 0).before que.sched = que.tile 0 ∧ que.slotActs t00 (.qrd t00 0 q0) = true ∧ que.slotActs t00 (.qwr t00 0 q0) = true ∧ que.queueOk 0 q0 = true ∧
    que.canAct 0 = true ∧ que.issuedNow 0 = true ∧ (que.tile 0).acts (.qrd t00 1 q0) = false ∧
    que.slotActs t00 (.qwait t00 0 0xFFFF) = true ∧
    after (.qrd t00 0 q0) que (fun u => u.accs.map (fun a => (a.addr, a.slots, a.deadline, a.faulted)) == [(0x200000, 2, 700, false)]) = true ∧
    after (.qrd t00 1 q0) que (fun u => u.accs.map (·.suppressed) == [true]) = true := by decide +kernel

/-- An address past the end of GDDR7 is a fault whose tag completes at the deadline (R219, R220). -/
theorem test_queue_fault :
    (let s := live { gens := [(1, { base := 0x4800000000, space := true }), (2, { base := 512, handle := 1 })] }
     s.queueOk 0 q0 = false ∧ after (.qrd t00 0 q0) s (fun u => u.accs.map (·.faulted) == [true]) = true) := by decide +kernel

/-- A read and a write of one slot, on their way. -/
def rdAcc : QAcc :=
  { id := 2, tile := 0, gal := 0, region := 0, write := false, addr := 0x200000, slots := 1, handle := 1, off := 512, tag := 3, issued := 0,
    deadline := 1000 }
def wrAcc : QAcc := { rdAcc with write := true, src := List.replicate 511 0 ++ [9], srcSlots := 1 }

/-- The access in the module at a schedule cycle and a count. -/
def onWay (a : QAcc) (at_ : Nat) : State := { (live.setReg .ptcSched 0 at_).setReg .ptcCount 0 at_ with accs := [a] }

/-- Each result a controller can find, with the retries it makes and the result it says. -/
theorem witness_QueueOperationsAndService_granule :
    ([(rdAcc, 0, GranRes.clean, 0), (rdAcc, 7, .corrected 2, 0), (rdAcc, 7, .retried 3 1, 1), (wrAcc, 7, .retried 3 1, 3), (rdAcc, 0, .lost, 1)].all
      fun (p : QAcc × Nat × GranRes × Nat) =>
        let a : QAcc := { p.1 with arrived := true }
        let s := onWay a 900
        s.acc 2 == some a && a.live && !a.lateIssued && a.port == none && decide (p.2.1 < a.granules) && a.served == [] &&
          s.available (a.addr + 64 * p.2.1) && s.pinsFree (s.place (a.addr + 64 * p.2.1)).1 && (!a.write || decide (p.2.1 / 8 < a.srcSlots)) && !s.serveFirst a (s.place (a.addr + 64 * p.2.1)).1 &&
          after (.granuleServe 2 p.2.1 p.2.2.1) s fun u =>
            u.accs.map (·.served) == [[(p.2.1, 900 + 48 * p.2.2.2 + if a.write then 32 else 224)]]) = true := by decide +kernel

/-- A granule waits behind one of an earlier deadline at its channel (R279). -/
theorem test_earlier_deadline_first :
    let s : State := { onWay rdAcc 900 with accs := [{ rdAcc with arrived := true }, { rdAcc with id := 3, deadline := 990, arrived := true }] }
    after (.granuleServe 2 0 .clean) s (fun u => u.accs.all (·.served == [])) = true ∧
    after (.granuleServe 3 0 .clean) s (fun u => u.accs.map (·.served.length) == [0, 1]) = true := by decide +kernel

/-- Every granule is there at 1,000. -/
def served (a : QAcc) : QAcc := { a with arrived := true, committed := true, served := (List.range 8).map fun g => (g, 990) }

theorem witness_QueueOperationsAndService_write :
    let a := served wrAcc
    let s := onWay a 1000
    s.acc 2 = some a ∧ a.live = true ∧ a.lateIssued = false ∧ s.held = false ∧ a.port = none ∧ (∀ g < a.granules, a.readyBy s.cnt g = true) ∧
    a.deadline ≤ s.sched ∧ s.awaitsWrite a = false ∧ a.lost = [] ∧ (∀ g < a.granules, s.fencedAt (a.addr + 64 * g) = false) ∧
    a.src.length = a.bytes ∧ memWf s.ext = true ∧
    after (.writeTakesEffect 2) s (fun u => rdBytes u.ext 0x2001FF 2 == [9, 0]) = true := by decide +kernel

theorem witness_QueueOperationsAndService_landing :
    let a := served rdAcc
    let s := { onWay a 1000 with ext := [(0x200001, 4)] }
    s.acc 2 = some a ∧ s.held = false ∧ a.tile < 3072 ∧ a.write = false ∧ a.landAt ≠ s.sched + 1 ∧ a.deadline + a.landed ≤ s.sched ∧
    (∀ i < 8, a.readyBy s.cnt (8 * a.landed + i) = true) ∧ s.awaitsWrite a = false ∧
    s.bufferReady a.tile 2 ⟨a.handle, false, true, [⟨a.off + 512 * a.landed, 512⟩]⟩ (s.matrixTaken a.tile) = true ∧
    (s.hnd a.tile a.handle).inBounds ⟨a.off + 512 * a.landed, 512⟩ = true ∧ (s.slotBytes a a.landed).length = 512 ∧
    memWf (s.tile a.tile).scratch = true ∧
    after (.queueLanding 2) s (fun u => rdBytes (u.tile 0).scratch 512 3 == [0, 4, 0] && u.accs.map (·.doneAt) == [some 1000]) = true := by
  decide +kernel

/-! A source read, an arrival in time and one too late, a commit point that asks nothing, and two that ask. -/

theorem witness_QueuePrediction :
    (let a : QAcc := { wrAcc with src := [], srcSlots := 0 }
     let s := onWay a 1
     s.acc 2 = some a ∧ a.srcSlots < a.slots ∧ a.issued + 1 + a.srcSlots ≤ s.sched ∧ (s.tile 0).inInv = true ∧
     (s.tile 0).queued (.source 2 0) = false ∧ (s.hnd 0 1).inBounds ⟨512, 512⟩ = true ∧
     after (.qwrSourceRead 2) s (fun u => u.accs.map (fun b => (b.src.length, b.srcSlots)) == [(512, 1)]) = true) ∧
    (rdAcc.arrived = false ∧ (onWay rdAcc 840).sched + 160 ≤ rdAcc.deadline ∧ rdAcc.deadline < (onWay rdAcc 841).sched + 160 ∧
     after (.queueRequestArrive 2) (onWay rdAcc 840) (fun u => u.accs.map (·.lateIssued) == [false]) = true ∧
     after (.queueRequestArrive 2) (onWay rdAcc 841) (fun u => u.accs.map (·.lateIssued) == [true]) = true) := by decide +kernel

theorem witness_QueuePrediction_commit :
    (let a : QAcc := { rdAcc with arrived := true }
     let z : QAcc := { served rdAcc with committed := false }
     let s := onWay z 840
     let ch := (s.place a.addr).1
     s.held = false ∧ z.committed = false ∧ z.arrived = true ∧ z.deadline ≤ s.sched + 160 ∧ z.port = none ∧ z.deadline < 1005 ∧
     ((List.range z.granules).filter fun g => (s.place (z.addr + 64 * g)).1 == ch) ≠ [] ∧ (∀ g < z.granules, s.granReady z g ≤ z.dueBy g) ∧
     after (.commitPoint 2 []) (onWay a 840) (fun u => u.reqs.map (fun q => (q.cause, q.len)) == [(1, 65), (1, 65)]) = true ∧
     after (.commitPoint 2 [(ch, 1000)]) s (fun u => u.reqs == [] && u.accs.map (·.committed) == [true]) = true ∧
     after (.commitPoint 2 [(ch, 1005)]) s (fun u => u.reqs == [⟨840, 904, 5, 1, 0x1000 + ch⟩]) = true) ∧
    (let a : QAcc := { rdAcc with arrived := true, addr := 0x400000000000 }
     a.port = some 0 ∧ a.arrData = false ∧ ((onWay a 840).annex 0).waitHold = [] ∧ ({ a with arrData := true } : QAcc).port = some 0 ∧
     after (.commitPoint 2 []) (onWay a 840) (fun u => u.reqs.map (·.cause) == [2]) = true) := by decide +kernel

/-! ## Refresh, trim, the annex -/

/-- Channel 5 with a calendar: windows of 192 cycles from 100 on, in group order. -/
def calWord : Nat := 100 + 192 * 2 ^ 12 + 0xE4 * 2 ^ 24
def cal (at_ : Nat) (c : ChanSt := {}) : State :=
  { ((live.setReg .memRef 5 calWord).setReg .ptcSched 0 at_).setReg .ptcCount 0 at_ with chans := [(5, c)] }

theorem witness_RefreshTrimAndRegisters_calendar :
    (cal 100).chanPresent 5 = true ∧ (cal 100).held = false ∧ bits ((cal 100).calAt 5 (cal 100).sched) 23 12 ≠ 0 ∧
    calPos (cal 100).sched = calOpen ((cal 100).calAt 5 (cal 100).sched) 0 ∧
    calPos (cal 676).sched = calOpen ((cal 676).calAt 5 (cal 676).sched) 3 ∧ ((cal 100).chan 5).retrim = none ∧
    after (.calendarWindowOpen 5 3 .clean) (cal 676) (fun u => mget (u.chan 5).lastRef 12 0 == 676 && mget (u.chan 5).lastRef 11 0 == 0) = true := by
  decide +kernel

/-- A hold from 2,304 on: bank 15, never refreshed, is due and its refresh fits the hold. -/
theorem witness_RefreshTrimAndRegisters_holdRefresh :
    let s := { cal 2304 with reqs := [⟨2000, 2304, 100, 10, 0x8000⟩] }
    s.held = true ∧ mget (s.chan 5).lastRef 15 0 + 2304 ≤ s.cnt ∧ (∀ k < refreshLen s.step_, s.heldAt (s.cnt + k) = true) ∧
    after (.holdRefresh 5 15) s (fun u => mget (u.chan 5).lastRef 15 0 == 2304) = true := by decide +kernel

theorem witness_RefreshTrimAndRegisters_holdRefresh_free :
    ∀ x, x / 4 = 15 / 4 → mget ((cal 2304).chan 5).refEnd x 0 ≤ (cal 2304).cnt := fun _ _ => Nat.zero_le _

/-- Bank 15 not refreshed for 4,032 cycles, and for one cycle less (R278). -/
theorem witness_RefreshTrimAndRegisters_refreshOverdue :
    ((cal 4032).chan 5).mayAsk 15 4032 (refreshLen 0) = true ∧ mget ((cal 4032).chan 5).lastRef 15 0 + 4032 ≤ (cal 4032).cnt ∧
    after (.refreshOverdue 5 15) (cal 4032) (fun u => u.reqs.map (·.source) == [0x1005]) = true ∧
    after (.refreshOverdue 5 15) (cal 4031) (fun u => u.reqs == []) = true := by decide +kernel

/-- A re-trim that has done its 1,024 slots, without AUTO; a change of bin (R291, R292). -/
def trimming : State := (cal 0 { bin := 2, retrim := some ⟨1024, 2, false⟩ }).setFld F.memCal_auto 5 0

theorem witness_RefreshTrimAndRegisters_trim :
    (trimming.chan 5).retrim = some ⟨1024, 2, false⟩ ∧ trimming.fld F.memCal_auto 5 = 0 ∧ binAfter (86 : BitVec 8).toNat (trimming.chan 5).bin ≠ (trimming.chan 5).bin ∧
    after (.retrimComplete 5) trimming (fun u => (u.chan 5).runSets == [(4 * u.step_ + 2, ⟨2, false, trimming.nextId + 1⟩)]) = true ∧
    after (.temperatureBinChange 5 86) trimming (fun u => (u.chan 5).retrim == none && (u.chan 5).bin == 3) = true := by decide +kernel

/-- The bounds of the bins, and the 3 degrees a channel must fall below one to leave its bin (R290). -/
theorem test_bins :
    [49, 50, 69, 70, 85, 86].map binOf = [0, 1, 1, 2, 2, 3] ∧ [83, 82, 68, 67].map (binAfter · 3) = [3, 2, 2, 1] ∧ binAfter 68 2 = 2 ∧
    binAfter 67 2 = 1 ∧ binAfter 48 1 = 1 ∧ binAfter 47 1 = 0 := by decide +kernel

theorem witness_RefreshTrimAndRegisters_memoryRegisters :
    up.mayWrite (.host 0) = true ∧ up.mayWrite (.firmware 1) = true ∧ up.chanPresent 47 = true ∧ up.loading = none ∧ up.anyRunning = false ∧
    bits calWord 11 0 < 2304 ∧ orderOk (bits calWord 31 24) = true ∧ calFeasible (bits calWord 23 12) up.step_ = true ∧
    after (.memRefWrite (.host 0) 47 0 (BitVec.ofNat 32 calWord)) up (fun u => u.reg .memRef 47 == calWord) = true ∧
    after (.retrimForce (.host 0) 47 0 2) up (fun u => (u.chan 47).retrim.isSome) = true := by decide +kernel

/-- Port 1 up with 1 MiB, an access of it that has arrived. -/
def anx (a : QAcc) : State :=
  (((onWay a 10).setFld F.anxCtl_enable 1 1).setFld F.anxStat_state 1 2).setFld F.anxStat_size 1 1
def anxRd : QAcc := { rdAcc with addr := 0x500000000000, arrived := true }
def anxWr : QAcc := { wrAcc with addr := 0x500000000000, arrived := true, sent := true }

theorem witness_AnnexPorts_annexRequest :
    (anx anxRd).acc 2 = some anxRd ∧ anxRd.live = true ∧ anxRd.port = some (1 : Fin 2).val ∧ anxRd.sent = false ∧ (anx anxRd).annexUp 1 = true ∧
    (anx anxRd).annexWrite anxRd = false ∧ (anxRd.write = true → anxRd.slots ≤ anxRd.srcSlots) ∧
    after (.annexRequestSend 1 2) (anx anxRd) (fun u => u.accs.map (·.sent) == [true]) = true ∧
    (let a := { anxRd with sent := true }
     after (.annexResponse 1 2 (.poisoned [3])) (anx a) (fun u => u.accs.map (·.lost) == [[3]]) = true) ∧
    anxWr.lost = [] ∧ (∀ g < anxWr.granules, (anx anxWr).fencedAt (anxWr.addr + 64 * g) = false) ∧ anxWr.src.length = anxWr.bytes ∧
    memWf (anx anxWr).ext = true ∧
    after (.annexResponse 1 2 .done) (anx anxWr) (fun u => rdByte u.ext 0x5000000001FF == 9) = true := by decide +kernel

theorem witness_AnnexPorts_annexLink :
    (anx anxRd).fld F.anxStat_state 1 = 2 ∧
    (let s := (anx { anxRd with sent := true }).setReg .srvWall 0 10000000
     (∀ a ∈ s.accs, a.live = true → a.port = some (1 : Fin 2).val → a.sent = true → a.arrData = false →
       a.sentAt + 100 * max 1 (s.fld F.anxCtl_timeout 1) ≤ s.wall) ∧
     after (.annexTimeout 1) s (fun u => u.fld F.anxStat_state 1 == 3) = true) ∧
    after (.annexLinkDown 1) (anx anxRd) (fun u => u.fld F.anxStat_state 1 == 3 && u.accs.map (·.lost.length) == [8]) = true := by
  decide +kernel

/-- Port 0 in training, and a write of its RETRAIN while it is enabled. -/
theorem witness_AnnexPorts_annexTraining :
    (let s := (live.setFld F.anxStat_state 0 1).setFld F.anxCtl_enable 0 1
     s.fld F.anxStat_state 0 = 1 ∧ after (.annexTrainingEnd 0 none) s (fun u => u.fld F.anxStat_state 0 == 3) = true ∧
     after (.annexTrainingEnd 0 (some ⟨2 ^ 30 + 5, 1, 2⟩)) s (fun u => u.fld F.anxStat_size 0 == 1024) = true) ∧
    (let s := up.setFld F.anxCtl_enable 0 1
     s.mayWrite (.host 0) = true ∧ s.loading = none ∧ s.anyRunning = false ∧ s.fld F.anxCtl_enable 0 = 1 ∧
     (0x20007 : BitVec 32).getLsbD 17 = true ∧
     after (.annexRetrain (.host 0) 0 0 0x20007) s (fun u => u.fld F.anxStat_state 0 == 1 && u.fld F.anxCtl_timeout 0 == 7) = true) := by
  decide +kernel

/-! ## Requests, holds, occupancy -/

theorem witness_RequestsHold :
    (let s := live.request 10 0x8000 1
     s.heldAt 63 = false ∧ s.heldAt 64 = true ∧ s.heldAt 65 = false) ∧
    (let s := live.request 10 0x8000 65535
     s.heldAt (63 + 65535) = true ∧ s.heldAt (64 + 65535) = false) ∧
    (let s : State := { live with reqs := [⟨0, 0, 5, 10, 0x8000⟩], hold := some (0, 0, 0) }
     s.held = true ∧ s.hold.isSome = true) := by decide +kernel

/-- The first cycle of a hold, the first cycle after it, and an ask of firmware that is 64 cycles old at the boundary. -/
theorem witness_HoldsAndOccupancy_holds :
    (let s : State := { live.setReg .ptcCount 0 70 with reqs := [⟨6, 70, 5, 10, 0x8000⟩] }
     s.held = true ∧ s.hold = none ∧ after .holdBegin s (fun u => u.hold == some (70, 0, 70) && u.reg .ptcHloga 0 == 70) = true) ∧
    (let s : State := { live.setReg .ptcCount 0 75 with reqs := [⟨6, 70, 5, 10, 0x8000⟩], hold := some (70, 0, 74) }
     s.held = false ∧ after .holdEnd s (fun u => u.fld F.ptcHlogb_length 0 == 5) = true) ∧
    (let s : State := { up.setReg .ptcCount 0 163 with boundaryAsk := [(10, 0x6000, 50, 100), (10, 0x6001, 60, 101)] }
     s.anyInv = false ∧ after .boundaryHoldRequest { s with regions := [(0, { inInv := true })] } (fun u => u.reqs == []) = true ∧
     after .boundaryHoldRequest s (fun u => u.reqs == [⟨163, 227, 50, 10, 0x6000⟩] && u.boundaryAsk.length == 1) = true) ∧
    up.mayWrite (.host 0) = true ∧ after (.ptcHoldreqWrite (.host 0) 0 9) up (fun u => u.reqs == [⟨0, 64, 9, 10, 0x8000⟩]) = true := by
  decide +kernel

/-- A window of occupancy that ends now, of a grade and an image of one active gallery. -/
theorem witness_HoldsAndOccupancy_occWindow :
    (let s : State := { up.setReg .ptcSched 0 0x1000 with occ := { start := 0, window := 0x1000, use := [] } }
     s.held = false ∧ s.occ.start + s.occ.window ≤ s.sched) := by decide +kernel

/-! ## Invocations -/

/-- A start of region 0 pending since cycle 0, at a cycle 64 before a calendar origin; at that origin the park is over. -/
def plan0 (n : Nat) : Plan :=
  { id := 1, region := 0, expert := false, profile := 1, offset := 0, bytes := 0, digest := [], text := List.replicate n 0, dcount := [],
    dstride := [], gens := [], params := [] }
def starting (at_ : Nat) : State :=
  let s := (up.setReg .ptcSched 0 at_).setReg .ptcCount 0 at_
  { s with
    img := some { img0 with regions := [⟨0, 0, 0, 0xFF, 1⟩], vits := [] }
    gals := [(0, { awake := true })]
    plans := [plan0 2]
    regions := [(0, { plan := some 1, running := true, pend := some { since := 0, mode := .here } })] }

theorem witness_InvocationsStartAndEnd_parkRequest :
    let s := starting (2304 - 64)
    s.parkable = [0] ∧ s.anyInv = false ∧ s.park = none ∧ s.schedIn64 % 2304 = 0 ∧
    (s.region 0).pend = some { since := 0, mode := .here } ∧
    after .parkRequest s (fun u => u.park == some ⟨2240, 2304, some 2368, 0⟩) = true := by decide +kernel

theorem witness_InvocationsStartAndEnd_invocationStart :
    let s : State := { (starting 2304).setReg .ptcCount 0 2368 with park := some ⟨2240, 2304, some 2368, 0⟩ }
    s.mayBegin 0 = true ∧ s.startDue 0 = true ∧ (s.region 0).begun = false ∧ s.tableDone 0 0 = true := by
  decide +kernel

/-- A launch at count 64 cycles ahead with its park; at a calendar origin beside another region's invocation; and with neither. -/
def atCount (c : Nat) (p : Option Park) (other : Bool) : State :=
  let s := starting (2304 - 64)
  { s with park := p
           regions := [(0, { plan := some 1, running := true, pend := some { since := 0, mode := .count, count := c } }), (1, { inInv := other })] }

theorem witness_InvocationsStartAndEnd_launchCountDecision :
    (let s := atCount 2304 (some ⟨2176, 2240, some 2304, 0⟩) false
     (∃ k, s.park = some k ∧ k.first + 64 ≤ 2304) ∧ 2304 ≤ s.cnt + 64) ∧
    (let s := atCount 2304 none true
     s.park = none ∧ s.anyInv = true ∧ s.cnt ≤ 2304 ∧ s.heldAt 2304 = false ∧ s.schedAt 2304 % 2304 = 0 ∧
     after (.launchCountDecision 0) s (fun u => (u.region 0).pend.map (·.go) == some (some 2304)) = true) ∧
    (let s := atCount 2304 none false
     s.anyInv = false ∧ s.launchOf 0 = none ∧
     after (.launchCountDecision 0) s (fun u => !(u.region 0).running && (u.region 0).pend == none) = true) :=
  ⟨⟨⟨⟨2176, 2240, some 2304, 0⟩, by decide +kernel, by decide⟩, by decide +kernel⟩, by decide +kernel, by decide +kernel⟩

/-- A series whose step 4 has ended and whose next one may begin: the length of a step is over and the table of step 5 is complete. -/
def stepping : State :=
  let s := (up.setReg .ptcSched 0 69120).setReg .ptcCount 0 69120
  { s with
    img := some img0
    gals := [(0, { awake := true })]
    plans := [plan0 2]
    regions := [(0, { plan := some 1, running := true, begun := true, series := some { step := 4, endedAt := some 60000 } })]
    engs := [(0, { tabStep := 6 })] }

theorem witness_InvocationsStartAndEnd_stepStart :
    (stepping.region 0).series = some { step := 4, endedAt := some 60000 } ∧ (stepping.region 0).begun = true ∧ (stepping.region 0).armed = false ∧
    stepping.mayBegin 0 = true ∧ stepping.stepDue 0 = true ∧ stepping.twinReady 0 5 = true := by decide +kernel

/-- The last tile of a region's invocation is past its text and has nothing outstanding. -/
def ending : State :=
  { (starting 3000) with
    regions := [(0, { plan := some 1, running := true, begun := true, inInv := true, t0 := 2304, t0c := 2304 })]
    tiles := [(0, { inInv := true, pc := 2 })] }

theorem witness_InvocationsStartAndEnd_invocationEnd :
    ending.held = false ∧ (ending.tile 0).inInv = true ∧ ending.tileDone 0 (ending.textOf t00).length = true ∧ ending.regionOf t00 < 8 ∧
    (∀ x ∈ ending.tilesOf (ending.regionOf t00), tIx x ≠ 0 → (ending.tile (tIx x)).inInv = false) ∧
    ending.fab.launches = [] ∧ after (.invocationEnd t00) ending (fun u => u.fld F.ptcRuna_schedlen 0 == 697 && (u.tile 0).invs == 1 && u.scanDue) = true := by
  decide +kernel

end Sys2Proof.Tests
end

