-- ==== Sys2Proof/Tests/Slice0.lean ====
section
/-! SUPPORT. Tests: the checks of well-formedness, the step, and chapters 02 to 05.  A `witness_` theorem shows a state and operands that
meet the hypotheses of a statement; a `test_` theorem checks a result that is worked out from the rule it names. -/

set_option Elab.async false

namespace Sys2Proof.Tests
open Sys2Proof Sys2Proof.Machine

/-! ## Well-formedness: each check refuses -/

/-- A tile beyond the 48th row (R3), a function beyond 15 (R330), a ring place beyond the largest ring (R338). -/
theorem test_wf_refuses_operands :
    ([Instr.tripleIssue ⟨0, 48⟩, .tripleIssue ⟨64, 0⟩, .nopCommand ⟨16, 0, false, 0⟩, .nopCommand ⟨0, 0, false, 65536⟩,
      .ptcHoldreqWrite (.host 16) 0x10000 0, .ptcHoldreqWrite (.firmware 2) 0x10000 0, .ptcHoldreqWrite (.firmware 0) (2 ^ 28) 0,
      .registerWrite (.firmware 0) ⟨.ptcHoldreq, 1⟩ 0x10000 0, .dmaDrainEnd ⟨0, 4⟩, .dmaDrainEnd ⟨10, 0⟩, .dmaDrainEnd ⟨8, 32⟩,
      .retrimComplete 48, .blockBroadcast 192, .fetchOpportunity 0 (2 ^ 16), .blockLanding 0 [(2 ^ 24, .clean)], .completionWrite 16,
      .ringScan ⟨[(2 ^ 64, 0)], 0⟩, .granuleServe 0 128 .clean, .granuleServe 0 0 (.corrected (2 ^ 32)),
      .granuleServe 0 0 (.retried (2 ^ 32) 0), .granuleServe 0 0 (.retried 1 (2 ^ 32)), .selfTest [], .commitPoint 0 [(48, 0)], .commitPoint 0 (List.replicate 49 (0, 0)),
      .annexResponse 0 0 (.poisoned [128]), .annexTrainingEnd 0 (some ⟨2 ^ 48, 0, 0⟩), .memRefWrite (.host 0) 48 0 0,
      .launch pf 0 0 0 0 0 [(2 ^ 24, .lost)], .stretchEnd (2 ^ 32), .dieStage [(8, 0)]].all
      fun i => !i.wf) = true := by decide +kernel

/-- A flit with 247 bytes before its CRC, and one with 249, a packet whose fragment is none of its own, a tree of no node, a node with a 21-bit module (R362, R407,
R423). -/
theorem test_wf_refuses_messages :
    ([Instr.flitReceive 0 (List.replicate 247 0) 0, .flitReceive 0 (List.replicate 249 0) 0,
      .fragmentReceive ⟨1, 0, 0, 0, 0, 1, 1, []⟩, .fragmentReceive ⟨256, 0, 0, 0, 0, 0, 1, []⟩, .packetRoute 0 (.port 32),
      .launchMessageReceive ⟨1, 0, []⟩ 0, .launchMessageReceive ⟨1, 0, [⟨2 ^ 20, 0, 0, 0, 0, 0, 0, 0⟩]⟩ 0,
      .openReceive ⟨1, 2 ^ 64, [⟨0, 0, 0, 0, 0, 0, 0, 0⟩]⟩, .trainingPhaseEnd 0 ⟨0, 0, 0, 32, 0, 0, 0, 0, none, 0⟩,
      .syncrspReceive 0 ⟨256, true, 4, 0, 0, 0⟩ 0, .syncreqReceive 0 (2 ^ 64), .helloReceive 0 ⟨0, 3, 0, List.replicate 32 0⟩,
      .helloReceive 0 ⟨0, 0, 0, []⟩, .heartbeatReceive 0 ⟨2 ^ 48, 0, []⟩, .ackReceive (2 ^ 48) 0, .handoverReceive (2 ^ 48) [] [],
      .kvPacketReceive ⟨0, 255, 2, 0, 0, []⟩, .stepRecordApply ⟨0, 2, 0, 0, 0, 0, 0, [], [], [], []⟩,
      .twinCommandReceive ⟨0x0101, pf, 8, 0, [], some [], 0, false, 0, 0⟩,
      .admitQueryReceive 0 0 (2 ^ 32) 0 0 0, .lackReceive 1024 0, .undeliverableNotice 256 0 0, .reassemblyTimeout 0 (2 ^ 20) 0].all
      fun i => !i.wf) = true := by decide +kernel

/-- An accession image of a region that cannot be, whichever message carries it (R484, R550). -/
theorem test_wf_refuses_images (m : MirReq) (h : mirReqOk m = false) :
    Instr.wf (.stepRecordApply ⟨0, 0, 0, 0, 0, 0, 0, [m], [], [], []⟩) = false ∧ Instr.wf (.handoverReceive 0 [] [m]) = false := by
  simp [Instr.wf, recordOk, h]

/-- More than 65,536 bytes in a chunk or in staged policy bytes (R520, R645). -/
theorem test_wf_refuses_bytes (b : List Byte) (h : 65536 < b.length) :
    Instr.wf (.chunkReceive 0 0 0 b) = false ∧ Instr.wf (.policyData 0 b) = false := by
  simp [Instr.wf, Nat.not_le.mpr h]

/-- A command of each kind that is well formed. -/
theorem test_wf_accepts :
    ([Instr.tripleIssue ⟨63, 47⟩, .nopCommand ⟨15, 0, true, 65535⟩, .ptcHoldreqWrite (.firmware 1) 0x10000 0, .dmaDrainEnd ⟨9, 31⟩,
      .flitReceive 31 (List.replicate 248 255) 0, .selfTest [0, 0, 0, 0, 0], .fragmentReceive ⟨1, 0, 0, 0, 0, 0, 1, []⟩,
      .launchMessageReceive ⟨1, 0, [⟨0, 0xFFFF, 0xFFFF, 0, 0, 0, 0, 0⟩]⟩ 0, .kvPacketReceive ⟨0, 255, 1, 0, 1, []⟩].all
      Instr.wf) = true := by decide +kernel

/-! ## The step -/

/-- The front of a queue of two, and what is left of it. -/
theorem witness_StepRunsFront :
    ({ up with pending := [.holdBegin, .holdEnd] } : State).pending = [.holdBegin, .holdEnd] ∧
    (match step { up with pending := [.holdBegin, .holdEnd] } with | .next u => u.pending == [.holdEnd] | _ => false) = true := by
  decide +kernel

/-- A state with both invariants whose step answers a next state. -/
theorem witness_StepKeepsMemories : MemInv up ∧ (match step up with | .next _ => true | _ => false) = true :=
  ⟨⟨rfl, rfl, fun _ => rfl, rfl, rfl, rfl⟩, by decide +kernel⟩

theorem witness_StepKeepsStores : StoreInv up ∧ (match step up with | .next _ => true | _ => false) = true :=
  ⟨⟨rfl, rfl, rfl, rfl, rfl, rfl, rfl, rfl, rfl⟩, by decide +kernel⟩

/-- An idle tick of a clocked module (R213, R214). -/
theorem witness_TimeAdvances :
    up.pending = [] ∧ up.clocked = true ∧ up.hold = none ∧
    (match step up with | .next u => u.cnt == up.cnt + 1 && u.sched == up.sched + 1 | _ => false) = true := by decide +kernel

/-- The table gives no row bits, so that a word spells no command and a state is as it was. -/
theorem test_words_spell_nothing : Sys2Proof.decodeTableWord 8 5 = none ∧ State.withFetchWord up 8 5 = up :=
  ⟨rfl, rfl⟩

/-! ## Chapter 02 -/

/-- The operations of the S slot act on a tile in an invocation whose triple has issued. -/
def sOps : List Instr :=
  [.nop t00 .s 0, .mark t00 0 5, .scalarAlu t00 0 .add 1 2 3 0, .scalarAluImmediate t00 0 .addi 1 2 5, .cmp t00 0 .lt 1 2 3,
   .cmpi t00 0 .lt 1 2 5, .plog t00 0 1 2 3 6, .sget t00 0 1 0, .sld t00 0 1 2 1 0, .sst t00 0 1 2 1 0, .sldAg t00 0 1 1,
   .sstAg t00 0 1 1, .loop t00 0 2 3, .loopd t00 0 3, .agbase t00 0 1 5, .agset t00 0 1 2, .agadd t00 0 1 2, .aghnd t00 0 1 false 1,
   .dwrC t00 0 4, .dwrS t00 0 0 1 2, .dwrSi t00 0 0 1 4]

/-- A tile with s2 = 40, s3 = −1, an address generator through handle 1, a descriptor count, and eight bytes at 40. -/
def scal : State :=
  live { sregs := [(2, 40), (3, 0xFFFFFFFFFFFFFFFF)], gens := [(1, { base := 40, handle := 1 })], dcount := [(0, 3)],
         scratch := [(40, 8), (47, 1)] }

theorem witness_ScalarOperationsIssueResults : (sOps.all fun i => scal.slotActs t00 i) = true := by decide +kernel

/-- A result of the unit of a sum: 40 − 1, due after the latency of `salu` (R60, R63). -/
theorem test_scalar_add :
    after (.scalarAlu t00 0 .add 1 2 3 0) scal (fun u => (u.tile 0).outs == [⟨scal.lat 0 .salu, false, 1, 39, false, 0⟩]) = true := by
  decide +kernel

/-- `ldhi` sets the high half and keeps the low one (R63). -/
theorem test_ldhi :
    after (.scalarAluImmediate t00 0 .ldhi 2 0 7) scal (fun u => (u.tile 0).outs.map (·.val) == [0x700000028]) = true := by decide +kernel

/-- −1 < 40 signed, not unsigned (R63). -/
theorem test_relations :
    after (.cmp t00 0 .lt 1 3 2) scal (fun u => (u.tile 0).outs.map (·.val) == [1]) = true ∧
    after (.cmp t00 0 .ltu 1 3 2) scal (fun u => (u.tile 0).outs.map (·.val) == [0]) = true := by decide +kernel

/-- A result whose cycle has come, of a scalar register and of a predicate. -/
def dueTwo : State := live { outs := [⟨0, false, 31, 5, false, 0⟩, ⟨0, true, 15, 1, false, 0⟩] }

theorem witness_ResultsReachRegisters :
    dueTwo.held = false ∧
    (∀ o ∈ (dueTwo.tile 0).outs, o.due ≤ dueTwo.sched ∧ o.run = 0 ∧ o.dead = false ∧ 0 < o.reg ∧ (o.pred = true → o.reg < 16)) ∧
    (dueTwo.tile 0).outs.Pairwise (fun o o' => (o.pred, o.reg) ≠ (o'.pred, o'.reg)) ∧
    after (.resultWriteback t00) dueTwo (fun u => (u.tile 0).s 31 == 5 && (u.tile 0).p 15 && (u.tile 0).outs == []) = true := by
  decide +kernel

/-- A word in bounds of handle 1, by an offset and by a generator; the load gives its eight bytes, the store changes them. -/
theorem witness_ScratchpadWords :
    let a := ((scal.tile 0).s 2).toNat / 8 * 8
    scal.slotActs t00 (.sld t00 0 1 2 1 0) = true ∧ scal.slotActs t00 (.sst t00 0 3 2 1 0) = true ∧ (scal.hnd 0 1).inBounds ⟨a, 8⟩ = true ∧
    memWf (scal.tile 0).scratch = true ∧ scal.slotActs t00 (.sldAg t00 0 1 1) = true ∧ scal.slotActs t00 (.sstAg t00 0 3 1) = true ∧
    scal.deferred 0 = false ∧ ((scal.tile 0).gen 1).space = false ∧ (scal.hnd 0 1).inBounds ⟨(scal.tile 0).agAddr 1 / 8 * 8, 8⟩ = true ∧
    after (.sld t00 0 1 2 1 0) scal (fun u => (u.tile 0).outs.map (·.val) == [0x0100000000000008]) = true ∧
    after (.sstAg t00 0 3 1) scal (fun u => rdBytes (u.tile 0).scratch 40 9 == List.replicate 8 0xFF ++ [0]) = true := by
  decide +kernel

/-- An access that its own triple's X access puts off: it makes none in this cycle, and joins those of the next (R99). -/
theorem witness_ScratchpadWords_deferred :
    let s : State := { scal with tiles := [(0, { scal.tile 0 with stall := true })] }
    s.deferred 0 = true ∧ ([Instr.sld t00 0 1 2 1 0, .sst t00 0 3 2 1 0, .sldAg t00 0 1 1, .sstAg t00 0 3 1].all fun i =>
      s.slotActs t00 i && after i s fun u =>
        (u.tile 0).outs == [] && (u.tile 0).scratch == (scal.tile 0).scratch && (u.tile 0).bankq.map (·.due) == [s.sched + 1]) = true := by
  decide +kernel

/-- The last word of the handle is in bounds and the next is not (R97). -/
theorem test_bounds_edge : (scal.hnd 0 1).inBounds ⟨4088, 8⟩ = true ∧ (scal.hnd 0 1).inBounds ⟨4089, 8⟩ = false := by decide +kernel

/-- Counts of 1 and of the descriptor file's 3; a descriptor write while the level is active (R66, R70, R71). -/
theorem witness_LoopsAndGenerators :
    scal.slotActs t00 (.loop t00 0 1 4095) = true ∧ 1 ≤ (1 : BitVec 20).toNat ∧ scal.slotActs t00 (.loopd t00 0 3) = true ∧
    1 ≤ mget (scal.tile 0).dcount 0 0 ∧
    after (.loopd t00 0 3) scal (fun u => ((u.tile 0).lvl 0).count == 3 && ((u.tile 0).lvl 0).last == 3) = true ∧
    after (.agadd t00 0 1 3) scal (fun u => ((u.tile 0).gen 1).base == 39) = true := by decide +kernel

/-- The S slot of a triple has added to generator 1, and its X slot stores at the address before that (R56). -/
theorem witness_TriplesIssue_before :
    opTile (.mload t00 0 0 1 0) = some t00 ∧ readsGens (.mload t00 0 0 1 0) = true ∧
    after (.agadd t00 0 1 3) (live { gens := [(1, { base := 64, handle := 1 })], sregs := [(3, 128)] }) (fun s =>
      (s.tile 0).before s.sched != s.tile 0 && s.issuedNow 0 && (s.tile 0).agAddr 1 == 192 &&
        after (.mload t00 0 0 1 0) s fun u =>
          (u.tile 0).bankq.head?.map (fun q => q.acc.sps) == some [⟨64, 256⟩] && (u.tile 0).agAddr 1 == 192) = true := by decide +kernel

/-- A plan of two triples of `nop`s, installed in region 0. -/
def planned : State :=
  let p : Plan := { id := 1, region := 0, expert := false, profile := 1, offset := 0, bytes := 0, digest := [], text := [0, 0],
                    dcount := [], dstride := [], gens := [], params := [] }
  let s := live
  { s with plans := [p], regions := [(0, { plan := some 1, inInv := true, running := true, begun := true })]
           tiles := [(0, { inInv := true, moved := true })] }

theorem witness_TriplesIssue :
    let T := (planned.tile 0).advance
    let i := slotsAt t00 (planned.tripleAt t00 T.pc)
    let r := planned.setTile 0 { T with bankAt := planned.sched + 1, bankUsed := if T.bankAt = planned.sched + 1 then T.bankUsed else [] }
    (planned.tile 0).inInv = true ∧ planned.held = false ∧ (planned.tile 0).lastAt ≠ planned.sched + 1 ∧
    (∀ q ∈ (planned.tile 0).bankq, planned.sched < q.due) ∧ T.pc < (planned.textOf t00).length ∧ (planned.textOf t00).length ≤ 1360 ∧
    T.lostPc = [] ∧ T.textFrom = none ∧ T.stall = false ∧ (∀ e, r.waitsOf 0 e i.1 = []) ∧ (∀ e, r.waitsOf 0 e i.2.1 = []) ∧
    (∀ e, r.waitsOf 0 e i.2.2 = []) ∧ r.issueBanks 0 i.1 = [] ∧ r.issueBanks 0 i.2.2 = [] ∧ planned.queueTurn t00 i.2.2 = true :=
  ⟨by decide +kernel, by decide +kernel, by decide +kernel, by decide +kernel, by decide +kernel, by decide +kernel, by decide +kernel,
   by decide +kernel, by decide +kernel, fun _ => by rfl, fun _ => by rfl, fun _ => by rfl, by decide +kernel, by decide +kernel, by decide +kernel⟩

/-- The end triple of a loop: one more pass, and the last one (R67). -/
def looping (idx : Nat) : Tile :=
  { lvls := [(1, { active := true, idx := idx, count := 3, first := 4, last := 6 })], issuePc := 6, moved := false }

theorem witness_TriplesIssue_loop :
    ((looping 1).lvl 1).active = true ∧ ((looping 1).lvl 1).last = (looping 1).issuePc ∧ (looping 1).moved = false ∧
    (∀ k, k < 4 → k ≠ 1 → ¬(((looping 1).lvl k).active = true ∧ ((looping 1).lvl k).last = (looping 1).issuePc)) ∧
    ((looping 1).lvl 1).idx + 1 < ((looping 1).lvl 1).count ∧ (looping 1).advance.pc = 4 ∧
    ((looping 2).lvl 1).count ≤ ((looping 2).lvl 1).idx + 1 ∧ (looping 2).advance.pc = 7 := by decide +kernel

/-! ## Chapter 04 -/

/-- A tile with a block of a scaled format in buffer 0 and of a narrow one in buffer 1. -/
def mat : State :=
  live { wbufs := [(0, { fmt := 3, block := List.replicate 2048 0 }), (1, { fmt := 0, block := List.replicate 2048 0 })],
         gens := [(1, { base := 256, handle := 1 })] }

def mul0 : MmulF := ⟨1, 0, 1, 0, 0, 63, 0, 0, false, 1⟩
def drain0 : DrainF := ⟨0, 0, 63, 0, false, false⟩

theorem witness_MatrixPipes :
    (mat.tile 0).before mat.sched = mat.tile 0 ∧ mat.slotActs t00 (.mload t00 0 0 1 3) = true ∧ mat.slotActs t00 (.mscl t00 0 0 1) = true ∧
    fmtClass (mget (mat.tile 0).wbufs 0 {}).fmt = 2 ∧ mat.slotActs t00 (.mmul t00 0 mul0) = true ∧
    fmtClass (mget (mat.tile 0).wbufs mul0.wbuf {}).fmt = fmtClass mul0.afmt ∧ mat.slotActs t00 (.mzero t00 0 0 0 63) = true ∧
    mat.slotActs t00 (.mdrain t00 0 drain0 1) = true ∧ mat.slotActs t00 (.mdrainv t00 0 drain0) = true ∧
    after (.mmul t00 0 mul0) mat (fun u => (u.tile 0).accq.length == 64 && (u.tile 0).muls.length == 1) = true ∧
    after (.mdrain t00 0 drain0 1) mat (fun u => (u.tile 0).drains.length == 64) = true := by decide +kernel

/-- Five leaves: a subtree of four and one of one (R153). -/
theorem test_tree_of_five :
    ((List.range 5).foldl (fun (a : AccRow) k => a.push k []) { started := true, cls := 0 }).stack.map (fun e => (e.lvl, e.idx)) =
      [(0, 4), (2, 0)] := by decide +kernel

theorem witness_TreeOfLeaves : (256 : Nat) ≤ 256 ∧ (0 : Nat) ≤ 256 := by decide

/-- A row to be cleared; a drained row on its way to the scratchpad. -/
def clearing : State := live { accs := [(65, { started := true })], accq := [⟨0, 1, 1, 0, .zero⟩] }
def rowOut : DrainRow := { op := 1, r := 0, due := 0, vals := some (List.replicate 64 7), hnd := some (live.hnd 0 1), handle := 1, off := 256 }
def draining : State := live { drains := [rowOut] }

theorem witness_RowsAndChains_leaf :
    clearing.held = false ∧ ((clearing.tile 0).accq.filter fun a => decide (a.due ≤ clearing.sched)) = [⟨0, 1, 1, 0, .zero⟩] ∧
    (clearing.tile 0).accq.all (clearing.tile 0).accReady = true ∧
    after (.leafEnter t00) clearing (fun u => mget (u.tile 0).accs 65 { started := true } == {} && (u.tile 0).accq == []) = true := by
  decide +kernel

/-- The other accesses of a row: a class error, a leaf of a row of no bytes, and the read of a drain that clears it (R152, R156, R162). -/
theorem witness_RowsAndChains_accesses :
    let row : AccAcc := ⟨0, 1, 1, 0, .poison 2⟩
    let s (k : AccKind) (T : Tile) : State := live { T with accs := [(65, { started := true, cls := 1 })], accq := [{ row with kind := k }] }
    let m : MulOp := { op := 3, f := { mul0 with afmt := 0 }, cls := 0, kidx := 0, w := { fmt := 0 }, act := [(63, List.replicate (fmtRB 0) 0)] }
    (([(AccKind.poison 2, ({} : Tile)), (.leaf 3 63, { muls := [m] }), (.read 4 63 0 false true, { drains := [{ rowOut with op := 4, r := 63 }] })].all
        fun (p : AccKind × Tile) =>
          let z := s p.1 p.2
          !z.held && ((z.tile 0).accq.filter fun a => decide (a.due ≤ z.sched)) == [{ row with kind := p.1 }] &&
            (z.tile 0).accq.all (z.tile 0).accReady) = true) ∧
    ((s (.leaf 3 63) { muls := [m] }).tile 0).mulOf 3 = some m ∧
    after (.leafEnter t00) (s (.poison 2) {}) (fun u => let a := mget (u.tile 0).accs 65 {}; a.poison && a.cls == 1) = true ∧
    after (.leafEnter t00) (s (.leaf 3 63) { muls := [m] }) (fun u => (u.tile 0).muls == []) = true ∧
    after (.leafEnter t00) (s (.read 4 63 0 false true) { drains := [{ rowOut with op := 4, r := 63 }] })
      (fun u => mget (u.tile 0).accs 65 { started := true } == {}) = true := by
  decide +kernel

theorem witness_RowsAndChains_drain :
    let v : DrainRow := { rowOut with hnd := none }
    draining.held = false ∧ (draining.tile 0).accq = [] ∧ after (.leafEnter t00) draining (fun u => u == draining) = true ∧
    ((draining.tile 0).drains.find? fun d => decide (d.due ≤ draining.sched)) = some rowOut ∧ rowOut.vals = some (List.replicate 64 7) ∧
    rowOut.hnd = some (live.hnd 0 1) ∧ rowOut.space = false ∧ (live.hnd 0 1).inBounds ⟨rowOut.off, 4 * 64⟩ = true ∧
    (draining.tile 0).queued (.drain rowOut.op rowOut.r) = false ∧ memWf (draining.tile 0).scratch = true ∧
    after (.drainRowWrite t00) draining (fun u => rdBytes (u.tile 0).scratch 256 8 == [7, 0, 0, 0, 7, 0, 0, 0]) = true ∧
    after (.drainRowWrite t00) (live { drains := [v] }) (fun u => (u.tile 0).drains == [] && (u.tile 0).scratch == []) = true := by
  decide +kernel

/-- A row whose read must wait for the leaf before it keeps its own cycle; nothing enters. -/
theorem test_row_waits_for_its_operands :
    let s := live { accq := [⟨0, 0, 0, 0, .leaf 1 0⟩], muls := [{ op := 1, f := ⟨1, 0, 1, 0, 0, 63, 0, 0, false, 1⟩, cls := 0, kidx := 0, w := {} }] }
    (s.tile 0).accq.all (s.tile 0).accReady = false ∧ after (.leafEnter t00) s (fun u => (u.tile 0).accq.length == 1) = true := by
  decide +kernel

/-! ## Chapter 05 -/

/-- A run from a vector register to one, and its row as it leaves the chain. -/
def run0 : VrunF := ⟨1, 3, 1, 2, 0, 0, false, 0, 1, 0, 4, false, 0, 0⟩
def runSt : VRunSt :=
  { id := 9, words := [], opB := [], opC := [], f := run0, outHandle := 0, outHnd := live.hnd 0 1, outOff := 0, outSpace := false, pc := 0 }
def rowV : VRow := { due := 0, run := 9, r := 0, lanes := some (List.replicate 64 3), aux := some [], last := true }
def vec : State := live { vruns := [runSt], vrows := [rowV] }

theorem witness_RowsAndChains_chains :
    let T := (vec.tile 0).enterRows vec.sched
    (live.tile 0).before live.sched = live.tile 0 ∧ live.slotActs t00 (.vdef t00 0 7 7 5) = true ∧ live.slotActs t00 (.vrun t00 0 run0) = true ∧ vec.held = false ∧
    (T.vrows.find? fun v => decide (v.due ≤ vec.sched)) = some rowV ∧ rowV.lanes = some (List.replicate 64 3) ∧ rowV.aux = some [] ∧
    (T.vruns.find? fun u => u.id == rowV.run) = some runSt ∧ T.queued (.sink runSt.id rowV.r) = false ∧ memWf T.scratch = true ∧
    runSt.f.sink.val = 1 ∧ runSt.f.mskw = false ∧
    after (.vrun t00 0 run0) live (fun u => (u.tile 0).vrows.length == 4 && u.nextId == 1) = true ∧
    after (.vrunRowWrite t00) vec (fun u => mget (u.tile 0).vregs (64 * 4) 0 == 3 && (u.tile 0).vrows == []) = true := by
  decide +kernel

/-- The last row of a masked run with a compress count of 5, whose result waits in s4; and a row that is not the last. -/
theorem witness_RowsAndChains_last :
    let x : VRunSt := { runSt with f := { run0 with mskw := true }, count := 5 }
    let o : OutWrite := ⟨0, false, 4, 0, false, 9⟩
    after (.vrunRowWrite t00) (live { vruns := [x], vrows := [rowV], outs := [o] })
      (fun u => (u.tile 0).outs.map (fun o => (o.run, o.val.toNat, o.due == u.sched + 1)) == [(0, 5, true)] && (u.tile 0).vruns == []) = true ∧
    after (.vrunRowWrite t00) (live { vruns := [x], vrows := [{ rowV with last := false }], outs := [o] })
      (fun u => (u.tile 0).outs == [o] && (u.tile 0).vruns.map (·.count) == [5]) = true := by
  decide +kernel

/-- The same row by a sink to the scratchpad, of lanes of 32 bits through handle 1: its 256 bytes. -/
theorem witness_RowsAndChains_sink :
    let x : VRunSt := { runSt with f := { run0 with sink := 0 } }
    let s : State := live { vruns := [x], vrows := [rowV] }
    x.outSpace = false ∧ x.outHnd.inBounds ⟨x.outOff + 8 * ewBits x.f.ow * 0, 8 * ewBits x.f.ow⟩ = true ∧
    after (.vrunRowWrite t00) s (fun u => (u.tile 0).scratch != [] && (u.tile 0).vregs == [] && (u.tile 0).vruns == []) = true := by
  decide +kernel

/-! ## Chapter 03 -/

/-- A tile with circuit 7's number in s2, the code of tile (1, 0) in s4, and generators of a line of its scratchpad. -/
def mesh : State :=
  (live { sregs := [(2, 7), (4, 1), (5, 0x3001)], gens := [(1, { base := 64, handle := 1 }), (2, { base := 128, handle := 1 })],
          scratch := [(64, 9)] }).setFld F.dieXstat_trained 0 15

def win0 (sa : Fin 32) : WinF := ⟨sa, 2, 1, 1⟩

theorem witness_MeshSendsAndFaults :
    (mesh.tile 0).before mesh.sched = mesh.tile 0 ∧ mesh.slotActs t00 (.cput t00 0 2 1 2 1) = true ∧ ((mesh.tile 0).gen 1).space = false ∧
    (mesh.hnd 0 1).inBounds ⟨(mesh.tile 0).agAddr 1 / 64 * 64, 64⟩ = true ∧
    (∃ k, mesh.circuit (((mesh.tile 0).s 2).toNat % 65536) = some k ∧ tIx ⟨k.sx, k.sy⟩ = 0) ∧
    mesh.slotActs t00 (.nput t00 0 .east 1 2 1) = true ∧ mesh.nputEnd 0 .east = .tile 1 ∧ mesh.nputEnd 0 .north = .io 0 ∧
    after (.cput t00 0 2 1 2 1) mesh (fun u => u.mpkts.map (fun p => (p.dst, p.circ, p.data.length)) == [(1, 7, 64)]) = true ∧
    after (.nput t00 0 .east 1 2 1) mesh (fun u => mget (u.tile 0).credPort 1 8 == 7) = true := by
  refine ⟨by decide +kernel, by decide +kernel, by decide +kernel, by decide +kernel, ⟨⟨7, 0, 0, 1, 0, 1, 4, 0, [1]⟩, by decide +kernel, by decide +kernel⟩,
    ?_⟩
  decide +kernel

theorem witness_MeshSendsAndFaults_windows :
    mesh.slotActs t00 (.wget t00 0 (win0 4)) = true ∧ mesh.windowOk 0 ((mesh.tile 0).winTarget (win0 4)) true = true ∧
    mesh.slotActs t00 (.wput t00 0 (win0 4)) = true ∧ mesh.windowOk 0 ((mesh.tile 0).winTarget (win0 4)) false = true ∧
    after (.wget t00 0 (win0 4)) mesh (fun u => u.mpkts.map (·.dst) == [1]) = true ∧
    after (.wput t00 0 (win0 4)) mesh (fun u => u.mpkts.map (fun p => p.data.take 1) == [[9]]) = true := by decide +kernel

/-- A circuit of no record, a port toward the west of column 0, a target beyond row 47 (R122). -/
theorem witness_MeshSendsAndFaults_faults :
    mesh.slotActs t00 (.cput t00 0 3 1 2 1) = true ∧ mesh.circuit (((mesh.tile 0).s 3).toNat % 65536) = none ∧
    mesh.slotActs t00 (.nput t00 0 .west 1 2 1) = true ∧ mesh.nputEnd 0 .west = .none ∧
    mesh.slotActs t00 (.wput t00 0 (win0 5)) = true ∧ mesh.windowOk 0 ((mesh.tile 0).winTarget (win0 5)) false = false ∧
    mesh.slotActs t00 (.wget t00 0 (win0 5)) = true ∧ mesh.windowOk 0 ((mesh.tile 0).winTarget (win0 5)) true = false := by decide +kernel

/-! Packets on their way, one of each kind, at schedule cycle 8 (a slot of circuit 7) or 7 (a window slot). -/

def pkt (k : MKind) : MPkt := { id := 4, kind := k, src := 0, dst := 1, circ := 7, dir := .east, handle := 1, off := 64, data := List.replicate 64 6 }

/-- The far tile has handle 1 as the near one has. -/
def way (sched : Nat) (p : MPkt) : State :=
  (((live.setReg .tilHndb 65 (4096 * 2 ^ 32)).setReg .tilHndc 65 0x8300).setReg .ptcSched 0 sched |>
    fun s => { s with mpkts := [p] })

theorem witness_PacketsMove_depart :
    (way 8 (pkt .circuit)).held = false ∧ (way 8 (pkt .circuit)).pkt 4 = some (pkt .circuit) ∧ (pkt .circuit).issued < (way 8 (pkt .circuit)).sched ∧
    (way 8 (pkt .circuit)).circuit 7 = some ⟨7, 0, 0, 1, 0, 1, 4, 0, [1]⟩ ∧ (way 8 (pkt .circuit)).slotCtr % 4 = 0 ∧
    windowSlot (way 9 (pkt .neighbour)).slotCtr = false ∧ (way 9 (pkt .neighbour)).claimed 0 .east (way 9 (pkt .neighbour)).slotCtr = false ∧
    after (.packetDepart 4) (way 8 (pkt .circuit)) (fun u => u.mpkts.map (·.depart) == [some 8]) = true ∧
    after (.packetDepart 4) (way 9 (pkt .neighbour)) (fun u => u.mpkts.map (·.depart) == [some 9]) = true := by decide +kernel

/-- Packets whose cycle has come, one kind through each clause. -/
def come (k : MKind) : State := way 40 { pkt k with depart := some 8, land := 40, at_ := 1 }

theorem witness_PacketsMove_land :
    ([MKind.circuit, .neighbour, .edge, .winReply, .winWrite].all fun k =>
      let p : MPkt := { pkt k with depart := some 8, land := 40, at_ := 1 }
      (come k).pkt 4 == some p && (come k).arrived p && p.data.length == 64 && (come k).ownServed 1 &&
      (come k).bufferReady 1 4 ⟨1, false, true, [⟨64, 64⟩]⟩ ((come k).landTaken p) && ((come k).hnd 1 1).inBounds ⟨64, 64⟩ && memWf ((come k).tile 1).scratch &&
      (come k).windowRight 1 1 true) = true ∧
    (mget ((come .egress).fdie 1).streams 1 []).length < 128 ∧
    (come .egress).egressFirst { pkt .egress with depart := some 8, land := 40, at_ := 1 } = true ∧
    after (.packetLand 4) (come .circuit) (fun u => rdBytes (u.tile 1).scratch 64 64 == List.replicate 64 6) = true ∧
    after (.packetLand 4) (come .winWrite) (fun u => rdByte (u.tile 1).scratch 127 == 6 && u.mpkts == []) = true ∧
    after (.packetLand 4) (come .egress) (fun u => (mget (u.fdie 1).streams 1 []).length == 1) = true := by decide +kernel

/-- A landed packet whose credit's way is over (R121), and a read of a window at its target (R125). -/
theorem witness_PacketsMove_after :
    after (.creditReturn 4) (way 40 { pkt .neighbour with landed := some 30, path := 10 }) (fun u => u.mpkts == []) = true ∧
    (let p : MPkt := { pkt .winReq with at_ := 1, depart := some 8, land := 40 }
     let s := way 40 p
     s.arrived p = true ∧ s.ownServed 1 = true ∧
     s.windowRight 1 1 false = true ∧ s.bufferReady 1 4 ⟨1, false, false, [⟨64, 64⟩]⟩ (s.landTaken p) = true ∧ (s.hnd 1 1).inBounds ⟨64, 64⟩ = true ∧
     after (.windowReadServe 4) s (fun u => u.mpkts.map (fun p => (p.kind, p.dst)) == [(.winReply, 0)]) = true) := by decide +kernel

theorem witness_PacketsMove_hop :
    let s := way 7 (pkt .winWrite)
    windowSlot s.slotCtr = true ∧ s.portUsed 0 .east = false ∧ s.farEnd 0 .east = .tile 1 ∧ s.nextPlace (pkt .winWrite) 1 = true ∧
    firstPkt ((s.portQueue 0 .east).filter fun q => q.kind != .dma && !q.outside && decide (q.mayGo ≤ s.sched)) = some (pkt .winWrite) ∧
    after (.windowPacketHop t00 .east) s (fun u => u.mpkts.map (fun p => (p.at_, p.land)) == [(1, 16)]) = true := by decide +kernel

/-- A packet that has not made its hops does not land (R124), and a queue of four takes no fifth (R127). -/
theorem test_window_packets_wait :
    after (.packetLand 4) (way 40 { pkt .winWrite with depart := some 8, land := 40 }) (fun u => u.mpkts.length == 1 && (u.tile 1).scratch == []) = true ∧
    (let s := { mesh with mpkts := (List.range 4).map fun k => { pkt .winWrite with id := k } }
     s.portFull 0 .east = true ∧ after (.wget t00 0 (win0 4)) s (fun u => u.mpkts.map (·.outside) == [false, false, false, false, true]) = true) := by
  decide +kernel

end Sys2Proof.Tests
end

section
/-!
Plan time: which cycles a request covers, and the two commands of the hold log while the module holds (R229, R231, R233).
-/
namespace Sys2Proof.Machine

/-! ## The cycles a request covers (R229, R230) -/

theorem HoldReq.covers_iff (q : HoldReq) (c : Nat) : q.covers c = true ↔ q.first ≤ c ∧ c < q.first + q.len := by
  simp [HoldReq.covers]

/-- Requests are OR-combined: one more adds the cycles it covers, beside those of the other requests and of the park (R229). -/
theorem State.heldAt_snoc (s : State) (q : HoldReq) (c : Nat) :
    ({ s with reqs := s.reqs ++ [q] } : State).heldAt c = true ↔ s.heldAt c = true ∨ q.covers c = true := by
  simp only [State.heldAt, List.any_append, List.any_cons, List.any_nil, Bool.or_false, Bool.or_eq_true]
  exact or_right_comm

/-- A request of any length: 0 covers nothing, and above 65,535 it covers as many cycles as one of 65,535 (R230). -/
theorem State.heldAt_request (s : State) (cause source len c : Nat) :
    (s.request cause source len).heldAt c = true ↔
      s.heldAt c = true ∨ s.cnt + 64 ≤ c ∧ c < s.cnt + 64 + min len 65535 := by
  by_cases hlen : len = 0
  · have hnone : ¬ (s.cnt + 64 ≤ c ∧ c < s.cnt + 64 + min len 65535) := by omega
    simp only [State.request, if_pos hlen, hnone, or_false]
  · rw [State.request, if_neg hlen, State.heldAt_snoc, HoldReq.covers_iff]

/-! ## HOLD_BEGIN and HOLD_END in a hold that is logged

HOLD_BEGIN acts only on a hold that is not logged yet, HOLD_END only once the module no longer holds; sent at any other time they change
nothing, which is the model's choice (notes/assumptions/2.md). -/

theorem execHoldBegin_of_logged {s : State} (hlog : s.hold.isSome = true) : execHoldBegin s = .next s := by
  simp [execHoldBegin, hlog]

theorem execHoldEnd_of_held {s : State} (hheld : s.held = true) : execHoldEnd s = .next s := by
  unfold execHoldEnd
  cases s.hold with
  | none => rfl
  | some entry => simp [hheld]

/-- Settles O22: the held cycles after a request are those of `State.heldAt_request`, and a hold that is logged and goes on
is neither entered again nor ended. -/
theorem requestsHold : Obligations.RequestsHold := by
  intro s cause source l c _ hmax
  refine ⟨?_, rfl, fun hheld hlog => ⟨execHoldBegin_of_logged hlog, execHoldEnd_of_held hheld⟩⟩
  rw [State.heldAt_request, Nat.min_eq_left hmax]
  have hlast : c < s.cnt + 64 + l ↔ c ≤ s.cnt + 63 + l := by omega
  rw [hlast]

end Sys2Proof.Machine
end

section
/-!
The fabric's identity: a register write that the firewall lets through, what an event leaves of the registers, and a write of
FAB_ID.ID on both sides of R396's condition.
-/
namespace Sys2Proof.Machine

/-! ## Writes and events -/

/-- A write that the firewall lets through takes its effect. -/
theorem State.gated_of_mayWrite {s : State} {w : Writer} {off v : Nat} {f : State → State} (hw : s.mayWrite w = true) :
    s.gated w off v f = f s := by
  cases w with
  | firmware _ => rfl
  | host fn =>
    simp only [State.mayWrite, Bool.and_eq_true, beq_iff_eq] at hw
    obtain ⟨⟨hfn, hready⟩, hexpw⟩ := hw
    simp [State.gated, hfn, hready, hexpw]

/-- An event of a function changes no register but the function's HST_EVSTAT. -/
theorem State.fld_eventTo (s : State) (fn code kind idx : Nat) (items : List (Nat × Nat)) {f : Fld} {i : Nat}
    (hother : regKey f.kind i ≠ regKey .hstEvstat fn) : (s.eventTo fn code kind idx items).fld f i = s.fld f i := by
  unfold State.eventTo
  split_ifs
  · simp
  · simp
  · rw [State.satAdd, State.fld_setFld_ne (f := F.hstEvstat_lost) _ _ hother]
    simp

/-! ## A write of FAB_ID.ID (R396) -/

/-- FAB_ID lies apart from every register of another kind. -/
theorem fabId_regKey_ne {k : RegKind} (hk : RegKind.fabId.code ≠ k.code) : regKey .fabId 0 ≠ regKey k 0 :=
  regKey_ne (by decide) (by decide) (.inl hk)

/-- The condition of R396 as the command tests it. -/
theorem State.portsDown_iff (s : State) :
    ((List.range 32).all fun p => decide (s.portState p ≤ 1)) = true ↔ ∀ p < 32, s.portState p = 0 ∨ s.portState p = 1 := by
  simp only [List.all_eq_true, List.mem_range, decide_eq_true_eq, Nat.le_one_iff_eq_zero_or_eq_one]

/-- The module with a new ID: FAB_ID.VALID is set, the lead of its pair is decided anew, and a port that met its own ID may train
again (R395, R397, R544). -/
def State.identified (s : State) (id : Nat) : State :=
  { ((s.setFld F.fabId_id 0 id).setFld F.fabId_valid 0 1).setLeader with
    links := s.links.map fun l => (l.1, { l.2 with blocked := false }) }

/-- The links hold no register. -/
theorem State.fld_links (s : State) (l : SMap Link) (f : Fld) (i : Nat) : ({ s with links := l } : State).fld f i = s.fld f i := rfl

/-- A new ID leaves of FAB_ID what the two writes of its fields leave. -/
theorem State.fld_identified (s : State) (id : Nat) {f : Fld} (hf : f.kind = .fabId) :
    (s.identified id).fld f 0 = ((s.setFld F.fabId_id 0 id).setFld F.fabId_valid 0 1).fld f 0 := by
  have hapart : regKey f.kind 0 ≠ regKey F.mirState_leader.kind 0 := hf ▸ fabId_regKey_ne (by decide)
  rw [State.identified, State.fld_links, State.setLeader, State.fld_setFld_ne _ _ hapart]

theorem State.identified_id (s : State) {id : Nat} (hid : id < 2 ^ 20) : (s.identified id).fld F.fabId_id 0 = id := by
  rw [State.fld_identified _ _ rfl, State.fld_setFld_apart _ F.fabId_valid F.fabId_id _ _ rfl (by decide) (by decide) (by decide),
    State.fld_setFld_same _ _ _ _ (by decide) (by decide)]
  exact Nat.mod_eq_of_lt hid

theorem State.identified_valid (s : State) (id : Nat) : (s.identified id).fld F.fabId_valid 0 = 1 := by
  rw [State.fld_identified _ _ rfl, State.fld_setFld_same _ _ _ _ (by decide) (by decide)]
  rfl

theorem execFabIdWrite_of_down {s : State} {w : Writer} {off : Nat} {v : BitVec 32} (hw : s.mayWrite w = true)
    (hdown : ∀ p < 32, s.portState p = 0 ∨ s.portState p = 1) :
    execFabIdWrite w off v s = .next (s.identified (bits v.toNat 19 0)) := by
  rw [execFabIdWrite, State.gated_of_mayWrite hw, if_pos (s.portsDown_iff.2 hdown)]
  rfl

theorem execFabIdWrite_of_up {s : State} {w : Writer} {off : Nat} {v : BitVec 32} (hw : s.mayWrite w = true)
    (hup : ∃ p < 32, s.portState p ≠ 0 ∧ s.portState p ≠ 1) :
    execFabIdWrite w off v s = .next (s.event 0x0290 8 0 []) := by
  obtain ⟨p, hp, hoff, hdown⟩ := hup
  have hrefused : ¬ ∀ p < 32, s.portState p = 0 ∨ s.portState p = 1 := fun h => (h p hp).elim hoff hdown
  rw [execFabIdWrite, State.gated_of_mayWrite hw, if_neg (s.portsDown_iff.not.2 hrefused)]

/-- Settles O33: with every port OFF or DOWN the module takes the ID (`State.identified`); with any other port up the write comes to
its event alone, which is recorded outside FAB_ID. -/
theorem fabIdWrites : Obligations.FabIdWrites := by
  intro s w off v hw
  constructor
  · intro hdown
    exact ⟨_, execFabIdWrite_of_down hw hdown, s.identified_id (bits_lt _ _ _), s.identified_valid _, rfl, rfl, rfl⟩
  · intro hup
    have hexec : exec (.fabIdWrite w off v) s = .next (s.event 0x0290 8 0 []) := execFabIdWrite_of_up hw hup
    have hapart : regKey .fabId 0 ≠ regKey .hstEvstat 0 := fabId_regKey_ne (by decide)
    exact ⟨hexec, _, hexec, s.fld_eventTo _ _ _ _ _ hapart, s.fld_eventTo _ _ _ _ _ hapart⟩

end Sys2Proof.Machine
end

section
/-!
The step, the reset state, the scalar arithmetic in whole numbers (R63), and the frame of a tile's fields that TRIPLE_ISSUE does not keep.
-/
namespace Sys2Proof.Machine
set_option Elab.async false

/-- Settles O1: `step` on a queue that is not empty. -/
theorem stepRunsFront : Obligations.StepRunsFront := by
  intro s c cs h
  simp [step, h]

/-- Settles O5: every store of the reset state is empty. -/
theorem resetHasInvariants : Obligations.ResetHasInvariants :=
  ⟨⟨rfl, rfl, fun _ => rfl, rfl, rfl, rfl⟩, ⟨rfl, rfl, rfl, rfl, rfl, rfl, rfl, rfl, rfl⟩⟩

theorem toInt_bmod_shift (a : Word) : (a.sshiftRight 64).toInt = if a.msb then -1 else 0 := by
  rw [BitVec.toInt_sshiftRight, BitVec.msb_eq_toInt, Int.shiftRight_eq_div_pow]
  have h1 := a.toInt_lt
  have h2 := a.le_toInt
  by_cases h : a.toInt < 0 <;> simp [h] <;> omega

/-- Settles O8. -/
theorem scalarArithmetic : Obligations.ScalarArithmetic := by
  intro a b ps
  have ha := a.isLt
  have hb := b.isLt
  refine ⟨?add, ?sub, ?mul, ?mulhu, ?shl, ?shr, ?sra, ?min, ?max, ?minu, ?maxu, ?sel, ?lt, ?ge, ?ltu, ?geu, ?eq, ?ne⟩
  case add => simp [aluOp]
  case sub => simp [aluOp, BitVec.toNat_sub]; omega
  case mul => simp [aluOp]
  case mulhu =>
    have h : a.toNat * b.toNat / 2 ^ 64 < 2 ^ 64 := by
      rw [Nat.div_lt_iff_lt_mul (by decide)]; exact Nat.mul_lt_mul'' ha hb
    simp [aluOp, BitVec.toNat_ofNat] ; omega
  case shl => simp only [aluOp]; split <;> simp [BitVec.toNat_shiftLeft, Nat.shiftLeft_eq]
  case shr => simp only [aluOp]; split <;> simp [BitVec.toNat_ushiftRight, Nat.shiftRight_eq_div_pow]
  case sra =>
    simp only [aluOp]
    split
    next h => rw [Nat.min_eq_right h, toInt_bmod_shift]
    next h => rw [Nat.min_eq_left (by omega), BitVec.toInt_sshiftRight, Int.shiftRight_eq_div_pow]; rfl
  case min => simp only [aluOp, BitVec.slt_iff_toInt_lt]; split <;> omega
  case max => simp only [aluOp, BitVec.slt_iff_toInt_lt]; split <;> omega
  case minu => simp only [aluOp, BitVec.ult_iff_toNat_lt]; split <;> omega
  case maxu => simp only [aluOp, BitVec.ult_iff_toNat_lt]; split <;> omega
  case sel => rfl
  case lt => exact BitVec.slt_iff_toInt_lt
  case ge => simpa [relHolds] using (not_congr (BitVec.slt_iff_toInt_lt (x := a) (y := b))).trans not_lt
  case ltu => exact BitVec.ult_iff_toNat_lt
  case geu => simpa [relHolds] using (not_congr (BitVec.ult_iff_toNat_lt (x := a) (y := b))).trans not_lt
  case eq => simp [relHolds]
  case ne => simp [relHolds]

/-- A tile in an invocation whose last triple has issued and whose counter has not moved on since. -/
def unmoved : State := { State.reset with tiles := [(0, { inInv := true, moved := false })] }

/-- Refutes O59: TRIPLE_ISSUE first moves the program counter on past the triple issued before (R53, R66), and `frameTile` gives
it no change of `pc`. -/
theorem not_tileFieldsFrame : ¬ Obligations.TileFieldsFrame := by
  intro h
  obtain ⟨u, hu, hpc⟩ : Yields (.tripleIssue ⟨0, 0⟩) unmoved fun u => (u.tile 0).pc = 1 := ⟨_, rfl, by decide +kernel⟩
  have hframe : (u.tile 0).pc = (unmoved.tile 0).pc := by rw [h _ _ u 0 hu]; rfl
  rw [hpc] at hframe
  exact absurd hframe (by decide)
end Sys2Proof.Machine
end

section
/-!
The reset values: a register the store does not list spells the values of its fields (R17, R18).
-/
namespace Sys2Proof.Machine
set_option Elab.async false

/-! ## The reset value of a register, field by field -/

/-- The number that fields with the values `v` spell. -/
def fieldSum (v : Fld → Nat) : List Fld → Nat
  | [] => 0
  | f :: fs => 2 ^ f.lo * v f + fieldSum v fs

/-- The fields of a register, the highest first, none overlapping another. -/
def fieldsFall (fs : List Fld) : Prop := (∀ f ∈ fs, f.lo ≤ f.hi) ∧ fs.Pairwise fun f g => g.hi < f.lo

/-- Every value fits its field. -/
def fieldsFit (v : Fld → Nat) (fs : List Fld) : Prop := ∀ f ∈ fs, v f < 2 ^ f.width

theorem foldl_fields (v : Fld → Nat) (fs : List Fld) (a : Nat) :
    fs.foldl (fun a f => a + v f * 2 ^ f.lo) a = a + fieldSum v fs := by
  induction fs generalizing a with
  | nil => rfl
  | cons f fs ih => simp only [List.foldl_cons, ih, fieldSum]; ring

theorem fieldSum_lt {v : Fld → Nat} {fs : List Fld} {n : Nat} (hf : fieldsFall fs) (hv : fieldsFit v fs)
    (hn : ∀ f ∈ fs, f.hi < n) : fieldSum v fs < 2 ^ n := by
  induction fs generalizing n with
  | nil => exact Nat.two_pow_pos n
  | cons f fs ih =>
    obtain ⟨hlo, hp⟩ := hf
    obtain ⟨hgt, hp⟩ := List.pairwise_cons.mp hp
    have hrest := ih ⟨fun g hg => hlo g (.tail _ hg), hp⟩ (fun g hg => hv g (.tail _ hg)) hgt
    have hf' := hv f (.head _)
    have hfn := hn f (.head _)
    have hfl := hlo f (.head _)
    have hw : f.lo + f.width ≤ n := by simp only [Fld.width]; omega
    calc fieldSum v (f :: fs) < 2 ^ f.lo * v f + 2 ^ f.lo := by simp only [fieldSum]; omega
      _ = 2 ^ f.lo * (v f + 1) := by ring
      _ ≤ 2 ^ f.lo * 2 ^ f.width := Nat.mul_le_mul_left _ hf'
      _ = 2 ^ (f.lo + f.width) := (pow_add ..).symm
      _ ≤ 2 ^ n := Nat.pow_le_pow_right (by decide) hw

/-- Within a field's bits the number has the field's bits. -/
theorem testBit_fieldSum {v : Fld → Nat} {fs : List Fld} (hf : fieldsFall fs) (hv : fieldsFit v fs) {f : Fld} (hm : f ∈ fs) {b : Nat}
    (hb : b < f.width) : (fieldSum v fs).testBit (f.lo + b) = (v f).testBit b := by
  induction fs with
  | nil => cases hm
  | cons g fs ih =>
    obtain ⟨hlo, hp⟩ := hf
    obtain ⟨hgt, hp⟩ := List.pairwise_cons.mp hp
    have hfs : fieldsFall fs := ⟨fun g hg => hlo g (.tail _ hg), hp⟩
    have hvs : fieldsFit v fs := fun g hg => hv g (.tail _ hg)
    rw [fieldSum, Nat.testBit_two_pow_mul_add _ (fieldSum_lt hfs hvs hgt)]
    obtain _ | ⟨_, hm⟩ := hm
    · simp
    · have := hgt f hm
      rw [if_pos (by simp only [Fld.width] at hb; omega), ih hfs hvs hm]

/-- Outside the fields' bits the number has no bit. -/
theorem testBit_fieldSum_outside {v : Fld → Nat} {fs : List Fld} (hf : fieldsFall fs) (hv : fieldsFit v fs) {b : Nat}
    (hb : ∀ f ∈ fs, b < f.lo ∨ f.hi < b) : (fieldSum v fs).testBit b = false := by
  induction fs with
  | nil => simp [fieldSum]
  | cons g fs ih =>
    obtain ⟨hlo, hp⟩ := hf
    obtain ⟨hgt, hp⟩ := List.pairwise_cons.mp hp
    have hfs : fieldsFall fs := ⟨fun g hg => hlo g (.tail _ hg), hp⟩
    have hvs : fieldsFit v fs := fun g hg => hv g (.tail _ hg)
    rw [fieldSum, Nat.testBit_two_pow_mul_add _ (fieldSum_lt hfs hvs hgt)]
    split
    next => exact ih hfs hvs fun f h => hb f (.tail _ h)
    next h =>
      have := hb g (.head _)
      refine Nat.testBit_lt_two_pow ((hv g (.head _)).trans_le (Nat.pow_le_pow_right (by decide) ?_))
      simp only [Fld.width]; omega

/-- A field of the number reads the value it was given. -/
theorem bits_fieldSum {v : Fld → Nat} {fs : List Fld} (hf : fieldsFall fs) (hv : fieldsFit v fs) {f : Fld} (hm : f ∈ fs) :
    bits (fieldSum v fs) f.hi f.lo = v f := by
  apply Nat.eq_of_testBit_eq
  intro b
  rw [testBit_bits]
  change (decide (b < f.width) && _) = _
  by_cases hb : b < f.width
  · simpa [hb] using testBit_fieldSum hf hv hm hb
  · have h : (v f).testBit b = false :=
      Nat.testBit_lt_two_pow ((hv f hm).trans_le (Nat.pow_le_pow_right (by decide) (by omega)))
    simp [h, hb]

/-! ## The registers after reset -/

theorem RegKind.fieldsFall (k : RegKind) : fieldsFall k.fields := by
  cases k <;> exact ⟨by decide, by decide⟩

theorem RegKind.kind_of_mem_fields (k : RegKind) : ∀ f ∈ k.fields, f.kind = k := by
  cases k <;> decide

/-- The largest value the fuses of the reset state give a field of a kind. -/
def fuseMax : RegKind → Nat
  | .pwrCtl => 0x258
  | .dieHarvest => 16
  | .dieXstat => 3
  | .memCfg => 48
  | .fusHarvest => 2 ^ 40 - 1
  | .hstFwbase | .hstFwctl => 1
  | _ => 0

/-- A field whose value is a constant or the fuses' has room for it. -/
def Fld.roomy (f : Fld) : Bool :=
  match f.rst with
  | .val n => decide (n < 2 ^ f.width)
  | .image => true
  | .fuse => if f.kind = .fusCfg then decide (State.reset.fuses.cfgVal f.lo < 2 ^ f.width) else decide (fuseMax f.kind < 2 ^ f.width)

theorem RegKind.fields_roomy (k : RegKind) : ∀ f ∈ k.fields, f.roomy = true := by
  cases k <;> decide

theorem b2n_le_one (b : Bool) : b2n b ≤ 1 := by cases b <;> decide

theorem reset_fuseMax (f : Fld) (i : Nat) (hf : f.rst = .fuse) (hk : f.kind ≠ .fusCfg) :
    Fld.reset State.reset f i ≤ fuseMax f.kind := by
  obtain ⟨k, hi, lo, acc, rst⟩ := f
  subst hf
  cases k
  case fusCfg => exact absurd rfl hk
  case hstFwbase => simp only [Fld.reset, fuseMax]; split <;> decide
  case hstFwctl => exact b2n_le_one _
  case dieHarvest =>
    change (List.replicate 8 16).getD i 0 ≤ 16
    rw [List.getD_eq_getElem?_getD, List.getElem?_replicate]
    split <;> simp
  case dieXstat =>
    have h1 := b2n_le_one (i % 4 == 0)
    have h2 := b2n_le_one (i % 4 == 3 || (State.reset.fuses.grade && i % 4 == 2))
    change b2n _ + 2 * b2n _ ≤ 3
    omega
  case fusHarvest =>
    change ((List.range 8).map fun d => State.reset.fuses.hcol.getD d 0 * 2 ^ (5 * d)).foldl (· + ·) 0 ≤ 2 ^ 40 - 1
    decide
  case fusVkey =>
    change (if i / 4 = 0 then (0 : BitVec 256) else 0).toNat / 2 ^ (64 * (i % 4)) % 2 ^ 64 ≤ 0
    simp
  case fusOwnkey =>
    change (0 : BitVec 256).toNat / 2 ^ (64 * i) % 2 ^ 64 ≤ 0
    simp
  all_goals exact le_refl _

theorem Fld.reset_lt {f : Fld} (h : f.roomy = true) (i : Nat) : Fld.reset State.reset f i < 2 ^ f.width := by
  unfold Fld.roomy at h
  split at h
  next n hr => simpa [Fld.reset, hr] using h
  next hr => simp [Fld.reset, hr, State.reset]
  next hr =>
    split at h
    next hk => simpa [Fld.reset, hr, hk] using h
    next hk => exact (reset_fuseMax f i hr hk).trans_lt (of_decide_eq_true h)

theorem reset_reg (k : RegKind) (i : Nat) : State.reset.reg k i = fieldSum (fun f => Fld.reset State.reset f i) k.fields := by
  show regReset State.reset k i = _
  rw [regReset, foldl_fields (fun f => Fld.reset State.reset f i), Nat.zero_add]

/-- Settles O55: a register the store does not list is the sum of its fields' values. -/
theorem resetRegisters : Obligations.ResetRegisters := by
  have hfit (k : RegKind) (i : Nat) : fieldsFit (fun f => Fld.reset State.reset f i) k.fields :=
    fun f hf => Fld.reset_lt (k.fields_roomy f hf) i
  refine ⟨fun k i n f hf hn => ?_, fun k i b _ hb => ?_, ?_, rfl, ?_, rfl, rfl⟩
  · rw [State.fld, k.kind_of_mem_fields f hf, reset_reg, bits_fieldSum k.fieldsFall (hfit k i) hf]
    simp [Fld.reset, hn]
  · rw [reset_reg, testBit_fieldSum_outside k.fieldsFall (hfit k i) hb]
  · decide +kernel
  · decide +kernel
end Sys2Proof.Machine
end

section
/-!
The S slot: results, loops, generators, the descriptor file, and how results reach their registers (R54 to R73); time.
-/
namespace Sys2Proof.Machine
set_option Elab.async false

/-! ## Operations that read no generator (R54, R62, R65, R70, R71) -/

/-- An operation of the S slot that acts answers its effect on the state as it stands. -/
theorem State.slotOut_of_acts {s : State} {t : Xy} {i : Instr} {eff supp : State → State} (h : s.slotActs t i = true)
    (hr : readsGens i = false) : s.slotOut t i eff supp = .next (eff s) := by
  rw [State.slotOut_acts h, State.asIssued_other hr]

/-- A predicate's result as a word. -/
theorem ofNat_b2n (b : Bool) : BitVec.ofNat 64 (b2n b) = if b then (1 : Word) else 0 := by cases b <;> rfl

/-- Settles O6: each operation acts, and its effect is one result, or one event. -/
theorem scalarOperationsIssueResults : Obligations.ScalarOperationsIssueResults := by
  intro s t pr
  refine ⟨fun _ h => State.slotOut_of_acts h rfl, fun _ h => State.slotOut_of_acts h rfl,
    fun _ _ _ _ _ h => State.slotOut_of_acts h rfl, fun _ _ _ _ h => State.slotOut_of_acts h rfl, ?cmp, ?cmpi, ?plog,
    fun _ _ h => State.slotOut_of_acts h rfl⟩
  case cmp => intro rel pd sa sb h; rw [← ofNat_b2n]; exact State.slotOut_of_acts h rfl
  case cmpi => intro rel pd sa imm h; rw [← ofNat_b2n]; exact State.slotOut_of_acts h rfl
  case plog => intro pd pa pb tt h; rw [← ofNat_b2n]; exact State.slotOut_of_acts h rfl

/-! ## Loops and descriptors (R66, R70, R73) -/

/-- The strides a level takes when it opens: those of the descriptor file that are not zero. -/
def Tile.strides (t : Tile) (l : Nat) (n : Nat) : SMap (BitVec 32) :=
  (List.range n).foldl (fun m a =>
    let v := mget t.dstride (16 * l + a) 0
    if v = 0 then m else mput m a v) []

theorem Tile.mget_strides (t : Tile) (l n a : Nat) :
    mget (t.strides l n) a 0 = if a < n then mget t.dstride (16 * l + a) 0 else 0 := by
  induction n with
  | zero => rfl
  | succ n ih =>
    have hstep : t.strides l (n + 1) =
        if mget t.dstride (16 * l + n) 0 = 0 then t.strides l n else mput (t.strides l n) n (mget t.dstride (16 * l + n) 0) := by
      simp only [Tile.strides, List.range_succ, List.foldl_append, List.foldl_cons, List.foldl_nil]
    rw [hstep]
    by_cases hz : mget t.dstride (16 * l + n) 0 = 0
    · rw [if_pos hz, ih]
      by_cases ha : a = n
      · subst ha; simpa using hz.symm
      · simp only [show a < n + 1 ↔ a < n by omega]
    · rw [if_neg hz]
      by_cases ha : a = n
      · subst ha; simp
      · rw [mget_mput_ne _ _ _ ha, ih]
        simp only [show a < n + 1 ↔ a < n by omega]

theorem Tile.openLoop_of_pos (t : Tile) (l c b : Nat) (hc : c ≠ 0) : t.openLoop l c b =
    { t with pc := t.issuePc + 1, moved := true, lvls := mput t.lvls l ⟨true, 0, c, t.issuePc + 1, t.issuePc + b, t.strides l 16⟩ } := by
  unfold Tile.openLoop
  rw [if_neg hc]
  rfl

/-- What is kept for the other slots of the triple leaves the loop levels, the program counter and the descriptor file. -/
theorem Tile.keepWas_fields (t : Tile) (c : Nat) : (t.keepWas c).issuePc = t.issuePc ∧ (t.keepWas c).lvls = t.lvls ∧
    (t.keepWas c).dstride = t.dstride := by
  unfold Tile.keepWas
  split
  · split <;> exact ⟨rfl, rfl, rfl⟩
  · exact ⟨rfl, rfl, rfl⟩

/-- Freeing the block ring's places changes no tile. -/
theorem State.tile_releaseRing (s : State) (t : Xy) (y : Nat) : (s.releaseRing t).tile y = s.tile y := by
  unfold State.releaseRing State.releasePassed
  split
  · simp
  · rfl

/-- A note on a level of the descriptor file is the event of an active level, and nothing else. -/
theorem State.descNote_setTile (s : State) (y l : Nat) (stride : Bool) (ag : Nat) (T : Tile) :
    (s.setTile y T).descNote y l stride ag =
      if (T.lvl l).active then (s.setTile y T).descEvent y T.issuePc l stride ag else s.setTile y T := by
  simp [State.descNote]

/-- The levels, after one has opened with a count of at least 1. -/
theorem Tile.openLoop_opened (T : Tile) (c now b : Nat) (l : Fin 4) (hc : 1 ≤ c) :
    let U := (T.keepWas now).openLoop l c b
    U.pc = T.issuePc + 1 ∧ (U.lvl l).active = true ∧ (U.lvl l).idx = 0 ∧ (U.lvl l).count = c ∧
      (U.lvl l).first = T.issuePc + 1 ∧ (U.lvl l).last = T.issuePc + b ∧
      (∀ a < 16, mget (U.lvl l).strides a 0 = mget T.dstride (16 * l + a) 0) ∧ (∀ k, k ≠ l.val → U.lvl k = T.lvl k) := by
  obtain ⟨hpc, hlvls, hstr⟩ := T.keepWas_fields now
  simp only [Tile.openLoop_of_pos _ _ _ _ (by omega : c ≠ 0), Tile.lvl, mget_mput_same, hpc, hlvls]
  refine ⟨trivial, trivial, trivial, trivial, trivial, trivial, fun a ha => ?_, fun k hk => mget_mput_ne _ _ _ hk⟩
  rw [Tile.mget_strides, if_pos ha, hstr]

/-- Settles O10: `loop` and `loopd` open the level (`Tile.openLoop_opened`), and the other operations change one entry of a generator
or of the descriptor file, with the event of an active level. -/
theorem loopsAndGenerators : Obligations.LoopsAndGenerators := by
  intro s t pr
  refine ⟨fun l c b h hc => ⟨_, State.slotOut_of_acts h rfl, ?_⟩, fun l b h hc => ⟨_, State.slotOut_of_acts h rfl, ?_⟩,
    fun _ _ h => State.slotOut_of_acts h rfl, fun _ _ h => State.slotOut_of_acts h rfl, fun _ _ h => State.slotOut_of_acts h rfl,
    fun _ _ _ h => State.slotOut_of_acts h rfl, fun l c h => ?_, fun l ag sa h => ?_, fun l ag imm h => ?_⟩
  · beta_reduce
    rw [State.tile_releaseRing, State.modTile_same]
    exact Tile.openLoop_opened _ _ _ _ l hc
  · beta_reduce
    rw [State.tile_releaseRing, State.modTile_same]
    exact Tile.openLoop_opened _ _ _ _ l hc
  · exact (State.slotOut_of_acts h rfl).trans (congrArg _ (State.descNote_setTile ..))
  · exact (State.slotOut_of_acts h rfl).trans (congrArg _ (State.descNote_setTile ..))
  · exact (State.slotOut_of_acts h rfl).trans (congrArg _ (State.descNote_setTile ..))

/-! ## Results and registers (R58, R60, R61) -/

theorem Tile.setS_s (t : Tile) {n : Nat} (v : Word) (m : Nat) (hn : 0 < n) : (t.setS n v).s m = if m = n then v else t.s m := by
  rw [Tile.setS, if_neg hn.ne']
  by_cases h : m = n
  · subst h; simp [Tile.s, hn.ne']
  · simp [Tile.s, mget_mput_ne _ _ _ h, h]

theorem Tile.setP_p (t : Tile) {n : Nat} (b : Bool) {m : Nat} (hn : 0 < n) (hm : m < 16) :
    (t.setP n b).p m = if m = n then b else t.p m := by
  rw [Tile.setP, if_neg hn.ne']
  simp only [Tile.p, BitVec.getLsbD_ofNat, hm, decide_true, Bool.true_and, testBit_putBits _ _ _ _ _ (le_refl n)]
  by_cases h : m = n
  · subst h; cases b <;> simp [b2n, hn.ne']
  · rw [if_neg (by omega), if_neg h]; rfl

/-- What a result that reaches its register leaves of the tile. -/
def Tile.landed (t : Tile) (o : OutWrite) : Tile := if o.pred then t.setP o.reg (o.val != 0) else t.setS o.reg o.val

/-- The register of a result reads its value. -/
def Tile.shows (t : Tile) (o : OutWrite) : Prop := if o.pred then t.p o.reg = (o.val != 0) else t.s o.reg = o.val

/-- A result due, for a register that is no constant. -/
def OutWrite.lands (o : OutWrite) (c : Nat) : Prop :=
  o.due ≤ c ∧ o.run = 0 ∧ o.dead = false ∧ 0 < o.reg ∧ (o.pred = true → o.reg < 16)

theorem Tile.landed_outs (t : Tile) (o : OutWrite) : (t.landed o).outs = t.outs := by
  unfold Tile.landed Tile.setP Tile.setS
  split <;> split <;> rfl

theorem Tile.s_landed (t : Tile) (o : OutWrite) (n : Nat) (ho : 0 < o.reg) :
    (t.landed o).s n = if o.pred = false ∧ n = o.reg then o.val else t.s n := by
  unfold Tile.landed
  cases o.pred
  · simp [Tile.setS_s _ _ _ ho]
  · simp only [if_true, Bool.true_eq_false, false_and, if_false]
    unfold Tile.setP; split <;> rfl

theorem Tile.p_landed (t : Tile) (o : OutWrite) {n : Nat} (ho : 0 < o.reg) (hn : n < 16) :
    (t.landed o).p n = if o.pred = true ∧ n = o.reg then o.val != 0 else t.p n := by
  unfold Tile.landed
  cases o.pred
  · simp only [Bool.false_eq_true, if_false, false_and]
    unfold Tile.setS; split <;> rfl
  · simp [Tile.setP_p _ _ ho hn]

/-- What RESULT_WRITEBACK does with one outstanding result. -/
def Tile.writeOne (c : Nat) (t : Tile) (o : OutWrite) : Tile :=
  if o.due ≤ c ∧ o.run = 0 then
    let t := if o.dead then t else t.landed o
    { t with outs := t.outs.map fun o' => if o'.pred = o.pred ∧ o'.reg = o.reg then { o' with dead := true } else o' }
  else { t with outs := t.outs ++ [o] }

theorem Tile.writeback_eq (c : Nat) (t : Tile) : t.writeback c = t.outs.foldl (Tile.writeOne c) { t with outs := [] } := rfl

theorem Tile.writeOne_of_lands {c : Nat} {t : Tile} {o : OutWrite} (ht : t.outs = []) (ho : o.lands c) :
    t.writeOne c o = t.landed o := by
  obtain ⟨hdue, hrun, hdead, -, -⟩ := ho
  have hland : (t.landed o).outs = [] := by rw [Tile.landed_outs, ht]
  simp only [Tile.writeOne, hdue, hrun, hdead, and_self, if_true, Bool.false_eq_true, if_false, hland, List.map_nil]
  rw [← hland]

/-- While every outstanding result is due, each reaches its register in turn. -/
theorem foldl_writeOne {c : Nat} (os : List OutWrite) (t : Tile) (ht : t.outs = []) (ho : ∀ o ∈ os, o.lands c) :
    os.foldl (Tile.writeOne c) t = os.foldl Tile.landed t := by
  induction os generalizing t with
  | nil => rfl
  | cons o os ih =>
    rw [List.foldl_cons, List.foldl_cons, Tile.writeOne_of_lands ht (ho o (.head _)),
      ih _ (by rw [Tile.landed_outs, ht]) fun o' h => ho o' (.tail _ h)]

theorem foldl_landed_outs (os : List OutWrite) (t : Tile) : (os.foldl Tile.landed t).outs = t.outs := by
  induction os generalizing t with
  | nil => rfl
  | cons o os ih => rw [List.foldl_cons, ih, Tile.landed_outs]

theorem foldl_landed_s {c : Nat} (os : List OutWrite) (t : Tile) (n : Nat) (ho : ∀ o ∈ os, o.lands c)
    (hn : ∀ o ∈ os, o.pred = true ∨ o.reg ≠ n) : (os.foldl Tile.landed t).s n = t.s n := by
  induction os generalizing t with
  | nil => rfl
  | cons o os ih =>
    obtain ⟨-, -, -, hpos, -⟩ := ho o (.head _)
    rw [List.foldl_cons, ih _ (fun o h => ho o (.tail _ h)) (fun o h => hn o (.tail _ h)), Tile.s_landed _ _ _ hpos, if_neg]
    rintro ⟨hp, rfl⟩
    simpa [hp] using hn o (.head _)

theorem foldl_landed_p {c : Nat} (os : List OutWrite) (t : Tile) {n : Nat} (hn16 : n < 16) (ho : ∀ o ∈ os, o.lands c)
    (hn : ∀ o ∈ os, o.pred = false ∨ o.reg ≠ n) : (os.foldl Tile.landed t).p n = t.p n := by
  induction os generalizing t with
  | nil => rfl
  | cons o os ih =>
    obtain ⟨-, -, -, hpos, -⟩ := ho o (.head _)
    rw [List.foldl_cons, ih _ (fun o h => ho o (.tail _ h)) (fun o h => hn o (.tail _ h)), Tile.p_landed _ _ hpos hn16, if_neg]
    rintro ⟨hp, rfl⟩
    simpa [hp] using hn o (.head _)

theorem OutWrite.elsewhere {o o' : OutWrite} (h : (o.pred, o.reg) ≠ (o'.pred, o'.reg)) : o'.pred ≠ o.pred ∨ o'.reg ≠ o.reg := by
  by_contra hc
  push Not at hc
  exact h (by rw [hc.1, hc.2])

/-- Of results to different registers each one's register reads its value. -/
theorem foldl_landed_holds {c : Nat} (os : List OutWrite) (t : Tile) (ho : ∀ o ∈ os, o.lands c)
    (hne : os.Pairwise fun o o' => (o.pred, o.reg) ≠ (o'.pred, o'.reg)) : ∀ o ∈ os, (os.foldl Tile.landed t).shows o := by
  induction os generalizing t with
  | nil => intro o h; cases h
  | cons o os ih =>
    obtain ⟨hfirst, hrest⟩ := List.pairwise_cons.mp hne
    have hlater : ∀ o' ∈ os, o'.lands c := fun o' h => ho o' (.tail _ h)
    intro q hq
    obtain _ | ⟨_, hq⟩ := hq
    · obtain ⟨-, -, -, hpos, h16⟩ := ho o (.head _)
      rw [List.foldl_cons, Tile.shows]
      cases hp : o.pred
      · have hother : ∀ o' ∈ os, o'.pred = true ∨ o'.reg ≠ o.reg := fun o' h =>
          (OutWrite.elsewhere (hfirst o' h)).imp_left fun hd => by simpa [hp] using hd
        simp [foldl_landed_s os _ _ hlater hother, Tile.s_landed _ _ _ hpos, hp]
      · have hother : ∀ o' ∈ os, o'.pred = false ∨ o'.reg ≠ o.reg := fun o' h =>
          (OutWrite.elsewhere (hfirst o' h)).imp_left fun hd => by simpa [hp] using hd
        simp [foldl_landed_p os _ (h16 hp) hlater hother, Tile.p_landed _ _ hpos (h16 hp), hp]
    · exact ih _ hlater hrest q hq

/-- Settles O7: the results due land in turn (`foldl_writeOne`), and each register reads the last value that reached it. -/
theorem resultsReachRegisters : Obligations.ResultsReachRegisters := by
  refine ⟨⟨fun s y pred r v l => rfl, fun s t hheld hdue hne => ?_⟩, fun t => ⟨rfl, rfl, fun _ => rfl, fun _ => rfl,
    fun n v m hn => t.setS_s v m hn, fun n b m hn _ hm => t.setP_p b hn hm⟩⟩
  have hw : Tile.writeback s.sched (s.tile (tIx t)) =
      (s.tile (tIx t)).outs.foldl Tile.landed { s.tile (tIx t) with outs := [] } := by
    rw [Tile.writeback_eq, foldl_writeOne _ _ rfl hdue]
  refine ⟨s.modTile (tIx t) (Tile.writeback s.sched), ?_, ?_⟩
  · simp [exec, execResultWriteback, hheld]
  beta_reduce
  rw [State.modTile_same, hw]
  refine ⟨foldl_landed_outs _ _, foldl_landed_holds _ _ hdue hne, fun n hn => foldl_landed_s _ _ n hdue hn,
    fun n hn hne => foldl_landed_p _ _ hn hdue hne, ?_⟩
  rw [State.modTile, hw]

/-! ## Time (R213, R214) -/

/-- A module whose clock runs, with a register write of the cycle kept whose index lies past its kind's registers: it meets PTC_COUNT. -/
def strayWrite : State :=
  { State.reset with
    boot := { State.reset.boot with stage := 4 }
    pwr := { State.reset.pwr with stage := true }
    written := [{ reg := ⟨.tilPadctl, 20 * 2 ^ 32⟩, val := 0x11 }] }

/-- Refutes O21: the statement does not bound the indices of the register writes kept for the end of the cycle (R19), and one that lies
past its kind's registers is made again on PTC_COUNT before the counter moves on. -/
theorem not_timeAdvances : ¬ Obligations.TimeAdvances := by
  rintro ⟨h, -⟩
  have := (h strayWrite _ rfl (by decide +kernel) (by intro q hq; cases hq) rfl).1
  exact absurd this (by decide +kernel)
end Sys2Proof.Machine
end

section
/-!
What a command can change: the footprint of an operation, as the set of the parts of the state that it may leave different, and the one
relation, `Chg`, that every operation of the model is shown to keep to its footprint, keeping the two data invariants as it does. The
invariants of every step and the frames of the commands are read off from it.
-/
namespace Sys2Proof.Machine

set_option Elab.async false

/-! ## Footprints -/

/-- A set of parts of the state; `slots` stands for what of `boot` a reset keeps: the firmware slots and the policy. -/
structure Foot where
  (pending : Bool := false) (regs : Bool := false) (reqs : Bool := false) (park : Bool := false) (hold : Bool := false)
  (regions : Bool := false) (tiles : Bool := false) (gals : Bool := false) (mpkts : Bool := false) (accs : Bool := false)
  (chans : Bool := false) (anx : Bool := false) (ext : Bool := false) (hostMem : Bool := false) (dma : Bool := false)
  (bankOut : Bool := false) (fns : Bool := false) (irqs : Bool := false) (img : Bool := false) (loading : Bool := false)
  (plans : Bool := false) (links : Bool := false) (fab : Bool := false) (engs : Bool := false) (wts : Bool := false)
  (mir : Bool := false) (clk : Bool := false) (pwr : Bool := false) (boot : Bool := false) (milug : Bool := false)
  (fuses : Bool := false) (occ : Bool := false) (boundaryAsk : Bool := false) (scanAt : Bool := false) (scans : Bool := false)
  (vfs : Bool := false) (scanDue : Bool := false) (written : Bool := false) (heldRuns : Bool := false) (nextId : Bool := false)
  (freeCtr : Bool := false) (slots : Bool := false)

/-- Either set's parts. -/
def Foot.or (P Q : Foot) : Foot where
  pending := P.pending || Q.pending; regs := P.regs || Q.regs; reqs := P.reqs || Q.reqs; park := P.park || Q.park
  hold := P.hold || Q.hold; regions := P.regions || Q.regions; tiles := P.tiles || Q.tiles; gals := P.gals || Q.gals
  mpkts := P.mpkts || Q.mpkts; accs := P.accs || Q.accs; chans := P.chans || Q.chans; anx := P.anx || Q.anx; ext := P.ext || Q.ext
  hostMem := P.hostMem || Q.hostMem; dma := P.dma || Q.dma; bankOut := P.bankOut || Q.bankOut; fns := P.fns || Q.fns
  irqs := P.irqs || Q.irqs; img := P.img || Q.img; loading := P.loading || Q.loading; plans := P.plans || Q.plans
  links := P.links || Q.links; fab := P.fab || Q.fab; engs := P.engs || Q.engs; wts := P.wts || Q.wts; mir := P.mir || Q.mir
  clk := P.clk || Q.clk; pwr := P.pwr || Q.pwr; boot := P.boot || Q.boot; milug := P.milug || Q.milug; fuses := P.fuses || Q.fuses
  occ := P.occ || Q.occ; boundaryAsk := P.boundaryAsk || Q.boundaryAsk; scanAt := P.scanAt || Q.scanAt
  scans := P.scans || Q.scans; vfs := P.vfs || Q.vfs; scanDue := P.scanDue || Q.scanDue; written := P.written || Q.written
  heldRuns := P.heldRuns || Q.heldRuns; nextId := P.nextId || Q.nextId; freeCtr := P.freeCtr || Q.freeCtr
  slots := P.slots || Q.slots

/-- The state `s` with the parts in `P` as `u` has them. -/
def State.within (P : Foot) (s u : State) : State where
  pending := bif P.pending then u.pending else s.pending; regs := bif P.regs then u.regs else s.regs
  reqs := bif P.reqs then u.reqs else s.reqs; park := bif P.park then u.park else s.park
  hold := bif P.hold then u.hold else s.hold; regions := bif P.regions then u.regions else s.regions
  tiles := bif P.tiles then u.tiles else s.tiles; gals := bif P.gals then u.gals else s.gals
  mpkts := bif P.mpkts then u.mpkts else s.mpkts; accs := bif P.accs then u.accs else s.accs
  chans := bif P.chans then u.chans else s.chans; anx := bif P.anx then u.anx else s.anx; ext := bif P.ext then u.ext else s.ext
  hostMem := bif P.hostMem then u.hostMem else s.hostMem; dma := bif P.dma then u.dma else s.dma
  bankOut := bif P.bankOut then u.bankOut else s.bankOut; fns := bif P.fns then u.fns else s.fns
  irqs := bif P.irqs then u.irqs else s.irqs; img := bif P.img then u.img else s.img
  loading := bif P.loading then u.loading else s.loading; plans := bif P.plans then u.plans else s.plans
  links := bif P.links then u.links else s.links; fab := bif P.fab then u.fab else s.fab
  engs := bif P.engs then u.engs else s.engs; wts := bif P.wts then u.wts else s.wts; mir := bif P.mir then u.mir else s.mir
  clk := bif P.clk then u.clk else s.clk; pwr := bif P.pwr then u.pwr else s.pwr; boot := bif P.boot then u.boot else s.boot
  milug := bif P.milug then u.milug else s.milug; fuses := bif P.fuses then u.fuses else s.fuses
  occ := bif P.occ then u.occ else s.occ; boundaryAsk := bif P.boundaryAsk then u.boundaryAsk else s.boundaryAsk
  scanAt := bif P.scanAt then u.scanAt else s.scanAt; scans := bif P.scans then u.scans else s.scans
  vfs := bif P.vfs then u.vfs else s.vfs; scanDue := bif P.scanDue then u.scanDue else s.scanDue
  written := bif P.written then u.written else s.written; heldRuns := bif P.heldRuns then u.heldRuns else s.heldRuns
  nextId := bif P.nextId then u.nextId else s.nextId; freeCtr := bif P.freeCtr then u.freeCtr else s.freeCtr

theorem cond_cond_of_or {α : Type} {p q : Bool} {s u : α} : (bif p || q then bif p then u else s else s) = bif p then u else s := by
  cases p <;> cases q <;> rfl

theorem cond_cond_same {α : Type} {p : Bool} {s u v : α} : (bif p then v else bif p then u else s) = bif p then v else s := by
  cases p <;> rfl

theorem State.within_or (P Q : Foot) (s u : State) : s.within (P.or Q) (s.within P u) = s.within P u := by
  simp only [State.within, Foot.or, cond_cond_of_or]

theorem State.within_within (P : Foot) (s u v : State) : (s.within P u).within P v = s.within P v := by
  simp only [State.within, cond_cond_same]

theorem State.within_self (P : Foot) (s : State) : s.within P s = s := by
  simp only [State.within, Bool.cond_self]

/-! ## The relation -/

/-- The scratchpad of a tile that was in its canonical form is so still. -/
structure TChg (T U : Tile) : Prop where
  scratch : memWf T.scratch = true → memWf U.scratch = true

/-- A state changed in the parts of `P` alone, with its data invariants kept. -/
structure Chg (P : Foot) (s u : State) : Prop where
  same : u = s.within P u
  slots : P.slots = false → u.boot.slotA = s.boot.slotA ∧ u.boot.slotB = s.boot.slotB ∧ u.boot.policy = s.boot.policy
  mem : MemInv s → MemInv u
  stores : StoreInv s → StoreInv u

namespace TChg

variable {T U V : Tile}

theorem refl : TChg T T := ⟨id⟩

/-- One more operation. -/
theorem via (h : TChg T U) (k : TChg U V) : TChg T V := ⟨k.scratch ∘ h.scratch⟩

/-- Fields set, none of them the scratchpad. -/
theorem plain (hs : U.scratch = T.scratch := by rfl) : TChg T U := ⟨fun h => hs ▸ h⟩

theorem ite {c : Prop} [Decidable c] (h : TChg T U) (k : TChg T V) : TChg T (if c then U else V) := by
  split <;> assumption

theorem foldl {α : Type} {g : Tile → α → Tile} (hg : ∀ V x, TChg V (g V x)) (l : List α) (h : TChg T U) : TChg T (l.foldl g U) := by
  induction l generalizing U with
  | nil => exact h
  | cons x l ih => exact ih (h.via (hg U x))

end TChg

namespace Chg

variable {P Q : Foot} {s u v : State}

theorem refl : Chg P s s := ⟨(s.within_self P).symm, fun _ => ⟨rfl, rfl, rfl⟩, id, id⟩

/-- A wider set of parts. -/
theorem mono (h : Chg P s u) (hle : P.or Q = Q := by rfl) : Chg Q s u where
  same := by rw [h.same, ← hle, s.within_or]
  slots hQ := h.slots (by
    rw [← hle] at hQ
    exact (Bool.or_eq_false_iff.1 hQ).1)
  mem := h.mem
  stores := h.stores

theorem trans (h : Chg P s u) (k : Chg P u v) : Chg P s v where
  same := by
    have hv := k.same
    rw [h.same, State.within_within] at hv
    exact hv
  slots hP := by
    obtain ⟨hA, hB, hp⟩ := k.slots hP
    obtain ⟨kA, kB, kp⟩ := h.slots hP
    exact ⟨hA.trans kA, hB.trans kB, hp.trans kp⟩
  mem := k.mem ∘ h.mem
  stores := k.stores ∘ h.stores

/-- One more operation, of a smaller footprint. -/
theorem via (h : Chg P s u) (k : Chg Q u v) (hle : Q.or P = P := by rfl) : Chg P s v := h.trans (k.mono hle)

theorem ite {c : Prop} [Decidable c] (h : Chg P s u) (k : Chg P s v) : Chg P s (if c then u else v) := by
  split <;> assumption

theorem foldl {α : Type} {g : State → α → State} (hg : ∀ v x, Chg P v (g v x)) (l : List α) (h : Chg P s u) :
    Chg P s (l.foldl g u) := by
  induction l generalizing u with
  | nil => exact h
  | cons x l ih => exact ih (h.trans (hg u x))

/-! ## The updates of the state -/

/-- Parts set that hold neither a memory nor a store of `StoreInv`. -/
theorem plain (h : v = u.within P v := by rfl) (ht : v.tiles = u.tiles := by rfl) (hb : v.boot = u.boot := by rfl)
    (hm : v.milug.staging = u.milug.staging := by rfl) (he : v.ext = u.ext := by rfl) (hh : v.hostMem = u.hostMem := by rfl)
    (hr : v.regs = u.regs := by rfl) (hg : v.regions = u.regions := by rfl) (hl : v.gals = u.gals := by rfl)
    (hc : v.chans = u.chans := by rfl) (hd : v.dma = u.dma := by rfl) (hf : v.fns = u.fns := by rfl)
    (hk : v.links = u.links := by rfl) (hn : v.engs = u.engs := by rfl) : Chg P u v where
  same := h
  slots _ := by simp only [hb, and_self]
  mem i := ⟨he ▸ i.ext, hh ▸ i.host, fun y => by simpa only [State.tile, ht] using i.scratch y, hb ▸ i.slotA, hb ▸ i.slotB, hm ▸ i.staging⟩
  stores i := ⟨hr ▸ i.regs, hg ▸ i.regions, ht ▸ i.tiles, hl ▸ i.gals, hc ▸ i.chans, hd ▸ i.dma, hf ▸ i.fns, hk ▸ i.links, hn ▸ i.engs⟩

theorem setRegs {r : SMap (BitVec 64)} (hr : keysRise u.regs = true → keysRise r = true) : Chg { regs := true } u { u with regs := r } where
  same := rfl
  slots _ := ⟨rfl, rfl, rfl⟩
  mem i := ⟨i.ext, i.host, i.scratch, i.slotA, i.slotB, i.staging⟩
  stores i := { i with regs := hr i.regs }

theorem setRegions {r : SMap Region} (hr : keysRise u.regions = true → keysRise r = true) :
    Chg { regions := true } u { u with regions := r } where
  same := rfl
  slots _ := ⟨rfl, rfl, rfl⟩
  mem i := ⟨i.ext, i.host, i.scratch, i.slotA, i.slotB, i.staging⟩
  stores i := { i with regions := hr i.regions }

theorem setGals {r : SMap Gallery} (hr : keysRise u.gals = true → keysRise r = true) : Chg { gals := true } u { u with gals := r } where
  same := rfl
  slots _ := ⟨rfl, rfl, rfl⟩
  mem i := ⟨i.ext, i.host, i.scratch, i.slotA, i.slotB, i.staging⟩
  stores i := { i with gals := hr i.gals }

theorem setChans {r : SMap ChanSt} (hr : keysRise u.chans = true → keysRise r = true) : Chg { chans := true } u { u with chans := r } where
  same := rfl
  slots _ := ⟨rfl, rfl, rfl⟩
  mem i := ⟨i.ext, i.host, i.scratch, i.slotA, i.slotB, i.staging⟩
  stores i := { i with chans := hr i.chans }

theorem setDma {r : SMap DmaChan} (hr : keysRise u.dma = true → keysRise r = true) : Chg { dma := true } u { u with dma := r } where
  same := rfl
  slots _ := ⟨rfl, rfl, rfl⟩
  mem i := ⟨i.ext, i.host, i.scratch, i.slotA, i.slotB, i.staging⟩
  stores i := { i with dma := hr i.dma }

theorem setFns {r : SMap Func} (hr : keysRise u.fns = true → keysRise r = true) : Chg { fns := true } u { u with fns := r } where
  same := rfl
  slots _ := ⟨rfl, rfl, rfl⟩
  mem i := ⟨i.ext, i.host, i.scratch, i.slotA, i.slotB, i.staging⟩
  stores i := { i with fns := hr i.fns }

theorem setLinks {r : SMap Link} (hr : keysRise u.links = true → keysRise r = true) : Chg { links := true } u { u with links := r } where
  same := rfl
  slots _ := ⟨rfl, rfl, rfl⟩
  mem i := ⟨i.ext, i.host, i.scratch, i.slotA, i.slotB, i.staging⟩
  stores i := { i with links := hr i.links }

theorem setEngs {r : SMap Engine} (hr : keysRise u.engs = true → keysRise r = true) : Chg { engs := true } u { u with engs := r } where
  same := rfl
  slots _ := ⟨rfl, rfl, rfl⟩
  mem i := ⟨i.ext, i.host, i.scratch, i.slotA, i.slotB, i.staging⟩
  stores i := { i with engs := hr i.engs }

theorem setExt {m : List Host.Cell} (hm : memWf u.ext = true → memWf m = true) : Chg { ext := true } u { u with ext := m } where
  same := rfl
  slots _ := ⟨rfl, rfl, rfl⟩
  mem i := ⟨hm i.ext, i.host, i.scratch, i.slotA, i.slotB, i.staging⟩
  stores i := { i with }

theorem setHostMem {m : List Host.Cell} (hm : memWf u.hostMem = true → memWf m = true) :
    Chg { hostMem := true } u { u with hostMem := m } where
  same := rfl
  slots _ := ⟨rfl, rfl, rfl⟩
  mem i := ⟨i.ext, hm i.host, i.scratch, i.slotA, i.slotB, i.staging⟩
  stores i := { i with }

/-- Boot set, the parts areas of the slots in their canonical form as before. -/
theorem setBoot {b : Boot} (hA : memWf u.boot.slotA.data = true → memWf b.slotA.data = true)
    (hB : memWf u.boot.slotB.data = true → memWf b.slotB.data = true) : Chg { boot := true, slots := true } u { u with boot := b } where
  same := rfl
  slots h := nomatch h
  mem i := ⟨i.ext, i.host, i.scratch, hA i.slotA, hB i.slotB, i.staging⟩
  stores i := { i with }

/-- Boot set, its slots and policy kept. -/
theorem setBootPlain {b : Boot} (hA : b.slotA = u.boot.slotA := by rfl) (hB : b.slotB = u.boot.slotB := by rfl)
    (hp : b.policy = u.boot.policy := by rfl) : Chg { boot := true } u { u with boot := b } where
  same := rfl
  slots _ := ⟨hA, hB, hp⟩
  mem i := ⟨i.ext, i.host, i.scratch, hA ▸ i.slotA, hB ▸ i.slotB, i.staging⟩
  stores i := { i with }

theorem setMilug {m : Milug} (hm : memWf u.milug.staging = true → memWf m.staging = true) :
    Chg { milug := true } u { u with milug := m } where
  same := rfl
  slots _ := ⟨rfl, rfl, rfl⟩
  mem i := ⟨i.ext, i.host, i.scratch, i.slotA, i.slotB, hm i.staging⟩
  stores i := { i with }

/-- One tile changed. -/
theorem setTile {y : Nat} {T : Tile} (hT : TChg (u.tile y) T) : Chg { tiles := true } u (u.setTile y T) where
  same := rfl
  slots _ := ⟨rfl, rfl, rfl⟩
  mem i := ⟨i.ext, i.host, fun z => by
    by_cases h : z = y
    · subst h; simpa only [State.setTile_same] using hT.scratch (i.scratch z)
    · simpa only [State.setTile_ne _ _ _ h] using i.scratch z, i.slotA, i.slotB, i.staging⟩
  stores i := { i with tiles := keysRise_mput y T i.tiles }

theorem modTile {y : Nat} {f : Tile → Tile} (hT : TChg (u.tile y) (f (u.tile y))) : Chg { tiles := true } u (u.modTile y f) := setTile hT

theorem setReg {k : RegKind} {i n : Nat} : Chg { regs := true } u (u.setReg k i n) := setRegs (keysRise_mput _ _)
theorem setFld {f : Fld} {i n : Nat} : Chg { regs := true } u (u.setFld f i n) := setReg
theorem satAdd {f : Fld} {i n : Nat} : Chg { regs := true } u (u.satAdd f i n) := setFld
theorem wrapAdd {f : Fld} {i n : Nat} : Chg { regs := true } u (u.wrapAdd f i n) := setFld
theorem rwWrite {k : RegKind} {i n : Nat} : Chg { regs := true } u (u.rwWrite k i n) := setReg
theorem modRegion {n : Nat} {f : Region → Region} : Chg { regions := true } u (u.modRegion n f) := setRegions (keysRise_mput _ _)
theorem modGal {n : Nat} {f : Gallery → Gallery} : Chg { gals := true } u (u.modGal n f) := setGals (keysRise_mput _ _)
theorem modChan {n : Nat} {f : ChanSt → ChanSt} : Chg { chans := true } u (u.modChan n f) := setChans (keysRise_mput _ _)
theorem modAnnex {n : Nat} {f : AnnexPort → AnnexPort} : Chg { anx := true } u (u.modAnnex n f) := plain
theorem modDma {n : Nat} {f : DmaChan → DmaChan} : Chg { dma := true } u (u.modDma n f) := setDma (keysRise_mput _ _)
theorem modFunc {n : Nat} {f : Func → Func} : Chg { fns := true } u (u.modFunc n f) := setFns (keysRise_mput _ _)
theorem modLink {n : Nat} {f : Link → Link} : Chg { links := true } u (u.modLink n f) := setLinks (keysRise_mput _ _)
theorem modEng {n : Nat} {f : Engine → Engine} : Chg { engs := true } u (u.modEng n f) := setEngs (keysRise_mput _ _)
theorem modFdie {n : Nat} {f : FabDie → FabDie} : Chg { fab := true } u (u.modFdie n f) := plain
theorem modFab {f : Fab → Fab} : Chg { fab := true } u (u.modFab f) := plain
theorem modWts {f : Weights → Weights} : Chg { wts := true } u (u.modWts f) := plain
theorem modMir {f : Mirror → Mirror} : Chg { mir := true } u (u.modMir f) := plain
theorem modClk {f : Clocks → Clocks} : Chg { clk := true } u (u.modClk f) := plain
theorem modPwr {f : PowerSt → PowerSt} : Chg { pwr := true } u (u.modPwr f) := plain

theorem modBoot {f : Boot → Boot} (hA : memWf u.boot.slotA.data = true → memWf (f u.boot).slotA.data = true)
    (hB : memWf u.boot.slotB.data = true → memWf (f u.boot).slotB.data = true) : Chg { boot := true, slots := true } u (u.modBoot f) :=
  setBoot hA hB

theorem modBootPlain {f : Boot → Boot} (hA : (f u.boot).slotA = u.boot.slotA := by rfl) (hB : (f u.boot).slotB = u.boot.slotB := by rfl)
    (hp : (f u.boot).policy = u.boot.policy := by rfl) : Chg { boot := true } u (u.modBoot f) := setBootPlain hA hB hp

theorem modMilug {f : Milug → Milug} (hm : memWf u.milug.staging = true → memWf (f u.milug).staging = true) :
    Chg { milug := true } u (u.modMilug f) := setMilug hm

theorem modMilugPlain {f : Milug → Milug} (hm : (f u.milug).staging = u.milug.staging := by rfl) : Chg { milug := true } u (u.modMilug f) :=
  modMilug fun h => hm ▸ h

end Chg

/-! ## Commands -/

/-- The command answers a next state, changed in the parts of `P` alone. -/
def Does (P : Foot) (s : State) (o : Host.Outcome State Fault Refusal) : Prop := ∃ u, o = .next u ∧ Chg P s u

namespace Does

variable {P Q : Foot} {s u : State} {o o' : Host.Outcome State Fault Refusal}

theorem next (h : Chg P s u) : Does P s (.next u) := ⟨u, rfl, h⟩

theorem mono (h : Does P s o) (hle : P.or Q = Q := by rfl) : Does Q s o := by
  obtain ⟨u, rfl, hu⟩ := h
  exact .next (hu.mono hle)

/-- A command run on a state that has been changed before it. -/
theorem after (h : Chg P s u) (k : Does Q u o) (hle : Q.or P = P := by rfl) : Does P s o := by
  obtain ⟨v, rfl, hv⟩ := k
  exact .next (h.via hv hle)

theorem ite {c : Prop} [Decidable c] (h : Does P s o) (k : Does P s o') : Does P s (if c then o else o') := by
  split <;> assumption

end Does

end Sys2Proof.Machine
end

section
/-!
The footprint of the operations that take another operation as an argument, and of the updates of a tile that the loops of the model run.
-/
namespace Sys2Proof.Machine

set_option Elab.async false

/-- What every reset may change: all but the queue, the fuses, the host's memory, the firmware slots and the policy. -/
def Foot.resets : Foot where
  regs := true; reqs := true; park := true; hold := true; regions := true; tiles := true; gals := true; mpkts := true
  accs := true; chans := true; anx := true; ext := true; dma := true; bankOut := true; fns := true; irqs := true; img := true
  loading := true; plans := true; links := true; fab := true; engs := true; wts := true; mir := true; clk := true; pwr := true
  boot := true; milug := true; occ := true; boundaryAsk := true; scanAt := true; scans := true; vfs := true; scanDue := true
  written := true; heldRuns := true; nextId := true; freeCtr := true

/-- What the install of an image may change (R41). -/
def Foot.installs : Foot where
  regs := true; regions := true; tiles := true; gals := true; chans := true; ext := true; fns := true; img := true; plans := true
  links := true; fab := true; engs := true; wts := true; mir := true; pwr := true; freeCtr := true

/-! ## Stores and memories -/

/-- A store whose keys stay. -/
theorem keysRise_of_keys {α β : Type} {f : Nat × α → Nat × β} {m : SMap α} (h : keysRise m = true)
    (hf : ∀ e, (f e).1 = e.1 := by intro _; rfl) :
    keysRise (m.map f) = true := by
  induction m with
  | nil => rfl
  | cons e m ih =>
    obtain ⟨hlt, hm⟩ := keysRise_cons.1 h
    rw [List.map_cons, ← Prod.eta (f e), keysRise_cons]
    refine ⟨fun p hp => ?_, ih hm⟩
    obtain ⟨q, hq, rfl⟩ := List.mem_map.1 hp
    simpa only [hf] using hlt q hq

theorem keysRise_foldl {α β : Type} {g : SMap α → β → SMap α} (hg : ∀ m x, keysRise m = true → keysRise (g m x) = true) (l : List β)
    {m : SMap α} (h : keysRise m = true) : keysRise (l.foldl g m) = true := by
  induction l generalizing m with
  | nil => exact h
  | cons x l ih => exact ih (hg m x h)

theorem mfind_map_snd {α β : Type} (g : α → β) (m : SMap α) (k : Nat) : mfind (m.map fun e => (e.1, g e.2)) k = (mfind m k).map g := by
  induction m with
  | nil => rfl
  | cons e m ih =>
    simp only [List.map_cons, mfind]
    split
    · rfl
    · exact ih

theorem memWf_foldl {α : Type} {g : List Host.Cell → α → List Host.Cell} (hg : ∀ m x, memWf m = true → memWf (g m x) = true) (l : List α)
    {m : List Host.Cell} (h : memWf m = true) : memWf (l.foldl g m) = true := by
  induction l generalizing m with
  | nil => exact h
  | cons x l ih => exact ih (hg m x h)

namespace Chg

variable {P Q : Foot} {s u v : State}

/-- A pair that a condition decides. -/
theorem iteFst {α : Type} {p q : State × α} {c : Prop} [Decidable c] (h : Chg P s p.1) (k : Chg P s q.1) :
    Chg P s (if c then p else q).1 := by
  split <;> assumption

/-- Every tile changed alike, its scratchpad kept. -/
theorem mapTiles {u : State} {g : Tile → Tile} (hg : ∀ T, (g T).scratch = T.scratch) :
    Chg { tiles := true } u { u with tiles := u.tiles.map fun t => (t.1, g t.2) } where
  same := rfl
  slots _ := ⟨rfl, rfl, rfl⟩
  mem i := ⟨i.ext, i.host, fun y => by
    have h := i.scratch y
    simp only [State.tile, mget, mfind_map_snd] at h ⊢
    cases hy : mfind u.tiles y with
    | none => rfl
    | some T => simpa only [hy, Option.map_some, Option.getD_some, hg] using h, i.slotA, i.slotB, i.staging⟩
  stores i := { i with tiles := keysRise_of_keys i.tiles }

/-- One tile changed. -/
theorem onTile {y : Nat} {T : Tile} (h : Chg P s u) (hT : TChg (u.tile y) T) (hle : ({ tiles := true } : Foot).or P = P := by rfl) :
    Chg P s (u.setTile y T) := h.via (setTile hT) hle

theorem onModTile {y : Nat} {f : Tile → Tile} (h : Chg P s u) (hT : TChg (u.tile y) (f (u.tile y)))
    (hle : ({ tiles := true } : Foot).or P = P := by rfl) : Chg P s (u.modTile y f) := h.via (modTile hT) hle

theorem setReqs {x : List HoldReq} : Chg { reqs := true } u { u with reqs := x } := plain
theorem setPark {x : Option Park} : Chg { park := true } u { u with park := x } := plain
theorem setHold {x : Option (Nat × Nat × Nat)} : Chg { hold := true } u { u with hold := x } := plain
theorem setMpkts {x : List MPkt} : Chg { mpkts := true } u { u with mpkts := x } := plain
theorem setAccs {x : List QAcc} : Chg { accs := true } u { u with accs := x } := plain
theorem setAnx {x : SMap AnnexPort} : Chg { anx := true } u { u with anx := x } := plain
theorem setBankOut {x : SMap Nat} : Chg { bankOut := true } u { u with bankOut := x } := plain
theorem setIrqs {x : List (Nat × Nat × Nat)} : Chg { irqs := true } u { u with irqs := x } := plain
theorem setImg {x : Option Image} : Chg { img := true } u { u with img := x } := plain
theorem setLoading {x : Option Loading} : Chg { loading := true } u { u with loading := x } := plain
theorem setPlans {x : List Plan} : Chg { plans := true } u { u with plans := x } := plain
theorem setFab {x : Fab} : Chg { fab := true } u { u with fab := x } := plain
theorem setWts {x : Weights} : Chg { wts := true } u { u with wts := x } := plain
theorem setMir {x : Mirror} : Chg { mir := true } u { u with mir := x } := plain
theorem setClk {x : Clocks} : Chg { clk := true } u { u with clk := x } := plain
theorem setPwr {x : PowerSt} : Chg { pwr := true } u { u with pwr := x } := plain
theorem setFuses {x : Fuses} : Chg { fuses := true } u { u with fuses := x } := plain
theorem setOcc {x : Occ} : Chg { occ := true } u { u with occ := x } := plain
theorem setBoundaryAsk {x : List (Nat × Nat × Nat × Nat)} : Chg { boundaryAsk := true } u { u with boundaryAsk := x } := plain
theorem setScanAt {x : Nat} : Chg { scanAt := true } u { u with scanAt := x } := plain
theorem setScans {x : Nat} : Chg { scans := true } u { u with scans := x } := plain
theorem setVfs {x : Fin 16} : Chg { vfs := true } u { u with vfs := x } := plain
theorem setScanDue {x : Bool} : Chg { scanDue := true } u { u with scanDue := x } := plain
theorem setWritten {x : List RegWr} : Chg { written := true } u { u with written := x } := plain
theorem setHeldRuns {x : List (Nat × Nat)} : Chg { heldRuns := true } u { u with heldRuns := x } := plain
theorem setNextId {x : Nat} : Chg { nextId := true } u { u with nextId := x } := plain
theorem setFreeCtr {x : Nat} : Chg { freeCtr := true } u { u with freeCtr := x } := plain

/-- The state of a pair that was taken apart. -/
theorem ofFst {α : Type} {p : State × α} {t : State} {a : α} (h : Chg P s p.1) (hp : p = (t, a) := by assumption) : Chg P s t := by
  rw [hp] at h
  exact h

theorem modSlot {i : Nat} {f : FwSlot → FwSlot} (hf : memWf (u.boot.slot i).data = true → memWf (f (u.boot.slot i)).data = true) :
    Chg { boot := true, slots := true } u (u.modSlot i f) := by
  by_cases hi : i = 0
  · subst hi
    exact .modBoot hf id
  · simp only [Boot.slot, if_neg hi] at hf
    refine .modBoot ?_ ?_ <;> simp only [if_neg hi]
    · exact id
    · exact hf

theorem modArea {i : Nat} {f : SetArea → SetArea} : Chg { boot := true } u (u.modArea i f) := by
  by_cases hi : i = 0
  · subst hi
    exact .modBootPlain
  · refine .modBootPlain ?_ ?_ ?_ <;> simp only [if_neg hi]

end Chg
end Sys2Proof.Machine
end

section
/-!
The footprint of every operation of the model, file by file, in the model's own order: each lemma composes those of the operations its
function calls.
-/
namespace Sys2Proof.Machine
set_option Elab.async false

/-! ## Ops -/

theorem State.reloadImage_chg {s : State} {sel : RegKind → Nat → Bool} :
    Chg { regs := true } s (s.reloadImage sel) := by
  refine .setRegs fun h => ?_
  exact keysRise_of_keys h fun e => by split <;> rfl

theorem State.keepWrite_chg {s : State} {w : RegWr} :
    Chg { written := true } s (s.keepWrite w) := by
  unfold State.keepWrite
  exact .plain

theorem State.lastWrite_chg {s : State} {k : RegKind} {i v : Nat} {south : Bool} :
    Chg { regs := true, written := true } s (s.lastWrite k i v south) := by
  unfold State.lastWrite
  exact .via (.via .refl .rwWrite) State.keepWrite_chg

theorem State.keepSet_chg {s : State} {ch k : Nat} {t : Trim} :
    Chg { boot := true } s (s.keepSet ch k t) := by
  unfold State.keepSet
  exact .via .refl .modArea

theorem State.loadSets_chg {s : State} {i : Nat} :
    Chg { chans := true } s (s.loadSets i) := by
  unfold State.loadSets
  exact .foldl (fun _ _ => .via .refl .modChan) _ .refl

theorem State.request_chg {s : State} {cause source len : Nat} :
    Chg { reqs := true } s (s.request cause source len) := by
  unfold State.request
  exact .ite .refl .plain

theorem State.eventTo_chg {s : State} {fn code kind idx : Nat} {items : List (Nat × Nat)} :
    Chg { fns := true, regs := true } s (s.eventTo fn code kind idx items) := by
  unfold State.eventTo
  exact .ite (.via .refl .modFunc) (.ite (.via .refl .modFunc) (.via (.via .refl .modFunc) .satAdd))

theorem State.event_chg {s : State} {code kind idx : Nat} {items : List (Nat × Nat)} :
    Chg { fns := true, regs := true } s (s.event code kind idx items) := by
  unfold State.event
  exact .via .refl State.eventTo_chg

theorem State.lossSeen_chg {s : State} :
    Chg { regs := true } s (s.lossSeen) := by
  unfold State.lossSeen
  exact .via .refl .setFld

theorem State.imageBusy_chg {s : State} {off : Nat} :
    Chg { fns := true, regs := true } s (s.imageBusy off) := by
  unfold State.imageBusy
  exact .via .refl State.event_chg

theorem State.gateEvent_chg {s : State} {off val : Nat} :
    Chg { fns := true, regs := true } s (s.gateEvent off val) := by
  unfold State.gateEvent
  exact .via .refl State.event_chg

theorem State.modified_chg {s : State} :
    Chg { regs := true } s (s.modified) := by
  unfold State.modified
  exact .via .refl .setFld

theorem Chg.gated {P : Foot} {s u : State} {w : Writer} {off n : Nat} {f : State → State} (h : Chg P s u) (hf : ∀ v, Chg P v (f v))
    (hle : ({ fns := true, regs := true } : Foot).or P = P := by rfl) : Chg P s (u.gated w off n f) := by
  unfold State.gated
  split
  · exact h.trans (hf _)
  · exact .ite h (.ite (h.trans (hf _)) (h.via State.gateEvent_chg hle))

theorem Chg.imgWrite {P : Foot} {s u : State} {k : RegKind} {off : Nat} {f : State → State} (h : Chg P s u)
    (hf : ∀ v, Chg P v (f v))
    (hle : ({ fns := true, regs := true } : Foot).or P = P := by rfl) : Chg P s (u.imgWrite k off f) := by
  unfold State.imgWrite
  exact .ite (h.via State.imageBusy_chg hle) (h.trans (hf _))

theorem State.zeroDigest_chg {s : State} :
    Chg { regs := true } s (s.zeroDigest) := by
  unfold State.zeroDigest
  exact .via (.via (.via (.via .refl .setReg) .setReg) .setReg) .setReg

theorem State.complete_chg {s : State} {c : Cmd} {opcode status : Nat} {result : Nat} {report : Option (Word × Word)} :
    Chg { regs := true, fns := true } s (s.complete c opcode status result report) := by
  unfold State.complete
  exact .ite (.ite (.via .refl .setFld) .refl) (.via (.ite (.via .refl .setFld) .refl) .modFunc)

theorem State.popCmd_chg {s : State} {c : Cmd} :
    Chg { fns := true } s (s.popCmd c) := by
  unfold State.popCmd
  exact .via .refl .modFunc

theorem State.cmdWaits_chg {s : State} {fn : Nat} :
    Chg { fns := true } s (s.cmdWaits fn) := by
  unfold State.cmdWaits
  exact .via .refl .modFunc

theorem State.answerBad_chg {s : State} {fn x2 : Nat} :
    Chg { fns := true, regs := true } s (s.answerBad fn x2) := by
  induction x2 generalizing s with
  | zero => exact .refl
  | succ n ih =>
    rw [State.answerBad]
    split
    · exact .refl
    · split
      · exact .ite (.trans (.via (.via .refl State.popCmd_chg) State.complete_chg) ih) .refl
      · exact .refl

theorem State.answerAll_chg {s : State} {fn : Nat} :
    Chg { fns := true, regs := true } s (s.answerAll fn) := by
  unfold State.answerAll
  exact .foldl (fun _ _ => .via .refl State.answerBad_chg) _ .refl

theorem Chg.runCmd {P : Foot} {s u : State} {c : Cmd} {opcode : Nat} {ops : List (Nat × Nat × Nat)} {allFns : Bool}
    {f : State → State} (h : Chg P s u) (hf : ∀ v, Chg P v (f v))
    (hle : ({ fns := true, regs := true } : Foot).or P = P := by rfl) : Chg P s (u.runCmd c opcode ops allFns f) := by
  have hpop : Chg { fns := true, regs := true } u (u.popCmd c) := .mono State.popCmd_chg
  have hcomplete (st : Nat) : Chg P s ((u.popCmd c).complete c opcode st) :=
    (h.via hpop hle).via (.mono (Q := { fns := true, regs := true }) State.complete_chg) hle
  have hanswer (v : State) : Chg P v (v.answerAll c.fn) := .mono (.mono (Q := { fns := true, regs := true }) State.answerAll_chg)
    hle
  unfold State.runCmd
  exact .ite (.trans (.ite (hcomplete _) (.ite ((h.via hpop hle).trans (hf _)) (hcomplete _))) (hanswer _)) h

theorem State.irqCause_chg {s : State} {fn vec : Nat} :
    Chg { fns := true } s (s.irqCause fn vec) := by
  unfold State.irqCause
  exact .via .refl .modFunc

theorem State.loseEvents_chg {s : State} {fn n : Nat} :
    Chg { fns := true, regs := true } s (s.loseEvents fn n) := by
  unfold State.loseEvents
  exact .via (.via .refl .modFunc) .satAdd

theorem State.stopRings_chg {s : State} {fn addr : Nat} :
    Chg { regs := true, fns := true } s (s.stopRings fn addr) := by
  unfold State.stopRings
  exact .ite .refl (.via (.via (.via (.via (.via (.via .refl .setFld) .setFld) .modFunc) State.loseEvents_chg) State.irqCause_chg)
    State.answerAll_chg)

theorem State.occAdd_chg {s : State} {lvl unit n : Nat} :
    Chg { occ := true } s (s.occAdd lvl unit n) := by
  unfold State.occAdd
  exact .ite .refl .plain

theorem State.freeStep_chg {s : State} {n : Nat} :
    Chg { freeCtr := true } s (s.freeStep n) := by
  unfold State.freeStep
  exact .plain

/-! ## Flags -/

theorem State.waitCount_chg {s : State} {y : Nat} {x2 : Wait} :
    Chg { regs := true } s (s.waitCount y x2) := by
  unfold State.waitCount
  split
  · exact .via .refl .satAdd
  · exact .via .refl .satAdd
  · exact .via .refl .satAdd
  · exact .via .refl .satAdd
  · exact .via .refl .satAdd
  · exact .via .refl .satAdd
  · exact .refl
  · exact .refl
  · exact .refl
  · exact .refl

theorem State.slip_chg {s : State} {y : Nat} {ws : List Wait} :
    Chg { tiles := true, regs := true } s (s.slip y ws) := by
  unfold State.slip
  exact .foldl (fun _ _ => .via .refl State.waitCount_chg) _ (.onModTile .refl .plain)

theorem State.spFaultReg_chg {s : State} {y kind h pc off : Nat} :
    Chg { regs := true } s (s.spFaultReg y kind h pc off) := by
  unfold State.spFaultReg
  exact .via (.via (.via (.via (.via (.via .refl .setFld) .setFld) .setFld) .setFld) .setFld) .satAdd

theorem State.boundsFault_chg {s : State} {y pc h off : Nat} :
    Chg { fns := true, regs := true } s (s.boundsFault y pc h off) := by
  unfold State.boundsFault
  exact .via (.via .refl State.event_chg) State.spFaultReg_chg

theorem State.handleFault_chg {s : State} {y pc h : Nat} :
    Chg { fns := true, regs := true } s (s.handleFault y pc h) := by
  unfold State.handleFault
  exact .via (.via .refl State.event_chg) State.spFaultReg_chg

theorem State.rightsFault_chg {s : State} {y pc h off : Nat} :
    Chg { fns := true, regs := true } s (s.rightsFault y pc h off) := by
  unfold State.rightsFault
  exact .via (.via .refl State.event_chg) State.spFaultReg_chg

theorem State.meshFault_chg {s : State} {y pc h off : Nat} :
    Chg { fns := true, regs := true } s (s.meshFault y pc h off) := by
  unfold State.meshFault
  exact .via (.via .refl State.event_chg) State.spFaultReg_chg

theorem State.meetingFault_chg {s : State} {y : Nat} {p : MPkt} :
    Chg { fns := true, regs := true } s (s.meetingFault y p) := by
  unfold State.meetingFault
  exact .via (.via .refl State.event_chg) State.spFaultReg_chg

theorem State.mxFault_chg {s : State} {y code kind set row pc kidx : Nat} :
    Chg { fns := true, regs := true } s (s.mxFault y code kind set row pc kidx) := by
  unfold State.mxFault
  exact .via (.via (.via (.via (.via (.via (.via (.via .refl State.event_chg) .setFld) .setFld) .setFld) .setFld) .setFld) .setFld)
    .satAdd

theorem State.vFault_chg {s : State} {y code pc : Nat} :
    Chg { fns := true, regs := true } s (s.vFault y code pc) := by
  unfold State.vFault
  exact .via (.via .refl State.event_chg) .satAdd

theorem State.descEvent_chg {s : State} {y pc lvl : Nat} {stride : Bool} {ag : Nat} :
    Chg { fns := true, regs := true } s (s.descEvent y pc lvl stride ag) := by
  unfold State.descEvent
  exact .via (.via (.via (.via (.via (.via (.via .refl State.event_chg) .setFld) .setFld) .setFld) .setFld) .setFld) .satAdd

/-! ## Operands -/

theorem Tile.setS_tchg {t : Tile} {n : Nat} {v : Word} :
    TChg t (t.setS n v) := by
  unfold Tile.setS
  exact .ite .refl .plain

theorem Tile.setP_tchg {t : Tile} {n : Nat} {v : Bool} :
    TChg t (t.setP n v) := by
  unfold Tile.setP
  exact .ite .refl .plain

theorem State.result_chg {s : State} {y : Nat} {pred : Bool} {r : Nat} {v : Word} {l : Nat} :
    Chg { tiles := true } s (s.result y pred r v l) := by
  unfold State.result
  exact .ite .refl (.onModTile .refl .plain)

theorem Tile.keepWas_tchg {c : Nat} {t : Tile} :
    TChg t (Tile.keepWas c t) := by
  unfold Tile.keepWas
  split
  · exact .ite .refl .plain
  · exact .plain

theorem Tile.setFull_tchg {t : Tile} {c : Nat} {f : BitVec 4096} :
    TChg t (t.setFull c f) := by
  unfold Tile.setFull
  exact .plain

theorem Tile.mark_tchg {t : Tile} {c : Nat} {h : Hnd} {wr : Bool} {sps : List Span} :
    TChg t (t.mark c h wr sps) := by
  unfold Tile.mark
  exact .ite (.via .refl Tile.setFull_tchg) .refl

theorem State.spReadE_chg {s : State} {y pc h : Nat} {e : Hnd} {space : Bool} {sps : List Span} :
    Chg { tiles := true, occ := true, fns := true, regs := true } s (s.spReadE y pc h e space sps).1 := by
  unfold State.spReadE
  split
  · exact .via (.onModTile .refl (.via .refl Tile.mark_tchg)) State.occAdd_chg
  · exact .via .refl State.boundsFault_chg

theorem State.spRead_chg {s : State} {y pc h : Nat} {space : Bool} {sps : List Span} :
    Chg { tiles := true, occ := true, fns := true, regs := true } s (s.spRead y pc h space sps).1 := by
  unfold State.spRead
  exact .via .refl State.spReadE_chg

theorem State.spWriteE_chg {s : State} {y pc h : Nat} {e : Hnd} {space : Bool} {off : Nat} {bs : List Byte} :
    Chg { tiles := true, occ := true, fns := true, regs := true } s (s.spWriteE y pc h e space off bs) := by
  unfold State.spWriteE
  exact .ite (.via (.onModTile .refl ⟨fun h => memWf_wrBytes _ _ h⟩) State.occAdd_chg) (.via .refl State.boundsFault_chg)

theorem State.spWriteMasked_chg {s : State} {y pc h : Nat} {e : Hnd} {space : Bool} {off : Nat} {bs : List (Option Byte)} :
    Chg { tiles := true, occ := true, fns := true, regs := true } s (s.spWriteMasked y pc h e space off bs) := by
  unfold State.spWriteMasked
  refine .ite (.via (.onModTile .refl ⟨fun h => memWf_foldl (fun m b hm => ?_) _ h⟩) State.occAdd_chg)
    (.via .refl State.boundsFault_chg)
  split
  · exact memWf_wrByte _ _ hm
  · exact hm

theorem State.useBanks_chg {s : State} {y : Nat} {bs : List Nat} :
    Chg { tiles := true } s (s.useBanks y bs) := by
  unfold State.useBanks
  exact .onModTile .refl .plain

theorem State.setBuf_chg {s : State} {y : Nat} {ws : List Nat} {q : List BufAcc} :
    Chg { tiles := true } s (s.setBuf y ws q) := by
  unfold State.setBuf
  exact .onModTile .refl .plain

theorem State.bufServeE_chg {s : State} {y id : Nat} {e : Hnd} {a : OwnAcc} {taken : List Nat} :
    Chg { tiles := true } s (s.bufServeE y id e a taken).1 := by
  unfold State.bufServeE
  dsimp only
  split
  · split
    · exact .via .refl State.setBuf_chg
    · exact .via .refl State.setBuf_chg
  · split
    · exact .refl
    · split
      · exact .via .refl State.setBuf_chg
      · exact .via .refl State.setBuf_chg

theorem State.bufServe_chg {s : State} {y id : Nat} {a : OwnAcc} {taken : List Nat} :
    Chg { tiles := true } s (s.bufServe y id a taken).1 := by
  unfold State.bufServe
  exact .via .refl State.bufServeE_chg

theorem State.accRead_chg {s : State} {y pc : Nat} {a : OwnAcc} :
    Chg { tiles := true, occ := true, fns := true, regs := true } s (s.accRead y pc a).1 := by
  unfold State.accRead
  exact .via .refl State.spRead_chg

/-! ## ExtSpace -/

theorem State.retrimStart_chg {s : State} {ch : Nat} :
    Chg { chans := true } s (s.retrimStart ch) := by
  unfold State.retrimStart
  exact .via .refl .modChan

theorem State.retrimCheck_chg {s : State} {ch : Nat} {reduced : Bool} :
    Chg { chans := true } s (s.retrimCheck ch reduced) := by
  unfold State.retrimCheck
  exact .ite (.via .refl State.retrimStart_chg) .refl

theorem State.trimNow_chg {s : State} {ch : Nat} :
    Chg { chans := true, fns := true, regs := true } s (s.trimNow ch) := by
  unfold State.trimNow
  exact .ite .refl (.via (.via (.via .refl .modChan) State.event_chg) State.retrimCheck_chg)

theorem State.loadBin_chg {s : State} :
    Chg { chans := true } s (s.loadBin) := by
  unfold State.loadBin
  exact .foldl (fun _ _ => .via .refl State.retrimCheck_chg) _ .refl

theorem State.parkTrim_chg {s : State} :
    Chg { chans := true, fns := true, regs := true } s (s.parkTrim) := by
  unfold State.parkTrim
  exact .foldl (fun _ _ => .ite (.via .refl State.trimNow_chg) .refl) _ .refl

theorem State.errLog_chg {s : State} {kind chn addr : Nat} :
    Chg { regs := true } s (s.errLog kind chn addr) := by
  unfold State.errLog
  exact .via (.via (.via (.via .refl .setFld) .setFld) .setFld) .setFld

theorem State.windowNote_chg {s : State} {a last : Nat} :
    Chg { fns := true, regs := true } s (s.windowNote a last) := by
  unfold State.windowNote
  exact .via (.via .refl State.event_chg) .satAdd

theorem State.granRecord_chg {s : State} {write : Bool} {addr : Nat} {res : GranRes} :
    Chg { fns := true, regs := true } s (s.granRecord write addr res) := by
  unfold State.granRecord
  dsimp only
  split
  · exact .ite (.foldl (fun _ _ => .via (.via .refl State.event_chg) .satAdd) _ .refl)
      (.via (.foldl (fun _ _ => .via (.via .refl State.event_chg) .satAdd) _ .refl) .satAdd)
  · exact .ite (.foldl (fun _ _ => .via (.via .refl State.event_chg) .satAdd) _ .refl)
      (.via (.foldl (fun _ _ => .via (.via .refl State.event_chg) .satAdd) _ .refl) .satAdd)
  · exact .via (.via (.via (.via (.foldl (fun _ _ => .via (.via .refl State.event_chg) .satAdd) _ .refl) State.lossSeen_chg)
      State.event_chg) .satAdd) State.errLog_chg
  · exact .foldl (fun _ _ => .via (.via .refl State.event_chg) .satAdd) _ .refl

theorem State.granBusy_chg {s : State} {addr : Nat} :
    Chg { occ := true, chans := true } s (s.granBusy addr) := by
  unfold State.granBusy
  exact .via (.via .refl State.occAdd_chg) .modChan

theorem State.mixed_chg {s : State} {addr : Nat} {new : List Byte} :
    Chg { freeCtr := true } s (s.mixed addr new).1 := by
  unfold State.mixed
  exact .via .refl State.freeStep_chg

/-! ## Waits -/

/-- The generators and levels of a tile as its triple issued it, but for what the operation changes. -/
theorem Chg.asIssued {P : Foot} {s : State} {y : Nat} {i : Instr} {f : State → State} (hf : ∀ v, Chg P v (f v))
    (hle : ({ tiles := true, regs := true } : Foot).or P = P := by rfl) : Chg P s (s.asIssued y i f) := by
  have hbefore : TChg (s.tile y) ((s.tile y).before s.sched) := by
    unfold Tile.before
    split
    · exact .ite .plain .refl
    · exact .refl
  have hset : Chg { tiles := true, regs := true } s (s.setTile y ((s.tile y).before s.sched)) := .mono (.setTile hbefore)
  have hback (v : State) (T : Tile) : Chg { tiles := true, regs := true } v (v.modTile y fun t =>
    { t with gens := T.gens, lvls := T.lvls }) :=
    .mono (.modTile .plain)
  unfold State.asIssued
  exact .ite (.via (.trans (.mono hset hle) (hf _)) (hback _ _) hle) (hf s)

theorem Chg.slotCmd {P : Foot} {s : State} {y : Nat} {i : Instr} {supp eff : State → State} (he : ∀ v, Chg P v (eff v))
    (hs : ∀ v, Chg P v (supp v)) (hle : ({ tiles := true, regs := true } : Foot).or P = P := by rfl) : Chg P s (s.slotCmd y i supp
      eff) := by
  unfold State.slotCmd
  refine .ite (.ite (.asIssued (fun v => ?_) hle) (.mono (.mono (Q := { tiles := true, regs := true }) State.slip_chg) hle)) .refl
  split
  · exact he v
  · exact hs v

/-! ## Scalar -/

theorem Does.slotOut {P : Foot} {s u : State} {t : Xy} {i : Instr} {eff supp : State → State} (h : Chg P s u)
    (he : ∀ v, Chg P v (eff v)) (hs : ∀ v, Chg P v (supp v))
    (hle : ({ tiles := true, regs := true } : Foot).or P = P := by rfl) : Does P s (u.slotOut t i eff supp) :=
  .next (h.trans (.slotCmd he hs hle))

theorem execNop_does {t : Xy} {slot : Slot} {pr : Fin 16} {s : State} :
    Does { tiles := true, regs := true } s (execNop t slot pr s) := by
  unfold execNop
  exact .slotOut .refl (fun _ => .refl) (fun _ => .refl)

theorem execMark_does {t : Xy} {pr : Fin 16} {code : BitVec 16} {s : State} :
    Does { tiles := true, regs := true, fns := true } s (execMark t pr code s) := by
  unfold execMark
  exact .slotOut .refl (fun _ => .via .refl State.event_chg) (fun _ => .refl)

theorem execScalarAlu_does {t : Xy} {pr : Fin 16} {op : AluOp} {sd sa sb : Fin 32} {ps : Fin 16} {s : State} :
    Does { tiles := true, regs := true } s (execScalarAlu t pr op sd sa sb ps s) := by
  unfold execScalarAlu
  exact .slotOut .refl (fun _ => .via .refl State.result_chg) (fun _ => .refl)

theorem execScalarAluImmediate_does {t : Xy} {pr : Fin 16} {op : AluImmOp} {sd sa : Fin 32} {imm : BitVec 32} {s : State} :
    Does { tiles := true, regs := true } s (execScalarAluImmediate t pr op sd sa imm s) := by
  unfold execScalarAluImmediate
  exact .slotOut .refl (fun _ => .via .refl State.result_chg) (fun _ => .refl)

theorem execCmp_does {t : Xy} {pr : Fin 16} {rel : Rel} {pd : Fin 16} {sa sb : Fin 32} {s : State} :
    Does { tiles := true, regs := true } s (execCmp t pr rel pd sa sb s) := by
  unfold execCmp
  exact .slotOut .refl (fun _ => .via .refl State.result_chg) (fun _ => .refl)

theorem execCmpi_does {t : Xy} {pr : Fin 16} {rel : Rel} {pd : Fin 16} {sa : Fin 32} {imm : BitVec 32} {s : State} :
    Does { tiles := true, regs := true } s (execCmpi t pr rel pd sa imm s) := by
  unfold execCmpi
  exact .slotOut .refl (fun _ => .via .refl State.result_chg) (fun _ => .refl)

theorem execPlog_does {t : Xy} {pr pd pa pb : Fin 16} {tt : BitVec 4} {s : State} :
    Does { tiles := true, regs := true } s (execPlog t pr pd pa pb tt s) := by
  unfold execPlog
  exact .slotOut .refl (fun _ => .via .refl State.result_chg) (fun _ => .refl)

theorem State.hndStore_chg {s : State} {y pc n : Nat} {ctl : Bool} {v : Word} :
    Chg { fns := true, regs := true, tiles := true } s (s.hndStore y pc n ctl v) := by
  unfold State.hndStore
  exact .ite (.ite (.via .refl State.handleFault_chg) .refl) (.via (.onModTile (.ite (.via .refl State.handleFault_chg) .refl)
    .plain) State.modified_chg)

theorem State.loadWord_chg {s : State} {y pc : Nat} {e : Hnd} {a : OwnAcc} {ctlOk : Bool} :
    Chg { tiles := true, occ := true, fns := true, regs := true } s (s.loadWord y pc e a ctlOk).1 := by
  unfold State.loadWord
  dsimp only
  split
  · exact .refl
  · exact .via .refl State.spReadE_chg

theorem State.storeWord_chg {s : State} {y pc : Nat} {e : Hnd} {a : OwnAcc} {ctlOk : Bool} {v : Word} :
    Chg { fns := true, regs := true, tiles := true, occ := true } s (s.storeWord y pc e a ctlOk v) := by
  unfold State.storeWord
  exact .ite (.via .refl State.hndStore_chg) (.via .refl State.spWriteE_chg)

theorem State.pushReq_chg {s : State} {y due prio : Nat} {a : OwnAcc} {job : AccUse} :
    Chg { tiles := true } s (s.pushReq y due prio a job) := by
  unfold State.pushReq
  exact .onModTile .refl .plain

theorem State.loadNow_chg {s : State} {y pc : Nat} {e : Hnd} {a : OwnAcc} {ctlOk : Bool} {sd : Nat} :
    Chg { tiles := true, occ := true, fns := true, regs := true } s (s.loadNow y pc e a ctlOk sd) := by
  unfold State.loadNow
  exact .via (.via .refl State.loadWord_chg) State.result_chg

theorem State.loadTo_chg {s : State} {y : Nat} {i : Instr} {ctlOk : Bool} {sd : Fin 32} :
    Chg { tiles := true, occ := true, fns := true, regs := true } s (s.loadTo y i ctlOk sd) := by
  unfold State.loadTo
  split
  · exact .ite (.via .refl State.pushReq_chg) (.via .refl State.loadNow_chg)
  · exact .refl

theorem State.storeFrom_chg {s : State} {y : Nat} {i : Instr} {ctlOk : Bool} {ss : Fin 32} :
    Chg { tiles := true, fns := true, regs := true, occ := true } s (s.storeFrom y i ctlOk ss) := by
  unfold State.storeFrom
  split
  · exact .ite (.via .refl State.pushReq_chg) (.via .refl State.storeWord_chg)
  · exact .refl

theorem execSld_does {t : Xy} {pr : Fin 16} {sd sa : Fin 32} {h : Fin 64} {off : BitVec 21} {s : State} :
    Does { tiles := true, regs := true, occ := true, fns := true } s (execSld t pr sd sa h off s) := by
  unfold execSld
  exact .slotOut .refl (fun _ => .via .refl State.loadTo_chg) (fun _ => .refl)

theorem execSst_does {t : Xy} {pr : Fin 16} {ss sa : Fin 32} {h : Fin 64} {off : BitVec 21} {s : State} :
    Does { tiles := true, regs := true, fns := true, occ := true } s (execSst t pr ss sa h off s) := by
  unfold execSst
  exact .slotOut .refl (fun _ => .via .refl State.storeFrom_chg) (fun _ => .refl)

theorem execSldAg_does {t : Xy} {pr : Fin 16} {sd : Fin 32} {ag : Fin 16} {s : State} :
    Does { tiles := true, regs := true, occ := true, fns := true } s (execSldAg t pr sd ag s) := by
  unfold execSldAg
  exact .slotOut .refl (fun _ => .via .refl State.loadTo_chg) (fun _ => .refl)

theorem execSstAg_does {t : Xy} {pr : Fin 16} {ss : Fin 32} {ag : Fin 16} {s : State} :
    Does { tiles := true, regs := true, fns := true, occ := true } s (execSstAg t pr ss ag s) := by
  unfold execSstAg
  exact .slotOut .refl (fun _ => .via .refl State.storeFrom_chg) (fun _ => .refl)

theorem execSget_does {t : Xy} {pr : Fin 16} {sd : Fin 32} {sreg : BitVec 8} {s : State} :
    Does { tiles := true, regs := true } s (execSget t pr sd sreg s) := by
  unfold execSget
  exact .slotOut .refl (fun _ => .via .refl State.result_chg) (fun _ => .refl)

theorem Tile.loopEnd_tchg {t : Tile} {k : Nat} {x2 : List Nat} :
    TChg t (t.loopEnd k x2) := by
  induction x2 generalizing t with
  | nil => exact .plain
  | cons x xs ih =>
    rw [Tile.loopEnd]
    exact .ite (.ite .plain (.via .plain ih)) ih

theorem Tile.advance_tchg {t : Tile} :
    TChg t (t.advance) := by
  unfold Tile.advance
  exact .ite .refl (.via (.via .refl Tile.loopEnd_tchg) .plain)

theorem Tile.openLoop_tchg {t : Tile} {l c b : Nat} :
    TChg t (t.openLoop l c b) := by
  unfold Tile.openLoop
  exact .ite (.via (.via .refl Tile.loopEnd_tchg) .plain) .plain

theorem State.releasePassed_chg {s : State} {g : Nat} :
    Chg { gals := true } s (s.releasePassed g) := by
  unfold State.releasePassed
  exact .via .refl .modGal

theorem State.releaseRing_chg {s : State} {t : Xy} :
    Chg { gals := true } s (s.releaseRing t) := by
  unfold State.releaseRing
  exact .ite (.via .refl State.releasePassed_chg) .refl

theorem execLoop_does {t : Xy} {level : Fin 4} {count : BitVec 20} {body : BitVec 12} {s : State} :
    Does { tiles := true, regs := true, gals := true } s (execLoop t level count body s) := by
  unfold execLoop
  exact .slotOut .refl (fun _ => .via (.onModTile .refl (.via (.via .refl Tile.keepWas_tchg) Tile.openLoop_tchg))
    State.releaseRing_chg) (fun _ => .refl)

theorem execLoopd_does {t : Xy} {level : Fin 4} {body : BitVec 12} {s : State} :
    Does { tiles := true, regs := true, gals := true } s (execLoopd t level body s) := by
  unfold execLoopd
  exact .slotOut .refl (fun _ => .via (.onModTile .refl (.via (.via .refl Tile.keepWas_tchg) Tile.openLoop_tchg))
    State.releaseRing_chg) (fun _ => .refl)

theorem State.modGen_chg {s : State} {y a : Nat} {f : Gen → Gen} :
    Chg { tiles := true } s (s.modGen y a f) := by
  unfold State.modGen
  exact .onModTile .refl (.via (.via .refl Tile.keepWas_tchg) .plain)

theorem execAgbase_does {t : Xy} {pr ag : Fin 16} {imm : BitVec 48} {s : State} :
    Does { tiles := true, regs := true } s (execAgbase t pr ag imm s) := by
  unfold execAgbase
  exact .slotOut .refl (fun _ => .via .refl State.modGen_chg) (fun _ => .refl)

theorem execAgset_does {t : Xy} {pr ag : Fin 16} {sa : Fin 32} {s : State} :
    Does { tiles := true, regs := true } s (execAgset t pr ag sa s) := by
  unfold execAgset
  exact .slotOut .refl (fun _ => .via .refl State.modGen_chg) (fun _ => .refl)

theorem execAgadd_does {t : Xy} {pr ag : Fin 16} {sa : Fin 32} {s : State} :
    Does { tiles := true, regs := true } s (execAgadd t pr ag sa s) := by
  unfold execAgadd
  exact .slotOut .refl (fun _ => .via .refl State.modGen_chg) (fun _ => .refl)

theorem execAghnd_does {t : Xy} {pr ag : Fin 16} {space : Bool} {h : Fin 64} {s : State} :
    Does { tiles := true, regs := true } s (execAghnd t pr ag space h s) := by
  unfold execAghnd
  exact .slotOut .refl (fun _ => .via .refl State.modGen_chg) (fun _ => .refl)

theorem State.descNote_chg {s : State} {y l : Nat} {stride : Bool} {ag : Nat} :
    Chg { fns := true, regs := true } s (s.descNote y l stride ag) := by
  unfold State.descNote
  exact .ite (.via .refl State.descEvent_chg) .refl

theorem State.setStride_chg {s : State} {y l ag : Nat} {v : BitVec 32} :
    Chg { tiles := true, fns := true, regs := true } s (s.setStride y l ag v) := by
  unfold State.setStride
  exact .via (.onModTile .refl .plain) State.descNote_chg

theorem execDwrC_does {t : Xy} {level : Fin 4} {count : BitVec 20} {s : State} :
    Does { tiles := true, regs := true, fns := true } s (execDwrC t level count s) := by
  unfold execDwrC
  exact .slotOut .refl (fun _ => .via (.onModTile .refl .plain) State.descNote_chg) (fun _ => .refl)

theorem execDwrS_does {t : Xy} {pr : Fin 16} {level : Fin 4} {ag : Fin 16} {sa : Fin 32} {s : State} :
    Does { tiles := true, regs := true, fns := true } s (execDwrS t pr level ag sa s) := by
  unfold execDwrS
  exact .slotOut .refl (fun _ => .via .refl State.setStride_chg) (fun _ => .refl)

theorem execDwrSi_does {t : Xy} {pr : Fin 16} {level : Fin 4} {ag : Fin 16} {imm : BitVec 32} {s : State} :
    Does { tiles := true, regs := true, fns := true } s (execDwrSi t pr level ag imm s) := by
  unfold execDwrSi
  exact .slotOut .refl (fun _ => .via .refl State.setStride_chg) (fun _ => .refl)

theorem Tile.writeback_tchg {c : Nat} {t : Tile} :
    TChg t (Tile.writeback c t) := by
  unfold Tile.writeback
  exact .foldl (fun _ _ => .ite (.via (.ite .refl (.ite (.via .refl Tile.setP_tchg) (.via .refl Tile.setS_tchg))) .plain) .plain) _
    .plain

theorem execResultWriteback_does {t : Xy} {s : State} :
    Does { tiles := true } s (execResultWriteback t s) := by
  unfold execResultWriteback
  exact .next (.ite .refl (.onModTile .refl (.via .refl Tile.writeback_tchg)))

/-! ## Matrix -/

theorem Tile.stallAt_tchg {c : Nat} {t : Tile} :
    TChg t (Tile.stallAt c t) := by
  unfold Tile.stallAt
  exact .plain

theorem State.readAll_chg {s : State} {y pc : Nat} {x3 : List OwnAcc} :
    Chg { tiles := true, occ := true, fns := true, regs := true } s (s.readAll y pc x3).1 := by
  induction x3 generalizing s with
  | nil => exact .refl
  | cons a as ih =>
    rw [State.readAll]
    exact .trans (.via .refl State.accRead_chg) ih

theorem State.markRows_chg {s : State} {y : Nat} {i : Instr} :
    Chg { tiles := true } s (s.markRows y i) := by
  unfold State.markRows
  exact .onModTile .refl .plain

theorem State.loadBusy_chg {s : State} {y b last ready : Nat} :
    Chg { tiles := true } s (s.loadBusy y b last ready) := by
  unfold State.loadBusy
  exact .onModTile .refl .plain

theorem State.suppBusy_chg {s : State} {y n : Nat} :
    Chg { tiles := true } s (s.suppBusy y n) := by
  unfold State.suppBusy
  exact .onModTile .refl .plain

theorem execMload_does {t : Xy} {pr : Fin 16} {wbuf : Fin 2} {ag wfmt : Fin 16} {s : State} :
    Does { tiles := true, regs := true } s (execMload t pr wbuf ag wfmt s) := by
  unfold execMload
  exact .slotOut .refl (fun _ => .via (.foldl (fun _ _ => .via .refl State.pushReq_chg) _ (.onModTile .refl .plain))
    State.loadBusy_chg) (fun _ => .via (.via .refl State.loadBusy_chg) State.suppBusy_chg)

theorem execMscl_does {t : Xy} {pr : Fin 16} {wbuf : Fin 2} {ag : Fin 16} {s : State} :
    Does { tiles := true, regs := true, fns := true } s (execMscl t pr wbuf ag s) := by
  unfold execMscl
  exact .slotOut .refl (fun _ => .ite (.via (.via .refl State.pushReq_chg) State.loadBusy_chg)
    (.via (.via (.via .refl State.pushReq_chg) State.loadBusy_chg) State.mxFault_chg)) (fun _ => .via
    (.via .refl State.loadBusy_chg) State.suppBusy_chg)

theorem State.streamBusy_chg {s : State} {y : Nat} {i : Instr} {f : MmulF} :
    Chg { tiles := true } s (s.streamBusy y i f) := by
  unfold State.streamBusy
  exact .via (.onModTile .refl .plain) State.markRows_chg

theorem State.queueAcc_chg {s : State} {y : Nat} {as : List AccAcc} :
    Chg { tiles := true } s (s.queueAcc y as) := by
  unfold State.queueAcc
  exact .onModTile .refl .plain

theorem execMmul_does {t : Xy} {pr : Fin 16} {f : MmulF} {s : State} :
    Does { tiles := true, regs := true, fns := true } s (execMmul t pr f s) := by
  unfold execMmul
  exact .slotOut .refl (fun _ => .via (.ite (.onModTile (.via (.foldl (fun _ _ => .via .refl State.pushReq_chg) _
    (.foldl (fun _ _ => .via .refl State.pushReq_chg) _ .refl)) State.queueAcc_chg) .plain)
    (.via (.onModTile (.via (.foldl (fun _ _ => .via .refl State.pushReq_chg) _ (.foldl (fun _ _ => .via .refl State.pushReq_chg) _
    .refl)) State.queueAcc_chg) .plain) State.mxFault_chg)) State.streamBusy_chg) (fun _ => .via (.via .refl State.streamBusy_chg)
    State.suppBusy_chg)

theorem State.drainBusy_chg {s : State} {y : Nat} {i : Instr} {n : Nat} :
    Chg { tiles := true } s (s.drainBusy y i n) := by
  unfold State.drainBusy
  exact .via (.onModTile .refl .plain) State.markRows_chg

theorem execMzero_does {t : Xy} {pr : Fin 16} {aset : Fin 2} {row0 rcnt : Fin 64} {s : State} :
    Does { tiles := true, regs := true } s (execMzero t pr aset row0 rcnt s) := by
  unfold execMzero
  exact .slotOut .refl (fun _ => .via (.via .refl State.queueAcc_chg) State.drainBusy_chg) (fun _ => .via
    (.via .refl State.drainBusy_chg) State.suppBusy_chg)

theorem State.startDrain_chg {s : State} {y : Nat} {f : DrainF} {dst : Option (Nat × Nat × Bool)} :
    Chg { tiles := true } s (s.startDrain y f dst) := by
  unfold State.startDrain
  exact .onModTile (.via .refl State.queueAcc_chg) .plain

theorem execMdrain_does {t : Xy} {pr : Fin 16} {f : DrainF} {agD : Fin 16} {s : State} :
    Does { tiles := true, regs := true } s (execMdrain t pr f agD s) := by
  unfold execMdrain
  exact .slotOut .refl (fun _ => .via (.via (.foldl (fun _ _ => .via .refl State.pushReq_chg) _ .refl) State.startDrain_chg)
    State.drainBusy_chg) (fun _ => .via (.via .refl State.drainBusy_chg) State.suppBusy_chg)

theorem State.chainEntry_chg {s : State} {y : Nat} {part : Bool} :
    Chg { tiles := true } s (s.chainEntry y part) := by
  unfold State.chainEntry
  exact .onModTile .refl .plain

theorem execMdrainv_does {t : Xy} {pr : Fin 16} {f : DrainF} {s : State} :
    Does { tiles := true, regs := true } s (execMdrainv t pr f s) := by
  unfold execMdrainv
  exact .slotOut .refl (fun _ => .via (.via (.via .refl State.startDrain_chg) State.chainEntry_chg) State.drainBusy_chg)
    (fun _ => .via (.via (.via (.onModTile .refl .plain) State.chainEntry_chg) State.drainBusy_chg) State.suppBusy_chg)

theorem State.accApply_chg {s : State} {y : Nat} {q : AccAcc} :
    Chg { tiles := true, fns := true, regs := true } s (s.accApply y q) := by
  unfold State.accApply
  dsimp only
  split
  · exact .onModTile .refl .plain
  · exact .onModTile .refl .plain
  · split
    · exact .ite (.onModTile (.ite (.onModTile .refl .plain) (.via (.onModTile .refl .plain) State.mxFault_chg)) .plain)
        (.ite (.onModTile .refl .plain) (.via (.onModTile .refl .plain) State.mxFault_chg))
    · exact .refl
  · exact .onModTile (.ite (.via (.onModTile .refl .plain) State.lossSeen_chg) (.onModTile .refl .plain)) .plain

theorem State.settleAcc_chg {s : State} {y : Nat} :
    Chg { tiles := true, fns := true, regs := true } s (s.settleAcc y) := by
  unfold State.settleAcc
  exact .ite (.foldl (fun _ _ => .via .refl State.accApply_chg) _ (.onModTile .refl .plain)) .refl

theorem execLeafEnter_does {t : Xy} {s : State} :
    Does { tiles := true, fns := true, regs := true } s (execLeafEnter t s) := by
  unfold execLeafEnter
  exact .next (.ite .refl (.via .refl State.settleAcc_chg))

theorem execDrainRowWrite_does {t : Xy} {s : State} :
    Does { tiles := true, fns := true, regs := true, occ := true } s (execDrainRowWrite t s) := by
  unfold execDrainRowWrite
  dsimp only
  refine .next ?_
  refine .ite .refl ?_
  split
  · exact .via .refl State.settleAcc_chg
  · split
    · exact .via .refl State.settleAcc_chg
    · split
      · exact .onModTile (.onModTile (.via .refl State.settleAcc_chg) .plain) .plain
      · exact .ite (.via .refl State.settleAcc_chg) (.via (.onModTile (.via .refl State.settleAcc_chg) .plain) State.spWriteE_chg)

/-! ## Vector -/

theorem Tile.setVreg_tchg {t : Tile} {n : Nat} {v : List Lane} {mask : List Bool} :
    TChg t (t.setVreg n v mask) := by
  unfold Tile.setVreg
  exact .plain

theorem State.vrunBusy_chg {s : State} {y : Nat} {f : VrunF} {e0 : Nat} :
    Chg { tiles := true } s (s.vrunBusy y f e0) := by
  unfold State.vrunBusy
  exact .onModTile .refl .plain

theorem execVdef_does {t : Xy} {pr : Fin 16} {chain stage : Fin 8} {word : BitVec 46} {s : State} :
    Does { tiles := true, regs := true } s (execVdef t pr chain stage word s) := by
  unfold execVdef
  exact .slotOut .refl (fun _ => .onModTile .refl .plain) (fun _ => .refl)

theorem execVrun_does {t : Xy} {pr : Fin 16} {f : VrunF} {s : State} :
    Does { tiles := true, regs := true, nextId := true, fns := true } s (execVrun t pr f s) := by
  unfold execVrun
  exact .slotOut .refl (fun _ => .via (.ite (.via (.onModTile (.ite (.foldl (fun _ _ => .via .refl State.pushReq_chg) _
    (.foldl (fun _ _ => .via .refl State.pushReq_chg) _ (.foldl (fun _ _ => .via .refl State.pushReq_chg) _ .refl)))
    (.foldl (fun _ _ => .via .refl State.pushReq_chg) _ (.foldl (fun _ _ => .via .refl State.pushReq_chg) _ .refl))) .plain)
    .setNextId) (.via (.via (.onModTile (.ite (.foldl (fun _ _ => .via .refl State.pushReq_chg) _ (.foldl (fun _ _ => .via .refl
    State.pushReq_chg) _ (.foldl (fun _ _ => .via .refl State.pushReq_chg) _ .refl))) (.foldl (fun _ _ => .via .refl
    State.pushReq_chg) _ (.foldl (fun _ _ => .via .refl State.pushReq_chg) _ .refl))) .plain) .setNextId) State.vFault_chg))
    State.vrunBusy_chg) (fun _ => .via (.via .refl State.vrunBusy_chg) State.suppBusy_chg)

theorem Tile.runDone_tchg {t : Tile} {c : Nat} {u : VRunSt} {v : VRow} {n : Nat} :
    TChg t (t.runDone c u v n) := by
  unfold Tile.runDone
  exact .ite .plain .plain

theorem Tile.enterRows_tchg {t : Tile} {c : Nat} :
    TChg t (t.enterRows c) := by
  unfold Tile.enterRows
  exact .plain

theorem execVrunRowWrite_does {t : Xy} {s : State} :
    Does { tiles := true, regs := true, occ := true, fns := true } s (execVrunRowWrite t s) := by
  unfold execVrunRowWrite
  dsimp only
  refine .next ?_
  refine .ite .refl ?_
  split
  · exact .onModTile .refl (.via .refl Tile.enterRows_tchg)
  · split
    · exact .ite (.onModTile .refl (.via .refl Tile.enterRows_tchg))
        (.ite (.ite (.via (.via (.via (.onModTile (.onModTile .refl (.via .refl Tile.enterRows_tchg))
        (.via .refl Tile.runDone_tchg)) .satAdd) .satAdd) State.spWriteMasked_chg)
        (.via (.via (.via (.onModTile (.onModTile .refl (.via .refl Tile.enterRows_tchg)) (.via .refl Tile.runDone_tchg)) .satAdd)
        .satAdd) State.spWriteE_chg)) (.ite (.onModTile (.via (.via (.onModTile (.onModTile .refl (.via .refl Tile.enterRows_tchg))
        (.via .refl Tile.runDone_tchg)) .satAdd) .satAdd) (.via .refl Tile.setVreg_tchg))
        (.via (.via (.onModTile (.onModTile .refl (.via .refl Tile.enterRows_tchg)) (.via .refl Tile.runDone_tchg)) .satAdd)
        .satAdd)))
    · exact .onModTile .refl (.via .refl Tile.enterRows_tchg)

theorem Tile.take_tchg {t : Tile} {job : AccUse} {bs : List Byte} :
    TChg t (t.take job bs) := by
  unfold Tile.take
  dsimp only
  split
  · exact .plain
  · exact .plain
  · exact .plain
  · exact .plain
  · split
    · exact .plain
    · exact .refl
  · exact .plain
  · exact .refl
  · exact .refl
  · exact .refl
  · exact .refl
  · exact .refl
  · exact .refl

theorem State.accServed_chg {s : State} {y : Nat} {q : BankReq} :
    Chg { tiles := true, occ := true, fns := true, regs := true } s (s.accServed y q) := by
  unfold State.accServed
  split
  · exact .refl
  · exact .refl
  · exact .refl
  · exact .via .refl State.loadNow_chg
  · exact .via .refl State.storeWord_chg
  · exact .onModTile (.via .refl State.spReadE_chg) (.via .refl Tile.take_tchg)

/-! ## Issue -/

theorem serveReqs_chg {s : State} {y : Nat} {qs : List BankReq} {r : Served}
    (h : Chg { tiles := true, occ := true, fns := true, regs := true } s r.s) :
    Chg { tiles := true, occ := true, fns := true, regs := true } s (serveReqs y qs r).s := by
  induction qs generalizing r with
  | nil => exact h
  | cons q qs ih =>
    rw [serveReqs]
    split
    · exact ih h
    · dsimp only
      split
      · exact ih (h.via State.accServed_chg)
      · exact ih h

theorem State.textCome_chg {s : State} {t : Xy} {pc : Nat} :
    Chg { tiles := true } s (s.textCome t pc) := by
  unfold State.textCome
  exact .onModTile .refl .plain

theorem State.issueTriple_chg {s : State} {t : Xy} {stall : Bool} :
    Chg { regions := true, tiles := true, gals := true } s (s.issueTriple t stall) := by
  unfold State.issueTriple
  exact .via (.onModTile (.ite (.via .refl .modRegion) .refl) .plain) State.releaseRing_chg

theorem State.serveTile_chg {s : State} {y : Nat} :
    Chg { tiles := true, occ := true, fns := true, regs := true } s (s.serveTile y).s := by
  unfold State.serveTile
  have hserved : Chg { tiles := true, occ := true, fns := true, regs := true } s _ := serveReqs_chg (y := y) (qs := sortPrio
    ((s.tile y).bankq.filter fun q => decide (q.due ≤ s.sched)))
    (r := ⟨s, s.banksUsed y, [], []⟩) .refl
  exact .ite (.onModTile (.onModTile hserved .plain) Tile.stallAt_tchg) (.onModTile hserved .plain)

theorem State.textWait_chg {s : State} {t : Xy} {block : Nat} {ws : List Wait} :
    Chg { tiles := true, regs := true } s (s.textWait t block ws) := by
  unfold State.textWait
  exact .onModTile (.via (.onModTile .refl .plain) State.slip_chg) .plain

theorem State.askQueue_chg {s : State} {y : Nat} {x : Instr} :
    Chg { gals := true } s (s.askQueue y x) := by
  unfold State.askQueue
  split
  · exact .ite (.via .refl .modGal) .refl
  · exact .refl

theorem execTripleIssue_does {t : Xy} {s : State} :
    Does { tiles := true, occ := true, fns := true, regs := true, gals := true, regions := true } s (execTripleIssue t s) := by
  unfold execTripleIssue
  exact .next (.ite .refl (.ite (.via (.via (.onTile .refl (.via .refl Tile.advance_tchg)) State.serveTile_chg) State.slip_chg)
    (.ite (.via (.via (.onTile .refl (.via .refl Tile.advance_tchg)) State.serveTile_chg) State.textWait_chg)
    (.ite (.via (.via (.via (.via (.via (.onTile .refl (.via .refl Tile.advance_tchg)) State.serveTile_chg) State.textCome_chg)
    State.useBanks_chg) State.askQueue_chg) State.issueTriple_chg)
    (.via (.onModTile (.via (.via (.onTile .refl (.via .refl Tile.advance_tchg)) State.serveTile_chg) State.textCome_chg) .plain)
    State.slip_chg)))))

/-! ## Mesh -/

theorem State.modPkt_chg {s : State} {id : Nat} {f : MPkt → MPkt} :
    Chg { mpkts := true } s (s.modPkt id f) := by
  unfold State.modPkt
  exact .plain

theorem State.dropPkt_chg {s : State} {id : Nat} :
    Chg { mpkts := true } s (s.dropPkt id) := by
  unfold State.dropPkt
  exact .plain

theorem State.newPkt_chg {s : State} {p : MPkt} :
    Chg { mpkts := true, nextId := true } s (s.newPkt p) := by
  unfold State.newPkt
  exact .plain

theorem State.meshRead_chg {s : State} {y : Nat} {i : Instr} :
    Chg { tiles := true, occ := true, fns := true, regs := true } s (s.meshRead y i).1 := by
  unfold State.meshRead
  exact .via .refl State.readAll_chg

theorem execCput_does {t : Xy} {pr : Fin 16} {sa : Fin 32} {agSrc agDst : Fin 16} {dh : Fin 64} {s : State} :
    Does { tiles := true, regs := true, occ := true, fns := true, mpkts := true, nextId := true }
    s (execCput t pr sa agSrc agDst dh s) := by
  unfold execCput
  dsimp only
  refine .slotOut .refl (fun _ => ?_) (fun _ => .refl)
  split
  · exact .ite (.via (.onModTile (.via .refl State.meshRead_chg) .plain) State.newPkt_chg) (.via .refl State.meshFault_chg)
  · exact .via .refl State.meshFault_chg

theorem execNput_does {t : Xy} {pr : Fin 16} {dir : Dir} {agSrc agDst : Fin 16} {dh : Fin 64} {s : State} :
    Does { tiles := true, regs := true, occ := true, fns := true, mpkts := true, nextId := true }
    s (execNput t pr dir agSrc agDst dh s) := by
  unfold execNput
  dsimp only
  refine .slotOut .refl (fun _ => ?_) (fun _ => .refl)
  split
  · exact .via (.onModTile (.via .refl State.meshRead_chg) .plain) State.newPkt_chg
  · exact .via (.onModTile (.via .refl State.meshRead_chg) .plain) State.newPkt_chg
  · exact .via .refl State.meshFault_chg

theorem State.depart_chg {s : State} {p : MPkt} :
    Chg { mpkts := true, occ := true } s (s.depart p) := by
  unfold State.depart
  dsimp only
  split
  · split
    · exact .ite (.foldl (fun _ _ => .via .refl State.occAdd_chg) _ (.via .refl State.modPkt_chg)) .refl
    · exact .refl
  · exact .ite .refl (.foldl (fun _ _ => .via .refl State.occAdd_chg) _ (.via .refl State.modPkt_chg))
  · exact .ite .refl (.foldl (fun _ _ => .via .refl State.occAdd_chg) _ (.via .refl State.modPkt_chg))
  · exact .refl

theorem execPacketDepart_does {pkt : Nat} {s : State} :
    Does { mpkts := true, occ := true } s (execPacketDepart pkt s) := by
  unfold execPacketDepart
  refine .next ?_
  split
  · exact .ite .refl (.via .refl State.depart_chg)
  · exact .refl

theorem Chg.landAt {P : Foot} {s u : State} {p : MPkt} {h' off : Nat} {space : Bool} {f : State → State} (h : Chg P s u)
    (hf : ∀ v, Chg P v (f v))
    (hle : ({ tiles := true, occ := true, fns := true, regs := true } : Foot).or P = P := by rfl) : Chg P s (u.landAt p h' off
      space f) := by
  have hserve : Chg P s (u.bufServe p.dst p.id (landAcc h' off space) (u.landTaken p)).1 :=
    h.via (.mono (Q := { tiles := true, occ := true, fns := true, regs := true }) State.bufServe_chg) hle
  have hwrite (v : State) (e : Hnd) : Chg P v (v.spWriteE p.dst p.pc h' e space off p.data) :=
    .mono (.mono (Q := { tiles := true, occ := true, fns := true, regs := true }) State.spWriteE_chg) hle
  unfold State.landAt
  refine .ite ?_ h
  split
  · exact ((hserve.ofFst).trans (hwrite _ _)).trans (hf _)
  · exact hserve.ofFst

theorem Chg.egressUnit {P : Foot} {s u : State} {p : MPkt} {f : State → State} (h : Chg P s u) (hf : ∀ v, Chg P v (f v))
    (hle : ({ fab := true } : Foot).or P = P := by rfl) : Chg P s (u.egressUnit p f) :=
  .ite ((h.via .modFdie hle).trans (hf _)) h

theorem State.noRight_chg {s : State} {p : MPkt} :
    Chg { fns := true, regs := true } s (s.noRight p) := by
  unfold State.noRight
  exact .via (.via .refl State.rightsFault_chg) State.rightsFault_chg

theorem State.landPkt_chg {s : State} {p : MPkt} :
    Chg { tiles := true, occ := true, fns := true, regs := true, mpkts := true, fab := true } s (s.landPkt p) := by
  unfold State.landPkt
  dsimp only
  split
  · exact .landAt .refl (fun _ => .via .refl State.modPkt_chg)
  · exact .landAt .refl (fun _ => .via .refl State.modPkt_chg)
  · exact .egressUnit .refl (fun _ => .via .refl State.modPkt_chg)
  · exact .landAt .refl (fun _ => .via .refl State.dropPkt_chg)
  · exact .landAt .refl (fun _ => .via .refl State.dropPkt_chg)
  · exact .ite (.landAt .refl (fun _ => .via .refl State.dropPkt_chg)) (.via (.via .refl State.noRight_chg) State.dropPkt_chg)
  · exact .refl

theorem execPacketLand_does {pkt : Nat} {s : State} :
    Does { tiles := true, occ := true, fns := true, regs := true, mpkts := true, fab := true } s (execPacketLand pkt s) := by
  unfold execPacketLand
  refine .next ?_
  split
  · exact .ite .refl (.via .refl State.landPkt_chg)
  · exact .refl

theorem execCreditReturn_does {pkt : Nat} {s : State} :
    Does { tiles := true, mpkts := true } s (execCreditReturn pkt s) := by
  unfold execCreditReturn
  refine .next ?_
  split
  · split
    · refine .ite .refl (.via (.onModTile .refl ?_) State.dropPkt_chg)
      exact .ite .plain .plain
    · exact .refl
  · exact .refl

theorem State.enterPkt_chg {s : State} {p : MPkt} :
    Chg { mpkts := true, nextId := true } s (s.enterPkt p) := by
  unfold State.enterPkt
  exact .via .refl State.newPkt_chg

theorem State.settleQueue_chg {s : State} {y : Nat} {d : Dir} :
    Chg { mpkts := true } s (s.settleQueue y d) := by
  unfold State.settleQueue
  exact .plain

theorem execWget_does {t : Xy} {pr : Fin 16} {f : WinF} {s : State} :
    Does { tiles := true, regs := true, mpkts := true, nextId := true, fns := true } s (execWget t pr f s) := by
  unfold execWget
  exact .slotOut .refl (fun _ => .ite (.via .refl State.enterPkt_chg) (.via (.via .refl State.meshFault_chg) State.newPkt_chg))
    (fun _ => .refl)

theorem execWput_does {t : Xy} {pr : Fin 16} {f : WinF} {s : State} :
    Does { tiles := true, regs := true, occ := true, fns := true, mpkts := true, nextId := true } s (execWput t pr f s) := by
  unfold execWput
  refine .slotOut .refl (fun _ => ?_) (fun _ => .refl)
  dsimp only
  exact .ite (.via (.via .refl State.meshRead_chg) State.enterPkt_chg) (.via .refl State.meshFault_chg)

theorem State.hopPkt_chg {s : State} {p : MPkt} {d : Dir} {z : Nat} :
    Chg { mpkts := true } s (s.hopPkt p d z) := by
  unfold State.hopPkt
  exact .via .refl State.modPkt_chg

theorem execWindowPacketHop_does {t : Xy} {dir : Dir} {s : State} :
    Does { fns := true, regs := true, mpkts := true, occ := true } s (execWindowPacketHop t dir s) := by
  unfold execWindowPacketHop
  dsimp only
  refine .next ?_
  split
  · exact .ite .refl (.ite (.via (.via (.via (.ite (.via .refl State.meetingFault_chg) .refl) State.hopPkt_chg)
      State.settleQueue_chg) State.occAdd_chg) (.ite (.via .refl State.meetingFault_chg) .refl))
  · exact .refl

theorem State.windowReply_chg {s : State} {p : MPkt} {bs : List Byte} :
    Chg { mpkts := true } s (s.windowReply p bs) := by
  unfold State.windowReply
  exact .via .refl State.modPkt_chg

theorem execWindowReadServe_does {pkt : Nat} {s : State} :
    Does { tiles := true, occ := true, fns := true, regs := true, mpkts := true, fab := true } s (execWindowReadServe pkt s) := by
  unfold execWindowReadServe
  dsimp only
  refine .next ?_
  split
  · refine .ite .refl ?_
    refine .ite (.via .refl State.landPkt_chg) ?_
    refine .ite .refl ?_
    split
    · exact .via (.via .refl State.noRight_chg) State.windowReply_chg
    · refine .ite ?_ .refl
      split
      · exact .via (.via (.ofFst (.via .refl State.bufServe_chg)) State.spReadE_chg) State.windowReply_chg
      · exact .ofFst (.via .refl State.bufServe_chg)
  · exact .refl

/-! ## Queue -/

theorem State.modAcc_chg {s : State} {id : Nat} {f : QAcc → QAcc} :
    Chg { accs := true } s (s.modAcc id f) := by
  unfold State.modAcc
  exact .plain

theorem State.windowDelay_chg {s : State} {a : QAcc} {gs : List Nat} {last : Nat → Nat} :
    Chg { fns := true, regs := true, accs := true } s (s.windowDelay a gs last) := by
  unfold State.windowDelay
  exact .foldl (fun _ _ => .ite .refl (.via (.via .refl State.windowNote_chg) State.modAcc_chg)) _ .refl

theorem State.pushAcc_chg {s : State} {a : QAcc} :
    Chg { accs := true, nextId := true } s (s.pushAcc a) := by
  unfold State.pushAcc
  exact .plain

theorem State.takeAsked_chg {s : State} {y : Nat} :
    Chg { gals := true } s (s.takeAsked y) := by
  unfold State.takeAsked
  exact .via .refl .modGal

theorem State.queueOp_chg {s : State} {y : Nat} {f : QueueF} {write : Bool} :
    Chg { gals := true, fns := true, regs := true, accs := true, nextId := true } s (s.queueOp y f write) := by
  unfold State.queueOp
  exact .ite (.via (.via (.ite (.via (.via .refl State.takeAsked_chg) State.event_chg) (.via .refl State.takeAsked_chg))
    State.pushAcc_chg) .setFld) (.via (.via (.via .refl State.takeAsked_chg) State.event_chg) State.pushAcc_chg)

theorem State.queueSupp_chg {s : State} {y : Nat} {f : QueueF} {write : Bool} :
    Chg { accs := true, nextId := true } s (s.queueSupp y f write) := by
  unfold State.queueSupp
  exact .via .refl State.pushAcc_chg

theorem execQrd_does {t : Xy} {pr : Fin 16} {f : QueueF} {s : State} :
    Does { tiles := true, regs := true, gals := true, fns := true, accs := true, nextId := true } s (execQrd t pr f s) := by
  unfold execQrd
  exact .slotOut .refl (fun _ => .via .refl State.queueOp_chg) (fun _ => .via .refl State.queueSupp_chg)

theorem State.sourceBanks_chg {s : State} {y : Nat} {f : QueueF} :
    Chg { tiles := true } s (s.sourceBanks y f) := by
  unfold State.sourceBanks
  exact .ite (.foldl (fun _ _ => .via .refl State.pushReq_chg) _ .refl) .refl

theorem execQwr_does {t : Xy} {pr : Fin 16} {f : QueueF} {s : State} :
    Does { tiles := true, regs := true, gals := true, fns := true, accs := true, nextId := true } s (execQwr t pr f s) := by
  unfold execQwr
  exact .slotOut .refl (fun _ => .via (.via .refl State.sourceBanks_chg) State.queueOp_chg) (fun _ => .via .refl
    State.queueSupp_chg)

theorem execQwait_does {t : Xy} {pr : Fin 16} {mask : BitVec 16} {s : State} :
    Does { tiles := true, regs := true } s (execQwait t pr mask s) := by
  unfold execQwait
  exact .slotOut (.ite (.onModTile .refl .plain) .refl) (fun _ => .onModTile .refl .plain) (fun _ => .onModTile .refl .plain)

theorem execQwrSourceRead_does {acc : Nat} {s : State} :
    Does { tiles := true, occ := true, fns := true, regs := true, accs := true } s (execQwrSourceRead acc s) := by
  unfold execQwrSourceRead
  dsimp only
  refine .next ?_
  split
  · refine .ite .refl ?_
    refine .ite (.ite .refl (.via (.via .refl State.spReadE_chg) State.modAcc_chg)) ?_
    split
    · exact .via (.via (.ofFst (.via .refl State.bufServeE_chg)) State.spReadE_chg) State.modAcc_chg
    · exact .ofFst (.via .refl State.bufServeE_chg)
  · exact .refl

theorem execQueueRequestArrive_does {acc : Nat} {s : State} :
    Does { accs := true, regions := true, fns := true, regs := true } s (execQueueRequestArrive acc s) := by
  unfold execQueueRequestArrive
  dsimp only
  refine .next ?_
  split
  · exact .ite .refl (.ite (.via .refl State.modAcc_chg) (.via (.via (.via (.via .refl State.modAcc_chg) State.modAcc_chg)
      .modRegion) State.event_chg))
  · exact .refl

theorem State.openWait_chg {s : State} {p id : Nat} :
    Chg { reqs := true, anx := true } s (s.openWait p id) := by
  unfold State.openWait
  exact .via (.ite .plain .refl) .modAnnex

theorem State.closeWait_chg {s : State} {p : Nat} {ids : List Nat} :
    Chg { anx := true, reqs := true } s (s.closeWait p ids) := by
  unfold State.closeWait
  exact .ite (.via .refl .modAnnex) (.via (.via .refl .modAnnex) .setReqs)

theorem State.predictLate_chg {s : State} {a : QAcc} {ch ready : Nat} :
    Chg { reqs := true, regs := true, fns := true, accs := true } s (s.predictLate a ch ready) := by
  unfold State.predictLate
  exact .ite .refl (.via (.via (.via .refl State.request_chg) .satAdd) State.windowDelay_chg)

theorem execCommitPoint_does {acc : Nat} {ready : List (Nat × Nat)} {s : State} :
    Does { accs := true, reqs := true, anx := true, regs := true, fns := true } s (execCommitPoint acc ready s) := by
  unfold execCommitPoint
  dsimp only
  refine .next ?_
  split
  · refine .ite .refl ?_
    split
    · exact .ite (.via .refl State.modAcc_chg) (.via (.via .refl State.modAcc_chg) State.openWait_chg)
    · exact .foldl (fun _ _ => .via .refl State.predictLate_chg) _ (.via .refl State.modAcc_chg)
  · exact .refl

theorem State.granuleBytes_chg {s : State} {a : QAcc} {g : Nat} :
    Chg { freeCtr := true } s (s.granuleBytes a g).1 := by
  unfold State.granuleBytes
  dsimp only
  split
  · exact .via .refl State.mixed_chg
  · exact .refl

theorem State.capture_chg {s : State} {w : QAcc} {g : Nat} :
    Chg { accs := true } s (s.capture w g) := by
  unfold State.capture
  exact .plain

theorem State.granuleEffect_chg {s : State} {a : QAcc} {g : Nat} :
    Chg { freeCtr := true, accs := true, ext := true } s (s.granuleEffect a g) := by
  unfold State.granuleEffect
  exact .ite (.via .refl State.granuleBytes_chg) (.via (.via (.via .refl State.granuleBytes_chg) State.capture_chg) (.setExt fun h
    => memWf_wrBytes _ _ h))

theorem State.writeEffect_chg {s : State} {a : QAcc} :
    Chg { freeCtr := true, accs := true, ext := true } s (s.writeEffect a) := by
  unfold State.writeEffect
  exact .via (.foldl (fun _ _ => .via .refl State.granuleEffect_chg) _ .refl) State.modAcc_chg

theorem State.takeData_chg {s : State} {a : QAcc} {g : Nat} :
    Chg { accs := true } s (s.takeData a g) := by
  unfold State.takeData
  exact .via .refl State.modAcc_chg

theorem execGranuleServe_does {acc gran : Nat} {res : GranRes} {s : State} :
    Does { fns := true, regs := true, occ := true, chans := true, accs := true, freeCtr := true, ext := true }
    s (execGranuleServe acc gran res s) := by
  unfold execGranuleServe
  dsimp only
  refine .next ?_
  split
  · exact .ite .refl (.ite (.ite (.via (.via (.via (.via .refl State.granRecord_chg) State.granBusy_chg) State.modAcc_chg)
      State.granuleEffect_chg) (.via (.via (.via (.via .refl State.granRecord_chg) State.granBusy_chg) State.modAcc_chg)
      State.takeData_chg)) (.via (.via (.via .refl State.granRecord_chg) State.granBusy_chg) State.modAcc_chg))
  · exact .refl

theorem execWriteTakesEffect_does {acc : Nat} {s : State} :
    Does { accs := true, freeCtr := true, ext := true } s (execWriteTakesEffect acc s) := by
  unfold execWriteTakesEffect
  refine .next ?_
  split
  · exact .ite .refl (.ite (.via .refl State.modAcc_chg) (.ite .refl (.via .refl State.writeEffect_chg)))
  · exact .refl

theorem State.lateLanding_chg {s : State} {a : QAcc} {k : Nat} :
    Chg { fns := true, regs := true, accs := true } s (s.lateLanding a k) := by
  unfold State.lateLanding
  exact .ite (.ite (.via (.via .refl State.event_chg) State.windowDelay_chg) (.via .refl State.event_chg)) .refl

theorem execQueueLanding_does {acc : Nat} {s : State} :
    Does { tiles := true, fns := true, regs := true, accs := true, regions := true, occ := true } s (execQueueLanding acc s) := by
  unfold execQueueLanding
  dsimp only
  refine .next ?_
  split
  · refine .ite .refl ?_
    split
    · exact .ofFst (.via .refl State.bufServe_chg)
    · exact .via (.via (.ite (.via (.via (.ofFst (.via .refl State.bufServe_chg)) State.lateLanding_chg) .modRegion)
        (.via (.ofFst (.via .refl State.bufServe_chg)) State.lateLanding_chg)) State.spWriteE_chg) State.modAcc_chg
  · exact .refl

/-! ## ExtMem -/

theorem Chg.absentOr {P : Foot} {s u : State} {die off : Nat} {f : State → State} (h : Chg P s u) (hf : ∀ v, Chg P v (f v))
    (hle : ({ fns := true, regs := true } : Foot).or P = P := by rfl) : Chg P s (u.absentOr die off f) := by
  unfold State.absentOr
  exact .ite (h.via State.event_chg hle) (h.trans (hf _))

theorem State.refreshBank_chg {s : State} {ch bank : Nat} :
    Chg { chans := true } s (s.refreshBank ch bank) := by
  unfold State.refreshBank
  exact .via .refl .modChan

theorem State.scrubOne_chg {s : State} {ch : Nat} {res : GranRes} :
    Chg { fns := true, regs := true, occ := true, chans := true } s (s.scrubOne ch res) := by
  unfold State.scrubOne
  exact .via (.via (.via .refl State.granRecord_chg) State.granBusy_chg) .modChan

theorem State.trimSlot_chg {s : State} {ch : Nat} {res : GranRes} :
    Chg { chans := true, fns := true, regs := true, occ := true } s (s.trimSlot ch res) := by
  unfold State.trimSlot
  dsimp only
  split
  · exact .ite (.via (.via (.ite (.via .refl .modChan) (.via (.via .refl .modChan) State.trimNow_chg)) State.retrimCheck_chg)
      .modChan) (.via (.ite (.via .refl .modChan) (.via (.via .refl .modChan) State.trimNow_chg)) State.retrimCheck_chg)
  · exact .via (.via (.ite (.via .refl .modChan) (.via (.via .refl .modChan) State.trimNow_chg)) State.retrimCheck_chg)
      State.scrubOne_chg

theorem execCalendarWindowOpen_does {ch : Nat} {j : Fin 4} {scrubFixed : GranRes} {s : State} :
    Does { chans := true, fns := true, regs := true, occ := true } s (execCalendarWindowOpen ch j scrubFixed s) := by
  unfold execCalendarWindowOpen
  exact .next (.ite .refl (.ite (.via (.foldl (fun _ _ => .via .refl State.refreshBank_chg) _ .refl) State.trimSlot_chg)
    (.foldl (fun _ _ => .via .refl State.refreshBank_chg) _ .refl)))

theorem execRetrimComplete_does {ch : Nat} {s : State} :
    Does { chans := true, boot := true, nextId := true, fns := true, regs := true } s (execRetrimComplete ch s) := by
  unfold execRetrimComplete
  dsimp only
  refine .next ?_
  split
  · exact .ite .refl (.via (.via (.via (.ite (.via .refl .modChan) (.via (.via .refl .modChan) State.keepSet_chg)) .setNextId)
      State.event_chg) State.retrimCheck_chg)
  · exact .refl

theorem execTemperatureBinChange_does {ch : Nat} {temp : BitVec 8} {s : State} :
    Does { fns := true, regs := true, chans := true } s (execTemperatureBinChange ch temp s) := by
  unfold execTemperatureBinChange
  exact .next (.ite .refl (.via (.via (.ite (.via .refl State.event_chg) .refl) .modChan) State.retrimCheck_chg))

theorem State.writeMemCal_chg {s : State} {ch v : Nat} :
    Chg { regs := true, chans := true } s (s.writeMemCal ch v) := by
  unfold State.writeMemCal
  exact .ite (.via (.via .refl .setFld) State.retrimStart_chg) (.via (.via .refl .setFld) State.retrimCheck_chg)

theorem execRetrimForce_does {by_ : Writer} {ch off : Nat} {val : BitVec 32} {s : State} :
    Does { fns := true, regs := true, chans := true } s (execRetrimForce by_ ch off val s) := by
  unfold execRetrimForce
  exact .next (.gated .refl (fun _ => .absentOr .refl (fun _ => .via .refl State.writeMemCal_chg)))

theorem execHoldRefresh_does {ch : Nat} {bank : Fin 16} {s : State} :
    Does { chans := true } s (execHoldRefresh ch bank s) := by
  unfold execHoldRefresh
  exact .next (.ite .refl (.via .refl State.refreshBank_chg))

theorem execRefreshOverdue_does {ch : Nat} {bank : Fin 16} {s : State} :
    Does { reqs := true, regs := true, chans := true } s (execRefreshOverdue ch bank s) := by
  unfold execRefreshOverdue
  exact .next (.ite .refl (.via (.via (.via .refl State.request_chg) .satAdd) .modChan))

theorem execMemRefWrite_does {by_ : Writer} {ch off : Nat} {val : BitVec 32} {s : State} :
    Does { fns := true, regs := true, chans := true } s (execMemRefWrite by_ ch off val s) := by
  unfold execMemRefWrite
  exact .next (.gated .refl (fun _ => .absentOr .refl (fun _ => .imgWrite .refl (fun _ => .ite (.via .refl State.imageBusy_chg)
    (.ite (.via .refl State.event_chg) (.via (.via (.via .refl .modChan) .rwWrite) State.modified_chg))))))

theorem State.annexPoison_chg {s : State} {p addr : Nat} :
    Chg { regs := true, fns := true } s (s.annexPoison p addr) := by
  unfold State.annexPoison
  exact .via (.via (.via (.via .refl State.lossSeen_chg) State.event_chg) .satAdd) State.errLog_chg

theorem execAnnexRequestSend_does {port : Fin 2} {acc : Nat} {s : State} :
    Does { accs := true, occ := true } s (execAnnexRequestSend port acc s) := by
  unfold execAnnexRequestSend
  refine .next ?_
  split
  · exact .ite .refl (.via (.via .refl State.modAcc_chg) State.occAdd_chg)
  · exact .refl

theorem State.annexData_chg {s : State} {a : QAcc} :
    Chg { accs := true } s (s.annexData a) := by
  unfold State.annexData
  exact .via (.ite (.foldl (fun _ _ => .via .refl State.takeData_chg) _ .refl) .refl) State.modAcc_chg

theorem execAnnexResponse_does {port : Fin 2} {acc : Nat} {res : AnxRes} {s : State} :
    Does { anx := true, reqs := true, freeCtr := true, accs := true, ext := true, occ := true, regs := true, fns := true }
    s (execAnnexResponse port acc res s) := by
  unfold execAnnexResponse
  dsimp only
  refine .next ?_
  split
  · exact .ite .refl (.ite (.via (.via (.via .refl State.closeWait_chg) State.writeEffect_chg) State.modAcc_chg)
      (.via (.foldl (fun _ _ => .via .refl State.annexPoison_chg) _ (.via (.via (.via .refl State.closeWait_chg)
      State.annexData_chg) State.occAdd_chg)) State.modAcc_chg))
  · exact .refl

theorem State.annexFail_chg {s : State} {p : Nat} :
    Chg { anx := true, reqs := true, accs := true, regs := true } s (s.annexFail p) := by
  unfold State.annexFail
  exact .via (.via (.via (.via .refl State.closeWait_chg) .setAccs) .setFld) .satAdd

theorem State.annexLate_chg {s : State} {p addr : Nat} :
    Chg { anx := true, reqs := true, accs := true, regs := true, fns := true } s (s.annexLate p addr) := by
  unfold State.annexLate
  exact .via (.via (.via (.via .refl State.annexFail_chg) State.errLog_chg) State.lossSeen_chg) State.event_chg

theorem execAnnexTimeout_does {port : Fin 2} {s : State} :
    Does { anx := true, reqs := true, accs := true, regs := true, fns := true } s (execAnnexTimeout port s) := by
  unfold execAnnexTimeout
  refine .next ?_
  split
  · exact .ite (.via .refl State.annexLate_chg) .refl
  · exact .refl

theorem execAnnexLinkDown_does {port : Fin 2} {s : State} :
    Does { anx := true, reqs := true, accs := true, regs := true, fns := true } s (execAnnexLinkDown port s) := by
  unfold execAnnexLinkDown
  exact .next (.ite (.via (.via .refl State.annexFail_chg) State.event_chg) .refl)

theorem State.mapAnnex_chg {s : State} :
    Chg { regs := true } s (s.mapAnnex) := by
  unfold State.mapAnnex
  exact .via (.via .refl .setFld) .setFld

theorem State.annexState_chg {s : State} {p st : Nat} :
    Chg { regs := true, fns := true } s (s.annexState p st) := by
  unfold State.annexState
  exact .via (.via .refl .setFld) State.event_chg

theorem State.annexTrain_chg {s : State} {p : Nat} :
    Chg { regs := true, fns := true } s (s.annexTrain p) := by
  unfold State.annexTrain
  exact .via (.via .refl .setFld) State.annexState_chg

theorem execAnnexTrainingEnd_does {port : Fin 2} {link : Option AnxLink} {s : State} :
    Does { regs := true, fns := true, anx := true } s (execAnnexTrainingEnd port link s) := by
  unfold execAnnexTrainingEnd
  dsimp only
  refine .next ?_
  refine .ite .refl ?_
  split
  · exact .via (.via .refl State.annexState_chg) State.mapAnnex_chg
  · exact .via (.via (.via (.via (.via .refl .setFld) .setFld) .modAnnex) State.annexState_chg) State.mapAnnex_chg

theorem State.writeAnxCtl_chg {s : State} {by_ : Writer} {port off v : Nat} :
    Chg { fns := true, regs := true, anx := true, reqs := true, accs := true } s (s.writeAnxCtl by_ port off v) := by
  unfold State.writeAnxCtl
  exact .gated .refl (fun _ => .imgWrite .refl (fun _ => .ite (.via (.via .refl .setFld) State.imageBusy_chg)
    (.ite (.via (.ite (.via (.via (.via .refl .setFld) State.annexFail_chg) .setFld) (.via .refl .setFld)) State.annexTrain_chg)
    (.via .refl .setFld))))

theorem execAnnexRetrain_does {by_ : Writer} {port : Fin 2} {off : Nat} {val : BitVec 32} {s : State} :
    Does { fns := true, regs := true, anx := true, reqs := true, accs := true } s (execAnnexRetrain by_ port off val s) := by
  unfold execAnnexRetrain
  exact .next (.via .refl State.writeAnxCtl_chg)

/-! ## Tick -/

theorem State.milugPass_chg {s : State} {n : Nat} :
    Chg { milug := true } s (s.milugPass n) := by
  unfold State.milugPass
  exact .via .refl .modMilugPlain

theorem State.tickWall_chg {s : State} :
    Chg { clk := true, milug := true, regs := true } s (s.tickWall) := by
  unfold State.tickWall
  exact .ite (.via (.ite (.via .refl .modClk) .refl) State.milugPass_chg) (.via (.via (.via (.ite (.via .refl .modClk) .refl)
    State.milugPass_chg) .setReg) .modClk)

theorem State.keepHeld_chg {s : State} :
    Chg { heldRuns := true } s (s.keepHeld) := by
  unfold State.keepHeld
  exact .ite .plain (.ite .refl .plain)

theorem State.tickHold_chg {s : State} :
    Chg { regs := true, hold := true } s (s.tickHold) := by
  unfold State.tickHold
  dsimp only
  split
  · exact .ite (.via (.via .refl .setFld) .setHold) .refl
  · exact .refl

theorem State.dropPast_chg {s : State} :
    Chg { reqs := true } s (s.dropPast) := by
  unfold State.dropPast
  exact .ite .refl .plain

theorem State.parkBegins_chg {s : State} :
    Chg { chans := true, fns := true, regs := true } s (s.parkBegins) := by
  unfold State.parkBegins
  split
  · exact .ite (.via .refl State.parkTrim_chg) .refl
  · exact .refl

/-! ## Peer -/

theorem State.setUnsync_chg {s : State} :
    Chg { regs := true, fns := true, fab := true } s (s.setUnsync) := by
  unfold State.setUnsync
  exact .ite (.via (.via (.via (.via (.ite .refl (.via (.via .refl .setFld) State.event_chg)) .modFab) .setFld) State.event_chg)
    .modFab) (.via (.ite .refl (.via (.via .refl .setFld) State.event_chg)) .modFab)

theorem State.queueOn_chg {s : State} {port : Nat} {p : Packet} :
    Chg { links := true } s (s.queueOn port p) := by
  unfold State.queueOn
  exact .via .refl .modLink

theorem State.sendMsg_chg {s : State} {dest type : Nat} {ref : BitVec 64} {args : List Nat} {body : List Byte} :
    Chg { fab := true } s (s.sendMsg dest type ref args body) := by
  unfold State.sendMsg
  exact .via (.via .refl .modFab) .modFdie

theorem State.sendArgs_chg {s : State} {dest type : Nat} {ref : BitVec 64} {args : List Nat} :
    Chg { fab := true } s (s.sendArgs dest type ref args) := by
  unfold State.sendArgs
  exact .via .refl State.sendMsg_chg

theorem State.dropMsg_chg {s : State} {type : Nat} {mine : Reasm → Bool} :
    Chg { fab := true } s (s.dropMsg type mine) := by
  unfold State.dropMsg
  exact .via .refl .modFab

theorem Chg.onMsg {P : Foot} {s u : State} {type : Nat} {mine : Reasm → Bool} {f : State → State} (h : Chg P s u)
    (hf : ∀ v, Chg P v (f v))
    (hle : ({ fab := true } : Foot).or P = P := by rfl) : Chg P s (u.onMsg type mine f) :=
  .ite ((h.via State.dropMsg_chg hle).trans (hf _)) h

theorem State.dropArrived_chg {s : State} {mine : Packet → Bool} :
    Chg { fab := true } s (s.dropArrived mine) := by
  unfold State.dropArrived
  exact .via .refl .modFdie

theorem Chg.onArrived {P : Foot} {s u : State} {mine : Packet → Bool} {f : State → State} (h : Chg P s u) (hf : ∀ v, Chg P v (f v))
    (hle : ({ fab := true } : Foot).or P = P := by rfl) : Chg P s (u.onArrived mine f) :=
  .ite ((h.via State.dropArrived_chg hle).trans (hf _)) h

theorem State.notice_chg {s : State} {p : Packet} {cause : Nat} :
    Chg { fab := true } s (s.notice p cause) := by
  unfold State.notice
  exact .ite .refl (.via .refl State.sendMsg_chg)

theorem State.putCounts_chg {s : State} {e : Nat} {ps : List Nat} :
    Chg { ext := true } s (s.putCounts e ps) := by
  unfold State.putCounts
  dsimp only
  split
  · exact .via .refl (.setExt fun h => memWf_foldl (fun _ _ h => memWf_wrBytes _ _ h) _ h)
  · exact .refl

theorem State.setLeader_chg {s : State} :
    Chg { regs := true } s (s.setLeader) := by
  unfold State.setLeader
  exact .via .refl .setFld

theorem State.mirSend_chg {s : State} {type : Nat} {args : List Nat} {body : List Byte} :
    Chg { fab := true, links := true } s (s.mirSend type args body) := by
  unfold State.mirSend
  dsimp only
  split
  · exact .refl
  · exact .foldl (fun _ _ => .via .refl State.queueOn_chg) _ (.via .refl .modFab)

theorem State.freeMirror_chg {s : State} :
    Chg { engs := true, ext := true, mir := true } s (s.freeMirror) := by
  unfold State.freeMirror
  exact .via (.foldl (fun _ _ => .via (.via .refl .modEng) State.putCounts_chg) _ .refl) .modMir

theorem State.abandon_chg {s : State} :
    Chg { mir := true, wts := true, engs := true, regs := true, fns := true } s (s.abandon) := by
  unfold State.abandon
  extract_lets act cmds s1 s2 open_ s3 s4
  have h2 : Chg { mir := true, wts := true, engs := true, regs := true, fns := true } s s2 := .via (.via .refl .modMir) .modWts
  have h3 : Chg { mir := true, wts := true, engs := true, regs := true, fns := true } s s3 :=
    .ite (.via h2 (.setEngs fun h => keysRise_of_keys h)) h2
  have h4 : Chg { mir := true, wts := true, engs := true, regs := true, fns := true } s s4 :=
    .foldl (fun _ _ => .mono State.complete_chg) _ h3
  generalize act = a
  cases a with
  | none => exact h4
  | some c => exact .via h4 State.complete_chg

theorem State.setPair_chg {s : State} {st : Nat} :
    Chg { mir := true, wts := true, engs := true, regs := true, fns := true, ext := true } s (s.setPair st) := by
  unfold State.setPair
  exact .ite .refl (.ite (.via (.via (.via (.ite .refl (.via .refl State.abandon_chg)) .setFld) State.event_chg)
    State.freeMirror_chg) (.via (.via (.ite .refl (.via .refl State.abandon_chg)) .setFld) State.event_chg))

theorem State.takeVoice_chg {s : State} {from_ : Nat} :
    Chg { fns := true, engs := true, mir := true } s (s.takeVoice from_) := by
  unfold State.takeVoice
  extract_lets due t
  have hemis : Chg { fns := true, engs := true, mir := true } s t := .foldl (fun _ _ => .mono .modFunc) _ .refl
  exact .via (u := { t with mir := { t.mir with pendEmis := [] } }) (.via hemis .setMir)
    (.setEngs fun h => keysRise_of_keys h)

theorem State.checkLoss_chg {s : State} :
    Chg { mir := true, wts := true, engs := true, regs := true, fns := true, ext := true } s (s.checkLoss) := by
  unfold State.checkLoss
  exact .ite (.ite (.via (.via (.via (.via (.via .refl State.setPair_chg) State.event_chg) .satAdd) .modMir) State.takeVoice_chg)
    (.via (.via (.via (.via .refl State.setPair_chg) State.event_chg) .satAdd) .modMir)) .refl

theorem State.tellHello_chg {s : State} :
    Chg { fab := true, links := true } s (s.tellHello) := by
  unfold State.tellHello
  exact .ite .refl (.via .refl State.mirSend_chg)

theorem State.sendHello_chg {s : State} :
    Chg { fab := true, links := true, mir := true } s (s.sendHello) := by
  unfold State.sendHello
  exact .ite (.via .refl State.tellHello_chg) (.via (.via .refl State.tellHello_chg) .modMir)

/-! ## Dma -/

theorem State.loadDesc_chg {s : State} {ix : Nat} {d : Desc} :
    Chg { regs := true } s (s.loadDesc ix d) := by
  unfold State.loadDesc
  exact .via (.via (.via (.via (.via .refl .setReg) .setReg) .setReg) .setReg) .setReg

theorem State.dmaRun_chg {s : State} {ix : Nat} :
    Chg { regs := true, dma := true } s (s.dmaRun ix) := by
  unfold State.dmaRun
  exact .via (.via (.via .refl .setFld) .setFld) .modDma

theorem State.dmaComplete_chg {s : State} {ix status : Nat} :
    Chg { dma := true, regs := true, fns := true } s (s.dmaComplete ix status) := by
  unfold State.dmaComplete
  split
  · exact .via (.via .refl .modDma) State.complete_chg
  · exact .refl

theorem State.bankDone_chg {s : State} {p : MPkt} :
    Chg { bankOut := true } s (s.bankDone p) := by
  unfold State.bankDone
  exact .plain

theorem State.dropDma_chg {s : State} {ix : Nat} {f : MPkt → Bool} :
    Chg { mpkts := true, bankOut := true, tiles := true } s (s.dropDma ix f) := by
  unfold State.dropDma
  exact .foldl (fun _ _ => .via (.onModTile (.ite (.via .refl State.bankDone_chg) .refl) .plain) State.settleQueue_chg) _ .plain

theorem State.dmaDrain_chg {s : State} {ix : Nat} {k : DrainKind} :
    Chg { mpkts := true, bankOut := true, tiles := true, dma := true } s (s.dmaDrain ix k) := by
  unfold State.dmaDrain
  exact .via (.via .refl State.dropDma_chg) .modDma

theorem State.dmaFail_chg {s : State} {ix : Nat} {write : Bool} {sp addr cause pos : Nat} :
    Chg { dma := true, mpkts := true, bankOut := true, tiles := true, regs := true } s (s.dmaFail ix write sp addr cause pos) := by
  unfold State.dmaFail
  exact .ite (.via (.via (.via (.ite .refl (.via .refl .modDma)) State.dropDma_chg) .setReg) .modDma)
    (.via (.via (.ite .refl (.via .refl .modDma)) State.dropDma_chg) .modDma)

theorem State.setDst_chg {s : State} {ix v : Nat} :
    Chg { regs := true } s (s.setDst ix v) := by
  unfold State.setDst
  exact .ite .refl (.via .refl .setReg)

theorem State.dmaSettle_chg {s : State} {ix : Nat} :
    Chg { regs := true, dma := true } s (s.dmaSettle ix) := by
  unfold State.dmaSettle
  exact .via (.via (.via (.via .refl .setReg) State.setDst_chg) .setReg) .modDma

theorem State.dmaHalt_chg {s : State} {ix : Nat} {write : Bool} {sp addr cause : Nat} :
    Chg { regs := true, dma := true, fns := true } s (s.dmaHalt ix write sp addr cause) := by
  unfold State.dmaHalt
  exact .via (.via (.via (.via (.via (.via (.via (.via .refl .setFld) .setFld) .setFld) .setFld) .modDma) .setReg) State.event_chg)
    State.dmaComplete_chg

theorem State.dmaDrained_chg {s : State} {ix : Nat} :
    Chg { regs := true, dma := true, fns := true } s (s.dmaDrained ix) := by
  unfold State.dmaDrained
  dsimp only
  split
  · exact .via (.via .refl State.dmaSettle_chg) .setFld
  · exact .via (.via (.via .refl State.dmaSettle_chg) .setFld) State.dmaComplete_chg
  · exact .via (.via .refl State.dmaSettle_chg) State.dmaHalt_chg
  · exact .via .refl State.dmaSettle_chg

theorem State.modBc_chg {s : State} {die : Nat} {f : Bc → Bc} :
    Chg { wts := true } s (s.modBc die f) := by
  unfold State.modBc
  exact .via .refl .modWts

theorem State.descEnd_chg {s : State} {ix : Nat} :
    Chg { regs := true, fns := true, dma := true, wts := true } s (s.descEnd ix) := by
  unfold State.descEnd
  dsimp only
  split
  · exact .ite (.via (.via (.via (.ite (.via (.via .refl .setFld) State.event_chg) (.via .refl .setFld)) .setReg) State.dmaRun_chg)
      State.modBc_chg) (.via (.via (.ite (.via (.via .refl .setFld) State.event_chg) (.via .refl .setFld)) State.dmaSettle_chg)
      .setFld)
  · exact .ite (.ite (.via (.via (.ite (.via (.via .refl .setFld) State.event_chg) (.via .refl .setFld)) State.dmaSettle_chg)
      State.dmaHalt_chg) (.ite (.via (.via (.ite (.via (.via .refl .setFld) State.event_chg) (.via .refl .setFld))
      State.dmaSettle_chg) State.dmaHalt_chg) (.via (.via (.ite (.via (.via .refl .setFld) State.event_chg) (.via .refl .setFld))
      State.dmaSettle_chg) .modDma))) (.ite (.via (.via (.via (.ite (.via (.via .refl .setFld) State.event_chg)
      (.via .refl .setFld)) State.dmaSettle_chg) .setFld) State.dmaComplete_chg)
      (.via (.via (.via (.ite (.via (.via .refl .setFld) State.event_chg) (.via .refl .setFld)) State.dmaSettle_chg) .setFld)
      State.dmaComplete_chg))

theorem State.fetchFails_chg {s : State} {ix addr cause : Nat} :
    Chg { dma := true, regs := true, fns := true } s (s.fetchFails ix addr cause) := by
  unfold State.fetchFails
  exact .via (.via .refl .modDma) State.dmaHalt_chg

theorem State.descRead_chg {s : State} {ix a : Nat} :
    Chg { dma := true, regs := true, fns := true } s (s.descRead ix a) := by
  unfold State.descRead
  dsimp only
  refine .ite (.via .refl State.fetchFails_chg) ?_
  split
  · exact .via (.via (.via .refl State.loadDesc_chg) .modDma) .setFld
  · exact .via (.via (.via (.via .refl State.loadDesc_chg) .modDma) .setFld) State.dmaComplete_chg
  · exact .via (.via (.via .refl State.loadDesc_chg) .modDma) State.dmaRun_chg

theorem State.dmaGot_chg {s : State} {ix : Nat} {bs : List Byte} :
    Chg { regs := true, dma := true } s (s.dmaGot ix bs) := by
  unfold State.dmaGot
  exact .via (.via .refl .setReg) .modDma

theorem State.dmaPut_chg {s : State} {ix n : Nat} :
    Chg { regs := true, dma := true, fns := true, wts := true } s (s.dmaPut ix n) := by
  unfold State.dmaPut
  exact .ite (.via (.via (.via (.via .refl State.setDst_chg) .setReg) .modDma) State.descEnd_chg)
    (.via (.via (.via .refl State.setDst_chg) .setReg) .modDma)

theorem State.sendChunk_chg {s : State} {die : Nat} {b : Bc} {child j : Nat} {data : List Byte} :
    Chg { fab := true } s (s.sendChunk die b child j data) := by
  unfold State.sendChunk
  exact .via .refl .modFdie

theorem State.bcNodeDone_chg {s : State} {die node : Nat} :
    Chg { wts := true, regs := true, fns := true } s (s.bcNodeDone die node) := by
  unfold State.bcNodeDone
  dsimp only
  split
  · exact .refl
  · refine .ite .refl ?_
    refine .ite (.via .refl State.modBc_chg) ?_
    refine .via ?_ State.modBc_chg
    refine .via ?_ .setFld
    refine .via ?_ State.event_chg
    split
    · exact .via (.via .refl State.modBc_chg) State.complete_chg
    · exact .via .refl State.modBc_chg

theorem State.bcSend_chg {s : State} {b : Bc} {node sub : Nat} {args : List Nat} :
    Chg { fab := true } s (s.bcSend b node sub args) := by
  unfold State.bcSend
  exact .via .refl State.sendMsg_chg

theorem State.bcHeld_chg {s : State} {die j : Nat} :
    Chg { ext := true, wts := true, regs := true, fab := true } s (s.bcHeld die j) := by
  unfold State.bcHeld
  dsimp only
  split
  · exact .refl
  · exact .ite (.via (.via (.via (.via (.ite .refl (.via .refl (.setExt fun h => memWf_wrByte _ _ h))) State.modBc_chg) .setFld)
      .setFld) State.bcSend_chg) (.via (.via (.ite .refl (.via .refl (.setExt fun h => memWf_wrByte _ _ h))) State.modBc_chg)
      .setFld)

theorem State.bcastOut_chg {s : State} {die : Nat} {bs : List Byte} :
    Chg { wts := true, fab := true, regs := true, fns := true } s (s.bcastOut die bs) := by
  unfold State.bcastOut
  dsimp only
  split
  · exact .refl
  · exact .ite (.via .refl State.modBc_chg) (.ite (.via (.via (.via (.foldl (fun _ _ => .via .refl State.sendChunk_chg) _ .refl)
      State.modBc_chg) .setFld) State.bcNodeDone_chg) (.via (.via (.foldl (fun _ _ => .via .refl State.sendChunk_chg) _ .refl)
      State.modBc_chg) .setFld))

theorem State.dmaRead_chg {s : State} {ix sp a n : Nat} :
    Chg { dma := true, regs := true, mpkts := true, nextId := true } s (s.dmaRead ix sp a n) := by
  unfold State.dmaRead
  exact .ite (.via (.via .refl .modDma) State.dmaGot_chg) (.ite (.via (.via .refl .modDma) State.dmaGot_chg)
    (.ite (.via (.via .refl .modDma) State.enterPkt_chg) (.via .refl .modDma)))

theorem State.dmaWrite_chg {s : State} {ix sp a n : Nat} :
    Chg { dma := true, ext := true, regs := true, fns := true, wts := true, hostMem := true, bankOut := true, mpkts := true,
          nextId := true, fab := true } s (s.dmaWrite ix sp a n) := by
  unfold State.dmaWrite
  exact .ite (.via (.via (.via .refl .modDma) (.setExt fun h => memWf_wrBytes _ _ h)) State.dmaPut_chg)
    (.ite (.via (.via (.via .refl .modDma) (.setHostMem fun h => memWf_wrBytes _ _ h)) State.dmaPut_chg)
    (.ite (.via (.via (.via .refl .modDma) .setBankOut) State.enterPkt_chg) (.via (.via (.via .refl .modDma) State.bcastOut_chg)
    State.dmaPut_chg)))

theorem State.dmaMoved_chg {s : State} {write : Bool} {a n : Nat} {res : GranRes} :
    Chg { occ := true, fns := true, regs := true, chans := true } s (s.dmaMoved write a n res) := by
  unfold State.dmaMoved
  split
  · exact .via .refl State.occAdd_chg
  · exact .via (.via .refl State.granRecord_chg) State.granBusy_chg

theorem State.dmaLost_chg {s : State} {ix : Nat} {write : Bool} {a n addr : Nat} :
    Chg { dma := true, regs := true, fns := true, freeCtr := true, ext := true, mpkts := true, bankOut := true, tiles := true }
    s (s.dmaLost ix write a n addr) := by
  unfold State.dmaLost
  exact .ite (.via .refl State.fetchFails_chg) (.ite (.via (.via (.via .refl State.mixed_chg) (.setExt fun h => memWf_wrBytes _ _
    h)) State.dmaFail_chg) (.via .refl State.dmaFail_chg))

theorem State.bcSlot_chg {s : State} {ix : Nat} {write : Bool} {res : GranRes} :
    Chg { dma := true, occ := true, fns := true, regs := true, chans := true, wts := true, freeCtr := true, ext := true,
          fab := true } s (s.bcSlot ix write res) := by
  unfold State.bcSlot
  dsimp only
  split
  · refine .ite .refl ?_
    refine .ite (.via (.via (.via .refl .modDma) State.dmaMoved_chg) State.modBc_chg) ?_
    refine .ite ?_ ?_
    · split
      · refine .ite ?_ ?_
        · refine .via ?_ State.modBc_chg
          refine .via ?_ (.setExt fun h => memWf_wrBytes _ _ h)
          split
          · exact .via (.via (.via .refl .modDma) State.dmaMoved_chg) State.mixed_chg
          · exact .via (.via .refl .modDma) State.dmaMoved_chg
        · refine .via ?_ State.bcHeld_chg
          refine .via ?_ State.modBc_chg
          refine .via ?_ (.setExt fun h => memWf_wrBytes _ _ h)
          split
          · exact .via (.via (.via .refl .modDma) State.dmaMoved_chg) State.mixed_chg
          · exact .via (.via .refl .modDma) State.dmaMoved_chg
      · exact .via (.via .refl .modDma) State.dmaMoved_chg
    · split
      · exact .ite (.via (.via (.via .refl .modDma) State.dmaMoved_chg) State.modBc_chg) (.via (.via (.via (.via .refl .modDma)
          State.dmaMoved_chg) State.modBc_chg) State.sendChunk_chg)
      · exact .via (.via .refl .modDma) State.dmaMoved_chg
  · exact .refl

theorem execDmaSlotAccess_does {ch : Chan} {acc : DmaTry} {s : State} :
    Does { dma := true, occ := true, fns := true, regs := true, chans := true, wts := true, freeCtr := true, ext := true,
           fab := true, mpkts := true, bankOut := true, tiles := true, hostMem := true, nextId := true }
    s (execDmaSlotAccess ch acc s) := by
  unfold execDmaSlotAccess
  dsimp only
  refine .next ?_
  split
  · exact .via .refl State.bcSlot_chg
  · refine .ite (.via .refl State.bcSlot_chg) ?_
    refine .ite ?_ ?_
    · refine .via ?_ State.fetchFails_chg
      split
      · exact .via .refl .modDma
      · exact .refl
    · refine .ite ?_ ?_
      · refine .via ?_ State.dmaFail_chg
        split
        · exact .via .refl .modDma
        · exact .refl
      · refine .ite ?_ ?_
        · refine .ite ?_ ?_
          · refine .via ?_ State.dmaFail_chg
            refine .ite ?_ ?_
            · refine .via ?_ State.dmaMoved_chg
              split
              · exact .via .refl .modDma
              · exact .refl
            · split
              · exact .via .refl .modDma
              · exact .refl
          · refine .via ?_ State.dmaLost_chg
            refine .ite ?_ ?_
            · refine .via ?_ State.dmaMoved_chg
              split
              · exact .via .refl .modDma
              · exact .refl
            · split
              · exact .via .refl .modDma
              · exact .refl
        · refine .ite ?_ ?_
          · refine .via ?_ State.descRead_chg
            refine .ite ?_ ?_
            · refine .via ?_ State.dmaMoved_chg
              split
              · exact .via .refl .modDma
              · exact .refl
            · split
              · exact .via .refl .modDma
              · exact .refl
          · refine .ite ?_ ?_
            · refine .ite ?_ ?_
              · refine .via ?_ .modDma
                refine .ite ?_ ?_
                · refine .via ?_ State.dmaMoved_chg
                  split
                  · exact .via .refl .modDma
                  · exact .refl
                · split
                  · exact .via .refl .modDma
                  · exact .refl
              · refine .via ?_ State.dmaWrite_chg
                refine .ite ?_ ?_
                · refine .via ?_ State.dmaMoved_chg
                  split
                  · exact .via .refl .modDma
                  · exact .refl
                · split
                  · exact .via .refl .modDma
                  · exact .refl
            · refine .via ?_ State.dmaRead_chg
              refine .ite ?_ ?_
              · refine .via ?_ State.dmaMoved_chg
                split
                · exact .via .refl .modDma
                · exact .refl
              · split
                · exact .via .refl .modDma
                · exact .refl

theorem execDmaDrainEnd_does {ch : Chan} {s : State} :
    Does { regs := true, dma := true, fns := true } s (execDmaDrainEnd ch s) := by
  unfold execDmaDrainEnd
  exact .next (.ite (.via .refl State.dmaDrained_chg) .refl)

theorem execDmaAccessFail_does {ch : Chan} {write : Bool} {addr : BitVec 64} {cause : DmaLoss} {s : State} :
    Does { dma := true, mpkts := true, bankOut := true, tiles := true, regs := true, fns := true, freeCtr := true, ext := true,
           anx := true, reqs := true, accs := true } s (execDmaAccessFail ch write addr cause s) := by
  unfold execDmaAccessFail
  dsimp only
  refine .next ?_
  split
  · exact .refl
  · refine .ite .refl ?_
    split
    · exact .ite (.via .refl State.dmaFail_chg) .refl
    · exact .ite (.via (.via .refl State.granRecord_chg) State.dmaLost_chg) .refl
    · split
      · exact .via (.via .refl State.annexPoison_chg) State.dmaFail_chg
      · exact .refl
    · split
      · exact .via (.via .refl State.annexLate_chg) State.dmaFail_chg
      · exact .refl

theorem State.dmaServe_chg {s : State} {p : MPkt} :
    Chg { dma := true, mpkts := true, bankOut := true, tiles := true, regs := true, occ := true, fns := true, wts := true }
    s (s.dmaServe p) := by
  unfold State.dmaServe
  dsimp only
  refine .ite (.via (.via .refl State.dmaFail_chg) State.dropDma_chg) ?_
  refine .ite (.via (.via .refl State.dmaFail_chg) State.dropDma_chg) ?_
  refine .ite .refl ?_
  split
  · exact .ofFst (.via .refl State.bufServe_chg)
  · exact .ite (.via (.via (.via (.ofFst (.via .refl State.bufServe_chg)) State.spWriteE_chg) State.dropDma_chg) State.dmaPut_chg)
      (.via (.via (.ofFst (.via .refl State.bufServe_chg)) State.spReadE_chg) State.modPkt_chg)

theorem execDmaPacketHop_does {pkt : Nat} {s : State} :
    Does { mpkts := true, regs := true, dma := true, bankOut := true, tiles := true, occ := true, fns := true, wts := true }
    s (execDmaPacketHop pkt s) := by
  unfold execDmaPacketHop
  dsimp only
  refine .next ?_
  split
  · exact .refl
  · refine .ite .refl ?_
    refine .ite (.ite .refl (.ite (.ite (.via (.via .refl State.dropPkt_chg) State.dmaGot_chg) .refl)
      (.via .refl State.dmaServe_chg))) ?_
    split
    · exact .ite (.via (.via (.via .refl State.hopPkt_chg) State.settleQueue_chg) State.occAdd_chg) .refl
    · exact .refl

theorem execBankGateEffect_does {t : Xy} {s : State} :
    Does { tiles := true, gals := true, regs := true } s (execBankGateEffect t s) := by
  unfold execBankGateEffect
  exact .next (.ite (.via (.via (.onModTile .refl .plain) .modGal) .setFld) (.onModTile .refl .plain))

theorem execDmaStart_does {c : Cmd} {ch : Chan} {d : Desc} {s : State} :
    Does { fns := true, regs := true, dma := true } s (execDmaStart c ch d s) := by
  unfold execDmaStart
  exact .next (.runCmd .refl (fun _ => .ite (.via .refl State.complete_chg) (.via (.via (.via (.via .refl State.dmaComplete_chg)
    State.loadDesc_chg) State.dmaRun_chg) .modDma)))

theorem State.dmaGoBit_chg {s : State} {ix : Nat} :
    Chg { regs := true, dma := true, fns := true } s (s.dmaGoBit ix) := by
  unfold State.dmaGoBit
  exact .ite (.via (.via .refl State.dmaRun_chg) .modDma) (.via .refl State.event_chg)

theorem State.dmaPauseBit_chg {s : State} {ix v : Nat} {refused : Bool} :
    Chg { regs := true, mpkts := true, bankOut := true, tiles := true, dma := true } s (s.dmaPauseBit ix v refused) := by
  unfold State.dmaPauseBit
  exact .ite (.via (.via (.via .refl .setFld) State.dmaDrain_chg) .setFld) (.ite (.via (.via .refl .setFld) State.dmaRun_chg)
    (.via .refl .setFld))

theorem State.dmaAbortBit_chg {s : State} {ix : Nat} :
    Chg { mpkts := true, bankOut := true, tiles := true, dma := true, regs := true, fns := true } s (s.dmaAbortBit ix) := by
  unfold State.dmaAbortBit
  exact .ite (.ite .refl (.via (.via .refl State.dmaDrain_chg) .setFld)) (.ite (.via (.via (.via .refl .setFld) .setFld)
    State.dmaComplete_chg) .refl)

theorem State.writeDmaCtl_chg {s : State} {by_ : Writer} {ix off val : Nat} :
    Chg { fns := true, regs := true, dma := true, mpkts := true, bankOut := true, tiles := true }
    s (s.writeDmaCtl by_ ix off val) := by
  unfold State.writeDmaCtl
  exact .gated .refl (fun _ => .ite (.via .refl State.event_chg)
    (.ite .refl (.ite (.via (.via (.ite (.via (.ite .refl (.ite (.via .refl State.event_chg) (.via .refl .setReg)))
    State.dmaGoBit_chg) (.ite .refl (.ite (.via .refl State.event_chg) (.via .refl .setReg)))) State.dmaPauseBit_chg)
    State.dmaAbortBit_chg) (.via (.ite (.via (.ite .refl (.ite (.via .refl State.event_chg) (.via .refl .setReg)))
    State.dmaGoBit_chg) (.ite .refl (.ite (.via .refl State.event_chg) (.via .refl .setReg)))) State.dmaPauseBit_chg))))

theorem execDmaGo_does {by_ : Writer} {ch : Chan} {off : Nat} {val : BitVec 32} {s : State} :
    Does { fns := true, regs := true, dma := true, mpkts := true, bankOut := true, tiles := true }
    s (execDmaGo by_ ch off val s) := by
  unfold execDmaGo
  exact .next (.via .refl State.writeDmaCtl_chg)

theorem execDmaPause_does {by_ : Writer} {ch : Chan} {off : Nat} {val : BitVec 32} {s : State} :
    Does { fns := true, regs := true, dma := true, mpkts := true, bankOut := true, tiles := true }
    s (execDmaPause by_ ch off val s) := by
  unfold execDmaPause
  exact .next (.via .refl State.writeDmaCtl_chg)

theorem execDmaResume_does {by_ : Writer} {ch : Chan} {off : Nat} {val : BitVec 32} {s : State} :
    Does { fns := true, regs := true, dma := true, mpkts := true, bankOut := true, tiles := true }
    s (execDmaResume by_ ch off val s) := by
  unfold execDmaResume
  exact .next (.via .refl State.writeDmaCtl_chg)

theorem execDmaAbort_does {by_ : Writer} {ch : Chan} {off : Nat} {val : BitVec 32} {s : State} :
    Does { fns := true, regs := true, dma := true, mpkts := true, bankOut := true, tiles := true }
    s (execDmaAbort by_ ch off val s) := by
  unfold execDmaAbort
  exact .next (.via .refl State.writeDmaCtl_chg)

/-! ## Link -/

theorem State.takeCredit_chg {s : State} {p c : Nat} :
    Chg { regs := true } s (s.takeCredit p c) := by
  unfold State.takeCredit
  exact .ite (.via .refl .setFld) (.via .refl .setFld)

theorem State.giveCredits_chg {s : State} {p c k : Nat} :
    Chg { regs := true, links := true } s (s.giveCredits p c k) := by
  unfold State.giveCredits
  exact .via (.via (.via .refl .setFld) .setFld) .modLink

theorem State.portHold_chg {s : State} {p cause len : Nat} :
    Chg { reqs := true } s (s.portHold p cause len) := by
  unfold State.portHold
  exact .via .refl State.request_chg

theorem State.trainHold_chg {s : State} {p : Nat} :
    Chg { reqs := true } s (s.trainHold p) := by
  unfold State.trainHold
  exact .ite (.via .refl State.portHold_chg) .refl

theorem State.startRetrain_chg {s : State} {p trigger width : Nat} :
    Chg { links := true, regs := true, fns := true, reqs := true } s (s.startRetrain p trigger width) := by
  unfold State.startRetrain
  exact .ite .refl (.via (.via (.via (.via (.via .refl .modLink) .setFld) .satAdd) State.event_chg) State.trainHold_chg)

theorem State.startReplay_chg {s : State} {p : Nat} :
    Chg { links := true, regs := true, reqs := true, fns := true } s (s.startReplay p) := by
  unfold State.startReplay
  dsimp only
  split
  · exact .via .refl .modLink
  · exact .ite (.via (.ite (.via (.via (.via .refl .modLink) .modLink) .satAdd)
      (.ite (.via (.via (.via (.via (.via .refl .modLink) .modLink) .satAdd) State.portHold_chg) State.event_chg)
      (.via (.via (.via (.via (.via (.via .refl .modLink) .modLink) .satAdd) State.portHold_chg) State.event_chg) .modLink)))
      State.startRetrain_chg) (.ite (.via (.via (.via .refl .modLink) .modLink) .satAdd)
      (.ite (.via (.via (.via (.via (.via .refl .modLink) .modLink) .satAdd) State.portHold_chg) State.event_chg)
      (.via (.via (.via (.via (.via (.via .refl .modLink) .modLink) .satAdd) State.portHold_chg) State.event_chg) .modLink)))

theorem State.discardKept_chg {s : State} {p : Nat} :
    Chg { links := true, regs := true, fab := true, fns := true } s (s.discardKept p) := by
  unfold State.discardKept
  exact .ite (.via .refl .modLink) (.via (.foldl (fun _ _ => .via .refl State.notice_chg) _ (.ite (.via (.via .refl .modLink)
    State.lossSeen_chg) (.via .refl .modLink))) State.event_chg)

theorem State.portDown_chg {s : State} {p : Nat} :
    Chg { links := true, regs := true, fns := true, mir := true, wts := true, engs := true, ext := true } s (s.portDown p) := by
  unfold State.portDown
  exact .via (.via (.via (.via .refl .modLink) .setFld) State.event_chg) State.checkLoss_chg

theorem State.portDownTry_chg {s : State} {p : Nat} :
    Chg { links := true, regs := true, fns := true, mir := true, wts := true, engs := true, ext := true } s (s.portDownTry p) := by
  unfold State.portDownTry
  exact .ite (.via (.via .refl State.portDown_chg) .modLink) (.via .refl State.portDown_chg)

theorem State.startFull_chg {s : State} {p : Nat} :
    Chg { links := true, regs := true, reqs := true } s (s.startFull p) := by
  unfold State.startFull
  exact .via (.ite (.via (.via (.via .refl .modLink) .setFld) .satAdd) (.via (.via .refl .modLink) .setFld)) State.trainHold_chg

theorem State.roleChanged_chg {s : State} {p : Nat} :
    Chg { links := true, regs := true, fab := true, fns := true, mir := true, wts := true, engs := true, ext := true, reqs := true }
    s (s.roleChanged p) := by
  unfold State.roleChanged
  exact .ite (.via (.via (.via (.via .refl State.discardKept_chg) .modLink) .setFld) State.checkLoss_chg)
    (.ite (.via .refl State.startFull_chg) (.via (.via .refl .modLink) .setFld))

theorem State.sendNew_chg {s : State} {p : Nat} {f : Flit} :
    Chg { regs := true, links := true } s (s.sendNew p f) := by
  unfold State.sendNew
  exact .via (.via .refl State.takeCredit_chg) .modLink

theorem State.linkSend_chg {s : State} {p : Nat} :
    Chg { links := true, regs := true } s (s.linkSend p) := by
  unfold State.linkSend
  extract_lets L free idle sched first
  have hidle : Chg { links := true, regs := true } s (idle s) := .mono .modLink
  have hsched : ∀ t, sched s = some t → Chg { links := true, regs := true } s t := by
    intro t ht
    simp only [sched] at ht
    split at ht
    · split_ifs at ht
      cases ht
      exact .via State.sendNew_chg .modLink
    · cases ht
  have hfall : Chg { links := true, regs := true } s ((sched s).getD (idle s)) := by
    cases h : sched s with
    | none => exact hidle
    | some t => exact hsched t h
  have hfirst : ∀ t, first = some t → Chg { links := true, regs := true } s t := by
    intro t ht
    simp only [first] at ht
    split_ifs at ht
    exact hsched t ht
  split
  · exact .mono .modLink
  · refine .ite ?_ hidle
    exact .ite (.via (.via .refl .modLink) .satAdd) (.mono .modLink)
  · refine .ite hidle ?_
    generalize hf : first = t
    cases t with
    | some t => exact hfirst t hf
    | none =>
      dsimp only
      split
      · refine .ite (.via State.sendNew_chg .modLink) ?_
        split
        · exact .ite (.via State.sendNew_chg .modLink) hfall
        · exact hfall
      · exact .ite (.via State.sendNew_chg .modLink) hfall
      · exact hfall

theorem execLinkCycle_does {p : Fin 32} {s : State} :
    Does { links := true, regs := true, reqs := true, fns := true, occ := true } s (execLinkCycle p s) := by
  unfold execLinkCycle
  exact .next (.ite (.via (.ite (.via (.ite (.via .refl State.startReplay_chg) .refl) State.linkSend_chg)
    (.via (.via (.via (.ite (.via .refl State.startReplay_chg) .refl) State.linkSend_chg) State.occAdd_chg) State.occAdd_chg))
    .modLink) .refl)

theorem State.acceptSched_chg {s : State} {p : Nat} {f : Flit} :
    Chg { links := true, fns := true, regs := true } s (s.acceptSched p f) := by
  unfold State.acceptSched
  dsimp only
  refine .ite (.via (.ite (.via .refl .modLink) .refl) .modLink) ?_
  split
  · exact .via (.via (.ite (.via .refl .modLink) .refl) .modLink) State.event_chg
  · exact .via (.ite (.via (.via (.ite (.via .refl .modLink) .refl) State.event_chg) .satAdd) (.ite (.via .refl .modLink) .refl))
      .modLink

theorem State.acceptFlit_chg {s : State} {p : Nat} {f : Flit} :
    Chg { links := true, fns := true, regs := true, reqs := true } s (s.acceptFlit p f) := by
  unfold State.acceptFlit
  exact .ite (.ite (.via (.via .refl .modLink) State.acceptSched_chg) (.via (.via .refl .modLink) .modLink))
    (.via (.via .refl State.event_chg) State.startRetrain_chg)

theorem State.dataFlit_chg {s : State} {p : Nat} {f : Flit} :
    Chg { links := true, fns := true, regs := true, reqs := true } s (s.dataFlit p f) := by
  unfold State.dataFlit
  exact .ite (.via .refl State.acceptFlit_chg) (.ite (.via .refl .modLink) (.via (.via .refl .modLink) .satAdd))

theorem State.rtreq_chg {s : State} {p : Nat} {f : Flit} :
    Chg { links := true, regs := true, fns := true, reqs := true } s (s.rtreq p f) := by
  unfold State.rtreq
  exact .ite (.via (.via (.via (.via (.via .refl .modLink) .setFld) State.event_chg) .satAdd) State.trainHold_chg)
    (.ite (.via (.via (.via .refl .modLink) .setFld) State.event_chg) .refl)

theorem State.rtack_chg {s : State} {p : Nat} {f : Flit} :
    Chg { links := true } s (s.rtack p f) := by
  unfold State.rtack
  exact .ite (.via .refl .modLink) .refl

theorem State.ctlReceive_chg {s : State} {p : Nat} {f : Flit} :
    Chg { reqs := true, links := true, regs := true, fns := true } s (s.ctlReceive p f) := by
  unfold State.ctlReceive
  split
  · exact .via .refl State.portHold_chg
  · exact .via .refl State.rtreq_chg
  · exact .via .refl State.rtack_chg
  · exact .via .refl .modLink
  · exact .refl

theorem State.dropFabric_chg {s : State} {p : Nat} {b : List Byte} :
    Chg { links := true } s (s.dropFabric p b) := by
  unfold State.dropFabric
  exact .via .refl .modLink

theorem Chg.onFabric {P : Foot} {s u : State} {p : Nat} {b : List Byte} {f : State → State} (h : Chg P s u)
    (hf : ∀ v, Chg P v (f v))
    (hle : ({ links := true } : Foot).or P = P := by rfl) : Chg P s (u.onFabric p b f) :=
  .ite ((h.via State.dropFabric_chg hle).trans (hf _)) h

theorem State.headerIn_chg {s : State} {p : Nat} {f : Flit} :
    Chg { regs := true, links := true } s (s.headerIn p f) := by
  unfold State.headerIn
  exact .ite (.via (.via (.via .refl State.giveCredits_chg) .modLink) .modLink) (.via (.via .refl State.giveCredits_chg) .modLink)

theorem execFlitReceive_does {p : Fin 32} {b : List Byte} {crc : BitVec 64} {s : State} :
    Does { links := true, regs := true, reqs := true, fns := true } s (execFlitReceive p b crc s) := by
  unfold execFlitReceive
  exact .next (.ite .refl (.ite (.via (.via .refl .modLink) .satAdd) (.ite (.via .refl .satAdd)
    (.ite (.ite (.via (.via .refl State.headerIn_chg) .modLink) (.via .refl State.headerIn_chg))
    (.ite (.via (.via .refl State.headerIn_chg) State.ctlReceive_chg) (.via (.via .refl State.headerIn_chg) State.dataFlit_chg))))))

theorem execAckPoint_does {p : Fin 32} {s : State} :
    Does { links := true } s (execAckPoint p s) := by
  unfold execAckPoint
  exact .next (.ite (.via .refl .modLink) .refl)

theorem execReplayTimerExpiry_does {p : Fin 32} {s : State} :
    Does { links := true } s (execReplayTimerExpiry p s) := by
  unfold execReplayTimerExpiry
  exact .next (.ite (.via .refl .modLink) .refl)

theorem State.routeFault_chg {s : State} {die : Nat} :
    Chg { regs := true, fns := true } s (s.routeFault die) := by
  unfold State.routeFault
  exact .via (.via (.via .refl State.lossSeen_chg) State.event_chg) .satAdd

theorem State.openRx_chg {s : State} {p : Nat} {f : Flit} {due : Nat} :
    Chg { regs := true, fns := true, links := true, fab := true } s (s.openRx p f due) := by
  unfold State.openRx
  exact .ite (.via .refl State.routeFault_chg) (.ite (.ite (.via (.via .refl .modLink) .modLink) (.via .refl State.routeFault_chg))
    (.ite (.via (.via .refl .modLink) .modFdie) (.via .refl State.routeFault_chg)))

theorem State.moveRx_chg {s : State} {p : Nat} {f : Flit} {sop : Nat} :
    Chg { links := true, fab := true } s (s.moveRx p f sop) := by
  unfold State.moveRx
  dsimp only
  split
  · exact .refl
  · exact .ite (.via (.via .refl .modLink) .modFdie) (.via (.via .refl .modLink) .modLink)

theorem execScheduledFlitDelivery_does {p : Fin 32} {s : State} :
    Does { links := true, regs := true, fns := true, fab := true } s (execScheduledFlitDelivery p s) := by
  unfold execScheduledFlitDelivery
  dsimp only
  refine .next ?_
  split
  · exact .ite .refl (.via (.ite (.via (.via .refl .modLink) State.openRx_chg) (.via .refl .modLink)) State.moveRx_chg)
  · exact .refl

theorem execFullTrainingAttempt_does {p : Fin 32} {s : State} :
    Does { links := true, regs := true, reqs := true } s (execFullTrainingAttempt p s) := by
  unfold execFullTrainingAttempt
  exact .next (.ite (.via (.via .refl State.startFull_chg) .modLink) .refl)

theorem State.exchange_chg {s : State} {p : Nat} {i : TrainInfo} :
    Chg { fns := true, regs := true, links := true, mir := true, wts := true, engs := true, ext := true, fab := true }
    s (s.exchange p i) := by
  unfold State.exchange
  dsimp only
  refine .ite (.via (.via (.via .refl State.event_chg) .modLink) State.portDown_chg) ?_
  refine .via ?_ .setFld
  refine .via ?_ .setFld
  refine .via ?_ .setFld
  refine .foldl (fun _ _ => .via .refl .setFld) _ ?_
  refine .via ?_ .modLink
  refine .ite ?_ ?_
  · refine .via ?_ .modLink
    split
    · exact .ite .refl (.via .refl State.event_chg)
    · exact .refl
  · refine .via ?_ .modLink
    refine .via ?_ State.discardKept_chg
    split
    · exact .ite .refl (.via .refl State.event_chg)
    · exact .refl

theorem State.portUp_chg {s : State} {p rtt : Nat} :
    Chg { links := true, regs := true, fns := true, fab := true, mir := true } s (s.portUp p rtt) := by
  unfold State.portUp
  exact .ite (.via (.via (.via (.via (.via (.via (.via .refl .modLink) .setFld) .setFld) .setFld) .setFld) State.event_chg)
    State.sendHello_chg) (.via (.via (.via (.via (.via (.via .refl .modLink) .setFld) .setFld) .setFld) .setFld) State.event_chg)

theorem execTrainingPhaseEnd_does {p : Fin 32} {info : TrainInfo} {s : State} :
    Does { links := true, regs := true, fns := true, mir := true, wts := true, engs := true, ext := true, fab := true }
    s (execTrainingPhaseEnd p info s) := by
  unfold execTrainingPhaseEnd
  dsimp only
  refine .next ?_
  refine .ite .refl ?_
  split
  · exact .via .refl .modLink
  · exact .via .refl .modLink
  · exact .via (.ite (.via (.via .refl .setFld) State.event_chg) .refl) .modLink
  · exact .via .refl State.exchange_chg
  · exact .via .refl State.portUp_chg
  · exact .refl

theorem execTrainingTimeout_does {p : Fin 32} {s : State} :
    Does { links := true, regs := true, fns := true, mir := true, wts := true, engs := true, ext := true }
    s (execTrainingTimeout p s) := by
  unfold execTrainingTimeout
  exact .next (.ite (.via .refl State.portDownTry_chg) .refl)

theorem execLossOfSignal_does {p : Fin 32} {s : State} :
    Does { links := true, regs := true, fns := true, mir := true, wts := true, engs := true, ext := true }
    s (execLossOfSignal p s) := by
  unfold execLossOfSignal
  exact .next (.ite (.via .refl State.portDown_chg) (.ite (.via .refl State.portDownTry_chg) .refl))

theorem execKeptStateExpiry_does {p : Fin 32} {s : State} :
    Does { links := true, regs := true, fab := true, fns := true } s (execKeptStateExpiry p s) := by
  unfold execKeptStateExpiry
  exact .next (.ite (.via .refl State.discardKept_chg) .refl)

theorem execFecRateWindow_does {p : Fin 32} {bad : Nat} {s : State} :
    Does { links := true, regs := true, fns := true, reqs := true } s (execFecRateWindow p bad s) := by
  unfold execFecRateWindow
  exact .next (.ite (.via .refl State.startRetrain_chg) .refl)

theorem State.writeLnkCtl_chg {s : State} {by_ : Writer} {p off val : Nat} {fields : Bool} :
    Chg { fns := true, regs := true, links := true, fab := true, mir := true, wts := true, engs := true, ext := true, reqs := true }
    s (s.writeLnkCtl by_ p off val fields) := by
  unfold State.writeLnkCtl
  exact .gated .refl (fun _ => .imgWrite .refl (fun _ => .ite (.via .refl State.imageBusy_chg)
    (.ite (.via (.ite (.via (.ite (.ite (.via (.via (.via (.via .refl .setFld) .setFld) State.zeroDigest_chg) State.modified_chg)
    (.via (.via (.via (.via (.via .refl .setFld) .setFld) State.zeroDigest_chg) State.modified_chg) .setFld)) (.via .refl .setFld))
    State.roleChanged_chg) (.ite (.ite (.via (.via (.via (.via .refl .setFld) .setFld) State.zeroDigest_chg) State.modified_chg)
    (.via (.via (.via (.via (.via .refl .setFld) .setFld) State.zeroDigest_chg) State.modified_chg) .setFld))
    (.via .refl .setFld))) State.startRetrain_chg)
    (.ite (.via (.ite (.ite (.via (.via (.via (.via .refl .setFld) .setFld) State.zeroDigest_chg) State.modified_chg)
    (.via (.via (.via (.via (.via .refl .setFld) .setFld) State.zeroDigest_chg) State.modified_chg) .setFld)) (.via .refl .setFld))
    State.roleChanged_chg) (.ite (.ite (.via (.via (.via (.via .refl .setFld) .setFld) State.zeroDigest_chg) State.modified_chg)
    (.via (.via (.via (.via (.via .refl .setFld) .setFld) State.zeroDigest_chg) State.modified_chg) .setFld))
    (.via .refl .setFld))))))

theorem execLnkRetrain_does {by_ : Writer} {p : Fin 32} {off : Nat} {val : BitVec 32} {s : State} :
    Does { fns := true, regs := true, links := true, fab := true, mir := true, wts := true, engs := true, ext := true,
           reqs := true } s (execLnkRetrain by_ p off val s) := by
  unfold execLnkRetrain
  exact .next (.via .refl State.writeLnkCtl_chg)

theorem execLnkRoleWrite_does {by_ : Writer} {p : Fin 32} {off : Nat} {val : BitVec 32} {s : State} :
    Does { fns := true, regs := true, links := true, fab := true, mir := true, wts := true, engs := true, ext := true,
           reqs := true } s (execLnkRoleWrite by_ p off val s) := by
  unfold execLnkRoleWrite
  exact .next (.via .refl State.writeLnkCtl_chg)

theorem execLnkWreqWrite_does {by_ : Writer} {p : Fin 32} {off : Nat} {val : BitVec 32} {s : State} :
    Does { fns := true, regs := true, links := true, fab := true, mir := true, wts := true, engs := true, ext := true,
           reqs := true } s (execLnkWreqWrite by_ p off val s) := by
  unfold execLnkWreqWrite
  exact .next (.via .refl State.writeLnkCtl_chg)

/-! ## Fabric -/

theorem execFabIdWrite_does {by_ : Writer} {off : Nat} {val : BitVec 32} {s : State} :
    Does { fns := true, regs := true, links := true } s (execFabIdWrite by_ off val s) := by
  unfold execFabIdWrite
  refine .next (.gated .refl fun t => .ite ?_ (.via .refl State.event_chg))
  exact .via (.via (.via (.via .refl .setFld) .setFld) State.setLeader_chg) (.setLinks fun h => keysRise_of_keys h)

theorem State.openStream_chg {s : State} {die st : Nat} {u : List Byte} :
    Chg { fab := true, links := true, regs := true, fns := true } s (s.openStream die st u) := by
  unfold State.openStream
  exact .ite (.via (.via .refl .modFdie) .modLink) (.via (.via .refl State.routeFault_chg) .modFdie)

theorem State.moveUnit_chg {s : State} {die st port n : Nat} {u : List Byte} :
    Chg { fab := true, links := true } s (s.moveUnit die st port n u) := by
  unfold State.moveUnit
  exact .ite (.via .refl .modFdie) (.via (.via .refl .modFdie) .modLink)

theorem State.moveUnits_chg {s : State} {die st x3 : Nat} :
    Chg { fab := true, links := true } s (s.moveUnits die st x3) := by
  induction x3 generalizing s with
  | zero => exact .refl
  | succ n ih =>
    rw [State.moveUnits]
    split
    · exact .trans State.moveUnit_chg ih
    · exact .refl

theorem execScheduledPacketSend_does {die : Fin 2} {stream : Fin 64} {s : State} :
    Does { fab := true, links := true, regs := true, fns := true } s (execScheduledPacketSend die stream s) := by
  unfold execScheduledPacketSend
  dsimp only
  refine .next ?_
  split
  · exact .via .refl State.moveUnits_chg
  · exact .ite (.via (.via .refl State.openStream_chg) State.moveUnits_chg) .refl
  · exact .refl

theorem State.edgeUnit_chg {s : State} {die col : Nat} :
    Chg { fab := true, mpkts := true, nextId := true } s (s.edgeUnit die col) := by
  unfold State.edgeUnit
  dsimp only
  split
  · exact .refl
  · exact .ite .refl (.via (.via .refl .modFdie) State.newPkt_chg)

theorem execEdgeUnitDelivery_does {die : Fin 2} {s : State} :
    Does { fab := true, mpkts := true, nextId := true } s (execEdgeUnitDelivery die s) := by
  unfold execEdgeUnitDelivery
  exact .next (.ite .refl (.foldl (fun _ _ => .via .refl State.edgeUnit_chg) _ .refl))

theorem State.leaveOn_chg {s : State} {die q : Nat} {p : Packet} :
    Chg { links := true, fab := true } s (s.leaveOn die q p) := by
  unfold State.leaveOn
  exact .ite (.via .refl State.queueOn_chg) (.via (.via .refl State.queueOn_chg) .modFdie)

theorem State.deliver_chg {s : State} {die : Nat} {p : Packet} :
    Chg { fab := true } s (s.deliver die p) := by
  unfold State.deliver
  exact .via .refl .modFdie

theorem State.noRoute_chg {s : State} {die : Nat} {p : Packet} :
    Chg { fns := true, regs := true, fab := true } s (s.noRoute die p) := by
  unfold State.noRoute
  exact .via (.via (.via .refl State.event_chg) .satAdd) State.notice_chg

theorem State.routePkt_chg {s : State} {die : Nat} {p : Packet} :
    Chg { regs := true, fab := true, fns := true, links := true } s (s.routePkt die p) := by
  unfold State.routePkt
  refine .ite (.via .refl .satAdd) ?_
  refine .ite (.via .refl State.deliver_chg) ?_
  refine .ite (.via (.via (.via .refl State.event_chg) .satAdd) State.notice_chg) ?_
  refine .ite (.via .refl State.noRoute_chg) ?_
  split
  · exact .via .refl State.leaveOn_chg
  · exact .via .refl .modFdie

theorem State.routeWaiting_chg {s : State} {die : Nat} :
    Chg { fab := true, links := true } s (s.routeWaiting die) := by
  unfold State.routeWaiting
  dsimp only
  refine .foldl (fun _ _ => ?_) _ (.via .refl .modFdie)
  split
  · exact .via .refl State.leaveOn_chg
  · exact .via .refl .modFdie

theorem execPacketRoute_does {die : Fin 2} {src : PktSrc} {s : State} :
    Does { fab := true, links := true, regs := true, fns := true } s (execPacketRoute die src s) := by
  unfold execPacketRoute
  dsimp only
  refine .next ?_
  split
  · split
    · exact .via (.via (.via .refl State.routeWaiting_chg) .modFdie) State.routePkt_chg
    · exact .via .refl State.routeWaiting_chg
  · refine .ite (.via .refl State.routeWaiting_chg) ?_
    split
    · exact .ite (.via (.via (.via .refl State.routeWaiting_chg) .modLink) State.routePkt_chg)
        (.ite (.via (.via (.via .refl State.routeWaiting_chg) .modLink) State.deliver_chg)
        (.via (.via (.via .refl State.routeWaiting_chg) .modLink) .satAdd))
    · exact .via .refl State.routeWaiting_chg

theorem execNorouteTimeout_does {die : Fin 2} {s : State} :
    Does { fab := true, links := true, fns := true, regs := true } s (execNorouteTimeout die s) := by
  unfold execNorouteTimeout
  dsimp only
  refine .next ?_
  split
  · exact .ite (.via (.via (.via .refl State.routeWaiting_chg) .modFdie) State.noRoute_chg) (.via .refl State.routeWaiting_chg)
  · exact .via .refl State.routeWaiting_chg

theorem State.restartSend_chg {s : State} {ix : Nat} :
    Chg { regs := true, dma := true, fns := true } s (s.restartSend ix) := by
  unfold State.restartSend
  split
  · exact .ite (.via (.via .refl State.dmaRun_chg) State.event_chg) .refl
  · exact .refl

theorem execUndeliverableNotice_does {type : Nat} {ref : BitVec 64} {cause : Fin 4} {s : State} :
    Does { fab := true, regs := true, dma := true, fns := true } s (execUndeliverableNotice type ref cause s) := by
  unfold execUndeliverableNotice
  exact .next (.onMsg .refl (fun _ => .ite (.via (.via (.via (.via .refl .satAdd) State.dmaSettle_chg) State.dmaHalt_chg)
    State.restartSend_chg) (.via (.via .refl .satAdd) State.event_chg)))

theorem State.fragEvent_chg {s : State} {type origin ref : Nat} :
    Chg { fns := true, regs := true } s (s.fragEvent type origin ref) := by
  unfold State.fragEvent
  exact .via .refl State.event_chg

theorem State.inbox_chg {s : State} {r : Reasm} :
    Chg { fab := true } s (s.inbox r) := by
  unfold State.inbox
  exact .via .refl .modFab

theorem execFragmentReceive_does {pkt : Packet} {s : State} :
    Does { fab := true, fns := true, regs := true } s (execFragmentReceive pkt s) := by
  unfold execFragmentReceive
  dsimp only
  refine .next ?_
  refine .ite .refl ?_
  refine .onArrived .refl (fun _ => ?_)
  refine .ite .refl ?_
  refine .ite (.via .refl State.inbox_chg) ?_
  split
  · exact .ite (.via .refl State.fragEvent_chg) (.via .refl .modFab)
  · exact .ite .refl (.ite (.via (.via .refl .modFab) State.inbox_chg) (.via .refl .modFab))

theorem execReassemblyTimeout_does {type origin : Nat} {ref : BitVec 64} {s : State} :
    Does { fab := true, fns := true, regs := true } s (execReassemblyTimeout type origin ref s) := by
  unfold execReassemblyTimeout
  dsimp only
  refine .next ?_
  split
  · exact .ite (.via (.via .refl .modFab) State.fragEvent_chg) .refl
  · exact .refl

theorem execTableWrite_does {by_ : Writer} {die bank : Fin 2} {id : BitVec 20} {off : Nat} {mask : BitVec 32} {s : State} :
    Does { fns := true, regs := true, fab := true } s (execTableWrite by_ die bank id off mask s) := by
  unfold execTableWrite
  exact .next (.gated .refl (fun _ => .ite (.via .refl State.event_chg) (.via (.via (.via .refl .modFdie) State.zeroDigest_chg)
    State.modified_chg)))

theorem State.setEpochState_chg {s : State} {die st : Nat} :
    Chg { regs := true, fns := true } s (s.setEpochState die st) := by
  unfold State.setEpochState
  exact .via (.via .refl .setFld) State.event_chg

theorem State.epochCmd_chg {s : State} {die cmd : Nat} :
    Chg { regs := true, fns := true } s (s.epochCmd die cmd) := by
  unfold State.epochCmd
  exact .ite (.via .refl State.setEpochState_chg) (.ite (.via (.via (.via (.via .refl .setFld) .setFld) State.setEpochState_chg)
    State.zeroDigest_chg) (.ite (.via .refl State.setEpochState_chg) (.via .refl State.event_chg)))

theorem execDrain_does {by_ : Writer} {die : Fin 2} {off : Nat} {s : State} :
    Does { fns := true, regs := true } s (execDrain by_ die off s) := by
  unfold execDrain
  exact .next (.gated .refl (fun _ => .via .refl State.epochCmd_chg))

theorem execSwitch_does {by_ : Writer} {die : Fin 2} {off : Nat} {s : State} :
    Does { fns := true, regs := true } s (execSwitch by_ die off s) := by
  unfold execSwitch
  exact .next (.gated .refl (fun _ => .via .refl State.epochCmd_chg))

theorem execEpochRelease_does {by_ : Writer} {die : Fin 2} {off : Nat} {s : State} :
    Does { fns := true, regs := true } s (execEpochRelease by_ die off s) := by
  unfold execEpochRelease
  exact .next (.gated .refl (fun _ => .via .refl State.epochCmd_chg))

theorem State.fabricFlit_chg {s : State} {p : Nat} {payload : List Byte} :
    Chg { links := true } s (s.fabricFlit p payload) := by
  unfold State.fabricFlit
  exact .ite (.via .refl .modLink) .refl

theorem execSyncreqSend_does {s : State} :
    Does { regs := true, fab := true, links := true } s (execSyncreqSend s) := by
  unfold execSyncreqSend
  exact .next (.ite .refl (.via (.via (.ite (.via (.via .refl .satAdd) .modFab) .refl) State.fabricFlit_chg) .modFab))

theorem execSyncreqReceive_does {p : Fin 32} {t1 : Nat} {s : State} :
    Does { links := true } s (execSyncreqReceive p t1 s) := by
  unfold execSyncreqReceive
  exact .next (.onFabric .refl (fun _ => .via .refl State.fabricFlit_chg))

theorem State.shiftCount_chg {s : State} {d : ℤ} :
    Chg { regs := true, reqs := true, hold := true, regions := true, tiles := true, gals := true, chans := true, wts := true,
          clk := true, pwr := true, boundaryAsk := true } s (s.shiftCount d) := by
  unfold State.shiftCount
  extract_lets m
  have hcount : Chg { regs := true, tiles := true } s { s.setReg .ptcCount 0 (m s.cnt) with
      tiles := s.tiles.map fun t => (t.1, { t.2 with ungate := t.2.ungate.map fun u => (u.1, m u.2) }) } :=
    .via (.via .refl .setReg) (.mapTiles (g := fun T => { T with ungate := T.ungate.map fun u => (u.1, m u.2) }) fun _ => rfl)
  refine ⟨rfl, fun _ => ⟨rfl, rfl, rfl⟩, fun i => ?_, fun i => ?_⟩
  · obtain ⟨hext, hhost, hscratch, hA, hB, hstaging⟩ := hcount.mem i
    exact ⟨hext, hhost, hscratch, hA, hB, hstaging⟩
  · exact { hcount.stores i with
      regions := keysRise_of_keys i.regions, gals := keysRise_of_keys i.gals, chans := keysRise_of_keys i.chans }

theorem State.syncValue_chg {s : State} {phi : ℤ} :
    Chg { regs := true, reqs := true, hold := true, regions := true, tiles := true, gals := true, chans := true, wts := true,
          clk := true, pwr := true, boundaryAsk := true, fns := true, fab := true } s (s.syncValue phi) := by
  unfold State.syncValue
  exact .ite (.via (.via (.via (.via (.via .refl State.shiftCount_chg) .setReg) .setFld) State.event_chg) .modFab)
    (.via .refl .modFab)

theorem execSyncrspReceive_does {p : Fin 32} {r : SyncRsp} {at_ : Fin 16} {s : State} :
    Does { links := true, fab := true, regs := true, reqs := true, hold := true, regions := true, tiles := true, gals := true,
           chans := true, wts := true, clk := true, pwr := true, boundaryAsk := true, fns := true }
    s (execSyncrspReceive p r at_ s) := by
  unfold execSyncrspReceive
  dsimp only
  refine .next ?_
  refine .onFabric .refl (fun _ => ?_)
  split
  · exact .refl
  · exact .ite .refl (.ite (.via (.via (.via .refl .modFab) .satAdd) .modFab)
      (.ite (.via (.via (.via (.via (.via .refl .modFab) .setFld) .wrapAdd) .setFld) State.syncValue_chg)
      (.ite (.via (.via (.via (.via (.via (.via .refl .modFab) .setFld) .wrapAdd) .setFld) State.setUnsync_chg)
      State.syncValue_chg) (.via (.via (.via (.via (.via .refl .modFab) .setFld) .wrapAdd) .setFld) .modFab))))

theorem execFabSyncctlWrite_does {by_ : Writer} {off : Nat} {val : BitVec 32} {s : State} :
    Does { fns := true, regs := true, fab := true } s (execFabSyncctlWrite by_ off val s) := by
  unfold execFabSyncctlWrite
  exact .next (.gated .refl (fun _ => .via (.via (.via (.via (.via .refl .setFld) .setFld) .setFld) .modFab) State.setUnsync_chg))

/-! ## PlanTime -/

theorem execHoldBegin_does {s : State} :
    Does { regs := true, hold := true } s (execHoldBegin s) := by
  unfold execHoldBegin
  exact .next (.ite .refl (.via (.ite (.via (.via (.via (.via (.via (.via .refl .setReg) .setReg) .setFld) .setFld) .setFld)
    .setFld) (.via (.via (.via (.via (.via .refl .setReg) .setReg) .setFld) .setFld) .setFld)) .setHold))

theorem State.stepSettled_chg {s : State} :
    Chg { clk := true, pwr := true } s (s.stepSettled) := by
  unfold State.stepSettled
  dsimp only
  split
  · exact .ite .plain .refl
  · exact .refl

theorem execHoldEnd_does {s : State} :
    Does { regs := true, hold := true, clk := true, pwr := true } s (execHoldEnd s) := by
  unfold execHoldEnd
  dsimp only
  refine .next ?_
  split
  · exact .ite .refl (.via (.via (.via .refl .setFld) .setHold) State.stepSettled_chg)
  · exact .refl

theorem execBoundaryHoldRequest_does {s : State} :
    Does { boundaryAsk := true, reqs := true, clk := true } s (execBoundaryHoldRequest s) := by
  unfold execBoundaryHoldRequest
  exact .next (.ite .refl (.foldl (fun _ _ => .ite (.via (.via .refl State.request_chg) .modClk) (.via .refl State.request_chg)) _
    .plain))

theorem execPtcHoldreqWrite_does {by_ : Writer} {off : Nat} {val : BitVec 32} {s : State} :
    Does { fns := true, regs := true, reqs := true } s (execPtcHoldreqWrite by_ off val s) := by
  unfold execPtcHoldreqWrite
  exact .next (.gated .refl (fun _ => .via .refl State.request_chg))

theorem State.occLevel_chg {s : State} {lvl w : Nat} :
    Chg { regs := true } s (s.occLevel lvl w) := by
  unfold State.occLevel
  exact .via (.via (.via .refl .setFld) .setFld) .setFld

theorem execOccWindowEnd_does {s : State} :
    Does { regs := true, occ := true } s (execOccWindowEnd s) := by
  unfold execOccWindowEnd
  exact .next (.ite .refl (.via (.foldl (fun _ _ => .ite (.via .refl .setFld) .refl) _ (.foldl (fun _ _ => .via .refl
    State.occLevel_chg) _ .refl)) .setOcc))

theorem State.textWindow_chg {s : State} {addr : Nat} {ready : List Nat} :
    Chg { fns := true, regs := true } s (s.textWindow addr ready) := by
  unfold State.textWindow
  exact .foldl (fun _ _ => .via .refl State.windowNote_chg) _ .refl

theorem execFetchOpportunity_does {g late : Nat} {s : State} :
    Does { gals := true, reqs := true, fns := true, regs := true, occ := true, chans := true }
    s (execFetchOpportunity g late s) := by
  unfold execFetchOpportunity
  dsimp only
  refine .next ?_
  split
  · exact .refl
  · exact .ite .refl (.ite (.foldl (fun _ _ => .via .refl State.granBusy_chg) _ (.via (.via (.via (.via .refl .modGal) .modGal)
      State.request_chg) State.textWindow_chg)) (.via .refl .modGal))

theorem State.textRecord_chg {s : State} {addr n : Nat} {res : List (Nat × GranRes)} :
    Chg { fns := true, regs := true } s (s.textRecord addr n res) := by
  unfold State.textRecord
  exact .foldl (fun _ _ => .via .refl State.granRecord_chg) _ .refl

theorem State.textRead_chg {s : State} {addr n : Nat} {res : List (Nat × GranRes)} :
    Chg { fns := true, regs := true, occ := true, chans := true } s (s.textRead addr n res) := by
  unfold State.textRead
  exact .foldl (fun _ _ => .via .refl State.granBusy_chg) _ (.via .refl State.textRecord_chg)

theorem execBlockLanding_does {g : Nat} {res : List (Nat × GranRes)} {s : State} :
    Does { fns := true, regs := true, gals := true } s (execBlockLanding g res s) := by
  unfold execBlockLanding
  refine .next ?_
  split
  · exact .ite .refl (.via (.via .refl State.textRecord_chg) .modGal)
  · exact .refl

theorem execBlockBroadcast_does {g : Nat} {s : State} :
    Does { gals := true, tiles := true } s (execBlockBroadcast g s) := by
  unfold execBlockBroadcast
  dsimp only
  refine .next ?_
  split
  · exact .ite .refl (.via (.foldl (fun _ _ => .onModTile .refl .plain) _ (.via .refl .modGal)) State.releasePassed_chg)
  · exact .refl

theorem execParkRequest_does {s : State} :
    Does { park := true } s (execParkRequest s) := by
  unfold execParkRequest
  dsimp only
  refine .next ?_
  split
  · exact .refl
  · refine .ite .refl ?_
    split
    · exact .refl
    · exact .ite .refl .plain

/-! ## Load -/

theorem State.setClockStep_chg {s : State} {p : Nat} :
    Chg { regs := true, pwr := true, chans := true, fns := true, fab := true } s (s.setClockStep p) := by
  unfold State.setClockStep
  exact .ite .refl (.via (.foldl (fun _ _ => .via .refl State.trimNow_chg) _ (.via (.via .refl .setFld) .modPwr))
    State.setUnsync_chg)

theorem State.loadFails_chg {s : State} {c : Cmd} {f : ChkFail} :
    Chg { loading := true, regs := true, fns := true } s (s.loadFails c f) := by
  unfold State.loadFails
  exact .via (.via (.via (.via (.via .plain .setFld) .setFld) .setFld) .setFld) State.complete_chg

theorem State.galByGate_chg {s : State} {g : Nat} :
    Chg { tiles := true, gals := true, regs := true } s (s.galByGate g) := by
  unfold State.galByGate
  exact .ite (.via (.via (.foldl (fun _ _ => .onModTile .refl ⟨fun h => rfl⟩) _ .refl) .modGal) .setFld) (.via .refl .modGal)

theorem State.loadTables_chg {s : State} {im : Image} :
    Chg { fab := true } s (s.loadTables im) := by
  unfold State.loadTables
  exact .foldl (fun _ _ => .via .refl .modFdie) _ .refl

theorem State.loadPorts_chg {s : State} {old : List (Nat × Nat)} :
    Chg { links := true, regs := true, fab := true, fns := true, mir := true, wts := true, engs := true, ext := true, reqs := true }
    s (s.loadPorts old) := by
  unfold State.loadPorts
  exact .foldl (fun _ _ => .ite (.via .refl State.roleChanged_chg) .refl) _ .refl

theorem State.loadAnnex_chg {s : State} :
    Chg { regs := true, fns := true } s (s.loadAnnex) := by
  unfold State.loadAnnex
  exact .via (.foldl (fun _ _ => .ite (.via .refl State.annexTrain_chg) (.ite (.via (.via .refl State.annexState_chg) .setFld)
    .refl)) _ .refl) State.mapAnnex_chg

theorem State.loadEngines_chg {s : State} :
    Chg { engs := true, regs := true, fns := true, freeCtr := true, wts := true } s (s.loadEngines) := by
  unfold State.loadEngines
  dsimp only
  refine .via ?_ .modWts
  refine .foldl (fun _ _ => .via .refl .setReg) _ ?_
  split
  · refine .via ?_ State.complete_chg
    refine .via ?_ State.freeStep_chg
    refine .foldl (fun _ _ => ?_) _ (.foldl (fun _ _ => .via (.via .refl .modEng) .setFld) _ .refl)
    split
    · exact .via .refl State.complete_chg
    · exact .refl
  · refine .foldl (fun _ _ => ?_) _ (.foldl (fun _ _ => .via (.via .refl .modEng) .setFld) _ .refl)
    split
    · exact .via .refl State.complete_chg
    · exact .refl

theorem State.loadPair_chg {s : State} :
    Chg { mir := true, wts := true, engs := true, regs := true, fns := true, ext := true, fab := true, links := true }
    s (s.loadPair) := by
  unfold State.loadPair
  exact .via (.via (.via (.via (.via (.via (.via .refl State.abandon_chg) State.freeMirror_chg) .modMir) .setFld)
    State.setLeader_chg) State.setPair_chg) State.sendHello_chg

theorem State.applyImage_chg {s : State} {im : Image} :
    Chg Foot.installs s (s.applyImage im) := by
  unfold State.applyImage
  extract_lets fast s1 s2 s3 s4 s5 s6 s7 s8 s9 s10
  have h1 : Chg Foot.installs s s1 := ⟨rfl, fun _ => ⟨rfl, rfl, rfl⟩, fun i => ⟨i.ext, i.host, i.scratch, i.slotA, i.slotB,
    i.staging⟩,
    fun i => { i with regions := keysRise_foldl (fun m r h => keysRise_mput _ _ h) _ rfl, chans := keysRise_of_keys i.chans }⟩
  have h2 : Chg Foot.installs s s2 := .via h1 State.reloadImage_chg
  have h3 : Chg Foot.installs s s3 := .foldl (fun _ _ => .mono .setFld) _ h2
  have h4 : Chg Foot.installs s s4 := .via (.via h3 .setFld) .setFld
  have h5 : Chg Foot.installs s s5 := .via h4 (.mapTiles (g := fun T => { T with full := 0, fullAt := 0, hndw := [] }) fun _ => rfl)
  have h6 : Chg Foot.installs s s6 := .foldl (fun _ _ => .ite (.mono State.galByGate_chg) .refl) _ h5
  have h7 : Chg Foot.installs s s7 := by
    simp only [s7]
    split
    · exact .ite (.via h6 State.setClockStep_chg) (.via (.via h6 State.setClockStep_chg) State.event_chg)
    · exact h6
  have h8 : Chg Foot.installs s s8 := .via (.via (.via h7 State.loadAnnex_chg) State.loadEngines_chg) State.loadPair_chg
  have h9 : Chg Foot.installs s s9 := .ite h8 (.via (.via h8 State.loadTables_chg) State.zeroDigest_chg)
  have h10 : Chg Foot.installs s s10 := .via (.via (.via h9 .setFld) .setFld) .setFld
  exact .via (.via (.via h10 .setFld) .setReg) State.loadBin_chg

theorem State.fullEnd_chg {s : State} {old : List (Nat × Nat)} :
    Chg { regs := true, links := true, fab := true, fns := true, mir := true, wts := true, engs := true, ext := true, reqs := true }
    s (s.fullEnd old) := by
  unfold State.fullEnd
  dsimp only
  refine .via ?_ State.loadPorts_chg
  split
  · exact .foldl (fun _ _ => .via .refl .setReg) _ .refl
  · exact .refl

theorem State.goOnLoad_chg {s : State} {L : Loading} :
    Chg { loading := true, regs := true, links := true, fab := true, fns := true, mir := true, wts := true, engs := true,
          ext := true, reqs := true, regions := true, chans := true, img := true, plans := true, tiles := true, gals := true,
          pwr := true, freeCtr := true } s (s.goOnLoad L) := by
  unfold State.goOnLoad
  dsimp only
  refine .ite (.via (.via (.ite (.via .plain .setFld) (.via (.via .plain .setFld) State.fullEnd_chg)) State.complete_chg)
    State.answerAll_chg) ?_
  split
  · exact .via (.via .refl State.loadFails_chg) State.answerAll_chg
  · exact .via (.via (.via .refl State.applyImage_chg) .setFld) .setLoading

theorem execLoadImage_does {c : Cmd} {addr : BitVec 64} {len : BitVec 32} {sigOk : Bool} {s : State} :
    Does { loading := true, regs := true, links := true, fab := true, fns := true, mir := true, wts := true, engs := true,
           ext := true, reqs := true, regions := true, chans := true, img := true, plans := true, tiles := true, gals := true,
           pwr := true, freeCtr := true } s (execLoadImage c addr len sigOk s) := by
  unfold execLoadImage
  dsimp only
  refine .next ?_
  split
  · exact .ite (.via .refl State.goOnLoad_chg) .refl
  · exact .runCmd .refl (fun _ => .ite (.via .refl State.complete_chg) (.ite (.via .refl State.loadFails_chg)
      (.via (.via .refl .setFld) .setLoading)))

theorem execPlanLoad_does {c : Cmd} {addr : BitVec 64} {len : BitVec 32} {s : State} :
    Does { fns := true, regs := true, ext := true, plans := true } s (execPlanLoad c addr len s) := by
  unfold execPlanLoad
  dsimp only
  refine .next ?_
  refine .runCmd .refl (fun _ => ?_)
  refine .ite (.via .refl State.complete_chg) ?_
  split
  · exact .ite (.via .refl State.complete_chg) (.via (.via (.via .refl (.setExt fun h => memWf_wrBytes _ _ h)) .setPlans)
      State.complete_chg)
  · exact .via .refl State.complete_chg

theorem execPlanFree_does {c : Cmd} {plan : BitVec 32} {s : State} :
    Does { fns := true, regs := true, freeCtr := true, regions := true, plans := true } s (execPlanFree c plan s) := by
  unfold execPlanFree
  refine .next (.runCmd .refl fun t => ?_)
  refine .ite (.via .refl State.complete_chg) (.ite (.via (.via .refl State.freeStep_chg) State.complete_chg) ?_)
  refine .via (u := { t with plans := t.plans.filter fun x => x.id != plan.toNat, regions := _ }) ?_ State.complete_chg
  exact .via (u := { t with plans := t.plans.filter fun x => x.id != plan.toNat }) (.via .refl .setPlans)
    (.setRegions fun h => keysRise_of_keys h)

/-! ## HostIf -/

theorem execInterruptRaise_does {fn : Nat} {vec : Fin 8} {s : State} :
    Does { fns := true, irqs := true } s (execInterruptRaise fn vec s) := by
  unfold execInterruptRaise
  exact .next (.ite (.via (.via .refl .modFunc) .setIrqs) .refl)

theorem Chg.hostPut {P : Foot} {s u : State} {fn a : Nat} {b : List Byte} {f : State → State} (h : Chg P s u)
    (hf : ∀ v, Chg P v (f v))
    (hle : ({ hostMem := true, regs := true, fns := true } : Foot).or P = P := by rfl) : Chg P s (u.hostPut fn a b f) := by
  have hput : Chg { hostMem := true, regs := true, fns := true } u { u with hostMem := wrBytes u.hostMem a b } := .mono
    (.setHostMem (memWf_wrBytes _ _))
  have hstop : Chg { hostMem := true, regs := true, fns := true } u (u.stopRings fn a) := .mono State.stopRings_chg
  exact .ite ((h.via hput hle).trans (hf _)) (h.via hstop hle)

theorem State.putIndices_chg {s : State} {fn : Nat} :
    Chg { hostMem := true, regs := true, fns := true } s (s.putIndices fn) := by
  unfold State.putIndices
  exact .hostPut .refl (fun _ => .refl)

theorem State.takeEntries_chg {s : State} {fn x2 : Nat} :
    Chg { fns := true, regs := true } s (s.takeEntries fn x2) := by
  induction x2 generalizing s with
  | zero => exact .refl
  | succ n ih =>
    rw [State.takeEntries]
    exact .ite (.ite (.trans (.mono .modFunc) ih) .refl) (.mono State.stopRings_chg)

theorem State.scanFn_chg {s : State} {fn : Nat} :
    Chg { fns := true, regs := true, hostMem := true } s (s.scanFn fn) := by
  unfold State.scanFn
  exact .ite .refl (.ite (.ite (.via .refl State.takeEntries_chg) (.via (.via (.via .refl State.takeEntries_chg)
    State.answerAll_chg) State.putIndices_chg)) (.via .refl State.stopRings_chg))

theorem execRingScan_does {host : HostDone} {s : State} :
    Does { hostMem := true, scanAt := true, scans := true, vfs := true, scanDue := true, fns := true, regs := true }
    s (execRingScan host s) := by
  unfold execRingScan
  dsimp only
  exact .next (.ite (.foldl (fun _ _ => .via .refl State.scanFn_chg) _
    (.via (.via (.via (.via (.via .refl (.setHostMem fun h => memWf_foldl (fun _ _ h => (by split; exacts [memWf_wrByte _ _ h, h]))
    _ h)) .setScanAt) .setScans) .setVfs) .setScanDue)) .refl)

theorem execNopCommand_does {c : Cmd} {s : State} :
    Does { fns := true, regs := true } s (execNopCommand c s) := by
  unfold execNopCommand
  exact .next (.runCmd .refl (fun _ => .via .refl State.complete_chg))

theorem State.writeCpl_chg {s : State} {fn : Nat} :
    Chg { hostMem := true, regs := true, fns := true } s (s.writeCpl fn) := by
  unfold State.writeCpl
  dsimp only
  split
  · exact .refl
  · exact .ite .refl (.hostPut .refl (fun _ => .via (.via (.ite (.via (.via .refl .modFunc) State.irqCause_chg)
      (.via .refl .modFunc)) State.putIndices_chg) State.answerAll_chg))

theorem execCompletionWrite_does {fn : Nat} {s : State} :
    Does { hostMem := true, regs := true, fns := true } s (execCompletionWrite fn s) := by
  unfold execCompletionWrite
  exact .next (.via .refl State.writeCpl_chg)

theorem State.writeCpls_chg {s : State} {fn x2 : Nat} :
    Chg { hostMem := true, regs := true, fns := true } s (s.writeCpls fn x2) := by
  induction x2 generalizing s with
  | zero => exact .refl
  | succ n ih => exact .trans State.writeCpl_chg ih

theorem State.putEvent_chg {s : State} {fn : Nat} {e : Ev} {f : Func → Func} :
    Chg { hostMem := true, regs := true, fns := true } s (s.putEvent fn e f) := by
  unfold State.putEvent
  exact .hostPut .refl (fun _ => .via (.ite (.via (.via .refl .modFunc) State.irqCause_chg) (.via .refl .modFunc))
    State.putIndices_chg)

theorem execEventWrite_does {fn : Nat} {s : State} :
    Does { fns := true, regs := true, hostMem := true } s (execEventWrite fn s) := by
  unfold execEventWrite
  dsimp only
  refine .next ?_
  refine .ite .refl ?_
  split
  · exact .ite (.via (.via .refl .modFunc) State.loseEvents_chg) (.via .refl State.putEvent_chg)
  · refine .ite (.via .refl State.putEvent_chg) ?_
    split
    · exact .ite (.via (.via .refl .modFunc) State.loseEvents_chg) (.via .refl State.putEvent_chg)
    · exact .refl

theorem execRingAccessFail_does {fn : Nat} {addr : BitVec 64} {s : State} :
    Does { regs := true, fns := true } s (execRingAccessFail fn addr s) := by
  unfold execRingAccessFail
  exact .next (.ite (.via .refl State.stopRings_chg) .refl)

theorem State.restartRings_chg {s : State} {fn : Nat} :
    Chg { regs := true, fns := true } s (s.restartRings fn) := by
  unfold State.restartRings
  exact .ite (.via (.via .refl .setFld) State.answerAll_chg) .refl

theorem execRingRestart_does {fn : Nat} {s : State} :
    Does { regs := true, fns := true } s (execRingRestart fn s) := by
  unfold execRingRestart
  exact .next (.ite (.via .refl State.restartRings_chg) .refl)

theorem State.ringWrite_chg {s : State} {fn ring v : Nat} :
    Chg { regs := true, fns := true } s (s.ringWrite fn ring v) := by
  unfold State.ringWrite
  exact .ite (.via (.ite (.via (.ite (.via .refl .setReg) (.via .refl .rwWrite)) .setFld) (.ite (.via .refl .setReg)
    (.via .refl .rwWrite))) .modFunc) (.ite (.via (.via (.ite (.via (.ite (.via .refl .setReg) (.via .refl .rwWrite)) .setFld)
    (.ite (.via .refl .setReg) (.via .refl .rwWrite))) .modFunc) State.loseEvents_chg) (.ite (.via (.ite (.via .refl .setReg)
    (.via .refl .rwWrite)) .setFld) (.ite (.via .refl .setReg) (.via .refl .rwWrite))))

theorem execRingEnable_does {fn : Nat} {ring : Fin 3} {val : BitVec 64} {s : State} :
    Does { regs := true, fns := true } s (execRingEnable fn ring val s) := by
  unfold execRingEnable
  exact .next (.ite (.via .refl State.ringWrite_chg) .refl)

theorem State.fwWrite_chg {s : State} {by_ : Writer} {fn k : Nat} {lim : Bool} {off v : Nat} :
    Chg { regs := true, fns := true } s (s.fwWrite by_ fn k lim off v) := by
  unfold State.fwWrite
  dsimp only
  split
  · exact .via .refl .rwWrite
  · exact .ite .refl (.ite (.via .refl .rwWrite) (.via .refl State.gateEvent_chg))
  · exact .refl

theorem execFirewallWindowWrite_does {by_ : Writer} {fn : Nat} {k : Fin 8} {lim : Bool} {off : Nat} {val : BitVec 64} {s : State} :
    Does { regs := true, fns := true } s (execFirewallWindowWrite by_ fn k lim off val s) := by
  unfold execFirewallWindowWrite
  exact .next (.ite (.via .refl State.fwWrite_chg) .refl)

theorem State.msixWrite_chg {s : State} {fn off : Nat} {v : BitVec 64} :
    Chg { fns := true } s (s.msixWrite fn off v) := by
  unfold State.msixWrite
  exact .via .refl .modFunc

theorem execAbsentAccess_does {by_ : Writer} {off : Nat} {val : Option (BitVec 64)} {s : State} :
    Does { fns := true, regs := true } s (execAbsentAccess by_ off val s) := by
  unfold execAbsentAccess
  dsimp only
  refine .next ?_
  split
  · exact .gated .refl (fun _ => .ite (.via .refl State.event_chg) .refl)
  · exact .ite (.ite (.via .refl State.msixWrite_chg) .refl) (.ite .refl (.gated .refl (fun _ => .ite (.via .refl State.event_chg)
      .refl)))
  · exact .ite (.via .refl State.event_chg) .refl
  · exact .ite (.ite (.via .refl State.event_chg) .refl) .refl

/-! ## RegWrite -/

theorem Chg.moduleWrite {P : Foot} {s u : State} {w : Writer} {r : Reg} {off n : Nat} {f : State → State} (h : Chg P s u)
    (hf : ∀ v, Chg P v (f v))
    (hle : ({ fns := true, regs := true } : Foot).or P = P := by rfl) : Chg P s (u.moduleWrite w r off n f) := by
  unfold State.moduleWrite
  refine h.gated (fun _ => ?_) hle
  split
  · exact Chg.refl.absentOr (fun _ => Chg.refl.imgWrite hf hle) hle
  · exact Chg.refl.imgWrite hf hle

theorem State.setThrottle_chg {s : State} :
    Chg { freeCtr := true, regs := true, pwr := true } s (s.setThrottle) := by
  unfold State.setThrottle
  exact .ite .refl (.ite (.ite (.via (.via (.via .refl State.freeStep_chg) .setFld) .modPwr) .refl) (.via .refl .setFld))

theorem State.writePwrCtl_chg {s : State} {v : Nat} :
    Chg { regs := true, pwr := true, freeCtr := true } s (s.writePwrCtl v) := by
  unfold State.writePwrCtl
  exact .ite (.ite (.via (.via .refl .rwWrite) .modPwr) (.via .refl .rwWrite)) (.via (.via (.via .refl .rwWrite) .setFld)
    State.setThrottle_chg)

theorem State.dmaWriteLast_chg {s : State} {w : RegWr} :
    Chg { fns := true, regs := true } s (s.dmaWriteLast w) := by
  unfold State.dmaWriteLast
  exact .ite (.ite (.via .refl State.event_chg) .refl) (.via .refl .rwWrite)

theorem State.plainWrite_chg {s : State} {r : Reg} {off v : Nat} :
    Chg { fns := true, regs := true, written := true, pwr := true, freeCtr := true, chans := true } s (s.plainWrite r off v) := by
  unfold State.plainWrite
  dsimp only
  split
  · exact .ite (.via .refl State.imageBusy_chg) (.ite (.via .refl State.lastWrite_chg) (.via (.via .refl State.lastWrite_chg)
      State.modified_chg))
  · exact .via .refl State.writePwrCtl_chg
  · exact .ite (.via .refl State.lastWrite_chg) (.via (.via .refl State.lastWrite_chg) State.modified_chg)
  · exact .via .refl State.writeMemCal_chg
  · exact .via (.via .refl .rwWrite) .setFld
  · exact .ite (.via .refl State.keepWrite_chg) (.via .refl State.lastWrite_chg)
  · exact .ite (.via .refl State.keepWrite_chg) (.via .refl State.lastWrite_chg)
  · exact .ite (.via .refl State.keepWrite_chg) (.via .refl State.lastWrite_chg)
  · exact .ite (.via .refl State.keepWrite_chg) (.via .refl State.lastWrite_chg)
  · exact .via .refl State.lastWrite_chg

theorem execRegisterWrite_does {by_ : Writer} {r : Reg} {off : Nat} {val : BitVec 64} {s : State} :
    Does { regs := true, written := true, fns := true, links := true, fab := true, mir := true, wts := true, engs := true,
           ext := true, reqs := true, dma := true, mpkts := true, bankOut := true, tiles := true, anx := true, accs := true,
           pwr := true, freeCtr := true, chans := true } s (execRegisterWrite by_ r off val s) := by
  unfold execRegisterWrite
  dsimp only
  refine .next ?_
  refine .ite .refl ?_
  refine .ite ?_ ?_
  · split
    · exact .via .refl State.lastWrite_chg
    · exact .ite (.via .refl State.lastWrite_chg) .refl
  · split
    · exact .via .refl State.writeLnkCtl_chg
    · exact .via .refl State.writeDmaCtl_chg
    · exact .via .refl State.writeAnxCtl_chg
    · exact .moduleWrite .refl (fun _ => .via .refl State.plainWrite_chg)

theorem execHandleEntryWrite_does {by_ : Writer} {t : Xy} {n : Fin 64} {ctl : Bool} {off : Nat} {val : BitVec 64} {s : State} :
    Does { fns := true, regs := true, tiles := true } s (execHandleEntryWrite by_ t n ctl off val s) := by
  unfold execHandleEntryWrite
  exact .next (.moduleWrite .refl (fun _ => .ite (.via .refl State.imageBusy_chg) (.ite (.ite (.via .refl State.handleFault_chg)
    .refl) (.via (.via (.via (.onModTile (.ite (.via .refl State.handleFault_chg) .refl) .plain) .setReg) .setReg)
    State.modified_chg))))

theorem execSlotCommand_does {by_ : Writer} {t : Xy} {off : Nat} {val : BitVec 32} {s : State} :
    Does { fns := true, regs := true, tiles := true } s (execSlotCommand by_ t off val s) := by
  unfold execSlotCommand
  exact .next (.moduleWrite .refl (fun _ => .ite (.via .refl State.imageBusy_chg)
    (.ite .refl (.ite (.onModTile .refl (.via .refl Tile.setFull_tchg)) (.ite (.onModTile .refl (.via .refl Tile.setFull_tchg))
    .refl)))))

theorem execMxctlWrite_does {by_ : Writer} {t : Xy} {off : Nat} {val : BitVec 32} {s : State} :
    Does { fns := true, regs := true } s (execMxctlWrite by_ t off val s) := by
  unfold execMxctlWrite
  exact .next (.moduleWrite .refl (fun _ => .ite (.via (.via .refl .setFld) .setFld) (.ite (.via (.via (.via .refl .setFld)
    .setFld) State.imageBusy_chg) (.ite (.via (.via (.via .refl .setFld) .setFld) State.mxFault_chg)
    (.via (.via (.via (.via .refl .setFld) .setFld) .setFld) State.modified_chg)))))

theorem execVctlWrite_does {by_ : Writer} {t : Xy} {off : Nat} {val : BitVec 32} {s : State} :
    Does { fns := true, regs := true } s (execVctlWrite by_ t off val s) := by
  unfold execVctlWrite
  exact .next (.moduleWrite .refl (fun _ => .ite (.via .refl State.imageBusy_chg) (.ite (.via .refl State.vFault_chg)
    (.via (.via .refl .rwWrite) State.modified_chg))))

theorem execVcwordWrite_does {by_ : Writer} {t : Xy} {off : Nat} {val : BitVec 64} {s : State} :
    Does { fns := true, regs := true, tiles := true } s (execVcwordWrite by_ t off val s) := by
  unfold execVcwordWrite
  exact .next (.moduleWrite .refl (fun _ => .ite (.via .refl State.imageBusy_chg) (.ite (.via .refl State.vFault_chg)
    (.onModTile .refl .plain))))

/-! ## Reset -/

theorem State.alert_chg {s : State} :
    Chg { milug := true } s (s.alert) := by
  unfold State.alert
  exact .ite (.via .refl .modMilugPlain) .refl

theorem State.modFault_chg {s : State} {code : Nat} :
    Chg { fns := true, regs := true, boot := true, milug := true } s (s.modFault code) := by
  unfold State.modFault
  exact .via (.via (.via (.via (.via (.via (.via .refl State.event_chg) .setFld) .setFld) .satAdd) State.irqCause_chg)
    .modBootPlain) State.alert_chg

theorem State.cleared_chg {s : State} :
    Chg Foot.resets s (s.cleared) := by
  unfold State.cleared
  refine ⟨rfl, fun _ => ⟨rfl, rfl, rfl⟩, fun i => ?_, fun _ => ⟨rfl, rfl, rfl, rfl, rfl, rfl, rfl, rfl, rfl⟩⟩
  exact ⟨memWf_filter (fun a => decide (annexBase 0 ≤ a)) i.ext, i.host, fun _ => rfl, i.slotA, i.slotB, i.staging⟩

theorem State.mainOff_chg {s : State} {cause : Nat} :
    Chg Foot.resets s (s.mainOff cause) := by
  unfold State.mainOff
  extract_lets t
  exact .via (u := { t with boot := { t.boot with stage := min t.boot.stage 1, bootRes := cause } }) (.via State.cleared_chg
    .setBootPlain) .setPwr

theorem State.spoilTile_chg {s : State} {y : Nat} :
    Chg { tiles := true, freeCtr := true } s (s.spoilTile y) := by
  unfold State.spoilTile
  exact .via (.onModTile .refl ⟨fun h => memWf_wrBytes _ _ rfl⟩) State.freeStep_chg

theorem State.warmReset_chg {s : State} {cause : Nat} :
    Chg Foot.resets s (s.warmReset cause) := by
  unfold State.warmReset
  extract_lets again t1 _ _ t2 t3 t4
  have h1 : Chg Foot.resets s t1 := .foldl (fun _ _ => .mono State.spoilTile_chg) _ State.cleared_chg
  have h2 : Chg Foot.resets s t2 :=
    .via (u := { t1 with boot := { t1.boot with stage := 2, bootRes := if again then 1 else cause } }) (.via h1 .setBootPlain)
      .setPwr
  have h4 : Chg Foot.resets s t4 := .via (.via (.via h2 .setFld) .setFld) .setFld
  exact .ite .refl (.ite h4 (.via h4 State.event_chg))

theorem State.writeRecord_chg {s : State} :
    Chg { boot := true, slots := true } s (s.writeRecord) := by
  refine .mono (.modBootPlain ?_ ?_ ?_) <;> (dsimp only; split <;> rfl)

theorem State.readRecord_chg {s : State} :
    Chg { boot := true, slots := true } s (s.readRecord) := by
  unfold State.readRecord
  refine .modBoot (fun h => ?_) (fun h => ?_)
  · dsimp only
    split
    · exact h
    · exact h
  · dsimp only
    split
    · exact h
    · exact h

theorem State.activate_chg {s : State} {c : Cmd} :
    Chg { Foot.resets with hostMem := true, slots := true } s (s.activate c) := by
  unfold State.activate
  dsimp only
  split
  · exact .via .refl State.complete_chg
  · exact .via (.via (.via (.via (.via .refl (.modSlot id)) State.writeRecord_chg) State.complete_chg) State.writeCpls_chg)
      State.warmReset_chg

theorem State.finishActivate_chg {s : State} :
    Chg { Foot.resets with hostMem := true, slots := true } s (s.finishActivate) := by
  unfold State.finishActivate
  split
  · exact .ite (.via .refl State.activate_chg) .refl
  · exact .refl

/-! ## Launch -/

theorem State.sealBuffer_chg {s : State} {r j : Nat} :
    Chg { ext := true, wts := true } s (s.sealBuffer r j) := by
  unfold State.sealBuffer
  dsimp only
  split
  · exact .refl
  · refine .via ?_ .modWts
    refine .via ?_ (.setExt fun h => memWf_foldl (fun _ _ h => memWf_wrBytes _ _ h) _ h)
    split
    · exact .ite .refl (.via .refl (.setExt fun h => memWf_wrBytes _ _ h))
    · exact .refl

theorem State.wptrDone_chg {s : State} {r : Nat} :
    Chg { regs := true, fns := true, wts := true } s (s.wptrDone r) := by
  unfold State.wptrDone
  dsimp only
  refine .via ?_ .modWts
  refine .foldl (fun _ _ => ?_) _ .refl
  split
  · exact .via .refl State.complete_chg
  · exact .refl

theorem Tile.clearUnits_tchg {t : Tile} {keep : Bool} :
    TChg t (t.clearUnits keep) := by
  unfold Tile.clearUnits
  exact .plain

theorem State.install_chg {s : State} {r : Nat} {p : Plan} {reads : List (Nat × GranRes)} :
    Chg { fns := true, regs := true, occ := true, chans := true, tiles := true, gals := true, regions := true }
    s (s.install r p reads) := by
  unfold State.install
  refine .via (.foldl (fun _ _ => .via .refl .modGal) _ (.foldl (fun v x => ?_) _ (.via .refl State.textRead_chg))) .modRegion
  exact .via (.onModTile .refl (.via (U := (v.tile (tIx x)).clearUnits false) Tile.clearUnits_tchg .plain)) .setReg

theorem State.modLaunch_chg {s : State} {id : BitVec 64} {f : LaunchSt → LaunchSt} :
    Chg { fab := true } s (s.modLaunch id f) := by
  unfold State.modLaunch
  exact .via .refl .modFab

theorem State.lstat_chg {s : State} {L : LaunchSt} {v : Nat} :
    Chg { regs := true } s (s.lstat L v) := by
  unfold State.lstat
  exact .ite (.via .refl .setFld) .refl

theorem State.lstatOver_chg {s : State} {r : Nat} :
    Chg { regs := true } s (s.lstatOver r) := by
  unfold State.lstatOver
  split
  · exact .via .refl State.lstat_chg
  · exact .refl

theorem State.retire_chg {s : State} {r : Nat} {keep : Option (BitVec 64)} :
    Chg { fab := true } s (s.retire r keep) := by
  unfold State.retire
  exact .via .refl .modFab

theorem State.clearBudget_chg {s : State} {r : Nat} :
    Chg { regs := true } s (s.clearBudget r) := by
  unfold State.clearBudget
  exact .ite (.foldl (fun _ _ => .via .refl .setFld) _ .refl) .refl

theorem Tile.begin__tchg {t : Tile} {p : Plan} {ix pads : Nat} {loc keep : Bool} :
    TChg t (t.begin_ p ix pads loc keep) := by
  unfold Tile.begin_
  exact .via (U := t.clearUnits keep) Tile.clearUnits_tchg .plain

theorem State.invBegin_chg {s : State} {r : Nat} :
    Chg { regs := true, tiles := true, gals := true, regions := true, park := true, chans := true, fns := true, wts := true }
    s (s.invBegin r) := by
  unfold State.invBegin
  dsimp only
  split
  · exact .refl
  · refine .via ?_ State.wptrDone_chg
    refine .via ?_ State.loadBin_chg
    split
    · refine .ite ?_ ?_
      · refine .via ?_ State.lstat_chg
        split
        · split
          · exact .ite (.via (.via (.foldl (fun _ _ => .via .refl .modGal) _ (.foldl (fun _ _ => .onModTile .refl
              (.via .refl Tile.begin__tchg)) _ (.via .refl State.clearBudget_chg))) .modRegion) .setPark)
              (.via (.foldl (fun _ _ => .via .refl .modGal) _ (.foldl (fun _ _ => .onModTile .refl (.via .refl Tile.begin__tchg)) _
              (.via .refl State.clearBudget_chg))) .modRegion)
          · exact .via (.foldl (fun _ _ => .via .refl .modGal) _ (.foldl (fun _ _ => .onModTile .refl
              (.via .refl Tile.begin__tchg)) _ (.via .refl State.clearBudget_chg))) .modRegion
        · exact .via (.foldl (fun _ _ => .via .refl .modGal) _ (.foldl (fun _ _ => .onModTile .refl (.via .refl Tile.begin__tchg))
            _ (.via .refl State.clearBudget_chg))) .modRegion
      · split
        · split
          · exact .ite (.via (.via (.foldl (fun _ _ => .via .refl .modGal) _ (.foldl (fun _ _ => .onModTile .refl
              (.via .refl Tile.begin__tchg)) _ (.via .refl State.clearBudget_chg))) .modRegion) .setPark)
              (.via (.foldl (fun _ _ => .via .refl .modGal) _ (.foldl (fun _ _ => .onModTile .refl (.via .refl Tile.begin__tchg)) _
              (.via .refl State.clearBudget_chg))) .modRegion)
          · exact .via (.foldl (fun _ _ => .via .refl .modGal) _ (.foldl (fun _ _ => .onModTile .refl
              (.via .refl Tile.begin__tchg)) _ (.via .refl State.clearBudget_chg))) .modRegion
        · exact .via (.foldl (fun _ _ => .via .refl .modGal) _ (.foldl (fun _ _ => .onModTile .refl (.via .refl Tile.begin__tchg))
            _ (.via .refl State.clearBudget_chg))) .modRegion
    · split
      · split
        · exact .ite (.via (.via (.foldl (fun _ _ => .via .refl .modGal) _ (.foldl (fun _ _ => .onModTile .refl
            (.via .refl Tile.begin__tchg)) _ (.via .refl State.clearBudget_chg))) .modRegion) .setPark)
            (.via (.foldl (fun _ _ => .via .refl .modGal) _ (.foldl (fun _ _ => .onModTile .refl (.via .refl Tile.begin__tchg)) _
            (.via .refl State.clearBudget_chg))) .modRegion)
        · exact .via (.foldl (fun _ _ => .via .refl .modGal) _ (.foldl (fun _ _ => .onModTile .refl (.via .refl Tile.begin__tchg))
            _ (.via .refl State.clearBudget_chg))) .modRegion
      · exact .via (.foldl (fun _ _ => .via .refl .modGal) _ (.foldl (fun _ _ => .onModTile .refl (.via .refl Tile.begin__tchg)) _
          (.via .refl State.clearBudget_chg))) .modRegion

theorem State.stopRegion_chg {s : State} {r : Nat} :
    Chg { tiles := true, freeCtr := true, park := true, regions := true } s (s.stopRegion r) := by
  unfold State.stopRegion
  dsimp only
  refine .via ?_ .modRegion
  split
  · exact .ite (.via (.ite (.foldl (fun _ _ => .via (.onModTile .refl ⟨fun h => memWf_wrBytes _ _ rfl⟩) State.freeStep_chg) _
      .refl) .refl) .setPark) (.ite (.foldl (fun _ _ => .via (.onModTile .refl ⟨fun h => memWf_wrBytes _ _ rfl⟩)
      State.freeStep_chg) _ .refl) .refl)
  · exact .ite (.foldl (fun _ _ => .via (.onModTile .refl ⟨fun h => memWf_wrBytes _ _ rfl⟩) State.freeStep_chg) _ .refl) .refl

theorem State.runDone_chg {s : State} {r status : Nat} {report : Option (Word × Word)} :
    Chg { regs := true, fns := true, regions := true } s (s.runDone r status report) := by
  unfold State.runDone
  dsimp only
  refine .via ?_ .modRegion
  refine .foldl (fun _ _ => .via .refl State.complete_chg) _ ?_
  split
  · exact .via .refl State.complete_chg
  · exact .refl

theorem State.hbSeries_chg {s : State} {was : Option Nat} :
    Chg { mir := true } s (s.hbSeries was) := by
  unfold State.hbSeries
  exact .ite .refl (.via .refl .modMir)

theorem State.regionDone_chg {s : State} {r : Nat} :
    Chg { regions := true, mir := true } s (s.regionDone r) := by
  unfold State.regionDone
  exact .via (.via .refl .modRegion) State.hbSeries_chg

theorem State.toNode_chg {s : State} {L : LaunchSt} {i type : Nat} {args : List Nat} :
    Chg { fab := true } s (s.toNode L i type args) := by
  unfold State.toNode
  exact .via .refl State.sendMsg_chg

theorem State.forward_chg {s : State} {id : BitVec 64} {type : Nat} {args : List Nat} :
    Chg { fab := true } s (s.forward id type args) := by
  unfold State.forward
  split
  · exact .refl
  · exact .via (.foldl (fun _ _ => .via .refl State.toNode_chg) _ .refl) State.modLaunch_chg

theorem State.upTree_chg {s : State} {L : LaunchSt} {type : Nat} {args : List Nat} :
    Chg { fab := true } s (s.upTree L type args) := by
  unfold State.upTree
  exact .ite (.via (.ite (.via .refl State.toNode_chg) .refl) State.toNode_chg) (.ite (.via .refl State.toNode_chg) .refl)

theorem State.lack_chg {s : State} {L : LaunchSt} :
    Chg { fab := true } s (s.lack L) := by
  unfold State.lack
  exact .via .refl State.upTree_chg

theorem State.lfail_chg {s : State} {L : LaunchSt} {status : Nat} :
    Chg { fab := true, fns := true, regs := true } s (s.lfail L status) := by
  unfold State.lfail
  exact .via (.via (.via .refl State.upTree_chg) State.event_chg) State.modLaunch_chg

theorem State.treeBegins_chg {s : State} {t : Tree} {node count : Nat} {arm : Bool} :
    Chg { regs := true, fab := true } s (s.treeBegins t node count arm) := by
  unfold State.treeBegins
  extract_lets s1 s2 s3
  have h1 : Chg { regs := true, fab := true } s s1 :=
    .mono (.setRegs fun h => keysRise_filter (fun k => k / 2 ^ 32 != RegKind.fabStrag.code) h)
  have h3 : Chg { regs := true, fab := true } s s3 := .via (.via (.via (.via (.via h1 .setReg) .setReg) .setFld) .setFld) .setFld
  exact .via h3 .modFab

theorem State.cancel_chg {s : State} {L : LaunchSt} :
    Chg { fab := true, tiles := true, freeCtr := true, park := true, regions := true } s (s.cancel L) := by
  unfold State.cancel
  exact .ite (.via .refl State.modLaunch_chg) (.ite .refl (.via .refl State.stopRegion_chg))

theorem State.abortHere_chg {s : State} {L : LaunchSt} :
    Chg { fab := true, tiles := true, freeCtr := true, park := true, regions := true, fns := true, regs := true }
    s (s.abortHere L) := by
  unfold State.abortHere
  exact .via (.ite (.via (.ite .refl (.via .refl State.cancel_chg)) State.event_chg) (.ite .refl (.via .refl State.cancel_chg)))
    State.lstat_chg

theorem State.jobFails_chg {s : State} {L : LaunchSt} :
    Chg { regs := true, fns := true, regions := true, fab := true, tiles := true, freeCtr := true, park := true }
    s (s.jobFails L) := by
  unfold State.jobFails
  exact .ite .refl (.via (.via (.via (.via .refl State.runDone_chg) State.forward_chg) State.abortHere_chg) State.modLaunch_chg)

theorem State.nodeFails_chg {s : State} {L : LaunchSt} {status : Nat} :
    Chg { regs := true, fns := true, regions := true, fab := true, tiles := true, freeCtr := true, park := true }
    s (s.nodeFails L status) := by
  unfold State.nodeFails
  exact .ite (.via .refl State.jobFails_chg) (.ite .refl (.via (.via (.via .refl State.cancel_chg) State.lfail_chg)
    State.lstat_chg))

theorem State.sendRelease_chg {s : State} {L : LaunchSt} {remain own : Nat} :
    Chg { links := true } s (s.sendRelease L remain own) := by
  unfold State.sendRelease
  refine .foldl (fun _ _ => ?_) _ .refl
  split
  · exact .via .refl State.fabricFlit_chg
  · exact .refl

theorem State.releaseAt_chg {s : State} {r at_ : Nat} :
    Chg { regions := true, park := true } s (s.releaseAt r at_) := by
  unfold State.releaseAt
  dsimp only
  split
  · exact .ite (.via (.via .refl .modRegion) .setPark) (.via .refl .modRegion)
  · exact .via .refl .modRegion

theorem State.releaseJob_chg {s : State} {L : LaunchSt} :
    Chg { links := true, regions := true, park := true, fab := true } s (s.releaseJob L) := by
  unfold State.releaseJob
  exact .via (.via (.via .refl State.sendRelease_chg) State.releaseAt_chg) State.modLaunch_chg

theorem State.sealStep_chg {s : State} {r k : Nat} :
    Chg { ext := true, wts := true } s (s.sealStep r k) := by
  unfold State.sealStep
  exact .foldl (fun _ _ => .ite (.via .refl State.sealBuffer_chg) .refl) _ (.via .refl State.sealBuffer_chg)

theorem State.startRun_chg {s : State} {r plan : Nat} {cmd : Option Cmd} {mode : StartMode} {count : Nat}
    {reads : List (Nat × GranRes)} {tree : Bool} :
    Chg { fab := true, regions := true, fns := true, regs := true, occ := true, chans := true, tiles := true, gals := true,
          engs := true, ext := true, wts := true, mir := true } s (s.startRun r plan cmd mode count reads tree) := by
  unfold State.startRun
  dsimp only
  split
  · exact .via (.via (.ite (.via (.foldl (fun _ _ => .via .refl .modEng) _
      (.via (.ite (.via (.ite .refl (.via .refl State.retire_chg)) .modRegion)
      (.ite (.via (.ite .refl (.via .refl State.retire_chg)) State.install_chg) (.ite .refl (.via .refl State.retire_chg))))
      .modRegion)) State.sealBuffer_chg) (.ite (.via (.foldl (fun _ _ => .via .refl .modEng) _
      (.via (.ite (.via (.ite .refl (.via .refl State.retire_chg)) .modRegion)
      (.ite (.via (.ite .refl (.via .refl State.retire_chg)) State.install_chg) (.ite .refl (.via .refl State.retire_chg))))
      .modRegion)) State.sealStep_chg) (.foldl (fun _ _ => .via .refl .modEng) _
      (.via (.ite (.via (.ite .refl (.via .refl State.retire_chg)) .modRegion)
      (.ite (.via (.ite .refl (.via .refl State.retire_chg)) State.install_chg) (.ite .refl (.via .refl State.retire_chg))))
      .modRegion)))) State.loadBin_chg) State.hbSeries_chg
  · exact .refl

theorem State.doLaunch_chg {s : State} {c : Cmd} {r mode plan count : Nat} {tree : Option Tree} {reads : List (Nat × GranRes)} :
    Chg { fab := true, regs := true, regions := true, fns := true, occ := true, chans := true, tiles := true, gals := true,
          engs := true, ext := true, wts := true, mir := true, links := true, park := true }
    s (s.doLaunch c r mode plan count tree reads) := by
  unfold State.doLaunch
  dsimp only
  split
  · refine .ite ?_ (.via (.via (.via (.via .refl State.retire_chg) State.treeBegins_chg) State.startRun_chg) State.forward_chg)
    refine .ite ?_ (.via (.via (.via (.via (.via .refl State.retire_chg) State.treeBegins_chg) State.startRun_chg)
      State.forward_chg) State.modLaunch_chg)
    split
    · exact .via (.via (.via (.via (.via (.via .refl State.retire_chg) State.treeBegins_chg) State.startRun_chg) State.forward_chg)
        State.modLaunch_chg) State.releaseJob_chg
    · exact .via (.via (.via (.via (.via .refl State.retire_chg) State.treeBegins_chg) State.startRun_chg) State.forward_chg)
        State.modLaunch_chg
  · exact .ite (.via (.via .refl State.startRun_chg) State.releaseAt_chg) (.via .refl State.startRun_chg)

theorem State.tellLaunch_chg {s : State} {r : Nat} :
    Chg { fab := true, links := true, mir := true } s (s.tellLaunch r) := by
  unfold State.tellLaunch
  exact .ite (.via (.via .refl State.mirSend_chg) .modMir) .refl

theorem execLaunch_does {c : Cmd} {region mode : BitVec 8} {plan : BitVec 32} {count tree : BitVec 64}
    {reads : List (Nat × GranRes)} {s : State} :
    Does { fns := true, regs := true, fab := true, links := true, mir := true, regions := true, occ := true, chans := true,
           tiles := true, gals := true, engs := true, ext := true, wts := true, park := true }
    s (execLaunch c region mode plan count tree reads s) := by
  unfold execLaunch
  exact .next (.ite (.via (.via .refl State.cmdWaits_chg) State.answerAll_chg) (.ite (.via (.via (.via .refl State.tellLaunch_chg)
    State.cmdWaits_chg) State.answerAll_chg) (.runCmd .refl (fun _ => .ite (.via .refl State.complete_chg)
    (.via (.via (.via .refl State.tellLaunch_chg) .modMir) State.doLaunch_chg)))))

theorem State.seriesEnds_chg {s : State} {r : Nat} :
    Chg { regs := true, fns := true, regions := true, mir := true } s (s.seriesEnds r) := by
  unfold State.seriesEnds
  exact .via (.via (.via .refl State.lstatOver_chg) State.runDone_chg) State.regionDone_chg

theorem execStop_does {c : Cmd} {region : BitVec 8} {s : State} :
    Does { fns := true, regs := true, regions := true, mir := true } s (execStop c region s) := by
  unfold execStop
  dsimp only
  refine .next ?_
  refine .runCmd .refl (fun _ => ?_)
  split
  · exact .via .refl State.complete_chg
  · exact .ite (.via .refl State.complete_chg) (.ite (.via (.via .refl .modRegion) State.seriesEnds_chg)
      (.ite (.via (.via .refl .modRegion) State.seriesEnds_chg) (.via .refl .modRegion)))

theorem State.nodeBegins_chg {s : State} {L : LaunchSt} :
    Chg { fab := true, regions := true, fns := true, regs := true, occ := true, chans := true, tiles := true, gals := true,
          engs := true, ext := true, wts := true, mir := true } s (s.nodeBegins L) := by
  unfold State.nodeBegins
  exact .ite (.via (.via (.via (.via .refl State.retire_chg) State.startRun_chg) State.toNode_chg) State.modLaunch_chg)
    (.via (.via .refl State.retire_chg) State.startRun_chg)

theorem State.dequeue_chg {s : State} {r : Nat} :
    Chg { fab := true, regions := true, fns := true, regs := true, occ := true, chans := true, tiles := true, gals := true,
          engs := true, ext := true, wts := true, mir := true } s (s.dequeue r) := by
  unfold State.dequeue
  split
  · exact .via (.via .refl State.modLaunch_chg) State.nodeBegins_chg
  · exact .refl

theorem State.treeMsg_chg {s : State} {t : Tree} {count : Nat} {arm : Bool} :
    Chg { fab := true, regs := true, fns := true, regions := true, occ := true, chans := true, tiles := true, gals := true,
          engs := true, ext := true, wts := true, mir := true } s (s.treeMsg t count arm) := by
  unfold State.treeMsg
  dsimp only
  split
  · exact .refl
  · refine .ite .refl ?_
    split
    · exact .via .refl State.lack_chg
    · split
      · exact .via (.via (.via .refl State.treeBegins_chg) State.event_chg) State.forward_chg
      · exact .ite (.via (.via (.via (.via (.via (.via .refl State.treeBegins_chg) State.event_chg) State.forward_chg)
          State.lack_chg) State.lfail_chg) State.lstat_chg) (.ite (.via (.via (.via (.via (.via .refl State.treeBegins_chg)
          State.event_chg) State.forward_chg) State.lack_chg) State.modLaunch_chg)
          (.via (.via (.via (.via (.via .refl State.treeBegins_chg) State.event_chg) State.forward_chg) State.lack_chg)
          State.nodeBegins_chg))

theorem execLaunchMessageReceive_does {tree : Tree} {count : BitVec 64} {s : State} :
    Does { fab := true, regs := true, fns := true, regions := true, occ := true, chans := true, tiles := true, gals := true,
           engs := true, ext := true, wts := true, mir := true } s (execLaunchMessageReceive tree count s) := by
  unfold execLaunchMessageReceive
  exact .next (.onMsg .refl (fun _ => .via .refl State.treeMsg_chg))

theorem execArmReceive_does {tree : Tree} {count : BitVec 64} {s : State} :
    Does { fab := true, regs := true, fns := true, regions := true, occ := true, chans := true, tiles := true, gals := true,
           engs := true, ext := true, wts := true, mir := true } s (execArmReceive tree count s) := by
  unfold execArmReceive
  exact .next (.onMsg .refl (fun _ => .via .refl State.treeMsg_chg))

theorem execAltwaitExpiry_does {child : Nat} {s : State} :
    Does { fab := true, fns := true, regs := true, wts := true } s (execAltwaitExpiry child s) := by
  unfold execAltwaitExpiry
  dsimp only
  refine .next ?_
  split
  · exact .via (.via (.via .refl State.toNode_chg) State.event_chg) State.modLaunch_chg
  · split
    · exact .via (.via (.via .refl State.bcSend_chg) State.event_chg) State.modBc_chg
    · exact .refl

theorem execLackReceive_does {child : Nat} {id : BitVec 64} {s : State} :
    Does { fab := true, wts := true } s (execLackReceive child id s) := by
  unfold execLackReceive
  exact .next (.onMsg .refl (fun _ => .via (.via .refl State.modLaunch_chg) .modWts))

theorem execLfailReceive_does {node : Nat} {id : BitVec 64} {status : BitVec 16} {s : State} :
    Does { fab := true, regs := true, fns := true, regions := true, tiles := true, freeCtr := true, park := true }
    s (execLfailReceive node id status s) := by
  unfold execLfailReceive
  refine .next ?_
  refine .onMsg .refl (fun _ => ?_)
  split
  · exact .refl
  · exact .ite (.via .refl State.jobFails_chg) (.ite .refl (.via (.via .refl State.upTree_chg) State.modLaunch_chg))

theorem execAbortReceive_does {id : BitVec 64} {s : State} :
    Does { fab := true, tiles := true, freeCtr := true, park := true, regions := true, fns := true, regs := true }
    s (execAbortReceive id s) := by
  unfold execAbortReceive
  refine .next ?_
  refine .onMsg .refl (fun _ => ?_)
  split
  · exact .refl
  · exact .ite .refl (.ite (.via .refl State.lack_chg) (.via (.via (.via .refl State.forward_chg) State.lack_chg)
      State.abortHere_chg))

theorem execReadyReceive_does {node : Nat} {id : BitVec 64} {s : State} :
    Does { fab := true, links := true, regions := true, park := true } s (execReadyReceive node id s) := by
  unfold execReadyReceive
  dsimp only
  refine .next ?_
  refine .onMsg .refl (fun _ => ?_)
  split
  · exact .refl
  · exact .ite .refl (.ite (.via (.via .refl State.modLaunch_chg) State.releaseJob_chg) (.via .refl State.modLaunch_chg))

theorem execReleaseFlitReceive_does {p : Fin 32} {remain fwdDelay : Nat} {s : State} :
    Does { links := true, regions := true, park := true, fab := true } s (execReleaseFlitReceive p remain fwdDelay s) := by
  unfold execReleaseFlitReceive
  dsimp only
  refine .next ?_
  refine .onFabric .refl (fun _ => ?_)
  split
  · exact .refl
  · exact .via (.via (.ite (.via (.via .refl State.sendRelease_chg) .modRegion) (.via .refl State.sendRelease_chg))
      State.releaseAt_chg) State.modLaunch_chg

theorem execBarrierTimeout_does {s : State} :
    Does { freeCtr := true, regs := true, fns := true, regions := true, fab := true, tiles := true, park := true }
    s (execBarrierTimeout s) := by
  unfold execBarrierTimeout
  dsimp only
  refine .next ?_
  split
  · exact .via (.via .refl State.freeStep_chg) State.nodeFails_chg
  · exact .refl

theorem State.suspect_chg {s : State} {n : Nat} {ev : Bool} :
    Chg { regs := true, fns := true } s (s.suspect n ev) := by
  unfold State.suspect
  exact .ite .refl (.ite (.via (.via .refl .setFld) State.event_chg) (.via .refl .setFld))

theorem State.straggler_chg {s : State} {n : Nat} :
    Chg { regs := true, fns := true } s (s.straggler n) := by
  unfold State.straggler
  exact .ite (.via (.via .refl .satAdd) State.suspect_chg) (.via .refl .satAdd)

theorem State.nextStepAt_chg {s : State} {r next : Nat} :
    Chg { fns := true, regs := true, regions := true } s (s.nextStepAt r next) := by
  unfold State.nextStepAt
  exact .via (.ite (.via .refl State.event_chg) .refl) .modRegion

theorem State.barrierDone_chg {s : State} {L : LaunchSt} {last : Nat} :
    Chg { fab := true, regs := true, fns := true, links := true, regions := true, park := true } s (s.barrierDone L last) := by
  unfold State.barrierDone
  exact .ite (.via (.via (.via (.via (.via .refl State.modLaunch_chg) State.straggler_chg) State.sendRelease_chg) .modRegion)
    State.releaseAt_chg) (.via (.via (.via (.via .refl State.modLaunch_chg) State.straggler_chg) State.forward_chg)
    State.nextStepAt_chg)

theorem State.takeArrival_chg {s : State} {L : LaunchSt} {node : Nat} :
    Chg { fab := true, regs := true, fns := true, links := true, regions := true, park := true } s (s.takeArrival L node) := by
  unfold State.takeArrival
  exact .ite .refl (.ite (.via .refl State.barrierDone_chg) (.via .refl State.modLaunch_chg))

theorem State.arrive_chg {s : State} {r : Nat} :
    Chg { regions := true, fab := true, regs := true, fns := true, links := true, park := true } s (s.arrive r) := by
  unfold State.arrive
  dsimp only
  split
  · exact .refl
  · exact .ite (.via (.via .refl .modRegion) State.takeArrival_chg) (.via (.via (.via .refl .modRegion) State.toNode_chg) .modFab)

theorem execArriveReceive_does {node : Nat} {id : BitVec 64} {unsync : Bool} {s : State} :
    Does { fab := true, fns := true, regs := true, links := true, regions := true, park := true }
    s (execArriveReceive node id unsync s) := by
  unfold execArriveReceive
  dsimp only
  refine .next ?_
  split
  · exact .refl
  · exact .onMsg .refl (fun _ => .ite .refl (.via (.ite (.via .refl State.event_chg) .refl) State.takeArrival_chg))

theorem State.barrierAborts_chg {s : State} {L : LaunchSt} {missing : Nat} :
    Chg { regs := true, fns := true, regions := true, mir := true } s (s.barrierAborts L missing) := by
  unfold State.barrierAborts
  dsimp only
  refine .ite ?_ ?_
  · refine .via ?_ .modRegion
    split
    · exact .via (.via (.via .refl State.suspect_chg) State.event_chg) State.complete_chg
    · exact .via (.via .refl State.suspect_chg) State.event_chg
  · refine .via ?_ State.seriesEnds_chg
    refine .via ?_ .modRegion
    split
    · exact .via (.via (.via .refl State.suspect_chg) State.event_chg) State.complete_chg
    · exact .via (.via .refl State.suspect_chg) State.event_chg

theorem execStepReleaseReceive_does {last next : Nat} {abort : Bool} {s : State} :
    Does { fab := true, regs := true, fns := true, regions := true, mir := true } s (execStepReleaseReceive last next abort s) := by
  unfold execStepReleaseReceive
  dsimp only
  refine .next ?_
  split
  · exact .onMsg .refl (fun _ => .refl)
  · exact .onMsg .refl (fun _ => .ite (.via .refl State.lack_chg) (.ite (.via (.via .refl State.forward_chg) State.lack_chg)
      (.ite (.via (.via (.via .refl State.forward_chg) State.lack_chg) State.barrierAborts_chg)
      (.via (.via (.via (.via .refl State.forward_chg) State.lack_chg) State.straggler_chg) State.nextStepAt_chg))))

theorem execStepBarrierTimeout_does {s : State} :
    Does { fab := true, regs := true, fns := true, regions := true, mir := true } s (execStepBarrierTimeout s) := by
  unfold execStepBarrierTimeout
  dsimp only
  refine .next ?_
  split
  · exact .refl
  · exact .via (.via (.via .refl State.forward_chg) State.modLaunch_chg) State.barrierAborts_chg

/-! ## Starts -/

theorem State.beginDrafts_chg {s : State} {r : Nat} :
    Chg { regs := true, tiles := true, gals := true, regions := true, park := true, chans := true, fns := true, wts := true }
    s (s.beginDrafts r) := by
  unfold State.beginDrafts
  exact .foldl (fun _ _ => .ite (.via (.via .refl State.invBegin_chg) .modRegion) .refl) _ .refl

theorem execInvocationStart_does {region : Fin 8} {s : State} :
    Does { regs := true, tiles := true, gals := true, regions := true, park := true, chans := true, fns := true, wts := true }
    s (execInvocationStart region s) := by
  unfold execInvocationStart
  exact .next (.ite .refl (.via (.via .refl State.invBegin_chg) State.beginDrafts_chg))

theorem State.countFails_chg {s : State} {r : Nat} {L : Option LaunchSt} :
    Chg { fns := true, regs := true, freeCtr := true, regions := true, fab := true, tiles := true, park := true, mir := true }
    s (s.countFails r L) := by
  unfold State.countFails
  dsimp only
  split
  · exact .via (.via (.via .refl State.event_chg) State.freeStep_chg) State.nodeFails_chg
  · exact .via (.via (.via (.via .refl State.event_chg) State.freeStep_chg) State.runDone_chg) State.regionDone_chg

theorem execLaunchCountDecision_does {region : Fin 8} {s : State} :
    Does { fns := true, regs := true, freeCtr := true, regions := true, fab := true, tiles := true, park := true, mir := true }
    s (execLaunchCountDecision region s) := by
  unfold execLaunchCountDecision
  dsimp only
  refine .next ?_
  split
  · split
    · exact .via .refl State.countFails_chg
    · exact .refl
  · exact .ite .refl (.ite .refl (.ite (.via .refl .modRegion) (.via .refl State.countFails_chg)))

theorem State.overrun_chg {s : State} {r k n : Nat} :
    Chg { fns := true, regs := true } s (s.overrun r k n) := by
  unfold State.overrun
  exact .foldl (fun _ _ => .via (.via .refl State.event_chg) .satAdd) _ .refl

theorem execStepStart_does {region : Fin 8} {s : State} :
    Does { fns := true, regs := true, tiles := true, gals := true, regions := true, park := true, chans := true, wts := true }
    s (execStepStart region s) := by
  unfold execStepStart
  dsimp only
  refine .next ?_
  split
  · exact .refl
  · exact .ite .refl (.via (.via (.via (.ite (.via .refl State.overrun_chg) .refl) State.invBegin_chg) .modRegion)
      State.beginDrafts_chg)

theorem State.runReport_chg {s : State} {r : Nat} :
    Chg { regs := true } s (s.runReport r) := by
  unfold State.runReport
  exact .foldl (fun _ _ => .via .refl .setFld) _
    (.ite (.via (.via (.via (.via (.via (.via (.via (.via (.via (.via (.via (.via .refl .setFld) .setFld) .setReg) .setFld)
    .setFld) .setFld) .setFld) .setFld) .setFld) .setFld) .setFld) .setFld)
    (.via (.via (.via (.via (.via (.via (.via (.via (.via (.via (.via .refl .setFld) .setFld) .setReg) .setFld) .setFld) .setFld)
    .setFld) .setFld) .setFld) .setFld) .setFld))

theorem State.tryArrive_chg {s : State} {r : Nat} :
    Chg { regions := true, fab := true, regs := true, fns := true, links := true, park := true } s (s.tryArrive r) := by
  unfold State.tryArrive
  dsimp only
  split
  · exact .refl
  · exact .ite (.via .refl State.arrive_chg) .refl

theorem State.regionEnd_chg {s : State} {r : Nat} :
    Chg { regs := true, regions := true, scanDue := true, fns := true, mir := true, fab := true, occ := true, chans := true,
          tiles := true, gals := true, engs := true, ext := true, wts := true, links := true, park := true } s (s.regionEnd r) := by
  unfold State.regionEnd
  dsimp only
  split
  · exact .via (.via (.via (.via (.via (.via (.via .refl State.runReport_chg) .modRegion) .setScanDue) State.lstatOver_chg)
      State.runDone_chg) State.regionDone_chg) State.dequeue_chg
  · exact .ite (.via (.ite (.via (.via (.via (.via (.via (.via .refl State.runReport_chg) .modRegion) .setScanDue) State.event_chg)
      .modRegion) State.sealStep_chg) (.via (.via (.via (.via (.via .refl State.runReport_chg) .modRegion) .setScanDue)
      State.event_chg) .modRegion)) State.seriesEnds_chg)
      (.via (.ite (.via (.via (.via (.via (.via (.via .refl State.runReport_chg) .modRegion) .setScanDue) State.event_chg)
      .modRegion) State.sealStep_chg) (.via (.via (.via (.via (.via .refl State.runReport_chg) .modRegion) .setScanDue)
      State.event_chg) .modRegion)) State.tryArrive_chg)

theorem execInvocationEnd_does {t : Xy} {s : State} :
    Does { tiles := true, regs := true, regions := true, scanDue := true, fns := true, mir := true, fab := true, occ := true,
           chans := true, gals := true, engs := true, ext := true, wts := true, links := true, park := true }
    s (execInvocationEnd t s) := by
  unfold execInvocationEnd
  exact .next (.ite .refl (.ite (.via (.onModTile .refl (.via (.via .refl Tile.advance_tchg) .plain)) State.regionEnd_chg)
    (.onModTile .refl (.via (.via .refl Tile.advance_tchg) .plain))))

/-! ## Serving -/

theorem State.modReq_chg {s : State} {e i : Nat} {f : Req → Req} :
    Chg { engs := true } s (s.modReq e i f) := by
  unfold State.modReq
  exact .via .refl .modEng

theorem State.takePage_chg {s : State} {e : Nat} {annex : Bool} :
    Chg { engs := true, ext := true } s (s.takePage e annex).1 := by
  unfold State.takePage
  dsimp only
  split
  · exact .via (.via .refl .modEng) State.putCounts_chg
  · exact .refl

theorem State.takePages_chg {s : State} {e : Nat} {annex : Bool} {x3 : Nat} :
    Chg { engs := true, ext := true } s (s.takePages e annex x3).1 := by
  induction x3 generalizing s with
  | zero => exact .refl
  | succ n ih =>
    rw [State.takePages]
    split
    · exact .trans (.ofFst State.takePage_chg) ih
    · exact .ofFst State.takePage_chg

theorem State.dropPages_chg {s : State} {e : Nat} {ps : List Nat} :
    Chg { engs := true, ext := true } s (s.dropPages e ps) := by
  unfold State.dropPages
  exact .via (.via .refl .modEng) State.putCounts_chg

theorem State.putPageList_chg {s : State} {e i : Nat} {ps : List Nat} :
    Chg { ext := true } s (s.putPageList e i ps) := by
  unfold State.putPageList
  split
  · exact .via .refl (.setExt fun h => memWf_wrBytes _ _ h)
  · exact .refl

theorem State.putCatalogue_chg {s : State} {e : Nat} {x : CatEnt} :
    Chg { ext := true } s (s.putCatalogue e x) := by
  unfold State.putCatalogue
  dsimp only
  split
  · exact .via .refl (.setExt fun h => memWf_wrBytes _ _ (memWf_wrBytes _ _ h))
  · exact .refl

theorem State.putReps_chg {s : State} {e i : Nat} {reps : List (Nat × Nat)} :
    Chg { ext := true } s (s.putReps e i reps) := by
  unfold State.putReps
  dsimp only
  split
  · exact .via .refl (.setExt fun h => memWf_wrBytes _ _ (memWf_memClear _ _ h))
  · exact .refl

theorem State.copyPage_chg {s : State} {c : SrvCfg} {a b : Nat} :
    Chg { ext := true } s (s.copyPage c a b) := by
  unfold State.copyPage
  exact .via .refl (.setExt fun h => memWf_wrBytes _ _ h)

theorem State.freeStatus_chg {s : State} {c : Cmd} {op : Nat} :
    Chg { freeCtr := true, regs := true, fns := true } s (s.freeStatus c op) := by
  unfold State.freeStatus
  exact .via (.via .refl State.freeStep_chg) State.complete_chg

theorem State.dropEntry_chg {s : State} {e : Nat} {x : CatEnt} :
    Chg { engs := true, ext := true, freeCtr := true, regs := true, fns := true } s (s.dropEntry e x) := by
  unfold State.dropEntry
  dsimp only
  split
  · exact .via (.via (.via (.via .refl State.dropPages_chg) .modEng) State.dropPages_chg) State.freeStatus_chg
  · exact .via (.via .refl State.dropPages_chg) .modEng

theorem State.moveEntry_chg {s : State} {e : Nat} {x : CatEnt} {ps : List Nat} {annex : Bool}
    {moving : Option (Bool × Cmd × List Nat)} :
    Chg { ext := true, engs := true, fns := true, regs := true } s (s.moveEntry e x ps annex moving) := by
  unfold State.moveEntry
  dsimp only
  split
  · exact .refl
  · exact .via (.foldl (fun _ _ => .via .refl State.putPageList_chg) _
      (.via (.via (.via (.foldl (fun _ _ => .via .refl State.copyPage_chg) _ .refl) .modEng) State.putCounts_chg)
      State.putCatalogue_chg)) State.event_chg

theorem execCatDrop_does {c : Cmd} {engine : BitVec 8} {tenant : BitVec 16} {handle : BitVec 64} {s : State} :
    Does { fns := true, regs := true, freeCtr := true, engs := true, ext := true } s (execCatDrop c engine tenant handle s) := by
  unfold execCatDrop
  dsimp only
  refine .next ?_
  refine .runCmd .refl (fun _ => ?_)
  refine .ite (.via .refl State.freeStatus_chg) ?_
  refine .ite (.via .refl State.complete_chg) ?_
  split
  · exact .via .refl State.complete_chg
  · exact .via (.via .refl State.dropEntry_chg) State.complete_chg

theorem execCatMove_does {c : Cmd} {engine : BitVec 8} {tenant : BitVec 16} {handle : BitVec 64} {tier : BitVec 8} {s : State} :
    Does { fns := true, regs := true, freeCtr := true, engs := true, ext := true }
    s (execCatMove c engine tenant handle tier s) := by
  unfold execCatMove
  dsimp only
  refine .next ?_
  refine .runCmd .refl (fun _ => ?_)
  refine .ite (.via .refl State.freeStatus_chg) ?_
  refine .ite (.via .refl State.complete_chg) ?_
  split
  · exact .via .refl State.complete_chg
  · exact .ite (.via .refl State.complete_chg) (.ite (.via .refl State.freeStatus_chg) (.ite (.via .refl State.complete_chg)
      (.ite (.via .refl State.complete_chg) (.via (.via .refl State.takePages_chg) .modEng))))

theorem State.moveLost_chg {s : State} {a : Nat} :
    Chg { regs := true, fns := true } s (s.moveLost a) := by
  unfold State.moveLost
  split
  · exact .via .refl State.annexPoison_chg
  · exact .via .refl State.granRecord_chg

theorem State.copyLost_chg {s : State} {c : SrvCfg} {old new : List Nat} {lost : List (BitVec 64)} :
    Chg { regs := true, fns := true, ext := true } s (s.copyLost c old new lost) := by
  unfold State.copyLost
  dsimp only
  refine .foldl (fun _ _ => ?_) _ .refl
  split
  · exact .via (.via .refl State.moveLost_chg) (.setExt fun h => memWf_wrBytes _ _ h)
  · exact .refl

theorem execCatMoveComplete_does {engine : MoveEnd} {tenant : BitVec 16} {handle : BitVec 64} {s : State} :
    Does { engs := true, ext := true, regs := true, fns := true } s (execCatMoveComplete engine tenant handle s) := by
  unfold execCatMoveComplete
  dsimp only
  refine .next ?_
  split
  · split
    · refine .ite (.via (.via (.via .refl State.dropPages_chg) .modEng) State.complete_chg) ?_
      refine .via ?_ State.complete_chg
      split
      · exact .via (.via .refl State.moveEntry_chg) State.copyLost_chg
      · exact .via .refl State.moveEntry_chg
    · exact .refl
  · exact .refl

theorem execTenantSet_does {c : Cmd} {engine : BitVec 8} {tenant : BitVec 16} {limit : BitVec 32} {window funcs : BitVec 16}
    {s : State} :
    Does { fns := true, regs := true, freeCtr := true, engs := true } s (execTenantSet c engine tenant limit window funcs s) := by
  unfold execTenantSet
  exact .next (.runCmd .refl (fun _ => .ite (.via .refl State.freeStatus_chg) (.via (.via .refl .modEng) State.complete_chg)))

theorem execTenantRefill_does {engine : Fin 2} {tenant : BitVec 12} {s : State} :
    Does { engs := true } s (execTenantRefill engine tenant s) := by
  unfold execTenantRefill
  exact .next (.ite .refl (.via .refl .modEng))

theorem State.admitReq_chg {s : State} {e i : Nat} {rid : BitVec 32} {q : Req} :
    Chg { engs := true, ext := true } s (s.admitReq e i rid q) := by
  unfold State.admitReq
  exact .via (.via (.via (.via .refl .modEng) State.putCounts_chg) State.putPageList_chg) State.putReps_chg

theorem State.refuse_chg {s : State} {c : Cmd} {e status : Nat} :
    Chg { regs := true, fns := true } s (s.refuse c e status) := by
  unfold State.refuse
  exact .via (.via .refl .satAdd) State.complete_chg

theorem State.twinForward_chg {s : State} {t : TwinCmd} :
    Chg { mir := true, fab := true, links := true } s (s.twinForward t) := by
  unfold State.twinForward
  exact .via (.via .refl .modMir) State.mirSend_chg

theorem execSubmit_does {c : Cmd} {region : BitVec 8} {addr : BitVec 64} {s : State} :
    Does { fns := true, regs := true, mir := true, fab := true, links := true, engs := true, ext := true }
    s (execSubmit c region addr s) := by
  unfold execSubmit
  dsimp only
  refine .next ?_
  refine .runCmd .refl (fun _ => ?_)
  refine .ite (.via .refl State.complete_chg) ?_
  refine .ite (.via .refl State.twinForward_chg) ?_
  split
  · exact .via .refl State.refuse_chg
  · exact .ite (.via .refl State.refuse_chg) (.ite (.via (.via .refl .modMir) State.mirSend_chg)
      (.via (.via .refl State.admitReq_chg) State.complete_chg))

theorem State.endReq_chg {s : State} {e i st : Nat} :
    Chg { engs := true } s (s.endReq e i st) := by
  unfold State.endReq
  exact .via .refl .modEng

theorem State.emit_chg {s : State} {e : Nat} {q : Req} {toks : List Nat} {final pubfail : Bool} {reason pos step : Nat} :
    Chg { engs := true, mir := true, fns := true } s (s.emit e q toks final pubfail reason pos step) := by
  unfold State.emit
  exact .ite (.via (.via .refl .modEng) .modMir) (.via (.via .refl .modEng) .modFunc)

theorem State.reqError_chg {s : State} {e i cause : Nat} :
    Chg { engs := true, mir := true, fns := true, regs := true } s (s.reqError e i cause) := by
  unfold State.reqError
  exact .via (.via (.via .refl State.endReq_chg) State.emit_chg) State.eventTo_chg

theorem State.cancelReq_chg {s : State} {e i : Nat} :
    Chg { engs := true, regs := true } s (s.cancelReq e i) := by
  unfold State.cancelReq
  exact .via (.via (.via (.via .refl State.endReq_chg) State.modReq_chg) .modEng) .satAdd

theorem State.doCancel_chg {s : State} {fn : Nat} {rid : BitVec 32} :
    Chg { engs := true, regs := true } s (s.doCancel fn rid).1 := by
  unfold State.doCancel
  dsimp only
  split
  · split
    · exact .refl
    · exact .refl
  · split
    · exact .refl
    · split
      · exact .refl
      · split
        · exact .refl
        · exact .via .refl State.cancelReq_chg

theorem execCancel_does {c : Cmd} {rid : BitVec 32} {s : State} :
    Does { fns := true, regs := true, mir := true, fab := true, links := true, engs := true } s (execCancel c rid s) := by
  unfold execCancel
  exact .next (.runCmd .refl (fun _ => .ite (.via .refl State.twinForward_chg) (.via (.via .refl State.doCancel_chg)
    State.complete_chg)))

theorem execVfFlr_does {fn : Nat} {s : State} :
    Does { regs := true, fns := true, engs := true } s (execVfFlr fn s) := by
  unfold execVfFlr
  exact .next (.ite .refl (.via (.foldl (fun _ _ => .foldl (fun _ _ => .via (.via .refl State.cancelReq_chg) State.eventTo_chg) _
    .refl) _ (.via (.foldl (fun _ _ => .via .refl (.setRegs fun h => keysRise_mdel _ h)) _ .refl) (.setFns fun h => keysRise_mdel _
    h))) State.answerAll_chg))

theorem State.migrate_chg {s : State} {e i : Nat} :
    Chg { engs := true, ext := true, fns := true, regs := true } s (s.migrate e i) := by
  unfold State.migrate
  dsimp only
  refine .ite (.via .refl State.modReq_chg) ?_
  split
  · exact .ite (.via (.via (.via .refl State.takePages_chg) State.moveEntry_chg) State.modReq_chg)
      (.via (.via (.via (.foldl (fun _ _ => .via .refl State.copyPage_chg) _ (.via .refl State.takePages_chg)) State.dropPages_chg)
      State.modReq_chg) State.modReq_chg)
  · exact .via (.via (.via (.foldl (fun _ _ => .via .refl State.copyPage_chg) _ (.via .refl State.takePages_chg))
      State.dropPages_chg) State.modReq_chg) State.modReq_chg
  · exact .refl

theorem State.fetchErr_chg {s : State} {x : FetchErr} :
    Chg { fns := true, regs := true, anx := true, reqs := true, accs := true } s (s.fetchErr x).1 := by
  cases x with
  | fetch n => exact .refl
  | granule a => exact Chg.mono (u := s.granRecord false (a.toNat / 64 * 64) .lost) State.granRecord_chg
  | poisoned a =>
    simp only [State.fetchErr]
    split
    · exact .mono State.annexPoison_chg
    · exact .refl
  | timeout a =>
    simp only [State.fetchErr]
    split
    · exact .mono State.annexLate_chg
    · exact .refl

theorem execPromptFetchComplete_does {rid : BitVec 32} {error : Option FetchErr} {s : State} :
    Does { fns := true, regs := true, anx := true, reqs := true, accs := true, engs := true, mir := true, freeCtr := true,
           ext := true } s (execPromptFetchComplete rid error s) := by
  unfold execPromptFetchComplete
  dsimp only
  refine .next ?_
  split
  · exact .refl
  · refine .ite .refl ?_
    split
    · exact .via (.via .refl State.fetchErr_chg) State.reqError_chg
    · exact .via .refl State.reqError_chg
    · exact .ite (.via (.via .refl State.freeStep_chg) State.reqError_chg) (.via (.ite (.via (.via .refl State.modReq_chg)
        State.migrate_chg) (.via .refl State.modReq_chg)) State.putPageList_chg)
    · exact .refl

theorem execOutring_does {c : Cmd} {base : BitVec 64} {size : BitVec 8} {s : State} :
    Does { fns := true, regs := true, freeCtr := true } s (execOutring c base size s) := by
  unfold execOutring
  exact .next (.runCmd .refl (fun _ => .ite (.via .refl State.complete_chg) (.ite (.via .refl State.freeStatus_chg)
    (.via (.via .refl .modFunc) State.complete_chg))))

theorem execDepthWrite_does {by_ : Writer} {engine : Fin 2} {off : Nat} {val : BitVec 64} {s : State} :
    Does { fns := true, regs := true, engs := true } s (execDepthWrite by_ engine off val s) := by
  unfold execDepthWrite
  exact .next (.gated .refl (fun _ => .ite (.via .refl State.eventTo_chg) (.ite .refl (.via .refl State.modReq_chg))))

theorem State.sendHeartbeat_chg {s : State} {k : Nat} {dig : List Byte} :
    Chg { fab := true, links := true } s (s.sendHeartbeat k dig) := by
  unfold State.sendHeartbeat
  exact .foldl (fun _ _ => .foldl (fun _ _ => .via .refl State.queueOn_chg) _ (.via .refl .modFab)) _ .refl

theorem State.tryHeartbeats_chg {s : State} {x1 : Nat} :
    Chg { fab := true, links := true, mir := true } s (s.tryHeartbeats x1) := by
  induction x1 generalizing s with
  | zero => exact .refl
  | succ n ih =>
    rw [State.tryHeartbeats]
    split
    · exact .refl
    · exact .ite .refl (.trans (.via (.via .refl State.sendHeartbeat_chg) .modMir) ih)

theorem State.tryHeartbeat_chg {s : State} :
    Chg { fab := true, links := true, mir := true } s (s.tryHeartbeat) := by
  unfold State.tryHeartbeat
  exact .via .refl State.tryHeartbeats_chg

theorem State.emitted_chg {s : State} {m : Emission} :
    Chg { fns := true, engs := true } s (s.emitted m) := by
  unfold State.emitted
  dsimp only
  split
  · exact .via (.via .refl .modFunc) State.modReq_chg
  · exact .via .refl .modFunc

theorem State.writeEmission_chg {s : State} {fn : Nat} :
    Chg { hostMem := true, regs := true, fns := true, engs := true, fab := true, links := true, mir := true }
    s (s.writeEmission fn) := by
  unfold State.writeEmission
  dsimp only
  split
  · exact .refl
  · exact .ite .refl (.hostPut .refl (fun _ => .via (.via (.via (.ite (.via (.via (.via .refl .modFunc) .satAdd) State.eventTo_chg)
      (.via .refl .modFunc)) State.emitted_chg) State.putIndices_chg) State.tryHeartbeat_chg))

theorem State.writeEmissions_chg {s : State} :
    Chg { hostMem := true, regs := true, fns := true, engs := true, fab := true, links := true, mir := true }
    s (s.writeEmissions) := by
  unfold State.writeEmissions
  exact .foldl (fun _ _ => .foldl (fun _ _ => .via .refl State.writeEmission_chg) _ .refl) _ .refl

theorem execEmissionWrite_does {fn : Nat} {s : State} :
    Does { hostMem := true, regs := true, fns := true, engs := true, fab := true, links := true, mir := true }
    s (execEmissionWrite fn s) := by
  unfold execEmissionWrite
  exact .next (.via .refl State.writeEmission_chg)

/-! ## Clocks -/

theorem State.beginStep_chg {s : State} {io target : Nat} :
    Chg { pwr := true, clk := true, boundaryAsk := true } s (s.beginStep io target) := by
  unfold State.beginStep
  extract_lets t
  have hcore : Chg { clk := true, pwr := true, boundaryAsk := true } s t := .ite (.mono .modPwr) .refl
  exact .via (u := { t with clk := { t.clk with chg := some { target := target, asked := t.cnt }, pendIo := none } })
    (.via hcore .setClk) .setBoundaryAsk

theorem State.stepCommand_chg {s : State} {io v : Nat} :
    Chg { regs := true, fns := true, clk := true, pwr := true, boundaryAsk := true } s (s.stepCommand io v) := by
  unfold State.stepCommand
  exact .ite (.via .refl .setFld) (.ite (.via (.via (.via .refl .setFld) .setFld) State.event_chg)
    (.ite (.via (.via (.via (.via .refl .setFld) .setFld) .setFld) .modClk) (.via (.via .refl .setFld) State.beginStep_chg)))

theorem execStepRequest_does {by_ : Writer} {off : Nat} {val : BitVec 32} {s : State} :
    Does { regs := true, fns := true, clk := true, pwr := true, boundaryAsk := true } s (execStepRequest by_ off val s) := by
  unfold execStepRequest
  refine .next ?_
  split
  · exact .via .refl State.stepCommand_chg
  · exact .ite (.via .refl State.gateEvent_chg) .refl

theorem execPendingStepRelease_does {s : State} :
    Does { regs := true, pwr := true, clk := true, boundaryAsk := true } s (execPendingStepRelease s) := by
  unfold execPendingStepRelease
  refine .next ?_
  split
  · exact .ite .refl (.via (.via .refl .setFld) State.beginStep_chg)
  · exact .refl

theorem execDividerSwitch_does {s : State} :
    Does { fns := true, regs := true, pwr := true, chans := true, fab := true, clk := true } s (execDividerSwitch s) := by
  unfold execDividerSwitch
  dsimp only
  refine .next ?_
  split
  · split
    · exact .ite .refl (.via (.via (.via (.via .refl State.event_chg) State.setClockStep_chg) .modPwr) .modClk)
    · exact .refl
  · exact .refl

theorem execDroopTrip_does {s : State} :
    Does { regs := true, fab := true } s (execDroopTrip s) := by
  unfold execDroopTrip
  exact .next (.ite .refl (.via (.via (.via (.via .refl .setFld) .setFld) .satAdd) .modFab))

theorem execStretchEnd_does {n : Nat} {s : State} :
    Does { regs := true, fns := true, clk := true } s (execStretchEnd n s) := by
  unfold execStretchEnd
  exact .next (.ite .refl (.via (.via (.via (.via (.via .refl .setFld) .setFld) .satAdd) State.event_chg) .modClk))

theorem execCatchupEnd_does {s : State} :
    Does { regs := true } s (execCatchupEnd s) := by
  unfold execCatchupEnd
  exact .next (.ite (.via .refl .setFld) .refl)

theorem execReferenceLoss_does {s : State} :
    Does { regs := true, clk := true, fns := true, fab := true } s (execReferenceLoss s) := by
  unfold execReferenceLoss
  exact .next (.ite .refl (.ite (.via (.via (.via (.via (.via (.via .refl .setFld) .setFld) .modClk) State.setUnsync_chg)
    State.event_chg) .modFab) (.via (.via (.via (.via (.via .refl .setFld) .setFld) .modClk) State.setUnsync_chg) State.event_chg)))

theorem execReferenceReturn_does {s : State} :
    Does { regs := true, clk := true, fns := true, fab := true } s (execReferenceReturn s) := by
  unfold execReferenceReturn
  exact .next (.ite .refl (.ite (.via (.via (.via (.via (.via .refl .setFld) .setFld) .modClk) State.event_chg)
    State.setUnsync_chg) (.via (.via (.via (.via .refl .setFld) .setFld) .modClk) State.event_chg)))

/-! ## Power -/

theorem execThrottleHold_does {s : State} :
    Does { reqs := true } s (execThrottleHold s) := by
  unfold execThrottleHold
  exact .next (.ite .refl (.via .refl State.request_chg))

theorem execPowerCapCrossing_does {power : BitVec 16} {s : State} :
    Does { pwr := true, freeCtr := true, regs := true } s (execPowerCapCrossing power s) := by
  unfold execPowerCapCrossing
  exact .next (.via (.via .refl .modPwr) State.setThrottle_chg)

theorem State.supplyOn_chg {s : State} :
    Chg { milug := true, pwr := true, boot := true } s (s.supplyOn) := by
  unfold State.supplyOn
  refine .ite (.mono .modMilugPlain) ?_
  exact .via (u := { s with milug := { s.milug with supplyFail := false }, boot := { s.boot with stage := 2 } })
    (.via (u := { s with milug := { s.milug with supplyFail := false } }) (.mono (.setMilug id)) .setBootPlain) .setPwr

theorem State.crossings_chg {s : State} {n : Nat} :
    Chg { fns := true, regs := true, milug := true } s (s.crossings n) := by
  unfold State.crossings
  exact .ite .refl (.via (.foldl (fun _ _ => .ite (.via .refl State.event_chg) .refl) _ .refl) State.alert_chg)

theorem execInputBoundaryCrossing_does {vin iin : BitVec 16} {s : State} :
    Does Foot.resets s (execInputBoundaryCrossing vin iin s) := by
  unfold execInputBoundaryCrossing
  exact .next (.ite (.via (.via (.via (.via .refl State.crossings_chg) .modPwr) State.mainOff_chg) .modPwr)
    (.ite (.via (.via (.via .refl State.crossings_chg) .modPwr) State.setThrottle_chg) (.via (.via .refl State.crossings_chg)
    .modPwr)))

theorem execInputLowReset_does {s : State} :
    Does Foot.resets s (execInputLowReset s) := by
  unfold execInputLowReset
  refine .next ?_
  split
  · exact .ite (.via (.via .refl State.mainOff_chg) .modPwr) .refl
  · exact .refl

theorem execPowerStageRestart_does {s : State} :
    Does { pwr := true, milug := true, boot := true } s (execPowerStageRestart s) := by
  unfold execPowerStageRestart
  dsimp only
  refine .next ?_
  split
  · exact .ite .refl (.ite (.via .refl .modPwr) (.via (.via .refl .modPwr) State.supplyOn_chg))
  · exact .refl

theorem State.gateGallery_chg {s : State} {g : Nat} :
    Chg { regs := true, gals := true } s (s.gateGallery g) := by
  unfold State.gateGallery
  exact .via (.via .refl .setFld) .modGal

theorem State.wakeGallery_chg {s : State} {g : Nat} :
    Chg { tiles := true, regs := true, regions := true, gals := true } s (s.wakeGallery g) := by
  unfold State.wakeGallery
  exact .ite .refl (.via (.via (.via (.ite (.via (.via (.foldl (fun _ _ => .onModTile .refl ⟨fun h => rfl⟩) _ .refl)
    State.reloadImage_chg) .modRegion) (.via (.foldl (fun _ _ => .onModTile .refl ⟨fun h => rfl⟩) _ .refl) State.reloadImage_chg))
    .modGal) .setFld) .setFld)

theorem State.writeGate_chg {s : State} {g v : Nat} :
    Chg { regs := true, gals := true } s (s.writeGate g v) := by
  unfold State.writeGate
  exact .ite .refl (.ite (.ite (.via (.via .refl State.gateGallery_chg) State.modified_chg) .refl) (.via (.via (.via .refl .setFld)
    .modGal) State.modified_chg))

theorem execGalGateWrite_does {by_ : Writer} {g off : Nat} {val : BitVec 32} {s : State} :
    Does { fns := true, regs := true, gals := true, written := true } s (execGalGateWrite by_ g off val s) := by
  unfold execGalGateWrite
  exact .next (.ite .refl (.moduleWrite .refl (fun _ => .via (.via .refl State.writeGate_chg) State.keepWrite_chg)))

theorem execAutoGate_does {g : Nat} {s : State} :
    Does { regs := true, gals := true } s (execAutoGate g s) := by
  unfold execAutoGate
  exact .next (.ite (.via .refl State.gateGallery_chg) .refl)

theorem execGalleryWakeEnd_does {region : Fin 8} {s : State} :
    Does { tiles := true, regs := true, regions := true, gals := true, fns := true, occ := true, chans := true }
    s (execGalleryWakeEnd region s) := by
  unfold execGalleryWakeEnd
  dsimp only
  refine .next ?_
  refine .ite ?_ (.foldl (fun _ _ => .via .refl State.wakeGallery_chg) _ (.foldl (fun _ _ => .via .refl State.wakeGallery_chg) _
    .refl))
  refine .via ?_ .modRegion
  split
  · exact .via (.foldl (fun _ _ => .via .refl State.wakeGallery_chg) _ (.foldl (fun _ _ => .via .refl State.wakeGallery_chg) _
      .refl)) State.install_chg
  · exact .foldl (fun _ _ => .via .refl State.wakeGallery_chg) _ (.foldl (fun _ _ => .via .refl State.wakeGallery_chg) _ .refl)

theorem execTilBankgateWrite_does {by_ : Writer} {t : Xy} {off : Nat} {val : BitVec 32} {s : State} :
    Does { fns := true, regs := true, tiles := true } s (execTilBankgateWrite by_ t off val s) := by
  unfold execTilBankgateWrite
  exact .next (.moduleWrite .refl (fun _ => .ite (.via .refl State.imageBusy_chg) (.via (.onModTile .refl .plain) .setFld)))

theorem execBankUngateReady_does {t : Xy} {bank : Fin 32} {s : State} :
    Does { tiles := true } s (execBankUngateReady t bank s) := by
  unfold execBankUngateReady
  refine .next ?_
  dsimp only
  split
  · exact .refl
  · exact .ite .refl (.onModTile .refl ⟨fun h => memWf_filter (fun a => !(bankOf (s.modeAt (tIx t) a) a == bank.val)) h⟩)

theorem State.endAllReqs_chg {s : State} :
    Chg { engs := true, mir := true, fns := true } s (s.endAllReqs) := by
  unfold State.endAllReqs
  exact .foldl (fun _ _ => .foldl (fun _ _ => .via (.via .refl State.endReq_chg) State.emit_chg) _ .refl) _ .refl

theorem State.tripRegion_chg {s : State} {r : Nat} :
    Chg { tiles := true, freeCtr := true, park := true, regions := true, regs := true, fns := true } s (s.tripRegion r) := by
  unfold State.tripRegion
  exact .ite (.via (.via (.via .refl State.stopRegion_chg) State.freeStep_chg) State.runDone_chg) .refl

theorem State.tripTiles_chg {s : State} :
    Chg { engs := true, mir := true, fns := true, tiles := true, freeCtr := true, park := true, regions := true, regs := true,
          gals := true } s (s.tripTiles) := by
  unfold State.tripTiles
  exact .foldl (fun _ _ => .ite (.via (.via (.via .refl .setFld) .setFld) .modGal) .refl) _ (.foldl (fun _ _ => .via .refl
    State.tripRegion_chg) _ (.via .refl State.endAllReqs_chg))

theorem State.trip_chg {s : State} :
    Chg { mir := true, wts := true, engs := true, regs := true, fns := true, tiles := true, freeCtr := true, park := true,
          regions := true, gals := true, links := true, fab := true, ext := true, reqs := true, clk := true, pwr := true,
          chans := true, boot := true, milug := true } s (s.trip) := by
  unfold State.trip
  exact .via (.via (.via (.via (.via (.via (.foldl (fun _ _ => .via (.via .refl .setFld) State.roleChanged_chg) _
    (.via (.via .refl State.abandon_chg) State.tripTiles_chg)) .modClk) .setFld) State.setClockStep_chg) .modPwr) State.event_chg)
    State.modFault_chg

theorem execThermalLevelChange_does {guard : Fin 10} {temp : BitVec 8} {s : State} :
    Does { pwr := true, fns := true, regs := true, milug := true, freeCtr := true, mir := true, wts := true, engs := true,
           tiles := true, park := true, regions := true, gals := true, links := true, fab := true, ext := true, reqs := true,
           clk := true, chans := true, boot := true } s (execThermalLevelChange guard temp s) := by
  unfold execThermalLevelChange
  exact .next (.ite .refl (.ite (.via .refl .modPwr)
    (.ite (.via (.via (.ite (.via (.via (.via (.via .refl .modPwr) .modPwr) State.event_chg) State.alert_chg)
    (.via (.via (.via .refl .modPwr) .modPwr) State.event_chg)) State.setThrottle_chg) State.trip_chg)
    (.via (.ite (.via (.via (.via (.via .refl .modPwr) .modPwr) State.event_chg) State.alert_chg) (.via (.via (.via .refl .modPwr)
    .modPwr) State.event_chg)) State.setThrottle_chg))))

theorem execGuardHoldTick_does {guard : Fin 10} {s : State} :
    Does { reqs := true, pwr := true, regs := true } s (execGuardHoldTick guard s) := by
  unfold execGuardHoldTick
  exact .next (.ite .refl (.via (.via (.via .refl State.request_chg) .modPwr) .satAdd))

theorem execOvertempRailOff_does {s : State} :
    Does { engs := true, mir := true, fns := true, tiles := true, freeCtr := true, park := true, regions := true, regs := true,
           gals := true, wts := true, links := true, fab := true, ext := true, reqs := true, clk := true, pwr := true,
           chans := true, boot := true, milug := true } s (execOvertempRailOff s) := by
  unfold execOvertempRailOff
  exact .next (.ite (.via (.ite (.via .refl State.tripTiles_chg) (.via .refl State.trip_chg)) .modPwr) .refl)

/-! ## Cycle -/

theorem State.writeAgain_chg {s : State} {w : RegWr} :
    Chg { regs := true, gals := true, fns := true } s (s.writeAgain w) := by
  unfold State.writeAgain
  split
  · exact .via .refl State.writeGate_chg
  · exact .via .refl State.dmaWriteLast_chg
  · exact .via .refl State.dmaWriteLast_chg
  · exact .via .refl State.dmaWriteLast_chg
  · exact .via .refl State.dmaWriteLast_chg
  · exact .via .refl .rwWrite

theorem State.writesLast_chg {s : State} :
    Chg { written := true, regs := true, gals := true, fns := true } s (s.writesLast) := by
  unfold State.writesLast
  exact .foldl (fun _ _ => .via .refl State.writeAgain_chg) _ .plain

theorem tick_chg {s : State} :
    Chg { written := true, regs := true, gals := true, fns := true, heldRuns := true, hold := true, reqs := true, clk := true,
          milug := true, chans := true } s (tick s) := by
  unfold tick
  exact .ite (.via (.ite (.via (.via (.via (.via (.via (.via .refl State.writesLast_chg) State.keepHeld_chg) State.tickHold_chg)
    State.dropPast_chg) State.tickWall_chg) .setReg)
    (.via (.via (.via (.via (.via (.via (.via .refl State.writesLast_chg) State.keepHeld_chg) State.tickHold_chg)
    State.dropPast_chg) State.tickWall_chg) .setReg) .setReg)) State.parkBegins_chg) (.via (.via .refl State.writesLast_chg)
    State.milugPass_chg)

/-! ## Boot -/

theorem State.chooseSlot_chg {s : State} :
    Chg { boot := true, slots := true } s (s.chooseSlot).1 := by
  unfold State.chooseSlot
  dsimp only
  split
  · split
    · exact .via (.via (.via .refl State.readRecord_chg) (.modSlot id)) State.writeRecord_chg
    · exact .via (.via (.via .refl State.readRecord_chg) (.modSlot id)) State.writeRecord_chg
  · exact .via .refl State.readRecord_chg

theorem execVstbyApply_does {senseMatch milugOk : Bool} {s : State} :
    Does Foot.resets s (execVstbyApply senseMatch milugOk s) := by
  unfold execVstbyApply
  exact .next (.ite .refl (.ite (.via (.via (.via .refl State.mainOff_chg) .modBootPlain) .modMilugPlain)
    (.via (.via (.via (.via .refl State.mainOff_chg) .modBootPlain) .modMilugPlain) State.modFault_chg)))

theorem execSupplyStage_does {s : State} :
    Does { milug := true, pwr := true, boot := true } s (execSupplyStage s) := by
  unfold execSupplyStage
  exact .next (.ite (.via .refl State.supplyOn_chg) .refl)

theorem State.fuseSlot_chg {s : State} {f : FwSlot} :
    Chg { fuses := true } s (s.fuseSlot f) := by
  unfold State.fuseSlot
  exact .plain

theorem State.deriveKey_chg {s : State} :
    Chg { boot := true, regs := true } s (s.deriveKey) := by
  unfold State.deriveKey
  exact .foldl (fun _ _ => .via .refl .setReg) _ (.via .refl .modBootPlain)

theorem State.policyRegs_chg {s : State} :
    Chg { regs := true } s (s.policyRegs) := by
  unfold State.policyRegs
  exact .ite (.via (.via (.via .refl .setFld) .setFld) .setFld) (.foldl (fun _ _ => .via (.via .refl .rwWrite) .rwWrite) _
    (.via (.via (.via .refl .setFld) .setFld) .setFld))

theorem State.bootstat_chg {s : State} {slot : Nat} {trial fallback : Bool} :
    Chg { regs := true } s (s.bootstat slot trial fallback) := by
  unfold State.bootstat
  exact .via (.via (.via (.via (.via (.via (.via (.via (.via .refl .satAdd) .setFld) .setFld) .setFld) .setFld) .setFld) .setFld)
    .setFld) .setFld

theorem State.trialArea_chg {s : State} {slot : Nat} :
    Chg { boot := true, slots := true } s (s.trialArea slot) := by
  unfold State.trialArea
  dsimp only
  split
  · exact .refl
  · exact .via (.via (.via .refl .modArea) (.modSlot id)) State.writeRecord_chg

theorem State.bootFrom_chg {s : State} {slot : Nat} {trial fallback : Bool} :
    Chg { boot := true, slots := true, fuses := true, milug := true, regs := true, chans := true, freeCtr := true, pwr := true,
          fns := true } s (s.bootFrom slot trial fallback) := by
  unfold State.bootFrom
  dsimp only
  refine .ite ?_ ?_
  · refine .via ?_ State.event_chg
    split
    · exact .via (.via (.via (.via (.via (.via (.via (.ite (.via (.via (.ite (.via .refl State.trialArea_chg)
        (.ite (.via .refl State.fuseSlot_chg) .refl)) .modBootPlain) .modMilugPlain) (.via (.ite (.via .refl State.trialArea_chg)
        (.ite (.via .refl State.fuseSlot_chg) .refl)) .modBootPlain)) State.bootstat_chg) State.policyRegs_chg) State.loadSets_chg)
        State.setThrottle_chg) .setFld) .setFld) .modMilugPlain
    · exact .via (.via (.via (.via (.ite (.via (.via (.ite (.via .refl State.trialArea_chg) (.ite (.via .refl State.fuseSlot_chg)
        .refl)) .modBootPlain) .modMilugPlain) (.via (.ite (.via .refl State.trialArea_chg) (.ite (.via .refl State.fuseSlot_chg)
        .refl)) .modBootPlain)) State.bootstat_chg) State.policyRegs_chg) State.loadSets_chg) State.setThrottle_chg
  · split
    · exact .via (.via (.via (.via (.via (.via (.via (.ite (.via (.via (.ite (.via .refl State.trialArea_chg)
        (.ite (.via .refl State.fuseSlot_chg) .refl)) .modBootPlain) .modMilugPlain) (.via (.ite (.via .refl State.trialArea_chg)
        (.ite (.via .refl State.fuseSlot_chg) .refl)) .modBootPlain)) State.bootstat_chg) State.policyRegs_chg) State.loadSets_chg)
        State.setThrottle_chg) .setFld) .setFld) .modMilugPlain
    · exact .via (.via (.via (.via (.ite (.via (.via (.ite (.via .refl State.trialArea_chg) (.ite (.via .refl State.fuseSlot_chg)
        .refl)) .modBootPlain) .modMilugPlain) (.via (.ite (.via .refl State.trialArea_chg) (.ite (.via .refl State.fuseSlot_chg)
        .refl)) .modBootPlain)) State.bootstat_chg) State.policyRegs_chg) State.loadSets_chg) State.setThrottle_chg

theorem execControllerStage_does {passA passB : Bool} {s : State} :
    Does { boot := true, regs := true, slots := true, fuses := true, milug := true, chans := true, freeCtr := true, pwr := true,
           fns := true } s (execControllerStage passA passB s) := by
  unfold execControllerStage
  dsimp only
  refine .next ?_
  refine .ite .refl ?_
  split
  · exact .via (.via (.via .refl State.deriveKey_chg) State.chooseSlot_chg) State.bootFrom_chg
  · exact .via (.via (.via (.via (.via (.via .refl State.deriveKey_chg) State.chooseSlot_chg) .modBootPlain) State.bootstat_chg)
      State.policyRegs_chg) State.modFault_chg

theorem execRootClockLock_does {s : State} :
    Does { regs := true, boot := true, clk := true } s (execRootClockLock s) := by
  unfold execRootClockLock
  exact .next (.ite (.via (.via (.via .refl .setFld) .modBootPlain) .modClk) .refl)

theorem execReferenceWaitTimeout_does {s : State} :
    Does { boot := true, fns := true, regs := true, milug := true } s (execReferenceWaitTimeout s) := by
  unfold execReferenceWaitTimeout
  exact .next (.ite (.via (.via .refl .modBootPlain) State.modFault_chg) .refl)

theorem execDieStage_does {untrained : List (Nat × Nat)} {s : State} :
    Does { regs := true, fns := true, boot := true } s (execDieStage untrained s) := by
  unfold execDieStage
  exact .next (.ite .refl (.via (.foldl (fun _ _ => .via .refl State.event_chg) _ (.foldl (fun _ _ => .via .refl .setFld) _ .refl))
    .modBootPlain))

theorem execSelfTest_does {pass : List (BitVec 48)} {s : State} :
    Does { regs := true, chans := true, nextId := true, boot := true, fns := true, milug := true } s (execSelfTest pass s) := by
  unfold execSelfTest
  exact .next (.ite .refl (.ite (.via (.via (.foldl (fun _ _ => .via .refl .modChan) _ (.via (.via .refl .setFld) .setFld))
    .setNextId) .modBootPlain) (.via (.via (.via (.foldl (fun _ _ => .via .refl .modChan) _ (.via (.via .refl .setFld) .setFld))
    .setNextId) .modBootPlain) State.modFault_chg)))

theorem execModuleReady_does {s : State} :
    Does { boot := true, fns := true, regs := true, slots := true } s (execModuleReady s) := by
  unfold execModuleReady
  exact .next (.ite .refl (.ite (.via (.via .refl .modBootPlain) State.event_chg) (.via (.via (.via (.via .refl .modBootPlain)
    State.event_chg) .modBootPlain) State.writeRecord_chg)))

theorem execWarmReset_does {cause : ResetCause} {s : State} :
    Does Foot.resets s (execWarmReset cause s) := by
  unfold execWarmReset
  exact .next (.via .refl State.warmReset_chg)

theorem State.faultReset_chg {s : State} {cause code : Nat} :
    Chg Foot.resets s (s.faultReset cause code) := by
  unfold State.faultReset
  exact .via (.via .refl State.warmReset_chg) State.modFault_chg

theorem execWatchdogExpiry_does (_io : Fin 2) {s : State} :
    Does Foot.resets s (execWatchdogExpiry _io s) := by
  unfold execWatchdogExpiry
  exact .next (.ite (.via .refl State.faultReset_chg) .refl)

theorem execControllerEccError_does (_io : Fin 2) {s : State} :
    Does Foot.resets s (execControllerEccError _io s) := by
  unfold execControllerEccError
  exact .next (.ite (.via .refl State.faultReset_chg) .refl)

/-! ## Weights -/

theorem State.bcOpens_chg {s : State} {die : Nat} {b : Bc} :
    Chg { wts := true, regs := true } s (s.bcOpens die b) := by
  unfold State.bcOpens
  exact .via (.via (.via (.via .refl .modWts) .setReg) .setFld) .setFld

theorem State.bcForward_chg {s : State} {die sub : Nat} :
    Chg { fab := true, wts := true } s (s.bcForward die sub) := by
  unfold State.bcForward
  split
  · exact .refl
  · exact .via (.foldl (fun _ _ => .via .refl State.bcSend_chg) _ .refl) State.modBc_chg

theorem State.bcLack_chg {s : State} {b : Bc} :
    Chg { fab := true } s (s.bcLack b) := by
  unfold State.bcLack
  exact .ite (.via (.ite (.via .refl State.sendArgs_chg) .refl) State.sendArgs_chg) (.ite (.via .refl State.sendArgs_chg) .refl)

theorem State.bcStart_chg {s : State} {die : Nat} :
    Chg { regs := true, dma := true, wts := true } s (s.bcStart die) := by
  unfold State.bcStart
  dsimp only
  split
  · exact .refl
  · exact .via (.via (.via (.via (.via .refl State.loadDesc_chg) State.dmaRun_chg) .modDma) .setFld) State.modBc_chg

theorem execBcast_does {c : Cmd} {tree src length : BitVec 64} {srcsp chan : BitVec 8} {s : State} :
    Does { fns := true, regs := true, wts := true, fab := true, dma := true } s (execBcast c tree src length srcsp chan s) := by
  unfold execBcast
  dsimp only
  refine .next ?_
  refine .runCmd .refl (fun _ => ?_)
  refine .ite (.via .refl State.complete_chg) ?_
  split
  · exact .via .refl State.complete_chg
  · exact .ite (.via (.via (.via .refl State.bcOpens_chg) State.bcForward_chg) State.bcStart_chg)
      (.via (.via .refl State.bcOpens_chg) State.bcForward_chg)

theorem execOpenReceive_does {b : BTree} {s : State} :
    Does { fab := true, wts := true, regs := true, ext := true } s (execOpenReceive b s) := by
  unfold execOpenReceive
  dsimp only
  refine .next ?_
  refine .onMsg .refl (fun _ => ?_)
  split
  · exact .refl
  · refine .ite .refl ?_
    split
    · exact .via .refl State.bcLack_chg
    · exact .ite (.via (.via .refl State.bcLack_chg) State.bcSend_chg) (.ite (.via (.ite (.via (.via (.via .refl State.bcOpens_chg)
        State.bcForward_chg) State.bcLack_chg) (.via (.via (.via (.via .refl State.bcOpens_chg) State.bcForward_chg)
        State.bcLack_chg) (.setExt fun h => memWf_wrBytes _ _ h))) State.bcSend_chg)
        (.via (.via (.via (.via (.via .refl State.bcOpens_chg) State.bcForward_chg) State.bcLack_chg) State.bcSend_chg)
        State.modBc_chg))

theorem execBcastReadyReceive_does {node : Nat} {id : BitVec 64} {s : State} :
    Does { fab := true, wts := true, regs := true, dma := true } s (execBcastReadyReceive node id s) := by
  unfold execBcastReadyReceive
  dsimp only
  refine .next ?_
  refine .onMsg .refl (fun _ => ?_)
  split
  · exact .refl
  · exact .ite .refl (.ite (.via (.via .refl State.modBc_chg) State.bcStart_chg) (.via .refl State.modBc_chg))

theorem execChunkReceive_does {die : Fin 2} {id : BitVec 64} {j : Nat} {data : List Byte} {s : State} :
    Does { fab := true, wts := true, regs := true, ext := true } s (execChunkReceive die id j data s) := by
  unfold execChunkReceive
  dsimp only
  refine .next ?_
  refine .onArrived .refl (fun _ => ?_)
  split
  · exact .refl
  · exact .ite .refl (.ite (.ite (.via (.via (.foldl (fun _ _ => .via .refl State.sendChunk_chg) _ .refl) State.modBc_chg) .setFld)
      (.via (.foldl (fun _ _ => .via .refl State.sendChunk_chg) _ .refl) State.modBc_chg))
      (.ite (.via (.ite (.via (.via (.foldl (fun _ _ => .via .refl State.sendChunk_chg) _ .refl) State.modBc_chg) .setFld)
      (.via (.foldl (fun _ _ => .via .refl State.sendChunk_chg) _ .refl) State.modBc_chg)) State.bcHeld_chg)
      (.via (.ite (.via (.via (.foldl (fun _ _ => .via .refl State.sendChunk_chg) _ .refl) State.modBc_chg) .setFld)
      (.via (.foldl (fun _ _ => .via .refl State.sendChunk_chg) _ .refl) State.modBc_chg)) State.modBc_chg)))

theorem execBcastStall_does {die : Fin 2} {s : State} :
    Does { fab := true, wts := true, fns := true, regs := true } s (execBcastStall die s) := by
  unfold execBcastStall
  refine .next ?_
  split
  · exact .refl
  · refine .ite .refl ?_
    split
    · exact .refl
    · exact .ite (.via (.via .refl State.bcSend_chg) State.modBc_chg) (.via (.via (.via .refl State.bcSend_chg) State.event_chg)
        State.modBc_chg)

theorem execNeedReceive_does {die : Fin 2} {node : Nat} {id : BitVec 64} {j : Nat} {s : State} :
    Does { fab := true, wts := true } s (execNeedReceive die node id j s) := by
  unfold execNeedReceive
  dsimp only
  refine .next ?_
  refine .onMsg .refl (fun _ => ?_)
  split
  · exact .refl
  · exact .ite .refl (.via .refl State.modBc_chg)

theorem State.bcFails_chg {s : State} {die : Nat} {b : Bc} {node : Nat} :
    Chg { regs := true, fns := true, fab := true, wts := true, dma := true } s (s.bcFails die b node) := by
  unfold State.bcFails
  dsimp only
  refine .via ?_ State.modBc_chg
  refine .ite ?_ ?_
  · refine .via ?_ .setFld
    refine .via ?_ .setFld
    refine .via ?_ State.dmaSettle_chg
    refine .via ?_ .setFld
    refine .via ?_ State.bcForward_chg
    refine .via ?_ State.event_chg
    split
    · exact .via .refl State.complete_chg
    · exact .refl
  · refine .via ?_ .setFld
    refine .via ?_ State.bcForward_chg
    refine .via ?_ State.event_chg
    split
    · exact .via .refl State.complete_chg
    · exact .refl

theorem execBcfailReceive_does {node : Nat} {id : BitVec 64} {s : State} :
    Does { fab := true, regs := true, fns := true, wts := true, dma := true } s (execBcfailReceive node id s) := by
  unfold execBcfailReceive
  refine .next ?_
  refine .onMsg .refl (fun _ => ?_)
  split
  · exact .refl
  · exact .via .refl State.bcFails_chg

theorem execBcastDoneReceive_does {node : Nat} {id : BitVec 64} {s : State} :
    Does { fab := true, wts := true, regs := true, fns := true } s (execBcastDoneReceive node id s) := by
  unfold execBcastDoneReceive
  refine .next ?_
  refine .onMsg .refl (fun _ => ?_)
  split
  · exact .refl
  · exact .ite .refl (.via .refl State.bcNodeDone_chg)

theorem execBcastTimeout_does {die : Fin 2} {s : State} :
    Does { regs := true, fns := true, fab := true, wts := true, dma := true } s (execBcastTimeout die s) := by
  unfold execBcastTimeout
  refine .next ?_
  split
  · exact .refl
  · exact .ite .refl (.via .refl State.bcFails_chg)

theorem execBcastAbortReceive_does {die : Fin 2} {id : BitVec 64} {s : State} :
    Does { fab := true, wts := true, regs := true } s (execBcastAbortReceive die id s) := by
  unfold execBcastAbortReceive
  refine .next ?_
  refine .onMsg .refl (fun _ => ?_)
  split
  · exact .refl
  · exact .ite .refl (.ite (.via .refl State.bcLack_chg) (.via (.via (.via (.via .refl State.bcForward_chg) State.bcLack_chg)
      .setFld) State.modBc_chg))

theorem execWtable_does {c : Cmd} {region : BitVec 8} {addr : BitVec 64} {s : State} :
    Does { fns := true, regs := true, freeCtr := true, wts := true } s (execWtable c region addr s) := by
  unfold execWtable
  exact .next (.runCmd .refl (fun _ => .ite (.via .refl State.freeStatus_chg) (.ite (.via .refl State.complete_chg)
    (.via (.via .refl .modWts) State.complete_chg))))

theorem State.takeWptr_chg {s : State} {cmd : Option Cmd} {r first : Nat} {ptrs : List (BitVec 64)} :
    Chg { wts := true } s (s.takeWptr cmd r first ptrs).1 := by
  have hkept (w : WptrWait) : Chg { wts := true } s (s.modWts fun x => { x with wptrs := x.wptrs ++ [w] }) := .modWts
  exact .iteFst .refl (.iteFst .refl (hkept _))

theorem execWptr_does {c : Cmd} {region first : BitVec 8} {count : BitVec 16} {addr : BitVec 64} {s : State} :
    Does { fns := true, regs := true, freeCtr := true, mir := true, fab := true, links := true, wts := true }
    s (execWptr c region first count addr s) := by
  unfold execWptr
  exact .next (.runCmd .refl (fun _ => .ite (.via .refl State.complete_chg) (.ite (.via .refl State.freeStatus_chg)
    (.ite (.via .refl State.complete_chg) (.ite (.via .refl State.twinForward_chg) (.ite (.via .refl State.takeWptr_chg)
    (.via (.via .refl State.takeWptr_chg) State.complete_chg)))))))

theorem State.swapRegs_chg {s : State} {w : SwapSt} {st : Nat → Nat} :
    Chg { regs := true } s (s.swapRegs w st) := by
  unfold State.swapRegs
  exact .foldl (fun _ _ => .ite .refl (.via (.via (.via .refl .setFld) .setFld) .setFld)) _ .refl

theorem State.takeSwap_chg {s : State} {cmd : Option Cmd} {perStep : Nat} {us : List SwapUnit} :
    Chg { wts := true, regs := true } s (s.takeSwap cmd perStep us).1 := by
  have hbegun (w : SwapSt) : Chg { regs := true, wts := true } s ((s.modWts fun x => { x with swap := some w }).swapRegs w fun _ =>
    1) :=
    .via (.via .refl .modWts) State.swapRegs_chg
  exact .iteFst .refl (.iteFst .refl (.iteFst .refl (.iteFst .refl (hbegun _))))

theorem execSwap_does {c : Cmd} {addr : BitVec 64} {units : BitVec 16} {perStep : BitVec 8} {s : State} :
    Does { fns := true, regs := true, freeCtr := true, mir := true, fab := true, links := true, wts := true }
    s (execSwap c addr units perStep s) := by
  unfold execSwap
  exact .next (.runCmd .refl (fun _ => .ite (.via .refl State.complete_chg) (.ite (.via .refl State.complete_chg)
    (.ite (.via .refl State.complete_chg) (.ite (.ite (.via .refl State.freeStatus_chg) (.via .refl State.complete_chg))
    (.ite (.via .refl State.twinForward_chg) (.ite (.via .refl State.takeSwap_chg) (.via (.via .refl State.takeSwap_chg)
    State.complete_chg))))))))

theorem execSwapCopy_does {s : State} :
    Does { wts := true, regs := true } s (execSwapCopy s) := by
  unfold execSwapCopy
  dsimp only
  refine .next ?_
  split
  · exact .refl
  · exact .ite .refl (.via (.via .refl .modWts) State.swapRegs_chg)

theorem State.rangeBusy_chg {s : State} {a n : Nat} :
    Chg { occ := true, chans := true } s (s.rangeBusy a n) := by
  unfold State.rangeBusy
  exact .foldl (fun _ _ => .via .refl State.granBusy_chg) _ .refl

theorem State.copyUnit_chg {s : State} {u : SwapUnit} :
    Chg { occ := true, chans := true, ext := true, fns := true, regs := true } s (s.copyUnit u) := by
  unfold State.copyUnit
  exact .via (.via (.via (.via .refl State.rangeBusy_chg) State.rangeBusy_chg) (.setExt fun h => memWf_wrBytes _ _ h))
    State.event_chg

theorem execSwapCopyEnd_does {s : State} :
    Does { occ := true, chans := true, ext := true, fns := true, regs := true, wts := true, regions := true, fab := true,
           links := true, park := true } s (execSwapCopyEnd s) := by
  unfold execSwapCopyEnd
  dsimp only
  refine .next ?_
  split
  · exact .refl
  · split
    · exact .refl
    · refine .ite .refl ?_
      refine .foldl (fun _ _ => .via .refl State.tryArrive_chg) _ ?_
      split
      · exact .via (.via (.via (.foldl (fun _ _ => .via .refl State.copyUnit_chg) _ .refl) .modWts) State.swapRegs_chg)
          State.complete_chg
      · exact .via (.via (.foldl (fun _ _ => .via .refl State.copyUnit_chg) _ .refl) .modWts) State.swapRegs_chg

theorem State.sendHandover_chg {s : State} {h : Nat} {rids : List (BitVec 32)} :
    Chg { fab := true, links := true } s (s.sendHandover h rids) := by
  unfold State.sendHandover
  exact .via .refl State.mirSend_chg

theorem State.nameRids_chg {s : State} {h : Nat} {rids : List (BitVec 32)} :
    Chg { fab := true, links := true, mir := true } s (s.nameRids h rids) := by
  unfold State.nameRids
  exact .via (.via .refl State.sendHandover_chg) .modMir

theorem State.beginHand_chg {s : State} {r : Nat} {rids : List (BitVec 32)} :
    Chg { fab := true, links := true, mir := true } s (s.beginHand r rids) := by
  unfold State.beginHand
  exact .ite (.via .refl State.nameRids_chg) (.via (.via .refl State.sendHandover_chg) .modMir)

theorem State.fenceBegins_chg {s : State} {r : Nat} :
    Chg { engs := true, fab := true, links := true, mir := true, wts := true } s (s.fenceBegins r) := by
  unfold State.fenceBegins
  exact .via (.via (.via (.foldl (fun _ _ => .via .refl .modEng) _ .refl) State.beginHand_chg) .modMir) .modWts

theorem execFenceOut_does {c : Cmd} {region : BitVec 8} {s : State} :
    Does { fns := true, regs := true, mir := true, fab := true, links := true, engs := true, wts := true }
    s (execFenceOut c region s) := by
  unfold execFenceOut
  exact .next (.runCmd .refl (fun _ => .ite (.via .refl State.complete_chg) (.ite (.via .refl State.complete_chg)
    (.ite (.via .refl State.twinForward_chg) (.via (.via .refl State.fenceBegins_chg) .modWts)))))

/-! ## Mirror -/

theorem State.sendKv_chg {s : State} {c : SrvCfg} {e step page x5 x6 x7 : Nat} :
    Chg { links := true } s (s.sendKv c e step page x5 x6 x7) := by
  induction x5 generalizing s x6 x7 with
  | zero => exact .refl
  | succ n ih =>
    rw [State.sendKv]
    refine .ite .refl (.trans ?_ ih)
    split
    · exact State.queueOn_chg
    · exact .refl

theorem State.sendRecord_chg {s : State} {r : StepRecord} :
    Chg { fab := true, links := true } s (s.sendRecord r) := by
  unfold State.sendRecord
  exact .via .refl State.mirSend_chg

theorem State.tellRecord_chg {s : State} {e step kv : Nat} :
    Chg { fab := true, links := true, engs := true } s (s.tellRecord e step kv) := by
  unfold State.tellRecord
  exact .via (.via .refl State.sendRecord_chg) .modEng

theorem State.sendStep_chg {s : State} {e step : Nat} :
    Chg { links := true, fab := true, engs := true, mir := true } s (s.sendStep e step) := by
  unfold State.sendStep
  dsimp only
  refine .ite .refl ?_
  split
  · exact .refl
  · exact .ite (.via (.via (.foldl (fun _ _ => .via .refl State.sendKv_chg) _ .refl) State.tellRecord_chg) .modMir)
      (.via (.foldl (fun _ _ => .via .refl State.sendKv_chg) _ .refl) State.tellRecord_chg)

theorem State.sendSync_chg {s : State} {e : Nat} :
    Chg { links := true, engs := true, fab := true } s (s.sendSync e) := by
  unfold State.sendSync
  dsimp only
  split
  · exact .refl
  · exact .via (.via (.foldl (fun _ _ => .via .refl State.sendKv_chg) _ .refl) .modEng) State.tellRecord_chg

theorem State.mapPage_chg {s : State} {e own p : Nat} :
    Chg { engs := true, ext := true, mir := true } s (s.mapPage e own p).1 := by
  unfold State.mapPage
  split
  · exact .refl
  · split
    · dsimp only
      exact .via (.ofFst (.mono State.takePage_chg)) .modMir
    · exact .ofFst (.mono State.takePage_chg)

theorem State.mapPages_chg {s : State} {e own : Nat} {x3 : List Nat} :
    Chg { engs := true, ext := true, mir := true } s (s.mapPages e own x3).1 := by
  induction x3 generalizing s with
  | nil => exact .refl
  | cons p ps ih =>
    rw [State.mapPages]
    exact .trans State.mapPage_chg ih

theorem State.adoptReq_chg {s : State} {e : Nat} {m : MirReq} :
    Chg { engs := true, ext := true, mir := true, regs := true } s (s.adoptReq e m) := by
  unfold State.adoptReq
  dsimp only
  split
  · exact .refl
  · exact .refl
  · exact .ite (.via (.via (.via (.via (.via .refl State.mapPages_chg) .modEng) State.putCounts_chg) State.putPageList_chg)
      State.putReps_chg) (.via (.via (.via (.via (.via (.via (.via .refl State.mapPages_chg) .modEng) State.putCounts_chg)
      State.putPageList_chg) State.putReps_chg) .modMir) .setFld)

theorem State.trimMap_chg {s : State} :
    Chg { engs := true, ext := true, mir := true } s (s.trimMap) := by
  unfold State.trimMap
  exact .via (.foldl (fun _ _ => .via .refl State.dropPages_chg) _ .refl) .modMir

theorem State.adoptReqs_chg {s : State} {qs : List (Nat × MirReq)} {always : Bool} :
    Chg { engs := true, ext := true, mir := true, regs := true, fns := true } s (s.adoptReqs qs always) := by
  unfold State.adoptReqs
  exact .ite (.foldl (fun _ _ => .via .refl State.adoptReq_chg) _ .refl)
    (.via (.via (.foldl (fun _ _ => .via .refl State.adoptReq_chg) _ .refl) State.event_chg) .satAdd)

theorem State.adoptAll_chg {s : State} :
    Chg { mir := true, fns := true, engs := true, ext := true, regs := true } s (s.adoptAll) := by
  unfold State.adoptAll
  exact .ite .refl (.ite (.via .refl .modMir) (.via (.via (.foldl (fun _ _ => .via .refl State.event_chg) _
    (.via (.foldl (fun _ _ => .via .refl .modFunc) _ (.via .refl .modMir)) State.adoptReqs_chg)) .modMir) State.trimMap_chg))

theorem State.giveReq_chg {s : State} {e i : Nat} :
    Chg { engs := true, ext := true, mir := true } s (s.giveReq e i) := by
  unfold State.giveReq
  exact .via (.via (.via (.via .refl State.dropPages_chg) .modEng) State.putPageList_chg) .modMir

theorem State.adoptedBit_chg {s : State} :
    Chg { regs := true, mir := true } s (s.adoptedBit) := by
  unfold State.adoptedBit
  exact .via (.via .refl .setFld) .modMir

theorem State.fenceDone_chg {s : State} :
    Chg { mir := true, wts := true, engs := true, regs := true, fns := true, ext := true } s (s.fenceDone) := by
  unfold State.fenceDone
  dsimp only
  refine .via ?_ State.trimMap_chg
  refine .via ?_ .modWts
  refine .foldl (fun _ _ => ?_) _ (.via (.via .refl State.setPair_chg) .modMir)
  split
  · exact .via (.via .refl .setFld) State.complete_chg
  · exact .via .refl .setFld

theorem State.handedOver_chg {s : State} {cover : Bool} :
    Chg { mir := true, wts := true, engs := true, regs := true, fns := true, ext := true } s (s.handedOver cover) := by
  unfold State.handedOver
  exact .ite (.via (.via .refl State.setPair_chg) .modMir) (.ite (.via .refl State.fenceDone_chg)
    (.ite (.ite (.via (.via .refl State.setPair_chg) State.takeVoice_chg) (.via .refl State.setPair_chg)) .refl))

theorem State.doHandover_chg {s : State} {next : Nat} :
    Chg { engs := true, ext := true, mir := true, regs := true, fns := true, wts := true } s (s.doHandover next) := by
  unfold State.doHandover
  dsimp only
  split
  · exact .refl
  · refine .ite .refl ?_
    refine .via ?_ State.handedOver_chg
    refine .via ?_ State.trimMap_chg
    refine .via ?_ State.adoptedBit_chg
    refine .via ?_ .modMir
    refine .foldl (fun _ _ => ?_) _ (.via .refl State.adoptReqs_chg)
    split
    · exact .via .refl State.giveReq_chg
    · exact .refl

theorem State.handNow_chg {s : State} :
    Chg { engs := true, ext := true, mir := true, regs := true, fns := true, wts := true } s (s.handNow) := by
  unfold State.handNow
  split
  · exact .ite (.via .refl State.doHandover_chg) .refl
  · exact .refl

theorem State.handBack_chg {s : State} {h : Nat} :
    Chg { fab := true, links := true, mir := true } s (s.handBack h) := by
  unfold State.handBack
  exact .via (.via .refl State.sendHandover_chg) .modMir

theorem State.startSync_chg {s : State} :
    Chg { mir := true, wts := true, engs := true, regs := true, fns := true, ext := true, links := true, fab := true }
    s (s.startSync) := by
  unfold State.startSync
  exact .ite (.via (.foldl (fun _ _ => .via .refl State.sendSync_chg) _ (.via (.via .refl State.setPair_chg) .modMir))
    State.handBack_chg) (.via (.foldl (fun _ _ => .via .refl State.sendSync_chg) _ (.via (.via .refl State.setPair_chg) .modMir))
    State.sendHandover_chg)

theorem State.decideQuery_chg {s : State} {w : Query} {verdict : Nat} :
    Chg { regs := true, fns := true, engs := true, ext := true } s (s.decideQuery w verdict) := by
  unfold State.decideQuery
  dsimp only
  split
  · exact .via .refl State.refuse_chg
  · exact .ite (.via .refl State.refuse_chg) (.via (.via .refl State.admitReq_chg) State.complete_chg)

theorem State.settleQueries_chg {s : State} :
    Chg { mir := true, regs := true, fns := true, engs := true, ext := true } s (s.settleQueries) := by
  unfold State.settleQueries
  exact .ite .refl (.foldl (fun _ _ => .via .refl State.decideQuery_chg) _ (.via .refl .modMir))

theorem State.twinReply_chg {s : State} {t : TwinCmd} {status result : Nat} :
    Chg { regs := true, fns := true } s (s.twinReply t status result) := by
  unfold State.twinReply
  exact .ite .refl (.via .refl State.complete_chg)

theorem State.applyTwin_chg {s : State} {t : TwinCmd} :
    Chg { regs := true, fns := true, engs := true, ext := true, wts := true, mir := true, links := true, fab := true }
    s (s.applyTwin t) := by
  unfold State.applyTwin
  dsimp only
  refine .ite ?_ (.ite (.via (.via .refl State.doCancel_chg) State.twinReply_chg) (.ite (.ite (.via .refl State.takeWptr_chg)
    (.via (.via .refl State.takeWptr_chg) State.twinReply_chg)) (.ite (.ite (.via .refl State.takeSwap_chg)
    (.via (.via .refl State.takeSwap_chg) State.twinReply_chg)) (.ite (.ite (.via (.via .refl State.setPair_chg)
    State.takeVoice_chg) (.via (.via (.foldl (fun _ _ => .via .refl .modEng) _ (.foldl (fun _ _ => .foldl (fun _ _ => .via .refl
    State.giveReq_chg) _ .refl) _ .refl)) .modWts) State.fenceDone_chg)) (.ite (.ite (.via .refl State.twinReply_chg)
    (.ite (.via .refl State.startSync_chg) (.via (.via (.via .refl .setFld) .modWts) State.startSync_chg))) .refl)))))
  refine .ite (.ite .refl (.via .refl State.refuse_chg)) ?_
  split
  · exact .via (.via .refl State.admitReq_chg) State.twinReply_chg
  · exact .via .refl State.twinReply_chg

theorem State.applyTwins_chg {s : State} {r : Option Nat} {next : Nat} :
    Chg { mir := true, regs := true, fns := true, engs := true, ext := true, wts := true, links := true, fab := true }
    s (s.applyTwins r next) := by
  unfold State.applyTwins
  exact .foldl (fun _ _ => .via .refl State.applyTwin_chg) _ (.via .refl .modMir)

theorem State.digestMismatch_chg {s : State} {step : Nat} :
    Chg { fns := true, regs := true, mir := true, wts := true, engs := true, ext := true, regions := true }
    s (s.digestMismatch step) := by
  unfold State.digestMismatch
  extract_lets s1 s2 s3
  have h1 : Chg { fns := true, regs := true, mir := true, wts := true, engs := true, ext := true, regions := true } s s1 :=
    .via (.via (.via .refl State.event_chg) .satAdd) State.setPair_chg
  refine .ite (.via h1 State.takeVoice_chg) ?_
  have h2 : Chg { fns := true, regs := true, mir := true, wts := true, engs := true, ext := true, regions := true } s s2 :=
    .via h1 (.setEngs fun h => keysRise_of_keys h)
  have h3 : Chg { fns := true, regs := true, mir := true, wts := true, engs := true, ext := true, regions := true } s s3 :=
    .via h2 (.setFns fun h => keysRise_of_keys h)
  exact .foldl (fun _ _ => .mono .modRegion) _ h3

theorem State.checkDigest_chg {s : State} {step : Nat} :
    Chg { mir := true, fns := true, regs := true, wts := true, engs := true, ext := true, regions := true }
    s (s.checkDigest step) := by
  unfold State.checkDigest
  split
  · exact .ite .refl (.ite (.via .refl .modMir) (.via .refl State.digestMismatch_chg))
  · exact .refl

theorem State.ownDigest_chg {s : State} {r k : Nat} :
    Chg { mir := true, fns := true, regs := true, wts := true, engs := true, ext := true, regions := true }
    s (s.ownDigest r k) := by
  unfold State.ownDigest
  dsimp only
  refine .ite .refl ?_
  split
  · exact .refl
  · exact .via (.via .refl .modMir) State.checkDigest_chg

theorem State.dueHeartbeat_chg {s : State} {r k : Nat} :
    Chg { mir := true, fab := true, links := true } s (s.dueHeartbeat r k) := by
  unfold State.dueHeartbeat
  exact .ite .refl (.via (.via .refl .modMir) State.tryHeartbeat_chg)

/-! ## Boundary -/

theorem State.publish_chg {s : State} {e i : Nat} :
    Chg { fns := true, regs := true, engs := true, ext := true, freeCtr := true } s (s.publish e i).1 := by
  unfold State.publish
  dsimp only
  split
  · exact .refl
  · split
    · exact .via .refl State.eventTo_chg
    · refine .via ?_ State.putCatalogue_chg
      refine .via ?_ State.putCounts_chg
      refine .via ?_ .modEng
      split
      · exact .via (.via .refl .modEng) State.dropEntry_chg
      · exact .via .refl .modEng

theorem State.putTokens_chg {s : State} {c : SrvCfg} {q : Req} {a b : Nat} :
    Chg { ext := true } s (s.putTokens c q a b) := by
  unfold State.putTokens
  exact .via .refl (.setExt fun h => memWf_foldl (fun _ _ h => memWf_wrBytes _ _ h) _ h)

theorem State.giveTokens_chg {s : State} {e i k : Nat} {stop : List Nat} {pos depth : Nat} {ts : List Nat} :
    Chg { engs := true, ext := true, mir := true, fns := true, regs := true, freeCtr := true }
    s (s.giveTokens e i k stop pos depth ts) := by
  unfold State.giveTokens
  dsimp only
  split
  · refine .via ?_ State.emit_chg
    refine .via ?_ State.putReps_chg
    split
    · exact .via (.via .refl State.modReq_chg) State.putTokens_chg
    · exact .via .refl State.modReq_chg
  · refine .via ?_ State.emit_chg
    refine .via ?_ State.endReq_chg
    refine .via ?_ State.publish_chg
    refine .via ?_ State.putReps_chg
    split
    · exact .via (.via .refl State.modReq_chg) State.putTokens_chg
    · exact .via .refl State.modReq_chg

theorem State.sampleSlot_chg {s : State} {e k : Nat} {c : SrvCfg} {x : SlotRec} :
    Chg { engs := true, ext := true, mir := true, fns := true, regs := true, freeCtr := true } s (s.sampleSlot e k c x) := by
  unfold State.sampleSlot
  exact .ite .refl (.via .refl State.giveTokens_chg)

theorem State.samplePre_chg {s : State} {e k : Nat} {c : SrvCfg} {x : PreRec} :
    Chg { engs := true, ext := true, mir := true, fns := true, regs := true, freeCtr := true } s (s.samplePre e k c x) := by
  unfold State.samplePre
  exact .ite .refl (.via .refl State.giveTokens_chg)

theorem State.sampleStep_chg {s : State} {e k : Nat} {c : SrvCfg} :
    Chg { engs := true, ext := true, mir := true, fns := true, regs := true, freeCtr := true } s (s.sampleStep e k c) := by
  unfold State.sampleStep
  exact .foldl (fun _ _ => .via .refl State.samplePre_chg) _ (.foldl (fun _ _ => .via .refl State.sampleSlot_chg) _
    (.via .refl .modEng))

theorem State.adaptDepth_chg {s : State} {e : Nat} :
    Chg { engs := true } s (s.adaptDepth e) := by
  unfold State.adaptDepth
  exact .ite .refl (.via .refl .modEng)

theorem State.growPages_chg {s : State} {e i n x4 : Nat} :
    Chg { engs := true, ext := true } s (s.growPages e i n x4) := by
  induction x4 generalizing s with
  | zero => exact .refl
  | succ n ih =>
    rw [State.growPages]
    refine .ite .refl ?_
    split
    · exact .trans (.via (.ofFst State.takePage_chg) State.modReq_chg) ih
    · exact .ofFst State.takePage_chg

theorem State.allocate_chg {s : State} {e : Nat} {c : SrvCfg} {slots : List SlotRec} {pres : List PreRec} :
    Chg { engs := true, ext := true } s (s.allocate e c slots pres) := by
  unfold State.allocate
  exact .foldl (fun _ _ => .via (.via (.via .refl State.growPages_chg) State.putTokens_chg) State.putPageList_chg) _
    (.foldl (fun _ _ => .via (.via (.via .refl State.growPages_chg) State.putTokens_chg) State.putPageList_chg) _ .refl)

theorem State.writeTable_chg {s : State} {e k : Nat} {c : SrvCfg} {slots : List SlotRec} {pres : List PreRec} :
    Chg { ext := true, regs := true } s (s.writeTable e k c slots pres) := by
  unfold State.writeTable
  exact .via (.via .refl (.setExt fun h => memWf_wrBytes _ _ (memWf_wrBytes _ _ (memWf_wrBytes _ _ (memWf_wrBytes _ _ h))))) .setFld

theorem State.freeEnded_chg {s : State} {e : Nat} :
    Chg { engs := true, ext := true, mir := true, regs := true } s (s.freeEnded e) := by
  unfold State.freeEnded
  exact .via (.foldl (fun _ _ => .via .refl State.giveReq_chg) _ .refl) State.adoptedBit_chg

theorem State.packStep_chg {s : State} {e k : Nat} {c : SrvCfg} :
    Chg { mir := true, regs := true, fns := true, engs := true, ext := true, wts := true, links := true, fab := true }
    s (s.packStep e k c) := by
  unfold State.packStep
  exact .ite (.via (.via (.via (.via (.via (.foldl (fun _ _ => .via .refl State.modReq_chg) _ (.foldl (fun _ _ => .via .refl
    State.modReq_chg) _ (.via (.via (.via (.via (.via (.via .refl State.applyTwins_chg) State.settleQueries_chg)
    State.adoptAll_chg) State.doHandover_chg) State.adaptDepth_chg) .modEng))) State.allocate_chg) State.writeTable_chg)
    State.freeEnded_chg) .modEng) State.sealStep_chg) (.via (.via (.via (.via (.foldl (fun _ _ => .via .refl State.modReq_chg) _
    (.foldl (fun _ _ => .via .refl State.modReq_chg) _ (.via (.via (.via (.via (.via (.via .refl State.applyTwins_chg)
    State.settleQueries_chg) State.adoptAll_chg) State.doHandover_chg) State.adaptDepth_chg) .modEng))) State.allocate_chg)
    State.writeTable_chg) State.freeEnded_chg) .modEng)

theorem State.dropPair_chg {s : State} :
    Chg { mir := true, wts := true, engs := true, regs := true, fns := true, ext := true } s (s.dropPair) := by
  unfold State.dropPair
  exact .ite (.ite (.via (.via .refl .modMir) State.setPair_chg) (.via .refl .modMir)) .refl

theorem State.endRequests_chg {s : State} {e k : Nat} :
    Chg { engs := true, mir := true, fns := true } s (s.endRequests e k) := by
  unfold State.endRequests
  exact .foldl (fun _ _ => .via (.via .refl State.endReq_chg) State.emit_chg) _ .refl

theorem State.lastRecord_chg {s : State} {e k : Nat} :
    Chg { fab := true, links := true, engs := true, mir := true } s (s.lastRecord e k) := by
  unfold State.lastRecord
  exact .ite .refl (.ite (.via (.via .refl State.tellRecord_chg) .modMir) (.via .refl State.tellRecord_chg))

theorem State.endSeries_chg {s : State} {e k : Nat} {c : SrvCfg} {last : Bool} :
    Chg { engs := true, ext := true, mir := true, fns := true, regs := true, freeCtr := true, wts := true, links := true,
          fab := true, hostMem := true } s (s.endSeries e k c last) := by
  unfold State.endSeries
  exact .via (.via (.via (.ite (.via (.via (.via (.ite (.via .refl State.sampleStep_chg) (.via .refl .modEng)) State.dropPair_chg)
    State.endRequests_chg) State.sendStep_chg) (.via (.via (.via (.ite (.via .refl State.sampleStep_chg) (.via .refl .modEng))
    State.dropPair_chg) State.endRequests_chg) State.lastRecord_chg)) State.writeEmissions_chg) State.freeEnded_chg) .modEng

theorem State.seriesOver_chg {s : State} {r k : Nat} {last : Bool} :
    Chg { mir := true, fns := true, regs := true, wts := true, engs := true, ext := true, regions := true, fab := true,
          links := true } s (s.seriesOver r k last) := by
  unfold State.seriesOver
  exact .ite (.via (.ite (.via (.via .refl State.ownDigest_chg) State.dueHeartbeat_chg) .refl) State.seriesEnds_chg) .refl

theorem State.boundary_chg {s : State} {e k : Nat} {c : SrvCfg} :
    Chg { engs := true, ext := true, mir := true, fns := true, regs := true, freeCtr := true, wts := true, links := true,
          fab := true, hostMem := true, regions := true, park := true } s (s.boundary e k c) := by
  unfold State.boundary
  exact .ite (.via (.via (.via (.via (.via (.via (.via (.via .refl State.sampleStep_chg) State.dropPair_chg) State.sendStep_chg)
    State.writeEmissions_chg) State.packStep_chg) State.ownDigest_chg) State.dueHeartbeat_chg) State.tryArrive_chg)
    (.via (.via (.via (.via (.via .refl State.sampleStep_chg) State.dropPair_chg) State.sendStep_chg) State.writeEmissions_chg)
    State.packStep_chg)

theorem State.boundaryWork_chg {s : State} {e : Nat} :
    Chg { mir := true, regs := true, fns := true, engs := true, ext := true, wts := true, links := true, fab := true,
          freeCtr := true, hostMem := true, regions := true, park := true } s (s.boundaryWork e) := by
  unfold State.boundaryWork
  dsimp only
  split
  · exact .refl
  · split
    · exact .via (.via (.via (.via .refl State.applyTwins_chg) State.dropPair_chg) State.settleQueries_chg) State.handNow_chg
    · exact .ite .refl (.ite (.ite (.via .refl State.packStep_chg) .refl)
        (.ite (.ite .refl (.ite (.via (.via .refl State.endSeries_chg) State.seriesOver_chg)
        (.ite (.via (.via .refl State.endSeries_chg) State.seriesOver_chg) .refl))) (.ite (.via .refl State.boundary_chg) .refl)))

theorem execBoundaryWork_does {engine : Fin 2} {s : State} :
    Does { Foot.resets with hostMem := true, slots := true } s (execBoundaryWork engine s) := by
  unfold execBoundaryWork
  exact .next (.via (.via .refl State.boundaryWork_chg) State.finishActivate_chg)

/-! ## Pairs -/

theorem State.judge_chg {s : State} {h : Hello} :
    Chg { mir := true, wts := true, engs := true, regs := true, fns := true, ext := true, links := true, fab := true }
    s (s.judge h) := by
  unfold State.judge
  exact .ite (.ite .refl (.via (.via .refl State.setPair_chg) State.event_chg)) (.ite (.via .refl State.startSync_chg)
    (.ite (.via .refl State.startSync_chg) .refl))

theorem State.judgeHello_chg {s : State} :
    Chg { mir := true, wts := true, engs := true, regs := true, fns := true, ext := true, links := true, fab := true }
    s (s.judgeHello) := by
  unfold State.judgeHello
  split
  · exact .ite .refl (.via .refl State.judge_chg)
  · exact .refl

theorem execHelloReceive_does {p : Fin 32} {h : Hello} {s : State} :
    Does { fab := true, links := true, mir := true, wts := true, engs := true, regs := true, fns := true, ext := true }
    s (execHelloReceive p h s) := by
  unfold execHelloReceive
  exact .next (.onMsg .refl (fun _ => .ite .refl (.via (.via (.ite .refl (.via .refl State.tellHello_chg)) .modMir)
    State.judge_chg)))

theorem execSrvConfig_does {c : Cmd} {region : BitVec 8} {addr : BitVec 64} {s : State} :
    Does { fns := true, regs := true, engs := true, ext := true, fab := true, links := true, mir := true, wts := true }
    s (execSrvConfig c region addr s) := by
  unfold execSrvConfig
  exact .next (.runCmd .refl (fun _ => .ite (.via .refl State.complete_chg) (.ite (.via .refl State.complete_chg)
    (.ite (.via .refl State.complete_chg) (.ite (.via .refl State.complete_chg)
    (.via (.via (.via (.via (.foldl (fun _ _ => .via (.via .refl .modEng) .setFld) _ .refl) (.setExt fun h => memWf_memClear _ _
    h)) State.sendHello_chg) State.judgeHello_chg) State.complete_chg))))))

theorem execSyncComplete_does {s : State} :
    Does { mir := true, wts := true, engs := true, regs := true, fns := true, ext := true } s (execSyncComplete s) := by
  unfold execSyncComplete
  dsimp only
  refine .next ?_
  refine .ite .refl ?_
  refine .via ?_ .modMir
  refine .via ?_ .modWts
  refine .foldl (fun _ _ => .foldl (fun _ _ => .via .refl .modEng) _ (.via .refl .setFld)) _ ?_
  refine .foldl (fun _ _ => .via .refl State.complete_chg) _ ?_
  split
  · exact .via (.via (.via .refl State.setPair_chg) State.event_chg) State.complete_chg
  · exact .via (.via .refl State.setPair_chg) State.event_chg

theorem execFenceIn_does {c : Cmd} {region : BitVec 8} {s : State} :
    Does { fns := true, regs := true, mir := true, fab := true, links := true, wts := true, engs := true, ext := true }
    s (execFenceIn c region s) := by
  unfold execFenceIn
  exact .next (.runCmd .refl (fun _ => .ite (.via .refl State.complete_chg) (.ite (.via .refl State.twinForward_chg)
    (.via (.via (.via (.via .refl .setFld) .modWts) State.mirSend_chg) State.startSync_chg))))

theorem execPairJoin_does {c : Cmd} {s : State} :
    Does { fns := true, regs := true, fab := true, links := true, mir := true, wts := true, engs := true, ext := true }
    s (execPairJoin c s) := by
  unfold execPairJoin
  exact .next (.runCmd .refl (fun _ => .ite (.via .refl State.complete_chg) (.ite (.via .refl State.complete_chg)
    (.ite (.via .refl State.complete_chg) (.via (.via (.via .refl State.mirSend_chg) .modMir) State.startSync_chg)))))

theorem execPairJoinReceive_does {s : State} :
    Does { fab := true, mir := true, wts := true, engs := true, regs := true, fns := true, ext := true, links := true }
    s (execPairJoinReceive s) := by
  unfold execPairJoinReceive
  exact .next (.onMsg .refl (fun _ => .ite (.via .refl State.startSync_chg) .refl))

theorem State.dropSoon_chg {s : State} :
    Chg { mir := true, wts := true, engs := true, regs := true, fns := true, ext := true } s (s.dropSoon) := by
  unfold State.dropSoon
  exact .ite (.via (.via (.via .refl .modMir) State.dropPair_chg) State.settleQueries_chg) (.via .refl .modMir)

theorem execPairDrop_does {c : Cmd} {s : State} :
    Does { fns := true, regs := true, fab := true, links := true, mir := true, wts := true, engs := true, ext := true }
    s (execPairDrop c s) := by
  unfold execPairDrop
  exact .next (.runCmd .refl (fun _ => .ite (.via .refl State.complete_chg) (.ite (.via .refl State.complete_chg)
    (.via (.via (.via .refl State.mirSend_chg) State.dropSoon_chg) State.complete_chg))))

theorem execPairDropReceive_does {s : State} :
    Does { fab := true, mir := true, wts := true, engs := true, regs := true, fns := true, ext := true }
    s (execPairDropReceive s) := by
  unfold execPairDropReceive
  exact .next (.onMsg .refl (fun _ => .ite (.via .refl State.dropSoon_chg) .refl))

theorem State.answerHand_chg {s : State} {h : Nat} :
    Chg { fab := true, links := true, mir := true } s (s.answerHand h) := by
  unfold State.answerHand
  exact .ite (.via .refl State.nameRids_chg) (.via .refl State.handBack_chg)

theorem execHandoverReceive_does {step : Nat} {rids : List (BitVec 32)} {mirrored : List MirReq} {s : State} :
    Does { fab := true, links := true, mir := true } s (execHandoverReceive step rids mirrored s) := by
  unfold execHandoverReceive
  dsimp only
  refine .next ?_
  refine .onMsg .refl (fun _ => ?_)
  refine .ite .refl ?_
  refine .ite ?_ (.ite (.via .refl .modMir) (.via (.via .refl .modMir) State.answerHand_chg))
  refine .ite .refl ?_
  split
  · exact .via .refl State.sendHandover_chg
  · exact .via .refl State.handBack_chg

theorem execAdmitQueryReceive_does {engine : Fin 2} {region : Fin 8} {dec att pages query : Nat} {s : State} :
    Does { fab := true, links := true, mir := true } s (execAdmitQueryReceive engine region dec att pages query s) := by
  unfold execAdmitQueryReceive
  dsimp only
  refine .next ?_
  refine .onMsg .refl (fun _ => ?_)
  refine .ite .refl ?_
  split
  · exact .refl
  · exact .ite (.via (.via .refl State.mirSend_chg) .modMir) (.via .refl State.mirSend_chg)

theorem execAdmitVerdictReceive_does {query : Nat} {status : BitVec 16} {s : State} :
    Does { fab := true, mir := true, regs := true, fns := true, engs := true, ext := true }
    s (execAdmitVerdictReceive query status s) := by
  unfold execAdmitVerdictReceive
  refine .next ?_
  refine .onMsg .refl (fun _ => ?_)
  split
  · exact .refl
  · exact .via (.via .refl .modMir) State.decideQuery_chg

theorem execTwinCommandReceive_does {cmd : TwinCmd} {s : State} :
    Does { fab := true, mir := true, links := true } s (execTwinCommandReceive cmd s) := by
  unfold execTwinCommandReceive
  dsimp only
  refine .next ?_
  refine .onMsg .refl (fun _ => ?_)
  refine .ite .refl ?_
  refine .ite (.ite (.via .refl .modMir) .refl) ?_
  refine .ite .refl ?_
  refine .ite (.via .refl State.twinForward_chg) ?_
  refine .ite ?_ (.via .refl .modMir)
  split
  · exact .refl
  · exact .via .refl .modMir

theorem execKvPacketReceive_does {k : KvPacket} {s : State} :
    Does { fab := true, engs := true, ext := true, mir := true } s (execKvPacketReceive k s) := by
  unfold execKvPacketReceive
  dsimp only
  refine .next ?_
  refine .onArrived .refl (fun _ => ?_)
  split
  · exact .refl
  · exact .ite .refl (.via (.via (.via .refl State.mapPage_chg) (.setExt fun h => memWf_foldl (fun _ _ h => memWf_wrBytes _ _
      (memWf_wrBytes _ _ h)) _ h)) .modMir)

theorem execStepRecordApply_does {r : StepRecord} {s : State} :
    Does { fab := true, mir := true, engs := true, ext := true, links := true } s (execStepRecordApply r s) := by
  unfold execStepRecordApply
  exact .next (.ite .refl (.onMsg .refl (fun _ => .via (.via (.via (.foldl (fun _ _ => .via .refl State.mapPages_chg) _
    (.via .refl .modMir)) .modEng) State.trimMap_chg) State.mirSend_chg)))

theorem execAckReceive_does {step : Nat} {engine : Fin 2} {s : State} :
    Does { fab := true, mir := true } s (execAckReceive step engine s) := by
  unfold execAckReceive
  exact .next (.onMsg .refl (fun _ => .via .refl .modMir))

theorem execAckwaitExpiry_does {engine : Fin 2} {s : State} :
    Does { mir := true, fns := true, regs := true, wts := true, engs := true, ext := true } s (execAckwaitExpiry engine s) := by
  unfold execAckwaitExpiry
  exact .next (.ite (.via (.via (.via (.via (.via .refl .modMir) State.event_chg) .satAdd) State.setPair_chg)
    State.settleQueries_chg) .refl)

theorem execHeartbeatReceive_does {p : Fin 32} {h : Heartbeat} {s : State} :
    Does { fab := true, regs := true, mir := true, fns := true, wts := true, engs := true, ext := true, regions := true }
    s (execHeartbeatReceive p h s) := by
  unfold execHeartbeatReceive
  exact .next (.onMsg .refl (fun _ => .ite .refl (.ite (.via (.via (.via (.via (.via .refl .setFld) .setFld) .modMir)
    State.checkDigest_chg) State.settleQueries_chg) (.via (.via (.via .refl .setFld) .setFld) .modMir))))

theorem execIdleHeartbeat_does {s : State} :
    Does { mir := true, fab := true, links := true } s (execIdleHeartbeat s) := by
  unfold execIdleHeartbeat
  exact .next (.ite .refl (.via (.via .refl .modMir) State.sendHeartbeat_chg))

theorem execHeartbeatInterval_does {s : State} :
    Does { regs := true, mir := true, wts := true, engs := true, fns := true, ext := true } s (execHeartbeatInterval s) := by
  unfold execHeartbeatInterval
  exact .next (.ite .refl (.ite (.via (.via (.via (.via (.via (.via .refl .satAdd) .modMir) State.checkLoss_chg) State.event_chg)
    State.setPair_chg) State.settleQueries_chg) (.via (.via (.via (.via .refl .satAdd) .modMir) State.checkLoss_chg)
    State.settleQueries_chg)))

/-! ## Update -/

theorem execUpdBegin_does {c : Cmd} {addr : BitVec 64} {len : BitVec 32} {sigOk : Bool} {s : State} :
    Does { fns := true, regs := true, boot := true, slots := true } s (execUpdBegin c addr len sigOk s) := by
  unfold execUpdBegin
  refine .next (.runCmd .refl fun t => ?_)
  extract_lets st i b
  refine .ite (.via .refl State.complete_chg) (.ite (.via .refl State.complete_chg) (.ite (.via .refl State.complete_chg) ?_))
  exact .via (.via (.via .refl (.modSlot id)) State.writeRecord_chg) State.complete_chg

theorem State.restage_chg {s : State} {i : Nat} :
    Chg { boot := true, slots := true, fns := true, regs := true } s (s.restage i) := by
  unfold State.restage
  exact .ite .refl (.ite (.via (.via (.via .refl (.modSlot id)) State.writeRecord_chg) State.event_chg)
    (.via (.via .refl (.modSlot id)) State.writeRecord_chg))

theorem execUpdBlock_does {c : Cmd} {block : BitVec 16} {crc : BitVec 32} {addr : BitVec 64} {s : State} :
    Does { fns := true, regs := true, freeCtr := true, boot := true, slots := true } s (execUpdBlock c block crc addr s) := by
  unfold execUpdBlock
  refine .next (.runCmd .refl fun t => ?_)
  dsimp only
  refine .ite (.via .refl State.complete_chg) ?_
  split
  · exact .via .refl State.complete_chg
  · refine .ite (.mono State.freeStatus_chg) (.ite (.via .refl State.complete_chg) ?_)
    refine .via (.via (.via (.via .refl (.modSlot fun h => memWf_wrBytes _ _ h)) (.modSlot id)) State.restage_chg)
      State.complete_chg

theorem execUpdAbort_does {c : Cmd} {s : State} :
    Does { fns := true, regs := true, boot := true, slots := true } s (execUpdAbort c s) := by
  unfold execUpdAbort
  refine .next ?_
  refine .runCmd .refl (fun _ => ?_)
  split
  · exact .via (.via (.via .refl (.modSlot id)) State.writeRecord_chg) State.complete_chg
  · exact .via .refl State.complete_chg

theorem State.handAll_chg {s : State} {c : Cmd} :
    Chg { Foot.resets with hostMem := true, slots := true } s (s.handAll c) := by
  unfold State.handAll
  extract_lets _ rids s1 s2
  have h1 : Chg { Foot.resets with hostMem := true, slots := true } s s1 := .mono (.setEngs fun h => keysRise_of_keys h)
  have h2 : Chg { Foot.resets with hostMem := true, slots := true } s s2 := .via (.via h1 State.beginHand_chg) .modMir
  exact .via (.via h2 State.handNow_chg) State.finishActivate_chg

theorem execUpdActivate_does {c : Cmd} {sigOk : Bool} {s : State} :
    Does { Foot.resets with hostMem := true, slots := true } s (execUpdActivate c sigOk s) := by
  unfold execUpdActivate
  refine .next (.runCmd .refl fun t => ?_)
  dsimp only
  refine .ite (.via .refl State.complete_chg) ?_
  split
  · exact .via .refl State.complete_chg
  · refine .ite (.via .refl State.complete_chg) (.ite (.via .refl State.activate_chg) (.ite (.via .refl State.complete_chg)
      (.via .refl State.handAll_chg)))

theorem execUpdConfirm_does {c : Cmd} {s : State} :
    Does { fns := true, regs := true, boot := true } s (execUpdConfirm c s) := by
  unfold execUpdConfirm
  exact .next (.runCmd .refl (fun _ => .ite (.via (.via .refl .modBootPlain) State.complete_chg) (.via .refl State.complete_chg)))

theorem execTrialConfirmation_does {s : State} :
    Does { boot := true, slots := true, fuses := true, fns := true, regs := true } s (execTrialConfirmation s) := by
  unfold execTrialConfirmation
  refine .next (.ite .refl ?_)
  extract_lets i s1 s2 s3
  have h1 : Chg { boot := true, slots := true, fuses := true, fns := true, regs := true } s s1 := by
    refine .via (.via .refl (.modSlot id)) (.modSlot fun h => ?_)
    split
    · exact h
    · exact h
  have h2 : Chg { boot := true, slots := true, fuses := true, fns := true, regs := true } s s2 := .via h1 .modArea
  have h3 : Chg { boot := true, slots := true, fuses := true, fns := true, regs := true } s s3 :=
    .via (.via (.via h2 .modBootPlain) State.writeRecord_chg) State.fuseSlot_chg
  exact .via h3 State.event_chg

theorem execTrialWindowExpiry_does {s : State} :
    Does Foot.resets s (execTrialWindowExpiry s) := by
  unfold execTrialWindowExpiry
  exact .next (.ite (.via .refl State.warmReset_chg) .refl)

theorem State.setOwner_chg {s : State} {hash : BitVec 256} :
    Chg { fuses := true } s (s.setOwner hash).1 := by
  unfold State.setOwner
  dsimp only
  split
  · exact .refl
  · exact .plain

theorem execOwnerSet_does {c : Cmd} {hash : BitVec 256} {s : State} :
    Does { fns := true, regs := true, fuses := true } s (execOwnerSet c hash s) := by
  unfold execOwnerSet
  exact .next (.runCmd .refl (fun _ => .via (.via .refl State.setOwner_chg) State.complete_chg))

theorem State.setPolicy_chg {s : State} {b : List Byte} {sigOk : Bool} :
    Chg { boot := true, fuses := true, slots := true, regs := true, fns := true } s (s.setPolicy b sigOk).1 := by
  unfold State.setPolicy
  refine .iteFst ?_ .refl
  extract_lets fl _ _ t
  have h1 : Chg { boot := true, slots := true, fuses := true, fns := true, regs := true } s t :=
    .via (u := { s with fuses := { s.fuses with ownlock := s.fuses.ownlock || bits fl 2 2 == 1, debugdis := s.fuses.debugdis || bits fl 3 3 == 1 } })
      (.mono .setFuses) (.setBoot id id)
  exact .via (.via h1 State.policyRegs_chg) State.event_chg

theorem execPolicy_does {c : Cmd} {addr : BitVec 64} {sigOk : Bool} {s : State} :
    Does { fns := true, regs := true, boot := true, fuses := true, slots := true } s (execPolicy c addr sigOk s) := by
  unfold execPolicy
  exact .next (.runCmd .refl (fun _ => .ite (.via .refl State.complete_chg) (.via (.via .refl State.setPolicy_chg)
    State.complete_chg)))

theorem execAttest_does {c : Cmd} {nonce : BitVec 256} {addr : BitVec 64} {len : BitVec 32} {s : State} :
    Does { fns := true, regs := true, hostMem := true, freeCtr := true } s (execAttest c nonce addr len s) := by
  unfold execAttest
  exact .next (.runCmd .refl (fun _ => .ite (.via .refl State.complete_chg) (.ite (.via .refl State.complete_chg)
    (.via (.via (.via .refl (.setHostMem fun h => memWf_wrBytes _ _ h)) State.freeStep_chg) State.complete_chg))))

/-! ## Milug -/

theorem State.respond_chg {s : State} {status : Nat} {data : List Byte} :
    Chg { milug := true } s (s.respond status data) := by
  unfold State.respond
  exact .via .refl .modMilugPlain

theorem Chg.bus {P : Foot} {s u : State} {f : State → State} (h : Chg P s u) (hf : ∀ v, Chg P v (f v)) : Chg P s (u.bus f) :=
  .ite (h.trans (hf _)) h

theorem execIdent_does {s : State} :
    Does { milug := true } s (execIdent s) := by
  unfold execIdent
  exact .next (.bus .refl (fun _ => .via .refl State.respond_chg))

theorem execSetId_does {id : BitVec 20} {s : State} :
    Does { milug := true, regs := true, links := true, fns := true } s (execSetId id s) := by
  unfold execSetId
  refine .next (.bus .refl fun t => ?_)
  refine .ite (.via (.via .refl .modMilugPlain) State.respond_chg) (.ite ?_ (.via (.via .refl State.event_chg) State.respond_chg))
  extract_lets t1
  have h1 : Chg { regs := true, fns := true, links := true, milug := true } t t1 := .via (.via .refl .setFld) .setFld
  exact .via (.via h1 (.setLinks fun h => keysRise_of_keys h)) State.respond_chg

theorem execTelem_does {s : State} :
    Does { milug := true } s (execTelem s) := by
  unfold execTelem
  exact .next (.bus .refl (fun _ => .via .refl State.respond_chg))

theorem execPower_does {on : BitVec 8} {s : State} :
    Does Foot.resets s (execPower on s) := by
  unfold execPower
  exact .next (.bus .refl (fun _ => .ite (.via (.via (.via .refl State.mainOff_chg) .modPwr) State.respond_chg)
    (.ite (.ite (.via .refl State.respond_chg) (.via (.ite (.via (.via .refl .modPwr) State.supplyOn_chg) (.via .refl .modPwr))
    State.respond_chg)) (.via .refl State.respond_chg))))

theorem execReset_does {s : State} :
    Does Foot.resets s (execReset s) := by
  unfold execReset
  exact .next (.bus .refl (fun _ => .ite (.via (.via .refl State.warmReset_chg) State.respond_chg) (.via .refl State.respond_chg)))

theorem execFault_does {s : State} :
    Does { milug := true } s (execFault s) := by
  unfold execFault
  exact .next (.bus .refl (fun _ => .via .refl State.respond_chg))

theorem execAlertack_does {s : State} :
    Does { milug := true } s (execAlertack s) := by
  unfold execAlertack
  exact .next (.bus .refl (fun _ => .via (.via .refl .modMilugPlain) State.respond_chg))

theorem execMilugOwnerSet_does {hash : BitVec 256} {s : State} :
    Does { milug := true, fuses := true } s (execMilugOwnerSet hash s) := by
  unfold execMilugOwnerSet
  exact .next (.bus .refl (fun _ => .ite (.via .refl State.respond_chg) (.via (.via .refl State.setOwner_chg) State.respond_chg)))

theorem execPolicyData_does {off : BitVec 16} {data : List Byte} {s : State} :
    Does { milug := true } s (execPolicyData off data s) := by
  unfold execPolicyData
  refine .next (.bus .refl fun t => .ite (.mono State.respond_chg) ?_)
  exact .via (.via .refl (.modMilug fun h => memWf_wrBytes _ _ h)) State.respond_chg

theorem execPolicyCommit_does {sigOk : Bool} {s : State} :
    Does { milug := true, boot := true, fuses := true, slots := true, regs := true, fns := true } s (execPolicyCommit sigOk s) := by
  unfold execPolicyCommit
  exact .next (.bus .refl (fun _ => .ite (.via .refl State.respond_chg) (.via (.via .refl State.setPolicy_chg) State.respond_chg)))

theorem execVstbyLoss_does {s : State} :
    Does Foot.resets s (execVstbyLoss s) := by
  unfold execVstbyLoss
  extract_lets t
  refine .next ?_
  have hboot : Chg Foot.resets s { t with boot := { t.boot with vstby := false, stage := 0, holdup := false } } :=
    .via State.mainOff_chg .setBootPlain
  exact .via (.via hboot .setPwr) (.setMilug fun _ => rfl)

end Sys2Proof.Machine
end

section
/-!
Every command keeps to a footprint: no command stops, the data invariants hold of every step, the frames hold, and what a reset keeps.
-/
namespace Sys2Proof.Machine
set_option Elab.async false

/-! ## Every command and its footprint -/

/-- The command answers a next state; what it changes lies in one footprint, the queue not in it, and a frame that speaks of the command
names that footprint. -/
def Keeps (i : Instr) (s : State) : Prop :=
  ∃ P : Foot, Does P s (exec i s) ∧ P.pending = false ∧
    ((∀ u, frameTiles i s u = s.within P u) ∨ ∀ u, frameTiles i s u = u) ∧
    ((∀ u, framePlan i s u = s.within P u) ∨ ∀ u, framePlan i s u = u) ∧
    ((∀ u, frameLinks i s u = s.within P u) ∨ ∀ u, frameLinks i s u = u) ∧
    ((∀ u, frameServices i s u = s.within P u) ∨ ∀ u, frameServices i s u = u)

namespace Keeps

variable {P : Foot} {i : Instr} {s : State}

theorem ofTiles (hdoes : Does P s (exec i s)) (hqueue : P.pending = false := by rfl)
    (hTiles : ∀ u, frameTiles i s u = s.within P u := by intro _; rfl) (hPlan : ∀ u, framePlan i s u = u := by intro _; rfl)
    (hLinks : ∀ u, frameLinks i s u = u := by intro _; rfl) (hServices : ∀ u, frameServices i s u = u := by intro _; rfl) : Keeps i s :=
  ⟨P, hdoes, hqueue, .inl hTiles, .inr hPlan, .inr hLinks, .inr hServices⟩

theorem ofPlan (hdoes : Does P s (exec i s)) (hqueue : P.pending = false := by rfl)
    (hTiles : ∀ u, frameTiles i s u = u := by intro _; rfl) (hPlan : ∀ u, framePlan i s u = s.within P u := by intro _; rfl)
    (hLinks : ∀ u, frameLinks i s u = u := by intro _; rfl) (hServices : ∀ u, frameServices i s u = u := by intro _; rfl) : Keeps i s :=
  ⟨P, hdoes, hqueue, .inr hTiles, .inl hPlan, .inr hLinks, .inr hServices⟩

theorem ofLinks (hdoes : Does P s (exec i s)) (hqueue : P.pending = false := by rfl)
    (hTiles : ∀ u, frameTiles i s u = u := by intro _; rfl) (hPlan : ∀ u, framePlan i s u = u := by intro _; rfl)
    (hLinks : ∀ u, frameLinks i s u = s.within P u := by intro _; rfl) (hServices : ∀ u, frameServices i s u = u := by intro _; rfl) : Keeps i s :=
  ⟨P, hdoes, hqueue, .inr hTiles, .inr hPlan, .inl hLinks, .inr hServices⟩

theorem ofServices (hdoes : Does P s (exec i s)) (hqueue : P.pending = false := by rfl)
    (hTiles : ∀ u, frameTiles i s u = u := by intro _; rfl) (hPlan : ∀ u, framePlan i s u = u := by intro _; rfl)
    (hLinks : ∀ u, frameLinks i s u = u := by intro _; rfl) (hServices : ∀ u, frameServices i s u = s.within P u := by intro _; rfl) : Keeps i s :=
  ⟨P, hdoes, hqueue, .inr hTiles, .inr hPlan, .inr hLinks, .inl hServices⟩

theorem ofNone (hdoes : Does P s (exec i s)) (hqueue : P.pending = false := by rfl)
    (hTiles : ∀ u, frameTiles i s u = u := by intro _; rfl) (hPlan : ∀ u, framePlan i s u = u := by intro _; rfl)
    (hLinks : ∀ u, frameLinks i s u = u := by intro _; rfl) (hServices : ∀ u, frameServices i s u = u := by intro _; rfl) : Keeps i s :=
  ⟨P, hdoes, hqueue, .inr hTiles, .inr hPlan, .inr hLinks, .inr hServices⟩

end Keeps

theorem exec_keeps (i : Instr) (s : State) : Keeps i s := by
  cases i with
  | tripleIssue => exact .ofTiles execTripleIssue_does
  | nop => exact .ofTiles execNop_does
  | mark => exact .ofTiles execMark_does
  | scalarAlu => exact .ofTiles execScalarAlu_does
  | scalarAluImmediate => exact .ofTiles execScalarAluImmediate_does
  | cmp => exact .ofTiles execCmp_does
  | cmpi => exact .ofTiles execCmpi_does
  | plog => exact .ofTiles execPlog_does
  | sld => exact .ofTiles execSld_does
  | sst => exact .ofTiles execSst_does
  | sldAg => exact .ofTiles execSldAg_does
  | sstAg => exact .ofTiles execSstAg_does
  | sget => exact .ofTiles execSget_does
  | loop => exact .ofTiles execLoop_does
  | loopd => exact .ofTiles execLoopd_does
  | agbase => exact .ofTiles execAgbase_does
  | agset => exact .ofTiles execAgset_does
  | agadd => exact .ofTiles execAgadd_does
  | aghnd => exact .ofTiles execAghnd_does
  | dwrC => exact .ofTiles execDwrC_does
  | dwrS => exact .ofTiles execDwrS_does
  | dwrSi => exact .ofTiles execDwrSi_does
  | resultWriteback => exact .ofTiles execResultWriteback_does
  | mload => exact .ofTiles execMload_does
  | mscl => exact .ofTiles execMscl_does
  | mzero => exact .ofTiles execMzero_does
  | mmul => exact .ofTiles execMmul_does
  | mdrain => exact .ofTiles execMdrain_does
  | mdrainv => exact .ofTiles execMdrainv_does
  | leafEnter => exact .ofTiles execLeafEnter_does
  | drainRowWrite => exact .ofTiles execDrainRowWrite_does
  | vdef => exact .ofTiles execVdef_does
  | vrun => exact .ofTiles execVrun_does
  | vrunRowWrite => exact .ofTiles execVrunRowWrite_does
  | cput => exact .ofTiles execCput_does
  | nput => exact .ofTiles execNput_does
  | wget => exact .ofTiles execWget_does
  | wput => exact .ofTiles execWput_does
  | packetDepart => exact .ofTiles execPacketDepart_does
  | packetLand => exact .ofTiles execPacketLand_does
  | creditReturn => exact .ofTiles execCreditReturn_does
  | windowPacketHop => exact .ofTiles execWindowPacketHop_does
  | windowReadServe => exact .ofTiles execWindowReadServe_does
  | qrd => exact .ofPlan execQrd_does
  | qwr => exact .ofPlan execQwr_does
  | qwait => exact .ofPlan execQwait_does
  | qwrSourceRead => exact .ofPlan execQwrSourceRead_does
  | queueRequestArrive => exact .ofPlan execQueueRequestArrive_does
  | commitPoint => exact .ofPlan execCommitPoint_does
  | queueLanding => exact .ofPlan execQueueLanding_does
  | writeTakesEffect => exact .ofPlan execWriteTakesEffect_does
  | granuleServe => exact .ofPlan execGranuleServe_does
  | calendarWindowOpen => exact .ofPlan execCalendarWindowOpen_does
  | retrimComplete => exact .ofPlan execRetrimComplete_does
  | temperatureBinChange => exact .ofPlan execTemperatureBinChange_does
  | retrimForce => exact .ofPlan execRetrimForce_does
  | holdRefresh => exact .ofPlan execHoldRefresh_does
  | refreshOverdue => exact .ofPlan execRefreshOverdue_does
  | memRefWrite => exact .ofPlan execMemRefWrite_does
  | annexRequestSend => exact .ofPlan execAnnexRequestSend_does
  | annexResponse => exact .ofPlan execAnnexResponse_does
  | annexTimeout => exact .ofPlan execAnnexTimeout_does
  | annexLinkDown => exact .ofPlan execAnnexLinkDown_does
  | annexTrainingEnd => exact .ofPlan execAnnexTrainingEnd_does
  | annexRetrain => exact .ofPlan execAnnexRetrain_does
  | fetchOpportunity => exact .ofPlan execFetchOpportunity_does
  | blockLanding => exact .ofPlan execBlockLanding_does
  | blockBroadcast => exact .ofPlan execBlockBroadcast_does
  | parkRequest => exact .ofPlan execParkRequest_does
  | invocationStart => exact .ofPlan execInvocationStart_does
  | invocationEnd => exact .ofPlan execInvocationEnd_does
  | launchCountDecision => exact .ofPlan execLaunchCountDecision_does
  | holdBegin => exact .ofPlan execHoldBegin_does
  | holdEnd => exact .ofPlan execHoldEnd_does
  | boundaryHoldRequest => exact .ofPlan execBoundaryHoldRequest_does
  | ptcHoldreqWrite => exact .ofPlan execPtcHoldreqWrite_does
  | occWindowEnd => exact .ofPlan execOccWindowEnd_does
  | dmaStart => exact .ofPlan execDmaStart_does
  | dmaGo => exact .ofPlan execDmaGo_does
  | dmaPause => exact .ofPlan execDmaPause_does
  | dmaResume => exact .ofPlan execDmaResume_does
  | dmaAbort => exact .ofPlan execDmaAbort_does
  | dmaSlotAccess => exact .ofPlan execDmaSlotAccess_does
  | dmaDrainEnd => exact .ofPlan execDmaDrainEnd_does
  | dmaAccessFail => exact .ofPlan execDmaAccessFail_does
  | dmaPacketHop => exact .ofPlan execDmaPacketHop_does
  | bankGateEffect => exact .ofPlan execBankGateEffect_does
  | ringScan => exact .ofPlan execRingScan_does
  | nopCommand => exact .ofPlan execNopCommand_does
  | loadImage => exact .ofPlan execLoadImage_does
  | planLoad => exact .ofPlan execPlanLoad_does
  | planFree => exact .ofPlan execPlanFree_does
  | launch => exact .ofPlan execLaunch_does
  | stop => exact .ofPlan execStop_does
  | completionWrite => exact .ofPlan execCompletionWrite_does
  | eventWrite => exact .ofPlan execEventWrite_does
  | interruptRaise => exact .ofPlan execInterruptRaise_does
  | ringAccessFail => exact .ofPlan execRingAccessFail_does
  | ringRestart => exact .ofPlan execRingRestart_does
  | ringEnable => exact .ofPlan execRingEnable_does
  | firewallWindowWrite => exact .ofPlan execFirewallWindowWrite_does
  | absentAccess => exact .ofPlan execAbsentAccess_does
  | vfFlr => exact .ofPlan execVfFlr_does
  | registerWrite => exact .ofLinks execRegisterWrite_does
  | handleEntryWrite => exact .ofLinks execHandleEntryWrite_does
  | slotCommand => exact .ofLinks execSlotCommand_does
  | mxctlWrite => exact .ofLinks execMxctlWrite_does
  | vctlWrite => exact .ofLinks execVctlWrite_does
  | vcwordWrite => exact .ofLinks execVcwordWrite_does
  | linkCycle => exact .ofLinks execLinkCycle_does
  | flitReceive => exact .ofLinks execFlitReceive_does
  | ackPoint => exact .ofLinks execAckPoint_does
  | replayTimerExpiry => exact .ofLinks execReplayTimerExpiry_does
  | scheduledFlitDelivery => exact .ofLinks execScheduledFlitDelivery_does
  | fullTrainingAttempt => exact .ofLinks execFullTrainingAttempt_does
  | trainingPhaseEnd => exact .ofLinks execTrainingPhaseEnd_does
  | trainingTimeout => exact .ofLinks execTrainingTimeout_does
  | lossOfSignal => exact .ofLinks execLossOfSignal_does
  | keptStateExpiry => exact .ofLinks execKeptStateExpiry_does
  | fecRateWindow => exact .ofLinks execFecRateWindow_does
  | lnkRetrain => exact .ofLinks execLnkRetrain_does
  | lnkRoleWrite => exact .ofLinks execLnkRoleWrite_does
  | lnkWreqWrite => exact .ofLinks execLnkWreqWrite_does
  | fabIdWrite => exact .ofLinks execFabIdWrite_does
  | scheduledPacketSend => exact .ofLinks execScheduledPacketSend_does
  | edgeUnitDelivery => exact .ofLinks execEdgeUnitDelivery_does
  | packetRoute => exact .ofLinks execPacketRoute_does
  | norouteTimeout => exact .ofLinks execNorouteTimeout_does
  | undeliverableNotice => exact .ofLinks execUndeliverableNotice_does
  | fragmentReceive => exact .ofLinks execFragmentReceive_does
  | reassemblyTimeout => exact .ofLinks execReassemblyTimeout_does
  | tableWrite => exact .ofLinks execTableWrite_does
  | drain => exact .ofLinks execDrain_does
  | switch => exact .ofLinks execSwitch_does
  | epochRelease => exact .ofLinks execEpochRelease_does
  | syncreqSend => exact .ofLinks execSyncreqSend_does
  | syncreqReceive => exact .ofLinks execSyncreqReceive_does
  | syncrspReceive => exact .ofLinks execSyncrspReceive_does
  | fabSyncctlWrite => exact .ofLinks execFabSyncctlWrite_does
  | launchMessageReceive => exact .ofLinks execLaunchMessageReceive_does
  | altwaitExpiry => exact .ofLinks execAltwaitExpiry_does
  | lackReceive => exact .ofLinks execLackReceive_does
  | lfailReceive => exact .ofLinks execLfailReceive_does
  | abortReceive => exact .ofLinks execAbortReceive_does
  | armReceive => exact .ofLinks execArmReceive_does
  | readyReceive => exact .ofLinks execReadyReceive_does
  | releaseFlitReceive => exact .ofLinks execReleaseFlitReceive_does
  | barrierTimeout => exact .ofLinks execBarrierTimeout_does
  | arriveReceive => exact .ofLinks execArriveReceive_does
  | stepReleaseReceive => exact .ofLinks execStepReleaseReceive_does
  | stepBarrierTimeout => exact .ofLinks execStepBarrierTimeout_does
  | srvConfig => exact .ofServices execSrvConfig_does
  | submit => exact .ofServices execSubmit_does
  | cancel => exact .ofServices execCancel_does
  | outring => exact .ofServices execOutring_does
  | tenantSet => exact .ofServices execTenantSet_does
  | catDrop => exact .ofServices execCatDrop_does
  | catMove => exact .ofServices execCatMove_does
  | catMoveComplete => exact .ofServices execCatMoveComplete_does
  | promptFetchComplete => exact .ofServices execPromptFetchComplete_does
  | boundaryWork => exact .ofNone execBoundaryWork_does
  | stepStart => exact .ofServices execStepStart_does
  | emissionWrite => exact .ofServices execEmissionWrite_does
  | tenantRefill => exact .ofServices execTenantRefill_does
  | depthWrite => exact .ofServices execDepthWrite_does
  | bcast => exact .ofServices execBcast_does
  | openReceive => exact .ofServices execOpenReceive_does
  | bcastReadyReceive => exact .ofServices execBcastReadyReceive_does
  | chunkReceive => exact .ofServices execChunkReceive_does
  | bcastStall => exact .ofServices execBcastStall_does
  | needReceive => exact .ofServices execNeedReceive_does
  | bcfailReceive => exact .ofServices execBcfailReceive_does
  | bcastDoneReceive => exact .ofServices execBcastDoneReceive_does
  | bcastTimeout => exact .ofServices execBcastTimeout_does
  | bcastAbortReceive => exact .ofServices execBcastAbortReceive_does
  | wtable => exact .ofServices execWtable_does
  | wptr => exact .ofServices execWptr_does
  | swap => exact .ofServices execSwap_does
  | swapCopy => exact .ofServices execSwapCopy_does
  | swapCopyEnd => exact .ofServices execSwapCopyEnd_does
  | fenceOut => exact .ofServices execFenceOut_does
  | fenceIn => exact .ofServices execFenceIn_does
  | helloReceive => exact .ofServices execHelloReceive_does
  | syncComplete => exact .ofServices execSyncComplete_does
  | admitQueryReceive => exact .ofServices execAdmitQueryReceive_does
  | admitVerdictReceive => exact .ofServices execAdmitVerdictReceive_does
  | twinCommandReceive => exact .ofServices (execTwinCommandReceive_does.mono (Q := { ext := true, links := true, fab := true, engs := true, mir := true }))
  | kvPacketReceive => exact .ofServices execKvPacketReceive_does
  | stepRecordApply => exact .ofServices execStepRecordApply_does
  | ackReceive => exact .ofServices execAckReceive_does
  | ackwaitExpiry => exact .ofServices execAckwaitExpiry_does
  | heartbeatReceive => exact .ofServices execHeartbeatReceive_does
  | idleHeartbeat => exact .ofServices execIdleHeartbeat_does
  | heartbeatInterval => exact .ofServices execHeartbeatInterval_does
  | pairJoin => exact .ofServices execPairJoin_does
  | pairDrop => exact .ofServices execPairDrop_does
  | pairDropReceive => exact .ofServices execPairDropReceive_does
  | stepRequest => exact .ofServices execStepRequest_does
  | pendingStepRelease => exact .ofServices execPendingStepRelease_does
  | dividerSwitch => exact .ofServices execDividerSwitch_does
  | droopTrip => exact .ofServices execDroopTrip_does
  | stretchEnd => exact .ofServices execStretchEnd_does
  | catchupEnd => exact .ofServices execCatchupEnd_does
  | referenceLoss => exact .ofServices execReferenceLoss_does
  | referenceReturn => exact .ofServices execReferenceReturn_does
  | inputBoundaryCrossing => exact .ofNone execInputBoundaryCrossing_does
  | inputLowReset => exact .ofNone execInputLowReset_does
  | powerStageRestart => exact .ofServices execPowerStageRestart_does
  | galGateWrite => exact .ofServices execGalGateWrite_does
  | autoGate => exact .ofServices execAutoGate_does
  | galleryWakeEnd => exact .ofServices execGalleryWakeEnd_does
  | tilBankgateWrite => exact .ofServices execTilBankgateWrite_does
  | bankUngateReady => exact .ofServices execBankUngateReady_does
  | thermalLevelChange => exact .ofServices execThermalLevelChange_does
  | guardHoldTick => exact .ofServices execGuardHoldTick_does
  | throttleHold => exact .ofServices execThrottleHold_does
  | overtempRailOff => exact .ofServices execOvertempRailOff_does
  | vstbyApply => exact .ofNone execVstbyApply_does
  | supplyStage => exact .ofServices execSupplyStage_does
  | controllerStage => exact .ofServices execControllerStage_does
  | rootClockLock => exact .ofServices execRootClockLock_does
  | referenceWaitTimeout => exact .ofServices execReferenceWaitTimeout_does
  | dieStage => exact .ofServices execDieStage_does
  | selfTest => exact .ofServices execSelfTest_does
  | moduleReady => exact .ofServices execModuleReady_does
  | warmReset => exact .ofNone execWarmReset_does
  | watchdogExpiry io => exact .ofNone (execWatchdogExpiry_does io)
  | controllerEccError io => exact .ofNone (execControllerEccError_does io)
  | updBegin => exact .ofServices execUpdBegin_does
  | updBlock => exact .ofServices execUpdBlock_does
  | updActivate => exact .ofNone execUpdActivate_does
  | updAbort => exact .ofServices execUpdAbort_does
  | updConfirm => exact .ofServices execUpdConfirm_does
  | trialConfirmation => exact .ofServices execTrialConfirmation_does
  | trialWindowExpiry => exact .ofNone execTrialWindowExpiry_does
  | attest => exact .ofServices execAttest_does
  | policy => exact .ofServices execPolicy_does
  | ownerSet => exact .ofServices execOwnerSet_does
  | ident => exact .ofServices execIdent_does
  | setId => exact .ofServices execSetId_does
  | telem => exact .ofServices execTelem_does
  | power => exact .ofNone execPower_does
  | reset => exact .ofNone execReset_does
  | fault => exact .ofServices execFault_does
  | alertack => exact .ofServices execAlertack_does
  | milugOwnerSet => exact .ofServices execMilugOwnerSet_does
  | policyData => exact .ofServices execPolicyData_does
  | policyCommit => exact .ofServices execPolicyCommit_does
  | pairJoinReceive => exact .ofServices execPairJoinReceive_does
  | handoverReceive => exact .ofServices execHandoverReceive_does
  | powerCapCrossing => exact .ofServices execPowerCapCrossing_does
  | vstbyLoss => exact .ofNone execVstbyLoss_does

/-! ## What follows for every command and every step -/

theorem exec_chg {i : Instr} {s u : State} (h : exec i s = .next u) : ∃ P : Foot, Chg P s u ∧ P.pending = false := by
  obtain ⟨P, ⟨v, hv, hchg⟩, hqueue, -⟩ := exec_keeps i s
  cases hv.symm.trans h
  exact ⟨P, hchg, hqueue⟩

/-- Settles O2: every command has a footprint, and so a next state. -/
theorem everyCommandGoesOn : Obligations.EveryCommandGoesOn := by
  intro i s
  obtain ⟨-, ⟨u, hu, -⟩, -⟩ := exec_keeps i s
  exact ⟨u, hu⟩

/-- A step is a clock cycle, or the command at the front of the queue run on the rest; either keeps the data invariants. -/
theorem step_invariants {s t : State} (h : step s = .next t) : (MemInv s → MemInv t) ∧ (StoreInv s → StoreInv t) := by
  unfold step at h
  split at h
  next => cases h; exact ⟨tick_chg.mem, tick_chg.stores⟩
  next cs _ =>
    obtain ⟨P, hchg, -⟩ := exec_chg h
    have hrest : Chg { pending := true } s { s with pending := cs } := .plain
    exact ⟨hchg.mem ∘ hrest.mem, hchg.stores ∘ hrest.stores⟩

/-- Settles O3: the memories are kept by every operation (`Chg.mem`). -/
theorem stepKeepsMemories : Obligations.StepKeepsMemories := fun _ _ hs h => (step_invariants h).1 hs

/-- Settles O4: the stores are kept by every operation (`Chg.stores`). -/
theorem stepKeepsStores : Obligations.StepKeepsStores := fun _ _ hs h => (step_invariants h).2 hs

/-- A frame that names the footprint of a change, or says nothing, holds of it. -/
theorem Chg.frame {P : Foot} {s u : State} {f : State → State} (h : Chg P s u) (hf : (∀ v, f v = s.within P v) ∨ ∀ v, f v = v) :
    u = f u := by
  obtain hf | hf := hf
  · rw [hf]; exact h.same
  · rw [hf]

/-- Settles O57: the two frames are the footprints of the commands they speak of. -/
theorem tileAndPlanFrame : Obligations.TileAndPlanFrame := by
  constructor
  · intro i s u h
    obtain ⟨P, ⟨v, hv, hchg⟩, -, htiles, -⟩ := exec_keeps i s
    cases hv.symm.trans h
    exact hchg.frame htiles
  · intro i s u h
    obtain ⟨P, ⟨v, hv, hchg⟩, -, -, hplan, -⟩ := exec_keeps i s
    cases hv.symm.trans h
    exact hchg.frame hplan

/-- Settles O58: the two frames are the footprints of the commands they speak of. -/
theorem linkAndServiceFrame : Obligations.LinkAndServiceFrame := by
  constructor
  · intro i s u h
    obtain ⟨P, ⟨v, hv, hchg⟩, -, -, -, hlinks, -⟩ := exec_keeps i s
    cases hv.symm.trans h
    exact hchg.frame hlinks
  · intro i s u h
    obtain ⟨P, ⟨v, hv, hchg⟩, -, -, -, -, hservices⟩ := exec_keeps i s
    cases hv.symm.trans h
    exact hchg.frame hservices

/-! ## What a reset keeps -/

/-- The commands that can reset the module. -/
def CanReset (i : Instr) : Prop :=
  i ∈ [Instr.inputLowReset, .reset, .trialWindowExpiry, .vstbyLoss] ∨ (∃ c, i = .warmReset c) ∨ (∃ v a, i = .inputBoundaryCrossing v a) ∨
    (∃ n, i = .power n) ∨ (∃ io, i = .watchdogExpiry io) ∨ (∃ io, i = .controllerEccError io)

theorem canReset_does {i : Instr} (s : State) (h : CanReset i) : Does Foot.resets s (exec i s) := by
  obtain h | ⟨c, rfl⟩ | ⟨v, a, rfl⟩ | ⟨n, rfl⟩ | ⟨io, rfl⟩ | ⟨io, rfl⟩ := h
  · simp only [List.mem_cons, List.not_mem_nil, or_false] at h
    obtain rfl | rfl | rfl | rfl := h
    · exact execInputLowReset_does
    · exact execReset_does
    · exact execTrialWindowExpiry_does
    · exact execVstbyLoss_does
  · exact execWarmReset_does
  · exact execInputBoundaryCrossing_does
  · exact execPower_does
  · exact execWatchdogExpiry_does io
  · exact execControllerEccError_does io

/-- Settles O56: the queue lies in no footprint, and what a reset keeps lies not in that of the resets. -/
theorem queueAndFusesStay : Obligations.QueueAndFusesStay := by
  intro i s u h
  obtain ⟨P, hchg, hqueue⟩ := exec_chg h
  refine ⟨?_, fun hreset => ?_⟩
  · simpa only [State.within, hqueue, cond_false] using congrArg State.pending hchg.same
  · obtain ⟨v, hv, hkept⟩ := canReset_does s hreset
    cases hv.symm.trans h
    obtain ⟨hA, hB, hpolicy⟩ := hkept.slots rfl
    have hfuses : u.fuses = s.fuses := by rw [hkept.same]; rfl
    have hhost : u.hostMem = s.hostMem := by rw [hkept.same]; rfl
    exact ⟨hfuses, hhost, hA, hB, hpolicy⟩
end Sys2Proof.Machine
end

section
/-!
What a footprint leaves as it was: every part of the state outside it, and what is read from those parts.
-/
namespace Sys2Proof.Machine
set_option Elab.async false

namespace Chg

variable {P : Foot} {s u : State}

theorem pending_eq (h : Chg P s u) (hP : P.pending = false := by rfl) : u.pending = s.pending := by
  rw [h.same]; simp only [State.within, hP, cond_false]

theorem regs_eq (h : Chg P s u) (hP : P.regs = false := by rfl) : u.regs = s.regs := by
  rw [h.same]; simp only [State.within, hP, cond_false]

theorem reqs_eq (h : Chg P s u) (hP : P.reqs = false := by rfl) : u.reqs = s.reqs := by
  rw [h.same]; simp only [State.within, hP, cond_false]

theorem park_eq (h : Chg P s u) (hP : P.park = false := by rfl) : u.park = s.park := by
  rw [h.same]; simp only [State.within, hP, cond_false]

theorem hold_eq (h : Chg P s u) (hP : P.hold = false := by rfl) : u.hold = s.hold := by
  rw [h.same]; simp only [State.within, hP, cond_false]

theorem regions_eq (h : Chg P s u) (hP : P.regions = false := by rfl) : u.regions = s.regions := by
  rw [h.same]; simp only [State.within, hP, cond_false]

theorem tiles_eq (h : Chg P s u) (hP : P.tiles = false := by rfl) : u.tiles = s.tiles := by
  rw [h.same]; simp only [State.within, hP, cond_false]

theorem gals_eq (h : Chg P s u) (hP : P.gals = false := by rfl) : u.gals = s.gals := by
  rw [h.same]; simp only [State.within, hP, cond_false]

theorem mpkts_eq (h : Chg P s u) (hP : P.mpkts = false := by rfl) : u.mpkts = s.mpkts := by
  rw [h.same]; simp only [State.within, hP, cond_false]

theorem accs_eq (h : Chg P s u) (hP : P.accs = false := by rfl) : u.accs = s.accs := by
  rw [h.same]; simp only [State.within, hP, cond_false]

theorem chans_eq (h : Chg P s u) (hP : P.chans = false := by rfl) : u.chans = s.chans := by
  rw [h.same]; simp only [State.within, hP, cond_false]

theorem anx_eq (h : Chg P s u) (hP : P.anx = false := by rfl) : u.anx = s.anx := by
  rw [h.same]; simp only [State.within, hP, cond_false]

theorem ext_eq (h : Chg P s u) (hP : P.ext = false := by rfl) : u.ext = s.ext := by
  rw [h.same]; simp only [State.within, hP, cond_false]

theorem hostMem_eq (h : Chg P s u) (hP : P.hostMem = false := by rfl) : u.hostMem = s.hostMem := by
  rw [h.same]; simp only [State.within, hP, cond_false]

theorem dma_eq (h : Chg P s u) (hP : P.dma = false := by rfl) : u.dma = s.dma := by
  rw [h.same]; simp only [State.within, hP, cond_false]

theorem bankOut_eq (h : Chg P s u) (hP : P.bankOut = false := by rfl) : u.bankOut = s.bankOut := by
  rw [h.same]; simp only [State.within, hP, cond_false]

theorem fns_eq (h : Chg P s u) (hP : P.fns = false := by rfl) : u.fns = s.fns := by
  rw [h.same]; simp only [State.within, hP, cond_false]

theorem irqs_eq (h : Chg P s u) (hP : P.irqs = false := by rfl) : u.irqs = s.irqs := by
  rw [h.same]; simp only [State.within, hP, cond_false]

theorem img_eq (h : Chg P s u) (hP : P.img = false := by rfl) : u.img = s.img := by
  rw [h.same]; simp only [State.within, hP, cond_false]

theorem plans_eq (h : Chg P s u) (hP : P.plans = false := by rfl) : u.plans = s.plans := by
  rw [h.same]; simp only [State.within, hP, cond_false]

theorem links_eq (h : Chg P s u) (hP : P.links = false := by rfl) : u.links = s.links := by
  rw [h.same]; simp only [State.within, hP, cond_false]

theorem fab_eq (h : Chg P s u) (hP : P.fab = false := by rfl) : u.fab = s.fab := by
  rw [h.same]; simp only [State.within, hP, cond_false]

theorem engs_eq (h : Chg P s u) (hP : P.engs = false := by rfl) : u.engs = s.engs := by
  rw [h.same]; simp only [State.within, hP, cond_false]

theorem wts_eq (h : Chg P s u) (hP : P.wts = false := by rfl) : u.wts = s.wts := by
  rw [h.same]; simp only [State.within, hP, cond_false]

theorem mir_eq (h : Chg P s u) (hP : P.mir = false := by rfl) : u.mir = s.mir := by
  rw [h.same]; simp only [State.within, hP, cond_false]

theorem clk_eq (h : Chg P s u) (hP : P.clk = false := by rfl) : u.clk = s.clk := by
  rw [h.same]; simp only [State.within, hP, cond_false]

theorem pwr_eq (h : Chg P s u) (hP : P.pwr = false := by rfl) : u.pwr = s.pwr := by
  rw [h.same]; simp only [State.within, hP, cond_false]

theorem boot_eq (h : Chg P s u) (hP : P.boot = false := by rfl) : u.boot = s.boot := by
  rw [h.same]; simp only [State.within, hP, cond_false]

theorem milug_eq (h : Chg P s u) (hP : P.milug = false := by rfl) : u.milug = s.milug := by
  rw [h.same]; simp only [State.within, hP, cond_false]

theorem fuses_eq (h : Chg P s u) (hP : P.fuses = false := by rfl) : u.fuses = s.fuses := by
  rw [h.same]; simp only [State.within, hP, cond_false]

theorem occ_eq (h : Chg P s u) (hP : P.occ = false := by rfl) : u.occ = s.occ := by
  rw [h.same]; simp only [State.within, hP, cond_false]

theorem scanDue_eq (h : Chg P s u) (hP : P.scanDue = false := by rfl) : u.scanDue = s.scanDue := by
  rw [h.same]; simp only [State.within, hP, cond_false]

theorem written_eq (h : Chg P s u) (hP : P.written = false := by rfl) : u.written = s.written := by
  rw [h.same]; simp only [State.within, hP, cond_false]

theorem nextId_eq (h : Chg P s u) (hP : P.nextId = false := by rfl) : u.nextId = s.nextId := by
  rw [h.same]; simp only [State.within, hP, cond_false]

theorem freeCtr_eq (h : Chg P s u) (hP : P.freeCtr = false := by rfl) : u.freeCtr = s.freeCtr := by
  rw [h.same]; simp only [State.within, hP, cond_false]

theorem tile_eq (h : Chg P s u) (y : Nat) (hP : P.tiles = false := by rfl) : u.tile y = s.tile y := by
  rw [State.tile, h.tiles_eq hP, State.tile]

theorem region_eq (h : Chg P s u) (r : Nat) (hP : P.regions = false := by rfl) : u.region r = s.region r := by
  rw [State.region, h.regions_eq hP, State.region]

theorem gal_eq (h : Chg P s u) (g : Nat) (hP : P.gals = false := by rfl) : u.gal g = s.gal g := by
  rw [State.gal, h.gals_eq hP, State.gal]

theorem chan_eq (h : Chg P s u) (n : Nat) (hP : P.chans = false := by rfl) : u.chan n = s.chan n := by
  rw [State.chan, h.chans_eq hP, State.chan]

theorem func_eq (h : Chg P s u) (n : Nat) (hP : P.fns = false := by rfl) : u.func n = s.func n := by
  rw [State.func, h.fns_eq hP, State.func]

theorem link_eq (h : Chg P s u) (n : Nat) (hP : P.links = false := by rfl) : u.link n = s.link n := by
  rw [State.link, h.links_eq hP, State.link]

theorem eng_eq (h : Chg P s u) (n : Nat) (hP : P.engs = false := by rfl) : u.eng n = s.eng n := by
  rw [State.eng, h.engs_eq hP, State.eng]

theorem dmaCh_eq (h : Chg P s u) (n : Nat) (hP : P.dma = false := by rfl) : u.dmaCh n = s.dmaCh n := by
  rw [State.dmaCh, h.dma_eq hP, State.dmaCh]

/-- A register's value rests on the store, the held image and the fuses. -/
theorem reg_eq (h : Chg P s u) (k : RegKind) (i : Nat) (hr : P.regs = false := by rfl) (hi : P.img = false := by rfl)
    (hf : P.fuses = false := by rfl) : u.reg k i = s.reg k i := by
  simp only [State.reg, regReset, Fld.reset, h.regs_eq hr, h.img_eq hi, h.fuses_eq hf]

theorem fld_eq (h : Chg P s u) (f : Fld) (i : Nat) (hr : P.regs = false := by rfl) (hi : P.img = false := by rfl)
    (hf : P.fuses = false := by rfl) : u.fld f i = s.fld f i := by
  rw [State.fld, h.reg_eq _ _ hr hi hf, State.fld]

theorem sched_eq (h : Chg P s u) (hr : P.regs = false := by rfl) (hi : P.img = false := by rfl)
    (hf : P.fuses = false := by rfl) : u.sched = s.sched := h.reg_eq _ _ hr hi hf

theorem cnt_eq (h : Chg P s u) (hr : P.regs = false := by rfl) (hi : P.img = false := by rfl)
    (hf : P.fuses = false := by rfl) : u.cnt = s.cnt := h.reg_eq _ _ hr hi hf

end Chg

end Sys2Proof.Machine
end

section
/-!
Scratchpad accesses of one word: `sld`, `sst` and their forms through an address generator (R64, R97).
-/
namespace Sys2Proof.Machine
set_option Elab.async false

/-! ## Accesses of the scratchpad (R64, R97, R98) -/

/-- The full bits apart, an access leaves its tile as it was. -/
theorem Tile.mark_eq (t : Tile) (c : Nat) (h : Hnd) (wr : Bool) (sps : List Span) :
    ∃ f w a, t.mark c h wr sps = { t with full := f, fullWas := w, fullAt := a } := by
  unfold Tile.mark
  split
  · exact ⟨_, _, _, rfl⟩
  · exact ⟨_, _, _, rfl⟩

/-- Bytes written are stored, and nothing else. -/
theorem stored_wrBytes {m : List Host.Cell} (a : Nat) (bs : List Byte) (h : memWf m = true) : Stored m (wrBytes m a bs) a bs :=
  fun j => rdByte_wrBytes a j bs h

/-- An entry under which an access lies in bounds is no control handle's. -/
theorem viaControl_of_inBounds {c : Bool} {e : Hnd} {sp : Span} {o : Nat} (h : e.inBounds sp = true) : viaControl c e o = false := by
  simp only [Hnd.inBounds, Hnd.inRange, Bool.and_eq_true, bne_iff_ne] at h
  simp [viaControl, h.1.1.2]

section
variable {s : State} {y pc h : Nat} {e : Hnd}

/-- A read in bounds gives the bytes, and changes of its tile the full bits alone. -/
theorem State.spReadE_inBounds {sps : List Span} (hb : sps.all e.inBounds = true) :
    (s.spReadE y pc h e false sps).2 = sps.flatMap (fun sp => (s.tile y).bytesAt e sp) ∧
    ∃ f w a, (s.spReadE y pc h e false sps).1.tile y = { s.tile y with full := f, fullWas := w, fullAt := a } := by
  obtain ⟨f, w, a, hm⟩ := (s.tile y).mark_eq s.cnt e false sps
  simp only [State.spReadE, hb, Bool.not_false, Bool.and_self, if_true, true_and]
  exact ⟨f, w, a, by rw [State.occAdd_chg.tile_eq, State.modTile_same, hm]⟩

/-- Reading in bounds leaves the registers. -/
theorem State.reg_spReadE {sps : List Span} (hb : sps.all e.inBounds = true) (k : RegKind) (i : Nat) :
    (s.spReadE y pc h e false sps).1.reg k i = s.reg k i := by
  simp only [State.spReadE, hb, Bool.not_false, Bool.and_self, if_true]
  rw [State.occAdd_chg.reg_eq]
  simp

/-- A write in bounds stores the bytes, and changes of its tile the full bits beside. -/
theorem State.spWriteE_inBounds {off : Nat} {bs : List Byte} (hb : e.inBounds ⟨off, bs.length⟩ = true) :
    ∃ f w a, (s.spWriteE y pc h e false off bs).tile y =
      { s.tile y with scratch := wrBytes (s.tile y).scratch (e.base + off) bs, full := f, fullWas := w, fullAt := a } := by
  obtain ⟨f, w, a, hm⟩ := (s.tile y).mark_eq s.cnt e true [⟨off, bs.length⟩]
  simp only [State.spWriteE, hb, Bool.not_false, Bool.and_self, if_true]
  exact ⟨f, w, a, by rw [State.occAdd_chg.tile_eq, State.modTile_same, hm]⟩

end

/-! ## `sld`, `sst`, `sld.ag` and `sst.ag` (R64) -/

/-- A result's place behind those outstanding. -/
theorem State.result_outs (s : State) (y : Nat) {r : Nat} (v : Word) (l : Nat) (hr : r ≠ 0) :
    ((s.result y false r v l).tile y).outs = (s.tile y).outs ++ [⟨s.sched + l, false, r, v, false, 0⟩] := by
  simp [State.result, hr]

theorem State.result_scratch (s : State) (y : Nat) (p : Bool) (r : Nat) (v : Word) (l : Nat) :
    ((s.result y p r v l).tile y).scratch = (s.tile y).scratch := by
  unfold State.result
  split <;> simp

/-- A load made now, of a span in bounds. -/
theorem State.loadNow_inBounds {s : State} {y pc sd a : Nat} {e : Hnd} {acc : OwnAcc} {c : Bool} (hs : acc.space = false)
    (ha : acc.sps = [⟨a, 8⟩]) (hb : e.inBounds ⟨a, 8⟩ = true) :
    (sd ≠ 0 → ((s.loadNow y pc e acc c sd).tile y).outs = (s.tile y).outs ++
      [⟨s.sched + s.lat y .sload, false, sd, BitVec.ofNat 64 (leNat (rdBytes (s.tile y).scratch (e.base + a) 8)), false, 0⟩]) ∧
    ((s.loadNow y pc e acc c sd).tile y).scratch = (s.tile y).scratch := by
  have hall : [(⟨a, 8⟩ : Span)].all e.inBounds = true := by simpa using hb
  obtain ⟨hbytes, f, w, n, htile⟩ := State.spReadE_inBounds (s := s) (y := y) (pc := pc) (h := acc.h) hall
  have hword : s.loadWord y pc e acc c = ((s.spReadE y pc acc.h e false [⟨a, 8⟩]).1,
      BitVec.ofNat 64 (leNat (rdBytes (s.tile y).scratch (e.base + a) 8))) := by
    simp [State.loadWord, viaControl_of_inBounds hb, hs, ha, hbytes, Tile.bytesAt]
  have hsched : (s.spReadE y pc acc.h e false [⟨a, 8⟩]).1.sched = s.sched := State.reg_spReadE hall _ _
  refine ⟨fun hsd => ?_, ?_⟩
  · rw [State.loadNow, hword, State.result_outs _ _ _ _ hsd, htile, hsched]
  · rw [State.loadNow, hword, State.result_scratch, htile]

/-- A store made now, of a word in bounds. -/
theorem State.storeWord_inBounds {s : State} {y pc a : Nat} {e : Hnd} {acc : OwnAcc} {c : Bool} {v : Word} (hs : acc.space = false)
    (ha : acc.sps = [⟨a, 8⟩]) (hb : e.inBounds ⟨a, 8⟩ = true) (hm : memWf (s.tile y).scratch = true) :
    Stored (s.tile y).scratch ((s.storeWord y pc e acc c v).tile y).scratch (e.base + a) (leBytes 8 v.toNat) ∧
    ((s.storeWord y pc e acc c v).tile y).outs = (s.tile y).outs := by
  have hb8 : e.inBounds ⟨a, (leBytes 8 v.toNat).length⟩ = true := by rwa [leBytes_length]
  obtain ⟨f, w, n, htile⟩ := State.spWriteE_inBounds (s := s) (y := y) (pc := pc) (h := acc.h) hb8
  have hword : s.storeWord y pc e acc c v = s.spWriteE y pc acc.h e false a (leBytes 8 v.toNat) := by
    simp [State.storeWord, viaControl_of_inBounds hb, hs, ha]
  rw [hword, htile]
  exact ⟨stored_wrBytes _ _ hm, rfl⟩

section
variable {s : State} {y : Nat} {i : Instr} {a : OwnAcc}

theorem State.loadTo_deferred (c : Bool) (sd : Fin 32) (ha : s.ownAccs y i = [a]) (hd : s.deferred y = true) :
    s.loadTo y i c sd = s.pushReq y (s.sched + 1) 8 a (.load sd c) := by
  simp [State.loadTo, ha, hd]

theorem State.loadTo_now (c : Bool) (sd : Fin 32) (ha : s.ownAccs y i = [a]) (hd : s.deferred y = false) :
    s.loadTo y i c sd = s.loadNow y (s.tile y).issuePc (s.hnd y a.h) a c sd := by
  simp [State.loadTo, ha, hd]

theorem State.storeFrom_deferred (c : Bool) (ss : Fin 32) (ha : s.ownAccs y i = [a]) (hd : s.deferred y = true) :
    s.storeFrom y i c ss = s.pushReq y (s.sched + 1) 8 a (.store ((s.tile y).s ss) c) := by
  simp [State.storeFrom, ha, hd]

theorem State.storeFrom_now (c : Bool) (ss : Fin 32) (ha : s.ownAccs y i = [a]) (hd : s.deferred y = false) :
    s.storeFrom y i c ss = s.storeWord y (s.tile y).issuePc (s.hnd y a.h) a c ((s.tile y).s ss) := by
  simp [State.storeFrom, ha, hd]

end

/-- Settles O9: the four commands make one access of one word (`State.loadNow_inBounds`, `State.storeWord_inBounds`), or put it behind. -/
theorem scratchpadWords : Obligations.ScratchpadWords := by
  intro s t pr
  refine ⟨fun sd sa h off hact => ⟨fun hd => ?_, fun hd hb => ⟨_, State.slotOut_of_acts hact rfl, ?_⟩⟩,
    fun ss sa h off hact => ⟨fun hd => ?_, fun hd hb hm => ⟨_, State.slotOut_of_acts hact rfl, ?_⟩⟩,
    fun sd ag hact => ⟨fun hd => ?_, fun hd hsp hb => ⟨_, State.slotOut_of_acts hact rfl, ?_⟩⟩,
    fun ss ag hact => ⟨fun hd => ?_, fun hd hsp hb hm => ⟨_, State.slotOut_of_acts hact rfl, ?_⟩⟩⟩
  · exact (State.slotOut_of_acts hact rfl).trans (congrArg _ (State.loadTo_deferred _ _ rfl hd))
  · beta_reduce
    rw [State.loadTo_now _ _ rfl hd]
    exact State.loadNow_inBounds rfl rfl hb
  · exact (State.slotOut_of_acts hact rfl).trans (congrArg _ (State.storeFrom_deferred _ _ rfl hd))
  · beta_reduce
    rw [State.storeFrom_now _ _ rfl hd]
    exact State.storeWord_inBounds rfl rfl hb hm
  · exact (State.slotOut_of_acts hact rfl).trans (congrArg _ (State.loadTo_deferred _ _ rfl hd))
  · beta_reduce
    rw [State.loadTo_now _ _ rfl hd]
    exact State.loadNow_inBounds hsp rfl hb
  · exact (State.slotOut_of_acts hact rfl).trans (congrArg _ (State.storeFrom_deferred _ _ rfl hd))
  · beta_reduce
    rw [State.storeFrom_now _ _ rfl hd]
    exact State.storeWord_inBounds hsp rfl hb hm

end Sys2Proof.Machine
end

section
/-!
TRIPLE_ISSUE outside an invocation.
-/
namespace Sys2Proof.Machine
set_option Elab.async false

/-! ## A triple's slots and the generators they see (R56) -/

/-- A tile out of an invocation, its generators kept for the other slots of a triple of this cycle, behind another tile in a store
whose keys do not rise. -/
def outOfOrder : State :=
  { State.reset with tiles := [(1, {}), (0, { lastAt := 1, was := some (1, [(0, {})], []) })] }

/-- Refutes O11: a slot of a tile that is in no invocation changes nothing, while setting its generators back lists the tile a second
time where the store's keys do not rise, which the statement does not rule out. -/
theorem not_triplesIssue : ¬ Obligations.TriplesIssue := by
  rintro ⟨-, -, h⟩
  have hidle (v : State) (hv : v.canAct 0 = false) : exec (.mload ⟨0, 0⟩ 0 0 0 0) v = .next v :=
    congrArg _ (State.slotCmd_idle hv)
  obtain ⟨u, hu, hs⟩ := h outOfOrder (.mload ⟨0, 0⟩ 0 0 0 0) ⟨0, 0⟩ rfl rfl (by decide) (by decide)
  have hset : outOfOrder.setTile 0 ((outOfOrder.tile 0).before outOfOrder.sched) = u :=
    Host.Outcome.next.inj ((hidle _ (by decide)).symm.trans hu)
  have hlisted : outOfOrder.tiles.length = (u.modTile 0 fun U =>
      { U with gens := (outOfOrder.tile 0).gens, lvls := (outOfOrder.tile 0).lvls }).tiles.length :=
    congrArg (fun v : State => v.tiles.length) (Host.Outcome.next.inj ((hidle _ (by decide)).symm.trans hs))
  rw [← hset] at hlisted
  exact absurd hlisted (by decide)
end Sys2Proof.Machine
end

section
/-!
The matrix unit's three pipes, and accesses that wait for their cycle (R146 to R170).
-/
namespace Sys2Proof.Machine
set_option Elab.async false

/-! ## Accesses that wait for their cycle (R99, R162) -/

/-- A handle entry rests on the registers, the gates of the tile's banks and the handle writes to come. -/
theorem State.hnd_congr {s u : State} {y : Nat} (hr : ∀ k i, u.reg k i = s.reg k i) (hg : ∀ g, u.gal g = s.gal g)
    (hw : (u.tile y).hndw = (s.tile y).hndw) (hu : (u.tile y).ungate = (s.tile y).ungate)
    (hq : (u.tile y).gateReq = (s.tile y).gateReq) (n : Nat) : u.hnd y n = s.hnd y n := by
  have hs : u.sched = s.sched := hr _ _
  have hf (f : Fld) (i : Nat) : u.fld f i = s.fld f i := by rw [State.fld, hr, State.fld]
  simp only [State.hnd, State.hndRegs, State.gatedBanks, hr, hg, hw, hu, hq, hs, hf]

theorem State.hnd_pushReq (s : State) (y due prio : Nat) (a : OwnAcc) (j : AccUse) (n : Nat) :
    (s.pushReq y due prio a j).hnd y n = s.hnd y n :=
  State.hnd_congr (State.pushReq_chg.reg_eq · ·) (State.pushReq_chg.gal_eq ·) (by simp [State.pushReq]) (by simp [State.pushReq])
    (by simp [State.pushReq]) n

theorem State.hnd_modTile (s : State) (y : Nat) (f : Tile → Tile) (n : Nat) (hw : (f (s.tile y)).hndw = (s.tile y).hndw)
    (hu : (f (s.tile y)).ungate = (s.tile y).ungate) (hq : (f (s.tile y)).gateReq = (s.tile y).gateReq) :
    (s.modTile y f).hnd y n = s.hnd y n :=
  State.hnd_congr (s := s) (u := s.modTile y f) (fun _ _ => rfl) (fun _ => rfl) (by rw [State.modTile_same, hw]) (by rw [State.modTile_same, hu])
    (by rw [State.modTile_same, hq]) n

theorem State.pushReq_tile (s : State) (y due prio : Nat) (a : OwnAcc) (j : AccUse) : (s.pushReq y due prio a j).tile y =
    { s.tile y with bankq := (s.tile y).bankq ++ [⟨due, prio, a, s.hnd y a.h, (s.tile y).issuePc, j, none, 0⟩] } :=
  State.modTile_same ..

/-- Accesses put behind those that wait, in order. -/
theorem State.foldl_pushReq_tile {α : Type} (y p : Nat) (d : α → Nat) (acc : α → OwnAcc) (j : α → AccUse) (l : List α) (s : State) :
    (l.foldl (fun s a => s.pushReq y (d a) p (acc a) (j a)) s).tile y = { s.tile y with
      bankq := (s.tile y).bankq ++ l.map fun a =>
        ⟨d a, p, acc a, s.hnd y (acc a).h, (s.tile y).issuePc, j a, none, 0⟩ } := by
  induction l generalizing s with
  | nil => simp
  | cons a l ih => simp [List.foldl_cons, ih, State.hnd_pushReq, State.pushReq_tile]

/-- Accesses whose cycles are counted from the schedule cycle. -/
theorem State.foldl_pushReq_sched {α : Type} (y p c : Nat) (n : α → Nat) (acc : α → OwnAcc) (j : α → AccUse) (l : List α) (s : State) :
    l.foldl (fun s a => s.pushReq y (s.sched + c + n a) p (acc a) (j a)) s =
      l.foldl (fun v a => v.pushReq y (s.sched + c + n a) p (acc a) (j a)) s := by
  suffices h : ∀ (u : State), u.sched = s.sched → l.foldl (fun s a => s.pushReq y (s.sched + c + n a) p (acc a) (j a)) u =
      l.foldl (fun v a => v.pushReq y (s.sched + c + n a) p (acc a) (j a)) u from h s rfl
  induction l with
  | nil => exact fun _ _ => rfl
  | cons a l ih =>
    intro u hu
    rw [List.foldl_cons, List.foldl_cons, hu, ih _ (State.pushReq_chg.sched_eq.trans hu)]

theorem State.slotOut_as_issued {s : State} {t : Xy} {i : Instr} {eff supp : State → State} (h : s.slotActs t i = true)
    (hs : (s.tile (tIx t)).before s.sched = s.tile (tIx t)) : s.slotOut t i eff supp = .next (eff s) := by
  rw [State.slotOut_acts h, State.asIssued_same hs]

theorem State.foldl_pushReq_reads {α : Type} (y p : Nat) (d : α → Nat) (acc : α → OwnAcc) (j : α → AccUse) (l : List α) (s : State) :
    (l.foldl (fun s a => s.pushReq y (d a) p (acc a) (j a)) s).sched = s.sched ∧
    (l.foldl (fun s a => s.pushReq y (d a) p (acc a) (j a)) s).fns = s.fns ∧
    (l.foldl (fun s a => s.pushReq y (d a) p (acc a) (j a)) s).isB0 = s.isB0 := by
  have h : Chg { tiles := true } s (l.foldl (fun s a => s.pushReq y (d a) p (acc a) (j a)) s) :=
    .foldl (fun _ _ => .via .refl State.pushReq_chg) _ .refl
  exact ⟨h.sched_eq, h.fns_eq, by rw [State.isB0, h.fuses_eq, State.isB0]⟩

/-- A list of the first numbers, numbered. -/
theorem zipIdx_map_range {α : Type} (f : Nat → α) (n : Nat) : ((List.range n).map f).zipIdx = (List.range n).map fun k => (f k, k) := by
  apply List.ext_getElem
  · simp
  · intro i _ _
    simp

/-! ## The three pipes (R162 to R170) -/

/-- The rows an operation reaches are recorded beside what it does to its tile. -/
theorem State.markRows_fields (s : State) (y : Nat) (i : Instr) :
    ((s.markRows y i).tile y).accq = (s.tile y).accq ∧ ((s.markRows y i).tile y).muls = (s.tile y).muls ∧
    ((s.markRows y i).tile y).streamFree = (s.tile y).streamFree ∧ ((s.markRows y i).tile y).drainFree = (s.tile y).drainFree ∧
    ((s.markRows y i).tile y).drains = (s.tile y).drains ∧ ((s.markRows y i).tile y).chainAt = (s.tile y).chainAt ∧
    (s.markRows y i).fns = s.fns := by
  simp [State.markRows]

/-- Settles O12: each operation puts its accesses behind those that wait (`State.foldl_pushReq_tile`) and marks its pipe. -/
theorem matrixPipes : Obligations.MatrixPipes := by
  refine ⟨fun s t pr b ag hs => ⟨fun f hact => ⟨_, State.slotOut_as_issued hact hs, ?mload⟩,
      fun hact hmx => ⟨_, State.slotOut_as_issued hact hs, ?mscl⟩⟩,
    fun s t pr => ⟨fun f hs hact hcls => ⟨_, State.slotOut_as_issued hact hs, ?mmul⟩,
      fun set r0 n hact => ⟨_, State.slotOut_of_acts hact rfl, ?mzero⟩, fun f d hs hact => ⟨_, State.slotOut_as_issued hact hs, ?mdrain⟩,
      fun f hs hact => ⟨_, State.slotOut_as_issued hact hs, ?mdrainv⟩⟩⟩
  case mload =>
    simp only [State.loadBusy, State.modTile_same, State.foldl_pushReq_sched, State.foldl_pushReq_tile, State.foldl_pushReq_reads,
      State.modTile_reads, mget_mput_same, State.hnd_modTile, Tile.mloadAccs, zipIdx_map_range, List.map_map, Function.comp_def]
    exact ⟨trivial, trivial, trivial, trivial, by omega, rfl⟩
  case mscl =>
    have hsched : (s.pushReq (tIx t) (s.sched + 1) 0 ((s.tile (tIx t)).agAcc ag false [⟨(s.tile (tIx t)).agAddr ag, 128⟩]) (.scales b)).sched =
        s.sched := State.pushReq_chg.sched_eq
    simp only [hmx, decide_true, if_true, State.loadBusy, State.modTile_same, State.pushReq_tile, mget_mput_same, hsched]
    exact ⟨trivial, trivial, trivial, rfl⟩
  case mmul =>
    simp only [hcls, if_true, State.streamBusy, State.markRows_fields, State.modTile_same, State.modTile_fields, State.modTile_reads,
      State.queueAcc, State.foldl_pushReq_sched, State.foldl_pushReq_tile, State.foldl_pushReq_reads, and_self]
  case mzero =>
    simp only [State.drainBusy, State.queueAcc, State.markRows_fields, State.modTile_same, State.modTile_reads, and_self]
  case mdrain =>
    simp only [State.drainBusy, State.queueAcc, State.startDrain, State.drainLat, State.lat, State.markRows_fields, State.modTile_same,
      State.modTile_reads, State.foldl_pushReq_sched, State.foldl_pushReq_tile, State.foldl_pushReq_reads, List.drop_left, List.map_map,
      Function.comp_def, true_and]
    exact List.map_congr_left fun r _ => by simp only [Prod.mk.injEq, and_true, true_and]; omega
  case mdrainv =>
    simp only [State.drainBusy, State.queueAcc, State.startDrain, State.chainEntry, State.markRows_fields, State.drainLat, State.lat,
      State.isB0, State.modTile_same, State.modTile_fields, State.modTile_reads, List.drop_left, List.map_map, Function.comp_def, true_and]
    exact ⟨by omega, List.map_congr_left fun r _ => by simp only [Prod.mk.injEq, and_true, true_and]; omega⟩

end Sys2Proof.Machine
end

section
/-!
Accumulator accesses, drained rows and chains (R152 to R204).
-/
namespace Sys2Proof.Machine
set_option Elab.async false

/-! ## Accumulator accesses (R152, R156, R157, R162, R163) -/

/-- An accumulator row set. -/
def Tile.putAcc (t : Tile) (k : Nat) (a : AccRow) : Tile := { t with accs := mput t.accs k a }

/-- What one access does to its tile. -/
def Tile.accNext (t : Tile) (q : AccAcc) : Tile :=
  let k := 64 * q.set + q.row
  let a := mget t.accs k {}
  match q.kind with
  | .zero => t.putAcc k {}
  | .poison cls => t.putAcc k { a with poison := true, cls := if a.started then a.cls else cls }
  | .leaf op r =>
    match t.mulOf op with
    | some m => { t.putAcc k (a.leaf t.locm m.cls m.kidx (m.leaves r)).1 with
        muls := if r = m.f.rcnt.val then t.muls.filter fun x => x.op != op else t.muls }
    | none => t
  | .read op r node part clr =>
    { t.putAcc k (if clr then {} else a) with
      drains := t.drains.map fun d => if d.op = op ∧ d.r = r then { d with vals := some (a.drainVals t.locm part node) } else d }

theorem State.accApply_tile (s : State) (y : Nat) (q : AccAcc) : (s.accApply y q).tile y = (s.tile y).accNext q := by
  unfold State.accApply Tile.accNext
  cases q.kind with
  | zero => simp [Tile.putAcc]
  | poison cls => simp [Tile.putAcc]
  | leaf op r =>
    dsimp only
    cases (s.tile y).mulOf op with
    | none => rfl
    | some m =>
      dsimp only
      split_ifs <;> simp [Tile.putAcc, State.mxFault_chg.tile_eq]
  | read op r node part clr =>
    dsimp only
    split_ifs <;> simp [Tile.putAcc, State.lossSeen_chg.tile_eq]

/-- The accesses due enter once what each needs has been read. -/
theorem State.settleAcc_ready {s : State} {y : Nat} (h : ((s.tile y).accq.filter fun a => decide (a.due ≤ s.sched)).all (s.tile y).accReady = true) :
    s.settleAcc y = ((s.tile y).accq.filter fun a => decide (a.due ≤ s.sched)).foldl (fun s a => s.accApply y a)
      (s.setTile y { s.tile y with accq := (s.tile y).accq.filter fun a => !decide (a.due ≤ s.sched) }) := by
  unfold State.settleAcc
  rw [if_pos h]
  rfl

theorem mget_mput_ne_all {α : Type} (m : SMap α) (k : Nat) (v d : α) : ∀ j, j ≠ k → mget (mput m k v) j d = mget m j d :=
  fun _ h => mget_mput_ne m v d h

/-- The first part of `RowsAndChains`. -/
theorem leafEnter_settles (s : State) (t : Xy) (hheld : s.held = false)
    (h : ((s.tile (tIx t)).accq.filter fun a => decide (a.due ≤ s.sched)).all (s.tile (tIx t)).accReady = true) :
    exec (.leafEnter t) s = .next (((s.tile (tIx t)).accq.filter fun a => decide (a.due ≤ s.sched)).foldl (fun s a => s.accApply (tIx t) a)
      (s.setTile (tIx t) { s.tile (tIx t) with accq := (s.tile (tIx t)).accq.filter fun a => !decide (a.due ≤ s.sched) })) := by
  have hexec : exec (.leafEnter t) s = .next (s.settleAcc (tIx t)) := by simp [exec, execLeafEnter, hheld]
  rw [hexec, State.settleAcc_ready h]

/-! ## Drained rows (R167) -/

/-- A write that does not land leaves its tile. -/
theorem State.spWriteE_fault {s : State} {y pc h : Nat} {e : Hnd} {space : Bool} {off : Nat} {bs : List Byte}
    (hn : ¬(space = false ∧ e.inBounds ⟨off, bs.length⟩ = true)) : (s.spWriteE y pc h e space off bs).tile y = s.tile y := by
  have hc : ¬((!space && e.inBounds ⟨off, bs.length⟩) = true) := by simpa using hn
  rw [State.spWriteE, if_neg hc, State.boundsFault_chg.tile_eq]

/-- A write that lands or not stores its bytes or nothing, and of the rest of its tile changes the full bits alone. -/
theorem State.spWriteE_tile (s : State) (y pc h : Nat) (e : Hnd) (space : Bool) (off : Nat) (bs : List Byte)
    (hm : memWf (s.tile y).scratch = true) :
    ∃ m f w a, (s.spWriteE y pc h e space off bs).tile y = { s.tile y with scratch := m, full := f, fullWas := w, fullAt := a } ∧
      if space = false ∧ e.inBounds ⟨off, bs.length⟩ = true then Stored (s.tile y).scratch m (e.base + off) bs
      else m = (s.tile y).scratch := by
  by_cases hb : space = false ∧ e.inBounds ⟨off, bs.length⟩ = true
  · obtain ⟨f, w, a, ht⟩ := State.spWriteE_inBounds (s := s) (y := y) (pc := pc) (h := h) hb.2
    exact ⟨_, f, w, a, hb.1 ▸ ht, by rw [if_pos hb]; exact stored_wrBytes _ _ hm⟩
  · exact ⟨(s.tile y).scratch, _, _, _, State.spWriteE_fault hb, by rw [if_neg hb]⟩

theorem flatMap_leBytes_length (k : Nat) {α : Type} (f : α → Nat) (l : List α) : (l.flatMap fun x => leBytes k (f x)).length = k * l.length := by
  simp [List.length_flatMap, Nat.mul_comm]

/-! ## Chains (R181 to R187, R200, R204) -/

theorem State.foldl_pushReq_hnd {α : Type} (y p : Nat) (d : α → Nat) (acc : α → OwnAcc) (j : α → AccUse) (l : List α) (s : State)
    (n : Nat) : (l.foldl (fun s a => s.pushReq y (d a) p (acc a) (j a)) s).hnd y n = s.hnd y n := by
  induction l generalizing s with
  | nil => rfl
  | cons a l ih => rw [List.foldl_cons, ih, State.hnd_pushReq]

/-- A chain's fault leaves the latencies. -/
theorem State.lat_vFault (s : State) (y code pc : Nat) (u : LatUnit) : (s.vFault y code pc).lat y u = s.lat y u := by
  simp only [State.lat, State.isB0, State.vFault_chg.tile_eq, State.vFault_chg.fuses_eq]

/-- A new identity leaves the tiles. -/
theorem State.tile_nextId (s : State) (n y : Nat) : ({ s with nextId := n } : State).tile y = s.tile y := rfl

theorem State.modTile_nextId (s : State) (y : Nat) (f : Tile → Tile) : (s.modTile y f).nextId = s.nextId := rfl

theorem State.lat_nextId (s : State) (n y : Nat) (u : LatUnit) : ({ s with nextId := n } : State).lat y u = s.lat y u := rfl

/-- What a latency rests on. -/
theorem State.lat_modTile (s : State) (y : Nat) (f : Tile → Tile) (u : LatUnit) (h : (f (s.tile y)).padw = (s.tile y).padw) :
    (s.modTile y f).lat y u = s.lat y u := by
  simp only [State.lat, State.modTile_same, h]
  rfl

theorem State.lat_foldl_pushReq {α : Type} (y p : Nat) (d : α → Nat) (acc : α → OwnAcc) (j : α → AccUse) (l : List α) (s : State) (u : LatUnit) :
    (l.foldl (fun s a => s.pushReq y (d a) p (acc a) (j a)) s).lat y u = s.lat y u := by
  simp only [State.lat, State.foldl_pushReq_tile, State.foldl_pushReq_reads]

/-! ## A chain's rows (R184 to R187, R200, R204) -/

/-- Bytes written where a mask has them. -/
def wrMasked (m : List Host.Cell) (a n : Nat) (bs : List (Option Byte)) : List Host.Cell :=
  (bs.zipIdx n).foldl (fun m b => match b.1 with
    | some v => wrByte m (a + b.2) v
    | none => m) m

/-- What a byte reads after a masked write. -/
theorem rdByte_wrMasked (a : Nat) (bs : List (Option Byte)) (n : Nat) (m : List Host.Cell) (j : Nat) (h : memWf m = true) :
    rdByte (wrMasked m a n bs) j = if a + n ≤ j then (bs.getD (j - (a + n)) none).getD (rdByte m j) else rdByte m j := by
  induction bs generalizing n m with
  | nil => simp [wrMasked]
  | cons b bs ih =>
    have hnext : wrMasked m a n (b :: bs) = wrMasked (b.elim m (wrByte m (a + n))) a (n + 1) bs := by cases b <;> rfl
    have hwf : memWf (b.elim m (wrByte m (a + n))) = true := by
      cases b with
      | none => exact h
      | some v => exact memWf_wrByte _ _ h
    have hbyte : rdByte (b.elim m (wrByte m (a + n))) j = if j = a + n then b.getD (rdByte m j) else rdByte m j := by
      cases b with
      | none => simp
      | some v => exact rdByte_wrByte _ _ _ h
    rw [hnext, ih _ _ hwf, hbyte]
    rcases Nat.lt_trichotomy j (a + n) with hj | rfl | hj
    · rw [if_neg (by omega), if_neg (by omega), if_neg (by omega)]
    · simp
    · obtain ⟨d, rfl⟩ : ∃ d, j = a + (n + 1) + d := ⟨j - (a + (n + 1)), by omega⟩
      have h1 : a + (n + 1) + d - (a + n) = d + 1 := by omega
      have h2 : a + (n + 1) + d - (a + (n + 1)) = d := by omega
      have h3 : a + (n + 1) + d ≠ a + n := by omega
      rw [if_pos (by omega), if_neg h3, if_pos (by omega), h1, h2, List.getD_cons_succ]

/-- Which bytes a mask lets through. -/
theorem maskBytes_getD (w : Nat) (bs : List Byte) (mask : List Bool) (i : Nat) :
    (maskBytes w bs mask).getD i none = if i < bs.length ∧ mask.getD (i / (w / 8)) false = true then some (bs.getD i 0) else none := by
  by_cases hi : i < bs.length
  · simp [maskBytes, List.getD, hi]
  · simp [maskBytes, List.getD, hi]

theorem maskBytes_length (w : Nat) (bs : List Byte) (mask : List Bool) : (maskBytes w bs mask).length = bs.length := by
  simp [maskBytes]

theorem packRow_length (w : Nat) (l : List Lane) : (packRow w l).length = 8 * w := leBytes_length ..

/-- A masked write in bounds writes the bytes its mask has, and of the rest of its tile changes the full bits alone. -/
theorem State.spWriteMasked_inBounds {s : State} {y pc h : Nat} {e : Hnd} {off : Nat} {bs : List (Option Byte)}
    (hb : e.inBounds ⟨off, bs.length⟩ = true) :
    ∃ f w a, (s.spWriteMasked y pc h e false off bs).tile y =
      { s.tile y with scratch := wrMasked (s.tile y).scratch (e.base + off) 0 bs, full := f, fullWas := w, fullAt := a } := by
  obtain ⟨f, w, a, hm⟩ := (s.tile y).mark_eq s.cnt e true [⟨off, bs.length⟩]
  simp only [State.spWriteMasked, hb, Bool.not_false, Bool.and_self, if_true]
  exact ⟨f, w, a, by rw [State.occAdd_chg.tile_eq, State.modTile_same, hm]; rfl⟩

theorem State.spWriteMasked_fault {s : State} {y pc h : Nat} {e : Hnd} {space : Bool} {off : Nat} {bs : List (Option Byte)}
    (hn : ¬(space = false ∧ e.inBounds ⟨off, bs.length⟩ = true)) : (s.spWriteMasked y pc h e space off bs).tile y = s.tile y := by
  have hc : ¬((!space && e.inBounds ⟨off, bs.length⟩) = true) := by simpa using hn
  rw [State.spWriteMasked, if_neg hc, State.boundsFault_chg.tile_eq]

/-- What a chain run keeps of a row done. -/
theorem Tile.runDone_fields (t : Tile) (c : Nat) (u : VRunSt) (v : VRow) (n : Nat) :
    (t.runDone c u v n).scratch = t.scratch ∧ (t.runDone c u v n).vregs = t.vregs ∧
    (t.runDone c u v n).vrows = t.vrows.filter fun x => !(x.run == v.run && x.r == v.r) := by
  unfold Tile.runDone
  split <;> simp

theorem Tile.runDone_last {t : Tile} {c : Nat} {u : VRunSt} {v : VRow} {n : Nat} (h : v.last = true) :
    (t.runDone c u v n).vruns = (t.vruns.filter fun x => x.id != u.id) ∧ (t.runDone c u v n).outs = t.outs.map fun o =>
      if o.run = u.id then { o with run := 0, due := c + 1, val := BitVec.ofNat 64 (u.count + n) } else o := by
  simp [Tile.runDone, h]

theorem Tile.runDone_more {t : Tile} {c : Nat} {u : VRunSt} {v : VRow} {n : Nat} (h : v.last = false) :
    (t.runDone c u v n).vruns = (t.vruns.map fun x => if x.id = u.id then { x with count := x.count + n } else x) ∧
    (t.runDone c u v n).outs = t.outs := by
  simp [Tile.runDone, h]

/-! ### An access that enters (R152, R156, R157, R162, R163) -/

theorem execLeafEnter_one {s : State} {t : Xy} {q : AccAcc} :
    let y := tIx t
    let T := s.tile y
    let now := T.accq.filter fun a => decide (a.due ≤ s.sched)
    let later := T.accq.filter fun a => !decide (a.due ≤ s.sched)
    s.held = false → now.all T.accReady = true → now = [q] →
      let k := 64 * q.set + q.row
      let a := mget T.accs k {}
      Yields (.leafEnter t) s fun u =>
        let U := u.tile y
        let other : Prop := ∀ j, j ≠ k → mget U.accs j {} = mget T.accs j {}
        U.accq = later ∧
        (q.kind = .zero → mget U.accs k {} = {} ∧ U.drains = T.drains ∧ other) ∧
        (∀ cls, q.kind = .poison cls →
          mget U.accs k {} = { a with poison := true, cls := if a.started then a.cls else cls } ∧ U.drains = T.drains ∧ other) ∧
        (∀ op r m, q.kind = .leaf op r → T.mulOf op = some m →
          mget U.accs k {} = (a.leaf T.locm m.cls m.kidx (m.leaves r)).1 ∧
          U.muls = (if r = m.f.rcnt.val then T.muls.filter fun x => x.op != op else T.muls) ∧ U.drains = T.drains ∧ other) ∧
        (∀ op r node part clr, q.kind = .read op r node part clr →
          mget U.accs k {} = (if clr then {} else a) ∧ U.muls = T.muls ∧ other ∧
          U.drains = T.drains.map fun d =>
            if d.op = op ∧ d.r = r then { d with vals := some (a.drainVals T.locm part node) } else d) := by
  dsimp only
  intro hheld hready hq
  refine ⟨_, leafEnter_settles s t hheld hready, ?_⟩
  rw [hq]
  simp only [List.foldl_cons, List.foldl_nil, State.accApply_tile, State.setTile_same]
  refine ⟨?_, fun hk => ?_, fun cls hk => ?_, fun op r m hk hm => ?_, fun op r node part clr hk => ?_⟩
  · unfold Tile.accNext
    cases hk : q.kind with
    | leaf op r =>
      dsimp only
      split <;> rfl
    | _ => rfl
  · simp only [Tile.accNext, hk, Tile.putAcc, mget_mput_same]
    exact ⟨trivial, trivial, mget_mput_ne_all _ _ _ _⟩
  · simp only [Tile.accNext, hk, Tile.putAcc, mget_mput_same]
    exact ⟨trivial, trivial, mget_mput_ne_all _ _ _ _⟩
  · have hm' : Tile.mulOf { s.tile (tIx t) with accq := (s.tile (tIx t)).accq.filter fun a => !decide (a.due ≤ s.sched) } op = some m := hm
    simp only [Tile.accNext, hk, hm', Tile.putAcc, mget_mput_same]
    exact ⟨trivial, trivial, trivial, mget_mput_ne_all _ _ _ _⟩
  · simp only [Tile.accNext, hk, Tile.putAcc, mget_mput_same]
    exact ⟨trivial, trivial, mget_mput_ne_all _ _ _ _, trivial⟩

/-! ### Drained rows (R167) -/

section Drain
variable {s : State} {t : Xy} {d : DrainRow} {vals : List Lane} (hheld : s.held = false)
  (hfind : (((s.settleAcc (tIx t)).tile (tIx t)).drains.find? fun d => decide (d.due ≤ (s.settleAcc (tIx t)).sched)) = some d)
  (hvals : d.vals = some vals)
include hheld hfind hvals

theorem execDrainRowWrite_queued {e : Hnd} (he : d.hnd = some e) (hq : ((s.settleAcc (tIx t)).tile (tIx t)).queued (.drain d.op d.r) = true) :
    exec (.drainRowWrite t) s = .next (s.settleAcc (tIx t)) := by
  simp [exec, execDrainRowWrite, hheld, hfind, hvals, he, hq]

theorem execDrainRowWrite_handle {e : Hnd} (he : d.hnd = some e) :
    let y := tIx t
    let T := (s.settleAcc y).tile y
    T.queued (.drain d.op d.r) = false → memWf T.scratch = true →
    Yields (.drainRowWrite t) s fun v =>
      (v.tile y).drains = (T.drains.filter fun x => !(x.op == d.op && x.r == d.r)) ∧
      if d.space = false ∧ e.inBounds ⟨d.off, 4 * vals.length⟩ = true
      then Stored T.scratch (v.tile y).scratch (e.base + d.off) (vals.flatMap fun x => leBytes 4 x.toNat)
      else (v.tile y).scratch = T.scratch := by
  dsimp only
  intro hq hm
  refine ⟨_, rfl, ?_⟩
  simp only [hheld, hfind, hvals, he, hq, Bool.false_eq_true, if_false]
  obtain ⟨m, f, w, a, ht, hif⟩ := State.spWriteE_tile ((s.settleAcc (tIx t)).modTile (tIx t) fun t =>
      { t with drains := t.drains.filter fun e => !(e.op == d.op && e.r == d.r) }) (tIx t) d.pc d.handle e d.space d.off
    (vals.flatMap fun v => leBytes 4 v.toNat) (by simpa using hm)
  rw [flatMap_leBytes_length] at hif
  rw [ht]
  simp only [State.modTile_same] at hif ⊢
  exact ⟨trivial, hif⟩

theorem execDrainRowWrite_chain (he : d.hnd = none) :
    let y := tIx t
    let T := (s.settleAcc y).tile y
    Yields (.drainRowWrite t) s fun v =>
      (v.tile y).drains = (T.drains.filter fun x => !(x.op == d.op && x.r == d.r)) ∧ (v.tile y).scratch = T.scratch ∧
      (v.tile y).vrows = T.vrows.map fun x =>
        if x.r = d.r ∧ x.lanes = none ∧ (T.vruns.any fun n => n.id == x.run && n.chainOp == d.op)
        then { x with lanes := some vals } else x := by
  refine ⟨_, rfl, ?_⟩
  simp only [hheld, hfind, hvals, he, Bool.false_eq_true, if_false, State.modTile_same]
  simp

end Drain

/-! ### Rows of a chain (R187, R200, R204) -/

theorem execVrunRowWrite_eq {s : State} {t : Xy} {v : VRow} {x : VRunSt} {lanes aux : List Lane} :
    let y := tIx t
    let T := (s.tile y).enterRows s.sched
    let r := x.row lanes aux
    let w := ewBits x.f.ow
    let bs := packRow w r.lanes
    let a := x.outHnd.base + x.outOff + 8 * w * v.r
    let lands : Prop := x.outSpace = false ∧ x.outHnd.inBounds ⟨x.outOff + 8 * w * v.r, 8 * w⟩ = true
    s.held = false → (T.vrows.find? fun v => decide (v.due ≤ s.sched)) = some v → v.lanes = some lanes → v.aux = some aux →
    (T.vruns.find? fun u => u.id == v.run) = some x → T.queued (.sink x.id v.r) = false → memWf T.scratch = true →
      Yields (.vrunRowWrite t) s fun u =>
        let U := u.tile y
        U.vrows = (T.vrows.filter fun z => !(z.run == v.run && z.r == v.r)) ∧
        (v.last = true → U.vruns = (T.vruns.filter fun z => z.id != x.id) ∧
          U.outs = T.outs.map fun o =>
            if o.run = x.id then { o with run := 0, due := s.sched + 1, val := BitVec.ofNat 64 (x.count + r.count) } else o) ∧
        (v.last = false → U.outs = T.outs ∧
          U.vruns = T.vruns.map fun z => if z.id = x.id then { z with count := z.count + r.count } else z) ∧
        (x.f.sink.val ≠ 0 → U.scratch = T.scratch) ∧ (x.f.sink.val ≠ 1 → U.vregs = T.vregs) ∧
        (x.f.sink.val = 0 → ¬lands → U.scratch = T.scratch) ∧
        (x.f.sink.val = 0 → x.f.mskw = false → lands → Stored T.scratch U.scratch a bs) ∧
        (x.f.sink.val = 0 → x.f.mskw = true → lands →
          ∀ b, rdByte U.scratch b =
            if a ≤ b ∧ b < a + 8 * w ∧ r.mask.getD ((b - a) / (w / 8)) false = true then bs.getD (b - a) 0 else rdByte T.scratch b) ∧
        (x.f.sink.val = 1 →
          U.vregs = (T.setVreg (x.f.out + v.r) r.lanes (if x.f.mskw then r.mask else List.replicate 64 true)).vregs) := by
  dsimp only
  intro hheld hfind hl ha hrun hq hm
  refine ⟨_, rfl, ?_⟩
  simp only [hheld, hfind, hl, ha, hrun, hq, Bool.false_eq_true, if_false, State.modTile_same, State.modTile_reads]
  generalize hv : ((State.modTile _ _ fun t => t.runDone s.sched x v (x.row lanes aux).count).satAdd F.tilVstat_sats _ _).satAdd
    F.tilVstat_nancvt _ _ = w
  have hw : w.tile (tIx t) = ((s.tile (tIx t)).enterRows s.sched).runDone s.sched x v (x.row lanes aux).count := by
    rw [← hv, Chg.satAdd.tile_eq, Chg.satAdd.tile_eq, State.modTile_same, State.modTile_same]
  generalize hT : (s.tile (tIx t)).enterRows s.sched = T at *
  obtain ⟨hscr, hvr, hrows⟩ := T.runDone_fields s.sched x v (x.row lanes aux).count
  have hlast := T.runDone_last (c := s.sched) (u := x) (v := v) (n := (x.row lanes aux).count)
  have hmore := T.runDone_more (c := s.sched) (u := x) (v := v) (n := (x.row lanes aux).count)
  by_cases h0 : x.f.sink.val = 0
  · rw [if_pos h0]
    by_cases hk : x.f.mskw = true
    · rw [if_pos hk]
      by_cases hp : x.outSpace = false ∧ x.outHnd.inBounds ⟨x.outOff + 8 * ewBits x.f.ow * v.r, 8 * ewBits x.f.ow⟩ = true
      · obtain ⟨f, w', a, ht⟩ := State.spWriteMasked_inBounds (s := w) (y := tIx t) (pc := x.pc) (h := x.outHandle) (e := x.outHnd)
          (off := x.outOff + 8 * ewBits x.f.ow * v.r)
          (bs := maskBytes (ewBits x.f.ow) (packRow (ewBits x.f.ow) (x.row lanes aux).lanes) (x.row lanes aux).mask)
          (by rw [maskBytes_length, packRow_length]; exact hp.2)
        rw [hp.1, ht, hw]
        refine ⟨hrows, hlast, fun hl => (hmore hl).symm, fun h => absurd h0 h, fun _ => hvr, fun _ hn => absurd ⟨rfl, hp.2⟩ hn,
          fun _ h => absurd h (by simp [hk]), fun _ _ _ b => ?_, fun h => by omega⟩
        rw [hscr, rdByte_wrMasked _ _ _ _ _ hm, maskBytes_getD, packRow_length, Nat.add_zero, ← Nat.add_assoc]
        by_cases hb : x.outHnd.base + x.outOff + 8 * ewBits x.f.ow * v.r ≤ b
        · have hlt : b - (x.outHnd.base + x.outOff + 8 * ewBits x.f.ow * v.r) < 8 * ewBits x.f.ow ↔
              b < x.outHnd.base + x.outOff + 8 * ewBits x.f.ow * v.r + 8 * ewBits x.f.ow := by omega
          simp only [hb, hlt, if_true, true_and]
          split <;> rfl
        · simp only [hb, if_false, false_and]
      · rw [State.spWriteMasked_fault (by rwa [maskBytes_length, packRow_length]), hw]
        exact ⟨hrows, hlast, fun hl => (hmore hl).symm, fun h => absurd h0 h, fun _ => hvr, fun _ _ => hscr, fun _ _ h => absurd h hp,
          fun _ _ h => absurd h hp, fun h => by omega⟩
    · rw [if_neg hk]
      obtain ⟨m, f, w', a, ht, hif⟩ := State.spWriteE_tile w (tIx t) x.pc x.outHandle x.outHnd x.outSpace
        (x.outOff + 8 * ewBits x.f.ow * v.r) (packRow (ewBits x.f.ow) (x.row lanes aux).lanes) (by rwa [hw, hscr])
      rw [packRow_length, hw, hscr] at hif
      rw [ht, hw]
      refine ⟨hrows, hlast, fun hl => (hmore hl).symm, fun h => absurd h0 h, fun _ => hvr, fun _ hn => ?_, fun _ _ hp => ?_,
        fun _ h => absurd h hk, fun h => ?_⟩
      · rwa [if_neg hn] at hif
      · rwa [if_pos hp, ← Nat.add_assoc] at hif
      · omega
  · rw [if_neg h0]
    by_cases h1 : x.f.sink.val = 1
    · rw [if_pos h1, State.modTile_same, hw]
      refine ⟨hrows, hlast, fun hl => (hmore hl).symm, fun _ => hscr, fun h => absurd h1 h, fun h => absurd h h0, fun h => absurd h h0,
        fun h => absurd h h0, fun _ => ?_⟩
      simp only [Tile.setVreg, hvr]
    · rw [if_neg h1, hw]
      exact ⟨hrows, hlast, fun hl => (hmore hl).symm, fun _ => hscr, fun _ => hvr, fun h => absurd h h0, fun h => absurd h h0,
        fun h => absurd h h0, fun h => absurd h h1⟩

theorem execVdef_eq {s : State} {t : Xy} {pr : Fin 16} {chain stage : Fin 8} {word : BitVec 46}
    (hact : s.slotActs t (.vdef t pr chain stage word) = true) :
    exec (.vdef t pr chain stage word) s =
      .next (s.setTile (tIx t) { s.tile (tIx t) with chains := mput (s.tile (tIx t)).chains (8 * chain + stage) word }) :=
  State.slotOut_of_acts hact rfl

theorem execVrun_eq {s : State} {t : Xy} {pr : Fin 16} {f : VrunF} :
    let y := tIx t
    let T := s.tile y
    T.before s.sched = T → s.slotActs t (.vrun t pr f) = true →
      let id := s.nextId + 1
      let e0 := s.vrunEntry y (.vrun t pr f) (.vrun t pr f)
      let w0 := e0 + (f.nstg * s.lat y .vstage + 1)
      let rows := List.range (f.rcnt + 1)
      let rb := 8 * ewBits f.ow
      let req (due prio : Nat) (a : OwnAcc) (j : AccUse) : BankReq := ⟨due, prio, a, s.hnd y a.h, T.issuePc, j, none, 0⟩
      Yields (.vrun t pr f) s fun u =>
        let U := u.tile y
        U.vrows = T.vrows ++ rows.map (fun r =>
          { due := w0 + r, run := id, r := r, lanes := none, aux := if f.auxen then none else some (List.replicate 64 0),
            last := r == f.rcnt.val, enters := e0 + r, reg := if f.src.val = 4 then some (f.inp + r) else none }) ∧
        U.bankq = T.bankq ++ (T.vsrcAccs f).map (fun a => req (e0 + a.1) 6 a.2 (.src id a.1)) ++
          ((T.auxAccs f).zipIdx).map (fun a => req (e0 + a.2) 7 a.1 (.aux id a.2)) ++
          (if f.sink.val = 0 then rows.map fun r =>
            req (w0 + r) 5 (T.agAcc f.out true [⟨T.agAddr f.out + rb * r, rb⟩]) (.sink id r) else []) ∧
        (U.vruns.drop T.vruns.length).map (fun v => (v.id, v.words, v.f)) = [(id, limitStages false false false (T.stages f), f)] ∧
        U.outs = T.outs ++ (if f.sc.val = 0 then [] else [⟨w0 + f.rcnt + 1, false, f.sc, 0, false, id⟩]) ∧
        U.vlastIn = e0 + f.rcnt + 1 ∧ U.vlastOut = w0 + f.rcnt + 1 ∧ u.nextId = id := by
  dsimp only
  intro hs hact
  refine ⟨_, State.slotOut_as_issued hact hs, ?_⟩
  by_cases hk : f.sink.val = 0 <;> by_cases hl : limitStages false false false ((s.tile (tIx t)).stages f) = (s.tile (tIx t)).stages f
  all_goals
    simp only [hk, hl, if_true, if_false, State.vrunBusy, State.vrunLat, State.modTile_same, State.modTile_nextId,
      State.vFault_chg.tile_eq, State.vFault_chg.nextId_eq, State.lat_vFault, State.tile_nextId, State.lat_nextId,
      State.lat_modTile, State.lat_foldl_pushReq, State.foldl_pushReq_tile, State.foldl_pushReq_hnd,
      Tile.agAcc, List.append_nil, List.drop_left, List.map_cons, List.map_nil, true_and, and_self, and_true]
    split <;> simp

/-- Settles O14: the accesses due enter in order (`State.accApply_tile`), a drained row and a chain's row are written through their
handles (`State.spWriteE_tile`, `State.spWriteMasked_inBounds`), and a chain run puts its accesses behind those that wait. -/
theorem rowsAndChains : Obligations.RowsAndChains := by
  refine ⟨fun s t => ?leaf, fun s t d vals => ?drain, fun s t pr => ⟨fun _ _ _ => execVdef_eq, fun f => execVrun_eq⟩,
    fun s t v x lanes aux => execVrunRowWrite_eq⟩
  case leaf =>
    exact fun hheld hready => ⟨leafEnter_settles s t hheld hready, fun q => execLeafEnter_one hheld hready⟩
  case drain =>
    exact fun hheld hfind hvals => ⟨fun e he => ⟨execDrainRowWrite_queued hheld hfind hvals he, execDrainRowWrite_handle hheld hfind hvals he⟩,
      execDrainRowWrite_chain hheld hfind hvals⟩

end Sys2Proof.Machine
end

section
/-!
Mesh operations: what they read, the packets they send and the faults they record (R117 to R128).
-/
namespace Sys2Proof.Machine
set_option Elab.async false

/-! ## Mesh operations (R117 to R128) -/

/-- What a mesh operation reads of a line in bounds, and what of the state it leaves. -/
theorem State.meshRead_line {s : State} {y : Nat} {i : Instr} {a : OwnAcc} {sp : Span} (ha : s.ownAccs y i = [a]) (hs : a.space = false)
    (hsp : a.sps = [sp]) (hb : (s.hnd y a.h).inBounds sp = true) :
    (s.meshRead y i).2 = rdBytes (s.tile y).scratch ((s.hnd y a.h).base + sp.off) sp.len ∧
    (∃ f w n, (s.meshRead y i).1.tile y = { s.tile y with full := f, fullWas := w, fullAt := n }) ∧
    (s.meshRead y i).1.sched = s.sched := by
  have hall : [sp].all (s.hnd y a.h).inBounds = true := by simpa using hb
  obtain ⟨hbytes, htile⟩ := State.spReadE_inBounds (s := s) (y := y) (pc := (s.tile y).issuePc) (h := a.h) hall
  have hread : s.meshRead y i = s.spReadE y (s.tile y).issuePc a.h (s.hnd y a.h) false [sp] := by
    simp [State.meshRead, ha, State.readAll, State.accRead, State.spRead, hs, hsp]
  rw [hread]
  exact ⟨by simp [hbytes, Tile.bytesAt], htile, State.reg_spReadE hall _ _⟩

/-- What a packet sent changes. -/
theorem State.newPkt_eq (s : State) (p : MPkt) : (s.newPkt p).mpkts = s.mpkts ++ [{ p with id := s.nextId }] ∧
    (s.newPkt p).nextId = s.nextId + 1 ∧ (∀ y, (s.newPkt p).tile y = s.tile y) := ⟨rfl, rfl, fun _ => rfl⟩

/-- A map's entry set, for one key and for every other. -/
theorem mget_mput_ite {α : Type} (m : SMap α) (k : Nat) (v d : α) (j : Nat) : mget (mput m k v) j d = if j = k then v else mget m j d := by
  split
  · next h => rw [h, mget_mput_same]
  · next h => exact mget_mput_ne m v d h

/-- A credit taken. -/
theorem mget_take (m : SMap Nat) (k j : Nat) : mget (mput m k (mget m k 8 - 1)) j 8 = mget m j 8 - (if j = k then 1 else 0) := by
  rw [mget_mput_ite]
  split
  · next h => rw [h]
  · rfl

/-- Registers of two kinds and one index lie apart. -/
theorem regKey_ne_of_code {k k' : RegKind} (i : Nat) (h : k'.code ≠ k.code) : regKey k' i ≠ regKey k i := by
  unfold regKey
  omega

/-- What a fault of the scratchpad or the mesh records (R98). -/
theorem State.spFaultReg_fields (s : State) (y kind h pc off : Nat) :
    (s.spFaultReg y kind h pc off).fld F.tilSpfault_kind y = kind % 2 ^ 4 ∧ (s.spFaultReg y kind h pc off).fld F.tilSpfault_sticky y = 1 ∧
    (s.spFaultReg y kind h pc off).fld F.tilSpfault_offset y = off % 2 ^ 21 := by
  have hne (g : Fld) (hg : g.kind = .tilSpfault) : regKey g.kind y ≠ regKey F.tilSpcnt_faults.kind y := by
    rw [hg]
    exact regKey_ne_of_code y (by decide)
  simp only [State.spFaultReg, State.satAdd]
  refine ⟨?_, ?_, ?_⟩ <;> rw [State.fld_setFld_ne _ _ (hne _ rfl)]
  · rw [State.fld_setFld_apart, State.fld_setFld_apart, State.fld_setFld_apart, State.fld_setFld_apart, State.fld_setFld_same]
    · rfl
    all_goals decide
  · rw [State.fld_setFld_apart, State.fld_setFld_same]
    all_goals decide
  · rw [State.fld_setFld_same]
    · rfl
    all_goals decide

/-- Settles O15: a line in bounds is read as it stands (`State.meshRead_line`), its packet is put last with a credit taken, and a fault
records its kind and offset (`State.spFaultReg_fields`). -/
theorem meshSendsAndFaults : Obligations.MeshSendsAndFaults := by
  refine ⟨fun s t pr => ?sends, fun s t pr => ?faults⟩
  case sends =>
    dsimp only
    intro hs
    refine ⟨fun sa src dst dh k hact hr hk hy => ⟨_, State.slotOut_as_issued hact hs, ?cput⟩,
      fun dir src dst dh kind z hact hr hk => ⟨_, State.slotOut_as_issued hact hs, ?nput⟩,
      fun f hact hw => (State.slotOut_as_issued hact hs).trans (congrArg _ ?wget),
      fun f hact hw hr => ⟨_, State.slotOut_as_issued hact hs, ?wput⟩⟩
    case cput =>
      obtain ⟨hbytes, ⟨f, w, n, htile⟩, hsched⟩ := State.meshRead_line (s := s) (y := tIx t) (i := .cput t pr sa src dst dh) rfl hr.1 rfl hr.2
      have hc : bits ((s.tile (tIx t)).s sa).toNat 15 0 = ((s.tile (tIx t)).s sa).toNat % 65536 := by simp [bits]
      simp only [hc, hk, hy, if_true, State.newPkt_eq, State.modTile_fields, State.modTile_same, State.meshRead_chg.mpkts_eq,
        State.meshRead_chg.nextId_eq, hbytes, hsched, htile, mget_take]
      exact ⟨rfl, trivial, trivial, trivial, fun _ => trivial⟩
    case nput =>
      obtain ⟨hbytes, ⟨f, w, n, htile⟩, hsched⟩ := State.meshRead_line (s := s) (y := tIx t) (i := .nput t pr dir src dst dh) rfl hr.1 rfl hr.2
      obtain ⟨rfl, hk⟩ | ⟨rfl, hk⟩ := hk
      all_goals
        simp only [hk, State.newPkt_eq, State.modTile_fields, State.modTile_same, State.meshRead_chg.mpkts_eq,
          State.meshRead_chg.nextId_eq, hbytes, hsched, htile, mget_take]
        exact ⟨rfl, trivial, trivial, trivial, fun _ => trivial⟩
    case wget =>
      have hne : (tIx t != tIx ((s.tile (tIx t)).winTarget f)) = true := by
        simp only [State.windowOk, Bool.and_eq_true, bne_iff_ne] at hw
        simpa using fun h => hw.1.1.1 h.symm
      simp only [hw, if_true, State.enterPkt, State.newPkt, hne, Bool.true_and]
    case wput =>
      obtain ⟨hbytes, ⟨f', w, n, htile⟩, hsched⟩ := State.meshRead_line (s := s) (y := tIx t) (i := .wput t pr f) rfl hr.1 rfl hr.2
      have hne : (tIx t != tIx ((s.tile (tIx t)).winTarget f)) = true := by
        simp only [State.windowOk, Bool.and_eq_true, bne_iff_ne] at hw
        simpa using fun h => hw.1.1.1 h.symm
      simp only [hw, if_true, State.enterPkt, State.newPkt_eq, hne, Bool.true_and, State.portFull, State.portQueue,
        State.meshRead_chg.mpkts_eq, State.meshRead_chg.nextId_eq, hbytes, hsched, htile]
      exact ⟨rfl, trivial, trivial⟩
  case faults =>
    dsimp only
    intro hs
    refine ⟨fun sa src dst dh hact hk => (State.slotOut_as_issued hact hs).trans (congrArg _ ?cput),
      fun dir src dst dh hact hk => (State.slotOut_as_issued hact hs).trans (congrArg _ ?nput),
      fun f hact hw => (State.slotOut_as_issued hact hs).trans (congrArg _ ?wput),
      fun f hact hw => ⟨_, State.slotOut_as_issued hact hs, ?wget⟩, fun pc h off => ?fault⟩
    case cput =>
      have hc : bits ((s.tile (tIx t)).s sa).toNat 15 0 = ((s.tile (tIx t)).s sa).toNat % 65536 := by simp [bits]
      simp only [hc]
      cases hcirc : s.circuit (((s.tile (tIx t)).s sa).toNat % 65536) with
      | none => rfl
      | some k => exact if_neg (hk k hcirc)
    case nput => simp only [hk]
    case wput => simp only [hw, Bool.false_eq_true, if_false]
    case wget =>
      simp only [hw, Bool.false_eq_true, if_false, State.newPkt_eq, State.meshFault_chg.mpkts_eq]
      exact ⟨_, rfl, rfl, rfl, rfl, rfl, rfl⟩
    case fault =>
      obtain ⟨hkind, hsticky, hoff⟩ := (s.event 0x0213 0 (tIx t) []).spFaultReg_fields (tIx t) 4 h pc off
      exact ⟨hkind, hsticky, hoff, State.meshFault_chg.mpkts_eq, State.meshFault_chg.tiles_eq⟩

end Sys2Proof.Machine
end

section
/-!
Packets on their way: departures, landings, credits and answers (R99, R112 to R127).
-/
namespace Sys2Proof.Machine
set_option Elab.async false

/-! ## Packets on their way (R99, R112 to R127) -/

/-- A packet found has the number it is asked for. -/
theorem State.pkt_id {s : State} {n : Nat} {p : MPkt} (h : s.pkt n = some p) : p.id = n := by
  simpa using List.find?_some h

/-- An access whose banks are free is served whole in its cycle (R99). -/
theorem State.bufServe_ready {s : State} {y n : Nat} {a : OwnAcc} {taken : List Nat} (h : s.bufferReady y n a taken = true) :
    ∃ t, s.bufServe y n a taken = (t, some (s.hnd y a.h)) ∧ Chg { tiles := true } s t ∧
      (t.tile y).scratch = (s.tile y).scratch := by
  simp only [State.bufferReady, Bool.and_eq_true, Bool.not_eq_true', List.any_eq_false] at h
  obtain ⟨⟨hq, hw⟩, hserve⟩ := h
  have hfind : (s.tile y).bufq.find? (fun x => x.id == n) = none := by simpa using hq
  have hleft : (serveWords (a.banks (s.hnd y a.h)) (taken ++ s.banksUsed y)).2 = [] := by simpa [State.accBanks] using hserve
  simp only [State.accWaits] at hw
  refine ⟨s.setBuf y ((a.banks (s.hnd y a.h)).filter fun b => !(taken ++ s.banksUsed y).contains b) (s.tile y).bufq, ?_,
    State.setBuf_chg, by simp [State.setBuf]⟩
  simp only [State.bufServe, State.bufServeE, hfind, hleft, hw]
  cases a.banks (s.hnd y a.h) <;> simp

/-- A packet's line that lands: it is stored, and then the packet is marked. -/
theorem State.landAt_ready {s : State} {p : MPkt} {h off : Nat} {done : State → State} (ho : s.ownServed p.dst = true)
    (hr : s.bufferReady p.dst p.id ⟨h, false, true, [⟨off, 64⟩]⟩ (s.landTaken p) = true) (hlen : p.data.length = 64)
    (hb : (s.hnd p.dst h).inBounds ⟨off, 64⟩ = true) (hm : memWf (s.tile p.dst).scratch = true) :
    ∃ t, s.landAt p h off false done = done t ∧ t.mpkts = s.mpkts ∧ t.sched = s.sched ∧
      Stored (s.tile p.dst).scratch (t.tile p.dst).scratch ((s.hnd p.dst h).base + off) p.data := by
  obtain ⟨t, hserve, hchg, hscr⟩ := State.bufServe_ready hr
  have hb' : (s.hnd p.dst h).inBounds ⟨off, p.data.length⟩ = true := by rwa [hlen]
  obtain ⟨f, w', n, ht⟩ := State.spWriteE_inBounds (s := t) (y := p.dst) (pc := p.pc) (h := h) hb'
  refine ⟨t.spWriteE p.dst p.pc h (s.hnd p.dst h) false off p.data, by simp only [State.landAt, ho, if_true, landAcc, hserve], State.spWriteE_chg.mpkts_eq.trans hchg.mpkts_eq, ?_, ?_⟩
  · simp only [State.spWriteE, hb', Bool.not_false, Bool.and_self, if_true]
    simp only [State.occAdd_chg.sched_eq, State.modTile_reads, hchg.sched_eq]
  · rw [ht, hscr]
    exact stored_wrBytes _ _ hm

/-- Only a place on the mesh has a neighbour. -/
theorem tIx_lt_of_farEnd {s : State} {y z : Nat} {d : Dir} (h : s.farEnd y d = .tile z) : y < 2 ^ 32 := by
  have hmesh (u : Xy) (hu : s.inMesh u = true) : u.y < 48 := by simpa [State.inMesh] using (Bool.and_eq_true_iff.mp hu).2
  cases d <;> simp only [State.farEnd] at h <;> split_ifs at h
  all_goals
    have hy := hmesh _ (by assumption)
    simp only [xyOf] at hy
    omega

/-- A register outside those of its own is as it was before an event. -/
theorem State.reg_event (s : State) (code kind idx : Nat) (items : List (Nat × Nat)) {k : RegKind} {i : Nat}
    (h : regKey k i ≠ regKey .hstEvstat 0) : (s.event code kind idx items).reg k i = s.reg k i := by
  simp only [State.event, State.eventTo, State.satAdd]
  split_ifs
  · exact (State.modFunc_reads ..).1 k i
  · exact (State.modFunc_reads ..).1 k i
  · rw [State.reg_setFld_ne (f := F.hstEvstat_lost) _ _ h]
    exact (State.modFunc_reads ..).1 k i

theorem State.reg_spFaultReg (s : State) (y kind h pc off : Nat) {k : RegKind} {i : Nat} (hf : regKey k i ≠ regKey .tilSpfault y)
    (hc : regKey k i ≠ regKey .tilSpcnt y) : (s.spFaultReg y kind h pc off).reg k i = s.reg k i := by
  simp only [State.spFaultReg, State.satAdd]
  rw [State.reg_setFld_ne (f := F.tilSpcnt_faults) _ _ hc, State.reg_setFld_ne (f := F.tilSpfault_offset) _ _ hf,
    State.reg_setFld_ne (f := F.tilSpfault_sticky) _ _ hf, State.reg_setFld_ne (f := F.tilSpfault_pc) _ _ hf,
    State.reg_setFld_ne (f := F.tilSpfault_handle) _ _ hf, State.reg_setFld_ne (f := F.tilSpfault_kind) _ _ hf]

theorem State.sched_meetingFault {s : State} {y : Nat} (hy : y < 2 ^ 32) (p : MPkt) : (s.meetingFault y p).sched = s.sched := by
  rw [State.sched, State.meetingFault, State.reg_spFaultReg, State.reg_event]
  · rfl
  · exact regKey_ne_of_code 0 (by decide)
  · exact regKey_ne hy (by decide) (.inl (by decide))
  · exact regKey_ne hy (by decide) (.inl (by decide))

/-- Settles O16: a landing whose access is ready is served and stored in its cycle (`State.landAt_ready`). -/
theorem packetsMove : Obligations.PacketsMove := by
  intro s n p hheld hp
  dsimp only
  obtain rfl := State.pkt_id hp
  refine ⟨fun hd hi => ⟨fun c hk hc hslot => ⟨_, rfl, ?circuit⟩, fun hk hw hc => ⟨_, rfl, ?port⟩⟩,
    fun ha hlen => ⟨fun hk hnow hb hm => ⟨_, rfl, ?keep⟩, fun h off hk hnow hb hm => ⟨_, rfl, ?drop⟩, fun hk hq hf => ⟨_, rfl, ?egress⟩⟩,
    fun l hl hc => ⟨_, rfl, ?credit⟩, fun hk ha hr hnow hb => ⟨_, rfl, ?read⟩,
    fun t dir z hw hu hz hn hf => ⟨_, rfl, ?hop⟩⟩
  case circuit =>
    have hchg {v : State} (l : List (Nat × Dir)) : Chg { occ := true } v (l.foldl (fun s q => s.occAdd 1 (portUnit q.1 q.2) 1) v) :=
      .foldl (fun _ _ => .via .refl State.occAdd_chg) _ .refl
    simp only [hp, hheld, hd, Option.isSome_none, Bool.or_self, Bool.false_or, decide_eq_true_eq, Nat.not_le.mpr hi, if_false,
      State.depart, hk, hc, hslot, if_true, (hchg _).mpkts_eq, State.modPkt]
  case port =>
    obtain hk | hk := hk
    all_goals
      simp only [hp, hheld, hd, Option.isSome_none, Bool.or_self, Bool.false_or, decide_eq_true_eq, Nat.not_le.mpr hi, if_false,
        State.depart, hk, hw, hc, Bool.false_eq_true, List.foldl_cons, List.foldl_nil, State.occAdd_chg.mpkts_eq, State.modPkt, State.hopPad]
  case keep =>
    obtain ⟨t, hland, hmp, hsched, hst⟩ := State.landAt_ready (done := fun s => s.modPkt p.id fun q => { q with landed := some s.sched })
      hnow.1 hnow.2 hlen hb hm
    obtain hk | hk := hk
    all_goals
      simp only [hp, hheld, ha, Bool.not_true, Bool.or_self, Bool.false_eq_true, if_false, State.landPkt, hk, hland]
      exact ⟨hst, by simp only [State.modPkt, hmp, hsched]⟩
  case drop =>
    obtain ⟨t, hland, hmp, -, hst⟩ := State.landAt_ready (done := fun s => s.dropPkt p.id) hnow.1 hnow.2 hlen hb hm
    obtain ⟨hk, rfl, rfl⟩ | ⟨hk, hs, rfl, rfl⟩ | ⟨hk, hr, rfl, rfl⟩ := hk
    · simp only [hp, hheld, ha, Bool.not_true, Bool.or_self, Bool.false_eq_true, if_false, State.landPkt, hk, hland]
      exact ⟨hst, by simp only [State.dropPkt, hmp]⟩
    · simp only [hp, hheld, ha, Bool.not_true, Bool.or_self, Bool.false_eq_true, if_false, State.landPkt, hk, hs, hland]
      exact ⟨hst, by simp only [State.dropPkt, hmp]⟩
    · simp only [hp, hheld, ha, Bool.not_true, Bool.or_self, Bool.false_eq_true, if_false, State.landPkt, State.pktAcc, hk, hr,
        Bool.or_true, if_true, Option.isSome_some, hland]
      exact ⟨hst, by simp only [State.dropPkt, hmp]⟩
  case egress =>
    simp only [hp, hheld, ha, Bool.not_true, Bool.or_self, Bool.false_eq_true, if_false, State.landPkt, State.egressUnit, hk, hq, hf,
      and_self, if_true]
    exact ⟨by simp [State.modPkt, State.modFdie, State.fdie], rfl⟩
  case credit =>
    simp only [hp, hl, hheld, decide_eq_true_eq, Nat.not_lt.mpr hc, decide_false, Bool.or_self, Bool.false_eq_true, if_false]
    have htile : ∀ (v : State) y, (v.dropPkt p.id).tile y = v.tile y := fun _ _ => rfl
    refine ⟨rfl, ?_, ?_⟩
    · by_cases hk : p.kind = .circuit <;> simp [htile, hk]
    · rw [htile, State.modTile_same]
      split <;> rfl
  case read =>
    obtain ⟨t, hserve, hchg, hscr⟩ := State.bufServe_ready hnow.2
    obtain ⟨hbytes, f, w, m, htile⟩ := State.spReadE_inBounds (s := t) (y := p.dst) (pc := p.pc) (h := p.handle) (e := s.hnd p.dst p.handle)
      (sps := [⟨p.off, 64⟩]) (by simpa using hb)
    have hsched := State.reg_spReadE (s := t) (y := p.dst) (pc := p.pc) (h := p.handle) (e := s.hnd p.dst p.handle)
      (sps := [⟨p.off, 64⟩]) (by simpa using hb) .ptcSched 0
    simp only [hp, hheld, ha, Bool.not_true, Bool.or_self, Bool.false_eq_true, if_false, hk, ne_eq, not_true_eq_false, reduceCtorEq,
      State.pktAcc, hr, Bool.or_true, if_true, hnow.1, hserve, State.windowReply]
    refine ⟨?_, ?_⟩
    · refine Eq.trans (b := (State.tile (State.spReadE _ _ _ _ _ _ _).1 _).scratch) rfl ?_
      rw [htile, hscr]
    · rw [hbytes]
      simp only [State.modPkt, State.portFull, State.portQueue, State.spReadE_chg.mpkts_eq, hchg.mpkts_eq, Tile.bytesAt, hscr,
        List.flatMap_cons, List.flatMap_nil, List.append_nil]
      have hs : t.sched = s.sched := hchg.sched_eq
      rw [show (State.spReadE _ _ _ _ _ _ _).1.sched = t.sched from hsched, hs]
      rfl
  case hop =>
    have hmp {v : State} (h : v.mpkts = s.mpkts) (hs : v.sched = s.sched) : (if v.nextPlace p z = true then
        ((v.hopPkt p dir z).settleQueue (tIx t) dir).occAdd 2 (portUnit (tIx t) dir) 1 else v).mpkts =
        (({ s with mpkts := s.mpkts.map fun q => if q.id = p.id then
          { q with at_ := z, since := s.sched, hops := q.hops + 1, dir := dir, via := portUnit q.at_ dir,
                   depart := some (q.depart.getD s.sched), land := s.sched + (if q.kind = .winReq then 8 else 9) } else q } : State).settleQueue
          (tIx t) dir).mpkts := by
      have hnext : v.nextPlace p z = true := by rw [← hn, State.nextPlace, State.nextPlace, State.portQueue, h]; rfl
      rw [if_pos hnext, State.occAdd_chg.mpkts_eq]
      simp only [State.settleQueue, State.portQueue, State.hopPkt, State.modPkt, h, hs]
      rfl
    simp only [hf, hz, hheld, hw, hu, Bool.not_true, Bool.or_self, Bool.false_eq_true, if_false]
    refine hmp ?_ ?_ <;> split
    · exact State.meetingFault_chg.mpkts_eq
    · rfl
    · exact State.sched_meetingFault (tIx_lt_of_farEnd hz) p
    · rfl

end Sys2Proof.Machine
end

section
/-!
Queue operations, and the service, effect and landing of their accesses (R216 to R228, R279 to R283).
-/
namespace Sys2Proof.Machine
set_option Elab.async false

/-! ## Queue operations (R216 to R226) -/

/-- The region's space rests on the registers, the image and the fuses. -/
theorem Chg.inRegionSpace_eq {P : Foot} {s u : State} (h : Chg P s u) (a n : Nat) (hr : P.regs = false := by rfl)
    (hi : P.img = false := by rfl) (hf : P.fuses = false := by rfl) : u.inRegionSpace a n = s.inRegionSpace a n := by
  simp only [State.inRegionSpace, State.mapped, State.planArea, State.gddrSize, State.annexUp, State.annexSize, h.img_eq hi, h.fuses_eq hf,
    h.fld_eq _ _ hr hi hf]
  rfl

/-- The request of a triple that has issued is dropped from its gallery's list: no bank wakes by that. -/
theorem State.hnd_takeAsked (s : State) (y z n : Nat) : (s.takeAsked z).hnd y n = s.hnd y n := by
  have hawake (g : Nat) : ((s.takeAsked z).gal g).awake = (s.gal g).awake := by
    by_cases hg : g = galOf (xyOf z)
    · subst hg; simp [State.takeAsked]
    · simp [State.takeAsked, State.modGal_ne _ _ _ hg]
  simp only [State.hnd, State.hndRegs, State.gatedBanks, hawake, State.takeAsked_chg.tile_eq, State.takeAsked_chg.reg_eq,
    State.takeAsked_chg.fld_eq, State.takeAsked_chg.sched_eq]

theorem State.queueOk_takeAsked (s : State) (y z : Nat) (f : QueueF) : (s.takeAsked z).queueOk y f = s.queueOk y f := by
  simp only [State.queueOk, State.takeAsked_chg.tile_eq, State.takeAsked_chg.inRegionSpace_eq, State.hnd_takeAsked]

theorem State.queueAccess_takeAsked (s : State) (y z : Nat) (f : QueueF) (w : Bool) :
    (s.takeAsked z).queueAccess y f w = s.queueAccess y f w := by
  simp only [State.queueAccess, State.takeAsked_chg.tile_eq, State.hnd_takeAsked, State.takeAsked_chg.sched_eq,
    State.takeAsked_chg.nextId_eq, State.regionOf, State.galRec, State.takeAsked_chg.img_eq]

/-- What a queue operation does: its access joins those of the queue, faulted where it is refused (R216, R217). -/
theorem State.queueOp_eq (s : State) (y : Nat) (f : QueueF) (w : Bool) :
    (s.queueOp y f w).accs = s.accs ++ [if s.queueOk y f then s.queueAccess y f w else { s.queueAccess y f w with faulted := true }] ∧
    (s.queueOp y f w).nextId = s.nextId + 1 := by
  simp only [State.queueOp, State.queueOk_takeAsked, State.queueAccess_takeAsked]
  cases s.queueOk y f with
  | true =>
    simp only [if_true]
    split <;> simp [State.pushAcc, State.event_chg.accs_eq, State.event_chg.nextId_eq, State.takeAsked_chg.accs_eq, State.takeAsked_chg.nextId_eq]
  | false => simp [State.pushAcc, State.event_chg.accs_eq, State.event_chg.nextId_eq, State.takeAsked_chg.accs_eq, State.takeAsked_chg.nextId_eq]

/-- A fold of accesses whose numbers and cycles are read at each step. -/
theorem State.foldl_pushReq_source {α : Type} (y p c : Nat) (n : α → Nat) (acc : α → OwnAcc) (k : α → Nat) (l : List α) (s : State) :
    l.foldl (fun s a => s.pushReq y (s.sched + c + n a) p (acc a) (.source s.nextId (k a))) s =
      l.foldl (fun v a => v.pushReq y (s.sched + c + n a) p (acc a) (.source s.nextId (k a))) s := by
  suffices h : ∀ (u : State), u.sched = s.sched → u.nextId = s.nextId →
      l.foldl (fun s a => s.pushReq y (s.sched + c + n a) p (acc a) (.source s.nextId (k a))) u =
      l.foldl (fun v a => v.pushReq y (s.sched + c + n a) p (acc a) (.source s.nextId (k a))) u from h s rfl rfl
  induction l with
  | nil => exact fun _ _ _ => rfl
  | cons a l ih =>
    intro u hu hn
    rw [List.foldl_cons, List.foldl_cons, hu, hn, ih _ (State.pushReq_chg.sched_eq.trans hu) (State.pushReq_chg.nextId_eq.trans hn)]

/-- The accesses of a write's source join those that wait for their banks. -/
theorem State.sourceBanks_tile (s : State) (y : Nat) (f : QueueF) (h : s.queueOk y f = true) : (s.sourceBanks y f).tile y =
    { s.tile y with bankq := (s.tile y).bankq ++ (List.range (2 ^ f.size.val)).map fun k =>
      ⟨s.sched + 1 + k, 4, ⟨((s.tile y).gen f.agLoc).handle, false, false, [⟨(s.tile y).agAddr f.agLoc + 512 * k, 512⟩]⟩,
        s.hnd y ((s.tile y).gen f.agLoc).handle, (s.tile y).issuePc, .source s.nextId k, none, 0⟩ } := by
  rw [State.sourceBanks, if_pos h, State.foldl_pushReq_source, State.foldl_pushReq_tile]
  rfl

theorem State.sourceBanks_reads (s : State) (y : Nat) (f : QueueF) : (∀ a, ((s.sourceBanks y f).tile y).gen a = (s.tile y).gen a) ∧
    (∀ a, ((s.sourceBanks y f).tile y).agAddr a = (s.tile y).agAddr a) ∧ ((s.sourceBanks y f).tile y).late = (s.tile y).late ∧
    ((s.sourceBanks y f).tile y).issuePc = (s.tile y).issuePc ∧ ((s.sourceBanks y f).tile y).scratch = (s.tile y).scratch ∧
    ∀ n, (s.sourceBanks y f).hnd y n = s.hnd y n := by
  by_cases h : s.queueOk y f = true
  · rw [State.sourceBanks_tile s y f h]
    refine ⟨fun _ => rfl, fun _ => rfl, rfl, rfl, rfl, fun n => ?_⟩
    rw [State.sourceBanks, if_pos h, State.foldl_pushReq_source, State.foldl_pushReq_hnd]
  · simp [State.sourceBanks, h]

theorem State.queueOk_sourceBanks (s : State) (y : Nat) (f : QueueF) : (s.sourceBanks y f).queueOk y f = s.queueOk y f := by
  obtain ⟨hg, ha, -, -, -, hh⟩ := s.sourceBanks_reads y f
  simp only [State.queueOk, State.sourceBanks_chg.inRegionSpace_eq, hh, hg, ha]

theorem State.queueAccess_sourceBanks (s : State) (y : Nat) (f : QueueF) (w : Bool) :
    (s.sourceBanks y f).queueAccess y f w = s.queueAccess y f w := by
  obtain ⟨hg, ha, ht, hp, -, hh⟩ := s.sourceBanks_reads y f
  simp only [State.queueAccess, hh, hg, ha, ht, hp, State.sourceBanks_chg.sched_eq, State.sourceBanks_chg.nextId_eq, State.regionOf,
    State.galRec, State.sourceBanks_chg.img_eq]

/-- An entry set twice. -/
theorem mput_mput_same {α : Type} (m : SMap α) (k : Nat) (v w : α) : mput (mput m k v) k w = mput m k w := by
  induction m with
  | nil => simp [mput]
  | cons x m ih =>
    obtain ⟨j, u⟩ := x
    rcases Nat.lt_trichotomy k j with h | rfl | h
    · simp [mput, h]
    · simp [mput]
    · simp [mput, Nat.lt_asymm h, Nat.ne_of_gt h, ih]

/-- A `qwait` waits for the same while it holds the cycle it found. -/
theorem State.qwState_latched (s : State) (y : Nat) (m : BitVec 16) :
    (s.modTile y fun T => { T with qw := some (s.qwState y m) }).qwState y m = s.qwState y m := by
  simp only [State.qwState, State.modTile_same]

theorem State.waitsOf_qwait_latched (s : State) (y e0 : Nat) (pr : Fin 16) (t : Xy) (m : BitVec 16) :
    (s.modTile y fun T => { T with qw := some (s.qwState y m) }).waitsOf y e0 (.qwait t pr m) = s.waitsOf y e0 (.qwait t pr m) := by
  have hlate : ((s.modTile y fun T => { T with qw := some (s.qwState y m) }).tile y).late = (s.tile y).late := by
    rw [State.modTile_same]
  have hreg : ((s.modTile y fun T => { T with qw := some (s.qwState y m) }).tile y).regWait (.qwait t pr m) =
      (s.tile y).regWait (.qwait t pr m) := by
    rw [State.modTile_same]; rfl
  have hacts : ((s.modTile y fun T => { T with qw := some (s.qwState y m) }).tile y).acts (.qwait t pr m) =
      (s.tile y).acts (.qwait t pr m) := by
    rw [State.modTile_same]; rfl
  have hlat (z : Nat) (u : LatUnit) : (s.modTile y fun T => { T with qw := some (s.qwState y m) }).lat z u = s.lat z u := by
    by_cases hz : z = y
    · subst hz; exact State.lat_modTile _ _ _ _ rfl
    · simp only [State.lat, State.modTile_ne _ _ _ hz]; rfl
  have hsettled : (s.modTile y fun T => { T with qw := some (s.qwState y m) }).qSettled = s.qSettled := by
    funext n
    simp only [State.qSettled, hlat, State.modTile_fields, State.modTile_reads]
  simp only [State.waitsOf, hreg, hacts, accessesAtIssue, State.qwaitWait, State.qwState_latched, State.modTile_reads, hlate, hsettled,
    Bool.and_false, Bool.false_and, Bool.false_eq_true, if_false]

/-! ## Service, effect and landing of an access (R219 to R223, R279 to R283) -/

theorem State.acc_id {s : State} {n : Nat} {a : QAcc} (h : s.acc n = some a) : a.id = n := by
  simpa using List.find?_some h

/-- The first access with a number, once each access has been changed and kept its number. -/
theorem find_map_id {f : QAcc → QAcc} {n : Nat} {a : QAcc} {l : List QAcc} (h : l.find? (fun x => x.id == n) = some a)
    (hid : ∀ x, (f x).id = x.id) : (l.map f).find? (fun x => x.id == n) = some (f a) := by
  rw [List.find?_map, show ((fun x : QAcc => x.id == n) ∘ f) = fun x => x.id == n from funext fun x => by simp [hid], h]
  rfl

theorem State.acc_modAcc {s : State} {n : Nat} {a : QAcc} (h : s.acc n = some a) {f : QAcc → QAcc} (hf : ∀ x, (f x).id = x.id := by intro; rfl) :
    (s.modAcc n f).acc n = some (f a) := by
  have hid : a.id = n := State.acc_id h
  have hmap := find_map_id (f := fun x => if x.id = n then f x else x) h (fun x => by split <;> simp [hf])
  exact hmap.trans (by simp [hid])

/-- A write is no read whose bytes a later write captures. -/
theorem State.acc_capture {s : State} {n : Nat} {a : QAcc} (h : s.acc n = some a) (hw : a.write = true) (w : QAcc) (g : Nat) :
    (s.capture w g).acc n = some a := by
  refine (find_map_id h fun x => ?_).trans (by simp [hw])
  split <;> rfl

theorem State.granuleEffect_unfenced {s : State} {a : QAcc} {g : Nat} (hlost : a.lost = []) (hf : s.fencedAt (a.addr + 64 * g) = false) :
    s.granuleEffect a g = { s.capture a g with
      ext := wrBytes (s.capture a g).ext (a.addr + 64 * g) ((List.range 64).map fun i => a.src.getD (64 * g + i) 0) } := by
  simp [State.granuleEffect, State.granuleBytes, hlost, hf]

/-- Granule by granule a write stores its source. -/
theorem State.granuleEffects_eq (s : State) {a : QAcc} (ha : s.acc a.id = some a) (hw : a.write = true) (hlost : a.lost = [])
    (hf : ∀ g < a.granules, s.fencedAt (a.addr + 64 * g) = false) (hlen : a.src.length = 64 * a.granules) (hm : memWf s.ext = true)
    (n : Nat) (hn : n ≤ a.granules) :
    ((List.range n).foldl (fun s g => s.granuleEffect a g) s).acc a.id = some a ∧
    Stored s.ext ((List.range n).foldl (fun s g => s.granuleEffect a g) s).ext a.addr (a.src.take (64 * n)) ∧
    memWf ((List.range n).foldl (fun s g => s.granuleEffect a g) s).ext = true := by
  induction n with
  | zero => exact ⟨ha, fun b => by simp, hm⟩
  | succ n ih =>
    obtain ⟨hacc, hst, hwf⟩ := ih (by omega)
    have hchg : Chg { freeCtr := true, accs := true, ext := true } s ((List.range n).foldl (fun s g => s.granuleEffect a g) s) :=
      .foldl (fun _ _ => State.granuleEffect_chg) _ .refl
    rw [List.range_succ, List.foldl_append, List.foldl_cons, List.foldl_nil]
    generalize (List.range n).foldl (fun s g => s.granuleEffect a g) s = u at hacc hst hwf hchg
    have hfu : u.fencedAt (a.addr + 64 * n) = false := by
      rw [← hf n hn]
      simp only [State.fencedAt, hchg.eng_eq]
    rw [State.granuleEffect_unfenced hlost hfu]
    refine ⟨State.acc_capture hacc hw a n, fun b => ?_, memWf_wrBytes _ _ hwf⟩
    have hlist : ((List.range 64).map fun i => a.src.getD (64 * n + i) 0).length = 64 := by simp
    refine (rdByte_wrBytes (m := u.ext) _ _ _ hwf).trans ?_
    rw [hlist, hst b]
    have htake (k : Nat) : (a.src.take (64 * k)).length = min (64 * k) a.src.length := List.length_take
    by_cases hin : a.addr + 64 * n ≤ b ∧ b < a.addr + 64 * n + 64
    · have hb : b - (a.addr + 64 * n) < 64 := by omega
      have hsum : 64 * n + (b - (a.addr + 64 * n)) = b - a.addr := by omega
      have hlt : b - a.addr < 64 * (n + 1) := by omega
      rw [if_pos hin, if_pos (by rw [htake]; omega)]
      simp [List.getD, hb, hsum, List.getElem?_take, hlt]
    · rw [if_neg hin]
      by_cases hlow : a.addr ≤ b ∧ b < a.addr + 64 * n
      · have hlt : b - a.addr < 64 * n := by omega
        have hlt' : b - a.addr < 64 * (n + 1) := by omega
        rw [if_pos (by rw [htake]; omega), if_pos (by rw [htake]; omega)]
        simp [List.getD, List.getElem?_take, hlt, hlt']
      · rw [if_neg (by rw [htake]; omega), if_neg (by rw [htake]; omega)]

theorem State.sched_event (s : State) (code kind idx : Nat) (items : List (Nat × Nat)) :
    (s.event code kind idx items).sched = s.sched := State.reg_event _ _ _ _ _ (regKey_ne_of_code 0 (by decide))

/-- The channels are few. -/
theorem State.place_lt (s : State) (a : Nat) : (s.place a).1 < 2 ^ 32 := by
  simp only [State.place]
  split_ifs <;> omega

theorem State.sched_windowNote (s : State) (a last : Nat) : (s.windowNote a last).sched = s.sched := by
  have hne : regKey .ptcSched 0 ≠ regKey F.memStat_winacc.kind (s.place a).1 :=
    regKey_ne (s.place_lt a) (by decide) (.inl (by decide))
  rw [State.windowNote, State.sched, State.satAdd, State.reg_setFld_ne _ _ hne]
  exact State.sched_event ..

/-- A late landing notes the channels it has seen, beside its events. -/
theorem State.windowDelay_accs (s : State) (a : QAcc) (gs : List Nat) (last : Nat → Nat) :
    (∃ w, (s.windowDelay a gs last).accs = s.accs.map fun q => if q.id = a.id then { q with winSeen := q.winSeen ++ w } else q) ∧
    (s.windowDelay a gs last).sched = s.sched := by
  unfold State.windowDelay
  induction gs generalizing s with
  | nil => exact ⟨⟨[], by simp⟩, rfl⟩
  | cons g gs ih =>
    rw [List.foldl_cons]
    dsimp only
    split_ifs
    · exact ih s
    · obtain ⟨⟨w, hw⟩, hs⟩ := ih ((s.windowNote (a.addr + 64 * g) (last g)).modAcc a.id fun b =>
        { b with winSeen := b.winSeen ++ [(s.place (a.addr + 64 * g)).1] })
      refine ⟨⟨(s.place (a.addr + 64 * g)).1 :: w, hw.trans ?_⟩, hs.trans ?_⟩
      · simp only [State.modAcc, State.windowNote_chg.accs_eq, List.map_map]
        refine List.map_congr_left fun q _ => ?_
        by_cases hq : q.id = a.id <;> simp [hq]
      · rw [State.modAcc_chg.sched_eq, State.sched_windowNote]

theorem State.lateLanding_accs (s : State) (a : QAcc) (k : Nat) :
    ∃ w, (s.lateLanding a k).accs = s.accs.map fun q => if q.id = a.id then { q with winSeen := q.winSeen ++ w } else q := by
  have hnone (v : State) (h : v.accs = s.accs) :
      ∃ w, v.accs = s.accs.map fun q => if q.id = a.id then { q with winSeen := q.winSeen ++ w } else q :=
    ⟨[], by simp [h]⟩
  simp only [State.lateLanding]
  split
  · split
    · obtain ⟨w, hw⟩ := (State.windowDelay_accs _ a _ _).1
      exact ⟨w, hw.trans (by rw [State.event_chg.accs_eq])⟩
    · exact hnone _ State.event_chg.accs_eq
  · exact hnone s rfl

theorem State.sched_lateLanding (s : State) (a : QAcc) (k : Nat) : (s.lateLanding a k).sched = s.sched := by
  simp only [State.lateLanding]
  split
  · split
    · rw [(State.windowDelay_accs _ a _ _).2, State.sched_event]
    · rw [State.sched_event]
  · rfl

/-! ### Waits of a queue (R221) -/

theorem execQwait_eq {s : State} {t : Xy} {pr : Fin 16} {mask : BitVec 16} (hact : s.slotActs t (.qwait t pr mask) = true) :
    exec (.qwait t pr mask) s = .next (s.setTile (tIx t) { s.tile (tIx t) with qw := none }) := by
  have hdrop (v : State) (hv : v.slotActs t (.qwait t pr mask) = true) : v.slotOut t (.qwait t pr mask)
      (fun s => s.modTile (tIx t) fun T => { T with qw := none }) (fun s => s.modTile (tIx t) fun T => { T with qw := none }) =
      .next (v.modTile (tIx t) fun T => { T with qw := none }) := State.slotOut_of_acts hv rfl
  simp only [exec, execQwait]
  split
  · rw [hdrop]
    · simp only [State.modTile, State.setTile, State.tile, mget_mput_same, mput_mput_same]
    · have hwaits := s.waitsOf_qwait_latched (tIx t) (s.vrunEntry (tIx t) (.qwait t pr mask) (.qwait t pr mask)) pr t mask
      simp only [State.slotActs, State.canAct, State.issuedNow, State.modTile_same, State.modTile_reads, Bool.and_eq_true,
        Bool.or_eq_true] at hact ⊢
      exact ⟨⟨hact.1.1, hact.1.2.imp id fun h => by rw [← h, ← hwaits]; rfl⟩, hact.2⟩
  · exact hdrop s hact

/-! ### The service of an access (R223 to R228, R279 to R283) -/

section Service
variable {s : State} {a : QAcc} (ha : s.acc a.id = some a) (hlive : a.live = true) (hlate : a.lateIssued = false)
include ha hlive hlate

theorem execGranuleServe_eq {gran : Nat} {res : GranRes} {retries : Nat} (harr : a.arrived = true) (hport : a.port = none)
    (hg : gran < a.granules) (hserved : ∀ q ∈ a.served, q.1 ≠ gran) (havail : s.available (a.addr + 64 * gran) = true)
    (hpins : s.pinsFree (s.place (a.addr + 64 * gran)).1 = true) (hsrc : a.write = true → gran / 8 < a.srcSlots)
    (hfirst : s.serveFirst a (s.place (a.addr + 64 * gran)).1 = false)
    (hres : res = .clean ∧ retries = 0 ∨ (∃ n, res = .corrected n) ∧ retries = 0 ∨
      (∃ n ce, res = .retried n ce ∧ retries = min n (if a.write then 3 else 1)) ∨ res = .lost ∧ retries = if a.write then 3 else 1) :
    Yields (.granuleServe a.id gran res) s fun u =>
      u.ext = s.ext ∧ u.accs = s.accs.map fun q => if q.id = a.id then
        { q with served := q.served ++ [(gran, s.cnt + 48 * retries + if a.write then 32 else 224)],
                 lost := if res = .lost then q.lost ++ [gran] else q.lost,
                 retr := if retries = 0 then q.retr else q.retr ++ [(gran, 48 * retries)] } else q := by
  refine ⟨_, rfl, ?_⟩
  have hretr : granRetries a.write res = retries := by
    obtain ⟨rfl, rfl⟩ | ⟨⟨k, rfl⟩, rfl⟩ | ⟨k, ce, rfl, rfl⟩ | ⟨rfl, rfl⟩ := hres
    all_goals simp only [granRetries]
    split <;> rfl
  have hservable : s.servable a gran = true := by
    have hany : (a.served.any fun q => q.1 == gran) = false := by simpa using hserved
    have hsrc' : (a.write && decide (a.srcSlots ≤ gran / 8)) = false := by
      cases hw : a.write <;> simp [hw] at hsrc ⊢
      exact hsrc
    simp [State.servable, hlive, harr, hport, hg, hany, havail, hpins, hsrc']
  simp only [ha, hservable, hfirst, Bool.not_true, Bool.or_self, Bool.false_eq_true, if_false, hlate, hretr]
  refine ⟨by rw [State.modAcc_chg.ext_eq, State.granBusy_chg.ext_eq, State.granRecord_chg.ext_eq], ?_⟩
  simp only [State.modAcc, State.granBusy_chg.accs_eq, State.granRecord_chg.accs_eq]
  have hretr0 : 48 * retries = 0 ↔ retries = 0 := by omega
  have hat : (if a.write = false then 224 else 32) = if a.write = true then 32 else 224 := by cases a.write <;> rfl
  simp only [hretr0, hat]

theorem execWriteTakesEffect_eq (hheld : s.held = false) (hw : a.write = true) (hport : a.port = none)
    (hr : ∀ g < a.granules, a.readyBy s.cnt g = true) (hd : a.deadline ≤ s.sched) (haw : s.awaitsWrite a = false) (hlost : a.lost = [])
    (hf : ∀ g < a.granules, s.fencedAt (a.addr + 64 * g) = false) (hlen : a.src.length = a.bytes) (hm : memWf s.ext = true) :
    Yields (.writeTakesEffect a.id) s fun u =>
      Stored s.ext u.ext a.addr a.src ∧ u.acc a.id = some { a with doneAt := some s.sched } := by
  have hlen' : a.src.length = 64 * a.granules := by rw [hlen, QAcc.granules, QAcc.bytes]; omega
  obtain ⟨hacc, hst, -⟩ := s.granuleEffects_eq ha hw hlost hf hlen' hm a.granules le_rfl
  rw [← hlen', List.take_length] at hst
  have hall : (List.range a.granules).all (a.readyBy s.cnt) = true := by simpa using hr
  have hexec : exec (.writeTakesEffect a.id) s = .next (s.writeEffect a) := by
    simp [exec, execWriteTakesEffect, ha, hw, hlive, hport, hall, hlate, hheld, haw, Nat.not_lt.mpr hd]
  refine ⟨_, hexec, hst, ?_⟩
  exact State.acc_modAcc hacc

theorem execQueueLanding_eq (hheld : s.held = false) (hy : a.tile < 3072) (hw : a.write = false) (hl : a.landAt ≠ s.sched + 1)
    (hd : a.deadline + a.landed ≤ s.sched) (hr : ∀ i < 8, a.readyBy s.cnt (8 * a.landed + i) = true) (haw : s.awaitsWrite a = false)
    (hb : s.bufferReady a.tile a.id ⟨a.handle, false, true, [⟨a.off + 512 * a.landed, 512⟩]⟩ (s.matrixTaken a.tile) = true)
    (hin : (s.hnd a.tile a.handle).inBounds ⟨a.off + 512 * a.landed, 512⟩ = true) (hlen : (s.slotBytes a a.landed).length = 512)
    (hm : memWf (s.tile a.tile).scratch = true) :
    Yields (.queueLanding a.id) s fun u =>
      Stored (s.tile a.tile).scratch (u.tile a.tile).scratch ((s.hnd a.tile a.handle).base + (a.off + 512 * a.landed))
        (s.slotBytes a a.landed) ∧ u.ext = s.ext ∧
      ∃ w : List Nat, u.accs = s.accs.map fun q => if q.id = a.id then
        { q with landed := a.landed + 1, landAt := s.sched + 1, winSeen := q.winSeen ++ w,
                 doneAt := if q.slots ≤ a.landed + 1 then some s.sched else none } else q := by
  obtain ⟨t, hserve, hchg, hscr⟩ := State.bufServe_ready hb
  have hready : (List.range 8).all (fun i => a.readyBy s.cnt (8 * a.landed + i)) = true := by simpa using hr
  have hland : (a.landAt == s.sched + 1) = false := by simpa using hl
  obtain ⟨w, haccs⟩ := t.lateLanding_accs a a.landed
  have hst := t.sched_lateLanding a a.landed
  rw [hchg.sched_eq] at hst
  have hlchg := State.lateLanding_chg (s := t) (a := a) (k := a.landed)
  generalize hu : t.lateLanding a a.landed = u at haccs hst hlchg
  generalize hv : (if ((List.range 8).any fun i => a.lost.contains (8 * a.landed + i)) = true then
      u.modRegion a.region fun r => { r with loss := true } else u) = v
  have hvchg : Chg { regions := true } u v := by
    rw [← hv]
    exact .ite .modRegion .refl
  have hscr' : (v.tile a.tile).scratch = (s.tile a.tile).scratch := by rw [hvchg.tile_eq, hlchg.tile_eq, hscr]
  have hext : v.ext = s.ext := by rw [hvchg.ext_eq, hlchg.ext_eq, hchg.ext_eq]
  have hbytes : v.slotBytes a a.landed = s.slotBytes a a.landed := by simp only [State.slotBytes, hext]
  have hexec : exec (.queueLanding a.id) s = .next ((v.spWriteE a.tile a.pc a.handle (s.hnd a.tile a.handle) false
      (a.off + 512 * a.landed) (s.slotBytes a a.landed)).modAcc a.id fun a' => { a' with
        landed := a.landed + 1, landAt := s.sched + 1, doneAt := if a'.slots ≤ a.landed + 1 then some s.sched else none }) := by
    simp only [exec, execQueueLanding, ha, hheld, hw, hlive, hland, hready, hlate, haw, Nat.not_lt.mpr hd, decide_false, Bool.not_true,
      Bool.not_false, Bool.true_and, Bool.or_self, Bool.false_eq_true, if_false, hserve, hu, hv, hbytes]
  obtain ⟨f, w', m, htile⟩ := State.spWriteE_inBounds (s := v) (y := a.tile) (pc := a.pc) (h := a.handle)
    (e := s.hnd a.tile a.handle) (off := a.off + 512 * a.landed) (bs := s.slotBytes a a.landed) (by rwa [hlen])
  refine ⟨_, hexec, ?_, ?_, w, ?_⟩
  · rw [State.modAcc_chg.tile_eq, htile, hscr']
    exact stored_wrBytes _ _ hm
  · rw [State.modAcc_chg.ext_eq, State.spWriteE_chg.ext_eq, hext]
  · simp only [State.modAcc, State.spWriteE_chg.accs_eq, hvchg.accs_eq, haccs, hchg.accs_eq, List.map_map]
    refine List.map_congr_left fun q _ => ?_
    by_cases hq : q.id = a.id <;> simp [hq]

end Service

/-- Settles O17: an operation's access joins the queue (`State.queueOp_eq`), a write takes effect granule by granule
(`State.granuleEffects_eq`), and a slot lands through its handle. -/
theorem queueOperationsAndService : Obligations.QueueOperationsAndService := by
  refine ⟨fun s t pr f => ?issue, fun s n a ha hlive hlate => ?service⟩
  case issue =>
    dsimp only
    refine ⟨fun hs hact => ⟨_, State.slotOut_as_issued hact hs, ?qrd⟩, fun hs hact => ⟨_, State.slotOut_as_issued hact hs, ?qwr⟩,
      fun hs hcan hiss hact => ?supp, fun mask hact => execQwait_eq hact⟩
    case qrd =>
      obtain ⟨haccs, hid⟩ := s.queueOp_eq (tIx t) f false
      exact ⟨haccs, hid, State.queueOp_chg.ext_eq, State.queueOp_chg.tiles_eq⟩
    case qwr =>
      obtain ⟨haccs, hid⟩ := (s.sourceBanks (tIx t) f).queueOp_eq (tIx t) f true
      obtain ⟨-, -, -, -, hscr, -⟩ := s.sourceBanks_reads (tIx t) f
      rw [State.sourceBanks_chg.accs_eq, State.queueOk_sourceBanks, State.queueAccess_sourceBanks] at haccs
      rw [State.sourceBanks_chg.nextId_eq] at hid
      simp only [State.queueOp_chg.tile_eq]
      exact ⟨haccs, hid, State.queueOp_chg.ext_eq.trans State.sourceBanks_chg.ext_eq, hscr, fun hok => by rw [s.sourceBanks_tile _ f hok]⟩
    case supp =>
      have h (i : Instr) (hi : (s.tile (tIx t)).acts i = false) (supp eff : State → State) : s.slotOut t i eff supp = .next (supp s) := by
        simp only [State.slotOut, State.slotCmd, hcan, hiss, hi, if_true, State.asIssued_same hs, List.isEmpty_nil, Bool.false_eq_true, if_false]
      exact ⟨h (.qrd t pr f) hact (fun s => s.queueSupp (tIx t) f false) _, h (.qwr t pr f) hact (fun s => s.queueSupp (tIx t) f true) _⟩
  case service =>
    obtain rfl := State.acc_id ha
    exact ⟨fun _ _ _ => execGranuleServe_eq ha hlive hlate, execWriteTakesEffect_eq ha hlive hlate, execQueueLanding_eq ha hlive hlate⟩

end Sys2Proof.Machine
end

section
/-!
Sources, arrivals and the predictions of a commit point (R222, R227, R230, R280, R287).
-/
namespace Sys2Proof.Machine
set_option Elab.async false

/-! ## Sources, arrivals and commit points (R222, R227, R230, R280, R287) -/

/-- An access committed is where it was in the order of its channel. -/
theorem State.granReady_committed (s : State) (n : Nat) (a : QAcc) (g : Nat) :
    (s.modAcc n fun q => { q with committed := true }).granReady a g = s.granReady a g := by
  have hserve : (s.modAcc n fun q => { q with committed := true }).serveAt a g = s.serveAt a g := by
    have hahead (f : Nat × Nat → Bool) : ((s.modAcc n fun q => { q with committed := true }).accs.foldl (fun n b =>
        if b.live && b.arrived && b.port.isNone && b.before a then n + s.unserved b b.granules f else n) (s.unserved a g f)) =
        s.accs.foldl (fun n b =>
          if b.live && b.arrived && b.port.isNone && b.before a then n + s.unserved b b.granules f else n) (s.unserved a g f) := by
      rw [State.modAcc, List.foldl_map]
      congr 1
      funext m b
      split <;> rfl
    exact congrArg₂ (s.serveCycle (s.place (a.addr + 64 * g)).1 (s.place (a.addr + 64 * g)).2) (hahead fun q => q.1 == (s.place (a.addr + 64 * g)).1)
      (hahead fun q => q == s.place (a.addr + 64 * g))
  rw [State.granReady, hserve]
  rfl

/-- A prediction that misses nothing does nothing. -/
theorem State.predictLate_of_ready {s : State} {a : QAcc} {ch c : Nat} (hc : c ≤ a.deadline)
    (h : ∀ g < a.granules, s.granReady a g ≤ a.dueBy g) : s.predictLate a ch c = s := by
  have hlate : ((List.range a.granules).filter fun g => (s.place (a.addr + 64 * g)).1 == ch).foldl
      (fun m g => max m (s.granReady a g - a.dueBy g)) (c - a.deadline) = 0 := by
    have hfold (l : List Nat) (hl : ∀ g ∈ l, g < a.granules) : l.foldl (fun m g => max m (s.granReady a g - a.dueBy g)) 0 = 0 := by
      induction l with
      | nil => rfl
      | cons g l ih =>
        have hg := h g (hl g (by simp))
        rw [List.foldl_cons, Nat.sub_eq_zero_of_le hg]
        exact ih fun x hx => hl x (by simp [hx])
    rw [Nat.sub_eq_zero_of_le hc]
    exact hfold _ fun g hg => by simpa using (List.mem_filter.mp hg).1
  simp only [State.predictLate, hlate, or_true, if_true]

/-- Serving an access takes banks, and no byte. -/
theorem State.bufServeE_scratch (s : State) (y n : Nat) (e : Hnd) (a : OwnAcc) (taken : List Nat) :
    ((s.bufServeE y n e a taken).1.tile y).scratch = (s.tile y).scratch := by
  simp only [State.bufServeE]
  split <;> split_ifs <;> simp [State.setBuf]

/-- Settles O18: a prediction that misses nothing does nothing (`State.predictLate_of_ready`), one that does asks to hold. -/
theorem queuePrediction : Obligations.QueuePrediction := by
  intro s n a ha hlive
  obtain rfl := State.acc_id ha
  refine ⟨fun hheld hw hslots hsched hready hb => ?source, fun harr => ⟨fun hd => ?arrive, fun hd => ⟨_, rfl, ?late⟩⟩,
    fun hheld hcom harr hd => ⟨fun ready hport => ?channels, fun p ready hp hdata => ?arrived, fun ch c => ?predict,
      fun p ready hp hdata hwait => ⟨_, rfl, ?wait⟩⟩⟩
  case source =>
    have htake (t : State) (hacc : t.accs = s.accs) (hscr : (t.tile a.tile).scratch = (s.tile a.tile).scratch) :
        let r := t.spReadE a.tile a.pc a.handle (a.ent.getD (s.hnd a.tile a.handle)) false [⟨a.off + 512 * a.srcSlots, 512⟩]
        let u := r.1.modAcc a.id fun b => { b with src := b.src ++ r.2, srcSlots := b.srcSlots + 1 }
        u.accs = (s.accs.map fun q => if q.id = a.id then { q with
            src := q.src ++ rdBytes (s.tile a.tile).scratch ((a.ent.getD (s.hnd a.tile a.handle)).base + (a.off + 512 * a.srcSlots)) 512
            srcSlots := q.srcSlots + 1 } else q) ∧
        (u.tile a.tile).scratch = (s.tile a.tile).scratch := by
      obtain ⟨hbytes, f, w, m, htile⟩ := State.spReadE_inBounds (s := t) (y := a.tile) (pc := a.pc) (h := a.handle)
        (e := a.ent.getD (s.hnd a.tile a.handle)) (sps := [⟨a.off + 512 * a.srcSlots, 512⟩]) (by simpa using hb)
      dsimp only
      rw [State.modAcc_chg.tile_eq, htile, hbytes]
      exact ⟨by simp [State.modAcc, State.spReadE_chg.accs_eq, hacc, Tile.bytesAt, hscr], hscr⟩
    have hcond : (s.held || !a.write || !a.live || decide (a.slots ≤ a.srcSlots) || decide (s.sched < a.issued + 1 + a.srcSlots)) = false := by
      simp [hheld, hw, hlive, Nat.not_le.mpr hslots, Nat.not_lt.mpr hsched]
    by_cases hin : (s.tile a.tile).inInv = true
    · rw [if_pos hin] at hready
      refine ⟨_, ?_, htake s rfl rfl⟩
      simp only [exec, execQwrSourceRead, ha, hcond, hin, hready, Bool.false_eq_true, if_false, if_true]
    · rw [if_neg hin] at hready
      have hscr : ((s.bufServeE a.tile a.id (a.ent.getD (s.hnd a.tile a.handle))
          ⟨a.handle, false, false, [⟨a.off + 512 * a.srcSlots, 512⟩]⟩ []).1.tile a.tile).scratch = (s.tile a.tile).scratch :=
        State.bufServeE_scratch ..
      refine ⟨_, ?_, htake _ State.bufServeE_chg.accs_eq hscr⟩
      simp only [exec, execQwrSourceRead, ha, hcond, hin, Bool.false_eq_true, if_false]
      split
      · next t e h => rw [h]
      · next t h => rw [h] at hready; cases hready
  case arrive => 
    have hnd : s.sched + 160 ≤ a.deadline := hd
    simp only [exec, execQueueRequestArrive, ha, harr, hlive, Bool.not_true, Bool.or_self, Bool.false_eq_true, if_false]
    exact congrArg _ (if_pos hd)
  case late =>
    have hnd : ¬(s.modAcc a.id fun q => { q with arrived := true }).sched + 160 ≤ a.deadline := by
      rw [State.modAcc_chg.sched_eq]; omega
    simp only [ha, harr, hlive, Bool.not_true, Bool.or_self, Bool.false_eq_true, if_false, if_neg hnd]
    refine ⟨?_, ?_⟩
    · rw [State.event_chg.accs_eq]
      simp only [State.modRegion_fields, State.modAcc, List.map_map]
      refine List.map_congr_left fun q _ => ?_
      by_cases hq : q.id = a.id <;> simp [hq]
    · rw [State.event_chg.region_eq, State.modRegion_same]
      rfl
  case channels => 
    have hexec : exec (.commitPoint a.id ready) s = .next ((List.range 48).foldl
          (fun u ch => u.predictLate a ch (((ready.find? fun r => r.1 == ch).map (·.2)).getD 0)) (s.modAcc a.id fun q => { q with committed := true })) := by
      simp only [exec, execCommitPoint, ha, hheld, hcom, hlive, harr, hport, Nat.not_lt.mpr hd, decide_false, Bool.not_true, Bool.or_self, Bool.false_eq_true, if_false]
    refine ⟨hexec, fun hr hg => hexec.trans (congrArg _ ?_)⟩
    have hstep (ch : Nat) : (s.modAcc a.id fun q => { q with committed := true }).predictLate a ch
        (((ready.find? fun r => r.1 == ch).map (·.2)).getD 0) = s.modAcc a.id fun q => { q with committed := true } := by
      refine State.predictLate_of_ready ?_ fun g h => (State.granReady_committed ..).trans_le (hg g h)
      cases hf : ready.find? fun r => r.1 == ch with
      | none => exact Nat.zero_le _
      | some r => exact hr r (List.mem_of_find?_eq_some hf)
    exact List.foldl_fixed' hstep _
  case arrived => 
    simp only [exec, execCommitPoint, ha, hheld, hcom, hlive, harr, hp, hdata, Nat.not_lt.mpr hd, decide_false, Bool.not_true, Bool.or_self, Bool.false_eq_true, if_false, if_true]
  case predict =>
    refine ⟨fun hgs => ?_, fun hl => ?_, fun hgs hl => ?_⟩
    · simp only [State.predictLate, hgs, List.isEmpty_nil, true_or, if_true]
    · simp only [State.predictLate, hl, or_true, if_true]
    · have hne : ((List.range a.granules).filter fun g => (s.place (a.addr + 64 * g)).1 == ch).isEmpty = false := by
        simpa [List.isEmpty_iff] using hgs
      simp only [State.predictLate, hne, Nat.ne_of_gt hl, Bool.false_eq_true, or_self, if_false]
      refine ⟨?_, ?_⟩
      · rw [State.windowDelay_chg.reqs_eq, Chg.satAdd.reqs_eq, State.request, if_neg (Nat.ne_of_gt hl)]
      · obtain ⟨w, hw⟩ := (State.windowDelay_accs _ a _ _).1
        exact ⟨w, hw.trans (by rw [Chg.satAdd.accs_eq, State.request_chg.accs_eq])⟩
  case wait => 
    simp only [ha, hheld, hcom, hlive, harr, hp, hdata, Nat.not_lt.mpr hd, decide_false, Bool.not_true, Bool.or_self, Bool.false_eq_true, if_false]
    have hempty : ((s.modAcc a.id fun a => { a with committed := true }).annex p).waitHold = [] := hwait
    simp only [State.openWait, hempty, List.isEmpty_nil, if_true, List.nil_append]
    exact ⟨⟨_, rfl, rfl, rfl, rfl⟩, by rw [State.modAnnex_same]; exact congrArg (· ++ [a.id]) hempty⟩

end Sys2Proof.Machine
end

section
/-!
Refresh windows, overdue banks, re-trim and the registers of each (R275 to R278, R290 to R300).
-/
namespace Sys2Proof.Machine
set_option Elab.async false

/-! ## Refresh (R275 to R278) -/

/-- Refreshed banks: their cycles, and what is left as it was. -/
theorem State.refreshBanks_chan (ch : Nat) (l : List Nat) (s : State) :
    (∀ b, mget ((l.foldl (fun s b => s.refreshBank ch b) s).chan ch).lastRef b 0 = if b ∈ l then s.cnt else mget (s.chan ch).lastRef b 0) ∧
    (∀ b, mget ((l.foldl (fun s b => s.refreshBank ch b) s).chan ch).refEnd b 0 =
      if b ∈ l then s.cnt + refreshLen s.step_ else mget (s.chan ch).refEnd b 0) ∧
    ((l.foldl (fun s b => s.refreshBank ch b) s).chan ch).retrim = (s.chan ch).retrim ∧
    ((l.foldl (fun s b => s.refreshBank ch b) s).chan ch).scrub = (s.chan ch).scrub := by
  induction l generalizing s with
  | nil => exact ⟨fun b => by simp, fun b => by simp, rfl, rfl⟩
  | cons x l ih =>
    obtain ⟨hlast, hend, hret, hscr⟩ := ih (s.refreshBank ch x)
    have hcnt : (s.refreshBank ch x).cnt = s.cnt := State.refreshBank_chg.cnt_eq
    have hstep : (s.refreshBank ch x).step_ = s.step_ := State.refreshBank_chg.fld_eq ..
    have hchan : (s.refreshBank ch x).chan ch = { s.chan ch with
        lastRef := mput (s.chan ch).lastRef x s.cnt, refEnd := mput (s.chan ch).refEnd x (s.cnt + refreshLen s.step_)
        overdue := mdel (s.chan ch).overdue x } := State.modChan_same ..
    rw [List.foldl_cons]
    refine ⟨fun b => ?_, fun b => ?_, by rw [hret, hchan], by rw [hscr, hchan]⟩
    · rw [hlast, hchan, hcnt]
      by_cases hb : b = x <;> simp [hb, mget_mput_ite]
    · rw [hend, hchan, hcnt, hstep]
      by_cases hb : b = x <;> simp [hb, mget_mput_ite]

theorem mem_groupBanks (g b : Nat) : b ∈ groupBanks g ↔ b / 4 = g := by
  simp only [groupBanks, List.mem_map, List.mem_range]
  refine ⟨fun ⟨a, ha, h⟩ => by omega, fun h => ⟨b % 4, by omega, by omega⟩⟩

/-! ## Trim (R290 to R300) -/

theorem State.retrimCheck_off {s : State} {ch : Nat} (h : s.fld F.memCal_auto ch = 0) (r : Bool) : s.retrimCheck ch r = s := by
  simp [State.retrimCheck, h]

/-- A re-trim asked for changes nothing else of its channel. -/
theorem State.retrimStart_chan (s : State) (ch : Nat) : ∃ r, (s.retrimStart ch).chan ch = { s.chan ch with retrim := r } := by
  rw [State.retrimStart, State.modChan_same]
  split
  · exact ⟨_, rfl⟩
  · exact ⟨_, rfl⟩

theorem State.retrimCheck_chan (s : State) (ch : Nat) (b : Bool) :
    ∃ r, (s.retrimCheck ch b).chan ch = { s.chan ch with retrim := r } := by
  rw [State.retrimCheck]
  split
  · exact s.retrimStart_chan ch
  · exact ⟨_, rfl⟩

/-- A set put in use changes nothing else of its channel but a re-trim. -/
theorem State.trimNow_chan (s : State) (ch : Nat) :
    ∃ a t n r, (s.trimNow ch).chan ch = { s.chan ch with useRun := a, inUse := t, useStep := n, retrim := r } := by
  simp only [State.trimNow]
  split_ifs
  · exact ⟨_, _, _, _, rfl⟩
  · obtain ⟨r, hr⟩ := State.retrimCheck_chan _ ch _
    exact ⟨_, _, _, r, hr.trans (by rw [State.event_chg.chan_eq, State.modChan_same])⟩

theorem State.reg_trimNow (s : State) (ch : Nat) {k : RegKind} {i : Nat} (h : regKey k i ≠ regKey .hstEvstat 0) :
    (s.trimNow ch).reg k i = s.reg k i := by
  simp only [State.trimNow]
  split_ifs
  · rfl
  · rw [State.retrimCheck_chg.reg_eq, State.reg_event _ _ _ _ _ h]
    exact State.modChan_reads .. |>.1 k i

/-- A channel whose re-trims are not automatic is not re-trimmed by a set put in use. -/
theorem State.trimNow_off {s : State} {ch : Nat} (h : s.fld F.memCal_auto ch = 0) (hch : ch < 2 ^ 32) :
    ((s.trimNow ch).chan ch).retrim = (s.chan ch).retrim := by
  simp only [State.trimNow]
  split_ifs
  · rfl
  · rw [State.retrimCheck_off]
    · rw [State.event_chg.chan_eq, State.modChan_same]
    · rw [State.fld, State.reg_event _ _ _ _ _ (regKey_ne (by decide) hch (.inl (by decide)))]
      exact h

/-- A granule served keeps its channel's pins busy. -/
theorem State.granBusy_chan (s : State) (a c : Nat) : ∃ b p, (s.granBusy a).chan c = { s.chan c with busy := b, pins := p } := by
  simp only [State.granBusy]
  by_cases h : c = (s.place a).1
  · subst h
    rw [State.modChan_same, State.occAdd_chg.chan_eq]
    exact ⟨_, _, rfl⟩
  · rw [State.modChan_ne _ _ _ h, State.occAdd_chg.chan_eq]
    exact ⟨_, _, rfl⟩

theorem State.scrubOne_chan (s : State) (ch : Nat) (res : GranRes) :
    ∃ b p, (s.scrubOne ch res).chan ch = { s.chan ch with busy := b, pins := p, scrub := ((s.chan ch).scrub + 64) % 0x180000000 } := by
  obtain ⟨b, p, h⟩ := (s.granRecord false (s.chanAddr ch (s.chan ch).scrub) res).granBusy_chan (s.chanAddr ch (s.chan ch).scrub) ch
  refine ⟨b, p, ?_⟩
  rw [State.scrubOne, State.modChan_same, h, State.granRecord_chg.chan_eq]

/-- The slot of trim and patrol leaves what a refresh keeps. -/
theorem State.trimSlot_refresh (s : State) (ch : Nat) (res : GranRes) :
    ((s.trimSlot ch res).chan ch).lastRef = (s.chan ch).lastRef ∧ ((s.trimSlot ch res).chan ch).refEnd = (s.chan ch).refEnd := by
  simp only [State.trimSlot]
  generalize hv : (s.modChan ch _) = v
  have hvc : (v.chan ch).lastRef = (s.chan ch).lastRef ∧ (v.chan ch).refEnd = (s.chan ch).refEnd := by
    rw [← hv, State.modChan_same]; exact ⟨rfl, rfl⟩
  generalize hw : (if (v.anyRunning && (v.chan ch).useRun && !(v.chan ch).inUse.full) = true then v else v.trimNow ch) = w
  have hwc : (w.chan ch).lastRef = (v.chan ch).lastRef ∧ (w.chan ch).refEnd = (v.chan ch).refEnd := by
    rw [← hw]
    split_ifs
    · exact ⟨rfl, rfl⟩
    · obtain ⟨a, t, n, r, h⟩ := v.trimNow_chan ch
      rw [h]; exact ⟨rfl, rfl⟩
  obtain ⟨r, hr⟩ := w.retrimCheck_chan ch false
  rw [← hvc.1, ← hvc.2, ← hwc.1, ← hwc.2]
  cases (w.retrimCheck ch false).chan ch |>.retrim with
  | none => 
    dsimp only
    obtain ⟨b, p, h⟩ := (w.retrimCheck ch false).scrubOne_chan ch res
    rw [h, hr]
    exact ⟨rfl, rfl⟩
  | some x =>
    dsimp only
    split_ifs
    · rw [State.modChan_same, hr]; exact ⟨rfl, rfl⟩
    · rw [hr]; exact ⟨rfl, rfl⟩

theorem State.lt_of_chanPresent {s : State} {ch : Nat} (h : s.chanPresent ch = true) : ch < 2 ^ 32 := by
  simp only [State.chanPresent, Bool.and_eq_true, decide_eq_true_eq] at h
  omega

theorem State.dieAbsent_of_chanPresent {s : State} {ch : Nat} (h : s.chanPresent ch = true) : s.dieAbsent (ch / 6) = false := by
  simpa using (Bool.and_eq_true_iff.mp h).2

/-- A granule of a channel's own addresses lies on it. -/
theorem State.place_chanAddr {s : State} {ch : Nat} (h : s.chanPresent ch = true) (l : Nat) : (s.place (s.chanAddr ch l)).1 = ch := by
  have hg : 0 < s.interleave := by
    simp only [State.interleave]
    split <;> decide
  simp only [State.chanPresent, State.dieAbsent, Bool.and_eq_true, decide_eq_true_eq, Bool.not_eq_true'] at h
  obtain ⟨hlt, habs⟩ := h
  have hdiv (a : Nat) : (a * s.interleave + l % s.interleave) / s.interleave = a := by
    rw [Nat.mul_comm, Nat.mul_add_div hg, Nat.div_eq_of_lt (Nat.mod_lt _ hg), Nat.add_zero]
  simp only [State.place, State.chanAddr, hdiv]
  cases hgr : s.fuses.grade with
  | false => simp [Nat.mul_add_mod_of_lt, hlt]
  | true =>
    simp only [hgr, Bool.true_and, Bool.or_eq_false_iff, beq_eq_false_iff_ne] at habs
    simp only [if_true, true_and]
    split_ifs with h24 hge hge
    · rw [Nat.mul_add_mod_of_lt (by omega)]; omega
    · rw [Nat.mul_add_mod_of_lt (by omega)] at hge; omega
    · rw [Nat.mul_add_mod_of_lt (by omega)] at hge; omega
    · rw [Nat.mul_add_mod_of_lt (by omega)]

/-- The patrol's slot of a channel that is not re-trimmed. -/
theorem State.trimSlot_patrol {s : State} {ch : Nat} (hch : s.chanPresent ch = true) (hret : (s.chan ch).retrim = none)
    (hauto : s.fld F.memCal_auto ch = 0) (res : GranRes) :
    ((s.trimSlot ch res).chan ch).scrub = ((s.chan ch).scrub + 64) % 0x180000000 ∧
    ∀ n, res = .corrected n → (s.trimSlot ch res).fld F.memStat_ce ch = min (s.fld F.memStat_ce ch + n) (2 ^ 20 - 1) := by
  have hlt := State.lt_of_chanPresent hch
  have hkey (k : RegKind) (hk : k.code ≠ RegKind.hstEvstat.code) : regKey k ch ≠ regKey .hstEvstat 0 :=
    regKey_ne (by decide) hlt (.inl hk)
  simp only [State.trimSlot]
  generalize hv : (s.modChan ch _) = v
  have hvret : (v.chan ch).retrim = none := by rw [← hv, State.modChan_same, hret]; rfl
  have hvscr : (v.chan ch).scrub = (s.chan ch).scrub := by rw [← hv, State.modChan_same]
  have hvreg (k : RegKind) (i : Nat) : v.reg k i = s.reg k i := by rw [← hv, Chg.modChan.reg_eq]
  have hvfuse : v.fuses = s.fuses := by rw [← hv, Chg.modChan.fuses_eq]
  have hvauto : v.fld F.memCal_auto ch = 0 := by rw [State.fld, hvreg]; exact hauto
  generalize hw : (if (v.anyRunning && (v.chan ch).useRun && !(v.chan ch).inUse.full) = true then v else v.trimNow ch) = w
  have hwret : (w.chan ch).retrim = none := by
    rw [← hw]
    split_ifs
    · exact hvret
    · rw [State.trimNow_off hvauto hlt, hvret]
  have hwscr : (w.chan ch).scrub = (s.chan ch).scrub := by
    rw [← hw, ← hvscr]
    split_ifs
    · rfl
    · obtain ⟨a, t, n, r, h⟩ := v.trimNow_chan ch
      rw [h]
  have hwreg {k : RegKind} (hk : k.code ≠ RegKind.hstEvstat.code) : w.reg k ch = s.reg k ch := by
    rw [← hw, ← hvreg]
    split_ifs
    · rfl
    · exact v.reg_trimNow ch (hkey k hk)
  have hwfuse : w.fuses = s.fuses := by
    rw [← hw, ← hvfuse]
    split_ifs
    · rfl
    · exact State.trimNow_chg.fuses_eq
  have hwauto : w.fld F.memCal_auto ch = 0 := by
    rw [State.fld, hwreg (by decide)]
    exact hauto
  rw [State.retrimCheck_off hwauto, hwret]
  dsimp only
  obtain ⟨b, p, h⟩ := w.scrubOne_chan ch res
  refine ⟨by rw [h, hwscr], fun n hn => ?_⟩
  have hpl : (w.place (w.chanAddr ch (w.chan ch).scrub)).1 = ch := State.place_chanAddr (by
    rw [← hch, State.chanPresent, State.dieAbsent, hwfuse, State.chanPresent, State.dieAbsent]) _
  have hrec : (w.scrubOne ch res).fld F.memStat_ce ch = (w.satAdd F.memStat_ce ch n).fld F.memStat_ce ch := by
    subst hn
    rw [State.scrubOne, Chg.modChan.fld_eq, State.granBusy_chg.fld_eq]
    simp only [State.granRecord, granRetries, List.range_zero, List.foldl_nil, Bool.false_eq_true, if_false, hpl]
  have hce : w.fld F.memStat_ce ch = s.fld F.memStat_ce ch := by rw [State.fld, hwreg (by decide), State.fld]
  rw [hrec, State.fld_satAdd _ _ _ _ (by decide) (by decide), hce]
  rfl

/-- A re-trim done puts its set in force. -/
theorem State.retrimComplete_sets (s : State) {r : Retrim} {ch : Nat} (hr : (s.chan ch).retrim = some r) (hd : 1024 ≤ r.done)
    (hauto : s.fld F.memCal_auto ch = 0) (hch : ch < 2 ^ 32) :
    Yields (.retrimComplete ch) s fun u => (u.chan ch).retrim = none ∧ (u.chan ch).runSets =
      if ((mfind (s.chan ch).runSets (4 * s.step_ + r.bin)).any fun t => t.full && !r.allFull) = true
      then (s.chan ch).runSets else mput (s.chan ch).runSets (4 * s.step_ + r.bin) ⟨r.bin, r.allFull, s.nextId + 1⟩ := by
  refine ⟨_, rfl, ?_⟩
  simp only [hr, Nat.not_lt.mpr hd, if_false]
  have hoff (v : State) (hv : v.fld F.memCal_auto ch = 0) : ({ v with nextId := v.nextId + 1 }.event 0x0265 3 ch []).fld F.memCal_auto ch = 0 := by
    rw [State.fld, State.reg_event _ _ _ _ _ (regKey_ne (by decide) hch (.inl (by decide)))]
    exact hv
  have hchan (v : State) (hv : v.fld F.memCal_auto ch = 0) :
      (({ v with nextId := v.nextId + 1 }.event 0x0265 3 ch []).retrimCheck ch false).chan ch = v.chan ch := by
    rw [State.retrimCheck_off (hoff v hv), State.event_chg.chan_eq]
    rfl
  cases hf : mfind (s.chan ch).runSets (4 * s.step_ + r.bin) with
  | none =>
    simp only [Option.any_none, Bool.false_eq_true, if_false]
    rw [hchan _ (by rw [State.keepSet_chg.fld_eq, Chg.modChan.fld_eq]; exact hauto), State.keepSet_chg.chan_eq, State.modChan_same]
    exact ⟨rfl, rfl⟩
  | some t =>
    simp only [Option.any_some]
    by_cases hk : (t.full && !r.allFull) = true
    · simp only [hk, if_true]
      rw [hchan _ (by rw [Chg.modChan.fld_eq]; exact hauto), State.modChan_same]
      exact ⟨rfl, rfl⟩
    · simp only [hk, Bool.false_eq_true, if_false]
      rw [hchan _ (by rw [State.keepSet_chg.fld_eq, Chg.modChan.fld_eq]; exact hauto), State.keepSet_chg.chan_eq, State.modChan_same]
      exact ⟨rfl, rfl⟩

/-- R293: the bins of a temperature. -/
theorem binOf_cases (t : Nat) : t < 50 ∧ binOf t = 0 ∨ 50 ≤ t ∧ t < 70 ∧ binOf t = 1 ∨ 70 ≤ t ∧ t ≤ 85 ∧ binOf t = 2 ∨
    85 < t ∧ binOf t = 3 := by
  unfold binOf
  split_ifs <;> omega

/-- A field written keeps its bits of the value. -/
theorem testBit_putBits_bits (r hi lo v i : Nat) (h : lo ≤ hi) :
    (putBits r hi lo (bits v hi lo)).testBit i = if lo ≤ i ∧ i ≤ hi then v.testBit i else r.testBit i := by
  rw [testBit_putBits _ _ _ _ _ h]
  by_cases hi' : lo ≤ i ∧ i ≤ hi
  · have hlt : i - lo < hi + 1 - lo := by omega
    have hadd : lo + (i - lo) = i := by omega
    rw [if_pos hi', if_pos hi', testBit_bits, hadd]
    simp [hlt]
  · rw [if_neg hi', if_neg hi']

theorem writeFields_nil (old v : Nat) : writeFields [] old v = old := rfl

theorem writeFields_cons_rw {f : Fld} (hf : f.acc = .rw) (fs : List Fld) (old v : Nat) :
    writeFields (f :: fs) old v = writeFields fs (putBits old f.hi f.lo (bits v f.hi f.lo)) v := by
  simp [writeFields, hf]

/-- The fields of MEM_REF are its 32 bits. -/
theorem writeFields_memRef (old : Nat) (v : BitVec 32) : writeFields RegKind.memRef.fields old v.toNat % 2 ^ 32 = v.toNat := by
  have hfields : RegKind.memRef.fields = [F.memRef_order, F.memRef_window, F.memRef_phase] := by simp only [RegKind.fields]
  refine Nat.eq_of_testBit_eq fun i => ?_
  rw [hfields, writeFields_cons_rw rfl, writeFields_cons_rw rfl, writeFields_cons_rw rfl, writeFields_nil, Nat.testBit_mod_two_pow,
    testBit_putBits_bits _ _ _ _ _ (by decide), testBit_putBits_bits _ _ _ _ _ (by decide), testBit_putBits_bits _ _ _ _ _ (by decide)]
  by_cases hi : i < 32
  · have hp : (F.memRef_phase.lo ≤ i ∧ i ≤ F.memRef_phase.hi) ↔ i ≤ 11 := by simp [F.memRef_phase]
    have hw : (F.memRef_window.lo ≤ i ∧ i ≤ F.memRef_window.hi) ↔ 12 ≤ i ∧ i ≤ 23 := by simp [F.memRef_window]
    have ho : (F.memRef_order.lo ≤ i ∧ i ≤ F.memRef_order.hi) ↔ 24 ≤ i ∧ i ≤ 31 := by simp [F.memRef_order]
    obtain h | h | h : i ≤ 11 ∨ 11 < i ∧ i ≤ 23 ∨ 23 < i := by omega
    · rw [if_pos (hp.2 h)]; simp [hi]
    · rw [if_neg (mt hp.1 (by omega)), if_pos (hw.2 (by omega))]; simp [hi]
    · rw [if_neg (mt hp.1 (by omega)), if_neg (mt hw.1 (by omega)), if_pos (ho.2 (by omega))]; simp [hi]
  · have hv : v.toNat < 2 ^ i := v.isLt.trans_le (Nat.pow_le_pow_right (by decide) (by omega))
    simp [hi, Nat.testBit_lt_two_pow hv]

/-! ### What each command does -/

section Channel
variable {s : State} {ch : Nat} (hch : s.chanPresent ch = true)
include hch

theorem execCalendarWindowOpen_eq {j : Fin 4} {fixed : GranRes} (hheld : s.held = false) (hw : bits (s.calAt ch s.sched) 23 12 ≠ 0)
    (hpos : calPos s.sched = calOpen (s.calAt ch s.sched) j) :
    let c := s.chan ch
    let w := s.calAt ch s.sched
    Yields (.calendarWindowOpen ch j fixed) s fun u =>
      (∀ b, mget (u.chan ch).lastRef b 0 = if b / 4 = calGroup w j then s.cnt else mget c.lastRef b 0) ∧
      (∀ b, mget (u.chan ch).refEnd b 0 = if b / 4 = calGroup w j then s.cnt + refreshLen s.step_ else mget c.refEnd b 0) ∧
      (j.val ≠ 0 → u.regs = s.regs ∧ (u.chan ch).scrub = c.scrub) ∧
      (∀ n, j.val = 0 → fixed = .corrected n → c.retrim = none → s.fld F.memCal_auto ch = 0 →
        u.fld F.memStat_ce ch = min (s.fld F.memStat_ce ch + n) (2 ^ 20 - 1)) ∧
      (j.val = 0 → c.retrim = none → s.fld F.memCal_auto ch = 0 → (u.chan ch).scrub = (c.scrub + 64) % 0x180000000) := by
  intro c w
  refine ⟨_, rfl, ?_⟩
  simp only [hheld, hch, Bool.not_true, Bool.or_self, Bool.false_or, hw, hpos, ne_eq, not_true_eq_false, decide_false, Bool.false_eq_true,
    if_false]
  obtain ⟨hlast, hend, hret, hscr⟩ := s.refreshBanks_chan ch (groupBanks (calGroup (s.calAt ch s.sched) j))
  have hchg : Chg { chans := true } s ((groupBanks (calGroup (s.calAt ch s.sched) j)).foldl (fun s b => s.refreshBank ch b) s) :=
    .foldl (fun _ _ => State.refreshBank_chg) _ .refl
  generalize (groupBanks (calGroup (s.calAt ch s.sched) j)).foldl (fun s b => s.refreshBank ch b) s = u at hlast hend hret hscr hchg ⊢
  simp only [mem_groupBanks] at hlast hend
  by_cases hj : j.val = 0
  · obtain ⟨htl, hte⟩ := u.trimSlot_refresh ch fixed
    have hpatrol (hr : (s.chan ch).retrim = none) (ha : s.fld F.memCal_auto ch = 0) :=
      State.trimSlot_patrol (s := u) (ch := ch) (by
        rw [← hch, State.chanPresent, State.dieAbsent, hchg.fuses_eq, State.chanPresent, State.dieAbsent]) (hret.trans hr)
        ((hchg.fld_eq ..).trans ha) fixed
    rw [hchg.fld_eq, hscr] at hpatrol
    rw [if_pos hj, htl, hte]
    exact ⟨hlast, hend, fun h => absurd hj h, fun n _ hf hr ha => (hpatrol hr ha).2 n hf, fun _ hr ha => (hpatrol hr ha).1⟩
  · rw [if_neg hj]
    exact ⟨hlast, hend, fun _ => ⟨hchg.regs_eq, hscr⟩, fun _ h => absurd h hj, fun h => absurd h hj⟩

theorem execHoldRefresh_eq {b : Fin 16} (hheld : s.held = true) (hlast : mget (s.chan ch).lastRef b 0 + 2304 ≤ s.cnt)
    (hend : ∀ x, x / 4 = b.val / 4 → mget (s.chan ch).refEnd x 0 ≤ s.cnt) (hk : ∀ k < refreshLen s.step_, s.heldAt (s.cnt + k) = true) :
    let c := s.chan ch
    let c' := { c with lastRef := mput c.lastRef b s.cnt, refEnd := mput c.refEnd b (s.cnt + refreshLen s.step_), overdue := mdel c.overdue b }
    exec (.holdRefresh ch b) s = .next { s with chans := mput s.chans ch c' } := by
  intro c c'
  have hb : (groupBanks (b / 4)).any (fun x => decide (s.cnt < mget (s.chan ch).refEnd x 0)) = false := by
    simp only [List.any_eq_false, decide_eq_true_eq, not_lt]
    exact fun x hx => hend x ((mem_groupBanks _ _).mp hx)
  have hall : (List.range (refreshLen s.step_)).all (fun k => s.heldAt (s.cnt + k)) = true := by simpa using hk
  simp only [exec, execHoldRefresh, hheld, hch, Nat.not_lt.mpr hlast, hb, hall, decide_false, Bool.not_true, Bool.or_self,
    Bool.false_eq_true, if_false]
  rfl

theorem execRefreshOverdue_eq {b : Fin 16} (hask : (s.chan ch).mayAsk b s.cnt (refreshLen s.step_) = true)
    (hlast : mget (s.chan ch).lastRef b 0 + 4032 ≤ s.cnt) :
    Yields (.refreshOverdue ch b) s fun u =>
      u.reqs = s.reqs ++ [⟨s.cnt, s.cnt + 64, refreshLen s.step_, 1, 0x1000 + ch⟩] ∧ (u.chan ch).overdue = mput (s.chan ch).overdue b s.cnt := by
  have hlen : refreshLen s.step_ ≠ 0 ∧ min (refreshLen s.step_) 65535 = refreshLen s.step_ := by
    simp only [refreshLen]
    split_ifs <;> decide
  refine ⟨_, rfl, ?_⟩
  simp only [hch, hask, Nat.not_lt.mpr hlast, decide_false, Bool.not_true, Bool.or_self, Bool.false_eq_true, if_false]
  refine ⟨?_, ?_⟩
  · rw [Chg.modChan.reqs_eq, Chg.satAdd.reqs_eq, State.request, if_neg hlen.1, hlen.2]
  · rw [State.modChan_same, Chg.satAdd.chan_eq, State.request_chg.chan_eq]

theorem execRetrimComplete_eq {r : Retrim} (hr : (s.chan ch).retrim = some r) (hdone : 1024 ≤ r.done) (hauto : s.fld F.memCal_auto ch = 0) :
    Yields (.retrimComplete ch) s fun u =>
      (u.chan ch).retrim = none ∧
      mfind (u.chan ch).runSets (4 * s.step_ + r.bin) =
        (match mfind (s.chan ch).runSets (4 * s.step_ + r.bin) with
         | some t => if t.full = true ∧ r.allFull = false then some t else some ⟨r.bin, r.allFull, s.nextId + 1⟩
         | none => some ⟨r.bin, r.allFull, s.nextId + 1⟩) := by
  have hlt := State.lt_of_chanPresent hch
  obtain ⟨u, hu, hret, hsets⟩ := s.retrimComplete_sets hr hdone hauto hlt
  refine ⟨u, hu, hret, ?_⟩
  rw [hsets]
  cases hf : mfind (s.chan ch).runSets (4 * s.step_ + r.bin) with
  | none => simp
  | some t =>
    simp only [Option.any_some, Bool.and_eq_true, Bool.not_eq_true']
    split_ifs
    · exact hf
    · exact mfind_mput_same ..

theorem execTemperatureBinChange_eq {temp : BitVec 8} (hne : binAfter temp.toNat (s.chan ch).bin ≠ (s.chan ch).bin)
    (hauto : s.fld F.memCal_auto ch = 0) :
    Yields (.temperatureBinChange ch temp) s fun u =>
      (u.chan ch).bin = binAfter temp.toNat (s.chan ch).bin ∧ (u.chan ch).retrim = none ∧ (u.chan ch).runSets = (s.chan ch).runSets := by
  have hlt := State.lt_of_chanPresent hch
  refine ⟨_, rfl, ?_⟩
  have hpres : (!s.chanPresent ch || decide ((s.chan ch).bin = binAfter temp.toNat (s.chan ch).bin)) = false := by
    simp [hch, Ne.symm hne]
  simp only [hpres, Bool.false_eq_true, if_false]
  generalize hv : (if (s.chan ch).retrim.isSome = true then s.event 0x0266 3 ch [] else s) = v
  have hauto' : v.fld F.memCal_auto ch = 0 := by
    rw [← hv]
    split_ifs
    · rw [State.fld, State.reg_event _ _ _ _ _ (regKey_ne (by decide) hlt (.inl (by decide)))]
      exact hauto
    · exact hauto
  have hsets : (v.chan ch).runSets = (s.chan ch).runSets := by
    rw [← hv]
    split_ifs
    · rw [State.event_chg.chan_eq]
    · rfl
  rw [State.retrimCheck_off (by rw [Chg.modChan.fld_eq]; exact hauto'), State.modChan_same]
  exact ⟨rfl, rfl, hsets⟩

section Write
variable {w : Writer} {off : Nat} {v : BitVec 32} (hw : s.mayWrite w = true)
include hw

theorem execRetrimForce_eq : Yields (.retrimForce w ch off v) s fun u =>
    u.fld F.memCal_auto ch = v.toNat % 2 ∧ (v.getLsbD 1 = true → (u.chan ch).retrim.isSome = true) := by
  have habs : s.dieAbsent (ch / 6) = false := State.dieAbsent_of_chanPresent hch
  have hlt := State.lt_of_chanPresent hch
  have hexec : exec (.retrimForce w ch off v) s = .next (s.writeMemCal ch v.toNat) := by
    simp only [exec, execRetrimForce, State.gated_of_mayWrite hw, State.absentOr, habs, Bool.false_eq_true, if_false]
  refine ⟨_, hexec, ?_, fun hbit => ?_⟩
  · have hauto : (s.writeMemCal ch v.toNat).fld F.memCal_auto ch = (s.setFld F.memCal_auto ch (bits v.toNat 0 0)).fld F.memCal_auto ch := by
      simp only [State.writeMemCal]
      split_ifs
      · exact State.retrimStart_chg.fld_eq ..
      · exact State.retrimCheck_chg.fld_eq ..
    rw [hauto, State.fld_setFld_same _ _ _ _ (by decide) (by decide)]
    simp [bits, Fld.width, F.memCal_auto]
  · have hbit' : bits v.toNat 1 1 = 1 := by
      have hmod : v.toNat / 2 % 2 = 1 := by simpa [BitVec.getLsbD, Nat.testBit, Nat.shiftRight_eq_div_pow] using hbit
      simpa [bits] using hmod
    simp only [State.writeMemCal, hbit', if_true, State.retrimStart, State.modChan_same]
    split_ifs with h
    · exact h
    · rfl

theorem execMemRefWrite_eq (hload : s.loading = none) (hrun : s.anyRunning = false) (hphase : bits v.toNat 11 0 < 2304)
    (horder : orderOk (bits v.toNat 31 24) = true) (hfeas : calFeasible (bits v.toNat 23 12) s.step_ = true) :
    Yields (.memRefWrite w ch off v) s fun u =>
      u.reg .memRef ch % 2 ^ 32 = v.toNat ∧ (u.chan ch).oldCal = some ((s.sched / 2304 + 1) * 2304, s.calAt ch s.sched) ∧
      u.fld F.hstHistate_modified 0 = 1 := by
  have habs : s.dieAbsent (ch / 6) = false := State.dieAbsent_of_chanPresent hch
  have hlt := State.lt_of_chanPresent hch
  have hcond : (decide (2303 < bits v.toNat 11 0) || !orderOk (bits v.toNat 31 24) || !calFeasible (bits v.toNat 23 12) s.step_) = false := by
    simp [horder, hfeas]; omega
  have hexec : exec (.memRefWrite w ch off v) s = .next (((s.modChan ch fun c =>
      { c with oldCal := some ((s.sched / 2304 + 1) * 2304, s.calAt ch s.sched) }).rwWrite .memRef ch v.toNat).modified) := by
    simp only [exec, execMemRefWrite, State.gated_of_mayWrite hw, State.absentOr, habs, State.imgWrite, hload, hrun, hcond,
      Option.isSome_none, Bool.false_and, Bool.false_eq_true, if_false]
  refine ⟨_, hexec, ?_, ?_, ?_⟩
  · have hne : regKey .memRef ch ≠ regKey F.hstHistate_modified.kind 0 := regKey_ne (by decide) hlt (.inl (by decide))
    rw [State.modified, State.reg_setFld_ne _ _ hne, State.rwWrite, State.reg_setReg_same, Nat.mod_mod_of_dvd _ (by decide)]
    exact writeFields_memRef _ v
  · rw [State.modified_chg.chan_eq, Chg.rwWrite.chan_eq, State.modChan_same]
  · rw [State.modified, State.fld_setFld_same _ _ _ _ (by decide) (by decide)]
    rfl

end Write
end Channel

/-- The bin after a temperature, with its hysteresis (R298). -/
theorem binAfter_hysteresis {temp b : Nat} (hb : b ≤ 3) :
    (binOf temp = if temp < 50 then 0 else if temp < 70 then 1 else if temp ≤ 85 then 2 else 3) ∧ binOf temp ≤ binAfter temp b ∧
    (b ≤ binOf temp → binAfter temp b = binOf temp) ∧
    (binOf temp < b → binAfter temp b ≤ b ∧ (binAfter temp b = b ↔ (if b = 1 then 50 else if b = 2 then 70 else 85) < temp + 3)) := by
  refine ⟨?_, ?_⟩
  · unfold binOf
    split_ifs <;> omega
  · obtain ⟨ht, hk⟩ | ⟨hl, ht, hk⟩ | ⟨hl, ht, hk⟩ | ⟨ht, hk⟩ := binOf_cases temp
    all_goals
      rw [hk]
      interval_cases b <;> simp [binAfter, hk, binFrom] <;> split_ifs <;> simp <;> omega

/-- Settles O19: a window's refreshes (`State.refreshBanks_chan`), the slot of trim and patrol behind them (`State.trimSlot_patrol`), a re-trim
done (`State.retrimComplete_sets`), the bins (`binOf_cases`) and the two registers. -/
theorem refreshTrimAndRegisters : Obligations.RefreshTrimAndRegisters :=
  ⟨fun _ _ hch => ⟨fun _ _ => execCalendarWindowOpen_eq hch, fun _ => execHoldRefresh_eq hch, fun _ => execRefreshOverdue_eq hch,
    fun _ => execRetrimComplete_eq hch, fun _ => execTemperatureBinChange_eq hch⟩, fun _ _ => binAfter_hysteresis,
    fun _ _ _ _ _ hw hch => ⟨execRetrimForce_eq hch hw, execMemRefWrite_eq hch hw⟩⟩

end Sys2Proof.Machine
end

section
/-!
The annex ports: requests, answers, failures and training (R286 to R288, R302).
-/
namespace Sys2Proof.Machine
set_option Elab.async false

/-! ## Fields of registers -/

/-- A field of another register kind than one just set. -/
theorem State.fld_setFld_kind (s : State) {f g : Fld} {i j v : Nat} (hi : i < 2 ^ 32) (hj : j < 2 ^ 32) (h : g.kind.code ≠ f.kind.code) :
    (s.setFld f i v).fld g j = s.fld g j := State.fld_setFld_ne _ _ (regKey_ne hi hj (.inl h))

/-- A field of another index than one just set. -/
theorem State.fld_setFld_index (s : State) {f g : Fld} {i j v : Nat} (hi : i < 2 ^ 32) (hj : j < 2 ^ 32) (h : j ≠ i) :
    (s.setFld f i v).fld g j = s.fld g j := State.fld_setFld_ne _ _ (regKey_ne hi hj (.inr h))

/-- A field of other bits than one just set. -/
theorem State.fld_setFld_bits (s : State) {f g : Fld} {i v : Nat}
    (h : g.kind = f.kind ∧ f.lo ≤ f.hi ∧ g.hi < 64 ∧ (g.hi < f.lo ∨ f.hi < g.lo)) : (s.setFld f i v).fld g i = s.fld g i :=
  State.fld_setFld_apart _ _ _ _ _ h.1 h.2.1 h.2.2.1 h.2.2.2

theorem State.fld_setFld_bits' (s : State) {f g : Fld} {i j v : Nat} (hi : i < 2 ^ 32) (hj : j < 2 ^ 32)
    (h : g.kind = f.kind ∧ f.lo ≤ f.hi ∧ g.hi < 64 ∧ (g.hi < f.lo ∨ f.hi < g.lo)) : (s.setFld f i v).fld g j = s.fld g j := by
  by_cases hij : j = i
  · subst hij; exact State.fld_setFld_bits s h
  · exact State.fld_setFld_index s hi hj hij

/-- A field just set to a value that it holds. -/
theorem State.fld_setFld_eq (s : State) {f : Fld} {i v : Nat} (h : f.lo ≤ f.hi ∧ f.hi < 64) (hv : v < 2 ^ f.width) :
    (s.setFld f i v).fld f i = v := by
  rw [State.fld_setFld_same _ _ _ _ h.1 h.2, Nat.mod_eq_of_lt hv]

theorem State.fld_satAdd_kind (s : State) {f g : Fld} {i j n : Nat} (hi : i < 2 ^ 32) (hj : j < 2 ^ 32) (h : g.kind.code ≠ f.kind.code) :
    (s.satAdd f i n).fld g j = s.fld g j := State.fld_setFld_kind s hi hj h

theorem State.fld_satAdd_bits (s : State) {f g : Fld} {i n : Nat}
    (h : g.kind = f.kind ∧ f.lo ≤ f.hi ∧ g.hi < 64 ∧ (g.hi < f.lo ∨ f.hi < g.lo)) : (s.satAdd f i n).fld g i = s.fld g i :=
  State.fld_setFld_bits s h

/-- An event leaves every field outside HST_EVSTAT. -/
theorem State.fld_event (s : State) (code kind idx : Nat) (items : List (Nat × Nat)) {f : Fld} {i : Nat} (hi : i < 2 ^ 32)
    (h : f.kind.code ≠ RegKind.hstEvstat.code) : (s.event code kind idx items).fld f i = s.fld f i := by
  rw [State.fld, State.reg_event _ _ _ _ _ (regKey_ne (by decide) hi (.inl h)), State.fld]

/-! ## The annex ports (R286 to R288, R302) -/

theorem State.closeWait_waitHold (s : State) (p : Nat) (ids : List Nat) :
    ((s.closeWait p ids).annex p).waitHold = (s.annex p).waitHold.filter fun i => !ids.contains i := by
  simp only [State.closeWait]
  split_ifs
  · rw [State.modAnnex_same]
  · exact congrArg AnnexPort.waitHold (State.modAnnex_same s p fun x => { x with waitHold := x.waitHold.filter fun i => !ids.contains i })

/-- Read data that has come marks its access. -/
theorem State.acc_annexData {s : State} {a : QAcc} (h : s.acc a.id = some a) : ∃ b, (s.annexData a).acc a.id = some b ∧
    b.arrData = true ∧ b.served = (List.range a.granules).map fun g => (g, s.cnt) := by
  have htake (l : List Nat) (v : State) (c : QAcc) (hc : v.acc a.id = some c) :
      ∃ c, (l.foldl (fun s g => s.takeData a g) v).acc a.id = some c := by
    induction l generalizing v c with
    | nil => exact ⟨c, hc⟩
    | cons g l ih => exact ih _ _ (State.acc_modAcc hc fun x => by split <;> rfl)
  have hchg (l : List Nat) : Chg { accs := true } s (l.foldl (fun s g => s.takeData a g) s) := .foldl (fun _ _ => State.takeData_chg) _ .refl
  simp only [State.annexData]
  split_ifs
  · obtain ⟨c, hc⟩ := htake (List.range a.granules) s a h
    exact ⟨_, State.acc_modAcc hc, rfl, by rw [(hchg _).cnt_eq]⟩
  · exact ⟨_, State.acc_modAcc h, rfl, rfl⟩

/-- What a port's failure makes of an access. -/
def QAcc.dropped (a : QAcc) (p sched cnt : Nat) : QAcc :=
  if a.live && a.port == some p && !a.arrData then
    if a.write then { a with arrData := true, doneAt := some sched }
    else { a with arrived := true, sent := true, arrData := true, lost := List.range a.granules
                  served := (List.range a.granules).map fun g => (g, cnt) }
  else a

theorem State.annexFail_accs (s : State) (p : Nat) : (s.annexFail p).accs = s.accs.map fun a => a.dropped p s.sched s.cnt := by
  simp only [State.annexFail]
  rw [Chg.satAdd.accs_eq, Chg.setFld.accs_eq]
  dsimp only
  rw [State.closeWait_chg.accs_eq, State.closeWait_chg.sched_eq, State.closeWait_chg.cnt_eq]
  rfl

theorem QAcc.dropped_id (a : QAcc) (p sched cnt : Nat) : (a.dropped p sched cnt).id = a.id := by
  unfold QAcc.dropped
  split_ifs <;> rfl

/-- No access of a port that failed waits for data. -/
theorem QAcc.dropped_arrData {a : QAcc} {p sched cnt : Nat} (hp : (a.dropped p sched cnt).port = some p)
    (hl : (a.dropped p sched cnt).live = true) : (a.dropped p sched cnt).arrData = true := by
  unfold QAcc.dropped at *
  split_ifs with h hw
  · rfl
  · rfl
  · rw [if_neg h] at hp hl
    cases hd : a.arrData with
    | true => rfl
    | false => simp [hp, hl, hd] at h

/-- What a port's failure leaves (R288). -/
def State.PortFailed (s : State) (p : Nat) (u : State) : Prop :=
  u.fld F.anxStat_state p = 3 ∧ u.ext = s.ext ∧
  (∀ a ∈ u.accs, a.port = some p → a.live = true → a.arrData = true) ∧ (u.annex p).waitHold = [] ∧
  ∀ n a, s.acc n = some a → a.live = true → a.port = some p → a.arrData = false → a.write = false →
    ∃ b, u.acc n = some b ∧ b.lost = List.range a.granules

/-- Its record keeps it so. -/
theorem State.PortFailed.of_chg {s u v : State} {p : Nat} (h : s.PortFailed p u) (hc : Chg { fns := true, regs := true } u v)
    (hst : v.fld F.anxStat_state p = u.fld F.anxStat_state p) : s.PortFailed p v := by
  obtain ⟨hstate, hext, hdone, hwait, hreads⟩ := h
  rw [State.PortFailed, hst, hc.ext_eq, hc.accs_eq, State.annex, hc.anx_eq]
  simp only [State.acc, hc.accs_eq]
  exact ⟨hstate, hext, hdone, hwait, hreads⟩

theorem State.annexFail_fails (s : State) (p : Nat) : s.PortFailed p (s.annexFail p) := by
  refine ⟨?_, State.annexFail_chg.ext_eq, fun a ha hport hlive => ?_, ?_, fun n a ha hlive hport hdata hw => ?_⟩
  · simp only [State.annexFail]
    rw [State.fld_satAdd_bits _ (by decide), State.fld_setFld_eq _ (by decide) (by decide)]
  · rw [State.annexFail_accs, List.mem_map] at ha
    obtain ⟨x, -, rfl⟩ := ha
    exact QAcc.dropped_arrData hport hlive
  · simp only [State.annexFail]
    refine Eq.trans (b := ((s.closeWait p (s.annex p).waitHold).annex p).waitHold) rfl ?_
    rw [State.closeWait_waitHold]
    simp
  · refine ⟨a.dropped p s.sched s.cnt, ?_, ?_⟩
    · rw [State.acc, State.annexFail_accs]
      exact find_map_id ha fun x => x.dropped_id ..
    · simp [QAcc.dropped, hlive, hport, hdata, hw]

/-- Mapping the ports changes what they map alone. -/
theorem State.fld_mapAnnex (s : State) {g : Fld} {j : Nat} (hj : j < 2 ^ 32)
    (h : g.kind = F.anxStat_size.kind ∧ F.anxStat_size.lo ≤ F.anxStat_size.hi ∧ g.hi < 64 ∧
      (g.hi < F.anxStat_size.lo ∨ F.anxStat_size.hi < g.lo)) : s.mapAnnex.fld g j = s.fld g j := by
  rw [State.mapAnnex, State.fld_setFld_bits' _ (by decide) hj h, State.fld_setFld_bits' _ (by decide) hj h]

/-- What a port maps of its device, given the room. -/
def State.mapsOf (s : State) (p room : Nat) : Nat := if s.fld F.anxStat_state p = 2 then min (s.annex p).cap room else 0

theorem State.mapsOf_le (s : State) (p room : Nat) : s.mapsOf p room ≤ room := by
  unfold State.mapsOf
  split_ifs <;> omega

theorem State.mapAnnex_sizes (s : State) : s.mapAnnex.fld F.anxStat_size 0 = s.mapsOf 0 annexLimitMiB ∧
    s.mapAnnex.fld F.anxStat_size 1 = s.mapsOf 1 (annexLimitMiB - s.mapsOf 0 annexLimitMiB) := by
  have h0 := s.mapsOf_le 0 annexLimitMiB
  have h1 := s.mapsOf_le 1 (annexLimitMiB - s.mapsOf 0 annexLimitMiB)
  have hlim : annexLimitMiB < 2 ^ F.anxStat_size.width := by decide
  have heq : s.mapAnnex = (s.setFld F.anxStat_size 0 (s.mapsOf 0 annexLimitMiB)).setFld F.anxStat_size 1
      (s.mapsOf 1 (annexLimitMiB - s.mapsOf 0 annexLimitMiB)) := rfl
  rw [heq]
  constructor
  · rw [State.fld_setFld_index _ (by decide) (by decide) (by decide), State.fld_setFld_eq _ (by decide) (by omega)]
  · rw [State.fld_setFld_eq _ (by decide) (by omega)]

/-- A port that trains maps nothing (R286). -/
theorem State.annexTrain_fields (s : State) {p : Nat} (hp : p < 2 ^ 32) : (s.annexTrain p).fld F.anxStat_state p = 1 ∧
    (s.annexTrain p).fld F.anxStat_size p = 0 ∧ (s.annexTrain p).fld F.anxCtl_timeout p = s.fld F.anxCtl_timeout p := by
  simp only [State.annexTrain, State.annexState]
  refine ⟨?_, ?_, ?_⟩ <;> rw [State.fld_event _ _ _ _ _ hp (by decide)]
  · exact State.fld_setFld_eq _ (by decide) (by decide)
  · rw [State.fld_setFld_bits _ (by decide), State.fld_setFld_eq _ (by decide) (by decide)]
  · rw [State.fld_setFld_kind _ hp hp (by decide), State.fld_setFld_kind _ hp hp (by decide)]

theorem State.annexFail_ctl (s : State) {p : Nat} (hp : p < 2 ^ 32) : (s.annexFail p).fld F.anxCtl_timeout p = s.fld F.anxCtl_timeout p := by
  simp only [State.annexFail]
  rw [State.fld_satAdd_kind _ hp hp (by decide), State.fld_setFld_kind _ hp hp (by decide)]
  exact State.closeWait_chg.fld_eq ..

/-- A field of one bit. -/
theorem bits_single (v k : Nat) : bits v k k = 1 ↔ v.testBit k = true := by
  have h : bits v k k = v / 2 ^ k % 2 := by rw [bits, show k + 1 - k = 1 by omega, pow_one]
  rw [h, Nat.testBit, Nat.shiftRight_eq_div_pow, Nat.one_and_eq_mod_two]
  simp

/-! ### Requests and answers (R286, R288) -/

section Port
variable {s : State} {p : Fin 2}

section Access
variable {n : Nat} {a : QAcc} (ha : s.acc n = some a) (hlive : a.live = true) (hport : a.port = some p.val)
include ha hlive hport

theorem execAnnexRequestSend_eq (hsent : a.sent = false) (harr : a.arrived = true) (hup : s.annexUp p = true) (hwr : s.annexWrite a = false)
    (hsrc : a.write = true → a.slots ≤ a.srcSlots) :
    Yields (.annexRequestSend p n) s fun u =>
      u.accs = s.accs.map fun q => if q.id = n then { q with sent := true, sentAt := s.wall } else q := by
  refine ⟨_, rfl, ?_⟩
  have hsend : (a.port != some p.val || !s.annexUp p || !s.annexSendable a) = false := by
    have hslots : (a.write && decide (a.srcSlots < a.slots)) = false := by
      cases h : a.write with
      | false => rfl
      | true => simpa [h] using hsrc
    simp [hport, hup, State.annexSendable, hlive, harr, hsent, hwr, hslots]
  simp only [ha, hsend, Bool.false_eq_true, if_false]
  rw [State.occAdd_chg.accs_eq]
  rfl

variable (hsent : a.sent = true) (hdata : a.arrData = false)
include hsent hdata

theorem execAnnexResponse_poisoned (hw : a.write = false) (bad : List Nat) :
    Yields (.annexResponse p n (.poisoned bad)) s fun u =>
      u.ext = s.ext ∧ ∃ b, u.acc n = some b ∧ b.arrData = true ∧ b.lost = (List.range a.granules).filter bad.contains ∧
        b.served = (List.range a.granules).map fun g => (g, s.cnt) := by
  refine ⟨_, rfl, ?_⟩
  obtain rfl := State.acc_id ha
  simp only [ha, hlive, hsent, hdata, hport, hw, Bool.not_true, bne_self_eq_false, Bool.or_self, Bool.false_eq_true, if_false]
  have hclose := State.closeWait_chg (s := s) (p := p) (ids := [a.id])
  have hdone (l : List Nat) (v : State) : Chg { regs := true, fns := true } v (l.foldl (fun s g => s.annexPoison p (a.addr + 64 * g)) v) :=
    .foldl (fun _ _ => State.annexPoison_chg) _ .refl
  obtain ⟨b, hb, hbd, hbs⟩ := State.acc_annexData (s := s.closeWait p [a.id]) (a := a) (by rw [State.acc, hclose.accs_eq]; exact ha)
  rw [hclose.cnt_eq] at hbs
  refine ⟨?_, _, State.acc_modAcc (a := b) ?_, hbd, ?_, hbs⟩
  · rw [State.modAcc_chg.ext_eq, (hdone _ _).ext_eq, State.occAdd_chg.ext_eq, State.annexData_chg.ext_eq, hclose.ext_eq]
  · rw [State.acc, (hdone _ _).accs_eq, State.occAdd_chg.accs_eq]
    exact hb
  · rfl

theorem execAnnexResponse_written (hw : a.write = true) (hlost : a.lost = []) (hf : ∀ g < a.granules, s.fencedAt (a.addr + 64 * g) = false)
    (hlen : a.src.length = a.bytes) (hm : memWf s.ext = true) (res : AnxRes) :
    Yields (.annexResponse p n res) s fun u =>
      Stored s.ext u.ext a.addr a.src ∧ ∃ b, u.acc n = some b ∧ b.doneAt = some s.sched := by
  obtain rfl := State.acc_id ha
  have hchg := State.closeWait_chg (s := s) (p := p) (ids := [a.id])
  have hacc : (s.closeWait p [a.id]).acc a.id = some a := by rw [State.acc, hchg.accs_eq]; exact ha
  have hlen' : a.src.length = 64 * a.granules := by rw [hlen, QAcc.granules, QAcc.bytes]; omega
  obtain ⟨hacc', hst, -⟩ := (s.closeWait p [a.id]).granuleEffects_eq hacc hw hlost
    (fun g hg => by rw [← hf g hg]; simp only [State.fencedAt, hchg.eng_eq]) hlen' (by rw [hchg.ext_eq]; exact hm) a.granules le_rfl
  rw [← hlen', List.take_length, hchg.ext_eq] at hst
  have hexec : exec (.annexResponse p a.id res) s =
      .next (((s.closeWait p [a.id]).writeEffect a).modAcc a.id fun a => { a with arrData := true }) := by
    simp only [exec, execAnnexResponse, ha, hlive, hsent, hdata, hport, hw, Bool.not_true, bne_self_eq_false, Bool.or_self,
      Bool.false_eq_true, if_false, if_true]
  refine ⟨_, hexec, hst, _, State.acc_modAcc (State.acc_modAcc hacc'), ?_⟩
  exact congrArg some hchg.sched_eq

end Access

/-! ### The failure of a link (R287) -/

section Up
variable (hst : s.fld F.anxStat_state p = 2)
include hst

theorem execAnnexLinkDown_fails : Yields (.annexLinkDown p) s (s.PortFailed p) := by
  have hp : p.val < 2 ^ 32 := by omega
  refine ⟨_, rfl, ?_⟩
  simp only [hst, if_true]
  exact (s.annexFail_fails p).of_chg State.event_chg (State.fld_event _ _ _ _ _ hp (by decide))

theorem execAnnexTimeout_fails {a : QAcc} (ha : a ∈ s.accs) (hlive : a.live = true) (hport : a.port = some p.val) (hsent : a.sent = true)
    (hdata : a.arrData = false) (htime : a.sentAt + 100 * max 1 (s.fld F.anxCtl_timeout p) ≤ s.wall) :
    Yields (.annexTimeout p) s (s.PortFailed p) := by
  have hp : p.val < 2 ^ 32 := by omega
  refine ⟨_, rfl, ?_⟩
  obtain ⟨x, hx⟩ : ∃ x, (s.accs.find? fun a =>
      a.live && a.port == some p.val && a.sent && !a.arrData && decide (a.sentAt + s.annexLimit p ≤ s.wall)) = some x := by
    rw [← Option.isSome_iff_exists, List.find?_isSome]
    exact ⟨a, ha, by simp [hlive, hport, hsent, hdata, State.annexLimit, htime]⟩
  simp only [hx, hst, if_true]
  refine (s.annexFail_fails p).of_chg (v := s.annexLate p x.addr)
    (.via (.via (.via .refl State.errLog_chg) State.lossSeen_chg) State.event_chg) ?_
  rw [State.annexLate, State.fld_event _ _ _ _ _ hp (by decide), State.lossSeen, State.fld_setFld_kind _ (by decide) hp (by decide),
    State.errLog, State.fld_setFld_kind _ (by decide) hp (by decide), State.fld_setFld_kind _ (by decide) hp (by decide),
    State.fld_setFld_kind _ (by decide) hp (by decide), State.fld_setFld_kind _ (by decide) hp (by decide)]

end Up

/-! ### Training (R302) -/

section Training
variable (hst : s.fld F.anxStat_state p = 1)
include hst

theorem execAnnexTrainingEnd_none : Yields (.annexTrainingEnd p none) s fun u => u.fld F.anxStat_state p = 3 := by
  have hp : p.val < 2 ^ 32 := by omega
  refine ⟨_, rfl, ?_⟩
  simp only [hst, ne_eq, not_true_eq_false, if_false]
  rw [State.fld_mapAnnex _ hp (by decide), State.annexState, State.fld_event _ _ _ _ _ hp (by decide),
    State.fld_setFld_eq _ (by decide) (by decide)]

theorem execAnnexTrainingEnd_up (l : AnxLink) : Yields (.annexTrainingEnd p (some l)) s fun u =>
    u.fld F.anxStat_state p = 2 ∧ u.fld F.anxStat_width p = l.width ∧ u.fld F.anxStat_rate p = l.rate ∧
    u.fld F.anxStat_size p = min (l.capacity / 2 ^ 20) (if p.val = 0 then 2 ^ 22 else 2 ^ 22 - u.fld F.anxStat_size 0) ∧
    (p.val = 1 → u.fld F.anxStat_size 0 = if s.fld F.anxStat_state 0 = 2 then min (s.annex 0).cap (2 ^ 22) else 0) := by
  have hp : p.val < 2 ^ 32 := by omega
  refine ⟨_, rfl, ?_⟩
  simp only [hst, ne_eq, not_true_eq_false, if_false]
  generalize hv : State.annexState _ p 2 = v
  have hstate : v.fld F.anxStat_state p = 2 := by
    rw [← hv, State.annexState, State.fld_event _ _ _ _ _ hp (by decide), State.fld_setFld_eq _ (by decide) (by decide)]
  have hcap : (v.annex p).cap = l.capacity / 2 ^ 20 := by
    rw [← hv, State.annex, State.annexState_chg.anx_eq]
    exact congrArg AnnexPort.cap (State.modAnnex_same ..)
  have hwidth : v.fld F.anxStat_width p = l.width := by
    rw [← hv, State.annexState, State.fld_event _ _ _ _ _ hp (by decide), State.fld_setFld_bits _ (by decide), Chg.modAnnex.fld_eq,
      State.fld_setFld_bits _ (by decide), State.fld_setFld_eq _ (by decide) (l.width.isLt.trans (by decide))]
  have hrate : v.fld F.anxStat_rate p = l.rate := by
    rw [← hv, State.annexState, State.fld_event _ _ _ _ _ hp (by decide), State.fld_setFld_bits _ (by decide), Chg.modAnnex.fld_eq,
      State.fld_setFld_eq _ (by decide) (l.rate.isLt.trans (by decide))]
  obtain ⟨hs0, hs1⟩ := v.mapAnnex_sizes
  rw [State.fld_mapAnnex _ hp (by decide), State.fld_mapAnnex _ hp (by decide), State.fld_mapAnnex _ hp (by decide)]
  refine ⟨hstate, hwidth, hrate, ?_, fun h1 => ?_⟩
  · obtain h0 | h1 : p.val = 0 ∨ p.val = 1 := by omega
    · rw [h0] at hstate hcap
      rw [h0, hs0, State.mapsOf, if_pos hstate, hcap, if_pos rfl]
      rfl
    · rw [h1] at hstate hcap
      rw [h1, hs1, hs0, State.mapsOf, if_pos hstate, hcap, if_neg (by decide)]
      rfl
  · have hother : v.fld F.anxStat_state 0 = s.fld F.anxStat_state 0 := by
      rw [← hv, h1, State.annexState, State.fld_event _ _ _ _ _ (by decide) (by decide),
        State.fld_setFld_index _ (by decide) (by decide) (by decide), Chg.modAnnex.fld_eq,
        State.fld_setFld_index _ (by decide) (by decide) (by decide), State.fld_setFld_index _ (by decide) (by decide) (by decide)]
    have hcap0 : v.annex 0 = s.annex 0 := by
      rw [← hv, h1, State.annex, State.annexState_chg.anx_eq]
      exact State.modAnnex_ne _ _ _ (by decide)
    rw [hs0, State.mapsOf, hother, hcap0]
    rfl

end Training

theorem execAnnexRetrain_eq {w : Writer} {off : Nat} {v : BitVec 32} (hw : s.mayWrite w = true) (hload : s.loading = none)
    (hrun : s.anyRunning = false) :
    Yields (.annexRetrain w p off v) s fun u =>
      u.fld F.anxCtl_timeout p = bits v.toNat 15 0 ∧
      (s.fld F.anxCtl_enable p = 1 → v.getLsbD 17 = true → u.fld F.anxStat_state p = 1 ∧ u.fld F.anxStat_size p = 0) := by
  have hp : p.val < 2 ^ 32 := by omega
  refine ⟨_, rfl, ?_⟩
  simp only [State.writeAnxCtl, State.gated_of_mayWrite hw, State.imgWrite, hload, Option.isSome_none, Bool.false_and, Bool.false_eq_true,
    if_false]
  have hrun' : (s.setFld F.anxCtl_timeout p (bits v.toNat 15 0)).anyRunning = false := by simpa using hrun
  have htime : (s.setFld F.anxCtl_timeout p (bits v.toNat 15 0)).fld F.anxCtl_timeout p = bits v.toNat 15 0 :=
    State.fld_setFld_eq _ (by decide) (bits_lt _ _ _)
  have hen : (s.setFld F.anxCtl_timeout p (bits v.toNat 15 0)).fld F.anxCtl_enable p = s.fld F.anxCtl_enable p :=
    State.fld_setFld_bits _ (by decide)
  generalize s.setFld F.anxCtl_timeout p (bits v.toNat 15 0) = t at hrun' htime hen ⊢
  simp only [hrun', Bool.false_eq_true, and_false, if_false, hen]
  split_ifs with hretr hup
  · obtain ⟨h1, h2, h3⟩ := State.annexTrain_fields (((t.annexFail p).setFld F.anxStat_timeouts p (t.fld F.anxStat_timeouts p))) hp
    refine ⟨?_, fun _ _ => ⟨h1, h2⟩⟩
    rw [h3, State.fld_setFld_kind _ hp hp (by decide), State.annexFail_ctl _ hp, htime]
  · obtain ⟨h1, h2, h3⟩ := t.annexTrain_fields hp
    exact ⟨h3.trans htime, fun _ _ => ⟨h1, h2⟩⟩
  · exact ⟨htime, fun he hb => absurd ⟨(bits_single v.toNat 17).2 hb, he⟩ hretr⟩

end Port

/-- Settles O20: a response marks its access (`State.acc_annexData`), a failure drops what is outstanding (`State.annexFail_fails`), and
the ports are mapped in turn (`State.mapAnnex_sizes`). -/
theorem annexPorts : Obligations.AnnexPorts := by
  intro s p
  refine ⟨fun n a ha hlive hport => execAnnexRequestSend_eq ha hlive hport, fun n a ha hlive hport hsent hdata => ?answers,
    fun hst => ⟨execAnnexLinkDown_fails hst, fun a => execAnnexTimeout_fails hst⟩,
    fun hst => ⟨execAnnexTrainingEnd_none hst, execAnnexTrainingEnd_up hst⟩, fun w off v => execAnnexRetrain_eq⟩
  case answers =>
    exact ⟨execAnnexResponse_poisoned ha hlive hport hsent hdata, execAnnexResponse_written ha hlive hport hsent hdata⟩

end Sys2Proof.Machine
end

section
/-!
Holds and the occupancy window (R229 to R236, R251 to R258).
-/
namespace Sys2Proof.Machine
set_option Elab.async false

theorem Chg.boundaryAsk_eq {P : Foot} {s u : State} (h : Chg P s u) (hP : P.boundaryAsk = false := by rfl) :
    u.boundaryAsk = s.boundaryAsk := by
  rw [h.same]; simp only [State.within, hP, cond_false]

/-! ## Requests at a boundary and by a write (R236, R251) -/

theorem State.request_reqs (s : State) (cause source len : Nat) : (s.request cause source len).reqs =
    s.reqs ++ if len = 0 then [] else [⟨s.cnt, s.cnt + 64, min len 65535, cause, source⟩] := by
  unfold State.request
  split_ifs <;> simp

/-- What the end of a boundary's wait asks. -/
def State.boundaryStep (s : State) (a : Nat × Nat × Nat × Nat) : State :=
  let s := s.request a.1 a.2.1 a.2.2.1
  if a.1 = 7 then s.modClk fun k => { k with chg := k.chg.map fun g => { g with first := some (s.cnt + 64) } } else s

theorem State.boundaryStep_chg {s : State} {a : Nat × Nat × Nat × Nat} : Chg { reqs := true, clk := true } s (s.boundaryStep a) := by
  unfold State.boundaryStep
  exact .ite (.via (.via .refl State.request_chg) .modClk) (.via .refl State.request_chg)

theorem State.boundaryStep_reqs (s : State) (a : Nat × Nat × Nat × Nat) : (s.boundaryStep a).reqs =
    s.reqs ++ if a.2.2.1 = 0 then [] else [⟨s.cnt, s.cnt + 64, min a.2.2.1 65535, a.1, a.2.1⟩] := by
  rw [← State.request_reqs, State.boundaryStep]
  split_ifs <;> rfl

theorem State.boundarySteps_reqs (l : List (Nat × Nat × Nat × Nat)) (s : State) : (l.foldl State.boundaryStep s).reqs =
    s.reqs ++ (l.filter fun a => a.2.2.1 != 0).map fun a => ⟨s.cnt, s.cnt + 64, min a.2.2.1 65535, a.1, a.2.1⟩ := by
  induction l generalizing s with
  | nil => simp
  | cons a l ih =>
    rw [List.foldl_cons, ih, State.boundaryStep_reqs, State.boundaryStep_chg.cnt_eq]
    by_cases h : a.2.2.1 = 0 <;> simp [h]

/-! ## The occupancy window (R251 to R258) -/

/-- What an occupancy is taken over rests on the image, the fuses, the uses counted and the annex ports enabled. -/
theorem State.occUnits_congr {s u : State} (h : Chg { regs := true } s u)
    (ha : ∀ p < 2, u.fld F.anxCtl_enable p = s.fld F.anxCtl_enable p) (lvl w : Nat) : u.occUnits lvl w = s.occUnits lvl w := by
  have hen : ((List.range 2).filter fun p => u.fld F.anxCtl_enable p == 1) = (List.range 2).filter fun p => s.fld F.anxCtl_enable p == 1 :=
    List.filter_congr fun p hp => by rw [ha p (List.mem_range.mp hp)]
  have hrole (t : Xy) : u.role t = s.role t := by
    simp only [State.role, State.inMesh, State.cols, State.galRec, h.img_eq, h.fuses_eq]
    rfl
  have hchan : u.channels = s.channels :=
    List.filter_congr fun c _ => by simp only [State.chanPresent, State.dieAbsent, h.fuses_eq]
  have hactive (g : Nat) : u.activeOf g = s.activeOf g := by simp only [State.activeOf, hrole]
  have hcols : u.cols = s.cols := by simp only [State.cols, h.fuses_eq]
  have hmode : u.mode = s.mode := by simp only [State.mode, h.img_eq]
  unfold State.occUnits
  simp only [hrole, hchan, hactive, hcols, hmode, h.occ_eq, hen]

theorem State.fld_occLevel_kind (s : State) (n w : Nat) {g : Fld} {j : Nat} (hn : n < 2 ^ 32) (hj : j < 2 ^ 32)
    (h : g.kind.code ≠ RegKind.ptcOcc.code) : (s.occLevel n w).fld g j = s.fld g j := by
  simp only [State.occLevel]
  rw [State.fld_setFld_kind _ hn hj h, State.fld_setFld_kind _ hn hj h, State.fld_setFld_kind _ hn hj h]

/-- The mean of a level (R256). -/
def State.occMean (s : State) (lvl w : Nat) : Nat :=
  share (((s.occUnits lvl w).map fun q => mget s.occ.use (lvl * 2 ^ 32 + q.1) 0).sum) (((s.occUnits lvl w).map (·.2)).sum)

theorem State.occLevel_mean (s : State) (n w : Nat) : (s.occLevel n w).fld F.ptcOcc_mean n = s.occMean n w := by
  have hshare (a b : Nat) : share a b < 2 ^ F.ptcOcc_mean.width := by
    have hw : 2 ^ F.ptcOcc_mean.width = 65536 := by decide
    rw [hw, share]
    split_ifs <;> omega
  simp only [State.occLevel]
  rw [State.fld_setFld_bits _ (by decide), State.fld_setFld_bits _ (by decide), State.fld_setFld_eq _ (by decide) (hshare _ _)]
  simp only [State.occMean, List.foldl_map, List.sum_eq_foldl]

theorem State.occLevel_other (s : State) {n k : Nat} (w : Nat) (hn : n < 2 ^ 32) (hk : k < 2 ^ 32) (h : k ≠ n) :
    (s.occLevel n w).fld F.ptcOcc_mean k = s.fld F.ptcOcc_mean k := by
  simp only [State.occLevel]
  rw [State.fld_setFld_index _ hn hk h, State.fld_setFld_index _ hn hk h, State.fld_setFld_index _ hn hk h]

/-- Level by level the means are set. -/
theorem State.occLevels_mean (s : State) (w n : Nat) (hn : n < 2 ^ 32) :
    Chg { regs := true } s ((List.range n).foldl (fun s n => s.occLevel n w) s) ∧
    (∀ p < 2, ((List.range n).foldl (fun s n => s.occLevel n w) s).fld F.anxCtl_enable p = s.fld F.anxCtl_enable p) ∧
    ∀ lvl < n, ((List.range n).foldl (fun s n => s.occLevel n w) s).fld F.ptcOcc_mean lvl = s.occMean lvl w := by
  induction n with
  | zero => exact ⟨.refl, fun _ _ => rfl, fun _ h => absurd h (Nat.not_lt_zero _)⟩
  | succ n ih =>
    obtain ⟨hchg, hanx, hmean⟩ := ih (by omega)
    rw [List.range_succ, List.foldl_append, List.foldl_cons, List.foldl_nil]
    generalize (List.range n).foldl (fun s n => s.occLevel n w) s = u at hchg hanx hmean ⊢
    refine ⟨hchg.via State.occLevel_chg, fun p hp => ?_, fun lvl hl => ?_⟩
    · rw [State.fld_occLevel_kind _ _ _ (by omega) (by omega) (by decide), hanx p hp]
    · by_cases h : lvl = n
      · subst h
        rw [State.occLevel_mean, State.occMean, State.occUnits_congr hchg hanx, hchg.occ_eq, State.occMean]
      · rw [State.occLevel_other _ _ (by omega) (by omega) h, hmean lvl (by omega)]

/-! ## Holds (R229 to R233) -/

theorem State.reg_hold (s : State) (h : Option (Nat × Nat × Nat)) (k : RegKind) (i : Nat) : ({ s with hold := h } : State).reg k i = s.reg k i := rfl

theorem State.fld_hold (s : State) (h : Option (Nat × Nat × Nat)) (f : Fld) (i : Nat) : ({ s with hold := h } : State).fld f i = s.fld f i := rfl

/-- An entry of the hold log begun: its registers, and no other part of the state. -/
theorem State.logHold_regs (s : State) {n : Nat} (hn : n < 2 ^ 32) (c src causes : Nat) (lap : Bool) :
    let v := ((((s.setReg .ptcHloga n c).setReg .ptcHlogb n 0).setFld F.ptcHlogb_source n src).setFld F.ptcHlogb_causes n causes).setFld
      F.ptcHlogptr_next 0 (n + 1)
    let u := if lap = true then v.setFld F.ptcHlogptr_wrapped 0 1 else v
    Chg { regs := true } s u ∧ u.cnt = s.cnt ∧ u.reg .ptcHloga n = c % 2 ^ 64 ∧ u.fld F.ptcHlogb_length n = 0 ∧ u.fld F.ptcHlogptr_next 0 = (n + 1) % 256 := by
  have h0 : (0 : Nat) < 2 ^ 32 := by decide
  intro v u
  have hv : Chg { regs := true } s v := .via (.via (.via (.via (.via .refl .setReg) .setReg) .setFld) .setFld) .setFld
  have hchg : Chg { regs := true } s u := .ite (.via hv .setFld) hv
  have hreg : v.reg .ptcHloga n = c % 2 ^ 64 := by
    have hb : regKey .ptcHloga n ≠ regKey .ptcHlogb n := regKey_ne_of_code n (by decide)
    have hp : regKey .ptcHloga n ≠ regKey .ptcHlogptr 0 := regKey_ne h0 hn (.inl (by decide))
    rw [State.reg_setFld_ne (f := F.ptcHlogptr_next) _ _ hp, State.reg_setFld_ne (f := F.ptcHlogb_causes) _ _ hb,
      State.reg_setFld_ne (f := F.ptcHlogb_source) _ _ hb, State.reg_setReg_ne _ _ hb, State.reg_setReg_same]
  have hlen : v.fld F.ptcHlogb_length n = 0 := by
    rw [State.fld_setFld_kind _ h0 hn (by decide), State.fld_setFld_bits _ (by decide), State.fld_setFld_bits _ (by decide), State.fld]
    exact (congrArg (bits · _ _) (State.reg_setReg_same ..)).trans (by decide)
  have hnext : v.fld F.ptcHlogptr_next 0 = (n + 1) % 256 := State.fld_setFld_same _ _ _ _ (by decide) (by decide)
  have hcnt : v.cnt = s.cnt := by
    have hb : regKey .ptcCount 0 ≠ regKey .ptcHlogb n := regKey_ne hn h0 (.inl (by decide))
    have ha : regKey .ptcCount 0 ≠ regKey .ptcHloga n := regKey_ne hn h0 (.inl (by decide))
    rw [State.cnt, State.reg_setFld_ne (f := F.ptcHlogptr_next) _ _ (regKey_ne_of_code 0 (by decide)),
      State.reg_setFld_ne (f := F.ptcHlogb_causes) _ _ hb, State.reg_setFld_ne (f := F.ptcHlogb_source) _ _ hb,
      State.reg_setReg_ne _ _ hb, State.reg_setReg_ne _ _ ha, State.cnt]
  refine ⟨hchg, ?_⟩
  cases lap with
  | false => exact ⟨hcnt, hreg, hlen, hnext⟩
  | true =>
    refine ⟨?_, ?_, ?_, ?_⟩
    · exact (State.reg_setFld_ne (f := F.ptcHlogptr_wrapped) _ _ (regKey_ne_of_code 0 (by decide))).trans hcnt
    · exact (State.reg_setFld_ne (f := F.ptcHlogptr_wrapped) _ _ (regKey_ne h0 hn (.inl (by decide)))).trans hreg
    · exact (State.fld_setFld_kind _ h0 hn (by decide)).trans hlen
    · exact (State.fld_setFld_bits _ (by decide)).trans hnext

/-- Settles O23: the hold log's entry (`State.logHold_regs`), the requests of a boundary in turn (`State.boundarySteps_reqs`) and the means
of the window (`State.occLevels_mean`). -/
theorem holdsAndOccupancy : Obligations.HoldsAndOccupancy := by
  refine ⟨fun s => ⟨fun hheld hnone => ⟨_, rfl, ?begin_⟩, fun c n last hhold hheld => ⟨_, rfl, ?end_⟩, fun hinv => ?running,
    fun hinv => ⟨_, rfl, ?boundary⟩, fun w off v hw => ?write⟩, fun s hheld hdue => ⟨_, rfl, ?window⟩⟩
  case begin_ =>
    have hn : s.fld F.ptcHlogptr_next 0 < 2 ^ 32 := (bits_lt _ _ _).trans (by decide)
    simp only [hheld, hnone, Bool.not_true, Option.isSome_none, Bool.or_self, Bool.false_eq_true, if_false]
    generalize (mfind s.regs (regKey .ptcHloga (s.fld F.ptcHlogptr_next 0))).isSome = lap
    generalize State.causesAt _ _ ||| State.causesAt _ _ = causes
    obtain ⟨hchg, hcnt, ha, hb, hp⟩ := s.logHold_regs hn (s.runStart (s.reqs.length + 1) s.cnt) _ causes lap
    rw [State.fld_hold, State.fld_hold, State.reg_hold, hcnt]
    exact ⟨rfl, ha, hb, hp, hchg.reqs_eq, hchg.tiles_eq⟩
  case end_ =>
    simp only [hhold, hheld, Bool.false_eq_true, if_false]
    refine ⟨State.stepSettled_chg.hold_eq, ?_, State.stepSettled_chg.reqs_eq, State.stepSettled_chg.tiles_eq⟩
    rw [State.stepSettled_chg.fld_eq]
    exact State.fld_setFld_same _ _ _ _ (by decide) (by decide)
  case running => simp [exec, execBoundaryHoldRequest, hinv]
  case boundary =>
    have hchg (l : List (Nat × Nat × Nat × Nat)) (v : State) : Chg { reqs := true, clk := true } v (l.foldl State.boundaryStep v) :=
      .foldl (fun _ _ => State.boundaryStep_chg) _ .refl
    simp only [hinv, Bool.false_eq_true, if_false]
    exact ⟨(hchg _ _).boundaryAsk_eq, State.boundarySteps_reqs _ _⟩
  case write =>
    have hlen : bits v.toNat 15 0 ≤ 65535 := by have := bits_lt v.toNat 15 0; omega
    simp only [exec, execPtcHoldreqWrite, State.gated_of_mayWrite hw, State.request, Nat.min_eq_left hlen]
  case window =>
    simp only [hheld, Nat.not_lt.mpr hdue, decide_false, Bool.or_self, Bool.false_eq_true, if_false]
    refine ⟨trivial, fun lvl hl => ?_⟩
    obtain ⟨-, -, hmean⟩ := s.occLevels_mean s.occ.window 6 (by decide)
    have hgal (l : List Nat) (hl' : ∀ g ∈ l, g < 2 ^ 32) (val : Nat → Nat) (p : Nat → Bool) (v : State) :
        (l.foldl (fun v g => if p g then v.setFld F.galOcc_bankuse g (val g) else v) v).fld F.ptcOcc_mean lvl = v.fld F.ptcOcc_mean lvl := by
      induction l generalizing v with
      | nil => rfl
      | cons g l ih =>
        rw [List.foldl_cons, ih fun x hx => hl' x (by simp [hx])]
        split_ifs
        · exact State.fld_setFld_kind _ (hl' g (by simp)) (by omega) (by decide)
        · rfl
    exact (hgal _ (fun g hg => by simp at hg; omega) _ _ _).trans (hmean lvl hl)

end Sys2Proof.Machine
end

section
/-!
Parks, decisions, starts, steps and ends of invocations (R87, R239 to R246, R465).
-/
namespace Sys2Proof.Machine
set_option Elab.async false

/-! ## What a completion and a launch's status leave of the registers -/

/-- A completion of any command but the load of an image writes no register. -/
theorem State.complete_fns {s : State} {c : Cmd} {opcode status result : Nat} {report : Option (Word × Word)} (h : opcode ≠ 1) :
    Chg { fns := true } s (s.complete c opcode status result report) := by
  unfold State.complete
  simp only [h, if_false]
  exact .ite .refl (.via .refl .modFunc)

theorem State.runDone_fns {s : State} {r status : Nat} {report : Option (Word × Word)} :
    Chg { fns := true, regions := true } s (s.runDone r status report) := by
  unfold State.runDone
  refine .via (.foldl (fun v c => .via .refl (State.complete_fns (by decide))) _ ?_) .modRegion
  split
  · exact .via .refl (State.complete_fns (by decide))
  · exact .refl

theorem State.reg_lstat (s : State) (L : LaunchSt) (v : Nat) {k : RegKind} {i : Nat} (h : regKey k i ≠ regKey .fabLstat 0) :
    (s.lstat L v).reg k i = s.reg k i := by
  unfold State.lstat
  split_ifs
  · exact State.reg_setFld_ne (f := F.fabLstat_state) _ _ h
  · rfl

theorem State.reg_lstatOver (s : State) (r : Nat) {k : RegKind} {i : Nat} (h : regKey k i ≠ regKey .fabLstat 0) :
    (s.lstatOver r).reg k i = s.reg k i := by
  unfold State.lstatOver
  split
  · exact State.reg_lstat _ _ _ h
  · rfl

/-! ## The end of an invocation (R239 to R246) -/

theorem Tile.loopEnd_scratch (t : Tile) (k : Nat) (ls : List Nat) : (t.loopEnd k ls).scratch = t.scratch ∧ (t.loopEnd k ls).invs = t.invs := by
  induction ls generalizing t with
  | nil => exact ⟨rfl, rfl⟩
  | cons l ls ih =>
    simp only [Tile.loopEnd]
    split_ifs
    · exact ⟨rfl, rfl⟩
    · exact ih _
    · exact ih _

theorem Tile.advance_fields (t : Tile) : t.advance.scratch = t.scratch ∧ t.advance.invs = t.invs := by
  unfold Tile.advance
  split_ifs
  · exact ⟨rfl, rfl⟩
  · exact t.loopEnd_scratch _ _

/-- A register lies below every register of a kind with a higher code, whatever its index. -/
theorem regKey_ne_of_lt {k k' : RegKind} {i : Nat} (j : Nat) (hi : i < 2 ^ 32) (h : k.code < k'.code) : regKey k i ≠ regKey k' j := by
  unfold regKey
  omega

/-- What the tiles' late counts leave of the registers below theirs. -/
theorem State.fld_setLates (l : List Xy) (v : Xy → State → Nat) (s : State) {g : Fld} {i : Nat} (hi : i < 2 ^ 32)
    (h : g.kind.code < RegKind.tilLate.code) :
    (l.foldl (fun s t => s.setFld F.tilLate_last (tIx t) (v t s)) s).fld g i = s.fld g i := by
  induction l generalizing s with
  | nil => rfl
  | cons t l ih =>
    rw [List.foldl_cons, ih]
    exact State.fld_setFld_ne (f := F.tilLate_last) _ _ (regKey_ne_of_lt _ hi h)

/-- What the report of a run says (R244). -/
theorem State.runReport_fields (s : State) {r : Nat} (hr : r < 8) :
    (s.runReport r).fld F.ptcRuna_schedlen r = min (s.sched + 1 - (s.region r).t0) (2 ^ 32 - 1) ∧
    (s.runReport r).fld F.ptcRunb_valid r = 1 := by
  have h32 : r < 2 ^ 32 := by omega
  have hmin (n : Nat) : min n (2 ^ 32 - 1) < 2 ^ F.ptcRuna_schedlen.width := by
    have hw : 2 ^ F.ptcRuna_schedlen.width = 4294967296 := by decide
    omega
  simp only [State.runReport]
  rw [State.fld_setLates _ _ _ h32 (by decide), State.fld_setLates _ _ _ h32 (by decide)]
  generalize hv : State.setFld _ F.ptcRunb_valid r 1 = v
  have hlen : v.fld F.ptcRuna_schedlen r = min (s.sched + 1 - (s.region r).t0) (2 ^ 32 - 1) := by
    rw [← hv]
    iterate 8 rw [State.fld_setFld_kind _ h32 h32 (by decide)]
    rw [State.fld, State.reg_setReg_ne _ _ (regKey_ne_of_code r (by decide)), ← State.fld, State.fld_setFld_bits _ (by decide),
      State.fld_setFld_eq _ (by decide) (hmin _)]
  have hvalid : v.fld F.ptcRunb_valid r = 1 := by
    rw [← hv, State.fld_setFld_eq _ (by decide) (by decide)]
  split_ifs
  · rw [State.fld_setFld_kind _ (by decide) h32 (by decide), State.fld_setFld_kind _ (by decide) h32 (by decide)]
    exact ⟨hlen, hvalid⟩
  · exact ⟨hlen, hvalid⟩

/-- A region's invocation is as it was, and so are the registers of its run's report. -/
structure State.RunKept (s u : State) (r : Nat) : Prop where
  inInv : (u.region r).inInv = (s.region r).inInv
  invNo : (u.region r).invNo = (s.region r).invNo
  runa : u.reg .ptcRuna r = s.reg .ptcRuna r
  runb : u.reg .ptcRunb r = s.reg .ptcRunb r

theorem State.RunKept.trans {s u v : State} {r : Nat} (h : s.RunKept u r) (k : u.RunKept v r) : s.RunKept v r :=
  ⟨k.inInv.trans h.inInv, k.invNo.trans h.invNo, k.runa.trans h.runa, k.runb.trans h.runb⟩

theorem State.RunKept.refl {s : State} {r : Nat} : s.RunKept s r := ⟨rfl, rfl, rfl, rfl⟩

theorem State.RunKept.of_chg {P : Foot} {s u : State} {r : Nat} (h : Chg P s u) (hr : P.regs = false := by rfl) (hi : P.img = false := by rfl)
    (hf : P.fuses = false := by rfl) (hg : P.regions = false := by rfl) : s.RunKept u r :=
  ⟨by rw [h.region_eq _ hg], by rw [h.region_eq _ hg], h.reg_eq _ _ hr hi hf, h.reg_eq _ _ hr hi hf⟩

theorem State.RunKept.modRegion {s : State} {r n : Nat} {f : Region → Region} (hf : ∀ R, (f R).inInv = R.inInv ∧ (f R).invNo = R.invNo) :
    s.RunKept (s.modRegion n f) r := by
  have hreg : ((s.modRegion n f).region r).inInv = (s.region r).inInv ∧ ((s.modRegion n f).region r).invNo = (s.region r).invNo := by
    by_cases h : r = n
    · subst h; rw [State.modRegion_same]; exact hf _
    · rw [State.modRegion_ne _ _ _ h]; exact ⟨rfl, rfl⟩
  exact ⟨hreg.1, hreg.2, Chg.modRegion.reg_eq .., Chg.modRegion.reg_eq ..⟩

/-- An event is counted outside the report. -/
theorem State.RunKept.event {s : State} {r code kind idx : Nat} {items : List (Nat × Nat)} (hr : r < 8) :
    s.RunKept (s.event code kind idx items) r :=
  ⟨by rw [State.event_chg.region_eq], by rw [State.event_chg.region_eq],
   State.reg_event _ _ _ _ _ (regKey_ne (by decide) (by omega) (.inl (by decide))),
   State.reg_event _ _ _ _ _ (regKey_ne (by decide) (by omega) (.inl (by decide)))⟩

/-- FAB_STRAG lies above the registers of a run's report, whatever its index. -/
theorem State.RunKept.setStrag {s : State} {r n v : Nat} {f : Fld} (hf : f.kind = .fabStrag) (hr : r < 8) :
    s.RunKept (s.setFld f n v) r := by
  have ha : regKey .ptcRuna r ≠ regKey f.kind n := by rw [hf]; simp only [regKey, RegKind.code]; omega
  have hb : regKey .ptcRunb r ≠ regKey f.kind n := by rw [hf]; simp only [regKey, RegKind.code]; omega
  exact ⟨by rw [Chg.setFld.region_eq], by rw [Chg.setFld.region_eq], State.reg_setFld_ne _ _ ha, State.reg_setFld_ne _ _ hb⟩

theorem State.RunKept.straggler {s : State} {r : Nat} (hr : r < 8) (n : Nat) : s.RunKept (s.straggler n) r := by
  have hlast : s.RunKept (s.satAdd F.fabStrag_last n 1) r := .setStrag rfl hr
  simp only [State.straggler]
  split_ifs
  · refine hlast.trans ?_
    unfold State.suspect
    dsimp only
    split_ifs
    · exact .refl
    · exact (State.RunKept.setStrag rfl hr).trans (.event hr)
    · exact .setStrag rfl hr
  · exact hlast

theorem State.RunKept.nextStepAt {s : State} {r q next : Nat} (hr : r < 8) : s.RunKept (s.nextStepAt q next) r := by
  have hev (b : Bool) : s.RunKept (if b = true then s.event 0x029C 8 0 [] else s) r := by
    cases b
    · exact .refl
    · exact .event hr
  simp only [State.nextStepAt]
  exact (hev _).trans (.modRegion fun _ => ⟨rfl, rfl⟩)

theorem State.RunKept.releaseAt {s : State} {r q c : Nat} : s.RunKept (s.releaseAt q c) r := by
  have hset : s.RunKept (s.modRegion q fun R => { R with pend := R.pend.map fun p => { p with release := some c } }) r :=
    .modRegion fun _ => ⟨rfl, rfl⟩
  simp only [State.releaseAt]
  split
  · split_ifs
    · exact hset.trans ⟨rfl, rfl, rfl, rfl⟩
    · exact hset
  · exact hset

theorem State.RunKept.barrierDone {s : State} {r : Nat} (hr : r < 8) (L : LaunchSt) (last : Nat) : s.RunKept (s.barrierDone L last) r := by
  have hstart : s.RunKept ((s.modLaunch L.tree.launchId fun L => { L with arrivals := [], firstArr := none }).straggler last) r :=
    (State.RunKept.of_chg State.modLaunch_chg).trans (.straggler hr last)
  simp only [State.barrierDone]
  split_ifs
  · refine .trans ?_ .releaseAt
    refine .trans ?_ (.modRegion fun _ => ⟨rfl, rfl⟩)
    exact hstart.trans (.of_chg State.sendRelease_chg)
  · refine .trans ?_ (.nextStepAt hr)
    exact hstart.trans (.of_chg State.forward_chg)

theorem State.RunKept.tryArrive {s : State} {r q : Nat} (hr : r < 8) : s.RunKept (s.tryArrive q) r := by
  have htake (v : State) (L : LaunchSt) (n : Nat) : v.RunKept (v.takeArrival L n) r := by
    simp only [State.takeArrival]
    split_ifs
    · exact .refl
    · exact .barrierDone hr L _
    · exact .of_chg State.modLaunch_chg
  have harrive : s.RunKept (s.arrive q) r := by
    simp only [State.arrive]
    split
    · exact .refl
    · split_ifs
      · refine .trans ?_ (htake _ _ _)
        exact .modRegion fun _ => ⟨rfl, rfl⟩
      · refine .trans ?_ (.of_chg .modFab)
        refine .trans ?_ (.of_chg State.toNode_chg)
        exact .modRegion fun _ => ⟨rfl, rfl⟩
  simp only [State.tryArrive]
  split
  · exact .refl
  · split_ifs
    · exact harrive
    · exact .refl

theorem State.RunKept.runDone {s : State} {r st : Nat} {rep : Option (Word × Word)} : s.RunKept (s.runDone r st rep) r := by
  have hreg (k : RegKind) : (s.runDone r st rep).reg k r = s.reg k r := State.runDone_fns.reg_eq ..
  have hregion : ((s.runDone r st rep).region r).inInv = (s.region r).inInv ∧ ((s.runDone r st rep).region r).invNo = (s.region r).invNo := by
    simp only [State.runDone]
    rw [State.modRegion_same, Chg.region_eq (.foldl (P := { fns := true }) (fun _ _ => State.complete_fns (by decide)) _ .refl)]
    cases (s.region r).cmd with
    | none => exact ⟨rfl, rfl⟩
    | some c =>
      dsimp only
      rw [State.complete_chg.region_eq]
      exact ⟨rfl, rfl⟩
  exact ⟨hregion.1, hregion.2, hreg _, hreg _⟩

theorem State.RunKept.regionDone {s : State} {r : Nat} (h : (s.region r).inInv = false) : s.RunKept (s.regionDone r) r := by
  have hregion : (s.regionDone r).region r = { s.region r with
      running := false, inInv := false, begun := false, pend := none, series := none, armed := false } := by
    rw [State.regionDone, State.hbSeries_chg.region_eq, State.modRegion_same]
  exact ⟨by rw [hregion, h], by rw [hregion], State.regionDone_chg.reg_eq .., State.regionDone_chg.reg_eq ..⟩

theorem State.RunKept.lstatOver {s : State} {r q : Nat} (hr : r < 8) : s.RunKept (s.lstatOver q) r :=
  ⟨by rw [State.lstatOver_chg.region_eq], by rw [State.lstatOver_chg.region_eq],
   State.reg_lstatOver _ _ (regKey_ne_of_lt _ (by omega) (by decide)), State.reg_lstatOver _ _ (regKey_ne_of_lt _ (by omega) (by decide))⟩

theorem State.RunKept.seriesEnds {s : State} {r : Nat} (hr : r < 8) (h : (s.region r).inInv = false) : s.RunKept (s.seriesEnds r) r := by
  have hdone : s.RunKept ((s.lstatOver r).runDone r 0) r := (State.RunKept.lstatOver hr).trans .runDone
  exact hdone.trans (.regionDone (hdone.inInv.trans h))

/-- With no launch queued on the region none begins. -/
theorem State.dequeue_none {s : State} {r : Nat} (hq : ∀ L ∈ s.fab.launches, L.region = r → L.queued = false) : s.dequeue r = s := by
  have hfind : (s.fab.launches.find? fun L => L.region == r && L.queued && !L.lfailed) = none := by
    simp only [List.find?_eq_none, Bool.and_eq_true, beq_iff_eq, not_and]
    exact fun L hL hr => by simp [hq L hL hr.1] at hr
  simp only [State.dequeue, hfind]

/-- What the end of a region's invocation leaves: the region's count and its report, and every tile (R244 to R246). -/
theorem State.regionEnd_fields (s : State) {r : Nat} (hr : r < 8) (hq : ∀ L ∈ s.fab.launches, L.region = r → L.queued = false) :
    (∀ y, (s.regionEnd r).tile y = s.tile y) ∧ ((s.regionEnd r).region r).inInv = false ∧
    ((s.regionEnd r).region r).invNo = (s.region r).invNo + 1 ∧
    (s.regionEnd r).fld F.ptcRuna_schedlen r = min (s.sched + 1 - (s.region r).t0) (2 ^ 32 - 1) ∧
    (s.regionEnd r).fld F.ptcRunb_valid r = 1 ∧ (s.regionEnd r).scanDue = true := by
  have h32 : r < 2 ^ 32 := by omega
  obtain ⟨hlen, hvalid⟩ := s.runReport_fields hr
  simp only [State.regionEnd]
  -- The report, then the count of the invocation and the scan asked for.
  generalize hw : (State.modRegion (s.runReport r) r _) = w
  have hwc : Chg { regs := true, regions := true } s w := by
    rw [← hw]
    exact .via (.via .refl State.runReport_chg) .modRegion
  have hwr : (w.region r).inInv = false ∧ (w.region r).invNo = (s.region r).invNo + 1 := by
    rw [← hw, State.modRegion_same, State.runReport_chg.region_eq]
    exact ⟨rfl, rfl⟩
  have hwreg (k : RegKind) : w.reg k r = (s.runReport r).reg k r := by
    rw [← hw]
    exact Chg.modRegion.reg_eq ..
  generalize hv : ({ w with scanDue := true } : State) = v
  have hvc : Chg { scanDue := true } w v := by
    rw [← hv]
    exact .plain
  have hvs : v.scanDue = true := by rw [← hv]
  have hkept (u : State) (hk : v.RunKept u r) (ht : ∀ y, u.tile y = v.tile y) (hs : u.scanDue = v.scanDue) :
      (∀ y, u.tile y = s.tile y) ∧ (u.region r).inInv = false ∧ (u.region r).invNo = (s.region r).invNo + 1 ∧
      u.fld F.ptcRuna_schedlen r = min (s.sched + 1 - (s.region r).t0) (2 ^ 32 - 1) ∧ u.fld F.ptcRunb_valid r = 1 ∧ u.scanDue = true := by
    refine ⟨fun y => by rw [ht, hvc.tile_eq, hwc.tile_eq], by rw [hk.inInv, hvc.region_eq, hwr.1], by rw [hk.invNo, hvc.region_eq, hwr.2],
      ?_, ?_, by rw [hs, hvs]⟩
    · rw [← hlen, State.fld, State.fld]
      exact congrArg (bits · _ _) (hk.runa.trans ((hvc.reg_eq ..).trans (hwreg _)))
    · rw [← hvalid, State.fld, State.fld]
      exact congrArg (bits · _ _) (hk.runb.trans ((hvc.reg_eq ..).trans (hwreg _)))
  have hvi : (v.region r).inInv = false := by rw [hvc.region_eq, hwr.1]
  split
  · have hq' : ∀ L ∈ (State.regionDone ((v.lstatOver r).runDone r 0 (some ((v.runWords r)))) r).fab.launches,
        L.region = r → L.queued = false := by
      rw [State.regionDone_chg.fab_eq, State.runDone_chg.fab_eq, State.lstatOver_chg.fab_eq, hvc.fab_eq, hwc.fab_eq]
      exact hq
    rw [State.dequeue_none hq']
    have hrun : v.RunKept ((v.lstatOver r).runDone r 0 (some (v.runWords r))) r := (State.RunKept.lstatOver hr).trans .runDone
    refine hkept _ (hrun.trans (.regionDone (hrun.inInv.trans hvi))) (fun y => ?_) ?_
    · rw [State.regionDone_chg.tile_eq, State.runDone_chg.tile_eq, State.lstatOver_chg.tile_eq]
    · rw [State.regionDone_chg.scanDue_eq, State.runDone_chg.scanDue_eq, State.lstatOver_chg.scanDue_eq]
  · next x hx =>
    generalize hz : State.modRegion (State.event v _ _ _ _) r _ = z
    have hzk : v.RunKept z r := by
      rw [← hz]
      refine .trans (.event hr) (.modRegion fun _ => ⟨rfl, rfl⟩)
    have hzc : Chg { regs := true, fns := true, regions := true } v z := by
      rw [← hz]
      exact .via (.via .refl State.event_chg) .modRegion
    generalize hn : (if ((z.regionRec r).map (·.role) == some 1 && !z.packsHere r) = true then z.sealStep r (x.step + 1) else z) = n
    have hnc : Chg { ext := true, wts := true } z n := by
      rw [← hn]
      exact .ite (.via .refl State.sealStep_chg) .refl
    have hnk : v.RunKept n r := hzk.trans (.of_chg hnc)
    split_ifs
    · refine hkept _ (hnk.trans (.seriesEnds hr (hnk.inInv.trans hvi))) (fun y => ?_) ?_
      · rw [State.seriesEnds_chg.tile_eq, hnc.tile_eq, hzc.tile_eq]
      · rw [State.seriesEnds_chg.scanDue_eq, hnc.scanDue_eq, hzc.scanDue_eq]
    · refine hkept _ (hnk.trans (.tryArrive hr)) (fun y => ?_) ?_
      · rw [State.tryArrive_chg.tile_eq, hnc.tile_eq, hzc.tile_eq]
      · rw [State.tryArrive_chg.scanDue_eq, hnc.scanDue_eq, hzc.scanDue_eq]

/-! ## The start of an invocation (R87, R239) -/

theorem State.mem_tilesOf {s : State} {r : Nat} {t : Xy} (h : t ∈ s.tilesOf r) :
    (s.galRec (galOf t)).region = r ∧ t.x < 64 ∧ tIx t < 2 ^ 32 := by
  simp only [State.tilesOf, State.galsOf, State.activeOf, List.mem_flatMap, List.mem_filter, List.mem_map, List.mem_range, beq_iff_eq] at h
  obtain ⟨g, ⟨hg, hr⟩, ⟨k, hk, rfl⟩, -⟩ := h
  have hgal : galOf (tileAt g k) = g := by
    simp only [galOf, tileAt]
    omega
  refine ⟨by rw [hgal]; exact hr, ?_, ?_⟩
  all_goals
    simp only [tIx, tileAt]
    omega

theorem tIx_inj {t u : Xy} (ht : t.x < 64) (hu : u.x < 64) (h : tIx t = tIx u) : t = u := by
  cases t; cases u
  simp only [tIx, Xy.mk.injEq] at *
  omega

theorem State.tilesOf_congr {P : Foot} {s u : State} (h : Chg P s u) (hi : P.img = false := by rfl) (hf : P.fuses = false := by rfl) (r : Nat) :
    u.tilesOf r = s.tilesOf r := by
  have hgal (g : Nat) : u.galRec g = s.galRec g := by
    unfold State.galRec
    rw [h.img_eq hi]
  have hrole (t : Xy) : u.role t = s.role t := by
    simp only [State.role, State.inMesh, State.cols, hgal, h.fuses_eq hf]
    rfl
  have hactive (g : Nat) : u.activeOf g = s.activeOf g := by simp only [State.activeOf, hrole]
  have hfun : u.activeOf = s.activeOf := funext hactive
  simp only [State.tilesOf, State.galsOf, hgal, hfun]

/-- The tile at the start of an invocation, and what it keeps. -/
structure Tile.Begun (T U : Tile) (keep : Bool) : Prop where
  inInv : U.inInv = true
  pc : U.pc = 0
  late : U.late = 0
  lvls : U.lvls = []
  preds : U.preds = 0
  scratch : U.scratch = T.scratch
  vregs : U.vregs = if keep = true then T.vregs else []

theorem Tile.begin_begun (T : Tile) (p : Plan) (ix pads : Nat) (loc keep : Bool) : T.Begun (T.begin_ p ix pads loc keep) keep :=
  ⟨rfl, rfl, rfl, rfl, rfl, rfl, rfl⟩

theorem Tile.Begun.again {T U : Tile} {keep : Bool} (h : T.Begun U keep) (p : Plan) (ix pads : Nat) (loc : Bool) :
    T.Begun (U.begin_ p ix pads loc keep) keep where
  inInv := rfl
  pc := rfl
  late := rfl
  lvls := rfl
  preds := rfl
  scratch := h.scratch
  vregs := by
    change (if keep = true then U.vregs else []) = _
    rw [h.vregs]
    cases keep <;> rfl

/-- A tile of the region begins its plan. -/
def State.beginTile (p : Plan) (s : State) (t : Xy) : State :=
  s.modTile (tIx t) fun T =>
    T.begin_ p (tIx t) (s.reg .tilPadctl (tIx t)) (s.fld F.tilMxctl_local (tIx t) == 1) (s.fld F.tilVctl_keep (tIx t) == 1)

theorem State.beginTile_chg {p : Plan} {s : State} {t : Xy} : Chg { tiles := true } s (s.beginTile p t) :=
  .onModTile .refl (.via .refl Tile.begin__tchg)

theorem State.beginTiles_chg {p : Plan} {s : State} (l : List Xy) : Chg { tiles := true } s (l.foldl (State.beginTile p) s) :=
  .foldl (fun _ _ => State.beginTile_chg) l .refl

theorem State.beginTiles_other (p : Plan) {y : Nat} (l : List Xy) (s : State) (h : ∀ t ∈ l, tIx t ≠ y) :
    (l.foldl (State.beginTile p) s).tile y = s.tile y := by
  induction l generalizing s with
  | nil => rfl
  | cons t l ih =>
    rw [List.forall_mem_cons] at h
    rw [List.foldl_cons, ih _ h.2]
    exact State.modTile_ne _ _ _ (Ne.symm h.1)

theorem State.beginTile_kept {p : Plan} {T : Tile} {keep : Bool} {y : Nat} {s : State} (t : Xy) (hk : (s.fld F.tilVctl_keep y == 1) = keep)
    (hT : T.Begun (s.tile y) keep) : T.Begun ((s.beginTile p t).tile y) keep := by
  by_cases h : y = tIx t
  · subst h
    rw [State.beginTile, State.modTile_same, hk]
    exact hT.again ..
  · rw [State.beginTile, State.modTile_ne _ _ _ h]
    exact hT

theorem State.beginTiles_kept {p : Plan} {T : Tile} {keep : Bool} {y : Nat} (l : List Xy) (s : State)
    (hk : (s.fld F.tilVctl_keep y == 1) = keep) (hT : T.Begun (s.tile y) keep) : T.Begun ((l.foldl (State.beginTile p) s).tile y) keep := by
  induction l generalizing s with
  | nil => exact hT
  | cons t l ih =>
    rw [List.foldl_cons]
    exact ih _ (by rw [State.beginTile_chg.fld_eq]; exact hk) (State.beginTile_kept t hk hT)

theorem State.beginTiles_begun {p : Plan} {t : Xy} (l : List Xy) (s : State) (ht : t ∈ l) :
    (s.tile (tIx t)).Begun ((l.foldl (State.beginTile p) s).tile (tIx t)) (s.fld F.tilVctl_keep (tIx t) == 1) := by
  induction l generalizing s with
  | nil => cases ht
  | cons u l ih =>
    rw [List.foldl_cons]
    by_cases h : tIx t = tIx u
    · refine State.beginTiles_kept l _ (by rw [State.beginTile_chg.fld_eq]) ?_
      rw [State.beginTile, ← h, State.modTile_same]
      exact Tile.begin_begun ..
    · have hl : t ∈ l := (List.mem_cons.mp ht).resolve_left (fun e => h (by rw [e]))
      have := ih (s.beginTile p u) hl
      rwa [State.beginTile_chg.fld_eq, State.beginTile, State.modTile_ne _ _ _ h] at this

/-- The registers of `LNK_BUDGET` alone are cleared. -/
theorem State.reg_clearBudget (s : State) (r : Nat) {k : RegKind} {i : Nat} (hi : i < 2 ^ 32) (h : k.code ≠ RegKind.lnkBudget.code) :
    (s.clearBudget r).reg k i = s.reg k i := by
  have hfold (l : List Nat) (hl : ∀ p ∈ l, p < 2 ^ 32) (u : State) : (l.foldl (fun s p => s.setFld F.lnkBudget_used p 0) u).reg k i = u.reg k i := by
    induction l generalizing u with
    | nil => rfl
    | cons p l ih =>
      rw [List.forall_mem_cons] at hl
      rw [List.foldl_cons, ih hl.2]
      exact State.reg_setFld_ne (f := F.lnkBudget_used) _ _ (regKey_ne hl.1 hi (.inl h))
  simp only [State.clearBudget]
  split_ifs
  · exact hfold _ (fun p hp => by rw [List.mem_range] at hp; omega) s
  · rfl

/-- A region at the start of its invocation. -/
def State.beginRegion (s : State) (R : Region) : Region :=
  { R with inInv := true, t0 := s.sched, t0c := s.cnt, t0w := s.wall, launchT0 := if R.begun then R.launchT0 else s.sched, begun := true,
           pend := none, lateIssue := 0, loss := false }

/-- The start of an invocation on a region's tiles: what comes before it and what comes after. -/
theorem State.invBegin_split (s : State) {r : Nat} {p : Plan} (hp : s.installed r = some p) :
    ∃ v, Chg { gals := true } (((s.clearBudget r).tilesOf r).foldl (State.beginTile p) (s.clearBudget r)) v ∧
      Chg { regs := true, park := true, chans := true, fns := true, wts := true } (v.modRegion r v.beginRegion) (s.invBegin r) := by
  unfold State.invBegin
  rw [hp]
  dsimp only
  generalize hv : List.foldl (fun (s : State) (g : Nat) => s.modGal g _) _ _ = v
  refine ⟨v, by rw [← hv]; exact .foldl (fun _ _ => .modGal) _ .refl, ?_⟩
  refine .via (.via ?_ State.loadBin_chg) State.wptrDone_chg
  generalize hw : State.modRegion _ r _ = w
  have hw' : Chg { regs := true, park := true, chans := true, fns := true, wts := true } w w := .refl
  have hpark : Chg { regs := true, park := true, chans := true, fns := true, wts := true } w
      (match w.park with
      | some k => match k.t0 with | some t => if t ≤ w.cnt then { w with park := none } else w | none => w
      | none => w) := by
    split
    · split
      · exact .ite .plain .refl
      · exact .refl
    · exact .refl
  rw [← hw] at hpark ⊢
  split
  · exact .ite (.via hpark State.lstat_chg) hpark
  · exact hpark

theorem State.invBegin_region (s : State) {r : Nat} {p : Plan} (hp : s.installed r = some p) :
    ((s.invBegin r).region r).inInv = true ∧ ((s.invBegin r).region r).t0 = s.sched ∧ ((s.invBegin r).region r).t0c = s.cnt ∧
    ((s.invBegin r).region r).pend = none ∧ ((s.invBegin r).region r).series = (s.region r).series := by
  obtain ⟨v, hv, hend⟩ := s.invBegin_split hp
  have hvs : Chg { regs := true, tiles := true, gals := true } s v := .via (.via (.via .refl State.clearBudget_chg) (State.beginTiles_chg _)) hv
  have hreg : (s.invBegin r).region r = v.beginRegion (s.region r) := by
    rw [hend.region_eq, State.modRegion_same, hvs.region_eq]
  have hvc : Chg { tiles := true, gals := true } (s.clearBudget r) v :=
    .via (.via .refl (State.beginTiles_chg _)) hv
  have hreg0 (k : RegKind) (h : k.code ≠ RegKind.lnkBudget.code) : v.reg k 0 = s.reg k 0 := by
    rw [hvc.reg_eq, State.reg_clearBudget _ _ (by decide) h]
  rw [hreg]
  exact ⟨rfl, hreg0 _ (by decide), hreg0 _ (by decide), rfl, rfl⟩

theorem State.invBegin_region_ne (s : State) {r d : Nat} (h : r ≠ d) : (s.invBegin d).region r = s.region r := by
  cases hp : s.installed d with
  | none => rw [State.invBegin, hp]
  | some p =>
    obtain ⟨v, hv, hend⟩ := s.invBegin_split hp
    rw [hend.region_eq, State.modRegion_ne _ _ _ h, hv.region_eq, (State.beginTiles_chg _).region_eq, State.clearBudget_chg.region_eq]

theorem State.invBegin_tile (s : State) {r : Nat} {p : Plan} (hp : s.installed r = some p) {t : Xy} (ht : t ∈ s.tilesOf r) :
    (s.tile (tIx t)).Begun ((s.invBegin r).tile (tIx t)) (s.fld F.tilVctl_keep (tIx t) == 1) := by
  obtain ⟨v, hv, hend⟩ := s.invBegin_split hp
  have hbegun := State.beginTiles_begun (p := p) _ (s.clearBudget r) ht
  rw [State.clearBudget_chg.tile_eq, State.fld, State.reg_clearBudget _ _ (State.mem_tilesOf ht).2.2 (by decide)] at hbegun
  rw [hend.tile_eq, Chg.modRegion.tile_eq, hv.tile_eq, State.tilesOf_congr State.clearBudget_chg]
  exact hbegun

theorem State.invBegin_tile_ne (s : State) {d y : Nat} (h : ∀ t ∈ s.tilesOf d, tIx t ≠ y) : (s.invBegin d).tile y = s.tile y := by
  cases hp : s.installed d with
  | none => rw [State.invBegin, hp]
  | some p =>
    obtain ⟨v, hv, hend⟩ := s.invBegin_split hp
    rw [hend.tile_eq, Chg.modRegion.tile_eq, hv.tile_eq, State.tilesOf_congr State.clearBudget_chg, State.beginTiles_other p _ _ h,
      State.clearBudget_chg.tile_eq]


/-! ## Drafts that begin with their region -/

/-- What the start of the drafts of a region leaves: the region itself, in its invocation, and its tiles. -/
theorem State.beginDrafts_kept (s : State) {r : Nat} (h : (s.region r).inInv = true) :
    (s.beginDrafts r).region r = s.region r ∧ ∀ t ∈ s.tilesOf r, (s.beginDrafts r).tile (tIx t) = s.tile (tIx t) := by
  have hfold (l : List Nat) (u : State) (hi : u.img = s.img) (hr : u.region r = s.region r)
      (ht : ∀ t ∈ s.tilesOf r, u.tile (tIx t) = s.tile (tIx t)) :
      let f := fun (s : State) d =>
        let R := s.region d
        if (match s.regionRec d with | some x => x.role == 2 && x.draftOf == r | none => false) && R.running && R.armed && s.mayBegin d && s.draftFree R then
          (s.invBegin d).modRegion d fun q => { q with series := q.series.map fun x =>
            { x with step := x.step + b2n R.begun, endedAt := none, between := false, nextAt := none, arrived := false } }
        else s
      (l.foldl f u).region r = s.region r ∧ ∀ t ∈ s.tilesOf r, (l.foldl f u).tile (tIx t) = s.tile (tIx t) := by
    intro f
    induction l generalizing u with
    | nil => exact ⟨hr, ht⟩
    | cons d l ih =>
      rw [List.foldl_cons]
      by_cases hc : f u d = u
      · rw [hc]
        exact ih u hi hr ht
      · have hmay : u.mayBegin d = true := by
          by_contra hm
          exact hc (by simp [f, hm])
        have hne : r ≠ d := by
          rintro rfl
          simp [State.mayBegin, hr, h] at hmay
        have hfud : f u d = (u.invBegin d).modRegion d fun q => { q with series := q.series.map fun x =>
            { x with step := x.step + b2n (u.region d).begun, endedAt := none, between := false, nextAt := none, arrived := false } } := by
          by_contra hn
          refine hc ?_
          simp only [f] at hn ⊢
          split_ifs at hn with hif
          · exact absurd rfl hn
          · exact if_neg hif
        rw [hfud]
        refine ih _ ?_ ?_ fun t hmem => ?_
        · rw [Chg.modRegion.img_eq, State.invBegin_chg.img_eq, hi]
        · rw [State.modRegion_ne _ _ _ hne, State.invBegin_region_ne _ hne, hr]
        · rw [Chg.modRegion.tile_eq, State.invBegin_tile_ne _ fun t' ht' e => ?_, ht t hmem]
          obtain ⟨hreg, hx, -⟩ := State.mem_tilesOf hmem
          obtain ⟨hreg', hx', -⟩ := State.mem_tilesOf ht'
          rw [tIx_inj hx' hx e] at hreg'
          simp only [State.galRec, hi] at hreg hreg'
          exact hne (hreg.symm.trans hreg')
  exact hfold _ s rfl rfl fun _ _ => rfl

/-- An overrun leaves the registers of plan time (R484). -/
theorem State.sched_overrun (s : State) (r k n : Nat) : (s.overrun r k n).sched = s.sched := by
  have hfold (l : List Nat) (u : State) :
      (l.foldl (fun s e => (s.event 0x02A1 7 e [(8, k), (4, n)]).satAdd F.srvStat_overrun e 1) u).sched = u.sched := by
    induction l generalizing u with
    | nil => rfl
    | cons e l ih =>
      rw [List.foldl_cons, ih, ← State.sched_event u 0x02A1 7 e [(8, k), (4, n)]]
      exact State.reg_setFld_ne (f := F.srvStat_overrun) _ _ (regKey_ne_of_lt _ (by decide) (by decide))
  exact hfold _ s

theorem State.countFails_fields (s : State) (r : Nat) :
    ((s.countFails r none).region r).running = false ∧ ((s.countFails r none).region r).pend = none ∧
    ((s.countFails r none).region r).plan = (s.region r).plan := by
  have hrun (u : State) (n : Nat) : ((u.runDone r n).region r).plan = (u.region r).plan := by
    simp only [State.runDone]
    rw [State.modRegion_same, Chg.region_eq (.foldl (P := { fns := true }) (fun _ _ => State.complete_fns (by decide)) _ .refl)]
    cases (u.region r).cmd with
    | none => rfl
    | some c =>
      dsimp only
      rw [State.complete_chg.region_eq]
  have hplan (u : State) (hu : (u.region r).plan = (s.region r).plan) : ((u.regionDone r).region r).running = false ∧
      ((u.regionDone r).region r).pend = none ∧ ((u.regionDone r).region r).plan = (s.region r).plan := by
    rw [State.regionDone, State.hbSeries_chg.region_eq, State.modRegion_same]
    exact ⟨rfl, rfl, hu⟩
  unfold State.countFails
  refine hplan _ ((hrun _ _).trans ?_)
  rw [State.freeStep_chg.region_eq, State.event_chg.region_eq]

/-- The start of an invocation, what is noted in its region, and the start of the drafts of its region. -/
theorem State.invBegin_drafts (s : State) {r : Nat} {p : Plan} (hp : s.installed r = some p) {u : State}
    (hu : Chg { regions := true } (s.invBegin r) u) (hin : (u.region r).inInv = true) :
    (u.beginDrafts r).region r = u.region r ∧
    ∀ t ∈ s.tilesOf r, (s.tile (tIx t)).Begun ((u.beginDrafts r).tile (tIx t)) (s.fld F.tilVctl_keep (tIx t) == 1) := by
  obtain ⟨hreg, htile⟩ := u.beginDrafts_kept hin
  refine ⟨hreg, fun t ht => ?_⟩
  have hmem : t ∈ u.tilesOf r := by
    rw [State.tilesOf_congr hu, State.tilesOf_congr State.invBegin_chg]
    exact ht
  rw [htile t hmem, hu.tile_eq]
  exact s.invBegin_tile hp ht

theorem State.installed_of_mayBegin {s : State} {r : Nat} (h : s.mayBegin r = true) : ∃ p, s.installed r = some p := by
  simp only [State.mayBegin, Bool.and_eq_true] at h
  exact Option.isSome_iff_exists.mp h.1.1.2

/-! ### Parks and counts (R239 to R242) -/

section Start
variable {s : State}

theorem execParkRequest_eq {r : Nat} {rs : List Nat} {p : Start} (hr : s.parkable = r :: rs) (hany : s.anyInv = false) (hpark : s.park = none)
    (hsched : s.schedIn64 % 2304 = 0) (hp : (s.region r).pend = some p) (hm : ¬(p.mode = .count ∧ p.count < s.cnt + 128)) :
    Yields .parkRequest s fun u =>
      u.park = some ⟨s.cnt, s.cnt + 64, parkEnd p (s.cnt + 64), r⟩ ∧ u.regions = s.regions ∧ u.tiles = s.tiles := by
  refine ⟨_, rfl, ?_⟩
  have hm' : ¬(p.mode = .count ∧ p.count < s.cnt + 64 + 64) := hm
  simp [hr, hany, hpark, hsched, hp, hm']

section Count
variable {r : Fin 8} {p : Start} (hp : (s.region r).pend = some p) (hmode : p.mode = .count) (hgo : p.go = none) (hle : p.count ≤ s.cnt + 64)
include hp hmode hgo hle

theorem execLaunchCountDecision_parked (hpark : ∃ k, s.park = some k ∧ k.first + 64 ≤ p.count) : exec (.launchCountDecision r) s = .next s := by
  obtain ⟨k, hk, hkp⟩ := hpark
  have hle' : ¬ s.cnt + 64 < p.count := by omega
  change execLaunchCountDecision r s = _
  simp [execLaunchCountDecision, hp, hmode, hgo, hle', hk, hkp]

theorem execLaunchCountDecision_goes (hk : ∀ k, s.park = some k → p.count < k.first + 64) (hany : s.anyInv = true) (h1 : s.cnt ≤ p.count)
    (h2 : p.since ≤ p.count) (h3 : s.heldAt p.count = false) (h4 : s.schedAt p.count % 2304 = 0) :
    exec (.launchCountDecision r) s = .next (s.modRegion r fun R => { R with pend := some { p with go := some p.count } }) := by
  have hle' : ¬ s.cnt + 64 < p.count := by omega
  have hgoes : (s.modRegion r.val fun R => { R with pend := R.pend.map fun q => { q with go := some p.count } }) =
      s.modRegion r.val fun R => { R with pend := some { p with go := some p.count } } := by
    simp only [State.modRegion, hp, Option.map_some]
  rw [← hgoes]
  change execLaunchCountDecision r s = _
  cases hpk : s.park with
  | none => simp [execLaunchCountDecision, hp, hmode, hgo, hle', hpk, hany, h1, h2, h3, h4]
  | some k => simp [execLaunchCountDecision, hp, hmode, hgo, hle', hpk, hany, h1, h2, h3, h4, Nat.not_le.mpr (hk k hpk)]

theorem execLaunchCountDecision_fails (hk : ∀ k, s.park = some k → p.count < k.first + 64) (hany : s.anyInv = false) (hl : s.launchOf r = none) :
    Yields (.launchCountDecision r) s fun u =>
      (u.region r).running = false ∧ (u.region r).pend = none ∧ (u.region r).plan = (s.region r).plan := by
  have hle' : ¬ s.cnt + 64 < p.count := by omega
  refine ⟨_, rfl, ?_⟩
  have hfails := State.countFails_fields s r
  cases hpk : s.park with
  | none => simpa [hp, hmode, hgo, hle', hpk, hany, hl] using hfails
  | some k => simpa [hp, hmode, hgo, hle', hpk, hany, hl, Nat.not_le.mpr (hk k hpk)] using hfails

end Count

/-! ### Starts and steps (R87, R243, R244) -/

theorem execInvocationStart_eq {r : Fin 8} (hmay : s.mayBegin r = true) (hdue : s.startDue r = true) (hbeg : (s.region r).begun = false)
    (htab : s.packsHere r = true → s.tableDone r 0 = true) :
    Yields (.invocationStart r) s fun u =>
      (u.region r).inInv = true ∧ (u.region r).t0 = s.sched ∧ (u.region r).t0c = s.cnt ∧ (u.region r).pend = none ∧
      ∀ t ∈ s.tilesOf r,
        let U := u.tile (tIx t)
        U.inInv = true ∧ U.pc = 0 ∧ U.late = 0 ∧ U.lvls = [] ∧ U.preds = 0 ∧ U.scratch = (s.tile (tIx t)).scratch ∧
        U.vregs = (if s.fld F.tilVctl_keep (tIx t) = 1 then (s.tile (tIx t)).vregs else []) := by
  obtain ⟨p, hp⟩ := State.installed_of_mayBegin hmay
  obtain ⟨hin, ht0, ht0c, hpend, -⟩ := s.invBegin_region hp
  obtain ⟨hreg, htiles⟩ := s.invBegin_drafts hp .refl hin
  have hexec : execInvocationStart r s = .next ((s.invBegin r).beginDrafts r) := by
    by_cases hpack : s.packsHere r = true
    · simp [execInvocationStart, hmay, hdue, hbeg, hpack, htab hpack]
    · simp [execInvocationStart, hmay, hdue, hbeg, hpack]
  refine ⟨_, hexec, ?_⟩
  dsimp only
  rw [hreg]
  refine ⟨hin, ht0, ht0c, hpend, fun t ht => ?_⟩
  obtain ⟨hinInv, hpc, hlate, hlvls, hpreds, hscratch, hvregs⟩ := htiles t ht
  exact ⟨hinInv, hpc, hlate, hlvls, hpreds, hscratch, by simpa using hvregs⟩

theorem execStepStart_eq {r : Fin 8} {x : Series} (hx : (s.region r).series = some x) (hbegun : (s.region r).begun = true)
    (harm : (s.region r).armed = false) (hstop : x.stopReq = false) (hmay : s.mayBegin r = true) (hdue : s.stepDue r = true)
    (htwin : s.twinReady r (x.step + 1) = true) :
    Yields (.stepStart r) s fun u =>
      (u.region r).inInv = true ∧ (u.region r).t0 = s.sched ∧
      (∃ z, (u.region r).series = some z ∧ z.step = x.step + 1 ∧ z.endedAt = none ∧ z.stopReq = false) ∧
      ∀ t ∈ s.tilesOf r, (u.tile (tIx t)).inInv = true ∧ (u.tile (tIx t)).pc = 0 := by
  generalize hv : (if (!x.tree && decide ((s.region r).t0 + s.stepLen r < s.sched)) = true then
    s.overrun r x.step (s.sched - (s.region r).t0 - s.stepLen r) else s) = v
  have hvc : Chg { fns := true, regs := true } s v := by
    rw [← hv]
    exact .ite State.overrun_chg .refl
  have hsched : v.sched = s.sched := by
    rw [← hv]
    split_ifs
    · exact State.sched_overrun ..
    · rfl
  obtain ⟨p, hp⟩ := State.installed_of_mayBegin hmay
  have hpv : v.installed r = some p := by
    rw [← hp]
    have hplan : v.planOf = s.planOf := funext fun q => by rw [State.planOf, State.planOf, hvc.plans_eq]
    rw [State.installed, State.installed, hvc.region_eq, hplan]
  obtain ⟨hin, ht0, -, -, hseries⟩ := v.invBegin_region hpv
  rw [hvc.region_eq, hx] at hseries
  generalize hu : (v.invBegin r).modRegion r (fun R => { R with series := R.series.map fun y =>
    { y with step := y.step + 1, endedAt := none, between := false, late := false, nextAt := none, arrived := false } }) = u
  have huc : Chg { regions := true } (v.invBegin r) u := by
    rw [← hu]
    exact .modRegion
  have hur : (u.region r).inInv = true ∧ (u.region r).t0 = s.sched ∧ (u.region r).series = some
      { x with step := x.step + 1, endedAt := none, between := false, late := false, nextAt := none, arrived := false } := by
    rw [← hu, State.modRegion_same, hseries]
    exact ⟨hin, ht0.trans hsched, rfl⟩
  obtain ⟨hreg, htiles⟩ := v.invBegin_drafts hpv huc hur.1
  have hexec : execStepStart r s = .next (u.beginDrafts r) := by
    simp only [execStepStart, hx, hbegun, harm, hstop, hmay, hdue, htwin]
    rw [← hu, ← hv]
    rfl
  refine ⟨_, hexec, ?_⟩
  dsimp only
  rw [hreg]
  refine ⟨hur.1, hur.2.1, ⟨_, hur.2.2, rfl, rfl, hstop⟩, fun t ht => ?_⟩
  have hbegun := htiles t (by rw [State.tilesOf_congr hvc]; exact ht)
  exact ⟨hbegun.inInv, hbegun.pc⟩

/-! ### The end of an invocation on the region's last tile (R245, R465) -/

/-- The tile's part of an invocation's end. -/
def State.tileEnd (s : State) (y : Nat) : State := s.modTile y fun T => { T.advance with inInv := false, waiting := false, invs := T.invs + 1 }

theorem State.tileEnd_chg {s : State} {y : Nat} : Chg { tiles := true } s (s.tileEnd y) :=
  .onModTile .refl (.via (.via .refl Tile.advance_tchg) TChg.plain)

theorem State.tileEnd_fields (s : State) (y : Nat) : ((s.tileEnd y).tile y).inInv = false ∧ ((s.tileEnd y).tile y).invs = (s.tile y).invs + 1 ∧
    ((s.tileEnd y).tile y).scratch = (s.tile y).scratch := by
  rw [State.tileEnd, State.modTile_same]
  exact ⟨rfl, rfl, (s.tile y).advance_fields.1⟩

theorem State.tileEnd_last {y r : Nat} (hothers : ∀ x ∈ s.tilesOf r, tIx x ≠ y → (s.tile (tIx x)).inInv = false) :
    (((s.tileEnd y).tilesOf r).all fun u => !((s.tileEnd y).tile (tIx u)).inInv) = true := by
  rw [State.tilesOf_congr State.tileEnd_chg, List.all_eq_true]
  intro u hu
  by_cases h : tIx u = y
  · rw [h, (s.tileEnd_fields y).1]
    rfl
  · rw [State.tileEnd, State.modTile_ne _ _ _ h, hothers u hu h]
    rfl

theorem execInvocationEnd_last {t : Xy} (hheld : s.held = false) (hin : (s.tile (tIx t)).inInv = true)
    (hdone : s.tileDone (tIx t) (s.textOf t).length = true)
    (hothers : ∀ x ∈ s.tilesOf (s.regionOf t), tIx x ≠ tIx t → (s.tile (tIx x)).inInv = false) :
    exec (.invocationEnd t) s = .next ((s.tileEnd (tIx t)).regionEnd (s.regionOf t)) := by
  have hexec : exec (.invocationEnd t) s = execInvocationEnd t s := rfl
  have hgo : ¬ (s.held || !(s.tile (tIx t)).inInv || !s.tileDone (tIx t) (s.textOf t).length) = true := by
    rw [hheld, hin, hdone]
    decide
  simp only [execInvocationEnd] at hexec
  rw [if_neg hgo, show s.modTile (tIx t) _ = s.tileEnd (tIx t) from rfl, if_pos (State.tileEnd_last hothers)] at hexec
  exact hexec

theorem execInvocationEnd_eq {t : Xy} :
    let y := tIx t
    let r := s.regionOf t
    s.held = false → (s.tile y).inInv = true → s.tileDone y (s.textOf t).length = true → r < 8 →
      (∀ x ∈ s.tilesOf r, tIx x ≠ y → (s.tile (tIx x)).inInv = false) → (∀ L ∈ s.fab.launches, L.region = r → L.queued = false) →
      Yields (.invocationEnd t) s fun u =>
        (u.tile y).inInv = false ∧ (u.tile y).invs = (s.tile y).invs + 1 ∧ (u.tile y).scratch = (s.tile y).scratch ∧
        (u.region r).inInv = false ∧ (u.region r).invNo = (s.region r).invNo + 1 ∧
        u.fld F.ptcRuna_schedlen r = min (s.sched + 1 - (s.region r).t0) (2 ^ 32 - 1) ∧ u.fld F.ptcRunb_valid r = 1 ∧
        u.scanDue = true := by
  intro y r hheld hin hdone hr hothers hq
  have hexec := execInvocationEnd_last hheld hin hdone hothers
  have hvc : Chg { tiles := true } s (s.tileEnd y) := State.tileEnd_chg
  obtain ⟨h1, h2, h3⟩ := s.tileEnd_fields y
  generalize s.tileEnd y = v at hexec hvc h1 h2 h3
  obtain ⟨htiles, hinInv, hno, hlen, hvalid, hscan⟩ := v.regionEnd_fields hr (by rw [hvc.fab_eq]; exact hq)
  rw [hvc.region_eq] at hno hlen
  rw [hvc.sched_eq] at hlen
  refine ⟨_, hexec, ?_⟩
  dsimp only
  rw [htiles]
  exact ⟨h1, h2, h3, hinInv, hno, hlen, hvalid, hscan⟩

end Start

/-- Settles O24: parks, counts, starts, steps and ends. -/
theorem invocationsStartAndEnd : Obligations.InvocationsStartAndEnd := by
  refine ⟨fun s => ⟨fun _ _ _ => execParkRequest_eq, fun r p hp hmode hgo hle => ?count, fun _ => execInvocationStart_eq⟩,
    fun _ _ _ => execStepStart_eq, fun _ _ => execInvocationEnd_eq⟩
  case count =>
    exact ⟨execLaunchCountDecision_parked hp hmode hgo hle, execLaunchCountDecision_goes hp hmode hgo hle,
      execLaunchCountDecision_fails hp hmode hgo hle⟩

end Sys2Proof.Machine
end

section
/-!
DMA channels: start, pause, resume, abort and drain (R312 to R320, R326).
-/
namespace Sys2Proof.Machine
set_option Elab.async false

/-! ## Registers of one index -/

theorem State.reg_setReg_code (s : State) {k k' : RegKind} {i v : Nat} (h : k.code ≠ k'.code) : (s.setReg k' i v).reg k i = s.reg k i :=
  State.reg_setReg_ne _ _ (regKey_ne_of_code i h)

theorem State.reg_setFld_code (s : State) {k : RegKind} {f : Fld} {i v : Nat} (h : k.code ≠ f.kind.code) :
    (s.setFld f i v).reg k i = s.reg k i :=
  State.reg_setFld_ne _ _ (regKey_ne_of_code i h)

theorem State.fld_setReg_code (s : State) {f : Fld} {k : RegKind} {i v : Nat} (h : f.kind.code ≠ k.code) : (s.setReg k i v).fld f i = s.fld f i := by
  rw [State.fld, State.reg_setReg_code s h, State.fld]

theorem State.fld_setFld_code (s : State) {f g : Fld} {i v : Nat} (h : g.kind.code ≠ f.kind.code) : (s.setFld f i v).fld g i = s.fld g i := by
  rw [State.fld, State.reg_setFld_code s h, State.fld]

/-! ## A DMA channel -/

theorem chIx_lt {ch : Chan} (h : chanExists ch = true) : chIx ch < 2 ^ 32 := by
  unfold chanExists at h
  unfold chIx
  split_ifs at h <;> simp only [Bool.and_eq_true, decide_eq_true_eq] at h <;> omega

theorem chanOf_chIx {ch : Chan} (h : chanExists ch = true) : chanOf (chIx ch) = ch := by
  have hch : ch.ch < 32 := by
    unfold chanExists at h
    split_ifs at h <;> simp only [Bool.and_eq_true, decide_eq_true_eq] at h <;> omega
  cases ch
  simp only [chanOf, chIx, Chan.mk.injEq] at *
  omega

theorem State.descCheck_congr {s u : State} (hi : u.img = s.img) (hf : u.fuses = s.fuses) (ix : Nat) (d : Desc) : u.descCheck ix d = s.descCheck ix d := by
  have hres : u.resOf = s.resOf := by
    funext sp a
    simp only [State.resOf, State.gddrSize, hf]
    rfl
  have hgrants : u.grantsOf ix = s.grantsOf ix := by
    funext r
    simp only [State.grantsOf, hi]
  simp only [State.descCheck, hres, hgrants]

theorem State.dmaComplete_fns {s : State} {ix st : Nat} : Chg { dma := true, fns := true } s (s.dmaComplete ix st) := by
  unfold State.dmaComplete
  split
  · exact .via (.via .refl .modDma) (State.complete_fns (by decide))
  · exact .refl

theorem State.dmaComplete_ch (s : State) (ix st : Nat) : (s.dmaComplete ix st).dmaCh ix = { s.dmaCh ix with cmd := none } := by
  unfold State.dmaComplete
  cases h : (s.dmaCh ix).cmd with
  | some c => 
    dsimp only
    rw [State.complete_chg.dmaCh_eq, State.modDma_same]
  | none => 
    dsimp only
    rw [← h]

theorem State.dmaComplete_other (s : State) (ix st : Nat) {k : Nat} (hk : k ≠ ix) : (s.dmaComplete ix st).dmaCh k = s.dmaCh k := by
  unfold State.dmaComplete
  split
  · rw [State.complete_chg.dmaCh_eq, State.modDma_ne _ _ _ hk]
  · rfl

/-- A channel that starts on a descriptor (R314). -/
theorem State.dmaRun_fields (s : State) (ix : Nat) :
    (s.dmaRun ix).dmaState ix = 1 ∧ (∀ k, k ≠ ix → (s.dmaRun ix).dmaCh k = s.dmaCh k) ∧
    (∀ k : RegKind, k.code ≠ RegKind.dmaStat.code → (s.dmaRun ix).reg k ix = s.reg k ix) ∧
    (s.dmaRun ix).dmaCh ix =
      { s.dmaCh ix with rdSent := 0, rd := 0, wrSent := 0, wr := 0, bufAt := 0, buf := [], drain := .none, rmw := false, fetch := false } := by
  unfold State.dmaRun
  refine ⟨?_, fun k hk => ?_, fun k hk => ?_, ?_⟩
  · rw [State.dmaState, Chg.modDma.fld_eq, State.fld_setFld_bits _ (by decide), State.fld_setFld_eq _ (by decide) (by decide)]
  · rw [State.modDma_ne _ _ _ hk, Chg.setFld.dmaCh_eq, Chg.setFld.dmaCh_eq]
  · rw [Chg.modDma.reg_eq, State.reg_setFld_code _ hk, State.reg_setFld_code _ hk]
  · rw [State.modDma_same, Chg.setFld.dmaCh_eq, Chg.setFld.dmaCh_eq]

theorem State.loadDesc_regs (s : State) (ix : Nat) (d : Desc) :
    (s.loadDesc ix d).reg .dmaSrc ix = d.src.toNat ∧ (s.loadDesc ix d).reg .dmaDst ix = d.dst.toNat ∧
    (s.loadDesc ix d).reg .dmaLen ix = d.len.toNat ∧ (s.loadDesc ix d).reg .dmaNext ix = d.next.toNat ∧
    (s.loadDesc ix d).reg .dmaStat ix = s.reg .dmaStat ix := by
  have h32 : d.len.toNat < 2 ^ 64 := lt_trans d.len.isLt (by decide)
  simp only [State.loadDesc]
  refine ⟨?_, ?_, ?_, ?_, ?_⟩
  · rw [State.reg_setReg_code _ (by decide), State.reg_setReg_code _ (by decide), State.reg_setReg_code _ (by decide),
      State.reg_setReg_code _ (by decide), State.reg_setReg_same, Nat.mod_eq_of_lt d.src.isLt]
  · rw [State.reg_setReg_code _ (by decide), State.reg_setReg_code _ (by decide), State.reg_setReg_code _ (by decide),
      State.reg_setReg_same, Nat.mod_eq_of_lt d.dst.isLt]
  · rw [State.reg_setReg_code _ (by decide), State.reg_setReg_code _ (by decide), State.reg_setReg_same, Nat.mod_eq_of_lt h32]
  · rw [State.reg_setReg_same, Nat.mod_eq_of_lt d.next.isLt]
  · rw [State.reg_setReg_code _ (by decide), State.reg_setReg_code _ (by decide), State.reg_setReg_code _ (by decide),
      State.reg_setReg_code _ (by decide), State.reg_setReg_code _ (by decide)]

/-- A command that begins and may run gives its own effect, answered (R337). -/
theorem State.runCmd_begins {s : State} {i : Instr} {c : Cmd} {opcode : Nat} {allFns : Bool} (h : s.begins i c opcode allFns) (f : State → State) :
    s.runCmd c opcode (operandsOf i) allFns f = (f (s.popCmd c)).answerAll c.fn := by
  obtain ⟨hready, hrec, hfn⟩ := h
  have hrec' : ¬((s.popCmd c).boot.recovery = true ∧ recoveryOpcode opcode = false) := by
    rw [State.popCmd_chg.boot_eq]
    rintro ⟨hb, ho⟩
    rw [hrec hb] at ho
    exact absurd ho (by decide)
  simp only [State.runCmd]
  rw [if_pos hready, if_neg hrec', if_pos hfn]

theorem State.dmaDrain_ch (s : State) (ix : Nat) (k : DrainKind) : (s.dmaDrain ix k).dmaCh ix =
    { s.dmaCh ix with drain := k, rdSent := (s.dmaCh ix).rd, rmw := false, drainAt := s.cnt + 1 } := by
  rw [State.dmaDrain, State.modDma_same, State.dropDma_chg.dmaCh_eq]

theorem State.dmaDrain_other (s : State) (ix : Nat) (d : DrainKind) {k : Nat} (hk : k ≠ ix) : (s.dmaDrain ix d).dmaCh k = s.dmaCh k := by
  rw [State.dmaDrain, State.modDma_ne _ _ _ hk, State.dropDma_chg.dmaCh_eq]

/-! ## A write of DMA_CTLn (R326) -/

/-- The field SWAP's upper neighbours read as they were written, but bits 7:6. -/
theorem putBits_low (v : Nat) : putBits (putBits (bits v 15 0) 7 6 0) 15 12 (bits v 15 12) = putBits (bits v 15 0) 7 6 0 := by
  refine Nat.eq_of_testBit_eq fun i => ?_
  rw [testBit_putBits_bits _ _ _ _ _ (by decide)]
  by_cases h : 12 ≤ i ∧ i ≤ 15
  · have hlt : i < 15 + 1 - 0 := by omega
    rw [if_pos h, testBit_putBits _ _ _ _ _ (by decide), if_neg (by omega), testBit_bits]
    simp [hlt]
  · rw [if_neg h]

theorem putBits_low_lt (v : Nat) : putBits (bits v 15 0) 7 6 0 < 2 ^ 16 := by
  refine Nat.lt_pow_two_of_testBit _ fun i hi => ?_
  have hge : ¬ i < 15 + 1 - 0 := by omega
  rw [testBit_putBits _ _ _ _ _ (by decide), if_neg (by omega), testBit_bits]
  simp [hge]

/-- The low half of DMA_CTLn written: of a running channel it stays, with an event where it would have changed. -/
def State.dmaLow (s : State) (ix low : Nat) : State :=
  if low = bits (s.reg .dmaCtl ix) 15 0 then s
  else if (s.dmaState ix == 1 || s.dmaState ix == 2) = true then s.event 0x0274 5 (dmaSource ix) [(8, (s.dmaCh ix).desc)]
  else s.setReg .dmaCtl ix (putBits (s.reg .dmaCtl ix) 15 0 low)

theorem State.dmaLow_chg {s : State} {ix low : Nat} : Chg { regs := true, fns := true } s (s.dmaLow ix low) := by
  unfold State.dmaLow
  exact .ite .refl (.ite (.via .refl State.event_chg) (.via .refl .setReg))

theorem State.reg_dmaLow (s : State) {ix low i : Nat} {k : RegKind} (hix : ix < 2 ^ 32) (hi : i < 2 ^ 32) (hk : k.code ≠ RegKind.dmaCtl.code)
    (he : k.code ≠ RegKind.hstEvstat.code) : (s.dmaLow ix low).reg k i = s.reg k i := by
  unfold State.dmaLow
  split_ifs
  · rfl
  · exact State.reg_event _ _ _ _ _ (regKey_ne (by decide) hi (.inl he))
  · exact State.reg_setReg_ne _ _ (regKey_ne hix hi (.inl hk))

theorem State.dmaState_dmaLow (s : State) {ix low : Nat} (hix : ix < 2 ^ 32) : (s.dmaLow ix low).dmaState ix = s.dmaState ix := by
  rw [State.dmaState, State.fld, State.reg_dmaLow s hix hix (by decide) (by decide), State.dmaState, State.fld]

theorem State.bits_dmaLow (s : State) {ix low : Nat} (hlow : low < 2 ^ 16) (hst : s.dmaState ix ≠ 1 ∧ s.dmaState ix ≠ 2) :
    bits ((s.dmaLow ix low).reg .dmaCtl ix) 15 0 = low := by
  have hidle : ¬(s.dmaState ix == 1 || s.dmaState ix == 2) = true := by simp [hst.1, hst.2]
  unfold State.dmaLow
  rw [if_neg hidle]
  split_ifs with h
  · exact h.symm
  · rw [State.reg_setReg_same, bits_mod64 _ _ _ (by decide), bits_putBits_same _ _ _ _ (by decide)]
    exact Nat.mod_eq_of_lt hlow

/-- A write of DMA_CTLn: its low half, then GO, PAUSE and ABORT. -/
theorem State.writeDmaCtl_eq {s : State} {w : Writer} {ch : Chan} (off : Nat) (v : Nat) (hex : chanExists ch = true) (hw : s.mayWrite w = true)
    (hch : s.chanHere (chIx ch) = true) :
    s.writeDmaCtl w (chIx ch) off v =
      let u := s.dmaLow (chIx ch) (putBits (bits v 15 0) 7 6 0)
      let g := if (bits v 31 31 == 1) = true then u.dmaGoBit (chIx ch) else u
      let p := g.dmaPauseBit (chIx ch) (bits v 30 30) (bits v 31 31 == 1 && u.goStatus (chIx ch) != 0)
      if bits v 29 29 = 1 then p.dmaAbortBit (chIx ch) else p := by
  have hhere : ¬(!s.chanHere (chIx ch)) = true := by simp [hch]
  have hex' : ¬(!chanExists (chanOf (chIx ch))) = true := by simp [chanOf_chIx hex, hex]
  rw [State.writeDmaCtl, State.gated_of_mayWrite hw, if_neg hhere, if_neg hex', putBits_low]
  rfl

theorem bits_of_getLsbD {n k : Nat} (v : BitVec n) (b : Bool) (h : v.getLsbD k = b) : bits v.toNat k k = b.toNat := by
  have hlt := bits_lt v.toNat k k
  have hiff := bits_single v.toNat k
  rw [show k + 1 - k = 1 by omega] at hlt
  have hb : v.toNat.testBit k = b := h
  cases b
  · have hne : bits v.toNat k k ≠ 1 := fun e => by simp [hiff.mp e] at hb
    change _ = 0
    omega
  · exact hiff.mpr hb

/-- A write of DMA_CTLn by the values of its three control bits. -/
theorem State.writeDmaCtl_bits {s u : State} {w : Writer} {ch : Chan} {off : Nat} {v : BitVec 32} {go pause abort : Bool} (hex : chanExists ch = true)
    (hw : s.mayWrite w = true) (hch : s.chanHere (chIx ch) = true) (hu : s.dmaLow (chIx ch) (putBits (bits v.toNat 15 0) 7 6 0) = u)
    (h31 : v.getLsbD 31 = go) (h30 : v.getLsbD 30 = pause) (h29 : v.getLsbD 29 = abort) :
    s.writeDmaCtl w (chIx ch) off v.toNat =
      let g := bif go then u.dmaGoBit (chIx ch) else u
      let p := g.dmaPauseBit (chIx ch) pause.toNat (go && u.goStatus (chIx ch) != 0)
      bif abort then p.dmaAbortBit (chIx ch) else p := by
  rw [State.writeDmaCtl_eq off v.toNat hex hw hch, hu, bits_of_getLsbD v _ h31, bits_of_getLsbD v _ h30, bits_of_getLsbD v _ h29]
  cases go <;> cases abort <;> rfl

theorem State.startStatus_zero {s u : State} {ch : Chan} {d : Desc} (hu : Chg { fns := true } s u) (hex : chanExists ch = true)
    (hdie : ch.die < 8 → s.dieAbsent ch.die = false) (hsrc : s.spAbsent (ctlSrcsp d.ctrl.toNat) d.src.toNat = false)
    (hdst : s.spAbsent (ctlDstsp d.ctrl.toNat) d.dst.toNat = false) (h1 : s.dmaState (chIx ch) ≠ 1) (h2 : s.dmaState (chIx ch) ≠ 2)
    (hdesc : s.descCheck (chIx ch) d = 0) : u.startStatus ch d = 0 := by
  have hdies : u.dieAbsent = s.dieAbsent := by
    funext k
    rw [State.dieAbsent, State.dieAbsent, hu.fuses_eq]
  have habs (sp a : Nat) : u.spAbsent sp a = s.spAbsent sp a := by rw [State.spAbsent, State.spAbsent, hdies]
  have hstate : u.dmaState (chIx ch) = s.dmaState (chIx ch) := hu.fld_eq ..
  have hnone : ¬((ch.die < 8 ∧ u.dieAbsent ch.die = true) ∨ u.spAbsent (ctlSrcsp d.ctrl.toNat) d.src.toNat = true ∨
      u.spAbsent (ctlDstsp d.ctrl.toNat) d.dst.toNat = true) := by
    rw [habs, habs, hdies, hsrc, hdst]
    rintro (⟨hd, ha⟩ | h | h)
    · rw [hdie hd] at ha
      exact absurd ha (by decide)
    · exact absurd h (by decide)
    · exact absurd h (by decide)
  have hex' : ¬(!chanExists ch) = true := by simp [hex]
  have hidle : ¬(u.dmaState (chIx ch) = 1 ∨ u.dmaState (chIx ch) = 2) := by
    rw [hstate]
    exact not_or.mpr ⟨h1, h2⟩
  simp only [State.startStatus]
  rw [if_neg hnone, if_neg hex', if_neg hidle, State.descCheck_congr hu.img_eq hu.fuses_eq]
  exact hdesc

/-- DMA_START on a channel that may start. -/
theorem State.dmaStart_fields (s : State) (ix : Nat) (d : Desc) (c : Cmd) :
    let u := (((s.dmaComplete ix 0x0073).loadDesc ix d).dmaRun ix).modDma ix fun k => { k with cmd := some c, desc := 0 }
    u.dmaState ix = 1 ∧ u.reg .dmaSrc ix = d.src.toNat ∧ u.reg .dmaDst ix = d.dst.toNat ∧ u.reg .dmaLen ix = d.len.toNat ∧
    u.reg .dmaNext ix = d.next.toNat ∧ (u.dmaCh ix).cmd = some c ∧ (u.dmaCh ix).rd = 0 ∧ (u.dmaCh ix).wr = 0 ∧
    ∀ k, k ≠ ix → u.dmaCh k = s.dmaCh k := by
  intro u
  obtain ⟨hsrc, hdst, hlen, hnext, -⟩ := (s.dmaComplete ix 0x0073).loadDesc_regs ix d
  obtain ⟨hst, hother, hregs, hch⟩ := ((s.dmaComplete ix 0x0073).loadDesc ix d).dmaRun_fields ix
  refine ⟨?_, ?_, ?_, ?_, ?_, ?_, ?_, ?_, fun k hk => ?_⟩
  · rw [State.dmaState, Chg.modDma.fld_eq]
    exact hst
  · rw [Chg.modDma.reg_eq, hregs _ (by decide), hsrc]
  · rw [Chg.modDma.reg_eq, hregs _ (by decide), hdst]
  · rw [Chg.modDma.reg_eq, hregs _ (by decide), hlen]
  · rw [Chg.modDma.reg_eq, hregs _ (by decide), hnext]
  · rw [State.modDma_same]
  · rw [State.modDma_same, hch]
  · rw [State.modDma_same, hch]
  · rw [State.modDma_ne _ _ _ hk, hother k hk, State.loadDesc_chg.dmaCh_eq, State.dmaComplete_other _ _ _ hk]

/-- GO on an idle channel whose registers pass the check. -/
theorem State.dmaGoBit_fields {s : State} {ix : Nat} (h : s.goStatus ix = 0) :
    (s.dmaGoBit ix).dmaState ix = 1 ∧ (s.dmaGoBit ix).reg .dmaCtl ix = s.reg .dmaCtl ix ∧ ((s.dmaGoBit ix).dmaCh ix).rd = 0 ∧
    ((s.dmaGoBit ix).dmaCh ix).wr = 0 ∧ ∀ k, k ≠ ix → (s.dmaGoBit ix).dmaCh k = s.dmaCh k := by
  obtain ⟨hst, hother, hregs, hch⟩ := s.dmaRun_fields ix
  have hgo : s.dmaGoBit ix =
      (s.dmaRun ix).modDma ix fun c => if s.dmaState ix = 3 ∨ s.dmaState ix = 4 then c else { c with cmd := none, desc := 0 } := by
    rw [State.dmaGoBit, if_pos h]
  rw [hgo]
  refine ⟨?_, ?_, ?_, ?_, fun k hk => ?_⟩
  · rw [State.dmaState, Chg.modDma.fld_eq]
    exact hst
  · rw [Chg.modDma.reg_eq, hregs _ (by decide)]
  · rw [State.modDma_same, hch]
    split_ifs <;> rfl
  · rw [State.modDma_same, hch]
    split_ifs <;> rfl
  · rw [State.modDma_ne _ _ _ hk, hother k hk]

theorem State.dmaPause_stat (s : State) (ix v : Nat) : (s.setFld F.dmaCtl_pause ix v).dmaState ix = s.dmaState ix :=
  State.fld_setFld_code s (by decide)

/-- PAUSE written 0 to a channel that is not paused. -/
theorem State.dmaPauseBit_zero {s : State} {ix : Nat} {refused : Bool} (h : s.dmaState ix ≠ 3) :
    s.dmaPauseBit ix 0 refused = s.setFld F.dmaCtl_pause ix 0 := by
  have hnot : ¬((0 : Nat) = 0 ∧ (s.setFld F.dmaCtl_pause ix 0).dmaState ix = 3 ∧ refused = false) := by
    rw [State.dmaPause_stat]
    exact fun h' => h h'.2.1
  unfold State.dmaPauseBit
  dsimp only
  rw [if_neg (fun h => absurd h.1 (by decide)), if_neg hnot]

/-- PAUSE written 0 to a paused channel: it goes on. -/
theorem State.dmaPauseBit_resumes {s : State} {ix : Nat} (h : s.dmaState ix = 3) :
    s.dmaPauseBit ix 0 false = (s.setFld F.dmaCtl_pause ix 0).dmaRun ix := by
  unfold State.dmaPauseBit
  dsimp only
  rw [if_neg (fun h => absurd h.1 (by decide)), if_pos ⟨rfl, by rw [State.dmaPause_stat]; exact h, rfl⟩]

/-- PAUSE written 1: a running channel that does not drain drains for the pause, any other stays. -/
theorem State.dmaPauseBit_one (s : State) (ix : Nat) (refused : Bool) :
    s.dmaPauseBit ix 1 refused =
      if s.dmaState ix = 1 ∧ (s.dmaCh ix).drain = .none then
        ((s.setFld F.dmaCtl_pause ix 1).dmaDrain ix .pause).setFld F.dmaStat_state ix 2
      else s.setFld F.dmaCtl_pause ix 1 := by
  unfold State.dmaPauseBit
  dsimp only
  rw [State.dmaPause_stat, Chg.setFld.dmaCh_eq]
  by_cases h : s.dmaState ix = 1 ∧ (s.dmaCh ix).drain = .none
  · rw [if_pos ⟨rfl, h⟩, if_pos h]
  · rw [if_neg (fun h' => h h'.2), if_neg (fun h' => absurd h'.1 (by decide)), if_neg h]

/-- A channel that drains. -/
theorem State.dmaDrain_fields (s : State) (ix : Nat) (d : DrainKind) :
    let u := (s.dmaDrain ix d).setFld F.dmaStat_state ix 2
    u.dmaState ix = 2 ∧ (u.dmaCh ix).drain = d ∧ (u.dmaCh ix).buf = (s.dmaCh ix).buf ∧ ∀ k, k ≠ ix → u.dmaCh k = s.dmaCh k := by
  intro u
  refine ⟨State.fld_setFld_eq _ (by decide) (by decide), ?_, ?_, fun k hk => ?_⟩
  · rw [Chg.setFld.dmaCh_eq, State.dmaDrain_ch]
  · rw [Chg.setFld.dmaCh_eq, State.dmaDrain_ch]
  · rw [Chg.setFld.dmaCh_eq, State.dmaDrain_other _ _ _ hk]

/-- ABORT of a channel that runs or drains, but for a failure. -/
theorem State.dmaAbortBit_busy {s : State} {ix : Nat} (h : s.dmaState ix = 1 ∨ s.dmaState ix = 2) (hf : (s.dmaCh ix).drain ≠ .fail) :
    s.dmaAbortBit ix = (s.dmaDrain ix .abort).setFld F.dmaStat_state ix 2 := by
  simp only [State.dmaAbortBit]
  rw [if_pos h, if_neg hf]

/-- ABORT of a channel that has stopped. -/
theorem State.dmaAbortBit_stopped {s : State} {ix : Nat} (h : s.dmaState ix = 3 ∨ s.dmaState ix = 4) (hh : (s.dmaCh ix).haltAt ≠ s.cnt + 1) :
    (s.dmaAbortBit ix).dmaState ix = 0 ∧ ((s.dmaAbortBit ix).dmaCh ix).cmd = none ∧
    ∀ k, k ≠ ix → (s.dmaAbortBit ix).dmaCh k = s.dmaCh k := by
  have hbusy : ¬(s.dmaState ix = 1 ∨ s.dmaState ix = 2) := by omega
  have hstop : s.dmaState ix = 3 ∨ (s.dmaState ix = 4 ∧ (s.dmaCh ix).haltAt ≠ s.cnt + 1) := h.imp_right fun h => ⟨h, hh⟩
  simp only [State.dmaAbortBit]
  rw [if_neg hbusy, if_pos hstop]
  refine ⟨?_, ?_, fun k hk => ?_⟩
  · rw [State.dmaState, State.dmaComplete_fns.fld_eq, State.fld_setFld_bits _ (by decide), State.fld_setFld_eq _ (by decide) (by decide)]
  · rw [State.dmaComplete_ch]
  · rw [State.dmaComplete_other _ _ _ hk, Chg.setFld.dmaCh_eq, Chg.setFld.dmaCh_eq]

/-- What is left of a descriptor as its drain ends. -/
theorem State.dmaSettle_ch (s : State) (ix : Nat) : (s.dmaSettle ix).dmaCh ix =
    { s.dmaCh ix with rdSent := 0, rd := 0, wrSent := 0, wr := 0, bufAt := 0, buf := [], drain := .none, rmw := false } := by
  simp only [State.dmaSettle]
  rw [State.modDma_same, Chg.setReg.dmaCh_eq, State.setDst_chg.dmaCh_eq, Chg.setReg.dmaCh_eq]

theorem State.dmaHalt_fields (s : State) {ix : Nat} (hix : ix < 2 ^ 32) (write : Bool) (sp addr cause : Nat) :
    let u := s.dmaHalt ix write sp addr cause
    u.dmaState ix = 4 ∧ (u.dmaCh ix).drain = (s.dmaCh ix).drain ∧ u.reg .dmaErr ix = addr % 2 ^ 64 ∧ u.fld F.dmaStat_cause ix = cause % 16 ∧
    (u.dmaCh ix).cmd = none := by
  intro u
  have hstat (g : Fld) (hg : g.kind = .dmaStat) :
      u.fld g ix = ((((s.setFld F.dmaStat_state ix 4).setFld F.dmaStat_cause ix cause).setFld F.dmaStat_dir ix (b2n write)).setFld
        F.dmaStat_errsp ix sp).fld g ix := by
    simp only [u, State.dmaHalt]
    rw [State.dmaComplete_fns.fld_eq, State.fld_event _ _ _ _ _ hix (by rw [hg]; decide), State.fld_setReg_code _ (by rw [hg]; decide),
      Chg.modDma.fld_eq]
  have hch : u.dmaCh ix = { s.dmaCh ix with haltAt := ((((s.setFld F.dmaStat_state ix 4).setFld F.dmaStat_cause ix cause).setFld
      F.dmaStat_dir ix (b2n write)).setFld F.dmaStat_errsp ix sp).cnt + 1, cmd := none } := by
    simp only [u, State.dmaHalt]
    rw [State.dmaComplete_ch, State.event_chg.dmaCh_eq, Chg.setReg.dmaCh_eq, State.modDma_same, Chg.setFld.dmaCh_eq, Chg.setFld.dmaCh_eq,
      Chg.setFld.dmaCh_eq, Chg.setFld.dmaCh_eq]
  refine ⟨?_, by rw [hch], ?_, ?_, by rw [hch]⟩
  · rw [State.dmaState, hstat _ rfl, State.fld_setFld_bits _ (by decide), State.fld_setFld_bits _ (by decide), State.fld_setFld_bits _ (by decide),
      State.fld_setFld_eq _ (by decide) (by decide)]
  · simp only [u, State.dmaHalt]
    rw [State.dmaComplete_fns.reg_eq, State.reg_event _ _ _ _ _ (regKey_ne (by decide) hix (.inl (by decide))), State.reg_setReg_same]
  · rw [hstat _ rfl, State.fld_setFld_bits _ (by decide), State.fld_setFld_bits _ (by decide), State.fld_setFld_same _ _ _ _ (by decide) (by decide)]
    rfl

/-- How a drain ends (R315 to R317). -/
theorem State.dmaDrained_fields (s : State) {ix : Nat} (hix : ix < 2 ^ 32) (hdrain : (s.dmaCh ix).drain ≠ .none) :
    let C := s.dmaCh ix
    let u := s.dmaDrained ix
    u.dmaState ix = (match C.drain with | .pause => 3 | .abort => 0 | _ => 4) ∧ (u.dmaCh ix).drain = .none ∧
    (C.drain = .fail → u.reg .dmaErr ix = C.failAddr % 2 ^ 64 ∧ u.fld F.dmaStat_cause ix = C.failCause % 16) ∧
    (C.drain ≠ .pause → (u.dmaCh ix).cmd = none) ∧ (C.drain = .pause → (u.dmaCh ix).cmd = C.cmd) := by
  intro C u
  have hsettled : (s.dmaSettle ix).dmaCh ix = _ := s.dmaSettle_ch ix
  cases hd : C.drain with
  | none => exact absurd hd hdrain
  | pause =>
    have hu : u = (s.dmaSettle ix).setFld F.dmaStat_state ix 3 := by
      simp only [u, State.dmaDrained]
      rw [show (s.dmaCh ix).drain = _ from hd]
    rw [hu]
    refine ⟨State.fld_setFld_eq _ (by decide) (by decide), ?_, nofun, fun h => absurd rfl h, fun _ => ?_⟩
    · rw [Chg.setFld.dmaCh_eq, hsettled]
    · rw [Chg.setFld.dmaCh_eq, hsettled]
  | abort =>
    have hu : u = ((s.dmaSettle ix).setFld F.dmaStat_state ix 0).dmaComplete ix 0x0073 := by
      simp only [u, State.dmaDrained]
      rw [show (s.dmaCh ix).drain = _ from hd]
    rw [hu]
    refine ⟨?_, ?_, nofun, fun _ => ?_, nofun⟩
    · rw [State.dmaState, State.dmaComplete_fns.fld_eq]
      exact State.fld_setFld_eq _ (by decide) (by decide)
    · rw [State.dmaComplete_ch, Chg.setFld.dmaCh_eq, hsettled]
    · rw [State.dmaComplete_ch]
  | fail =>
    have hu : u = (s.dmaSettle ix).dmaHalt ix C.failWrite C.failSp C.failAddr C.failCause := by
      simp only [u, State.dmaDrained]
      rw [show (s.dmaCh ix).drain = _ from hd]
    obtain ⟨hst, hdr, herr, hcause, hcmd⟩ := (s.dmaSettle ix).dmaHalt_fields hix C.failWrite C.failSp C.failAddr C.failCause
    rw [hu]
    exact ⟨hst, hdr.trans (by rw [hsettled]), fun _ => ⟨herr, hcause⟩, fun _ => hcmd, nofun⟩

/-! ### Starts (R312, R313) -/

theorem execDmaStart_eq {s : State} {ch : Chan} (hex : chanExists ch = true) {c : Cmd} {d : Desc} (hbegins : s.begins (.dmaStart c ch d) c 0x0006 false)
    (hdie : ch.die < 8 → s.dieAbsent ch.die = false) (hsrc : s.spAbsent (ctlSrcsp d.ctrl.toNat) d.src.toNat = false)
    (hdst : s.spAbsent (ctlDstsp d.ctrl.toNat) d.dst.toNat = false) (h1 : s.dmaState (chIx ch) ≠ 1) (h2 : s.dmaState (chIx ch) ≠ 2)
    (hdesc : s.descCheck (chIx ch) d = 0) :
    let ix := chIx ch
    Answers (.dmaStart c ch d) c s fun u =>
      u.dmaState ix = 1 ∧ u.reg .dmaSrc ix = d.src.toNat ∧ u.reg .dmaDst ix = d.dst.toNat ∧ u.reg .dmaLen ix = d.len.toNat ∧
      u.reg .dmaNext ix = d.next.toNat ∧ (u.dmaCh ix).cmd = some c ∧ (u.dmaCh ix).rd = 0 ∧ (u.dmaCh ix).wr = 0 ∧
      ∀ k, k ≠ ix → u.dmaCh k = s.dmaCh k := by
  intro ix
  have hpop : Chg { fns := true } s (s.popCmd c) := State.popCmd_chg
  have hstatus : (s.popCmd c).startStatus ch d = 0 := State.startStatus_zero hpop hex hdie hsrc hdst h1 h2 hdesc
  obtain ⟨hst, hS, hD, hL, hN, hcmd, hrd, hwr, hoth⟩ := (s.popCmd c).dmaStart_fields ix d c
  refine ⟨_, ?_, hst, hS, hD, hL, hN, hcmd, hrd, hwr, fun k hk => (hoth k hk).trans (hpop.dmaCh_eq k)⟩
  change execDmaStart c ch d s = _
  simp only [execDmaStart]
  rw [State.runCmd_begins hbegins]
  simp only [hstatus]
  rfl

/-! ### Writes of DMA_CTL (R314 to R316, R319) -/

/-- What the write of the low half has left: the channel as it was, and no register but DMA_CTL changed. -/
structure State.LowWritten (s u : State) (ix : Nat) : Prop where
  state : u.dmaState ix = s.dmaState ix
  cnt : u.cnt = s.cnt
  chg : Chg { regs := true, fns := true } s u
  regs (k : RegKind) : k.code ≠ RegKind.dmaCtl.code → k.code ≠ RegKind.hstEvstat.code → u.reg k ix = s.reg k ix

theorem State.dmaLow_written (s : State) {ix low : Nat} (hix : ix < 2 ^ 32) : s.LowWritten (s.dmaLow ix low) ix where
  state := s.dmaState_dmaLow hix
  cnt := s.reg_dmaLow hix (by decide) (by decide) (by decide)
  chg := State.dmaLow_chg
  regs _ h he := s.reg_dmaLow hix hix h he

section Control
variable {s : State} {ch : Chan} (hex : chanExists ch = true) {w : Writer} {off : Nat} {v : BitVec 32} (hw : s.mayWrite w = true)
  (hch : s.chanHere (chIx ch) = true)
include hex hw hch

theorem execDmaGo_eq (h31 : v.getLsbD 31 = true) (h29 : v.getLsbD 29 = false) (h1 : s.dmaState (chIx ch) ≠ 1) (h2 : s.dmaState (chIx ch) ≠ 2)
    (h30 : v.getLsbD 30 = false) :
    let ix := chIx ch
    let low := putBits (bits v.toNat 15 0) 7 6 0
    s.descCheck ix { s.dmaRegs ix with ctrl := BitVec.ofNat 32 low } = 0 →
    Yields (.dmaGo w ch off v) s fun u =>
      u.dmaState ix = 1 ∧ bits (u.reg .dmaCtl ix) 15 0 = low ∧ (u.dmaCh ix).rd = 0 ∧ (u.dmaCh ix).wr = 0 ∧
      ∀ k, k ≠ ix → u.dmaCh k = s.dmaCh k := by
  intro ix low hdesc
  have hix : ix < 2 ^ 32 := chIx_lt hex
  have hlow := putBits_low_lt v.toNat
  obtain ⟨hstate, -, hchg, hregs⟩ := s.dmaLow_written (low := low) hix
  generalize hu : s.dmaLow ix low = u at hstate hchg hregs
  have heq := State.writeDmaCtl_bits (off := off) hex hw hch hu h31 h30 h29
  have hctl : bits (u.reg .dmaCtl ix) 15 0 = putBits (bits v.toNat 15 0) 7 6 0 := by
    rw [← hu]
    exact s.bits_dmaLow hlow ⟨h1, h2⟩
  have hgo : u.goStatus ix = 0 := by
    have hidle : ¬(u.dmaState ix = 1 ∨ u.dmaState ix = 2) := by
      rw [hstate]
      exact not_or.mpr ⟨h1, h2⟩
    have hd : u.dmaRegs ix = { s.dmaRegs ix with ctrl := BitVec.ofNat 32 (putBits (bits v.toNat 15 0) 7 6 0) } := by
      simp only [State.dmaRegs, hctl, hregs .dmaSrc (by decide) (by decide), hregs .dmaDst (by decide) (by decide),
        hregs .dmaLen (by decide) (by decide), hregs .dmaNext (by decide) (by decide)]
    rw [State.goStatus, if_neg hidle, hd, State.descCheck_congr hchg.img_eq hchg.fuses_eq]
    exact hdesc
  obtain ⟨gst, gctl, grd, gwr, goth⟩ := State.dmaGoBit_fields hgo
  have hne3 : (u.dmaGoBit ix).dmaState ix ≠ 3 := by omega
  have hx := State.dmaPauseBit_zero (refused := false) hne3
  refine ⟨_, congrArg Host.Outcome.next (heq.trans (c := (u.dmaGoBit ix).setFld F.dmaCtl_pause ix 0) ?_), ?_⟩
  · dsimp only [cond_true, cond_false]
    rw [hgo]
    exact hx
  · refine ⟨(State.dmaPause_stat ..).trans gst, ?_, ?_, ?_, fun k hk => ?_⟩
    · change bits (((u.dmaGoBit ix).setReg .dmaCtl ix (putBits ((u.dmaGoBit ix).reg .dmaCtl ix) 30 30 0)).reg .dmaCtl ix) 15 0 = _
      rw [State.reg_setReg_same, bits_mod64 _ _ _ (by decide), bits_putBits_ne _ _ _ _ _ _ (by decide) (by decide)]
      rw [gctl, hctl]
    · rw [Chg.setFld.dmaCh_eq, grd]
    · rw [Chg.setFld.dmaCh_eq, gwr]
    · rw [Chg.setFld.dmaCh_eq, goth k hk, hchg.dmaCh_eq]

theorem execDmaPause_eq (h31 : v.getLsbD 31 = false) (h30 : v.getLsbD 30 = true) (h29 : v.getLsbD 29 = false) :
    let ix := chIx ch
    s.dmaState ix = 1 → (s.dmaCh ix).drain = .none →
    Yields (.dmaPause w ch off v) s fun u =>
      u.dmaState ix = 2 ∧ (u.dmaCh ix).drain = .pause ∧ (u.dmaCh ix).buf = (s.dmaCh ix).buf ∧ ∀ k, k ≠ ix → u.dmaCh k = s.dmaCh k := by
  intro ix hst hdr
  obtain ⟨hstate, -, hchg, -⟩ := s.dmaLow_written (low := putBits (bits v.toNat 15 0) 7 6 0) (chIx_lt hex)
  generalize hu : s.dmaLow ix (putBits (bits v.toNat 15 0) 7 6 0) = u at hstate hchg
  have heq := State.writeDmaCtl_bits (off := off) hex hw hch hu h31 h30 h29
  have hpause := u.dmaPauseBit_one ix false
  rw [hstate, hchg.dmaCh_eq, if_pos ⟨hst, hdr⟩] at hpause
  obtain ⟨dst, ddr, dbuf, doth⟩ := (u.setFld F.dmaCtl_pause ix 1).dmaDrain_fields ix .pause
  refine ⟨_, congrArg Host.Outcome.next (heq.trans hpause), dst, ddr, ?_, fun k hk => ?_⟩
  · rw [dbuf, Chg.setFld.dmaCh_eq, hchg.dmaCh_eq]
  · rw [doth k hk, Chg.setFld.dmaCh_eq, hchg.dmaCh_eq]

theorem execDmaResume_eq (h31 : v.getLsbD 31 = false) (h30 : v.getLsbD 30 = false) (h29 : v.getLsbD 29 = false) :
    let ix := chIx ch
    s.dmaState ix = 3 →
    Yields (.dmaResume w ch off v) s fun u =>
      u.dmaState ix = 1 ∧ (u.dmaCh ix).drain = .none ∧ ∀ k, k ≠ ix → u.dmaCh k = s.dmaCh k := by
  intro ix hst
  obtain ⟨hstate, -, hchg, -⟩ := s.dmaLow_written (low := putBits (bits v.toNat 15 0) 7 6 0) (chIx_lt hex)
  generalize hu : s.dmaLow ix (putBits (bits v.toNat 15 0) 7 6 0) = u at hstate hchg
  have heq := State.writeDmaCtl_bits (off := off) hex hw hch hu h31 h30 h29
  have hresume := State.dmaPauseBit_resumes (s := u) (ix := ix) (hstate.trans hst)
  obtain ⟨rst, roth, -, rch⟩ := (u.setFld F.dmaCtl_pause ix 0).dmaRun_fields ix
  refine ⟨_, congrArg Host.Outcome.next (heq.trans hresume), rst, by rw [rch], fun k hk => ?_⟩
  rw [roth k hk, Chg.setFld.dmaCh_eq, hchg.dmaCh_eq]

section Abort
variable (h31 : v.getLsbD 31 = false) (h30 : v.getLsbD 30 = true) (h29 : v.getLsbD 29 = true)
include h31 h30 h29

/-- The pause written with ABORT may begin a drain, which the abort takes over. -/
theorem execDmaAbort_busy :
    let ix := chIx ch
    s.dmaState ix = 1 ∨ s.dmaState ix = 2 → (s.dmaCh ix).drain ≠ .fail →
    Yields (.dmaAbort w ch off v) s fun u =>
      u.dmaState ix = 2 ∧ (u.dmaCh ix).drain = .abort ∧ ∀ k, k ≠ ix → u.dmaCh k = s.dmaCh k := by
  intro ix hst hdr
  obtain ⟨hstate, -, hchg, -⟩ := s.dmaLow_written (low := putBits (bits v.toNat 15 0) 7 6 0) (chIx_lt hex)
  generalize hu : s.dmaLow ix (putBits (bits v.toNat 15 0) 7 6 0) = u at hstate hchg
  have heq := State.writeDmaCtl_bits (off := off) hex hw hch hu h31 h30 h29
  generalize hp : u.dmaPauseBit ix 1 false = p
  have hpch : (p.dmaState ix = 1 ∨ p.dmaState ix = 2) ∧ (p.dmaCh ix).drain ≠ .fail ∧ ∀ k, k ≠ ix → p.dmaCh k = s.dmaCh k := by
    rw [← hp, State.dmaPauseBit_one]
    split_ifs
    · obtain ⟨dst, ddr, -, doth⟩ := (u.setFld F.dmaCtl_pause ix 1).dmaDrain_fields ix .pause
      refine ⟨.inr dst, by rw [ddr]; decide, fun k hk => ?_⟩
      rw [doth k hk, Chg.setFld.dmaCh_eq, hchg.dmaCh_eq]
    · refine ⟨?_, ?_, fun k hk => ?_⟩
      · rw [State.dmaPause_stat, hstate]
        exact hst
      · rw [Chg.setFld.dmaCh_eq, hchg.dmaCh_eq]
        exact hdr
      · rw [Chg.setFld.dmaCh_eq, hchg.dmaCh_eq]
  obtain ⟨pst, pdr, poth⟩ := hpch
  obtain ⟨dst, ddr, -, doth⟩ := p.dmaDrain_fields ix .abort
  refine ⟨_, congrArg Host.Outcome.next (heq.trans ((congrArg (State.dmaAbortBit · ix) hp).trans (State.dmaAbortBit_busy pst pdr))), dst, ddr,
    fun k hk => (doth k hk).trans (poth k hk)⟩

theorem execDmaAbort_stopped :
    let ix := chIx ch
    s.dmaState ix = 3 ∨ s.dmaState ix = 4 → (s.dmaCh ix).haltAt ≠ s.cnt + 1 →
    Yields (.dmaAbort w ch off v) s fun u =>
      u.dmaState ix = 0 ∧ (u.dmaCh ix).cmd = none ∧ ∀ k, k ≠ ix → u.dmaCh k = s.dmaCh k := by
  intro ix hst hh
  have hix : ix < 2 ^ 32 := chIx_lt hex
  obtain ⟨hstate, hcnt, hchg, -⟩ := s.dmaLow_written (low := putBits (bits v.toNat 15 0) 7 6 0) hix
  generalize hu : s.dmaLow ix (putBits (bits v.toNat 15 0) 7 6 0) = u at hstate hcnt hchg
  have heq := State.writeDmaCtl_bits (off := off) hex hw hch hu h31 h30 h29
  have hpause := u.dmaPauseBit_one ix false
  have hnot : ¬(u.dmaState ix = 1 ∧ (u.dmaCh ix).drain = .none) := by omega
  rw [if_neg hnot] at hpause
  have hst' : (u.setFld F.dmaCtl_pause ix 1).dmaState ix = 3 ∨ (u.setFld F.dmaCtl_pause ix 1).dmaState ix = 4 := by
    rw [State.dmaPause_stat, hstate]
    exact hst
  have hat : ((u.setFld F.dmaCtl_pause ix 1).dmaCh ix).haltAt ≠ (u.setFld F.dmaCtl_pause ix 1).cnt + 1 := by
    have hc : (u.setFld F.dmaCtl_pause ix 1).cnt = u.cnt :=
      State.reg_setFld_ne (f := F.dmaCtl_pause) _ _ (regKey_ne hix (by decide) (.inl (by decide)))
    rw [Chg.setFld.dmaCh_eq, hchg.dmaCh_eq, hc, hcnt]
    exact hh
  obtain ⟨ast, acmd, aoth⟩ := State.dmaAbortBit_stopped hst' hat
  refine ⟨_, congrArg Host.Outcome.next (heq.trans (congrArg (State.dmaAbortBit · ix) hpause)), ast, acmd, fun k hk => ?_⟩
  rw [aoth k hk, Chg.setFld.dmaCh_eq, hchg.dmaCh_eq]

end Abort
end Control

/-! ### The end of a drain (R317, R318, R326) -/

theorem execDmaDrainEnd_eq {s : State} {ch : Chan} (hex : chanExists ch = true) :
    let ix := chIx ch
    let C := s.dmaCh ix
    s.dmaState ix = 1 ∨ s.dmaState ix = 2 → C.wr = C.wrSent → C.rd = C.rdSent → s.dmaLimit ix ≤ C.wr → C.fetch = false →
      C.drain ≠ .none → C.drainAt ≠ s.cnt + 1 →
      Yields (.dmaDrainEnd ch) s fun u =>
        u.dmaState ix = (match C.drain with | .pause => 3 | .abort => 0 | _ => 4) ∧ (u.dmaCh ix).drain = .none ∧
        (C.drain = .fail → u.reg .dmaErr ix = C.failAddr % 2 ^ 64 ∧ u.fld F.dmaStat_cause ix = C.failCause % 16) ∧
        (C.drain ≠ .pause → (u.dmaCh ix).cmd = none) ∧ (C.drain = .pause → (u.dmaCh ix).cmd = C.cmd) := by
  intro ix C hst hwr hrd hlim hfetch hdrain hat
  have hexec : execDmaDrainEnd ch s = .next (s.dmaDrained ix) := by
    simp only [execDmaDrainEnd]
    rw [if_pos ⟨hdrain, hat, hfetch, hst, hwr, hrd, hlim⟩]
  refine ⟨_, hexec, s.dmaDrained_fields (chIx_lt hex) hdrain⟩

/-- Settles O25: GO, PAUSE and ABORT act on the state that the low half's write left (`State.writeDmaCtl_eq`). -/
theorem dmaControlsAndDrains : Obligations.DmaControlsAndDrains := by
  refine ⟨fun s ch hex => ⟨fun c d => execDmaStart_eq hex, fun w off v hw hch => ?control⟩, fun s ch => execDmaDrainEnd_eq⟩
  case control =>
    exact ⟨execDmaGo_eq hex hw hch, execDmaPause_eq hex hw hch, execDmaResume_eq hex hw hch,
      fun h31 h30 h29 => ⟨execDmaAbort_busy hex hw hch h31 h30 h29, execDmaAbort_stopped hex hw hch h31 h30 h29⟩⟩

end Sys2Proof.Machine
end

section
/-!
The accesses of a DMA channel (R283, R307 to R320).
-/
namespace Sys2Proof.Machine
set_option Elab.async false

/-! ## The kinds of register that an operation may write -/

/-- Every register of an index below 2^32 reads as it did, but for those of the kinds in `K`. -/
def RegsKept (K : List RegKind) (s u : State) : Prop :=
  ∀ (k : RegKind) (i : Nat), i < 2 ^ 32 → (∀ q ∈ K, k.code ≠ q.code) → u.reg k i = s.reg k i

namespace RegsKept

variable {K : List RegKind} {s u v : State}

theorem refl : RegsKept K s s := fun _ _ _ _ => rfl

theorem trans (h : RegsKept K s u) (h' : RegsKept K u v) : RegsKept K s v := fun k i hi hk => (h' k i hi hk).trans (h k i hi hk)

theorem of_chg {P : Foot} (h : Chg P s u) (hr : P.regs = false := by rfl) (hi : P.img = false := by rfl) (hf : P.fuses = false := by rfl) :
    RegsKept K s u := fun k i _ _ => h.reg_eq k i hr hi hf

/-- Fields set, none of them the store of registers, the image or the fuses. -/
theorem plain (hr : u.regs = s.regs := by rfl) (hi : u.img = s.img := by rfl) (hf : u.fuses = s.fuses := by rfl) : RegsKept K s u :=
  fun k i _ _ => by simp only [State.reg, regReset, Fld.reset, hr, hi, hf]

theorem setReg {k : RegKind} {i v : Nat} (hi : i < 2 ^ 32) (hk : k ∈ K) : RegsKept K s (s.setReg k i v) :=
  fun _ _ hj hq => State.reg_setReg_ne _ _ (regKey_ne hi hj (.inl (hq _ hk)))

theorem setFld {f : Fld} {i v : Nat} (hi : i < 2 ^ 32) (hk : f.kind ∈ K) : RegsKept K s (s.setFld f i v) := setReg hi hk

theorem satAdd {f : Fld} {i v : Nat} (hi : i < 2 ^ 32) (hk : f.kind ∈ K) : RegsKept K s (s.satAdd f i v) := setReg hi hk

theorem event {code kind idx : Nat} {items : List (Nat × Nat)} (hk : .hstEvstat ∈ K) : RegsKept K s (s.event code kind idx items) :=
  fun _ _ hj hq => State.reg_event _ _ _ _ _ (regKey_ne (by decide) hj (.inl (hq _ hk)))

theorem ite {c : Prop} [Decidable c] (h : RegsKept K s u) (h' : RegsKept K s v) : RegsKept K s (if c then u else v) := by
  split <;> assumption

theorem foldl {α : Type} {g : State → α → State} (hg : ∀ v x, RegsKept K v (g v x)) (l : List α) (h : RegsKept K s u) : RegsKept K s (l.foldl g u) := by
  induction l generalizing u with
  | nil => exact h
  | cons x l ih => exact ih (h.trans (hg u x))

theorem fld (h : RegsKept K s u) (f : Fld) (i : Nat) (hi : i < 2 ^ 32) (hk : ∀ q ∈ K, f.kind.code ≠ q.code) : u.fld f i = s.fld f i := by
  rw [State.fld, h _ _ hi hk, State.fld]

theorem mono {K' : List RegKind} (h : RegsKept K s u) (hK : ∀ k ∈ K, k ∈ K') : RegsKept K' s u :=
  fun k i hi hk => h k i hi fun q hq => hk q (hK q hq)

end RegsKept

/-- The registers that the record of a granule writes (R280 to R283, R299). -/
def granKinds : List RegKind := [.hstEvstat, .memStat, .ptcRepro, .memErrlog]

theorem RegsKept.granRecord {s : State} {write : Bool} {addr : Nat} {res : GranRes} : RegsKept granKinds s (s.granRecord write addr res) := by
  have hch := s.place_lt addr
  have hretry : RegsKept granKinds s ((List.range (granRetries write res)).foldl (fun t _ =>
      (t.event 0x0260 3 (s.place addr).1 [(8, addr)]).satAdd F.memStat_retry (s.place addr).1 1) s) :=
    .foldl (fun v _ => (RegsKept.event (by decide)).trans (.satAdd hch (by decide))) _ .refl
  unfold State.granRecord
  dsimp only
  split
  · exact .ite hretry (hretry.trans (.satAdd hch (by decide)))
  · exact .ite hretry (hretry.trans (.satAdd hch (by decide)))
  · have hloss (v : State) : RegsKept granKinds v v.lossSeen := .setFld (by decide) (by decide)
    have herr (v : State) (k c a : Nat) : RegsKept granKinds v (v.errLog k c a) :=
      (((RegsKept.setFld (by decide) (by decide)).trans (.setFld (by decide) (by decide))).trans (.setFld (by decide) (by decide))).trans
        (.setFld (by decide) (by decide))
    exact (((hretry.trans (hloss _)).trans (.event (by decide))).trans (.satAdd hch (by decide))).trans (herr _ _ _ _)
  · exact hretry

theorem RegsKept.dmaMoved {s : State} {write : Bool} {a n : Nat} {res : GranRes} : RegsKept granKinds s (s.dmaMoved write a n res) := by
  unfold State.dmaMoved
  split
  · exact .of_chg State.occAdd_chg
  · exact RegsKept.granRecord.trans (.of_chg State.granBusy_chg)

/-! ## An access of a channel in its slot (R311) -/

/-- The slot of a channel's access noted. -/
def State.dmaSlotted (s : State) (ix sp a : Nat) : State :=
  match s.resOf sp a with
  | some r => s.modDma ix fun c => { c with slotAt := mput c.slotAt r (s.slotMark r) }
  | none => s

theorem State.dmaSlotted_eq (s : State) (ix sp a : Nat) : ∃ d m, s.dmaSlotted ix sp a = { s with dma := d } ∧
    (s.dmaSlotted ix sp a).dmaCh ix = { s.dmaCh ix with slotAt := m } := by
  unfold State.dmaSlotted
  split
  · next r _ => exact ⟨_, mput (s.dmaCh ix).slotAt r (s.slotMark r), rfl, State.modDma_same ..⟩
  · exact ⟨s.dma, (s.dmaCh ix).slotAt, rfl, rfl⟩

/-- An access made in its slot, once the slot is noted (R311). -/
def State.dmaTried (s : State) (ix sp a n : Nat) (write : Bool) (res : GranRes) : State :=
  let c := s.dmaCh ix
  let cause := s.dmaCause ix write sp a n
  let first := write && decide (n < 64) && !c.rmw
  if cause ≠ 0 ∧ c.fetch then s.fetchFails ix a cause
  else if cause ≠ 0 then s.dmaFail ix write sp a cause (if write then c.wrSent else c.rdSent)
  else
    let s := if sp = 0 then s.dmaMoved (write && !first) a n res else s
    if sp = 0 ∧ a < s.gddrSize ∧ res = .lost then
      if first then s.dmaFail ix true 0 a 4 c.wrSent else s.dmaLost ix write a n a
    else if c.fetch then s.descRead ix a
    else if write then (if sp = 0 ∧ first then s.modDma ix fun c => { c with rmw := true } else s.dmaWrite ix sp a n)
    else s.dmaRead ix sp a n

theorem execDmaSlotAccess_eq {s : State} {ch : Chan} {w : Bool} {res : GranRes} {sp a n : Nat}
    (hacc : s.dmaNextAcc (chIx ch) w = some (sp, a, n)) (hmay : s.dmaMay (chIx ch) sp a = true) :
    exec (.dmaSlotAccess ch ⟨w, res⟩) s = .next ((s.dmaSlotted (chIx ch) sp a).dmaTried (chIx ch) sp a n w res) := by
  change execDmaSlotAccess ch ⟨w, res⟩ s = _
  simp only [execDmaSlotAccess, hacc, hmay]
  rfl

theorem State.routeOk_dma (s : State) (d : SMap DmaChan) : ({ s with dma := d } : State).routeOk = s.routeOk := by
  funext y n
  induction n with
  | zero => rfl
  | succ n ih =>
    funext z
    simp only [State.routeOk, ih]
    rfl

theorem State.dmaCause_dma (s : State) (d : SMap DmaChan) (ix : Nat) (w : Bool) (sp a n : Nat) :
    ({ s with dma := d } : State).dmaCause ix w sp a n = s.dmaCause ix w sp a n := by
  have hbad : ({ s with dma := d } : State).spBad = s.spBad := by
    funext die w a n
    simp only [State.spBad, State.routeOk_dma]
    rfl
  simp only [State.dmaCause, hbad]
  rfl

/-- An access that passes its checks and is not lost. -/
theorem State.dmaTried_ok {s : State} {ix sp a n : Nat} {w : Bool} {res : GranRes} (hcause : s.dmaCause ix w sp a n = 0)
    (hres : sp = 0 → a < s.gddrSize → res ≠ .lost) :
    s.dmaTried ix sp a n w res =
      let c := s.dmaCh ix
      let first := w && decide (n < 64) && !c.rmw
      let v := if sp = 0 then s.dmaMoved (w && !first) a n res else s
      if c.fetch then v.descRead ix a
      else if w then (if sp = 0 ∧ first then v.modDma ix fun c => { c with rmw := true } else v.dmaWrite ix sp a n)
      else v.dmaRead ix sp a n := by
  have hgddr (v : State) (hv : v.gddrSize = s.gddrSize) : ¬(sp = 0 ∧ a < v.gddrSize ∧ res = .lost) := by
    rw [hv]
    rintro ⟨h0, ha, hl⟩
    exact hres h0 ha hl
  have hmoved : (if sp = 0 then s.dmaMoved (w && !(w && decide (n < 64) && !(s.dmaCh ix).rmw)) a n res else s).gddrSize = s.gddrSize := by
    have hchg : Chg { occ := true, fns := true, regs := true, chans := true } s
        (if sp = 0 then s.dmaMoved (w && !(w && decide (n < 64) && !(s.dmaCh ix).rmw)) a n res else s) := .ite State.dmaMoved_chg .refl
    rw [State.gddrSize, hchg.fuses_eq, State.gddrSize]
  simp only [State.dmaTried]
  rw [if_neg (fun h => h.1 hcause), if_neg (fun h => h hcause), if_neg (hgddr _ hmoved)]

theorem State.dmaGot_fields (s : State) (ix : Nat) (bs : List Byte) :
    ((s.dmaGot ix bs).dmaCh ix = { s.dmaCh ix with rd := (s.dmaCh ix).rd + bs.length, buf := (s.dmaCh ix).buf ++ bs }) ∧
    (s.dmaGot ix bs).reg .dmaSrc ix = (s.reg .dmaSrc ix + bs.length) % 2 ^ 64 := by
  unfold State.dmaGot
  refine ⟨?_, ?_⟩
  · rw [State.modDma_same, Chg.setReg.dmaCh_eq]
  · rw [Chg.modDma.reg_eq, State.reg_setReg_same]

/-- A chained descriptor read: it runs (R315). -/
theorem State.descRead_runs {s : State} {ix a : Nat} (hdesc : s.descCheck ix (s.descAt a) = 0) (hdrain : (s.dmaCh ix).drain = .none) :
    let d := s.descAt a
    let u := s.descRead ix a
    u.dmaState ix = 1 ∧ u.reg .dmaSrc ix = d.src.toNat ∧ u.reg .dmaDst ix = d.dst.toNat ∧ u.reg .dmaLen ix = d.len.toNat ∧
    u.reg .dmaNext ix = d.next.toNat ∧ (u.dmaCh ix).fetch = false ∧ (u.dmaCh ix).desc = a ∧ (u.dmaCh ix).cmd = (s.dmaCh ix).cmd := by
  intro d u
  obtain ⟨hsrc, hdst, hlen, hnext, -⟩ := s.loadDesc_regs ix d
  generalize hv : ((s.loadDesc ix d).modDma ix fun k => { k with desc := a, fetch := false, drain := .none }) = v
  have hu : u = v.dmaRun ix := by
    simp only [u, State.descRead, hdrain]
    rw [if_neg (fun h => h hdesc), hv]
  have hvr (k : RegKind) : v.reg k ix = (s.loadDesc ix d).reg k ix := by
    rw [← hv]
    exact Chg.modDma.reg_eq ..
  have hvc : v.dmaCh ix = { s.dmaCh ix with desc := a, fetch := false, drain := .none } := by
    rw [← hv, State.modDma_same, State.loadDesc_chg.dmaCh_eq]
  obtain ⟨hst, -, hregs, hch⟩ := v.dmaRun_fields ix
  rw [hu, hch, hregs .dmaSrc (by decide), hregs .dmaDst (by decide), hregs .dmaLen (by decide), hregs .dmaNext (by decide), hvr, hvr, hvr, hvr, hvc]
  exact ⟨hst, hsrc, hdst, hlen, hnext, rfl, rfl, rfl⟩

/-- A failed read of a chained descriptor halts its channel. -/
theorem State.fetchFails_fields (s : State) {ix : Nat} (hix : ix < 2 ^ 32) (addr cause : Nat) :
    let u := s.fetchFails ix addr cause
    u.dmaState ix = 4 ∧ u.fld F.dmaStat_cause ix = cause % 16 ∧ (u.dmaCh ix).fetch = false ∧ (u.dmaCh ix).cmd = none := by
  intro u
  obtain ⟨hst, -, -, hcause, hcmd⟩ :=
    (s.modDma ix fun c => { c with fetch := false, drain := .none }).dmaHalt_fields hix false 0 addr cause
  refine ⟨hst, hcause, ?_, hcmd⟩
  simp only [u, State.fetchFails, State.dmaHalt]
  rw [State.dmaComplete_ch, State.event_chg.dmaCh_eq, Chg.setReg.dmaCh_eq, State.modDma_same, Chg.setFld.dmaCh_eq, Chg.setFld.dmaCh_eq,
    Chg.setFld.dmaCh_eq, Chg.setFld.dmaCh_eq, State.modDma_same]

/-- A channel that drains for a failure. -/
structure DmaChan.Failed (C : DmaChan) (cause addr : Nat) (write : Bool) : Prop where
  drain : C.drain = .fail
  failCause : C.failCause = cause
  failAddr : C.failAddr = addr
  failWrite : C.failWrite = write

/-- A failing access: its channel drains for the failure (R316). -/
theorem State.dmaFail_failed {s : State} {ix : Nat} (h : (s.dmaCh ix).drain ≠ .fail) (write : Bool) (sp addr cause pos : Nat) :
    ((s.dmaFail ix write sp addr cause pos).dmaCh ix).Failed cause addr write := by
  simp only [State.dmaFail]
  rw [if_neg h]
  split_ifs
  · rw [State.modDma_same, Chg.setReg.dmaCh_eq, State.dropDma_chg.dmaCh_eq, State.modDma_same]
    exact ⟨rfl, rfl, rfl, rfl⟩
  · rw [State.modDma_same, State.dropDma_chg.dmaCh_eq, State.modDma_same]
    exact ⟨rfl, rfl, rfl, rfl⟩

theorem State.dmaLost_failed {s : State} {ix : Nat} (h : (s.dmaCh ix).drain ≠ .fail) (hf : (s.dmaCh ix).fetch = false) (write : Bool) (a n addr : Nat) :
    ((s.dmaLost ix write a n addr).dmaCh ix).Failed 4 addr write := by
  have hnf : ¬(s.dmaCh ix).fetch = true := by simp [hf]
  simp only [State.dmaLost]
  rw [if_neg hnf]
  by_cases hw : write = true
  · have hmixed : (s.mixed a (s.swapped ix (s.dmaCh ix).wrSent n)).1.dmaCh ix = s.dmaCh ix := State.mixed_chg.dmaCh_eq ix
    generalize s.mixed a (s.swapped ix (s.dmaCh ix).wrSent n) = m at hmixed ⊢
    have hext : (({ m.1 with ext := wrBytes m.1.ext a m.2 } : State).dmaCh ix).drain ≠ .fail := by
      rw [show ({ m.1 with ext := wrBytes m.1.ext a m.2 } : State).dmaCh ix = m.1.dmaCh ix from rfl, hmixed]
      exact h
    rw [if_pos hw, hw]
    exact State.dmaFail_failed hext ..
  · rw [if_neg hw, Bool.eq_false_of_not_eq_true hw]
    exact State.dmaFail_failed h ..

theorem State.swapped_congr {s u : State} {ix : Nat} (hbuf : (u.dmaCh ix).buf = (s.dmaCh ix).buf) (hat : (u.dmaCh ix).bufAt = (s.dmaCh ix).bufAt)
    (hsw : u.fld F.dmaCtl_swap ix = s.fld F.dmaCtl_swap ix) (at_ n : Nat) : u.swapped ix at_ n = s.swapped ix at_ n := by
  simp only [State.swapped, hbuf, hat, hsw]

/-- An access that may be made is not one that a drain of this cycle has stopped. -/
theorem State.dmaFailAcc_eq {s : State} {ix : Nat} {w : Bool} {x : Nat × Nat × Nat} (h : s.dmaNextAcc ix w = some x) (hf : (s.dmaCh ix).fetch = false) :
    s.dmaFailAcc ix w = some x := by
  have hnot : ¬(!w && s.dmaState ix == 2 && !(s.dmaCh ix).fetch && (s.dmaCh ix).drainAt == s.cnt + 1
      && ((s.dmaCh ix).drain == .pause || (s.dmaCh ix).drain == .abort)) = true := by
    intro hd
    simp only [Bool.and_eq_true, Bool.not_eq_true', beq_iff_eq] at hd
    obtain ⟨⟨⟨⟨hw, hst⟩, -⟩, -⟩, -⟩ := hd
    simp [State.dmaNextAcc, hf, hw, hst] at h
  simp only [State.dmaFailAcc]
  rw [if_neg hnot, h]

/-- A channel reading a chained descriptor writes nothing. -/
theorem State.fetch_of_nextWrite {s : State} {ix : Nat} {x : Nat × Nat × Nat} (h : s.dmaNextAcc ix true = some x) : (s.dmaCh ix).fetch = false := by
  by_contra hf
  simp [State.dmaNextAcc, hf] at h

/-- The bytes that a read brings join the stream. -/
theorem State.dmaRead_got (s : State) {ix sp a n : Nat} (hsp : sp = 0 ∨ sp = 1) :
    let u := s.dmaRead ix sp a n
    (u.dmaCh ix).buf = (s.dmaCh ix).buf ++ rdBytes (if sp = 0 then s.ext else s.hostMem) a n ∧ (u.dmaCh ix).rd = (s.dmaCh ix).rd + n ∧
    (u.dmaCh ix).rdSent = (s.dmaCh ix).rdSent + n ∧ u.reg .dmaSrc ix = (s.reg .dmaSrc ix + n) % 2 ^ 64 ∧ u.ext = s.ext ∧ u.hostMem = s.hostMem := by
  intro u
  have hu : u = (s.modDma ix fun c => { c with rdSent := c.rdSent + n }).dmaGot ix (rdBytes (if sp = 0 then s.ext else s.hostMem) a n) := by
    simp only [u, State.dmaRead]
    rcases hsp with rfl | rfl <;> rfl
  obtain ⟨hch, hsrc⟩ := (s.modDma ix fun c => { c with rdSent := c.rdSent + n }).dmaGot_fields ix
    (rdBytes (if sp = 0 then s.ext else s.hostMem) a n)
  rw [hu]
  refine ⟨?_, ?_, ?_, ?_, ?_, ?_⟩
  · rw [hch, State.modDma_same]
  · rw [hch, State.modDma_same, rdBytes_length]
  · rw [hch, State.modDma_same]
  · rw [hsrc, Chg.modDma.reg_eq, rdBytes_length]
  · rw [State.dmaGot_chg.ext_eq, Chg.modDma.ext_eq]
  · rw [State.dmaGot_chg.hostMem_eq, Chg.modDma.hostMem_eq]

/-- A packet that a channel sends to a scratchpad. -/
structure MPkt.DmaTo (p : MPkt) (ix a : Nat) (write : Bool) : Prop where
  kind : p.kind = .dma
  write : p.write = write
  src : p.src = spTile a
  handle : p.handle = spHandle a
  off : p.off = spOff a
  chan : p.chan = ix

theorem State.dmaRead_sends (s : State) (ix a n : Nat) :
    ((s.dmaRead ix 2 a n).dmaCh ix).rdSent = (s.dmaCh ix).rdSent + n ∧
    ∃ p, (s.dmaRead ix 2 a n).mpkts = s.mpkts ++ [p] ∧ p.DmaTo ix a false ∧ p.len = n ∧ p.soff = (s.dmaCh ix).rdSent := by
  refine ⟨?_, ?_⟩
  · change (State.dmaCh (State.enterPkt _ _) ix).rdSent = _
    rw [State.enterPkt_chg.dmaCh_eq, State.modDma_same]
  · refine ⟨_, rfl, ⟨rfl, rfl, rfl, rfl, rfl, rfl⟩, rfl, ?_⟩
    change ((s.modDma ix fun c => { c with rdSent := c.rdSent + n }).dmaCh ix).rdSent - n = _
    rw [State.modDma_same]
    exact Nat.add_sub_cancel ..

theorem State.dmaWrite_sends (s : State) (ix a n : Nat) :
    ((s.dmaWrite ix 2 a n).dmaCh ix).wrSent = (s.dmaCh ix).wrSent + n ∧
    ∃ p, (s.dmaWrite ix 2 a n).mpkts = s.mpkts ++ [p] ∧ p.DmaTo ix a true ∧ p.data = s.swapped ix (s.dmaCh ix).wrSent n := by
  refine ⟨?_, ?_⟩
  · change (State.dmaCh (State.enterPkt _ _) ix).wrSent = _
    rw [State.enterPkt_chg.dmaCh_eq]
    change ((s.modDma ix fun c => { c with wrSent := c.wrSent + n, rmw := false }).dmaCh ix).wrSent = _
    rw [State.modDma_same]
  · exact ⟨_, rfl, ⟨rfl, rfl, rfl, rfl, rfl, rfl⟩, rfl⟩

/-- A write of a channel reaches external memory. -/
theorem State.dmaWrite_ext (s : State) (ix a n : Nat) : (s.dmaWrite ix 0 a n).ext = wrBytes s.ext a (s.swapped ix (s.dmaCh ix).wrSent n) ∧
    (s.dmaWrite ix 0 a n).hostMem = s.hostMem ∧ (s.dmaWrite ix 0 a n).tiles = s.tiles := by
  simp only [State.dmaWrite]
  refine ⟨?_, ?_, ?_⟩
  · exact State.dmaPut_chg.ext_eq
  · exact State.dmaPut_chg.hostMem_eq
  · exact State.dmaPut_chg.tiles_eq

/-- A write of a channel reaches the host's memory. -/
theorem State.dmaWrite_host (s : State) (ix a n : Nat) : (s.dmaWrite ix 1 a n).hostMem = wrBytes s.hostMem a (s.swapped ix (s.dmaCh ix).wrSent n) ∧
    (s.dmaWrite ix 1 a n).ext = s.ext ∧ (s.dmaWrite ix 1 a n).tiles = s.tiles := by
  simp only [State.dmaWrite]
  refine ⟨?_, ?_, ?_⟩
  · exact State.dmaPut_chg.hostMem_eq
  · exact State.dmaPut_chg.ext_eq
  · exact State.dmaPut_chg.tiles_eq

theorem swapped_length (s : State) (ix at_ n : Nat) : (s.swapped ix at_ n).length = n := by
  simp [State.swapped]

theorem State.dmaSlotted_chg {s : State} {ix sp a : Nat} : Chg { dma := true } s (s.dmaSlotted ix sp a) := by
  unfold State.dmaSlotted
  split
  · exact .modDma
  · exact .refl

/-- What a slot's access does once its slot and its use of memory are noted. -/
structure State.SlotMade (s v : State) (ix : Nat) : Prop where
  chg : Chg { dma := true, occ := true, fns := true, regs := true, chans := true } s v
  regs : RegsKept granKinds s v
  ch : ∃ m, v.dmaCh ix = { s.dmaCh ix with slotAt := m }

theorem dmaSlotAccess_made {s : State} {ch : Chan} {w : Bool} {res : GranRes} {sp a n : Nat}
    (hacc : s.dmaNextAcc (chIx ch) w = some (sp, a, n)) (hmay : s.dmaMay (chIx ch) sp a = true) (hcause : s.dmaCause (chIx ch) w sp a n = 0)
    (hres : sp = 0 → a < s.gddrSize → res ≠ .lost) :
    ∃ v, s.SlotMade v (chIx ch) ∧ exec (.dmaSlotAccess ch ⟨w, res⟩) s = .next
      (if (s.dmaCh (chIx ch)).fetch then v.descRead (chIx ch) a
       else if w then
        (if sp = 0 ∧ (w && decide (n < 64) && !(s.dmaCh (chIx ch)).rmw) = true then v.modDma (chIx ch) fun c => { c with rmw := true }
         else v.dmaWrite (chIx ch) sp a n)
       else v.dmaRead (chIx ch) sp a n) := by
  obtain ⟨d, m, hd, hch⟩ := s.dmaSlotted_eq (chIx ch) sp a
  have hchg : Chg { dma := true } s (s.dmaSlotted (chIx ch) sp a) := State.dmaSlotted_chg
  have hcause' : (s.dmaSlotted (chIx ch) sp a).dmaCause (chIx ch) w sp a n = 0 := by
    rw [hd, State.dmaCause_dma]
    exact hcause
  have hres' : sp = 0 → a < (s.dmaSlotted (chIx ch) sp a).gddrSize → res ≠ .lost := by
    rw [hd]
    exact hres
  have hok := State.dmaTried_ok hcause' hres'
  refine ⟨if sp = 0 then (s.dmaSlotted (chIx ch) sp a).dmaMoved (w && !(w && decide (n < 64) && !(s.dmaCh (chIx ch)).rmw)) a n res
    else s.dmaSlotted (chIx ch) sp a, ⟨?_, ?_, ?_⟩, by rw [execDmaSlotAccess_eq hacc hmay, hok, hch]⟩
  · exact .via (.via .refl hchg) (.ite State.dmaMoved_chg .refl : Chg { occ := true, fns := true, regs := true, chans := true } _ _)
  · exact (RegsKept.of_chg hchg).trans (.ite .dmaMoved .refl)
  · refine ⟨m, ?_⟩
    split_ifs
    · rw [State.dmaMoved_chg.dmaCh_eq, hch]
    · exact hch

theorem State.SlotMade.swapped {s v : State} {ix : Nat} (h : s.SlotMade v ix) (hix : ix < 2 ^ 32) (at_ n : Nat) : v.swapped ix at_ n = s.swapped ix at_ n := by
  obtain ⟨m, hm⟩ := h.ch
  exact State.swapped_congr (by rw [hm]) (by rw [hm]) (h.regs.fld _ _ hix (by decide)) _ _

/-- An access that fails its check. -/
theorem dmaSlotAccess_fails {s : State} {ch : Chan} {w : Bool} {res : GranRes} {sp a n : Nat}
    (hacc : s.dmaNextAcc (chIx ch) w = some (sp, a, n)) (hmay : s.dmaMay (chIx ch) sp a = true) (hf : (s.dmaCh (chIx ch)).fetch = false)
    (hdr : (s.dmaCh (chIx ch)).drain ≠ .fail) (hcause : s.dmaCause (chIx ch) w sp a n ≠ 0) :
    Yields (.dmaSlotAccess ch ⟨w, res⟩) s fun u => (u.dmaCh (chIx ch)).Failed (s.dmaCause (chIx ch) w sp a n) a w := by
  obtain ⟨d, m, hd, hch⟩ := s.dmaSlotted_eq (chIx ch) sp a
  have hcause' : (s.dmaSlotted (chIx ch) sp a).dmaCause (chIx ch) w sp a n = s.dmaCause (chIx ch) w sp a n := by
    rw [hd, State.dmaCause_dma]
  have hfetch : ((s.dmaSlotted (chIx ch) sp a).dmaCh (chIx ch)).fetch = false := by
    rw [hch]
    exact hf
  have hdrain : ((s.dmaSlotted (chIx ch) sp a).dmaCh (chIx ch)).drain ≠ .fail := by
    rw [hch]
    exact hdr
  refine ⟨_, execDmaSlotAccess_eq hacc hmay, ?_⟩
  simp only [State.dmaTried]
  rw [if_neg (fun h => by simp [hfetch] at h), hcause', if_pos hcause]
  exact State.dmaFail_failed hdrain ..

/-- An access whose granule is lost. -/
theorem dmaSlotAccess_lost {s : State} {ch : Chan} {w : Bool} {a n : Nat}
    (hacc : s.dmaNextAcc (chIx ch) w = some (0, a, n)) (hmay : s.dmaMay (chIx ch) 0 a = true) (hf : (s.dmaCh (chIx ch)).fetch = false)
    (hdr : (s.dmaCh (chIx ch)).drain ≠ .fail) (hcause : s.dmaCause (chIx ch) w 0 a n = 0) (ha : a < s.gddrSize) :
    Yields (.dmaSlotAccess ch ⟨w, .lost⟩) s fun u => (u.dmaCh (chIx ch)).Failed 4 a w := by
  obtain ⟨d, m, hd, hch⟩ := s.dmaSlotted_eq (chIx ch) 0 a
  have hcause' : (s.dmaSlotted (chIx ch) 0 a).dmaCause (chIx ch) w 0 a n = 0 := by
    rw [hd, State.dmaCause_dma]
    exact hcause
  refine ⟨_, execDmaSlotAccess_eq hacc hmay, ?_⟩
  simp only [State.dmaTried]
  rw [if_neg (fun h => h.1 hcause'), if_neg (fun h => h hcause'), if_pos trivial]
  generalize hv : State.dmaMoved _ _ a n _ = v
  have hvc : v.dmaCh (chIx ch) = { s.dmaCh (chIx ch) with slotAt := m } := by
    rw [← hv, State.dmaMoved_chg.dmaCh_eq, hch]
  have hgddr : a < v.gddrSize := by
    have hchg : Chg { occ := true, fns := true, regs := true, chans := true } (s.dmaSlotted (chIx ch) 0 a) v := by
      rw [← hv]
      exact State.dmaMoved_chg
    rw [State.gddrSize, hchg.fuses_eq, State.dmaSlotted_chg.fuses_eq]
    exact ha
  have hdrain : (v.dmaCh (chIx ch)).drain ≠ .fail := by
    rw [hvc]
    exact hdr
  have hfetch : (v.dmaCh (chIx ch)).fetch = false := by
    rw [hvc]
    exact hf
  rw [if_pos ⟨trivial, hgddr, trivial⟩]
  cases w
  · exact State.dmaLost_failed hdrain hfetch ..
  · split_ifs
    · exact State.dmaFail_failed hdrain ..
    · exact State.dmaLost_failed hdrain hfetch ..

/-! ### The access of a slot -/

section Slot
variable {s : State} {ch : Chan} {sp a n : Nat} {res : GranRes} (hex : chanExists ch = true)

section Read
variable (hacc : s.dmaNextAcc (chIx ch) false = some (sp, a, n)) (hmay : s.dmaMay (chIx ch) sp a = true)
  (hcause : s.dmaCause (chIx ch) false sp a n = 0) (hres : sp = 0 → a < s.gddrSize → res ≠ .lost)
include hex hacc hmay hcause hres

theorem execDmaSlotAccess_reads (hf : (s.dmaCh (chIx ch)).fetch = false) (hsp : sp = 0 ∨ sp = 1) :
    let ix := chIx ch
    let C := s.dmaCh ix
    Yields (.dmaSlotAccess ch ⟨false, res⟩) s fun u =>
      (u.dmaCh ix).buf = C.buf ++ rdBytes (if sp = 0 then s.ext else s.hostMem) a n ∧ (u.dmaCh ix).rd = C.rd + n ∧
      (u.dmaCh ix).rdSent = C.rdSent + n ∧ u.reg .dmaSrc ix = (s.reg .dmaSrc ix + n) % 2 ^ 64 ∧
      u.ext = s.ext ∧ u.hostMem = s.hostMem := by
  intro ix C
  have hix : ix < 2 ^ 32 := chIx_lt hex
  obtain ⟨v, hv, hexec⟩ := dmaSlotAccess_made hacc hmay hcause hres
  obtain ⟨m, hch⟩ := hv.ch
  refine ⟨_, hexec, ?_⟩
  have hnf : ¬(s.dmaCh (chIx ch)).fetch = true := by simp [show (s.dmaCh (chIx ch)).fetch = false from hf]
  obtain ⟨hbuf, hrd, hsent, hsrc, hext, hhost⟩ := v.dmaRead_got (ix := ix) (a := a) (n := n) hsp
  rw [if_neg hnf, if_neg Bool.false_ne_true]
  refine ⟨?_, ?_, ?_, ?_, ?_, ?_⟩
  · rw [hbuf, hch, hv.chg.ext_eq, hv.chg.hostMem_eq]
  · rw [hrd, hch]
  · rw [hsent, hch]
  · rw [hsrc, hv.regs _ _ hix (by decide)]
  · rw [hext, hv.chg.ext_eq]
  · rw [hhost, hv.chg.hostMem_eq]

theorem execDmaSlotAccess_readsTile (hf : (s.dmaCh (chIx ch)).fetch = false) (hsp : sp = 2) :
    let ix := chIx ch
    let C := s.dmaCh ix
    Yields (.dmaSlotAccess ch ⟨false, res⟩) s fun u =>
      (u.dmaCh ix).rdSent = C.rdSent + n ∧ ∃ p, u.mpkts = s.mpkts ++ [p] ∧ p.kind = .dma ∧ p.write = false ∧
        p.src = spTile a ∧ p.handle = spHandle a ∧ p.off = spOff a ∧ p.len = n ∧ p.soff = C.rdSent ∧ p.chan = ix := by
  intro ix C
  obtain ⟨v, hv, hexec⟩ := dmaSlotAccess_made hacc hmay hcause hres
  obtain ⟨m, hch⟩ := hv.ch
  refine ⟨_, hexec, ?_⟩
  subst hsp
  have hnf : ¬(s.dmaCh (chIx ch)).fetch = true := by simp [show (s.dmaCh (chIx ch)).fetch = false from hf]
  obtain ⟨hsent, p, hp, ⟨hk, hw, hs, hh, ho, hc⟩, hl, hso⟩ := v.dmaRead_sends ix a n
  rw [if_neg hnf, if_neg Bool.false_ne_true]
  refine ⟨?_, p, ?_, hk, hw, hs, hh, ho, hl, ?_, hc⟩
  · rw [hsent, hch]
  · rw [hp, hv.chg.mpkts_eq]
  · rw [hso, hch]

theorem execDmaSlotAccess_chains (hf : (s.dmaCh (chIx ch)).fetch = true) :
    let ix := chIx ch
    let C := s.dmaCh ix
    let d := s.descAt a
    (s.descCheck ix d = 0 → C.drain = .none →
      Yields (.dmaSlotAccess ch ⟨false, res⟩) s fun u =>
        u.dmaState ix = 1 ∧ u.reg .dmaSrc ix = d.src.toNat ∧ u.reg .dmaDst ix = d.dst.toNat ∧ u.reg .dmaLen ix = d.len.toNat ∧
        u.reg .dmaNext ix = d.next.toNat ∧ (u.dmaCh ix).fetch = false ∧ (u.dmaCh ix).desc = a ∧ (u.dmaCh ix).cmd = C.cmd) ∧
    (s.descCheck ix d ≠ 0 →
      Yields (.dmaSlotAccess ch ⟨false, res⟩) s fun u =>
        u.dmaState ix = 4 ∧ u.fld F.dmaStat_cause ix = 9 ∧ (u.dmaCh ix).fetch = false ∧ (u.dmaCh ix).cmd = none) := by
  intro ix C d
  have hix : ix < 2 ^ 32 := chIx_lt hex
  obtain ⟨v, hv, hexec⟩ := dmaSlotAccess_made hacc hmay hcause hres
  obtain ⟨m, hch⟩ := hv.ch
  have hd : v.descAt a = d := by
    simp only [State.descAt, hv.chg.ext_eq]
    rfl
  have hcheck : v.descCheck ix d = s.descCheck ix d := State.descCheck_congr hv.chg.img_eq hv.chg.fuses_eq ..
  rw [if_pos hf] at hexec
  refine ⟨fun hdesc hdrain => ⟨_, hexec, ?_⟩, fun hdesc => ⟨_, hexec, ?_⟩⟩
  · have hruns := State.descRead_runs (s := v) (ix := ix) (a := a) (by rw [hd, hcheck]; exact hdesc) (by rw [hch]; exact hdrain)
    rw [hd, hch] at hruns
    exact hruns
  · have hfails : v.descRead ix a = v.fetchFails ix a 9 := by
      simp only [State.descRead]
      rw [hd, if_pos (by rw [hcheck]; exact hdesc)]
    dsimp only
    rw [hfails]
    exact v.fetchFails_fields hix a 9

end Read

section Write
variable (hacc : s.dmaNextAcc (chIx ch) true = some (sp, a, n)) (hmay : s.dmaMay (chIx ch) sp a = true)
  (hcause : s.dmaCause (chIx ch) true sp a n = 0) (hres : sp = 0 → a < s.gddrSize → res ≠ .lost)
include hex hacc hmay hcause hres

/-- A write's access on the state whose slot was made: the first of the two accesses of a partial granule only reads it. -/
theorem execDmaSlotAccess_write : ∃ v, s.SlotMade v (chIx ch) ∧ exec (.dmaSlotAccess ch ⟨true, res⟩) s = .next
    (if sp = 0 ∧ (true && decide (n < 64) && !(s.dmaCh (chIx ch)).rmw) = true then v.modDma (chIx ch) fun c => { c with rmw := true }
      else v.dmaWrite (chIx ch) sp a n) := by
  have hnf : ¬(s.dmaCh (chIx ch)).fetch = true := by
    have hfetch : (s.dmaCh (chIx ch)).fetch = false := State.fetch_of_nextWrite hacc
    simp [hfetch]
  obtain ⟨v, hv, hexec⟩ := dmaSlotAccess_made hacc hmay hcause hres
  rw [if_neg hnf, if_pos rfl] at hexec
  exact ⟨v, hv, hexec⟩

theorem execDmaSlotAccess_stores (hsp : sp = 0) (hn : n = 64 ∨ (s.dmaCh (chIx ch)).rmw = true) (hmem : memWf s.ext = true) :
    Yields (.dmaSlotAccess ch ⟨true, res⟩) s fun u =>
      Stored s.ext u.ext a (s.swapped (chIx ch) (s.dmaCh (chIx ch)).wrSent n) ∧ u.hostMem = s.hostMem ∧ u.tiles = s.tiles := by
  have hix : chIx ch < 2 ^ 32 := chIx_lt hex
  obtain ⟨v, hv, hexec⟩ := execDmaSlotAccess_write hex hacc hmay hcause hres
  obtain ⟨m, hch⟩ := hv.ch
  refine ⟨_, hexec, ?_⟩
  have hnfirst : ¬(sp = 0 ∧ (true && decide (n < 64) && !(s.dmaCh (chIx ch)).rmw) = true) := by
    rintro ⟨-, h⟩
    simp only [Bool.true_and, Bool.and_eq_true, decide_eq_true_eq, Bool.not_eq_true'] at h
    rcases hn with rfl | hr
    · exact absurd h.1 (by decide)
    · exact absurd (hr.symm.trans h.2) (by decide)
  subst hsp
  obtain ⟨hext, hhost, htiles⟩ := v.dmaWrite_ext (chIx ch) a n
  rw [if_neg hnfirst]
  refine ⟨?_, ?_, ?_⟩
  · rw [hext, hv.chg.ext_eq, hv.swapped hix, hch]
    exact stored_wrBytes _ _ hmem
  · rw [hhost, hv.chg.hostMem_eq]
  · rw [htiles, hv.chg.tiles_eq]

theorem execDmaSlotAccess_first (hsp : sp = 0) (hn : n < 64) (hr : (s.dmaCh (chIx ch)).rmw = false) :
    Yields (.dmaSlotAccess ch ⟨true, res⟩) s fun u =>
      u.ext = s.ext ∧ (u.dmaCh (chIx ch)).rmw = true ∧ (u.dmaCh (chIx ch)).wrSent = (s.dmaCh (chIx ch)).wrSent := by
  obtain ⟨v, hv, hexec⟩ := execDmaSlotAccess_write hex hacc hmay hcause hres
  obtain ⟨m, hch⟩ := hv.ch
  refine ⟨_, hexec, ?_⟩
  have hfirst : sp = 0 ∧ (true && decide (n < 64) && !(s.dmaCh (chIx ch)).rmw) = true := by
    refine ⟨hsp, ?_⟩
    simp [hn, show (s.dmaCh (chIx ch)).rmw = false from hr]
  rw [if_pos hfirst]
  refine ⟨?_, ?_, ?_⟩
  · rw [Chg.modDma.ext_eq, hv.chg.ext_eq]
  · rw [State.modDma_same]
  · rw [State.modDma_same, hch]

theorem execDmaSlotAccess_storesHost (hsp : sp = 1) (hmem : memWf s.hostMem = true) :
    Yields (.dmaSlotAccess ch ⟨true, res⟩) s fun u =>
      Stored s.hostMem u.hostMem a (s.swapped (chIx ch) (s.dmaCh (chIx ch)).wrSent n) ∧ u.ext = s.ext ∧ u.tiles = s.tiles := by
  have hix : chIx ch < 2 ^ 32 := chIx_lt hex
  obtain ⟨v, hv, hexec⟩ := execDmaSlotAccess_write hex hacc hmay hcause hres
  obtain ⟨m, hch⟩ := hv.ch
  refine ⟨_, hexec, ?_⟩
  subst hsp
  obtain ⟨hhost, hext, htiles⟩ := v.dmaWrite_host (chIx ch) a n
  rw [if_neg (fun h => absurd h.1 (by decide))]
  refine ⟨?_, ?_, ?_⟩
  · rw [hhost, hv.chg.hostMem_eq, hv.swapped hix, hch]
    exact stored_wrBytes _ _ hmem
  · rw [hext, hv.chg.ext_eq]
  · rw [htiles, hv.chg.tiles_eq]

theorem execDmaSlotAccess_writesTile (hsp : sp = 2) :
    Yields (.dmaSlotAccess ch ⟨true, res⟩) s fun u =>
      (u.dmaCh (chIx ch)).wrSent = (s.dmaCh (chIx ch)).wrSent + n ∧ ∃ p, u.mpkts = s.mpkts ++ [p] ∧ p.kind = .dma ∧ p.write = true ∧
        p.data = s.swapped (chIx ch) (s.dmaCh (chIx ch)).wrSent n ∧ p.src = spTile a ∧ p.handle = spHandle a ∧ p.off = spOff a ∧ p.chan = chIx ch := by
  have hix : chIx ch < 2 ^ 32 := chIx_lt hex
  obtain ⟨v, hv, hexec⟩ := execDmaSlotAccess_write hex hacc hmay hcause hres
  obtain ⟨m, hch⟩ := hv.ch
  refine ⟨_, hexec, ?_⟩
  subst hsp
  obtain ⟨hsent, p, hp, ⟨hk, hw, hs, hh, ho, hc⟩, hdata⟩ := v.dmaWrite_sends (chIx ch) a n
  rw [if_neg (fun h => absurd h.1 (by decide))]
  refine ⟨?_, p, ?_, hk, hw, ?_, hs, hh, ho, hc⟩
  · rw [hsent, hch]
  · rw [hp, hv.chg.mpkts_eq]
  · rw [hdata, hv.swapped hix, hch]

end Write
end Slot

/-! ### An access that fails on its way (R283, R320) -/

section Fails
variable {s : State} {ch : Chan} {w : Bool} {sp a n : Nat}

theorem DmaChan.Failed.parts {C : DmaChan} {cause addr : Nat} {write : Bool} (h : C.Failed cause addr write) :
    C.drain = .fail ∧ C.failCause = cause ∧ C.failAddr = addr ∧ C.failWrite = write := ⟨h.drain, h.failCause, h.failAddr, h.failWrite⟩

theorem execDmaAccessFail_eq (hacc : s.dmaNextAcc (chIx ch) w = some (sp, a, n)) (hf : (s.dmaCh (chIx ch)).fetch = false)
    (hdr : (s.dmaCh (chIx ch)).drain ≠ .fail) {addr : BitVec 64} (hlo : a ≤ addr.toNat) (hhi : addr.toNat < a + n) :
    let failed (cause : Nat) (u : State) : Prop := (u.dmaCh (chIx ch)).Failed cause addr.toNat w
    (sp = 1 → Yields (.dmaAccessFail ch w addr .pcie) s (failed 1)) ∧
    (sp = 0 → a < s.gddrSize → Yields (.dmaAccessFail ch w addr .granule) s (failed 4)) ∧
    (∀ p, sp = 0 → annexPortOf a = some p →
      (w = false ∨ (n < 64 ∧ (s.dmaCh (chIx ch)).rmw = false) → Yields (.dmaAccessFail ch w addr .poisoned) s (failed 5)) ∧
      Yields (.dmaAccessFail ch w addr .timeout) s (failed 5)) := by
  intro failed
  have hin : ¬(addr.toNat < a ∨ a + n ≤ addr.toNat) := by omega
  have hfail := State.dmaFailAcc_eq hacc hf
  have hfails (u : State) (hu : u.dmaCh (chIx ch) = s.dmaCh (chIx ch)) (c pos : Nat) : failed c (u.dmaFail (chIx ch) w sp addr.toNat c pos) :=
    State.dmaFail_failed (by rw [hu]; exact hdr) ..
  refine ⟨fun hsp => ?_, fun hsp ha => ?_, fun p hsp hp => ⟨fun hr => ?_, ?_⟩⟩
  · refine ⟨_, ?_, hfails s rfl 1 (if w then (s.dmaCh (chIx ch)).wrSent else (s.dmaCh (chIx ch)).rdSent)⟩
    change execDmaAccessFail ch w addr .pcie s = _
    simp only [execDmaAccessFail, show s.dmaFailAcc (chIx ch) w = _ from hfail]
    rw [if_neg hin, if_pos hsp]
  · have hrec : (s.granRecord w (addr.toNat / 64 * 64) .lost).dmaCh (chIx ch) = s.dmaCh (chIx ch) := State.granRecord_chg.dmaCh_eq (chIx ch)
    refine ⟨_, ?_, State.dmaLost_failed (by rw [hrec]; exact hdr) (by rw [hrec]; exact hf) w a n addr.toNat⟩
    change execDmaAccessFail ch w addr .granule s = _
    simp only [execDmaAccessFail, show s.dmaFailAcc (chIx ch) w = _ from hfail]
    rw [if_neg hin, if_pos ⟨hsp, ha⟩]
  · refine ⟨_, ?_, hfails (s.annexPoison p (addr.toNat / 64 * 64)) (State.annexPoison_chg.dmaCh_eq (chIx ch)) 5 (if w then ((s.annexPoison p (addr.toNat / 64 * 64)).dmaCh (chIx ch)).wrSent
      else ((s.annexPoison p (addr.toNat / 64 * 64)).dmaCh (chIx ch)).rdSent)⟩
    have hreads : (!w || (decide (n < 64) && !(s.dmaCh (chIx ch)).rmw)) = true := by
      rcases hr with rfl | ⟨hn, hrmw⟩
      · rfl
      · simp [hn, show (s.dmaCh (chIx ch)).rmw = false from hrmw]
    change execDmaAccessFail ch w addr .poisoned s = _
    simp only [execDmaAccessFail, show s.dmaFailAcc (chIx ch) w = _ from hfail]
    rw [if_neg hin, hreads, hsp, hp]
    rfl
  · refine ⟨_, ?_, hfails (s.annexLate p addr.toNat) (State.annexLate_chg.dmaCh_eq (chIx ch)) 5 (if w then ((s.annexLate p addr.toNat).dmaCh (chIx ch)).wrSent
      else ((s.annexLate p addr.toNat).dmaCh (chIx ch)).rdSent)⟩
    change execDmaAccessFail ch w addr .timeout s = _
    simp only [execDmaAccessFail, show s.dmaFailAcc (chIx ch) w = _ from hfail]
    rw [if_neg hin, hsp, hp]
    rfl

end Fails

/-- Settles O26: what a slot's access finds is what the state held (`State.SlotMade`), and each access is one of the operations above. -/
theorem dmaAccesses : Obligations.DmaAccesses := by
  intro s ch hex ix C
  refine ⟨fun sp a n res hacc hmay hcause hres => ?_, fun sp a n res hacc hmay hcause hres => ?_, fun w sp a n hacc hf hdr => ?_⟩
  · exact ⟨execDmaSlotAccess_reads hex hacc hmay hcause hres, execDmaSlotAccess_readsTile hex hacc hmay hcause hres,
      execDmaSlotAccess_chains hex hacc hmay hcause hres⟩
  · exact ⟨execDmaSlotAccess_stores hex hacc hmay hcause hres, execDmaSlotAccess_first hex hacc hmay hcause hres,
      execDmaSlotAccess_storesHost hex hacc hmay hcause hres, execDmaSlotAccess_writesTile hex hacc hmay hcause hres⟩
  · intro failed
    have hyields {i : Instr} {cause addr : Nat} (h : Yields i s fun u => (u.dmaCh ix).Failed cause addr w) : Yields i s (failed cause addr) :=
      h.imp fun _ h => ⟨h.1, h.2.parts⟩
    refine ⟨fun hmay hcause res => hyields (dmaSlotAccess_fails hacc hmay hf hdr hcause), fun hsp ha hmay hcause => ?_, fun addr hlo hhi => ?_⟩
    · subst hsp
      exact hyields (dmaSlotAccess_lost hacc hmay hf hdr hcause ha)
    · obtain ⟨h1, h2, h3⟩ := execDmaAccessFail_eq hacc hf hdr hlo hhi
      exact ⟨fun hsp => hyields (h1 hsp), fun hsp ha => hyields (h2 hsp ha),
        fun p hsp hp => ⟨fun hr => hyields ((h3 p hsp hp).1 hr), hyields (h3 p hsp hp).2⟩⟩

end Sys2Proof.Machine
end

section
/-!
DMA packets and bank gates (R311, R322, R579).
-/
namespace Sys2Proof.Machine
set_option Elab.async false

/-! ## DMA packets and gates (R311, R322, R579) -/

/-- The mask of the bits below `n` for which `c` holds. -/
theorem testBit_maskFold (c : Nat → Bool) (n : Nat) :
    (List.range n).foldl (fun m b => if c b then m + 2 ^ b else m) 0 < 2 ^ n ∧
    ∀ b, ((List.range n).foldl (fun m b => if c b then m + 2 ^ b else m) 0).testBit b = (decide (b < n) && c b) := by
  induction n with
  | zero => exact ⟨Nat.one_pos, fun b => by simp⟩
  | succ n ih =>
    obtain ⟨hlt, hbits⟩ := ih
    rw [List.range_succ, List.foldl_append, List.foldl_cons, List.foldl_nil]
    generalize (List.range n).foldl (fun m b => if c b then m + 2 ^ b else m) 0 = m at hlt hbits
    refine ⟨by split_ifs <;> rw [pow_succ] <;> omega, fun b => ?_⟩
    rcases Nat.lt_trichotomy b n with hb | rfl | hb
    · have hb' : b < n + 1 := by omega
      split_ifs
      · rw [Nat.add_comm, Nat.testBit_two_pow_add_gt hb, hbits]
        simp [hb, hb']
      · rw [hbits]
        simp [hb, hb']
    · split_ifs with hc
      · rw [Nat.add_comm, Nat.testBit_two_pow_add_eq, hbits]
        simp [hc]
      · rw [hbits]
        simp [hc]
    · have hb' : ¬ b < n + 1 := by omega
      have hn : ¬ b < n := by omega
      have hpow : 2 ^ (n + 1) ≤ 2 ^ b := Nat.pow_le_pow_right (by decide) (by omega)
      split_ifs
      · rw [Nat.testBit_lt_two_pow]
        · simp [hb']
        · rw [pow_succ] at hpow
          omega
      · rw [hbits]
        simp [hb', hn]

/-- Settles O27: the packet's hop is the move of one packet, and a gate's request falls away with its bank's last write. -/
theorem dmaPacketsAndGates : Obligations.DmaPacketsAndGates := by
  intro s
  refine ⟨fun id p z hp hk hheld hat hz hhops => ?_, fun t => ⟨_, rfl, ?_⟩⟩
  · obtain rfl := State.pkt_id hp
    refine ⟨(((s.hopPkt p (nextDir p.at_ p.dst) z).settleQueue p.at_ (nextDir p.at_ p.dst)).occAdd 1 (portUnit p.at_ (nextDir p.at_ p.dst)) 1),
      ?_, ?_, ?_⟩
    · change execDmaPacketHop p.id s = _
      have hnot : ¬(p.kind ≠ .dma ∨ s.held = true) := by simp [hk, hheld]
      simp only [execDmaPacketHop, hp]
      rw [if_neg hnot, if_neg hat, hz]
      dsimp only
      rw [if_pos hhops]
    · rw [State.occAdd_chg.tiles_eq, State.settleQueue_chg.tiles_eq]
      rfl
    · rw [State.occAdd_chg.mpkts_eq]
      rfl
  · dsimp only
    generalize hv : State.modTile s (tIx t) _ = v
    have hvc : Chg { tiles := true } s v := by
      rw [← hv]
      exact .onModTile .refl TChg.plain
    have hvt : (∀ b < 32, (v.tile (tIx t)).gateReq.getLsbD b =
        ((s.tile (tIx t)).gateReq.getLsbD b && decide (mget s.bankOut (32 * tIx t + b) 0 ≠ 0))) ∧
        (v.tile (tIx t)).scratch = (s.tile (tIx t)).scratch := by
      rw [← hv, State.modTile_same]
      refine ⟨fun b hb => ?_, rfl⟩
      obtain ⟨hlt, hbits⟩ := testBit_maskFold (fun b => (s.tile (tIx t)).gateReq.getLsbD b && !(mget s.bankOut (32 * tIx t + b) 0 == 0)) 32
      rw [BitVec.getLsbD_ofNat, hbits]
      by_cases h0 : mget s.bankOut (32 * tIx t + b) 0 = 0 <;> simp [hb, h0]
    have hgal : v.gal (galOf t) = s.gal (galOf t) := hvc.gal_eq ..
    have hdone (u : State) (hu : ∀ y, u.tile y = v.tile y)
        (hg : (s.gal (galOf t)).gatePend = true → (∀ k < 16, ∀ b < 32, mget s.bankOut (32 * tIx (tileAt (galOf t) k) + b) 0 = 0) →
          (u.gal (galOf t)).awake = false ∧ (u.gal (galOf t)).gatePend = false ∧ u.fld F.galGate_awake (galOf t) = 0) :
        (∀ b < 32, (u.tile (tIx t)).gateReq.getLsbD b =
          ((s.tile (tIx t)).gateReq.getLsbD b && decide (mget s.bankOut (32 * tIx t + b) 0 ≠ 0))) ∧
        ((s.gal (galOf t)).gatePend = true → (∀ k < 16, ∀ b < 32, mget s.bankOut (32 * tIx (tileAt (galOf t) k) + b) 0 = 0) →
          (u.gal (galOf t)).awake = false ∧ (u.gal (galOf t)).gatePend = false ∧ u.fld F.galGate_awake (galOf t) = 0) ∧
        (u.tile (tIx t)).scratch = (s.tile (tIx t)).scratch := by
      rw [hu]
      exact ⟨hvt.1, hg, hvt.2⟩
    split_ifs with hc
    · refine hdone _ (fun y => ?_) fun _ _ => ⟨?_, ?_, ?_⟩
      · rw [Chg.setFld.tile_eq, Chg.modGal.tile_eq]
      · rw [Chg.setFld.gal_eq, State.modGal_same]
      · rw [Chg.setFld.gal_eq, State.modGal_same]
      · exact State.fld_setFld_eq _ (by decide) (by decide)
    · refine hdone v (fun _ => rfl) fun hp hb => absurd ?_ hc
      rw [hgal, hp, Bool.true_and, List.all_eq_true]
      intro k hk
      rw [List.all_eq_true]
      intro b hb'
      rw [hb k (List.mem_range.mp hk) b (List.mem_range.mp hb')]
      rfl

end Sys2Proof.Machine
end

section
/-!
The end of a load that breaks a pair (R340).
-/
namespace Sys2Proof.Machine
set_option Elab.async false

/-! ## The end of a load whose ports break a pair (R340, R541) -/

/-- Completions that wait stay in front of those that answering adds. -/
theorem State.cpls_complete (s : State) (c : Cmd) (opcode status result : Nat) (rep : Option (Word × Word)) (k : Nat) :
    ∃ l, ((s.complete c opcode status result rep).func k).cpls = (s.func k).cpls ++ l := by
  have hset : (if opcode = 0x0001 then s.setFld F.hstHistate_last_status 0 status else s).func k = s.func k := by
    split_ifs
    · exact Chg.setFld.func_eq k
    · rfl
  simp only [State.complete]
  generalize (if opcode = 0x0001 then s.setFld F.hstHistate_last_status 0 status else s) = v at hset ⊢
  split_ifs
  · exact ⟨[], by rw [hset, List.append_nil]⟩
  · by_cases h : k = c.fn
    · subst h
      rw [State.modFunc_same, hset]
      exact ⟨_, rfl⟩
    · rw [State.modFunc_ne _ _ _ h, hset]
      exact ⟨[], by rw [List.append_nil]⟩

theorem State.cpls_popCmd (s : State) (c : Cmd) (k : Nat) : ((s.popCmd c).func k).cpls = (s.func k).cpls := by
  unfold State.popCmd
  by_cases h : k = c.fn
  · subst h
    rw [State.modFunc_same]
  · rw [State.modFunc_ne _ _ _ h]

theorem State.cpls_answerBad (fn k n : Nat) (s : State) : ∃ l, ((s.answerBad fn n).func k).cpls = (s.func k).cpls ++ l := by
  induction n generalizing s with
  | zero => exact ⟨[], by rw [State.answerBad, List.append_nil]⟩
  | succ n ih =>
    have hsame : ∃ l, (s.func k).cpls = (s.func k).cpls ++ l := ⟨[], by rw [List.append_nil]⟩
    unfold State.answerBad
    split
    · exact hsame
    · next t ts _ =>
      split
      · next st _ =>
        split_ifs
        · obtain ⟨l, hl⟩ := ih ((s.popCmd (t.cmd fn)).complete (t.cmd fn) t.opcode st)
          obtain ⟨l', hl'⟩ := (s.popCmd (t.cmd fn)).cpls_complete (t.cmd fn) t.opcode st 0 none k
          exact ⟨l' ++ l, by rw [hl, hl', State.cpls_popCmd, List.append_assoc]⟩
        · exact hsame
      · exact hsame

theorem State.cpls_answerAll (s : State) (fn k : Nat) : ∃ l, ((s.answerAll fn).func k).cpls = (s.func k).cpls ++ l := by
  have hfold (fs : List Nat) (u : State) :
      ∃ l, ((fs.foldl (fun s g => s.answerBad g (s.func g).taken.length) u).func k).cpls = (u.func k).cpls ++ l := by
    induction fs generalizing u with
    | nil => exact ⟨[], by rw [List.foldl_nil, List.append_nil]⟩
    | cons g fs ih =>
      obtain ⟨l, hl⟩ := ih (u.answerBad g (u.func g).taken.length)
      obtain ⟨l', hl'⟩ := State.cpls_answerBad g k (u.func g).taken.length u
      exact ⟨l' ++ l, by rw [List.foldl_cons, hl, hl', List.append_assoc]⟩
  exact hfold _ s

/-- A load whose tables are all in, of an image that takes port 1 out of the pair while port 0 has lost its link and three heartbeats have
been missed; function 0 waits for a FENCE_OUT. -/
def pairCut : State :=
  let s := (((State.reset.setFld F.mirState_state 0 4).setFld F.mirState_missed 0 3).setFld F.lnkCtl_role 0 2).setFld F.lnkStat_state 0 1
  { s with loading := some ⟨⟨0, 1, false, 0⟩, [], false, true, [(2, 0), (1, 0)]⟩
           wts := { s.wts with fenceCmd := [(0, ⟨0, 2, false, 0⟩)] } }

/-- What the end of that load leaves for function 0, by status. -/
def pairCutStatuses : List Nat :=
  match exec (.loadImage ⟨0, 1, false, 0⟩ 0 0 false) pairCut with
  | .next u => (u.func 0).cpls.map fun c : Cpl => c.status
  | _ => []

/-- Refutes O28: the end of a load can break the pair, and a FENCE_OUT that waited is then completed with 0x0087 before LOAD_IMAGE is, so that
the load's completion does not stand right behind those that waited. -/
theorem not_imagesAndPlans : ¬ Obligations.ImagesAndPlans := by
  rintro ⟨h, -⟩
  obtain ⟨-, -, hdone⟩ := h pairCut ⟨0, 1, false, 0⟩ 0 0 false
  obtain ⟨u, hexec, -, -, -, hcpl⟩ := hdone _ rfl rfl rfl rfl
  have hwaits : (u.func 0).cpls = (pairCut.func 0).cpls ++ [⟨0, 1, 0x0001, 0, false, 0, none⟩] := hcpl (by decide +kernel)
  have hnone : (pairCut.func 0).cpls = [] := by decide +kernel
  obtain ⟨l, hl⟩ := u.cpls_answerAll 0 0
  have hstatus : pairCutStatuses = [0x87, 0] := by decide +kernel
  rw [pairCutStatuses, hexec] at hstatus
  change ((u.answerAll 0).func 0).cpls.map _ = _ at hstatus
  rw [hl, hwaits, hnone] at hstatus
  simp at hstatus

end Sys2Proof.Machine
end

section
/-!
The host's rings (R333 to R355).
-/
namespace Sys2Proof.Machine
set_option Elab.async false

/-! ## What answering leaves (R337, R345) -/

/-- A function's rings after answers: entries taken, and completions that wait behind those that did. -/
structure Func.Answered (F G : Func) : Prop where
  same : G = { F with taken := G.taken, waits := G.waits, cpls := G.cpls }
  cpls : F.cpls <+: G.cpls

theorem Func.Answered.refl (F : Func) : F.Answered F := ⟨rfl, List.prefix_refl _⟩

theorem Func.Answered.trans {F G H : Func} (h : F.Answered G) (k : G.Answered H) : F.Answered H := by
  refine ⟨?_, h.cpls.trans k.cpls⟩
  have hk := k.same
  rw [h.same] at hk
  exact hk

/-- No answer is due to a function's oldest entry. -/
def State.noAnswer (s : State) (k : Nat) : Prop := s.ringStopped k = true ∨ ∀ t ts, (s.func k).taken = t :: ts → s.badStatus k t = none

/-- What answers leave: the rings of each function as above, those to whom none is due and those below `fn` as they were. -/
structure State.Answered (s u : State) (fn : Nat) : Prop where
  regs : RegsKept [.hstHistate] s u
  boot : u.boot = s.boot
  kept : ∀ k, (s.func k).Answered (u.func k)
  low : ∀ k < fn, u.func k = s.func k
  quiet : ∀ k, s.noAnswer k → u.func k = s.func k

theorem State.Answered.refl (s : State) (fn : Nat) : s.Answered s fn :=
  ⟨.refl, rfl, fun _ => .refl _, fun _ _ => rfl, fun _ _ => rfl⟩

theorem State.ringStopped_kept {s u : State} {K : List RegKind} (h : RegsKept K s u) {k : Nat} (hk : k < 2 ^ 32)
    (hK : ∀ q ∈ K, RegKind.hstRingstat.code ≠ q.code) : u.ringStopped k = s.ringStopped k := by
  rw [State.ringStopped, h.fld _ _ hk hK, State.ringStopped]

theorem State.badStatus_boot {s u : State} (h : u.boot = s.boot) (k : Nat) (t : Taken) : u.badStatus k t = s.badStatus k t := by
  simp only [State.badStatus, h]

theorem State.answer_kept (s : State) (c : Cmd) (opcode status : Nat) :
    RegsKept [.hstHistate] s ((s.popCmd c).complete c opcode status) ∧ ((s.popCmd c).complete c opcode status).boot = s.boot ∧
    (s.func c.fn).Answered (((s.popCmd c).complete c opcode status).func c.fn) ∧
    ∀ k, k ≠ c.fn → ((s.popCmd c).complete c opcode status).func k = s.func k := by
  have hpop : Chg { fns := true } s (s.popCmd c) := State.popCmd_chg
  have hpopf : (s.popCmd c).func c.fn = { s.func c.fn with taken := (s.func c.fn).taken.tail, waits := false } := by
    rw [State.popCmd, State.modFunc_same]
  have hset : RegsKept [.hstHistate] s (if opcode = 0x0001 then (s.popCmd c).setFld F.hstHistate_last_status 0 status else s.popCmd c) :=
    .ite ((RegsKept.of_chg hpop).trans (.setFld (by decide) (by decide))) (.of_chg hpop)
  have hfunc (k : Nat) : (if opcode = 0x0001 then (s.popCmd c).setFld F.hstHistate_last_status 0 status else s.popCmd c).func k =
      (s.popCmd c).func k := by
    split_ifs
    · exact Chg.setFld.func_eq k
    · rfl
  refine ⟨?_, ?_, ?_, fun k hk => ?_⟩
  · simp only [State.complete]
    generalize (if opcode = 0x0001 then _ else _ : State) = v at hset
    exact .ite hset (hset.trans (.of_chg .modFunc))
  · rw [State.complete_chg.boot_eq, hpop.boot_eq]
  · obtain ⟨l, hl⟩ := (s.popCmd c).cpls_complete c opcode status 0 none c.fn
    refine ⟨?_, ?_⟩
    · simp only [State.complete]
      generalize (if opcode = 0x0001 then _ else _ : State) = v at hfunc
      split_ifs
      · rw [hfunc, hpopf]
      · rw [State.modFunc_same, hfunc, hpopf]
    · rw [hl, State.cpls_popCmd]
      exact List.prefix_append ..
  · simp only [State.complete]
    generalize (if opcode = 0x0001 then _ else _ : State) = v at hfunc
    have hpk : (s.popCmd c).func k = s.func k := State.modFunc_ne _ _ _ hk
    split_ifs
    · rw [hfunc, hpk]
    · rw [State.modFunc_ne _ _ _ hk, hfunc, hpk]

theorem State.answerBad_kept (g n : Nat) (s : State) (hg : g < 2 ^ 32) :
    RegsKept [.hstHistate] s (s.answerBad g n) ∧ (s.answerBad g n).boot = s.boot ∧ (s.func g).Answered ((s.answerBad g n).func g) ∧
    (∀ k, k ≠ g → (s.answerBad g n).func k = s.func k) ∧ (s.noAnswer g → s.answerBad g n = s) := by
  induction n generalizing s with
  | zero => exact ⟨.refl, rfl, .refl _, fun _ _ => rfl, fun _ => rfl⟩
  | succ n ih =>
    have hsame : RegsKept [.hstHistate] s s ∧ s.boot = s.boot ∧ (s.func g).Answered (s.func g) ∧
        (∀ k, k ≠ g → s.func k = s.func k) ∧ (s.noAnswer g → s = s) := ⟨.refl, rfl, .refl _, fun _ _ => rfl, fun _ => rfl⟩
    unfold State.answerBad
    split
    · exact hsame
    · next t ts ht =>
      split
      · next st hst =>
        by_cases hgo : (s.ringsFree g && !s.lowerFirst g t.scan) = true
        · rw [if_pos hgo]
          obtain ⟨hr, hb, ha, ho⟩ := s.answer_kept (t.cmd g) t.opcode st
          obtain ⟨ihr, ihb, iha, iho, -⟩ := ih ((s.popCmd (t.cmd g)).complete (t.cmd g) t.opcode st)
          refine ⟨hr.trans ihr, ihb.trans hb, ha.trans iha, fun k hk => (iho k hk).trans (ho k hk), fun hno => ?_⟩
          simp only [State.ringsFree, Bool.and_eq_true, Bool.not_eq_true'] at hgo
          rcases hno with hstop | hno
          · exact absurd (hstop.symm.trans hgo.1.1.1.1.2) (by decide)
          · exact absurd (hst.symm.trans (hno t ts ht)) (by simp)
        · rw [if_neg hgo]
          exact hsame
      · exact hsame

theorem State.answerAll_answered (s : State) (fn : Nat) : s.Answered (s.answerAll fn) fn := by
  have hfold (gs : List Nat) (hgs : ∀ g ∈ gs, fn ≤ g ∧ g < 2 ^ 32) (u : State) (h : s.Answered u fn) :
      s.Answered (gs.foldl (fun s g => s.answerBad g (s.func g).taken.length) u) fn := by
    induction gs generalizing u with
    | nil => exact h
    | cons g gs ih =>
      rw [List.forall_mem_cons] at hgs
      rw [List.foldl_cons]
      refine ih hgs.2 _ ?_
      obtain ⟨hr, hb, ha, ho, hq⟩ := State.answerBad_kept g (u.func g).taken.length u hgs.1.2
      refine ⟨h.regs.trans hr, hb.trans h.boot, fun k => ?_, fun k hk => ?_, fun k hk => ?_⟩
      · by_cases e : k = g
        · subst e
          exact (h.kept k).trans ha
        · rw [ho k e]
          exact h.kept k
      · rw [ho k (by omega), h.low k hk]
      · by_cases e : k = g
        · subst e
          have hno : u.noAnswer k := by
            rcases hk with hstop | hno
            · exact .inl ((State.ringStopped_kept h.regs hgs.1.2 (by decide)).trans hstop)
            · refine .inr fun t ts ht => ?_
              rw [State.badStatus_boot h.boot]
              exact hno t ts (by rw [← h.quiet k (.inr hno)]; exact ht)
          rw [hq hno, h.quiet k hk]
        · rw [ho k e, h.quiet k hk]
  refine hfold _ (fun g hg => ?_) s (.refl s fn)
  simp only [List.mem_filter, List.mem_range, decide_eq_true_eq] at hg
  omega

/-! ## Rings in the host's memory (R334 to R349) -/

theorem rdBytes_stored {m m' : List Host.Cell} {a : Nat} {bs : List Byte} (h : Stored m m' a bs) : rdBytes m' a bs.length = bs := by
  refine List.ext_getElem (rdBytes_length ..) fun i h1 h2 => ?_
  have hin : a ≤ a + i ∧ a + i < a + bs.length := by omega
  simp only [rdBytes, List.getElem_map, List.getElem_range]
  rw [h (a + i), if_pos hin, Nat.add_sub_cancel_left, List.getD_eq_getElem _ _ h2]

theorem rdBytes_apart {m m' : List Host.Cell} {a : Nat} {bs : List Byte} (h : Stored m m' a bs) {b n : Nat}
    (hb : b + n ≤ a ∨ a + bs.length ≤ b) : rdBytes m' b n = rdBytes m b n := by
  refine List.map_congr_left fun i hi => ?_
  rw [List.mem_range] at hi
  have hout : ¬(a ≤ b + i ∧ b + i < a + bs.length) := by omega
  rw [h (b + i), if_neg hout]

/-- A condition asked leaves the rest of a function's rings. -/
theorem State.irqCause_func (s : State) (f v k : Nat) :
    (s.irqCause f v).func k = if k = f then { s.func k with irqPend := (s.func k).irqPend ||| BitVec.ofNat 8 (2 ^ v) } else s.func k := by
  unfold State.irqCause
  split_ifs with h
  · subst h
    rw [State.modFunc_same]
  · exact State.modFunc_ne _ _ _ h

theorem getLsbD_cause (w : BitVec 8) {v : Nat} (h : v < 8) : (w ||| BitVec.ofNat 8 (2 ^ v)).getLsbD v = true := by
  rw [BitVec.getLsbD_or, BitVec.getLsbD_ofNat, Nat.testBit_two_pow_self]
  simp [h]

/-- A function's rings that a failed access stops (R351). -/
theorem State.stopRings_fields {s : State} {fn : Nat} (hfn : fn < 2 ^ 32) (addr : Nat) (h : s.ringStopped fn = false) :
    let u := s.stopRings fn addr
    u.fld F.hstRingstat_state fn = 2 ∧ u.fld F.hstRingstat_failaddr fn = addr / 256 % 2 ^ 56 ∧
    (∃ p, u.func fn = { s.func fn with cpls := [], evs := [], lostNote := (s.func fn).lostNote + (s.func fn).evs.length, irqPend := p }) ∧
    (u.func 0).irqPend.getLsbD 2 = true ∧
    u.fld F.hstEvstat_lost fn = min (s.fld F.hstEvstat_lost fn + (s.func fn).evs.length) (2 ^ 32 - 1) := by
  intro u
  have hnot : ¬s.ringStopped fn = true := by simp [h]
  -- The state before entries are answered.
  generalize hw : ((((s.setFld F.hstRingstat_state fn 2).setFld F.hstRingstat_failaddr fn (addr / 256)).modFunc fn fun f =>
    { f with cpls := [], evs := [] }).loseEvents fn (s.func fn).evs.length).irqCause 0 2 = w
  have hu : u = w.answerAll fn := by
    simp only [u, State.stopRings]
    rw [if_neg hnot, Chg.setFld.func_eq, Chg.setFld.func_eq, hw]
  have hans := w.answerAll_answered fn
  have hreg (g : Fld) (hg : g.kind.code ≠ RegKind.hstEvstat.code) :
      w.fld g fn = ((s.setFld F.hstRingstat_state fn 2).setFld F.hstRingstat_failaddr fn (addr / 256)).fld g fn := by
    rw [← hw, State.irqCause_chg.fld_eq, State.loseEvents, State.fld_satAdd_kind _ hfn hfn hg, Chg.modFunc.fld_eq, Chg.modFunc.fld_eq]
  have hstate : w.fld F.hstRingstat_state fn = 2 := by
    rw [hreg _ (by decide), State.fld_setFld_bits _ (by decide), State.fld_setFld_eq _ (by decide) (by decide)]
  have hstop : w.ringStopped fn = true := by
    rw [State.ringStopped, hstate]
    rfl
  have hlose : ((((s.setFld F.hstRingstat_state fn 2).setFld F.hstRingstat_failaddr fn (addr / 256)).modFunc fn fun f =>
      { f with cpls := [], evs := [] }).loseEvents fn (s.func fn).evs.length).func fn =
      { s.func fn with cpls := [], evs := [], lostNote := (s.func fn).lostNote + (s.func fn).evs.length } := by
    rw [State.loseEvents, State.satAdd, Chg.setFld.func_eq, State.modFunc_same, State.modFunc_same, Chg.setFld.func_eq, Chg.setFld.func_eq]
  refine ⟨?_, ?_, ?_, ?_, ?_⟩
  · rw [hu, hans.regs.fld _ _ hfn (by decide), hstate]
  · rw [hu, hans.regs.fld _ _ hfn (by decide), hreg _ (by decide)]
    exact State.fld_setFld_same _ _ _ _ (by decide) (by decide)
  · rw [hu, hans.quiet fn (.inl hstop), ← hw, State.irqCause_func, hlose]
    split_ifs
    · exact ⟨_, rfl⟩
    · exact ⟨_, rfl⟩
  · have hw0 : (w.func 0).irqPend.getLsbD 2 = true := by
      rw [← hw, State.irqCause_func, if_pos rfl]
      exact getLsbD_cause _ (by decide)
    have hsame : (u.func 0).irqPend = (w.func 0).irqPend := by
      rw [hu, (hans.kept 0).same]
    rw [hsame, hw0]
  · rw [hu, hans.regs.fld _ _ hfn (by decide), ← hw, State.irqCause_chg.fld_eq, State.loseEvents, State.satAdd]
    rw [State.fld_setFld_eq _ (by decide) (by
      have hwd : 2 ^ F.hstEvstat_lost.width = 4294967296 := by decide
      omega)]
    rw [Chg.modFunc.fld_eq, Chg.modFunc.fld_eq, State.fld_setFld_code _ (by decide), State.fld_setFld_code _ (by decide)]
    rfl

/-- What a function may reach rests on the registers alone. -/
theorem State.fwPass_chg {P : Foot} {s u : State} (h : Chg P s u) (hr : P.regs = false := by rfl) (hi : P.img = false := by rfl)
    (hf : P.fuses = false := by rfl) : u.fwPass = s.fwPass ∧ u.sbAddr = s.sbAddr := by
  have hreg (k : RegKind) (i : Nat) : u.reg k i = s.reg k i := h.reg_eq k i hr hi hf
  refine ⟨?_, ?_⟩
  · have hallows : u.fwAllows = s.fwAllows := by
      funext fn wr a n
      unfold State.fwAllows State.fld
      simp only [hreg]
    funext fn wr a n
    unfold State.fwPass
    rw [hallows]
  · funext fn
    simp only [State.sbAddr, State.fld, hreg]

theorem State.hostPut_pass {s : State} {fn a : Nat} {bs : List Byte} {f : State → State} (h : s.fwPass fn true a bs.length = true) :
    s.hostPut fn a bs f = f { s with hostMem := wrBytes s.hostMem a bs } := by
  rw [State.hostPut, if_pos h]

/-- The indices a function's rings stand at, as they are put beside its doorbells. -/
def Func.indexBytes (f : Func) : List Byte := leBytes 4 f.cmdIdx ++ leBytes 4 f.cplIdx ++ leBytes 4 f.evIdx

theorem Func.indexBytes_length (f : Func) : f.indexBytes.length = 12 := by
  simp [Func.indexBytes]

theorem State.putIndices_pass {s : State} {fn : Nat} (h : s.fwPass fn true (s.sbAddr fn + 0x20) 12 = true) :
    s.putIndices fn = { s with hostMem := wrBytes s.hostMem (s.sbAddr fn + 0x20) (s.func fn).indexBytes } := by
  have hlen : (leBytes 4 (s.func fn).cmdIdx ++ leBytes 4 (s.func fn).cplIdx ++ leBytes 4 (s.func fn).evIdx).length = 12 := (s.func fn).indexBytes_length
  simp only [State.putIndices]
  rw [State.hostPut_pass (by rw [hlen]; exact h)]
  rfl

theorem evItems_length (l : List (Nat × Nat)) (at_ : Nat) (h : at_ ≤ 16) : (evItems l at_).length = 16 - at_ := by
  induction l generalizing at_ with
  | nil => simp [evItems]
  | cons q l ih =>
    obtain ⟨w, v⟩ := q
    simp only [evItems]
    split_ifs with hc
    · simp
    · obtain ⟨hw, hp⟩ := not_or.mp hc
      have hge : at_ ≤ (at_ + w - 1) / w * w := by
        have := Nat.lt_div_mul_add (a := at_ + w - 1) (Nat.pos_of_ne_zero hw)
        omega
      rw [List.length_append, List.length_append, List.length_replicate, leBytes_length, ih _ (by omega)]
      omega

theorem evBytes_length (e : Ev) (phase : Bool) : (evBytes e phase).length = 32 := by
  simp [evBytes, evItems_length]

theorem cplBytes_length (c : Cpl) (phase : Bool) : (cplBytes c phase).length = 32 := by
  unfold cplBytes
  cases c.report <;> simp

/-- Both writes of a ring's entry and of its function's indices leave the entry as written. -/
theorem rdBytes_entry {m : List Host.Cell} (hm : memWf m = true) {a b : Nat} {bs is : List Byte} (hbs : bs.length = 32) (his : is.length = 12)
    (h : a + 32 ≤ b ∨ b + 12 ≤ a) : rdBytes (wrBytes (wrBytes m a bs) b is) a 32 = bs := by
  have hst := stored_wrBytes b is (memWf_wrBytes a bs hm)
  rw [rdBytes_apart hst (by omega), ← hbs]
  exact rdBytes_stored (stored_wrBytes a bs hm)

theorem State.completionWrite_fields {s : State} {fn a : Nat} (hstop : s.ringStopped fn = false)
    (hpass : s.fwPass fn true (s.sbAddr fn + 0x20) 12 = true) (hmem : memWf s.hostMem = true) {c : Cpl} {rest : List Cpl}
    (hc : (s.func fn).cpls = c :: rest) (hfull : s.cplFull fn = false) (ha : s.fld F.hstCplring_base fn * 4096 + 32 * (s.func fn).cplIdx = a)
    (hring : s.fwPass fn true a 32 = true) (hapart : a + 32 ≤ s.sbAddr fn + 0x20 ∨ s.sbAddr fn + 0x2C ≤ a) :
    let u := s.writeCpl fn
    rdBytes u.hostMem a 32 = cplBytes c (s.func fn).cplPhase ∧ (rest <+: (u.func fn).cpls) ∧
    ((u.func fn).cplIdx, (u.func fn).cplPhase) = ringNext (ringLen (s.fld F.hstCplring_size fn)) (s.func fn).cplIdx (s.func fn).cplPhase ∧
    (c.irq = true → (u.func fn).irqPend.getLsbD 0 = true) := by
  intro u
  generalize hnx : ringNext (ringLen (s.fld F.hstCplring_size fn)) (s.func fn).cplIdx (s.func fn).cplPhase = nx
  -- The entry written, then the index moved and the interrupt asked for.
  generalize hv : (({ s with hostMem := wrBytes s.hostMem a (cplBytes c (s.func fn).cplPhase) } : State).modFunc fn fun f =>
    { f with cpls := rest, cplIdx := nx.1, cplPhase := nx.2 }) = v
  generalize hw : (if c.irq = true then v.irqCause fn 0 else v) = w
  have hgo : ¬(s.ringStopped fn || s.cplFull fn) = true := by simp [hstop, hfull]
  have hu : u = (w.putIndices fn).answerAll fn := by
    simp only [u, State.writeCpl, hc]
    rw [if_neg hgo, ha, hnx, State.hostPut_pass (by rw [cplBytes_length]; exact hring), ← hw, ← hv]
  have hvw : Chg { fns := true } v w := by
    rw [← hw]
    exact .ite State.irqCause_chg .refl
  have hsw : Chg { fns := true, hostMem := true } s w := by
    refine .via ?_ hvw
    rw [← hv]
    exact .via (.via .refl (.setHostMem (memWf_wrBytes _ _))) .modFunc
  have hwm : w.hostMem = wrBytes s.hostMem a (cplBytes c (s.func fn).cplPhase) := by
    rw [hvw.hostMem_eq, ← hv]
    exact Chg.modFunc.hostMem_eq
  have hvf : v.func fn = { s.func fn with cpls := rest, cplIdx := nx.1, cplPhase := nx.2 } := by
    rw [← hv, State.modFunc_same]
    rfl
  have hwf : (w.func fn).cpls = rest ∧ (w.func fn).cplIdx = nx.1 ∧ (w.func fn).cplPhase = nx.2 ∧
      (c.irq = true → (w.func fn).irqPend.getLsbD 0 = true) := by
    rw [← hw]
    split_ifs with hirq
    · rw [State.irqCause_func, if_pos rfl, hvf]
      exact ⟨rfl, rfl, rfl, fun _ => getLsbD_cause _ (by decide)⟩
    · rw [hvf]
      exact ⟨rfl, rfl, rfl, fun h => absurd h hirq⟩
  have hput : w.putIndices fn = { w with hostMem := wrBytes w.hostMem (s.sbAddr fn + 0x20) (w.func fn).indexBytes } := by
    have hws : w.fwPass = s.fwPass ∧ w.sbAddr = s.sbAddr := State.fwPass_chg hsw
    rw [State.putIndices_pass (by rw [hws.1, hws.2]; exact hpass), hws.2]
  have hans := (w.putIndices fn).answerAll_answered fn
  have hpf : (w.putIndices fn).func fn = w.func fn := by
    rw [hput]
    rfl
  obtain ⟨hcp, hix, hph, hirq⟩ := hwf
  have hk := hans.kept fn
  rw [hpf] at hk
  rw [hu]
  refine ⟨?_, ?_, ?_, fun h => ?_⟩
  · rw [State.answerAll_chg.hostMem_eq, hput]
    change rdBytes (wrBytes w.hostMem _ _) a 32 = _
    rw [hwm]
    exact rdBytes_entry hmem (cplBytes_length ..) (Func.indexBytes_length _) hapart
  · rw [← hcp]
    exact hk.cpls
  · rw [hk.same]
    exact Prod.ext hix hph
  · rw [hk.same]
    exact hirq h

theorem State.putEvent_fields {s : State} {fn a : Nat} (e : Ev) (hpass : s.fwPass fn true (s.sbAddr fn + 0x20) 12 = true)
    (hmem : memWf s.hostMem = true) (ha : s.fld F.hstEvring_base fn * 4096 + 32 * (s.func fn).evIdx = a)
    (hring : s.fwPass fn true a 32 = true) (hapart : a + 32 ≤ s.sbAddr fn + 0x20 ∨ s.sbAddr fn + 0x2C ≤ a) (f : Func → Func) :
    let u := s.putEvent fn e f
    rdBytes u.hostMem a 32 = evBytes e (s.func fn).evPhase ∧ (u.func fn).evs = (f (s.func fn)).evs ∧
    ((u.func fn).evIdx, (u.func fn).evPhase) = ringNext (ringLen (s.fld F.hstEvring_size fn)) (s.func fn).evIdx (s.func fn).evPhase := by
  intro u
  generalize hnx : ringNext (ringLen (s.fld F.hstEvring_size fn)) (s.func fn).evIdx (s.func fn).evPhase = nx
  generalize hv : (({ s with hostMem := wrBytes s.hostMem a (evBytes e (s.func fn).evPhase) } : State).modFunc fn fun g =>
    { f g with evIdx := nx.1, evPhase := nx.2 }) = v
  generalize hw : (if (s.func fn).evIdx == s.hostIdx fn 4 then v.irqCause fn 1 else v) = w
  have hu : u = w.putIndices fn := by
    simp only [u, State.putEvent]
    rw [ha, hnx, State.hostPut_pass (by rw [evBytes_length]; exact hring), ← hw, ← hv]
  have hvw : Chg { fns := true } v w := by
    rw [← hw]
    exact .ite State.irqCause_chg .refl
  have hsw : Chg { fns := true, hostMem := true } s w := by
    refine .via ?_ hvw
    rw [← hv]
    exact .via (.via .refl (.setHostMem (memWf_wrBytes _ _))) .modFunc
  have hwm : w.hostMem = wrBytes s.hostMem a (evBytes e (s.func fn).evPhase) := by
    rw [hvw.hostMem_eq, ← hv]
    exact Chg.modFunc.hostMem_eq
  have hvf : v.func fn = { f (s.func fn) with evIdx := nx.1, evPhase := nx.2 } := by
    rw [← hv, State.modFunc_same]
    rfl
  have hwf : (w.func fn).evs = (f (s.func fn)).evs ∧ (w.func fn).evIdx = nx.1 ∧ (w.func fn).evPhase = nx.2 := by
    rw [← hw]
    split_ifs
    · rw [State.irqCause_func, if_pos rfl, hvf]
      exact ⟨rfl, rfl, rfl⟩
    · rw [hvf]
      exact ⟨rfl, rfl, rfl⟩
  have hput : u = { w with hostMem := wrBytes w.hostMem (s.sbAddr fn + 0x20) (w.func fn).indexBytes } := by
    have hws : w.fwPass = s.fwPass ∧ w.sbAddr = s.sbAddr := State.fwPass_chg hsw
    rw [hu, State.putIndices_pass (by rw [hws.1, hws.2]; exact hpass), hws.2]
  have huf : u.func fn = w.func fn := by
    rw [hput]
    rfl
  rw [huf]
  refine ⟨?_, hwf.1, Prod.ext hwf.2.1 hwf.2.2⟩
  rw [hput]
  change rdBytes (wrBytes w.hostMem _ _) a 32 = _
  rw [hwm]
  exact rdBytes_entry hmem (evBytes_length ..) (Func.indexBytes_length _) hapart

/-- The oldest event that waits, of an enabled ring with none held and none lost (R347, R348). -/
theorem execEventWrite_evs {s : State} {fn : Nat} (hen : s.fld F.hstEvring_enable fn = 1) (hstop : s.ringStopped fn = false)
    (hheld : (s.func fn).held = []) (hlost : (s.func fn).lostNote = 0) {e : Ev} {rest : List Ev} (he : firstEv (s.func fn).evs = some (e, rest)) :
    execEventWrite fn s = .next (if s.evFull fn = true then (s.modFunc fn fun f => { f with evs := rest }).loseEvents fn 1
      else s.putEvent fn e fun f => { f with evs := rest }) := by
  have hgo : ¬(s.fld F.hstEvring_enable fn = 0 ∨ s.ringStopped fn = true) := by simp [hen, hstop]
  have hnone : ¬(0 < (s.func fn).lostNote ∧ s.evFull fn = false) := fun h => absurd h.1 (by omega)
  simp only [execEventWrite]
  rw [if_neg hgo, hheld]
  dsimp only [firstEv]
  rw [if_neg hnone, he]

theorem State.loseEvents_fields (s : State) (fn n : Nat) :
    (s.loseEvents fn n).func fn = { s.func fn with lostNote := (s.func fn).lostNote + n } ∧
    (s.loseEvents fn n).fld F.hstEvstat_lost fn = min (s.fld F.hstEvstat_lost fn + n) (2 ^ 32 - 1) := by
  have hw : 2 ^ F.hstEvstat_lost.width = 4294967296 := by decide
  unfold State.loseEvents
  refine ⟨?_, ?_⟩
  · rw [State.satAdd, Chg.setFld.func_eq, State.modFunc_same]
  · rw [State.satAdd, State.fld_setFld_eq _ (by decide) (by omega), Chg.modFunc.fld_eq, hw, show (2 : Nat) ^ 32 = 4294967296 by norm_num]

/-- The pages of a ring register and its enable, as a write of the register leaves them (R352). -/
theorem State.ringWrite_reg (s : State) {fn : Nat} (ring : Fin 3) (v : BitVec 64) (h : bits (s.reg (ringKind ring) fn) 0 0 = 0) :
    bits ((s.rwWrite (ringKind ring) fn v.toNat).reg (ringKind ring) fn) 63 12 = bits v.toNat 63 12 ∧
    bits ((s.rwWrite (ringKind ring) fn v.toNat).reg (ringKind ring) fn) 4 0 = bits v.toNat 4 0 := by
  have hwrite (old : Nat) : writeFields (ringKind ring).fields old v.toNat =
      putBits (putBits (putBits old 63 12 (bits v.toNat 63 12)) 4 1 (bits v.toNat 4 1)) 0 0 (bits v.toNat 0 0) := by
    have hfields : ∃ b z e : Fld, (ringKind ring).fields = [b, z, e] ∧ (b.acc = .rw ∧ b.hi = 63 ∧ b.lo = 12) ∧
        (z.acc = .rw ∧ z.hi = 4 ∧ z.lo = 1) ∧ e.acc = .rw ∧ e.hi = 0 ∧ e.lo = 0 := by
      fin_cases ring <;> exact ⟨_, _, _, rfl, ⟨rfl, rfl, rfl⟩, ⟨rfl, rfl, rfl⟩, rfl, rfl, rfl⟩
    obtain ⟨b, z, e, hf, ⟨hb, hbh, hbl⟩, ⟨hz, hzh, hzl⟩, he, heh, hel⟩ := hfields
    rw [hf, writeFields_cons_rw hb, writeFields_cons_rw hz, writeFields_cons_rw he, writeFields_nil, hbh, hbl, hzh, hzl, heh, hel]
  unfold State.rwWrite
  rw [State.reg_setReg_same, bits_mod64 _ _ _ (by decide), bits_mod64 _ _ _ (by decide), hwrite]
  refine ⟨?_, Nat.eq_of_testBit_eq fun i => ?_⟩
  · rw [bits_putBits_ne _ _ _ _ _ _ (by decide) (by decide), bits_putBits_ne _ _ _ _ _ _ (by decide) (by decide),
      bits_putBits_same _ _ _ _ (by decide)]
    exact Nat.mod_eq_of_lt (bits_lt ..)
  · rw [testBit_bits, testBit_bits, testBit_putBits_bits _ _ _ _ _ (by decide), testBit_putBits_bits _ _ _ _ _ (by decide)]
    by_cases h0 : i = 0
    · subst h0
      rfl
    · by_cases h4 : i < 5
      · rw [if_neg (by omega), if_pos (by omega)]
      · simp [h4]

/-! ## A scan of one ring (R335) -/

/-- A ring whose second entry is not yet the host's gives one entry. -/
theorem State.takeEntries_one {s : State} {fn n : Nat}
    (h1 : s.fwPass fn false (s.fld F.hstCmdring_base fn * 4096 + 64 * (s.func fn).cmdIdx) 64 = true)
    (h2 : s.fwPass fn false (s.fld F.hstCmdring_base fn * 4096 +
      64 * (ringNext (ringLen (s.fld F.hstCmdring_size fn)) (s.func fn).cmdIdx (s.func fn).cmdPhase).1) 64 = true)
    (hp1 : (rdByte s.hostMem (s.fld F.hstCmdring_base fn * 4096 + 64 * (s.func fn).cmdIdx + 2)).getLsbD 0 = (s.func fn).cmdPhase)
    (hp2 : (rdByte s.hostMem (s.fld F.hstCmdring_base fn * 4096 +
      64 * (ringNext (ringLen (s.fld F.hstCmdring_size fn)) (s.func fn).cmdIdx (s.func fn).cmdPhase).1 + 2)).getLsbD 0 =
      !(ringNext (ringLen (s.fld F.hstCmdring_size fn)) (s.func fn).cmdIdx (s.func fn).cmdPhase).2) :
    s.takeEntries fn (n + 2) = s.modFunc fn fun f =>
      { f with taken := f.taken ++ [⟨f.cmdIdx, rdBytes s.hostMem (s.fld F.hstCmdring_base fn * 4096 + 64 * (s.func fn).cmdIdx) 64, s.scans⟩]
               cmdIdx := (ringNext (ringLen (s.fld F.hstCmdring_size fn)) (s.func fn).cmdIdx (s.func fn).cmdPhase).1
               cmdPhase := (ringNext (ringLen (s.fld F.hstCmdring_size fn)) (s.func fn).cmdIdx (s.func fn).cmdPhase).2 } := by
  have hbit (b : Byte) : (bits b.toNat 0 0 == 1) = b.getLsbD 0 := by
    rw [bits_of_getLsbD b _ rfl]
    cases b.getLsbD 0 <;> rfl
  have hent (a : Nat) : (bits ((rdBytes s.hostMem a 64).getD 2 0).toNat 0 0 == 1) = (rdByte s.hostMem (a + 2)).getLsbD 0 := by
    rw [hbit]
    rfl
  generalize hnx : ringNext (ringLen (s.fld F.hstCmdring_size fn)) (s.func fn).cmdIdx (s.func fn).cmdPhase = nx at h2 hp2 ⊢
  generalize hv : (s.modFunc fn _) = v
  have hvc : Chg { fns := true } s v := by
    rw [← hv]
    exact .modFunc
  have hvf : (v.func fn).cmdIdx = nx.1 ∧ (v.func fn).cmdPhase = nx.2 := by
    rw [← hv, State.modFunc_same]
    exact ⟨rfl, rfl⟩
  -- The second entry is not the host's yet.
  have hend : v.takeEntries fn (n + 1) = v := by
    have hpass := (State.fwPass_chg hvc).1
    have hphase : ¬((bits ((rdBytes s.hostMem (s.fld F.hstCmdring_base fn * 4096 + 64 * nx.1) 64).getD 2 0).toNat 0 0 == 1) = nx.2) := by
      rw [hent, hp2]
      cases nx.2 <;> decide
    simp only [State.takeEntries]
    rw [hvc.fld_eq, hvf.1, hvf.2, hpass, hvc.hostMem_eq, if_pos h2, if_neg hphase]
  have hphase1 : (bits ((rdBytes s.hostMem (s.fld F.hstCmdring_base fn * 4096 + 64 * (s.func fn).cmdIdx) 64).getD 2 0).toNat 0 0 == 1) =
      (s.func fn).cmdPhase := by rw [hent, hp1]
  rw [State.takeEntries]
  dsimp only
  rw [if_pos h1, if_pos hphase1, hnx, hv, hend]

theorem State.scanFn_off {s : State} {fn : Nat} (h : s.fld F.hstCmdring_enable fn = 0) : s.scanFn fn = s := by
  rw [State.scanFn, if_pos (.inr (.inl h))]

theorem State.scanFns_off {s : State} (l : List Nat) (h : ∀ fn ∈ l, s.fld F.hstCmdring_enable fn = 0) : l.foldl State.scanFn s = s := by
  induction l with
  | nil => rfl
  | cons fn l ih =>
    rw [List.forall_mem_cons] at h
    rw [List.foldl_cons, State.scanFn_off h.1, ih h.2]

/-- Stopped rings keep the entries taken. -/
theorem State.putIndices_taken {s : State} {fn : Nat} (hfn : fn < 2 ^ 32) (hstop : s.ringStopped fn = false) :
    ((s.putIndices fn).func fn).taken = (s.func fn).taken ∧ ((s.putIndices fn).func fn).cmdIdx = (s.func fn).cmdIdx ∧
    ((s.putIndices fn).func fn).cmdPhase = (s.func fn).cmdPhase := by
  simp only [State.putIndices, State.hostPut]
  split_ifs
  · exact ⟨rfl, rfl, rfl⟩
  · obtain ⟨-, -, ⟨p, hp⟩, -, -⟩ := State.stopRings_fields hfn (s.sbAddr fn + 0x20) hstop
    rw [hp]
    exact ⟨rfl, rfl, rfl⟩

/-- A scan that finds one entry of function 0 takes it (R335). -/
theorem State.scanFn_one {s : State} (hon : s.fld F.hstCmdring_enable 0 = 1) (hstop : s.ringStopped 0 = false)
    (hsb : s.fwPass 0 false (s.sbAddr 0) 12 = true) {t : Taken} {nx : Nat × Bool}
    (htake : s.takeEntries 0 64 = s.modFunc 0 fun f => { f with taken := f.taken ++ [t], cmdIdx := nx.1, cmdPhase := nx.2 })
    (htaken : (s.func 0).taken = []) (hbad : s.badStatus 0 t = none) :
    ((s.scanFn 0).func 0).taken = [t] ∧ ((s.scanFn 0).func 0).cmdIdx = nx.1 ∧ ((s.scanFn 0).func 0).cmdPhase = nx.2 := by
  generalize hv : (s.modFunc 0 fun f => { f with taken := f.taken ++ [t], cmdIdx := nx.1, cmdPhase := nx.2 }) = v at htake
  have hvc : Chg { fns := true } s v := by
    rw [← hv]
    exact .modFunc
  have hvf : v.func 0 = { s.func 0 with taken := [t], cmdIdx := nx.1, cmdPhase := nx.2 } := by
    rw [← hv, State.modFunc_same, htaken]
    rfl
  have hvstop : v.ringStopped 0 = false := by
    rw [State.ringStopped, hvc.fld_eq]
    exact hstop
  have hgo : ¬(s.fnOn 0 = false ∨ s.fld F.hstCmdring_enable 0 = 0 ∨ s.ringStopped 0 = true) := by
    simp [hon, hstop, State.fnOn]
  have hscan : s.scanFn 0 = (v.answerAll 0).putIndices 0 := by
    rw [State.scanFn, if_neg hgo, if_pos hsb]
    dsimp only
    rw [htake, if_neg (by simp [hvstop])]
  have hans := v.answerAll_answered 0
  have hquiet : (v.answerAll 0).func 0 = v.func 0 := by
    refine hans.quiet 0 (.inr fun t' ts ht => ?_)
    rw [hvf] at ht
    obtain ⟨rfl, -⟩ := List.cons.inj ht
    rw [State.badStatus_boot hvc.boot_eq]
    exact hbad
  have hstop' : (v.answerAll 0).ringStopped 0 = false := by
    rw [State.ringStopped_kept hans.regs (by decide) (by decide), hvstop]
  obtain ⟨htk, hci, hcp⟩ := State.putIndices_taken (fn := 0) (by decide) hstop'
  rw [hscan, htk, hci, hcp, hquiet, hvf]
  exact ⟨rfl, rfl, rfl⟩

/-- The registers that a scan of rings may write (R337, R351). -/
def ringKinds : List RegKind := [.hstRingstat, .hstEvstat, .hstHistate]

theorem RegsKept.answerAll {s : State} {fn : Nat} : RegsKept ringKinds s (s.answerAll fn) := (s.answerAll_answered fn).regs.mono (by decide)

theorem RegsKept.stopRings {s : State} {fn addr : Nat} (hfn : fn < 2 ^ 32) : RegsKept ringKinds s (s.stopRings fn addr) := by
  unfold State.stopRings State.loseEvents
  refine .ite .refl (.trans ?_ .answerAll)
  refine .trans ?_ (.of_chg State.irqCause_chg)
  refine .trans (.trans ?_ (.of_chg .modFunc)) (.satAdd hfn (by decide))
  refine .trans ?_ (.of_chg .modFunc)
  exact (RegsKept.setFld hfn (by decide)).trans (.setFld hfn (by decide))

theorem RegsKept.takeEntries {s : State} {fn n : Nat} (hfn : fn < 2 ^ 32) : RegsKept ringKinds s (s.takeEntries fn n) := by
  induction n generalizing s with
  | zero => exact .refl
  | succ n ih =>
    unfold State.takeEntries
    exact .ite (.ite ((RegsKept.of_chg .modFunc).trans ih) .refl) (.stopRings hfn)

theorem RegsKept.putIndices {s : State} {fn : Nat} (hfn : fn < 2 ^ 32) : RegsKept ringKinds s (s.putIndices fn) := by
  unfold State.putIndices State.hostPut
  exact .ite .plain (.stopRings hfn)

theorem RegsKept.scanFn {s : State} {fn : Nat} (hfn : fn < 2 ^ 32) : RegsKept ringKinds s (s.scanFn fn) := by
  unfold State.scanFn
  exact .ite .refl (.ite (.ite (.takeEntries hfn) (((RegsKept.takeEntries hfn).trans .answerAll).trans (.putIndices hfn))) (.stopRings hfn))

/-! ## A function-level reset (R351) -/

/-- A count that stops at its end, counted twice. -/
theorem min_min_add (a n M : Nat) : min (min (a + 1) M + n) M = min (a + (n + 1)) M := by omega

/-- The requests of a function cancelled, each with its event, which the function's rings, off again, lose. -/
theorem State.flrCancel_fields {s : State} {fn e : Nat} (hfn : 1 ≤ fn ∧ fn < 16) (he : e < 2) (l : SMap Req)
    (hen : s.fld F.hstEvring_enable fn = 0) :
    let u := l.foldl (fun s q => (s.cancelReq e q.1).eventTo fn 0x02A2 7 e [(4, q.2.rid.toNat)]) s
    Chg { engs := true, regs := true, fns := true } s u ∧ RegsKept [.srvStat, .hstEvstat] s u ∧
    u.func fn = { s.func fn with lostNote := (s.func fn).lostNote + l.length } ∧ (∀ k, k ≠ fn → u.func k = s.func k) ∧
    u.fld F.hstEvstat_lost fn = min (s.fld F.hstEvstat_lost fn + l.length) (2 ^ 32 - 1) ∧ ∀ k, k ≠ e → u.eng k = s.eng k := by
  have hfn' : fn < 2 ^ 32 := by omega
  have he' : e < 2 ^ 32 := by omega
  induction l generalizing s with
  | nil =>
    have hle : s.fld F.hstEvstat_lost fn < 2 ^ 32 := bits_lt ..
    refine ⟨.refl, .refl, rfl, fun _ _ => rfl, ?_, fun _ _ => rfl⟩
    change s.fld F.hstEvstat_lost fn = min (s.fld F.hstEvstat_lost fn + 0) (2 ^ 32 - 1)
    omega
  | cons q l ih =>
    -- One request: it ends, and its event is lost.
    have hcan : Chg { engs := true, regs := true } s (s.cancelReq e q.1) := State.cancelReq_chg
    have hreg : RegsKept [.srvStat, .hstEvstat] s (s.cancelReq e q.1) := by
      unfold State.cancelReq
      refine .trans ?_ (.satAdd he' (by decide))
      exact .of_chg (P := { engs := true }) (.via (.via (.via .refl State.endReq_chg) State.modReq_chg) .modEng)
    have hengs (k : Nat) (hk : k ≠ e) : (s.cancelReq e q.1).eng k = s.eng k := by
      simp only [State.cancelReq, State.satAdd, State.modReq, State.endReq]
      rw [Chg.setFld.eng_eq, State.modEng_ne _ _ _ hk, State.modEng_ne _ _ _ hk, State.modEng_ne _ _ _ hk]
    have hen' : (s.cancelReq e q.1).fld F.hstEvring_enable fn = 0 := by
      rw [hreg.fld _ _ hfn' (by decide), hen]
    have hev : (s.cancelReq e q.1).eventTo fn 0x02A2 7 e [(4, q.2.rid.toNat)] = (s.cancelReq e q.1).loseEvents fn 1 := by
      simp only [State.eventTo]
      rw [if_neg (fun h => absurd (hen'.symm.trans h.1) (by decide)), if_neg (fun h => absurd h.1 (by omega))]
      rfl
    generalize hv : (s.cancelReq e q.1).eventTo fn 0x02A2 7 e [(4, q.2.rid.toNat)] = v at hev
    obtain ⟨hf, hl⟩ := (s.cancelReq e q.1).loseEvents_fields fn 1
    rw [← hev] at hf hl
    have hvreg : RegsKept [.srvStat, .hstEvstat] s v := by
      rw [hev]
      exact hreg.trans ((RegsKept.of_chg .modFunc).trans (.satAdd hfn' (by decide)))
    have hvc : Chg { engs := true, regs := true, fns := true } s v := by
      rw [hev]
      exact .via (.via .refl hcan) State.loseEvents_chg
    have hvo (k : Nat) (hk : k ≠ fn) : v.func k = s.func k := by
      rw [hev, State.loseEvents, State.satAdd, Chg.setFld.func_eq, State.modFunc_ne _ _ _ hk, hcan.func_eq]
    have hve (k : Nat) (hk : k ≠ e) : v.eng k = s.eng k := by
      rw [hev, State.loseEvents_chg.eng_eq, hengs k hk]
    have hlost : s.fld F.hstEvstat_lost fn = (s.cancelReq e q.1).fld F.hstEvstat_lost fn := by
      simp only [State.cancelReq]
      rw [State.fld_satAdd_kind _ he' hfn' (by decide), Chg.modEng.fld_eq, State.modReq_chg.fld_eq, State.endReq_chg.fld_eq]
    obtain ⟨ihc, ihr, ihf, iho, ihl, ihe⟩ := ih (s := v) (by rw [hvreg.fld _ _ hfn' (by decide), hen])
    simp only [List.foldl_cons]
    rw [hv]
    refine ⟨hvc.trans ihc, hvreg.trans ihr, ?_, fun k hk => (iho k hk).trans (hvo k hk), ?_, fun k hk => (ihe k hk).trans (hve k hk)⟩
    · rw [ihf, hf, hcan.func_eq, List.length_cons]
      simp only [Func.mk.injEq, true_and, and_true]
      omega
    · rw [ihl, hl, ← hlost, List.length_cons]
      exact min_min_add ..

/-- A register of which every field resets to 0 reads 0 after reset. -/
theorem regReset_zero (s : State) {k : RegKind} (i : Nat) (h : ∀ f ∈ k.fields, f.rst = .val 0) : regReset s k i = 0 := by
  have hfold (l : List Fld) (hl : ∀ f ∈ l, f.rst = .val 0) : l.foldl (fun a f => a + Fld.reset s f i * 2 ^ f.lo) 0 = 0 := by
    induction l with
    | nil => rfl
    | cons f l ih =>
      rw [List.forall_mem_cons] at hl
      have hf : Fld.reset s f i = 0 := by simp only [Fld.reset, hl.1]
      rw [List.foldl_cons, hf, Nat.zero_mul, Nat.add_zero, ih hl.2]
  exact hfold _ h

theorem bits_zero (hi lo : Nat) : bits 0 hi lo = 0 := by simp [bits]

/-- A function's registers and rings taken out of their stores (R351). -/
def State.flrCleared (s : State) (fn : Nat) (kinds : List RegKind) : State :=
  { kinds.foldl (fun s k => { s with regs := mdel s.regs (regKey k fn) }) s with fns := mdel s.fns fn }

theorem State.flrRegs (fn : Nat) (kinds : List RegKind) (s : State) (h : keysRise s.regs = true) :
    let u := kinds.foldl (fun s k => { s with regs := mdel s.regs (regKey k fn) }) s
    (∃ m, u = { s with regs := m }) ∧ ∀ j, mfind u.regs j = if j ∈ kinds.map (regKey · fn) then none else mfind s.regs j := by
  induction kinds generalizing s with
  | nil => exact ⟨⟨s.regs, rfl⟩, fun j => by simp⟩
  | cons k kinds ih =>
    obtain ⟨⟨m, hm⟩, hfind⟩ := ih { s with regs := mdel s.regs (regKey k fn) } (keysRise_mdel _ h)
    refine ⟨⟨m, hm⟩, fun j => ?_⟩
    rw [List.foldl_cons, hfind, mfind_mdel _ _ h, List.map_cons]
    by_cases h1 : j ∈ kinds.map (regKey · fn)
    · rw [if_pos h1, if_pos (List.mem_cons_of_mem _ h1)]
    · by_cases h2 : j = regKey k fn
      · rw [if_neg h1, if_pos h2, if_pos (h2 ▸ List.mem_cons_self)]
      · rw [if_neg h1, if_neg h2, if_neg (by simpa [h2] using h1)]

theorem State.flrCleared_fields (s : State) {fn : Nat} (kinds : List RegKind) (h : StoreInv s) :
    (∀ k ∈ kinds, (s.flrCleared fn kinds).reg k fn = regReset (s.flrCleared fn kinds) k fn) ∧ (s.flrCleared fn kinds).func fn = {} ∧
    (∀ k, k ≠ fn → (s.flrCleared fn kinds).func k = s.func k) ∧ (s.flrCleared fn kinds).engs = s.engs ∧
    (s.flrCleared fn kinds).hostMem = s.hostMem := by
  obtain ⟨⟨m, hm⟩, hfind⟩ := State.flrRegs fn kinds s h.regs
  refine ⟨fun k hk => ?_, ?_, fun k hk => ?_, ?_, ?_⟩
  · have hnone : mfind (s.flrCleared fn kinds).regs (regKey k fn) = none := by
      have hmem : regKey k fn ∈ kinds.map (regKey · fn) := List.mem_map_of_mem hk
      exact (hfind _).trans (if_pos hmem)
    simp only [State.reg, hnone]
  · have hfns : (s.flrCleared fn kinds).fns = mdel s.fns fn := by
      simp only [State.flrCleared, hm]
    rw [State.func, hfns, mget, mfind_mdel _ _ h.fns, if_pos rfl]
    rfl
  · have hfns : (s.flrCleared fn kinds).fns = mdel s.fns fn := by
      simp only [State.flrCleared, hm]
    rw [State.func, hfns, mget, mfind_mdel _ _ h.fns, if_neg hk, State.func, mget]
  · simp only [State.flrCleared, hm]
  · simp only [State.flrCleared, hm]

/-- The state as the scan of the rings begins. -/
def State.scanBegun (s : State) (host : HostDone) : State :=
  { s with
    hostMem := host.writes.foldl (fun m w => if w.1 < 2 ^ 64 then wrByte m w.1 w.2 else m) s.hostMem, vfs := host.vfs
    scans := s.scans + 1, scanDue := false
    scanAt := if s.scanAt + 1600 ≤ s.ctlTime then s.ctlTime / 1600 * 1600 else s.scanAt }

theorem State.scanBegun_chg (s : State) (host : HostDone) :
    Chg { hostMem := true, scanAt := true, scans := true, vfs := true, scanDue := true } s (s.scanBegun host) :=
  .via (.via (.via (.via (.via .refl (.setHostMem fun h => memWf_foldl (fun _ _ h => (by split; exacts [memWf_wrByte _ _ h, h])) _ h))
    .setScanAt) .setScans) .setVfs) .setScanDue

theorem Chg.vfs_eq {P : Foot} {s u : State} (h : Chg P s u) (hP : P.vfs = false := by rfl) : u.vfs = s.vfs := by
  rw [h.same]; simp only [State.within, hP, cond_false]

theorem Chg.scanAt_eq {P : Foot} {s u : State} (h : Chg P s u) (hP : P.scanAt = false := by rfl) : u.scanAt = s.scanAt := by
  rw [h.same]; simp only [State.within, hP, cond_false]

theorem getLsbD_cleared (w : BitVec 8) {v k : Nat} (hk : k < 8) :
    (w &&& ~~~(BitVec.ofNat 8 (2 ^ v))).getLsbD k = (w.getLsbD k && decide (k ≠ v)) := by
  rw [BitVec.getLsbD_and, BitVec.getLsbD_not, BitVec.getLsbD_ofNat, Nat.testBit_two_pow]
  by_cases h : v = k
  · subst h
    simp [hk]
  · have h' : ¬k = v := fun e => h e.symm
    simp [hk, h, h']

/-! ### Ring scans (R336 to R338) -/

section Scan
variable {s : State} {host : HostDone}

/-- A scan runs over the functions, once the host has written its memory. -/
theorem execRingScan_due (hdue : s.scanIsDue = true) : exec (.ringScan host) s = .next ((List.range 16).foldl State.scanFn (s.scanBegun host)) := by
  have hexec : exec (.ringScan host) s = execRingScan host s := rfl
  rw [hexec]
  simp only [execRingScan]
  rw [if_pos hdue]
  rfl

theorem State.scanFns_chg (v : State) : Chg { fns := true, regs := true, hostMem := true } v ((List.range 16).foldl State.scanFn v) :=
  .foldl (fun _ _ => State.scanFn_chg) _ .refl

theorem State.scanBegun_quiet (hoff : ∀ fn < 16, s.fld F.hstCmdring_enable fn = 0) :
    (List.range 16).foldl State.scanFn (s.scanBegun host) = s.scanBegun host :=
  State.scanFns_off _ fun fn hfn => hoff fn (List.mem_range.mp hfn)

/-- A scan that finds one whole command of function 0 takes it. -/
theorem State.scanBegun_takes (hon : s.fld F.hstCmdring_enable 0 = 1) (hstop : s.ringStopped 0 = false)
    (hoff : ∀ fn < 16, 0 < fn → s.fld F.hstCmdring_enable fn = 0) :
    let m := host.writes.foldl (fun m w => if w.1 < 2 ^ 64 then wrByte m w.1 w.2 else m) s.hostMem
    let f := s.func 0
    let base := s.fld F.hstCmdring_base 0 * 4096
    let nx := ringNext (ringLen (s.fld F.hstCmdring_size 0)) f.cmdIdx f.cmdPhase
    let t : Taken := ⟨f.cmdIdx, rdBytes m (base + 64 * f.cmdIdx) 64, s.scans + 1⟩
    s.fwPass 0 false (s.sbAddr 0) 12 = true → s.fwPass 0 false (base + 64 * f.cmdIdx) 64 = true →
    s.fwPass 0 false (base + 64 * nx.1) 64 = true → f.taken = [] →
    (rdByte m (base + 64 * f.cmdIdx + 2)).getLsbD 0 = f.cmdPhase → (rdByte m (base + 64 * nx.1 + 2)).getLsbD 0 = !nx.2 →
    s.badStatus 0 t = none → ∀ u, u = (List.range 16).foldl State.scanFn (s.scanBegun host) →
      (u.func 0).taken = [t] ∧ (u.func 0).cmdIdx = nx.1 ∧ (u.func 0).cmdPhase = nx.2 := by
  intro m f base nx t hsb hp1 hp2 htk hph1 hph2 hbad u hu
  have hv : Chg { hostMem := true, scanAt := true, scans := true, vfs := true, scanDue := true } s (s.scanBegun host) := s.scanBegun_chg host
  have hrange : List.range 16 = 0 :: (List.range 15).map Nat.succ := List.range_succ_eq_map
  have hrest : ((List.range 15).map Nat.succ).foldl State.scanFn ((s.scanBegun host).scanFn 0) = (s.scanBegun host).scanFn 0 := by
    refine State.scanFns_off _ fun fn hfn => ?_
    obtain ⟨k, hk, rfl⟩ := List.mem_map.mp hfn
    rw [List.mem_range] at hk
    have hlt : k.succ < 2 ^ 32 := by omega
    rw [(RegsKept.scanFn (by decide)).fld _ _ hlt (by decide), hv.fld_eq]
    exact hoff _ (by omega) (by omega)
  rw [hrange, List.foldl_cons, hrest] at hu
  rw [hu]
  obtain ⟨hpass, hsba⟩ := State.fwPass_chg hv
  have hfunc : (s.scanBegun host).func 0 = f := hv.func_eq 0
  have hmem : (s.scanBegun host).hostMem = m := rfl
  have hscans : (s.scanBegun host).scans = s.scans + 1 := rfl
  have htake : (s.scanBegun host).takeEntries 0 64 = (s.scanBegun host).modFunc 0 fun f =>
      { f with taken := f.taken ++ [t], cmdIdx := nx.1, cmdPhase := nx.2 } := by
    have hone := State.takeEntries_one (s := s.scanBegun host) (fn := 0) (n := 62)
    rw [hfunc, hmem, hscans, hpass, hv.fld_eq, hv.fld_eq] at hone
    rw [hone hp1 hp2 hph1 hph2]
    unfold State.modFunc
    rw [hfunc]
  have hstop' : (s.scanBegun host).ringStopped 0 = false := by
    rw [State.ringStopped, hv.fld_eq]
    exact hstop
  exact State.scanFn_one (by rw [hv.fld_eq]; exact hon) hstop' (by rw [hpass, hsba]; exact hsb) htake (by rw [hfunc]; exact htk)
    ((State.badStatus_boot hv.boot_eq 0 t).trans hbad)

end Scan

theorem execRingScan_eq {s : State} {host : HostDone} (hdue : s.scanIsDue = true) :
    Yields (.ringScan host) s fun u =>
      u.scanDue = false ∧ u.ext = s.ext ∧ u.tiles = s.tiles ∧ u.vfs = host.vfs ∧
      u.scanAt = (if s.scanAt + 1600 ≤ s.ctlTime then s.ctlTime / 1600 * 1600 else s.scanAt) ∧
      u = (List.range 16).foldl State.scanFn (s.scanBegun host) := by
  have hscans := State.scanFns_chg (s.scanBegun host)
  have hv : Chg { hostMem := true, scanAt := true, scans := true, vfs := true, scanDue := true } s (s.scanBegun host) := s.scanBegun_chg host
  refine ⟨_, execRingScan_due hdue, ?_, ?_, ?_, ?_, ?_, rfl⟩
  · rw [hscans.scanDue_eq]
    rfl
  · rw [hscans.ext_eq, hv.ext_eq]
  · rw [hscans.tiles_eq, hv.tiles_eq]
  · rw [hscans.vfs_eq]
    rfl
  · rw [hscans.scanAt_eq]
    rfl

/-! ### Events, interrupts and failures (R345 to R355) -/

section Function
variable {s : State} {fn : Nat}

theorem execEventWrite_eq {e : Ev} {rest : List Ev} (hstop : s.ringStopped fn = false)
    (hpass : s.fwPass fn true (s.sbAddr fn + 0x20) 12 = true) (hmem : memWf s.hostMem = true)
    (hen : s.fld F.hstEvring_enable fn = 1) (hheld : (s.func fn).held = []) (hlost : (s.func fn).lostNote = 0)
    (he : firstEv (s.func fn).evs = some (e, rest)) :
    let f := s.func fn
    let a := s.fld F.hstEvring_base fn * 4096 + 32 * f.evIdx
    (s.evFull fn = false → s.fwPass fn true a 32 = true → (a + 32 ≤ s.sbAddr fn + 0x20 ∨ s.sbAddr fn + 0x2C ≤ a) →
      Yields (.eventWrite fn) s fun u =>
        rdBytes u.hostMem a 32 = evBytes e f.evPhase ∧ (u.func fn).evs = rest ∧
        ((u.func fn).evIdx, (u.func fn).evPhase) = ringNext (ringLen (s.fld F.hstEvring_size fn)) f.evIdx f.evPhase) ∧
    (s.evFull fn = true →
      Yields (.eventWrite fn) s fun u =>
        u.hostMem = s.hostMem ∧ (u.func fn).evs = rest ∧ (u.func fn).lostNote = 1 ∧
        u.fld F.hstEvstat_lost fn = min (s.fld F.hstEvstat_lost fn + 1) (2 ^ 32 - 1)) := by
  intro f a
  have hexec := execEventWrite_evs hen hstop hheld hlost he
  refine ⟨fun hfull hring hapart => ⟨_, hexec, ?_⟩, fun hfull => ⟨_, hexec, ?_⟩⟩
  · rw [if_neg (by simp [hfull])]
    exact State.putEvent_fields e hpass hmem rfl hring hapart fun f => { f with evs := rest }
  · rw [if_pos hfull]
    obtain ⟨hf, hl⟩ := (s.modFunc fn fun f => { f with evs := rest }).loseEvents_fields fn 1
    rw [State.modFunc_same] at hf
    refine ⟨?_, ?_, ?_, ?_⟩
    · rw [State.loseEvents_chg.hostMem_eq, Chg.modFunc.hostMem_eq]
    · rw [hf]
    · rw [hf]
      change (s.func fn).lostNote + 1 = 1
      rw [hlost]
    · rw [hl, Chg.modFunc.fld_eq]

theorem execInterruptRaise_eq {vec : Fin 8} (hp : (s.func fn).irqPend.getLsbD vec = true) (hready : s.ready = true) (hon : s.fnOn fn = true)
    (hvec : fn = 0 ∨ vec.val < 2)
    (hlast : ∀ t, mfind (s.func fn).irqLast vec = some t → t + 100 * s.fld F.hstIrqmod_gap fn ≤ s.ctlTime) :
    Yields (.interruptRaise fn vec) s fun u =>
      u.irqs = s.irqs ++ [(fn, vec.val, s.ctlTime)] ∧ u.regs = s.regs ∧ u.hostMem = s.hostMem ∧
      ∀ k < 8, (u.func fn).irqPend.getLsbD k = ((s.func fn).irqPend.getLsbD k && decide (k ≠ vec.val)) := by
  have hvec' : (fn == 0 || decide (vec.val < 2)) = true := by
    rcases hvec with rfl | h
    · rfl
    · simp [h]
  generalize hv : (s.modFunc fn fun f =>
    { f with irqPend := f.irqPend &&& ~~~(BitVec.ofNat 8 (2 ^ vec.val)), irqLast := mput f.irqLast vec s.ctlTime }) = v
  have hexec : execInterruptRaise fn vec s = .next { v with irqs := s.irqs ++ [(fn, vec.val, s.ctlTime)] } := by
    cases hm : mfind (s.func fn).irqLast vec with
    | none => simp only [execInterruptRaise, hm, hp, hready, hon, hvec', hv, Bool.and_self, if_true]
    | some t => simp only [execInterruptRaise, hm, hp, hready, hon, hvec', hv, decide_eq_true (hlast t hm), Bool.and_self, if_true]
  have hvc : Chg { fns := true } s v := by
    rw [← hv]
    exact .modFunc
  refine ⟨_, hexec, rfl, hvc.regs_eq, hvc.hostMem_eq, fun k hk => ?_⟩
  have hfunc : ({ v with irqs := s.irqs ++ [(fn, vec.val, s.ctlTime)] } : State).func fn = v.func fn := rfl
  rw [hfunc, ← hv, State.modFunc_same]
  exact getLsbD_cleared _ hk

theorem execRingAccessFail_eq {addr : BitVec 64} (hfn : fn < 16) (hon : s.fnOn fn = true) (hstop : s.ringStopped fn = false) :
    Yields (.ringAccessFail fn addr) s fun u =>
      u.fld F.hstRingstat_state fn = 2 ∧ u.fld F.hstRingstat_failaddr fn = addr.toNat / 256 ∧ (u.func fn).cpls = [] ∧
      (u.func fn).evs = [] ∧ (u.func 0).irqPend.getLsbD 2 = true ∧
      u.fld F.hstEvstat_lost fn = min (s.fld F.hstEvstat_lost fn + (s.func fn).evs.length) (2 ^ 32 - 1) := by
  have hexec : execRingAccessFail fn addr s = .next (s.stopRings fn addr.toNat) := by
    simp only [execRingAccessFail]
    rw [if_pos hon]
  obtain ⟨hst, had, ⟨p, hf⟩, hirq, hl⟩ := State.stopRings_fields (show fn < 2 ^ 32 by omega) addr.toNat hstop
  refine ⟨_, hexec, hst, ?_, by rw [hf], by rw [hf], hirq, hl⟩
  rw [had]
  exact Nat.mod_eq_of_lt (by have := addr.isLt; omega)

theorem execRingRestart_eq (hon : s.fnOn fn = true) (hstop : s.ringStopped fn = true) (hready : s.ready = true) :
    exec (.ringRestart fn) s = .next ((s.setFld F.hstRingstat_state fn (s.fld F.hstCmdring_enable fn)).answerAll fn) := by
  change execRingRestart fn s = _
  simp only [execRingRestart, State.restartRings]
  rw [if_pos ⟨hon, hready⟩, if_pos hstop]

/-- A ring's register written with ENABLE 1 where it was 0, and the function's ring state that follows. -/
def State.ringOn (s : State) (fn : Nat) (ring : Fin 3) (v : BitVec 64) : State :=
  let w := s.rwWrite (ringKind ring) fn v.toNat
  if ring.val = 0 ∧ w.ringStopped fn = false then w.setFld F.hstRingstat_state fn 1 else w

theorem State.ringOn_fields {ring : Fin 3} {v : BitVec 64} (hwas : bits (s.reg (ringKind ring) fn) 0 0 = 0) :
    bits ((s.ringOn fn ring v).reg (ringKind ring) fn) 63 12 = bits v.toNat 63 12 ∧
      bits ((s.ringOn fn ring v).reg (ringKind ring) fn) 4 0 = bits v.toNat 4 0 ∧
      (ring = 0 → s.ringStopped fn = false → (s.ringOn fn ring v).fld F.hstRingstat_state fn = 1) := by
  obtain ⟨hpages, hlow⟩ := s.ringWrite_reg ring v hwas
  have hkind : (ringKind ring).code ≠ RegKind.hstRingstat.code := by
    fin_cases ring <;> decide
  have hwstop : (s.rwWrite (ringKind ring) fn v.toNat).ringStopped fn = s.ringStopped fn := by
    rw [State.ringStopped, State.rwWrite, State.fld_setReg_code _ hkind.symm, State.ringStopped]
  unfold State.ringOn
  generalize s.rwWrite (ringKind ring) fn v.toNat = w at hpages hlow hwstop
  have hxreg : (if ring.val = 0 ∧ w.ringStopped fn = false then w.setFld F.hstRingstat_state fn 1 else w).reg (ringKind ring) fn =
      w.reg (ringKind ring) fn := by
    split_ifs
    · exact State.reg_setFld_code _ hkind
    · rfl
  refine ⟨by rw [hxreg, hpages], by rw [hxreg, hlow], fun hr hst => ?_⟩
  subst hr
  rw [if_pos ⟨rfl, hwstop.trans hst⟩]
  exact State.fld_setFld_eq _ (by decide) (by decide)

theorem execRingEnable_eq {ring : Fin 3} {v : BitVec 64} (hon : s.fnOn fn = true) (hready : s.ready = true) (h0 : v.getLsbD 0 = true)
    (hwas : bits (s.reg (ringKind ring) fn) 0 0 = 0) :
    Yields (.ringEnable fn ring v) s fun u =>
      bits (u.reg (ringKind ring) fn) 63 12 = bits v.toNat 63 12 ∧ bits (u.reg (ringKind ring) fn) 4 0 = bits v.toNat 4 0 ∧
      (ring = 0 → (u.func fn).cmdIdx = 0 ∧ (u.func fn).cmdPhase = true ∧
        (s.ringStopped fn = false → u.fld F.hstRingstat_state fn = 1)) ∧
      (ring = 1 → (u.func fn).cplIdx = 0 ∧ (u.func fn).cplPhase = true) ∧
      (ring = 2 → (u.func fn).evIdx = 0 ∧ (u.func fn).evPhase = true) := by
  have hon1 : bits v.toNat 0 0 = 1 := bits_of_getLsbD v _ h0
  have hexec : exec (.ringEnable fn ring v) s = .next ((s.ringOn fn ring v).modFunc fn fun f =>
      if ring.val = 0 then { f with cmdIdx := 0, cmdPhase := true }
      else if ring.val = 1 then { f with cplIdx := 0, cplPhase := true }
      else { f with evIdx := 0, evPhase := true, everEn := true }) := by
    change execRingEnable fn ring v s = _
    simp only [execRingEnable, State.ringWrite]
    rw [if_pos ⟨hon, hready⟩, hon1, hwas, if_neg (show ¬ (0 : Nat) = 1 by decide), if_pos ⟨rfl, rfl⟩]
    rfl
  obtain ⟨h1, h2, h3⟩ := State.ringOn_fields (v := v) hwas
  generalize s.ringOn fn ring v = x at hexec h1 h2 h3
  refine ⟨_, hexec, ?_, ?_, fun hr => ?_, fun hr => ?_, fun hr => ?_⟩
  · rw [Chg.modFunc.reg_eq, h1]
  · rw [Chg.modFunc.reg_eq, h2]
  · rw [State.modFunc_same, Chg.modFunc.fld_eq]
    refine ⟨?_, ?_, h3 hr⟩
    all_goals subst hr; rfl
  all_goals
    subst hr
    rw [State.modFunc_same]
    exact ⟨rfl, rfl⟩

theorem execVfFlr_eq (hfn : fn < 16) (h1 : 1 ≤ fn) (hst : StoreInv s) :
    Yields (.vfFlr fn) s fun u =>
      let n := (([0, 1] : List Nat).map fun e => ((s.eng e).admitted.filter fun q => q.2.fn == fn).length).sum
      u.func fn = { lostNote := n } ∧ u.fld F.hstEvstat_lost fn = min n (2 ^ 32 - 1) ∧
      u.reg .hstCmdring fn = 0 ∧ u.reg .hstCplring fn = 0 ∧ u.reg .hstEvring fn = 0 ∧ u.reg .hstRingstat fn = 0 ∧
      u.func 0 = s.func 0 ∧ u.hostMem = s.hostMem := by
  have hfn' : fn < 2 ^ 32 := by omega
  generalize hk : ([.hstCmdring, .hstCplring, .hstEvring, .hstSbaddr, .hstRingstat, .hstEvstat, .hstIrqmod] : List RegKind) = kinds
  obtain ⟨hregs, hfunc, hother, hengs, hhost⟩ := s.flrCleared_fields (fn := fn) kinds hst
  generalize hv : s.flrCleared fn kinds = v at *
  generalize hl0 : (s.eng 0).admitted.filter (fun q => q.2.fn == fn) = l0
  generalize hl1 : (s.eng 1).admitted.filter (fun q => q.2.fn == fn) = l1
  have hzero : ∀ k ∈ kinds, v.reg k fn = 0 := by
    intro k hmem
    rw [hregs k hmem]
    rw [← hk] at hmem
    refine regReset_zero _ fn ?_
    revert k
    decide
  have hfld (f : Fld) (hf : f.kind ∈ kinds) : v.fld f fn = 0 :=
    (congrArg (bits · f.hi f.lo) (hzero _ hf)).trans (bits_zero ..)
  obtain ⟨c0, r0, f0, o0, n0, e0⟩ := State.flrCancel_fields (s := v) (e := 0) ⟨h1, hfn⟩ (by decide) l0 (hfld _ (by rw [← hk]; decide))
  generalize hw : l0.foldl (fun s q => (s.cancelReq 0 q.1).eventTo fn 0x02A2 7 0 [(4, q.2.rid.toNat)]) v = w at c0 r0 f0 o0 n0 e0
  obtain ⟨c1, r1, f1, o1, n1, -⟩ := State.flrCancel_fields (s := w) (e := 1) ⟨h1, hfn⟩ (by decide) l1
    (by rw [r0.fld _ _ hfn' (by decide)]; exact hfld _ (by rw [← hk]; decide))
  generalize hx : l1.foldl (fun s q => (s.cancelReq 1 q.1).eventTo fn 0x02A2 7 1 [(4, q.2.rid.toNat)]) w = x at c1 r1 f1 o1 n1
  have hexec : execVfFlr fn s = .next (x.answerAll fn) := by
    have heng0 : v.eng 0 = s.eng 0 := by rw [State.eng, hengs, State.eng]
    have heng1 : w.eng 1 = s.eng 1 := by rw [e0 1 (by decide), State.eng, hengs, State.eng]
    have hnot : ¬(fn = 0 ∨ 16 ≤ fn) := by omega
    rw [← hx, ← hl1, ← heng1, ← hw, ← hl0, ← heng0, ← hv, ← hk]
    simp only [execVfFlr]
    rw [if_neg hnot]
    rfl
  have hans := x.answerAll_answered fn
  have hxf : x.func fn = { lostNote := l0.length + l1.length } := by
    rw [f1, f0, hfunc]
    simp
  have hquiet : (x.answerAll fn).func fn = x.func fn := by
    refine hans.quiet fn (.inr fun t ts ht => ?_)
    rw [hxf] at ht
    exact absurd ht (by simp)
  have hreg (k : RegKind) (hk1 : ∀ q ∈ [RegKind.srvStat, .hstEvstat, .hstHistate], k.code ≠ q.code) (hmem : k ∈ kinds) :
      (x.answerAll fn).reg k fn = 0 := by
    have hstat : ∀ q ∈ [RegKind.srvStat, .hstEvstat], q ∈ [RegKind.srvStat, .hstEvstat, .hstHistate] := by decide
    have hload : ∀ q ∈ [RegKind.hstHistate], q ∈ [RegKind.srvStat, .hstEvstat, .hstHistate] := by decide
    rw [hans.regs k fn hfn' (fun q hq => hk1 q (hload q hq)), r1 k fn hfn' (fun q hq => hk1 q (hstat q hq)),
      r0 k fn hfn' (fun q hq => hk1 q (hstat q hq))]
    exact hzero k hmem
  refine ⟨_, hexec, ?_⟩
  dsimp only
  generalize hn0 : (([0, 1] : List Nat).map fun e => ((s.eng e).admitted.filter fun q => q.2.fn == fn).length).sum = n
  have hn : n = l0.length + l1.length := by
    simp only [← hn0, List.map_cons, List.map_nil, List.sum_cons, List.sum_nil, hl0, hl1, Nat.add_zero]
  refine ⟨?_, ?_, hreg _ (by decide) (by rw [← hk]; decide), hreg _ (by decide) (by rw [← hk]; decide),
    hreg _ (by decide) (by rw [← hk]; decide), hreg _ (by decide) (by rw [← hk]; decide), ?_, ?_⟩
  · rw [hquiet, hxf, hn]
  · rw [hans.regs.fld _ _ hfn' (by decide), n1, n0, hfld _ (by rw [← hk]; decide), hn]
    omega
  · rw [hans.low 0 h1, o1 0 (by omega), o0 0 (by omega), hother 0 (by omega)]
  · rw [State.answerAll_chg.hostMem_eq, c1.hostMem_eq, c0.hostMem_eq, hhost]

end Function

/-- Settles O29: what answers leave (`State.Answered`) and what stopped rings keep (`State.stopRings_fields`). -/
theorem hostRings : Obligations.HostRings := by
  refine ⟨fun s host hdue => ?_, fun s fn hfn hstop hpass hmem => ⟨?_, ?_, ?_⟩, fun s fn hfn hon => ⟨?_, ?_, ?_, ?_⟩⟩
  · intro m
    obtain ⟨u, hexec, h1, h2, h3, h4, h5, hu⟩ := execRingScan_eq hdue
    refine ⟨_, hexec, h1, h2, h3, h4, h5, fun hoff => ?_, fun hon hstop hoff => ?_⟩
    · rw [hu, State.scanBegun_quiet hoff]
      exact ⟨rfl, rfl, rfl⟩
    · intro f base nx t hsb hp1 hp2 htk hph1 hph2 hbad
      exact State.scanBegun_takes hon hstop hoff hsb hp1 hp2 htk hph1 hph2 hbad _ hu
  · intro c rest hc hfull a hring hapart
    exact ⟨_, rfl, State.completionWrite_fields hstop hpass hmem hc hfull rfl hring hapart⟩
  · exact fun e rest hen hheld hlost he => execEventWrite_eq hstop hpass hmem hen hheld hlost he
  · exact fun vec hp hready hon hvec hlast => execInterruptRaise_eq hp hready hon hvec hlast
  · exact fun addr hstop => execRingAccessFail_eq hfn hon hstop
  · exact fun hstop hready => execRingRestart_eq hon hstop hready
  · exact fun ring v hready h0 hwas => execRingEnable_eq hon hready h0 hwas
  · exact fun h1 hst => execVfFlr_eq hfn h1 hst

end Sys2Proof.Machine
end

section
/-!
Register writes and the windows with rules of their own (R13, R16, R104 to R132).
-/
namespace Sys2Proof.Machine
set_option Elab.async false

/-! ## A register written field by field (R13, R16) -/

/-- One field's part of a write. -/
def Fld.write (f : Fld) (r v : Nat) : Nat :=
  match f.acc with
  | .rw | .rws => putBits r f.hi f.lo (bits v f.hi f.lo)
  | .w1c => if bits v f.hi f.lo = 1 then putBits r f.hi f.lo 0 else r
  | .ro | .wo => r

/-- What a write leaves in a field. -/
def Fld.written (f : Fld) (r v : Nat) : Nat :=
  match f.acc with
  | .rw | .rws => bits v f.hi f.lo
  | .w1c => if bits v f.hi f.lo = 1 then 0 else bits r f.hi f.lo
  | .ro | .wo => bits r f.hi f.lo

theorem writeFields_cons (f : Fld) (fs : List Fld) (r v : Nat) : writeFields (f :: fs) r v = writeFields fs (f.write r v) v := rfl

theorem Fld.bits_write (f : Fld) (r v : Nat) (h : f.lo ≤ f.hi) : bits (f.write r v) f.hi f.lo = f.written r v := by
  unfold Fld.write Fld.written
  cases f.acc with
  | ro => rfl
  | wo => rfl
  | rw =>
    dsimp only
    rw [bits_putBits_same _ _ _ _ h]
    exact Nat.mod_eq_of_lt (bits_lt ..)
  | rws =>
    dsimp only
    rw [bits_putBits_same _ _ _ _ h]
    exact Nat.mod_eq_of_lt (bits_lt ..)
  | w1c =>
    dsimp only
    split_ifs
    · rw [bits_putBits_same _ _ _ _ h]
      exact Nat.zero_mod _
    · rfl

theorem Fld.bits_write_apart (f : Fld) (r v : Nat) {hi lo : Nat} (h : f.lo ≤ f.hi) (hd : hi < f.lo ∨ f.hi < lo) :
    bits (f.write r v) hi lo = bits r hi lo := by
  unfold Fld.write
  cases f.acc with
  | ro => rfl
  | wo => rfl
  | rw => exact bits_putBits_ne _ _ _ _ _ _ h hd
  | rws => exact bits_putBits_ne _ _ _ _ _ _ h hd
  | w1c =>
    dsimp only
    split_ifs
    · exact bits_putBits_ne _ _ _ _ _ _ h hd
    · rfl

theorem bits_writeFields_apart {fs : List Fld} {r v hi lo : Nat} (h : ∀ f ∈ fs, f.lo ≤ f.hi ∧ (hi < f.lo ∨ f.hi < lo)) :
    bits (writeFields fs r v) hi lo = bits r hi lo := by
  induction fs generalizing r with
  | nil => rfl
  | cons f fs ih =>
    rw [List.forall_mem_cons] at h
    rw [writeFields_cons, ih h.2, f.bits_write_apart r v h.1.1 h.1.2]

/-- A field of a register written reads by its access code. -/
theorem bits_writeFields {fs : List Fld} (hf : fieldsFall fs) {f : Fld} (hm : f ∈ fs) (r v : Nat) :
    bits (writeFields fs r v) f.hi f.lo = f.written r v := by
  induction fs generalizing r with
  | nil => cases hm
  | cons g fs ih =>
    obtain ⟨hlo, hp⟩ := hf
    obtain ⟨hgt, hp⟩ := List.pairwise_cons.mp hp
    rw [List.forall_mem_cons] at hlo
    rw [writeFields_cons]
    obtain _ | ⟨_, hm⟩ := hm
    · rw [bits_writeFields_apart fun k hk => ⟨hlo.2 k hk, .inr (hgt k hk)⟩]
      exact f.bits_write r v hlo.1
    · rw [ih ⟨hlo.2, hp⟩ hm]
      have hkept : bits (g.write r v) f.hi f.lo = bits r f.hi f.lo := g.bits_write_apart r v hlo.1 (.inl (hgt f hm))
      unfold Fld.written
      rw [hkept]

theorem RegKind.hi_lt (k : RegKind) : ∀ f ∈ k.fields, f.hi < 64 := by
  cases k <;> decide

theorem State.fld_rwWrite (s : State) (k : RegKind) (i v : Nat) {f : Fld} (hf : f ∈ k.fields) :
    (s.rwWrite k i v).fld f i = f.written (s.reg k i) v := by
  rw [State.fld, k.kind_of_mem_fields f hf, State.rwWrite, State.reg_setReg_same, bits_mod64 _ _ _ (k.hi_lt f hf)]
  exact bits_writeFields k.fieldsFall hf _ _

/-! ## Writes of a module block's registers (R13) -/

/-- A write that the firewall lets through, of a die that is present, while no load holds the image's registers. -/
theorem State.moduleWrite_eq {s : State} {w : Writer} {r : Reg} {off v : Nat} {f : State → State} (hw : s.mayWrite w = true)
    (hl : s.loading = none) (hd : ∀ d, accessDie r off = some d → s.dieAbsent d = false) : s.moduleWrite w r off v f = f s := by
  have himg : s.imgWrite r.kind off f = f s := by
    rw [State.imgWrite, hl]
    rfl
  rw [State.moduleWrite, State.gated_of_mayWrite hw]
  split
  · next d h =>
    rw [State.absentOr, hd d h, himg]
    rfl
  · exact himg

theorem State.lastWrite_written (s : State) (k : RegKind) (i v : Nat) (south : Bool) :
    (∀ f ∈ k.fields, (s.lastWrite k i v south).fld f i = f.written (s.reg k i) v) ∧
    (∀ k' j, regKey k' j ≠ regKey k i → (s.lastWrite k i v south).reg k' j = s.reg k' j) ∧
    (s.lastWrite k i v south).written = s.written ++ [{ reg := ⟨k, i⟩, val := v, south := south, old := s.reg k i }] :=
  ⟨fun _ hf => s.fld_rwWrite k i v hf, fun _ _ h => State.reg_setReg_ne _ _ h, rfl⟩

/-- The kinds that follow the common rule write nothing but themselves. -/
theorem execRegisterWrite_common {s : State} {w : Writer} {r : Reg} {off : Nat} {v : BitVec 64} (hw : s.mayWrite w = true)
    (hc : commonKind r.kind = true) (hi : r.idx < r.kind.count) (hdma : dmaRegHere r = true) (hl : s.loading = none)
    (hd : ∀ d, accessDie r off = some d → s.dieAbsent d = false) :
    execRegisterWrite w r off v s = .next (s.lastWrite r.kind r.idx v.toNat (bothDies r.kind && decide (0xA000000 ≤ off))) := by
  obtain ⟨k, i⟩ := r
  change commonKind k = true at hc
  change i < k.count at hi
  have hplain : s.plainWrite ⟨k, i⟩ off v.toNat = s.lastWrite k i v.toNat (bothDies k && decide (0xA000000 ≤ off)) := by
    simp only [State.plainWrite]
    split
    case h_10 => rfl
    all_goals exact absurd hc (by decide)
  have hrow : ¬(ownRow k || decide (k.count ≤ i) || !dmaRegHere ⟨k, i⟩) = true := by
    simp only [commonKind, Bool.and_eq_true, Bool.not_eq_true'] at hc
    simp [hc.1.1, hdma, Nat.not_le.mpr hi]
  have hring : ¬ringWindow k = true := by
    simp only [commonKind, Bool.and_eq_true, Bool.not_eq_true'] at hc
    simp [hc.1.2]
  simp only [execRegisterWrite]
  rw [if_neg hrow, if_neg hring]
  split
  case h_4 => rw [State.moduleWrite_eq hw hl hd, hplain]
  all_goals exact absurd hc (by decide)

/-! ## The handle entries (R104, R106, R111) -/

theorem RegsKept.spFaultReg {s : State} {y kind h pc off : Nat} (hy : y < 2 ^ 32) :
    RegsKept [.tilSpfault, .tilSpcnt] s (s.spFaultReg y kind h pc off) :=
  fun _ _ hi hk => State.reg_spFaultReg _ _ _ _ _ _ (regKey_ne hy hi (.inl (hk _ (by decide)))) (regKey_ne hy hi (.inl (hk _ (by decide))))

theorem RegsKept.handleFault {s : State} {y pc h : Nat} (hy : y < 2 ^ 32) :
    RegsKept [.tilSpfault, .tilSpcnt, .hstEvstat] s (s.handleFault y pc h) :=
  (RegsKept.event (by decide)).trans ((RegsKept.spFaultReg hy).mono (by decide))

/-- An entry written: what was still to be made of it is gone. -/
def State.entryPut (s : State) (y n b c : Nat) : State :=
  (((s.modTile y fun T => { T with hndw := T.hndw.filter fun w => w.2.1 != n }).setReg .tilHndb (64 * y + n) b).setReg
    .tilHndc (64 * y + n) c).modified

theorem State.entryPut_kept {s : State} {y n b c : Nat} (hy : y < 3072) (hn : n < 64) :
    RegsKept [.tilHndb, .tilHndc, .hstHistate] s (s.entryPut y n b c) := by
  have hi : 64 * y + n < 2 ^ 32 := by omega
  have htile : Chg { tiles := true } s (s.modTile y fun T => { T with hndw := T.hndw.filter fun w => w.2.1 != n }) :=
    .onModTile .refl TChg.plain
  unfold State.entryPut State.modified
  refine .trans ?_ (.setFld (by decide) (by decide))
  refine .trans ?_ (.setReg hi (by decide))
  exact (RegsKept.of_chg htile).trans (.setReg hi (by decide))

theorem State.entryPut_tile (s : State) (y n b c : Nat) :
    (s.entryPut y n b c).tile y = { s.tile y with hndw := (s.tile y).hndw.filter fun w => w.2.1 != n } := by
  rw [State.entryPut, State.modified_chg.tile_eq, Chg.setReg.tile_eq, Chg.setReg.tile_eq, State.modTile_same]

theorem State.entryPut_regs {s : State} {y n b c : Nat} (hy : y < 3072) (hn : n < 64) :
    (s.entryPut y n b c).hndRegs y n = (b % 2 ^ 64, c % 2 ^ 64) ∧ (s.entryPut y n b c).fld F.hstHistate_modified 0 = 1 ∧
    ∀ m < 64, m ≠ n → (s.entryPut y n b c).hndRegs y m = s.hndRegs y m := by
  have hi (k : Nat) (hk : k < 64) : 64 * y + k < 2 ^ 32 := by omega
  have hmod (k : RegKind) (j : Nat) (hj : j < 2 ^ 32) (hk : k.code ≠ RegKind.hstHistate.code) (v : State) : v.modified.reg k j = v.reg k j :=
    State.reg_setFld_ne (f := F.hstHistate_modified) _ _ (regKey_ne (by decide) hj (.inl hk))
  have hsched : (s.entryPut y n b c).sched = s.sched := State.entryPut_kept hy hn _ _ (by decide) (by decide)
  refine ⟨?_, State.fld_setFld_eq _ (by decide) (by decide), fun m hm hmn => ?_⟩
  · have hb : (s.entryPut y n b c).reg .tilHndb (64 * y + n) = b % 2 ^ 64 := by
      rw [State.entryPut, hmod _ _ (hi n hn) (by decide), State.reg_setReg_code _ (by decide), State.reg_setReg_same]
    have hc : (s.entryPut y n b c).reg .tilHndc (64 * y + n) = c % 2 ^ 64 := by
      rw [State.entryPut, hmod _ _ (hi n hn) (by decide), State.reg_setReg_same]
    have hnone : (((s.tile y).hndw.filter fun w => w.2.1 != n).filter fun w => decide (w.1 ≤ s.sched) && w.2.1 == n) = [] := by
      rw [List.filter_filter, List.filter_eq_nil_iff]
      intro w _
      simp only [Bool.and_eq_true, beq_iff_eq, bne_iff_ne, not_and]
      exact fun ⟨_, h⟩ h' => h' h
    rw [State.hndRegs, hsched, State.entryPut_tile, hnone, hb, hc]
    rfl
  · have hreg (k : RegKind) (hk : k = .tilHndb ∨ k = .tilHndc) : (s.entryPut y n b c).reg k (64 * y + m) = s.reg k (64 * y + m) := by
      have hne (k' : RegKind) : regKey k (64 * y + m) ≠ regKey k' (64 * y + n) := regKey_ne (hi n hn) (hi m hm) (.inr (by omega))
      rw [State.entryPut, hmod _ _ (hi m hm) (by rcases hk with rfl | rfl <;> decide), State.reg_setReg_ne _ _ (hne _), State.reg_setReg_ne _ _ (hne _)]
      exact Chg.reg_eq (P := { tiles := true }) (.onModTile .refl TChg.plain) _ _
    have hsame : (((s.tile y).hndw.filter fun w => w.2.1 != n).filter fun w => decide (w.1 ≤ s.sched) && w.2.1 == m) =
        (s.tile y).hndw.filter fun w => decide (w.1 ≤ s.sched) && w.2.1 == m := by
      rw [List.filter_filter]
      refine List.filter_congr fun w _ => ?_
      by_cases hw : w.2.1 = m
      · simp [hw, hmn]
      · simp [hw]
    rw [State.hndRegs, hsched, State.entryPut_tile, hsame, hreg _ (.inl rfl), hreg _ (.inr rfl)]
    rfl

/-- A write of the base of an entry unlocks it (R106). -/
theorem entryWrite_base {b c v : Nat} (h : ¬(bits c 15 15 = 1 ∧ bits c 2 0 = 7)) : bits (entryWrite b c false v).1.2 15 15 = 0 := by
  rw [entryWrite, if_neg h]
  exact bits_putBits_same _ _ _ _ (by decide)

theorem tIx_lt {s : State} {t : Xy} (h : s.inMesh t = true) : tIx t < 3072 := by
  simp only [State.inMesh, Bool.and_eq_true, decide_eq_true_eq] at h
  obtain ⟨hx, hy⟩ := h
  have hcols : s.cols ≤ 64 := by
    unfold State.cols
    split_ifs <;> decide
  unfold tIx
  omega

/-! ## The slot map (R132) -/

theorem getLsbD_slotMask {a b k : Nat} (hab : a ≤ b) (hk : k < 4096) : (slotMask a b).getLsbD k = decide (a ≤ k ∧ k ≤ b) := by
  have hpow : 2 ^ (b + 1) - 2 ^ a = 2 ^ a * (2 ^ (b + 1 - a) - 1) := by
    rw [Nat.mul_sub_one, ← pow_add]
    congr 2
    omega
  rw [slotMask, BitVec.getLsbD_ofNat, hpow, Nat.testBit_two_pow_mul, Nat.testBit_two_pow_sub_one]
  by_cases ha : a ≤ k
  · have hiff : k - a < b + 1 - a ↔ k ≤ b := by omega
    simp [hk, ha, hiff]
  · simp [ha]

/-! ### The firewall's window and absent dies (R16, R350) -/

section Windows
variable {s : State} {w : Writer} {off : Nat}

theorem execFirewallWindowWrite_eq {fn : Nat} {k : Fin 8} {lim : Bool} {v : BitVec 64} (hfn : fn < 16)
    (hhost : w = .host 0 → s.ready = true ∧ s.fuses.hostset = true) (hpf : ∀ n, w = .host n → n = 0) :
    exec (.firewallWindowWrite w fn k lim off v) s = .next (s.rwWrite (if lim then .hstFwlim else .hstFwbase) (8 * fn + k.val) v.toNat) := by
  change execFirewallWindowWrite w fn k lim off v s = _
  simp only [execFirewallWindowWrite]
  rw [if_pos hfn]
  cases w with
  | firmware n => rfl
  | host n =>
    obtain rfl := hpf n rfl
    obtain ⟨hready, hset⟩ := hhost rfl
    simp only [State.fwWrite, hready, hset]
    rfl

theorem execFirewallWindowWrite_vf {fn n : Nat} {k : Fin 8} {lim : Bool} {v : BitVec 64} :
    exec (.firewallWindowWrite (.host (n + 1)) fn k lim off v) s = .next s := by
  change execFirewallWindowWrite _ fn k lim off v s = _
  simp only [execFirewallWindowWrite]
  split_ifs
  · rfl
  · rfl

theorem execAbsentAccess_eq {d : Nat} {v : Option (BitVec 64)} (hdie : windowDie off = some d) (habs : s.dieAbsent d = true)
    (hw : s.mayWrite w = true) : exec (.absentAccess w off v) s = .next (s.event 0x0010 8 0 [(8, off)]) := by
  change execAbsentAccess w off v s = _
  have hoff : 0x1000000 ≤ off ∧ off < 0x9000000 := by
    simp only [windowDie] at hdie
    split_ifs at hdie
    omega
  have hev : (match windowDie off with | some d => s.dieAbsent d | none => false) = true := by
    rw [hdie]
    exact habs
  have hno : ¬(0x8000 ≤ off ∧ off < 0x9000) := by omega
  have hno' : ¬(off < 0x10000 ∨ 0x10000000 ≤ off) := by omega
  cases v with
  | none =>
    cases w with
    | firmware n =>
      simp only [execAbsentAccess, hdie, habs]
      rfl
    | host fn =>
      simp only [State.mayWrite, Bool.and_eq_true, beq_iff_eq] at hw
      simp only [execAbsentAccess, hdie, habs]
      rw [if_pos ⟨hw.1.1, hw.1.2⟩]
      rfl
  | some v =>
    cases w with
    | firmware n =>
      simp only [execAbsentAccess, hdie, habs, State.gated_of_mayWrite hw]
      rfl
    | host fn =>
      simp only [execAbsentAccess, hdie, habs, State.gated_of_mayWrite hw]
      rw [if_neg hno, if_neg hno']
      rfl

end Windows

/-! ### The windows of a tile that does not run (R106, R111, R132, R173) -/

/-- A tile of the mesh on a die that is there, written by one who may, while no image loads and the tile does not run. -/
structure State.Opens (s : State) (w : Writer) (t : Xy) : Prop where
  mesh : s.inMesh t = true
  present : s.dieAbsent (dieOf (xyOf (tIx t))) = false
  mayWrite : s.mayWrite w = true
  loading : s.loading = none
  idle : s.tileRuns (tIx t) = false

section Tile
variable {s : State} {w : Writer} {off : Nat} {t : Xy}

theorem State.Opens.idle' (h : s.Opens w t) : ¬s.tileRuns (tIx t) = true := by
  rw [h.idle]
  exact Bool.false_ne_true

theorem State.Opens.write (h : s.Opens w t) {k : RegKind} (hk : regDie ⟨k, tIx t⟩ = some (dieOf (xyOf (tIx t)))) (v : Nat) (f : State → State) :
    s.moduleWrite w ⟨k, tIx t⟩ off v f = f s := by
  refine State.moduleWrite_eq h.mayWrite h.loading fun d hd => ?_
  rw [accessDie, hk] at hd
  rw [← Option.some.inj hd]
  exact h.present

theorem execHandleEntryWrite_eq (h : s.Opens w t) {n : Fin 64} {ctl : Bool} {v : BitVec 64}
    (hlock : ¬(bits (s.hndLatest (tIx t) n).2 15 15 = 1 ∧ bits (s.hndLatest (tIx t) n).2 2 0 = 7)) :
    let y := tIx t
    let r := (entryWrite (s.hndLatest y n).1 (s.hndLatest y n).2 ctl v.toNat).1
    Yields (.handleEntryWrite w t n ctl off v) s fun u =>
      u.hndRegs y n = (r.1 % 2 ^ 64, r.2 % 2 ^ 64) ∧ u.fld F.hstHistate_modified 0 = 1 ∧
      (ctl = false → bits (u.hndRegs y n).2 15 15 = 0) ∧ (u.tile y).scratch = (s.tile y).scratch ∧
      ∀ m : Fin 64, m ≠ n → u.hndRegs y m = s.hndRegs y m := by
  intro y r
  have hy : y < 3072 := tIx_lt h.mesh
  generalize hv : (if (entryWrite (s.hndLatest y n).1 (s.hndLatest y n).2 ctl v.toNat).2 = true then
    s.handleFault y (s.tile y).advance.pc n else s) = x
  have hxc : Chg { fns := true, regs := true } s x := by
    rw [← hv]
    exact .ite State.handleFault_chg .refl
  have hxr : RegsKept [.tilSpfault, .tilSpcnt, .hstEvstat] s x := by
    rw [← hv]
    exact .ite (.handleFault (by omega)) .refl
  have hexec : execHandleEntryWrite w t n ctl off v s = .next (x.entryPut y n r.1 r.2) := by
    simp only [execHandleEntryWrite]
    rw [h.write rfl, if_neg h.idle', if_neg hlock, ← hv]
    rfl
  obtain ⟨hput, hmodf, hothers⟩ := State.entryPut_regs (s := x) (b := r.1) (c := r.2) hy n.isLt
  refine ⟨_, hexec, hput, hmodf, fun hctl => ?_, ?_, fun m hm => ?_⟩
  · subst hctl
    rw [hput]
    change bits (r.2 % 2 ^ 64) 15 15 = 0
    rw [bits_mod64 _ _ _ (by decide)]
    exact entryWrite_base hlock
  · rw [State.entryPut_tile, hxc.tile_eq]
  · rw [hothers m m.isLt (fun e => hm (Fin.ext e))]
    have hi : 64 * y + m.val < 2 ^ 32 := by omega
    have hsched : x.sched = s.sched := hxr _ _ (by decide) (by decide)
    rw [State.hndRegs, hxc.tile_eq, hsched, hxr .tilHndb _ hi (by decide), hxr .tilHndc _ hi (by decide), State.hndRegs]

/-- The slots from `a` to `b` of `full`, set or cleared. -/
theorem getLsbD_slots {full : BitVec 4096} {a b k : Nat} (hle : a ≤ b) (hk : k < 4096) :
    (full &&& ~~~slotMask a b).getLsbD k = (if a ≤ k ∧ k ≤ b then false else full.getLsbD k) ∧
      (full ||| slotMask a b).getLsbD k = (if a ≤ k ∧ k ≤ b then true else full.getLsbD k) := by
  rw [BitVec.getLsbD_and, BitVec.getLsbD_or, BitVec.getLsbD_not, getLsbD_slotMask hle hk]
  by_cases hin : a ≤ k ∧ k ≤ b
  · rw [if_pos hin, if_pos hin]
    simp [hin]
  · rw [if_neg hin, if_neg hin]
    simp [hin, hk]

theorem execSlotCommand_eq (h : s.Opens w t) {v : BitVec 32} (hop : bits v.toNat 31 30 = 1 ∨ bits v.toNat 31 30 = 2)
    (hle : bits v.toNat 11 0 ≤ bits v.toNat 27 16) :
    Yields (.slotCommand w t off v) s fun u =>
      (∀ k < 4096, (u.tile (tIx t)).full.getLsbD k = if bits v.toNat 11 0 ≤ k ∧ k ≤ bits v.toNat 27 16
        then decide (bits v.toNat 31 30 = 2) else (s.tile (tIx t)).full.getLsbD k) ∧
      (u.tile (tIx t)).scratch = (s.tile (tIx t)).scratch ∧ u.regs = s.regs := by
  have hle' : ¬bits v.toNat 27 16 < bits v.toNat 11 0 := Nat.not_lt.mpr hle
  have hexec : exec (.slotCommand w t off v) s = execSlotCommand w t off v s := rfl
  simp only [execSlotCommand] at hexec
  rw [h.write rfl, if_neg h.idle', if_neg hle'] at hexec
  rcases hop with h1 | h2
  · rw [if_pos h1] at hexec
    refine ⟨_, hexec, fun k hk => ?_, ?_, rfl⟩
    · rw [State.modTile_same, h1]
      exact (getLsbD_slots hle hk).1
    · rw [State.modTile_same]
      rfl
  · rw [if_neg (by omega), if_pos h2] at hexec
    refine ⟨_, hexec, fun k hk => ?_, ?_, rfl⟩
    · rw [State.modTile_same, h2]
      exact (getLsbD_slots hle hk).2
    · rw [State.modTile_same]
      rfl

theorem execMxctlWrite_eq (h : s.Opens w t) {v : BitVec 32} (hex : s.img.isSome = true → s.expert = true) :
    let y := tIx t
    Yields (.mxctlWrite w t off v) s fun u =>
      u.fld F.tilMxctl_rset y = bits v.toNat 14 14 ∧ u.fld F.tilMxctl_rrow y = bits v.toNat 13 8 ∧
      u.fld F.tilMxctl_local y = bits v.toNat 0 0 ∧ u.tiles = s.tiles := by
  intro y
  have hy : y < 3072 := tIx_lt h.mesh
  have hidle := h.idle'
  generalize hx : (s.setFld F.tilMxctl_rset y (bits v.toNat 14 14)).setFld F.tilMxctl_rrow y (bits v.toNat 13 8) = x
  have hrset : x.fld F.tilMxctl_rset y = bits v.toNat 14 14 := by
    rw [← hx, State.fld_setFld_bits _ (by decide)]
    exact State.fld_setFld_eq _ (by decide) (bits_lt ..)
  have hrrow : x.fld F.tilMxctl_rrow y = bits v.toNat 13 8 := by
    rw [← hx]
    exact State.fld_setFld_eq _ (by decide) (bits_lt ..)
  have hxc : Chg { regs := true } s x := by
    rw [← hx]
    exact .via (.via .refl .setFld) .setFld
  have hxidle : ¬x.tileRuns (tIx t) = true := by
    rw [← hx]
    exact hidle
  have hxex : ¬(x.img.isSome = true ∧ x.expert = false) := by
    rw [hxc.img_eq]
    rintro ⟨himg, hexp⟩
    rw [State.expert, hxc.img_eq] at hexp
    exact absurd ((hex himg).symm.trans hexp) (by decide)
  have hexec : execMxctlWrite w t off v s = .next (if bits v.toNat 0 0 = x.fld F.tilMxctl_local y then x
      else (x.setFld F.tilMxctl_local y (bits v.toNat 0 0)).modified) := by
    simp only [execMxctlWrite]
    rw [h.write rfl, show (s.setFld F.tilMxctl_rset (tIx t) _).setFld F.tilMxctl_rrow (tIx t) _ = x from hx,
      if_neg hxidle, if_neg hxex]
  refine ⟨_, hexec, ?_⟩
  have hy' : y < 2 ^ 32 := by omega
  split_ifs with hloc
  · exact ⟨hrset, hrrow, hloc.symm, hxc.tiles_eq⟩
  · refine ⟨?_, ?_, ?_, ?_⟩
    · rw [State.modified, State.fld_setFld_kind _ (by decide) hy' (by decide), State.fld_setFld_bits _ (by decide), hrset]
    · rw [State.modified, State.fld_setFld_kind _ (by decide) hy' (by decide), State.fld_setFld_bits _ (by decide), hrrow]
    · rw [State.modified, State.fld_setFld_kind _ (by decide) hy' (by decide)]
      exact State.fld_setFld_eq _ (by decide) (bits_lt ..)
    · rw [State.modified_chg.tiles_eq, Chg.setFld.tiles_eq, hxc.tiles_eq]

theorem execVctlWrite_eq (h : s.Opens w t) {v : BitVec 32} (hex : s.img.isSome = true → s.expert = true) :
    let y := tIx t
    Yields (.vctlWrite w t off v) s fun u =>
      u.fld F.tilVctl_keep y = bits v.toNat 0 0 ∧ u.fld F.hstHistate_modified 0 = 1 ∧ u.tiles = s.tiles := by
  intro y
  have hy : y < 3072 := tIx_lt h.mesh
  have hnex : ¬(s.img.isSome = true ∧ s.expert = false) := fun ⟨himg, hexp⟩ => absurd ((hex himg).symm.trans hexp) (by decide)
  have hexec : execVctlWrite w t off v s = .next (s.rwWrite .tilVctl y v.toNat).modified := by
    simp only [execVctlWrite]
    rw [h.write rfl, if_neg h.idle', if_neg hnex]
  refine ⟨_, hexec, ?_, State.fld_setFld_eq _ (by decide) (by decide), ?_⟩
  · rw [State.modified, State.fld_setFld_kind _ (by decide) (show y < 2 ^ 32 by omega) (by decide), s.fld_rwWrite .tilVctl y _ (by decide)]
    rfl
  · rw [State.modified_chg.tiles_eq, Chg.rwWrite.tiles_eq]

theorem execVcwordWrite_eq (h : s.Opens w t) {v : BitVec 64} (hsop : sopDefined (bits v.toNat 45 40) = true) :
    let y := tIx t
    let k := 8 * s.fld F.tilVcsel_chain y + s.fld F.tilVcsel_stage y
    exec (.vcwordWrite w t off v) s = .next (s.setTile y { s.tile y with chains := mput (s.tile y).chains k (BitVec.ofNat 46 v.toNat) }) := by
  intro y k
  change execVcwordWrite w t off v s = _
  simp only [execVcwordWrite]
  rw [h.write rfl, if_neg h.idle', if_neg (by simp [hsop])]
  rfl

end Tile

/-- Settles O30: writes by access code (`bits_writeFields`), of a present die's module block (`State.moduleWrite_eq`), and of handle entries
(`State.entryPut_regs`). -/
theorem registerAndWindowWrites : Obligations.RegisterAndWindowWrites := by
  refine ⟨fun s w r off v hw hc hi hdma hl hd => ⟨_, execRegisterWrite_common hw hc hi hdma hl hd, ?_⟩, fun s w off => ⟨?_, ?_, ?_, ?_, ?_⟩⟩
  · obtain ⟨hf, hreg, hwr⟩ := s.lastWrite_written r.kind r.idx v.toNat (bothDies r.kind && decide (0xA000000 ≤ off))
    refine ⟨fun f hm => ?_, hreg, State.lastWrite_chg.tiles_eq, State.lastWrite_chg.ext_eq, hwr⟩
    have hold : s.fld f r.idx = bits (s.reg r.kind r.idx) f.hi f.lo := by
      rw [State.fld, r.kind.kind_of_mem_fields f hm]
    rw [hf f hm, hold]
    rfl
  · exact fun fn k lim v hfn hhost hpf => execFirewallWindowWrite_eq hfn hhost hpf
  · intro fn k lim v n hw
    subst hw
    exact execFirewallWindowWrite_vf
  · exact fun d v hdie habs hw => execAbsentAccess_eq hdie habs hw
  · intro k i d hdie habs
    simp only [State.readReg, hdie, habs, Bool.true_or, if_true]
  · intro t hmesh hpresent hw hl hruns y T
    have h : s.Opens w t := ⟨hmesh, hpresent, hw, hl, hruns⟩
    exact ⟨fun n ctl v hlock => execHandleEntryWrite_eq h hlock, fun v hop hle => execSlotCommand_eq h hop hle,
      fun v hex => ⟨execMxctlWrite_eq h hex, execVctlWrite_eq h hex⟩, fun v hsop => execVcwordWrite_eq h hsop⟩

end Sys2Proof.Machine
end

section
/-!
The flits of a port: sent, kept, received and delivered (R362 to R379).
-/
namespace Sys2Proof.Machine
set_option Elab.async false

/-! ## The layout of a flit (R362) -/

theorem bits_flitHeader {f : Flit} (hk : f.kind < 8) (hs : f.seq < 4096) (ha : f.ackseq < 4096) (hc : f.cclass < 4) (hn : f.ccount < 4096) :
    let h := flitHeader f
    bits h 63 61 = f.kind ∧ bits h 60 49 = f.seq ∧ bits h 48 37 = f.ackseq ∧ bits h 36 36 = b2n f.nak ∧ bits h 35 34 = f.cclass ∧
    bits h 33 22 = f.ccount ∧ bits h 21 21 = b2n f.sop ∧ bits h 20 20 = b2n f.eop ∧ bits h 19 0 = f.spec.toNat ∧ h < 2 ^ 64 := by
  intro h
  have hspec := f.spec.isLt
  have hb (b : Bool) : b2n b < 2 := by cases b <;> decide
  have h1 := hb f.nak
  have h2 := hb f.sop
  have h3 := hb f.eop
  simp only [h, bits, flitHeader]
  norm_num at *
  refine ⟨?_, ?_, ?_, ?_, ?_, ?_, ?_, ?_, ?_, ?_⟩ <;> omega

theorem b2n_eq_one (b : Bool) : (b2n b == 1) = b := by cases b <;> rfl

/-- A flit laid out reads back. -/
theorem flitOf_flitBytes {f : Flit} (hk : f.kind < 8) (hs : f.seq < 4096) (ha : f.ackseq < 4096) (hc : f.cclass < 4) (hn : f.ccount < 4096)
    (hp : f.payload.length = 240) : (flitBytes f).length = 248 ∧ flitOf (flitBytes f) = f := by
  obtain ⟨h1, h2, h3, h4, h5, h6, h7, h8, h9, hlt⟩ := bits_flitHeader hk hs ha hc hn
  have hpad : padPayload f.payload = f.payload := by
    rw [padPayload, hp, Nat.sub_self, List.replicate_zero, List.append_nil, List.take_of_length_le (by omega)]
  have htake : (flitBytes f).take 8 = leBytes 8 (flitHeader f) := by
    rw [flitBytes, List.take_left' (leBytes_length ..)]
  have hdrop : (flitBytes f).drop 8 = f.payload := by
    rw [flitBytes, List.drop_left' (leBytes_length ..), hpad]
  have hhead : leNat ((flitBytes f).take 8) = flitHeader f := by
    rw [htake, leNat_leBytes]
    exact Nat.mod_eq_of_lt hlt
  refine ⟨by rw [flitBytes, hpad, List.length_append, leBytes_length, hp], ?_⟩
  simp only [flitOf, hhead, hdrop, h1, h2, h3, h4, h5, h6, h7, h8, h9, b2n_eq_one, BitVec.ofNat_toNat, BitVec.setWidth_eq]
  rw [List.take_of_length_le (by omega)]

/-! ## A link cycle (R363 to R370) -/

/-- What sending leaves of a link: its counts of cycles, what has come in, and what waits to be replayed or sent beside the flit sent. -/
structure Link.Kept (L M : Link) : Prop where
  cyc : M.cyc = L.cyc
  ccNext : M.ccNext = L.ccNext
  pool : M.pool = L.pool
  e : M.e = L.e

theorem Link.Kept.refl (L : Link) : L.Kept L := ⟨rfl, rfl, rfl, rfl⟩

theorem Link.Kept.trans {L M N : Link} (h : L.Kept M) (k : M.Kept N) : L.Kept N :=
  ⟨k.cyc.trans h.cyc, k.ccNext.trans h.ccNext, k.pool.trans h.pool, k.e.trans h.e⟩

theorem State.modLink_kept (s : State) (p : Nat) {f : Link → Link} (hf : ∀ L : Link, L.Kept (f L)) : (s.link p).Kept ((s.modLink p f).link p) := by
  rw [State.modLink_same]
  exact hf _

theorem State.sendNew_link (s : State) (p : Nat) (f : Flit) : (s.sendNew p f).link p =
    { s.link p with
      seq := ((s.link p).seq + 1) % 4096, timer := if (s.link p).replayBuf.isEmpty then (s.link p).cyc else (s.link p).timer
      replayBuf := (s.link p).replayBuf ++ [{ (s.link p).stamp f with seq := (s.link p).seq }]
      out := some { (s.link p).stamp f with seq := (s.link p).seq } } := by
  rw [State.sendNew, State.modLink_same, State.takeCredit_chg.link_eq]

theorem State.sendNew_kept (s : State) (p : Nat) (f : Flit) (g : Link → Link) (hg : ∀ L : Link, L.Kept (g L)) :
    (s.link p).Kept (((s.sendNew p f).modLink p g).link p) := by
  have hsent : (s.link p).Kept ((s.sendNew p f).link p) := by
    rw [State.sendNew_link]
    exact ⟨rfl, rfl, rfl, rfl⟩
  exact hsent.trans (State.modLink_kept _ _ hg)

theorem Link.Kept.ite {L : Link} {p : Nat} {c : Prop} [Decidable c] {u v : State} (h : L.Kept (u.link p)) (k : L.Kept (v.link p)) :
    L.Kept ((if c then u else v).link p) := by
  split
  · exact h
  · exact k

theorem State.linkSend_kept (s : State) (p : Nat) : (s.link p).Kept ((s.linkSend p).link p) := by
  unfold State.linkSend
  extract_lets L free idle sched first
  have hidle : (s.link p).Kept ((idle s).link p) := s.modLink_kept p fun _ => ⟨rfl, rfl, rfl, rfl⟩
  have hnew (f : Flit) (g : Link → Link) (hg : ∀ L : Link, L.Kept (g L)) : (s.link p).Kept (((s.sendNew p f).modLink p g).link p) :=
    s.sendNew_kept p f g hg
  have hsched : ∀ t, sched s = some t → (s.link p).Kept (t.link p) := by
    intro t ht
    simp only [sched] at ht
    split at ht
    · split_ifs at ht
      cases ht
      exact hnew _ _ fun _ => ⟨rfl, rfl, rfl, rfl⟩
    · cases ht
  have hfall : (s.link p).Kept (((sched s).getD (idle s)).link p) := by
    cases h : sched s with
    | none => exact hidle
    | some t => exact hsched t h
  have hfirst : ∀ t, first = some t → (s.link p).Kept (t.link p) := by
    intro t ht
    simp only [first] at ht
    split_ifs at ht
    exact hsched t ht
  split
  · exact s.modLink_kept p fun _ => ⟨rfl, rfl, rfl, rfl⟩
  · refine .ite ?_ hidle
    dsimp only
    refine .ite ?_ (s.modLink_kept p fun _ => ⟨rfl, rfl, rfl, rfl⟩)
    rw [Chg.satAdd.link_eq]
    exact s.modLink_kept p fun _ => ⟨rfl, rfl, rfl, rfl⟩
  · refine .ite hidle ?_
    clear_value first sched idle
    cases first with
    | some t => exact hfirst t rfl
    | none =>
      dsimp only
      split
      · refine .ite (hnew _ _ fun _ => ⟨rfl, rfl, rfl, rfl⟩) ?_
        split
        · exact .ite (hnew _ _ fun _ => ⟨rfl, rfl, rfl, rfl⟩) hfall
        · exact hfall
      · exact .ite (hnew _ _ fun _ => ⟨rfl, rfl, rfl, rfl⟩) hfall
      · exact hfall

theorem State.linkSend_ctl {s : State} {p : Nat} {c : Flit} {cs : List Flit} (h : (s.link p).txC = c :: cs) :
    (s.linkSend p).link p = { s.link p with out := some { (s.link p).stamp c with seq := 0 }, txC := cs } := by
  simp only [State.linkSend, h]
  rw [State.modLink_same]

theorem Chg.someRuns_eq {P : Foot} {s u : State} (h : Chg P s u) (hP : P.regions = false := by rfl) : u.someRuns = s.someRuns := by
  unfold State.someRuns
  exact congrArg (List.range 8).any (funext fun r => congrArg Region.running (h.region_eq r hP))

theorem State.linkSend_replay {s : State} {p : Nat} {r : Flit} {rs : List Flit} (hst : s.portState p = 3) (hc : (s.link p).txC = [])
    (h : (s.link p).replayQ = r :: rs) :
    (s.linkSend p).link p = { s.link p with out := some ((s.link p).stamp r), replayQ := rs } ∧
    (s.linkSend p).fld F.lnkErr_replays p = s.fld F.lnkErr_replays p := by
  have hsend : s.linkSend p = if s.someRuns = true then
      (s.modLink p fun L => { L with out := some (L.stamp r), replayQ := rs }).satAdd F.lnkBudget_used p 1
      else s.modLink p fun L => { L with out := some (L.stamp r), replayQ := rs } := by
    simp only [State.linkSend, hc, h, if_pos hst, Chg.someRuns_eq .modLink]
  rw [hsend]
  split
  · rw [Chg.satAdd.link_eq, State.modLink_same, State.satAdd, State.fld_setFld_code _ (by decide), Chg.modLink.fld_eq]
    exact ⟨rfl, rfl⟩
  · rw [State.modLink_same, Chg.modLink.fld_eq]
    exact ⟨rfl, rfl⟩

theorem State.linkSend_mgmt {s : State} {p : Nat} {m : Flit} {ms : List Flit} (hst : s.portState p = 3) (hc : (s.link p).txC = [])
    (hq : (s.link p).replayQ = []) (ho : (s.link p).outS = []) (hm : (s.link p).txM = m :: ms) (hfree : (s.link p).replayBuf.length < 1024)
    (hcred : s.hasCredit p 2 = true) :
    (s.linkSend p).link p = { (s.sendNew p m).link p with txM := ms } := by
  have hnone : (s.link p).nextSched (s.gen1 p) = none := by rw [Link.nextSched, ho]
  have hgo : (decide ((s.link p).replayBuf.length < 1024) && s.hasCredit p 2) = true := by simp [hfree, hcred]
  simp only [State.linkSend, hc, hq, hm, hnone]
  rw [if_neg (fun h => h hst), ite_self]
  dsimp only
  rw [if_pos hgo, State.modLink_same]

/-- A replay that starts: the copies from the first on, and the timer anew (R370). -/
theorem State.startReplay_fields {s : State} {p : Nat} {g : Flit} {gs : List Flit} (h : (s.link p).replayBuf = g :: gs)
    (hrep : (s.link p).replayRep < 3) (hruns : s.someRuns = false) :
    let u := s.startReplay p
    (u.link p).replayQ = g :: gs ∧ (u.link p).replayBuf = g :: gs ∧ (u.link p).timer = (s.link p).cyc ∧ (u.link p).replayAsk = false ∧
    (u.link p).seq = (s.link p).seq ∧ (u.link p).txC = (s.link p).txC ∧ (∀ f, (u.link p).stamp f = (s.link p).stamp f) ∧
    u.portState p = s.portState p ∧
    u.fld F.lnkErr_replays p = min (s.fld F.lnkErr_replays p + 1) (2 ^ F.lnkErr_replays.width - 1) := by
  intro u
  have hne4 : (if (s.link p).replayRep ≠ 0 ∧ (s.link p).replayStart = g.seq then (s.link p).replayRep + 1 else 1) ≠ 4 := by
    split <;> omega
  have hu : u = (((s.modLink p fun L => { L with replayAsk := false }).modLink p fun L =>
      { L with replayQ := L.replayBuf, replayStart := g.seq, replayAt := some L.cyc, timer := L.cyc
               replayRep := if (s.link p).replayRep ≠ 0 ∧ (s.link p).replayStart = g.seq then (s.link p).replayRep + 1 else 1
               replayNo := L.replayNo + 1 }).satAdd F.lnkErr_replays p 1) := by
    simp only [u, State.startReplay, State.modLink_same, h, Chg.someRuns_eq .modLink, hruns, Bool.false_eq_true, if_false, if_true, hne4]
  rw [hu, Chg.satAdd.link_eq, State.modLink_same, State.modLink_same]
  refine ⟨h, h, rfl, rfl, rfl, rfl, fun _ => rfl, ?_, ?_⟩
  · rw [State.portState, State.satAdd, State.fld_setFld_code _ (by decide)]
    rfl
  · have hlt : min (s.fld F.lnkErr_replays p + 1) (2 ^ F.lnkErr_replays.width - 1) < 2 ^ F.lnkErr_replays.width :=
      Nat.lt_of_le_of_lt (Nat.min_le_right ..) (Nat.sub_lt (Nat.two_pow_pos _) Nat.one_pos)
    rw [State.satAdd, State.fld_setFld_same _ _ _ _ (by decide) (by decide), Chg.modLink.fld_eq, Chg.modLink.fld_eq]
    exact Nat.mod_eq_of_lt hlt

/-- A link cycle of a port that is up (R366). -/
theorem execLinkCycle_up {s : State} {p : Fin 32} (h : s.portState p = 3) :
    Yields (.linkCycle p) s fun u =>
      let v := (if (s.link p).replayAsk = true then s.startReplay p else s).linkSend p
      u.link p = { v.link p with
        cyc := (v.link p).cyc + 1, ccNext := ((v.link p).ccNext + 1) % 3
        grpUsed := if ((v.link p).cyc + 1) % 64 = 0 then 0 else (v.link p).grpUsed
        crc := ((v.link p).out.map flitCrc).getD 0, freshR := [], freshS := 0 } ∧
      ∀ f i, u.fld f i = v.fld f i := by
  refine ⟨_, rfl, ?_⟩
  dsimp only
  have hask : ((s.link p).replayAsk && s.portState p == 3) = (s.link p).replayAsk := by rw [h]; exact Bool.and_true _
  have hocc (v : State) (n : Nat) : Chg { occ := true } v (if v.held = true then v else (v.occAdd 6 p 1).occAdd 5 p n) :=
    .ite .refl (.via (.via .refl State.occAdd_chg) State.occAdd_chg)
  rw [if_pos (.inl h), State.modLink_same, hask, (hocc _ _).link_eq]
  exact ⟨rfl, fun f i => Chg.modLink.fld_eq .. |>.trans ((hocc _ _).fld_eq ..)⟩

/-! ## What comes in (R364, R367, R369, R373, R375 to R378) -/

/-- What a header leaves of a link: all that says which flits are accepted, and where they are kept. -/
structure Link.Open (L M : Link) : Prop where
  pool : M.pool = L.pool
  e : M.e = L.e
  rxSop : M.rxSop = L.rxSop
  bufferFree : M.bufferFree = L.bufferFree

theorem Link.Open.of_pool {L M : Link} (hp : M.pool = L.pool) (he : M.e = L.e) (hr : M.rxSop = L.rxSop) : L.Open M :=
  ⟨hp, he, hr, by
    have hused : M.used = L.used := by
      funext c
      unfold Link.used
      rw [hp]
    funext c
    unfold Link.bufferFree
    rw [hused]⟩

theorem Link.release_open (L : Link) (ack : Nat) : L.Open (L.release ack) := by
  unfold Link.release
  split
  · exact .of_pool rfl rfl rfl
  · exact .of_pool rfl rfl rfl

theorem Link.Open.trans {L M N : Link} (h : L.Open M) (k : M.Open N) : L.Open N :=
  ⟨k.pool.trans h.pool, k.e.trans h.e, k.rxSop.trans h.rxSop, k.bufferFree.trans h.bufferFree⟩

theorem State.modLink_open (s : State) (p : Nat) {f : Link → Link} (hf : ∀ L : Link, L.Open (f L)) : (s.link p).Open ((s.modLink p f).link p) := by
  rw [State.modLink_same]
  exact hf _

theorem State.giveCredits_open (s : State) (p c k : Nat) : (s.link p).Open ((s.giveCredits p c k).link p) := by
  unfold State.giveCredits
  refine .trans ?_ (State.modLink_open _ _ fun _ => .of_pool rfl rfl rfl)
  rw [Chg.setFld.link_eq, Chg.setFld.link_eq]
  exact .of_pool rfl rfl rfl

theorem State.headerIn_open (s : State) (p : Nat) (f : Flit) : (s.link p).Open ((s.headerIn p f).link p) := by
  have hin (k : Nat) : (s.link p).Open (((s.giveCredits p f.cclass k).modLink p fun L =>
      { L.release f.ackseq with seen := mput L.seen f.cclass f.ccount }).link p) :=
    (s.giveCredits_open p f.cclass k).trans (State.modLink_open _ _ fun L =>
      (L.release_open f.ackseq).trans (.of_pool rfl rfl rfl))
  unfold State.headerIn
  extract_lets k v L recent start
  split
  · exact (hin _).trans (State.modLink_open _ _ fun _ => .of_pool rfl rfl rfl)
  · exact hin _

/-- A data flit whose CRC is right, after its header (R364). -/
theorem execFlitReceive_data {s : State} {p : Fin 32} {b : List Byte} (h : s.portState p = 3) (hkind : (flitOf b).kind ≠ 0 ∧ (flitOf b).kind < 4)
    (hclass : (flitOf b).cclass ≤ 2) :
    exec (.flitReceive p b (crc64 b)) s = .next ((s.headerIn p (flitOf b)).dataFlit p (flitOf b)) := by
  have hok : (crc64 b != crc64 b || decide (4 < (flitOf b).kind) || decide (2 < (flitOf b).cclass)) = false := by
    simp only [bne_self_eq_false, Bool.false_or, Bool.or_eq_false_iff, decide_eq_false_iff_not]
    omega
  show execFlitReceive p b (crc64 b) s = _
  simp only [execFlitReceive]
  rw [if_neg (fun hdown => hdown.1 h), hok, if_neg Bool.false_ne_true, if_neg (fun h4 => by omega), if_neg hkind.1, if_neg (by omega)]

theorem execFlitReceive_badCrc {s : State} {p : Fin 32} {b : List Byte} {crc : BitVec 64} (h : s.portState p = 3) (hcrc : crc ≠ crc64 b) :
    exec (.flitReceive p b crc) s = .next ((s.modLink p Link.enterNak).satAdd F.lnkErr_crcerr p 1) := by
  have hbad : (crc != crc64 b) = true := bne_iff_ne.2 hcrc
  show execFlitReceive p b crc s = _
  simp only [execFlitReceive]
  rw [if_neg (fun hdown => hdown.1 h), hbad, Bool.true_or, Bool.true_or, if_pos rfl]

/-- What accepting a flit in sequence does to its link (R364). -/
def Link.accepted (L : Link) : Link :=
  { L with e := (L.e + 1) % 4096, nakPend := false, unadv := L.unadv + 1, unadvAt := if L.unadv = 0 then L.cyc else L.unadvAt }

theorem State.dataFlit_inSequence {s : State} {p : Nat} {f : Flit} (hseq : f.seq = (s.link p).e) (he : (s.link p).e < 4096)
    (hfree : (s.link p).bufferFree (f.kind - 1) = true) :
    s.dataFlit p f = if f.kind = 1 then (s.modLink p Link.accepted).acceptSched p f
      else (s.modLink p Link.accepted).modLink p fun L => { L with pool := L.pool ++ [(f, 0, 0)] } := by
  have hd : (f.seq + 4096 - (s.link p).e) % 4096 = 0 := by omega
  simp only [State.dataFlit, State.acceptFlit]
  rw [if_pos hd, if_pos hfree]
  rfl

theorem Link.enterNak_fields (L : Link) : L.enterNak.pool = L.pool ∧ L.enterNak.e = L.e ∧ L.enterNak.nakPend = true := by
  cases h : L.nakPend with
  | true => simp only [Link.enterNak, h, if_true, and_self]
  | false => simp [Link.enterNak, h, Link.ackPoint]

/-- A data flit ahead of the one expected (R367). -/
theorem State.dataFlit_ahead {s : State} {p : Nat} {f : Flit} (h0 : 0 < (f.seq + 4096 - (s.link p).e) % 4096)
    (hlt : (f.seq + 4096 - (s.link p).e) % 4096 < 2048) : s.dataFlit p f = s.modLink p Link.enterNak := by
  simp only [State.dataFlit]
  rw [if_neg (by omega), if_pos hlt]

/-- A scheduled flit accepted waits for its due cycle (R377). -/
theorem State.acceptSched_due {s : State} {p : Nat} {f : Flit} {t0 : Nat} (hgen : s.gen1 p = false)
    (hrun : s.launchOrigin (bits f.spec.toNat 19 17) = some t0) :
    ((s.acceptSched p f).link p).e = (s.link p).e ∧
    ((s.acceptSched p f).link p).pool = (s.link p).pool ++
      [(f, (dueCycle t0 s.sched (bits f.spec.toNat 16 0)).toNat, if f.sop then f.seq else (s.link p).rxSop)] := by
  have hlate (v : State) (c : Prop) [Decidable c] : Chg { fns := true, regs := true, reqs := true } v
      (if c then (v.event 0x0285 6 p []).satAdd F.lnkErr_late p 1 else v) :=
    .ite (.via (.via .refl State.event_chg) .satAdd) .refl
  unfold State.acceptSched
  extract_lets v
  have hv : Chg { links := true } s v := .ite .modLink .refl
  have hlink : v.link p = { s.link p with rxSop := if f.sop = true then f.seq else (s.link p).rxSop } := by
    simp only [v]
    split
    · exact State.modLink_same ..
    · rfl
  have hgen' : v.gen1 p = false := by
    rw [State.gen1, State.portRole, hv.fld_eq, State.mode, hv.img_eq]
    exact hgen
  have hrun' : v.launchOrigin (bits f.spec.toNat 19 17) = some t0 := by
    rw [State.launchOrigin, hv.region_eq, hv.sched_eq]
    exact hrun
  rw [hgen', if_neg Bool.false_ne_true, hrun']
  dsimp only
  rw [State.modLink_same, (hlate ..).link_eq, hv.sched_eq, hlink]
  exact ⟨rfl, rfl⟩

theorem State.headerIn_regs {s : State} {p : Nat} {f : Flit} (hp : p < 2 ^ 32) : RegsKept [.lnkPool] s (s.headerIn p f) := by
  have hgive (k : Nat) : RegsKept [.lnkPool] s (s.giveCredits p f.cclass k) := by
    have hcred : (credFld f.cclass).kind ∈ [RegKind.lnkPool] := by
      unfold credFld
      split
      · decide
      · split <;> decide
    unfold State.giveCredits
    exact ((RegsKept.setFld hp hcred).trans (.setFld hp (by decide))).trans (.of_chg .modLink)
  unfold State.headerIn
  extract_lets k v L recent start
  exact .ite (((hgive k).trans (.of_chg .modLink)).trans (.of_chg .modLink)) ((hgive k).trans (.of_chg .modLink))

theorem State.gen1_headerIn {s : State} {p : Nat} {f : Flit} (hp : p < 2 ^ 32) : (s.headerIn p f).gen1 p = s.gen1 p := by
  rw [State.gen1, State.portRole, State.mode, State.headerIn_chg.img_eq, (State.headerIn_regs hp).fld _ _ hp (by decide)]
  rfl

theorem State.sched_headerIn {s : State} {p : Nat} {f : Flit} (hp : p < 2 ^ 32) : (s.headerIn p f).sched = s.sched :=
  State.headerIn_regs hp _ _ (by decide) (by decide)

theorem State.launchOrigin_headerIn {s : State} {p r : Nat} {f : Flit} (hp : p < 2 ^ 32) : (s.headerIn p f).launchOrigin r = s.launchOrigin r := by
  rw [State.launchOrigin, State.headerIn_chg.region_eq, State.sched_headerIn hp]
  rfl

/-- A bulk or management flit in sequence enters the pool. -/
theorem execFlitReceive_accepts {s : State} {p : Fin 32} {b : List Byte} (h : s.portState p = 3)
    (hkind : (flitOf b).kind = 2 ∨ (flitOf b).kind = 3) (hclass : (flitOf b).cclass ≤ 2) (hseq : (flitOf b).seq = (s.link p).e)
    (he : (s.link p).e < 4096) (hfree : (s.link p).bufferFree ((flitOf b).kind - 1) = true) :
    Yields (.flitReceive p b (crc64 b)) s fun u =>
      (u.link p).pool = (s.link p).pool ++ [(flitOf b, 0, 0)] ∧ (u.link p).e = ((s.link p).e + 1) % 4096 ∧ (u.link p).nakPend = false := by
  have ho := s.headerIn_open p (flitOf b)
  refine ⟨_, execFlitReceive_data h (by omega) hclass, ?_⟩
  dsimp only
  rw [State.dataFlit_inSequence (by rw [hseq, ho.e]) (by rwa [ho.e]) (by rwa [ho.bufferFree]), if_neg (by omega), State.modLink_same,
    State.modLink_same]
  exact ⟨by rw [Link.accepted, ho.pool], by rw [Link.accepted, ho.e], rfl⟩

theorem execFlitReceive_sched {s : State} {p : Fin 32} {b : List Byte} {t0 : Nat} (h : s.portState p = 3)
    (hkind : (flitOf b).kind = 1) (hclass : (flitOf b).cclass ≤ 2) (hseq : (flitOf b).seq = (s.link p).e)
    (he : (s.link p).e < 4096) (hfree : (s.link p).bufferFree 0 = true) (hgen : s.gen1 p = false)
    (hrun : s.launchOrigin (bits (flitOf b).spec.toNat 19 17) = some t0) :
    Yields (.flitReceive p b (crc64 b)) s fun u =>
      (u.link p).e = ((s.link p).e + 1) % 4096 ∧
      (u.link p).pool = (s.link p).pool ++ [(flitOf b, (dueCycle t0 s.sched (bits (flitOf b).spec.toNat 16 0)).toNat,
        if (flitOf b).sop then (flitOf b).seq else (s.link p).rxSop)] := by
  have hp : p.val < 2 ^ 32 := by omega
  have ho := s.headerIn_open p (flitOf b)
  generalize hu : (s.headerIn p (flitOf b)).modLink p Link.accepted = u
  have hchg : Chg { links := true } (s.headerIn p (flitOf b)) u := hu ▸ .modLink
  have hlink : u.link p = ((s.headerIn p (flitOf b)).link p).accepted := by rw [← hu, State.modLink_same]
  have hgen' : u.gen1 p = false := by
    rw [State.gen1, State.portRole, hchg.fld_eq, State.mode, hchg.img_eq]
    exact (State.gen1_headerIn hp).trans hgen
  have hrun' : u.launchOrigin (bits (flitOf b).spec.toNat 19 17) = some t0 := by
    rw [State.launchOrigin, hchg.region_eq, hchg.sched_eq]
    exact (State.launchOrigin_headerIn hp).trans hrun
  obtain ⟨hue, hupool⟩ := State.acceptSched_due (p := p) hgen' hrun'
  refine ⟨_, execFlitReceive_data h (by omega) hclass, ?_⟩
  dsimp only
  rw [State.dataFlit_inSequence (by rw [hseq, ho.e]) (by rwa [ho.e]) (by rwa [hkind, ho.bufferFree]), if_pos hkind, hu, hue, hupool, hlink,
    hchg.sched_eq, State.sched_headerIn hp, Link.accepted, ho.e, ho.pool, ho.rxSop]
  exact ⟨rfl, rfl⟩

theorem execFlitReceive_ahead {s : State} {p : Fin 32} {b : List Byte} (h : s.portState p = 3)
    (hkind : (flitOf b).kind = 2 ∨ (flitOf b).kind = 3) (hclass : (flitOf b).cclass ≤ 2)
    (h0 : 0 < ((flitOf b).seq + 4096 - (s.link p).e) % 4096) (hlt : ((flitOf b).seq + 4096 - (s.link p).e) % 4096 < 2048) :
    Yields (.flitReceive p b (crc64 b)) s fun u =>
      (u.link p).pool = (s.link p).pool ∧ (u.link p).e = (s.link p).e ∧ (u.link p).nakPend = true := by
  have ho := s.headerIn_open p (flitOf b)
  refine ⟨_, execFlitReceive_data h (by omega) hclass, ?_⟩
  obtain ⟨hpool, he, hnak⟩ := Link.enterNak_fields ((s.headerIn p (flitOf b)).link p)
  rw [State.dataFlit_ahead (by rwa [ho.e]) (by rwa [ho.e]), State.modLink_same]
  exact ⟨hpool.trans ho.pool, he.trans ho.e, hnak⟩

/-! ## Delivery (R378, R379) -/

/-- What opening a receive slot, or moving a unit's bytes on, leaves of a link: its pool and its freed buffers. -/
def Link.Stays (L M : Link) : Prop := M.pool = L.pool ∧ M.freed = L.freed

theorem State.modLink_stays (s : State) (p q : Nat) {f : Link → Link} (hf : ∀ L : Link, L.Stays (f L)) : (s.link p).Stays ((s.modLink q f).link p) := by
  by_cases h : p = q
  · subst h
    rw [State.modLink_same]
    exact hf _
  · rw [State.modLink_ne _ _ _ h]
    exact ⟨rfl, rfl⟩

theorem Link.Stays.trans {L M N : Link} (h : L.Stays M) (k : M.Stays N) : L.Stays N := ⟨k.1.trans h.1, k.2.trans h.2⟩

theorem State.routeFault_link (s : State) (die p : Nat) : (s.routeFault die).link p = s.link p := State.routeFault_chg.link_eq ..

theorem Link.Stays.of_eq {L M : Link} (h : M = L) : L.Stays M := h ▸ ⟨rfl, rfl⟩

theorem Link.Stays.ite {L : Link} {p : Nat} {c : Prop} [Decidable c] {u v : State} (h : L.Stays (u.link p)) (k : L.Stays (v.link p)) :
    L.Stays ((if c then u else v).link p) := by
  split
  · exact h
  · exact k

theorem State.openRx_stays (s : State) (p : Nat) (f : Flit) (due : Nat) : (s.link p).Stays ((s.openRx p f due).link p) := by
  have hfault : (s.link p).Stays ((s.routeFault (p / 16)).link p) := .of_eq (s.routeFault_link ..)
  unfold State.openRx
  extract_lets die r b total set w q t
  have hset (e : Bool) (n : Nat) : (s.link p).Stays ((set s e n).link p) := s.modLink_stays _ _ fun _ => ⟨rfl, rfl⟩
  refine .ite hfault (.ite (.ite ?_ hfault) (.ite ?_ hfault))
  · exact (hset _ _).trans (State.modLink_stays _ _ _ fun _ => ⟨rfl, rfl⟩)
  · exact (hset _ _).trans (.of_eq (Chg.modFdie.link_eq ..))

theorem State.moveRx_stays (s : State) (p : Nat) (f : Flit) (sop : Nat) : (s.link p).Stays ((s.moveRx p f sop).link p) := by
  unfold State.moveRx
  split
  · exact .of_eq rfl
  · extract_lets bs v bs'
    have hv : (s.link p).Stays (v.link p) := s.modLink_stays _ _ fun _ => ⟨rfl, rfl⟩
    refine .ite (hv.trans (.of_eq (Chg.modFdie.link_eq ..))) (hv.trans (State.modLink_stays _ _ _ fun _ => ⟨rfl, rfl⟩))

theorem execScheduledFlitDelivery_due {s : State} {p : Fin 32} {f : Flit} {due sop : Nat} (h : firstDue (s.link p).pool = some (f, due, sop))
    (hdue : due ≤ s.sched) (hheld : s.sched = due → s.gen1 p = true ∨ s.held = false) :
    Yields (.scheduledFlitDelivery p) s fun u =>
      (u.link p).pool = (s.link p).pool.eraseP (fun q => q.1.kind == 1 && q.1.seq == f.seq) ∧
      mget (u.link p).freed 0 0 = mget (s.link p).freed 0 0 + 1 := by
  have hgo : ¬(decide (s.sched < due) || (s.held && s.sched == due && !s.gen1 p)) = true := by
    simp only [Bool.or_eq_true, decide_eq_true_eq, Bool.and_eq_true, beq_iff_eq, Bool.not_eq_true', not_or, not_and, Bool.not_eq_false]
    refine ⟨by omega, fun ⟨h1, h2⟩ => ?_⟩
    rcases hheld h2 with h3 | h3
    · exact h3
    · simp [h1] at h3
  generalize hw : (s.modLink p fun L => { L.freeBuf 0 with pool := L.pool.eraseP fun q => q.1.kind == 1 && q.1.seq == f.seq }) = w
  have hexec : exec (.scheduledFlitDelivery p) s = .next ((if f.sop then w.openRx p f due else w).moveRx p f sop) := by
    show execScheduledFlitDelivery p s = _
    simp only [execScheduledFlitDelivery, h]
    rw [if_neg hgo, hw]
  have hst : (w.link p).Stays (((if f.sop then w.openRx p f due else w).moveRx p f sop).link p) :=
    Link.Stays.trans (.ite (w.openRx_stays p f due) (.of_eq rfl)) (State.moveRx_stays ..)
  refine ⟨_, hexec, ?_⟩
  dsimp only
  rw [hst.1, hst.2, ← hw, State.modLink_same]
  exact ⟨rfl, mget_mput_same ..⟩

/-! ## A port's flits -/

theorem execLinkCycle_quiet {s : State} {p : Fin 32} (h : s.portState p = 3) (hask : (s.link p).replayAsk = false) :
    Yields (.linkCycle p) s fun u =>
      let L := s.link p
      (u.link p).cyc = L.cyc + 1 ∧ (u.link p).ccNext = (L.ccNext + 1) % 3 ∧ (u.link p).pool = L.pool ∧ (u.link p).e = L.e ∧
      (∀ o, (u.link p).out = some o → (u.link p).crc = crc64 (flitBytes o)) ∧
      (∀ c cs, L.txC = c :: cs → (u.link p).out = some { L.stamp c with seq := 0 } ∧ (u.link p).txC = cs ∧ (u.link p).seq = L.seq) ∧
      (∀ r rs, L.txC = [] → L.replayQ = r :: rs →
        (u.link p).out = some (L.stamp r) ∧ (u.link p).replayQ = rs ∧ (u.link p).seq = L.seq) ∧
      (∀ m ms, L.txC = [] → L.replayQ = [] → L.outS = [] → L.txM = m :: ms → L.replayBuf.length < 1024 → m.kind = 3 →
        s.hasCredit p 2 = true →
        (u.link p).out = some { L.stamp m with seq := L.seq } ∧ (u.link p).seq = (L.seq + 1) % 4096 ∧ (u.link p).txM = ms ∧
        (u.link p).replayBuf = L.replayBuf ++ [{ L.stamp m with seq := L.seq }]) := by
  obtain ⟨u, hexec, hu, -⟩ := execLinkCycle_up h
  rw [hask, if_neg Bool.false_ne_true] at hu
  have hk := s.linkSend_kept p
  refine ⟨u, hexec, ?_⟩
  dsimp only
  rw [hu, hk.cyc, hk.ccNext, hk.pool, hk.e]
  refine ⟨rfl, rfl, rfl, rfl, fun o ho => ?crc, fun c cs hc => ?ctl, fun r rs hc hr => ?replay, fun m ms hc hq ho hm hfree _ hcred => ?mgmt⟩
  case crc => 
    dsimp only at ho ⊢
    rw [ho]
    rfl
  case ctl =>
    rw [State.linkSend_ctl hc]
    exact ⟨rfl, rfl, rfl⟩
  case replay =>
    rw [(State.linkSend_replay h hc hr).1]
    exact ⟨rfl, rfl, rfl⟩
  case mgmt =>
    rw [State.linkSend_mgmt h hc hq ho hm hfree hcred, State.sendNew_link]
    exact ⟨rfl, rfl, rfl, rfl⟩

theorem execLinkCycle_replays {s : State} {p : Fin 32} {g : Flit} {gs : List Flit} (h : s.portState p = 3)
    (hask : (s.link p).replayAsk = true) (hbuf : (s.link p).replayBuf = g :: gs) (hc : (s.link p).txC = []) (hrep : (s.link p).replayRep < 3)
    (hruns : s.someRuns = false) :
    Yields (.linkCycle p) s fun u =>
      (u.link p).out = some ((s.link p).stamp g) ∧ (u.link p).replayQ = gs ∧ (u.link p).replayBuf = (s.link p).replayBuf ∧
      (u.link p).timer = (s.link p).cyc ∧ (u.link p).replayAsk = false ∧ (u.link p).seq = (s.link p).seq ∧
      u.fld F.lnkErr_replays p = min (s.fld F.lnkErr_replays p + 1) (2 ^ F.lnkErr_replays.width - 1) := by
  obtain ⟨u, hexec, hu, hfld⟩ := execLinkCycle_up h
  rw [hask, if_pos rfl] at hu hfld
  obtain ⟨hq, hrb, htimer, hra, hseq, htx, hstamp, hps, hcount⟩ := State.startReplay_fields hbuf hrep hruns
  obtain ⟨hsend, hreplays⟩ := State.linkSend_replay (hps.trans h) (htx.trans hc) hq
  refine ⟨u, hexec, ?_⟩
  dsimp only
  rw [hfld, hreplays, hcount, hu, hsend, hbuf]
  exact ⟨congrArg some (hstamp g), rfl, hrb, htimer, hra, hseq, rfl⟩

theorem execAckPoint_due {s : State} {p : Fin 32} (h : s.portState p = 3) (h0 : 0 < (s.link p).unadv)
    (hdue : 32 ≤ (s.link p).unadv ∨ (s.link p).unadvAt + 64 ≤ (s.link p).cyc) :
    exec (.ackPoint p) s = .next (s.modLink p fun L => { L with adv := (L.e + 4095) % 4096, unadv := 0 }) :=
  congrArg Host.Outcome.next (if_pos ⟨h, h0, hdue⟩)

theorem execReplayTimer_due {s : State} {p : Fin 32} (h : s.portState p = 3) (hbuf : (s.link p).replayBuf ≠ [])
    (hdue : (s.link p).timer + max 0x100 (s.fld F.lnkCtl_rto p) ≤ (s.link p).cyc) :
    exec (.replayTimerExpiry p) s = .next (s.modLink p fun L => { L with replayAsk := true }) :=
  congrArg Host.Outcome.next (if_pos ⟨h, by simpa using hbuf, hdue⟩)

/-- Settles O31. -/
theorem linkDelivery : Obligations.LinkDelivery := by
  unfold Obligations.LinkDelivery
  refine ⟨fun f hk hs ha hc hn hp => flitOf_flitBytes hk hs ha hc hn hp, fun s p h => ?_⟩
  intro L
  exact ⟨execLinkCycle_quiet h, fun g gs hask hbuf hc hrep hruns => execLinkCycle_replays h hask hbuf hc hrep hruns,
    fun b crc => execFlitReceive_badCrc h,
    fun b hkind hclass _ => ⟨execFlitReceive_accepts h hkind hclass, execFlitReceive_ahead h hkind hclass⟩,
    fun b t0 hkind hclass _ => execFlitReceive_sched h hkind hclass, execAckPoint_due h, execReplayTimer_due h,
    fun f due sop => execScheduledFlitDelivery_due⟩

end Sys2Proof.Machine
end

section
/-!
A port's training (R382 to R397).
-/
namespace Sys2Proof.Machine
set_option Elab.async false

/-! ## The registers that pair changes and link losses write -/

section
variable {K : List RegKind} {s : State}

theorem RegsKept.complete {c : Cmd} {opcode status result : Nat} {report : Option (Word × Word)} (h : opcode ≠ 1) :
    RegsKept K s (s.complete c opcode status result report) := .of_chg (State.complete_fns h)

theorem RegsKept.abandon : RegsKept K s s.abandon := by
  unfold State.abandon
  extract_lets act cmds s1 s2 open_ s3 s4
  have h3 : RegsKept K s s3 := .ite .plain .plain
  have h4 : RegsKept K s s4 := .foldl (fun v f => .complete (by decide)) _ h3
  generalize act = a
  cases a with
  | none => exact h4
  | some c => exact h4.trans (.complete (by decide))

/-- The registers that a change of the pair's state writes (R544, R554). -/
def pairKinds : List RegKind := [.mirState, .mirStat, .hstEvstat]

theorem RegsKept.setPair {st : Nat} : RegsKept pairKinds s (s.setPair st) := by
  unfold State.setPair
  refine .ite .refl ?_
  have h1 : RegsKept pairKinds s (if st = 7 then s else s.abandon) := .ite .refl .abandon
  have h2 := (h1.trans (.setFld (f := F.mirState_state) (i := 0) (v := st) (by decide) (by decide))).trans
    (.event (code := 0x02C0) (kind := 8) (idx := 0) (items := []) (by decide))
  exact .ite (h2.trans (.of_chg State.freeMirror_chg)) h2

theorem RegsKept.checkLoss : RegsKept pairKinds s s.checkLoss := by
  unfold State.checkLoss
  refine .ite ?_ .refl
  have h : RegsKept pairKinds s (((s.setPair 6).event 0x02C2 8 0 []).satAdd F.mirStat_losses 0 1) :=
    (RegsKept.setPair.trans (.event (by decide))).trans (.satAdd (by decide) (by decide))
  exact .ite ((h.trans (.of_chg .modMir)).trans (.of_chg State.takeVoice_chg)) (h.trans (.of_chg .modMir))

theorem RegsKept.discardKept {p : Nat} : RegsKept [.ptcRepro, .hstEvstat] s (s.discardKept p) := by
  unfold State.discardKept
  extract_lets L bulk mgmt v
  have hv : RegsKept [.ptcRepro, .hstEvstat] s v := .of_chg .modLink
  have hlost : RegsKept [.ptcRepro, .hstEvstat] s (if 0 < L.lostSched then v.lossSeen else v) :=
    .ite (hv.trans (.setFld (by decide) (by decide))) hv
  exact .ite hv ((RegsKept.foldl (fun _ _ => .of_chg State.notice_chg) _ hlost).trans (.event (by decide)))

end

/-! ## A port's training (R382 to R389) -/

/-- A port goes DOWN with what it keeps (R384, R386). -/
theorem State.portDown_fields {s : State} {p : Nat} (hp : p < 2 ^ 32) :
    (s.portDown p).portState p = 1 ∧ (s.portDown p).link p =
      { s.link p with
        phase := 0, reqSent := false, kept := (s.link p).peer.isSome, downAt := s.wall, tried := false, replayQ := []
        replayAsk := false, txC := [] } := by
  unfold State.portDown
  refine ⟨?_, ?_⟩
  · rw [State.portState, RegsKept.checkLoss.fld _ _ hp (by decide),
      (RegsKept.event (K := [.hstEvstat]) (by decide)).fld _ _ hp (by decide), State.fld_setFld_eq _ (by decide) (by decide)]
  · rw [State.checkLoss_chg.link_eq, State.event_chg.link_eq, Chg.setFld.link_eq, State.modLink_same]

theorem State.portDownTry_down {s : State} {p : Nat} (hp : p < 2 ^ 32) : (s.portDownTry p).portState p = 1 := by
  have h := (s.portDown_fields hp).1
  unfold State.portDownTry
  dsimp only
  split
  · rw [State.portState, Chg.modLink.fld_eq]
    exact h
  · exact h

theorem State.startRetrain_up {s : State} {p trigger width : Nat} (hp : p < 2 ^ 32) (h : s.portState p = 3) :
    let u := s.startRetrain p trigger width
    u.portState p = 4 ∧ (u.link p).reqSent = true ∧ (u.link p).reqWidth = width ∧
    RegsKept [.lnkStat, .lnkErr, .hstEvstat] s u := by
  intro u
  have hhold (v : State) : Chg { reqs := true } v (v.trainHold p) := State.trainHold_chg
  simp only [u, State.startRetrain]
  rw [if_neg (fun hn => hn h)]
  refine ⟨?_, ?_, ?_, ?_⟩
  · rw [State.portState, (hhold _).fld_eq, (RegsKept.event (K := [.hstEvstat]) (by decide)).fld _ _ hp (by decide), State.satAdd,
      State.fld_setFld_code _ (by decide), State.fld_setFld_eq _ (by decide) (by decide)]
  · rw [(hhold _).link_eq, State.event_chg.link_eq, Chg.satAdd.link_eq, Chg.setFld.link_eq, State.modLink_same]
  · rw [(hhold _).link_eq, State.event_chg.link_eq, Chg.satAdd.link_eq, Chg.setFld.link_eq, State.modLink_same]
  · exact ((((RegsKept.of_chg .modLink).trans (.setFld hp (by decide))).trans (.satAdd hp (by decide))).trans (.event (by decide))).trans
      (.of_chg (hhold _))

theorem State.startFull_fields {s : State} {p : Nat} (hp : p < 2 ^ 32) :
    let u := s.startFull p
    u.portState p = 2 ∧ (u.link p).phase = 1 ∧ (u.link p).full = true ∧ RegsKept [.lnkStat, .lnkErr] s u := by
  intro u
  have hhold (v : State) : Chg { reqs := true } v (v.trainHold p) := State.trainHold_chg
  have hadd (v : State) (c : Bool) : Chg { regs := true } v (if c = true then v.satAdd F.lnkErr_retrains p 1 else v) := .ite .satAdd .refl
  simp only [u, State.startFull]
  refine ⟨?_, ?_, ?_, ?_⟩
  · have hst (v : State) (c : Bool) : (if c = true then v.satAdd F.lnkErr_retrains p 1 else v).fld F.lnkStat_state p = v.fld F.lnkStat_state p := by
      split
      · exact State.fld_setFld_code _ (by decide)
      · rfl
    rw [State.portState, (hhold _).fld_eq, hst, State.fld_setFld_eq _ (by decide) (by decide)]
  · rw [(hhold _).link_eq, (hadd _ _).link_eq, Chg.setFld.link_eq, State.modLink_same]
  · rw [(hhold _).link_eq, (hadd _ _).link_eq, Chg.setFld.link_eq, State.modLink_same]
  · refine .trans ?_ (.of_chg (hhold _))
    exact (RegsKept.trans (.of_chg .modLink) (.setFld hp (by decide))).trans (.ite (.satAdd hp (by decide)) .refl)

theorem State.agreedWidth_lt (s : State) (p w : Nat) : s.agreedWidth p w < 2 ^ F.lnkStat_width.width :=
  Nat.lt_of_le_of_lt (Nat.min_le_left ..) (by decide)

/-! ## The phases -/

/-- Sending on the mirror leaves of a link all but what waits to be sent. -/
def Link.SameRun (L M : Link) : Prop := M.cyc = L.cyc ∧ M.replayAsk = L.replayAsk

theorem Link.SameRun.trans {L M N : Link} (h : L.SameRun M) (k : M.SameRun N) : L.SameRun N := ⟨k.1.trans h.1, k.2.trans h.2⟩

theorem State.queueOn_run (s : State) (p port : Nat) (k : Packet) : (s.link p).SameRun ((s.queueOn port k).link p) := by
  unfold State.queueOn
  by_cases h : p = port
  · subst h
    rw [State.modLink_same]
    split <;> exact ⟨rfl, rfl⟩
  · rw [State.modLink_ne _ _ _ h]
    exact ⟨rfl, rfl⟩

theorem State.queueOn_foldl_run (l : List Packet) (s : State) (p port : Nat) :
    (s.link p).SameRun ((l.foldl (fun s k => s.queueOn port k) s).link p) := by
  induction l generalizing s with
  | nil => exact ⟨rfl, rfl⟩
  | cons k l ih => exact (s.queueOn_run p port k).trans (ih _)

theorem State.mirSend_run (s : State) (p type : Nat) (args : List Nat) (body : List Byte) :
    (s.link p).SameRun ((s.mirSend type args body).link p) := by
  unfold State.mirSend
  split
  · exact ⟨rfl, rfl⟩
  · exact State.queueOn_foldl_run _ _ _ _

theorem State.sendHello_run (s : State) (p : Nat) : (s.link p).SameRun ((s.sendHello).link p) := by
  have htell : (s.link p).SameRun (s.tellHello.link p) := by
    unfold State.tellHello
    dsimp only
    split
    · exact ⟨rfl, rfl⟩
    · exact s.mirSend_run _ _ _ _
  unfold State.sendHello
  split
  · exact htell
  · rw [Chg.modMir.link_eq]
    exact htell

theorem State.fld_setFld_mod (s : State) (f : Fld) (i v : Nat) (h : f.lo ≤ f.hi ∧ f.hi < 64) : (s.setFld f i v).fld f i = v % 2 ^ f.width :=
  State.fld_setFld_same _ _ _ _ h.1 h.2

/-- The end of phase 5 (R383, R385). -/
theorem State.portUp_fields {s : State} {p rtt : Nat} (hp : p < 2 ^ 32) :
    let u := s.portUp p rtt
    u.portState p = 3 ∧ u.fld F.lnkStat_rtt p = rtt % 4096 ∧ (u.link p).cyc = 0 ∧ (u.link p).replayAsk = (s.link p).resume := by
  intro u
  generalize hv : (s.modLink p fun L =>
    { L with phase := 0, cyc := 0, grpUsed := 0, ccNext := 0, freshR := [], freshS := 0, timer := 0, replayAt := none
             unadvAt := 0, txC := [], replayAsk := L.resume }) = v
  have hlink : (v.link p).cyc = 0 ∧ (v.link p).replayAsk = (s.link p).resume := by
    rw [← hv, State.modLink_same]
    exact ⟨rfl, rfl⟩
  generalize hw : ((((v.setFld F.lnkStat_rtt p rtt).setFld F.lnkStat_gen1 p (b2n (v.gen1 p))).setFld F.lnkStat_degraded p
    (b2n (decide ((((s.img.map (·.ports)).getD []).getD p 0) / 4 % 4 < v.fld F.lnkStat_width p)))).setFld F.lnkStat_state p 3) = w
  have hwst : w.fld F.lnkStat_state p = 3 := by rw [← hw, State.fld_setFld_eq _ (by decide) (by decide)]
  have hwrtt : w.fld F.lnkStat_rtt p = rtt % 4096 := by
    rw [← hw, State.fld_setFld_bits _ (by decide), State.fld_setFld_bits _ (by decide), State.fld_setFld_bits _ (by decide),
      State.fld_setFld_mod _ _ _ _ (by decide)]
    rfl
  have hwlink : w.link p = v.link p := by rw [← hw, Chg.setFld.link_eq, Chg.setFld.link_eq, Chg.setFld.link_eq, Chg.setFld.link_eq]
  have hu : u = if (w.event 0x0280 6 p []).portRole p = 2 then (w.event 0x0280 6 p []).sendHello else w.event 0x0280 6 p [] := by
    simp only [u, State.portUp]
    rw [hv, hw]
  have hreg : RegsKept [.hstEvstat] w u := by
    rw [hu]
    exact .ite ((RegsKept.event (by decide)).trans (.of_chg State.sendHello_chg)) (.event (by decide))
  have hrun : (w.link p).SameRun (u.link p) := by
    rw [hu, ← State.event_chg.link_eq (s := w) (u := w.event 0x0280 6 p [])]
    split
    · exact State.sendHello_run _ _
    · exact ⟨rfl, rfl⟩
  rw [State.portState, hreg.fld _ _ hp (by decide), hreg.fld _ _ hp (by decide), hrun.1, hrun.2, hwlink]
  exact ⟨hwst, hwrtt, hlink⟩


/-! ## The writes of LNK_CTL (R389) -/

theorem State.writeLnkCtl_eq {s : State} {w : Writer} {p off val : Nat} {fields : Bool} (hw : s.mayWrite w = true) (hl : s.loading = none) :
    s.writeLnkCtl w p off val fields =
      let setup := fields || decide (bits val 26 25 ≠ s.portRole p) || decide (bits val 28 27 ≠ s.fld F.lnkCtl_wreq p)
      if setup && s.someRuns then s.imageBusy off
      else
        let old := s.portRole p
        let s := s.setFld F.lnkCtl_rto p (bits val 15 0)
        let s := if setup then
            let s := (s.setFld F.lnkCtl_wreq p (bits val 28 27)).zeroDigest.modified
            if bits val 26 25 = 3 then s else s.setFld F.lnkCtl_role p (bits val 26 25)
          else s
        let s := if s.portRole p ≠ old then s.roleChanged p else s
        if bits val 31 31 = 1 then s.startRetrain p 3 (s.fld F.lnkCtl_wreq p) else s := by
  rw [State.writeLnkCtl, State.gated_of_mayWrite hw, State.imgWrite, hl]
  rfl

theorem State.zeroDigest_regs {s : State} : RegsKept [.hstHidigest] s s.zeroDigest ∧ ∀ i < 4, s.zeroDigest.reg .hstHidigest i = 0 := by
  unfold State.zeroDigest
  refine ⟨(((RegsKept.setReg (by decide) (by decide)).trans (.setReg (by decide) (by decide))).trans (.setReg (by decide) (by decide))).trans
    (.setReg (by decide) (by decide)), fun i hi => ?_⟩
  have hne : ∀ i < 4, ∀ j < 4, i ≠ j → regKey .hstHidigest i ≠ regKey .hstHidigest j := by decide
  rcases (by omega : i = 0 ∨ i = 1 ∨ i = 2 ∨ i = 3) with rfl | rfl | rfl | rfl
  · rw [State.reg_setReg_ne _ _ (hne _ (by decide) _ (by decide) (by decide)), State.reg_setReg_ne _ _ (hne _ (by decide) _ (by decide) (by decide)),
      State.reg_setReg_ne _ _ (hne _ (by decide) _ (by decide) (by decide)), State.reg_setReg_same]
    rfl
  · rw [State.reg_setReg_ne _ _ (hne _ (by decide) _ (by decide) (by decide)), State.reg_setReg_ne _ _ (hne _ (by decide) _ (by decide) (by decide)),
      State.reg_setReg_same]
    rfl
  · rw [State.reg_setReg_ne _ _ (hne _ (by decide) _ (by decide) (by decide)), State.reg_setReg_same]
    rfl
  · rw [State.reg_setReg_same]
    rfl

/-- The registers that a changed role writes beside LNK_STAT (R382, R386). -/
def roleKinds : List RegKind := [.lnkStat, .lnkErr, .ptcRepro, .mirState, .mirStat, .hstEvstat]

theorem State.roleChanged_fields {s : State} {p : Nat} (hp : p < 2 ^ 32) :
    RegsKept roleKinds s (s.roleChanged p) ∧ (s.portRole p = 0 → (s.roleChanged p).portState p = 0) := by
  have hoff : RegsKept [.ptcRepro, .hstEvstat] s ((s.discardKept p).modLink p fun L => { L with phase := 0, reqSent := false, txC := [] }) :=
    RegsKept.discardKept.trans (.of_chg .modLink)
  unfold State.roleChanged
  refine ⟨.ite ?_ (.ite ?_ ?_), fun h => ?_⟩
  · exact ((hoff.mono (by decide)).trans (.setFld hp (by decide))).trans (RegsKept.checkLoss.mono (by decide))
  · exact (State.startFull_fields hp).2.2.2.mono (by decide)
  · exact (RegsKept.of_chg .modLink).trans (.setFld hp (by decide))
  · rw [if_pos h]
    exact (RegsKept.checkLoss.fld _ _ hp (by decide)).trans (State.fld_setFld_eq _ (by decide) (by decide))

theorem bits_26_25_lt (v : Nat) : bits v 26 25 < 4 := Nat.mod_lt _ (by decide)

theorem bits_28_27_lt (v : Nat) : bits v 28 27 < 4 := Nat.mod_lt _ (by decide)

theorem bits_15_0_lt (v : Nat) : bits v 15 0 < 2 ^ 16 := Nat.mod_lt _ (by decide)

/-- LNK_CTL written with what it holds, and RETRAIN. -/
theorem State.writeLnkCtl_retrain {s : State} {w : Writer} {p off : Nat} {v : BitVec 32} (hp : p < 2 ^ 32) (hw : s.mayWrite w = true)
    (hl : s.loading = none) (hrole : bits v.toNat 26 25 = s.portRole p) (hwreq : bits v.toNat 28 27 = s.fld F.lnkCtl_wreq p)
    (hre : v.getLsbD 31 = true) (hst : s.portState p = 3) :
    let u := s.writeLnkCtl w p off v.toNat false
    u.portState p = 4 ∧ (u.link p).reqSent = true ∧ u.fld F.lnkCtl_rto p = bits v.toNat 15 0 := by
  intro u
  have hbit : bits v.toNat 31 31 = 1 := (bits_single _ _).2 (by rwa [BitVec.testBit_toNat])
  generalize hb : s.setFld F.lnkCtl_rto p (bits v.toNat 15 0) = b
  have hbrole : b.portRole p = s.portRole p := by rw [← hb]; exact State.fld_setFld_bits _ (by decide)
  have hbst : b.portState p = 3 := by rw [← hb]; exact (State.fld_setFld_code _ (by decide)).trans hst
  have hu : u = b.startRetrain p 3 (b.fld F.lnkCtl_wreq p) := by
    simp only [u]
    rw [State.writeLnkCtl_eq hw hl]
    simp only [hrole, hwreq, hbit, hb, hbrole, ne_eq, not_true_eq_false, decide_false, Bool.or_self, Bool.false_and, Bool.false_eq_true, if_false, if_true]
  obtain ⟨h4, hreq, -, hregs⟩ := State.startRetrain_up (trigger := 3) (width := b.fld F.lnkCtl_wreq p) hp hbst
  rw [hu, h4, hreq, hregs.fld _ _ hp (by decide), ← hb, State.fld_setFld_eq _ (by decide) (bits_15_0_lt _)]
  exact ⟨rfl, rfl, rfl⟩

/-- LNK_CTL written with its image fields (R386, R389). -/
theorem State.writeLnkCtl_fields {s : State} {w : Writer} {p off : Nat} {v : BitVec 32} (hp : p < 2 ^ 32) (hw : s.mayWrite w = true)
    (hl : s.loading = none) (hruns : s.someRuns = false) (hrole : bits v.toNat 26 25 ≠ 3) :
    let u := s.writeLnkCtl w p off v.toNat true
    u.portRole p = bits v.toNat 26 25 ∧ u.fld F.lnkCtl_wreq p = bits v.toNat 28 27 ∧ u.fld F.hstHistate_modified 0 = 1 ∧
    (∀ i < 4, u.reg .hstHidigest i = 0) ∧ (s.portRole p ≠ 0 → bits v.toNat 26 25 = 0 → u.portState p = 0) := by
  intro u
  generalize hb : (((s.setFld F.lnkCtl_rto p (bits v.toNat 15 0)).setFld F.lnkCtl_wreq p (bits v.toNat 28 27)).zeroDigest.modified).setFld
    F.lnkCtl_role p (bits v.toNat 26 25) = b
  have hrb : b.portRole p = bits v.toNat 26 25 := by
    rw [← hb]
    exact State.fld_setFld_eq _ (by decide) (bits_26_25_lt _)
  have hwb : b.fld F.lnkCtl_wreq p = bits v.toNat 28 27 := by
    rw [← hb, State.fld_setFld_bits _ (by decide), State.modified, State.fld_setFld_kind _ (by decide) hp (by decide),
      State.zeroDigest_regs.1.fld _ _ hp (by decide), State.fld_setFld_eq _ (by decide) (bits_28_27_lt _)]
  have hmb : b.fld F.hstHistate_modified 0 = 1 := by
    rw [← hb, State.fld_setFld_kind _ hp (by decide) (by decide)]
    exact State.fld_setFld_eq _ (by decide) (by decide)
  have hdb : ∀ i < 4, b.reg .hstHidigest i = 0 := by
    intro i hi
    have hkept : RegsKept [.lnkCtl, .hstHistate] ((s.setFld F.lnkCtl_rto p (bits v.toNat 15 0)).setFld F.lnkCtl_wreq p (bits v.toNat 28 27)).zeroDigest b := by
      rw [← hb]
      exact (RegsKept.setFld (by decide) (by decide)).trans (.setFld hp (by decide))
    rw [hkept _ _ (by omega) (by decide)]
    exact State.zeroDigest_regs.2 i hi
  generalize hc : (if b.portRole p ≠ s.portRole p then b.roleChanged p else b) = c
  have hbc : RegsKept roleKinds b c := by
    rw [← hc]
    exact .ite (State.roleChanged_fields hp).1 .refl
  have hu : u = if bits v.toNat 31 31 = 1 then c.startRetrain p 3 (c.fld F.lnkCtl_wreq p) else c := by
    simp only [u]
    rw [State.writeLnkCtl_eq hw hl]
    simp only [hruns, Bool.true_or, Bool.and_false, Bool.false_eq_true, if_false, if_true, hrole, hb, hc]
  have hcu : RegsKept roleKinds c u := by
    rw [hu]
    refine .ite ?_ .refl
    by_cases h3 : c.portState p = 3
    · exact (State.startRetrain_up hp h3).2.2.2.mono (by decide)
    · rw [State.startRetrain, if_pos h3]
      exact .refl
  have hbu := hbc.trans hcu
  refine ⟨?_, ?_, ?_, fun i hi => ?_, fun hold hzero => ?_⟩
  · rw [State.portRole, hbu.fld _ _ hp (by decide)]
    exact hrb
  · rw [hbu.fld _ _ hp (by decide), hwb]
  · rw [hbu.fld _ _ (by decide) (by decide), hmb]
  · rw [hbu _ _ (by omega) (by decide), hdb i hi]
  · have hc0 : c.portState p = 0 := by
      rw [← hc, if_pos (by rw [hrb, hzero]; exact hold.symm)]
      exact (State.roleChanged_fields hp).2 (by rw [hrb, hzero])
    have huc : u = c := by
      have hn : c.portState p ≠ 3 := by
        rw [hc0]
        decide
      rw [hu, State.startRetrain, if_pos hn, ite_self]
    rw [huc, hc0]


/-! ## The exchange, and what is kept -/

theorem State.exchange_own {s : State} {p : Nat} {i : TrainInfo} (hp : p < 2 ^ 32) (h : i.peerMod = s.ownId) :
    ((s.exchange p i).link p).blocked = true ∧ (s.exchange p i).portState p = 1 := by
  simp only [State.exchange]
  rw [if_pos h]
  obtain ⟨hst, hlink⟩ := State.portDown_fields (s := (s.event 0x0290 6 p []).modLink p fun L => { L with blocked := true }) hp
  rw [hst, hlink, State.modLink_same]
  exact ⟨rfl, rfl⟩

theorem State.exchange_peer {s : State} {p : Nat} {i : TrainInfo} (h : i.peerMod ≠ s.ownId) :
    let u := s.exchange p i
    (u.link p).phase = 5 ∧ (u.link p).peer = some (256 * i.peerMod + i.peerPort) ∧
    u.fld F.lnkStat_peermod p = i.peerMod % 2 ^ 20 ∧ u.fld F.lnkStat_peerport p = i.peerPort % 32 := by
  intro u
  have hfold (occ : Nat → Nat) (v : State) : Chg { regs := true } v
      ([0, 1, 2].foldl (fun s c => s.setFld (credFld c) p (reserved c - occ c)) v) := .foldl (fun _ _ => .setFld) _ .refl
  simp only [u, State.exchange]
  rw [if_neg h, Chg.setFld.link_eq, Chg.setFld.link_eq, Chg.setFld.link_eq, (hfold _ _).link_eq, State.modLink_same,
    State.fld_setFld_bits _ (by decide), State.fld_setFld_mod _ _ _ _ (by decide), State.fld_setFld_mod _ _ _ _ (by decide)]
  exact ⟨rfl, rfl, rfl, rfl⟩

theorem State.discardKept_fields (s : State) (p : Nat) :
    let u := s.discardKept p
    (u.link p).kept = false ∧ (u.link p).replayBuf = [] ∧ (u.link p).pool = [] := by
  intro u
  simp only [u, State.discardKept]
  split
  · rw [State.modLink_same]
    exact ⟨rfl, rfl, rfl⟩
  · rw [State.event_chg.link_eq, (Chg.foldl (P := { fab := true }) (fun _ _ => State.notice_chg) _ .refl).link_eq]
    split
    · rw [State.lossSeen_chg.link_eq, State.modLink_same]
      exact ⟨rfl, rfl, rfl⟩
    · rw [State.modLink_same]
      exact ⟨rfl, rfl, rfl⟩

/-! ## Training -/

/-- The end of a phase (R383). -/
theorem execTrainingPhaseEnd_eq {s : State} {p : Fin 32} {i : TrainInfo} (hst : s.portState p = 2 ∨ s.portState p = 4)
    (hreq : (s.link p).reqSent = false) :
    ((s.link p).phase = 1 ∨ (s.link p).phase = 2 →
      exec (.trainingPhaseEnd p i) s = .next (s.modLink p fun L => { L with phase := L.phase + 1 })) ∧
    ((s.link p).phase = 3 → exec (.trainingPhaseEnd p i) s = .next ((if s.agreedWidth p i.width ≠ s.fld F.lnkStat_width p then
      (s.setFld F.lnkStat_width p (s.agreedWidth p i.width)).event 0x0283 6 p [] else s).modLink p fun L => { L with phase := 4 })) ∧
    ((s.link p).phase = 4 → exec (.trainingPhaseEnd p i) s = .next (s.exchange p i)) ∧
    ((s.link p).phase = 5 → exec (.trainingPhaseEnd p i) s = .next (s.portUp p i.rtt)) := by
  have hgo : ¬((s.portState p ≠ 2 ∧ s.portState p ≠ 4) ∨ (s.link p).reqSent = true) := by
    rw [hreq]
    simp only [Bool.false_eq_true, or_false]
    omega
  have hstep (n : Nat) (h : (s.link p).phase = n) :
      s.modLink p (fun L => { L with phase := n + 1 }) = s.modLink p fun L => { L with phase := L.phase + 1 } := by
    simp only [State.modLink, h]
  refine ⟨fun h => ?_, fun h => ?_, fun h => ?_, fun h => ?_⟩
  · show execTrainingPhaseEnd p i s = _
    rcases h with h | h
    · rw [← hstep 1 h]
      simp only [execTrainingPhaseEnd, if_neg hgo, h]
    · rw [← hstep 2 h]
      simp only [execTrainingPhaseEnd, if_neg hgo, h]
  all_goals
    show execTrainingPhaseEnd p i s = _
    simp only [execTrainingPhaseEnd, if_neg hgo, h]

theorem State.widthSet_fields {s : State} {p w : Nat} (hp : p < 2 ^ 32) (hw : w < 2 ^ F.lnkStat_width.width) :
    (if w ≠ s.fld F.lnkStat_width p then (s.setFld F.lnkStat_width p w).event 0x0283 6 p [] else s).fld F.lnkStat_width p = w := by
  split
  · rw [(RegsKept.event (K := [.hstEvstat]) (by decide)).fld _ _ hp (by decide), State.fld_setFld_eq _ (by decide) hw]
  · next h => exact (not_not.1 h).symm

/-- Settles O32. -/
theorem linkTraining : Obligations.LinkTraining := by
  unfold Obligations.LinkTraining
  intro s p L
  have hp : p.val < 2 ^ 32 := by omega
  refine ⟨fun hst hrole hmay hdue => ?attempt, fun hst hreq i => ?phases, fun h => ⟨_, congrArg Host.Outcome.next (if_pos h), s.portDownTry_down hp⟩,
    fun h => ?signal, fun hkept hst hdue => ?expiry, fun bad hbad hst => ?fec, fun w off v hw hl => ⟨fun hrole hwreq hre hst => ?retrain, fun hruns hrole => ?write⟩⟩
  case attempt =>
    refine ⟨_, congrArg Host.Outcome.next (if_pos ⟨hst, hrole, hmay, hdue⟩), ?_⟩
    obtain ⟨h2, hphase, hfull, -⟩ := s.startFull_fields hp
    rw [State.portState, Chg.modLink.fld_eq, State.modLink_same]
    exact ⟨h2, hphase, hfull, rfl⟩
  case phases =>
    obtain ⟨h12, h3, h4, h5⟩ := execTrainingPhaseEnd_eq (i := i) hst hreq
    refine ⟨h12, fun h => ⟨_, h3 h, ?_⟩, fun h hpeer => ⟨_, h4 h, State.exchange_peer hpeer⟩, fun h hpeer => ⟨_, h4 h, State.exchange_own hp hpeer⟩,
      fun h => ⟨_, h5 h, State.portUp_fields hp⟩⟩
    dsimp only
    rw [State.modLink_same, Chg.modLink.fld_eq, State.widthSet_fields hp (s.agreedWidth_lt ..)]
    exact ⟨rfl, rfl⟩
  case signal =>
    obtain ⟨hst, hlink⟩ := s.portDown_fields hp
    refine ⟨_, congrArg Host.Outcome.next (if_pos h), hst, ?_⟩
    rw [hlink]
    exact ⟨rfl, rfl⟩
  case expiry => exact ⟨_, congrArg Host.Outcome.next (if_pos ⟨hkept, hst, hdue⟩), s.discardKept_fields p⟩
  case fec =>
    obtain ⟨h4, hreq, hwidth, -⟩ := State.startRetrain_up (trigger := 2) (width := min 2 (s.fld F.lnkStat_width p + 1)) hp hst
    exact ⟨_, congrArg Host.Outcome.next (if_pos hbad), h4, hreq, hwidth⟩
  case retrain => exact ⟨_, rfl, State.writeLnkCtl_retrain hp hw hl hrole hwreq hre hst⟩
  case write => exact ⟨⟨_, rfl, State.writeLnkCtl_fields hp hw hl hruns hrole⟩, ⟨_, rfl, State.writeLnkCtl_fields hp hw hl hruns hrole⟩⟩

end Sys2Proof.Machine
end

section
/-!
The fabric's tables and the alignment of the plan counters (R394 to R422).
-/
namespace Sys2Proof.Machine
set_option Elab.async false

/-! ## The route tables and the epochs (R408, R409, R441) -/

theorem State.modFdie_same (s : State) (n : Nat) (f : FabDie → FabDie) : (s.modFdie n f).fdie n = f (s.fdie n) := mget_mput_same ..

theorem FabDie.setEntry_bank (d : FabDie) (b : Fin 2) (id : Nat) (m : BitVec 32) (hk : keysRise (d.bank b) = true) :
    (∀ k, mget ((d.setEntry b id m).bank b) k 0 = if k = id then m else mget (d.bank b) k 0) ∧
    (d.setEntry b id m).bank (1 - b.val) = d.bank (1 - b.val) := by
  have hset (k : Nat) : mget (if m = 0 then mdel (d.bank b) id else mput (d.bank b) id m) k 0 = if k = id then m else mget (d.bank b) k 0 := by
    by_cases hm : m = 0
    · rw [if_pos hm, mget, mfind_mdel _ _ hk, mget]
      split
      · exact hm.symm
      · rfl
    · rw [if_neg hm, mget_mput_ite]
  have hb : b = 0 ∨ b = 1 := by omega
  rcases hb with rfl | rfl
  · exact ⟨hset, rfl⟩
  · exact ⟨hset, rfl⟩

theorem execTableWrite_writes {s : State} {w : Writer} {die bank : Fin 2} {id : BitVec 20} {off : Nat} {m : BitVec 32} (hw : s.mayWrite w = true)
    (hst : s.epochState die ≠ 2) (hb : s.epoch die % 2 ≠ bank.val) (hk : keysRise ((s.fdie die).bank bank) = true) :
    Yields (.tableWrite w die bank id off m) s fun u =>
      (∀ k, mget ((u.fdie die).bank bank) k 0 = if k = id.toNat then m else mget ((s.fdie die).bank bank) k 0) ∧
      (u.fdie die).bank (1 - bank.val) = (s.fdie die).bank (1 - bank.val) ∧
      u.fld F.hstHistate_modified 0 = 1 ∧ ∀ i < 4, u.reg .hstHidigest i = 0 := by
  have hexec : exec (.tableWrite w die bank id off m) s = .next (s.modFdie die fun d => d.setEntry bank id.toNat m).zeroDigest.modified := by
    show execTableWrite .. = _
    simp only [execTableWrite, State.gated_of_mayWrite hw]
    rw [if_neg (by rintro (h | h); exacts [hst h, hb h])]
  refine ⟨_, hexec, ?_⟩
  have hchg : Chg { regs := true } (s.modFdie die fun d => d.setEntry bank id.toNat m)
      (s.modFdie die fun d => d.setEntry bank id.toNat m).zeroDigest.modified := .via State.zeroDigest_chg .setFld
  have hfdie : (s.modFdie die fun d => d.setEntry bank id.toNat m).zeroDigest.modified.fdie die = (s.fdie die).setEntry bank id.toNat m := by
    rw [State.fdie, hchg.fab_eq, ← State.fdie, State.modFdie_same]
  obtain ⟨hset, hother⟩ := (s.fdie die).setEntry_bank bank id.toNat m hk
  dsimp only
  rw [hfdie]
  refine ⟨hset, hother, State.fld_setFld_eq _ (by decide) (by decide), fun i hi => ?_⟩
  rw [State.modified, (RegsKept.setFld (K := [.hstHistate]) (by decide) (by decide)) _ _ (by omega) (by decide)]
  exact State.zeroDigest_regs.2 i hi

theorem State.setEpochState_fields {s : State} {die st : Nat} (hd : die < 2 ^ 32) (hst : st < 4) :
    (s.setEpochState die st).epochState die = st ∧ (s.setEpochState die st).epoch die = s.epoch die ∧
    RegsKept [.fabEpoch, .hstEvstat] s (s.setEpochState die st) := by
  have hev (v : State) : RegsKept [.hstEvstat] v (v.event 0x0296 8 0 []) := .event (by decide)
  unfold State.setEpochState
  refine ⟨?_, ?_, RegsKept.trans (.setFld hd (by decide)) (.event (by decide))⟩
  · rw [State.epochState, (hev _).fld _ _ hd (by decide), State.fld_setFld_eq _ (by decide) hst]
  · rw [State.epoch, (hev _).fld _ _ hd (by decide), State.fld_setFld_bits _ (by decide)]
    rfl

theorem State.epochCmd_switch {s : State} {die : Nat} (hd : die < 2 ^ 32) (hst : s.epochState die = 1) (hq : s.quiet die = true) :
    let u := s.epochCmd die 2
    u.epochState die = 2 ∧ u.epoch die = (s.epoch die + 1) % 65536 ∧ ∀ i < 4, u.reg .hstHidigest i = 0 := by
  intro u
  have hu : u = (((s.setFld F.fabEpoch_epoch die ((s.epoch die + 1) % 65536)).setFld F.fabEpoch_live die
      ((s.epoch die + 1) % 65536 % 2)).setEpochState die 2).zeroDigest := by
    simp only [u, State.epochCmd, hst, hq]
    rfl
  obtain ⟨h2, hep, -⟩ := State.setEpochState_fields (s := (s.setFld F.fabEpoch_epoch die ((s.epoch die + 1) % 65536)).setFld F.fabEpoch_live die
    ((s.epoch die + 1) % 65536 % 2)) (st := 2) hd (by decide)
  rw [hu]
  refine ⟨(State.zeroDigest_regs.1.fld F.fabEpoch_state die hd (by decide)).trans h2,
    (State.zeroDigest_regs.1.fld F.fabEpoch_epoch die hd (by decide)).trans (hep.trans ?_), State.zeroDigest_regs.2⟩
  rw [State.epoch, State.fld_setFld_bits _ (by decide), State.fld_setFld_eq _ (by decide)]
  exact Nat.mod_lt _ (by decide)

/-! ## The alignment of the plan counters (R412 to R422) -/

theorem State.epochCmd_refused {s : State} {die cmd : Nat} (h1 : cmd = 1 → s.epochState die ≠ 0) (h2 : cmd = 2 → s.epochState die ≠ 1 ∨ s.quiet die = false)
    (h3 : cmd = 3 → s.epochState die ≠ 2 ∨ s.quiet die = false) : s.epochCmd die cmd = s.event 0x0295 8 0 [] := by
  have h2' : ¬(cmd = 2 ∧ s.epochState die = 1 ∧ s.quiet die = true) := by
    rintro ⟨hc, hst, hq⟩
    rcases h2 hc with h | h
    · exact h hst
    · rw [hq] at h
      cases h
  have h3' : ¬(cmd = 3 ∧ s.epochState die = 2 ∧ s.quiet die = true) := by
    rintro ⟨hc, hst, hq⟩
    rcases h3 hc with h | h
    · exact h hst
    · rw [hq] at h
      cases h
  simp only [State.epochCmd]
  rw [if_neg (fun h => h1 h.1 h.2), if_neg h2', if_neg h3']

theorem State.fabricFlit_link {s : State} {p : Nat} {b : List Byte} (h : s.portState p = 3) :
    (s.fabricFlit p b).link p = { s.link p with txC := (s.link p).txC ++ [ctlFlit 4 b] } := by
  rw [State.fabricFlit, if_pos h, State.modLink_same]

theorem execSyncreqSend_sends {s : State} (hroot : s.fld F.fabSyncctl_root 0 = 0) (href : s.clk.refLost = false)
    (hdue : s.fab.syncAt + 10000 ≤ s.wall) :
    Yields .syncreqSend s fun u =>
      u.fab.syncT1 = some (16 * s.cnt) ∧ u.fab.syncAt = s.wall ∧ u.cnt = s.cnt ∧ (s.fab.syncT1.isSome = true → u.fab.phis = []) ∧
      (s.portState s.syncPort = 3 →
        (u.link s.syncPort).txC = (s.link s.syncPort).txC ++ [ctlFlit 4 (leBytes 8 1 ++ leBytes 8 (16 * s.cnt))]) := by
  generalize hv : (if s.fab.syncT1.isSome = true then (s.satAdd F.fabSyncstat_lost 0 1).modFab fun f => { f with phis := [] } else s) = v
  have hlinks : v.links = s.links := by
    have hc : Chg { regs := true, fab := true } s v := by
      rw [← hv]
      exact .ite (.via (.via .refl .satAdd) .modFab) .refl
    exact hc.links_eq
  have hregs : RegsKept [.fabSyncstat] s v := by
    rw [← hv]
    exact .ite (RegsKept.trans (u := s.satAdd F.fabSyncstat_lost 0 1) (.satAdd (by decide) (by decide)) .plain) .refl
  have hcnt : v.cnt = s.cnt := hregs _ _ (by decide) (by decide)
  have hwall : v.wall = s.wall := hregs _ _ (by decide) (by decide)
  have hport : v.syncPort = s.syncPort := hregs.fld _ _ (by decide) (by decide)
  have hphis : s.fab.syncT1.isSome = true → v.fab.phis = [] := fun h => by rw [← hv, if_pos h]; rfl
  have hexec : exec .syncreqSend s = .next ((v.fabricFlit v.syncPort (syncreqBytes v.stamp16)).modFab fun f =>
      { f with syncT1 := some v.stamp16, syncAt := v.wall
               syncBad := v.fld F.clkState_stretch 0 == 1 || v.fld F.clkState_catchup 0 == 1 }) := by
    show execSyncreqSend s = _
    simp only [execSyncreqSend]
    rw [if_neg (by rw [hroot, href]; simp; omega), hv]
  refine ⟨_, hexec, ?_⟩
  have hflit : Chg { links := true } v (v.fabricFlit v.syncPort (syncreqBytes v.stamp16)) := State.fabricFlit_chg
  refine ⟨by rw [State.stamp16, hcnt]; rfl, hwall, ?_, fun h => ?_, fun h => ?_⟩
  · rw [State.cnt, Chg.modFab.reg_eq, hflit.reg_eq]
    exact hcnt
  · show (v.fabricFlit v.syncPort (syncreqBytes v.stamp16)).fab.phis = []
    rw [hflit.fab_eq]
    exact hphis h
  · have hlt : s.syncPort < 2 ^ 32 := Nat.lt_of_lt_of_le (bits_lt _ _ _) (by decide)
    have hup : v.portState v.syncPort = 3 := by
      rw [hport, State.portState, hregs.fld _ _ hlt (by decide)]
      exact h
    rw [Chg.modFab.link_eq, ← hport, State.fabricFlit_link hup, State.link, hlinks, State.stamp16, hcnt]
    rfl

theorem State.cnt_eq_of_fab (s : State) (f : Fab → Fab) : (s.modFab f).cnt = s.cnt := rfl

/-- A record that came in reaches its command, out of the port's buffer. -/
theorem State.onFabric_has {s : State} {p : Nat} {b : List Byte} {f : State → State} (h : s.hasFabric p b = true) :
    s.onFabric p b f = f (s.dropFabric p b) := if_pos h

theorem syncrspBytes_drop (r : SyncRsp) : (syncrspBytes r).drop 8 = leBytes 8 r.t2 ++ leBytes 8 r.t3 := by
  have hhead : (leBytes 1 2 ++ leBytes 1 r.depth ++ leBytes 1 (128 * b2n r.synced + r.step) ++ [0] ++ leBytes 2 (unsgn 16 r.eps) ++ [0, 0]).length = 8 := by
    simp only [List.length_append, leBytes_length, List.length_cons, List.length_nil]
  rw [syncrspBytes, List.append_assoc _ (leBytes 8 r.t2), List.drop_left' hhead]

theorem execSyncreqReceive_answers {s : State} {p : Fin 32} {t1 : Nat} (hst : s.portState p = 3) (hin : s.hasFabric p (syncreqBytes t1) = true) :
    Yields (.syncreqReceive p t1) s fun u =>
      u.regs = s.regs ∧ ∃ b, (u.link p).txC = (s.link p).txC ++ [ctlFlit 4 b] ∧ b.drop 8 = leBytes 8 (16 * s.cnt) ++ leBytes 8 (16 * s.cnt) := by
  refine ⟨_, congrArg Host.Outcome.next (State.onFabric_has hin), ?_⟩
  have hdrop : Chg { links := true } s (s.dropFabric p (syncreqBytes t1)) := State.dropFabric_chg
  have hup : (s.dropFabric p (syncreqBytes t1)).portState p = 3 := by
    rw [State.portState, hdrop.fld_eq]
    exact hst
  have hcnt : (s.dropFabric p (syncreqBytes t1)).stamp16 = 16 * s.cnt := by rw [State.stamp16, hdrop.cnt_eq]
  dsimp only
  rw [State.fabricFlit_chg.regs_eq, hdrop.regs_eq, State.fabricFlit_link hup, hcnt]
  have htx : ((s.dropFabric p (syncreqBytes t1)).link p).txC = (s.link p).txC := by rw [State.dropFabric, State.modLink_same]
  exact ⟨rfl, _, congrArg (· ++ _) htx, syncrspBytes_drop _⟩

/-- A response that this port asked for, with nothing that spoils it (R416, R418). -/
theorem execSyncrspReceive_good {s : State} {p : Fin 32} {r : SyncRsp} {at_ : Fin 16} {t1 : Nat} (hin : s.hasFabric p (syncrspBytes r) = true)
    (ht1 : s.fab.syncT1 = some t1) (hroot : s.fld F.fabSyncctl_root 0 = 0) (hp : p.val = s.syncPort) (hsync : r.synced = true)
    (hstep : r.step = s.step_) (hdepth : r.depth ≤ 7) (hgen : s.gen1 p = false) (hstr : s.fld F.clkState_stretch 0 = 0)
    (hcat : s.fld F.clkState_catchup 0 = 0) (hbad : s.fab.syncBad = false) {phi : Int}
    (hphi : phi = (((r.t2 : Int) - t1) + ((r.t3 : Int) - (16 * s.cnt + at_.val : Nat))) / 2 + r.eps) :
    ∃ v : State, RegsKept [.fabSyncctl, .fabSyncstat] s v ∧ v.fab = { s.fab with syncT1 := none } ∧ v.regions = s.regions ∧
      v.fld F.fabSyncctl_depth 0 = r.depth + 1 ∧
      exec (.syncrspReceive p r at_) s = .next (if s.fld F.ptcState_unsync 0 = 1 then v.syncValue phi
        else if phi < -32 ∨ 32 < phi then v.setUnsync.syncValue phi
        else v.modFab fun f => { f with eps := phi }) := by
  generalize hb : (s.dropFabric p (syncrspBytes r)).modFab (fun f => { f with syncT1 := none }) = b
  have hdrop : Chg { links := true } s (s.dropFabric p (syncrspBytes r)) := State.dropFabric_chg
  have hsb : Chg { links := true, fab := true } s b := by
    rw [← hb]
    exact .via (.via .refl hdrop) .modFab
  have hbfab : b.fab = { s.fab with syncT1 := none } := by
    rw [← hb, ← hdrop.fab_eq]
    rfl
  generalize hv : ((b.setFld F.fabSyncctl_depth 0 (r.depth + 1)).wrapAdd F.fabSyncstat_exch 0 1).setFld F.fabSyncstat_theta 0 (unsgn 32 phi) = v
  have hbv : Chg { regs := true } b v := by
    rw [← hv]
    exact .via (.via .setFld .setFld) .setFld
  have hregs : RegsKept [.fabSyncctl, .fabSyncstat] b v := by
    rw [← hv]
    exact (RegsKept.trans (.setFld (by decide) (by decide)) (.setFld (by decide) (by decide))).trans (.setFld (by decide) (by decide))
  refine ⟨v, (RegsKept.of_chg hsb).trans hregs, hbv.fab_eq.trans hbfab, hbv.regions_eq.trans hsb.regions_eq, ?_, ?_⟩
  · rw [← hv, State.fld_setFld_kind _ (by decide) (by decide) (by decide), State.wrapAdd, State.fld_setFld_kind _ (by decide) (by decide) (by decide),
      State.fld_setFld_eq _ (by decide) (Nat.lt_of_le_of_lt (Nat.succ_le_succ hdepth) (by decide))]
  · have hok : (!r.synced || r.step != b.step_ || decide (7 < r.depth) || b.gen1 p || b.fab.syncBad
        || b.fld F.clkState_stretch 0 == 1 || b.fld F.clkState_catchup 0 == 1) = false := by
      have hbgen : b.gen1 p = false := by
        rw [State.gen1, State.portRole, hsb.fld_eq, State.mode, hsb.img_eq]
        exact hgen
      have hbstep : b.step_ = s.step_ := hsb.fld_eq ..
      rw [hsync, hbstep, hstep, hbgen, hbfab, hbad, hsb.fld_eq, hstr, hsb.fld_eq, hcat, decide_eq_false (by omega)]
      simp
    have hunsync : v.fld F.ptcState_unsync 0 = s.fld F.ptcState_unsync 0 := (hregs.fld _ _ (by decide) (by decide)).trans (hsb.fld_eq ..)
    have hport : ¬((s.dropFabric p (syncrspBytes r)).fld F.fabSyncctl_root 0 = 1 ∨ p.val ≠ (s.dropFabric p (syncrspBytes r)).syncPort) := by
      rw [State.syncPort, hdrop.fld_eq, hdrop.fld_eq, hroot]
      rintro (h | h)
      · cases h
      · exact h hp
    have ht4 : (s.dropFabric p (syncrspBytes r)).stamp16 = 16 * s.cnt := by rw [State.stamp16, hdrop.cnt_eq]
    have ht1' : (s.dropFabric p (syncrspBytes r)).fab.syncT1 = some t1 := by rw [hdrop.fab_eq, ht1]
    show execSyncrspReceive p r at_ s = _
    simp only [execSyncrspReceive, State.onFabric_has hin, ht1', ht4]
    rw [if_neg hport, hb, hok, if_neg Bool.false_ne_true, ← hphi, hv, hunsync]

/-- The spread of four values of phi within the fast band. -/
theorem State.syncValue_locks {s : State} {phi a b c : Int} (hphis : s.fab.phis = [a, b, c]) (hsp : spread [phi, a, b, c] ≤ 16)
    (hrun : s.anyRunning = false) :
    let u := s.syncValue phi
    u.cnt = ((s.cnt : Int) + (phi + 8) / 16).toNat % 2 ^ 64 ∧ u.fab.eps = phi - 16 * ((phi + 8) / 16) ∧
    u.fld F.ptcState_unsync 0 = 0 ∧ u.fab.phis = [] := by
  intro u
  have hgo : ((phi :: s.fab.phis).take 4).length = 4 ∧ spread ((phi :: s.fab.phis).take 4) ≤ 16 ∧ s.anyRunning = false := by
    rw [hphis]
    exact ⟨rfl, hsp, hrun⟩
  have hcount (d : Int) : (s.shiftCount d).cnt = ((s.cnt : Int) + d).toNat % 2 ^ 64 := State.reg_setReg_same ..
  simp only [u, State.syncValue]
  rw [if_pos hgo]
  have hev (v : State) (items : List (Nat × Nat)) : RegsKept [.hstEvstat] v (v.event 0x0297 8 0 items) := .event (by decide)
  refine ⟨?_, rfl, ?_, rfl⟩
  · rw [State.cnt, Chg.modFab.reg_eq, hev _ _ _ _ (by decide) (by decide), State.setFld,
      (RegsKept.setReg (K := [.ptcState]) (by decide) (by decide)) _ _ (by decide) (by decide),
      (RegsKept.setReg (K := [.ptcAdj]) (by decide) (by decide)) _ _ (by decide) (by decide)]
    exact hcount _
  · rw [Chg.modFab.fld_eq, (hev _ _).fld _ _ (by decide) (by decide), State.fld_setFld_eq _ (by decide) (by decide)]

/-- What is unsynchronised after `setUnsync` (R413). -/
theorem State.setUnsync_fields (s : State) :
    s.setUnsync.fld F.ptcState_unsync 0 = (if s.fld F.fabSyncctl_root 0 = 1 ∧ s.clk.refLost = false then 0 else 1) ∧
    RegsKept [.ptcState, .hstEvstat] s s.setUnsync ∧ s.setUnsync.fab.syncT1 = s.fab.syncT1 := by
  have hev (v : State) : RegsKept [.hstEvstat] v (v.event 0x0297 8 0 []) := .event (by decide)
  have hset (v : State) (n : Nat) (hn : n < 2) : ((v.setFld F.ptcState_unsync 0 n).event 0x0297 8 0 []).fld F.ptcState_unsync 0 = n ∧
      RegsKept [.ptcState, .hstEvstat] v ((v.setFld F.ptcState_unsync 0 n).event 0x0297 8 0 []) ∧
      ((v.setFld F.ptcState_unsync 0 n).event 0x0297 8 0 []).fab = v.fab ∧ ((v.setFld F.ptcState_unsync 0 n).event 0x0297 8 0 []).clk = v.clk :=
    ⟨((hev _).fld _ _ (by decide) (by decide)).trans (State.fld_setFld_eq _ (by decide) hn),
      RegsKept.trans (.setFld (by decide) (by decide)) (.event (by decide)), State.event_chg.fab_eq.trans Chg.setFld.fab_eq,
      State.event_chg.clk_eq.trans Chg.setFld.clk_eq⟩
  generalize hv : (if s.fld F.ptcState_unsync 0 = 1 then s else (s.setFld F.ptcState_unsync 0 1).event 0x0297 8 0 []) = v
  obtain ⟨h1, hregs, hfab, hclk⟩ : v.fld F.ptcState_unsync 0 = 1 ∧ RegsKept [.ptcState, .hstEvstat] s v ∧ v.fab = s.fab ∧ v.clk = s.clk := by
    rw [← hv]
    split
    · next h => exact ⟨h, .refl, rfl, rfl⟩
    · exact hset s 1 (by decide)
  have hroot : v.fld F.fabSyncctl_root 0 = s.fld F.fabSyncctl_root 0 := hregs.fld _ _ (by decide) (by decide)
  obtain ⟨h0, hregs', hfab', -⟩ := hset (v.modFab fun f => { f with phis := [] }) 0 (by decide)
  simp only [State.setUnsync]
  rw [hv]
  have hcond : ((v.modFab fun f => { f with phis := [] }).fld F.fabSyncctl_root 0 = 1 ∧ (v.modFab fun f => { f with phis := [] }).clk.refLost = false) ↔
      (s.fld F.fabSyncctl_root 0 = 1 ∧ s.clk.refLost = false) := by
    rw [Chg.modFab.fld_eq, hroot]
    exact and_congr_right fun _ => by rw [← hclk]; rfl
  by_cases hc : s.fld F.fabSyncctl_root 0 = 1 ∧ s.clk.refLost = false
  · rw [if_pos hc, if_pos (hcond.2 hc)]
    refine ⟨h0, (hregs.trans ?_).trans ((hregs').trans .plain), ?_⟩
    · exact .plain
    · show (((v.modFab fun f => { f with phis := [] }).setFld F.ptcState_unsync 0 0).event 0x0297 8 0 []).fab.syncT1 = _
      rw [hfab', ← hfab]
      rfl
  · rw [if_neg hc, if_neg fun h => hc (hcond.1 h)]
    exact ⟨h1, hregs.trans .plain, by rw [← hfab]; rfl⟩

/-- FAB_SYNCCTL written (R412, R413). -/
theorem execFabSyncctlWrite_writes {s : State} {w : Writer} {off : Nat} {v : BitVec 32} (hw : s.mayWrite w = true) :
    Yields (.fabSyncctlWrite w off v) s fun u =>
      u.fld F.fabSyncctl_root 0 = bits v.toNat 31 31 ∧ u.fld F.fabSyncctl_port 0 = bits v.toNat 28 24 ∧
      u.fld F.ptcState_unsync 0 = (if v.getLsbD 31 = true ∧ s.clk.refLost = false then 0 else 1) ∧ u.fab.syncT1 = none := by
  generalize hb : ((s.setFld F.fabSyncctl_root 0 (bits v.toNat 31 31)).setFld F.fabSyncctl_port 0 (bits v.toNat 28 24)).setFld F.fabSyncctl_depth 0
    (if bits v.toNat 31 31 = 1 then 0 else 15) = b
  have hroot : b.fld F.fabSyncctl_root 0 = bits v.toNat 31 31 := by
    rw [← hb, State.fld_setFld_bits _ (by decide), State.fld_setFld_bits _ (by decide), State.fld_setFld_eq _ (by decide)]
    exact bits_lt ..
  have hport : b.fld F.fabSyncctl_port 0 = bits v.toNat 28 24 := by
    rw [← hb, State.fld_setFld_bits _ (by decide), State.fld_setFld_eq _ (by decide)]
    exact bits_lt ..
  have hclk : b.clk = s.clk := by rw [← hb]; rfl
  have hexec : exec (.fabSyncctlWrite w off v) s = .next (b.modFab fun f => { f with syncT1 := none }).setUnsync := by
    show execFabSyncctlWrite w off v s = _
    simp only [execFabSyncctlWrite, State.gated_of_mayWrite hw]
    rw [hb]
  obtain ⟨huns, hregs, hT1⟩ := (b.modFab fun f => { f with syncT1 := none }).setUnsync_fields
  have hbit : bits v.toNat 31 31 = 1 ↔ v.getLsbD 31 = true := by rw [bits_single, BitVec.testBit_toNat]
  refine ⟨_, hexec, ?_⟩
  dsimp only
  rw [huns, hT1, hregs.fld _ _ (by decide) (by decide), hregs.fld _ _ (by decide) (by decide), Chg.modFab.fld_eq, Chg.modFab.fld_eq, hroot,
    hport, Chg.modFab.clk_eq, hclk]
  exact ⟨rfl, rfl, if_congr (and_congr_left fun _ => hbit) rfl rfl, rfl⟩

/-- Settles O34. -/
theorem fabricTablesAndTime : Obligations.FabricTablesAndTime := by
  unfold Obligations.FabricTablesAndTime
  refine ⟨fun s w die off hw => ⟨fun bank id m hst hb hk => execTableWrite_writes hw hst hb hk, fun h => ?drain, fun h hq => ?switch, fun h hq => ?release,
    fun h => ?noDrain, fun h => ?noSwitch, fun h => ?noRelease⟩, fun s p => ⟨execSyncreqSend_sends, fun t1 _ hst hin => execSyncreqReceive_answers hst hin,
    fun r at_ t1 hin ht1 hroot hp hsync hstep hdepth hgen hstr hcat hbad => ?response, fun w off v hw => execFabSyncctlWrite_writes hw⟩⟩
  all_goals try have hd : die.val < 2 ^ 32 := by omega
  case drain => 
    obtain ⟨h1, h2, -⟩ := State.setEpochState_fields (s := s) (st := 1) hd (by decide)
    exact ⟨_, congrArg Host.Outcome.next ((State.gated_of_mayWrite hw).trans (if_pos ⟨rfl, h⟩)), h1, h2⟩
  case switch => exact ⟨_, congrArg Host.Outcome.next (State.gated_of_mayWrite hw), State.epochCmd_switch hd h hq⟩
  case release =>
    obtain ⟨h1, h2, -⟩ := State.setEpochState_fields (s := s) (st := 0) hd (by decide)
    refine ⟨_, congrArg Host.Outcome.next ((State.gated_of_mayWrite hw).trans ?_), h1, h2⟩
    simp only [State.epochCmd, h, hq]
    rfl
  case noDrain => 
    exact congrArg Host.Outcome.next ((State.gated_of_mayWrite hw).trans (State.epochCmd_refused (fun _ => h) (by omega) (by omega)))
  case noSwitch => 
    exact congrArg Host.Outcome.next ((State.gated_of_mayWrite hw).trans (State.epochCmd_refused (by omega) (fun _ => h) (by omega)))
  case noRelease => 
    exact congrArg Host.Outcome.next ((State.gated_of_mayWrite hw).trans (State.epochCmd_refused (by omega) (by omega) fun _ => h))
  case response =>
    intro t4 phi
    obtain ⟨v, hregs, hfab, hregions, hdep, hexec⟩ := execSyncrspReceive_good hin ht1 hroot hp hsync hstep hdepth hgen hstr hcat hbad
      (phi := phi) rfl
    have hcnt : v.cnt = s.cnt := hregs _ _ (by decide) (by decide)
    refine ⟨fun huns hlo hhi => ?_, fun a b c huns hphis hsp hrun => ?_⟩
    · rw [huns, if_neg (by decide), if_neg (by omega)] at hexec
      refine ⟨_, hexec, rfl, hcnt, congrArg Fab.syncT1 hfab, ?_⟩
      rw [Chg.modFab.fld_eq]
      exact hdep
    · rw [huns, if_pos rfl] at hexec
      have hlock := State.syncValue_locks (s := v) (phi := phi) (a := a) (b := b) (c := c) (by rw [hfab]; exact hphis) hsp
        (by simpa only [State.anyRunning, State.running, State.region, hregions] using hrun)
      rw [hcnt] at hlock
      exact ⟨_, hexec, hlock⟩

end Sys2Proof.Machine
end

section
/-!
Fabric packets (R399 to R411).
-/
namespace Sys2Proof.Machine
set_option Elab.async false

theorem Chg.fdie_eq {P : Foot} {s u : State} (h : Chg P s u) (n : Nat) (hP : P.fab = false := by rfl) : u.fdie n = s.fdie n := by
  rw [State.fdie, h.fab_eq hP, State.fdie]

/-! ## Scheduled packets at their source (R399, R400) -/

theorem FabDie.pop_single {d : FabDie} {st t : Nat} {b : List Byte} (h : mget d.streams st [] = [(t, b)]) (hk : keysRise d.streams = true) :
    mget (d.pop st).streams st [] = [] := by
  rw [FabDie.pop, h]
  simp only [List.tail_cons, List.isEmpty_nil, if_true]
  rw [mget, mfind_mdel _ _ hk, if_pos rfl]
  rfl

theorem execScheduledPacketSend_opened {s : State} {die : Fin 2} {st : Fin 64} {t port k : Nat} {b : List Byte}
    (h : mget (s.fdie die).streams st [] = [(t, b)]) (hk : keysRise (s.fdie die).streams = true)
    (ho : mfind (s.fdie die).opened st = some (port, k)) (hport : port < 32) :
    Yields (.scheduledPacketSend die st) s fun u =>
      mget (u.fdie die).streams st [] = [] ∧ (u.link port).outS = (s.link port).outS.map fun o =>
        if o.src = st.val ∧ o.left ≠ 0 then { o with bytes := o.bytes ++ b, left := o.left - b.length } else o := by
  have hexec : exec (.scheduledPacketSend die st) s = .next (s.moveUnit die st port k b) := by
    show execScheduledPacketSend die st s = _
    simp only [execScheduledPacketSend, ho, h, List.length_cons, List.length_nil, State.moveUnits]
  refine ⟨_, hexec, ?_⟩
  simp only [State.moveUnit]
  rw [if_neg (by omega), State.modLink_same, Chg.modFdie.link_eq]
  refine ⟨?_, rfl⟩
  rw [Chg.modLink.fdie_eq, State.modFdie_same]
  exact FabDie.pop_single h hk

theorem execScheduledPacketSend_opens {s : State} {die : Fin 2} {st : Fin 64} {t : Nat} {b : List Byte}
    (h : mget (s.fdie die).streams st [] = [(t, b)]) (hk : keysRise (s.fdie die).streams = true)
    (ho : mfind (s.fdie die).opened st = none) (hfirst : (s.fdie die).firstInOrder st = true) (hok : routeUnitOk b = true) (hb2 : b.getD 2 0 = 0)
    (hdep : s.departOk die (bits (hopWord b 0) 31 27) = true) :
    Yields (.scheduledPacketSend die st) s fun u =>
      mget (u.fdie die).streams st [] = [] ∧
      mfind (u.fdie die).opened st = some (bits (hopWord b 0) 31 27, leNat ((b.drop 4).take 2)) ∧
      (u.link (bits (hopWord b 0) 31 27)).outS = (s.link (bits (hopWord b 0) 31 27)).outS ++
        [⟨st, bits (hopWord b 0) 26 24, bits (hopWord b 0) 16 0, 64 * leNat ((b.drop 4).take 2), b, false⟩] := by
  have hunits : leNat ((b.drop 4).take 2) ≠ 0 := by
    simp only [routeUnitOk, Bool.and_eq_true, decide_eq_true_eq] at hok
    omega
  have hgo : (routeUnitOk b && b.getD 2 0 == 0 && s.departOk die (bits (hopWord b 0) 31 27)) = true := by
    rw [hok, hb2, hdep]
    rfl
  have hexec : exec (.scheduledPacketSend die st) s = .next (s.openStream die st b) := by
    show execScheduledPacketSend die st s = _
    simp only [execScheduledPacketSend, ho, h, hfirst, if_true, List.length_nil, State.moveUnits]
  refine ⟨_, hexec, ?_⟩
  simp only [State.openStream]
  rw [if_pos hgo, State.modLink_same, Chg.modFdie.link_eq]
  refine ⟨?_, ?_, rfl⟩
  · rw [Chg.modLink.fdie_eq, State.modFdie_same]
    exact FabDie.pop_single h hk
  · rw [Chg.modLink.fdie_eq, State.modFdie_same, if_neg hunits, mfind_mput_same]

/-! ## Edge tiles (R402) -/

theorem State.edgeUnit_none {s : State} {die col : Nat} (h : firstEdge col (s.fdie die).edge = none) : s.edgeUnit die col = s := by
  simp only [State.edgeUnit, h]

theorem firstEdge_single (e : EdgeDel) (col : Nat) : firstEdge col [e] = if e.dcol = col then some e else none := rfl

theorem State.edgeUnit_due {s : State} {die : Nat} {e : EdgeDel} (h : (s.fdie die).edge = [e]) (hdue : e.due ≤ s.sched)
    (hlen : 64 * (e.next + 1) ≤ e.bytes.length) (hat : mget (s.fdie die).edgeAt e.dcol 0 ≠ s.sched + 1) :
    let u := s.edgeUnit die e.dcol
    (u.fdie die).edge = (if e.next + 1 < e.units then [{ e with next := e.next + 1 }] else []) ∧
    u.mpkts = s.mpkts ++ [{
      id := s.nextId, kind := .edge, src := tIx ⟨e.dcol, if die = 0 then 0 else 47⟩, dst := tIx ⟨e.dcol, if die = 0 then 0 else 47⟩
      data := (e.bytes.drop (64 * e.next)).take 64, handle := e.handle, off := e.offset + 64 * e.next, issued := s.sched
      depart := some s.sched, land := s.sched + 9 }] := by
  intro u
  have hfirst : firstEdge e.dcol (s.fdie die).edge = some e := by rw [h, firstEdge_single, if_pos rfl]
  simp only [u, State.edgeUnit, hfirst]
  rw [if_neg (by omega)]
  refine ⟨?_, rfl⟩
  have hpk (v : State) (q : MPkt) : (v.newPkt q).fdie die = v.fdie die := rfl
  rw [hpk, State.modFdie_same]
  simp only [h, List.map_cons, List.map_nil, and_self, if_true, List.filter_cons, List.filter_nil]
  split <;> simp_all

theorem State.edgeUnits_apart (l : List Nat) {s : State} {die : Nat} (h : ∀ x ∈ l, firstEdge x (s.fdie die).edge = none) :
    l.foldl (fun s x => s.edgeUnit die x) s = s := by
  induction l with
  | nil => rfl
  | cons x l ih =>
    rw [List.foldl_cons, State.edgeUnit_none (h x List.mem_cons_self)]
    exact ih fun y hy => h y (List.mem_cons_of_mem _ hy)

/-- A column's turn among all columns of a die, where the others have nothing. -/
theorem State.edgeUnits_one {s : State} {die n x : Nat} (hx : x < n) (h : ∀ y, y ≠ x → firstEdge y (s.fdie die).edge = none)
    (h' : ∀ y, y ≠ x → firstEdge y ((s.edgeUnit die x).fdie die).edge = none) :
    (List.range n).foldl (fun s x => s.edgeUnit die x) s = s.edgeUnit die x := by
  obtain ⟨k, rfl⟩ := Nat.exists_eq_add_of_lt hx
  rw [show x + k + 1 = x + (k + 1) from rfl, List.range_add, List.range_succ_eq_map, List.map_cons, List.foldl_append,
    State.edgeUnits_apart _ (fun y hy => h y (by have := List.mem_range.1 hy; omega)), List.foldl_cons, Nat.add_zero]
  refine State.edgeUnits_apart _ fun y hy => h' y ?_
  simp only [List.mem_map, List.mem_range] at hy
  obtain ⟨z, ⟨w, -, rfl⟩, rfl⟩ := hy
  omega

theorem execEdgeUnitDelivery_one {s : State} {die : Fin 2} {e : EdgeDel} (hheld : s.held = false) (hwin : windowSlot s.sched = false)
    (h : (s.fdie die).edge = [e]) (hcol : e.dcol < s.cols) (hdue : e.due ≤ s.sched)
    (hlen : 64 * (e.next + 1) ≤ e.bytes.length) (hat : mget (s.fdie die).edgeAt e.dcol 0 ≠ s.sched + 1) :
    Yields (.edgeUnitDelivery die) s fun u =>
      (u.fdie die).edge = (if e.next + 1 < e.units then [{ e with next := e.next + 1 }] else []) ∧
      ∃ p, u.mpkts = s.mpkts ++ [p] ∧ p.kind = .edge ∧ p.dst = tIx ⟨e.dcol, if die = 0 then 0 else 47⟩ ∧ p.handle = e.handle ∧
        p.off = e.offset + 64 * e.next ∧ p.data = (e.bytes.drop (64 * e.next)).take 64 ∧ p.land = s.sched + 9 := by
  obtain ⟨hedge, hpk⟩ := State.edgeUnit_due h hdue hlen hat
  have hother : ∀ y, y ≠ e.dcol → firstEdge y (s.fdie die).edge = none := fun y hy => by
    rw [h, firstEdge_single, if_neg (fun he => hy he.symm)]
  have hafter : ∀ y, y ≠ e.dcol → firstEdge y ((s.edgeUnit die e.dcol).fdie die).edge = none := fun y hy => by
    rw [hedge]
    split
    · rw [firstEdge_single, if_neg (fun he => hy he.symm)]
    · rfl
  have hexec : exec (.edgeUnitDelivery die) s = .next (s.edgeUnit die e.dcol) := by
    show execEdgeUnitDelivery die s = _
    simp only [execEdgeUnitDelivery, hheld, hwin, Bool.or_self]
    rw [if_neg Bool.false_ne_true, State.edgeUnits_one hcol hother hafter]
  refine ⟨_, hexec, hedge, _, hpk, rfl, ?_, rfl, rfl, rfl, rfl⟩
  have hdie : (die = 0) ↔ (die.val = 0) := Fin.ext_iff
  simp only [hdie]

/-! ## Packets on their way (R407 to R411) -/

/-- The state in which a die that keeps no packet waiting routes one. -/
theorem State.routeWaiting_nil {s : State} {die : Nat} (h : (s.fdie die).router = []) :
    s.routeWaiting die = s.modFdie die fun d => { d with router := [] } := by
  simp only [State.routeWaiting, h, List.foldl_nil]

theorem State.nextOrigin_first {s : State} {die : Nat} {p : Packet} {rest : List Packet} (h : (s.fdie die).origin = p :: rest)
    (hst : s.epochState die ≠ 1) : s.nextOrigin die = some (p, rest) := by
  have hgo : (!(pktBulk p && s.epochState die == 1)) = true := by
    rw [beq_false_of_ne hst, Bool.and_false]
    rfl
  simp only [State.nextOrigin, h, List.find?_cons, List.takeWhile_cons, List.dropWhile_cons, hgo, Bool.not_true, Bool.false_eq_true, if_false,
    List.nil_append, List.drop_succ_cons, List.drop_zero]

/-- The next packet of a die leaves its origin queue for its route. -/
theorem execPacketRoute_origin {s : State} {die : Fin 2} {p : Packet} {rest : List Packet} (hr : (s.fdie die).router = [])
    (h : (s.fdie die).origin = p :: rest) (hst : s.epochState die ≠ 1) :
    exec (.packetRoute die .origin) s =
      .next ((s.modFdie die fun d => { d with router := [], origin := rest }).routePkt die { p with epoch := s.epoch die }) := by
  have hnext : (s.modFdie die fun d => { d with router := [] }).nextOrigin die = some (p, rest) :=
    State.nextOrigin_first (by rw [State.modFdie_same]; exact h) hst
  have hboth : (s.modFdie die fun d => { d with router := [] }).modFdie die (fun d => { d with origin := rest }) =
      s.modFdie die fun d => { d with router := [], origin := rest } := by
    rw [State.modFdie, State.modFdie_same]
    simp only [State.modFdie, mput_mput_same]
  show execPacketRoute die .origin s = _
  simp only [execPacketRoute, State.routeWaiting_nil hr, hnext, hboth]
  rfl


/-- The epoch and state of a die, its ports and its tables stay while its queues change. -/
theorem State.accepts_own (s : State) (die : Nat) : s.accepts die (s.epoch die) = true := by
  simp only [State.accepts, beq_self_eq_true, Bool.true_or]

/-- A port for a packet depends on the ports, the tables and the routes kept. -/
theorem State.portFor_modFdie {s : State} {die : Nat} {f : FabDie → FabDie} {p : Packet} (hr : (f (s.fdie die)).routes = (s.fdie die).routes)
    (h0 : (f (s.fdie die)).bank0 = (s.fdie die).bank0) (h1 : (f (s.fdie die)).bank1 = (s.fdie die).bank1) :
    (s.modFdie die f).portFor die p = s.portFor die p ∧ ∀ e d, (s.modFdie die f).tableMask die e d = s.tableMask die e d := by
  have hmask (e d : Nat) : (s.modFdie die f).tableMask die e d = s.tableMask die e d := by
    rw [State.tableMask, State.modFdie_same, FabDie.bank, h0, h1, ← FabDie.bank]
    rfl
  refine ⟨?_, hmask⟩
  rw [State.portFor, hmask, State.modFdie_same, hr]
  rfl

theorem State.leaveOn_fields (s : State) (die q : Nat) (p : Packet) :
    ((s.leaveOn die q p).fdie die).origin = (s.fdie die).origin ∧
    (s.leaveOn die q p).link q = (if pktBulk p then { s.link q with txB := (s.link q).txB ++ pktFlits p }
      else { s.link q with txM := (s.link q).txM ++ pktFlits p }) := by
  have hq : (s.queueOn q p).link q = (if pktBulk p then { s.link q with txB := (s.link q).txB ++ pktFlits p }
      else { s.link q with txM := (s.link q).txM ++ pktFlits p }) := by rw [State.queueOn, State.modLink_same]
  have hd : (s.queueOn q p).fdie die = s.fdie die := State.queueOn_chg.fdie_eq die
  simp only [State.leaveOn]
  split
  · exact ⟨by rw [hd], hq⟩
  · rw [State.modFdie_same, Chg.modFdie.link_eq, hd]
    exact ⟨rfl, hq⟩

theorem State.noRoute_fields (s : State) {die : Nat} (p : Packet) (hd : die < 2 ^ 32) :
    (s.noRoute die p).links = s.links ∧ (s.noRoute die p).fld F.fabDisc_noroute die = min (s.fld F.fabDisc_noroute die + 1) 65535 := by
  refine ⟨State.noRoute_chg.links_eq, ?_⟩
  unfold State.noRoute
  rw [State.notice_chg.fld_eq, State.satAdd, (RegsKept.event (K := [.hstEvstat]) (by decide)).fld _ _ hd (by decide), State.fld_setFld_eq _ (by decide)]
  · rfl
  · exact Nat.lt_of_le_of_lt (Nat.min_le_right ..) (by decide)

theorem State.sendMsg_router (s : State) (dest type : Nat) (ref : BitVec 64) (args : List Nat) (body : List Byte) (die : Nat) :
    ((s.sendMsg dest type ref args body).fdie die).router = (s.fdie die).router := by
  rw [State.sendMsg, State.fdie, State.modFdie, mget_mput_ite]
  split
  · next h =>
    rw [h]
    rfl
  · rfl

theorem State.noRoute_router (s : State) (die : Nat) (p : Packet) : ((s.noRoute die p).fdie die).router = (s.fdie die).router := by
  have h : ((s.event 0x0292 8 0 []).satAdd F.fabDisc_noroute die 1).fdie die = s.fdie die := by
    rw [Chg.satAdd.fdie_eq, State.event_chg.fdie_eq]
  unfold State.noRoute State.notice
  split
  · rw [h]
  · rw [State.sendMsg_router, h]

theorem execPacketRoute_origin_own {s : State} {die : Fin 2} {p : Packet} {rest : List Packet} (hr : (s.fdie die).router = [])
    (h : (s.fdie die).origin = p :: rest) (hst : s.epochState die ≠ 1) (ht : fabricType p.type = true) (hown : p.dest = s.ownId) :
    Yields (.packetRoute die .origin) s fun u =>
      (u.fdie die).origin = rest ∧ (u.fdie die).arrived = (s.fdie die).arrived ++ [{ p with epoch := s.epoch die }] ∧ u.links = s.links := by
  have hroute : ((s.modFdie die fun d => { d with router := [], origin := rest }).routePkt die { p with epoch := s.epoch die }) =
      (s.modFdie die fun d => { d with router := [], origin := rest }).deliver die { p with epoch := s.epoch die } := by
    simp only [State.routePkt, ht]
    rw [if_neg (by decide), if_pos (show p.dest = (s.modFdie die _).ownId from hown)]
  refine ⟨_, execPacketRoute_origin hr h hst, ?_⟩
  dsimp only
  rw [hroute, State.deliver, State.modFdie_same, State.modFdie_same]
  exact ⟨rfl, rfl, rfl⟩

theorem execPacketRoute_origin_out {s : State} {die : Fin 2} {p : Packet} {rest : List Packet} (hr : (s.fdie die).router = [])
    (h : (s.fdie die).origin = p :: rest) (hst : s.epochState die ≠ 1) (ht : fabricType p.type = true) (hown : p.dest ≠ s.ownId) :
    ∃ v : State, (v.fdie die).origin = rest ∧ v.links = s.links ∧ v.regs = s.regs ∧ v.img = s.img ∧ v.fuses = s.fuses ∧
      exec (.packetRoute die .origin) s = .next (if s.tableMask die (s.epoch die) p.dest = 0 then v.noRoute die { p with epoch := s.epoch die }
        else match s.portFor die { p with epoch := s.epoch die } with
          | some q => v.leaveOn die q { p with epoch := s.epoch die }
          | none => v.modFdie die fun d => { d with router := d.router ++ [({ p with epoch := s.epoch die }, s.wall)] }) := by
  obtain ⟨hport, hmask⟩ := State.portFor_modFdie (s := s) (die := die) (f := fun d => { d with router := [], origin := rest })
    (p := { p with epoch := s.epoch die }) rfl rfl rfl
  refine ⟨s.modFdie die fun d => { d with router := [], origin := rest }, by rw [State.modFdie_same], rfl, rfl, rfl, rfl,
    (execPacketRoute_origin hr h hst).trans (congrArg Host.Outcome.next ?_)⟩
  have haccept : (s.modFdie die fun d => { d with router := [], origin := rest }).accepts die (s.epoch die) = true := s.accepts_own die
  simp only [State.routePkt, ht, haccept, hmask, hport]
  rw [if_neg (by decide), if_neg (show ¬p.dest = (s.modFdie die _).ownId from hown), if_neg (by decide)]
  rfl

theorem execNorouteTimeout_due {s : State} {die : Fin 2} {p : Packet} {t : Nat} (h : (s.fdie die).router = [(p, t)])
    (hport : s.portFor die p = none) (hdue : t + 100 * s.fld F.fabCtl_noroute 0 ≤ s.wall) :
    Yields (.norouteTimeout die) s fun u =>
      (u.fdie die).router = [] ∧ u.fld F.fabDisc_noroute die = min (s.fld F.fabDisc_noroute die + 1) 65535 := by
  have hport' := (State.portFor_modFdie (s := s) (die := die) (f := fun d => { d with router := [] }) (p := p) rfl rfl rfl).1.trans hport
  have hwait : s.routeWaiting die = s.modFdie die fun d => { d with router := [(p, t)] } := by
    simp only [State.routeWaiting, h, List.foldl_cons, List.foldl_nil, hport']
    rw [State.modFdie, State.modFdie_same]
    simp only [State.modFdie, mput_mput_same, List.nil_append]
  have hrouter : ((s.routeWaiting die).fdie die).router = [(p, t)] := by rw [hwait, State.modFdie_same]
  have hregs : RegsKept [] s (s.routeWaiting die) := by
    rw [hwait]
    exact .plain
  have hexec : exec (.norouteTimeout die) s = .next (((s.routeWaiting die).modFdie die fun d => { d with router := [] }).noRoute die p) := by
    show execNorouteTimeout die s = _
    simp only [execNorouteTimeout, hrouter]
    rw [if_pos]
    rw [hregs.fld _ _ (by decide) (by decide), State.wall, hregs _ _ (by decide) (by decide)]
    exact hdue
  refine ⟨_, hexec, ?_, ?_⟩
  · rw [State.noRoute_router, State.modFdie_same]
  · rw [(State.noRoute_fields _ p (by omega)).2, Chg.modFdie.fld_eq, hregs.fld _ _ (by omega) (by decide)]


/-! ## Fragments and messages (R407, R411) -/

theorem State.onMsg_has {s : State} {type : Nat} {mine : Reasm → Bool} {f : State → State} (h : s.hasMsg type mine = true) :
    s.onMsg type mine f = f (s.dropMsg type mine) := if_pos h

theorem State.onArrived_has {s : State} {mine : Packet → Bool} {f : State → State} (h : s.hasArrived mine = true) :
    s.onArrived mine f = f (s.dropArrived mine) := if_pos h

theorem execUndeliverableNotice_other {s : State} {type : Nat} {ref : BitVec 64} {cause : Fin 4} (htype : type ≠ 1)
    (h : s.hasMsg 0x10 (fun m => m.says ref (noticeBytes type ref cause)) = true) :
    exec (.undeliverableNotice type ref cause) s =
      .next (((s.dropMsg 0x10 fun m => m.says ref (noticeBytes type ref cause)).satAdd F.fabDisc_notices 0 1).event 0x0294 8 0 [(8, ref.toNat)]) := by
  refine congrArg Host.Outcome.next ((State.onMsg_has h).trans ?_)
  rw [if_neg htype, if_neg (fun hn => htype hn.1)]

/-- A fragment taken from those that arrived: what it does to the messages in reassembly (R407). -/
theorem execFragmentReceive_arrived {s : State} {p : Packet} (h : s.hasArrived (· == p) = true) (hb : pktBulk p = false) (hf : p.frag < p.frags) :
    (p.frags = 1 → Yields (.fragmentReceive p) s fun u =>
      u.fab.inbox = s.fab.inbox ++ [⟨p.type, p.origin, p.ref, 1, [(0, p.body)], s.wall⟩]) ∧
    (p.frags ≠ 1 → s.fab.reasm.find? (·.ofPkt p) = none →
      Yields (.fragmentReceive p) s fun u =>
        u.fab.inbox = s.fab.inbox ∧ u.fab.reasm = s.fab.reasm ++ (if s.fab.reasm.length < 8
          then [⟨p.type, p.origin, p.ref, p.frags, [(p.frag, p.body)], s.wall⟩] else [])) ∧
    (∀ r, p.frags ≠ 1 → s.fab.reasm.find? (·.ofPkt p) = some r → r.got.length + 1 = r.frags →
      (∀ g ∈ r.got, g.1 ≠ p.frag) → (mput r.got p.frag p.body).length = r.got.length + 1 →
      Yields (.fragmentReceive p) s fun u =>
        u.fab.inbox = s.fab.inbox ++ [{ r with got := mput r.got p.frag p.body }] ∧
        u.fab.reasm = s.fab.reasm.filter fun q => !q.ofPkt p) := by
  have hexec : exec (.fragmentReceive p) s = .next (s.onArrived (· == p) fun s =>
      if p.frags ≤ p.frag then s
      else if p.frags = 1 then s.inbox ⟨p.type, p.origin, p.ref, 1, [(0, p.body)], s.wall⟩
      else
        match s.fab.reasm.find? (·.ofPkt p) with
        | none =>
          if 8 ≤ s.fab.reasm.length then s.fragEvent p.type p.origin p.ref.toNat
          else s.modFab fun f =>
            { f with reasm := f.reasm ++ [⟨p.type, p.origin, p.ref, p.frags, [(p.frag, p.body)], s.wall⟩] }
        | some r =>
          if r.got.any (fun g => g.1 == p.frag) then s
          else
            let r := { r with got := mput r.got p.frag p.body }
            if r.got.length = r.frags then
              (s.modFab fun f => { f with reasm := f.reasm.filter fun q => !q.ofPkt p }).inbox r
            else s.modFab fun f => { f with reasm := f.reasm.map fun q => if q.ofPkt p then r else q }) := by
    show execFragmentReceive p s = _
    simp only [execFragmentReceive, hb]
    rfl
  rw [State.onArrived_has h, if_neg (by omega)] at hexec
  have hreasm : (s.dropArrived (· == p)).fab.reasm = s.fab.reasm := rfl
  have hinbox : (s.dropArrived (· == p)).fab.inbox = s.fab.inbox := rfl
  refine ⟨fun h1 => ?_, fun h1 hnone => ?_, fun r h1 hsome hlen hnew hput => ?_⟩
  · rw [if_pos h1] at hexec
    exact ⟨_, hexec, rfl⟩
  · rw [if_neg h1, hreasm, hnone] at hexec
    refine ⟨_, hexec, ?_⟩
    dsimp only
    by_cases h8 : 8 ≤ s.fab.reasm.length
    · rw [if_pos h8, if_neg (by omega), State.fragEvent, State.event_chg.fab_eq, List.append_nil]
      exact ⟨rfl, rfl⟩
    · rw [if_neg h8, if_pos (by omega)]
      exact ⟨rfl, rfl⟩
  · have hany : ¬r.got.any (fun g => g.1 == p.frag) = true := by
      simp only [List.any_eq_true, beq_iff_eq, not_exists, not_and]
      exact hnew
    rw [if_neg h1, hreasm, hsome] at hexec
    dsimp only at hexec
    rw [if_neg hany, if_pos (hput.trans hlen)] at hexec
    exact ⟨_, hexec, rfl, rfl⟩

theorem execReassemblyTimeout_due {s : State} {type origin : Nat} {ref : BitVec 64} {r : Reasm}
    (h : s.fab.reasm.find? (fun r => r.type == type && r.origin == origin && r.ref == ref) = some r) (hdue : r.since + 100000 ≤ s.wall) :
    Yields (.reassemblyTimeout type origin ref) s fun u =>
      u.fab.reasm = s.fab.reasm.filter (fun r => !(r.type == type && r.origin == origin && r.ref == ref)) ∧
      u.fab.inbox = s.fab.inbox := by
  have hexec : exec (.reassemblyTimeout type origin ref) s = .next ((s.modFab fun f =>
      { f with reasm := f.reasm.filter fun q => !(q.type == type && q.origin == origin && q.ref == ref) }).fragEvent type origin ref.toNat) := by
    show execReassemblyTimeout type origin ref s = _
    simp only [execReassemblyTimeout, h]
    rw [if_pos hdue]
  refine ⟨_, hexec, ?_⟩
  dsimp only
  rw [State.fragEvent, State.event_chg.fab_eq]
  exact ⟨rfl, rfl⟩

/-- Settles O35. -/
theorem fabricPackets : Obligations.FabricPackets := by
  unfold Obligations.FabricPackets
  intro s die d
  refine ⟨fun st t b h hk => ⟨fun port k ho hport => execScheduledPacketSend_opened h hk ho hport,
      fun ho hfirst hok hb2 hdep => execScheduledPacketSend_opens h hk ho hfirst hok hb2 hdep⟩,
    fun e hheld hwin h hcol hdue hlen hat => execEdgeUnitDelivery_one hheld hwin h hcol hdue hlen hat,
    fun p rest hr h hst ht hown => execPacketRoute_origin_own hr h hst ht hown,
    fun p rest hr h hst ht hown => ?out, fun p t h hport hdue => execNorouteTimeout_due h hport hdue,
    fun type ref cause htype h => execUndeliverableNotice_other htype h,
    fun p h hb hf => execFragmentReceive_arrived h hb hf, fun type origin ref r h hdue => execReassemblyTimeout_due h hdue⟩
  case out =>
    obtain ⟨v, horigin, hlinks, hregs, himg, hfuses, hexec⟩ := execPacketRoute_origin_out hr h hst ht hown
    refine ⟨fun q hq hmask => ⟨_, hexec, ?_⟩, fun hmask => ⟨_, hexec, ?_⟩⟩
    · dsimp only
      obtain ⟨hleft, hlink⟩ := v.leaveOn_fields die q { p with epoch := s.epoch die }
      have hvq : v.link q = s.link q := by rw [State.link, hlinks, State.link]
      rw [if_neg hmask, hq]
      dsimp only
      rw [hleft, hlink, hvq]
      exact ⟨horigin, rfl⟩
    · dsimp only
      obtain ⟨hl, hcount⟩ := v.noRoute_fields (die := die) { p with epoch := s.epoch die } (by omega)
      have hfld : v.fld F.fabDisc_noroute die = s.fld F.fabDisc_noroute die :=
        (RegsKept.plain (K := []) hregs himg hfuses).fld _ _ (by omega) (by decide)
      rw [if_pos hmask, hl, hcount, hlinks, hfld]
      exact ⟨rfl, rfl⟩

end Sys2Proof.Machine
end

section
/-!
Launches and launch trees (R342 to R344, R423 to R430).
-/
namespace Sys2Proof.Machine
set_option Elab.async false

/-! ## Commands that complete (R345) -/

theorem State.begins.notStopped {s : State} {i : Instr} {c : Cmd} {opcode : Nat} {allFns : Bool} (h : s.begins i c opcode allFns) :
    s.ringStopped c.fn = false := by
  have hready := h.1
  simp only [State.cmdReady, State.ringsFree, Bool.and_eq_true, Bool.not_eq_true'] at hready
  obtain ⟨⟨⟨⟨⟨-, hs⟩, -⟩, -⟩, -⟩, -⟩ := hready
  exact hs

theorem State.completed {s v : State} {c : Cmd} {opcode status result : Nat} (hop : opcode ≠ 1) (hs : v.ringStopped c.fn = false)
    (hc : (v.func c.fn).cpls = (s.func c.fn).cpls) : Completed s (v.complete c opcode status result) c opcode status result := by
  unfold Completed State.complete
  rw [if_neg hop]
  dsimp only
  rw [if_neg (by rw [hs]; decide), State.modFunc_same, hc]

theorem State.ringStopped_popCmd (s : State) (c : Cmd) (k : Nat) : (s.popCmd c).ringStopped k = s.ringStopped k := rfl

/-- A command that begins, and completes at once. -/
theorem State.begins.completed {s : State} {i : Instr} {c : Cmd} {opcode status result : Nat} {allFns : Bool} (h : s.begins i c opcode allFns)
    (hop : opcode ≠ 1) : Completed s ((s.popCmd c).complete c opcode status result) c opcode status result :=
  State.completed hop ((s.ringStopped_popCmd c _).trans h.notStopped) (s.cpls_popCmd c _)

/-! ## Messages sent leave the launches (R423) -/

/-- The launches stay, and what was sent stays sent. -/
def State.Mailed (s u : State) : Prop := u.fab.launches = s.fab.launches ∧ ∃ l, u.fab.sent = s.fab.sent ++ l

namespace State.Mailed

variable {s u v : State}

theorem refl : s.Mailed s := ⟨rfl, [], (List.append_nil _).symm⟩

theorem trans (h : s.Mailed u) (k : u.Mailed v) : s.Mailed v := by
  obtain ⟨hl, l, hs⟩ := h
  obtain ⟨kl, m, ks⟩ := k
  exact ⟨kl.trans hl, l ++ m, by rw [ks, hs, List.append_assoc]⟩

theorem of_fab (h : u.fab = s.fab) : s.Mailed u := ⟨by rw [h], [], by rw [h, List.append_nil]⟩

theorem of_chg {P : Foot} (h : Chg P s u) (hP : P.fab = false := by rfl) : s.Mailed u := of_fab (h.fab_eq hP)

theorem foldl {α : Type} {g : State → α → State} (hg : ∀ (v : State) x, v.Mailed (g v x)) (l : List α) (h : s.Mailed u) : s.Mailed (l.foldl g u) := by
  induction l generalizing u with
  | nil => exact h
  | cons x l ih => exact ih (h.trans (hg u x))

theorem ite {c : Prop} [Decidable c] (h : s.Mailed u) (k : s.Mailed v) : s.Mailed (if c then u else v) := by
  split <;> assumption

theorem sendMsg {dest type : Nat} {ref : BitVec 64} {args : List Nat} {body : List Byte} : s.Mailed (s.sendMsg dest type ref args body) :=
  ⟨rfl, _, rfl⟩

theorem toNode {L : LaunchSt} {i type : Nat} {args : List Nat} : s.Mailed (s.toNode L i type args) := sendMsg

theorem upTree {L : LaunchSt} {type : Nat} {args : List Nat} : s.Mailed (s.upTree L type args) := by
  unfold State.upTree
  exact .ite (.trans (.ite .toNode .refl) .toNode) (.ite .toNode .refl)

theorem lack {L : LaunchSt} : s.Mailed (s.lack L) := upTree

theorem launchBy (h : s.Mailed u) (id : BitVec 64) : u.launchBy id = s.launchBy id := by
  rw [State.launchBy, h.1, State.launchBy]

theorem mem_sent (h : s.Mailed u) {m : Msg} (hm : m ∈ s.fab.sent) : m ∈ u.fab.sent := by
  obtain ⟨-, l, hs⟩ := h
  rw [hs]
  exact List.mem_append_left _ hm

end State.Mailed

/-! ## The launches held -/

theorem find?_map_kept {α : Type} {p : α → Bool} {g : α → α} (hg : ∀ a, p (g a) = p a) (l : List α) : (l.map g).find? p = (l.find? p).map g := by
  rw [List.find?_map]
  congr 2
  funext a
  exact hg a

theorem State.launchBy_modLaunch (s : State) (id : BitVec 64) {f : LaunchSt → LaunchSt} (hf : ∀ L, (f L).tree = L.tree) :
    (s.modLaunch id f).launchBy id = (s.launchBy id).map f := by
  have hg (L : LaunchSt) : ((if L.tree.launchId = id then f L else L).tree.launchId == id) = (L.tree.launchId == id) := by
    split
    · rw [hf]
    · rfl
  rw [State.launchBy, State.modLaunch]
  show (s.fab.launches.map fun L => if L.tree.launchId = id then f L else L).find? _ = _
  rw [find?_map_kept hg, ← State.launchBy]
  cases h : s.launchBy id with
  | none => rfl
  | some L =>
    have hid : L.tree.launchId = id := by simpa using List.find?_some h
    simp only [Option.map_some, if_pos hid]

theorem State.sent_modLaunch (s : State) (id : BitVec 64) (f : LaunchSt → LaunchSt) : (s.modLaunch id f).fab.sent = s.fab.sent := rfl

theorem State.launchBy_retire (s : State) (r : Nat) (keep : Option (BitVec 64)) (id : BitVec 64) :
    ∃ f : LaunchSt → LaunchSt, (∀ L, f L = L ∨ f L = { L with passedBy := true }) ∧ (s.retire r keep).launchBy id = (s.launchBy id).map f := by
  refine ⟨fun L => if L.region = r ∧ keep ≠ some L.tree.launchId then { L with passedBy := true } else L, fun L => ?_, ?_⟩
  · dsimp only
    split
    · exact .inr rfl
    · exact .inl rfl
  · refine find?_map_kept (fun L => ?_) _
    split <;> rfl

/-- The launch that a tree begins on this module (R424). -/
theorem State.treeBegins_fields (s : State) (t : Tree) (node count : Nat) (arm : Bool) :
    let u := s.treeBegins t node count arm
    (∃ L, u.launchBy t.launchId = some L ∧ L.tree = t ∧ L.node = node ∧ L.arm = arm ∧ L.readys = [] ∧ L.released = false) ∧
    u.reg .fabLaunch 0 = t.launchId.toNat ∧ u.fab.sent = s.fab.sent := by
  intro u
  refine ⟨⟨_, List.find?_cons_of_pos (by simp), rfl, rfl, rfl, rfl, rfl⟩, ?_, rfl⟩
  have hkept (v : State) (x y z : Nat) : RegsKept [.fabLstat] v
      ((((v.setReg .fabLstat 0 0).setFld F.fabLstat_state 0 x).setFld F.fabLstat_node 0 y).setFld F.fabLstat_nodes 0 z) :=
    (((RegsKept.setReg (by decide) (by decide)).trans (.setFld (by decide) (by decide))).trans (.setFld (by decide) (by decide))).trans
      (.setFld (by decide) (by decide))
  simp only [u, State.treeBegins]
  rw [Chg.modFab.reg_eq, hkept _ _ _ _ _ _ (by decide) (by decide), State.reg_setReg_same]
  exact Nat.mod_eq_of_lt t.launchId.isLt


/-! ## A run that starts (R342, R579) -/

/-- The registers that an install writes (R82). -/
def installKinds : List RegKind := [.hstEvstat, .memStat, .ptcRepro, .memErrlog, .tilPadctl]

theorem RegsKept.textRead {s : State} {addr n : Nat} {res : List (Nat × GranRes)} : RegsKept granKinds s (s.textRead addr n res) := by
  unfold State.textRead State.textRecord
  exact .foldl (fun _ _ => .of_chg State.granBusy_chg) _ (.foldl (fun _ _ => .granRecord) _ .refl)

theorem foldl_mem {α : Type} {Q : State → Prop} {g : State → α → State} {l : List α} (hg : ∀ v, ∀ x ∈ l, Q v → Q (g v x)) {s : State} (h : Q s) :
    Q (l.foldl g s) := by
  induction l generalizing s with
  | nil => exact h
  | cons x l ih => exact ih (fun v y hy => hg v y (List.mem_cons_of_mem _ hy)) (hg s x List.mem_cons_self h)

theorem RegsKept.install {s : State} {r : Nat} {p : Plan} {reads : List (Nat × GranRes)} : RegsKept installKinds s (s.install r p reads) := by
  unfold State.install
  extract_lets n v gone w x
  have hv : RegsKept installKinds s v := RegsKept.textRead.mono (by decide)
  have hw : RegsKept installKinds s w := foldl_mem (Q := fun u => RegsKept installKinds s u)
    (fun u t ht hu => (hu.trans (.plain (u := u.modTile (tIx t) _))).trans (.setReg (State.mem_tilesOf ht).2.2 (by decide))) hv
  exact (hw.trans (.foldl (fun _ _ => .of_chg .modGal) _ .refl)).trans (.of_chg .modRegion)

/-- What starting a run writes of its region, and what it leaves. -/
theorem State.startRun_split {s : State} {r plan : Nat} {p : Plan} {rec_ : RegionRec} (hp : s.planOf plan = some p) (hr : s.regionRec r = some rec_)
    (cmd : Option Cmd) (mode : StartMode) (count : Nat) (reads : List (Nat × GranRes)) (tree : Bool) :
    ∃ (v : State) (since : Nat) (lost : List (Nat × GranRes)),
      Chg { fns := true, regs := true, occ := true, chans := true, tiles := true, gals := true, regions := true }
        (if tree = true then s else s.retire r none) v ∧
      RegsKept installKinds (if tree = true then s else s.retire r none) v ∧
      Chg { engs := true, ext := true, wts := true, chans := true, mir := true }
        (v.modRegion r fun R =>
          { R with running := true, launchPlan := plan, instEnd := since, begun := false, cmd := cmd, lastLaunch := v.wall, inInv := false
                   stops := [], armed := rec_.role == 2, pend := if rec_.role = 2 then none else some ⟨since, mode, count, none, none, lost⟩
                   series := if rec_.role = 0 then none else some { tree := tree } })
        (s.startRun r plan cmd mode count reads tree) := by
  simp only [State.startRun, hp, hr]
  generalize hb : (if tree = true then s else s.retire r none) = b
  generalize hg : (!(b.gatedGals r).isEmpty) = gated
  generalize hf : (gated || (b.region r).plan != some plan) = fresh
  generalize hs : b.cnt + (if gated = true then 16384 else 0) + (if fresh = true then 6 * installBlocks p + 40 else 0) = since
  generalize hl : (if gated = true then reads else []) = lost
  generalize hv : (if gated = true then b.modRegion r fun R => { R with wake := some (b.cnt + 16384), plan := none }
    else if fresh = true then b.install r p reads else b) = v
  have hbv : Chg { fns := true, regs := true, occ := true, chans := true, tiles := true, gals := true, regions := true } b v := by
    rw [← hv]
    exact .ite (.mono .modRegion) (.ite State.install_chg .refl)
  have hregs : RegsKept installKinds b v := by
    rw [← hv]
    exact .ite (.of_chg .modRegion) (.ite .install .refl)
  refine ⟨v, since, lost, hbv, hregs, ?_⟩
  generalize hw : (v.modRegion r fun R =>
          { R with running := true, launchPlan := plan, instEnd := since, begun := false, cmd := cmd, lastLaunch := v.wall, inInv := false
                   stops := [], armed := rec_.role == 2, pend := if rec_.role = 2 then none else some ⟨since, mode, count, none, none, lost⟩
                   series := if rec_.role = 0 then none else some { tree := tree } }) = w
  have heng (l : List Nat) : Chg { engs := true, ext := true, wts := true, chans := true, mir := true } w
      (l.foldl (fun s e => s.modEng e fun E => { E with tabStep := 0, slots := [], pres := [] }) w) :=
    .mono (.foldl (fun _ _ => .modEng) _ .refl)
  generalize hx : (w.enginesOf r).foldl (fun s e => s.modEng e fun E => { E with tabStep := 0, slots := [], pres := [] }) w = x
  have hwx := heng (w.enginesOf r)
  rw [hx] at hwx
  exact .via (.via (.ite (.via hwx State.sealBuffer_chg) (.ite (.via hwx State.sealStep_chg) hwx)) State.loadBin_chg) State.hbSeries_chg

/-- What a started run is on its region. -/
structure Region.Started (R : Region) (plan : Nat) (cmd : Option Cmd) (mode : StartMode) (count role : Nat) : Prop where
  running : R.running = true
  plan : R.launchPlan = plan
  cmd : R.cmd = cmd
  begun : R.begun = false
  pend : role ≠ 2 → ∃ q, R.pend = some q ∧ q.mode = mode ∧ q.count = count
  armed : role = 2 → R.armed = true ∧ R.pend = none

theorem State.startRun_fields {s : State} {r plan : Nat} {p : Plan} {rec_ : RegionRec} (hp : s.planOf plan = some p) (hr : s.regionRec r = some rec_)
    (cmd : Option Cmd) (mode : StartMode) (count : Nat) (reads : List (Nat × GranRes)) (tree : Bool) :
    let u := s.startRun r plan cmd mode count reads tree
    (u.region r).Started plan cmd mode count rec_.role ∧ RegsKept installKinds s u ∧ (tree = true → u.fab = s.fab) := by
  intro u
  obtain ⟨v, since, lost, hv, hregs, hu⟩ := State.startRun_split hp hr cmd mode count reads tree
  have hret : Chg { fab := true } s (if tree = true then s else s.retire r none) := .ite .refl State.retire_chg
  refine ⟨?_, ((RegsKept.of_chg hret).trans hregs).trans ((RegsKept.of_chg .modRegion).trans (.of_chg hu)), fun ht => ?_⟩
  · rw [hu.region_eq, State.modRegion_same]
    refine ⟨rfl, rfl, rfl, rfl, fun h2 => ⟨_, if_neg h2, rfl, rfl⟩, fun h2 => ⟨?_, if_pos h2⟩⟩
    dsimp only
    rw [h2]
    rfl
  · rw [hu.fab_eq, Chg.modRegion.fab_eq, hv.fab_eq, if_pos ht]

/-- A release planned leaves a started run as it is, but for its release. -/
theorem Region.Started.release {s : State} {r r' at_ plan count role : Nat} {cmd : Option Cmd} {mode : StartMode}
    (h : (s.region r).Started plan cmd mode count role) : ((s.releaseAt r' at_).region r).Started plan cmd mode count role := by
  have hreg : (s.releaseAt r' at_).region r = s.region r ∨
      (s.releaseAt r' at_).region r = { s.region r with pend := (s.region r).pend.map fun p => { p with release := some at_ } } := by
    have hpark (v : State) : (match v.park with
        | some k => if k.region = r' ∧ k.t0.isNone then { v with park := some { k with t0 := some (at_ + 64) } } else v
        | none => v).region r = v.region r := by
      split
      · split <;> rfl
      · rfl
    have hmod : (s.releaseAt r' at_).region r = (s.modRegion r' fun R => { R with pend := R.pend.map fun p => { p with release := some at_ } }).region r :=
      hpark _
    rw [hmod]
    by_cases hr : r = r'
    · subst hr
      exact .inr (State.modRegion_same ..)
    · exact .inl (State.modRegion_ne _ _ _ hr)
  rcases hreg with hreg | hreg
  · rw [hreg]
    exact h
  · rw [hreg]
    refine ⟨h.running, h.plan, h.cmd, h.begun, fun h2 => ?_, fun h2 => ⟨(h.armed h2).1, ?_⟩⟩
    · obtain ⟨q, hq, hmode, hcount⟩ := h.pend h2
      exact ⟨{ q with release := some at_ }, by simp only [hq, Option.map_some], hmode, hcount⟩
    · simp only [(h.armed h2).2, Option.map_none]

/-- LAUNCH of one region (R342). -/
theorem State.doLaunch_region {s : State} {c : Cmd} {r mode plan count : Nat} {p : Plan} {rec_ : RegionRec} (hp : s.planOf plan = some p)
    (hr : s.regionRec r = some rec_) (reads : List (Nat × GranRes)) :
    ((s.doLaunch c r mode plan count none reads).region r).Started plan (some c) (startMode mode) count rec_.role := by
  have h := (State.startRun_fields hp hr (some c) (startMode mode) count reads false).1
  simp only [State.doLaunch]
  split
  · exact h.release
  · exact h

/-- What a launch of a tree holds of it: the launch in force is its own. -/
def State.Holds (s : State) (t : Tree) (node : Nat) (arm : Bool) : Prop :=
  ∃ L, s.launchBy t.launchId = some L ∧ L.tree = t ∧ L.node = node ∧ L.arm = arm

theorem State.Holds.mailed {s u : State} {t : Tree} {node : Nat} {arm : Bool} (h : s.Holds t node arm) (k : s.Mailed u) : u.Holds t node arm := by
  obtain ⟨L, hL, hrest⟩ := h
  exact ⟨L, by rw [k.launchBy, hL], hrest⟩

theorem State.Holds.modLaunch {s : State} {t : Tree} {node : Nat} {arm : Bool} (h : s.Holds t node arm) {f : LaunchSt → LaunchSt}
    (hf : ∀ L, (f L).tree = L.tree ∧ (f L).node = L.node ∧ (f L).arm = L.arm) : (s.modLaunch t.launchId f).Holds t node arm := by
  obtain ⟨L, hL, ht, hn, ha⟩ := h
  exact ⟨f L, by rw [State.launchBy_modLaunch _ _ fun L => (hf L).1, hL, Option.map_some], (hf L).1.trans ht, (hf L).2.1.trans hn, (hf L).2.2.trans ha⟩

theorem State.Holds.retire {s : State} {t : Tree} {node r : Nat} {arm : Bool} {keep : Option (BitVec 64)} (h : s.Holds t node arm) :
    (s.retire r keep).Holds t node arm := by
  obtain ⟨L, hL, ht, hn, ha⟩ := h
  obtain ⟨f, hf, hby⟩ := s.launchBy_retire r keep t.launchId
  refine ⟨f L, by rw [hby, hL, Option.map_some], ?_⟩
  rcases hf L with h | h <;> (rw [h]; exact ⟨ht, hn, ha⟩)

theorem State.Holds.forward {s : State} {t : Tree} {node type : Nat} {arm : Bool} {args : List Nat} (h : s.Holds t node arm) :
    (s.forward t.launchId type args).Holds t node arm := by
  unfold State.forward
  split
  · exact h
  · exact (h.mailed (.foldl (fun _ _ => .toNode) _ .refl)).modLaunch fun _ => ⟨rfl, rfl, rfl⟩

theorem State.Holds.releaseJob {s : State} {t : Tree} {node : Nat} {arm : Bool} {L : LaunchSt} (h : s.Holds t node arm) (hL : L.tree = t) :
    (s.releaseJob L).Holds t node arm := by
  unfold State.releaseJob
  rw [hL]
  exact (h.mailed ((State.Mailed.of_chg State.sendRelease_chg).trans (.of_chg State.releaseAt_chg))).modLaunch fun _ => ⟨rfl, rfl, rfl⟩

theorem Region.Started.releaseJob {s : State} {r plan count role : Nat} {cmd : Option Cmd} {mode : StartMode} {L : LaunchSt}
    (h : (s.region r).Started plan cmd mode count role) : ((s.releaseJob L).region r).Started plan cmd mode count role := by
  unfold State.releaseJob
  rw [State.modLaunch_chg.region_eq]
  refine Region.Started.release ?_
  rw [State.sendRelease_chg.region_eq]
  exact h

/-- LAUNCH of a tree, at node 0 (R342, R423). -/
theorem State.doLaunch_tree {s : State} {c : Cmd} {r mode plan count : Nat} {p : Plan} {rec_ : RegionRec} {t : Tree} (hp : s.planOf plan = some p)
    (hr : s.regionRec r = some rec_) (reads : List (Nat × GranRes)) :
    let u := s.doLaunch c r mode plan count (some t) reads
    u.reg .fabLaunch 0 = t.launchId.toNat ∧ (u.region r).Started plan (some c) (startMode mode) count rec_.role ∧ u.Holds t 0 (mode == 2) := by
  intro u
  generalize hb : (s.retire r none).treeBegins t 0 count (mode == 2) = b
  obtain ⟨⟨L, hL, ht, hn, ha, -, -⟩, hreg, -⟩ := (s.retire r none).treeBegins_fields t 0 count (mode == 2)
  rw [hb] at hL hreg
  have hsb : Chg { fab := true, regs := true } s b := by
    rw [← hb]
    exact .via (.via .refl State.retire_chg) State.treeBegins_chg
  have hpb : b.planOf plan = some p := by
    rw [State.planOf, hsb.plans_eq]
    exact hp
  have hrb : b.regionRec r = some rec_ := by
    rw [State.regionRec, hsb.img_eq]
    exact hr
  obtain ⟨hstart, hregs, hfab⟩ := State.startRun_fields hpb hrb (some c) (startMode mode) count reads true
  generalize hv : b.startRun r plan (some c) (startMode mode) count reads true = v at hstart hregs hfab
  have hhold : v.Holds t 0 (mode == 2) := State.Holds.mailed ⟨L, hL, ht, hn, ha⟩ (.of_fab (hfab rfl))
  generalize hw : v.forward t.launchId (if mode = 2 then 0x24 else 0x20) [count] = w
  have hvw : Chg { fab := true } v w := hw ▸ State.forward_chg
  have hwhold : w.Holds t 0 (mode == 2) := hw ▸ hhold.forward
  have hwreg : w.reg .fabLaunch 0 = t.launchId.toNat := by
    rw [hvw.reg_eq, hregs _ _ (by decide) (by decide)]
    exact hreg
  have hwstart : (w.region r).Started plan (some c) (startMode mode) count rec_.role := by
    rw [hvw.region_eq]
    exact hstart
  have hu : u = if mode = 2 then
      if t.nodes.length = 1 then
        (match (w.modLaunch t.launchId fun L => { L with readys := [0], readyAt := some w.wall }).launchBy t.launchId with
          | some L => (w.modLaunch t.launchId fun L => { L with readys := [0], readyAt := some w.wall }).releaseJob L
          | none => w.modLaunch t.launchId fun L => { L with readys := [0], readyAt := some w.wall })
      else w.modLaunch t.launchId fun L => { L with readys := [0], readyAt := some w.wall } else w := by
    simp only [u, State.doLaunch]
    rw [hb, hv, hw] <;> rfl
  have hready : (w.modLaunch t.launchId fun L => { L with readys := [0], readyAt := some w.wall }).Holds t 0 (mode == 2) :=
    hwhold.modLaunch fun _ => ⟨rfl, rfl, rfl⟩
  rw [hu]
  split
  · split
    · have hready' := hready
      obtain ⟨M, hM, htM, -⟩ := hready'
      rw [hM]
      dsimp only
      refine ⟨?_, Region.Started.releaseJob ?_, hready.releaseJob htM⟩
      · rw [State.releaseJob_chg.reg_eq, State.modLaunch_chg.reg_eq, hwreg]
      · rw [State.modLaunch_chg.region_eq]
        exact hwstart
    · rw [State.modLaunch_chg.reg_eq, State.modLaunch_chg.region_eq]
      exact ⟨hwreg, hwstart, hready⟩
  · exact ⟨hwreg, hwstart, hwhold⟩

/-! ## LAUNCH and STOP (R342 to R344) -/

theorem State.launchCheck_zero {s : State} {r m plan n tree : Nat} (h : s.launchStatus r m plan n tree = 0) : s.launchCheck r m plan = 0 := by
  by_contra hne
  simp only [State.launchStatus] at h
  by_cases hlow : s.launchCheck r m plan < 0x004B
  · rw [if_pos ⟨hne, hlow⟩] at h
    exact hne h
  · rw [if_neg (fun hc => hlow hc.2)] at h
    split at h
    · cases h
    · exact hne h

theorem State.launchCheck_known {s : State} {r m plan : Nat} (h : s.launchCheck r m plan = 0) :
    ∃ x p, s.regionRec r = some x ∧ s.planOf plan = some p := by
  unfold State.launchCheck at h
  split at h
  · cases h
  · dsimp only at h
    cases hx : s.regionRec r with
    | none => simp [hx] at h
    | some x =>
      cases hp : s.planOf plan with
      | none => simp [hx, hp] at h
      | some p => exact ⟨x, p, rfl, rfl⟩

theorem State.launchStatus_popCmd (s : State) (c : Cmd) (r m plan n tree : Nat) :
    (s.popCmd c).launchStatus r m plan n tree = s.launchStatus r m plan n tree := rfl

theorem State.treeAt_congr {P : Foot} {s u : State} (h : Chg P s u) (a : Nat) (b : Bool) (hr : P.regs = false := by rfl) (he : P.ext = false := by rfl)
    (hi : P.img = false := by rfl) (hf : P.fuses = false := by rfl) : u.treeAt a b = s.treeAt a b := by
  rw [State.treeAt, State.gddrSize, h.ext_eq he, h.fuses_eq hf, State.ownId, h.fld_eq _ _ hr hi hf]
  rfl

/-- What LAUNCH does when its checks pass and it waits for nothing. -/
theorem execLaunch_goes {s : State} {c : Cmd} {r m : BitVec 8} {p : BitVec 32} {n tree : BitVec 64} {lost : List (Nat × GranRes)}
    (h : s.begins (.launch c r m p n tree lost) c 0x0004 false) (hwait : s.launchWaits r.toNat m.toNat = false)
    (hst : s.launchStatus r.toNat m.toNat p.toNat n.toNat tree.toNat = 0) (htwin : s.twinLaunch r.toNat = false ∨ s.mir.launched.contains r.toNat = true) :
    ∃ v : State, v.img = s.img ∧ v.plans = s.plans ∧
      exec (.launch c r m p n tree lost) s = .next ((v.doLaunch c r.toNat m.toNat p.toNat n.toNat
        (if tree = 0 then none else s.treeAt tree.toNat (m.toNat == 2)) lost).answerAll c.fn) := by
  have htold : Chg { fab := true, links := true, mir := true, fns := true } s ((s.popCmd c).tellLaunch r.toNat) :=
    .via (.via .refl State.popCmd_chg) State.tellLaunch_chg
  generalize hv : ((s.popCmd c).tellLaunch r.toNat).modMir (fun x =>
    { x with launched := x.launched.filter (· != r.toNat), launchSent := x.launchSent.filter (· != r.toNat) }) = v
  have hsv : Chg { fab := true, links := true, mir := true, fns := true } s v := by
    rw [← hv]
    exact .via htold .modMir
  refine ⟨v, hsv.img_eq, hsv.plans_eq, ?_⟩
  have hne : ¬(s.cmdReady c 0x0004 (operandsOf (.launch c r m p n tree lost)) = true ∧ c.fn = 0 ∧ s.launchWaits r.toNat m.toNat = true) := by
    rw [hwait]
    rintro ⟨-, -, hc⟩
    cases hc
  have hne' : ¬(s.cmdReady c 0x0004 (operandsOf (.launch c r m p n tree lost)) = true ∧ c.fn = 0 ∧ 
      s.launchStatus r.toNat m.toNat p.toNat n.toNat tree.toNat = 0 ∧ s.twinLaunch r.toNat = true ∧ s.mir.launched.contains r.toNat = false) := by
    rintro ⟨-, -, -, ht, hl⟩
    rcases htwin with h' | h'
    · rw [h'] at ht
      cases ht
    · rw [h'] at hl
      cases hl
  show execLaunch c r m p n tree lost s = _
  simp only [execLaunch]
  rw [if_neg hne, if_neg hne', State.runCmd_begins h, State.launchStatus_popCmd, hst, if_neg (fun hc => hc rfl), hv, State.treeAt_congr hsv]

theorem execLaunch_refused {s : State} {c : Cmd} {r m : BitVec 8} {p : BitVec 32} {n tree : BitVec 64} {lost : List (Nat × GranRes)}
    (h : s.begins (.launch c r m p n tree lost) c 0x0004 false) (hwait : s.launchWaits r.toNat m.toNat = false)
    (hst : s.launchStatus r.toNat m.toNat p.toNat n.toNat tree.toNat ≠ 0) :
    exec (.launch c r m p n tree lost) s = .next (((s.popCmd c).complete c 0x0004
      (s.launchStatus r.toNat m.toNat p.toNat n.toNat tree.toNat)).answerAll c.fn) := by
  have hne : ¬(s.cmdReady c 0x0004 (operandsOf (.launch c r m p n tree lost)) = true ∧ c.fn = 0 ∧ s.launchWaits r.toNat m.toNat = true) := by
    rw [hwait]
    rintro ⟨-, -, hc⟩
    cases hc
  show execLaunch c r m p n tree lost s = _
  simp only [execLaunch]
  rw [if_neg hne, if_neg (fun hc => hst hc.2.2.1), State.runCmd_begins h, State.launchStatus_popCmd, if_pos hst]

theorem execLaunch_twin {s : State} {c : Cmd} {r m : BitVec 8} {p : BitVec 32} {n tree : BitVec 64} {lost : List (Nat × GranRes)}
    (h : s.begins (.launch c r m p n tree lost) c 0x0004 false) (hwait : s.launchWaits r.toNat m.toNat = false)
    (hst : s.launchStatus r.toNat m.toNat p.toNat n.toNat tree.toNat = 0) (htwin : s.twinLaunch r.toNat = true)
    (hlaunched : s.mir.launched.contains r.toNat = false) :
    exec (.launch c r m p n tree lost) s = .next (((s.tellLaunch r.toNat).cmdWaits 0).answerAll 1) := by
  obtain ⟨hready, -, hfn⟩ := h
  have hne : ¬(s.cmdReady c 0x0004 (operandsOf (.launch c r m p n tree lost)) = true ∧ c.fn = 0 ∧ s.launchWaits r.toNat m.toNat = true) := by
    rw [hwait]
    rintro ⟨-, -, hc⟩
    cases hc
  show execLaunch c r m p n tree lost s = _
  simp only [execLaunch]
  rw [if_neg hne, if_pos ⟨hready, hfn.resolve_right Bool.false_ne_true, hst, htwin, hlaunched⟩]

theorem execStop_running {s : State} {c : Cmd} {r : BitVec 8} (h : s.begins (.stop c r) c 0x0005 false) {x : Series}
    (hx : (s.region r.toNat).series = some x) (hrun : (s.region r.toNat).running = true)
    (harm : (s.region r.toNat).armed = true → (s.region r.toNat).inInv = true)
    (hend : x.endedAt.isSome = true → s.packsHere r.toNat = true) :
    Answers (.stop c r) c s fun u =>
      u.region r.toNat = { s.region r.toNat with stops := (s.region r.toNat).stops ++ [c], series := some { x with stopReq := true } } ∧
      u.tiles = s.tiles := by
  generalize hv : (s.popCmd c).modRegion r.toNat (fun R => { R with stops := R.stops ++ [c], series := some { x with stopReq := true } }) = v
  have hreg : v.region r.toNat = { s.region r.toNat with stops := (s.region r.toNat).stops ++ [c], series := some { x with stopReq := true } } := by
    rw [← hv, State.modRegion_same, State.popCmd_chg.region_eq]
  have hpop : (s.popCmd c).region r.toNat = s.region r.toNat := State.popCmd_chg.region_eq ..
  have hchg : Chg { fns := true, regions := true } s v := by
    rw [← hv]
    exact .via (.via .refl State.popCmd_chg) .modRegion
  have hpacks : v.packsHere r.toNat = s.packsHere r.toNat := by
    unfold State.packsHere
    rw [hreg, hx]
    show (!x.tree || _) = (!x.tree || _)
    congr 1
    rw [State.launchOf, hchg.fab_eq, State.launchOf]
  have hgo : ¬(x.endedAt.isSome = true ∧ (!v.packsHere r.toNat) = true) := by
    rw [hpacks]
    rintro ⟨he, hp⟩
    rw [hend he] at hp
    cases hp
  have hgo' : ¬((s.region r.toNat).armed = true ∧ (!(s.region r.toNat).inInv) = true) := by
    rintro ⟨ha, hi⟩
    rw [harm ha] at hi
    cases hi
  have hexec : exec (.stop c r) s = .next (v.answerAll c.fn) := by
    show execStop c r s = _
    simp only [execStop]
    rw [State.runCmd_begins h, hpop, hx]
    simp only [hrun, Bool.not_true, Bool.false_eq_true, if_false]
    rw [hv, if_neg hgo', if_neg hgo]
  exact ⟨v, hexec, hreg, hchg.tiles_eq⟩

theorem execStop_idle {s : State} {c : Cmd} {r : BitVec 8} (h : s.begins (.stop c r) c 0x0005 false)
    (hidle : (s.region r.toNat).series = none ∨ (s.region r.toNat).running = false) :
    Answers (.stop c r) c s fun u => Completed s u c 0x0005 0x0049 ∧ u.regions = s.regions := by
  have hpop : (s.popCmd c).region r.toNat = s.region r.toNat := State.popCmd_chg.region_eq ..
  have hexec : exec (.stop c r) s = .next (((s.popCmd c).complete c 0x0005 0x0049).answerAll c.fn) := by
    show execStop c r s = _
    simp only [execStop]
    rw [State.runCmd_begins h, hpop]
    cases hx : (s.region r.toNat).series with
    | none => rfl
    | some x =>
      have hrun : (s.region r.toNat).running = false := hidle.resolve_left (by rw [hx]; exact Option.some_ne_none x)
      simp only [hrun, Bool.not_false, if_true]
  exact ⟨_, hexec, h.completed (by decide), by rw [(State.complete_fns (by decide)).regions_eq, State.popCmd_chg.regions_eq]⟩

/-! ## The messages of a tree at a node (R423 to R430) -/

theorem State.lstat_regs {s : State} {L : LaunchSt} {v : Nat} : RegsKept [.fabLstat] s (s.lstat L v) := by
  unfold State.lstat
  exact .ite (.setFld (by decide) (by decide)) .refl

/-- LACK goes to the node's parent. -/
theorem State.lack_sent {s : State} {L : LaunchSt} (hpar : (nodeOf L.tree L.node).parent < L.tree.nodes.length) :
    (⟨(nodeOf L.tree (nodeOf L.tree L.node).parent).module, 0x21, L.tree.launchId, [L.node]⟩ : Msg) ∈ (s.lack L).fab.sent := by
  have hsend : (⟨(nodeOf L.tree (nodeOf L.tree L.node).parent).module, 0x21, L.tree.launchId, [L.node]⟩ : Msg) ∈
      (s.toNode L (nodeOf L.tree L.node).parent 0x21 [L.node]).fab.sent := List.mem_append_right _ List.mem_cons_self
  unfold State.lack State.upTree
  dsimp only
  rw [if_pos hpar]
  split
  · exact State.Mailed.toNode.mem_sent hsend
  · exact hsend

/-- A run of a tree's node leaves the launches, whatever it finds. -/
theorem State.startRun_tree (s : State) (r plan : Nat) (cmd : Option Cmd) (mode : StartMode) (count : Nat) (reads : List (Nat × GranRes)) :
    RegsKept installKinds s (s.startRun r plan cmd mode count reads true) ∧ (s.startRun r plan cmd mode count reads true).fab = s.fab := by
  cases hp : s.planOf plan with
  | none => 
    have h : s.startRun r plan cmd mode count reads true = s := by simp only [State.startRun, hp]
    rw [h]
    exact ⟨.refl, rfl⟩
  | some p =>
    cases hr : s.regionRec r with
    | none =>
      have h : s.startRun r plan cmd mode count reads true = s := by simp only [State.startRun, hp, hr]
      rw [h]
      exact ⟨.refl, rfl⟩
    | some x =>
      obtain ⟨-, hregs, hfab⟩ := State.startRun_fields hp hr cmd mode count reads true
      exact ⟨hregs, hfab rfl⟩

/-- What one step of a node's launch keeps: FAB_LAUNCH, the launch held, and what was sent. -/
structure State.NodeKept (t : Tree) (node : Nat) (arm : Bool) (s u : State) : Prop where
  reg : u.reg .fabLaunch 0 = s.reg .fabLaunch 0
  holds : s.Holds t node arm → u.Holds t node arm
  sent : ∀ m ∈ s.fab.sent, m ∈ u.fab.sent

namespace State.NodeKept

variable {t : Tree} {node : Nat} {arm : Bool} {s u v : State}

theorem trans (h : NodeKept t node arm s u) (k : NodeKept t node arm u v) : NodeKept t node arm s v :=
  ⟨k.reg.trans h.reg, fun hh => k.holds (h.holds hh), fun m hm => k.sent m (h.sent m hm)⟩

theorem of_mailed {K : List RegKind} (h : s.Mailed u) (hr : RegsKept K s u) (hK : ∀ q ∈ K, RegKind.fabLaunch.code ≠ q.code) : NodeKept t node arm s u :=
  ⟨hr _ _ (by decide) hK, fun hh => hh.mailed h, fun _ hm => h.mem_sent hm⟩

theorem modLaunch {f : LaunchSt → LaunchSt} (hf : ∀ L, (f L).tree = L.tree ∧ (f L).node = L.node ∧ (f L).arm = L.arm) :
    NodeKept t node arm s (s.modLaunch t.launchId f) := ⟨State.modLaunch_chg.reg_eq .., fun hh => hh.modLaunch hf, fun _ hm => hm⟩

theorem toNode {L : LaunchSt} {i type : Nat} {args : List Nat} : NodeKept t node arm s (s.toNode L i type args) :=
  .of_mailed .toNode (.of_chg State.toNode_chg (K := [])) (by decide)

theorem lack {L : LaunchSt} : NodeKept t node arm s (s.lack L) := .of_mailed .lack (.of_chg State.lack_chg (K := [])) (by decide)

theorem event {code kind idx : Nat} {items : List (Nat × Nat)} : NodeKept t node arm s (s.event code kind idx items) :=
  .of_mailed (.of_chg State.event_chg) (.event (K := [.hstEvstat]) (by decide)) (by decide)

theorem forward {type : Nat} {args : List Nat} : NodeKept t node arm s (s.forward t.launchId type args) := by
  refine ⟨State.forward_chg.reg_eq .., fun hh => hh.forward, fun m hm => ?_⟩
  unfold State.forward
  split
  · exact hm
  · exact (State.Mailed.foldl (fun _ _ => .toNode) _ .refl).mem_sent hm

theorem lfail {L : LaunchSt} {st : Nat} (hL : L.tree = t) : NodeKept t node arm s (s.lfail L st) := by
  unfold State.lfail
  rw [hL]
  exact (NodeKept.trans (.of_mailed .upTree (.of_chg State.upTree_chg (K := [])) (by decide)) .event).trans (.modLaunch fun _ => ⟨rfl, rfl, rfl⟩)

theorem lstat {L : LaunchSt} {v : Nat} : NodeKept t node arm s (s.lstat L v) :=
  .of_mailed (.of_chg State.lstat_chg) State.lstat_regs (by decide)

theorem nodeBegins {L : LaunchSt} (hL : L.tree = t) : NodeKept t node arm s (s.nodeBegins L) := by
  have hret (r : Nat) (keep : Option (BitVec 64)) : NodeKept t node arm s (s.retire r keep) :=
    ⟨State.retire_chg.reg_eq .., fun hh => hh.retire, fun _ hm => hm⟩
  have hrun (w : State) (r plan : Nat) (mode : StartMode) (count : Nat) : NodeKept t node arm w (w.startRun r plan none mode count [] true) :=
    .of_mailed (.of_fab (w.startRun_tree ..).2) (w.startRun_tree ..).1 (by decide)
  unfold State.nodeBegins
  dsimp only
  rw [hL]
  split
  · exact (((hret _ _).trans (hrun _ _ _ _ _)).trans .toNode).trans (.modLaunch fun _ => ⟨rfl, rfl, rfl⟩)
  · exact (hret _ _).trans (hrun _ _ _ _ _)

end State.NodeKept

/-- A new launch, at a node of its tree (R426, R427). -/
theorem State.treeMsg_new {s : State} {t : Tree} {i count : Nat} {arm : Bool} (hi : s.nodeIn t = some i) (h0 : i ≠ 0)
    (hnone : s.launchBy t.launchId = none) :
    let u := s.treeMsg t count arm
    u.Holds t i arm ∧
    ((nodeOf t i).parent < t.nodes.length → (⟨(nodeOf t (nodeOf t i).parent).module, 0x21, t.launchId, [i]⟩ : Msg) ∈ u.fab.sent) ∧
    u.reg .fabLaunch 0 = t.launchId.toNat := by
  intro u
  obtain ⟨⟨L0, hL0, ht0, hn0, ha0, -, -⟩, hreg, -⟩ := s.treeBegins_fields t i count arm
  generalize hb : s.treeBegins t i count arm = b at hL0 hreg
  generalize hv : (b.event 0x0299 8 0 [(8, t.launchId.toNat)]).forward t.launchId (if arm then 0x24 else 0x20) [count] = v
  have hbv : NodeKept t i arm b v := hv ▸ NodeKept.event.trans .forward
  obtain ⟨L, hL, ht, hn, ha⟩ := hbv.holds ⟨L0, hL0, ht0, hn0, ha0⟩
  generalize hst : (if (v.lack L).launchCheck (nodeOf t i).region (if arm then 2 else 1) (nodeOf t i).plan ≠ 0 then
      (v.lack L).launchCheck (nodeOf t i).region (if arm then 2 else 1) (nodeOf t i).plan
    else if t.step ≠ (v.lack L).step_ then 0x0052
    else if arm ∧ !(v.lack L).directLinks t i then 0x0051 else 0) = st
  have hu : u = if st ≠ 0 then ((v.lack L).lfail L st).lstat L 3
      else if (v.lack L).running (nodeOf t i).region then (v.lack L).modLaunch t.launchId fun L => { L with queued := true }
      else (v.lack L).nodeBegins L := by
    simp only [u, State.treeMsg, hi, hnone]
    rw [if_neg h0, hb, hv, hL]
    dsimp only
    rw [hst]
  have hend : NodeKept t i arm (v.lack L) u := by
    rw [hu]
    split
    · exact (NodeKept.lfail ht).trans .lstat
    · split
      · exact .modLaunch fun _ => ⟨rfl, rfl, rfl⟩
      · exact .nodeBegins ht
  have hall := hbv.trans (NodeKept.lack.trans hend)
  refine ⟨hall.holds ⟨L0, hL0, ht0, hn0, ha0⟩, fun hpar => hend.sent _ ?_, hall.reg.trans hreg⟩
  have hlack := State.lack_sent (s := v) (L := L) (by rw [ht, hn]; exact hpar)
  rw [ht, hn] at hlack
  exact hlack

theorem State.treeMsg_known {s : State} {t : Tree} {i count : Nat} {arm : Bool} {L : LaunchSt} (hi : s.nodeIn t = some i) (h0 : i ≠ 0)
    (hL : s.launchBy t.launchId = some L) : s.treeMsg t count arm = s.lack L := by
  simp only [State.treeMsg, hi, hL]
  rw [if_neg h0]

/-- READY at node 0 (R430). -/
theorem execReadyReceive_counts {s : State} {id : BitVec 64} {L : LaunchSt} {node : Nat} (hL : s.launchBy id = some L) (h0 : L.node = 0)
    (harm : L.arm = true) (hrel : L.released = false) (hfail : L.lfailed = false) (hnode : node < L.tree.nodes.length)
    (hnew : L.readys.contains node = false) (hin : s.hasMsg 0x25 (·.says id (argBytes [node])) = true) :
    Yields (.readyReceive node id) s fun u =>
      ∃ M, u.launchBy id = some M ∧ M.readys = L.readys ++ [node] ∧ M.released = decide (L.readys.length + 1 = L.tree.nodes.length) := by
  have hid : L.tree.launchId = id := by simpa using List.find?_some hL
  generalize hd : s.dropMsg 0x25 (·.says id (argBytes [node])) = d
  have hdL : d.launchBy id = some L := by
    rw [← hd]
    exact hL
  generalize hw : (d.modLaunch id fun L => { L with readys := L.readys ++ [node] }) = w
  have hwL : w.launchBy id = some { L with readys := L.readys ++ [node] } := by
    rw [← hw]
    exact (State.launchBy_modLaunch d id (f := fun L => { L with readys := L.readys ++ [node] }) fun _ => rfl).trans (by rw [hdL, Option.map_some])
  have hexec : exec (.readyReceive node id) s =
      .next (if L.readys.length + 1 = L.tree.nodes.length then w.releaseJob L else w) := by
    refine congrArg Host.Outcome.next ((State.onMsg_has hin).trans ?_)
    rw [hd, hdL]
    dsimp only
    rw [if_neg (by simp only [h0, harm, hrel, hfail, hnew, Bool.not_true, Bool.false_eq_true, not_le.2 hnode, ne_eq, not_true_eq_false, or_self, not_false_eq_true]), hw]
  refine ⟨_, hexec, ?_⟩
  by_cases hall : L.readys.length + 1 = L.tree.nodes.length
  · refine ⟨{ L with readys := L.readys ++ [node], released := true }, ?_, rfl, (decide_eq_true hall).symm⟩
    rw [if_pos hall, State.releaseJob, hid]
    refine (State.launchBy_modLaunch _ id (f := fun L => { L with released := true }) fun _ => rfl).trans ?_
    rw [State.launchBy, State.releaseAt_chg.fab_eq, State.sendRelease_chg.fab_eq, ← State.launchBy, hwL, Option.map_some]
  · refine ⟨_, by rw [if_neg hall]; exact hwL, rfl, ?_⟩
    rw [decide_eq_false hall]
    exact hrel

theorem State.releaseAt_region (s : State) (r at_ : Nat) :
    (s.releaseAt r at_).region r = { s.region r with pend := (s.region r).pend.map fun p => { p with release := some at_ } } := by
  have hpark (v : State) : (match v.park with
      | some k => if k.region = r ∧ k.t0.isNone then { v with park := some { k with t0 := some (at_ + 64) } } else v
      | none => v).region r = v.region r := by
    split
    · split <;> rfl
    · rfl
  exact (hpark _).trans (State.modRegion_same ..)

theorem execReleaseFlitReceive_waits {s : State} {p : Fin 32} {remain own : Nat} {L : LaunchSt} {q : Start} (hst : s.portState p = 3)
    (hin : s.hasFabric p (releaseBytes remain) = true) (hL : s.fab.launches = [L]) (harm : L.arm = true) (hnode : L.node ≠ 0)
    (hfail : L.lfailed = false) (hby : L.passedBy = false) (hq : L.queued = false) (hrun : s.running L.region = true) (hrel : L.released = false)
    (hpend : (s.region L.region).pend = some q) :
    Yields (.releaseFlitReceive p remain own) s fun u =>
      (u.region L.region).pend = some { q with release := some (s.cnt + remain) } ∧ u.fab.launches = [{ L with released := true }] := by
  generalize hd : s.dropFabric p (releaseBytes remain) = d
  have hsd : Chg { links := true } s d := by
    rw [← hd]
    exact State.dropFabric_chg
  have hdrun : d.running L.region = true := by
    rw [State.running, hsd.region_eq]
    exact hrun
  have hdst : d.portState p = 3 := by
    rw [State.portState, hsd.fld_eq]
    exact hst
  have hrel' : Chg { links := true } d (d.sendRelease L remain own) := State.sendRelease_chg
  have hexec : exec (.releaseFlitReceive p remain own) s = .next (((d.sendRelease L remain own).releaseAt L.region (s.cnt + remain)).modLaunch
      L.tree.launchId fun L => { L with released := true }) := by
    refine congrArg Host.Outcome.next ((State.onFabric_has hin).trans ?_)
    rw [hd]
    dsimp only
    rw [hsd.fab_eq, hL]
    simp only [List.find?_cons, harm, hfail, hby, hq, hdrun, hdst, hrel, bne_iff_ne.2 hnode, Bool.not_false, Bool.and_self, beq_self_eq_true, Bool.true_or,
      Bool.false_eq_true, if_false]
    rw [State.cnt, hrel'.reg_eq, hsd.reg_eq]
    rfl
  refine ⟨_, hexec, ?_, ?_⟩
  · rw [State.modLaunch_chg.region_eq, State.releaseAt_region, hrel'.region_eq, hsd.region_eq, hpend]
    rfl
  · show ((d.sendRelease L remain own).releaseAt L.region (s.cnt + remain)).fab.launches.map _ = _
    rw [State.releaseAt_chg.fab_eq, hrel'.fab_eq, hsd.fab_eq, hL]
    simp only [List.map_cons, List.map_nil, if_true]

/-- Settles O36. -/
theorem launchesAndTrees : Obligations.LaunchesAndTrees := by
  unfold Obligations.LaunchesAndTrees
  refine ⟨fun s c => ⟨fun r m p n tree lost hb hwait => ?launch, fun r hb => ⟨fun x hx hrun harm hend => execStop_running hb hx hrun harm hend,
    fun h => execStop_idle hb h⟩⟩, fun s => ⟨fun t i cmd type mine hi h0 hcmd hin => ?message,
    fun id L node hL h0 harm hrel hfail hnode hnew hin => execReadyReceive_counts hL h0 harm hrel hfail hnode hnew hin,
    fun p remain own L q hst hin hL harm hnode hfail hby hq hrun hrel hpend =>
      execReleaseFlitReceive_waits hst hin hL harm hnode hfail hby hq hrun hrel hpend⟩⟩
  case launch =>
    intro st
    refine ⟨fun hst htwin => ?_, fun hst htwin hl => execLaunch_twin hb hwait hst htwin hl, fun hst => ?_⟩
    · obtain ⟨v, himg, hplans, hexec⟩ := execLaunch_goes hb hwait hst htwin
      obtain ⟨x, pl, hx, hpl⟩ := State.launchCheck_known (State.launchCheck_zero hst)
      have hvx : v.regionRec r.toNat = some x := by rw [State.regionRec, himg]; exact hx
      have hvp : v.planOf p.toNat = some pl := by rw [State.planOf, hplans]; exact hpl
      refine ⟨fun htree => ?_, fun t htree ht => ?_⟩
      · rw [if_pos htree] at hexec
        have hs := State.doLaunch_region (c := c) (mode := m.toNat) (count := n.toNat) hvp hvx lost
        refine ⟨_, hexec, hs.running, hs.plan, hs.cmd, hs.begun, fun y hy hrole => ?_, fun y hy hrole => ?_⟩
        · cases hx.symm.trans hy
          exact hs.pend hrole
        · cases hx.symm.trans hy
          exact hs.armed hrole
      · rw [if_neg htree, ht] at hexec
        obtain ⟨hreg, hs, hold⟩ := State.doLaunch_tree (c := c) (mode := m.toNat) (count := n.toNat) (t := t) hvp hvx lost
        exact ⟨_, hexec, hreg, hs.running, hs.plan, hold⟩
    · have hc := State.complete_fns (s := s.popCmd c) (c := c) (opcode := 0x0004) (status := st) (result := 0) (report := none) (by decide)
      refine ⟨_, execLaunch_refused hb hwait hst, hb.completed (by decide), ?_, ?_, ?_, ?_⟩
      · rw [hc.regions_eq, State.popCmd_chg.regions_eq]
      · rw [hc.tiles_eq, State.popCmd_chg.tiles_eq]
      · rw [hc.mir_eq, State.popCmd_chg.mir_eq]
      · rw [hc.links_eq, State.popCmd_chg.links_eq]
  case message =>
    obtain ⟨arm, n, hexec, harm⟩ : ∃ (arm : Bool) (n : Nat), exec cmd s = .next ((s.dropMsg type mine).treeMsg t n arm) ∧
        (arm = true ↔ ∃ n, cmd = .armReceive t n) := by
      rcases hcmd with ⟨n, rfl, rfl, rfl⟩ | ⟨n, rfl, rfl, rfl⟩
      · exact ⟨false, n.toNat, congrArg Host.Outcome.next (State.onMsg_has hin), by simp⟩
      · exact ⟨true, n.toNat, congrArg Host.Outcome.next (State.onMsg_has hin), by simp⟩
    refine ⟨fun hnone => ?_, fun L hL => hexec.trans (congrArg Host.Outcome.next (State.treeMsg_known hi h0 hL))⟩
    obtain ⟨⟨L, hL, ht, hn, ha⟩, hsent, hreg⟩ := State.treeMsg_new (s := s.dropMsg type mine) (count := n) (arm := arm) hi h0 hnone
    exact ⟨_, hexec, ⟨L, hL, hn, ht, by rw [ha]; exact harm⟩, hsent, hreg⟩

end Sys2Proof.Machine
end

section
/-!
What a job's nodes tell one another (R426 to R435).
-/
namespace Sys2Proof.Machine
set_option Elab.async false

/-! ## A module with one launch (R426 to R435) -/

theorem State.launchBy_one {s : State} {L : LaunchSt} (h : s.fab.launches = [L]) : s.launchBy L.tree.launchId = some L := by
  simp only [State.launchBy, h, List.find?_cons, beq_self_eq_true]

theorem State.modLaunch_one {s : State} {L : LaunchSt} (h : s.fab.launches = [L]) (f : LaunchSt → LaunchSt) :
    (s.modLaunch L.tree.launchId f).fab.launches = [f L] := by
  show s.fab.launches.map _ = _
  simp only [h, List.map_cons, List.map_nil, if_true]

theorem State.forward_one {s : State} {L : LaunchSt} (h : s.fab.launches = [L]) (type : Nat) (args : List Nat) :
    (s.forward L.tree.launchId type args).fab.launches = [{ L with since := s.wall, msg := type, args := args, lacks := [], alts := [] }] := by
  have hm : s.Mailed ((primaryOf L.tree L.node).foldl (fun s i => s.toNode L i type args) s) := .foldl (fun _ _ => .toNode) _ .refl
  simp only [State.forward, State.launchBy_one h]
  rw [State.modLaunch_one (hm.1.trans h)]

theorem State.upTree_one {s : State} {L M : LaunchSt} (h : s.fab.launches = [L]) (type : Nat) (args : List Nat) :
    (s.upTree M type args).fab.launches = [L] := State.Mailed.upTree.1.trans h

/-- A message up the tree goes to the parent. -/
theorem State.upTree_sent {s : State} {L : LaunchSt} {type : Nat} {args : List Nat} (hpar : (nodeOf L.tree L.node).parent < L.tree.nodes.length) :
    (⟨(nodeOf L.tree (nodeOf L.tree L.node).parent).module, type, L.tree.launchId, args⟩ : Msg) ∈ (s.upTree L type args).fab.sent := by
  have hsend : (⟨(nodeOf L.tree (nodeOf L.tree L.node).parent).module, type, L.tree.launchId, args⟩ : Msg) ∈
      (s.toNode L (nodeOf L.tree L.node).parent type args).fab.sent := List.mem_append_right _ List.mem_cons_self
  unfold State.upTree
  dsimp only
  rw [if_pos hpar]
  split
  · exact State.Mailed.toNode.mem_sent hsend
  · exact hsend

theorem execAltwaitExpiry_due {s : State} {L : LaunchSt} {child : Nat} (h : s.fab.launches = [L])
    (hdue : L.altDue child s.wall (100 * s.fld F.fabCtl_altwait 0) = true) :
    Yields (.altwaitExpiry child) s fun u =>
      u.fab.launches = [{ L with alts := L.alts ++ [child] }] ∧
      (⟨(nodeOf L.tree child).module, L.msg, L.tree.launchId, L.args⟩ : Msg) ∈ u.fab.sent := by
  have hexec : exec (.altwaitExpiry child) s = .next (((s.toNode L child L.msg L.args).event 0x0298 8 0 []).modLaunch L.tree.launchId
      fun L => { L with alts := L.alts ++ [child] }) := by
    show execAltwaitExpiry child s = _
    simp only [execAltwaitExpiry, h, List.find?_cons, hdue]
  have hev : ((s.toNode L child L.msg L.args).event 0x0298 8 0 []).fab = (s.toNode L child L.msg L.args).fab := State.event_chg.fab_eq
  refine ⟨_, hexec, State.modLaunch_one (hev ▸ State.Mailed.toNode.1.trans h) _, ?_⟩
  show _ ∈ ((s.toNode L child L.msg L.args).event 0x0298 8 0 []).fab.sent
  rw [hev]
  exact List.mem_append_right _ List.mem_cons_self

theorem execLackReceive_new {s : State} {L : LaunchSt} {child : Nat} (h : s.fab.launches = [L]) (hnew : L.lacks.contains child = false)
    (hin : s.hasMsg 0x21 (·.says L.tree.launchId (argBytes [child])) = true) :
    Yields (.lackReceive child L.tree.launchId) s fun u => u.fab.launches = [{ L with lacks := L.lacks ++ [child] }] ∧ u.regions = s.regions := by
  refine ⟨_, congrArg Host.Outcome.next (State.onMsg_has hin), ?_, rfl⟩
  refine (State.modLaunch_one (s := s.dropMsg 0x21 (·.says L.tree.launchId (argBytes [child]))) h _).trans ?_
  rw [if_neg (by rw [hnew]; decide)]

theorem execLfailReceive_node {s : State} {L : LaunchSt} {node : Nat} {st : BitVec 16} (h : s.fab.launches = [L]) (hnode : L.node ≠ 0)
    (hnew : L.fails.contains node = false) (hin : s.hasMsg 0x22 (·.says L.tree.launchId (argBytes [node, st.toNat])) = true) :
    Yields (.lfailReceive node L.tree.launchId st) s fun u =>
      u.fab.launches = [{ L with fails := L.fails ++ [node] }] ∧ u.regions = s.regions ∧
      ((nodeOf L.tree L.node).parent < L.tree.nodes.length →
        (⟨(nodeOf L.tree (nodeOf L.tree L.node).parent).module, 0x22, L.tree.launchId, [node, st.toNat]⟩ : Msg) ∈ u.fab.sent) := by
  generalize hd : s.dropMsg 0x22 (·.says L.tree.launchId (argBytes [node, st.toNat])) = d
  have hdL : d.fab.launches = [L] := by rw [← hd]; exact h
  have hdr : d.regions = s.regions := by rw [← hd]; rfl
  have hexec : exec (.lfailReceive node L.tree.launchId st) s = .next ((d.upTree L 0x22 [node, st.toNat]).modLaunch L.tree.launchId fun L =>
      { L with fails := L.fails ++ [node] }) := by
    refine congrArg Host.Outcome.next ((State.onMsg_has hin).trans ?_)
    rw [hd, State.launchBy_one hdL]
    dsimp only
    rw [if_neg hnode, if_neg (by rw [hnew]; decide)]
  refine ⟨_, hexec, State.modLaunch_one (State.upTree_one hdL _ _) _, ?_, fun hpar => State.upTree_sent hpar⟩
  rw [State.modLaunch_chg.regions_eq, State.upTree_chg.regions_eq, hdr]

/-! ## A job that fails (R427, R428, R431) -/

theorem State.stopRegion_fields (s : State) (r : Nat) :
    ((s.stopRegion r).region r).running = false ∧ ((s.stopRegion r).region r).pend = none ∧ ((s.stopRegion r).region r).cmd = (s.region r).cmd := by
  unfold State.stopRegion
  extract_lets v w
  have hregion : w.region r = s.region r := by
    have hchg : Chg { tiles := true, freeCtr := true, park := true } s w := by
      have hv : Chg { tiles := true, freeCtr := true, park := true } s v :=
        .ite (.foldl (fun _ _ => .via (.onModTile .refl ⟨fun h => memWf_wrBytes _ _ rfl⟩) State.freeStep_chg) _ .refl) .refl
      simp only [w]
      split
      · exact .ite (.via hv .setPark) hv
      · exact hv
    exact hchg.region_eq r
  rw [State.modRegion_same, hregion]
  exact ⟨rfl, rfl, rfl⟩

theorem State.lstat_fields {s : State} {L : LaunchSt} {v : Nat} (hv : v < 16) (hreg : s.reg .fabLaunch 0 = L.tree.launchId.toNat) :
    (s.lstat L v).fld F.fabLstat_state 0 = v := by
  rw [State.lstat, if_pos hreg, State.fld_setFld_eq _ (by decide) hv]

/-- What a node does when its job is aborted, if its run has not been passed by. -/
theorem State.abortHere_fields {s : State} {L M : LaunchSt} (h : s.fab.launches = [M]) (ht : M.tree = L.tree) (hMq : M.queued = L.queued) (hfail : L.lfailed = false) (hby : L.passedBy = false) :
    let u := s.abortHere L
    (L.queued = false → (u.region L.region).running = false) ∧ (L.queued = true → u.regions = s.regions) ∧
    (s.reg .fabLaunch 0 = L.tree.launchId.toNat → u.fld F.fabLstat_state 0 = 4) ∧
    u.fab.launches = [{ M with queued := false }] := by
  intro u
  have hbe (v : State) (c : Bool) : Chg { fns := true, regs := true } v (if c = true then v.event 0x029B 8 0 [] else v) := .ite State.event_chg .refl
  have hbr (v : State) (c : Bool) : RegsKept [.hstEvstat] v (if c = true then v.event 0x029B 8 0 [] else v) := .ite (.event (by decide)) .refl
  generalize hb : (s.running L.region && (s.region L.region).begun && !L.queued && !L.passedBy && !L.lfailed) = begun
  have hu : u = (if begun = true then (s.cancel L).event 0x029B 8 0 [] else s.cancel L).lstat L 4 := by
    simp only [u, State.abortHere, hb]
    rw [hfail, if_neg Bool.false_ne_true]
  have hcancel : Chg { fab := true, tiles := true, freeCtr := true, park := true, regions := true } s (s.cancel L) := State.cancel_chg
  have hstat (hreg : s.reg .fabLaunch 0 = L.tree.launchId.toNat) : u.fld F.fabLstat_state 0 = 4 := by
    rw [hu]
    refine State.lstat_fields (by decide) ?_
    rw [hbr _ _ _ _ (by decide) (by decide), hcancel.reg_eq, hreg]
  have hfab : u.fab = (s.cancel L).fab := by rw [hu, State.lstat_chg.fab_eq, (hbe _ _).fab_eq]
  have hregions : u.regions = (s.cancel L).regions := by rw [hu, State.lstat_chg.regions_eq, (hbe _ _).regions_eq]
  have hregion (k : Nat) : u.region k = (s.cancel L).region k := by rw [State.region, hregions, State.region]
  rw [hfab, hregion, hregions]
  cases hq : L.queued with
  | true =>
    have hc : s.cancel L = s.modLaunch L.tree.launchId fun L => { L with queued := false } := by rw [State.cancel, hq, if_pos rfl]
    rw [hc]
    refine ⟨fun hn => (by cases hn), fun _ => rfl, hstat, ?_⟩
    rw [← ht]
    exact State.modLaunch_one h _
  | false =>
    have hc : s.cancel L = s.stopRegion L.region := by
      rw [State.cancel, hq, hby, if_neg Bool.false_ne_true, if_neg Bool.false_ne_true]
    rw [hc]
    refine ⟨fun _ => (s.stopRegion_fields _).1, fun hn => (by cases hn), hstat, ?_⟩
    rw [State.stopRegion_chg.fab_eq, h]
    rw [hq] at hMq
    congr 1
    cases M
    cases hMq
    rfl

theorem RegsKept.runDone {K : List RegKind} {s : State} {r status : Nat} {report : Option (Word × Word)} : RegsKept K s (s.runDone r status report) := by
  unfold State.runDone
  dsimp only
  refine .trans (.foldl (fun _ _ => .complete (by decide)) _ ?_) (.of_chg .modRegion)
  split
  · exact .complete (by decide)
  · exact .refl

theorem execLfailReceive_root {s : State} {L : LaunchSt} {node : Nat} {st : BitVec 16} (h : s.fab.launches = [L]) (hnode : L.node = 0)
    (hfail : L.lfailed = false) (hby : L.passedBy = false) (hq : L.queued = false)
    (hin : s.hasMsg 0x22 (·.says L.tree.launchId (argBytes [node, st.toNat])) = true) :
    Yields (.lfailReceive node L.tree.launchId st) s fun u =>
      (u.region L.region).running = false ∧ (s.reg .fabLaunch 0 = L.tree.launchId.toNat → u.fld F.fabLstat_state 0 = 4) ∧
      ∃ M, u.fab.launches = [M] ∧ M.lfailed = true ∧ M.msg = 0x23 := by
  generalize hd : s.dropMsg 0x22 (·.says L.tree.launchId (argBytes [node, st.toNat])) = d
  have hdL : d.fab.launches = [L] := by rw [← hd]; exact h
  have hdreg : RegsKept [] s d := by rw [← hd]; exact .plain
  generalize hv : (d.runDone L.region 0x0053).forward L.tree.launchId 0x23 [] = v
  have hrunfab : (d.runDone L.region 0x0053).fab = d.fab := State.runDone_fns.fab_eq
  have hvL : v.fab.launches = [{ L with since := (d.runDone L.region 0x0053).wall, msg := 0x23, args := [], lacks := [], alts := [] }] := by
    rw [← hv, State.forward_one (by rw [hrunfab, hdL])]
  have hvreg : v.reg .fabLaunch 0 = s.reg .fabLaunch 0 := by
    rw [← hv, State.forward_chg.reg_eq, RegsKept.runDone (K := []) _ _ (by decide) (by decide), hdreg _ _ (by decide) (by decide)]
  have hexec : exec (.lfailReceive node L.tree.launchId st) s = .next ((v.abortHere L).modLaunch L.tree.launchId fun L => { L with lfailed := true }) := by
    refine congrArg Host.Outcome.next ((State.onMsg_has hin).trans ?_)
    rw [hd, State.launchBy_one hdL]
    dsimp only
    rw [if_pos hnode, State.jobFails, hfail, hby]
    simp only [Bool.or_self, Bool.false_eq_true, if_false]
    rw [hv]
  obtain ⟨hstop, -, hstat, hlaunches⟩ := State.abortHere_fields (s := v) (L := L) hvL rfl rfl hfail hby
  refine ⟨_, hexec, ?_, fun hreg => ?_, ?_⟩
  · rw [State.modLaunch_chg.region_eq]
    exact hstop hq
  · rw [State.modLaunch_chg.fld_eq]
    exact hstat (hvreg.trans hreg)
  · exact ⟨_, State.modLaunch_one hlaunches _, rfl, rfl⟩

theorem execAbortReceive_node {s : State} {L : LaunchSt} (h : s.fab.launches = [L]) (hnode : L.node ≠ 0) (hmsg : L.msg ≠ 0x23)
    (hfail : L.lfailed = false) (hby : L.passedBy = false) (hin : s.hasMsg 0x23 (·.says L.tree.launchId []) = true) :
    Yields (.abortReceive L.tree.launchId) s fun u =>
      (L.queued = false → (u.region L.region).running = false) ∧ (L.queued = true → u.regions = s.regions) ∧
      (s.reg .fabLaunch 0 = L.tree.launchId.toNat → u.fld F.fabLstat_state 0 = 4) ∧
      ∃ M, u.fab.launches = [M] ∧ M.msg = 0x23 ∧ M.queued = false := by
  generalize hd : s.dropMsg 0x23 (·.says L.tree.launchId []) = d
  have hdL : d.fab.launches = [L] := by rw [← hd]; exact h
  have hdreg : RegsKept [] s d := by rw [← hd]; exact .plain
  have hdr : d.regions = s.regions := by rw [← hd]; rfl
  generalize hv : (d.forward L.tree.launchId 0x23 []).lack L = v
  have hdv : Chg { fab := true } d v := by
    rw [← hv]
    exact .via (.via .refl State.forward_chg) State.lack_chg
  have hvL : v.fab.launches = [{ L with since := d.wall, msg := 0x23, args := [], lacks := [], alts := [] }] := by
    rw [← hv]
    exact State.Mailed.lack.1.trans (State.forward_one hdL _ _)
  have hvreg : v.reg .fabLaunch 0 = s.reg .fabLaunch 0 := by
    rw [hdv.reg_eq, hdreg _ _ (by decide) (by decide)]
  have hexec : exec (.abortReceive L.tree.launchId) s = .next (v.abortHere L) := by
    refine congrArg Host.Outcome.next ((State.onMsg_has hin).trans ?_)
    rw [hd, State.launchBy_one hdL]
    dsimp only
    rw [if_neg hnode, if_neg hmsg, hv]
  obtain ⟨hstop, hsame, hstat, hlaunches⟩ := State.abortHere_fields (s := v) (L := L) hvL rfl rfl hfail hby
  exact ⟨_, hexec, hstop, fun hq => (hsame hq).trans (hdv.regions_eq.trans hdr), fun hreg => hstat (hvreg.trans hreg), _, hlaunches, rfl, rfl⟩

theorem execBarrierTimeout_due {s : State} {L : LaunchSt} {t0 : Nat} (h : s.fab.launches = [L]) (hnode : L.node ≠ 0) (harm : L.arm = true)
    (hrel : L.released = false) (hfail : L.lfailed = false) (hby : L.passedBy = false) (hq : L.queued = false) (hready : L.readyAt = some t0)
    (hdue : t0 + 100 * s.fld F.fabBarctl_timeout 0 ≤ s.wall) :
    Yields .barrierTimeout s fun u =>
      (u.region L.region).running = false ∧ (u.region L.region).pend = none ∧
      (s.reg .fabLaunch 0 = L.tree.launchId.toNat → u.fld F.fabLstat_state 0 = 3) ∧ ∃ M, u.fab.launches = [M] ∧ M.lfailed = true := by
  generalize hv : (s.freeStep 2).stopRegion L.region = v
  have hsv : Chg { freeCtr := true, tiles := true, park := true, regions := true } s v := by
    rw [← hv]
    exact .via (.via .refl State.freeStep_chg) State.stopRegion_chg
  have hexec : exec .barrierTimeout s = .next ((v.lfail L (leNat (s.freeBytes 2))).lstat L 3) := by
    show execBarrierTimeout s = _
    simp only [execBarrierTimeout, h, List.find?_cons, harm, hrel, hfail, hby, hready, decide_eq_true hdue, Bool.not_false, Bool.and_self]
    rw [State.nodeFails, if_neg hnode, hfail, if_neg Bool.false_ne_true, State.cancel, hq, hby, if_neg Bool.false_ne_true, if_neg Bool.false_ne_true, hv]
  have hlfail : Chg { fab := true, fns := true, regs := true } v (v.lfail L (leNat (s.freeBytes 2))) := State.lfail_chg
  have hreg' : (v.lfail L (leNat (s.freeBytes 2))).reg .fabLaunch 0 = s.reg .fabLaunch 0 :=
    (State.NodeKept.lfail (t := L.tree) (node := 0) (arm := true) rfl).reg.trans (hsv.reg_eq ..)
  have hL : (v.lfail L (leNat (s.freeBytes 2))).fab.launches = [{ L with lfailed := true, fails := L.fails ++ [L.node] }] := by
    unfold State.lfail
    refine State.modLaunch_one ?_ _
    rw [State.event_chg.fab_eq]
    exact State.upTree_one (by rw [hsv.fab_eq]; exact h) _ _
  obtain ⟨hrun, hpend, -⟩ := (s.freeStep 2).stopRegion_fields L.region
  refine ⟨_, hexec, ?_, ?_, fun hreg => State.lstat_fields (by decide) (hreg'.trans hreg), ?_⟩
  · rw [State.lstat_chg.region_eq, hlfail.region_eq, ← hv]
    exact hrun
  · rw [State.lstat_chg.region_eq, hlfail.region_eq, ← hv]
    exact hpend
  · refine ⟨{ L with lfailed := true, fails := L.fails ++ [L.node] }, ?_, rfl⟩
    rw [State.lstat_chg.fab_eq]
    exact hL

/-! ## Barriers between steps (R432 to R435) -/

theorem execArriveReceive_counts {s : State} {L : LaunchSt} {node : Nat} {unsync : Bool} (h : s.fab.launches = [L]) (hroot : L.node = 0)
    (h0 : node ≠ 0) (hrun : s.running L.region = true) (hnew : ∀ a ∈ L.arrivals, a.1 ≠ node) (hnode : node < L.tree.nodes.length)
    (hmore : L.arrivals.length + 1 < L.tree.nodes.length)
    (hin : s.hasMsg 0x30 (fun m => m.origin == (nodeOf L.tree node).module && m.says L.tree.launchId (argBytes [b2n unsync])) = true) :
    Yields (.arriveReceive node L.tree.launchId unsync) s fun u =>
      u.fab.launches = [{ L with arrivals := L.arrivals ++ [(node, s.cnt)], firstArr := some (L.firstArr.getD s.wall) }] ∧
      u.regions = s.regions := by
  generalize hd : s.dropMsg 0x30 (fun m => m.origin == (nodeOf L.tree node).module && m.says L.tree.launchId (argBytes [b2n unsync])) = d
  have hdL : d.fab.launches = [L] := by rw [← hd]; exact h
  have hdreg : RegsKept [] s d := by rw [← hd]; exact .plain
  have hdr : d.regions = s.regions := by rw [← hd]; rfl
  generalize hv : (if unsync = true then d.event 0x02D2 8 0 [(4, node)] else d) = v
  have hdv : Chg { fns := true, regs := true } d v := by
    rw [← hv]
    exact .ite State.event_chg .refl
  have hvreg : RegsKept [.hstEvstat] s v := by
    rw [← hv]
    exact (hdreg.mono (by decide)).trans (.ite (.event (by decide)) .refl)
  have hcnt : v.cnt = s.cnt := hvreg _ _ (by decide) (by decide)
  have hwall : v.wall = s.wall := hvreg _ _ (by decide) (by decide)
  have hdrun : d.running L.region = true := by
    rw [State.running, State.region, hdr]
    exact hrun
  have hany : ¬((L.arrivals.any fun a => a.1 == node) = true ∨ L.tree.nodes.length ≤ node) := by
    rintro (ha | ha)
    · obtain ⟨a, hmem, heq⟩ := List.any_eq_true.1 ha
      exact hnew a hmem (by simpa using heq)
    · omega
  have hexec : exec (.arriveReceive node L.tree.launchId unsync) s = .next (v.modLaunch L.tree.launchId fun L =>
      { L with arrivals := L.arrivals ++ [(node, v.cnt)], firstArr := some (L.firstArr.getD v.wall) }) := by
    show execArriveReceive node L.tree.launchId unsync s = _
    simp only [execArriveReceive, State.launchBy_one h]
    rw [State.onMsg_has hin, hd, if_neg (by rw [hdrun]; simp [hroot, h0]), hv, State.takeArrival, if_neg hany, if_neg (by omega)]
  refine ⟨_, hexec, ?_, ?_⟩
  · rw [State.modLaunch_one (by rw [hdv.fab_eq]; exact hdL), hcnt, hwall]
  · rw [State.modLaunch_chg.regions_eq, hdv.regions_eq, hdr]


theorem RegsKept.suspect {s : State} {n : Nat} {ev : Bool} (hn : n < 2 ^ 32) : RegsKept [.fabStrag, .hstEvstat] s (s.suspect n ev) := by
  unfold State.suspect
  dsimp only
  exact .ite .refl (.ite (RegsKept.trans (.setFld hn (by decide)) (.event (by decide))) (.setFld hn (by decide)))

theorem RegsKept.straggler {s : State} {n : Nat} (hn : n < 2 ^ 32) : RegsKept [.fabStrag, .hstEvstat] s (s.straggler n) := by
  unfold State.straggler
  dsimp only
  exact .ite (RegsKept.trans (.satAdd hn (by decide)) (.suspect hn)) (.satAdd hn (by decide))

theorem State.toPark_congr {s u : State} (hcnt : u.cnt = s.cnt) (hsched : u.sched = s.sched) (hreqs : u.reqs = s.reqs) (hpark : u.park = s.park) :
    u.toPark = s.toPark := by
  have hheld (c : Nat) : u.heldAt c = s.heldAt c := by rw [State.heldAt, hreqs, hpark, State.heldAt]
  simp only [State.toPark, State.schedIn64, hcnt, hsched, hheld]

/-- The next step's start, asked for in time (R433). -/
theorem State.nextStepAt_inTime {s : State} {r next : Nat} (harm : (s.region r).armed = false) (hnext : s.cnt + s.toPark + 64 ≤ next) :
    (s.nextStepAt r next).region r =
      { s.region r with
        pend := some ⟨s.cnt, .count, next, none, none, []⟩
        series := (s.region r).series.map fun x => { x with between := false, late := false, nextAt := some next } } := by
  have hlate : decide (next < s.cnt + s.toPark + 64) = false := decide_eq_false (by omega)
  simp only [State.nextStepAt, hlate, harm, Bool.and_false, Bool.or_self, Bool.false_eq_true, if_false, State.modRegion_same]

theorem execStepReleaseReceive_next {s : State} {L : LaunchSt} {last next : Nat} {x : Series} (h : s.fab.launches = [L]) (hnode : L.node ≠ 0)
    (hby : L.passedBy = false) (hfail : L.lfailed = false) (hlast : last < 1024) (hnew : L.msg ≠ 0x31 ∨ L.args ≠ [last, next, 0])
    (hrun : s.running L.region = true) (harm : (s.region L.region).armed = false) (hx : (s.region L.region).series = some x)
    (hnext : s.cnt + s.toPark + 64 ≤ next) (hin : s.hasMsg 0x31 (·.says L.tree.launchId (argBytes [last, next, b2n false])) = true) :
    Yields (.stepReleaseReceive last next false) s fun u =>
      (u.region L.region).pend = some ⟨s.cnt, .count, next, none, none, []⟩ ∧
      (u.region L.region).series = some { x with between := false, late := false, nextAt := some next } := by
  have hfor : s.releaseFor [last, next, b2n false] = some L := by
    simp only [State.releaseFor, h, List.find?_cons, bne_iff_ne.2 hnode, hin, Bool.and_self]
  generalize hd : s.dropMsg 0x31 (·.says L.tree.launchId (argBytes [last, next, b2n false])) = d
  generalize hv : (d.forward L.tree.launchId 0x31 [last, next, b2n false]).lack L = v
  have hsv : Chg { fab := true } s v := by
    rw [← hv, ← hd]
    exact .via (.via .modFab State.forward_chg) State.lack_chg
  generalize hw : v.straggler last = w
  have hvw : Chg { regs := true, fns := true } v w := by
    rw [← hw]
    exact State.straggler_chg
  have hregs : RegsKept [.fabStrag, .hstEvstat] s w := by
    rw [← hw]
    exact (RegsKept.of_chg hsv).trans (.straggler (by omega))
  have hregion (r : Nat) : w.region r = s.region r := (hvw.region_eq r).trans (hsv.region_eq r)
  have hcnt : w.cnt = s.cnt := hregs _ _ (by decide) (by decide)
  have hpark : w.toPark = s.toPark := State.toPark_congr hcnt (hregs _ _ (by decide) (by decide)) (hvw.reqs_eq.trans hsv.reqs_eq)
    (hvw.park_eq.trans hsv.park_eq)
  have hgo : ¬(L.passedBy || L.lfailed || !v.running L.region || (v.region L.region).series.isNone) = true := by
    rw [hby, hfail, State.running, hsv.region_eq, hx]
    rw [State.running] at hrun
    simp [hrun]
  have hexec : exec (.stepReleaseReceive last next false) s = .next (w.nextStepAt L.region next) := by
    show execStepReleaseReceive last next false s = _
    simp only [execStepReleaseReceive, hfor]
    rw [State.onMsg_has hin, hd, if_neg (by rintro ⟨h1, h2⟩; rcases hnew with h' | h'; exacts [h' h1, h' h2]), hv, if_neg hgo,
      if_neg Bool.false_ne_true, hw]
  refine ⟨_, hexec, ?_⟩
  dsimp only
  rw [State.nextStepAt_inTime (by rw [hregion]; exact harm) (by rw [hcnt, hpark]; exact hnext), hregion, hcnt, hx]
  exact ⟨rfl, rfl⟩

/-! ## A barrier that waits too long (R435) -/

/-- The registers apart from the stragglers', which any node may write, and events. -/
theorem State.suspect_launch (s : State) (n : Nat) (ev : Bool) : (s.suspect n ev).reg .fabLaunch 0 = s.reg .fabLaunch 0 := by
  have hset : (s.setFld F.fabStrag_suspect n 1).reg .fabLaunch 0 = s.reg .fabLaunch 0 :=
    State.reg_setReg_ne _ _ (regKey_ne_of_lt n (by decide) (by decide))
  unfold State.suspect
  dsimp only
  split
  · rfl
  · split
    · rw [RegsKept.event (K := [.hstEvstat]) (by decide) _ _ (by decide) (by decide), hset]
    · exact hset

/-- A series over: its run done, its region idle (R435, R465). -/
theorem State.seriesEnds_fields {s : State} {r : Nat} :
    ((s.seriesEnds r).region r).running = false ∧ ((s.seriesEnds r).region r).series = none ∧ ((s.seriesEnds r).region r).cmd = none ∧
    ∀ L, s.launchOf r = some L → s.reg .fabLaunch 0 = L.tree.launchId.toNat → (s.seriesEnds r).fld F.fabLstat_state 0 = 0 := by
  have hdone (v : State) : (v.runDone r 0).region r = { v.region r with cmd := none, stops := [] } := by
    have hstops (w : State) (l : List Cmd) : (l.foldl (fun s c => s.complete c 0x0005 0) w).region r = w.region r :=
      (Chg.foldl (P := { fns := true }) (fun _ _ => State.complete_fns (by decide)) _ .refl).region_eq r
    unfold State.runDone
    dsimp only
    rw [State.modRegion_same, hstops]
    split
    · rw [(State.complete_fns (by decide)).region_eq]
    · rfl
  have hend (v : State) : (v.regionDone r).region r =
      { v.region r with running := false, inInv := false, begun := false, pend := none, series := none, armed := false } := by
    rw [State.regionDone, State.hbSeries_chg.region_eq, State.modRegion_same]
  have hregs (v : State) : Chg { regions := true, mir := true } v (v.regionDone r) := State.regionDone_chg
  refine ⟨?_, ?_, ?_, fun L hL hreg => ?_⟩
  · rw [State.seriesEnds, hend]
  · rw [State.seriesEnds, hend]
  · rw [State.seriesEnds, hend, hdone]
  · have hover : (s.lstatOver r).fld F.fabLstat_state 0 = 0 := by
      rw [State.lstatOver, hL]
      exact State.lstat_fields (by decide) hreg
    rw [State.seriesEnds, (hregs _).fld_eq, RegsKept.runDone.fld (K := []) _ _ (by decide) (by decide), hover]

theorem execStepBarrierTimeout_due {s : State} {L : LaunchSt} {t0 : Nat} (h : s.fab.launches = [L]) (hroot : L.node = 0) (hby : L.passedBy = false)
    (hfirst : L.firstArr = some t0) (hdue : t0 + 100 * s.fld F.fabBarctl_timeout 0 ≤ s.wall) :
    Yields .stepBarrierTimeout s fun u =>
      (∃ M, u.fab.launches = [M] ∧ M.arrivals = [] ∧ M.firstArr = none) ∧ (u.region L.region).cmd = none ∧
      ((s.region L.region).inInv = false →
        (u.region L.region).running = false ∧ (u.region L.region).series = none ∧
        (s.reg .fabLaunch 0 = L.tree.launchId.toNat → L.queued = false → L.lfailed = false → u.fld F.fabLstat_state 0 = 0)) ∧
      ((s.region L.region).inInv = true →
        (u.region L.region).running = (s.region L.region).running ∧
        (u.region L.region).series = (s.region L.region).series.map fun x => { x with aborted := true }) := by
  generalize hm : ((List.range L.tree.nodes.length).find? fun i => !L.arrivals.any fun a => a.1 == i).getD 0 = missing
  generalize hv : (s.forward L.tree.launchId 0x31 [missing, 0, 1]).modLaunch L.tree.launchId (fun L => { L with arrivals := [], firstArr := none }) = v
  obtain ⟨M, hvL, hMt, hMn, hMq, hMf, hMb, hMa, hMfirst⟩ : ∃ M, v.fab.launches = [M] ∧ M.tree = L.tree ∧ M.node = L.node ∧ M.queued = L.queued ∧
      M.lfailed = L.lfailed ∧ M.passedBy = L.passedBy ∧ M.arrivals = [] ∧ M.firstArr = none := by
    rw [← hv]
    exact ⟨_, State.modLaunch_one (State.forward_one h _ _) _, rfl, rfl, rfl, rfl, rfl, rfl, rfl⟩
  have hsv : Chg { fab := true } s v := by
    rw [← hv]
    exact .via (.via .refl State.forward_chg) State.modLaunch_chg
  have hexec : exec .stepBarrierTimeout s = .next (v.barrierAborts L missing) := by
    show execStepBarrierTimeout s = _
    simp only [execStepBarrierTimeout, h, List.find?_cons, hroot, hby, hfirst, decide_eq_true hdue, beq_self_eq_true, Bool.not_false, Bool.and_self, hm]
    rw [hv]
  generalize hc : (match (((v.suspect missing false).event 0x029E 8 0 []).region L.region).cmd with
    | some c => ((v.suspect missing false).event 0x029E 8 0 []).complete c 0x0004 0x0054
    | none => (v.suspect missing false).event 0x029E 8 0 []) = c
  have hcomp : Chg { fns := true, regs := true } v c ∧ c.reg .fabLaunch 0 = v.reg .fabLaunch 0 := by
    have hbase : Chg { fns := true, regs := true } v ((v.suspect missing false).event 0x029E 8 0 []) := .via (.via .refl State.suspect_chg) State.event_chg
    have hreg : ((v.suspect missing false).event 0x029E 8 0 []).reg .fabLaunch 0 = v.reg .fabLaunch 0 := by
      rw [RegsKept.event (K := [.hstEvstat]) (by decide) _ _ (by decide) (by decide), State.suspect_launch]
    rw [← hc]
    split
    · exact ⟨hbase.via (State.complete_fns (by decide)), (RegsKept.complete (K := []) (by decide) _ _ (by decide) (by decide)).trans hreg⟩
    · exact ⟨hbase, hreg⟩
  generalize hw : c.modRegion L.region (fun R => { R with cmd := none, series := R.series.map fun x => { x with aborted := true } }) = w
  have hbar : v.barrierAborts L missing = if (w.region L.region).inInv = true then w else w.seriesEnds L.region := by
    simp only [State.barrierAborts]
    rw [← hw, ← hc] <;> rfl
  have hwr : w.region L.region = { s.region L.region with cmd := none, series := (s.region L.region).series.map fun x => { x with aborted := true } } := by
    rw [← hw, State.modRegion_same, hcomp.1.region_eq, hsv.region_eq]
  have hwfab : w.fab.launches = v.fab.launches := by
    rw [← hw, ← hcomp.1.fab_eq]
    rfl
  have hwreg : w.reg .fabLaunch 0 = s.reg .fabLaunch 0 := by
    rw [← hw, Chg.modRegion.reg_eq, hcomp.2, hsv.reg_eq]
  refine ⟨_, hexec, ?_⟩
  dsimp only
  rw [hbar]
  cases hin : (s.region L.region).inInv with
  | true =>
    rw [if_pos (by rw [hwr]; exact hin), hwr, hwfab, hvL]
    exact ⟨⟨_, rfl, hMa, hMfirst⟩, rfl, fun hf => (by cases hf), fun _ => ⟨rfl, rfl⟩⟩
  | false =>
    rw [if_neg (by rw [hwr]; simp [hin])]
    obtain ⟨hrun, hseries, hcmd, hstat⟩ := State.seriesEnds_fields (s := w) (r := L.region)
    refine ⟨⟨_, (congrArg Fab.launches State.seriesEnds_chg.fab_eq).trans (hwfab.trans hvL), hMa, hMfirst⟩, hcmd,
      fun _ => ⟨hrun, hseries, fun hreg hq hf => ?_⟩, fun hf => (by cases hf)⟩
    · refine hstat M ?_ (hwreg.trans (hreg.trans (by rw [hMt])))
      have hregion : (M.region == L.region) = true := by rw [LaunchSt.region, hMt, hMn, ← LaunchSt.region, beq_self_eq_true]
      simp only [State.launchOf, hwfab, hvL, List.find?_cons, hregion, hMb, hby, hMq, hq, hMf, hf, Bool.not_false, Bool.and_self]

/-- Settles O37. -/
theorem jobMessages : Obligations.JobMessages := by
  unfold Obligations.JobMessages
  intro s L h id r
  exact ⟨fun child hdue => execAltwaitExpiry_due h hdue, fun child hnew hin => execLackReceive_new h hnew hin,
    fun node st hnode hnew hin => execLfailReceive_node h hnode hnew hin,
    fun node st hnode hfail hby hq hin => execLfailReceive_root h hnode hfail hby hq hin,
    fun hnode hmsg hfail hby hin => execAbortReceive_node h hnode hmsg hfail hby hin,
    fun t0 hnode harm hrel hfail hby hq hready hdue => execBarrierTimeout_due h hnode harm hrel hfail hby hq hready hdue,
    fun node unsync hroot h0 hrun hnew hnode hmore hin => execArriveReceive_counts h hroot h0 hrun hnew hnode hmore hin,
    fun last next x hnode hby hfail hlast hnew hrun harm hx hnext hin =>
      execStepReleaseReceive_next h hnode hby hfail hlast hnew hrun harm hx hnext hin,
    fun t0 hroot hby hfirst hdue => execStepBarrierTimeout_due h hroot hby hfirst hdue⟩

end Sys2Proof.Machine
end

section
/-!
The serving engine's configuration, rings and tenants (R461 to R490).
-/
namespace Sys2Proof.Machine
set_option Elab.async false

/-! ## What completes, and what else of a function changes -/

theorem State.complete_func (s : State) (c : Cmd) {opcode status result : Nat} (hop : opcode ≠ 1) :
    ∃ l, (s.complete c opcode status result).func c.fn = { s.func c.fn with cpls := (s.func c.fn).cpls ++ l } := by
  unfold State.complete
  rw [if_neg hop]
  dsimp only
  split
  · exact ⟨[], by rw [List.append_nil]⟩
  · exact ⟨_, State.modFunc_same ..⟩

theorem State.popCmd_func (s : State) (c : Cmd) : (s.popCmd c).func c.fn = { s.func c.fn with taken := (s.func c.fn).taken.tail, waits := false } :=
  State.modFunc_same ..

/-- A command that begins, and completes a state that left its ring as it was. -/
theorem State.begins.completes {s v : State} {i : Instr} {c : Cmd} {opcode status result : Nat} {allFns : Bool} (h : s.begins i c opcode allFns)
    (hop : opcode ≠ 1) (hs : v.ringStopped c.fn = s.ringStopped c.fn) (hc : (v.func c.fn).cpls = (s.func c.fn).cpls) :
    Completed s (v.complete c opcode status result) c opcode status result := State.completed hop (hs.trans h.notStopped) hc

/-! ## OUTRING and TENANT_SET (R474, R490) -/

theorem execOutring_eq {s : State} {c : Cmd} {base : BitVec 64} {size : BitVec 8} (h : s.begins (.outring c base size) c 0x0103 true) :
    ((∃ e < 2, ∃ q ∈ (s.eng e).used, q.2.fn = c.fn) →
      Answers (.outring c base size) c s fun u =>
        Completed s u c 0x0103 0x006D ∧ (u.func c.fn).outBase = (s.func c.fn).outBase ∧ u.engs = s.engs) ∧
    ((∀ e < 2, ∀ q ∈ (s.eng e).used, q.2.fn ≠ c.fn) → base.toNat % 4096 = 0 → size.toNat ≤ 10 →
      Answers (.outring c base size) c s fun u =>
        Completed s u c 0x0103 0 ∧ u.engs = s.engs ∧ (u.func c.fn).outBase = base ∧ (u.func c.fn).outSize = size.toNat ∧
        (u.func c.fn).outOn = true ∧ (u.func c.fn).outIdx = 0 ∧ (u.func c.fn).outPhase = true) := by
  have hused (e : Nat) : ((s.popCmd c).eng e).used = (s.eng e).used := by rw [State.popCmd_chg.eng_eq]
  refine ⟨fun hhas => ?_, fun hnone hbase hsize => ?_⟩
  · have hany : ([0, 1].any fun e => ((s.popCmd c).eng e).used.any fun q => q.2.fn == c.fn) = true := by
      obtain ⟨e, he, q, hq, hfn⟩ := hhas
      refine List.any_eq_true.2 ⟨e, ?_, ?_⟩
      · rcases (by omega : e = 0 ∨ e = 1) with rfl | rfl <;> simp
      · rw [hused]
        exact List.any_eq_true.2 ⟨q, hq, beq_iff_eq.2 hfn⟩
    refine ⟨(s.popCmd c).complete c 0x0103 0x006D, ?_, h.completed (by decide), ?_, ?_⟩
    · refine congrArg Host.Outcome.next ((State.runCmd_begins h _).trans ?_)
      rw [if_pos hany]
    · obtain ⟨l, hl⟩ := (s.popCmd c).complete_func c (opcode := 0x0103) (status := 0x006D) (result := 0) (by decide)
      rw [hl, State.popCmd_func]
    · rw [(State.complete_fns (by decide)).engs_eq, State.popCmd_chg.engs_eq]
  · have hany : ¬([0, 1].any fun e => ((s.popCmd c).eng e).used.any fun q => q.2.fn == c.fn) = true := by
      intro hc
      obtain ⟨e, he, hq⟩ := List.any_eq_true.1 hc
      rw [hused] at hq
      obtain ⟨q, hq, hfn⟩ := List.any_eq_true.1 hq
      have he2 : e < 2 := by
        simp only [List.mem_cons, List.not_mem_nil, or_false] at he
        omega
      exact hnone e he2 q hq (beq_iff_eq.1 hfn)
    generalize hv : (s.popCmd c).modFunc c.fn (fun f =>
      { f with outBase := base, outSize := size.toNat, outOn := true, outIdx := 0, outPhase := true }) = v
    have hsv : Chg { fns := true } s v := by
      rw [← hv]
      exact .via (.via .refl State.popCmd_chg) .modFunc
    have hfunc : v.func c.fn = { s.func c.fn with
        taken := (s.func c.fn).taken.tail, waits := false, outBase := base, outSize := size.toNat, outOn := true, outIdx := 0, outPhase := true } := by
      rw [← hv, State.modFunc_same, State.popCmd_func]
    obtain ⟨l, hl⟩ := v.complete_func c (opcode := 0x0103) (status := 0) (result := 0) (by decide)
    refine ⟨v.complete c 0x0103 0, ?_, h.completes (by decide) ?_ (by rw [hfunc]), ?_, ?_⟩
    · refine congrArg Host.Outcome.next ((State.runCmd_begins h _).trans ?_)
      rw [if_neg hany, if_neg (by omega), hv]
    · rw [State.ringStopped, hsv.fld_eq, State.ringStopped]
    · rw [(State.complete_fns (by decide)).engs_eq, hsv.engs_eq]
    · rw [hl, hfunc]
      exact ⟨rfl, rfl, rfl, rfl, rfl⟩

theorem execTenantSet_sets {s : State} {c : Cmd} {engine : BitVec 8} {tenant : BitVec 16} {limit : BitVec 32} {window funcs : BitVec 16}
    (h : s.begins (.tenantSet c engine tenant limit window funcs) c 0x0104 false) (he : engine.toNat ≤ 1) (ht : tenant.toNat ≤ 4095) (hw : window ≠ 0) :
    Answers (.tenantSet c engine tenant limit window funcs) c s fun u =>
      Completed s u c 0x0104 0 ∧ (u.eng engine.toNat).reqs = (s.eng engine.toNat).reqs ∧
      let t := mget (u.eng engine.toNat).tens tenant.toNat {}
      t.balance = limit.toNat ∧ t.limit = limit.toNat ∧ t.window = window.toNat ∧ t.funcs = funcs := by
  generalize hv : (s.popCmd c).modEng engine.toNat (fun g =>
      { g with tens := mput g.tens tenant.toNat ({ balance := limit.toNat, limit := limit.toNat, window := window.toNat, funcs := funcs, last := (s.popCmd c).wall / (100000 * window.toNat) }) }) = v
  have heng : v.eng engine.toNat = { s.eng engine.toNat with
      tens := mput (s.eng engine.toNat).tens tenant.toNat ({ balance := limit.toNat, limit := limit.toNat, window := window.toNat, funcs := funcs, last := (s.popCmd c).wall / (100000 * window.toNat) }) } := by
    rw [← hv, State.modEng_same, State.popCmd_chg.eng_eq]
  have hpv : Chg { engs := true } (s.popCmd c) v := by
    rw [← hv]
    exact .modEng
  refine ⟨v.complete c 0x0104 0, ?_, h.completes (by decide) ?_ ?_, ?_, ?_⟩
  · refine congrArg Host.Outcome.next ((State.runCmd_begins h _).trans ?_)
    rw [if_neg (by rintro (h | h | h); exacts [by omega, by omega, hw h]), hv]
  · rw [State.ringStopped, hpv.fld_eq]
    rfl
  · rw [hpv.func_eq, State.cpls_popCmd]
  · rw [(State.complete_fns (by decide)).eng_eq, heng]
  · dsimp only
    rw [(State.complete_fns (by decide)).eng_eq, heng, mget_mput_same]
    exact ⟨rfl, rfl, rfl, rfl⟩

/-! ## SRV_CONFIG (R461, R464) -/

/-- The engines' blocks, catalogues and page counts stay, and no command completes. -/
structure State.Settled (s u : State) : Prop where
  eng : ∀ e, (u.eng e).cfg = (s.eng e).cfg ∧ (u.eng e).cat = (s.eng e).cat ∧ (u.eng e).pageCnt = (s.eng e).pageCnt
  cpls : ∀ k, (u.func k).cpls = (s.func k).cpls
  regs : RegsKept pairKinds s u

namespace State.Settled

variable {s u v : State}

theorem refl : s.Settled s := ⟨fun _ => ⟨rfl, rfl, rfl⟩, fun _ => rfl, .refl⟩

theorem trans (h : s.Settled u) (k : u.Settled v) : s.Settled v := by
  refine ⟨fun e => ?_, fun j => (k.cpls j).trans (h.cpls j), h.regs.trans k.regs⟩
  obtain ⟨h1, h2, h3⟩ := h.eng e
  obtain ⟨k1, k2, k3⟩ := k.eng e
  exact ⟨k1.trans h1, k2.trans h2, k3.trans h3⟩

theorem of_chg {P : Foot} (h : Chg P s u) (he : P.engs = false := by rfl) (hf : P.fns = false := by rfl) (hr : P.regs = false := by rfl)
    (hi : P.img = false := by rfl) (hz : P.fuses = false := by rfl) : s.Settled u :=
  ⟨fun e => by rw [h.eng_eq e he]; exact ⟨rfl, rfl, rfl⟩, fun k => by rw [h.func_eq k hf], .of_chg h hr hi hz⟩

theorem ite {c : Prop} [Decidable c] (h : s.Settled u) (k : s.Settled v) : s.Settled (if c then u else v) := by
  split <;> assumption

theorem foldl {α : Type} {g : State → α → State} (hg : ∀ (v : State) x, v.Settled (g v x)) (l : List α) (h : s.Settled u) : s.Settled (l.foldl g u) := by
  induction l generalizing u with
  | nil => exact h
  | cons x l ih => exact ih (h.trans (hg u x))

theorem modEng {e : Nat} {f : Engine → Engine} (hf : ∀ g, (f g).cfg = g.cfg ∧ (f g).cat = g.cat ∧ (f g).pageCnt = g.pageCnt) : s.Settled (s.modEng e f) := by
  refine ⟨fun k => ?_, fun _ => rfl, .plain⟩
  by_cases h : k = e
  · subst h
    rw [State.modEng_same]
    exact hf _
  · rw [State.modEng_ne _ _ _ h]
    exact ⟨rfl, rfl, rfl⟩

theorem modFunc {n : Nat} {f : Func → Func} (hf : ∀ g, (f g).cpls = g.cpls) : s.Settled (s.modFunc n f) := by
  refine ⟨fun _ => ⟨rfl, rfl, rfl⟩, fun k => ?_, .plain⟩
  by_cases h : k = n
  · subst h
    rw [State.modFunc_same]
    exact hf _
  · rw [State.modFunc_ne _ _ _ h]

theorem setFld {f : Fld} {i v : Nat} (hi : i < 2 ^ 32) (hk : f.kind ∈ pairKinds) : s.Settled (s.setFld f i v) :=
  ⟨fun _ => ⟨rfl, rfl, rfl⟩, fun _ => rfl, .setFld hi hk⟩

theorem event {code kind idx : Nat} {items : List (Nat × Nat)} : s.Settled (s.event code kind idx items) := by
  have hlost (v : State) : v.Settled (v.satAdd F.hstEvstat_lost 0 1) := .setFld (by decide) (by decide)
  have hnote (v : State) : v.Settled (v.modFunc 0 fun f => { f with lostNote := f.lostNote + 1 }) := .modFunc fun _ => rfl
  unfold State.event State.eventTo
  dsimp only
  exact .ite (.modFunc fun _ => rfl) (.ite (.modFunc fun _ => rfl) ((hnote _).trans (hlost _)))

end State.Settled

/-- Nothing waits that a pair's end would answer: no activation and no fence. -/
def State.Unasked (s : State) : Prop := s.mir.updAct = none ∧ s.wts.fenceCmd = []

theorem State.abandon_unasked {s : State} (h : s.Unasked) : Chg { mir := true, wts := true } s s.abandon := by
  obtain ⟨hact, hcmds⟩ := h
  unfold State.abandon
  simp only [hact, hcmds, Option.isSome_none, List.isEmpty_nil, Bool.not_true, Bool.or_self, Bool.false_eq_true, if_false, List.foldl_nil]
  exact .via (.via .refl .modMir) .modWts

/-- A change of the pair's state that frees no mirrored pages. -/
theorem State.setPair_settled {s : State} {st : Nat} (h : s.Unasked) (h5 : st ≠ 5) : s.Settled (s.setPair st) := by
  unfold State.setPair
  refine .ite .refl ?_
  rw [if_neg h5]
  have hset (v : State) : v.Settled (v.setFld F.mirState_state 0 st) := .setFld (by decide) (by decide)
  exact .trans (.trans (.ite .refl (.of_chg (State.abandon_unasked h))) (hset _)) .event

theorem State.sendSync_settled {s : State} {e : Nat} : s.Settled (s.sendSync e) := by
  have hkv (v : State) (c : SrvCfg) (l : List (Nat × Nat × Nat)) :
      Chg { links := true } v (l.foldl (fun s x => s.sendKv c e (s.curStep c.region) x.1 256 x.2.1 x.2.2) v) := .foldl (fun _ _ => State.sendKv_chg) _ .refl
  have hclear (v : State) : v.Settled (v.modEng e fun g => { g with sentReqs := [], sentCat := [] }) := .modEng fun _ => ⟨rfl, rfl, rfl⟩
  have htold (v : State) (step kv : Nat) : v.Settled (v.tellRecord e step kv) := by
    have hnote (w : State) : w.Settled (w.modEng e fun g => { g with sentReqs := g.used, sentCat := g.catImages }) := .modEng fun _ => ⟨rfl, rfl, rfl⟩
    have hsent : v.Settled (v.sendRecord (v.recordOf e step kv)) := .of_chg State.sendRecord_chg
    unfold State.tellRecord
    exact hsent.trans (hnote _)
  unfold State.sendSync
  split
  · exact .refl
  · extract_lets g spans kv v
    have hv : s.Settled v := .of_chg (hkv s _ spans)
    exact (hv.trans (hclear v)).trans (htold _ _ _)

theorem State.startSync_settled {s : State} (h : s.Unasked) : s.Settled s.startSync := by
  generalize hv : (s.setPair 3).modMir (fun m =>
    { m with handover := none, handRids := [], giveRids := [], giving := false, heard := false, cover := false }) = v
  have hsv : s.Settled v := by
    rw [← hv]
    exact (State.setPair_settled h (by decide)).trans (.of_chg .modMir)
  generalize hw : [0, 1].foldl (fun s e => s.sendSync e) v = w
  have hsw : s.Settled w := by
    rw [← hw]
    exact hsv.trans (.foldl (fun _ _ => State.sendSync_settled) _ .refl)
  unfold State.startSync
  dsimp only
  rw [hv, hw]
  exact .ite (hsw.trans (.of_chg State.handBack_chg)) (hsw.trans (.of_chg State.sendHandover_chg))

theorem State.judge_settled {s : State} {m : Hello} (h : s.Unasked) : s.Settled (s.judge m) := by
  unfold State.judge
  exact .ite (.ite .refl (.trans (State.setPair_settled h (by decide)) .event)) (.ite (State.startSync_settled h) (.ite (State.startSync_settled h) .refl))

theorem State.judgeHello_settled {s : State} (h : s.Unasked) : s.Settled s.judgeHello := by
  unfold State.judgeHello
  split
  · exact .ite .refl (State.judge_settled h)
  · exact .refl

/-- What SRV_CONFIG installs on an engine. -/
def Engine.Configured (g : Engine) (n : SrvCfg) : Prop := g.cfg = some n ∧ g.cat = [] ∧ g.pageCnt = []

theorem State.configure_fields (es : List Nat) (hes : ∀ e ∈ es, e < 2) (n : SrvCfg) (s : State) :
    let u := es.foldl (fun s e => (s.modEng e fun g =>
      { g with cfg := some n, cat := [], pageCnt := [], sentReqs := [], sentCat := [] }).setFld F.srvCtl_configured e 1) s
    RegsKept [.srvCtl] s u ∧ Chg { engs := true, regs := true } s u ∧ ∀ e, (e ∈ es ∨ ((s.eng e).Configured n ∧ s.fld F.srvCtl_configured e = 1 ∧ e < 2)) →
      (u.eng e).Configured n ∧ u.fld F.srvCtl_configured e = 1 := by
  induction es generalizing s with
  | nil =>
    refine ⟨.refl, .refl, fun e he => ?_⟩
    rcases he with he | ⟨h1, h2, -⟩
    · cases he
    · exact ⟨h1, h2⟩
  | cons k es ih =>
    generalize hv : (s.modEng k fun g => { g with cfg := some n, cat := [], pageCnt := [], sentReqs := [], sentCat := [] }).setFld F.srvCtl_configured k 1 = v
    have hk : k < 2 := hes k List.mem_cons_self
    obtain ⟨hregs, hchg, hall⟩ := ih (fun e he => hes e (List.mem_cons_of_mem _ he)) v
    have hsv : RegsKept [.srvCtl] s v := by
      rw [← hv]
      exact (RegsKept.of_chg .modEng).trans (.setFld (by omega) (by decide))
    have hsvc : Chg { engs := true, regs := true } s v := by
      rw [← hv]
      exact .via (.via .refl .modEng) .setFld
    simp only [List.foldl_cons, hv]
    refine ⟨hsv.trans hregs, hsvc.trans hchg, fun e he => hall e ?_⟩
    by_cases hek : e = k
    · subst hek
      refine .inr ⟨?_, ?_, hk⟩
      · rw [← hv, Chg.setFld.eng_eq, State.modEng_same]
        exact ⟨rfl, rfl, rfl⟩
      · rw [← hv, State.fld_setFld_eq _ (by decide) (by decide)]
    · rcases he with he | ⟨h1, h2, h3⟩
      · exact .inl ((List.mem_cons.1 he).resolve_left hek)
      · refine .inr ⟨?_, ?_, h3⟩
        · rw [← hv, Chg.setFld.eng_eq, State.modEng_ne _ _ _ hek]
          exact h1
        · rw [← hv, State.fld_setFld_index _ (by omega) (by omega) hek]
          exact h2

theorem State.mem_enginesOf {s : State} {r e : Nat} (h : e ∈ s.enginesOf r) : e < 2 := by
  unfold State.enginesOf at h
  split at h
  · split at h
    · have := (List.mem_filter.1 h).1
      simp only [List.mem_cons, List.not_mem_nil, or_false] at this
      omega
    · cases h
  · cases h

theorem execSrvConfig_eq {s : State} {c : Cmd} {region : BitVec 8} {addr : BitVec 64} (hfn : c.fn < 16) (h : s.begins (.srvConfig c region addr) c 0x0100 false)
    (hes : (s.popCmd c).enginesOf region.toNat ≠ []) (hrun : (s.popCmd c).running region.toNat = false)
    (hused : ∀ e ∈ (s.popCmd c).enginesOf region.toNat, (s.eng e).used = []) (hfw : (s.popCmd c).fwPass c.fn false addr.toNat 128 = true) :
    ((s.popCmd c).cfgOk region.toNat (rdBytes s.hostMem addr.toNat 128) = true → s.mir.updAct = none → s.wts.fenceCmd = [] →
      Answers (.srvConfig c region addr) c s fun u =>
        Completed s u c 0x0100 0 ∧ ∀ e ∈ (s.popCmd c).enginesOf region.toNat,
          (u.eng e).cfg = some (cfgOf (rdBytes s.hostMem addr.toNat 128)) ∧ (u.eng e).cat = [] ∧ (u.eng e).pageCnt = [] ∧
          u.fld F.srvCtl_configured e = 1) ∧
    ((s.popCmd c).cfgOk region.toNat (rdBytes s.hostMem addr.toNat 128) = false →
      Answers (.srvConfig c region addr) c s fun u =>
        Completed s u c 0x0100 0x0060 ∧ u.engs = s.engs ∧ u.regs = s.regs) := by
  have hidle : ¬((s.popCmd c).running region.toNat || ((s.popCmd c).enginesOf region.toNat).any fun e => !((s.popCmd c).eng e).used.isEmpty) = true := by
    rw [hrun, Bool.false_or]
    intro hany
    obtain ⟨e, he, hne⟩ := List.any_eq_true.1 hany
    rw [State.popCmd_chg.eng_eq, hused e he] at hne
    cases hne
  have hhost : (s.popCmd c).hostMem = s.hostMem := State.popCmd_chg.hostMem_eq
  refine ⟨fun hok hact hfence => ?_, fun hbad => ?_⟩
  · generalize hb : rdBytes s.hostMem addr.toNat 128 = b at hok ⊢
    generalize hv : ((s.popCmd c).enginesOf region.toNat).foldl (fun s e => (s.modEng e fun g =>
      { g with cfg := some (cfgOf b), cat := [], pageCnt := [], sentReqs := [], sentCat := [] }).setFld F.srvCtl_configured e 1) (s.popCmd c) = v
    obtain ⟨hvregs, hvchg, hvall⟩ := State.configure_fields _ (fun e he => State.mem_enginesOf he) (cfgOf b) (s.popCmd c)
    rw [hv] at hvregs hvchg hvall
    generalize hw : ({ v with ext := memClear v.ext ((cfgOf b).item (v.vitOf region.toNat) 8) (2 * ((cfgOf b).pageCount + (cfgOf b).annexPages)) } : State) = w
    have hvw : v.Settled w.sendHello := by
      have hvw : v.Settled w := by
        rw [← hw]
        exact ⟨fun _ => ⟨rfl, rfl, rfl⟩, fun _ => rfl, .plain⟩
      exact hvw.trans (.of_chg State.sendHello_chg)
    have hasked : w.sendHello.Unasked := by
      have hmir : w.sendHello.mir.updAct = w.mir.updAct := by
        unfold State.sendHello
        split
        · rw [State.tellHello_chg.mir_eq]
        · show w.tellHello.mir.updAct = _
          rw [State.tellHello_chg.mir_eq]
      refine ⟨?_, ?_⟩
      · rw [hmir, ← hw]
        show v.mir.updAct = none
        rw [hvchg.mir_eq, State.popCmd_chg.mir_eq]
        exact hact
      · rw [State.sendHello_chg.wts_eq, ← hw]
        show v.wts.fenceCmd = []
        rw [hvchg.wts_eq, State.popCmd_chg.wts_eq]
        exact hfence
    have hset := hvw.trans (State.judgeHello_settled hasked)
    generalize hx : w.sendHello.judgeHello = x at hset
    refine ⟨x.complete c 0x0100 0, ?_, h.completes (by decide) ?_ ?_, fun e he => ?_⟩
    · refine congrArg Host.Outcome.next ((State.runCmd_begins h _).trans ?_)
      dsimp only
      rw [if_neg hes, if_neg hidle, if_neg (by rw [hfw]; decide), hhost, hb, if_neg (by rw [hok]; decide), hv, hw, hx]
    · rw [State.ringStopped_kept hset.regs (by omega) (by decide), State.ringStopped_kept hvregs (by omega) (by decide)]
      rfl
    · rw [hset.cpls, hvchg.func_eq, State.cpls_popCmd]
    · obtain ⟨⟨h1, h2, h3⟩, hconf⟩ := hvall e (.inl he)
      obtain ⟨k1, k2, k3⟩ := hset.eng e
      have hc := State.complete_fns (s := x) (c := c) (opcode := 0x0100) (status := 0) (result := 0) (report := none) (by decide)
      have he2 := State.mem_enginesOf he
      rw [hc.eng_eq, hc.fld_eq, hset.regs.fld _ _ (by omega) (by decide)]
      exact ⟨k1.trans h1, k2.trans h2, k3.trans h3, hconf⟩
  · refine ⟨(s.popCmd c).complete c 0x0100 0x0060, ?_, h.completed (by decide), ?_, ?_⟩
    · refine congrArg Host.Outcome.next ((State.runCmd_begins h _).trans ?_)
      dsimp only
      rw [if_neg hes, if_neg hidle, if_neg (by rw [hfw]; decide), hhost, if_pos (by rw [hbad]; decide)]
    · rw [(State.complete_fns (by decide)).engs_eq, State.popCmd_chg.engs_eq]
    · rw [(State.complete_fns (by decide)).regs_eq, State.popCmd_chg.regs_eq]

/-- Settles O38. -/
theorem servingConfiguration : Obligations.ServingConfiguration := by
  unfold Obligations.ServingConfiguration
  intro s c hfn p
  exact ⟨fun region addr h hes hrun hused hfw => execSrvConfig_eq hfn h hes hrun hused hfw, fun base size h => execOutring_eq h,
    fun engine tenant limit window funcs h he ht hw => execTenantSet_sets h he ht hw⟩

end Sys2Proof.Machine
end

section
/-!
Requests: admission, refusal, cancel and prompt (R471 to R504, R548, R557).
-/
namespace Sys2Proof.Machine
set_option Elab.async false

/-! ## Requests of an engine -/

theorem State.accn_modReq (s : State) (e i : Nat) (f : Req → Req) : (s.modReq e i f).accn e i = f (s.accn e i) := by
  rw [State.accn, State.modReq, State.modEng_same, mget_mput_same]
  rfl

theorem Chg.accn_eq {P : Foot} {s u : State} (h : Chg P s u) (e i : Nat) (hP : P.engs = false := by rfl) : u.accn e i = s.accn e i := by
  rw [State.accn, h.eng_eq e hP, State.accn]

theorem State.accn_modEng (s : State) (e i : Nat) (f : Engine → Engine) (hf : (f (s.eng e)).reqs = (s.eng e).reqs) :
    (s.modEng e f).accn e i = s.accn e i := by
  rw [State.accn, State.modEng_same, hf, State.accn]

theorem State.accn_endReq (s : State) (e i st : Nat) : (s.endReq e i st).accn e i = { s.accn e i with state := st } := by
  rw [State.accn, State.endReq, State.modEng_same]
  dsimp only
  rw [mget_mput_same]
  rfl

theorem State.accn_emit (s : State) (e i : Nat) (q : Req) (toks : List Nat) (final pubfail : Bool) (reason pos step : Nat) :
    (s.emit e q toks final pubfail reason pos step).accn e i = s.accn e i := by
  unfold State.emit
  dsimp only
  split
  · rw [Chg.modMir.accn_eq]
    exact State.accn_modEng _ _ _ _ rfl
  · rw [Chg.modFunc.accn_eq]
    exact State.accn_modEng _ _ _ _ rfl

/-- A request in error is ended in state 4 (R504). -/
theorem State.reqError_state (s : State) (e i cause : Nat) : ((s.reqError e i cause).accn e i).state = 4 := by
  unfold State.reqError
  dsimp only
  rw [State.eventTo_chg.accn_eq, State.accn_emit, State.accn_endReq]

/-- A request cancelled (R503). -/
theorem State.cancelReq_fields {s : State} {e i : Nat} (he : e < 2 ^ 32) :
    let u := s.cancelReq e i
    (u.accn e i).state = 5 ∧ (u.accn e i).rid = (s.accn e i).rid ∧ (u.accn e i).pages = (s.accn e i).pages ∧
    u.fld F.srvStat_cancels e = min (s.fld F.srvStat_cancels e + 1) 65535 ∧ RegsKept [.srvStat] s u ∧ ∀ k, u.func k = s.func k := by
  intro u
  generalize hv : ((s.endReq e i 5).modReq e i fun q => { q with fenced := true }).modEng e (fun g =>
    { g with
      slots := g.slots.map fun (x : SlotRec) => if x.acc = i then { x with live := false } else x
      pres := g.pres.map fun (x : PreRec) => if x.acc = i then { x with live := false } else x }) = v
  have hu : u = v.satAdd F.srvStat_cancels e 1 := by
    simp only [u, State.cancelReq]
    rw [hv]
  have hsv : Chg { engs := true } s v := by
    rw [← hv]
    exact .via (.via (.via .refl State.endReq_chg) State.modReq_chg) .modEng
  have hacc : v.accn e i = { s.accn e i with state := 5, fenced := true } := by
    rw [← hv, State.accn_modEng _ _ _ _ rfl, State.accn_modReq, State.accn_endReq]
  rw [hu, Chg.satAdd.accn_eq, hacc]
  refine ⟨rfl, rfl, rfl, ?_, (RegsKept.of_chg hsv).trans (.satAdd he (by decide)), fun k => ?_⟩
  · rw [State.satAdd, State.fld_setFld_eq _ (by decide) (Nat.lt_of_le_of_lt (Nat.min_le_right ..) (by decide)), hsv.fld_eq]
    rfl
  · rw [Chg.satAdd.func_eq, hsv.func_eq]

/-! ## SUBMIT (R471 to R481) -/

/-- A submission refused (R472). -/
theorem State.refuse_fields {s : State} {i : Instr} {c : Cmd} {allFns : Bool} {e st : Nat} (h : s.begins i c 0x0101 allFns) (hfn : c.fn < 16) (he : e < 2 ^ 32) :
    let u := (s.popCmd c).refuse c e st
    Completed s u c 0x0101 st ∧ u.engs = s.engs ∧ u.fld F.srvStat_refused e = min (s.fld F.srvStat_refused e + 1) 65535 := by
  intro u
  have hregs : RegsKept [.srvStat] (s.popCmd c) ((s.popCmd c).satAdd F.srvStat_refused e 1) := .satAdd he (by decide)
  have hc : Chg { fns := true } ((s.popCmd c).satAdd F.srvStat_refused e 1) u := State.complete_fns (by decide)
  refine ⟨h.completes (by decide) ?_ ?_, ?_, ?_⟩
  · rw [State.ringStopped_kept hregs (by omega) (by decide)]
    rfl
  · rw [Chg.satAdd.func_eq, State.cpls_popCmd]
  · rw [hc.engs_eq, Chg.satAdd.engs_eq, State.popCmd_chg.engs_eq]
  · rw [hc.fld_eq, State.satAdd, State.fld_setFld_eq _ (by decide) (Nat.lt_of_le_of_lt (Nat.min_le_right ..) (by decide))]
    rfl

theorem State.engineFor_lt {s : State} {q : Req} {e : Nat} (h : s.engineFor q = some e) : e < 2 := by
  have hserved {k : Nat} (hk : k ∈ s.served q.region) : k < 2 := State.mem_enginesOf (List.mem_filter.1 hk).1
  unfold State.engineFor at h
  split at h
  · cases h
  · next k hl =>
    cases h
    exact hserved (by rw [hl]; exact List.mem_cons_self)
  · next a b l hl =>
    have ha : a < 2 := hserved (by rw [hl]; exact List.mem_cons_self)
    have hb : b < 2 := hserved (by rw [hl]; exact List.mem_cons_of_mem _ List.mem_cons_self)
    split at h
    · next k hk =>
      cases h
      split at hk
      · have hmem := List.mem_of_find?_eq_some hk
        simp only [List.mem_cons, List.not_mem_nil, or_false] at hmem
        rcases hmem with rfl | rfl <;> assumption
      · cases hk
    · split at h
      · cases h
        exact hb
      · cases h
        exact ha

theorem State.submitPlace_engine {s : State} {q q' : Req} {b : List Byte} {e : Nat} {g : SrvCfg} (h : s.submitPlace q b = .ok (e, g, q')) : e < 2 := by
  unfold State.submitPlace at h
  split at h
  · cases h
  · split at h
    · cases h
    · next k hk =>
      split at h
      · cases h
      · split_ifs at h
        cases h
        exact State.engineFor_lt hk

theorem State.getD_engineFor_lt (s : State) (q : Req) : (s.engineFor q).getD 0 < 2 := by
  cases h : s.engineFor q with
  | none => decide
  | some e => exact State.engineFor_lt h

/-- A tenant's balance is charged for a submission (R481). -/
theorem Tenant.update_charge (t : Tenant) (cnt i n : Nat) (hup : t.upAt ≠ cnt + 1) (hlim : t.balance ≤ t.limit) :
    (t.update cnt i (-(n : Nat))).balance = t.balance - n := by
  simp only [Tenant.update, hup, if_false, insUp, List.foldl_cons, List.foldl_nil]
  omega

/-- A request admitted (R479). -/
theorem State.admitReq_fields (s : State) (e i : Nat) (rid : BitVec 32) (q : Req) :
    let u := s.admitReq e i rid q
    u.accn e i = { q with state := 1, rid := rid, order := (s.eng e).admNo } ∧ (u.eng e).admNo = (s.eng e).admNo + 1 ∧
    mget (u.eng e).tens q.tenant {} = (s.tenant e q.tenant).update s.cnt i (-(q.promptLen + q.maxnew : Nat)) := by
  intro u
  generalize hv : (s.modEng e fun g =>
    { g with
      reqs := mput g.reqs i { q with state := 1, rid := rid, order := g.admNo }
      gens := mput g.gens i ((bits rid.toNat 31 24 + 1) % 256)
      admNo := g.admNo + 1
      pageCnt := (q.pages.take q.pfxF).foldl pageUp g.pageCnt
      tens := mput g.tens q.tenant
        ((s.tenant e q.tenant).update s.cnt i (-(q.promptLen + q.maxnew : Nat))) }) = v
  have hvu : Chg { ext := true } v u := by
    simp only [u, State.admitReq]
    rw [hv]
    exact .via (.via State.putCounts_chg State.putPageList_chg) State.putReps_chg
  rw [State.accn, hvu.eng_eq, ← hv, State.modEng_same]
  exact ⟨mget_mput_same .., rfl, mget_mput_same ..⟩

/-- A command that begins, from its own text. -/
theorem State.begins.exec_eq {s : State} {i : Instr} {c : Cmd} {opcode : Nat} {allFns : Bool} (h : s.begins i c opcode allFns) {f : State → State}
    (hexec : exec i s = .next (s.runCmd c opcode (operandsOf i) allFns f)) : exec i s = .next ((f (s.popCmd c)).answerAll c.fn) :=
  hexec.trans (congrArg Host.Outcome.next (State.runCmd_begins h f))

/-- What a twin command is of: its kind, its command, its region and its block. -/
def SameTwin (t t' : TwinCmd) : Prop := t'.kind = t.kind ∧ t'.cmd = t.cmd ∧ t'.region = t.region ∧ t'.block = t.block ∧ t'.fromPartner = t.fromPartner

theorem State.twinVerdict_same (s : State) (t : TwinCmd) : SameTwin t (s.twinVerdict t) := by
  unfold State.twinVerdict
  dsimp only
  split
  · exact ⟨rfl, rfl, rfl, rfl, rfl⟩
  · split <;> exact ⟨rfl, rfl, rfl, rfl, rfl⟩

theorem State.twinForward_twins (s : State) (t : TwinCmd) : ∃ t', (s.twinForward t).mir.twins = s.mir.twins ++ [t'] ∧ SameTwin t t' := by
  refine ⟨if s.leader then { t with applyStep := s.curStep ((s.twinRegion t).getD 0) + 3 } else t, ?_, ?_⟩
  · unfold State.twinForward
    dsimp only
    rw [State.mirSend_chg.mir_eq]
    rfl
  · split <;> exact ⟨rfl, rfl, rfl, rfl, rfl⟩

section
variable {s : State} {c : Cmd} {region : BitVec 8} {addr : BitVec 64}

/-- SUBMIT to a twin pair goes to both modules (R557). -/
theorem execSubmit_twin (h : s.begins (.submit c region addr) c 0x0101 true) (hfw : (s.popCmd c).fwPass c.fn false addr.toNat 128 = true)
    (ht : (s.popCmd c).twinPaired = true) :
    Answers (.submit c region addr) c s fun u =>
      u.engs = s.engs ∧ (u.func c.fn).cpls = (s.func c.fn).cpls ∧
      ∃ t, u.mir.twins = s.mir.twins ++ [t] ∧ t.kind = 0x0101 ∧ t.cmd = c ∧ t.region = region.toNat ∧
        t.block = rdBytes s.hostMem addr.toNat 128 := by
  have hexec := h.exec_eq rfl
  dsimp only at hexec
  rw [if_neg (by rw [hfw]; decide), if_pos ht] at hexec
  refine ⟨_, hexec, ?_, ?_, ?_⟩
  · rw [State.twinForward_chg.engs_eq, State.popCmd_chg.engs_eq]
  · rw [State.twinForward_chg.func_eq, State.cpls_popCmd]
  · have key (t0 : TwinCmd) (h1 : t0.kind = 0x0101) (h2 : t0.cmd = c) (h3 : t0.region = region.toNat)
        (h4 : t0.block = rdBytes s.hostMem addr.toNat 128) :
        ∃ t, ((s.popCmd c).twinForward (if (s.popCmd c).leader = true then (s.popCmd c).twinVerdict t0 else t0)).mir.twins = s.mir.twins ++ [t] ∧
          t.kind = 0x0101 ∧ t.cmd = c ∧ t.region = region.toNat ∧ t.block = rdBytes s.hostMem addr.toNat 128 := by
      have hsame : SameTwin t0 (if (s.popCmd c).leader = true then (s.popCmd c).twinVerdict t0 else t0) := by
        split
        · exact State.twinVerdict_same ..
        · exact ⟨rfl, rfl, rfl, rfl, rfl⟩
      obtain ⟨k1, k2, k3, k4, -⟩ := hsame
      obtain ⟨t', htw, l1, l2, l3, l4, -⟩ := (s.popCmd c).twinForward_twins (if (s.popCmd c).leader = true then (s.popCmd c).twinVerdict t0 else t0)
      exact ⟨t', htw, l1.trans (k1.trans h1), l2.trans (k2.trans h2), l3.trans (k3.trans h3), l4.trans (k4.trans h4)⟩
    exact key _ rfl rfl rfl rfl

/-- SUBMIT whose place is refused (R472). -/
theorem execSubmit_noPlace (h : s.begins (.submit c region addr) c 0x0101 true) (hfn : c.fn < 16) (hfw : (s.popCmd c).fwPass c.fn false addr.toNat 128 = true)
    (ht : (s.popCmd c).twinPaired = false) {st : Nat}
    (hst : (s.popCmd c).submitPlace (reqOf c region.toNat s.wall (rdBytes s.hostMem addr.toNat 128)) (rdBytes s.hostMem addr.toNat 128) = .error st) :
    Answers (.submit c region addr) c s fun u => Completed s u c 0x0101 st ∧ u.engs = s.engs := by
  have hexec := h.exec_eq rfl
  have hst' : (s.popCmd c).submitPlace (reqOf c region.toNat (s.popCmd c).wall (rdBytes (s.popCmd c).hostMem addr.toNat 128))
      (rdBytes (s.popCmd c).hostMem addr.toNat 128) = .error st := hst
  dsimp only at hexec
  rw [if_neg (by rw [hfw]; decide), if_neg (by rw [ht]; decide), hst'] at hexec
  obtain ⟨hc, he, -⟩ := State.refuse_fields (st := st) h hfn
    (Nat.lt_trans ((s.popCmd c).getD_engineFor_lt (reqOf c region.toNat (s.popCmd c).wall (rdBytes (s.popCmd c).hostMem addr.toNat 128))) (by decide))
  exact ⟨_, hexec, hc, he⟩

/-- SUBMIT with a place: what it does by its status, and by who decides it (R472, R479, R548). -/
theorem execSubmit_place (h : s.begins (.submit c region addr) c 0x0101 true) (hfw : (s.popCmd c).fwPass c.fn false addr.toNat 128 = true)
    (ht : (s.popCmd c).twinPaired = false) {e : Nat} {g : SrvCfg} {q : Req}
    (hok : (s.popCmd c).submitPlace (reqOf c region.toNat s.wall (rdBytes s.hostMem addr.toNat 128)) (rdBytes s.hostMem addr.toNat 128) = .ok (e, g, q))
    {asks : Prop} [Decidable asks] (hasks : asks ↔ (s.mode.mirror = 1 ∧ (s.popCmd c).pairState = 4) ∧ (s.popCmd c).leader = false) {st : Nat}
    (hst : st = if asks then (s.popCmd c).admitFirst e g q false
      else (s.popCmd c).admitStatus e g q (decide (s.mode.mirror = 1 ∧ (s.popCmd c).pairState = 4))) :
    exec (.submit c region addr) s = .next (State.answerAll (if st ≠ 0 then (s.popCmd c).refuse c e st
      else if asks then
        ((s.popCmd c).modMir fun m => { m with queryNo := s.mir.queryNo + 1, queries := m.queries ++ [⟨s.mir.queryNo, c, e, q⟩] }).mirSend 0x50
          [0x0001, e, q.region, 1, q.att, q.need, s.mir.queryNo] (argBytes [0x0001, e, q.region, 1, q.att, q.need, s.mir.queryNo])
      else ((s.popCmd c).admitReq e ((s.popCmd c).newRid e).1 ((s.popCmd c).newRid e).2 q).complete c 0x0101 0 ((s.popCmd c).newRid e).2.toNat) c.fn) := by
  have hexec := h.exec_eq rfl
  have hok' : (s.popCmd c).submitPlace (reqOf c region.toNat (s.popCmd c).wall (rdBytes (s.popCmd c).hostMem addr.toNat 128))
      (rdBytes (s.popCmd c).hostMem addr.toNat 128) = .ok (e, g, q) := hok
  dsimp only at hexec
  rw [if_neg (by rw [hfw]; decide), if_neg (by rw [ht]; decide), hok'] at hexec
  rw [hexec, hst]
  simp only [hasks]
  rfl

end

/-! ## CANCEL (R502, R503) -/

theorem execCancel_eq {s : State} {c : Cmd} {rid : BitVec 32} (h : s.begins (.cancel c rid) c 0x0102 true) (ht : (s.popCmd c).twinPaired = false) :
    exec (.cancel c rid) s = .next ((((s.popCmd c).doCancel c.fn rid).1.complete c 0x0102 ((s.popCmd c).doCancel c.fn rid).2).answerAll c.fn) := by
  have hexec := h.exec_eq rfl
  dsimp only at hexec
  rw [if_neg (by rw [ht]; decide)] at hexec
  exact hexec

theorem State.findReq_popCmd (s : State) (c : Cmd) (rid : BitVec 32) : (s.popCmd c).findReq rid = s.findReq rid := rfl

theorem State.accn_popCmd (s : State) (c : Cmd) (e i : Nat) : (s.popCmd c).accn e i = s.accn e i := rfl

/-- CANCEL that changes no request. -/
theorem execCancel_still {s : State} {c : Cmd} {rid : BitVec 32} (h : s.begins (.cancel c rid) c 0x0102 true) (ht : (s.popCmd c).twinPaired = false)
    {st : Nat} (hst : (s.popCmd c).doCancel c.fn rid = (s.popCmd c, st)) :
    Answers (.cancel c rid) c s fun u => Completed s u c 0x0102 st ∧ u.engs = s.engs := by
  have hexec := execCancel_eq h ht
  rw [hst] at hexec
  exact ⟨_, hexec, h.completed (by decide), by rw [(State.complete_fns (by decide)).engs_eq, State.popCmd_chg.engs_eq]⟩

theorem execCancel_cancels {s : State} {c : Cmd} {rid : BitVec 32} (h : s.begins (.cancel c rid) c 0x0102 true) (hfn : c.fn < 16)
    (ht : (s.popCmd c).twinPaired = false) {e i : Nat} (he : e < 2) (hst : (s.popCmd c).doCancel c.fn rid = ((s.popCmd c).cancelReq e i, 0)) :
    Answers (.cancel c rid) c s fun u =>
      Completed s u c 0x0102 0 ∧ (u.accn e i).state = 5 ∧ (u.accn e i).rid = (s.accn e i).rid ∧ (u.accn e i).pages = (s.accn e i).pages ∧
      u.fld F.srvStat_cancels e = min (s.fld F.srvStat_cancels e + 1) 65535 := by
  have hexec := execCancel_eq h ht
  rw [hst] at hexec
  obtain ⟨hstate, hrid, hpages, hcount, hregs, hfunc⟩ := State.cancelReq_fields (s := s.popCmd c) (i := i) (show e < 2 ^ 32 by omega)
  have hc : Chg { fns := true } ((s.popCmd c).cancelReq e i) (((s.popCmd c).cancelReq e i).complete c 0x0102 0) := State.complete_fns (by decide)
  refine ⟨_, hexec, h.completes (by decide) ?_ ?_, ?_⟩
  · rw [State.ringStopped_kept hregs (by omega) (by decide)]
    rfl
  · rw [hfunc, State.cpls_popCmd]
  · dsimp only
    rw [hc.accn_eq, hc.fld_eq, hstate, hrid, hpages, hcount]
    exact ⟨rfl, rfl, rfl, rfl⟩

/-! ## A prompt that comes (R479, R504) -/

theorem execPromptFetchComplete_loads {s : State} {rid : BitVec 32} {e i : Nat} (hfind : s.findReq rid = some (e, i)) (hst : (s.accn e i).state = 1)
    (hload : (s.accn e i).loaded = false) :
    (∀ x, Yields (.promptFetchComplete rid (some x)) s fun u => (u.accn e i).state = 4) ∧
    (s.promptOf (s.accn e i) = none → Yields (.promptFetchComplete rid none) s fun u => (u.accn e i).state = 4) ∧
    (∀ ts cfg, s.promptOf (s.accn e i) = some ts → (s.eng e).cfg = some cfg → (∀ t ∈ ts, t < cfg.vocab) → (s.accn e i).pfxAnnex = false →
      Yields (.promptFetchComplete rid none) s fun u =>
        u.accn e i = { s.accn e i with toks := (s.accn e i).toks ++ ts, loaded := true }) := by
  have hgo : ¬((s.accn e i).state ≠ 1 ∨ (s.accn e i).loaded = true) := by
    rw [hst, hload]
    rintro (h | h)
    · exact h rfl
    · cases h
  refine ⟨fun x => ⟨_, ?_, State.reqError_state (s.fetchErr x).1 e i (s.fetchErr x).2⟩, fun hnone => ⟨_, ?_, State.reqError_state s e i 2⟩,
    fun ts cfg hts hcfg hvocab hpfx => ?_⟩
  · show execPromptFetchComplete rid (some x) s = _
    simp only [execPromptFetchComplete, hfind]
    rw [if_neg hgo]
  · show execPromptFetchComplete rid none s = _
    simp only [execPromptFetchComplete, hfind, hnone]
    rw [if_neg hgo]
  · have hvoc : ¬(ts.any fun t => decide (cfg.vocab ≤ t)) = true := by
      intro hany
      obtain ⟨t, ht, hle⟩ := List.any_eq_true.1 hany
      exact absurd (hvocab t ht) (by simpa using hle)
    have hexec : exec (.promptFetchComplete rid none) s = .next (State.putPageList
        (s.modReq e i fun q => { q with toks := q.toks ++ ts, loaded := true }) e i
        ((s.modReq e i fun q => { q with toks := q.toks ++ ts, loaded := true }).accn e i).pages) := by
      show execPromptFetchComplete rid none s = _
      simp only [execPromptFetchComplete, hfind, hts, hcfg]
      rw [if_neg hgo, if_neg hvoc, hpfx]
      rfl
    refine ⟨_, hexec, ?_⟩
    dsimp only
    rw [State.putPageList_chg.accn_eq, State.accn_modReq]

/-- Settles O39. -/
theorem requestsComeAndGo : Obligations.RequestsComeAndGo := by
  unfold Obligations.RequestsComeAndGo
  intro s c hfn p
  refine ⟨fun region addr h hfw => ?submit, fun rid h ht => ?cancel, fun rid error e i hfind hst hload => ?prompt⟩
  case submit =>
    intro b q
    refine ⟨fun ht => execSubmit_twin h hfw ht, fun ht => ⟨fun st hst => execSubmit_noPlace h hfn hfw ht hst, fun e g q' hok => ?_⟩⟩
    intro shadow st before n
    have he : e < 2 := State.submitPlace_engine hok
    have hexec := execSubmit_place h hfw ht hok (asks := shadow ∧ p.leader = false) Iff.rfl (st := st) rfl
    refine ⟨fun hne => ?_, fun h0 hown => ?_, fun h0 hask => ?_⟩
    · rw [if_pos hne] at hexec
      exact ⟨_, hexec, State.refuse_fields h hfn (by omega)⟩
    · rw [if_neg (not_not.2 h0), if_neg hown] at hexec
      obtain ⟨hacc, hadm, htens⟩ := p.admitReq_fields e n.1 n.2 q'
      have hc : Chg { fns := true } (p.admitReq e n.1 n.2 q') ((p.admitReq e n.1 n.2 q').complete c 0x0101 0 n.2.toNat) := State.complete_fns (by decide)
      have hbefore : p.tenant e q'.tenant = before := rfl
      have htens' : mget (((p.admitReq e n.1 n.2 q').complete c 0x0101 0 n.2.toNat).eng e).tens q'.tenant {} =
          before.update s.cnt n.1 (-(q'.promptLen + q'.maxnew : Nat)) := by
        rw [hc.eng_eq]
        exact htens
      refine ⟨_, hexec, h.completes (by decide) ?_ ?_, ?_, ?_, htens', fun hup hlim => ?_⟩
      · rw [State.ringStopped, State.admitReq_chg.fld_eq]
        rfl
      · rw [State.admitReq_chg.func_eq]
        exact State.cpls_popCmd ..
      · rw [hc.accn_eq]
        exact hacc
      · rw [hc.eng_eq]
        exact hadm
      · rw [htens', Tenant.update_charge _ _ _ _ hup hlim]
    · rw [if_neg (not_not.2 h0), if_pos hask] at hexec
      refine ⟨_, hexec, ?_, ?_, ?_⟩
      · rw [State.mirSend_chg.engs_eq]
        rfl
      · rw [State.mirSend_chg.func_eq, Chg.modMir.func_eq]
        exact State.cpls_popCmd ..
      · rw [State.mirSend_chg.mir_eq]
        rfl
  case cancel =>
    intro ended
    refine ⟨fun hnone hold => execCancel_still h ht ?_, fun d hnone hd => execCancel_still h ht ?_, fun e i hfind he => ?_⟩
    · have hnf : ended.find? (fun d => d.1 == rid && d.2.2 == s.cnt) = none := by
        refine List.find?_eq_none.2 fun d hd => ?_
        simp only [Bool.and_eq_true, beq_iff_eq, not_and]
        exact hold d hd
      simp only [State.doCancel, State.findReq_popCmd, hnone]
      rw [show (((s.popCmd c).eng 0).doneNow ++ ((s.popCmd c).eng 1).doneNow).find? (fun d => d.1 == rid && d.2.2 == (s.popCmd c).cnt) = none from hnf]
    · simp only [State.doCancel, State.findReq_popCmd, hnone]
      rw [show (((s.popCmd c).eng 0).doneNow ++ ((s.popCmd c).eng 1).doneNow).find? (fun d => d.1 == rid && d.2.2 == (s.popCmd c).cnt) = some d from hd]
    · intro q
      have hdo : (s.popCmd c).doCancel c.fn rid = if c.fn ≠ 0 ∧ q.fn ≠ c.fn then (s.popCmd c, 0x0011)
          else if q.state = 4 then (s.popCmd c, 0x0069)
          else if q.state = 5 then (s.popCmd c, 0)
          else ((s.popCmd c).cancelReq e i, 0) := by
        simp only [State.doCancel, State.findReq_popCmd, hfind]
        rfl
      refine ⟨fun h0 hfn' => execCancel_still h ht (hdo.trans (if_pos ⟨h0, hfn'⟩)), fun hown => ?_⟩
      have hown' : ¬(c.fn ≠ 0 ∧ q.fn ≠ c.fn) := by
        rintro ⟨h1, h2⟩
        rcases hown with h' | h'
        · exact h1 h'
        · exact h2 h'
      rw [if_neg hown'] at hdo
      refine ⟨fun h4 => execCancel_still h ht (hdo.trans (if_pos h4)),
        fun h5 => execCancel_still h ht (hdo.trans ((if_neg (by omega)).trans (if_pos h5))),
        fun h4 h5 => execCancel_cancels h hfn ht he (hdo.trans ((if_neg h4).trans (if_neg h5)))⟩
  case prompt =>
    intro q
    obtain ⟨hx, hnone, hsome⟩ := execPromptFetchComplete_loads hfind hst hload
    refine ⟨fun x herr => herr ▸ hx x, fun herr hn => herr ▸ hnone hn, fun ts cfg herr hts hcfg hv hp => ?_⟩
    rw [herr]
    exact hsome ts cfg hts hcfg hv hp

end Sys2Proof.Machine
end

section
/-!
The catalogue and the tenants' balances (R486 to R497).
-/
namespace Sys2Proof.Machine
set_option Elab.async false

/-! ## Steps in which no command completes -/

/-- The completions that wait stay as they are. -/
def State.CplsKept (s u : State) : Prop := ∀ k, (u.func k).cpls = (s.func k).cpls

namespace State.CplsKept

variable {s u v : State}

theorem refl : s.CplsKept s := fun _ => rfl

theorem trans (h : s.CplsKept u) (k : u.CplsKept v) : s.CplsKept v := fun j => (k j).trans (h j)

theorem of_chg {P : Foot} (h : Chg P s u) (hf : P.fns = false := by rfl) : s.CplsKept u := fun k => by rw [h.func_eq k hf]

theorem ite {c : Prop} [Decidable c] (h : s.CplsKept u) (k : s.CplsKept v) : s.CplsKept (if c then u else v) := by
  split <;> assumption

theorem foldl {α : Type} {g : State → α → State} (hg : ∀ (v : State) x, v.CplsKept (g v x)) (l : List α) (h : s.CplsKept u) : s.CplsKept (l.foldl g u) := by
  induction l generalizing u with
  | nil => exact h
  | cons x l ih => exact ih (h.trans (hg u x))

theorem event {code kind idx : Nat} {items : List (Nat × Nat)} : s.CplsKept (s.event code kind idx items) := State.Settled.event.cpls

theorem granRecord {write : Bool} {addr : Nat} {res : GranRes} : s.CplsKept (s.granRecord write addr res) := by
  have hretry : s.CplsKept ((List.range (granRetries write res)).foldl (fun t _ =>
      (t.event 0x0260 3 (s.place addr).1 [(8, addr)]).satAdd F.memStat_retry (s.place addr).1 1) s) :=
    .foldl (fun _ _ => event.trans (.of_chg .satAdd)) _ .refl
  unfold State.granRecord
  dsimp only
  split
  · exact .ite hretry (hretry.trans (.of_chg .satAdd))
  · exact .ite hretry (hretry.trans (.of_chg .satAdd))
  · exact ((hretry.trans (.of_chg State.lossSeen_chg)).trans event).trans ((of_chg .satAdd).trans (.of_chg State.errLog_chg))
  · exact hretry

theorem annexPoison {p addr : Nat} : s.CplsKept (s.annexPoison p addr) :=
  (((of_chg State.lossSeen_chg).trans event).trans (.of_chg .satAdd)).trans (.of_chg State.errLog_chg)

theorem copyLost {c : SrvCfg} {old new : List Nat} {lost : List (BitVec 64)} : s.CplsKept (s.copyLost c old new lost) := by
  have hlost (v : State) (a : Nat) : v.CplsKept (v.moveLost a) := by
    unfold State.moveLost
    split
    · exact .annexPoison
    · exact .granRecord
  have hext (v : State) (m : List Host.Cell) : v.CplsKept { v with ext := m } := fun _ => rfl
  unfold State.copyLost
  refine .foldl (fun v a => ?_) _ .refl
  have hw := hlost v a.toNat
  generalize v.moveLost a.toNat = w at hw ⊢
  generalize (old.zip new).find? (fun p => decide (c.page p.1 ≤ a.toNat) && decide (a.toNat < c.page p.1 + c.pageBytes)) = o
  cases o
  · exact .refl
  · exact hw.trans (hext w _)

end State.CplsKept

/-- The registers that a page's lost granules are noted in (R299, R488). -/
def lostKinds : List RegKind := [.hstEvstat, .memStat, .ptcRepro, .memErrlog, .anxStat]

theorem annexPortOf_lt {a p : Nat} (h : annexPortOf a = some p) : p < 2 ^ 32 := by
  unfold annexPortOf at h
  split_ifs at h
  · exact Option.some.inj h ▸ by decide
  · exact Option.some.inj h ▸ by decide

theorem RegsKept.copyLost {s : State} {c : SrvCfg} {old new : List Nat} {lost : List (BitVec 64)} : RegsKept lostKinds s (s.copyLost c old new lost) := by
  have hpoison (v : State) (p a : Nat) (hp : p < 2 ^ 32) : RegsKept lostKinds v (v.annexPoison p a) := by
    have hloss : RegsKept lostKinds v v.lossSeen := .setFld (by decide) (by decide)
    have herr (w : State) (k ch g : Nat) : RegsKept lostKinds w (w.errLog k ch g) :=
      (((RegsKept.setFld (by decide) (by decide)).trans (.setFld (by decide) (by decide))).trans (.setFld (by decide) (by decide))).trans
        (.setFld (by decide) (by decide))
    exact ((hloss.trans (.event (by decide))).trans (.satAdd hp (by decide))).trans (herr _ _ _ _)
  have hlost (v : State) (a : Nat) : RegsKept lostKinds v (v.moveLost a) := by
    unfold State.moveLost
    split
    · next p hp => exact hpoison _ _ _ (annexPortOf_lt hp)
    · exact RegsKept.granRecord.mono (by decide)
  have hext (v : State) (m : List Host.Cell) : RegsKept lostKinds v { v with ext := m } := .plain
  unfold State.copyLost
  refine .foldl (fun v a => ?_) _ .refl
  have hw := hlost v a.toNat
  generalize v.moveLost a.toNat = w at hw ⊢
  generalize (old.zip new).find? (fun p => decide (c.page p.1 ≤ a.toNat) && decide (a.toNat < c.page p.1 + c.pageBytes)) = o
  cases o
  · exact .refl
  · exact hw.trans (hext w _)

/-! ## The catalogue (R486 to R491) -/

theorem Engine.entry_map {g : Engine} {tenant : Nat} {handle : BitVec 64} {f : CatEnt → CatEnt}
    (hf : ∀ y, (f y).tenant = y.tenant ∧ (f y).handle = y.handle) : Engine.entry { g with cat := g.cat.map f } tenant handle = (g.entry tenant handle).map f :=
  find?_map_kept (fun y => by rw [(hf y).1, (hf y).2]) _

theorem Engine.entry_key {g : Engine} {tenant : Nat} {handle : BitVec 64} {x : CatEnt} (h : g.entry tenant handle = some x) :
    x.tenant = tenant ∧ x.handle = handle := by
  simpa using List.find?_some h

theorem Chg.entry_eq {P : Foot} {s u : State} (h : Chg P s u) (e t : Nat) (handle : BitVec 64) (hP : P.engs = false := by rfl) :
    (u.eng e).entry t handle = (s.eng e).entry t handle := by rw [h.eng_eq e hP]

theorem State.takePages_cat (s : State) (e k : Nat) (annex : Bool) (n : Nat) : ((s.takePages e annex n).1.eng k).cat = (s.eng k).cat := by
  induction n generalizing s with
  | zero => rfl
  | succ n ih =>
    have hone : ((s.takePage e annex).1.eng k).cat = (s.eng k).cat := by
      unfold State.takePage
      dsimp only
      split
      · rw [State.putCounts_chg.eng_eq]
        by_cases h : k = e
        · subst h
          rw [State.modEng_same]
        · rw [State.modEng_ne _ _ _ h]
      · rfl
    rw [State.takePages]
    split
    · next v m hv =>
      have hv1 : (s.takePage e annex).1 = v := by rw [hv]
      rw [ih, ← hv1, hone]
    · next v hv =>
      have hv1 : (s.takePage e annex).1 = v := by rw [hv]
      rw [← hv1, hone]

theorem execCatDrop_eq {s : State} {c : Cmd} {engine : BitVec 8} {tenant : BitVec 16} {handle : BitVec 64}
    (h : s.begins (.catDrop c engine tenant handle) c 0x0105 true) (he : engine.toNat ≤ 1) (ht : tenant.toNat ≤ 4095) :
    ((mget (s.eng engine.toNat).tens tenant.toNat {}).funcs.getLsbD c.fn = false →
      Answers (.catDrop c engine tenant handle) c s fun u => Completed s u c 0x0105 0x006B ∧ u.engs = s.engs) ∧
    ((mget (s.eng engine.toNat).tens tenant.toNat {}).funcs.getLsbD c.fn = true →
      ((s.eng engine.toNat).entry tenant.toNat handle = none →
        Answers (.catDrop c engine tenant handle) c s fun u => Completed s u c 0x0105 0x0066 ∧ u.engs = s.engs) ∧
      (∀ x, (s.eng engine.toNat).entry tenant.toNat handle = some x → x.moving = none →
        Answers (.catDrop c engine tenant handle) c s fun u =>
          Completed s u c 0x0105 0 ∧ (u.eng engine.toNat).entry tenant.toNat handle = none ∧
          (u.eng engine.toNat).pageCnt = x.pages.foldl pageDown (s.eng engine.toNat).pageCnt)) := by
  have hexec := h.exec_eq rfl
  have heng : (s.popCmd c).eng engine.toNat = s.eng engine.toNat := State.popCmd_chg.eng_eq _
  have hkeep (st : Nat) : ((s.popCmd c).complete c 0x0105 st).engs = s.engs := by
    rw [(State.complete_fns (by decide)).engs_eq, State.popCmd_chg.engs_eq]
  dsimp only at hexec
  rw [if_neg (by omega), heng] at hexec
  refine ⟨fun hf => ?_, fun hf => ⟨fun hx => ?_, fun x hx hm => ?_⟩⟩
  · rw [if_pos (by rw [hf]; decide)] at hexec
    exact ⟨_, hexec, h.completed (by decide), hkeep _⟩
  · rw [if_neg (by rw [hf]; decide), hx] at hexec
    exact ⟨_, hexec, h.completed (by decide), hkeep _⟩
  · rw [if_neg (by rw [hf]; decide), hx] at hexec
    obtain ⟨hxt, hxh⟩ := Engine.entry_key hx
    have hc := State.complete_fns (s := (s.popCmd c).dropEntry engine.toNat x) (c := c) (opcode := 0x0105) (status := 0) (result := 0) (report := none) (by decide)
    have hchg : Chg { engs := true, ext := true } (s.popCmd c) ((s.popCmd c).dropEntry engine.toNat x) := by
      unfold State.dropEntry
      rw [hm]
      exact .via (.via .refl State.dropPages_chg) .modEng
    have hdrop : ((s.popCmd c).dropEntry engine.toNat x).eng engine.toNat =
        { s.eng engine.toNat with pageCnt := x.pages.foldl pageDown (s.eng engine.toNat).pageCnt,
                                  cat := (s.eng engine.toNat).cat.filter fun c => !(c.tenant == x.tenant && c.handle == x.handle) } := by
      unfold State.dropEntry
      rw [hm]
      dsimp only
      rw [State.modEng_same, State.dropPages, State.putCounts_chg.eng_eq, State.modEng_same, heng]
    refine ⟨_, hexec, h.completes (by decide) ?_ ?_, ?_, ?_⟩
    · rw [State.ringStopped, hchg.fld_eq]
      exact s.ringStopped_popCmd c _
    · rw [hchg.func_eq]
      exact s.cpls_popCmd c _
    · rw [hc.eng_eq, hdrop]
      refine List.find?_eq_none.2 fun y hy => ?_
      have hy := (List.mem_filter.1 hy).2
      rw [hxt, hxh] at hy
      exact fun hp => by rw [hp] at hy; cases hy
    · rw [hc.eng_eq, hdrop]

theorem execCatMove_eq {s : State} {c : Cmd} {engine : BitVec 8} {tenant : BitVec 16} {handle : BitVec 64} {tier : BitVec 8}
    (h : s.begins (.catMove c engine tenant handle tier) c 0x0106 true) (he : engine.toNat ≤ 1) (ht : tenant.toNat ≤ 4095) (htier : tier.toNat ≤ 1)
    (hf : (mget (s.eng engine.toNat).tens tenant.toNat {}).funcs.getLsbD c.fn = true) {x : CatEnt}
    (hx : (s.eng engine.toNat).entry tenant.toNat handle = some x) :
    ((tier == 1) = true → (s.eng engine.toNat).uses x = true →
      Answers (.catMove c engine tenant handle tier) c s fun u => Completed s u c 0x0106 0x006C ∧ u.engs = s.engs) ∧
    (((tier == 1) = false ∨ (s.eng engine.toNat).uses x = false) → x.moving = none → x.annex ≠ (tier == 1) →
      ((s.popCmd c).freePages engine.toNat (tier == 1) < x.full + (if (tier == 1) = true then 0 else (s.eng engine.toNat).pageRes) →
        Answers (.catMove c engine tenant handle tier) c s fun u => Completed s u c 0x0106 0x0065 ∧ u.engs = s.engs) ∧
      (x.full + (if (tier == 1) = true then 0 else (s.eng engine.toNat).pageRes) ≤ (s.popCmd c).freePages engine.toNat (tier == 1) →
        Answers (.catMove c engine tenant handle tier) c s fun u =>
          (u.func c.fn).cpls = (s.func c.fn).cpls ∧
          ∃ ps, (u.eng engine.toNat).entry tenant.toNat handle = some { x with moving := some (tier == 1, c, ps) })) := by
  have hexec := h.exec_eq rfl
  have heng : (s.popCmd c).eng engine.toNat = s.eng engine.toNat := State.popCmd_chg.eng_eq _
  have hkeep (st : Nat) : ((s.popCmd c).complete c 0x0106 st).engs = s.engs := by
    rw [(State.complete_fns (by decide)).engs_eq, State.popCmd_chg.engs_eq]
  dsimp only at hexec
  rw [if_neg (by omega), heng, if_neg (by rw [hf]; decide), hx] at hexec
  dsimp only at hexec
  have hnot (hau : (tier == 1) = false ∨ (s.eng engine.toNat).uses x = false) : ¬(tier == 1 && (s.eng engine.toNat).uses x) = true := by
    rcases hau with k | k
    · rw [k, Bool.false_and]
      decide
    · rw [k, Bool.and_false]
      decide
  refine ⟨fun ha hu => ?_, fun hau hm ha => ⟨fun hroom => ?_, fun hroom => ?_⟩⟩
  · rw [if_pos (by rw [ha, hu]; rfl)] at hexec
    exact ⟨_, hexec, h.completed (by decide), hkeep _⟩
  · have hbusy := hnot hau
    rw [if_neg hbusy, if_neg (by rw [hm]; decide), if_neg (by simpa using ha), if_pos hroom] at hexec
    exact ⟨_, hexec, h.completed (by decide), hkeep _⟩
  · have hbusy := hnot hau
    rw [if_neg hbusy, if_neg (by rw [hm]; decide), if_neg (by simpa using ha), if_neg (by omega)] at hexec
    generalize hv : (s.popCmd c).takePages engine.toNat (tier == 1) x.full = v at hexec
    obtain ⟨hxt, hxh⟩ := Engine.entry_key hx
    have hcat : (v.1.eng engine.toNat).cat = (s.eng engine.toNat).cat := by
      rw [← hv, State.takePages_cat, heng]
    refine ⟨_, hexec, ?_, v.2, ?_⟩
    · rw [Chg.modEng.func_eq, ← hv, State.takePages_chg.func_eq, State.cpls_popCmd]
    · rw [State.modEng_same, Engine.entry_map fun y => by split <;> exact ⟨rfl, rfl⟩]
      have hv1 : (v.1.eng engine.toNat).entry tenant.toNat handle = some x := by
        rw [Engine.entry, hcat]
        exact hx
      rw [hv1, Option.map_some, if_pos ⟨hxt, hxh⟩]

theorem State.moveEntry_entry {s : State} {e : Nat} {x : CatEnt} {ps : List Nat} {annex : Bool} {cfg : SrvCfg} {tenant : Nat} {handle : BitVec 64}
    (hcfg : (s.eng e).cfg = some cfg) (hx : (s.eng e).entry tenant handle = some x) :
    (((s.moveEntry e x ps annex none).eng e).entry tenant handle) = some { x with pages := ps, annex := annex, moving := none } := by
  obtain ⟨hxt, hxh⟩ := Engine.entry_key hx
  have hput (v w : State) (l : List (Nat × Req)) (hvw : v.eng e = w.eng e) :
      (l.foldl (fun s q => s.putPageList e q.1 (s.accn e q.1).pages) v).eng e = w.eng e :=
    (Chg.eng_eq (P := { ext := true }) (.foldl (fun _ _ => State.putPageList_chg) _ .refl) e).trans hvw
  have hcopy : ((x.pages.zip ps).foldl (fun s p => s.copyPage cfg p.1 p.2) s).eng e = s.eng e :=
    Chg.eng_eq (P := { ext := true }) (.foldl (fun _ _ => State.copyPage_chg) _ .refl) e
  unfold State.moveEntry
  rw [hcfg]
  dsimp only
  rw [State.event_chg.eng_eq, hput _ _ _ ((State.putCatalogue_chg.eng_eq _).trans (State.putCounts_chg.eng_eq _)), State.modEng_same]
  simp only [Engine.entry]
  rw [find?_map_kept fun y => by split <;> rfl, hcopy]
  have hfind : (s.eng e).cat.find? (fun c => c.tenant == tenant && c.handle == handle) = some x := hx
  rw [hfind, Option.map_some, if_pos ⟨rfl, rfl⟩]

theorem State.moveEntry_cplsKept {s : State} {e : Nat} {x : CatEnt} {ps : List Nat} {annex : Bool} {m : Option (Bool × Cmd × List Nat)} :
    s.CplsKept (s.moveEntry e x ps annex m) := by
  unfold State.moveEntry
  split
  · exact .refl
  · refine .trans (.of_chg (P := { ext := true, engs := true }) ?_) .event
    exact .foldl (fun _ _ => .mono State.putPageList_chg) _
      (.via (.via (.via (.foldl (fun _ _ => .mono State.copyPage_chg) _ .refl) .modEng) State.putCounts_chg) State.putCatalogue_chg)

theorem State.moveEntry_regsKept {s : State} {e : Nat} {x : CatEnt} {ps : List Nat} {annex : Bool} {m : Option (Bool × Cmd × List Nat)} :
    RegsKept lostKinds s (s.moveEntry e x ps annex m) := by
  unfold State.moveEntry
  split
  · exact .refl
  · refine .trans (.of_chg (P := { ext := true, engs := true }) ?_) (.event (by decide))
    exact .foldl (fun _ _ => .mono State.putPageList_chg) _
      (.via (.via (.via (.foldl (fun _ _ => .mono State.copyPage_chg) _ .refl) .modEng) State.putCounts_chg) State.putCatalogue_chg)

theorem State.copyLost_engs {s : State} {c : SrvCfg} {old new : List Nat} {lost : List (BitVec 64)} (k : Nat) : (s.copyLost c old new lost).eng k = s.eng k :=
  State.copyLost_chg.eng_eq k

theorem execCatMoveComplete_eq {s : State} {c : Cmd} (hfn : c.fn < 16) {engine : Fin 2} {lost : List (BitVec 64)} {tenant : BitVec 16} {handle : BitVec 64}
    {x : CatEnt} {annex : Bool} {ps : List Nat} {cfg : SrvCfg} (hx : (s.eng engine).entry tenant.toNat handle = some x)
    (hm : x.moving = some (annex, c, ps)) (ha : x.annex ≠ annex) (hcfg : (s.eng engine).cfg = some cfg) (hs : s.ringStopped c.fn = false) :
    Yields (.catMoveComplete ⟨engine, lost⟩ tenant handle) s fun u =>
      (u.eng engine).entry tenant.toNat handle = some { x with pages := ps, annex := annex, moving := none } ∧ Completed s u c 0x0106 0 := by
  have hexec : exec (.catMoveComplete ⟨engine, lost⟩ tenant handle) s = execCatMoveComplete ⟨engine, lost⟩ tenant handle s := rfl
  unfold execCatMoveComplete at hexec
  dsimp only at hexec
  rw [hx] at hexec
  dsimp only at hexec
  rw [hm] at hexec
  dsimp only at hexec
  rw [if_neg ha] at hexec
  generalize hv : s.moveEntry engine.val x ps annex none = v at hexec
  have hentry : (v.eng engine.val).entry tenant.toNat handle = some { x with pages := ps, annex := annex, moving := none } := by
    rw [← hv]
    exact State.moveEntry_entry hcfg hx
  have hcpls : s.CplsKept v := by
    rw [← hv]
    exact State.moveEntry_cplsKept
  have hregs : RegsKept lostKinds s v := by
    rw [← hv]
    exact State.moveEntry_regsKept
  have hends (w : State) (hw : exec (.catMoveComplete ⟨engine, lost⟩ tenant handle) s = .next (w.complete c 0x0106 0)) (heng : w.eng engine.val = v.eng engine.val)
      (hc : v.CplsKept w) (hr : RegsKept lostKinds v w) : Yields (.catMoveComplete ⟨engine, lost⟩ tenant handle) s fun u =>
      (u.eng engine).entry tenant.toNat handle = some { x with pages := ps, annex := annex, moving := none } ∧ Completed s u c 0x0106 0 := by
    refine ⟨_, hw, ?_, State.completed (by decide) ?_ (hcpls.trans hc c.fn)⟩
    · rw [(State.complete_fns (by decide)).eng_eq, heng]
      exact hentry
    · rw [State.ringStopped_kept (hregs.trans hr) (by omega) (by decide)]
      exact hs
  generalize (v.eng engine.val).cfg = o at hexec
  cases o with
  | none => exact hends v hexec rfl .refl .refl
  | some g => exact hends _ hexec (State.copyLost_chg.eng_eq _) .copyLost .copyLost

theorem execTenantRefill_due {s : State} {engine : Fin 2} {tenant : BitVec 12} (hw : (mget (s.eng engine).tens tenant.toNat {}).window ≠ 0)
    (hk : (mget (s.eng engine).tens tenant.toNat {}).last < s.wall / (100000 * (mget (s.eng engine).tens tenant.toNat {}).window)) :
    Yields (.tenantRefill engine tenant) s fun u =>
      mget (u.eng engine).tens tenant.toNat {} = { mget (s.eng engine).tens tenant.toNat {} with
        balance := (mget (s.eng engine).tens tenant.toNat {}).limit, last := s.wall / (100000 * (mget (s.eng engine).tens tenant.toNat {}).window) } ∧
      (u.eng engine).reqs = (s.eng engine).reqs ∧ u.regs = s.regs := by
  generalize ht : mget (s.eng engine).tens tenant.toNat {} = t at hw hk ⊢
  have hdue : s.tenant engine tenant.toNat = { t with balance := t.limit, last := s.wall / (100000 * t.window) } := by
    rw [State.tenant, ht, Tenant.due]
    rw [if_neg (by omega)]
  have hne : s.tenant engine tenant.toNat ≠ mget (s.eng engine).tens tenant.toNat {} := by
    rw [hdue, ht]
    intro heq
    have := congrArg Tenant.last heq
    dsimp only at this
    omega
  refine ⟨_, congrArg Host.Outcome.next (if_neg hne), ?_, ?_, rfl⟩
  · rw [State.modEng_same, mget_mput_same]
    exact hdue
  · rw [State.modEng_same]

theorem execDepthWrite_eq {s : State} {w : Writer} {engine : Fin 2} {off : Nat} {val : BitVec 64} (hw : s.mayWrite w = true) :
    ((s.accn engine (s.fld F.srvAccsel_index engine)).depthReq < bits val.toNat 45 42 → Yields (.depthWrite w engine off val) s fun u => u.engs = s.engs) ∧
    (bits val.toNat 45 42 ≤ (s.accn engine (s.fld F.srvAccsel_index engine)).depthReq → (s.accn engine (s.fld F.srvAccsel_index engine)).state ≠ 0 →
      Yields (.depthWrite w engine off val) s fun u =>
        u.accn engine (s.fld F.srvAccsel_index engine) =
          { s.accn engine (s.fld F.srvAccsel_index engine) with depth := bits val.toNat 45 42, depthAt := some s.cnt } ∧ u.regs = s.regs) := by
  have hexec : exec (.depthWrite w engine off val) s = execDepthWrite w engine off val s := rfl
  unfold execDepthWrite at hexec
  rw [State.gated_of_mayWrite hw] at hexec
  dsimp only at hexec
  refine ⟨fun hd => ?_, fun hd hq => ?_⟩
  · rw [if_pos hd] at hexec
    exact ⟨_, hexec, State.eventTo_chg.engs_eq⟩
  · rw [if_neg (by omega), if_neg hq] at hexec
    refine ⟨_, hexec, ?_, rfl⟩
    rw [State.accn_modReq]

/-- Settles O40. -/
theorem catalogueAndTenants : Obligations.CatalogueAndTenants := by
  unfold Obligations.CatalogueAndTenants
  intro s c hfn
  exact ⟨fun engine tenant handle h he ht => execCatDrop_eq h he ht,
    fun engine tenant handle tier h he ht htier hf x hx => execCatMove_eq h he ht htier hf hx,
    fun engine lost tenant handle x annex ps cfg hx hm ha hcfg hs => execCatMoveComplete_eq hfn hx hm ha hcfg hs,
    fun engine tenant hw hk => execTenantRefill_due hw hk, fun w engine off val hw => execDepthWrite_eq hw⟩

end Sys2Proof.Machine
end

section
/-!
Emissions and the ends of steps (R466, R474, R483, R498 to R501).
-/
namespace Sys2Proof.Machine
set_option Elab.async false

/-! ## Steps that begin no activation

An update's activation waits in `mir.updAct`; what the pair, the requests and the series do leaves it absent. -/

/-- An activation that does not wait before does not wait after. -/
def State.ActKept (s u : State) : Prop := s.mir.updAct = none → u.mir.updAct = none

namespace State.ActKept

variable {s u v : State}

theorem refl : s.ActKept s := id

theorem trans (h : s.ActKept u) (k : u.ActKept v) : s.ActKept v := fun hs => k (h hs)

theorem of_chg {P : Foot} (h : Chg P s u) (hf : P.mir = false := by rfl) : s.ActKept u := fun hs => by rw [h.mir_eq hf, hs]

theorem modMir {f : Mirror → Mirror} (hf : (f s.mir).updAct = s.mir.updAct ∨ (f s.mir).updAct = none := by exact .inl rfl) : s.ActKept (s.modMir f) := fun hs =>
  hf.elim (fun h => h.trans hs) id

theorem ite {c : Prop} [Decidable c] (h : s.ActKept u) (k : s.ActKept v) : s.ActKept (if c then u else v) := by
  split <;> assumption

theorem foldl {α : Type} {g : State → α → State} (hg : ∀ (v : State) x, v.ActKept (g v x)) (l : List α) (h : s.ActKept u) : s.ActKept (l.foldl g u) := by
  induction l generalizing u with
  | nil => exact h
  | cons x l ih => exact ih (h.trans (hg u x))

theorem hostPut {fn a : Nat} {bs : List Byte} {f : State → State} (hf : ∀ v : State, v.ActKept (f v)) : s.ActKept (s.hostPut fn a bs f) := by
  unfold State.hostPut
  have hmem : s.ActKept { s with hostMem := wrBytes s.hostMem a bs } := id
  exact .ite (hmem.trans (hf _)) (.of_chg State.stopRings_chg)

end State.ActKept

theorem State.abandon_actKept {s : State} : s.ActKept s.abandon := by
  unfold State.abandon
  extract_lets act cmds s1 s2 open_ s3 s4
  have h2 : s.ActKept s2 := .trans (.modMir (.inr rfl)) (.of_chg .modWts)
  have h3 : s.ActKept s3 :=
    .ite (.trans h2 id) h2
  have h4 : s.ActKept s4 :=
    .foldl (fun _ _ => (.of_chg State.complete_chg)) _ h3
  generalize act = a
  cases a with
  | none => exact h4
  | some c => exact .trans h4 (.of_chg State.complete_chg)

theorem State.freeMirror_actKept {s : State} : s.ActKept s.freeMirror := by
  unfold State.freeMirror
  exact .trans (.foldl (fun _ _ => .trans (.of_chg .modEng) (.of_chg State.putCounts_chg)) _ .refl) .modMir

theorem State.setPair_actKept {s : State} {st : Nat} : s.ActKept (s.setPair st) := by
  unfold State.setPair
  exact .ite .refl (.ite (.trans (.trans (.trans (.ite .refl State.abandon_actKept) (.of_chg .setFld)) (.of_chg State.event_chg))
    State.freeMirror_actKept) (.trans (.trans (.ite .refl State.abandon_actKept) (.of_chg .setFld)) (.of_chg State.event_chg)))

theorem State.takeVoice_actKept {s : State} {from_ : Nat} : s.ActKept (s.takeVoice from_) := by
  unfold State.takeVoice
  extract_lets due t
  have hemis : s.ActKept t := .foldl (fun _ _ => (.of_chg .modFunc)) _ .refl
  exact .trans (u := { t with mir := { t.mir with pendEmis := [] } }) (.trans hemis id)
    id

theorem State.giveReq_actKept {s : State} {e i : Nat} : s.ActKept (s.giveReq e i) := by
  unfold State.giveReq
  exact .trans (.trans (.trans (.of_chg State.dropPages_chg) (.of_chg .modEng)) (.of_chg State.putPageList_chg)) .modMir

theorem State.trimMap_actKept {s : State} : s.ActKept s.trimMap := by
  unfold State.trimMap
  exact .trans (.foldl (fun _ _ => (.of_chg State.dropPages_chg)) _ .refl) .modMir

theorem State.fenceDone_actKept {s : State} : s.ActKept s.fenceDone := by
  unfold State.fenceDone
  dsimp only
  refine .trans ?_ State.trimMap_actKept
  refine .trans ?_ (.of_chg .modWts)
  refine .foldl (fun _ _ => ?_) _ (.trans State.setPair_actKept .modMir)
  split
  · exact .trans (.of_chg .setFld) (.of_chg State.complete_chg)
  · exact .of_chg .setFld

theorem State.handBack_actKept {s : State} {h : Nat} : s.ActKept (s.handBack h) := by
  unfold State.handBack
  exact .trans (.of_chg State.sendHandover_chg) .modMir

theorem State.startSync_actKept {s : State} : s.ActKept s.startSync := by
  unfold State.startSync
  exact .ite (.trans (.foldl (fun _ _ => (.of_chg State.sendSync_chg)) _ (.trans State.setPair_actKept .modMir))
    State.handBack_actKept) (.trans (.foldl (fun _ _ => (.of_chg State.sendSync_chg)) _ (.trans State.setPair_actKept .modMir))
    (.of_chg State.sendHandover_chg))

theorem State.applyTwin_actKept {s : State} {t : TwinCmd} : s.ActKept (s.applyTwin t) := by
  unfold State.applyTwin
  dsimp only
  refine .ite ?_ (.ite (.trans (.of_chg State.doCancel_chg) (.of_chg State.twinReply_chg)) (.ite (.ite (.of_chg State.takeWptr_chg)
    (.trans (.of_chg State.takeWptr_chg) (.of_chg State.twinReply_chg))) (.ite (.ite (.of_chg State.takeSwap_chg)
    (.trans (.of_chg State.takeSwap_chg) (.of_chg State.twinReply_chg))) (.ite (.ite (.trans State.setPair_actKept
    State.takeVoice_actKept) (.trans (.trans (.foldl (fun _ _ => (.of_chg .modEng)) _ (.foldl (fun _ _ => .foldl (fun _ _ => .trans .refl
    State.giveReq_actKept) _ .refl) _ .refl)) (.of_chg .modWts)) State.fenceDone_actKept)) (.ite (.ite (.of_chg State.twinReply_chg)
    (.ite State.startSync_actKept (.trans (.trans (.of_chg .setFld) (.of_chg .modWts)) State.startSync_actKept))) .refl)))))
  refine .ite (.ite .refl (.of_chg State.refuse_chg)) ?_
  split
  · exact .trans (.of_chg State.admitReq_chg) (.of_chg State.twinReply_chg)
  · exact .of_chg State.twinReply_chg

theorem State.applyTwins_actKept {s : State} {r : Option Nat} {next : Nat} : s.ActKept (s.applyTwins r next) := by
  unfold State.applyTwins
  exact .foldl (fun _ _ => State.applyTwin_actKept) _ (.trans .refl .modMir)

theorem State.dropPair_actKept {s : State} : s.ActKept s.dropPair := by
  unfold State.dropPair
  exact .ite (.ite (.trans .modMir State.setPair_actKept) (.trans .refl .modMir)) .refl

theorem State.settleQueries_actKept {s : State} : s.ActKept s.settleQueries := by
  unfold State.settleQueries
  exact .ite .refl (.foldl (fun _ _ => (.of_chg State.decideQuery_chg)) _ (.trans .refl .modMir))

theorem State.handedOver_actKept {s : State} {cover : Bool} : s.ActKept (s.handedOver cover) := by
  unfold State.handedOver
  exact .ite (.trans State.setPair_actKept .modMir) (.ite State.fenceDone_actKept
    (.ite (.ite (.trans State.setPair_actKept State.takeVoice_actKept) State.setPair_actKept) .refl))

theorem State.adoptedBit_actKept {s : State} : s.ActKept s.adoptedBit := by
  unfold State.adoptedBit
  exact .trans (.of_chg .setFld) .modMir

theorem State.mapPage_actKept {s : State} {e own p : Nat} : s.ActKept (s.mapPage e own p).1 := by
  unfold State.mapPage
  split
  · exact .refl
  · have htake : s.ActKept (s.takePage own false).1 := .of_chg State.takePage_chg
    split
    · next v k hv =>
      rw [hv] at htake
      exact htake.trans .modMir
    · next v hv =>
      rw [hv] at htake
      exact htake

theorem State.mapPages_actKept {s : State} {e own : Nat} {x3 : List Nat} : s.ActKept (s.mapPages e own x3).1 := by
  induction x3 generalizing s with
  | nil => exact .refl
  | cons p ps ih =>
    rw [State.mapPages]
    exact .trans State.mapPage_actKept ih

theorem State.adoptReq_actKept {s : State} {e : Nat} {m : MirReq} : s.ActKept (s.adoptReq e m) := by
  unfold State.adoptReq
  dsimp only
  split
  · exact .refl
  · exact .refl
  · exact .ite (.trans (.trans (.trans (.trans State.mapPages_actKept (.of_chg .modEng)) (.of_chg State.putCounts_chg)) (.of_chg State.putPageList_chg))
      (.of_chg State.putReps_chg)) (.trans (.trans (.trans (.trans (.trans (.trans State.mapPages_actKept (.of_chg .modEng)) (.of_chg State.putCounts_chg))
      (.of_chg State.putPageList_chg)) (.of_chg State.putReps_chg)) .modMir) (.of_chg .setFld))

theorem State.adoptReqs_actKept {s : State} {qs : List (Nat × MirReq)} {always : Bool} : s.ActKept (s.adoptReqs qs always) := by
  unfold State.adoptReqs
  exact .ite (.foldl (fun _ _ => State.adoptReq_actKept) _ .refl)
    (.trans (.trans (.foldl (fun _ _ => State.adoptReq_actKept) _ .refl) (.of_chg State.event_chg)) (.of_chg .satAdd))

theorem State.doHandover_actKept {s : State} {next : Nat} : s.ActKept (s.doHandover next) := by
  unfold State.doHandover
  dsimp only
  split
  · exact .refl
  · refine .ite .refl ?_
    refine .trans ?_ State.handedOver_actKept
    refine .trans ?_ State.trimMap_actKept
    refine .trans ?_ State.adoptedBit_actKept
    refine .trans ?_ .modMir
    refine .foldl (fun _ _ => ?_) _ State.adoptReqs_actKept
    split
    · exact State.giveReq_actKept
    · exact .refl

theorem State.handNow_actKept {s : State} : s.ActKept s.handNow := by
  unfold State.handNow
  split
  · exact .ite State.doHandover_actKept .refl
  · exact .refl

theorem State.adoptAll_actKept {s : State} : s.ActKept s.adoptAll := by
  unfold State.adoptAll
  exact .ite .refl (.ite (.trans .refl .modMir) (.trans (.trans (.foldl (fun _ _ => (.of_chg State.event_chg)) _
    (.trans (.foldl (fun _ _ => (.of_chg .modFunc)) _ (.trans .refl .modMir)) State.adoptReqs_actKept)) .modMir) State.trimMap_actKept))

theorem State.freeEnded_actKept {s : State} {e : Nat} : s.ActKept (s.freeEnded e) := by
  unfold State.freeEnded
  exact .trans (.foldl (fun _ _ => State.giveReq_actKept) _ .refl) State.adoptedBit_actKept

theorem State.packStep_actKept {s : State} {e k : Nat} {c : SrvCfg} : s.ActKept (s.packStep e k c) := by
  unfold State.packStep
  exact .ite (.trans (.trans (.trans (.trans (.trans (.foldl (fun _ _ => (.of_chg State.modReq_chg)) _ (.foldl (fun _ _ => .trans .refl
    (.of_chg State.modReq_chg)) _ (.trans (.trans (.trans (.trans (.trans State.applyTwins_actKept State.settleQueries_actKept)
    State.adoptAll_actKept) State.doHandover_actKept) (.of_chg State.adaptDepth_chg)) (.of_chg .modEng)))) (.of_chg State.allocate_chg)) (.of_chg State.writeTable_chg))
    State.freeEnded_actKept) (.of_chg .modEng)) (.of_chg State.sealStep_chg)) (.trans (.trans (.trans (.trans (.foldl (fun _ _ => (.of_chg State.modReq_chg)) _
    (.foldl (fun _ _ => (.of_chg State.modReq_chg)) _ (.trans (.trans (.trans (.trans (.trans State.applyTwins_actKept
    State.settleQueries_actKept) State.adoptAll_actKept) State.doHandover_actKept) (.of_chg State.adaptDepth_chg)) (.of_chg .modEng)))) (.of_chg State.allocate_chg))
    (.of_chg State.writeTable_chg)) State.freeEnded_actKept) (.of_chg .modEng))

theorem State.emit_actKept {s : State} {e : Nat} {q : Req} {toks : List Nat} {final pubfail : Bool} {reason pos step : Nat} : s.ActKept (s.emit e q toks final pubfail reason pos step) := by
  unfold State.emit
  exact .ite (.trans (.of_chg .modEng) .modMir) (.trans (.of_chg .modEng) (.of_chg .modFunc))

theorem State.giveTokens_actKept {s : State} {e i k : Nat} {stop : List Nat} {pos depth : Nat} {ts : List Nat} : s.ActKept (s.giveTokens e i k stop pos depth ts) := by
  unfold State.giveTokens
  dsimp only
  split
  · refine .trans ?_ State.emit_actKept
    refine .trans ?_ (.of_chg State.putReps_chg)
    split
    · exact .trans (.of_chg State.modReq_chg) (.of_chg State.putTokens_chg)
    · exact .of_chg State.modReq_chg
  · refine .trans ?_ State.emit_actKept
    refine .trans ?_ (.of_chg State.endReq_chg)
    refine .trans ?_ (.of_chg State.publish_chg)
    refine .trans ?_ (.of_chg State.putReps_chg)
    split
    · exact .trans (.of_chg State.modReq_chg) (.of_chg State.putTokens_chg)
    · exact .of_chg State.modReq_chg

theorem State.samplePre_actKept {s : State} {e k : Nat} {c : SrvCfg} {x : PreRec} : s.ActKept (s.samplePre e k c x) := by
  unfold State.samplePre
  exact .ite .refl State.giveTokens_actKept

theorem State.sampleSlot_actKept {s : State} {e k : Nat} {c : SrvCfg} {x : SlotRec} : s.ActKept (s.sampleSlot e k c x) := by
  unfold State.sampleSlot
  exact .ite .refl State.giveTokens_actKept

theorem State.sampleStep_actKept {s : State} {e k : Nat} {c : SrvCfg} : s.ActKept (s.sampleStep e k c) := by
  unfold State.sampleStep
  exact .foldl (fun _ _ => State.samplePre_actKept) _ (.foldl (fun _ _ => State.sampleSlot_actKept) _
    (.of_chg .modEng))

theorem State.endRequests_actKept {s : State} {e k : Nat} : s.ActKept (s.endRequests e k) := by
  unfold State.endRequests
  exact .foldl (fun _ _ => .trans (.of_chg State.endReq_chg) State.emit_actKept) _ .refl

theorem State.sendStep_actKept {s : State} {e step : Nat} : s.ActKept (s.sendStep e step) := by
  unfold State.sendStep
  dsimp only
  refine .ite .refl ?_
  split
  · exact .refl
  · exact .ite (.trans (.trans (.foldl (fun _ _ => (.of_chg State.sendKv_chg)) _ .refl) (.of_chg State.tellRecord_chg)) .modMir)
      (.trans (.foldl (fun _ _ => (.of_chg State.sendKv_chg)) _ .refl) (.of_chg State.tellRecord_chg))

theorem State.lastRecord_actKept {s : State} {e k : Nat} : s.ActKept (s.lastRecord e k) := by
  unfold State.lastRecord
  exact .ite .refl (.ite (.trans (.of_chg State.tellRecord_chg) .modMir) (.of_chg State.tellRecord_chg))

theorem State.tryHeartbeats_actKept {s : State} {x1 : Nat} : s.ActKept (s.tryHeartbeats x1) := by
  induction x1 generalizing s with
  | zero => exact .refl
  | succ n ih =>
    rw [State.tryHeartbeats]
    split
    · exact .refl
    · exact .ite .refl (.trans (.trans (.of_chg State.sendHeartbeat_chg) .modMir) ih)

theorem State.tryHeartbeat_actKept {s : State} : s.ActKept s.tryHeartbeat := by
  unfold State.tryHeartbeat
  exact State.tryHeartbeats_actKept

theorem State.writeEmission_actKept {s : State} {fn : Nat} : s.ActKept (s.writeEmission fn) := by
  unfold State.writeEmission
  dsimp only
  split
  · exact .refl
  · exact .ite .refl (ActKept.hostPut (fun _ => .trans (.trans (.trans (.ite (.trans (.trans (.of_chg .modFunc) (.of_chg .satAdd)) (.of_chg State.eventTo_chg))
      (.of_chg .modFunc)) (.of_chg State.emitted_chg)) (.of_chg State.putIndices_chg)) State.tryHeartbeat_actKept))

theorem State.writeEmissions_actKept {s : State} : s.ActKept s.writeEmissions := by
  unfold State.writeEmissions
  exact .foldl (fun _ _ => .foldl (fun _ _ => State.writeEmission_actKept) _ .refl) _ .refl

theorem State.endSeries_actKept {s : State} {e k : Nat} {c : SrvCfg} {last : Bool} : s.ActKept (s.endSeries e k c last) := by
  unfold State.endSeries
  exact .trans (.trans (.trans (.ite (.trans (.trans (.trans (.ite State.sampleStep_actKept (.of_chg .modEng)) State.dropPair_actKept)
    State.endRequests_actKept) State.sendStep_actKept) (.trans (.trans (.trans (.ite State.sampleStep_actKept (.of_chg .modEng))
    State.dropPair_actKept) State.endRequests_actKept) State.lastRecord_actKept)) State.writeEmissions_actKept) State.freeEnded_actKept) (.of_chg .modEng)

theorem State.digestMismatch_actKept {s : State} {step : Nat} : s.ActKept (s.digestMismatch step) := by
  unfold State.digestMismatch
  extract_lets s1 s2 s3
  have h1 : s.ActKept s1 :=
    .trans (.trans (.of_chg State.event_chg) (.of_chg .satAdd)) State.setPair_actKept
  refine .ite (.trans h1 State.takeVoice_actKept) ?_
  have h2 : s.ActKept s2 :=
    .trans h1 id
  have h3 : s.ActKept s3 :=
    .trans h2 id
  exact .foldl (fun _ _ => (.of_chg .modRegion)) _ h3

theorem State.checkDigest_actKept {s : State} {step : Nat} : s.ActKept (s.checkDigest step) := by
  unfold State.checkDigest
  split
  · exact .ite .refl (.ite (.trans .refl .modMir) State.digestMismatch_actKept)
  · exact .refl

theorem State.ownDigest_actKept {s : State} {r k : Nat} : s.ActKept (s.ownDigest r k) := by
  unfold State.ownDigest
  dsimp only
  refine .ite .refl ?_
  split
  · exact .refl
  · exact .trans .modMir State.checkDigest_actKept

theorem State.dueHeartbeat_actKept {s : State} {r k : Nat} : s.ActKept (s.dueHeartbeat r k) := by
  unfold State.dueHeartbeat
  exact .ite .refl (.trans .modMir State.tryHeartbeat_actKept)

theorem State.hbSeries_actKept {s : State} {was : Option Nat} : s.ActKept (s.hbSeries was) := by
  unfold State.hbSeries
  exact .ite .refl (.trans .refl .modMir)

theorem State.regionDone_actKept {s : State} {r : Nat} : s.ActKept (s.regionDone r) := by
  unfold State.regionDone
  exact .trans (.of_chg .modRegion) State.hbSeries_actKept

theorem State.seriesEnds_actKept {s : State} {r : Nat} : s.ActKept (s.seriesEnds r) := by
  unfold State.seriesEnds
  exact .trans (.trans (.of_chg State.lstatOver_chg) (.of_chg State.runDone_chg)) State.regionDone_actKept

theorem State.seriesOver_actKept {s : State} {r k : Nat} {last : Bool} : s.ActKept (s.seriesOver r k last) := by
  unfold State.seriesOver
  exact .ite (.trans (.ite (.trans State.ownDigest_actKept State.dueHeartbeat_actKept) .refl) State.seriesEnds_actKept) .refl

theorem State.boundary_actKept {s : State} {e k : Nat} {c : SrvCfg} : s.ActKept (s.boundary e k c) := by
  unfold State.boundary
  exact .ite (.trans (.trans (.trans (.trans (.trans (.trans (.trans State.sampleStep_actKept State.dropPair_actKept) State.sendStep_actKept)
    State.writeEmissions_actKept) State.packStep_actKept) State.ownDigest_actKept) State.dueHeartbeat_actKept) (.of_chg State.tryArrive_chg))
    (.trans (.trans (.trans (.trans State.sampleStep_actKept State.dropPair_actKept) State.sendStep_actKept) State.writeEmissions_actKept)
    State.packStep_actKept)


/-! ## Steps that leave the output rings where they stand (R474) -/

/-- Where the output ring of `f` stands, and how many emissions wait for it. -/
def Func.out (f : Func) : Nat × Bool × Nat := (f.outIdx, f.outPhase, f.emis.length)

/-- Every function's output ring stands where it stood. -/
def State.OutKept (s u : State) : Prop := ∀ k, (u.func k).out = (s.func k).out

namespace State.OutKept

variable {s u v : State}

theorem refl : s.OutKept s := fun _ => rfl

theorem trans (h : s.OutKept u) (k : u.OutKept v) : s.OutKept v := fun j => (k j).trans (h j)

theorem of_chg {P : Foot} (h : Chg P s u) (hf : P.fns = false := by rfl) : s.OutKept u := fun k => by rw [h.func_eq k hf]

theorem ite {c : Prop} [Decidable c] (h : s.OutKept u) (k : s.OutKept v) : s.OutKept (if c then u else v) := by
  split <;> assumption

theorem foldl {α : Type} {g : State → α → State} (hg : ∀ (v : State) x, v.OutKept (g v x)) (l : List α) (h : s.OutKept u) : s.OutKept (l.foldl g u) := by
  induction l generalizing u with
  | nil => exact h
  | cons x l ih => exact ih (h.trans (hg u x))

theorem modFunc {n : Nat} {f : Func → Func} (hf : ∀ x, (f x).out = x.out) : s.OutKept (s.modFunc n f) := fun k => by
  by_cases h : k = n
  · rw [h, State.modFunc_same, hf]
  · rw [State.modFunc_ne _ _ _ h]

theorem eventTo {fn code kind idx : Nat} {items : List (Nat × Nat)} : s.OutKept (s.eventTo fn code kind idx items) := by
  have hlost : s.OutKept (s.modFunc fn fun f => { f with lostNote := f.lostNote + 1 }) := .modFunc fun _ => rfl
  exact .ite (.modFunc fun _ => rfl) (.ite (.modFunc fun _ => rfl) (hlost.trans (.of_chg .satAdd)))

end State.OutKept

theorem Func.Answered.out {F G : Func} (h : F.Answered G) : G.out = F.out := by
  rw [h.same]
  rfl

theorem State.stopRings_outKept {s : State} {fn a : Nat} : s.OutKept (s.stopRings fn a) := by
  have hclear (v : State) : v.OutKept (v.modFunc fn fun f => { f with cpls := [], evs := [] }) := .modFunc fun _ => rfl
  have hlose (v : State) (n : Nat) : v.OutKept (v.loseEvents fn n) := by
    have hnote : v.OutKept (v.modFunc fn fun f => { f with lostNote := f.lostNote + n }) := .modFunc fun _ => rfl
    exact hnote.trans (.of_chg .satAdd)
  have hirq (v : State) : v.OutKept (v.irqCause 0 2) := .modFunc fun _ => rfl
  have hanswer (v : State) : v.OutKept (v.answerAll fn) := fun k => ((v.answerAll_answered fn).kept k).out
  have hstate : s.OutKept ((s.setFld F.hstRingstat_state fn 2).setFld F.hstRingstat_failaddr fn (a / 256)) :=
    State.OutKept.trans (.of_chg .setFld) (.of_chg .setFld)
  unfold State.stopRings
  exact .ite .refl ((((hstate.trans (hclear _)).trans (hlose _ _)).trans (hirq _)).trans (hanswer _))

theorem State.putIndices_outKept {s : State} {fn : Nat} : s.OutKept (s.putIndices fn) := by
  unfold State.putIndices State.hostPut
  exact .ite (fun _ => rfl) stopRings_outKept

theorem State.emitted_outKept {s : State} {m : Emission} : s.OutKept (s.emitted m) := by
  unfold State.emitted
  extract_lets next v
  have hv : s.OutKept v := .modFunc fun f => by simp only [Func.out, List.length_map]
  split
  · exact hv.trans (.of_chg State.modReq_chg)
  · exact hv

/-- Whether an emission written at `wall` comes after its deadline. -/
def lateAt (m : Emission) (wall : Nat) : Bool :=
  match m.deadline with
  | some d => decide (d < wall)
  | none => false

theorem RegsKept.eventTo {K : List RegKind} {s : State} {fn code kind idx : Nat} {items : List (Nat × Nat)} (hfn : fn < 2 ^ 32) (hk : .hstEvstat ∈ K) :
    RegsKept K s (s.eventTo fn code kind idx items) :=
  .ite (.of_chg .modFunc) (.ite (.of_chg .modFunc) (.trans (.of_chg .modFunc) (.satAdd hfn hk)))

/-- What follows the bytes of emission `m` of function `fn`, the first before `rest`, in its output ring. -/
def State.emissionOut (s v : State) (fn : Nat) (m : Emission) (rest : List Emission) : State :=
  let f := s.func fn
  let nx := ringNext (ringLen f.outSize) f.outIdx f.outPhase
  let e := v.emisEngine m
  let t := v.modFunc fn fun f => { f with emis := rest, outIdx := nx.1, outPhase := nx.2 }
  let t := if lateAt m s.wall then
      (t.satAdd F.srvStat_late e 1).eventTo fn 0x02A0 7 e [(4, m.rid.toNat), (4, t.wall - m.deadline.getD 0)]
    else t
  ((t.emitted { m with late := lateAt m s.wall }).putIndices fn).tryHeartbeat

theorem State.writeEmission_cons {s : State} {fn : Nat} {m : Emission} {rest : List Emission} (hm : (s.func fn).emis = m :: rest) :
    s.writeEmission fn =
      if !(s.func fn).outOn || ((s.func fn).outIdx + 1) % ringLen (s.func fn).outSize == s.hostIdx fn 8 || s.ringStopped fn || s.emisWaits m then s
      else s.hostPut fn ((s.func fn).outBase.toNat + 64 * (s.func fn).outIdx)
        (emisBytes { m with late := lateAt m s.wall } (s.func fn).outPhase s.wall) fun v => s.emissionOut v fn m rest := by
  unfold State.writeEmission
  dsimp only
  rw [hm]
  rfl

theorem State.emissionOut_fields {s v : State} {fn : Nat} {m : Emission} {rest : List Emission} (hfn : fn < 16) (he : v.emisEngine m < 2) :
    ((s.emissionOut v fn m rest).func fn).out = ((ringNext (ringLen (s.func fn).outSize) (s.func fn).outIdx (s.func fn).outPhase).1,
      (ringNext (ringLen (s.func fn).outSize) (s.func fn).outIdx (s.func fn).outPhase).2, rest.length) ∧
    ((s.emissionOut v fn m rest).hostMem = v.hostMem ∨
      ∃ bs, bs.length = 12 ∧ (s.emissionOut v fn m rest).hostMem = wrBytes v.hostMem (v.sbAddr fn + 0x20) bs) := by
  unfold State.emissionOut
  extract_lets f nx e t t'
  generalize hy : t'.emitted { m with late := lateAt m s.wall } = y
  have htf : (t.func fn).out = (nx.1, nx.2, rest.length) := by
    rw [State.modFunc_same]
    rfl
  have hsat : RegsKept [.srvStat, .hstEvstat] t (t.satAdd F.srvStat_late e 1) := .satAdd (by omega) (by decide)
  have hevent (w : State) : RegsKept [.srvStat, .hstEvstat] w (w.eventTo fn 0x02A0 7 e [(4, m.rid.toNat), (4, t.wall - m.deadline.getD 0)]) := .eventTo (by omega) (by decide)
  have htt : t.OutKept t' := .ite (.trans (.of_chg .satAdd) .eventTo) .refl
  have hregs : RegsKept [.srvStat, .hstEvstat] v y := by
    rw [← hy]
    exact ((RegsKept.of_chg .modFunc).trans (.ite (hsat.trans (hevent _)) .refl)).trans (.of_chg State.emitted_chg)
  have hout : t.OutKept ((y.putIndices fn).tryHeartbeat) := by
    rw [← hy]
    exact ((htt.trans State.emitted_outKept).trans State.putIndices_outKept).trans (.of_chg State.tryHeartbeat_chg)
  have hymem : y.hostMem = v.hostMem := by
    rw [← hy]
    exact (Chg.hostMem_eq (P := { fns := true, regs := true, engs := true })
      (.via (.ite (.via (.via (.via .refl .modFunc) .satAdd) State.eventTo_chg) (.via .refl .modFunc)) State.emitted_chg))
  refine ⟨(hout fn).trans htf, ?_⟩
  rw [State.tryHeartbeat_chg.hostMem_eq]
  unfold State.putIndices State.hostPut
  dsimp only
  split_ifs with hfw
  · refine .inr ⟨_, (y.func fn).indexBytes_length, ?_⟩
    have hsb : y.sbAddr fn = v.sbAddr fn := by
      rw [State.sbAddr, hregs.fld _ _ (by omega) (by decide), State.sbAddr]
    rw [← hymem, ← hsb]
    rfl
  · exact .inl (State.stopRings_chg.hostMem_eq.trans hymem)

theorem execEmissionWrite_eq {s : State} {fn : Nat} {m : Emission} {rest : List Emission} (hfn : fn < 16) (he : s.emisEngine m < 2)
    (hm : (s.func fn).emis = m :: rest) (hon : (s.func fn).outOn = true)
    (hroom : ((s.func fn).outIdx + 1) % ringLen (s.func fn).outSize ≠ s.hostIdx fn 8) (hs : s.ringStopped fn = false) (hw : s.emisWaits m = false)
    {bs : List Byte} {a : Nat} (hbs : emisBytes { m with late := lateAt m s.wall } (s.func fn).outPhase s.wall = bs)
    (ha : (s.func fn).outBase.toNat + 64 * (s.func fn).outIdx = a) (hfw : s.fwPass fn true a bs.length = true) (hmem : memWf s.hostMem = true) :
    ∃ u, exec (.emissionWrite fn) s = .next u ∧
      (u.func fn).outIdx = (ringNext (ringLen (s.func fn).outSize) (s.func fn).outIdx (s.func fn).outPhase).1 ∧
      (u.func fn).outPhase = (ringNext (ringLen (s.func fn).outSize) (s.func fn).outIdx (s.func fn).outPhase).2 ∧
      (u.func fn).emis.length = rest.length ∧
      ∀ b, ¬(s.sbAddr fn + 0x20 ≤ b ∧ b < s.sbAddr fn + 0x20 + 12) →
        rdByte u.hostMem b = if a ≤ b ∧ b < a + bs.length then bs.getD (b - a) 0 else rdByte s.hostMem b := by
  have hexec : exec (.emissionWrite fn) s = .next (s.writeEmission fn) := rfl
  have hgo : ¬(!(s.func fn).outOn || ((s.func fn).outIdx + 1) % ringLen (s.func fn).outSize == s.hostIdx fn 8 || s.ringStopped fn || s.emisWaits m) = true := by
    rw [hon, hs, hw, beq_false_of_ne hroom]
    decide
  rw [State.writeEmission_cons hm, if_neg hgo, hbs, ha, State.hostPut_pass hfw] at hexec
  generalize hv : ({ s with hostMem := wrBytes s.hostMem a bs } : State) = v at hexec
  have hvmem : v.hostMem = wrBytes s.hostMem a bs := by rw [← hv]
  have hve : v.emisEngine m = s.emisEngine m := by rw [← hv]; rfl
  have hvsb : v.sbAddr fn = s.sbAddr fn := by rw [← hv]; rfl
  obtain ⟨hout, hput⟩ := State.emissionOut_fields (s := s) (rest := rest) hfn (hve ▸ he)
  rw [Func.out, Prod.mk.injEq, Prod.mk.injEq] at hout
  obtain ⟨hidx, hphase, hlen⟩ := hout
  refine ⟨_, hexec, hidx, hphase, hlen, fun b hb => ?_⟩
  have hat := stored_wrBytes a bs hmem b
  rw [← hvmem] at hat
  rcases hput with hput | ⟨ix, hix, hput⟩
  · rw [hput, hat]
  · rw [hput, rdByte_wrBytes _ _ _ (by rw [hvmem]; exact memWf_wrBytes _ _ hmem), hix, hvsb, if_neg hb, hat]

/-! ## The end of a step (R466, R498 to R501) -/

/-- Every engine's step table, with its slots and prefill records, stays. -/
def State.TableKept (s u : State) : Prop :=
  ∀ k, (u.eng k).tabStep = (s.eng k).tabStep ∧ (u.eng k).slots = (s.eng k).slots ∧ (u.eng k).pres = (s.eng k).pres

namespace State.TableKept

variable {s u v : State}

theorem refl : s.TableKept s := fun _ => ⟨rfl, rfl, rfl⟩

theorem trans (h : s.TableKept u) (k : u.TableKept v) : s.TableKept v := fun j =>
  ⟨(k j).1.trans (h j).1, (k j).2.1.trans (h j).2.1, (k j).2.2.trans (h j).2.2⟩

theorem of_chg {P : Foot} (h : Chg P s u) (hf : P.engs = false := by rfl) : s.TableKept u := fun k => by rw [h.eng_eq k hf]; exact ⟨rfl, rfl, rfl⟩

theorem ite {c : Prop} [Decidable c] (h : s.TableKept u) (k : s.TableKept v) : s.TableKept (if c then u else v) := by
  split <;> assumption

theorem foldl {α : Type} {g : State → α → State} (hg : ∀ (v : State) x, v.TableKept (g v x)) (l : List α) (h : s.TableKept u) : s.TableKept (l.foldl g u) := by
  induction l generalizing u with
  | nil => exact h
  | cons x l ih => exact ih (h.trans (hg u x))

theorem modEng {n : Nat} {f : Engine → Engine} (hf : ∀ g, (f g).tabStep = g.tabStep ∧ (f g).slots = g.slots ∧ (f g).pres = g.pres) :
    s.TableKept (s.modEng n f) := fun k => by
  by_cases h : k = n
  · rw [h, State.modEng_same]
    exact hf _
  · rw [State.modEng_ne _ _ _ h]
    exact ⟨rfl, rfl, rfl⟩

/-- A change of every engine that is no change of its table. -/
theorem mapEngs {f : Engine → Engine} (hf : ∀ g, (f g).tabStep = g.tabStep ∧ (f g).slots = g.slots ∧ (f g).pres = g.pres) :
    s.TableKept { s with engs := s.engs.map fun (g : Nat × Engine) => (g.1, f g.2) } := fun k => by
  have hk : ({ s with engs := s.engs.map fun (g : Nat × Engine) => (g.1, f g.2) } : State).eng k = ((mfind s.engs k).map f).getD {} :=
    congrArg (fun o => Option.getD o ({} : Engine)) (mfind_map_snd f s.engs k)
  have hs : s.eng k = (mfind s.engs k).getD {} := rfl
  rw [hk, hs]
  cases mfind s.engs k with
  | none => exact ⟨rfl, rfl, rfl⟩
  | some g => exact hf g

end State.TableKept

theorem State.abandon_tableKept {s : State} : s.TableKept s.abandon := by
  unfold State.abandon
  extract_lets act cmds s1 s2 open_ s3 s4
  have h2 : s.TableKept s2 := .trans (.of_chg .modMir) (.of_chg .modWts)
  have h3 : s.TableKept s3 := .ite (h2.trans (.mapEngs fun _ => ⟨rfl, rfl, rfl⟩)) h2
  have h4 : s.TableKept s4 := .foldl (fun _ _ => .of_chg State.complete_chg) _ h3
  generalize act = a
  cases a with
  | none => exact h4
  | some c => exact h4.trans (.of_chg State.complete_chg)

theorem State.freeMirror_tableKept {s : State} : s.TableKept s.freeMirror := by
  have hdown (v : State) (e k : Nat) : v.TableKept (v.modEng e fun e => { e with pageCnt := pageDown e.pageCnt k }) := .modEng fun _ => ⟨rfl, rfl, rfl⟩
  unfold State.freeMirror
  exact .trans (.foldl (fun _ _ => (hdown _ _ _).trans (.of_chg State.putCounts_chg)) _ .refl) (.of_chg .modMir)

theorem State.setPair_tableKept {s : State} {st : Nat} : s.TableKept (s.setPair st) := by
  have hstate (v : State) : v.TableKept ((v.setFld F.mirState_state 0 st).event 0x02C0 8 0 []) := .trans (.of_chg .setFld) (.of_chg State.event_chg)
  have hopen : s.TableKept (if st = 7 then s else s.abandon) := .ite .refl State.abandon_tableKept
  unfold State.setPair
  exact .ite .refl (.ite ((hopen.trans (hstate _)).trans State.freeMirror_tableKept) (hopen.trans (hstate _)))

/-- Every request of every engine is silent, or none is. -/
theorem State.TableKept.voiced (v : State) (b : Bool) :
    v.TableKept { v with engs := v.engs.map fun (g : Nat × Engine) => (g.1, { g.2 with reqs := g.2.reqs.map fun (q : Nat × Req) => (q.1, { q.2 with silent := b }) }) } :=
  .mapEngs (f := fun g => { g with reqs := g.reqs.map fun (q : Nat × Req) => (q.1, { q.2 with silent := b }) }) fun _ => ⟨rfl, rfl, rfl⟩

theorem State.takeVoice_tableKept {s : State} {k : Nat} : s.TableKept (s.takeVoice k) := by
  have hmir (v : State) (m : Mirror) : v.TableKept { v with mir := m } := fun _ => ⟨rfl, rfl, rfl⟩
  unfold State.takeVoice
  extract_lets due t
  have ht : s.TableKept t := .foldl (fun _ _ => .of_chg .modFunc) _ .refl
  exact (ht.trans (hmir t { t.mir with pendEmis := [] })).trans (State.TableKept.voiced _ false)

theorem State.digestMismatch_tableKept {s : State} {k : Nat} : s.TableKept (s.digestMismatch k) := by
  have hfns (v : State) (m : SMap Func) : v.TableKept { v with fns := m } := fun _ => ⟨rfl, rfl, rfl⟩
  unfold State.digestMismatch
  extract_lets s1 s2 s3
  have h1 : s.TableKept s1 := .trans (.trans (.of_chg State.event_chg) (.of_chg .satAdd)) State.setPair_tableKept
  have h2 : s.TableKept s2 := h1.trans (State.TableKept.voiced _ true)
  exact .ite (h1.trans State.takeVoice_tableKept) (.foldl (fun _ _ => .of_chg .modRegion) _ (h2.trans (hfns _ _)))

theorem State.ownDigest_tableKept {s : State} {r k : Nat} : s.TableKept (s.ownDigest r k) := by
  have hcheck (v : State) : v.TableKept (v.checkDigest k) := by
    unfold State.checkDigest
    split
    · exact .ite .refl (.ite (.of_chg .modMir) State.digestMismatch_tableKept)
    · exact .refl
  unfold State.ownDigest
  dsimp only
  refine .ite .refl ?_
  split
  · exact .refl
  · exact .trans (.of_chg .modMir) (hcheck _)

theorem State.seriesOver_tableKept {s : State} {r k : Nat} {last : Bool} : s.TableKept (s.seriesOver r k last) := by
  have hover (v : State) : v.TableKept (v.seriesEnds r) := .of_chg State.seriesEnds_chg
  have hdue (v : State) : v.TableKept (v.dueHeartbeat r k) := .of_chg State.dueHeartbeat_chg
  unfold State.seriesOver
  exact .ite (.trans (.ite (State.ownDigest_tableKept.trans (hdue _)) .refl) (hover _)) .refl

theorem State.packStep_tabStep {s : State} {e k : Nat} {c : SrvCfg} : ((s.packStep e k c).eng e).tabStep = k + 1 := by
  unfold State.packStep
  extract_lets v1 v2 slots pres v3 v4 v5 v6
  have h6 : (v6.eng e).tabStep = k + 1 := by rw [State.modEng_same]
  split_ifs
  · rw [State.sealStep_chg.eng_eq, h6]
  · exact h6

theorem State.boundary_tabStep {s : State} {e k : Nat} {c : SrvCfg} : ((s.boundary e k c).eng e).tabStep = k + 2 := by
  unfold State.boundary
  extract_lets r v1 v2
  have h2 : (v2.eng e).tabStep = k + 2 := State.packStep_tabStep
  split_ifs
  · rw [State.tryArrive_chg.eng_eq, State.dueHeartbeat_chg.eng_eq, (State.ownDigest_tableKept e).1, h2]
  · exact h2

theorem State.endSeries_table {s : State} {e k : Nat} {c : SrvCfg} {last : Bool} :
    ((s.endSeries e k c last).eng e).tabStep = k + 3 ∧ ((s.endSeries e k c last).eng e).slots = [] ∧ ((s.endSeries e k c last).eng e).pres = [] := by
  unfold State.endSeries
  rw [State.modEng_same]
  exact ⟨rfl, rfl, rfl⟩

theorem State.finishActivate_none {s : State} (h : s.mir.updAct = none) : s.finishActivate = s := by
  unfold State.finishActivate
  rw [h]

/-- A step of boundary work ends in `v`, and in an activation if one waited. -/
theorem execBoundaryWork_ends {s v : State} {e : Fin 2} {P : State → Prop} (hv : s.boundaryWork e.val = v) (hact : s.ActKept v) (hP : P v) :
    (∃ v, exec (.boundaryWork e) s = .next v.finishActivate ∧ P v) ∧ (s.mir.updAct = none → ∃ t, exec (.boundaryWork e) s = .next t ∧ P t) := by
  have hexec : exec (.boundaryWork e) s = .next v.finishActivate := congrArg (fun x : State => Host.Outcome.next x.finishActivate) hv
  refine ⟨⟨v, hexec, hP⟩, fun hs => ⟨v, ?_, hP⟩⟩
  rw [hexec, State.finishActivate_none (hact hs)]

/-- Settles O41. -/
theorem emissionsAndBoundaries : Obligations.EmissionsAndBoundaries := by
  unfold Obligations.EmissionsAndBoundaries
  refine ⟨fun s fn m rest hfn he hm hon hroom hs hw hfw hmem => execEmissionWrite_eq hfn he hm hon hroom hs hw rfl rfl hfw hmem, fun s e => ?_⟩
  refine ⟨fun hcfg => ?_, fun c x hcfg hx hrun hpacks => ?_⟩
  · have hnone : s.boundaryWork e.val = s := by
      unfold State.boundaryWork
      rw [hcfg]
    have hexec : exec (.boundaryWork e) s = .next s.finishActivate := congrArg (fun x : State => Host.Outcome.next x.finishActivate) hnone
    exact ⟨hexec, fun hs => by rw [hexec, State.finishActivate_none hs]⟩
  have hgo : ¬(!(s.region c.region).running || !s.packsHere c.region) = true := by
    rw [hrun, hpacks]
    decide
  have hwork : s.boundaryWork e.val =
      if !(s.region c.region).begun then (if (s.eng e.val).tabStep = 0 then s.packStep e.val 0 c else s)
      else if x.stopReq then
        if x.endedAt.isNone then s
        else if (s.eng e.val).tabStep = x.step + 1 then (s.endSeries e.val x.step c true).seriesOver c.region x.step true
        else if (s.eng e.val).tabStep = x.step + 2 then (s.endSeries e.val x.step c false).seriesOver c.region x.step false
        else s
      else if (s.eng e.val).tabStep = x.step + 1 ∧ (x.endedAt.isSome || decide ((s.region c.region).t0 + s.regionLate c.region + c.candDone ≤ s.sched)) then
        s.boundary e.val x.step c
      else s := by
    unfold State.boundaryWork
    rw [hcfg]
    dsimp only
    rw [hx]
    dsimp only
    rw [if_neg hgo]
  refine ⟨fun hb ht => ?_, fun hb hstop ht hend => ?_, fun hb hstop hend ht => ?_⟩
  · rw [hb, if_pos (by decide), if_pos ht] at hwork
    exact execBoundaryWork_ends hwork State.packStep_actKept State.packStep_tabStep
  · rw [hb, if_neg (by decide), hstop, if_neg (by decide), if_pos ⟨ht, by simpa using hend⟩] at hwork
    exact execBoundaryWork_ends hwork State.boundary_actKept State.boundary_tabStep
  · rw [hb, if_neg (by decide), hstop, if_pos rfl, if_neg (by rw [Option.isNone_iff_eq_none]; exact Option.isSome_iff_ne_none.1 hend), if_pos ht] at hwork
    obtain ⟨h1, h2, h3⟩ := State.endSeries_table (s := s) (e := e.val) (k := x.step) (c := c) (last := true)
    obtain ⟨k1, k2, k3⟩ := State.seriesOver_tableKept (s := s.endSeries e.val x.step c true) (r := c.region) (k := x.step) (last := true) e.val
    exact execBoundaryWork_ends hwork (State.endSeries_actKept.trans State.seriesOver_actKept) ⟨k1.trans h1, k2.trans h2, k3.trans h3⟩

end Sys2Proof.Machine
end

section
/-!
A broadcast opens, sends its chunks and adopts (R520 to R525, R529, R542).
-/
namespace Sys2Proof.Machine
set_option Elab.async false

/-! ## The broadcast of a die -/

theorem State.bc_modBc (s : State) (die : Nat) (f : Bc → Bc) : mfind (s.modBc die f).wts.bcs die = (mfind s.wts.bcs die).map f := by
  have hmod : (s.modBc die f).wts = match mfind s.wts.bcs die with | some b => { s.wts with bcs := mput s.wts.bcs die (f b) } | none => s.wts := rfl
  rw [hmod]
  cases h : mfind s.wts.bcs die with
  | none => exact h
  | some b => exact mfind_mput_same ..

/-- What is not of the step in force of a broadcast, its messages and its times, stays. -/
structure SameWork (b d : Bc) : Prop where
  tree : d.tree = b.tree
  node : d.node = b.node
  chan : d.chan = b.chan
  held : d.held = b.held
  cmd : d.cmd = b.cmd
  readys : d.readys = b.readys
  stopped : d.stopped = b.stopped
  src : d.src = b.src
  srcsp : d.srcsp = b.srcsp

theorem SameWork.trans {b d e : Bc} (h : SameWork b d) (k : SameWork d e) : SameWork b e :=
  ⟨k.tree.trans h.tree, k.node.trans h.node, k.chan.trans h.chan, k.held.trans h.held, k.cmd.trans h.cmd, k.readys.trans h.readys,
    k.stopped.trans h.stopped, k.src.trans h.src, k.srcsp.trans h.srcsp⟩

theorem State.bcSend_mem (s : State) (b : Bc) (node sub : Nat) (args : List Nat) :
    (⟨(b.tree.nodes.map (·.module)).getD node 0, 0x40, b.tree.bcastId, sub :: args⟩ : Msg) ∈ (s.bcSend b node sub args).fab.sent :=
  List.mem_append_right _ (List.mem_singleton.2 rfl)

theorem State.Mailed.bcSend {s : State} {b : Bc} {node sub : Nat} {args : List Nat} : s.Mailed (s.bcSend b node sub args) := .sendMsg

theorem State.Mailed.bcLack {s : State} {b : Bc} : s.Mailed (s.bcLack b) :=
  .ite (.trans (.ite .sendMsg .refl) .sendMsg) (.ite .sendMsg .refl)

theorem State.bcForward_fields {s : State} {die sub : Nat} {b : Bc} (h : mfind s.wts.bcs die = some b) :
    (∃ d, mfind (s.bcForward die sub).wts.bcs die = some d ∧ SameWork b d) ∧
    ∀ i ∈ primaryOf ⟨0, 0, b.tree.nodes⟩ b.node,
      (⟨(b.tree.nodes.map (·.module)).getD i 0, 0x40, b.tree.bcastId, [sub]⟩ : Msg) ∈ (s.bcForward die sub).fab.sent := by
  have hsent (l : List Nat) (u : State) (i : Nat) (hi : i ∈ l) :
      (⟨(b.tree.nodes.map (·.module)).getD i 0, 0x40, b.tree.bcastId, [sub]⟩ : Msg) ∈ (l.foldl (fun s i => s.bcSend b i sub []) u).fab.sent := by
    induction l generalizing u with
    | nil => cases hi
    | cons k l ih =>
      rcases List.mem_cons.1 hi with rfl | hi
      · exact State.Mailed.mem_sent (.foldl (fun _ _ => .bcSend) l .refl) (u.bcSend_mem b i sub [])
      · exact ih _ hi
  have hkept (l : List Nat) (u : State) : (l.foldl (fun s i => s.bcSend b i sub []) u).wts = u.wts :=
    Chg.wts_eq (P := { fab := true }) (.foldl (fun _ _ => State.bcSend_chg) l .refl)
  unfold State.bcForward
  rw [h]
  refine ⟨⟨{ b with msg := sub, since := s.wall, lacks := [], alts := [] }, ?_, ⟨rfl, rfl, rfl, rfl, rfl, rfl, rfl, rfl, rfl⟩⟩, fun i hi => ?_⟩
  · rw [State.bc_modBc, hkept, h]
    rfl
  · exact hsent _ s i hi

theorem State.bcOpens_fields (s : State) {die : Nat} (b : Bc) (hd : die < 2) :
    (∃ d, mfind (s.bcOpens die b).wts.bcs die = some d ∧ SameWork b d) ∧ (s.bcOpens die b).fld F.dmaBcstat_state die = 1 ∧
    (s.bcOpens die b).fld F.dmaBcstat_total die = chunksOf b.tree % 2 ^ 27 ∧ (s.bcOpens die b).fab = s.fab := by
  unfold State.bcOpens
  refine ⟨⟨{ b with opened := s.wall, since := s.wall, last := s.wall }, mfind_mput_same .., ⟨rfl, rfl, rfl, rfl, rfl, rfl, rfl, rfl, rfl⟩⟩, ?_, ?_, rfl⟩
  · rw [State.fld_setFld_bits _ (by decide), State.fld_setFld_eq _ (by decide) (by decide)]
  · exact State.fld_setFld_mod _ _ _ _ (by decide)

theorem State.bcStart_fields {s : State} {die : Nat} {b : Bc} (hd : die < 2) (h : mfind s.wts.bcs die = some b) :
    mfind (s.bcStart die).wts.bcs die = some { b with sending := true, left := b.tree.length - min b.tree.length bcDescMax } ∧
    (s.bcStart die).fld F.dmaBcstat_state die = 2 ∧ (s.bcStart die).fld F.dmaBcstat_total die = s.fld F.dmaBcstat_total die ∧
    (s.bcStart die).dmaState (chanByteIx b.chan) = 1 ∧ (s.bcStart die).reg .dmaSrc (chanByteIx b.chan) = b.src % 2 ^ 64 := by
  have hix : chanByteIx b.chan < 2 ^ 32 := by
    have h1 : bits b.chan 7 7 < 2 ^ (7 - 7 + 1) := bits_lt ..
    have h2 : bits b.chan 4 0 < 2 ^ (4 - 0 + 1) := bits_lt ..
    unfold chanByteIx chIx chanByteDie
    dsimp only
    omega
  unfold State.bcStart
  rw [h]
  dsimp only
  generalize hd' : (⟨BitVec.ofNat 64 b.src, 0, BitVec.ofNat 32 (min b.tree.length bcDescMax), BitVec.ofNat 32 (b.srcsp + 8 * 3), 0⟩ : Desc) = d
  generalize hixe : chanByteIx b.chan = ix at hix ⊢
  generalize hv : ((s.loadDesc ix d).dmaRun ix).modDma ix (fun c => { c with cmd := none, desc := 0 }) = v
  have hload : RegsKept [.dmaSrc, .dmaDst, .dmaLen, .dmaCtl, .dmaNext] s (s.loadDesc ix d) :=
    ((((RegsKept.setReg hix (by decide)).trans (.setReg hix (by decide))).trans (.setReg hix (by decide))).trans (.setReg hix (by decide))).trans
      (.setReg hix (by decide))
  have hsrc : (s.loadDesc ix d).reg .dmaSrc ix = b.src % 2 ^ 64 := by
    unfold State.loadDesc
    dsimp only
    rw [State.reg_setReg_code _ (by decide), State.reg_setReg_code _ (by decide), State.reg_setReg_code _ (by decide),
      State.reg_setReg_code _ (by decide), State.reg_setReg_same, ← hd', BitVec.toNat_ofNat, Nat.mod_mod]
  have hrunk : RegsKept [.dmaStat] (s.loadDesc ix d) v := by
    rw [← hv]
    exact ((RegsKept.setFld hix (by decide)).trans (.setFld hix (by decide))).trans ((RegsKept.of_chg .modDma).trans (.of_chg .modDma))
  have hrun : v.fld F.dmaStat_state ix = 1 := by
    rw [← hv, State.dmaRun]
    rw [Chg.modDma.fld_eq, Chg.modDma.fld_eq, State.fld_setFld_bits _ (by decide), State.fld_setFld_eq _ (by decide) (by decide)]
  have hvb : mfind v.wts.bcs die = some b := by
    rw [← hv]
    exact h
  refine ⟨?_, ?_, ?_, ?_, ?_⟩
  · rw [State.bc_modBc]
    show Option.map _ (mfind v.wts.bcs die) = _
    rw [hvb]
    rfl
  · rw [State.modBc_chg.fld_eq, State.fld_setFld_eq _ (by decide) (by decide)]
  · rw [State.modBc_chg.fld_eq, State.fld_setFld_bits _ (by decide), hrunk.fld _ _ (by omega) (by decide), hload.fld _ _ (by omega) (by decide)]
  · rw [State.dmaState, State.modBc_chg.fld_eq, State.fld_setFld_kind _ (by omega) hix (by decide)]
    exact hrun
  · rw [State.modBc_chg.reg_eq, State.setFld, State.reg_setReg_ne _ _ (regKey_ne (by omega) hix (.inl (by decide))),
      hrunk .dmaSrc ix hix (by decide)]
    exact hsrc

/-- A broadcast of `die` is open. -/
def State.bcBusy (s : State) (die : Nat) : Bool :=
  match mfind s.wts.bcs die with
  | some b => b.open_
  | none => false

theorem State.bcBusy_iff {s : State} {die : Nat} : s.bcBusy die = false ↔ ∀ b, mfind s.wts.bcs die = some b → b.open_ = false := by
  unfold State.bcBusy
  cases mfind s.wts.bcs die with
  | none => exact ⟨fun _ _ hb => (by cases hb), fun _ => rfl⟩
  | some b => exact ⟨fun h d hd => Option.some.inj hd ▸ h, fun h => h b rfl⟩

/-- A broadcast that BCAST opens on `die` as node 0 of its tree. -/
def State.bcBegins (s : State) (die : Nat) (b : Bc) : State :=
  if b.tree.nodes.length = 1 then ((s.bcOpens die b).bcForward die 0x10).bcStart die else (s.bcOpens die b).bcForward die 0x10

theorem State.bcBegins_fields (s : State) {die : Nat} {b : Bc} (hd : die < 2) (hn : b.node = 0) :
    (∀ k, ((s.bcBegins die b).func k).cpls = (s.func k).cpls) ∧ (s.bcBegins die b).fld F.dmaBcstat_total die = chunksOf b.tree % 2 ^ 27 ∧
    (s.bcBegins die b).fld F.dmaBcstat_state die = (if b.tree.nodes.length = 1 then 2 else 1) ∧
    ∃ d, mfind (s.bcBegins die b).wts.bcs die = some d ∧ SameWork b d ∧
      ∀ i ∈ primaryOf ⟨0, 0, b.tree.nodes⟩ 0,
        (⟨(b.tree.nodes.map (·.module)).getD i 0, 0x40, b.tree.bcastId, [0x10]⟩ : Msg) ∈ (s.bcBegins die b).fab.sent := by
  obtain ⟨⟨d1, hd1, hbd1⟩, hstate, htotal, -⟩ := s.bcOpens_fields b hd
  obtain ⟨⟨d2, hd2, hd12⟩, hsent⟩ := State.bcForward_fields (sub := 0x10) hd1
  rw [hbd1.tree, hbd1.node, hn] at hsent
  have hchg : Chg { wts := true, regs := true, fab := true } s ((s.bcOpens die b).bcForward die 0x10) := .via (.via .refl State.bcOpens_chg) State.bcForward_chg
  obtain ⟨hs1, hs2, hs3, -, -⟩ := State.bcStart_fields hd hd2
  unfold State.bcBegins
  split_ifs with hone
  · refine ⟨fun k => ?_, ?_, hs2, _, hs1, ⟨(hbd1.trans hd12).tree, (hbd1.trans hd12).node, (hbd1.trans hd12).chan, (hbd1.trans hd12).held,
      (hbd1.trans hd12).cmd, (hbd1.trans hd12).readys, (hbd1.trans hd12).stopped, (hbd1.trans hd12).src, (hbd1.trans hd12).srcsp⟩, fun i hi => ?_⟩
    · rw [State.bcStart_chg.func_eq, hchg.func_eq]
    · rw [hs3, State.bcForward_chg.fld_eq, htotal]
    · rw [State.bcStart_chg.fab_eq]
      exact hsent i hi
  · refine ⟨fun k => by rw [hchg.func_eq], ?_, ?_, d2, hd2, hbd1.trans hd12, hsent⟩
    · rw [State.bcForward_chg.fld_eq, htotal]
    · rw [State.bcForward_chg.fld_eq, hstate]

/-- The answer of BCAST to a broadcast it refuses. -/
theorem execBcast_refuses {s : State} {c : Cmd} {tree src length : BitVec 64} {srcsp chan : BitVec 8}
    (h : s.begins (.bcast c tree src length srcsp chan) c 0x0200 false)
    (hexec : exec (.bcast c tree src length srcsp chan) s = .next (((s.popCmd c).complete c 0x0200 0x0080).answerAll c.fn)) :
    Answers (.bcast c tree src length srcsp chan) c s fun u => Completed s u c 0x0200 0x0080 ∧ u.wts = s.wts := by
  refine ⟨_, hexec, h.completed (by decide), ?_⟩
  rw [(State.complete_fns (by decide)).wts_eq, State.popCmd_chg.wts_eq]

theorem execBcast_eq {s : State} {die : Fin 2} {c : Cmd} {tree src length : BitVec 64} {srcsp chan : BitVec 8}
    (h : s.begins (.bcast c tree src length srcsp chan) c 0x0200 false) (hdie : chanByteDie chan.toNat = die.val) {first : Desc}
    (hfirst : first = ⟨src, 0, BitVec.ofNat 32 (min length.toNat bcDescMax), BitVec.ofNat 32 (srcsp.toNat + 8 * 3), 0⟩) {sound : Prop}
    (hsound : sound ↔ (chanByteOk chan.toNat = true ∧ 0 < length.toNat ∧ length.toNat ≤ 2 ^ 40 ∧ srcsp.toNat ≤ 1 ∧
      (∀ b, mfind s.wts.bcs die = some b → b.open_ = false) ∧ (s.popCmd c).dmaState (chanByteIx chan.toNat) ≠ 1 ∧
      (s.popCmd c).dmaState (chanByteIx chan.toNat) ≠ 2 ∧ (s.popCmd c).descCheck (chanByteIx chan.toNat) first = 0)) :
    (∀ t, sound → (s.popCmd c).bcTreeAt tree.toNat length.toNat = some t →
      Answers (.bcast c tree src length srcsp chan) c s fun u =>
        (u.func 0).cpls = (s.func 0).cpls ∧ u.fld F.dmaBcstat_total die = chunksOf t % 2 ^ 27 ∧
        u.fld F.dmaBcstat_state die = (if t.nodes.length = 1 then 2 else 1) ∧
        ∃ b, mfind u.wts.bcs die = some b ∧ b.tree = t ∧ b.node = 0 ∧ b.cmd = some c ∧ b.readys = [0] ∧ b.held = [] ∧
          ∀ i ∈ primaryOf ⟨0, 0, t.nodes⟩ 0,
            (⟨(t.nodes.map (·.module)).getD i 0, 0x40, t.bcastId, [0x10]⟩ : Msg) ∈ u.fab.sent) ∧
    (¬sound ∨ (s.popCmd c).bcTreeAt tree.toNat length.toNat = none →
      Answers (.bcast c tree src length srcsp chan) c s fun u => Completed s u c 0x0200 0x0080 ∧ u.wts = s.wts) := by
  have hexec := h.exec_eq rfl
  dsimp only at hexec
  rw [hdie, ← hfirst] at hexec
  have hwts : (s.popCmd c).wts = s.wts := rfl
  rw [hwts] at hexec
  generalize hsb : (s.popCmd c).dmaState (chanByteIx chan.toNat) = st at hexec hsound
  generalize hdb : (s.popCmd c).descCheck (chanByteIx chan.toNat) first = dc at hexec hsound
  generalize htb : (s.popCmd c).bcTreeAt tree.toNat length.toNat = o at hexec ⊢
  replace hexec : exec (.bcast c tree src length srcsp chan) s = .next (State.answerAll (if (((((!chanByteOk chan.toNat || decide (length.toNat = 0) ||
        decide (2 ^ 40 < length.toNat)) || decide (1 < srcsp.toNat)) || s.bcBusy die) || st == 1) || st == 2) || dc != 0 then (s.popCmd c).complete c 0x0200 0x0080
      else match (generalizing := false) o with
        | none => (s.popCmd c).complete c 0x0200 0x0080
        | some t => (s.popCmd c).bcBegins die { tree := t, node := 0, chan := chan.toNat, cmd := some c, src := src.toNat, srcsp := srcsp.toNat, readys := [0] }) c.fn) := hexec
  rw [← State.bcBusy_iff] at hsound
  have hcond : ((((((!chanByteOk chan.toNat || decide (length.toNat = 0) || decide (2 ^ 40 < length.toNat)) || decide (1 < srcsp.toNat)) ||
      s.bcBusy die) || st == 1) || st == 2) || dc != 0) = false ↔ sound := by
    rw [hsound]
    simp only [Bool.or_eq_false_iff, Bool.not_eq_false', decide_eq_false_iff_not, bne_eq_false_iff_eq, beq_eq_false_iff_ne, and_assoc, not_lt, ne_eq,
      Nat.pos_iff_ne_zero]
  refine ⟨fun t hs ht => ?_, fun hbad => ?_⟩
  · rw [if_neg (by rw [hcond.2 hs]; decide), ht] at hexec
    obtain ⟨h1, h2, h3, d, hd, hwork, hsent⟩ := (s.popCmd c).bcBegins_fields (die := die.val)
      (b := { tree := t, node := 0, chan := chan.toNat, cmd := some c, src := src.toNat, srcsp := srcsp.toNat, readys := [0] }) die.isLt rfl
    exact ⟨_, hexec, (h1 0).trans (s.cpls_popCmd c 0), h2, h3, d, hd, hwork.tree, hwork.node, hwork.cmd, hwork.readys, hwork.held, hsent⟩
  · rcases hbad with hns | hnone
    · rw [if_pos (by rw [← Bool.not_eq_false, hcond]; exact hns)] at hexec
      exact execBcast_refuses h hexec
    · rw [hnone, ite_self] at hexec
      exact execBcast_refuses h hexec

/-! ## A node receives OPEN (R521, R522) -/

theorem State.bcEntryOk_kept {s u : State} {t : BTree} {n : TreeNode} (hr : RegsKept [.dmaBcstat] s u) (hi : u.img = s.img) (hf : u.fuses = s.fuses) :
    u.bcEntryOk t n = s.bcEntryOk t n := by
  have hfld (p : Nat) (hp : p < 2 ^ 32) (f : Fld) (hk : ∀ q ∈ [RegKind.dmaBcstat], f.kind.code ≠ q.code) : u.fld f p = s.fld f p := hr.fld f p hp hk
  have hmapped (a k : Nat) : u.mapped a k = s.mapped a k := by
    unfold State.mapped
    rw [State.gddrSize, hf, ← State.gddrSize]
    cases hp : annexPortOf a with
    | none => rfl
    | some p =>
      have hlt := annexPortOf_lt hp
      simp only [State.annexUp, State.annexSize, hfld p hlt F.anxCtl_enable (by decide), hfld p hlt F.anxStat_state (by decide), hfld p hlt F.anxStat_size (by decide)] <;> rfl
  have hin (a k : Nat) : u.inGddr a k = s.inGddr a k := by
    simp only [State.inGddr, State.inRegionSpace, State.planArea, State.gddrSize, hf, hi, hmapped] <;> rfl
  simp only [State.bcEntryOk, State.grantsOf, hi, hin]

theorem execOpenReceive_eq {s : State} {die : Fin 2} {b : BTree} {i : Nat} (hnode : s.nodeIn ⟨b.bcastId, 0, b.nodes⟩ = some i) (hi : i ≠ 0) (hlen : b.length ≠ 0)
    {n : TreeNode} (hn : b.nodes.getD i ⟨0, 0, 0, 0, 0, 0, 0, 0⟩ = n) (hdie : chanByteDie n.chan = die.val) (hnew : s.bcById die b.bcastId = none)
    (hmsg : s.hasMsg 0x40 (·.says b.bcastId (bcBytes b 0x10 [])) = true) :
    ((∃ d, mfind s.wts.bcs die = some d ∧ d.open_ = true) →
      Yields (.openReceive b) s fun u =>
        u.wts = s.wts ∧ u.ext = s.ext ∧ (⟨(b.nodes.map (·.module)).getD 0 0, 0x40, b.bcastId, [0x13, i]⟩ : Msg) ∈ u.fab.sent) ∧
    ((∀ d, mfind s.wts.bcs die = some d → d.open_ = false) → s.bcEntryOk b n = true → memWf s.ext = true →
      Yields (.openReceive b) s fun u =>
        u.fld F.dmaBcstat_state die = 1 ∧ (⟨(b.nodes.map (·.module)).getD 0 0, 0x40, b.bcastId, [0x11, i]⟩ : Msg) ∈ u.fab.sent ∧
        (∃ d, mfind u.wts.bcs die = some d ∧ d.tree = b ∧ d.node = i ∧ d.held = [] ∧ d.stopped = false) ∧
        (relayOnly n = true → u.ext = s.ext) ∧
        (relayOnly n = false → Stored s.ext u.ext n.map (List.replicate (ceilDiv (chunksOf b) 8) 0))) := by
  have hexec : exec (.openReceive b) s = execOpenReceive b s := rfl
  unfold execOpenReceive at hexec
  rw [State.onMsg_has hmsg] at hexec
  generalize hv : s.dropMsg 0x40 (·.says b.bcastId (bcBytes b 0x10 [])) = v at hexec
  have hsv : Chg { fab := true } s v := by
    rw [← hv]
    exact State.dropMsg_chg
  have hvnode : v.nodeIn ⟨b.bcastId, 0, b.nodes⟩ = some i := by
    rw [← hnode, ← hv]
    rfl
  have hvnew : v.bcById die.val b.bcastId = none := by
    rw [State.bcById, hsv.wts_eq]
    exact hnew
  dsimp only at hexec
  rw [hvnode] at hexec
  dsimp only at hexec
  rw [hn, hdie, if_neg (by simp [hi, hlen]), hvnew] at hexec
  dsimp only at hexec
  replace hexec : exec (.openReceive b) s = .next (if v.bcBusy die then (v.bcLack { tree := b, node := i, chan := n.chan }).bcSend { tree := b, node := i, chan := n.chan } 0 0x13 [i]
    else
      let w := ((v.bcOpens die { tree := b, node := i, chan := n.chan }).bcForward die 0x10).bcLack { tree := b, node := i, chan := n.chan }
      if w.bcEntryOk b n then
        let w := if relayOnly n then w else { w with ext := wrBytes w.ext n.map (List.replicate (ceilDiv (chunksOf b) 8) 0) }
        w.bcSend { tree := b, node := i, chan := n.chan } 0 0x11 [i]
      else (w.bcSend { tree := b, node := i, chan := n.chan } 0 0x13 [i]).modBc die fun d => { d with stopped := true, failSent := true }) := hexec
  have hvb : v.bcBusy die = s.bcBusy die := by rw [State.bcBusy, hsv.wts_eq, ← State.bcBusy]
  rw [hvb] at hexec
  refine ⟨fun ⟨d, hd, ho⟩ => ?_, fun hidle hok hmem => ?_⟩
  · have hbusy : s.bcBusy die = true := by
      rw [State.bcBusy, hd]
      exact ho
    rw [if_pos hbusy] at hexec
    refine ⟨_, hexec, ?_, ?_, State.bcSend_mem _ { tree := b, node := i, chan := n.chan } _ _ _⟩
    · rw [State.bcSend_chg.wts_eq, State.bcLack_chg.wts_eq, hsv.wts_eq]
    · rw [State.bcSend_chg.ext_eq, State.bcLack_chg.ext_eq, hsv.ext_eq]
  · rw [if_neg (by rw [State.bcBusy_iff.2 hidle]; decide)] at hexec
    generalize hw : ((v.bcOpens die { tree := b, node := i, chan := n.chan }).bcForward die 0x10).bcLack { tree := b, node := i, chan := n.chan } = w at hexec
    dsimp only at hexec
    obtain ⟨⟨d1, hd1, hbd1⟩, hstate, -, -⟩ := v.bcOpens_fields { tree := b, node := i, chan := n.chan } die.isLt
    obtain ⟨⟨d2, hd2, hd12⟩, -⟩ := State.bcForward_fields (sub := 0x10) hd1
    have hwork := hbd1.trans hd12
    have hwchg : Chg { wts := true, regs := true, fab := true } s w := by
      rw [← hw]
      exact .via (.via (.via (.mono hsv) State.bcOpens_chg) State.bcForward_chg) State.bcLack_chg
    have hwregs : RegsKept [.dmaBcstat] s w := by
      have hset (x : State) (k : Nat) : RegsKept [.dmaBcstat] x (((x.setReg .dmaBcstat die 0).setFld F.dmaBcstat_state die 1).setFld F.dmaBcstat_total die k) :=
        ((RegsKept.setReg (by omega) (by decide)).trans (.setFld (by omega) (by decide))).trans (.setFld (by omega) (by decide))
      have hopens : RegsKept [.dmaBcstat] v (v.bcOpens die { tree := b, node := i, chan := n.chan }) := by
        unfold State.bcOpens
        exact (RegsKept.of_chg .modWts).trans (hset _ _)
      rw [← hw]
      exact (((RegsKept.of_chg hsv).trans hopens).trans (.of_chg State.bcForward_chg)).trans (.of_chg State.bcLack_chg)
    have hwstate : w.fld F.dmaBcstat_state die = 1 := by
      rw [← hw, State.bcLack_chg.fld_eq, State.bcForward_chg.fld_eq]
      exact hstate
    have hwbc : mfind w.wts.bcs die = some d2 := by
      rw [← hw, State.bcLack_chg.wts_eq]
      exact hd2
    rw [if_pos (by rw [State.bcEntryOk_kept hwregs hwchg.img_eq hwchg.fuses_eq]; exact hok)] at hexec
    generalize hx : (if relayOnly n then w else { w with ext := wrBytes w.ext n.map (List.replicate (ceilDiv (chunksOf b) 8) 0) } : State) = x at hexec
    have hwx : Chg { ext := true } w x := by
      rw [← hx]
      exact .ite .refl (.setExt fun h => memWf_wrBytes _ _ h)
    refine ⟨_, hexec, ?_, State.bcSend_mem _ { tree := b, node := i, chan := n.chan } _ _ _, ⟨d2, ?_, hwork.tree, hwork.node, hwork.held, hwork.stopped⟩,
      fun hrelay => ?_, fun hrelay => ?_⟩
    · rw [State.bcSend_chg.fld_eq, hwx.fld_eq, hwstate]
    · rw [State.bcSend_chg.wts_eq, hwx.wts_eq, hwbc]
    · rw [State.bcSend_chg.ext_eq, ← hx, if_pos hrelay, hwchg.ext_eq]
    · rw [State.bcSend_chg.ext_eq, ← hx, if_neg (by rw [hrelay]; decide)]
      dsimp only
      rw [hwchg.ext_eq]
      exact stored_wrBytes _ _ hmem

/-! ## READY, chunks and needs (R523 to R525) -/

theorem execBcastReadyReceive_eq {s : State} {die : Fin 2} {node : Nat} {id : BitVec 64} {b : Bc} (hroot : s.bcRoot id = some (die.val, b))
    (hb : mfind s.wts.bcs die = some b) (hnode : node < b.tree.nodes.length) (hready : b.readys.contains node = false) (hsend : b.sending = false)
    (hmsg : s.hasMsg 0x40 (·.says id (bcBytes noTree 0x11 [node])) = true) :
    (b.readys.length + 1 ≠ b.tree.nodes.length →
      Yields (.bcastReadyReceive node id) s fun u =>
        mfind u.wts.bcs die = some { b with readys := b.readys ++ [node] } ∧ u.regs = s.regs) ∧
    (b.readys.length + 1 = b.tree.nodes.length →
      Yields (.bcastReadyReceive node id) s fun u =>
        (∃ d, mfind u.wts.bcs die = some d ∧ d.sending = true ∧ d.left = b.tree.length - min b.tree.length bcDescMax) ∧
        u.fld F.dmaBcstat_state die = 2 ∧ u.dmaState (chanByteIx b.chan) = 1 ∧
        u.reg .dmaSrc (chanByteIx b.chan) = b.src % 2 ^ 64) := by
  have hexec : exec (.bcastReadyReceive node id) s = execBcastReadyReceive node id s := rfl
  unfold execBcastReadyReceive at hexec
  rw [State.onMsg_has hmsg] at hexec
  generalize hv : s.dropMsg 0x40 (·.says id (bcBytes noTree 0x11 [node])) = v at hexec
  have hsv : Chg { fab := true } s v := by
    rw [← hv]
    exact State.dropMsg_chg
  have hvroot : v.bcRoot id = some (die.val, b) := by
    rw [State.bcRoot, hsv.wts_eq]
    exact hroot
  have hvb : mfind (v.modBc die fun b => { b with readys := b.readys ++ [node] }).wts.bcs die = some { b with readys := b.readys ++ [node] } := by
    rw [State.bc_modBc, hsv.wts_eq, hb]
    rfl
  rw [hvroot] at hexec
  dsimp only at hexec
  rw [if_neg (by rw [hready, hsend]; simp only [Bool.false_eq_true, or_false, not_le]; exact hnode)] at hexec
  refine ⟨fun hmore => ?_, fun hall => ?_⟩
  · rw [if_neg hmore] at hexec
    exact ⟨_, hexec, hvb, by rw [State.modBc_chg.regs_eq, hsv.regs_eq]⟩
  · rw [if_pos hall] at hexec
    obtain ⟨h1, h2, -, h3, h4⟩ := State.bcStart_fields die.isLt hvb
    exact ⟨_, hexec, ⟨_, h1, rfl, rfl⟩, h2, h3, h4⟩

theorem execNeedReceive_eq {s : State} {die : Fin 2} {node j : Nat} {id : BitVec 64} {b : Bc} (hb : s.bcById die id = some b) (hstop : b.stopped = false)
    (hnode : node ≠ 0) (halt : (b.tree.nodes.map (·.alt)).getD node 0xFFFF = b.node) (hchild : b.children.contains node = false)
    (hmsg : s.hasMsg 0x40 (·.says id (bcBytes noTree 0x12 [node, j])) = true) :
    Yields (.needReceive die node id j) s fun u =>
      mfind u.wts.bcs die = some { b with
        adopted := b.adopted ++ [node]
        rpend := b.rpend ++ (if relayOnly b.entry then [] else (List.range (chunksOf b.tree)).filter fun k => decide (j ≤ k) && b.held.contains k).map
          fun k => (node, k, []) } ∧
      u.ext = s.ext := by
  have hexec : exec (.needReceive die node id j) s = execNeedReceive die node id j s := rfl
  unfold execNeedReceive at hexec
  rw [State.onMsg_has hmsg] at hexec
  generalize hv : s.dropMsg 0x40 (·.says id (bcBytes noTree 0x12 [node, j])) = v at hexec
  have hsv : Chg { fab := true } s v := by
    rw [← hv]
    exact State.dropMsg_chg
  have hvb : v.bcById die id = some b := by
    rw [State.bcById, hsv.wts_eq]
    exact hb
  have hfind : mfind v.wts.bcs die = some b := by
    rw [hsv.wts_eq]
    unfold State.bcById at hb
    obtain ⟨d, hd, hid⟩ := Option.bind_eq_some_iff.1 hb
    rw [hd]
    split_ifs at hid
    exact hid
  dsimp only at hexec
  rw [hvb] at hexec
  dsimp only at hexec
  rw [if_neg (by rw [hstop, halt]; simp only [Bool.false_eq_true, false_or, ne_eq, not_true_eq_false, or_false]; exact hnode)] at hexec
  refine ⟨_, hexec, ?_, ?_⟩
  · rw [State.bc_modBc, hfind, Option.map_some, if_neg (by rw [hchild]; decide)]
  · rw [State.modBc_chg.ext_eq, hsv.ext_eq]

theorem State.bcById_find {s : State} {die : Nat} {id : BitVec 64} {b : Bc} (h : s.bcById die id = some b) : mfind s.wts.bcs die = some b := by
  unfold State.bcById at h
  obtain ⟨d, hd, hid⟩ := Option.bind_eq_some_iff.1 h
  split_ifs at hid
  rw [hd, hid]

/-- What a broadcast leaves when chunk `j` is held: the map's byte at a node that has one, the chunk in its list, the count, and DONE with the
last. -/
theorem State.bcHeld_fields {s : State} {die j : Nat} {b : Bc} (hd : die < 2) (h : mfind s.wts.bcs die = some b) :
    mfind (s.bcHeld die j).wts.bcs die = some { b with held := b.held ++ [j] } ∧
    (s.bcHeld die j).fld F.dmaBcstat_held die = (b.held.length + 1) % 2 ^ 27 ∧
    (s.bcHeld die j).ext = (if relayOnly b.entry = true then s.ext
      else wrByte s.ext (b.entry.map + j / 8) (rdByte s.ext (b.entry.map + j / 8) ||| BitVec.ofNat 8 (2 ^ (j % 8)))) ∧
    (b.held.length + 1 = chunksOf b.tree →
      (s.bcHeld die j).fld F.dmaBcstat_state die = 3 ∧
      (⟨(b.tree.nodes.map (·.module)).getD 0 0, 0x40, b.tree.bcastId, [0x14, b.node]⟩ : Msg) ∈ (s.bcHeld die j).fab.sent) := by
  unfold State.bcHeld
  rw [h]
  dsimp only
  generalize hv : (if relayOnly b.entry then s
    else { s with ext := wrByte s.ext (b.entry.map + j / 8) (rdByte s.ext (b.entry.map + j / 8) ||| BitVec.ofNat 8 (2 ^ (j % 8))) } : State) = v
  have hvw : v.wts = s.wts := by
    rw [← hv]
    split <;> rfl
  have hve : v.ext = (if relayOnly b.entry = true then s.ext
      else wrByte s.ext (b.entry.map + j / 8) (rdByte s.ext (b.entry.map + j / 8) ||| BitVec.ofNat 8 (2 ^ (j % 8)))) := by
    rw [← hv]
    split <;> rfl
  generalize hw : (v.modBc die fun b => { b with held := b.held ++ [j] }).setFld F.dmaBcstat_held die (b.held.length + 1) = w
  have hwbc : mfind w.wts.bcs die = some { b with held := b.held ++ [j] } := by
    rw [← hw, Chg.setFld.wts_eq, State.bc_modBc, hvw, h]
    rfl
  have hwheld : w.fld F.dmaBcstat_held die = (b.held.length + 1) % 2 ^ 27 := by
    rw [← hw]
    exact State.fld_setFld_mod _ _ _ _ (by decide)
  have hwext : w.ext = v.ext := by
    rw [← hw, Chg.setFld.ext_eq, State.modBc_chg.ext_eq]
  by_cases hall : b.held.length + 1 = chunksOf b.tree
  · rw [if_pos hall]
    refine ⟨?_, ?_, ?_, fun _ => ⟨?_, State.bcSend_mem _ _ _ _ _⟩⟩
    · rw [State.bcSend_chg.wts_eq, Chg.setFld.wts_eq, hwbc]
    · rw [State.bcSend_chg.fld_eq, State.fld_setFld_bits _ (by decide), hwheld]
    · rw [State.bcSend_chg.ext_eq, Chg.setFld.ext_eq, hwext, hve]
    · rw [State.bcSend_chg.fld_eq, State.fld_setFld_eq _ (by decide) (by decide)]
  · rw [if_neg hall]
    exact ⟨hwbc, hwheld, hwext.trans hve, fun h => absurd h hall⟩

theorem execChunkReceive_eq {s : State} {die : Fin 2} {id : BitVec 64} {b : Bc} {j : Nat} {data : List Byte} (hb : s.bcById die id = some b)
    (hnode : b.node ≠ 0) (hstop : b.stopped = false) (hj : j < chunksOf b.tree) (hlen : data.length = chunkBytesOf b.tree j)
    (harr : s.hasArrived (chunkHolds id j data) = true) :
    Yields (.chunkReceive die id j data) s fun u =>
      u.ext = s.ext ∧ ∃ d, mfind u.wts.bcs die = some d ∧ d.last = s.wall ∧ d.needed = false ∧
        (b.has j = true → d.held = b.held ∧ d.wpend = b.wpend) ∧
        (b.has j = false → relayOnly b.entry = false → d.held = b.held ∧ d.wpend = b.wpend ++ [(j, data, 0)]) ∧
        (b.has j = false → relayOnly b.entry = true →
          d.held = b.held ++ [j] ∧ d.wpend = b.wpend ∧ u.fld F.dmaBcstat_held die = (b.held.length + 1) % 2 ^ 27) := by
  have hexec : exec (.chunkReceive die id j data) s = execChunkReceive die id j data s := rfl
  unfold execChunkReceive at hexec
  rw [State.onArrived_has harr] at hexec
  generalize hv : s.dropArrived (chunkHolds id j data) = v at hexec
  have hsv : Chg { fab := true } s v := by
    rw [← hv]
    exact State.dropArrived_chg
  have hvb : v.bcById die id = some b := by
    rw [State.bcById, hsv.wts_eq]
    exact hb
  dsimp only at hexec
  rw [hvb] at hexec
  dsimp only at hexec
  rw [if_neg (by rw [hstop, hlen]; simp [hnode, hj])] at hexec
  generalize hw : b.children.foldl (fun s c => s.sendChunk die b c j data) v = w at hexec
  have hvw : Chg { fab := true } s w := by
    rw [← hw]
    exact .foldl (fun _ _ => State.sendChunk_chg) _ hsv
  generalize hx : (if (w.modBc die fun b => { b with last := w.wall, needed := false }).fld F.dmaBcstat_state die = 1 then
      (w.modBc die fun b => { b with last := w.wall, needed := false }).setFld F.dmaBcstat_state die 2
    else w.modBc die fun b => { b with last := w.wall, needed := false }) = x at hexec
  have hxchg : Chg { wts := true, regs := true, fab := true } s x := by
    rw [← hx]
    exact .ite (.via (.via (.mono hvw) State.modBc_chg) .setFld) (.via (.mono hvw) State.modBc_chg)
  have hxb : mfind x.wts.bcs die = some { b with last := s.wall, needed := false } := by
    have hmod : mfind (w.modBc die fun b => { b with last := w.wall, needed := false }).wts.bcs die = some { b with last := s.wall, needed := false } := by
      rw [State.bc_modBc, hvw.wts_eq, State.bcById_find hb, State.wall, hvw.reg_eq]
      rfl
    rw [← hx]
    split_ifs
    · rw [Chg.setFld.wts_eq, hmod]
    · exact hmod
  by_cases hhas : b.has j = true
  · rw [if_pos hhas] at hexec
    refine ⟨_, hexec, hxchg.ext_eq, _, hxb, rfl, rfl, fun _ => ⟨rfl, rfl⟩, fun h => ?_, fun h => ?_⟩
    · rw [hhas] at h
      cases h
    · rw [hhas] at h
      cases h
  · rw [if_neg hhas] at hexec
    by_cases hrelay : relayOnly b.entry = true
    · rw [if_pos hrelay] at hexec
      obtain ⟨h1, h2, h3, -⟩ := State.bcHeld_fields (j := j) die.isLt hxb
      have hentry : relayOnly (Bc.entry { b with last := s.wall, needed := false }) = true := hrelay
      rw [if_pos hentry] at h3
      refine ⟨_, hexec, h3.trans hxchg.ext_eq, _, h1, rfl, rfl, fun h => absurd h hhas, fun _ h => ?_, fun _ _ => ⟨rfl, rfl, h2⟩⟩
      rw [hrelay] at h
      cases h
    · rw [if_neg hrelay] at hexec
      refine ⟨_, hexec, ?_, { b with last := s.wall, needed := false, wpend := b.wpend ++ [(j, data, 0)] }, ?_, rfl, rfl, fun h => absurd h hhas,
        fun _ _ => ⟨rfl, rfl⟩, fun _ h => absurd h hrelay⟩
      · rw [State.modBc_chg.ext_eq, hxchg.ext_eq]
      · rw [State.bc_modBc, hxb]
        rfl

/-! ## A broadcast's own accesses (R524, R525) -/

theorem State.bcRecv_relay {s : State} {ix : Nat} {b : Bc} (h : s.bcRecv ix = some b) : relayOnly b.entry = false := by
  unfold State.bcRecv at h
  split_ifs at h
  split at h
  · split_ifs at h with hk
    have hb := Option.some.inj h
    subst hb
    simp only [Bool.and_eq_true, Bool.not_eq_true'] at hk
    exact hk.1.2
  · cases h

/-- The state in which a broadcast's access is made: its slot is noted, and the granule's registers are. -/
def State.bcTurn (s : State) (ix : Nat) (count : Bool) (a n : Nat) (res : GranRes) : State :=
  (s.modDma ix fun c => { c with slotAt := mput c.slotAt 1 (s.slotMark 1) }).dmaMoved count a n res

theorem State.bcTurn_chg {s : State} {ix : Nat} {count : Bool} {a n : Nat} {res : GranRes} :
    Chg { dma := true, occ := true, fns := true, regs := true, chans := true } s (s.bcTurn ix count a n res) := by
  unfold State.bcTurn
  exact .via (.via .refl .modDma) State.dmaMoved_chg

theorem execDmaSlotAccess_bc {s : State} {ch : Chan} {write : Bool} {res : GranRes} {b : Bc} {a n : Nat} (hnext : s.dmaNextAcc (chIx ch) write = none)
    (hrecv : s.bcRecv (chIx ch) = some b) (hacc : s.bcAcc (chIx ch) write = some (a, n)) (hmay : s.dmaMay (chIx ch) 0 a = true) (hres : res ≠ .lost) {die : Nat}
    (hdie : chIx ch / 32 - 8 = die) :
    let first := write && decide (n < 64) && !b.rmw
    let v := s.bcTurn (chIx ch) (write && !first) a n res
    (first = true → exec (.dmaSlotAccess ch ⟨write, res⟩) s = .next (v.modBc die fun b => { b with rmw := true })) ∧
    (∀ j data done rest, first = false → write = true → b.wpend = (j, data, done) :: rest →
      exec (.dmaSlotAccess ch ⟨write, res⟩) s = .next (
        let w : State := { v with ext := wrBytes v.ext a ((data.drop done).take n) }
        if done + n < data.length then w.modBc die fun b => { b with rmw := false, wpend := (j, data, done + n) :: rest }
        else (w.modBc die fun b => { b with rmw := false, wpend := rest }).bcHeld die j)) ∧
    (∀ c j got rest, write = false → b.rpend = (c, j, got) :: rest →
      exec (.dmaSlotAccess ch ⟨write, res⟩) s = .next (
        let got := got ++ rdBytes v.ext a n
        if got.length < chunkBytesOf b.tree j then v.modBc die fun b => { b with rpend := (c, j, got) :: rest }
        else (v.modBc die fun b => { b with rpend := rest }).sendChunk die b c j got)) := by
  have hexec : exec (.dmaSlotAccess ch ⟨write, res⟩) s = execDmaSlotAccess ch ⟨write, res⟩ s := rfl
  unfold execDmaSlotAccess at hexec
  dsimp only at hexec
  rw [hnext] at hexec
  dsimp only at hexec
  unfold State.bcSlot at hexec
  rw [hrecv, hacc] at hexec
  dsimp only at hexec
  rw [if_neg (by rw [hmay]; decide), hdie] at hexec
  intro first v
  refine ⟨fun hf => ?_, fun j data done rest hf hw hp => ?_, fun c j got rest hw hp => ?_⟩
  · rw [if_pos hf] at hexec
    exact hexec
  · rw [if_neg (by rw [Bool.not_eq_true]; exact hf), if_pos hw, hp] at hexec
    dsimp only at hexec
    rw [if_neg hres] at hexec
    exact hexec
  · have hf : ¬(write && decide (n < 64) && !b.rmw) = true := by rw [hw, Bool.false_and, Bool.false_and]; decide
    rw [if_neg hf, if_neg (by rw [hw]; decide), hp] at hexec
    dsimp only at hexec
    rw [if_neg hres] at hexec
    exact hexec

theorem State.sendChunk_congr {s u : State} (hf : u.fab = s.fab) (ho : u.ownId = s.ownId) (die : Nat) (b : Bc) (c j : Nat) (data : List Byte) :
    (u.sendChunk die b c j data).fab = (s.sendChunk die b c j data).fab := by
  have hd (k : Nat) : u.fdie k = s.fdie k := by rw [State.fdie, hf, State.fdie]
  simp only [State.sendChunk, State.modFdie, State.modFab, ho, hf, hd]

theorem execDmaSlotAccess_bcWrite {s : State} {ch : Chan} {res : GranRes} {b : Bc} {a n : Nat} {die : Fin 2} (hdie : ch.die = 8 + die.val)
    (hch : chanExists ch = true) (hb : mfind s.wts.bcs die = some b) (hnext : s.dmaNextAcc (chIx ch) true = none)
    (hrecv : s.bcRecv (chIx ch) = some b) (hacc : s.bcAcc (chIx ch) true = some (a, n)) (hmay : s.dmaMay (chIx ch) 0 a = true) (hres : res ≠ .lost) :
    (n < 64 → b.rmw = false → Yields (.dmaSlotAccess ch ⟨true, res⟩) s fun u =>
      u.ext = s.ext ∧ mfind u.wts.bcs die = some { b with rmw := true }) ∧
    (∀ j data done rest, b.wpend = (j, data, done) :: rest → done < data.length → n = 64 ∨ b.rmw = true → memWf s.ext = true →
      (done + n < data.length → Yields (.dmaSlotAccess ch ⟨true, res⟩) s fun u =>
        Stored s.ext u.ext a ((data.drop done).take n) ∧
        mfind u.wts.bcs die = some { b with rmw := false, wpend := (j, data, done + n) :: rest }) ∧
      (data.length ≤ done + n →
        let m := b.entry.map + j / 8
        let bs := (data.drop done).take n
        let new (x : Nat) : Byte := if a ≤ x ∧ x < a + bs.length then bs.getD (x - a) 0 else rdByte s.ext x
        Yields (.dmaSlotAccess ch ⟨true, res⟩) s fun u =>
          mfind u.wts.bcs die = some { b with rmw := false, wpend := rest, held := b.held ++ [j] } ∧
          u.fld F.dmaBcstat_held die = (b.held.length + 1) % 2 ^ 27 ∧
          (∀ x, rdByte u.ext x = if x = m then new m ||| BitVec.ofNat 8 (2 ^ (j % 8)) else new x) ∧
          (b.held.length + 1 = chunksOf b.tree →
            u.fld F.dmaBcstat_state die = 3 ∧
            (⟨(b.tree.nodes.map (·.module)).getD 0 0, 0x40, b.tree.bcastId, [0x14, b.node]⟩ : Msg) ∈ u.fab.sent))) := by
  have hlt : ch.ch < 32 := by
    unfold chanExists at hch
    rw [if_neg (by omega)] at hch
    simp only [Bool.and_eq_true, decide_eq_true_eq] at hch
    omega
  have hix : chIx ch / 32 - 8 = die.val := by
    unfold chIx
    omega
  obtain ⟨hfirst, hwrite, -⟩ := execDmaSlotAccess_bc hnext hrecv hacc hmay hres hix
  refine ⟨fun hn hr => ?_, fun j data done rest hp hdone hfull hmem => ?_⟩
  · refine ⟨_, hfirst (by rw [hr, decide_eq_true hn]; rfl), ?_, ?_⟩
    · rw [State.modBc_chg.ext_eq, State.bcTurn_chg.ext_eq]
    · rw [State.bc_modBc, State.bcTurn_chg.wts_eq, hb]
      rfl
  · have hnf : (true && decide (n < 64) && !b.rmw) = false := by
      rcases hfull with h | h
      · rw [h]
        rfl
      · rw [h, Bool.not_true, Bool.and_false]
    have hexec := hwrite j data done rest hnf rfl hp
    rw [hnf] at hexec
    dsimp only at hexec
    generalize hv : s.bcTurn (chIx ch) (true && !false) a n res = v at hexec
    have hvchg : v.ext = s.ext ∧ v.wts = s.wts := by
      rw [← hv]
      exact ⟨State.bcTurn_chg.ext_eq, State.bcTurn_chg.wts_eq⟩
    obtain ⟨hve, hvw⟩ := hvchg
    generalize hw : ({ v with ext := wrBytes v.ext a ((data.drop done).take n) } : State) = w at hexec
    have hwe : w.ext = wrBytes s.ext a ((data.drop done).take n) := by
      rw [← hw, ← hve]
    have hwb : mfind w.wts.bcs die = some b := by
      rw [← hb, ← hvw, ← hw]
    refine ⟨fun hmore => ?_, fun hall => ?_⟩
    · rw [if_pos hmore] at hexec
      refine ⟨_, hexec, ?_, ?_⟩
      · rw [State.modBc_chg.ext_eq, hwe]
        exact stored_wrBytes _ _ hmem
      · rw [State.bc_modBc, hwb]
        rfl
    · rw [if_neg (by omega)] at hexec
      have hxb : mfind (w.modBc die fun b => { b with rmw := false, wpend := rest }).wts.bcs die = some { b with rmw := false, wpend := rest } := by
        rw [State.bc_modBc, hwb]
        rfl
      obtain ⟨h1, h2, h3, h4⟩ := State.bcHeld_fields (j := j) die.isLt hxb
      have hentry : ¬relayOnly (Bc.entry { b with rmw := false, wpend := rest }) = true := by
        rw [Bool.not_eq_true]
        show relayOnly b.entry = false
        exact State.bcRecv_relay hrecv
      rw [if_neg hentry, State.modBc_chg.ext_eq, hwe] at h3
      intro m bs new
      have hnew (x : Nat) : rdByte (wrBytes s.ext a bs) x = new x := stored_wrBytes a bs hmem x
      refine ⟨_, hexec, h1, h2, fun x => ?_, h4⟩
      rw [h3]
      have hwf := memWf_wrBytes (m := s.ext) a bs hmem
      refine (rdByte_wrByte _ _ _ hwf).trans ?_
      have hm : Bc.entry { b with rmw := false, wpend := rest } = b.entry := rfl
      rw [hnew, hnew, hm]

theorem execDmaSlotAccess_bcRead {s : State} {ch : Chan} {res : GranRes} {b : Bc} {a n : Nat} {die : Fin 2} (hdie : ch.die = 8 + die.val)
    (hch : chanExists ch = true) (hb : mfind s.wts.bcs die = some b) (hnext : s.dmaNextAcc (chIx ch) false = none)
    (hrecv : s.bcRecv (chIx ch) = some b) (hacc : s.bcAcc (chIx ch) false = some (a, n)) (hmay : s.dmaMay (chIx ch) 0 a = true) (hres : res ≠ .lost)
    {c j : Nat} {got : List Byte} {rest : List (Nat × Nat × List Byte)} (hp : b.rpend = (c, j, got) :: rest) :
    Yields (.dmaSlotAccess ch ⟨false, res⟩) s fun u =>
      u.ext = s.ext ∧
      ((got ++ rdBytes s.ext a n).length < chunkBytesOf b.tree j → mfind u.wts.bcs die = some { b with rpend := (c, j, got ++ rdBytes s.ext a n) :: rest }) ∧
      (chunkBytesOf b.tree j ≤ (got ++ rdBytes s.ext a n).length →
        mfind u.wts.bcs die = some { b with rpend := rest } ∧ u.fab = (s.sendChunk die b c j (got ++ rdBytes s.ext a n)).fab) := by
  have hlt : ch.ch < 32 := by
    unfold chanExists at hch
    rw [if_neg (by omega)] at hch
    simp only [Bool.and_eq_true, decide_eq_true_eq] at hch
    omega
  have hix : chIx ch / 32 - 8 = die.val := by
    unfold chIx
    omega
  obtain ⟨-, -, hread⟩ := execDmaSlotAccess_bc hnext hrecv hacc hmay hres hix
  have hexec := hread c j got rest rfl hp
  dsimp only at hexec
  generalize hv : s.bcTurn (chIx ch) (false && !(false && decide (n < 64) && !b.rmw)) a n res = v at hexec
  have hvchg : Chg { dma := true, occ := true, fns := true, regs := true, chans := true } s v := by
    rw [← hv]
    exact State.bcTurn_chg
  have hvown : v.ownId = s.ownId := by
    have hregs : RegsKept granKinds s v := by
      rw [← hv]
      exact (RegsKept.of_chg .modDma).trans .dmaMoved
    rw [State.ownId, hregs.fld _ _ (by decide) (by decide), State.ownId]
  rw [hvchg.ext_eq] at hexec
  generalize hbs : got ++ rdBytes s.ext a n = bs at hexec ⊢
  have hmod (f : Bc → Bc) : mfind (v.modBc die f).wts.bcs die = some (f b) := by
    rw [State.bc_modBc, hvchg.wts_eq, hb]
    rfl
  by_cases hmore : bs.length < chunkBytesOf b.tree j
  · rw [if_pos hmore] at hexec
    refine ⟨_, hexec, ?_, fun _ => hmod _, fun h => ?_⟩
    · rw [State.modBc_chg.ext_eq, hvchg.ext_eq]
    · omega
  · rw [if_neg hmore] at hexec
    refine ⟨_, hexec, ?_, fun h => absurd h hmore, fun _ => ⟨?_, ?_⟩⟩
    · rw [State.sendChunk_chg.ext_eq, State.modBc_chg.ext_eq, hvchg.ext_eq]
    · rw [State.sendChunk_chg.wts_eq, hmod]
    · refine State.sendChunk_congr ?_ ?_ _ _ _ _ _
      · rw [State.modBc_chg.fab_eq, hvchg.fab_eq]
      · rw [State.ownId, State.modBc_chg.fld_eq]
        exact hvown

/-- Settles O42. -/
theorem broadcastsStart : Obligations.BroadcastsStart := by
  unfold Obligations.BroadcastsStart
  intro s die
  refine ⟨fun c tree src length srcsp chan h hdie => ?_, fun b i hnode hi hlen => ?_, fun node id b hroot hb hnode hready hsend hmsg =>
      execBcastReadyReceive_eq hroot hb hnode hready hsend hmsg,
    fun id b j data hb hnode hstop hj hlen harr => execChunkReceive_eq hb hnode hstop hj hlen harr,
    fun ch b a n res hdie hch hrecv hb hmay hres => ⟨fun hnext hacc => execDmaSlotAccess_bcWrite hdie hch hb hnext hrecv hacc hmay hres,
      fun hnext hacc c j got rest hp _ => execDmaSlotAccess_bcRead hdie hch hb hnext hrecv hacc hmay hres hp⟩,
    fun node id j b hb hstop hnode halt hchild hmsg => execNeedReceive_eq hb hstop hnode halt hchild hmsg⟩
  · exact execBcast_eq h hdie rfl Iff.rfl
  · exact fun hdie hnew hmsg => execOpenReceive_eq hnode hi hlen rfl hdie hnew hmsg

end Sys2Proof.Machine
end

section
/-!
The end of a broadcast (R525, R527, R542).
-/
namespace Sys2Proof.Machine
set_option Elab.async false

/-! ## Failure and timeout of a broadcast (R527, R542) -/

theorem State.CplsKept.bcForward {s : State} {die sub : Nat} : s.CplsKept (s.bcForward die sub) := .of_chg State.bcForward_chg

theorem State.dmaSettle_regs {s : State} {ix : Nat} (hix : ix < 2 ^ 32) : RegsKept [.dmaSrc, .dmaDst, .dmaLen] s (s.dmaSettle ix) := by
  have hdst (v : State) (k : Nat) : RegsKept [.dmaSrc, .dmaDst, .dmaLen] v (v.setDst ix k) := by
    unfold State.setDst
    exact .ite .refl (.setReg hix (by decide))
  unfold State.dmaSettle
  exact ((((RegsKept.setReg hix (by decide))).trans (hdst _ _)).trans (.setReg hix (by decide))).trans (.of_chg .modDma)

theorem chanByteIx_lt (k : Nat) : chanByteIx k < 2 ^ 32 := by
  have h1 : bits k 7 7 < 2 ^ (7 - 7 + 1) := bits_lt ..
  have h2 : bits k 4 0 < 2 ^ (4 - 0 + 1) := bits_lt ..
  unfold chanByteIx chIx chanByteDie
  dsimp only
  omega

theorem State.bcForward_msg {s : State} {die sub : Nat} {b : Bc} (h : mfind s.wts.bcs die = some b) :
    ∃ d, mfind (s.bcForward die sub).wts.bcs die = some d ∧ d.msg = sub ∧ d.held = b.held := by
  have hkept : ((primaryOf ⟨0, 0, b.tree.nodes⟩ b.node).foldl (fun s i => s.bcSend b i sub []) s).wts = s.wts :=
    Chg.wts_eq (P := { fab := true }) (.foldl (fun _ _ => State.bcSend_chg) _ .refl)
  refine ⟨{ b with msg := sub, since := s.wall, lacks := [], alts := [] }, ?_, rfl, rfl⟩
  unfold State.bcForward
  rw [h]
  dsimp only
  rw [State.bc_modBc, hkept, h]
  rfl

theorem State.bcFails_fields {s : State} {die node : Nat} {b : Bc} (hd : die < 2) (h : mfind s.wts.bcs die = some b) :
    (s.bcFails die b node).fld F.dmaBcstat_state die = 4 ∧
    (∃ d, mfind (s.bcFails die b node).wts.bcs die = some d ∧ d.stopped = true ∧ d.cmd = none ∧ d.msg = 0x15) ∧
    ∀ c, b.cmd = some c → s.ringStopped c.fn = false →
      (⟨0x0082, c.tag, 0x0200, c.index, c.irq, 0, none⟩ : Cpl) ∈ ((s.bcFails die b node).func c.fn).cpls := by
  have hix := chanByteIx_lt b.chan
  unfold State.bcFails
  extract_lets v w ix x
  have hvw : v.wts = s.wts := by
    unfold v
    cases b.cmd with
    | none => rfl
    | some c => exact State.complete_chg.wts_eq
  have hvcpl (c : Cmd) (hc : b.cmd = some c) (hs : s.ringStopped c.fn = false) :
      (⟨0x0082, c.tag, 0x0200, c.index, c.irq, 0, none⟩ : Cpl) ∈ (v.func c.fn).cpls := by
    have hdone : Completed s (s.complete c 0x0200 0x0082) c 0x0200 0x0082 := State.completed (by decide) hs rfl
    have hv : v = s.complete c 0x0200 0x0082 := by
      unfold v
      rw [hc]
    rw [hv, hdone]
    exact List.mem_append_right _ (List.mem_singleton.2 rfl)
  obtain ⟨d, hd, hdm, -⟩ := State.bcForward_msg (s := v.event 0x02B1 8 0 [(4, node)]) (sub := 0x15) (b := b) (by
    rw [State.event_chg.wts_eq, hvw]
    exact h)
  have hwd : mfind w.wts.bcs die = some d := hd
  have hxregs : RegsKept [.dmaSrc, .dmaDst, .dmaLen, .dmaStat] w x :=
    .ite ((((State.dmaSettle_regs hix).mono (by decide)).trans (.setFld hix (by decide))).trans (.setFld hix (by decide))) .refl
  have hxchg : Chg { regs := true, dma := true } w x := .ite (.via (.via (.via .refl State.dmaSettle_chg) .setFld) .setFld) .refl
  have hwcpl : v.CplsKept w := (State.CplsKept.event.trans .bcForward).trans (.of_chg .setFld)
  refine ⟨?_, ⟨{ d with cmd := none, stopped := true, sending := false }, ?_, rfl, rfl, hdm⟩, fun c hc hs => ?_⟩
  · rw [State.modBc_chg.fld_eq, hxregs.fld _ _ (by omega) (by decide)]
    exact State.fld_setFld_eq _ (by decide) (by decide)
  · rw [State.bc_modBc, hxchg.wts_eq, hwd]
    rfl
  · rw [State.modBc_chg.func_eq, hxchg.func_eq, hwcpl]
    exact hvcpl c hc hs

/-- What a broadcast that fails on its node 0 leaves (R527). -/
def BcFailed (b : Bc) (die : Nat) (s u : State) : Prop :=
  u.fld F.dmaBcstat_state die = 4 ∧ (∃ d, mfind u.wts.bcs die = some d ∧ d.stopped = true ∧ d.cmd = none ∧ d.msg = 0x15) ∧
    ∀ c, b.cmd = some c → s.ringStopped c.fn = false → (⟨0x0082, c.tag, 0x0200, c.index, c.irq, 0, none⟩ : Cpl) ∈ (u.func c.fn).cpls

theorem execBcastStall_eq {s : State} {die : Fin 2} {b : Bc} (hb : mfind s.wts.bcs die = some b) (hnode : b.node ≠ 0) (hopen : b.open_ = true)
    (hfail : b.failSent = false) (hdue : b.last + 100 * s.fld F.dmaBcctl_stall 0 ≤ s.wall) :
    (b.needed = true → ((List.range (chunksOf b.tree)).any fun j => !b.has j) = true →
      Yields (.bcastStall die) s fun u =>
        mfind u.wts.bcs die = some { b with failSent := true } ∧
        (⟨(b.tree.nodes.map (·.module)).getD 0 0, 0x40, b.tree.bcastId, [0x13, b.node]⟩ : Msg) ∈ u.fab.sent) ∧
    (b.needed = false →
      ∀ j, ((List.range (chunksOf b.tree)).find? fun j => !b.has j) = some j →
        Yields (.bcastStall die) s fun u =>
          mfind u.wts.bcs die = some { b with needed := true, last := s.wall } ∧
          (⟨(b.tree.nodes.map (·.module)).getD b.entry.alt 0, 0x40, b.tree.bcastId, [0x12, b.node, j]⟩ : Msg) ∈ u.fab.sent) := by
  have hexec : exec (.bcastStall die) s = execBcastStall die s := rfl
  unfold execBcastStall at hexec
  rw [hb] at hexec
  dsimp only at hexec
  rw [if_neg (by rw [hopen, hfail]; simp only [Bool.not_true, Bool.false_eq_true, false_or, not_or, not_lt]; exact ⟨hnode, hdue⟩)] at hexec
  refine ⟨fun hneed hany => ?_, fun hneed j hj => ?_⟩
  · obtain ⟨j, hj⟩ := Option.isSome_iff_exists.1 (List.find?_isSome.2 (List.any_eq_true.1 hany))
    rw [hj] at hexec
    dsimp only at hexec
    rw [if_pos hneed] at hexec
    refine ⟨_, hexec, ?_, ?_⟩
    · rw [State.bc_modBc, State.bcSend_chg.wts_eq, hb]
      rfl
    · rw [State.modBc_chg.fab_eq]
      exact s.bcSend_mem b 0 0x13 [b.node]
  · rw [hj] at hexec
    dsimp only at hexec
    rw [if_neg (by rw [hneed]; decide)] at hexec
    refine ⟨_, hexec, ?_, ?_⟩
    · rw [State.bc_modBc, State.event_chg.wts_eq, State.bcSend_chg.wts_eq, hb]
      rfl
    · rw [State.modBc_chg.fab_eq, State.event_chg.fab_eq]
      exact s.bcSend_mem b b.entry.alt 0x12 [b.node, j]

theorem execBcfailReceive_eq {s : State} {die : Fin 2} {node : Nat} {b : Bc} (hb : mfind s.wts.bcs die = some b) (hroot : s.bcRoot b.tree.bcastId = some (die.val, b))
    (hmsg : s.hasMsg 0x40 (·.says b.tree.bcastId (bcBytes noTree 0x13 [node])) = true) :
    Yields (.bcfailReceive node b.tree.bcastId) s (BcFailed b die s) := by
  have hexec : exec (.bcfailReceive node b.tree.bcastId) s = execBcfailReceive node b.tree.bcastId s := rfl
  unfold execBcfailReceive at hexec
  rw [State.onMsg_has hmsg] at hexec
  generalize hv : s.dropMsg 0x40 (·.says b.tree.bcastId (bcBytes noTree 0x13 [node])) = v at hexec
  have hsv : Chg { fab := true } s v := by
    rw [← hv]
    exact State.dropMsg_chg
  have hvroot : v.bcRoot b.tree.bcastId = some (die.val, b) := by
    rw [State.bcRoot, hsv.wts_eq]
    exact hroot
  rw [hvroot] at hexec
  obtain ⟨h1, h2, h3⟩ := State.bcFails_fields (s := v) (node := node) die.isLt (hsv.wts_eq ▸ hb)
  refine ⟨_, hexec, h1, h2, fun c hc hs => h3 c hc ?_⟩
  rw [State.ringStopped, hsv.fld_eq]
  exact hs

theorem execBcastTimeout_eq {s : State} {die : Fin 2} {b : Bc} (hb : mfind s.wts.bcs die = some b) (hnode : b.node = 0) (hcmd : b.cmd.isSome = true)
    (hdue : b.opened + 100000 * s.fld F.dmaBcctl_timeout 0 ≤ s.wall) : Yields (.bcastTimeout die) s (BcFailed b die s) := by
  have hexec : exec (.bcastTimeout die) s = execBcastTimeout die s := rfl
  unfold execBcastTimeout at hexec
  rw [hb] at hexec
  dsimp only at hexec
  rw [if_neg (by rw [Option.isNone_eq_false_iff.2 hcmd]; simp only [Bool.false_eq_true, false_or, not_or, not_lt]; exact ⟨fun h => h hnode, hdue⟩)] at hexec
  exact ⟨_, hexec, State.bcFails_fields die.isLt hb⟩

/-! ## DONE and ABORT (R525, R527) -/

theorem execBcastDoneReceive_eq {s : State} {die : Fin 2} {node : Nat} {b : Bc} (hb : mfind s.wts.bcs die = some b)
    (hroot : s.bcRoot b.tree.bcastId = some (die.val, b)) (hnode : node ≠ 0) (hlt : node < b.tree.nodes.length) (hdone : b.dones.contains node = false)
    (hmsg : s.hasMsg 0x40 (·.says b.tree.bcastId (bcBytes noTree 0x14 [node])) = true) :
    (b.dones.length + 1 < b.tree.nodes.length →
      Yields (.bcastDoneReceive node b.tree.bcastId) s fun u =>
        mfind u.wts.bcs die = some { b with dones := b.dones ++ [node] } ∧ u.regs = s.regs) ∧
    (b.tree.nodes.length ≤ b.dones.length + 1 →
      Yields (.bcastDoneReceive node b.tree.bcastId) s fun u =>
        u.fld F.dmaBcstat_state die = 3 ∧ (∃ d, mfind u.wts.bcs die = some d ∧ d.cmd = none) ∧
        ∀ c, b.cmd = some c → s.ringStopped c.fn = false → Completed s u c 0x0200 0) := by
  have hexec : exec (.bcastDoneReceive node b.tree.bcastId) s = execBcastDoneReceive node b.tree.bcastId s := rfl
  unfold execBcastDoneReceive at hexec
  rw [State.onMsg_has hmsg] at hexec
  generalize hv : s.dropMsg 0x40 (·.says b.tree.bcastId (bcBytes noTree 0x14 [node])) = v at hexec
  have hsv : Chg { fab := true } s v := by
    rw [← hv]
    exact State.dropMsg_chg
  have hvroot : v.bcRoot b.tree.bcastId = some (die.val, b) := by
    rw [State.bcRoot, hsv.wts_eq]
    exact hroot
  obtain ⟨hroot0, hrootc⟩ : b.node = 0 ∧ b.cmd.isSome = true := by
    have hp := List.find?_some hroot
    simp only [Bool.and_eq_true, beq_iff_eq] at hp
    exact ⟨hp.1.2, hp.2⟩
  rw [hvroot] at hexec
  dsimp only at hexec
  have hvb : mfind v.wts.bcs die = some b := hsv.wts_eq ▸ hb
  have hone : ¬(b.node ≠ 0 ∨ b.cmd.isNone = true ∨ b.tree.nodes.length ≤ node ∨ b.dones.contains node = true) := by
    rw [hdone, Option.isNone_eq_false_iff.2 hrootc]
    simp only [Bool.false_eq_true, false_or, or_false, not_or, not_le]
    exact ⟨fun h => h hroot0, hlt⟩
  rw [if_neg hnode, State.bcNodeDone, hvb] at hexec
  dsimp only at hexec
  rw [if_neg hone] at hexec
  generalize hw : v.modBc die (fun b => { b with dones := b.dones ++ [node] }) = w at hexec
  have hvw : Chg { wts := true } v w := by
    rw [← hw]
    exact State.modBc_chg
  have hwb : mfind w.wts.bcs die = some { b with dones := b.dones ++ [node] } := by
    rw [← hw, State.bc_modBc, hvb]
    rfl
  refine ⟨fun hmore => ?_, fun hall => ?_⟩
  · rw [if_pos hmore] at hexec
    exact ⟨_, hexec, hwb, by rw [hvw.regs_eq, hsv.regs_eq]⟩
  · rw [if_neg (by omega)] at hexec
    obtain ⟨c, hc⟩ := Option.isSome_iff_exists.1 hrootc
    rw [hc] at hexec
    dsimp only at hexec
    refine ⟨_, hexec, ?_, ⟨{ b with dones := b.dones ++ [node], cmd := none, stopped := true, sending := false }, ?_, rfl⟩, fun c' hc' hs => ?_⟩
    · rw [State.modBc_chg.fld_eq, State.fld_setFld_eq _ (by decide) (by decide)]
    · rw [State.bc_modBc, Chg.setFld.wts_eq, State.event_chg.wts_eq, State.complete_chg.wts_eq, hwb]
      rfl
    · have hcc : c = c' := Option.some.inj (hc.symm.trans hc')
      subst hcc
      have hdone : Completed s (w.complete c 0x0200 0) c 0x0200 0 := by
        refine State.completed (by decide) ?_ ?_
        · rw [State.ringStopped, hvw.fld_eq, hsv.fld_eq]
          exact hs
        · rw [hvw.func_eq, hsv.func_eq]
      have hkept (x : State) : x.CplsKept (((x.event 0x02B0 8 0 [(8, b.tree.bcastId.toNat)]).setFld F.dmaBcstat_state die 3).modBc die fun b =>
          { b with cmd := none, stopped := true, sending := false }) := (State.CplsKept.event.trans (.of_chg .setFld)).trans (.of_chg State.modBc_chg)
      unfold Completed at hdone ⊢
      rw [hkept, hdone]

theorem execBcastAbortReceive_eq {s : State} {die : Fin 2} {b : Bc} (hb : mfind s.wts.bcs die = some b) (hnode : b.node ≠ 0) (hnew : b.msg ≠ 0x15)
    (hmsg : s.hasMsg 0x40 (·.says b.tree.bcastId (bcBytes noTree 0x15 [])) = true) :
    Yields (.bcastAbortReceive die b.tree.bcastId) s fun u =>
      u.fld F.dmaBcstat_state die = 4 ∧ u.ext = s.ext ∧ ∃ d, mfind u.wts.bcs die = some d ∧ d.stopped = true ∧ d.msg = 0x15 ∧ d.held = b.held := by
  have hexec : exec (.bcastAbortReceive die b.tree.bcastId) s = execBcastAbortReceive die b.tree.bcastId s := rfl
  unfold execBcastAbortReceive at hexec
  rw [State.onMsg_has hmsg] at hexec
  generalize hv : s.dropMsg 0x40 (·.says b.tree.bcastId (bcBytes noTree 0x15 [])) = v at hexec
  have hsv : Chg { fab := true } s v := by
    rw [← hv]
    exact State.dropMsg_chg
  have hvb : mfind v.wts.bcs die = some b := hsv.wts_eq ▸ hb
  have hvid : v.bcById die b.tree.bcastId = some b := by
    rw [State.bcById, hvb, Option.bind_some, if_pos rfl]
  rw [hvid] at hexec
  dsimp only at hexec
  rw [if_neg hnode, if_neg hnew] at hexec
  obtain ⟨d, hd, hmsgd, hheld⟩ := State.bcForward_msg (sub := 0x15) hvb
  refine ⟨_, hexec, ?_, ?_, { d with stopped := true }, ?_, rfl, hmsgd, hheld⟩
  · rw [State.modBc_chg.fld_eq, State.fld_setFld_eq _ (by decide) (by decide)]
  · rw [State.modBc_chg.ext_eq, Chg.setFld.ext_eq, State.bcLack_chg.ext_eq, State.bcForward_chg.ext_eq, hsv.ext_eq]
  · rw [State.bc_modBc, Chg.setFld.wts_eq, State.bcLack_chg.wts_eq, hd]
    rfl

/-- Settles O43. -/
theorem broadcastsEnd : Obligations.BroadcastsEnd := by
  unfold Obligations.BroadcastsEnd
  intro s die b hb modOf id fails
  exact ⟨fun hnode hopen hfail hdue => execBcastStall_eq hb hnode hopen hfail hdue, fun node hroot hmsg => execBcfailReceive_eq hb hroot hmsg,
    fun node hroot hnode hlt hdone hmsg => execBcastDoneReceive_eq hb hroot hnode hlt hdone hmsg,
    fun hnode hcmd hdue => execBcastTimeout_eq hb hnode hcmd hdue, fun hnode hnew hmsg => execBcastAbortReceive_eq hb hnode hnew hmsg⟩

end Sys2Proof.Machine
end

section
/-!
Weight tables, pointers, swaps and fences (R530 to R540, R556).
-/
namespace Sys2Proof.Machine
set_option Elab.async false

/-! ## WTABLE and WPTR (R530 to R532) -/

theorem words64_length (b : List Byte) (n : Nat) (h : b.length = 8 * n) : (words64 b).length = n := by
  rw [words64, List.length_map, cut, List.length_map, List.length_range, h]
  omega

/-- A command refused on arrival leaves the weights and the mirror. -/
theorem State.begins.refused {s : State} {i : Instr} {c : Cmd} {opcode status : Nat} {allFns : Bool} (h : s.begins i c opcode allFns) (hop : opcode ≠ 1)
    (hexec : exec i s = .next (((s.popCmd c).complete c opcode status).answerAll c.fn)) {P : State → Prop} (hP : ∀ u, Chg { fns := true } s u → P u) :
    Answers i c s fun u => Completed s u c opcode status ∧ P u :=
  ⟨_, hexec, h.completed hop, hP _ (State.popCmd_chg.via (State.complete_fns hop))⟩

theorem execWtable_eq {s : State} {c : Cmd} {region : BitVec 8} {addr : BitVec 64} (h : s.begins (.wtable c region addr) c 0x0201 false)
    (hr : (s.regionRec region.toNat).isSome = true) (ha : addr.toNat % 4096 = 0) :
    ((s.popCmd c).inGddr addr.toNat 4096 = true →
      Answers (.wtable c region addr) c s fun u =>
        Completed s u c 0x0201 0 ∧ mfind u.wts.areas region.toNat = some addr.toNat ∧ u.ext = s.ext) ∧
    ((s.popCmd c).inGddr addr.toNat 4096 = false →
      Answers (.wtable c region addr) c s fun u => Completed s u c 0x0201 0x0081 ∧ u.wts = s.wts) := by
  have hexec := h.exec_eq rfl
  have hrec : (s.popCmd c).regionRec region.toNat = s.regionRec region.toNat := rfl
  rw [if_neg (by rw [hrec, Option.isNone_eq_false_iff.2 hr, ha]; decide)] at hexec
  refine ⟨fun hin => ?_, fun hin => ?_⟩
  · rw [if_neg (by rw [hin]; decide)] at hexec
    refine ⟨_, hexec, h.completes (by decide) ?_ ?_, ?_, ?_⟩
    · exact s.ringStopped_popCmd c _
    · exact s.cpls_popCmd c _
    · rw [(State.complete_fns (by decide)).wts_eq]
      exact mfind_mput_same ..
    · rw [(State.complete_fns (by decide)).ext_eq]
      rfl
  · rw [if_pos (by rw [hin]; rfl)] at hexec
    exact h.refused (by decide) hexec fun u hu => hu.wts_eq

theorem execWptr_eq {s : State} {c : Cmd} {region first : BitVec 8} {count : BitVec 16} {addr : BitVec 64}
    (h : s.begins (.wptr c region first count addr) c 0x0202 false) :
    ((mfind s.wts.areas region.toNat = none ∨ 256 < first.toNat + count.toNat) →
      Answers (.wptr c region first count addr) c s fun u => Completed s u c 0x0202 0x0081 ∧ u.wts = s.wts) ∧
    ((mfind s.wts.areas region.toNat).isSome = true → 0 < count.toNat → first.toNat + count.toNat ≤ 256 →
      (s.popCmd c).fwPass 0 false addr.toNat (8 * count.toNat) = true → (s.popCmd c).twinPaired = false →
      ((∃ k < count.toNat, s.swapHolds region.toNat (first.toNat + k) = true) →
        Answers (.wptr c region first count addr) c s fun u => Completed s u c 0x0202 0x0085 ∧ u.wts = s.wts) ∧
      ((∀ k < count.toNat, s.swapHolds region.toNat (first.toNat + k) = false) →
        Answers (.wptr c region first count addr) c s fun u =>
          (u.func c.fn).cpls = (s.func c.fn).cpls ∧ u.ext = s.ext ∧
          u.wts.wptrs = s.wts.wptrs ++ [⟨some c, region.toNat, 0, first.toNat, words64 (rdBytes s.hostMem addr.toNat (8 * count.toNat))⟩])) := by
  have hexec := h.exec_eq rfl
  have hwts : (s.popCmd c).wts = s.wts := rfl
  have hmem : (s.popCmd c).hostMem = s.hostMem := rfl
  dsimp only at hexec
  rw [hwts, hmem] at hexec
  refine ⟨fun hbad => ?_, fun harea hn hmax hfw htwin => ?_⟩
  · rw [if_pos (by rwa [Option.isNone_iff_eq_none])] at hexec
    exact h.refused (by decide) hexec fun u hu => hu.wts_eq
  · have harea' := Option.isNone_eq_false_iff.2 harea
    rw [if_neg (by rw [harea']; simp only [Bool.false_eq_true, false_or]; omega), if_neg (by omega), if_neg (by rw [hfw]; decide),
      if_neg (by rw [htwin]; decide)] at hexec
    have hlen := words64_length (rdBytes s.hostMem addr.toNat (8 * count.toNat)) count.toNat (rdBytes_length ..)
    generalize words64 (rdBytes s.hostMem addr.toNat (8 * count.toNat)) = ptrs at hexec hlen ⊢
    have hheld : (List.range count.toNat).any (fun k => (s.popCmd c).swapHolds region.toNat (first.toNat + k)) = true ↔
        ∃ k < count.toNat, s.swapHolds region.toNat (first.toNat + k) = true := by
      rw [List.any_eq_true]
      exact exists_congr fun k => and_congr_left fun _ => List.mem_range
    have hin : ¬((mfind (s.popCmd c).wts.areas region.toNat).isNone = true ∨ 256 < first.toNat + ptrs.length) := by
      rw [hwts, harea', hlen]
      simp only [Bool.false_eq_true, false_or]
      omega
    refine ⟨fun hk => ?_, fun hk => ?_⟩
    · have htake : (s.popCmd c).takeWptr (some c) region.toNat first.toNat ptrs = (s.popCmd c, 0x0085) := by
        rw [State.takeWptr, if_neg hin, hlen, if_pos (hheld.2 hk)]
      rw [htake, if_neg (Nat.succ_ne_zero _)] at hexec
      exact h.refused (by decide) hexec fun u hu => hu.wts_eq
    · have hfree : ¬(List.range count.toNat).any (fun k => (s.popCmd c).swapHolds region.toNat (first.toNat + k)) = true := fun ha => by
        obtain ⟨k, hlt, hs⟩ := hheld.1 ha
        rw [hk k hlt] at hs
        cases hs
      have htake : (s.popCmd c).takeWptr (some c) region.toNat first.toNat ptrs =
          ((s.popCmd c).modWts fun w => { w with wptrs := w.wptrs ++ [⟨some c, region.toNat, 0, first.toNat, ptrs⟩] }, 0) := by
        rw [State.takeWptr, if_neg hin, hlen, if_neg hfree]
      rw [htake, if_pos rfl] at hexec
      exact ⟨_, hexec, s.cpls_popCmd c _, rfl, rfl⟩

/-! ## SWAP (R535 to R538) -/

theorem State.swapRegs_state {s : State} {w : SwapSt} {st : Nat → Nat} {r : Nat} (hr : r < 8) (hw : ∃ x ∈ w.units, x.region = r) (hst : st r < 2 ^ F.srvSwap_state.width) :
    (s.swapRegs w st).fld F.srvSwap_state r = st r := by
  have hone (v : State) (k a b : Nat) (hk : k < 8) (hkr : k ≠ r) :
      (((v.setFld F.srvSwap_state k (st k)).setFld F.srvSwap_units k a).setFld F.srvSwap_done k b).fld F.srvSwap_state r = v.fld F.srvSwap_state r := by
    rw [State.fld_setFld_index _ (by omega) (by omega) hkr.symm, State.fld_setFld_index _ (by omega) (by omega) hkr.symm,
      State.fld_setFld_index _ (by omega) (by omega) hkr.symm]
  have hmine : ¬(w.units.filter fun u => u.region == r).isEmpty = true := by
    obtain ⟨x, hx, hxr⟩ := hw
    rw [List.isEmpty_iff]
    exact List.ne_nil_of_mem (List.mem_filter.2 ⟨hx, by rw [hxr]; exact beq_self_eq_true r⟩)
  have hall (l : List Nat) (hl : ∀ k ∈ l, k < 8) (v : State) (h : r ∈ l ∨ v.fld F.srvSwap_state r = st r) :
      (l.foldl (fun s r =>
        let mine := w.units.filter fun u => u.region == r
        if mine.isEmpty then s
        else ((s.setFld F.srvSwap_state r (st r)).setFld F.srvSwap_units r mine.length).setFld F.srvSwap_done r (mine.filter (·.done)).length) v).fld
          F.srvSwap_state r = st r := by
    induction l generalizing v with
    | nil => exact h.resolve_left (List.not_mem_nil)
    | cons k l ih =>
      refine ih (fun k hk => hl k (List.mem_cons_of_mem _ hk)) _ ?_
      dsimp only
      by_cases hkr : k = r
      · subst hkr
        rw [if_neg hmine, State.fld_setFld_bits _ (by decide), State.fld_setFld_bits _ (by decide), State.fld_setFld_eq _ (by decide) hst]
        exact .inr rfl
      · refine h.imp (fun h => (List.mem_cons.1 h).resolve_left (Ne.symm hkr)) fun h => ?_
        split
        · exact h
        · rw [hone _ _ _ _ (hl k List.mem_cons_self) hkr, h]
  exact hall _ (fun k hk => List.mem_range.1 hk) s (.inl (List.mem_range.2 hr))

theorem State.takeSwap_fails {s : State} {cmd : Option Cmd} {n : Nat} {us : List SwapUnit} (h : (s.takeSwap cmd n us).2 ≠ 0) : (s.takeSwap cmd n us).1 = s := by
  unfold State.takeSwap at h ⊢
  extract_lets chans fits w at h ⊢
  split_ifs at h ⊢
  · rfl
  · rfl
  · rfl
  · rfl
  · exact absurd rfl h

theorem State.takeSwap_begins {s : State} {cmd : Option Cmd} {n : Nat} {us : List SwapUnit} (h : (s.takeSwap cmd n us).2 = 0) :
    (s.takeSwap cmd n us).1 = (s.modWts fun x => { x with swap := some ⟨cmd, us, n, none, none⟩ }).swapRegs ⟨cmd, us, n, none, none⟩ fun _ => 1 := by
  unfold State.takeSwap at h ⊢
  extract_lets chans fits w at h ⊢
  split_ifs at h ⊢
  rfl

theorem execSwap_eq {s : State} {c : Cmd} {addr : BitVec 64} {units : BitVec 16} {perStep : BitVec 8} (h : s.begins (.swap c addr units perStep) c 0x0203 false)
    {b : List Byte} (hb : rdBytes s.hostMem addr.toNat (16 * units.toNat) = b) {us : List SwapUnit} (hus : (cut 16 b).map swapUnitOf = us) :
    (s.mode.swap = 1 → Answers (.swap c addr units perStep) c s fun u => Completed s u c 0x0203 0x0086 ∧ u.wts = s.wts) ∧
    (s.mode.swap ≠ 1 →
      (s.wts.swap.isSome = true → Answers (.swap c addr units perStep) c s fun u => Completed s u c 0x0203 0x0083 ∧ u.wts = s.wts) ∧
      (s.wts.swap = none → (s.popCmd c).fwPass 0 false addr.toNat (16 * units.toNat) = true → (s.popCmd c).swapLies us = false → (s.popCmd c).twinPaired = false →
        Answers (.swap c addr units perStep) c s fun u => Completed s u c 0x0203 0x0081 ∧ u.wts = s.wts) ∧
      (s.wts.swap = none → (s.popCmd c).fwPass 0 false addr.toNat (16 * units.toNat) = true → 0 < units.toNat → units.toNat ≤ 256 → 0 < perStep.toNat →
        perStep.toNat ≤ 16 → (∀ e ∈ cut 16 b, leAt e 2 2 = 0 ∧ leAt e 4 4 % 64 = 0) → (s.popCmd c).twinPaired = false →
        (((s.popCmd c).takeSwap (some c) perStep.toNat us).2 ≠ 0 → Answers (.swap c addr units perStep) c s fun u =>
          Completed s u c 0x0203 ((s.popCmd c).takeSwap (some c) perStep.toNat us).2 ∧ u.wts = s.wts) ∧
        (((s.popCmd c).takeSwap (some c) perStep.toNat us).2 = 0 → Answers (.swap c addr units perStep) c s fun u =>
          (u.func c.fn).cpls = (s.func c.fn).cpls ∧ u.ext = s.ext ∧
          u.wts.swap = some ⟨some c, us, perStep.toNat, none, none⟩ ∧
          ∀ r < 8, (∃ x ∈ us, x.region = r) → u.fld F.srvSwap_state r = 1))) := by
  have hexec := h.exec_eq rfl
  have hmode : (s.popCmd c).mode = s.mode := rfl
  have hwts : (s.popCmd c).wts = s.wts := rfl
  have hmem : (s.popCmd c).hostMem = s.hostMem := rfl
  dsimp only at hexec
  rw [hmode, hwts, hmem, hb, hus] at hexec
  refine ⟨fun hm => ?_, fun hm => ⟨fun hsw => ?_, fun hsw hfw hlies htwin => ?_, fun hsw hfw hn hmax hp hpmax hall htwin => ?_⟩⟩
  · rw [if_pos hm] at hexec
    exact h.refused (by decide) hexec fun u hu => hu.wts_eq
  · rw [if_neg hm, if_pos hsw] at hexec
    exact h.refused (by decide) hexec fun u hu => hu.wts_eq
  · rw [if_neg hm, if_neg (by rw [hsw]; decide), if_neg (by rw [hfw]; decide), hlies, if_neg (by decide : ¬false = true),
      if_neg (by rw [htwin]; decide : ¬(s.popCmd c).twinPaired = true)] at hexec
    have htake : (s.popCmd c).takeSwap (some c) perStep.toNat us = (s.popCmd c, 0x0081) := by
      unfold State.takeSwap
      rw [hwts, if_neg (by rw [hsw]; decide), hlies]
      rfl
    rw [htake, if_neg (Nat.succ_ne_zero _), ite_self] at hexec
    exact h.refused (by decide) hexec fun u hu => hu.wts_eq
  · have hgood : ¬(decide (units.toNat = 0 ∨ 256 < units.toNat ∨ perStep.toNat = 0 ∨ 16 < perStep.toNat) ||
        (cut 16 b).any fun e => leAt e 2 2 != 0 || leAt e 4 4 % 64 != 0) = true := by
      rw [Bool.not_eq_true, Bool.or_eq_false_iff, decide_eq_false_iff_not, List.any_eq_false]
      refine ⟨by omega, fun e he => ?_⟩
      obtain ⟨h1, h2⟩ := hall e he
      rw [h1, h2]
      decide
    rw [if_neg hm, if_neg (by rw [hsw]; decide), if_neg (by rw [hfw]; decide), if_neg hgood, if_neg (by rw [htwin]; decide)] at hexec
    refine ⟨fun hst => ?_, fun hst => ?_⟩
    · rw [if_neg hst, State.takeSwap_fails hst] at hexec
      exact h.refused (by decide) hexec fun u hu => hu.wts_eq
    · rw [if_pos hst, State.takeSwap_begins hst] at hexec
      refine ⟨_, hexec, ?_, ?_, ?_, fun r hr hx => State.swapRegs_state hr hx (by decide)⟩
      · rw [State.swapRegs_chg.func_eq]
        exact s.cpls_popCmd c _
      · rw [State.swapRegs_chg.ext_eq]
        rfl
      · rw [State.swapRegs_chg.wts_eq]
        rfl

/-! ## The copies of a swap (R537) -/

theorem execSwapCopy_eq {s : State} {w : SwapSt} (hw : s.wts.swap = some w) (hc : w.copyEnd = none) (hdue : ∀ r, s.firstServing = some r → s.swapDue r = true)
    (hidle : s.firstServing = none → s.anyInv = false ∧ w.group.isEmpty = false ∧ s.swapPassed w = false) :
    Yields .swapCopy s fun u =>
      u.wts.swap = some { w with copied := s.firstServing.map (fun r => (s.region r).t0), copyEnd := some (s.cnt + s.copyTime w.group) } ∧ u.ext = s.ext := by
  have hexec : exec .swapCopy s = execSwapCopy s := rfl
  unfold execSwapCopy at hexec
  rw [hw] at hexec
  dsimp only at hexec
  have hgo : ∀ due : Bool, due = true → ¬(w.copyEnd.isSome = true ∨ (!due) = true) := by
    intro due hd
    rw [hc, hd]
    decide
  have hyield (due : Bool) (hd : due = true)
      (he : exec .swapCopy s = .next (if w.copyEnd.isSome ∨ !due then s
        else (s.modWts fun x => { x with swap := some { w with copied := s.firstServing.map fun r => (s.region r).t0, copyEnd := some (s.cnt + s.copyTime w.group) } }).swapRegs
          { w with copied := s.firstServing.map fun r => (s.region r).t0, copyEnd := some (s.cnt + s.copyTime w.group) }
          fun r => if w.group.any fun u => u.region == r then 2 else 1)) :
      Yields .swapCopy s fun u =>
        u.wts.swap = some { w with copied := s.firstServing.map (fun r => (s.region r).t0), copyEnd := some (s.cnt + s.copyTime w.group) } ∧ u.ext = s.ext := by
    rw [if_neg (hgo due hd)] at he
    exact ⟨_, he, by rw [State.swapRegs_chg.wts_eq]; rfl, by rw [State.swapRegs_chg.ext_eq]; rfl⟩
  cases hf : s.firstServing with
  | some r =>
    rw [hf] at hexec hyield
    exact hyield _ (hdue r hf) hexec
  | none =>
    rw [hf] at hexec hyield
    obtain ⟨h1, h2, h3⟩ := hidle hf
    exact hyield _ (by rw [h1, h2, h3]; rfl) hexec

theorem State.CplsKept.suspect {s : State} {n : Nat} {ev : Bool} : s.CplsKept (s.suspect n ev) :=
  .ite .refl (.ite (.trans (.of_chg .setFld) .event) (.of_chg .setFld))

theorem State.CplsKept.straggler {s : State} {n : Nat} : s.CplsKept (s.straggler n) :=
  .ite (.trans (.of_chg .satAdd) .suspect) (.of_chg .satAdd)

theorem State.CplsKept.barrierDone {s : State} {L : LaunchSt} {last : Nat} : s.CplsKept (s.barrierDone L last) := by
  have hnext (v : State) (r k : Nat) : v.CplsKept (v.nextStepAt r k) := by
    unfold State.nextStepAt
    exact .trans (.ite .event .refl) (.of_chg .modRegion)
  have hmod : s.CplsKept ((s.modLaunch L.tree.launchId fun L => { L with arrivals := [], firstArr := none }).straggler last) :=
    .trans (.of_chg State.modLaunch_chg) .straggler
  unfold State.barrierDone
  exact .ite (((hmod.trans (.of_chg State.sendRelease_chg)).trans (.of_chg .modRegion)).trans (.of_chg State.releaseAt_chg))
    ((hmod.trans (.of_chg State.forward_chg)).trans (hnext _ _ _))

theorem State.CplsKept.tryArrive {s : State} {r : Nat} : s.CplsKept (s.tryArrive r) := by
  have htake (v : State) (L : LaunchSt) (n : Nat) : v.CplsKept (v.takeArrival L n) :=
    .ite .refl (.ite .barrierDone (.of_chg State.modLaunch_chg))
  have harrive : s.CplsKept (s.arrive r) := by
    unfold State.arrive
    split
    · exact .refl
    · exact .ite (.trans (.of_chg .modRegion) (htake _ _ _)) (.trans (.trans (.of_chg .modRegion) (.of_chg State.toNode_chg)) (.of_chg .modFab))
  unfold State.tryArrive
  split
  · exact .refl
  · exact .ite harrive .refl

theorem State.copyUnit_ext {s : State} (x : SwapUnit) :
    (s.copyUnit x).ext = wrBytes s.ext (s.curPtr x.region x.layer) (rdBytes s.ext x.src x.bytes) := by
  have hcur (v : State) (he : v.ext = s.ext) (hw : v.wts = s.wts) : v.curPtr x.region x.layer = s.curPtr x.region x.layer := by
    simp only [State.curPtr, State.ptrBuf, he, hw]
  unfold State.copyUnit
  extract_lets v
  have hv : Chg { occ := true, chans := true } s v := .via (.via .refl State.rangeBusy_chg) State.rangeBusy_chg
  rw [State.event_chg.ext_eq]
  dsimp only
  rw [hcur v hv.ext_eq hv.wts_eq, hv.ext_eq]

theorem execSwapCopyEnd_eq {s : State} {w : SwapSt} (hw : s.wts.swap = some w) {t : Nat} (hc : w.copyEnd = some t) (ht : t ≤ s.cnt) {w' : SwapSt}
    (hw' : w' = { w with copyEnd := none, units := markDone w.group.length w.units }) :
    Yields .swapCopyEnd s fun u =>
      u.wts.swap = (if w'.group.isEmpty then none else some w') ∧
      (∀ x, w.group = [x] → memWf s.ext = true → Stored s.ext u.ext (s.curPtr x.region x.layer) (rdBytes s.ext x.src x.bytes)) ∧
      (∀ d, w'.group.isEmpty = true → w.cmd = some d → d.fn < 16 → s.ringStopped d.fn = false →
        (⟨0, d.tag, 0x0203, d.index, d.irq, 0, none⟩ : Cpl) ∈ (u.func d.fn).cpls) := by
  have hexec : exec .swapCopyEnd s = execSwapCopyEnd s := rfl
  unfold execSwapCopyEnd at hexec
  rw [hw] at hexec
  dsimp only at hexec
  rw [hc] at hexec
  dsimp only at hexec
  rw [if_neg (by omega), ← hw'] at hexec
  generalize hv : w.group.foldl (fun s u => s.copyUnit u) s = v at hexec
  have hsv : Chg { occ := true, chans := true, ext := true, fns := true, regs := true } s v := by
    rw [← hv]
    exact .foldl (fun _ _ => State.copyUnit_chg) _ .refl
  have hsvregs : RegsKept [.hstEvstat] s v := by
    have hcopy (v : State) (x : SwapUnit) : RegsKept [.hstEvstat] v (v.copyUnit x) := by
      have hext (v : State) (m : List Host.Cell) : RegsKept [.hstEvstat] v { v with ext := m } := .plain
      have hbusy (v : State) (a n : Nat) : RegsKept [.hstEvstat] v (v.rangeBusy a n) := .of_chg State.rangeBusy_chg
      unfold State.copyUnit
      exact (((hbusy _ _ _).trans (hbusy _ _ _)).trans (hext _ _)).trans (.event (by decide))
    rw [← hv]
    exact .foldl (fun v x => hcopy v x) _ .refl
  generalize hx : (v.modWts fun x => { x with swap := if w'.group.isEmpty then none else some w', copyDone := v.cnt }).swapRegs w'
    (fun _ => if w'.group.isEmpty then 0 else 1) = x at hexec
  have hxswap : x.wts.swap = if w'.group.isEmpty then none else some w' := by
    rw [← hx, State.swapRegs_chg.wts_eq]
    rfl
  have hxchg : Chg { regs := true, wts := true } v x := by
    rw [← hx]
    exact .via (.via .refl .modWts) State.swapRegs_chg
  have hxregs : RegsKept [.srvSwap] v x := by
    rw [← hx]
    unfold State.swapRegs
    have hone (l : List Nat) (hl : ∀ r ∈ l, r < 8) (y : State) : RegsKept [.srvSwap] y (l.foldl (fun s r =>
        let mine := w'.units.filter fun u => u.region == r
        if mine.isEmpty then s
        else ((s.setFld F.srvSwap_state r (if w'.group.isEmpty then 0 else 1)).setFld F.srvSwap_units r mine.length).setFld F.srvSwap_done r
          (mine.filter (·.done)).length) y) := by
      induction l generalizing y with
      | nil => exact .refl
      | cons r l ih =>
        have hr : r < 2 ^ 32 := by
          have := hl r List.mem_cons_self
          omega
        exact RegsKept.trans (.ite .refl (((RegsKept.setFld hr (by decide)).trans (.setFld hr (by decide))).trans (.setFld hr (by decide))))
          (ih (fun k hk => hl k (List.mem_cons_of_mem _ hk)) _)
    exact (RegsKept.of_chg .modWts).trans (hone _ (fun r hr => List.mem_range.1 hr) _)
  have harr (y : State) : Chg { regions := true, fab := true, regs := true, fns := true, links := true, park := true } y
      ((List.range 8).foldl (fun s r => s.tryArrive r) y) := .foldl (fun _ _ => State.tryArrive_chg) _ .refl
  have harrc (y : State) : y.CplsKept ((List.range 8).foldl (fun s r => s.tryArrive r) y) := .foldl (fun _ _ => .tryArrive) _ .refl
  have hends (y : State) (hy : exec .swapCopyEnd s = .next ((List.range 8).foldl (fun s r => s.tryArrive r) y)) (hyx : Chg { fns := true } x y)
      (hcpl : ∀ d, w'.group.isEmpty = true → w.cmd = some d → d.fn < 16 → s.ringStopped d.fn = false →
        (⟨0, d.tag, 0x0203, d.index, d.irq, 0, none⟩ : Cpl) ∈ (y.func d.fn).cpls) :
      Yields .swapCopyEnd s fun u =>
        u.wts.swap = (if w'.group.isEmpty then none else some w') ∧
        (∀ x, w.group = [x] → memWf s.ext = true → Stored s.ext u.ext (s.curPtr x.region x.layer) (rdBytes s.ext x.src x.bytes)) ∧
        (∀ d, w'.group.isEmpty = true → w.cmd = some d → d.fn < 16 → s.ringStopped d.fn = false →
          (⟨0, d.tag, 0x0203, d.index, d.irq, 0, none⟩ : Cpl) ∈ (u.func d.fn).cpls) := by
    refine ⟨_, hy, ?_, fun q hq hmem => ?_, fun d he hd hfn hs => ?_⟩
    · rw [(harr y).wts_eq, hyx.wts_eq, hxswap]
    · rw [(harr y).ext_eq, hyx.ext_eq, hxchg.ext_eq, ← hv, hq]
      show Stored s.ext (s.copyUnit q).ext _ _
      rw [State.copyUnit_ext]
      exact stored_wrBytes _ _ hmem
    · rw [harrc]
      exact hcpl d he hd hfn hs
  rcases Bool.eq_false_or_eq_true w'.group.isEmpty with he | he
  · obtain hcmd | ⟨c, hcmd⟩ : w.cmd = none ∨ ∃ c, w.cmd = some c := by
      cases w.cmd with
      | none => exact .inl rfl
      | some c => exact .inr ⟨c, rfl⟩
    · rw [he, hcmd] at hexec
      refine hends x hexec .refl fun d _ h => ?_
      rw [hcmd] at h
      cases h
    · rw [he, hcmd] at hexec
      refine hends (x.complete c 0x0203 0) hexec (State.complete_fns (by decide)) fun d _ h hfn hs => ?_
      have hcd : c = d := Option.some.inj (hcmd.symm.trans h)
      subst hcd
      have hstop : x.ringStopped c.fn = false := by
        rw [State.ringStopped_kept hxregs (by omega) (by decide), State.ringStopped_kept hsvregs (by omega) (by decide), hs]
      have hdone : Completed x (x.complete c 0x0203 0) c 0x0203 0 := State.completed (by decide) hstop rfl
      rw [hdone]
      exact List.mem_append_right _ (List.mem_singleton.2 rfl)
  · rw [he] at hexec
    refine hends x hexec .refl fun d h => ?_
    rw [he] at h
    cases h

/-! ## Fences (R539, R540, R556) -/

theorem State.mirSend_mem {s : State} {type : Nat} {args : List Nat} {body : List Byte} (h : s.mirUp ≠ []) :
    (⟨s.mode.partner, type, 0, args⟩ : Msg) ∈ (s.mirSend type args body).fab.sent := by
  have hqueue (p : Nat) (l : List Packet) (u : State) : (l.foldl (fun s k => s.queueOn p k) u).fab = u.fab :=
    Chg.fab_eq (P := { links := true }) (.foldl (fun _ _ => State.queueOn_chg) l .refl)
  unfold State.mirSend
  cases hm : s.mirUp with
  | nil => exact absurd hm h
  | cons p l =>
    dsimp only
    rw [hqueue]
    exact List.mem_append_right _ (List.mem_singleton.2 rfl)

theorem State.beginHand_leader {s : State} {r : Nat} {rids : List (BitVec 32)} (h : s.leader = true) :
    (s.beginHand r rids).mir.handover = some (s.handStep r) ∧ (s.beginHand r rids).mir.giving = true ∧ (s.beginHand r rids).mir.giveRids = rids ∧
    (s.mirUp ≠ [] → (⟨s.mode.partner, 0x50, 0, handItems (s.handStep r) (fenceMark :: rids)⟩ : Msg) ∈ (s.beginHand r rids).fab.sent) := by
  unfold State.beginHand
  rw [if_pos h]
  exact ⟨rfl, rfl, rfl, fun hm => State.mirSend_mem hm⟩

theorem State.beginHand_follower {s : State} {r : Nat} {rids : List (BitVec 32)} (h : s.leader = false) :
    (s.beginHand r rids).mir.handover = none ∧ (s.beginHand r rids).mir.giving = false ∧ (s.beginHand r rids).mir.giveRids = rids ∧
    (s.mirUp ≠ [] → (⟨s.mode.partner, 0x50, 0, handItems askStep [fenceMark]⟩ : Msg) ∈ (s.beginHand r rids).fab.sent) := by
  unfold State.beginHand
  rw [if_neg (by rw [h]; decide)]
  exact ⟨rfl, rfl, rfl, fun hm => State.mirSend_mem hm⟩

theorem State.fencing_engs (es : List Nat) (s : State) (e : Nat) (h : e ∈ es ∨ (s.eng e).fencedOut = true) :
    ((es.foldl (fun s e => s.modEng e fun g => { g with fencedOut := true }) s).eng e).fencedOut = true := by
  induction es generalizing s with
  | nil => exact h.resolve_left List.not_mem_nil
  | cons k es ih =>
    refine ih _ ?_
    by_cases hk : e = k
    · rw [hk, State.modEng_same]
      exact .inr rfl
    · rw [State.modEng_ne _ _ _ hk]
      exact h.imp_left fun h => (List.mem_cons.1 h).resolve_left hk

theorem execFenceOut_eq {s : State} {c : Cmd} {region : BitVec 8} (h : s.begins (.fenceOut c region) c 0x0204 false) {rids : List (BitVec 32)}
    (hrids : ((s.popCmd c).liveOf region.toNat).map (fun x => x.2.2.rid) = rids) :
    (s.mode.swap = 0 → Answers (.fenceOut c region) c s fun u => Completed s u c 0x0204 0x0086 ∧ u.mir = s.mir) ∧
    (s.mode.swap ≠ 0 → ((s.popCmd c).served region.toNat).isEmpty = true ∨ (s.popCmd c).pairState ≠ 4 ∨ region.toNat ∈ s.wts.fenced ∨ (s.popCmd c).handing = true →
      Answers (.fenceOut c region) c s fun u => Completed s u c 0x0204 0x0087 ∧ u.mir = s.mir) ∧
    (s.mode.swap ≠ 0 → ((s.popCmd c).served region.toNat).isEmpty = false → (s.popCmd c).pairState = 4 → region.toNat ∉ s.wts.fenced → (s.popCmd c).handing = false →
      (s.popCmd c).twinPaired = false →
      Answers (.fenceOut c region) c s fun u =>
        (u.func c.fn).cpls = (s.func c.fn).cpls ∧ u.mir.giveRids = rids ∧ u.mir.fencing = true ∧ u.wts.fenced = s.wts.fenced ++ [region.toNat] ∧
        (∀ e ∈ (s.popCmd c).served region.toNat, (u.eng e).fencedOut = true) ∧
        ((s.popCmd c).leader = true → u.mir.handover = some ((s.popCmd c).handStep region.toNat) ∧ u.mir.giving = true ∧
          (s.mirUp ≠ [] → (⟨s.mode.partner, 0x50, 0, handItems ((s.popCmd c).handStep region.toNat) (fenceMark :: rids)⟩ : Msg) ∈ u.fab.sent)) ∧
        ((s.popCmd c).leader = false → u.mir.handover = none ∧ u.mir.giving = false ∧
          (s.mirUp ≠ [] → (⟨s.mode.partner, 0x50, 0, handItems askStep [fenceMark]⟩ : Msg) ∈ u.fab.sent))) := by
  have hexec := h.exec_eq rfl
  have hmode : (s.popCmd c).mode = s.mode := rfl
  have hwts : (s.popCmd c).wts = s.wts := rfl
  dsimp only at hexec
  rw [hmode, hwts] at hexec
  refine ⟨fun hm => ?_, fun hm hbad => ?_, fun hm hserved hpair hnot hhand htwin => ?_⟩
  · rw [if_pos hm] at hexec
    exact h.refused (by decide) hexec fun u hu => hu.mir_eq
  · rw [if_neg hm, if_pos (by rwa [List.contains_iff_mem])] at hexec
    exact h.refused (by decide) hexec fun u hu => hu.mir_eq
  · rw [if_neg hm, if_neg (by rw [hserved, hhand, hpair, List.contains_iff_mem]; simp [hnot]), if_neg (by rw [htwin]; decide), State.fenceBegins] at hexec
    rw [hrids] at hexec
    generalize hv : ((s.popCmd c).served region.toNat).foldl (fun s e => s.modEng e fun g => { g with fencedOut := true }) (s.popCmd c) = v at hexec
    have hpv : Chg { engs := true } (s.popCmd c) v := by
      rw [← hv]
      exact .foldl (fun _ _ => .modEng) _ .refl
    have hsv : Chg { engs := true, fns := true } s v := .trans (.mono State.popCmd_chg) (.mono hpv)
    have hvstep : v.handStep region.toNat = (s.popCmd c).handStep region.toNat := by
      rw [State.handStep, State.curStep, hpv.region_eq]
      rfl
    have hvmode : v.mode = s.mode := by rw [State.mode, hsv.img_eq, State.mode]
    have hvup : v.mirUp = s.mirUp := by
      have hfld (f : Fld) (i : Nat) : v.fld f i = s.fld f i := hsv.fld_eq ..
      simp only [State.mirUp, State.mirPorts, State.portState, State.portRole, hfld]
    have hvlead : v.leader = (s.popCmd c).leader := by
      rw [State.leader, State.ownId, hpv.fld_eq, State.mode, hpv.img_eq]
      rfl
    have hengs (e : Nat) (he : e ∈ (s.popCmd c).served region.toNat) : ((v.beginHand region.toNat rids).eng e).fencedOut = true := by
      rw [State.beginHand_chg.eng_eq, ← hv]
      exact State.fencing_engs _ _ _ (.inl he)
    have hcpl : ((v.beginHand region.toNat rids).func c.fn).cpls = (s.func c.fn).cpls := by
      rw [State.beginHand_chg.func_eq, hpv.func_eq]
      exact s.cpls_popCmd c _
    have hfenced : (v.beginHand region.toNat rids).wts.fenced = s.wts.fenced := by
      rw [State.beginHand_chg.wts_eq, hsv.wts_eq]
    have hgive : (v.beginHand region.toNat rids).mir.giveRids = rids := by
      rcases Bool.eq_false_or_eq_true v.leader with hl | hl
      · exact (State.beginHand_leader hl).2.2.1
      · exact (State.beginHand_follower hl).2.2.1
    have hlead (hl : (s.popCmd c).leader = true) : (v.beginHand region.toNat rids).mir.handover = some ((s.popCmd c).handStep region.toNat) ∧
        (v.beginHand region.toNat rids).mir.giving = true ∧ (s.mirUp ≠ [] →
          (⟨s.mode.partner, 0x50, 0, handItems ((s.popCmd c).handStep region.toNat) (fenceMark :: rids)⟩ : Msg) ∈ (v.beginHand region.toNat rids).fab.sent) := by
      obtain ⟨h1, h2, -, h3⟩ := State.beginHand_leader (r := region.toNat) (rids := rids) (hvlead.trans hl)
      rw [hvstep] at h1
      rw [hvup, hvmode, hvstep] at h3
      exact ⟨h1, h2, h3⟩
    have hfollow (hl : (s.popCmd c).leader = false) : (v.beginHand region.toNat rids).mir.handover = none ∧
        (v.beginHand region.toNat rids).mir.giving = false ∧ (s.mirUp ≠ [] →
          (⟨s.mode.partner, 0x50, 0, handItems askStep [fenceMark]⟩ : Msg) ∈ (v.beginHand region.toNat rids).fab.sent) := by
      obtain ⟨h1, h2, -, h3⟩ := State.beginHand_follower (r := region.toNat) (rids := rids) (hvlead.trans hl)
      rw [hvup, hvmode] at h3
      exact ⟨h1, h2, h3⟩
    generalize v.beginHand region.toNat rids = z at hexec hengs hcpl hfenced hgive hlead hfollow
    exact ⟨_, hexec, hcpl, hgive, rfl, congrArg (· ++ [region.toNat]) hfenced, hengs, hlead, hfollow⟩

/-- What the state of a pair leaves when it changes: nothing is handed over or fenced any more. -/
theorem State.abandon_wts {s : State} :
    s.abandon.wts = { s.wts with fenceCmd := [], fenced := s.wts.fenced.filter fun r => !s.wts.fenceCmd.any fun f => f.1 == r } := by
  unfold State.abandon
  extract_lets act cmds s1 s2 open_ s3 s4
  have h3 : s3.wts = s2.wts := by
    unfold s3
    split <;> rfl
  have h4 : s4.wts = s3.wts := Chg.wts_eq (P := { fns := true, regs := true }) (.foldl (fun _ _ => .mono State.complete_chg) _ .refl)
  generalize act = a
  cases a with
  | none => exact h4.trans h3
  | some c => exact State.complete_chg.wts_eq.trans (h4.trans h3)

theorem State.setPair_state (s : State) (st : Nat) (hst : st < 2 ^ F.mirState_state.width) : (s.setPair st).pairState = st := by
  have hset (v : State) : ((v.setFld F.mirState_state 0 st).event 0x02C0 8 0 []).pairState = st := by
    rw [State.pairState, State.fld_event _ _ _ _ _ (by decide) (by decide), State.fld_setFld_eq _ (by decide) hst]
  unfold State.setPair
  split_ifs with h h7 h5
  · exact h
  · rw [State.pairState, State.freeMirror_chg.fld_eq]
    exact hset _
  · exact hset _
  · rw [State.pairState, State.freeMirror_chg.fld_eq]
    exact hset _
  · exact hset _

theorem State.setPair_fenceIn {s : State} {st : Nat} : (s.setPair st).wts.fenceIn = s.wts.fenceIn := by
  have habandon : (if st = 7 then s else s.abandon).wts.fenceIn = s.wts.fenceIn := by
    split_ifs
    · rfl
    · rw [State.abandon_wts]
  have hset (v : State) : ((v.setFld F.mirState_state 0 st).event 0x02C0 8 0 []).wts = v.wts := State.event_chg.wts_eq
  unfold State.setPair
  dsimp only
  generalize (if st = 7 then s else s.abandon) = v at habandon ⊢
  split_ifs
  · rfl
  · rw [State.freeMirror_chg.wts_eq, hset, habandon]
  · rw [hset, habandon]

/-- What a sync that begins leaves (R545, R556). -/
theorem State.startSync_fields (s : State) :
    s.startSync.pairState = 3 ∧ s.startSync.wts.fenceIn = s.wts.fenceIn ∧ RegsKept pairKinds s s.startSync := by
  unfold State.startSync
  dsimp only
  generalize hv : (s.setPair 3).modMir (fun m =>
    { m with handover := none, handRids := [], giveRids := [], giving := false, heard := false, cover := false }) = v
  generalize hw : [0, 1].foldl (fun s e => s.sendSync e) v = w
  have hvw : Chg { links := true, engs := true, fab := true } v w := by
    rw [← hw]
    exact .foldl (fun _ _ => State.sendSync_chg) _ .refl
  have hsv : v.pairState = 3 ∧ v.wts.fenceIn = s.wts.fenceIn ∧ RegsKept pairKinds s v := by
    rw [← hv]
    exact ⟨s.setPair_state 3 (by decide), State.setPair_fenceIn, RegsKept.setPair.trans (.of_chg .modMir)⟩
  obtain ⟨h1, h2, h3⟩ := hsv
  have hends (u : State) (hwu : Chg { fab := true, links := true, mir := true } w u) : u.pairState = 3 ∧ u.wts.fenceIn = s.wts.fenceIn ∧ RegsKept pairKinds s u := by
    refine ⟨?_, ?_, (h3.trans (.of_chg hvw)).trans (.of_chg hwu)⟩
    · rw [State.pairState, hwu.fld_eq, hvw.fld_eq]
      exact h1
    · rw [hwu.wts_eq, hvw.wts_eq, h2]
  split_ifs
  · exact hends _ State.handBack_chg
  · exact hends _ (.mono State.sendHandover_chg)

theorem execFenceIn_eq {s : State} {c : Cmd} {region : BitVec 8} (h : s.begins (.fenceIn c region) c 0x0205 false) :
    (region.toNat ∉ s.wts.fenced ∨ (s.popCmd c).pairState ≠ 7 →
      Answers (.fenceIn c region) c s fun u => Completed s u c 0x0205 0x0087 ∧ u.mir = s.mir) ∧
    (region.toNat ∈ s.wts.fenced → (s.popCmd c).pairState = 7 → s.mode.mirror = 2 →
      Answers (.fenceIn c region) c s fun u =>
        (u.func c.fn).cpls = (s.func c.fn).cpls ∧ u.engs = s.engs ∧ u.wts = s.wts ∧
        ∃ t, u.mir.twins = s.mir.twins ++ [t] ∧ t.kind = 0x0205 ∧ t.cmd = c ∧ t.fromPartner = false) ∧
    (region.toNat ∈ s.wts.fenced → (s.popCmd c).pairState = 7 → s.mode.mirror ≠ 2 →
      Answers (.fenceIn c region) c s fun u =>
        u.pairState = 3 ∧ u.fld F.srvSwap_state region.toNat = 4 ∧ mfind u.wts.fenceIn region.toNat = some c) := by
  have hexec := h.exec_eq rfl
  have hmode : (s.popCmd c).mode = s.mode := rfl
  have hwts : (s.popCmd c).wts = s.wts := rfl
  have hlt := region.isLt
  dsimp only at hexec
  rw [hwts, hmode] at hexec
  have hgood (hf : region.toNat ∈ s.wts.fenced) (hp : (s.popCmd c).pairState = 7) :
      ¬((!s.wts.fenced.contains region.toNat) = true ∨ (s.popCmd c).pairState ≠ 7) := by
    rw [List.contains_iff_mem.2 hf, hp]
    decide
  refine ⟨fun hbad => ?_, fun hf hp hm => ?_, fun hf hp hm => ?_⟩
  · rw [if_pos (by rwa [Bool.not_eq_true', ← Bool.not_eq_true, List.contains_iff_mem])] at hexec
    exact h.refused (by decide) hexec fun u hu => hu.mir_eq
  · rw [if_neg (hgood hf hp), if_pos hm] at hexec
    obtain ⟨t, ht, hsame⟩ := (s.popCmd c).twinForward_twins ⟨0x0205, c, region.toNat, 0, [], some [], (s.popCmd c).wall, false, 0, 0⟩
    obtain ⟨hkind, hcmd, -, -, hfrom⟩ := hsame
    refine ⟨_, hexec, ?_, ?_, ?_, t, ht, hkind, hcmd, hfrom⟩
    · rw [State.twinForward_chg.func_eq]
      exact s.cpls_popCmd c _
    · rw [State.twinForward_chg.engs_eq]
      rfl
    · rw [State.twinForward_chg.wts_eq]
      rfl
  · rw [if_neg (hgood hf hp), if_neg hm] at hexec
    obtain ⟨h1, h2, h3⟩ := State.startSync_fields (State.mirSend (((s.popCmd c).setFld F.srvSwap_state region.toNat 4).modWts fun w =>
      { w with fenceIn := mput w.fenceIn region.toNat c }) 0x50 [0x0006] (leBytes 2 6))
    refine ⟨_, hexec, h1, ?_, ?_⟩
    · rw [h3.fld _ _ (by omega) (by decide), State.mirSend_chg.fld_eq, Chg.modWts.fld_eq, State.fld_setFld_eq _ (by decide) (by decide)]
    · rw [h2, State.mirSend_chg.wts_eq]
      exact mfind_mput_same ..

/-- Settles O44. -/
theorem pointersAndSwaps : Obligations.PointersAndSwaps := by
  unfold Obligations.PointersAndSwaps
  intro s c p
  exact ⟨fun region addr h hr ha => execWtable_eq h hr ha, fun region first count addr h => execWptr_eq h, fun addr units perStep h => execSwap_eq h rfl rfl,
    fun w hw => ⟨fun hc hdue hidle => execSwapCopy_eq hw hc hdue hidle, fun t hc ht => execSwapCopyEnd_eq hw hc ht rfl⟩,
    fun region h => execFenceOut_eq h rfl, fun region h => execFenceIn_eq h⟩

end Sys2Proof.Machine
end

section
/-!
Pairs form, sync, hand over and part (R544 to R546, R556, R560).
-/
namespace Sys2Proof.Machine
set_option Elab.async false

/-! ## What a change of the pair's state keeps of the mirror -/

/-- What a pair knows of its partner and waits to tell the host, and its heartbeats. -/
def Mirrored (m : Mirror) : Option Hello × Option Cmd × List Query × Nat × Nat := (m.hello, m.joinCmd, m.queries, m.hbStep, m.hbLast)

theorem State.abandon_keeps {β : Type} {s : State} (f : Mirror → β) (hf : ∀ m : Mirror, f { m with
    updAct := none, updReady := false, handover := none, handRids := [], giveRids := [], giving := false, heard := false, cover := false
    fencing := false } = f m) : f s.abandon.mir = f s.mir := by
  unfold State.abandon
  extract_lets act cmds s1 s2 open_ s3 s4
  have h3 : s3.mir = s2.mir := by
    unfold s3
    split <;> rfl
  have h4 : s4.mir = s3.mir := Chg.mir_eq (P := { fns := true, regs := true }) (.foldl (fun _ _ => .mono State.complete_chg) _ .refl)
  have h2 : f s4.mir = f s.mir := by
    rw [h4, h3]
    exact hf s.mir
  generalize act = a
  cases a with
  | none => exact h2
  | some c => exact (congrArg f State.complete_chg.mir_eq).trans h2

theorem State.abandon_mirrored {s : State} : Mirrored s.abandon.mir = Mirrored s.mir := State.abandon_keeps Mirrored fun _ => rfl

theorem State.freeMirror_mirrored {s : State} : Mirrored s.freeMirror.mir = Mirrored s.mir := by
  have hpages (l : List (Nat × Nat × Nat × Nat)) (v : State) : (l.foldl (fun s q =>
      (s.modEng q.2.2.1 fun e => { e with pageCnt := pageDown e.pageCnt q.2.2.2 }).putCounts q.2.2.1 [q.2.2.2]) v).mir = v.mir :=
    Chg.mir_eq (P := { engs := true, ext := true }) (.foldl (fun _ _ => .via (.via .refl .modEng) State.putCounts_chg) _ .refl)
  unfold State.freeMirror
  dsimp only
  refine Eq.trans ?_ (congrArg Mirrored (hpages s.mir.pageMap s))
  rfl

theorem State.setPair_mirrored {s : State} {st : Nat} : Mirrored (s.setPair st).mir = Mirrored s.mir := by
  have hopen : Mirrored (if st = 7 then s else s.abandon).mir = Mirrored s.mir := by
    split_ifs
    · rfl
    · exact State.abandon_mirrored
  have hset (v : State) : ((v.setFld F.mirState_state 0 st).event 0x02C0 8 0 []).mir = v.mir := State.event_chg.mir_eq
  unfold State.setPair
  dsimp only
  generalize (if st = 7 then s else s.abandon) = v at hopen ⊢
  split_ifs
  · rfl
  · rw [State.freeMirror_mirrored, hset, hopen]
  · rw [hset, hopen]

theorem State.startSync_mirrored {s : State} : Mirrored s.startSync.mir = Mirrored s.mir := by
  unfold State.startSync
  dsimp only
  generalize hv : (s.setPair 3).modMir (fun m =>
    { m with handover := none, handRids := [], giveRids := [], giving := false, heard := false, cover := false }) = v
  have hsv : Mirrored v.mir = Mirrored s.mir := by
    rw [← hv]
    exact State.setPair_mirrored
  generalize hw : [0, 1].foldl (fun s e => s.sendSync e) v = w
  have hvw : w.mir = v.mir := by
    rw [← hw]
    exact Chg.mir_eq (P := { links := true, engs := true, fab := true }) (.foldl (fun _ _ => State.sendSync_chg) _ .refl)
  have hback (x : State) (k : Nat) : Mirrored (x.handBack k).mir = Mirrored x.mir := by
    have hsend (l : List (BitVec 32)) : (x.sendHandover k l).mir = x.mir := State.sendHandover_chg.mir_eq
    unfold State.handBack
    refine Eq.trans ?_ (congrArg Mirrored (hsend x.syncRids))
    rfl
  split_ifs
  · rw [hback, hvw, hsv]
  · rw [State.sendHandover_chg.mir_eq, hvw, hsv]

/-! ## HELLO (R544, R545) -/

theorem Chg.compatible_eq {P : Foot} {s u : State} (h : Chg P s u) (m : Hello) (hi : P.img = false := by rfl) (he : P.engs = false := by rfl) :
    u.compatible m = s.compatible m := by
  have heng (e : Nat) : u.eng e = s.eng e := h.eng_eq e he
  have hdig : u.pairDigest = s.pairDigest := by
    simp only [State.pairDigest, h.img_eq hi, heng]
  simp only [State.compatible, State.mode, h.img_eq hi, hdig]

theorem Chg.mode_eq {P : Foot} {s u : State} (h : Chg P s u) (hi : P.img = false := by rfl) : u.mode = s.mode := by
  rw [State.mode, h.img_eq hi, State.mode]

theorem State.judge_fields (s : State) (m : Hello) :
    (s.judge m).mir.hello = s.mir.hello ∧ (s.compatible m = false → (s.judge m).pairState = 2) ∧
    (s.compatible m = true → (s.judge m).pairState =
      if s.pairState = 1 ∨ s.pairState = 2 ∨ ((s.pairState = 5 ∨ s.pairState = 6) ∧ s.fld F.mirCtl_manual 0 = 0) then 3 else s.pairState) := by
  have hset : (((s.setPair 2).event 0x02C1 8 0 [])).mir.hello = s.mir.hello ∧ ((s.setPair 2).event 0x02C1 8 0 []).pairState = 2 := by
    refine ⟨?_, ?_⟩
    · rw [State.event_chg.mir_eq]
      exact congrArg Prod.fst State.setPair_mirrored
    · rw [State.pairState, State.fld_event _ _ _ _ _ (by decide) (by decide)]
      exact s.setPair_state 2 (by decide)
  have hsync : s.startSync.mir.hello = s.mir.hello ∧ s.startSync.pairState = 3 := ⟨congrArg Prod.fst State.startSync_mirrored, s.startSync_fields.1⟩
  unfold State.judge
  dsimp only
  rcases Bool.eq_false_or_eq_true (s.compatible m) with hc | hc
  · rw [hc, if_neg (by decide)]
    by_cases h1 : s.pairState = 1 ∨ s.pairState = 2
    · rw [if_pos h1]
      refine ⟨hsync.1, fun h => (by cases h), fun _ => ?_⟩
      rw [if_pos (h1.imp_right .inl)]
      exact hsync.2
    · rw [if_neg h1]
      by_cases h5 : (s.pairState = 5 ∨ s.pairState = 6) ∧ s.fld F.mirCtl_manual 0 = 0
      · rw [if_pos h5]
        refine ⟨hsync.1, fun h => (by cases h), fun _ => ?_⟩
        rw [if_pos (.inr (.inr h5))]
        exact hsync.2
      · rw [if_neg h5]
        refine ⟨rfl, fun h => (by cases h), fun _ => ?_⟩
        rw [if_neg (fun h => h.elim (fun h => h1 (.inl h)) fun h => h.elim (fun h => h1 (.inr h)) h5)]
  · rw [hc, if_pos (by decide)]
    refine ⟨?_, fun _ => ?_, fun h => (by cases h)⟩
    · split_ifs
      · rfl
      · exact hset.1
    · split_ifs with h2
      · exact h2
      · exact hset.2

theorem execHelloReceive_eq {s : State} {port : Fin 32} {h : Hello} (hm : s.mode.mirror ≠ 0) (hrole : s.portRole port = 2)
    (hmsg : s.hasMsg 0x50 (·.says 0 (helloBytes h)) = true) :
    Yields (.helloReceive port h) s fun u =>
      u.mir.hello = some h ∧ (s.compatible h = false → u.pairState = 2) ∧
      (s.compatible h = true →
        u.pairState = if s.pairState = 1 ∨ s.pairState = 2 ∨ ((s.pairState = 5 ∨ s.pairState = 6) ∧ s.fld F.mirCtl_manual 0 = 0) then 3 else s.pairState) := by
  have hexec : exec (.helloReceive port h) s = execHelloReceive port h s := rfl
  unfold execHelloReceive at hexec
  rw [State.onMsg_has hmsg] at hexec
  generalize hv : s.dropMsg 0x50 (·.says 0 (helloBytes h)) = v at hexec
  have hsv : Chg { fab := true } s v := by
    rw [← hv]
    exact State.dropMsg_chg
  rw [if_neg (by rw [hsv.mode_eq, State.portRole, hsv.fld_eq]; exact fun hh => hh.elim hm fun hh => hh hrole)] at hexec
  dsimp only at hexec
  generalize hw : (if v.mir.helloSent then v else v.tellHello).modMir (fun m => { m with hello := some h, helloSent := false }) = w at hexec
  have hsw : Chg { fab := true, links := true, mir := true } s w := by
    rw [← hw]
    exact .via (.ite (.mono hsv) (.via (.mono hsv) State.tellHello_chg)) .modMir
  have hwhello : w.mir.hello = some h := by
    rw [← hw]
    rfl
  obtain ⟨h1, h2, h3⟩ := w.judge_fields h
  rw [hsw.compatible_eq] at h2 h3
  have hwp : w.pairState = s.pairState := hsw.fld_eq ..
  rw [hwp, hsw.fld_eq F.mirCtl_manual] at h3
  exact ⟨_, hexec, h1.trans hwhello, h2, h3⟩

/-! ## The end of a sync (R546, R556) -/

theorem State.abandon_quiet {s : State} (h : s.Unasked) : s.CplsKept s.abandon := .of_chg (State.abandon_unasked h)

theorem State.setPair_cplsKept {s : State} {st : Nat} (h : s.Unasked) : s.CplsKept (s.setPair st) := by
  have hopen : s.CplsKept (if st = 7 then s else s.abandon) := .ite .refl (State.abandon_quiet h)
  have hset (v : State) : v.CplsKept ((v.setFld F.mirState_state 0 st).event 0x02C0 8 0 []) := .trans (.of_chg .setFld) .event
  unfold State.setPair
  exact .ite .refl (.ite ((hopen.trans (hset _)).trans (.of_chg State.freeMirror_chg)) (hopen.trans (hset _)))

theorem State.startSync_cplsKept {s : State} (h : s.Unasked) : s.CplsKept s.startSync := fun k => (State.startSync_settled h).cpls k

theorem State.setPair_fenced {s : State} {st : Nat} (h : s.Unasked) : (s.setPair st).wts.fenced = s.wts.fenced := by
  have hopen : (if st = 7 then s else s.abandon).wts.fenced = s.wts.fenced := by
    split_ifs
    · rfl
    · rw [State.abandon_wts, h.2]
      exact List.filter_eq_self.2 fun _ _ => rfl
  have hset (v : State) : ((v.setFld F.mirState_state 0 st).event 0x02C0 8 0 []).wts = v.wts := State.event_chg.wts_eq
  unfold State.setPair
  dsimp only
  generalize (if st = 7 then s else s.abandon) = v at hopen ⊢
  split_ifs
  · rfl
  · rw [State.freeMirror_chg.wts_eq, hset, hopen]
  · rw [hset, hopen]

/-- The completions that waited wait still. -/
def State.CplsGrow (s u : State) : Prop := ∀ k, ∀ x ∈ (s.func k).cpls, x ∈ (u.func k).cpls

theorem State.CplsKept.grow {s u : State} (h : s.CplsKept u) : s.CplsGrow u := fun k x hx => by rwa [h k]

theorem State.CplsGrow.trans {s u v : State} (h : s.CplsGrow u) (k : u.CplsGrow v) : s.CplsGrow v := fun j x hx => k j x (h j x hx)

theorem State.CplsGrow.complete {s : State} {c : Cmd} {opcode status result : Nat} {report : Option (Word × Word)} :
    s.CplsGrow (s.complete c opcode status result report) := fun k x hx => by
  obtain ⟨l, hl⟩ := s.cpls_complete c opcode status result report k
  rw [hl]
  exact List.mem_append_left _ hx

theorem State.CplsGrow.foldl {α : Type} {g : State → α → State} (hg : ∀ (v : State) x, v.CplsGrow (g v x)) (l : List α) (s : State) : s.CplsGrow (l.foldl g s) := by
  induction l generalizing s with
  | nil => exact fun _ _ hx => hx
  | cons x l ih => exact (hg s x).trans (ih _)

/-- What ends the fence of region `r`. -/
def State.unfence (s : State) (r : Nat) : State :=
  (s.served r).foldl (fun s e => s.modEng e fun g => { g with fencedOut := false }) (s.setFld F.srvSwap_state r 0)

theorem State.unfence_chg {s : State} {r : Nat} : Chg { regs := true, engs := true } s (s.unfence r) := by
  unfold State.unfence
  exact .foldl (fun _ _ => .mono .modEng) _ (.via .refl .setFld)

theorem State.unfence_fld {s : State} {r k : Nat} (hr : r < 2 ^ 32) (hk : k < 2 ^ 32) :
    (s.unfence r).fld F.srvSwap_state k = if k = r then 0 else s.fld F.srvSwap_state k := by
  have hengs (l : List Nat) (v : State) : (l.foldl (fun s e => s.modEng e fun g => { g with fencedOut := false }) v).fld F.srvSwap_state k = v.fld F.srvSwap_state k :=
    Chg.fld_eq (P := { engs := true }) (.foldl (fun _ _ => .modEng) _ .refl) ..
  unfold State.unfence
  rw [hengs]
  split_ifs with h
  · rw [h, State.fld_setFld_eq _ (by decide) (by decide)]
  · rw [State.fld_setFld_index _ hr hk h]

theorem State.unfenceAll_fields (l : List Nat) (hl : ∀ r ∈ l, r < 8) (s : State) :
    RegsKept [.srvSwap] s (l.foldl (fun s r => s.unfence r) s) ∧
    ∀ k, (k ∈ l ∨ (s.fld F.srvSwap_state k = 0 ∧ k < 8)) → (l.foldl (fun s r => s.unfence r) s).fld F.srvSwap_state k = 0 := by
  induction l generalizing s with
  | nil => exact ⟨.refl, fun k hk => (hk.resolve_left List.not_mem_nil).1⟩
  | cons r l ih =>
    have hr := hl r List.mem_cons_self
    obtain ⟨hregs, hfld⟩ := ih (fun k hk => hl k (List.mem_cons_of_mem _ hk)) (s.unfence r)
    have hone : RegsKept [.srvSwap] s (s.unfence r) := by
      have hengs (l : List Nat) (v : State) : RegsKept [.srvSwap] v (l.foldl (fun s e => s.modEng e fun g => { g with fencedOut := false }) v) :=
        .of_chg (P := { engs := true }) (.foldl (fun _ _ => .modEng) _ .refl)
      exact RegsKept.trans (.setFld (by omega) (by decide)) (hengs _ _)
    refine ⟨hone.trans hregs, fun k hk => hfld k ?_⟩
    by_cases hkr : k = r
    · exact .inr ⟨by rw [State.unfence_fld (by omega) (by omega), if_pos hkr], by omega⟩
    · rcases hk with hk | ⟨hk, hk8⟩
      · exact .inl ((List.mem_cons.1 hk).resolve_left hkr)
      · exact .inr ⟨by rw [State.unfence_fld (by omega) (by omega), if_neg hkr, hk], hk8⟩

theorem execSyncComplete_eq {s : State} (hq : s.Unasked) (hst : s.pairState = 3) (hheard : s.mir.heard = true) (hgive : s.mir.giveRids = [])
    (hhand : s.mir.handRids = []) (hadopt : s.mode.mirror = 1 → s.adoptedReqs = []) (hfenced : ∀ r ∈ s.wts.fenced, r < 8) :
    Yields .syncComplete s fun u =>
      u.pairState = 4 ∧ u.wts.fenced = [] ∧ u.wts.fenceIn = [] ∧ u.mir.joinCmd = none ∧ u.mir.hbLast = s.wall ∧
      (∀ r ∈ s.wts.fenced, u.fld F.srvSwap_state r = 0) ∧
      ∀ d, s.mir.joinCmd = some d → d.fn < 16 → s.ringStopped d.fn = false →
        (⟨0, d.tag, 0x0210, d.index, d.irq, 0, none⟩ : Cpl) ∈ (u.func d.fn).cpls := by
  have hexec : exec .syncComplete s = execSyncComplete s := rfl
  unfold execSyncComplete at hexec
  have hgo : ¬(s.pairState ≠ 3 ∨ (!s.mir.heard) = true ∨ (!s.mir.giveRids.isEmpty) = true ∨ (!s.mir.handRids.isEmpty) = true ∨
      (s.mode.mirror = 1 ∧ (!s.adoptedReqs.isEmpty) = true)) := by
    rw [hst, hheard, hgive, hhand]
    simp only [ne_eq, not_true_eq_false, Bool.not_true, Bool.false_eq_true, List.isEmpty_nil, false_or, not_and]
    exact fun hm => by rw [hadopt hm]; decide
  rw [if_neg hgo] at hexec
  dsimp only at hexec
  generalize hv : (s.setPair 4).event 0x02C7 8 0 [] = v at hexec
  have hvst : v.pairState = 4 := by
    rw [← hv, State.pairState, State.fld_event _ _ _ _ _ (by decide) (by decide)]
    exact s.setPair_state 4 (by decide)
  have hvregs : RegsKept pairKinds s v := by
    rw [← hv]
    exact RegsKept.setPair.trans (.event (by decide))
  have hvjoin : v.mir.joinCmd = s.mir.joinCmd := by
    rw [← hv, State.event_chg.mir_eq]
    exact congrArg (fun q => q.2.1) State.setPair_mirrored
  have hvfenced : v.wts.fenced = s.wts.fenced := by
    rw [← hv, State.event_chg.wts_eq, State.setPair_fenced hq]
  have hvcpl : s.CplsKept v := by
    rw [← hv]
    exact (State.setPair_cplsKept hq).trans .event
  have hends (w : State) (hvw : Chg { fns := true } v w) (hgrow : v.CplsGrow w)
      (hcpl : ∀ d, s.mir.joinCmd = some d → d.fn < 16 → s.ringStopped d.fn = false → (⟨0, d.tag, 0x0210, d.index, d.irq, 0, none⟩ : Cpl) ∈ (w.func d.fn).cpls)
      (hw : exec .syncComplete s = .next (
        let x := w.wts.fenceIn.foldl (fun s f => s.complete f.2 0x0205 0) w
        let y := x.wts.fenced.foldl (fun s r => s.unfence r) x
        (y.modWts fun w => { w with fenceIn := [], fenced := [] }).modMir fun m =>
          { m with joinCmd := none, hbLast := y.wall, adopt := false, handover := none, giving := false, heard := false })) :
      Yields .syncComplete s fun u =>
        u.pairState = 4 ∧ u.wts.fenced = [] ∧ u.wts.fenceIn = [] ∧ u.mir.joinCmd = none ∧ u.mir.hbLast = s.wall ∧
        (∀ r ∈ s.wts.fenced, u.fld F.srvSwap_state r = 0) ∧
        ∀ d, s.mir.joinCmd = some d → d.fn < 16 → s.ringStopped d.fn = false →
          (⟨0, d.tag, 0x0210, d.index, d.irq, 0, none⟩ : Cpl) ∈ (u.func d.fn).cpls := by
    dsimp only at hw
    generalize hx : w.wts.fenceIn.foldl (fun s f => s.complete f.2 0x0205 0) w = x at hw
    have hwx : Chg { fns := true } w x := by
      rw [← hx]
      exact .foldl (fun _ _ => State.complete_fns (by decide)) _ .refl
    have hxgrow : w.CplsGrow x := by
      rw [← hx]
      exact .foldl (fun _ _ => .complete) _ _
    have hxfenced : x.wts.fenced = s.wts.fenced := by rw [hwx.wts_eq, hvw.wts_eq, hvfenced]
    rw [hxfenced] at hw
    obtain ⟨hyregs, hyfld⟩ := State.unfenceAll_fields s.wts.fenced hfenced x
    have hychg : Chg { regs := true, engs := true } x (s.wts.fenced.foldl (fun s r => s.unfence r) x) := .foldl (fun _ _ => State.unfence_chg) _ .refl
    generalize s.wts.fenced.foldl (fun s r => s.unfence r) x = y at hw hyregs hyfld hychg
    have hsy : RegsKept (.srvSwap :: pairKinds) s y :=
      ((hvregs.mono (by decide)).trans ((RegsKept.of_chg hvw).trans (.of_chg hwx))).trans (hyregs.mono (by decide))
    refine ⟨_, hw, ?_, rfl, rfl, rfl, ?_, fun r hr => hyfld r (.inl hr), fun d hd hfn hs => ?_⟩
    · have hyst : y.pairState = 4 := by
        rw [State.pairState, hyregs.fld _ _ (by decide) (by decide), hwx.fld_eq, hvw.fld_eq]
        exact hvst
      exact hyst
    · exact hsy .srvWall 0 (by decide) (by decide)
    · have hyc : (⟨0, d.tag, 0x0210, d.index, d.irq, 0, none⟩ : Cpl) ∈ (y.func d.fn).cpls := by
        rw [hychg.func_eq]
        exact hxgrow _ _ (hcpl d hd hfn hs)
      exact hyc
  rw [hvjoin] at hexec
  obtain hj | ⟨c, hj⟩ : s.mir.joinCmd = none ∨ ∃ c, s.mir.joinCmd = some c := by
    cases s.mir.joinCmd with
    | none => exact .inl rfl
    | some c => exact .inr ⟨c, rfl⟩
  · rw [hj] at hexec
    refine hends v .refl (fun _ _ h => h) (fun d hd => ?_) hexec
    rw [hj] at hd
    cases hd
  · rw [hj] at hexec
    refine hends (v.complete c 0x0210 0) (State.complete_fns (by decide)) .complete (fun d hd hfn hs => ?_) hexec
    have hcd : c = d := Option.some.inj (hj.symm.trans hd)
    subst hcd
    have hdone : Completed v (v.complete c 0x0210 0) c 0x0210 0 :=
      State.completed (by decide) ((State.ringStopped_kept hvregs (by omega) (by decide)).trans hs) rfl
    rw [hdone]
    exact List.mem_append_right _ (List.mem_singleton.2 rfl)

/-! ## PAIR_JOIN and PAIR_DROP (R545, R546) -/

/-- The partner's HELLO has come and fits. -/
def State.knows (s : State) : Bool :=
  match s.mir.hello with
  | some m => s.compatible m
  | none => false

theorem State.knows_iff {s : State} : s.knows = true ↔ ∃ m, s.mir.hello = some m ∧ s.compatible m = true := by
  unfold State.knows
  cases s.mir.hello with
  | none => exact ⟨fun h => (by cases h), fun ⟨m, hm, _⟩ => (by cases hm)⟩
  | some m => exact ⟨fun h => ⟨m, rfl, h⟩, fun ⟨m', hm, h⟩ => Option.some.inj hm ▸ h⟩

theorem Chg.firstServing_eq {P : Foot} {s u : State} (h : Chg P s u) (hr : P.regions = false := by rfl) (hi : P.img = false := by rfl) :
    u.firstServing = s.firstServing := by
  have hrun (r : Nat) : u.running r = s.running r := by rw [State.running, h.region_eq r hr, State.running]
  have hrec (r : Nat) : u.regionRec r = s.regionRec r := by rw [State.regionRec, h.img_eq hi, State.regionRec]
  simp only [State.firstServing, hrun, hrec]

theorem execPairJoin_eq {s : State} {c : Cmd} (hq : s.Unasked) (h : s.begins (.pairJoin c) c 0x0210 false) :
    (s.mode.mirror = 0 ∨ (s.popCmd c).mirUp = [] → Answers (.pairJoin c) c s fun u => Completed s u c 0x0210 0x0090 ∧ u.mir = s.mir) ∧
    (s.mode.mirror ≠ 0 → (s.popCmd c).mirUp ≠ [] →
      (¬(s.popCmd c).knows = true → Answers (.pairJoin c) c s fun u => Completed s u c 0x0210 0x0091 ∧ u.mir = s.mir) ∧
      ((s.popCmd c).knows = true → s.pairState ≠ 5 → s.pairState ≠ 6 → Answers (.pairJoin c) c s fun u => Completed s u c 0x0210 0x0092 ∧ u.mir = s.mir) ∧
      ((s.popCmd c).knows = true → s.pairState = 5 ∨ s.pairState = 6 →
        Answers (.pairJoin c) c s fun u =>
          u.pairState = 3 ∧ u.mir.joinCmd = some c ∧ (u.func c.fn).cpls = (s.func c.fn).cpls)) := by
  have hexec := h.exec_eq rfl
  have hmode : (s.popCmd c).mode = s.mode := rfl
  have hpair : (s.popCmd c).pairState = s.pairState := State.popCmd_chg.fld_eq ..
  have hform : exec (.pairJoin c) s = .next (State.answerAll (if (s.popCmd c).mode.mirror = 0 ∨ (s.popCmd c).mirUp.isEmpty = true then (s.popCmd c).complete c 0x0210 0x0090
      else if (!(s.popCmd c).knows) = true then (s.popCmd c).complete c 0x0210 0x0091
      else if (s.popCmd c).pairState ≠ 5 ∧ (s.popCmd c).pairState ≠ 6 then (s.popCmd c).complete c 0x0210 0x0092
      else (((s.popCmd c).mirSend 0x50 [0x0006] (leBytes 2 6)).modMir fun m => { m with joinCmd := some c }).startSync) c.fn) := hexec
  rw [hmode, hpair] at hform
  refine ⟨fun h0 => ?_, fun h0 hup => ⟨fun hn => ?_, fun hkn h5 h6 => ?_, fun hkn h56 => ?_⟩⟩
  · rw [if_pos (by rwa [List.isEmpty_iff])] at hform
    exact h.refused (by decide) hform fun u hu => hu.mir_eq
  · rw [if_neg (by rw [List.isEmpty_iff]; exact fun hh => hh.elim h0 hup), if_pos (by rw [Bool.eq_false_iff.2 hn]; rfl)] at hform
    exact h.refused (by decide) hform fun u hu => hu.mir_eq
  · rw [if_neg (by rw [List.isEmpty_iff]; exact fun hh => hh.elim h0 hup), if_neg (by rw [hkn]; decide), if_pos ⟨h5, h6⟩] at hform
    exact h.refused (by decide) hform fun u hu => hu.mir_eq
  · rw [if_neg (by rw [List.isEmpty_iff]; exact fun hh => hh.elim h0 hup), if_neg (by rw [hkn]; decide), if_neg (fun hh => h56.elim hh.1 hh.2)] at hform
    generalize hv : ((s.popCmd c).mirSend 0x50 [0x0006] (leBytes 2 6)).modMir (fun m => { m with joinCmd := some c }) = v at hform
    have hsv : Chg { fab := true, links := true, mir := true, fns := true } s v := by
      rw [← hv]
      exact .via (.via (.via .refl State.popCmd_chg) State.mirSend_chg) .modMir
    have hvq : v.Unasked := by
      refine ⟨?_, hsv.wts_eq ▸ hq.2⟩
      rw [← hv]
      exact (congrArg Mirror.updAct State.mirSend_chg.mir_eq).trans hq.1
    have hvjoin : v.mir.joinCmd = some c := by
      rw [← hv]
      rfl
    have hvcpl : (v.func c.fn).cpls = (s.func c.fn).cpls := by
      rw [← hv, Chg.modMir.func_eq, State.mirSend_chg.func_eq]
      exact s.cpls_popCmd c _
    exact ⟨_, hform, v.startSync_fields.1, (congrArg (fun q => q.2.1) State.startSync_mirrored).trans hvjoin, (State.startSync_cplsKept hvq c.fn).trans hvcpl⟩

/-- What the end of a pair that a drop asks for leaves: at once where nothing serves, at the next boundary else (R546). -/
theorem State.dropSoon_fields {s : State} (hq : s.Unasked) (hnone : s.mir.queries = []) (h4 : s.pairState = 4) :
    s.CplsKept s.dropSoon ∧ RegsKept pairKinds s s.dropSoon ∧
    (s.firstServing.isSome = true → s.dropSoon.mir.dropAt = true ∧ s.dropSoon.pairState = 4) ∧ (s.firstServing = none → s.dropSoon.pairState = 5) := by
  generalize hv : s.modMir (fun m => { m with dropAt := true }) = v
  have hfirst : v.firstServing = s.firstServing := by rw [← hv]; rfl
  unfold State.dropSoon
  dsimp only
  rw [hv, hfirst]
  cases hf : s.firstServing with
  | some r =>
    rw [if_neg (fun h => by cases h)]
    refine ⟨?_, ?_, fun _ => ⟨?_, ?_⟩, fun h => (by cases h)⟩
    · rw [← hv]
      exact .of_chg .modMir
    · rw [← hv]
      exact .of_chg .modMir
    · rw [← hv]
      rfl
    · rw [← hv]
      exact h4
  | none =>
    rw [if_pos Option.isNone_none]
    generalize hw : v.modMir (fun m => { m with dropAt := false }) = w
    have hsw : Chg { mir := true } s w := by
      rw [← hw, ← hv]
      exact .via (.via .refl .modMir) .modMir
    have hwq : w.Unasked := by
      rw [← hw, ← hv]
      exact hq
    have hw4 : w.pairState = 4 := (hsw.fld_eq ..).trans h4
    have hdrop : v.dropPair = w.setPair 5 := by
      unfold State.dropPair
      rw [if_pos (by rw [← hv]; rfl)]
      dsimp only
      rw [hw, if_pos hw4]
    have hqueries : (w.setPair 5).mir.queries = [] := by
      refine (congrArg (fun q => q.2.2.1) State.setPair_mirrored).trans ?_
      rw [← hw, ← hv]
      exact hnone
    have h5 : (w.setPair 5).pairState = 5 := w.setPair_state 5 (by decide)
    have hsettle : (w.setPair 5).settleQueries = (w.setPair 5).modMir fun m => { m with queries := [] } := by
      unfold State.settleQueries
      rw [if_neg (by rw [h5]; decide)]
      dsimp only
      rw [hqueries]
      rfl
    rw [hdrop, hsettle]
    refine ⟨((State.CplsKept.of_chg hsw).trans (State.setPair_cplsKept hwq)).trans (.of_chg .modMir),
      ((RegsKept.of_chg hsw).trans .setPair).trans (.of_chg .modMir), fun h => (by cases h), fun _ => h5⟩

theorem execPairDrop_eq {s : State} {c : Cmd} (hfn : c.fn < 2 ^ 32) (hq : s.Unasked) (hnone : s.mir.queries = []) (h : s.begins (.pairDrop c) c 0x0211 false) :
    (s.mode.mirror = 0 → Answers (.pairDrop c) c s fun u => Completed s u c 0x0211 0x0090 ∧ u.mir = s.mir) ∧
    (s.mode.mirror ≠ 0 → s.pairState ≠ 4 → Answers (.pairDrop c) c s fun u => Completed s u c 0x0211 0x0092 ∧ u.mir = s.mir) ∧
    (s.mode.mirror ≠ 0 → s.pairState = 4 →
      Answers (.pairDrop c) c s fun u =>
        Completed s u c 0x0211 0 ∧
        ((s.popCmd c).firstServing.isSome = true → u.mir.dropAt = true ∧ u.pairState = 4) ∧ ((s.popCmd c).firstServing = none → u.pairState = 5)) := by
  have hexec := h.exec_eq rfl
  have hmode : (s.popCmd c).mode = s.mode := rfl
  have hpair : (s.popCmd c).pairState = s.pairState := State.popCmd_chg.fld_eq ..
  rw [hmode, hpair] at hexec
  refine ⟨fun h0 => ?_, fun h0 h4 => ?_, fun h0 h4 => ?_⟩
  · rw [if_pos h0] at hexec
    exact h.refused (by decide) hexec fun u hu => hu.mir_eq
  · rw [if_neg h0, if_pos h4] at hexec
    exact h.refused (by decide) hexec fun u hu => hu.mir_eq
  · rw [if_neg h0, if_neg (not_not_intro h4)] at hexec
    generalize hv : (s.popCmd c).mirSend 0x50 [0x0008] (leBytes 2 8) = v at hexec
    have hpv : Chg { fab := true, links := true } (s.popCmd c) v := by
      rw [← hv]
      exact State.mirSend_chg
    have hsv : Chg { fab := true, links := true, fns := true } s v := .trans (.mono State.popCmd_chg) (.mono hpv)
    have hvfirst : v.firstServing = (s.popCmd c).firstServing := hpv.firstServing_eq
    have hvq : v.Unasked := ⟨hsv.mir_eq ▸ hq.1, hsv.wts_eq ▸ hq.2⟩
    obtain ⟨hcpl, hregs, hsome, hno⟩ := State.dropSoon_fields hvq (hsv.mir_eq ▸ hnone) ((hsv.fld_eq ..).trans h4)
    rw [hvfirst] at hsome hno
    have hc := State.complete_fns (s := v.dropSoon) (c := c) (opcode := 0x0211) (status := 0) (result := 0) (report := none) (by decide)
    refine ⟨_, hexec, h.completes (by decide) ?_ ?_, fun hs => ?_, fun hn => ?_⟩
    · rw [State.ringStopped_kept hregs hfn (by decide), State.ringStopped, hsv.fld_eq]
      rfl
    · rw [hcpl, hpv.func_eq]
      exact s.cpls_popCmd c _
    · rw [hc.mir_eq, State.pairState, hc.fld_eq]
      exact hsome hs
    · rw [State.pairState, hc.fld_eq]
      exact hno hn

theorem execPairDropReceive_eq {s : State} (hq : s.Unasked) (hnone : s.mir.queries = []) (h4 : s.pairState = 4)
    (hmsg : s.hasMsg 0x50 (·.says 0 (leBytes 2 8)) = true) :
    Yields .pairDropReceive s fun u =>
      (s.firstServing.isSome = true → u.mir.dropAt = true ∧ u.pairState = 4) ∧ (s.firstServing = none → u.pairState = 5) := by
  have hexec : exec .pairDropReceive s = execPairDropReceive s := rfl
  unfold execPairDropReceive at hexec
  rw [State.onMsg_has hmsg] at hexec
  generalize hv : s.dropMsg 0x50 (·.says 0 (leBytes 2 8)) = v at hexec
  have hsv : Chg { fab := true } s v := by
    rw [← hv]
    exact State.dropMsg_chg
  have hv4 : v.pairState = 4 := (hsv.fld_eq ..).trans h4
  rw [if_pos hv4] at hexec
  obtain ⟨-, -, hsome, hno⟩ := State.dropSoon_fields (s := v) ⟨hsv.mir_eq ▸ hq.1, hsv.wts_eq ▸ hq.2⟩ (hsv.mir_eq ▸ hnone) hv4
  rw [hsv.firstServing_eq] at hsome hno
  exact ⟨_, hexec, hsome, hno⟩

theorem execPairJoinReceive_eq {s : State} (hm : s.mode.mirror ≠ 0) (hst : s.pairState = 5 ∨ s.pairState = 6 ∨ s.pairState = 8)
    (hmsg : s.hasMsg 0x50 (·.says 0 (leBytes 2 6)) = true) : Yields .pairJoinReceive s fun u => u.pairState = 3 := by
  have hexec : exec .pairJoinReceive s = execPairJoinReceive s := rfl
  unfold execPairJoinReceive at hexec
  rw [State.onMsg_has hmsg] at hexec
  generalize hv : s.dropMsg 0x50 (·.says 0 (leBytes 2 6)) = v at hexec
  have hsv : Chg { fab := true } s v := by
    rw [← hv]
    exact State.dropMsg_chg
  have hvst : v.pairState = s.pairState := hsv.fld_eq ..
  rw [hsv.mode_eq, hvst, if_pos ⟨hm, hst⟩] at hexec
  exact ⟨_, hexec, v.startSync_fields.1⟩

/-! ## HANDOVER (R556, R560) -/

theorem Chg.mirUp_eq {P : Foot} {s u : State} (h : Chg P s u) (hr : P.regs = false := by rfl) (hi : P.img = false := by rfl)
    (hf : P.fuses = false := by rfl) : u.mirUp = s.mirUp := by
  have hfld (f : Fld) (i : Nat) : u.fld f i = s.fld f i := h.fld_eq f i hr hi hf
  simp only [State.mirUp, State.mirPorts, State.portState, State.portRole, hfld]

theorem Chg.leader_eq {P : Foot} {s u : State} (h : Chg P s u) (hr : P.regs = false := by rfl) (hi : P.img = false := by rfl)
    (hf : P.fuses = false := by rfl) : u.leader = s.leader := by
  have hown : u.ownId = s.ownId := h.fld_eq _ _ hr hi hf
  rw [State.leader, h.mode_eq hi, hown, State.leader]

theorem Chg.syncRids_eq {P : Foot} {s u : State} (h : Chg P s u) (hi : P.img = false := by rfl) (he : P.engs = false := by rfl) :
    u.syncRids = s.syncRids := by
  have heng (e : Nat) : u.eng e = s.eng e := h.eng_eq e he
  simp only [State.syncRids, State.adoptedReqs, State.accn, heng, h.mode_eq hi]

/-- The requests that a module that is to answer gives with its own HANDOVER. -/
def State.mine (s : State) : List (BitVec 32) := if s.mode.mirror = 2 then [] else s.syncRids

theorem State.handBack_mir (s : State) (h : Nat) :
    (s.handBack h).mir = { s.mir with handover := some h, giveRids := s.mine, giving := true } := by
  have hsend (l : List (BitVec 32)) : (s.sendHandover h l).mir = s.mir := State.sendHandover_chg.mir_eq
  have hmode (l : List (BitVec 32)) : (s.sendHandover h l).mode = s.mode := State.sendHandover_chg.mode_eq
  unfold State.handBack State.mine
  dsimp only
  rw [State.modMir]
  dsimp only
  rw [hsend]

theorem execHandoverReceive_ask {s : State} {rids : List (BitVec 32)} {ms : List MirReq} (hst : s.pairState = 3 ∨ s.pairState = 4)
    (hmsg : s.hasMsg 0x50 (·.says 0 (argBytes (handItems askStep rids))) = true) :
    (s.leader = false → exec (.handoverReceive askStep rids ms) s = .next (s.dropMsg 0x50 (·.says 0 (argBytes (handItems askStep rids))))) ∧
    (∀ h, s.leader = true → s.mir.handover = some h → Yields (.handoverReceive askStep rids ms) s fun u =>
      u.mir = s.mir ∧ u.engs = s.engs ∧
      (s.mirUp ≠ [] → (⟨s.mode.partner, 0x50, 0, handItems h s.mir.giveRids⟩ : Msg) ∈ u.fab.sent)) ∧
    (s.leader = true → s.mir.handover = none → Yields (.handoverReceive askStep rids ms) s fun u =>
      u.mir.handover = some (s.curStep (s.firstServing.getD 0) + 2) ∧ u.mir.giving = true ∧ u.mir.giveRids = s.mine ∧ u.engs = s.engs) := by
  have hexec : exec (.handoverReceive askStep rids ms) s = execHandoverReceive askStep rids ms s := rfl
  unfold execHandoverReceive at hexec
  rw [State.onMsg_has hmsg] at hexec
  generalize hv : s.dropMsg 0x50 (·.says 0 (argBytes (handItems askStep rids))) = v at hexec ⊢
  have hsv : Chg { fab := true } s v := by
    rw [← hv]
    exact State.dropMsg_chg
  have hvst : v.pairState = s.pairState := hsv.fld_eq ..
  rw [hvst, if_neg (fun hh => hst.elim hh.1 hh.2), if_pos rfl, hsv.leader_eq, hsv.mir_eq] at hexec
  refine ⟨fun hl => ?_, fun h hl hh => ?_, fun hl hh => ?_⟩
  · rw [if_pos (by rw [hl]; rfl)] at hexec
    exact hexec
  · rw [if_neg (by rw [hl]; decide), hh] at hexec
    refine ⟨_, hexec, ?_, ?_, fun hup => ?_⟩
    · rw [State.sendHandover_chg.mir_eq, hsv.mir_eq]
    · rw [State.sendHandover_chg.engs_eq, hsv.engs_eq]
    · rw [← hsv.mode_eq]
      exact State.mirSend_mem (hsv.mirUp_eq ▸ hup)
  · rw [if_neg (by rw [hl]; decide), hh] at hexec
    have hstep : v.handStep (v.firstServing.getD 0) = s.curStep (s.firstServing.getD 0) + 2 := by
      rw [hsv.firstServing_eq, State.handStep, State.curStep, hsv.region_eq, State.curStep]
    have hmine : v.mine = s.mine := by rw [State.mine, hsv.mode_eq, hsv.syncRids_eq, State.mine]
    dsimp only at hexec
    rw [hstep] at hexec
    refine ⟨_, hexec, ?_, ?_, ?_, ?_⟩
    · rw [State.handBack_mir]
    · rw [State.handBack_mir]
    · rw [State.handBack_mir]
      exact hmine
    · rw [State.handBack_chg.engs_eq, hsv.engs_eq]

theorem State.answerHand_mir {s : State} (hact : s.mir.updAct = none) (h : Nat) :
    (s.answerHand h).mir = { s.mir with handover := some h, giveRids := if s.mir.fencing = true then s.mir.giveRids else s.mine, giving := true } := by
  have hsend (l : List (BitVec 32)) : (s.sendHandover h l).mir = s.mir := State.sendHandover_chg.mir_eq
  unfold State.answerHand
  by_cases hf : s.mir.fencing = true
  · rw [if_pos (.inl hf), if_pos hf]
    unfold State.nameRids
    rw [State.modMir]
    dsimp only
    rw [hsend]
  · rw [if_neg (by rw [hact]; exact fun hh => hh.elim hf fun hh => by cases hh), if_neg hf, State.handBack_mir]

theorem execHandoverReceive_step {s : State} {step : Nat} {rids : List (BitVec 32)} {ms : List MirReq} (hact : s.mir.updAct = none)
    (hst : s.pairState = 3 ∨ s.pairState = 4) (hmsg : s.hasMsg 0x50 (·.says 0 (argBytes (handItems step rids))) = true) (hask : step ≠ askStep) :
    Yields (.handoverReceive step rids ms) s fun u =>
      u.mir.handover = some step ∧ u.mir.handRids = rids.filter (· != fenceMark) ∧ u.mir.heard = true ∧
      u.mir.cover = (rids.head? == some fenceMark) ∧ u.regs = s.regs ∧ u.engs = s.engs ∧
      (¬(s.leader = false ∧ s.mir.giving = false) → u.mir.giving = s.mir.giving ∧ u.mir.giveRids = s.mir.giveRids) ∧
      (s.leader = false ∧ s.mir.giving = false → u.mir.giving = true ∧ u.mir.giveRids = if s.mir.fencing = true then s.mir.giveRids else s.mine) := by
  have hexec : exec (.handoverReceive step rids ms) s = execHandoverReceive step rids ms s := rfl
  unfold execHandoverReceive at hexec
  rw [State.onMsg_has hmsg] at hexec
  generalize hv : s.dropMsg 0x50 (·.says 0 (argBytes (handItems step rids))) = v at hexec
  have hsv : Chg { fab := true } s v := by
    rw [← hv]
    exact State.dropMsg_chg
  have hvst : v.pairState = s.pairState := hsv.fld_eq ..
  rw [hvst, if_neg (fun hh => hst.elim hh.1 hh.2), if_neg hask] at hexec
  dsimp only at hexec
  generalize hw : v.modMir (fun m =>
    { m with
      handover := some step, handRids := rids.filter (· != fenceMark), heard := true, cover := rids.head? == some fenceMark
      mirrored := m.mirrored ++ (ms.filter fun x => !v.mir.mirrored.any fun q => q.2.rid == x.rid).map fun x => (bits x.rid.toNat 23 23, x) }) = w at hexec
  have hwmir : w.mir.handover = some step ∧ w.mir.handRids = rids.filter (· != fenceMark) ∧ w.mir.heard = true ∧ w.mir.cover = (rids.head? == some fenceMark) ∧
      w.mir.giving = s.mir.giving ∧ w.mir.giveRids = s.mir.giveRids ∧ w.mir.fencing = s.mir.fencing ∧ w.mir.updAct = none := by
    rw [← hw, ← hsv.mir_eq]
    exact ⟨rfl, rfl, rfl, rfl, rfl, rfl, rfl, (congrArg Mirror.updAct hsv.mir_eq).trans hact⟩
  obtain ⟨hh, hr, hhe, hco, hgi, hgr, hfe, hup⟩ := hwmir
  have hsw : Chg { fab := true, mir := true } s w := by
    rw [← hw]
    exact .via (.mono hsv) .modMir
  rw [hsw.leader_eq, hgi] at hexec
  by_cases hans : s.leader = false ∧ s.mir.giving = false
  · rw [if_neg (by rw [hans.1, hans.2]; decide)] at hexec
    have hmine : w.mine = s.mine := by rw [State.mine, hsw.mode_eq, hsw.syncRids_eq, State.mine]
    have hmir := State.answerHand_mir hup step
    rw [hgr, hfe, hmine] at hmir
    refine ⟨_, hexec, ?_, ?_, ?_, ?_, ?_, ?_, fun h => absurd hans h, fun _ => ⟨?_, ?_⟩⟩
    · rw [hmir]
    · rw [hmir]
      exact hr
    · rw [hmir]
      exact hhe
    · rw [hmir]
      exact hco
    · rw [State.answerHand_chg.regs_eq, hsw.regs_eq]
    · rw [State.answerHand_chg.engs_eq, hsw.engs_eq]
    · rw [hmir]
    · rw [hmir]
  · rw [if_pos (by
      rw [Bool.or_eq_true]
      rcases Bool.eq_false_or_eq_true s.leader with hl | hl
      · exact .inl hl
      · exact .inr (by rw [← Bool.not_eq_false]; exact fun hg => hans ⟨hl, hg⟩))] at hexec
    exact ⟨_, hexec, hh, hr, hhe, hco, hsw.regs_eq, hsw.engs_eq, fun _ => ⟨hgi, hgr⟩, fun h => absurd h hans⟩

/-- Settles O45. -/
theorem pairsFormAndPart : Obligations.PairsFormAndPart := by
  unfold Obligations.PairsFormAndPart
  intro s c hact hcmd hqueries p
  have hq : s.Unasked := ⟨hact, hcmd⟩
  refine ⟨fun port h hm hrole hmsg => execHelloReceive_eq hm hrole hmsg, fun hst hheard hgive hhand hadopt hfenced =>
    execSyncComplete_eq hq hst hheard hgive hhand hadopt hfenced, fun h => ?_, fun h => execPairDrop_eq ?_ hq hqueries h,
    fun h4 hmsg => execPairDropReceive_eq hq hqueries h4 hmsg, fun hm hst hmsg => execPairJoinReceive_eq hm hst hmsg, fun step rids ms hst hmsg => ⟨?_, fun hask =>
      execHandoverReceive_step hact hst hmsg hask⟩⟩
  · intro known
    have hk : (s.popCmd c).knows = true ↔ known := State.knows_iff
    obtain ⟨h0, h1⟩ := execPairJoin_eq hq h
    exact ⟨h0, fun hm hup => ⟨fun hn => (h1 hm hup).1 (fun hh => hn (hk.1 hh)), fun hh => (h1 hm hup).2.1 (hk.2 hh), fun hh => (h1 hm hup).2.2 (hk.2 hh)⟩⟩
  · obtain ⟨-, -, hfn⟩ := h
    rcases hfn with hfn | hfn
    · omega
    · cases hfn
  · intro hask
    subst hask
    exact execHandoverReceive_ask hst hmsg

end Sys2Proof.Machine
end

section
/-!
What passes between the modules of a pair (R547, R548, R550, R551, R553, R554, R557, R558).
-/
namespace Sys2Proof.Machine
set_option Elab.async false

/-! ## Admission in a pair (R548, R550) -/

theorem Chg.pairState_eq {P : Foot} {s u : State} (h : Chg P s u) (hr : P.regs = false := by rfl) (hi : P.img = false := by rfl)
    (hf : P.fuses = false := by rfl) : u.pairState = s.pairState := h.fld_eq _ _ hr hi hf

theorem Chg.served_eq {P : Foot} {s u : State} (h : Chg P s u) (hi : P.img = false := by rfl) (he : P.engs = false := by rfl)
    (r : Nat) : u.served r = s.served r := by
  have heng (e : Nat) : u.eng e = s.eng e := h.eng_eq e he
  simp only [State.served, State.enginesOf, State.regionRec, h.img_eq hi, heng] <;> rfl

theorem execAdmitQueryReceive_eq {s : State} {engine : Fin 2} {region : Fin 8} {dec att pages query e : Nat} {c : SrvCfg} (hm : s.mode.mirror = 1)
    (h4 : s.pairState = 4) (hl : s.leader = true) (ht : s.takerOf engine region = some e) (hc : (s.eng e).cfg = some c)
    (hmsg : s.hasMsg 0x50 (·.says 0 (argBytes [0x0001, engine.val, region.val, dec, att, pages, query])) = true) {fits : Bool}
    (hfits : s.pairFits e c dec att pages = fits) :
    Yields (.admitQueryReceive engine region dec att pages query) s fun u =>
      u.mir.grants = (if fits then s.mir.grants ++ [(query, e, dec, att, pages)] else s.mir.grants) ∧ u.engs = s.engs ∧
      (s.mirUp ≠ [] → (⟨s.mode.partner, 0x50, 0, [0x0002, query, if fits then 0 else 0x0065]⟩ : Msg) ∈ u.fab.sent) := by
  have hexec : exec (.admitQueryReceive engine region dec att pages query) s = execAdmitQueryReceive engine region dec att pages query s := rfl
  unfold execAdmitQueryReceive at hexec
  rw [State.onMsg_has hmsg] at hexec
  generalize hv : s.dropMsg 0x50 (·.says 0 (argBytes [0x0001, engine.val, region.val, dec, att, pages, query])) = v at hexec
  have hsv : Chg { fab := true } s v := by
    rw [← hv]
    exact State.dropMsg_chg
  have htake : v.takerOf engine region = some e := by
    rw [State.takerOf, hsv.served_eq]
    exact ht
  have hvfits : v.pairFits e c dec att pages = fits := by
    rw [← hfits, ← hv]
    rfl
  rw [if_neg (by rw [hsv.mode_eq, hsv.pairState_eq, hsv.leader_eq, hm, h4, hl]; decide), htake] at hexec
  dsimp only at hexec
  rw [hsv.eng_eq, hc] at hexec
  dsimp only at hexec
  simp only [hvfits] at hexec
  have hsent (hup : s.mirUp ≠ []) (x : List Byte) : (⟨s.mode.partner, 0x50, 0, [0x0002, query, if fits then 0 else 0x0065]⟩ : Msg) ∈
      (v.mirSend 0x50 [0x0002, query, if fits then 0 else 0x0065] x).fab.sent := by
    rw [← hsv.mode_eq]
    exact State.mirSend_mem (hsv.mirUp_eq ▸ hup)
  cases fits with
  | true =>
    refine ⟨_, hexec, ?_, ?_, fun hup => hsent hup _⟩
    · exact congrArg (· ++ _) ((congrArg Mirror.grants State.mirSend_chg.mir_eq).trans (congrArg Mirror.grants hsv.mir_eq))
    · exact State.mirSend_chg.engs_eq.trans hsv.engs_eq
  | false =>
    refine ⟨_, hexec, ?_, ?_, fun hup => hsent hup _⟩
    · exact (congrArg Mirror.grants State.mirSend_chg.mir_eq).trans (congrArg Mirror.grants hsv.mir_eq)
    · exact State.mirSend_chg.engs_eq.trans hsv.engs_eq

/-- The admission of a request looks at no message and no query that waits. -/
theorem State.admitStatus_unasked (s : State) (f : Fab → Fab) (qs : List Query) (e : Nat) (c : SrvCfg) (q : Req) :
    ((s.modFab f).modMir fun m => { m with queries := qs }).admitStatus e c q false = s.admitStatus e c q false := rfl

theorem execAdmitVerdictReceive_eq {s : State} {query : Nat} {status : BitVec 16} {w : Query} {c : SrvCfg}
    (hmsg : s.hasMsg 0x50 (·.says 0 (argBytes [0x0002, query, status.toNat])) = true) (hw : s.mir.queries.find? (fun x => x.no == query) = some w)
    (hc : (s.eng w.engine).cfg = some c) (hfn : w.cmd.fn < 16) (he : w.engine < 2) (hs : s.ringStopped w.cmd.fn = false) {st : Nat}
    (hst : (if status.toNat ≠ 0 then status.toNat else s.admitStatus w.engine c (s.readied w.engine c w.req) false) = st) :
    (st ≠ 0 → Yields (.admitVerdictReceive query status) s fun u => Completed s u w.cmd 0x0101 st ∧ u.engs = s.engs) ∧
    (st = 0 → Yields (.admitVerdictReceive query status) s fun u =>
      Completed s u w.cmd 0x0101 0 (s.newRid w.engine).2.toNat ∧
      u.accn w.engine (s.newRid w.engine).1 =
        { s.readied w.engine c w.req with state := 1, rid := (s.newRid w.engine).2, order := (s.eng w.engine).admNo }) := by
  have hexec : exec (.admitVerdictReceive query status) s = execAdmitVerdictReceive query status s := rfl
  unfold execAdmitVerdictReceive at hexec
  rw [State.onMsg_has hmsg] at hexec
  have hq : (s.dropMsg 0x50 (·.says 0 (argBytes [0x0002, query, status.toNat]))).mir.queries.find? (fun x => x.no == query) = some w := hw
  rw [hq] at hexec
  dsimp only at hexec
  generalize hv : (s.dropMsg 0x50 (·.says 0 (argBytes [0x0002, query, status.toNat]))).modMir (fun m =>
    { m with queries := m.queries.filter fun x => x.no != query }) = v at hexec
  have hsv : Chg { fab := true, mir := true } s v := by
    rw [← hv]
    exact .via (.via .refl State.dropMsg_chg) .modMir
  have hvst (q : Req) : v.admitStatus w.engine c q false = s.admitStatus w.engine c q false := by
    rw [← hv]
    exact s.admitStatus_unasked _ _ _ _ _
  have hvready : v.readied w.engine c w.req = s.readied w.engine c w.req := by
    rw [← hv]
    rfl
  have hvrid : v.newRid w.engine = s.newRid w.engine := by
    rw [← hv]
    rfl
  have hvstop : v.ringStopped w.cmd.fn = false := by
    rw [State.ringStopped, hsv.fld_eq]
    exact hs
  rw [State.decideQuery, hsv.eng_eq, hc] at hexec
  dsimp only at hexec
  rw [hvready, hvst, hst, hvrid] at hexec
  refine ⟨fun h0 => ?_, fun h0 => ?_⟩
  · rw [if_pos h0] at hexec
    have hregs : RegsKept [.srvStat] v (v.satAdd F.srvStat_refused w.engine 1) := .satAdd (by omega) (by decide)
    refine ⟨_, hexec, State.completed (by decide) ?_ ?_, ?_⟩
    · rw [State.ringStopped_kept hregs (by omega) (by decide), hvstop]
    · rw [Chg.satAdd.func_eq, hsv.func_eq]
    · rw [State.refuse, (State.complete_fns (by decide)).engs_eq, Chg.satAdd.engs_eq, hsv.engs_eq]
  · rw [if_neg (not_not_intro h0)] at hexec
    obtain ⟨hacc, -, -⟩ := v.admitReq_fields w.engine (s.newRid w.engine).1 (s.newRid w.engine).2 (s.readied w.engine c w.req)
    refine ⟨_, hexec, State.completed (by decide) ?_ ?_, ?_⟩
    · rw [State.ringStopped, State.admitReq_chg.fld_eq]
      exact hvstop
    · rw [State.admitReq_chg.func_eq, hsv.func_eq]
    · rw [(State.complete_fns (by decide)).accn_eq, hacc, hsv.eng_eq]

/-! ## Twin commands (R547, R557) -/

theorem State.twinForward_step {s : State} (t : TwinCmd) (hl : s.leader = true) :
    (s.twinForward t).mir.twins = s.mir.twins ++ [{ t with applyStep := s.curStep ((s.twinRegion t).getD 0) + 3 }] := by
  unfold State.twinForward
  dsimp only
  rw [if_pos hl, State.mirSend_chg.mir_eq]
  rfl

theorem execTwinCommandReceive_launch {s : State} {t : TwinCmd} (hm : s.mode.mirror = 2) (hmsg : s.hasMsg 0x50 (·.says 0 (twinBytes t)) = true)
    (hk : t.kind = 0x0004) (hc : s.twinCoupled = true) : Yields (.twinCommandReceive t) s fun u =>
      t.region ∈ u.mir.launched ∧ (∀ r, r ≠ t.region → (r ∈ u.mir.launched ↔ r ∈ s.mir.launched)) ∧ u.mir.twins = s.mir.twins := by
  have hexec : exec (.twinCommandReceive t) s = execTwinCommandReceive t s := rfl
  unfold execTwinCommandReceive at hexec
  rw [State.onMsg_has hmsg] at hexec
  generalize hv : s.dropMsg 0x50 (·.says 0 (twinBytes t)) = v at hexec
  have hsv : Chg { fab := true } s v := by
    rw [← hv]
    exact State.dropMsg_chg
  have hvc : v.twinCoupled = true := by
    rw [State.twinCoupled, hsv.mode_eq, hsv.pairState_eq]
    exact hc
  rw [if_neg (by rw [hsv.mode_eq]; exact not_not_intro hm), if_pos hk, if_pos hvc] at hexec
  have hlaunched : (v.modMir fun m => { m with launched := m.launched.filter (· != t.region) ++ [t.region] }).mir.launched =
      s.mir.launched.filter (· != t.region) ++ [t.region] := by
    rw [← hsv.mir_eq]
    rfl
  refine ⟨_, hexec, ?_, fun r hr => ?_, ?_⟩
  · rw [hlaunched]
    exact List.mem_append_right _ (List.mem_singleton.2 rfl)
  · rw [hlaunched, List.mem_append, List.mem_filter, List.mem_singleton, bne_iff_ne]
    exact ⟨fun h => h.elim And.left fun h => absurd h hr, fun h => .inl ⟨h, hr⟩⟩
  · have htwins : v.mir.twins = s.mir.twins := congrArg Mirror.twins hsv.mir_eq
    exact htwins

theorem execTwinCommandReceive_eq {s : State} {t : TwinCmd} (hm : s.mode.mirror = 2) (hmsg : s.hasMsg 0x50 (·.says 0 (twinBytes t)) = true)
    (hk : t.kind ≠ 0x0004) (hc : s.twinLinked t.kind = true) :
    (s.leader = true → Yields (.twinCommandReceive t) s fun u =>
      ∃ x, u.mir.twins = s.mir.twins ++ [x] ∧ x.cmd = t.cmd ∧ x.kind = t.kind ∧ x.fromPartner = true ∧
        x.applyStep = s.curStep ((s.twinRegion t).getD 0) + 3) ∧
    (s.leader = false → t.fromPartner = false → Yields (.twinCommandReceive t) s fun u =>
      u.mir.twins = s.mir.twins ++ [{ t with fromPartner := true }] ∧ u.engs = s.engs) ∧
    (∀ x, s.leader = false → t.fromPartner = true →
      s.mir.twins.find? (fun x => x.applyStep == 0 && !x.fromPartner && x.kind == t.kind && x.cmd.fn == t.cmd.fn && x.cmd.tag == t.cmd.tag) = some x →
      Yields (.twinCommandReceive t) s fun u =>
        u.mir.twins = s.mir.twins.filter (fun y => y != x) ++ [{ t with cmd := x.cmd, fromPartner := false }]) := by
  have hexec : exec (.twinCommandReceive t) s = execTwinCommandReceive t s := rfl
  unfold execTwinCommandReceive at hexec
  rw [State.onMsg_has hmsg] at hexec
  generalize hv : s.dropMsg 0x50 (·.says 0 (twinBytes t)) = v at hexec
  have hsv : Chg { fab := true } s v := by
    rw [← hv]
    exact State.dropMsg_chg
  have hvc : v.twinLinked t.kind = true := by
    rw [State.twinLinked, State.twinPaired, hsv.mode_eq, hsv.pairState_eq]
    exact hc
  rw [if_neg (by rw [hsv.mode_eq]; exact not_not_intro hm), if_neg hk, if_neg (by rw [hvc]; decide)] at hexec
  dsimp only at hexec
  rw [hsv.leader_eq, hsv.mir_eq] at hexec
  refine ⟨fun hl => ?_, fun hl hf => ?_, fun x hl hf hx => ?_⟩
  · rw [if_pos hl] at hexec
    have hvl : v.leader = true := hsv.leader_eq.trans hl
    generalize hy : (if t.kind = 0x0101 then v.twinVerdict { t with fromPartner := true } else { t with fromPartner := true }) = y at hexec
    have hsame : SameTwin { t with fromPartner := true } y := by
      rw [← hy]
      split
      · exact v.twinVerdict_same _
      · exact ⟨rfl, rfl, rfl, rfl, rfl⟩
    obtain ⟨hkind, hcmd, hregion, -, hfrom⟩ := hsame
    have hstep : v.curStep ((v.twinRegion y).getD 0) = s.curStep ((s.twinRegion t).getD 0) := by
      rw [State.twinRegion, hregion, hsv.firstServing_eq, State.curStep, hsv.region_eq, hsv.region_eq]
      rfl
    refine ⟨_, hexec, _, (State.twinForward_step y hvl).trans (congrArg (· ++ _) (congrArg Mirror.twins hsv.mir_eq)), hcmd, hkind, hfrom, ?_⟩
    exact congrArg (· + 3) hstep
  · rw [if_neg (by rw [hl]; decide), if_neg (by rw [hf]; decide)] at hexec
    exact ⟨_, hexec, congrArg (· ++ _) (congrArg Mirror.twins hsv.mir_eq), hsv.engs_eq⟩
  · rw [if_neg (by rw [hl]; decide), if_pos hf, hx] at hexec
    exact ⟨_, hexec, congrArg (fun l : List TwinCmd => l.filter (fun y => y != x) ++ [{ t with cmd := x.cmd, fromPartner := false }]) (congrArg Mirror.twins hsv.mir_eq)⟩

/-- What a command that goes to the partner leaves. -/
theorem State.begins.forwards {s : State} {i : Instr} {c : Cmd} {op : Nat} {allFns : Bool} {t : TwinCmd} (_h : s.begins i c op allFns)
    (hexec : exec i s = .next (((s.popCmd c).twinForward t).answerAll c.fn)) (hk : t.kind = op) (hc : t.cmd = c) (hf : t.fromPartner = false) :
    Answers i c s fun u =>
      (u.func c.fn).cpls = (s.func c.fn).cpls ∧ u.engs = s.engs ∧ u.wts = s.wts ∧
      ∃ t, u.mir.twins = s.mir.twins ++ [t] ∧ t.kind = op ∧ t.cmd = c ∧ t.fromPartner = false := by
  obtain ⟨y, hy, hkind, hcmd, -, -, hfrom⟩ := (s.popCmd c).twinForward_twins t
  refine ⟨_, hexec, ?_, ?_, ?_, y, hy, hkind.trans hk, hcmd.trans hc, hfrom.trans hf⟩
  · rw [State.twinForward_chg.func_eq]
    exact s.cpls_popCmd c _
  · rw [State.twinForward_chg.engs_eq]
    rfl
  · rw [State.twinForward_chg.wts_eq]
    rfl

theorem execTwin_forwards {s : State} {c : Cmd} {i : Instr} {op : Nat} (htwin : s.twinPaired = true)
    (h : s.begins i c op (op != 0x0202 && op != 0x0203 && op != 0x0204))
    (hcase : (∃ rid, i = .cancel c rid ∧ op = 0x0102) ∨
      (∃ r f n a, i = .wptr c r f n a ∧ op = 0x0202 ∧ 0 < n.toNat ∧ n.toNat ≤ 256 ∧ (mfind s.wts.areas r.toNat).isSome = true ∧
        f.toNat + n.toNat ≤ 256 ∧ (s.popCmd c).fwPass 0 false a.toNat (8 * n.toNat) = true) ∨
      (∃ a n k, i = .swap c a n k ∧ op = 0x0203 ∧ s.mode.swap ≠ 1 ∧ 0 < n.toNat ∧ n.toNat ≤ 256 ∧ 0 < k.toNat ∧ k.toNat ≤ 16 ∧
        s.wts.swap = none ∧ (s.popCmd c).fwPass 0 false a.toNat (16 * n.toNat) = true ∧
        ∀ e ∈ cut 16 (rdBytes s.hostMem a.toNat (16 * n.toNat)), leAt e 2 2 = 0 ∧ leAt e 4 4 % 64 = 0) ∨
      (∃ r, i = .fenceOut c r ∧ op = 0x0204 ∧ s.mode.swap ≠ 0 ∧ ((s.popCmd c).served r.toNat).isEmpty = false ∧ r.toNat ∉ s.wts.fenced ∧
        s.handing = false)) :
    Answers i c s fun u =>
      (u.func c.fn).cpls = (s.func c.fn).cpls ∧ u.engs = s.engs ∧ u.wts = s.wts ∧
      ∃ t, u.mir.twins = s.mir.twins ++ [t] ∧ t.kind = op ∧ t.cmd = c ∧ t.fromPartner = false := by
  have hpt : (s.popCmd c).twinPaired = true := by
    rw [State.twinPaired, State.popCmd_chg.mode_eq, State.popCmd_chg.pairState_eq]
    exact htwin
  have hwts : (s.popCmd c).wts = s.wts := rfl
  have hmode : (s.popCmd c).mode = s.mode := rfl
  have hmem : (s.popCmd c).hostMem = s.hostMem := rfl
  rcases hcase with ⟨rid, rfl, rfl⟩ | ⟨r, f, n, a, rfl, rfl, hn, -, harea, hmax, hfw⟩ | ⟨a, n, k, rfl, rfl, hsw, hn, hmax, hp, hpmax, hnone, hfw, hall⟩ |
    ⟨r, rfl, rfl, hsw, hserved, hnot, hhand⟩
  · have hexec := h.exec_eq rfl
    rw [if_pos hpt] at hexec
    exact h.forwards hexec rfl rfl rfl
  · have hexec := h.exec_eq rfl
    dsimp only at hexec
    rw [hwts, if_neg (by rw [Option.isNone_eq_false_iff.2 harea]; simp only [Bool.false_eq_true, false_or]; omega), if_neg (by omega),
      if_neg (by rw [hfw]; decide), if_pos hpt] at hexec
    exact h.forwards hexec rfl rfl rfl
  · have hexec := h.exec_eq rfl
    have hgood : ¬(decide (n.toNat = 0 ∨ 256 < n.toNat ∨ k.toNat = 0 ∨ 16 < k.toNat) ||
        (cut 16 (rdBytes s.hostMem a.toNat (16 * n.toNat))).any fun e => leAt e 2 2 != 0 || leAt e 4 4 % 64 != 0) = true := by
      rw [Bool.not_eq_true, Bool.or_eq_false_iff, decide_eq_false_iff_not, List.any_eq_false]
      refine ⟨by omega, fun e he => ?_⟩
      obtain ⟨h1, h2⟩ := hall e he
      rw [h1, h2]
      decide
    dsimp only at hexec
    rw [hmode, hwts, hmem, if_neg hsw, if_neg (by rw [hnone]; decide), if_neg (by rw [hfw]; decide), if_neg hgood, if_pos hpt] at hexec
    exact h.forwards hexec rfl rfl rfl
  · have hexec := h.exec_eq rfl
    have h4 : (s.popCmd c).pairState = 4 := by
      rw [State.twinPaired, Bool.and_eq_true, beq_iff_eq, beq_iff_eq] at hpt
      exact hpt.2
    have hhand' : (s.popCmd c).handing = false := hhand
    dsimp only at hexec
    rw [hmode, hwts, if_neg hsw, if_neg (by rw [hserved, hhand', h4, List.contains_iff_mem]; simp [hnot]), if_pos hpt] at hexec
    exact h.forwards hexec rfl rfl rfl

/-! ## KV packets and step records (R550, R551) -/

theorem State.takePage_modFab (s : State) (f : Fab → Fab) (e : Nat) (annex : Bool) :
    (s.modFab f).takePage e annex = ((s.takePage e annex).1.modFab f, (s.takePage e annex).2) := by
  have hput (v : State) (k : Nat) (l : List Nat) : (v.modFab f).putCounts k l = (v.putCounts k l).modFab f := by
    have hcfg : (v.modFab f).eng k = v.eng k := rfl
    unfold State.putCounts
    rw [hcfg]
    cases (v.eng k).cfg <;> rfl
  have hpool : (s.modFab f).poolOf e annex = s.poolOf e annex := rfl
  have heng : (s.modFab f).eng e = s.eng e := rfl
  unfold State.takePage
  rw [hpool, heng]
  dsimp only
  generalize pickOf (((List.range (s.poolOf e annex).2).map ((s.poolOf e annex).1 + ·)).filter fun k => mget (s.eng e).pageCnt k 0 == 0) = o
  cases o with
  | none => rfl
  | some k =>
    dsimp only
    rw [← hput]
    rfl

theorem State.mapPage_modFab (s : State) (f : Fab → Fab) (e own p : Nat) :
    (s.modFab f).mapPage e own p = ((s.mapPage e own p).1.modFab f, (s.mapPage e own p).2) := by
  have hmap : (s.modFab f).mir.pageMap = s.mir.pageMap := rfl
  unfold State.mapPage
  rw [hmap, State.takePage_modFab]
  cases s.mir.pageMap.find? fun m => m.1 == e && m.2.1 == p with
  | some m => rfl
  | none =>
    dsimp only
    generalize s.takePage own false = t
    obtain ⟨v, o⟩ := t
    cases o <;> rfl

theorem State.takePage_memWf {s : State} {e : Nat} {annex : Bool} (h : memWf s.ext = true) : memWf (s.takePage e annex).1.ext = true := by
  have hput (v : State) (l : List Nat) (hv : memWf v.ext = true) : memWf (v.putCounts e l).ext = true := by
    unfold State.putCounts
    split
    · exact memWf_foldl (fun _ _ h => memWf_wrBytes _ _ h) _ hv
    · exact hv
  unfold State.takePage
  dsimp only
  split
  · exact hput _ _ h
  · exact h

theorem State.mapPage_memWf {s : State} {e own p : Nat} (h : memWf s.ext = true) : memWf (s.mapPage e own p).1.ext = true := by
  have ht := State.takePage_memWf (e := own) (annex := false) h
  unfold State.mapPage
  split
  · exact h
  · split
    · next v k hv =>
      rw [hv] at ht
      exact ht
    · next v hv =>
      rw [hv] at ht
      exact ht

theorem execKvPacketReceive_eq {s : State} {k : KvPacket} {c : SrvCfg} (hc : (s.eng (s.ownFor k.engine)).cfg = some c) (ht : s.takesMirror = true)
    (hone : k.count = 1) (hfirst : k.first < 256) (hlen : k.data.length = 4 + kvBytes c.pageBytes) (hmem : memWf s.ext = true)
    (harr : s.hasArrived (fun p => p.type == 0x51 && p.body == kvBody k) = true) {z a b : Nat} (hz : kvBytes c.pageBytes = z)
    (ha : c.page (s.mapPage k.engine (s.ownFor k.engine) k.page).2 + 4 * k.first = a)
    (hb : c.page (s.mapPage k.engine (s.ownFor k.engine) k.page).2 + 1024 + z * k.first = b) :
    Yields (.kvPacketReceive k) s fun u =>
      (∀ x, rdByte u.ext x =
        if b ≤ x ∧ x < b + z then k.data.getD (4 + (x - b)) 0
        else if a ≤ x ∧ x < a + 4 then k.data.getD (x - a) 0 else rdByte (s.mapPage k.engine (s.ownFor k.engine) k.page).1.ext x) ∧
      (k.engine, k.step, k.page) ∈ u.mir.kvPages ∧ ∃ n, (k.engine, k.step, n + 1) ∈ u.mir.kvGot := by
  have hexec : exec (.kvPacketReceive k) s = execKvPacketReceive k s := rfl
  unfold execKvPacketReceive at hexec
  rw [State.onArrived_has harr] at hexec
  dsimp only at hexec
  obtain ⟨f, hf⟩ : ∃ f, s.dropArrived (fun p => p.type == 0x51 && p.body == kvBody k) = s.modFab f :=
    ⟨fun _ => (s.dropArrived fun p => p.type == 0x51 && p.body == kvBody k).fab, rfl⟩
  have hown : (s.modFab f).ownFor k.engine = s.ownFor k.engine := rfl
  have heng (e : Nat) : (s.modFab f).eng e = s.eng e := rfl
  have htake : (s.modFab f).takesMirror = true := ht
  rw [hf, hown, heng, hc] at hexec
  dsimp only at hexec
  rw [htake, hz, if_neg (by rw [hone, hlen, hz, Nat.one_mul, decide_eq_false (by omega), decide_eq_false (by omega)]; decide), State.mapPage_modFab] at hexec
  generalize hp : s.mapPage k.engine (s.ownFor k.engine) k.page = t at hexec ha hb ⊢
  obtain ⟨v, g⟩ := t
  have hvmem : memWf v.ext = true := by
    have hwf := State.mapPage_memWf (e := k.engine) (own := s.ownFor k.engine) (p := k.page) hmem
    rw [hp] at hwf
    exact hwf
  dsimp only at hexec ha hb ⊢
  rw [hone] at hexec
  refine ⟨_, hexec, fun x => ?_, List.mem_append_right _ (List.mem_singleton.2 rfl), _, List.mem_append_right _ (List.mem_singleton.2 rfl)⟩
  have hext : rdByte (wrBytes (wrBytes v.ext (c.page g + 4 * (k.first + 0)) ((k.data.drop (0 * (4 + z))).take 4))
      (c.page g + 1024 + z * (k.first + 0)) (((k.data.drop (0 * (4 + z))).drop 4).take z)) x =
      if b ≤ x ∧ x < b + z then k.data.getD (4 + (x - b)) 0 else if a ≤ x ∧ x < a + 4 then k.data.getD (x - a) 0 else rdByte v.ext x := by
    have hl1 : (k.data.take 4).length = 4 := by rw [List.length_take, hlen]; omega
    have hl2 : ((k.data.drop 4).take z).length = z := by rw [List.length_take, List.length_drop, hlen, hz]; omega
    rw [Nat.add_zero, Nat.zero_mul, List.drop_zero, ha, hb, rdByte_wrBytes _ _ _ (memWf_wrBytes _ _ hvmem), rdByte_wrBytes _ _ _ hvmem, hl1, hl2]
    split_ifs with h1 h2
    · rw [List.getD_eq_getElem?_getD, List.getD_eq_getElem?_getD, List.getElem?_take_of_lt (by omega), List.getElem?_drop]
    · rw [List.getD_eq_getElem?_getD, List.getD_eq_getElem?_getD, List.getElem?_take_of_lt (by omega)]
    · rfl
  exact hext

/-- The mirror but for its map of pages, and the loads the partner told of, stay. -/
def State.MapOnly (s u : State) : Prop :=
  ({ u.mir with pageMap := [] } : Mirror) = { s.mir with pageMap := [] } ∧ ∀ e, (u.eng e).mirLoad = (s.eng e).mirLoad

namespace State.MapOnly

variable {s u v : State}

theorem refl : s.MapOnly s := ⟨rfl, fun _ => rfl⟩

theorem trans (h : s.MapOnly u) (k : u.MapOnly v) : s.MapOnly v := ⟨k.1.trans h.1, fun e => (k.2 e).trans (h.2 e)⟩

theorem foldl {α : Type} {g : State → α → State} (hg : ∀ (v : State) x, v.MapOnly (g v x)) (l : List α) (s : State) : s.MapOnly (l.foldl g s) := by
  induction l generalizing s with
  | nil => exact refl
  | cons x l ih => exact (hg s x).trans (ih _)

theorem of_chg {P : Foot} (h : Chg P s u) (hm : P.mir = false := by rfl) (he : P.engs = false := by rfl) : s.MapOnly u :=
  ⟨by rw [h.mir_eq hm], fun e => by rw [h.eng_eq e he]⟩

theorem modEng {n : Nat} {f : Engine → Engine} (hf : ∀ g, (f g).mirLoad = g.mirLoad) : s.MapOnly (s.modEng n f) := by
  refine ⟨rfl, fun e => ?_⟩
  by_cases h : e = n
  · rw [h, State.modEng_same, hf]
  · rw [State.modEng_ne _ _ _ h]

theorem takePage {e : Nat} {annex : Bool} : s.MapOnly (s.takePage e annex).1 := by
  have hmod (k : Nat) : s.MapOnly (s.modEng e fun g => { g with pageCnt := mput g.pageCnt k 1 }) := .modEng fun _ => rfl
  unfold State.takePage
  dsimp only
  split
  · exact (hmod _).trans (.of_chg State.putCounts_chg)
  · exact .refl

theorem mapPage {e own p : Nat} : s.MapOnly (s.mapPage e own p).1 := by
  have ht : s.MapOnly (s.takePage own false).1 := .takePage
  unfold State.mapPage
  split
  · exact .refl
  · split
    · next v k hv =>
      rw [hv] at ht
      exact ht.trans ⟨rfl, fun _ => rfl⟩
    · next v hv =>
      rw [hv] at ht
      exact ht

theorem mapPages {e own : Nat} {ps : List Nat} : s.MapOnly (s.mapPages e own ps).1 := by
  induction ps generalizing s with
  | nil => exact refl
  | cons p ps ih =>
    rw [State.mapPages]
    exact mapPage.trans ih

theorem trimMap : s.MapOnly s.trimMap := by
  have hdrop (v : State) (e : Nat) (ps : List Nat) : v.MapOnly (v.dropPages e ps) := by
    have hmod : v.MapOnly (v.modEng e fun g => { g with pageCnt := ps.foldl pageDown g.pageCnt }) := .modEng fun _ => rfl
    exact hmod.trans (.of_chg State.putCounts_chg)
  have hmap (v : State) (l : Mirror → List (Nat × Nat × Nat × Nat)) : v.MapOnly (v.modMir fun m => { m with pageMap := l m }) := ⟨rfl, fun _ => rfl⟩
  unfold State.trimMap
  exact (foldl (fun _ _ => hdrop _ _ _) _ s).trans (hmap _ _)

theorem mir {β : Type} (h : s.MapOnly u) (f : Mirror → β) (hf : ∀ m : Mirror, f { m with pageMap := [] } = f m := by exact fun _ => rfl) : f u.mir = f s.mir := by
  rw [← hf u.mir, h.1, hf]

end State.MapOnly

theorem execStepRecordApply_eq {s : State} {r : StepRecord} (ht : s.takesMirror = true) (hmsg : s.hasMsg 0x52 (·.says 0 (recordBytes r)) = true)
    (hkv : r.kvCount ≤ ((s.mir.kvGot.find? fun g => g.1 == r.engine && g.2.1 == r.step).map (·.2.2)).getD 0) :
    Yields (.stepRecordApply r) s fun u =>
      (∀ m ∈ r.reqs, 2 ≤ m.state → m.state ≤ 3 → (r.engine, m) ∈ u.mir.mirrored) ∧
      (∀ m ∈ r.reqs, m.state = 1 → (r.engine, m.rid) ∈ u.mir.loading) ∧
      u.mir.grants = s.mir.grants.filter (fun g => g.2.1 != s.ownFor r.engine || decide (r.loadQuery ≤ g.1)) ∧
      (∀ c ∈ r.catAdd, (r.engine, c) ∈ u.mir.mirCat) ∧
      u.mir.pendEmis = (if s.mode.mirror = 1 then s.mir.pendEmis ++ r.emissions else s.mir.pendEmis) ∧
      (u.eng (s.ownFor r.engine)).mirLoad = (r.loadDec, r.loadAtt, r.loadPages) ∧
      (s.mirUp ≠ [] → (⟨s.mode.partner, 0x50, 0, [0x0007, r.step, r.engine]⟩ : Msg) ∈ u.fab.sent) := by
  have hexec : exec (.stepRecordApply r) s = execStepRecordApply r s := rfl
  unfold execStepRecordApply at hexec
  dsimp only at hexec
  rw [if_neg (by rw [ht, decide_eq_false (by omega)]; decide), State.onMsg_has hmsg] at hexec
  generalize hv : s.dropMsg 0x52 (·.says 0 (recordBytes r)) = v at hexec
  have hsv : Chg { fab := true } s v := by
    rw [← hv]
    exact State.dropMsg_chg
  have hown : v.ownFor r.engine = s.ownFor r.engine := by rw [State.ownFor, hsv.eng_eq, State.ownFor]
  rw [hown] at hexec
  generalize hw : (v.modMir fun m => _) = w at hexec
  have hwmir : w.mir.mirrored = s.mir.mirrored.filter (fun q => !(q.1 == r.engine && r.reqs.any fun m => m.rid == q.2.rid)) ++
        (r.reqs.filter fun m => decide (2 ≤ m.state) && decide (m.state ≤ 3)).map (fun q => (r.engine, q)) ∧
      w.mir.loading = s.mir.loading.filter (fun q => !r.reqs.any fun m => m.rid == q.2) ++ (r.reqs.filter fun q => q.state == 1).map (fun q => (r.engine, q.rid)) ∧
      w.mir.grants = s.mir.grants.filter (fun g => g.2.1 != s.ownFor r.engine || decide (r.loadQuery ≤ g.1)) ∧
      (∃ l, w.mir.mirCat = l ++ r.catAdd.map fun c => (r.engine, c)) ∧
      w.mir.pendEmis = (if s.mode.mirror = 1 then s.mir.pendEmis ++ r.emissions else s.mir.pendEmis) := by
    rw [← hw, ← hsv.mir_eq, ← hsv.mode_eq]
    exact ⟨rfl, rfl, rfl, ⟨_, rfl⟩, rfl⟩
  obtain ⟨hmirrored, hloading, hgrants, ⟨l, hcat⟩, hpend⟩ := hwmir
  generalize hy : (r.reqs.filter fun m => decide (2 ≤ m.state) && decide (m.state ≤ 3)).foldl
      (fun t q => (t.mapPages r.engine (s.ownFor r.engine) q.pages).1) w = y at hexec
  have hwy : w.MapOnly y ∧ Chg { engs := true, ext := true, mir := true } w y := by
    rw [← hy]
    exact ⟨.foldl (fun _ _ => .mapPages) _ _, .foldl (fun _ _ => State.mapPages_chg) _ .refl⟩
  generalize hz : (y.modEng (s.ownFor r.engine) fun g => { g with mirLoad := (r.loadDec, r.loadAtt, r.loadPages) }).trimMap = z at hexec
  have hyz : (y.modEng (s.ownFor r.engine) fun g => { g with mirLoad := (r.loadDec, r.loadAtt, r.loadPages) }).MapOnly z := by
    rw [← hz]
    exact .trimMap
  have hsz : Chg { fab := true, engs := true, ext := true, mir := true } s z := by
    rw [← hz]
    refine .via (.via ?_ .modEng) State.trimMap_chg
    refine .trans ?_ (.mono hwy.2)
    rw [← hw]
    exact .via (.mono hsv) .modMir
  have hkeep {β : Type} (f : Mirror → β) (hf : ∀ m : Mirror, f { m with pageMap := [] } = f m) (t : List Nat) (b : List Byte) : f (z.mirSend 0x50 t b).mir = f w.mir := by
    rw [State.mirSend_chg.mir_eq, hyz.mir f hf]
    exact hwy.1.mir f hf
  refine ⟨_, hexec, fun m hm h2 h3 => ?_, fun m hm h1 => ?_, ?_, fun c hc => ?_, ?_, ?_, fun hup => ?_⟩
  · rw [hkeep Mirror.mirrored (fun _ => rfl), hmirrored]
    exact List.mem_append_right _ (List.mem_map_of_mem (List.mem_filter.2 ⟨hm, by rw [decide_eq_true h2, decide_eq_true h3]; rfl⟩))
  · rw [hkeep Mirror.loading (fun _ => rfl), hloading]
    exact List.mem_append_right _ (List.mem_map.2 ⟨m, List.mem_filter.2 ⟨hm, by rw [h1]; rfl⟩, rfl⟩)
  · rw [hkeep Mirror.grants (fun _ => rfl), hgrants]
  · rw [hkeep Mirror.mirCat (fun _ => rfl), hcat]
    exact List.mem_append_right _ (List.mem_map_of_mem hc)
  · rw [hkeep Mirror.pendEmis (fun _ => rfl), hpend]
  · rw [State.mirSend_chg.eng_eq, hyz.2, State.modEng_same]
  · rw [← hsz.mode_eq]
    exact State.mirSend_mem (hsz.mirUp_eq ▸ hup)

theorem execAckReceive_eq {s : State} {step : Nat} {engine : Fin 2} (hmsg : s.hasMsg 0x50 (·.says 0 (argBytes [0x0007, step, engine.val])) = true) :
    Yields (.ackReceive step engine) s fun u =>
      u.mir.waitAck = s.mir.waitAck.filter (fun w => !(w.1 == engine.val && w.2.1 == step)) ∧ u.regs = s.regs ∧ u.engs = s.engs := by
  have hexec : exec (.ackReceive step engine) s = execAckReceive step engine s := rfl
  unfold execAckReceive at hexec
  rw [State.onMsg_has hmsg] at hexec
  exact ⟨_, hexec, rfl, rfl, rfl⟩

/-! ## Waits, heartbeats and losses (R553, R554, R558) -/

/-- The registers that a change of the pair's state writes alone. -/
def stateKinds : List RegKind := [.mirState, .hstEvstat]

/-- What a change of the pair's state keeps: fields of no kind it writes, and the count of heartbeats missed. -/
theorem State.setPair_regs (s : State) (st : Nat) : RegsKept stateKinds s (s.setPair st) ∧
    (s.setPair st).fld F.mirState_missed 0 = s.fld F.mirState_missed 0 ∧ (s.setPair st).fld F.mirState_peerstep 0 = s.fld F.mirState_peerstep 0 := by
  have hopen : RegsKept [] s (if st = 7 then s else s.abandon) := .ite .refl .abandon
  have hkind : RegsKept stateKinds s (if st = 7 then s else s.abandon) := .ite .refl .abandon
  have hset (v : State) : RegsKept stateKinds v ((v.setFld F.mirState_state 0 st).event 0x02C0 8 0 []) := .trans (.setFld (by decide) (by decide)) (.event (by decide))
  have hfld (v : State) (f : Fld) (h : f.kind = .mirState) (hhi : f.hi < 60) :
      ((v.setFld F.mirState_state 0 st).event 0x02C0 8 0 []).fld f 0 = v.fld f 0 := by
    rw [State.fld_event _ _ _ _ _ (by decide) (by rw [h]; decide), State.fld_setFld_bits _ ⟨h, by decide, by omega, .inl hhi⟩]
  unfold State.setPair
  dsimp only
  generalize (if st = 7 then s else s.abandon) = v at hopen hkind ⊢
  have hv (f : Fld) : v.fld f 0 = s.fld f 0 := hopen.fld f 0 (by decide) (fun q hq => absurd hq (List.not_mem_nil))
  split_ifs
  · exact ⟨.refl, rfl, rfl⟩
  · rw [State.freeMirror_chg.fld_eq, State.freeMirror_chg.fld_eq, hfld _ _ rfl (by decide), hfld _ _ rfl (by decide), hv, hv]
    exact ⟨(hkind.trans (hset _)).trans (.of_chg State.freeMirror_chg), rfl, rfl⟩
  · rw [hfld _ _ rfl (by decide), hfld _ _ rfl (by decide), hv, hv]
    exact ⟨hkind.trans (hset _), rfl, rfl⟩

theorem State.settleQueries_none {s : State} (h : s.mir.queries = []) : s.settleQueries = s ∨ s.settleQueries = s.modMir fun m => { m with queries := [] } := by
  unfold State.settleQueries
  split_ifs
  · exact .inl rfl
  · dsimp only
    rw [h]
    exact .inr rfl

theorem State.settleQueries_fields {s : State} (h : s.mir.queries = []) :
    (∀ f i, s.settleQueries.fld f i = s.fld f i) ∧ ∃ l, s.settleQueries.mir = { s.mir with queries := l } := by
  rcases State.settleQueries_none h with hs | hs
  · rw [hs]
    exact ⟨fun _ _ => rfl, s.mir.queries, rfl⟩
  · rw [hs]
    exact ⟨fun _ _ => Chg.modMir.fld_eq .., [], rfl⟩

theorem State.setPair_waitAck {s : State} {st : Nat} (h : s.mir.waitAck = []) : (s.setPair st).mir.waitAck = [] := by
  have hopen : (if st = 7 then s else s.abandon).mir.waitAck = [] := by
    split_ifs
    · exact h
    · exact (State.abandon_keeps Mirror.waitAck fun _ => rfl).trans h
  have hset (v : State) : ((v.setFld F.mirState_state 0 st).event 0x02C0 8 0 []).mir = v.mir := State.event_chg.mir_eq
  unfold State.setPair
  dsimp only
  generalize (if st = 7 then s else s.abandon) = v at hopen ⊢
  split_ifs
  · exact h
  · rfl
  · rw [hset, hopen]

theorem execAckwaitExpiry_eq {s : State} {engine : Fin 2} (hq : s.mir.queries = [])
    (hw : ∃ w ∈ s.mir.waitAck, w.1 = engine.val ∧ w.2.2 + 100 * s.fld F.mirCtl_ackwait 0 ≤ s.wall) :
    Yields (.ackwaitExpiry engine) s fun u =>
      u.pairState = 5 ∧ u.mir.waitAck = [] ∧ u.fld F.mirStat_acklate 0 = min (s.fld F.mirStat_acklate 0 + 1) 65535 := by
  have hexec : exec (.ackwaitExpiry engine) s = execAckwaitExpiry engine s := rfl
  unfold execAckwaitExpiry at hexec
  obtain ⟨w, hw, he, hdue⟩ := hw
  rw [if_pos (List.any_eq_true.2 ⟨w, hw, by rw [he, decide_eq_true hdue, beq_self_eq_true]; rfl⟩)] at hexec
  generalize hv : ((s.modMir fun m => { m with waitAck := [] }).event 0x02C4 8 0 []).satAdd F.mirStat_acklate 0 1 = v at hexec
  have hvmir : v.mir = { s.mir with waitAck := [] } := by
    rw [← hv, Chg.satAdd.mir_eq, State.event_chg.mir_eq]
    rfl
  have hvlate : v.fld F.mirStat_acklate 0 = min (s.fld F.mirStat_acklate 0 + 1) 65535 := by
    rw [← hv, State.satAdd, State.fld_setFld_eq _ (by decide) (Nat.lt_of_le_of_lt (Nat.min_le_right ..) (by decide)),
      State.fld_event _ _ _ _ _ (by decide) (by decide), Chg.modMir.fld_eq]
    rfl
  obtain ⟨hregs, -, -⟩ := v.setPair_regs 5
  have hqueries : (v.setPair 5).mir.queries = [] := (congrArg (fun q => q.2.2.1) State.setPair_mirrored).trans (by rw [hvmir]; exact hq)
  obtain ⟨hfld, l, hm⟩ := State.settleQueries_fields hqueries
  refine ⟨_, hexec, ?_, ?_, ?_⟩
  · exact (hfld _ _).trans (v.setPair_state 5 (by decide))
  · rw [hm]
    exact State.setPair_waitAck (by rw [hvmir])
  · rw [hfld, hregs.fld _ _ (by decide) (by decide), hvlate]

theorem State.takeVoice_mir (s : State) (k : Nat) : (s.takeVoice k).mir = { s.mir with pendEmis := [] } := by
  have hemis (l : List Emission) (v : State) : (l.foldl (fun s m => s.modFunc m.fn fun f => { f with emis := f.emis ++ [m] }) v).mir = v.mir :=
    Chg.mir_eq (P := { fns := true }) (.foldl (fun _ _ => .mono .modFunc) _ .refl)
  unfold State.takeVoice
  dsimp only
  rw [hemis]

/-- What a heartbeat with a digest keeps: the count of misses, the partner's step, and what the pair knows. -/
structure State.BeatKept (s u : State) : Prop where
  missed : u.fld F.mirState_missed 0 = s.fld F.mirState_missed 0
  peerstep : u.fld F.mirState_peerstep 0 = s.fld F.mirState_peerstep 0
  mir : Mirrored u.mir = Mirrored s.mir

theorem State.BeatKept.refl (s : State) : s.BeatKept s := ⟨rfl, rfl, rfl⟩

theorem State.BeatKept.trans {s u v : State} (h : s.BeatKept u) (k : u.BeatKept v) : s.BeatKept v :=
  ⟨k.missed.trans h.missed, k.peerstep.trans h.peerstep, k.mir.trans h.mir⟩

theorem State.BeatKept.of_chg {P : Foot} {s u : State} (h : Chg P s u) (hm : P.mir = false := by rfl) (hr : P.regs = false := by rfl)
    (hi : P.img = false := by rfl) (hf : P.fuses = false := by rfl) : s.BeatKept u :=
  ⟨h.fld_eq _ _ hr hi hf, h.fld_eq _ _ hr hi hf, by rw [h.mir_eq hm]⟩

theorem State.digestMismatch_beat {s : State} {k : Nat} : s.BeatKept (s.digestMismatch k) := by
  have hvoice (v : State) (k : Nat) : v.BeatKept (v.takeVoice k) := ⟨State.takeVoice_chg.fld_eq .., State.takeVoice_chg.fld_eq .., by rw [State.takeVoice_mir]; rfl⟩
  have hfns (v : State) (m : SMap Func) (g : SMap Engine) : v.BeatKept { v with fns := m, engs := g } := ⟨rfl, rfl, rfl⟩
  have hstop (l : List Nat) (v : State) : v.BeatKept (l.foldl (fun s r => s.modRegion r fun R => { R with series := R.series.map fun x => { x with stopReq := true } }) v) :=
    .of_chg (P := { regions := true }) (.foldl (fun _ _ => .modRegion) _ .refl)
  have hset : s.BeatKept (((s.event 0x02C5 8 0 [(8, k)]).satAdd F.mirStat_digestmm 0 1).setPair 5) := by
    have hcount : s.BeatKept ((s.event 0x02C5 8 0 [(8, k)]).satAdd F.mirStat_digestmm 0 1) := by
      have hregs : RegsKept [.hstEvstat, .mirStat] s ((s.event 0x02C5 8 0 [(8, k)]).satAdd F.mirStat_digestmm 0 1) :=
        .trans (.event (by decide)) (.satAdd (by decide) (by decide))
      refine ⟨hregs.fld _ _ (by decide) (by decide), hregs.fld _ _ (by decide) (by decide), ?_⟩
      rw [Chg.satAdd.mir_eq, State.event_chg.mir_eq]
    obtain ⟨-, h1, h2⟩ := State.setPair_regs ((s.event 0x02C5 8 0 [(8, k)]).satAdd F.mirStat_digestmm 0 1) 5
    exact hcount.trans ⟨h1, h2, State.setPair_mirrored⟩
  unfold State.digestMismatch
  extract_lets s1 s2 s3
  have h3 : s.BeatKept s3 := hset.trans (hfns s1 _ _)
  split_ifs
  · exact hset.trans (hvoice _ _)
  · exact h3.trans (hstop _ _)

theorem State.checkDigest_beat {s : State} {k : Nat} : s.BeatKept (s.checkDigest k) := by
  unfold State.checkDigest
  split
  · split_ifs
    · exact .refl s
    · exact ⟨rfl, rfl, rfl⟩
    · exact State.digestMismatch_beat
  · exact .refl s

/-- What a heartbeat of the partner changes of what the module knows of its pair. -/
def State.heard (s : State) (h : Heartbeat) : State :=
  s.modMir fun m =>
    { m with
      hbStep := h.step + 1, hbLast := s.wall
      pendEmis := if s.mode.mirror = 1 then m.pendEmis.filter (fun x => decide (h.step < x.step)) else m.pendEmis
      peerDigs := if s.mode.mirror = 2 then m.peerDigs.filter (fun d => d.1 != h.step) ++ [(h.step, h.digest)] else m.peerDigs }

theorem State.heard_chg {s : State} {h : Heartbeat} : Chg { mir := true } s (s.heard h) := .modMir

theorem State.heard_mir (s : State) (h : Heartbeat) :
    (s.heard h).mir.hbStep = h.step + 1 ∧ (s.heard h).mir.hbLast = s.wall ∧ (s.heard h).mir.queries = s.mir.queries ∧
      (s.mode.mirror = 1 → (s.heard h).mir.pendEmis = s.mir.pendEmis.filter fun x => decide (h.step < x.step)) :=
  ⟨rfl, rfl, rfl, fun h1 => if_pos h1⟩

theorem execHeartbeatReceive_eq {s : State} {port : Fin 32} {h : Heartbeat} (hm : s.mode.mirror ≠ 0) (hrole : s.portRole port = 2) (hq : s.mir.queries = [])
    (hmsg : s.hasMsg 0x53 (·.says 0 (heartbeatBytes h)) = true) :
    Yields (.heartbeatReceive port h) s fun u =>
      u.fld F.mirState_missed 0 = 0 ∧ u.fld F.mirState_peerstep 0 = h.step % 2 ^ 48 ∧ u.mir.hbStep = h.step + 1 ∧
      u.mir.hbLast = s.wall ∧ (s.mode.mirror = 1 → u.mir.pendEmis = s.mir.pendEmis.filter fun x => decide (h.step < x.step)) := by
  have hexec : exec (.heartbeatReceive port h) s = execHeartbeatReceive port h s := rfl
  unfold execHeartbeatReceive at hexec
  rw [State.onMsg_has hmsg] at hexec
  generalize hv : s.dropMsg 0x53 (·.says 0 (heartbeatBytes h)) = v at hexec
  have hsv : Chg { fab := true } s v := by
    rw [← hv]
    exact State.dropMsg_chg
  rw [if_neg (by rw [hsv.mode_eq, State.portRole, hsv.fld_eq]; exact fun hh => hh.elim hm fun hh => hh hrole)] at hexec
  dsimp only at hexec
  generalize hx : (v.setFld F.mirState_missed 0 0).setFld F.mirState_peerstep 0 h.step = x at hexec
  have hvx : Chg { regs := true } v x := by
    rw [← hx]
    exact .via (.via .refl .setFld) .setFld
  have hxmiss : x.fld F.mirState_missed 0 = 0 ∧ x.fld F.mirState_peerstep 0 = h.step % 2 ^ 48 ∧ x.wall = s.wall := by
    rw [← hx]
    have hwidth : F.mirState_peerstep.width = 48 := by decide
    refine ⟨?_, by rw [State.fld_setFld_mod _ _ _ _ (by decide), hwidth], ?_⟩
    · rw [State.fld_setFld_bits _ (by decide), State.fld_setFld_eq _ (by decide) (by decide)]
    · have hregs : RegsKept [.mirState] v ((v.setFld F.mirState_missed 0 0).setFld F.mirState_peerstep 0 h.step) :=
        .trans (.setFld (by decide) (by decide)) (.setFld (by decide) (by decide))
      exact (hregs .srvWall 0 (by decide) (by decide)).trans (hsv.reg_eq ..)
  obtain ⟨hx1, hx2, hx3⟩ := hxmiss
  have hxmode : x.mode = s.mode := hvx.mode_eq.trans hsv.mode_eq
  have hxmir : x.mir = s.mir := hvx.mir_eq.trans hsv.mir_eq
  replace hexec : exec (.heartbeatReceive port h) s =
      .next (if (x.heard h).mode.mirror = 2 then ((x.heard h).checkDigest h.step).settleQueries else x.heard h) := hexec
  obtain ⟨h1, h2, h3, h4⟩ := x.heard_mir h
  have hxy : Chg { mir := true } x (x.heard h) := State.heard_chg
  generalize x.heard h = y at hexec h1 h2 h3 h4 hxy
  have hymode : y.mode = s.mode := hxy.mode_eq.trans hxmode
  have hyfld (f : Fld) : y.fld f 0 = x.fld f 0 := hxy.fld_eq ..
  rw [hx3] at h2
  rw [hxmir, hq] at h3
  rw [hxmode, hxmir] at h4
  rw [hymode] at hexec
  by_cases h2m : s.mode.mirror = 2
  · rw [if_pos h2m] at hexec
    have hbeat := State.checkDigest_beat (s := y) (k := h.step)
    obtain ⟨hb1, hb2, hb3⟩ := hbeat
    have hzq : (y.checkDigest h.step).mir.queries = [] := (congrArg (fun q => q.2.2.1) hb3).trans h3
    obtain ⟨k1, l, k3⟩ := State.settleQueries_fields hzq
    refine ⟨_, hexec, ?_, ?_, ?_, ?_, fun h1 => ?_⟩
    · rw [k1, hb1, hyfld, hx1]
    · rw [k1, hb2, hyfld, hx2]
    · rw [k3]
      exact (congrArg (fun q => q.2.2.2.1) hb3).trans h1
    · rw [k3]
      exact (congrArg (fun q => q.2.2.2.2) hb3).trans h2
    · omega
  · rw [if_neg h2m] at hexec
    exact ⟨_, hexec, (hyfld _).trans hx1, (hyfld _).trans hx2, h1, h2, h4⟩

theorem State.sendHeartbeat_mem {s : State} {k : Nat} {dig : List Byte} (h : s.mirUp ≠ []) :
    (⟨s.mode.partner, 0x53, 0, [k, s.wall, leNat dig]⟩ : Msg) ∈ (s.sendHeartbeat k dig).fab.sent := by
  have hqueue (p : Nat) (l : List Packet) (u : State) : (l.foldl (fun s f => s.queueOn p f) u).fab = u.fab :=
    Chg.fab_eq (P := { links := true }) (.foldl (fun _ _ => State.queueOn_chg) l .refl)
  unfold State.sendHeartbeat
  dsimp only
  generalize (heartbeatBytes ⟨k, s.wall, if s.mode.mirror = 2 then dig else []⟩) = body
  have hsends (l : List Nat) (u : State) (hsu : Chg { links := true, fab := true } s u)
      (hl : l ≠ [] ∨ (⟨s.mode.partner, 0x53, 0, [k, s.wall, leNat dig]⟩ : Msg) ∈ u.fab.sent) :
      (⟨s.mode.partner, 0x53, 0, [k, s.wall, leNat dig]⟩ : Msg) ∈
        (l.foldl (fun s p => (fragments 0x53 s.mode.partner s.ownId 0 body).foldl (fun s f => s.queueOn p f)
          (s.modFab fun f => { f with sent := f.sent ++ [⟨s.mode.partner, 0x53, 0, [k, s.wall, leNat dig]⟩] })) u).fab.sent := by
    induction l generalizing u with
    | nil => exact hl.elim (fun hh => absurd rfl hh) id
    | cons p l ih =>
      have hnext : Chg { links := true, fab := true } u ((fragments 0x53 u.mode.partner u.ownId 0 body).foldl (fun s f => s.queueOn p f)
          (u.modFab fun f => { f with sent := f.sent ++ [⟨u.mode.partner, 0x53, 0, [k, u.wall, leNat dig]⟩] })) :=
        .foldl (fun _ _ => .mono State.queueOn_chg) _ (.mono .modFab)
      refine ih _ (hsu.trans hnext) (.inr ?_)
      rw [hqueue, ← hsu.mode_eq, show s.wall = u.wall from (hsu.reg_eq ..).symm]
      exact List.mem_append_right _ (List.mem_singleton_self _)
  exact hsends _ _ .refl (.inl h)

theorem execIdleHeartbeat_eq {s : State} (hm : s.mode.mirror ≠ 0) (hserve : s.firstServing = none)
    (hdue : s.mir.hbIdle + 100 * max 1 (s.fld F.mirCtl_idlehb 0) ≤ s.wall) :
    Yields .idleHeartbeat s fun u =>
      u.mir.hbIdle = s.wall ∧ (s.mirUp ≠ [] → ∃ dig, (⟨s.mode.partner, 0x53, 0, [s.mir.ownStep, s.wall, dig]⟩ : Msg) ∈ u.fab.sent) := by
  have hexec : exec .idleHeartbeat s = execIdleHeartbeat s := rfl
  unfold execIdleHeartbeat at hexec
  rw [if_neg (by
    rintro (hh | hh | hh)
    · exact hm hh
    · rw [hserve] at hh
      cases hh
    · omega)] at hexec
  refine ⟨_, hexec, ?_, fun hup => ?_⟩
  · rw [State.sendHeartbeat_chg.mir_eq]
    rfl
  · exact ⟨_, State.sendHeartbeat_mem (s := s.modMir fun m => { m with hbIdle := s.wall }) hup⟩

theorem State.setPair_beat {s : State} {st : Nat} : s.BeatKept (s.setPair st) := by
  obtain ⟨-, h1, h2⟩ := s.setPair_regs st
  exact ⟨h1, h2, State.setPair_mirrored⟩

theorem State.event_beat {s : State} {code sev unit : Nat} {l : List (Nat × Nat)} : s.BeatKept (s.event code sev unit l) :=
  ⟨State.fld_event _ _ _ _ _ (by decide) (by decide), State.fld_event _ _ _ _ _ (by decide) (by decide), by rw [State.event_chg.mir_eq]⟩

/-- The loss of the partner's links as the module records it: the pair in state 6, the event, the count, and its requests to adopt. -/
def State.lost (s : State) : State :=
  (((s.setPair 6).event 0x02C2 8 0 []).satAdd F.mirStat_losses 0 1).modMir fun m => { m with adopt := true, dropAt := false, waitAck := [] }

theorem State.lost_beat {s : State} : s.BeatKept s.lost := by
  have hcount (v : State) : v.BeatKept (v.satAdd F.mirStat_losses 0 1) :=
    ⟨State.fld_satAdd_kind _ (by decide) (by decide) (by decide), State.fld_satAdd_kind _ (by decide) (by decide) (by decide), rfl⟩
  have hmark (v : State) : v.BeatKept (v.modMir fun m => { m with adopt := true, dropAt := false, waitAck := [] }) := ⟨rfl, rfl, rfl⟩
  exact ((State.setPair_beat.trans State.event_beat).trans (hcount _)).trans (hmark _)

theorem State.lost_fields (s : State) : s.lost.pairState = 6 ∧ s.lost.mir.adopt = true := by
  refine ⟨?_, rfl⟩
  have hcount (v : State) : (v.satAdd F.mirStat_losses 0 1).pairState = v.pairState := State.fld_satAdd_kind _ (by decide) (by decide) (by decide)
  refine (hcount _).trans ?_
  rw [State.pairState, State.fld_event _ _ _ _ _ (by decide) (by decide)]
  exact s.setPair_state 6 (by decide)

theorem State.takeVoice_beat {s : State} {k : Nat} : s.BeatKept (s.takeVoice k) :=
  ⟨State.takeVoice_chg.fld_eq .., State.takeVoice_chg.fld_eq .., by rw [State.takeVoice_mir]; rfl⟩

theorem State.checkLoss_cases (s : State) :
    s.checkLoss = if [3, 4, 5, 7, 8].contains s.pairState && s.mirPorts.all (fun p => s.portState p == 1) && !s.mirPorts.isEmpty
        && decide (3 ≤ s.fld F.mirState_missed 0) then if s.lost.mode.mirror = 2 then s.lost.takeVoice s.lost.mir.hbStep else s.lost else s := rfl

theorem State.checkLoss_beat {s : State} : s.BeatKept s.checkLoss := by
  rw [State.checkLoss_cases]
  split_ifs
  · exact State.lost_beat.trans State.takeVoice_beat
  · exact State.lost_beat
  · exact .refl s

theorem State.checkLoss_up {s : State} (h : s.mirUp ≠ []) : s.checkLoss = s := by
  obtain ⟨p, hp⟩ := List.exists_mem_of_ne_nil _ h
  obtain ⟨hmem, hup⟩ := List.mem_filter.1 hp
  rw [State.checkLoss_cases, if_neg]
  intro hh
  simp only [Bool.and_eq_true] at hh
  have hdown := List.all_eq_true.1 hh.1.1.2 p hmem
  rw [beq_iff_eq] at hup hdown
  omega

theorem State.checkLoss_down {s : State} (hports : s.mirPorts ≠ []) (hdown : ∀ q ∈ s.mirPorts, s.portState q = 1)
    (hmiss : 3 ≤ s.fld F.mirState_missed 0) (hst : s.pairState ∈ [3, 4, 5, 7, 8]) :
    s.checkLoss.pairState = 6 ∧ s.checkLoss.mir.adopt = true := by
  have hcond : ([3, 4, 5, 7, 8].contains s.pairState && s.mirPorts.all (fun p => s.portState p == 1) && !s.mirPorts.isEmpty
      && decide (3 ≤ s.fld F.mirState_missed 0)) = true := by
    rw [Bool.and_eq_true, Bool.and_eq_true, Bool.and_eq_true]
    refine ⟨⟨⟨List.contains_iff_mem.2 hst, List.all_eq_true.2 fun q hq => beq_iff_eq.2 (hdown q hq)⟩, ?_⟩, decide_eq_true hmiss⟩
    rw [Bool.not_eq_true', List.isEmpty_eq_false_iff]
    exact hports
  rw [State.checkLoss_cases, if_pos hcond]
  obtain ⟨h1, h2⟩ := s.lost_fields
  split_ifs
  · exact ⟨(State.takeVoice_chg.fld_eq ..).trans h1, by rw [State.takeVoice_mir]; exact h2⟩
  · exact ⟨h1, h2⟩

/-- A missed interval is counted and the next one begins. -/
def State.missedBeat (s : State) : State :=
  (s.satAdd F.mirState_missed 0 1).modMir fun m => { m with hbLast := m.hbLast + s.hbInterval }

theorem State.missedBeat_fields (s : State) :
    s.missedBeat.fld F.mirState_missed 0 = min (s.fld F.mirState_missed 0 + 1) 15 ∧ s.missedBeat.pairState = s.pairState ∧
      s.missedBeat.mir = { s.mir with hbLast := s.mir.hbLast + s.hbInterval } ∧ RegsKept [.mirState] s s.missedBeat := by
  refine ⟨?_, State.fld_setFld_bits _ (by decide), rfl, .setFld (by decide) (by decide)⟩
  exact State.fld_setFld_eq _ (by decide) (Nat.lt_of_le_of_lt (Nat.min_le_right ..) (by decide))

theorem RegsKept.mirUp {s u : State} (h : RegsKept [.mirState] s u) : u.mirPorts = s.mirPorts ∧ u.mirUp = s.mirUp ∧
    ∀ q ∈ s.mirPorts, u.portState q = s.portState q := by
  have hfld (f : Fld) (p : Nat) (hp : p < 32) (hf : ∀ q ∈ [RegKind.mirState], f.kind.code ≠ q.code) : u.fld f p = s.fld f p :=
    h.fld _ _ (by omega) hf
  have hports : u.mirPorts = s.mirPorts := by
    unfold State.mirPorts
    refine List.filter_congr fun p hp => ?_
    rw [State.portRole, hfld _ _ (List.mem_range.1 hp) (by decide)]
    rfl
  have hstate (q : Nat) (hq : q ∈ s.mirPorts) : u.portState q = s.portState q :=
    hfld _ _ (List.mem_range.1 (List.mem_of_mem_filter hq)) (by decide)
  refine ⟨hports, ?_, hstate⟩
  unfold State.mirUp
  rw [hports]
  exact List.filter_congr fun q hq => by rw [hstate q hq]

theorem execHeartbeatInterval_eq {s : State} (hm : s.mode.mirror ≠ 0) (hst : 3 ≤ s.pairState) (hdue : s.mir.hbLast + s.hbInterval ≤ s.wall)
    (hq : s.mir.queries = []) :
    let missed := min (s.fld F.mirState_missed 0 + 1) 15
    Yields .heartbeatInterval s fun u =>
      u.fld F.mirState_missed 0 = missed ∧ u.mir.hbLast = s.mir.hbLast + s.hbInterval ∧
      (s.mirUp ≠ [] → missed = 3 → s.pairState ∈ [3, 4, 7, 8] → u.pairState = 5) ∧
      (s.mirPorts ≠ [] → (∀ q ∈ s.mirPorts, s.portState q = 1) → 3 ≤ missed → s.pairState ∈ [3, 4, 5, 7, 8] →
        u.pairState = 6 ∧ u.mir.adopt = true) := by
  intro missed
  have hexec : exec .heartbeatInterval s = execHeartbeatInterval s := rfl
  unfold execHeartbeatInterval at hexec
  rw [if_neg (by rintro (hh | hh | hh) <;> omega)] at hexec
  replace hexec : exec .heartbeatInterval s = .next
      (if s.missedBeat.checkLoss.fld F.mirState_missed 0 = 3 ∧ (!s.missedBeat.checkLoss.mirUp.isEmpty) = true ∧
          [3, 4, 7, 8].contains s.missedBeat.checkLoss.pairState = true then
        ((s.missedBeat.checkLoss.event 0x02C3 8 0 []).setPair 5).settleQueries
      else s.missedBeat.checkLoss.settleQueries) := hexec
  obtain ⟨hmiss, hpair, hmir, hregs⟩ := s.missedBeat_fields
  obtain ⟨hports, hup, hstate⟩ := hregs.mirUp
  generalize s.missedBeat = v at hexec hmiss hpair hmir hports hup hstate
  have hloss : v.BeatKept v.checkLoss := State.checkLoss_beat
  have hend (w : State) (hw : v.BeatKept w) : w.settleQueries.fld F.mirState_missed 0 = missed ∧
      w.settleQueries.mir.hbLast = s.mir.hbLast + s.hbInterval ∧ w.settleQueries.pairState = w.pairState ∧
      w.settleQueries.mir.adopt = w.mir.adopt := by
    have hwq : w.mir.queries = [] := (congrArg (fun q => q.2.2.1) hw.mir).trans (by rw [hmir]; exact hq)
    obtain ⟨hf, l, hl⟩ := State.settleQueries_fields hwq
    refine ⟨(hf _ _).trans (hw.missed.trans hmiss), ?_, hf _ _, by rw [hl]⟩
    rw [hl]
    exact (congrArg (fun q => q.2.2.2.2) hw.mir).trans (by rw [hmir])
  split_ifs at hexec with hlate
  · obtain ⟨e1, e2, e3, -⟩ := hend _ ((hloss.trans State.event_beat).trans State.setPair_beat)
    refine ⟨_, hexec, e1, e2, fun _ _ _ => e3.trans (State.setPair_state _ 5 (by decide)), fun hp hd h3 hs => ?_⟩
    obtain ⟨h6, -⟩ := State.checkLoss_down (s := v) (by rw [hports]; exact hp)
      (fun q hq => by rw [hports] at hq; rw [hstate q hq, hd q hq]) (by rw [hmiss]; exact h3) (by rw [hpair]; exact hs)
    rw [h6] at hlate
    exact absurd hlate.2.2 (by decide)
  · obtain ⟨e1, e2, e3, e4⟩ := hend _ hloss
    refine ⟨_, hexec, e1, e2, fun hu h3 hs => absurd ?_ hlate, fun hp hd h3 hs => ?_⟩
    · rw [State.checkLoss_up (by rw [hup]; exact hu), hmiss, hup, hpair]
      refine ⟨h3, ?_, List.contains_iff_mem.2 hs⟩
      rw [Bool.not_eq_true', List.isEmpty_eq_false_iff]
      exact hu
    · obtain ⟨h6, hadopt⟩ := State.checkLoss_down (s := v) (by rw [hports]; exact hp)
        (fun q hq => by rw [hports] at hq; rw [hstate q hq, hd q hq]) (by rw [hmiss]; exact h3) (by rw [hpair]; exact hs)
      exact ⟨e3.trans h6, e4.trans hadopt⟩

/-- Settles O46: a verdict, a twin command, a KV packet, a step record, an ACK or a heartbeat of the partner, with what an expired wait or
a missed interval does. -/
theorem pairTraffic : Obligations.PairTraffic := by
  unfold Obligations.PairTraffic
  intro s
  refine ⟨?_, ?_, ?_, ?_, ?_, ?_, ?_, ?_, ?_, ?_, ?_⟩
  · exact fun engine region dec att pages query e c hm h4 hl ht hc hmsg => execAdmitQueryReceive_eq hm h4 hl ht hc hmsg rfl
  · exact fun query status w c hmsg hw hc hfn he hs => execAdmitVerdictReceive_eq hmsg hw hc hfn he hs rfl
  · exact fun t hm hmsg => ⟨fun hk hc => execTwinCommandReceive_launch hm hmsg hk hc, fun hk hc => execTwinCommandReceive_eq hm hmsg hk hc⟩
  · exact fun c i op htwin h hcase => execTwin_forwards htwin h hcase
  · exact fun k c hc ht hone hfirst hlen hmem harr => execKvPacketReceive_eq hc ht hone hfirst hlen hmem harr rfl rfl rfl
  · exact fun r ht hmsg hkv => execStepRecordApply_eq ht hmsg hkv
  · exact fun step engine hmsg => execAckReceive_eq hmsg
  · exact fun engine hq hw => execAckwaitExpiry_eq hq hw
  · exact fun port h hm hrole hq hmsg => execHeartbeatReceive_eq hm hrole hq hmsg
  · exact execIdleHeartbeat_eq
  · exact execHeartbeatInterval_eq

end Sys2Proof.Machine
end

section
/-!
Clocks, divider switches, stretch and the reference (R478, R569 to R576, R584 to R586).
-/
namespace Sys2Proof.Machine
set_option Elab.async false

/-! ## Clocks and the reference (R478, R569 to R576, R584 to R586) -/

theorem State.channels_lt {s : State} {ch : Nat} (h : ch ∈ s.channels) : ch < 48 := List.mem_range.1 (List.mem_of_mem_filter h)

theorem State.stepReason_setTarget (s : State) (v t : Nat) : (s.setFld F.clkStepcmd_target 0 v).stepReason t = s.stepReason t := by
  have hfld (f : Fld) (i : Nat) (hi : i < 48) (hf : f.kind.code ≠ RegKind.clkStepcmd.code) : (s.setFld F.clkStepcmd_target 0 v).fld f i = s.fld f i :=
    State.fld_setFld_kind s (by decide) (by omega) hf
  have hch : (s.setFld F.clkStepcmd_target 0 v).channels = s.channels := rfl
  have hcal : (s.channels.any fun ch => !calFeasible ((s.setFld F.clkStepcmd_target 0 v).fld F.memRef_window ch) t) =
      s.channels.any fun ch => !calFeasible (s.fld F.memRef_window ch) t := by
    rw [Bool.eq_iff_iff, List.any_eq_true, List.any_eq_true]
    exact exists_congr fun ch => and_congr_right fun hm => by rw [hfld _ _ (State.channels_lt hm) (by decide)]
  unfold State.stepReason
  rw [hch, hcal, hfld F.memStepok_ok 0 (by decide) (by decide), hfld F.fabLstat_state 0 (by decide) (by decide)]
  rfl

theorem State.beginStep_fields (s : State) (io t : Nat) :
    (s.beginStep io t).clk.chg = some { target := t, asked := s.cnt } ∧ (s.beginStep io t).clk.pendIo = none ∧
      (s.beginStep io t).pwr.vcore = min s.pwr.vcore t ∧ (s.beginStep io t).boundaryAsk = s.boundaryAsk ++ [(7, 0x6000 + io, 12288, s.cnt)] ∧
      (∀ f i, (s.beginStep io t).fld f i = s.fld f i) := by
  unfold State.beginStep
  split_ifs with h
  · exact ⟨rfl, rfl, (Nat.min_eq_right (Nat.le_of_lt h)).symm, rfl, fun _ _ => rfl⟩
  · exact ⟨rfl, rfl, (Nat.min_eq_left (Nat.le_of_not_lt h)).symm, rfl, fun _ _ => rfl⟩

/-- A step request deferred until the modules it serves are idle. -/
theorem State.defer_fields (s : State) (io : Nat) {t : Nat} (ht : t < 8) :
    let u := ((s.setFld F.clkState_pendvalid 0 1).setFld F.clkState_pending 0 t).modClk fun k => { k with pendIo := some io }
    u.fld F.clkState_pendvalid 0 = 1 ∧ u.fld F.clkState_pending 0 = t ∧ u.clk = { s.clk with pendIo := some io } := by
  intro u
  have hu (f : Fld) : u.fld f 0 = ((s.setFld F.clkState_pendvalid 0 1).setFld F.clkState_pending 0 t).fld f 0 := Chg.modClk.fld_eq ..
  rw [hu, hu, State.fld_setFld_bits _ (by decide), State.fld_setFld_eq _ (by decide) (by decide), State.fld_setFld_eq _ (by decide) ht]
  exact ⟨rfl, rfl, rfl⟩

theorem execStepRequest_host {s : State} {fn off : Nat} {val : BitVec 32} :
    Yields (.stepRequest (.host fn) off val) s fun u => u.clk = s.clk ∧ u.step_ = s.step_ := by
  have hexec : exec (.stepRequest (.host fn) off val) s = .next (if fn = 0 ∧ s.ready then s.gateEvent off val.toNat else s) := rfl
  refine ⟨_, hexec, ?_⟩
  split_ifs
  · exact ⟨State.gateEvent_chg.clk_eq, State.fld_event _ _ _ _ _ (by decide) (by decide)⟩
  · exact ⟨rfl, rfl⟩

/-- What a step request keeps until it is decided: its target in the command register. -/
theorem execStepRequest_eq {s : State} {io off : Nat} {val : BitVec 32} {t why : Nat} {go : Bool} (ht : bits val.toNat 2 0 = t)
    (hwhy : s.stepReason t = why) (hgo : val.getLsbD 31 = go) :
    (go = false → Yields (.stepRequest (.firmware io) off val) s fun u => u.fld F.clkStepcmd_target 0 = t ∧ u.clk = s.clk) ∧
    (go = true → why ≠ 0 → Yields (.stepRequest (.firmware io) off val) s fun u =>
      u.fld F.clkStepcmd_reason 0 = why ∧ u.clk = s.clk ∧ u.step_ = s.step_) ∧
    (go = true → why = 0 → s.step_ < t → s.admittedAny = true →
      Yields (.stepRequest (.firmware io) off val) s fun u =>
        u.fld F.clkState_pendvalid 0 = 1 ∧ u.fld F.clkState_pending 0 = t ∧ u.clk.pendIo = some (io % 2) ∧ u.clk.chg = s.clk.chg) ∧
    (go = true → why = 0 → t ≤ s.step_ ∨ s.admittedAny = false →
      Yields (.stepRequest (.firmware io) off val) s fun u =>
        u.clk.chg = some { target := t, asked := s.cnt } ∧ u.pwr.vcore = min s.pwr.vcore t ∧ u.step_ = s.step_ ∧
        u.boundaryAsk = s.boundaryAsk ++ [(7, 0x6000 + io % 2, 12288, s.cnt)]) := by
  have hexec : exec (.stepRequest (.firmware io) off val) s = .next (s.stepCommand (io % 2) val.toNat) := rfl
  have ht8 : t < 8 := by
    rw [← ht]
    exact bits_lt ..
  have hwhy8 : why < 8 := by
    rw [← hwhy]
    unfold State.stepReason
    split_ifs <;> omega
  have hbit : bits val.toNat 31 31 = 0 ↔ go = false := by
    rw [← hgo, ← Bool.not_eq_true, ← BitVec.testBit_toNat, ← bits_single]
    have := bits_lt val.toNat 31 31
    omega
  have hstep : (s.setFld F.clkStepcmd_target 0 t).step_ = s.step_ := State.fld_setFld_kind s (by decide) (by decide) (by decide)
  have hcnt : (s.setFld F.clkStepcmd_target 0 t).cnt = s.cnt := State.reg_setReg_ne _ _ (by decide)
  have hadm : (s.setFld F.clkStepcmd_target 0 t).admittedAny = s.admittedAny := rfl
  unfold State.stepCommand at hexec
  dsimp only at hexec
  rw [ht, State.stepReason_setTarget, hwhy, hstep, hadm] at hexec
  have htarget : (s.setFld F.clkStepcmd_target 0 t).fld F.clkStepcmd_target 0 = t := State.fld_setFld_eq _ (by decide) ht8
  generalize hv : s.setFld F.clkStepcmd_target 0 t = v at hexec htarget hstep hcnt
  have hsv : Chg { regs := true } s v := by
    rw [← hv]
    exact .setFld
  refine ⟨fun h => ?_, fun h hw => ?_, fun h hw hlt ha => ?_, fun h hw hor => ?_⟩
  · rw [if_pos (hbit.2 h)] at hexec
    exact ⟨_, hexec, htarget, hsv.clk_eq⟩
  · rw [if_neg (fun hh => by rw [hbit.1 hh] at h; cases h), if_pos hw] at hexec
    refine ⟨_, hexec, ?_, State.event_chg.clk_eq.trans hsv.clk_eq, ?_⟩
    · rw [State.fld_event _ _ _ _ _ (by decide) (by decide)]
      exact State.fld_setFld_eq _ (by decide) hwhy8
    · rw [State.step_, State.fld_event _ _ _ _ _ (by decide) (by decide), State.fld_setFld_kind _ (by decide) (by decide) (by decide)]
      exact hstep
  · rw [if_neg (fun hh => by rw [hbit.1 hh] at h; cases h), if_neg (fun hh => hh hw), if_pos ⟨hlt, ha⟩] at hexec
    obtain ⟨h1, h2, h3⟩ := v.defer_fields (io % 2) ht8
    exact ⟨_, hexec, h1, h2, by rw [h3], by rw [h3, hsv.clk_eq]⟩
  · rw [if_neg (fun hh => by rw [hbit.1 hh] at h; cases h), if_neg (fun hh => hh hw), if_neg (fun hh => hor.elim (fun hle => by omega) fun hf => by rw [hf] at hh; cases hh.2)] at hexec
    obtain ⟨h1, -, h3, h4, h5⟩ := v.beginStep_fields (io % 2) t
    refine ⟨_, hexec, by rw [h1, hcnt], by rw [h3, hsv.pwr_eq], (h5 _ _).trans hstep, by rw [h4, hcnt, hsv.boundaryAsk_eq]⟩

theorem execPendingStepRelease_eq {s : State} {io : Nat} (hio : s.clk.pendIo = some io) (ha : s.admittedAny = false) :
    Yields .pendingStepRelease s fun u =>
      u.clk.pendIo = none ∧ u.clk.chg = some { target := s.fld F.clkState_pending 0, asked := s.cnt } ∧ u.fld F.clkState_pendvalid 0 = 0 := by
  have hexec : exec .pendingStepRelease s = execPendingStepRelease s := rfl
  unfold execPendingStepRelease at hexec
  rw [hio] at hexec
  dsimp only at hexec
  rw [if_neg (by rw [ha]; exact Bool.false_ne_true)] at hexec
  have hcnt : (s.setFld F.clkState_pendvalid 0 0).cnt = s.cnt := State.reg_setReg_ne _ _ (by decide)
  have hvalid : (s.setFld F.clkState_pendvalid 0 0).fld F.clkState_pendvalid 0 = 0 := State.fld_setFld_eq _ (by decide) (by decide)
  generalize s.setFld F.clkState_pendvalid 0 0 = v at hexec hcnt hvalid
  obtain ⟨h1, h2, -, -, h5⟩ := v.beginStep_fields io (s.fld F.clkState_pending 0)
  exact ⟨_, hexec, h2, by rw [h1, hcnt], (h5 _ _).trans hvalid⟩

/-- The loss of the plan counter's alignment: the mark, but where the module is its tree's root with its reference present. -/
theorem State.setUnsync_unsync (s : State) : s.setUnsync.fld F.ptcState_unsync 0 =
    if s.fld F.fabSyncctl_root 0 = 1 ∧ s.clk.refLost = false then 0 else 1 := by
  have hmark : ∃ v, v = (if s.fld F.ptcState_unsync 0 = 1 then s else (s.setFld F.ptcState_unsync 0 1).event 0x0297 8 0 []).modFab (fun f => { f with phis := [] }) ∧
      v.fld F.ptcState_unsync 0 = 1 ∧ v.fld F.fabSyncctl_root 0 = s.fld F.fabSyncctl_root 0 ∧ v.clk = s.clk := by
    refine ⟨_, rfl, ?_, ?_, ?_⟩
    · rw [Chg.modFab.fld_eq]
      split_ifs with h
      · exact h
      · rw [State.fld_event _ _ _ _ _ (by decide) (by decide)]
        exact State.fld_setFld_eq _ (by decide) (by decide)
    · rw [Chg.modFab.fld_eq]
      split_ifs
      · rfl
      · rw [State.fld_event _ _ _ _ _ (by decide) (by decide)]
        exact State.fld_setFld_kind _ (by decide) (by decide) (by decide)
    · exact Chg.clk_eq (P := { regs := true, fns := true, fab := true }) (.via (.ite .refl (.via (.via .refl .setFld) State.event_chg)) .modFab)
  obtain ⟨v, hv, hset, hroot, hclk⟩ := hmark
  unfold State.setUnsync
  dsimp only
  rw [← hv, hroot, hclk]
  split_ifs
  · rw [Chg.modFab.fld_eq, State.fld_event _ _ _ _ _ (by decide) (by decide)]
    exact State.fld_setFld_eq _ (by decide) (by decide)
  · exact hset

theorem State.setUnsync_regs (s : State) : RegsKept [.ptcState, .hstEvstat] s s.setUnsync := by
  have hset (v : State) (n : Nat) : RegsKept [.ptcState, .hstEvstat] v ((v.setFld F.ptcState_unsync 0 n).event 0x0297 8 0 []) :=
    .trans (.setFld (by decide) (by decide)) (.event (by decide))
  have hfab (v : State) (g : Fab → Fab) : RegsKept [.ptcState, .hstEvstat] v (v.modFab g) := .of_chg .modFab
  unfold State.setUnsync
  exact .ite (.trans (.trans (.trans (.ite .refl (hset _ _)) (hfab _ _)) (hset _ _)) (hfab _ _)) (.trans (.ite .refl (hset _ _)) (hfab _ _))

theorem State.step_lt (s : State) : s.step_ < 8 := bits_lt ..

/-- The steps of the dividers set and each channel's trim with it, before the alignment is lost. -/
theorem State.trims_regs (l : List Nat) (s : State) (p : Nat) :
    RegsKept [.clkState, .hstEvstat] s (l.foldl (fun s ch => s.trimNow ch) ((s.setFld F.clkState_step 0 p).modPwr fun w => { w with vcore := p })) ∧
      (l.foldl (fun s ch => s.trimNow ch) ((s.setFld F.clkState_step 0 p).modPwr fun w => { w with vcore := p })).step_ = p % 8 := by
  have htrim (v : State) : RegsKept [.hstEvstat] v (l.foldl (fun s ch => s.trimNow ch) v) :=
    .foldl (fun v ch k i hi hk => State.reg_trimNow v ch (fun he => absurd he (regKey_ne (by decide) hi (.inl (hk _ (List.mem_singleton_self _)))))) _ .refl
  have hpwr (v : State) : RegsKept [.hstEvstat] v (v.modPwr fun w => { w with vcore := p }) := .of_chg .modPwr
  generalize hv : s.setFld F.clkState_step 0 p = v
  have hsv : RegsKept [.clkState, .hstEvstat] s v ∧ v.step_ = p % 8 := by
    rw [← hv]
    exact ⟨.setFld (by decide) (by decide), State.fld_setFld_mod _ _ _ _ (by decide)⟩
  have hend := (hpwr v).trans (htrim _)
  refine ⟨hsv.1.trans (hend.mono (by decide)), (hend.fld F.clkState_step 0 (by decide) (by decide)).trans hsv.2⟩

theorem State.setClockStep_step (s : State) (p : Nat) : (s.setClockStep p).step_ = p % 8 := by
  unfold State.setClockStep
  split_ifs with h
  · rw [h, ← h]
    exact (Nat.mod_eq_of_lt s.step_lt).symm
  · exact (State.setUnsync_regs _ |>.fld F.clkState_step 0 (by decide) (by decide)).trans (State.trims_regs _ s p).2

theorem State.setClockStep_unsync {s : State} {p : Nat} (h : s.step_ ≠ p) (hroot : s.fld F.fabSyncctl_root 0 = 0) :
    (s.setClockStep p).fld F.ptcState_unsync 0 = 1 := by
  unfold State.setClockStep
  rw [if_neg h]
  refine (State.setUnsync_unsync _).trans (if_neg fun hh => ?_)
  rw [(State.trims_regs _ s p).1.fld F.fabSyncctl_root 0 (by decide) (by decide), hroot] at hh
  exact absurd hh.1 (by decide)

theorem execDividerSwitch_eq {s : State} {g : StepChg} {f : Nat} (hg : s.clk.chg = some g) (hf : g.first = some f) (hs : g.switched = false)
    (hdue : f + 2048 ≤ s.cnt) :
    Yields .dividerSwitch s fun u =>
      u.step_ = g.target % 8 ∧ u.pwr.vcore = min s.pwr.vcore g.target ∧ u.clk.chg = some { g with switched := true, was := s.step_ } ∧
      (s.step_ ≠ g.target → s.fld F.fabSyncctl_root 0 = 0 → u.fld F.ptcState_unsync 0 = 1) := by
  have hexec : exec .dividerSwitch s = execDividerSwitch s := rfl
  unfold execDividerSwitch at hexec
  rw [hg] at hexec
  dsimp only at hexec
  rw [hf] at hexec
  dsimp only at hexec
  rw [if_neg (by rw [hs]; rintro (hh | hh); exact Bool.noConfusion hh; omega)] at hexec
  have hstep : (s.event 0x02D0 8 0 [(1, s.step_), (1, g.target)]).step_ = s.step_ := State.fld_event _ _ _ _ _ (by decide) (by decide)
  have hroot : (s.event 0x02D0 8 0 [(1, s.step_), (1, g.target)]).fld F.fabSyncctl_root 0 = s.fld F.fabSyncctl_root 0 :=
    State.fld_event _ _ _ _ _ (by decide) (by decide)
  have hvcore : (s.event 0x02D0 8 0 [(1, s.step_), (1, g.target)]).pwr = s.pwr := State.event_chg.pwr_eq
  generalize s.event 0x02D0 8 0 [(1, s.step_), (1, g.target)] = v at hexec hstep hroot hvcore
  rw [← hroot, ← hstep]
  have hturn := v.setClockStep_step g.target
  have hlost := State.setClockStep_unsync (s := v) (p := g.target)
  generalize v.setClockStep g.target = w at hexec hturn hlost
  exact ⟨_, hexec, hturn, rfl, by rw [hf]; rfl, fun hne hr => hlost hne hr⟩

theorem execDroopTrip_eq {s : State} (h : s.fld F.clkState_stretch 0 = 0) : Yields .droopTrip s fun u =>
    u.fld F.clkState_stretch 0 = 1 ∧ u.fld F.clkState_catchup 0 = 0 ∧
    u.fld F.clkDroop_events 0 = min (s.fld F.clkDroop_events 0 + 1) (2 ^ 32 - 1) ∧ u.cnt = s.cnt := by
  have hexec : exec .droopTrip s = execDroopTrip s := rfl
  unfold execDroopTrip at hexec
  rw [if_neg (by omega)] at hexec
  generalize hx : (s.setFld F.clkState_stretch 0 1).setFld F.clkState_catchup 0 0 = x at hexec
  have hfld (f : Fld) : ((x.satAdd F.clkDroop_events 0 1).modFab fun f => { f with syncBad := true }).fld f 0 = (x.satAdd F.clkDroop_events 0 1).fld f 0 :=
    Chg.modFab.fld_eq ..
  have hregs : RegsKept [.clkState] s x := by
    rw [← hx]
    exact .trans (.setFld (by decide) (by decide)) (.setFld (by decide) (by decide))
  refine ⟨_, hexec, ?_, ?_, ?_, ?_⟩
  · rw [hfld, State.fld_satAdd_kind _ (by decide) (by decide) (by decide), ← hx, State.fld_setFld_bits _ (by decide)]
    exact State.fld_setFld_eq _ (by decide) (by decide)
  · rw [hfld, State.fld_satAdd_kind _ (by decide) (by decide) (by decide), ← hx]
    exact State.fld_setFld_eq _ (by decide) (by decide)
  · rw [hfld, State.satAdd, State.fld_setFld_eq _ (by decide) (Nat.lt_of_le_of_lt (Nat.min_le_right ..) (by decide)), hregs.fld _ _ (by decide) (by decide)]
    rfl
  · have hcnt : RegsKept [.clkState, .clkDroop] s ((x.satAdd F.clkDroop_events 0 1).modFab fun f => { f with syncBad := true }) :=
      .trans (.trans (hregs.mono (by decide)) (.satAdd (by decide) (by decide))) (.of_chg .modFab)
    exact hcnt .ptcCount 0 (by decide) (by decide)

theorem execStretchEnd_eq {s : State} {n : Nat} (h : s.fld F.clkState_stretch 0 = 1) : Yields (.stretchEnd n) s fun u =>
    u.fld F.clkState_stretch 0 = 0 ∧ u.fld F.clkState_catchup 0 = 1 ∧
    u.fld F.clkDroop_stretched 0 = min (s.fld F.clkDroop_stretched 0 + n) (2 ^ 32 - 1) ∧
    u.clk.debt = s.clk.debt + 32 * stepDiv s.step_ * n := by
  have hexec : exec (.stretchEnd n) s = execStretchEnd n s := rfl
  unfold execStretchEnd at hexec
  rw [if_neg (by omega)] at hexec
  dsimp only at hexec
  generalize hx : (s.setFld F.clkState_stretch 0 0).setFld F.clkState_catchup 0 1 = x at hexec
  have hregs : RegsKept [.clkState] s x := by
    rw [← hx]
    exact .trans (.setFld (by decide) (by decide)) (.setFld (by decide) (by decide))
  have hxfld : x.fld F.clkState_stretch 0 = 0 ∧ x.fld F.clkState_catchup 0 = 1 ∧ x.step_ = s.step_ := by
    rw [← hx]
    refine ⟨?_, State.fld_setFld_eq _ (by decide) (by decide), ?_⟩
    · rw [State.fld_setFld_bits _ (by decide)]
      exact State.fld_setFld_eq _ (by decide) (by decide)
    · exact (State.fld_setFld_bits _ (by decide)).trans (State.fld_setFld_bits _ (by decide))
  have hxclk : x.clk = s.clk := by
    rw [← hx]
    rfl
  obtain ⟨h1, h2, h3⟩ := hxfld
  generalize hy : (x.satAdd F.clkDroop_stretched 0 n).event 0x02D5 8 0 [(4, n)] = y at hexec
  have hyfld (f : Fld) (hk : ∀ q ∈ [RegKind.clkDroop, .hstEvstat], f.kind.code ≠ q.code) : y.fld f 0 = x.fld f 0 := by
    have hxy : RegsKept [.clkDroop, .hstEvstat] x y := by
      rw [← hy]
      exact .trans (.satAdd (by decide) (by decide)) (.event (by decide))
    exact hxy.fld _ _ (by decide) hk
  have hcount : y.fld F.clkDroop_stretched 0 = min (s.fld F.clkDroop_stretched 0 + n) (2 ^ 32 - 1) := by
    rw [← hy, State.fld_event _ _ _ _ _ (by decide) (by decide), State.satAdd,
      State.fld_setFld_eq _ (by decide) (Nat.lt_of_le_of_lt (Nat.min_le_right ..) (by decide)), hregs.fld _ _ (by decide) (by decide)]
    rfl
  have hyclk : y.clk = s.clk := by
    rw [← hy, State.event_chg.clk_eq, Chg.satAdd.clk_eq, hxclk]
  have hend (f : Fld) : (y.modClk fun k => { k with debt := k.debt + 32 * stepDiv y.step_ * n }).fld f 0 = y.fld f 0 := Chg.modClk.fld_eq ..
  refine ⟨_, hexec, ?_, ?_, ?_, ?_⟩
  · rw [hend, hyfld _ (by decide), h1]
  · rw [hend, hyfld _ (by decide), h2]
  · rw [hend, hcount]
  · show y.clk.debt + 32 * stepDiv y.step_ * n = _
    rw [hyclk, State.step_, hyfld _ (by decide)]
    exact congrArg (fun k => s.clk.debt + 32 * stepDiv k * n) h3

theorem execCatchupEnd_eq {s : State} (h : s.fld F.clkState_catchup 0 = 1) (hd : s.clk.debt = 0) : Yields .catchupEnd s fun u =>
    u.fld F.clkState_catchup 0 = 0 ∧ u.step_ = s.step_ := by
  have hexec : exec .catchupEnd s = execCatchupEnd s := rfl
  unfold execCatchupEnd at hexec
  rw [if_pos ⟨h, hd⟩] at hexec
  exact ⟨_, hexec, State.fld_setFld_eq _ (by decide) (by decide), State.fld_setFld_bits _ (by decide)⟩

/-- The marks of a reference lost or returned. -/
theorem State.setReference_fields (s : State) {ok hold : Nat} (h1 : ok < 2) (h2 : hold < 2) :
    ((s.setFld F.clkState_refok 0 ok).setFld F.clkState_holdover 0 hold).fld F.clkState_refok 0 = ok ∧
      ((s.setFld F.clkState_refok 0 ok).setFld F.clkState_holdover 0 hold).fld F.clkState_holdover 0 = hold := by
  refine ⟨?_, State.fld_setFld_eq _ (by decide) h2⟩
  rw [State.fld_setFld_bits _ (by decide)]
  exact State.fld_setFld_eq _ (by decide) h1

theorem State.setUnsync_clk (s : State) : s.setUnsync.clk = s.clk := State.setUnsync_chg.clk_eq

theorem execReferenceLoss_eq {s : State} (h : s.fld F.clkState_refok 0 = 1) : Yields .referenceLoss s fun u =>
    u.fld F.clkState_refok 0 = 0 ∧ u.fld F.clkState_holdover 0 = 1 ∧ u.clk.refLost = true ∧ u.fld F.ptcState_unsync 0 = 1 ∧
    ((∃ r < 8, ∃ x, (s.region r).series = some x ∧ x.tree = true) → u.fab.unsyncArr = true) := by
  have hexec : exec .referenceLoss s = execReferenceLoss s := rfl
  unfold execReferenceLoss at hexec
  rw [if_neg (by omega)] at hexec
  dsimp only at hexec
  obtain ⟨h1, h2⟩ := s.setReference_fields (ok := 0) (hold := 1) (by decide) (by decide)
  generalize hx : ((s.setFld F.clkState_refok 0 0).setFld F.clkState_holdover 0 1).modClk (fun k => { k with refLost := true }) = x at hexec
  have hsx : Chg { regs := true, clk := true } s x := by
    rw [← hx]
    exact .via (.via (.via .refl .setFld) .setFld) .modClk
  have hxlost : x.clk.refLost = true := by
    rw [← hx]
    rfl
  have hxfld : x.fld F.clkState_refok 0 = 0 ∧ x.fld F.clkState_holdover 0 = 1 := by
    rw [← hx, Chg.modClk.fld_eq, Chg.modClk.fld_eq]
    exact ⟨h1, h2⟩
  generalize hy : x.setUnsync.event 0x02D1 8 0 [] = y at hexec
  have hxy : Chg { regs := true, fns := true, fab := true } x y := by
    rw [← hy]
    exact .via (.via .refl State.setUnsync_chg) State.event_chg
  have hyfld (f : Fld) (hk : ∀ q ∈ [RegKind.ptcState, .hstEvstat], f.kind.code ≠ q.code) : y.fld f 0 = x.fld f 0 := by
    have hregs : RegsKept [.ptcState, .hstEvstat] x y := by
      rw [← hy]
      exact x.setUnsync_regs.trans (.event (by decide))
    exact hregs.fld _ _ (by decide) hk
  have hunsync : y.fld F.ptcState_unsync 0 = 1 := by
    rw [← hy, State.fld_event _ _ _ _ _ (by decide) (by decide), State.setUnsync_unsync, hxlost]
    exact if_neg fun hh => by cases hh.2
  have hregion (r : Nat) : y.region r = s.region r := (hxy.region_eq r).trans (hsx.region_eq r)
  have hmark (z : State) (hz : Chg { fab := true } y z) : z.fld F.clkState_refok 0 = 0 ∧ z.fld F.clkState_holdover 0 = 1 ∧ z.clk.refLost = true ∧
      z.fld F.ptcState_unsync 0 = 1 := by
    rw [hz.fld_eq, hz.fld_eq, hz.fld_eq, hz.clk_eq, hxy.clk_eq, hyfld _ (by decide), hyfld _ (by decide)]
    exact ⟨hxfld.1, hxfld.2, hxlost, hunsync⟩
  split_ifs at hexec with htree
  · obtain ⟨m1, m2, m3, m4⟩ := hmark _ .modFab
    exact ⟨_, hexec, m1, m2, m3, m4, fun _ => rfl⟩
  · obtain ⟨m1, m2, m3, m4⟩ := hmark _ .refl
    refine ⟨_, hexec, m1, m2, m3, m4, ?_⟩
    rintro ⟨r, hr, q, hq, ht⟩
    refine absurd (List.any_eq_true.2 ⟨r, List.mem_range.2 hr, ?_⟩) htree
    rw [hregion, hq]
    exact ht

theorem execReferenceReturn_eq {s : State} (h : s.clk.refLost = true) : Yields .referenceReturn s fun u =>
    u.fld F.clkState_refok 0 = 1 ∧ u.fld F.clkState_holdover 0 = 0 ∧ u.clk.refLost = false ∧
    u.fld F.ptcState_unsync 0 = (if s.fld F.fabSyncctl_root 0 = 1 then 0 else s.fld F.ptcState_unsync 0) := by
  have hexec : exec .referenceReturn s = execReferenceReturn s := rfl
  unfold execReferenceReturn at hexec
  rw [if_neg (by rw [h]; decide)] at hexec
  dsimp only at hexec
  obtain ⟨h1, h2⟩ := s.setReference_fields (ok := 1) (hold := 0) (by decide) (by decide)
  have hset : RegsKept [.clkState] s ((s.setFld F.clkState_refok 0 1).setFld F.clkState_holdover 0 0) :=
    .trans (.setFld (by decide) (by decide)) (.setFld (by decide) (by decide))
  have hroot := hset.fld F.fabSyncctl_root 0 (by decide) (by decide)
  have hun := hset.fld F.ptcState_unsync 0 (by decide) (by decide)
  generalize (s.setFld F.clkState_refok 0 1).setFld F.clkState_holdover 0 0 = v at hexec h1 h2 hroot hun
  generalize hx : (v.modClk fun k => { k with refLost := false }).event 0x02D1 8 0 [] = x at hexec
  have hxfld (f : Fld) (hk : f.kind.code ≠ RegKind.hstEvstat.code) : x.fld f 0 = v.fld f 0 := by
    rw [← hx, State.fld_event _ _ _ _ _ (by decide) hk]
    exact Chg.modClk.fld_eq ..
  have hxlost : x.clk.refLost = false := by
    rw [← hx, State.event_chg.clk_eq]
    rfl
  have hbit : s.fld F.ptcState_unsync 0 < 2 := bits_lt ..
  split_ifs at hexec with hre
  · have hregs := x.setUnsync_regs
    refine ⟨_, hexec, ?_, ?_, ?_, ?_⟩
    · rw [hregs.fld _ _ (by decide) (by decide), hxfld _ (by decide), h1]
    · rw [hregs.fld _ _ (by decide) (by decide), hxfld _ (by decide), h2]
    · rw [State.setUnsync_clk, hxlost]
    · rw [State.setUnsync_unsync, if_pos ⟨hre.1, hxlost⟩, if_pos (by rw [← hroot, ← hxfld _ (by decide)]; exact hre.1)]
  · refine ⟨_, hexec, (hxfld _ (by decide)).trans h1, (hxfld _ (by decide)).trans h2, hxlost, ?_⟩
    rw [hxfld _ (by decide), hxfld _ (by decide), hroot, hun] at hre
    rw [hxfld _ (by decide), hun]
    split_ifs with hr
    · have hne : ¬ s.fld F.ptcState_unsync 0 = 1 := fun he => hre ⟨hr, he⟩
      omega
    · rfl

/-- Settles O47: step requests, the dividers' switch, stretch and catch-up, and the reference lost and returned. -/
theorem clocksAndReference : Obligations.ClocksAndReference := by
  unfold Obligations.ClocksAndReference
  refine ⟨fun s => ⟨?_, ?_, ?_, ?_⟩, fun s => ⟨?_, ?_, ?_, ?_, ?_⟩⟩
  · exact fun fn off val => execStepRequest_host
  · exact fun io off val => execStepRequest_eq rfl rfl rfl
  · exact fun io hio ha => execPendingStepRelease_eq hio ha
  · exact fun g f hg hf hs hdue => execDividerSwitch_eq hg hf hs hdue
  · exact execDroopTrip_eq
  · exact fun n h => execStretchEnd_eq h
  · exact execCatchupEnd_eq
  · exact execReferenceLoss_eq
  · exact execReferenceReturn_eq

end Sys2Proof.Machine
end

section
/-!
The input, the guards, the trip and the throttle (R234, R235, R578, R581 to R590, R597, R620, R635, R645).
-/
namespace Sys2Proof.Machine
set_option Elab.async false

/-! ## The input's bands (R587 to R590, R597, R635) -/

theorem State.cleared_fields (s : State) : s.cleared.boot.stage = s.boot.stage ∧ s.cleared.img = none ∧ s.cleared.fuses = s.fuses ∧
    s.cleared.hostMem = s.hostMem ∧ s.cleared.pwr = s.pwr ∧ s.cleared.milug = s.milug := ⟨rfl, rfl, rfl, rfl, rfl, rfl⟩

/-- The module off: no rails, no image, and its stage of power-up at most 1. -/
theorem State.mainOff_fields (s : State) (cause : Nat) :
    (s.mainOff cause).pwr.stage = false ∧ (s.mainOff cause).pwr.rails = {} ∧ (s.mainOff cause).boot.stage = min s.boot.stage 1 ∧
      (s.mainOff cause).boot.bootRes = cause ∧ (s.mainOff cause).img = none ∧ (s.mainOff cause).fuses = s.fuses ∧
      (s.mainOff cause).hostMem = s.hostMem := ⟨rfl, rfl, rfl, rfl, rfl, rfl, rfl⟩

theorem State.alert_up {s : State} (h : s.milug.up = true) : s.alert.milug.alert = true := by
  rw [State.alert, if_pos h]
  rfl

theorem State.crossings_alert {s : State} {n : Nat} (hn : n ≠ 0) (h : s.milug.up = true) : (s.crossings n).milug.alert = true := by
  unfold State.crossings
  rw [if_neg hn]
  have hkept : ((List.range n).foldl (fun s _ => if s.pwr.stage then s.event 0x02D8 8 0 [] else s) s).milug = s.milug :=
    Chg.milug_eq (P := { fns := true, regs := true }) (.foldl (fun _ _ => .ite State.event_chg .refl) _ .refl)
  exact State.alert_up (by rw [hkept]; exact h)

/-- What a change of the throttle keeps of the power state. -/
theorem State.setThrottle_pwr (s : State) : ∃ n, s.setThrottle.pwr = { s.pwr with thrAt := n } := by
  unfold State.setThrottle
  split_ifs
  · exact ⟨_, rfl⟩
  · exact ⟨_, rfl⟩
  · exact ⟨_, rfl⟩
  · exact ⟨_, rfl⟩

theorem execInputBoundaryCrossing_eq {s : State} {vin iin : BitVec 16} {b : Nat} (hb : inputBand vin.toNat = b) :
    (b = 4 → s.pwr.stage = true → Yields (.inputBoundaryCrossing vin iin) s fun u =>
      u.pwr.stage = false ∧ u.pwr.rails = {} ∧ u.pwr.offOver = true ∧ u.boot.stage = min s.boot.stage 1 ∧ u.img = none) ∧
    (b ≠ 4 ∨ s.pwr.stage = false → Yields (.inputBoundaryCrossing vin iin) s fun u =>
      u.pwr.stage = s.pwr.stage ∧ u.pwr.vin = vin.toNat ∧ u.pwr.iin = iin.toNat ∧ u.pwr.inputThr = (b == 1) ∧
      u.pwr.window = (if b = 2 then some (s.pwr.window.getD s.milug.time) else none) ∧
      u.pwr.lowAt = (if b = 0 then some (s.pwr.lowAt.getD s.milug.time) else none) ∧
      (inputBand s.pwr.vin ≠ b → s.milug.up = true → u.milug.alert = true)) := by
  have hexec : exec (.inputBoundaryCrossing vin iin) s = execInputBoundaryCrossing vin iin s := rfl
  unfold execInputBoundaryCrossing at hexec
  dsimp only at hexec
  rw [hb] at hexec
  have halert (hne : inputBand s.pwr.vin ≠ b) := State.crossings_alert (s := s) (n := max (inputBand s.pwr.vin) b - min (inputBand s.pwr.vin) b) (by omega)
  have hcross := State.crossings_chg (s := s) (n := max (inputBand s.pwr.vin) b - min (inputBand s.pwr.vin) b)
  generalize s.crossings (max (inputBand s.pwr.vin) b - min (inputBand s.pwr.vin) b) = v at hexec halert hcross
  have hpwr := hcross.pwr_eq
  have hsome (o : Option Nat) (t : Nat) : (if o.isSome then o else some t) = some (o.getD t) := by cases o <;> rfl
  generalize hw : (v.modPwr fun p =>
      { p with
        vin := vin.toNat, iin := iin.toNat, inputThr := b == 1
        window := if b = 2 then (if p.window.isSome then p.window else some s.milug.time) else none
        lowAt := if b = 0 then (if p.lowAt.isSome then p.lowAt else some s.milug.time) else none }) = w at hexec
  have hwpwr : w.pwr = { s.pwr with
        vin := vin.toNat, iin := iin.toNat, inputThr := b == 1
        window := if b = 2 then some (s.pwr.window.getD s.milug.time) else none
        lowAt := if b = 0 then some (s.pwr.lowAt.getD s.milug.time) else none } := by
    rw [← hsome, ← hsome, ← hw, ← hpwr]
    rfl
  have hvw : Chg { pwr := true } v w := by
    rw [← hw]
    exact .modPwr
  refine ⟨fun h4 hs => ?_, fun hor => ?_⟩
  · rw [if_pos ⟨h4, by rw [hwpwr]; exact hs⟩] at hexec
    obtain ⟨h1, h2, h3, -, h5, -, -⟩ := w.mainOff_fields 0
    exact ⟨_, hexec, h1, h2, rfl, h3.trans (by rw [hvw.boot_eq, hcross.boot_eq]), h5⟩
  · rw [if_neg (by rw [hwpwr]; rintro ⟨h4, hs⟩; exact hor.elim (fun hh => hh h4) fun hh => by rw [hh] at hs; cases hs)] at hexec
    obtain ⟨n, hn⟩ := w.setThrottle_pwr
    have hend (u : State) (n : Nat) (hu : u.pwr = { w.pwr with thrAt := n }) (hm : u.milug = w.milug) :
        u.pwr.stage = s.pwr.stage ∧ u.pwr.vin = vin.toNat ∧ u.pwr.iin = iin.toNat ∧ u.pwr.inputThr = (b == 1) ∧
        u.pwr.window = (if b = 2 then some (s.pwr.window.getD s.milug.time) else none) ∧
        u.pwr.lowAt = (if b = 0 then some (s.pwr.lowAt.getD s.milug.time) else none) ∧
        (inputBand s.pwr.vin ≠ b → s.milug.up = true → u.milug.alert = true) := by
      rw [hu, hwpwr]
      exact ⟨rfl, rfl, rfl, rfl, rfl, rfl, fun hne hup => by rw [hm, hvw.milug_eq]; exact halert hne hup⟩
    split_ifs at hexec
    · exact ⟨_, hexec, hend _ n hn State.setThrottle_chg.milug_eq⟩
    · exact ⟨_, hexec, hend _ w.pwr.thrAt rfl rfl⟩

theorem execInputLowReset_eq {s : State} {t : Nat} (hlow : s.pwr.lowAt = some t) (hs : s.pwr.stage = true) (hdue : t + 10000 ≤ s.milug.time) :
    Yields .inputLowReset s fun u =>
      u.pwr.stage = false ∧ u.pwr.lowAt = none ∧ u.boot.bootRes = 7 ∧ u.boot.stage = min s.boot.stage 1 ∧ u.img = none ∧
      u.fuses = s.fuses ∧ u.hostMem = s.hostMem := by
  have hexec : exec .inputLowReset s = execInputLowReset s := rfl
  unfold execInputLowReset at hexec
  rw [hlow] at hexec
  dsimp only at hexec
  rw [if_pos (by rw [hs, decide_eq_true hdue]; rfl)] at hexec
  obtain ⟨h1, -, h3, h4, h5, h6, h7⟩ := s.mainOff_fields 7
  exact ⟨_, hexec, h1, rfl, h4, h3, h5, h6, h7⟩

theorem execPowerStageRestart_eq {s : State} {w : Nat} (hw : s.pwr.window = some w) (ho : s.pwr.offOver = true) (hoff : s.pwr.off = false)
    (hl : s.pwr.latched = false) (hb : s.boot.stage = 1) (hd : s.pwr.defect = false) (hdue : w + 100000000 ≤ s.milug.time) :
    let late := s.pwr.restarts.filter fun r => decide (s.milug.time < r + 60000000000)
    (late.length < 3 → Yields .powerStageRestart s fun u =>
      u.boot.stage = 2 ∧ u.pwr.stage = true ∧ u.pwr.rails = s.railsOn ∧ u.pwr.vcore = 4 ∧ u.pwr.offOver = false ∧
      u.pwr.restarts = late ++ [s.milug.time]) ∧
    (3 ≤ late.length → Yields .powerStageRestart s fun u => u.pwr.latched = true ∧ u.pwr.stage = s.pwr.stage ∧ u.boot.stage = 1) := by
  intro late
  have hexec : exec .powerStageRestart s = execPowerStageRestart s := rfl
  unfold execPowerStageRestart at hexec
  rw [hw] at hexec
  dsimp only at hexec
  rw [if_neg (by rw [ho, hoff, hl, hb, decide_eq_false (Nat.not_lt.2 hdue)]; decide)] at hexec
  refine ⟨fun hlt => ?_, fun hge => ?_⟩
  · rw [if_neg (Nat.not_le.2 hlt), State.supplyOn, if_neg (by show ¬ s.pwr.defect = true; rw [hd]; decide)] at hexec
    exact ⟨_, hexec, rfl, rfl, rfl, rfl, rfl, rfl⟩
  · rw [if_pos hge] at hexec
    exact ⟨_, hexec, rfl, rfl, hb⟩

/-! ## Guards, the trip and the throttle (R234, R235, R578, R581 to R583, R620, R645) -/

/-- No region of those below 8 in a list runs. -/
theorem State.modRegion_running (s : State) (r n : Nat) {f : Region → Region} (hf : ∀ R, (f R).running = R.running) :
    (s.modRegion n f).running r = s.running r := by
  unfold State.running
  by_cases h : r = n
  · rw [h, State.modRegion_same, hf]
  · rw [State.modRegion_ne _ _ _ h]

theorem Chg.running_eq {P : Foot} {s u : State} (h : Chg P s u) (r : Nat) (hP : P.regions = false := by rfl) : u.running r = s.running r := by
  rw [State.running, State.running, h.region_eq _ hP]

theorem State.runDone_running (s : State) (r n st : Nat) : (s.runDone n st).running r = s.running r := by
  unfold State.runDone
  dsimp only
  have hend (v : State) : (v.modRegion n fun R => { R with cmd := none, stops := [] }).running r = v.running r :=
    State.modRegion_running _ _ _ fun _ => rfl
  rw [hend]
  have hcpl (l : List Cmd) (v : State) : (l.foldl (fun s c => s.complete c 0x0005 0) v).running r = v.running r :=
    Chg.running_eq (P := { regs := true, fns := true }) (.foldl (fun _ _ => State.complete_chg) _ .refl) r
  rw [hcpl]
  split
  · exact State.complete_chg.running_eq r
  · rfl

theorem State.stopRegion_running (s : State) (r n : Nat) : (s.stopRegion n).running r = if r = n then false else s.running r := by
  have hstop (v w : State) (hv : v.region r = s.region r) (hw : w.region r = v.region r) :
      (w.modRegion n fun R =>
        { R with running := false, inInv := false, begun := false, pend := none, series := none, armed := false, wake := none }).running r =
        if r = n then false else s.running r := by
    unfold State.running
    by_cases h : r = n
    · rw [if_pos h, h, State.modRegion_same]
    · rw [if_neg h, State.modRegion_ne _ _ _ h, hw, hv]
  have htiles (l : List Xy) (v : State) : (l.foldl (fun s t => ((s.modTile (tIx t) fun T =>
      { T with inInv := false, waiting := false, scratch := wrBytes [] 0 (s.freeBytes scratchBytes) })).freeStep scratchBytes) v).region r = v.region r := by
    induction l generalizing v with
    | nil => rfl
    | cons t l ih => exact (ih _).trans rfl
  unfold State.stopRegion
  extract_lets v w
  refine hstop v w ?_ ?_
  · show (if _ then _ else _ : State).region r = _
    split_ifs
    · exact htiles _ _
    · rfl
  · show State.region (match v.park with
      | some k => if k.region = n ∧ k.t0.isNone then { v with park := some { k with t0 := some (v.cnt + 64) } } else v
      | none => v) r = _
    split
    · split_ifs
      · rfl
      · rfl
    · rfl

theorem State.tripRegion_running (s : State) (r n : Nat) : (s.tripRegion n).running r = if r = n then false else s.running r := by
  unfold State.tripRegion
  split_ifs with h hr hr
  · rw [State.runDone_running, State.freeStep_chg.running_eq, State.stopRegion_running, if_pos hr]
  · rw [State.runDone_running, State.freeStep_chg.running_eq, State.stopRegion_running, if_neg hr]
  · rw [hr]
    exact Bool.eq_false_iff.2 fun hh => h (.inl hh)
  · rfl

theorem State.tripTiles_running (s : State) {r : Nat} (hr : r < 8) : s.tripTiles.running r = false := by
  have hregions (l : List Nat) (v : State) (h : r ∈ l ∨ v.running r = false) : (l.foldl State.tripRegion v).running r = false := by
    induction l generalizing v with
    | nil => exact h.elim (fun hh => absurd hh List.not_mem_nil) id
    | cons n l ih =>
      refine ih _ ?_
      rw [State.tripRegion_running]
      rcases h with h | h
      · rcases List.mem_cons.1 h with he | hm
        · exact .inr (if_pos he)
        · exact .inl hm
      · exact .inr (by rw [h, ite_self])
  have hgals (l : List Nat) (v : State) : (l.foldl (fun s g =>
      if s.galPresent g then
        ((s.setFld F.galGate_gate g 1).setFld F.galGate_awake g 0).modGal g fun v => { v with awake := false, gatePend := false, wake := none }
      else s) v).running r = v.running r :=
    Chg.running_eq (P := { regs := true, gals := true }) (.foldl (fun _ _ => .ite (.via (.via (.mono .setFld) .setFld) .modGal) .refl) _ .refl) r
  unfold State.tripTiles
  dsimp only
  rw [hgals]
  exact hregions _ _ (.inl (List.mem_range.2 hr))

theorem State.setClockStep_pwr (s : State) (p : Nat) : ∃ v, (s.setClockStep p).pwr = { s.pwr with vcore := v } := by
  have htrim (l : List Nat) (v : State) : (l.foldl (fun s ch => s.trimNow ch) v).pwr = v.pwr :=
    Chg.pwr_eq (P := { chans := true, fns := true, regs := true }) (.foldl (fun _ _ => State.trimNow_chg) _ .refl)
  unfold State.setClockStep
  split_ifs
  · exact ⟨_, rfl⟩
  · refine ⟨p, ?_⟩
    rw [State.setUnsync_chg.pwr_eq, htrim]
    rfl

/-- The fault that the module records. -/
theorem State.modFault_fields {s : State} {code : Nat} (h : code < 256) :
    (s.modFault code).fld F.secFault_code 0 = code ∧ (s.modFault code).step_ = s.step_ ∧ (s.modFault code).pwr = s.pwr ∧
      (s.milug.alert = true → (s.modFault code).milug.alert = true) := by
  have hstep : (s.event 0x02E4 8 0 [(1, code)]).step_ = s.step_ := State.fld_event _ _ _ _ _ (by decide) (by decide)
  have hv : Chg { fns := true, regs := true } s (s.event 0x02E4 8 0 [(1, code)]) := State.event_chg
  have halert (x : State) (hx : x.milug.alert = true) : x.alert.milug.alert = true := by
    rw [State.alert]
    split_ifs
    · rfl
    · exact hx
  unfold State.modFault
  generalize s.event 0x02E4 8 0 [(1, code)] = v at hstep hv
  dsimp only
  generalize hw : ((v.setFld F.secFault_sticky 0 1).setFld F.secFault_code 0 code).satAdd F.secFault_count 0 1 = w
  have hvw : Chg { regs := true } v w := by
    rw [← hw]
    exact .via (.via .setFld .setFld) .satAdd
  have hcode : w.fld F.secFault_code 0 = code := by
    rw [← hw, State.fld_satAdd_bits _ (by decide)]
    exact State.fld_setFld_eq _ (by decide) h
  have hwstep : w.step_ = v.step_ := by
    rw [← hw]
    exact ((State.fld_satAdd_kind _ (by decide) (by decide) (by decide)).trans (State.fld_setFld_kind _ (by decide) (by decide) (by decide))).trans
      (State.fld_setFld_kind _ (by decide) (by decide) (by decide))
  generalize hx : (w.irqCause 0 3).modBoot (fun b => { b with faulted := true }) = x
  have hwx : Chg { fns := true, boot := true } w x := by
    rw [← hx]
    exact .via (.mono State.irqCause_chg) .modBootPlain
  have hxa : Chg { milug := true } x x.alert := State.alert_chg
  refine ⟨?_, ?_, ?_, fun ha => halert _ ?_⟩
  · rw [hxa.fld_eq, hwx.fld_eq, hcode]
  · rw [State.step_, hxa.fld_eq, hwx.fld_eq]
    exact hwstep.trans hstep
  · rw [hxa.pwr_eq, hwx.pwr_eq, hvw.pwr_eq, hv.pwr_eq]
  · rw [hwx.milug_eq, hvw.milug_eq, hv.milug_eq, ha]

/-- The trip: no region runs, the slowest step, and the module's fault. -/
theorem State.trip_fields (s : State) : s.trip.pwr.therm = true ∧ s.trip.step_ = 4 ∧ s.trip.fld F.secFault_code 0 = 6 ∧
    (∀ r < 8, s.trip.running r = false) ∧ (∃ v, s.trip.pwr = { s.pwr with therm := true, vcore := v }) ∧
    (s.milug.alert = true → s.trip.milug.alert = true) := by
  have hroles (l : List Nat) (v : State) : Chg { links := true, regs := true, fab := true, fns := true, mir := true, wts := true, engs := true, ext := true, reqs := true }
      v (l.foldl (fun s p => (s.setFld F.lnkCtl_role p 0).roleChanged p) v) := .foldl (fun _ _ => .via (.mono .setFld) State.roleChanged_chg) _ .refl
  unfold State.trip
  dsimp only
  have h1 : Chg { mir := true, wts := true, engs := true, regs := true, fns := true } s s.abandon := State.abandon_chg
  have h2 := State.tripTiles_chg (s := s.abandon)
  have hrun (r : Nat) (hr : r < 8) := s.abandon.tripTiles_running hr
  generalize s.abandon.tripTiles = v at h2 hrun
  have h3 := hroles v.mirPorts v
  generalize v.mirPorts.foldl (fun s p => (s.setFld F.lnkCtl_role p 0).roleChanged p) v = w at h3
  have h4 : Chg { clk := true, regs := true } w ((w.modClk fun k => { k with chg := none, pendIo := none }).setFld F.clkState_pendvalid 0 0) :=
    .via (.mono .modClk) .setFld
  generalize (w.modClk fun k => { k with chg := none, pendIo := none }).setFld F.clkState_pendvalid 0 0 = x at h4
  have hstep := x.setClockStep_step 4
  have h5 := State.setClockStep_chg (s := x) (p := 4)
  obtain ⟨n, hn⟩ := x.setClockStep_pwr 4
  generalize x.setClockStep 4 = y at hstep h5 hn
  generalize hz : (y.modPwr fun p => { p with therm := true }).event 0x02D7 8 0 [] = z
  have h6 : Chg { pwr := true, fns := true, regs := true } y z := by
    rw [← hz]
    exact .via (.mono .modPwr) State.event_chg
  have hzstep : z.step_ = 4 := by
    rw [← hz, State.step_, State.fld_event _ _ _ _ _ (by decide) (by decide), Chg.modPwr.fld_eq]
    exact hstep
  have hzpwr : z.pwr = { s.pwr with therm := true, vcore := n } := by
    have hs : x.pwr = s.pwr := by rw [h4.pwr_eq, h3.pwr_eq, h2.pwr_eq, h1.pwr_eq]
    rw [← hz, State.event_chg.pwr_eq]
    show { y.pwr with therm := true } = _
    rw [hn, hs]
  obtain ⟨f1, f2, f3, f4⟩ := State.modFault_fields (s := z) (code := 6) (by decide)
  have h7 := State.modFault_chg (s := z) (code := 6)
  refine ⟨by rw [f3, hzpwr], f2.trans hzstep, f1, fun r hr => ?_, ⟨n, f3.trans hzpwr⟩, fun ha => f4 ?_⟩
  · rw [h7.running_eq, h6.running_eq, h5.running_eq, h4.running_eq, h3.running_eq]
    exact hrun r hr
  · rw [h6.milug_eq, h5.milug_eq, h4.milug_eq, h3.milug_eq, h2.milug_eq, h1.milug_eq, ha]

theorem Chg.threshold_eq {P : Foot} {s u : State} (h : Chg P s u) (l : Nat) (hr : P.regs = false := by rfl) (hi : P.img = false := by rfl)
    (hf : P.fuses = false := by rfl) : u.threshold l = s.threshold l := by
  unfold State.threshold
  rw [h.fld_eq _ _ hr hi hf, h.fld_eq _ _ hr hi hf, h.fld_eq _ _ hr hi hf]

theorem State.levels_modPwr (s : State) (f : PowerSt → PowerSt) (t : Nat) :
    (s.modPwr f).levelFor t = s.levelFor t ∧ ∀ l, (s.modPwr f).levelDown t l = s.levelDown t l := by
  have hthr (l : Nat) : (s.modPwr f).threshold l = s.threshold l := Chg.modPwr.threshold_eq l
  have hfor : (s.modPwr f).levelFor t = s.levelFor t := by
    unfold State.levelFor
    rw [hthr, hthr, hthr]
  refine ⟨hfor, fun l => ?_⟩
  induction l with
  | zero => rfl
  | succ l ih => rw [State.levelDown, State.levelDown, hfor, hthr, ih]

/-- What a guard's new level does (R581, R582). -/
def State.guardMoves (s : State) (g t new old : Nat) (u : State) : Prop :=
  mget u.pwr.temps g 0 = t ∧ mget u.pwr.levels g 0 = new ∧ (2 ≤ new → new ≠ old → s.milug.up = true → u.milug.alert = true) ∧
    (new = 3 → new ≠ old → u.pwr.therm = true ∧ u.step_ = 4 ∧ u.fld F.secFault_code 0 = 0x06 ∧ ∀ r < 8, u.running r = false)

theorem execThermalLevelChange_eq {s : State} {guard : Fin 10} {temp : BitVec 8} (hp : guard.val < 8 → s.dieAbsent guard = false) :
    Yields (.thermalLevelChange guard temp) s
      (s.guardMoves guard temp.toNat (max (s.levelFor temp.toNat) (s.levelDown temp.toNat (mget s.pwr.levels guard 0))) (mget s.pwr.levels guard 0)) := by
  have hexec : exec (.thermalLevelChange guard temp) s = execThermalLevelChange guard temp s := rfl
  unfold execThermalLevelChange at hexec
  dsimp only at hexec
  rw [if_neg (fun hh => by rw [hp hh.1] at hh; cases hh.2)] at hexec
  obtain ⟨hfor, hdown⟩ := s.levels_modPwr (fun p => { p with temps := mput p.temps guard.val temp.toNat }) temp.toNat
  rw [hfor, hdown] at hexec
  generalize hold : mget s.pwr.levels guard.val 0 = old at hexec ⊢
  generalize max (s.levelFor temp.toNat) (s.levelDown temp.toNat old) = new at hexec ⊢
  generalize hv : s.modPwr (fun p => { p with temps := mput p.temps guard.val temp.toNat }) = v at hexec
  have hvpwr : v.pwr = { s.pwr with temps := mput s.pwr.temps guard.val temp.toNat } := by
    rw [← hv]
    rfl
  have hvmilug : v.milug = s.milug := by
    rw [← hv]
    rfl
  by_cases hne : new = old
  · rw [if_pos hne] at hexec
    refine ⟨_, hexec, ?_, ?_, fun _ hh => absurd hne hh, fun _ hh => absurd hne hh⟩
    · rw [hvpwr]
      exact mget_mput_same ..
    · rw [hvpwr, hne]
      exact hold
  rw [if_neg hne] at hexec
  generalize hx : (v.modPwr fun p => { p with levels := mput p.levels guard.val new }).event 0x02D6 8 0 [(1, guard.val), (1, new)] = x at hexec
  have hxpwr : x.pwr = { v.pwr with levels := mput v.pwr.levels guard.val new } := by
    rw [← hx, State.event_chg.pwr_eq]
    rfl
  have hxmilug : x.milug = s.milug := by
    rw [← hx, State.event_chg.milug_eq]
    exact hvmilug
  generalize hw : (if 2 ≤ new then x.alert else x) = w at hexec
  have hxw : Chg { milug := true } x w := by
    rw [← hw]
    exact .ite State.alert_chg .refl
  have halert (h2 : 2 ≤ new) (hup : s.milug.up = true) : w.milug.alert = true := by
    rw [← hw, if_pos h2]
    exact State.alert_up (by rw [hxmilug]; exact hup)
  obtain ⟨n, hn⟩ := w.setThrottle_pwr
  have hthr := State.setThrottle_chg (s := w)
  generalize w.setThrottle = y at hexec hn hthr
  have hmaps (u : State) (ht : u.pwr.temps = y.pwr.temps) (hl : u.pwr.levels = y.pwr.levels) :
      mget u.pwr.temps guard.val 0 = temp.toNat ∧ mget u.pwr.levels guard.val 0 = new := by
    rw [ht, hl, hn, hxw.pwr_eq, hxpwr, hvpwr]
    exact ⟨mget_mput_same .., mget_mput_same ..⟩
  by_cases h3 : new = 3
  · rw [if_pos h3] at hexec
    obtain ⟨t1, t2, t3, t4, ⟨k, hk⟩, t6⟩ := y.trip_fields
    obtain ⟨m1, m2⟩ := hmaps y.trip (by rw [hk]) (by rw [hk])
    exact ⟨_, hexec, m1, m2, fun h2 _ hup => t6 (by rw [hthr.milug_eq]; exact halert h2 hup), fun _ _ => ⟨t1, t2, t3, t4⟩⟩
  · rw [if_neg h3] at hexec
    obtain ⟨m1, m2⟩ := hmaps y rfl rfl
    exact ⟨_, hexec, m1, m2, fun h2 _ hup => by rw [hthr.milug_eq]; exact halert h2 hup, fun hh => absurd hh h3⟩

theorem execGuardHoldTick_eq {s : State} {guard : Fin 10} (hl : mget s.pwr.levels guard 0 ≠ 0)
    (hdue : ∀ t, mfind s.pwr.guardAt guard = some t → t + 8192 ≤ s.cnt) :
    Yields (.guardHoldTick guard) s fun u =>
      u.reqs = s.reqs ++ [⟨s.cnt, s.cnt + 64, 1024, 6, 0x5000 + guard.val⟩] ∧ mfind u.pwr.guardAt guard = some s.cnt ∧
      u.fld F.pwrThermstat_guardholds 0 = min (s.fld F.pwrThermstat_guardholds 0 + 1) (2 ^ 32 - 1) := by
  have hexec : exec (.guardHoldTick guard) s = execGuardHoldTick guard s := rfl
  unfold execGuardHoldTick at hexec
  dsimp only at hexec
  have hend : exec (.guardHoldTick guard) s = .next
      (((s.request 6 (0x5000 + guard.val) 1024).modPwr fun p => { p with guardAt := mput p.guardAt guard.val s.cnt }).satAdd F.pwrThermstat_guardholds 0 1) := by
    cases hg : mfind s.pwr.guardAt guard.val with
    | none =>
      rw [hg] at hexec
      dsimp only at hexec
      rw [if_neg (by rintro (hh | hh); exact hl hh; cases hh)] at hexec
      exact hexec
    | some t =>
      rw [hg] at hexec
      dsimp only at hexec
      rw [if_neg (by rintro (hh | hh); exact hl hh; exact absurd (hdue t hg) (of_decide_eq_false hh))] at hexec
      exact hexec
  have hreq : s.request 6 (0x5000 + guard.val) 1024 = { s with reqs := s.reqs ++ [⟨s.cnt, s.cnt + 64, 1024, 6, 0x5000 + guard.val⟩] } := by
    rw [State.request, if_neg (by decide)]
    rfl
  rw [hreq] at hend
  refine ⟨_, hend, ?_, mfind_mput_same .., ?_⟩
  · rw [Chg.satAdd.reqs_eq]
    rfl
  · rw [State.satAdd, State.fld_setFld_eq _ (by decide) (Nat.lt_of_le_of_lt (Nat.min_le_right ..) (by decide))]
    rfl

theorem execThrottleHold_eq {s : State} (hl : s.fld F.pwrCtl_length 0 ≠ 0) (hinv : s.anyInv = false) (hdue : s.pwr.thrAt + 64 ≤ s.cnt + 1)
    (hcov : ∀ q ∈ s.reqs, q.cause = 8 → q.covers (s.cnt + 64) = false) :
    Yields .throttleHold s fun u =>
      u.reqs = s.reqs ++ [⟨s.cnt, s.cnt + 64, 64 * min 1023 (s.fld F.pwrCtl_length 0), 8, 0x6000⟩] ∧ u.regs = s.regs := by
  have hexec : exec .throttleHold s = execThrottleHold s := rfl
  unfold execThrottleHold at hexec
  have hnone : (s.reqs.any fun q => q.cause == 8 && q.covers (s.cnt + 64)) = false := by
    rw [List.any_eq_false]
    intro q hq hh
    rw [Bool.and_eq_true, beq_iff_eq] at hh
    rw [hcov q hq hh.1] at hh
    cases hh.2
  rw [if_neg (by rw [hinv, hnone, decide_eq_false (Nat.not_lt.2 hdue)]; decide), State.request, if_neg (by omega), Nat.min_eq_left (by omega)] at hexec
  exact ⟨_, hexec, rfl, rfl⟩

theorem execOvertempRailOff_eq {s : State} (hs : s.pwr.stage = true) : Yields .overtempRailOff s fun u =>
    u.pwr.rails = { s.pwr.rails with vcore := 0 } ∧ u.pwr.cut = true ∧ u.pwr.therm = true ∧ ∀ r < 8, u.running r = false := by
  have hexec : exec .overtempRailOff s = execOvertempRailOff s := rfl
  unfold execOvertempRailOff at hexec
  rw [if_pos hs] at hexec
  dsimp only at hexec
  by_cases ht : s.pwr.therm = true
  · rw [if_pos ht] at hexec
    have hrun (r : Nat) (hr : r < 8) := s.tripTiles_running hr
    have hpwr := State.tripTiles_chg (s := s) |>.pwr_eq
    generalize s.tripTiles = v at hexec hrun hpwr
    exact ⟨_, hexec, by rw [← hpwr]; rfl, rfl, by rw [← ht, ← hpwr]; rfl, hrun⟩
  · rw [if_neg ht] at hexec
    obtain ⟨t1, -, -, t4, ⟨k, hk⟩, -⟩ := s.trip_fields
    generalize s.trip = v at hexec t1 t4 hk
    exact ⟨_, hexec, by show { v.pwr.rails with vcore := 0 } = _; rw [hk], rfl, t1, t4⟩

theorem execPowerCapCrossing_eq {s : State} {power : BitVec 16} : Yields (.powerCapCrossing power) s fun u =>
    u.pwr.pin = power.toNat ∧
    (s.fld F.pwrCtl_thrman 0 = 0 → (u.throttleDue = true → u.fld F.pwrCtl_length 0 ≠ 0) ∧
      (u.throttleDue = false → u.fld F.pwrCtl_length 0 = 0)) := by
  have hexec : exec (.powerCapCrossing power) s = .next (s.modPwr fun w => { w with pin := power.toNat }).setThrottle := rfl
  have hman : (s.modPwr fun w => { w with pin := power.toNat }).fld F.pwrCtl_thrman 0 = s.fld F.pwrCtl_thrman 0 := Chg.modPwr.fld_eq ..
  have hpin : (s.modPwr fun w => { w with pin := power.toNat }).pwr.pin = power.toNat := rfl
  generalize s.modPwr (fun w => { w with pin := power.toNat }) = v at hexec hman hpin
  rw [← hman]
  have hdue (u : State) (hp : ∃ n, u.pwr = { v.pwr with thrAt := n }) (hc : u.fld F.pwrCtl_cap 0 = v.fld F.pwrCtl_cap 0) :
      u.throttleDue = v.throttleDue := by
    obtain ⟨n, hn⟩ := hp
    unfold State.throttleDue
    rw [hc, hn]
  refine ⟨_, hexec, ?_, fun hm => ?_⟩
  · obtain ⟨n, hn⟩ := v.setThrottle_pwr
    rw [hn]
    exact hpin
  have hpwr := v.setThrottle_pwr
  unfold State.setThrottle at hpwr ⊢
  rw [if_neg (by omega)] at hpwr ⊢
  split_ifs at hpwr ⊢ with h1 h2
  · have hset : (((v.freeStep 2).setFld F.pwrCtl_length 0 (1 + leNat (v.freeBytes 2) % 1023)).modPwr fun p => { p with thrAt := v.cnt }).fld F.pwrCtl_length 0 =
        1 + leNat (v.freeBytes 2) % 1023 := by
      rw [Chg.modPwr.fld_eq]
      have hlt : 1 + leNat (v.freeBytes 2) % 1023 < 2 ^ F.pwrCtl_length.width :=
        Nat.lt_of_lt_of_le (Nat.add_lt_add_left (Nat.mod_lt _ (by decide)) 1) (by decide)
      exact State.fld_setFld_eq _ (by decide) hlt
    have hcap : (((v.freeStep 2).setFld F.pwrCtl_length 0 (1 + leNat (v.freeBytes 2) % 1023)).modPwr fun p => { p with thrAt := v.cnt }).fld F.pwrCtl_cap 0 =
        v.fld F.pwrCtl_cap 0 := by
      rw [Chg.modPwr.fld_eq, State.fld_setFld_bits _ (by decide)]
      rfl
    rw [hdue _ hpwr hcap, hset, h1]
    exact ⟨fun _ => by omega, fun hh => by cases hh⟩
  · exact ⟨fun _ => h2, fun hh => by rw [h1] at hh; cases hh⟩
  · have hcap : (v.setFld F.pwrCtl_length 0 0).fld F.pwrCtl_cap 0 = v.fld F.pwrCtl_cap 0 := State.fld_setFld_bits _ (by decide)
    rw [hdue _ hpwr hcap]
    exact ⟨fun hh => absurd hh h1, fun _ => State.fld_setFld_eq _ (by decide) (by decide)⟩

/-- Settles O48: the input's bands and the restart, the guards and the trip, the throttle and the rails removed. -/
theorem inputAndThermal : Obligations.InputAndThermal := by
  unfold Obligations.InputAndThermal
  refine ⟨fun s => ⟨?_, ?_, ?_⟩, fun s => ⟨?_, ?_, ?_, ?_, ?_, ?_⟩⟩
  · exact fun vin iin => execInputBoundaryCrossing_eq rfl
  · exact fun t hlow hs hdue => execInputLowReset_eq hlow hs hdue
  · exact fun w hw ho hoff hl hb hd hdue => execPowerStageRestart_eq hw ho hoff hl hb hd hdue
  · exact fun guard temp _ hp => execThermalLevelChange_eq fun _ => hp
  · intro guard temp hg
    obtain ⟨u, hu, h1, h2, -, -⟩ := execThermalLevelChange_eq (s := s) (guard := guard) (temp := temp) fun hh => absurd hh (Nat.not_lt.2 hg)
    exact ⟨u, hu, h1, h2⟩
  · exact fun guard hl hdue => execGuardHoldTick_eq hl hdue
  · exact execThrottleHold_eq
  · exact execOvertempRailOff_eq
  · exact fun power => execPowerCapCrossing_eq

end Sys2Proof.Machine
end

section
/-!
Galleries and banks gated and woken (R579, R580, R591, R592).
-/
namespace Sys2Proof.Machine
set_option Elab.async false

/-! ## Galleries gated and woken (R579, R580) -/

theorem dieOf_galGate (g off : Nat) : accessDie ⟨.galGate, g⟩ off = some (dieOf (tileAt g 0)) := rfl

theorem galGateWrite_written {s : State} {w : Writer} {g off : Nat} {val : BitVec 32} (hg : g < 192) (hw : s.mayWrite w = true)
    (hl : s.loading = none) (hd : s.dieAbsent (dieOf (tileAt g 0)) = false) {v : Nat} (hv : bits val.toNat 0 0 = v) :
    exec (.galGateWrite w g off val) s = .next ((s.writeGate g v).keepWrite { reg := ⟨.galGate, g⟩, val := v }) := by
  have hexec : exec (.galGateWrite w g off val) s = execGalGateWrite w g off val s := rfl
  unfold execGalGateWrite at hexec
  rw [if_neg (Nat.not_le.2 hg), State.moduleWrite_eq hw hl (fun d hd' => by rw [dieOf_galGate] at hd'; cases hd'; exact hd), hv] at hexec
  exact hexec

theorem bits_low (val : BitVec 32) : bits val.toNat 0 0 = if val.getLsbD 0 then 1 else 0 := by
  have h := bits_single val.toNat 0
  have hlt : bits val.toNat 0 0 < 2 := bits_lt ..
  rw [BitVec.testBit_toNat] at h
  split_ifs with hb
  · exact h.2 hb
  · have hne : bits val.toNat 0 0 ≠ 1 := fun hh => hb (h.1 hh)
    omega

theorem State.gateGallery_fields (s : State) (g : Nat) :
    (s.gateGallery g).fld F.galGate_gate g = 1 ∧ (s.gateGallery g).gal g = { s.gal g with gatePend := (s.gal g).awake, wake := none } :=
  ⟨State.fld_setFld_eq _ (by decide) (by decide), State.modGal_same ..⟩

theorem State.modified_fields (s : State) {g : Nat} (hg : g < 192) : s.modified.fld F.galGate_gate g = s.fld F.galGate_gate g ∧
    s.modified.fld F.hstHistate_modified 0 = 1 :=
  ⟨State.fld_setFld_kind _ (by decide) (by omega) (by decide), State.fld_setFld_eq _ (by decide) (by decide)⟩

theorem galGateWrite_eq {s : State} {w : Writer} {g off : Nat} {val : BitVec 32} (hg : g < 192) (hw : s.mayWrite w = true)
    (hl : s.loading = none) (hd : s.dieAbsent (dieOf (tileAt g 0)) = false) :
    let old := s.fld F.galGate_gate g
    (val.getLsbD 0 = true → old = 0 →
      (s.gateOk g = true → Yields (.galGateWrite w g off val) s fun u =>
        u.fld F.galGate_gate g = 1 ∧ (u.gal g).gatePend = (s.gal g).awake ∧ u.fld F.hstHistate_modified 0 = 1) ∧
      (s.gateOk g = false → Yields (.galGateWrite w g off val) s fun u => u.regs = s.regs ∧ u.gals = s.gals ∧ u.fns = s.fns)) ∧
    (val.getLsbD 0 = false → old = 1 → Yields (.galGateWrite w g off val) s fun u =>
      u.fld F.galGate_gate g = 0 ∧ (u.gal g).gatePend = false ∧ u.fld F.hstHistate_modified 0 = 1 ∧
      (u.gal g).wake = (if (s.gal g).awake then none else some (s.cnt + 16384))) := by
  intro old
  have hexec := galGateWrite_written (off := off) (val := val) hg hw hl hd rfl
  rw [bits_low] at hexec
  refine ⟨fun h1 h0 => ?_, fun h1 h0 => ?_⟩
  · rw [if_pos h1, State.writeGate, if_neg (by show ¬ 1 = old; omega), if_pos h0] at hexec
    refine ⟨fun hok => ?_, fun hok => ?_⟩
    · rw [if_pos hok] at hexec
      obtain ⟨g1, g2⟩ := s.gateGallery_fields g
      obtain ⟨m1, m2⟩ := (s.gateGallery g).modified_fields hg
      refine ⟨_, hexec, m1.trans g1, ?_, m2⟩
      show ((s.gateGallery g).gal g).gatePend = _
      rw [g2]
    · rw [if_neg (by rw [hok]; decide)] at hexec
      exact ⟨_, hexec, rfl, rfl, rfl⟩
  · rw [if_neg (by rw [h1]; decide), State.writeGate, if_neg (by show ¬ 0 = old; omega), if_neg (by show ¬ old = 0; omega)] at hexec
    dsimp only at hexec
    generalize hv : (s.setFld F.galGate_gate g 0).modGal g (fun x => { x with gatePend := false, wake := if x.awake then none else some (s.cnt + 16384) }) = v at hexec
    have hvfld : v.fld F.galGate_gate g = 0 := by
      rw [← hv, Chg.modGal.fld_eq]
      exact State.fld_setFld_eq _ (by decide) (by decide)
    have hvgal : v.gal g = { s.gal g with gatePend := false, wake := if (s.gal g).awake then none else some (s.cnt + 16384) } := by
      rw [← hv, State.modGal_same]
      rfl
    obtain ⟨m1, m2⟩ := v.modified_fields hg
    exact ⟨_, hexec, m1.trans hvfld, congrArg Gallery.gatePend hvgal, m2, congrArg Gallery.wake hvgal⟩

theorem execAutoGate_eq {s : State} {g : Nat} (ha : s.fld F.pwrCtl_auto 0 = 1) (hp : s.galPresent g = true) (hi : s.img.isSome = true)
    (hw : (s.gal g).awake = true) (hpend : (s.gal g).gatePend = false) (hok : s.gateOk g = true)
    (hidle : (s.galRec g).region = 0xFF ∨ (s.region (s.galRec g).region).lastLaunch + 100000 * s.fld F.pwrCtl_idle 0 ≤ s.wall) :
    Yields (.autoGate g) s fun u => u.fld F.galGate_gate g = 1 ∧ (u.gal g).gatePend = true := by
  have hexec : exec (.autoGate g) s = execAutoGate g s := rfl
  unfold execAutoGate at hexec
  have hdue : ((s.galRec g).region == 0xFF || decide ((s.region (s.galRec g).region).lastLaunch + 100000 * s.fld F.pwrCtl_idle 0 ≤ s.wall)) = true := by
    rw [Bool.or_eq_true, beq_iff_eq, decide_eq_true_eq]
    exact hidle
  dsimp only at hexec
  rw [hdue, ha, hp, hi, hw, hpend, hok, if_pos (by decide)] at hexec
  obtain ⟨g1, g2⟩ := s.gateGallery_fields g
  exact ⟨_, hexec, g1, by rw [g2]; exact hw⟩

/-! ### A gallery woken -/

theorem mfind_map_keyed {α : Type} {f : Nat × α → Nat × α} (hf : ∀ e, (f e).1 = e.1) (m : SMap α) (k : Nat) :
    mfind (m.map f) k = (mfind m k).map fun v => (f (k, v)).2 := by
  induction m with
  | nil => rfl
  | cons e m ih =>
    obtain ⟨j, v⟩ := e
    have hj : f (j, v) = (j, (f (j, v)).2) := Prod.ext (hf _) rfl
    rw [List.map_cons, hj, mfind, mfind, ih]
    by_cases h : j = k
    · rw [if_pos h, if_pos h, h]
      rfl
    · rw [if_neg h, if_neg h]

theorem regKey_div (k : RegKind) {i : Nat} (hi : i < 2 ^ 32) : regKey k i / 2 ^ 32 = k.code := by
  rw [regKey]
  omega

theorem regKey_mod (k : RegKind) {i : Nat} (hi : i < 2 ^ 32) : regKey k i % 2 ^ 32 = i := by
  rw [regKey]
  omega

/-- A stored register as a reload of image registers leaves it. -/
def State.reloaded (s : State) (sel : RegKind → Nat → Bool) (e : Nat × Word) : Nat × Word :=
  match imageKinds.find? fun k => k.code == e.1 / 2 ^ 32 && sel k (e.1 % 2 ^ 32) with
  | some k => (e.1, BitVec.ofNat 64 (k.fields.foldl (fun v f =>
      if f.rst = .image then putBits v f.hi f.lo (Fld.reset s f (e.1 % 2 ^ 32)) else v) e.2.toNat))
  | none => e

theorem State.reloadImage_regs (s : State) (sel : RegKind → Nat → Bool) : (s.reloadImage sel).regs = s.regs.map (s.reloaded sel) := rfl

theorem State.reloaded_key (s : State) (sel : RegKind → Nat → Bool) (e : Nat × Word) : (s.reloaded sel e).1 = e.1 := by
  unfold State.reloaded
  split <;> rfl

theorem State.reloaded_none {s : State} {sel : RegKind → Nat → Bool} {e : Nat × Word}
    (h : ∀ q ∈ imageKinds, q.code = e.1 / 2 ^ 32 → sel q (e.1 % 2 ^ 32) = false) : s.reloaded sel e = e := by
  have hnone : (imageKinds.find? fun k => k.code == e.1 / 2 ^ 32 && sel k (e.1 % 2 ^ 32)) = none := by
    rw [List.find?_eq_none]
    intro q hq hh
    rw [Bool.and_eq_true, beq_iff_eq] at hh
    rw [h q hq hh.1] at hh
    cases hh.2
  unfold State.reloaded
  rw [hnone]

/-- A reload of image registers leaves the register whose kind and index it does not select. -/
theorem State.reg_reloadImage (s : State) {sel : RegKind → Nat → Bool} {k : RegKind} {i : Nat} (hi : i < 2 ^ 32)
    (h : ∀ q ∈ imageKinds, q.code = k.code → sel q i = false) : (s.reloadImage sel).reg k i = s.reg k i := by
  have hfind : mfind (s.reloadImage sel).regs (regKey k i) = mfind s.regs (regKey k i) := by
    rw [State.reloadImage_regs, mfind_map_keyed (s.reloaded_key sel)]
    cases mfind s.regs (regKey k i) with
    | none => rfl
    | some v =>
      refine congrArg some (congrArg Prod.snd (State.reloaded_none (e := (regKey k i, v)) fun q hq hc => ?_))
      rw [regKey_div k hi] at hc
      rw [regKey_mod k hi]
      exact h q hq hc
  have hreset : regReset (s.reloadImage sel) k i = regReset s k i := rfl
  rw [State.reg, State.reg, hfind, hreset]

theorem tileAt_inj {g h k j : Nat} (hk : k < 16) (hj : j < 16) (heq : tIx (tileAt g k) = tIx (tileAt h j)) : g = h := by
  simp only [tIx, tileAt] at heq
  omega

/-- The tiles of a list emptied. -/
theorem State.emptied_tile (l : List Nat) (s : State) (y : Nat) :
    (l.foldl (fun s y => s.modTile y fun T => { T with scratch := [], full := 0, fullAt := 0, ungate := [], gateReq := 0, hndw := [] }) s).tile y =
      if y ∈ l then { s.tile y with scratch := [], full := 0, fullAt := 0, ungate := [], gateReq := 0, hndw := [] } else s.tile y := by
  induction l generalizing s with
  | nil => rfl
  | cons z l ih =>
    rw [List.foldl_cons, ih]
    by_cases h : y = z
    · rw [h, State.modTile_same, if_pos (List.mem_cons_self ..)]
      split_ifs <;> rfl
    · rw [State.modTile_ne _ _ _ h]
      simp only [List.mem_cons, h, false_or]

/-- A gallery that is awake, its scratchpads reading zero. -/
structure State.Woken (s : State) (g : Nat) : Prop where
  awake : (s.gal g).awake = true
  mark : s.fld F.galGate_awake g = 1
  tiles : ∀ k < 16, (s.tile (tIx (tileAt g k))).scratch = [] ∧ (s.tile (tIx (tileAt g k))).full = 0

/-- The tiles of a gallery emptied and their registers reloaded, before its region loses its plan. -/
def State.wakeTiles (s : State) (sel : RegKind → Nat → Bool) (ys : List Nat) : State :=
  (ys.foldl (fun s y => s.modTile y fun T => { T with scratch := [], full := 0, fullAt := 0, ungate := [], gateReq := 0, hndw := [] }) s).reloadImage sel

def State.losePlan (s : State) (r : Nat) : State := if r < 8 then s.modRegion r fun R => { R with plan := none } else s

def State.wakeMark (s : State) (g : Nat) : State :=
  ((s.modGal g fun v => { v with awake := true, gatePend := false, wake := none }).setFld F.galGate_awake g 1).setFld F.galGate_gate g 0

theorem State.wakeGallery_eq {s : State} (h : s.pwr.cut = false) (g : Nat) :
    ∃ sel : RegKind → Nat → Bool, (∀ i, sel .galGate i = false) ∧ ∃ r, r = ((s.wakeTiles sel ((List.range 16).map fun k => tIx (tileAt g k))).galRec g).region ∧
      s.wakeGallery g = ((s.wakeTiles sel ((List.range 16).map fun k => tIx (tileAt g k))).losePlan r).wakeMark g := by
  unfold State.wakeGallery
  rw [if_neg (by rw [h]; decide)]
  exact ⟨_, fun i => rfl, _, rfl, rfl⟩

theorem State.wakeTiles_fields (s : State) {sel : RegKind → Nat → Bool} (hsel : ∀ i, sel .galGate i = false) (ys : List Nat) :
    (∀ h, (s.wakeTiles sel ys).gal h = s.gal h) ∧ (∀ r, (s.wakeTiles sel ys).region r = s.region r) ∧ (s.wakeTiles sel ys).cnt = s.cnt ∧
      (∀ h < 192, (s.wakeTiles sel ys).fld F.galGate_awake h = s.fld F.galGate_awake h) ∧
      ∀ y, (s.wakeTiles sel ys).tile y =
        if y ∈ ys then { s.tile y with scratch := [], full := 0, fullAt := 0, ungate := [], gateReq := 0, hndw := [] } else s.tile y := by
  have hchg : Chg { tiles := true } s (ys.foldl (fun s y => s.modTile y fun T =>
      { T with scratch := [], full := 0, fullAt := 0, ungate := [], gateReq := 0, hndw := [] }) s) :=
    .foldl (fun _ _ => .onModTile .refl ⟨fun h => rfl⟩) _ .refl
  have hempty (y : Nat) := State.emptied_tile ys s y
  unfold State.wakeTiles
  generalize ys.foldl (fun s y => s.modTile y fun T => { T with scratch := [], full := 0, fullAt := 0, ungate := [], gateReq := 0, hndw := [] }) s = v at hchg hempty
  have hgate : ∀ q ∈ imageKinds, q.code = RegKind.galGate.code → q = .galGate := by decide
  have hcount : ∀ q ∈ imageKinds, q.code ≠ RegKind.ptcCount.code := by decide
  refine ⟨fun h => ?_, fun r => ?_, ?_, fun h hh => ?_, hempty⟩
  · rw [State.reloadImage_chg.gal_eq, hchg.gal_eq]
  · rw [State.reloadImage_chg.region_eq, hchg.region_eq]
  · exact (State.reg_reloadImage v (by decide) fun q hq hc => absurd hc (hcount q hq)).trans (hchg.reg_eq ..)
  · rw [State.fld, State.reg_reloadImage v (by omega) (fun q hq hc => by rw [hgate q hq hc]; exact hsel _), hchg.reg_eq]
    rfl

theorem State.losePlan_region (s : State) (q r : Nat) : ((s.losePlan q).region r).wake = (s.region r).wake ∧
    ((s.losePlan q).region r).plan = if r = q ∧ q < 8 then none else (s.region r).plan := by
  unfold State.losePlan
  by_cases hq : q < 8
  · rw [if_pos hq]
    by_cases h : r = q
    · rw [h, State.modRegion_same, if_pos ⟨rfl, hq⟩]
      exact ⟨rfl, rfl⟩
    · rw [State.modRegion_ne _ _ _ h, if_neg fun hh => h hh.1]
      exact ⟨rfl, rfl⟩
  · rw [if_neg hq, if_neg fun hh => hq hh.2]
    exact ⟨rfl, rfl⟩

theorem State.wakeMark_fields (s : State) {g : Nat} (hg : g < 192) :
    ((s.wakeMark g).gal g).awake = true ∧ (∀ h, h ≠ g → (s.wakeMark g).gal h = s.gal h) ∧ (s.wakeMark g).cnt = s.cnt ∧
      (∀ h < 192, (s.wakeMark g).fld F.galGate_awake h = if h = g then 1 else s.fld F.galGate_awake h) := by
  have hmark : Chg { regs := true } (s.modGal g fun v => { v with awake := true, gatePend := false, wake := none }) (s.wakeMark g) :=
    .via .setFld .setFld
  have hregs : RegsKept [.galGate] s (s.wakeMark g) :=
    .trans (.of_chg (P := { gals := true }) .modGal) (.trans (.setFld (by omega) (by decide)) (.setFld (by omega) (by decide)))
  refine ⟨by rw [hmark.gal_eq, State.modGal_same], fun h hne => by rw [hmark.gal_eq, State.modGal_ne _ _ _ hne],
    hregs .ptcCount 0 (by decide) (by decide), fun h hh => ?_⟩
  unfold State.wakeMark
  rw [State.fld_setFld_bits' _ (by omega) (by omega) (by decide)]
  by_cases he : h = g
  · rw [if_pos he, he]
    exact State.fld_setFld_eq _ (by decide) (by decide)
  · rw [if_neg he, State.fld_setFld_index _ (by omega) (by omega) he]
    rfl

theorem mem_galleryTiles {h k g : Nat} (hk : k < 16) : (tIx (tileAt h k) ∈ (List.range 16).map fun j => tIx (tileAt g j)) ↔ h = g := by
  rw [List.mem_map]
  constructor
  · rintro ⟨j, hj, he⟩
    exact (tileAt_inj (List.mem_range.1 hj) hk he).symm
  · intro he
    exact ⟨k, List.mem_range.2 hk, by rw [he]⟩

/-- A gallery wakes: it is awake, what another gallery was stays, and its region has no plan. -/
theorem State.wakeGallery_fields {s : State} (hcut : s.pwr.cut = false) {g : Nat} (hg : g < 192) :
    (s.wakeGallery g).Woken g ∧ (∀ h, h ≠ g → (s.wakeGallery g).gal h = s.gal h) ∧ (∀ h < 192, s.Woken h → (s.wakeGallery g).Woken h) ∧
      (s.wakeGallery g).cnt = s.cnt ∧ (∀ r, ((s.wakeGallery g).region r).wake = (s.region r).wake) ∧
      ∀ r, ((s.wakeGallery g).region r).plan = if r = (s.galRec g).region ∧ (s.galRec g).region < 8 then none else (s.region r).plan := by
  obtain ⟨sel, hsel, r, hr, heq⟩ := s.wakeGallery_eq hcut g
  have hrec : r = (s.galRec g).region := by
    rw [hr]
    have hchg : Chg { tiles := true, regs := true } s (s.wakeTiles sel ((List.range 16).map fun k => tIx (tileAt g k))) :=
      .via (.foldl (fun _ _ => .onModTile .refl ⟨fun h => rfl⟩) _ .refl) State.reloadImage_chg
    unfold State.galRec
    rw [hchg.img_eq]
  obtain ⟨t1, t2, t3, t4, t5⟩ := s.wakeTiles_fields hsel ((List.range 16).map fun k => tIx (tileAt g k))
  rw [heq, ← hrec]
  generalize s.wakeTiles sel ((List.range 16).map fun k => tIx (tileAt g k)) = v at t1 t2 t3 t4 t5
  have hlose : Chg { regions := true } v (v.losePlan r) := .ite .modRegion .refl
  have hregion (q : Nat) := v.losePlan_region r q
  generalize v.losePlan r = w at hlose hregion
  obtain ⟨m1, m2, m3, m4⟩ := w.wakeMark_fields hg
  have hmark : Chg { gals := true, regs := true } w (w.wakeMark g) := .via (.via (.mono .modGal) .setFld) .setFld
  have htile (h k : Nat) (hk : k < 16) : (w.wakeMark g).tile (tIx (tileAt h k)) =
      if h = g then { s.tile (tIx (tileAt h k)) with scratch := [], full := 0, fullAt := 0, ungate := [], gateReq := 0, hndw := [] }
      else s.tile (tIx (tileAt h k)) := by
    rw [hmark.tile_eq, hlose.tile_eq, t5]
    exact if_congr (mem_galleryTiles hk) rfl rfl
  refine ⟨⟨m1, by rw [m4 g hg, if_pos rfl], fun k hk => by rw [htile g k hk, if_pos rfl]; exact ⟨rfl, rfl⟩⟩, fun h hne => ?_, fun h hh hw => ?_, ?_, fun q => ?_, fun q => ?_⟩
  · rw [m2 h hne, hlose.gal_eq, t1]
  · by_cases he : h = g
    · rw [he]
      exact ⟨m1, by rw [m4 g hg, if_pos rfl], fun k hk => by rw [htile g k hk, if_pos rfl]; exact ⟨rfl, rfl⟩⟩
    · obtain ⟨w1, w2, w3⟩ := hw
      refine ⟨by rw [m2 h he, hlose.gal_eq, t1, w1], ?_, fun k hk => by rw [htile h k hk, if_neg he]; exact w3 k hk⟩
      rw [m4 h hh, if_neg he, hlose.fld_eq, t4 h hh, w2]
  · rw [m3, State.cnt, hlose.reg_eq]
    exact t3
  · rw [hmark.region_eq, (hregion q).1, t2]
  · rw [hmark.region_eq, (hregion q).2, t2]

/-- What the waking of a list of galleries keeps and brings. -/
structure State.Wakes (s : State) (l : List Nat) (u : State) : Prop where
  woken : ∀ g ∈ l, u.Woken g
  other : ∀ g, g ∉ l → u.gal g = s.gal g
  kept : ∀ g < 192, s.Woken g → u.Woken g
  cnt : u.cnt = s.cnt
  wake : ∀ r, (u.region r).wake = (s.region r).wake
  plan : ∀ r, (∃ g ∈ l, (s.galRec g).region = r ∧ r < 8) ∨ (s.region r).plan = none → (u.region r).plan = none
  chg : Chg { tiles := true, regs := true, regions := true, gals := true } s u

theorem State.wakes_foldl (l : List Nat) {s : State} (hcut : s.pwr.cut = false) (hl : ∀ g ∈ l, g < 192) :
    s.Wakes l (l.foldl State.wakeGallery s) := by
  induction l generalizing s with
  | nil => exact ⟨fun g hg => absurd hg List.not_mem_nil, fun _ _ => rfl, fun _ _ h => h, rfl, fun _ => rfl, fun r h => h.elim (fun ⟨g, hg, _⟩ => absurd hg List.not_mem_nil) id, .refl⟩
  | cons g l ih =>
    have hg : g < 192 := hl g (List.mem_cons_self ..)
    obtain ⟨f1, f2, f3, f4, f5, f6⟩ := State.wakeGallery_fields hcut hg
    have hchg := State.wakeGallery_chg (s := s) (g := g)
    have hk := ih (s := s.wakeGallery g) (by rw [hchg.pwr_eq]; exact hcut) fun h hh => hl h (List.mem_cons_of_mem _ hh)
    rw [List.foldl_cons]
    have hrec (h : Nat) : (s.wakeGallery g).galRec h = s.galRec h := by
      unfold State.galRec
      rw [hchg.img_eq]
    refine ⟨fun h hh => ?_, fun h hh => ?_, fun h hh hw => hk.kept h hh (f3 h hh hw), hk.cnt.trans f4, fun r => (hk.wake r).trans (f5 r), fun r hr => ?_, hchg.trans hk.chg⟩
    · rcases List.mem_cons.1 hh with he | hm
      · rw [he]
        exact hk.kept g hg f1
      · exact hk.woken h hm
    · rw [List.mem_cons, not_or] at hh
      exact (hk.other h hh.2).trans (f2 h hh.1)
    · refine hk.plan r ?_
      rw [f6 r]
      rcases hr with ⟨h, hh, h1, h2⟩ | hnone
      · rcases List.mem_cons.1 hh with he | hm
        · exact .inr (if_pos ⟨by rw [← h1, he], by rw [← he, h1]; exact h2⟩)
        · exact .inl ⟨h, hm, by rw [hrec]; exact h1, h2⟩
      · exact .inr (by rw [hnone, ite_self])

theorem State.Woken.of_install {s : State} {g r : Nat} {p : Plan} {reads : List (Nat × GranRes)} (hg : g < 192) (h : s.Woken g) :
    (s.install r p reads).Woken g := by
  have hmark : (s.install r p reads).fld F.galGate_awake g = s.fld F.galGate_awake g := RegsKept.install.fld _ _ (by omega) (by decide)
  have htext := State.textRead_chg (s := s) (addr := s.blockAddr p 0) (n := ceilDiv (24 * min p.text.length (16 * installBlocks p)) 64) (res := reads)
  obtain ⟨hawake, hfld, htiles⟩ := h
  have htile (k : Nat) (gone : List Nat) (f : State → Xy → Nat) (l : List Xy) (v : State) :
      ((l.foldl (fun s t =>
        ((s.modTile (tIx t) fun T => { T.clearUnits false with sregs := [], invs := 0, lostPc := gone, bcast := 0, bcastAt := [] }).setReg
          .tilPadctl (tIx t) (f s t))) v).tile k).scratch = (v.tile k).scratch ∧
      ((l.foldl (fun s t =>
        ((s.modTile (tIx t) fun T => { T.clearUnits false with sregs := [], invs := 0, lostPc := gone, bcast := 0, bcastAt := [] }).setReg
          .tilPadctl (tIx t) (f s t))) v).tile k).full = (v.tile k).full := by
    induction l generalizing v with
    | nil => exact ⟨rfl, rfl⟩
    | cons t l ih =>
      rw [List.foldl_cons]
      refine ⟨(ih _).1.trans ?_, (ih _).2.trans ?_⟩
      all_goals
        rw [Chg.setReg.tile_eq]
        by_cases ht : k = tIx t
        · rw [ht, State.modTile_same]
          rfl
        · rw [State.modTile_ne _ _ _ ht]
  have hgals (l : List Nat) (n : Nat) (v : State) :
      ((l.foldl (fun s g => s.modGal g fun v => { v with nextBlock := n, staged := [], ring := [], ringFree := [] }) v).gal g).awake = (v.gal g).awake := by
    induction l generalizing v with
    | nil => rfl
    | cons h l ih =>
      rw [List.foldl_cons, ih]
      by_cases he : g = h
      · rw [he, State.modGal_same]
      · rw [State.modGal_ne _ _ _ he]
  refine ⟨?_, hmark.trans hfld, fun k hk => ?_⟩
  · unfold State.install
    dsimp only
    rw [Chg.modRegion.gal_eq, hgals, Chg.gal_eq (P := { tiles := true, regs := true }) (.foldl (fun _ _ =>
      .via (.onModTile .refl (.via (U := Tile.clearUnits _ false) Tile.clearUnits_tchg .plain)) .setReg) _ .refl), htext.gal_eq]
    exact hawake
  · have hsame (l : List Nat) (f : Gallery → Gallery) (v : State) : (l.foldl (fun s g => s.modGal g f) v).tile (tIx (tileAt g k)) = v.tile (tIx (tileAt g k)) :=
      Chg.tile_eq (P := { gals := true }) (.foldl (fun _ _ => .modGal) _ .refl) _
    unfold State.install
    dsimp only
    rw [Chg.modRegion.tile_eq, hsame, (htile _ _ _ _ _).1, (htile _ _ _ _ _).2, htext.tile_eq]
    exact htiles k hk

theorem State.Woken.modRegion {s : State} {g r : Nat} {f : Region → Region} (h : s.Woken g) : (s.modRegion r f).Woken g :=
  ⟨h.awake, (Chg.modRegion.fld_eq ..).trans h.mark, h.tiles⟩

theorem State.galsOf_lt {s : State} {r g : Nat} (h : g ∈ s.galsOf r) : g < 192 ∧ (s.galRec g).region = r := by
  obtain ⟨h1, h2⟩ := List.mem_filter.1 h
  exact ⟨List.mem_range.1 h1, beq_iff_eq.1 h2⟩

theorem State.galsFree_lt {s : State} {g : Nat} (h : g ∈ s.galsFree) : g < 192 ∧ 8 ≤ (s.galRec g).region := by
  obtain ⟨h1, h2⟩ := List.mem_filter.1 h
  rw [Bool.and_eq_true] at h2
  exact ⟨List.mem_range.1 h1, of_decide_eq_true h2.2⟩

theorem execGalleryWakeEnd_eq {s : State} {r : Fin 8} (hcut : s.pwr.cut = false) :
    Yields (.galleryWakeEnd r) s fun u =>
      (∀ g ∈ s.galsOf r, (s.gal g).awake = false → (reachedAt (s.region r).wake s.cnt = true ∨ reachedAt (s.gal g).wake s.cnt = true) → u.Woken g) ∧
      (∀ g ∈ s.galsFree, (s.gal g).awake = false → reachedAt (s.gal g).wake s.cnt = true → (u.gal g).awake = true) ∧
      (∀ g ∈ s.galsOf r, (s.gal g).awake = false → reachedAt (s.gal g).wake s.cnt = true → reachedAt (s.region r).wake s.cnt = false →
        (u.region r).plan = none) ∧
      (reachedAt (s.region r).wake s.cnt = true → (u.region r).wake = none) := by
  have hexec : exec (.galleryWakeEnd r) s = execGalleryWakeEnd r s := rfl
  unfold execGalleryWakeEnd at hexec
  dsimp only at hexec
  generalize hfree : (s.galsFree.filter fun g => !(s.gal g).awake && reachedAt (s.gal g).wake s.cnt) = free at hexec
  have hfw := s.wakes_foldl free hcut fun g hg => by
    rw [← hfree] at hg
    exact (State.galsFree_lt (List.mem_of_mem_filter hg)).1
  generalize free.foldl State.wakeGallery s = v at hexec hfw
  have hvcut : v.pwr.cut = false := by rw [hfw.chg.pwr_eq]; exact hcut
  have hrec (g : Nat) : v.galRec g = s.galRec g := by
    unfold State.galRec
    rw [hfw.chg.img_eq]
  have hgals : v.galsOf r = s.galsOf r := by
    unfold State.galsOf
    exact List.filter_congr fun g _ => by rw [hrec]
  have hvgal (g : Nat) (hg : g ∈ s.galsOf r) : v.gal g = s.gal g := hfw.other g fun hh => by
    rw [← hfree] at hh
    have h8 := (State.galsFree_lt (List.mem_of_mem_filter hh)).2
    rw [(State.galsOf_lt hg).2] at h8
    exact absurd r.isLt (Nat.not_lt.2 h8)
  rw [hgals, hfw.cnt] at hexec
  generalize hown : ((s.galsOf r).filter fun g => !(v.gal g).awake && (reachedAt (s.region r).wake s.cnt || reachedAt (v.gal g).wake s.cnt)) = own at hexec
  have hmem (g : Nat) (hg : g ∈ s.galsOf r) (ha : (s.gal g).awake = false)
      (hor : reachedAt (s.region r).wake s.cnt = true ∨ reachedAt (s.gal g).wake s.cnt = true) : g ∈ own := by
    rw [← hown, List.mem_filter]
    refine ⟨hg, ?_⟩
    rw [hvgal g hg, ha, Bool.and_eq_true, Bool.or_eq_true]
    exact ⟨rfl, hor⟩
  have how := v.wakes_foldl own hvcut fun g hg => by
    rw [← hown] at hg
    exact (State.galsOf_lt (List.mem_of_mem_filter hg)).1
  generalize own.foldl State.wakeGallery v = w at hexec how
  have hwoken (g : Nat) (hg : g ∈ s.galsOf r) (ha : (s.gal g).awake = false)
      (hor : reachedAt (s.region r).wake s.cnt = true ∨ reachedAt (s.gal g).wake s.cnt = true) : w.Woken g := how.woken g (hmem g hg ha hor)
  have hloose (g : Nat) (hg : g ∈ s.galsFree) (ha : (s.gal g).awake = false) (hr : reachedAt (s.gal g).wake s.cnt = true) : w.Woken g := by
    refine how.kept g (State.galsFree_lt hg).1 (hfw.woken g ?_)
    rw [← hfree, List.mem_filter]
    exact ⟨hg, by rw [ha, hr]; rfl⟩
  by_cases hnow : reachedAt (s.region r).wake s.cnt = true
  · rw [if_pos hnow] at hexec
    have hend (x : State) (hx : ∀ g < 192, w.Woken g → x.Woken g) :
        (∀ g ∈ s.galsOf r, (s.gal g).awake = false → (reachedAt (s.region r).wake s.cnt = true ∨ reachedAt (s.gal g).wake s.cnt = true) →
          (x.modRegion r.val fun R => { R with wake := none }).Woken g) ∧
        (∀ g ∈ s.galsFree, (s.gal g).awake = false → reachedAt (s.gal g).wake s.cnt = true →
          ((x.modRegion r.val fun R => { R with wake := none }).gal g).awake = true) ∧
        (∀ g ∈ s.galsOf r, (s.gal g).awake = false → reachedAt (s.gal g).wake s.cnt = true → reachedAt (s.region r).wake s.cnt = false →
          ((x.modRegion r.val fun R => { R with wake := none }).region r).plan = none) ∧
        (reachedAt (s.region r).wake s.cnt = true → ((x.modRegion r.val fun R => { R with wake := none }).region r).wake = none) := by
      refine ⟨fun g hg ha hor => (hx g (State.galsOf_lt hg).1 (hwoken g hg ha hor)).modRegion,
        fun g hg ha hr => ((hx g (State.galsFree_lt hg).1 (hloose g hg ha hr)).modRegion (r := r.val)).awake,
        fun g hg ha hr hh => absurd (hnow.symm.trans hh) (by decide), fun _ => by rw [State.modRegion_same]⟩
    cases hp : w.planOf (w.region r).launchPlan with
    | none =>
      rw [hp] at hexec
      exact ⟨_, hexec, hend w fun _ _ h => h⟩
    | some p =>
      rw [hp] at hexec
      exact ⟨_, hexec, hend _ fun g hg h => h.of_install hg⟩
  · rw [if_neg hnow] at hexec
    refine ⟨_, hexec, hwoken, fun g hg ha hr => (hloose g hg ha hr).awake, fun g hg ha hr _ => ?_, fun hh => absurd hh hnow⟩
    exact how.plan r (.inl ⟨g, hmem g hg ha (.inr hr), by rw [hrec]; exact (State.galsOf_lt hg).2, r.isLt⟩)

/-! ## Banks gated and ungated (R579, R591, R592) -/

theorem testBit_bankMask (p : Nat → Bool) {b : Nat} (hb : b < 32) :
    (BitVec.ofNat 32 (((List.range 32).filter p).foldl (fun m b => m + 2 ^ b) 0)).getLsbD b = p b := by
  rw [List.foldl_filter, BitVec.getLsbD_ofNat, (testBit_maskFold p 32).2 b, decide_eq_true hb]
  rfl

/-- The banks of a list, each with the time at which it is ungated. -/
theorem mfind_ungates (p : Nat → Bool) (at_ b : Nat) (l : List Nat) (m : SMap Nat) :
    mfind (l.foldl (fun m b => if p b then mput m b at_ else m) m) b = if b ∈ l ∧ p b = true then some at_ else mfind m b := by
  induction l generalizing m with
  | nil => rw [if_neg fun h => List.not_mem_nil h.1]; rfl
  | cons c l ih =>
    rw [List.foldl_cons, ih]
    by_cases hl : b ∈ l ∧ p b = true
    · rw [if_pos hl, if_pos ⟨List.mem_cons_of_mem _ hl.1, hl.2⟩]
    rw [if_neg hl]
    by_cases hc : b = c
    · subst hc
      by_cases hp : p b = true
      · rw [if_pos hp, if_pos ⟨List.mem_cons_self .., hp⟩, mfind_mput_same]
      · rw [if_neg hp, if_neg fun h => hp h.2]
    · rw [if_neg (c := b ∈ c :: l ∧ p b = true) fun h => hl ⟨(List.mem_cons.1 h.1).resolve_left hc, h.2⟩]
      split_ifs
      · exact mfind_mput_ne _ _ hc
      · rfl

theorem execTilBankgateWrite_eq {s : State} {w : Writer} {t : Xy} {off : Nat} {val : BitVec 32} (hw : s.mayWrite w = true)
    (hl : s.loading = none) (hd : s.dieAbsent (dieOf (xyOf (tIx t))) = false) :
    let y := tIx t
    let T := s.tile y
    let old := BitVec.ofNat 32 (s.fld F.tilBankgate_gated y)
    (s.tileRuns y = true → Yields (.tilBankgateWrite w t off val) s fun u =>
      u.tiles = s.tiles ∧ u.fld F.tilBankgate_gated y = s.fld F.tilBankgate_gated y) ∧
    (s.tileRuns y = false → Yields (.tilBankgateWrite w t off val) s fun u =>
      u.fld F.tilBankgate_gated y = val.toNat ∧
      ∀ b < 32,
        (val.getLsbD b = true → old.getLsbD b = false → mfind T.ungate b = none → (u.tile y).gateReq.getLsbD b = true) ∧
        (val.getLsbD b = false → old.getLsbD b = true → T.gateReq.getLsbD b = false →
          mfind (u.tile y).ungate b = some (s.cnt + 256))) := by
  intro y T old
  have hexec : exec (.tilBankgateWrite w t off val) s = execTilBankgateWrite w t off val s := rfl
  unfold execTilBankgateWrite at hexec
  dsimp only at hexec
  rw [State.moduleWrite_eq hw hl (fun d hd' => by
    rw [show accessDie ⟨.tilBankgate, tIx t⟩ off = some (dieOf (xyOf (tIx t))) from rfl] at hd'
    cases hd'
    exact hd)] at hexec
  refine ⟨fun hr => ?_, fun hr => ?_⟩
  · rw [if_pos hr] at hexec
    refine ⟨_, hexec, State.event_chg.tiles_eq, ?_⟩
    rw [State.fld, State.imageBusy, State.reg_event _ _ _ _ _ (regKey_ne_of_lt _ (by decide) (by decide)).symm]
    rfl
  · rw [if_neg (by rw [hr]; decide)] at hexec
    generalize hv : s.modTile (tIx t) (fun T =>
      { T with
        gateReq := (T.gateReq &&& val) ||| BitVec.ofNat 32 (((List.range 32).filter fun b =>
          (val &&& ~~~BitVec.ofNat 32 (s.fld F.tilBankgate_gated (tIx t))).toNat.testBit b && (mfind T.ungate b).isNone).foldl (fun m b => m + 2 ^ b) 0)
        ungate := (List.range 32).foldl (fun m b => if (BitVec.ofNat 32 (s.fld F.tilBankgate_gated (tIx t)) &&& ~~~val &&& ~~~T.gateReq).getLsbD b
            then mput m b (s.cnt + 256) else m)
          (T.ungate.filter fun u => !val.getLsbD u.1) }) = v at hexec
    have htile : (v.setFld F.tilBankgate_gated (tIx t) val.toNat).tile y =
      { T with
        gateReq := (T.gateReq &&& val) ||| BitVec.ofNat 32 (((List.range 32).filter fun b =>
          (val &&& ~~~old).toNat.testBit b && (mfind T.ungate b).isNone).foldl (fun m b => m + 2 ^ b) 0)
        ungate := (List.range 32).foldl (fun m b => if (old &&& ~~~val &&& ~~~T.gateReq).getLsbD b then mput m b (s.cnt + 256) else m)
          (T.ungate.filter fun u => !val.getLsbD u.1) } := by
      rw [Chg.setFld.tile_eq, ← hv, State.modTile_same]
    refine ⟨_, hexec, State.fld_setFld_eq _ (by decide) val.isLt, fun b hb => ⟨fun h1 h2 h3 => ?_, fun h1 h2 h3 => ?_⟩⟩
    · rw [htile]
      show ((T.gateReq &&& val) ||| _ : BitVec 32).getLsbD b = true
      rw [BitVec.getLsbD_or, testBit_bankMask _ hb, h3, BitVec.testBit_toNat, BitVec.getLsbD_and, BitVec.getLsbD_and,
        BitVec.getLsbD_not, h1, h2, decide_eq_true hb]
      exact Bool.or_true _
    · rw [htile]
      refine (mfind_ungates (fun b => (old &&& ~~~val &&& ~~~T.gateReq).getLsbD b) (s.cnt + 256) b (List.range 32) _).trans (if_pos ⟨List.mem_range.2 hb, ?_⟩)
      rw [BitVec.getLsbD_and, BitVec.getLsbD_and, BitVec.getLsbD_not, BitVec.getLsbD_not, h1, h2, h3, decide_eq_true hb]
      rfl

/-- The slots of a list marked empty. -/
theorem getLsbD_emptied (l : List Nat) (f : BitVec 4096) (k : Nat) :
    (l.foldl (fun f k => f &&& ~~~(1#4096 <<< k)) f).getLsbD k = true → f.getLsbD k = true ∧ (k < 4096 → k ∉ l) := by
  induction l generalizing f with
  | nil => exact fun h => ⟨h, fun _ => List.not_mem_nil⟩
  | cons j l ih =>
    intro h
    obtain ⟨h1, h2⟩ := ih _ h
    rw [BitVec.getLsbD_and, Bool.and_eq_true] at h1
    refine ⟨h1.1, fun hk hm => ?_⟩
    rcases List.mem_cons.1 hm with he | hm
    · have hbit := h1.2
      rw [he] at hk
      rw [he, BitVec.getLsbD_not, BitVec.getLsbD_shiftLeft, decide_eq_true hk, decide_eq_false (Nat.lt_irrefl j), Nat.sub_self,
        BitVec.getLsbD_one, decide_eq_true (Nat.zero_lt_of_lt hk)] at hbit
      cases hbit
    · exact h2 hk hm

theorem execBankUngateReady_eq {s : State} {t : Xy} {bank : Fin 32} {at_ : Nat} (hfind : mfind (s.tile (tIx t)).ungate bank = some at_)
    (hdue : at_ ≤ s.cnt) :
    let y := tIx t
    let inBank (a : Nat) : Prop := bankOf (s.modeAt y a) a = bank.val
    Yields (.bankUngateReady t bank) s fun u =>
      (∀ a, (inBank a → rdByte (u.tile y).scratch a = unlisted) ∧ (¬inBank a → rdByte (u.tile y).scratch a = rdByte (s.tile y).scratch a)) ∧
      ∀ k < 4096, (∃ n < 16, inBank (512 * k + 32 * n)) → (u.tile y).full.getLsbD k = false := by
  intro y inBank
  have hexec : exec (.bankUngateReady t bank) s = execBankUngateReady t bank s := rfl
  unfold execBankUngateReady at hexec
  dsimp only at hexec
  rw [hfind] at hexec
  dsimp only at hexec
  rw [if_neg (Nat.not_lt.2 hdue)] at hexec
  generalize hslots : ((List.range 4096).filter fun k => (List.range 16).any fun w => bankOf (s.modeAt (tIx t) (512 * k + 32 * w)) (512 * k + 32 * w) == bank.val) = slots at hexec
  refine ⟨_, hexec, fun a => ?_, fun k hk hin => ?_⟩
  · rw [State.modTile_same]
    have hread := rdByte_filter (fun a => !(bankOf (s.modeAt (tIx t) a) a == bank.val)) (s.tile (tIx t)).scratch a
    refine ⟨fun h => hread.trans ?_, fun h => hread.trans ?_⟩
    · rw [beq_iff_eq.2 h]
      rfl
    · rw [beq_false_of_ne h]
      rfl
  · rw [State.modTile_same]
    refine Bool.eq_false_iff.2 fun hbit => (getLsbD_emptied _ _ k hbit).2 hk ?_
    obtain ⟨n, hn, hb⟩ := hin
    rw [← hslots]
    exact List.mem_filter.2 ⟨List.mem_range.2 hk, List.any_eq_true.2 ⟨n, List.mem_range.2 hn, beq_iff_eq.2 hb⟩⟩

/-- Settles O49: galleries gate and wake with their scratchpads zero, and banks gate and ungate. -/
theorem galleriesAndBanks : Obligations.GalleriesAndBanks := by
  unfold Obligations.GalleriesAndBanks
  intro s
  refine ⟨?_, ?_, ?_, ?_, ?_⟩
  · exact fun w g off val hg hw hl hd => galGateWrite_eq hg hw hl hd
  · exact fun g ha hp hi hw hpend hok hidle => execAutoGate_eq ha hp hi hw hpend hok hidle
  · intro r hcut
    obtain ⟨u, hu, h1, h2, h3, h4⟩ := execGalleryWakeEnd_eq (s := s) (r := r) hcut
    refine ⟨u, hu, fun g hg ha hor => ?_, h2, h3, h4⟩
    obtain ⟨w1, w2, w3⟩ := h1 g hg ha hor
    exact ⟨w1, w2, w3⟩
  · exact fun w t off val hw hl hd => execTilBankgateWrite_eq hw hl hd
  · intro t bank at_ y inBank hfind hdue
    exact execBankUngateReady_eq hfind hdue

end Sys2Proof.Machine
end

section
/-!
The stages of power-up (R294, R594, R602, R604, R605, R613, R620, R635, R644).
-/
namespace Sys2Proof.Machine
set_option Elab.async false

/-! ## The boot record and the slot that a boot chooses (R604, R605) -/

/-- The boot record of `b` in a boot state `c`. -/
def Boot.put (b c : Boot) : Boot :=
  { c with slotA := b.slotA, slotB := b.slotB, seq := b.seq, copy := b.copy, copy0 := b.copy0, copy1 := b.copy1, okRec := b.okRec }

def Boot.readBack (b : Boot) : Boot :=
  match b.newest with
  | some i =>
    let c := if i = 0 then b.copy0 else b.copy1
    { b with seq := c.seq, copy := i, okRec := c.ok, slotA := b.slotA.from_ c.a, slotB := b.slotB.from_ c.b }
  | none => { b with slotA := { b.slotA with state := 0 }, slotB := { b.slotB with state := 0 } }

def Boot.writeBack (b : Boot) : Boot :=
  let c := b.record (b.seq + 1)
  if b.copy = 0 then { b with seq := b.seq + 1, copy := 1, copy1 := c } else { b with seq := b.seq + 1, copy := 0, copy0 := c }

def Boot.modSlot (b : Boot) (i : Nat) (f : FwSlot → FwSlot) : Boot :=
  if i = 0 then { b with slotA := f b.slotA } else { b with slotB := f b.slotB }

/-- The boot record with the slot that the next boot tries, that slot, whether it is on trial, and whether a trial has failed. -/
def Boot.choose (b : Boot) : Boot × Option Nat × Bool × Bool :=
  match b.readBack.slotIn 3 with
  | some t =>
    if (b.readBack.slot t).tried then ((b.readBack.modSlot t fun f => { f with state := 6 }).writeBack, b.readBack.slotIn 4, false, true)
    else ((b.readBack.modSlot t fun f => { f with tried := true }).writeBack, some t, true, false)
  | none => (b.readBack, b.readBack.slotIn 4, false, false)

theorem State.readRecord_eq (s : State) : s.readRecord = { s with boot := s.boot.readBack } := by
  unfold State.readRecord Boot.readBack State.modBoot
  dsimp only <;> cases s.boot.newest <;> rfl

theorem State.writeRecord_eq (s : State) : s.writeRecord = { s with boot := s.boot.writeBack } := rfl

theorem State.modSlot_eq (s : State) (i : Nat) (f : FwSlot → FwSlot) : s.modSlot i f = { s with boot := s.boot.modSlot i f } := rfl

theorem State.chooseSlot_eq (s : State) : s.chooseSlot = ({ s with boot := s.boot.choose.1 }, s.boot.choose.2) := by
  have hread : s.readRecord.boot = s.boot.readBack := by rw [State.readRecord_eq]
  have hmod (t : Nat) (f : FwSlot → FwSlot) : (s.readRecord.modSlot t f).writeRecord = { s with boot := (s.boot.readBack.modSlot t f).writeBack } := by
    rw [State.readRecord_eq, State.modSlot_eq, State.writeRecord_eq]
  unfold State.chooseSlot Boot.choose
  dsimp only
  rw [hread]
  cases s.boot.readBack.slotIn 3 with
  | none =>
    dsimp only
    rw [State.readRecord_eq]
  | some t =>
    dsimp only
    rw [hmod, hmod]
    split_ifs
    · rfl
    · rfl

theorem Boot.readBack_put (b c : Boot) : (b.put c).readBack = b.readBack.put c := by
  have hnew : (b.put c).newest = b.newest := rfl
  unfold Boot.readBack
  rw [hnew]
  cases b.newest with
  | none => rfl
  | some i => rfl

theorem Boot.writeBack_put (b c : Boot) : (b.put c).writeBack = b.writeBack.put c := by
  have hrec (n : Nat) : (b.put c).record n = b.record n := rfl
  have hcopy : (b.put c).copy = b.copy := rfl
  unfold Boot.writeBack
  rw [hrec, hcopy]
  dsimp only
  split_ifs <;> rfl

theorem Boot.modSlot_put (b c : Boot) (i : Nat) (f : FwSlot → FwSlot) : (b.put c).modSlot i f = (b.modSlot i f).put c := by
  unfold Boot.modSlot
  split_ifs <;> rfl

theorem Boot.choose_put (b c : Boot) : (b.put c).choose = (b.choose.1.put c, b.choose.2) := by
  have hin (x : Boot) (n : Nat) : (x.put c).slotIn n = x.slotIn n := rfl
  have hslot (x : Boot) (n : Nat) : (x.put c).slot n = x.slot n := rfl
  unfold Boot.choose
  rw [Boot.readBack_put, hin, hin]
  cases b.readBack.slotIn 3 with
  | none => rfl
  | some t =>
    dsimp only
    rw [hslot, Boot.modSlot_put, Boot.modSlot_put, Boot.writeBack_put, Boot.writeBack_put]
    split_ifs <;> rfl

theorem Boot.put_self (b : Boot) : b.put b = b := rfl

/-- The choice changes the boot record alone. -/
theorem Boot.choose_kept (b : Boot) : b.choose.1 = b.choose.1.put b := congrArg Prod.fst (Boot.choose_put b b)

/-! ## VSTBY and the supply (R594, R602, R604, R635, R644) -/

theorem State.milugPasses_fuses {s u : State} (h : u.fuses = s.fuses) (f : FwSlot) (ok : Bool) : u.milugPasses f ok = s.milugPasses f ok := by
  unfold State.milugPasses State.shippedPasses State.manPasses
  rw [h]

theorem State.slotPasses_fuses {s u : State} (h : u.fuses = s.fuses) (f : FwSlot) (ok : Bool) : u.slotPasses f ok = s.slotPasses f ok := by
  unfold State.slotPasses State.shippedPasses State.manPasses
  rw [h]

theorem State.milugSlot_put {s u : State} {c : Boot} (hb : u.boot = s.boot.put c) (hf : u.fuses = s.fuses) (ok : Bool) :
    u.milugSlot ok = s.milugSlot ok := by
  have hpass : (fun i => u.milugPasses (u.boot.slot i) ok) = fun i => s.milugPasses (s.boot.slot i) ok := by
    funext i
    rw [State.milugPasses_fuses hf, hb]
    rfl
  unfold State.milugSlot
  rw [State.chooseSlot_eq, State.chooseSlot_eq, hpass, hb, Boot.choose_put]
  rfl

theorem State.alert_parts (x : State) : x.alert.boot = x.boot ∧ ∃ a, x.alert.milug = { x.milug with alert := a } := by
  unfold State.alert
  split_ifs
  · exact ⟨rfl, true, rfl⟩
  · exact ⟨rfl, x.milug.alert, rfl⟩

/-- A fault changes no more of the boot and of Milug than its mark and the alert. -/
theorem State.modFault_parts (s : State) (code : Nat) :
    (s.modFault code).boot = { s.boot with faulted := true } ∧ ∃ a, (s.modFault code).milug = { s.milug with alert := a } := by
  have hv : Chg { fns := true, regs := true } s (s.event 0x02E4 8 0 [(1, code)]) := State.event_chg
  unfold State.modFault
  generalize s.event 0x02E4 8 0 [(1, code)] = v at hv
  dsimp only
  have hw : Chg { regs := true } v (((v.setFld F.secFault_sticky 0 1).setFld F.secFault_code 0 code).satAdd F.secFault_count 0 1) :=
    .via (.via .setFld .setFld) .satAdd
  generalize ((v.setFld F.secFault_sticky 0 1).setFld F.secFault_code 0 code).satAdd F.secFault_count 0 1 = w at hw
  have hx : Chg { fns := true } w (w.irqCause 0 3) := State.irqCause_chg
  generalize w.irqCause 0 3 = x at hx
  obtain ⟨h1, a, h2⟩ := State.alert_parts (x.modBoot fun b => { b with faulted := true })
  have hb : (x.modBoot fun b => { b with faulted := true }).boot = { s.boot with faulted := true } := by
    have h : x.boot = s.boot := by rw [hx.boot_eq, hw.boot_eq, hv.boot_eq]
    rw [← h]
    rfl
  have hm : (x.modBoot fun b => { b with faulted := true }).milug = s.milug := by
    have h : x.milug = s.milug := by rw [hx.milug_eq, hw.milug_eq, hv.milug_eq]
    exact (Chg.modBootPlain (f := fun b => { b with faulted := true })).milug_eq.trans h
  exact ⟨h1.trans hb, a, by rw [h2, hm]⟩
/-- The boot state of a module that is off. -/
def Boot.off (b : Boot) (cause : Nat) : Boot :=
  { b with
    idKey := none, recovery := false, firmware := false, refFault := false, trial := false, hostConf := false, faulted := false
    stage := min b.stage 1, bootRes := cause }

theorem State.mainOff_boot (s : State) (cause : Nat) : (s.mainOff cause).boot = s.boot.off cause := rfl

theorem Boot.off_put (b : Boot) (cause : Nat) : b.off cause = b.put (b.off cause) := rfl

theorem State.milugSlot_mainOff (s : State) (cause : Nat) (ok : Bool) : (s.mainOff cause).milugSlot ok = s.milugSlot ok :=
  State.milugSlot_put (c := s.boot.off cause) ((s.mainOff_boot cause).trans (s.boot.off_put cause)) (s.mainOff_fields cause).2.2.2.2.2.1 ok

theorem State.modFault_regs (s : State) (code : Nat) : RegsKept [.hstEvstat, .secFault] s (s.modFault code) := by
  have hv : RegsKept [.hstEvstat, .secFault] s (s.event 0x02E4 8 0 [(1, code)]) := .event (by decide)
  unfold State.modFault
  generalize s.event 0x02E4 8 0 [(1, code)] = v at hv
  dsimp only
  have hw : RegsKept [.hstEvstat, .secFault] v (((v.setFld F.secFault_sticky 0 1).setFld F.secFault_code 0 code).satAdd F.secFault_count 0 1) :=
    .trans (.trans (.setFld (by decide) (by decide)) (.setFld (by decide) (by decide))) (.satAdd (by decide) (by decide))
  generalize ((v.setFld F.secFault_sticky 0 1).setFld F.secFault_code 0 code).satAdd F.secFault_count 0 1 = w at hw
  have hx : Chg { fns := true, boot := true, milug := true } w ((w.irqCause 0 3).modBoot fun b => { b with faulted := true }).alert :=
    .via (.via (.mono State.irqCause_chg) .modBootPlain) State.alert_chg
  exact (hv.trans hw).trans (.of_chg hx)

theorem execVstbyApply_eq {s : State} {senseMatch milugOk : Bool} (h : s.boot.vstby = false) :
    Yields (.vstbyApply senseMatch milugOk) s fun u =>
      u.boot.vstby = true ∧ u.boot.holdup = true ∧ u.milug.up = true ∧ u.milug.fw = (s.milugSlot milugOk).isSome ∧
      (∀ i, s.milugSlot milugOk = some i → u.milug.slot = i) ∧ u.pwr.stage = false ∧
      u.boot.stage = (if senseMatch then 1 else 0) ∧ (senseMatch = false → u.fld F.secFault_code 0 = 0x01) := by
  have hexec : exec (.vstbyApply senseMatch milugOk) s = execVstbyApply senseMatch milugOk s := rfl
  unfold execVstbyApply at hexec
  rw [if_neg (by rw [h]; decide)] at hexec
  dsimp only at hexec
  rw [State.milugSlot_mainOff] at hexec
  have hoff : (s.mainOff 0).pwr.stage = false := rfl
  generalize s.mainOff 0 = v at hexec hoff
  generalize hw : (v.modBoot fun b => { b with vstby := true, holdup := true, stage := if senseMatch then 1 else 0 }).modMilug (fun m =>
    { m with up := true, fw := (s.milugSlot milugOk).isSome, slot := (s.milugSlot milugOk).getD m.slot }) = w at hexec
  have hend (u : State) (hv : u.boot.vstby = w.boot.vstby ∧ u.boot.holdup = w.boot.holdup ∧ u.boot.stage = w.boot.stage)
      (hm : u.milug.up = w.milug.up ∧ u.milug.fw = w.milug.fw ∧ u.milug.slot = w.milug.slot) (hp : u.pwr = w.pwr) :
      u.boot.vstby = true ∧ u.boot.holdup = true ∧ u.milug.up = true ∧ u.milug.fw = (s.milugSlot milugOk).isSome ∧
      (∀ i, s.milugSlot milugOk = some i → u.milug.slot = i) ∧ u.pwr.stage = false ∧ u.boot.stage = (if senseMatch then 1 else 0) := by
    obtain ⟨v1, v2, v3⟩ := hv
    obtain ⟨m1, m2, m3⟩ := hm
    rw [v1, v2, v3, m1, m2, m3, hp, ← hw]
    exact ⟨rfl, rfl, rfl, rfl, fun i hi => by show (s.milugSlot milugOk).getD v.milug.slot = i; rw [hi]; rfl, hoff, rfl⟩
  cases senseMatch with
  | true =>
    rw [if_pos rfl] at hexec
    obtain ⟨h1, h2, h3, h4, h5, h6, h7⟩ := hend w ⟨rfl, rfl, rfl⟩ ⟨rfl, rfl, rfl⟩ rfl
    exact ⟨_, hexec, h1, h2, h3, h4, h5, h6, h7, fun hh => by cases hh⟩
  | false =>
    rw [if_neg Bool.false_ne_true] at hexec
    obtain ⟨f1, -, f3, -⟩ := State.modFault_fields (s := w) (code := 1) (by decide)
    obtain ⟨b1, b2⟩ := w.modFault_parts 1
    obtain ⟨h1, h2, h3, h4, h5, h6, h7⟩ := hend (w.modFault 1) (by rw [b1]; exact ⟨rfl, rfl, rfl⟩)
      (by obtain ⟨a, ha⟩ := b2; rw [ha]; exact ⟨rfl, rfl, rfl⟩) f3
    exact ⟨_, hexec, h1, h2, h3, h4, h5, h6, h7, fun _ => f1⟩

theorem testBit_mask8 (p : Nat → Bool) {b : Nat} (hb : b < 8) :
    (BitVec.ofNat 8 (((List.range 8).filter p).foldl (fun m b => m + 2 ^ b) 0)).getLsbD b = p b := by
  rw [List.foldl_filter, BitVec.getLsbD_ofNat, (testBit_maskFold p 8).2 b, decide_eq_true hb]
  rfl

theorem execSupplyStage_eq {s : State} (h1 : s.boot.stage = 1) (hwin : s.inWindow = true) (hst : s.pwr.stage = false) (hoff : s.pwr.off = false)
    (hov : s.pwr.offOver = false) :
    (s.pwr.defect = false → Yields .supplyStage s fun u =>
      u.boot.stage = 2 ∧ u.pwr.stage = true ∧ u.pwr.vcore = 4 ∧
      u.pwr.rails = ⟨u.pwr.rails.vcore, true, true, true, true, true, true⟩ ∧
      (∀ d < 8, u.pwr.rails.vcore.getLsbD d = !s.dieAbsent d) ∧
      (s.fuses.grade = true → u.pwr.rails.vcore.getLsbD 3 = false ∧ u.pwr.rails.vcore.getLsbD 7 = false)) ∧
    (s.pwr.defect = true → Yields .supplyStage s fun u =>
      u.boot.stage = 1 ∧ u.pwr.stage = false ∧ u.milug.supplyFail = true) := by
  have hexec : exec .supplyStage s = execSupplyStage s := rfl
  unfold execSupplyStage at hexec
  rw [if_pos (by rw [h1, hwin, hst, hoff, hov]; rfl), State.supplyOn] at hexec
  refine ⟨fun hd => ?_, fun hd => ?_⟩
  · rw [if_neg (by rw [hd]; decide)] at hexec
    have hrail (d : Nat) (h8 : d < 8) : s.railsOn.vcore.getLsbD d = !s.dieAbsent d := testBit_mask8 _ h8
    refine ⟨_, hexec, rfl, rfl, rfl, rfl, hrail, fun hg => ⟨(hrail 3 (by decide)).trans ?_, (hrail 7 (by decide)).trans ?_⟩⟩
    · rw [State.dieAbsent, hg]
      rfl
    · rw [State.dieAbsent, hg]
      rfl
  · rw [if_pos hd] at hexec
    exact ⟨_, hexec, h1, hst, rfl⟩

/-! ## The controllers' stage (R604, R605, R613) -/

/-- The registers that the controllers' stage writes of its own. -/
def bootKinds : List RegKind := [.secBootstat, .secPolicy, .hstFwbase, .hstFwlim]

theorem State.bootstat_regs (s : State) (slot : Nat) (trial fallback : Bool) : RegsKept bootKinds s (s.bootstat slot trial fallback) := by
  unfold State.bootstat
  exact .trans (.trans (.trans (.trans (.trans (.trans (.trans (.trans (.satAdd (by decide) (by decide)) (.setFld (by decide) (by decide)))
    (.setFld (by decide) (by decide))) (.setFld (by decide) (by decide))) (.setFld (by decide) (by decide))) (.setFld (by decide) (by decide)))
    (.setFld (by decide) (by decide))) (.setFld (by decide) (by decide))) (.setFld (by decide) (by decide))

theorem State.bootstat_active (s : State) (slot : Nat) (trial fallback : Bool) :
    (s.bootstat slot trial fallback).fld F.secBootstat_active 0 = slot % 2 := by
  unfold State.bootstat
  dsimp only
  rw [State.fld_setFld_bits _ (by decide), State.fld_setFld_bits _ (by decide)]
  exact State.fld_setFld_mod _ _ _ _ (by decide)

theorem State.policyRegs_regs (s : State) : RegsKept [.secPolicy, .hstFwbase, .hstFwlim] s s.policyRegs := by
  have hlist (l : List Nat) (hl : ∀ i ∈ l, i < 128) (b : List Byte) (v : State) : RegsKept [.secPolicy, .hstFwbase, .hstFwlim] v (l.foldl (fun s i =>
      (s.rwWrite .hstFwbase i (manAt b (0x10 + 16 * i) 8)).rwWrite .hstFwlim i (manAt b (0x18 + 16 * i) 8)) v) := by
    induction l generalizing v with
    | nil => exact .refl
    | cons i l ih =>
      have hi : i < 2 ^ 32 := Nat.lt_trans (hl i (List.mem_cons_self ..)) (by decide)
      refine .trans ?_ (ih (fun j hj => hl j (List.mem_cons_of_mem _ hj)) _)
      exact .trans (.setReg hi (by decide)) (.setReg hi (by decide))
  unfold State.policyRegs
  refine .ite ?_ (.trans ?_ (hlist _ (fun i hi => List.mem_range.1 hi) _ _))
  all_goals exact .trans (.trans (.setFld (by decide) (by decide)) (.setFld (by decide) (by decide))) (.setFld (by decide) (by decide))

theorem State.setThrottle_regs (s : State) : RegsKept [.pwrCtl] s s.setThrottle := by
  have hset (v : State) (n : Nat) : RegsKept [.pwrCtl] v (v.setFld F.pwrCtl_length 0 n) := .setFld (by decide) (by decide)
  have hpwr (v : State) (f : PowerSt → PowerSt) : RegsKept [.pwrCtl] v (v.modPwr f) := .of_chg .modPwr
  unfold State.setThrottle
  exact .ite .refl (.ite (.ite (.trans (.trans (.of_chg (State.freeStep_chg (n := 2))) (hset _ _)) (hpwr _ _)) .refl) (hset _ _))

def Boot.modArea (b : Boot) (i : Nat) (f : SetArea → SetArea) : Boot := if i = 0 then { b with area0 := f b.area0 } else { b with area1 := f b.area1 }

theorem State.modArea_eq (s : State) (i : Nat) (f : SetArea → SetArea) : s.modArea i f = { s with boot := s.boot.modArea i f } := rfl

/-- One of the two areas changes, the other stays. -/
theorem Boot.modArea_area (b : Boot) (old : Nat) (f : SetArea → SetArea) :
    (b.modArea (1 - old) f).area old = b.area old ∧ (b.modArea (1 - old) f).area (1 - old) = f (b.area (1 - old)) := by
  cases old with
  | zero => exact ⟨rfl, rfl⟩
  | succ n =>
    rw [show 1 - (n + 1) = 0 by omega]
    exact ⟨rfl, rfl⟩

theorem Boot.modSlot_fields (b : Boot) {i : Nat} (f : FwSlot → FwSlot) (h : i = 0 ∨ i = 1) :
    (b.modSlot i f).slot i = f (b.slot i) ∧ ∀ j, (b.modSlot i f).area j = b.area j := by
  rcases h with rfl | rfl
  · exact ⟨rfl, fun _ => rfl⟩
  · exact ⟨rfl, fun _ => rfl⟩

/-- The area that a trial takes: the other one, with the trims of the active slot's and the format of its own. -/
theorem State.trialArea_fields {s : State} {slot a : Nat} (h : s.boot.slotIn 4 = some a) (hs : slot = 0 ∨ slot = 1) :
    let old := (s.boot.slot a).area
    (s.trialArea slot).boot.area old = s.boot.area old ∧ ((s.trialArea slot).boot.slot slot).area = 1 - old ∧
      ((s.trialArea slot).boot.area (1 - old)).fmt = (s.boot.slot slot).setfmt ∧
      ((s.trialArea slot).boot.area (1 - old)).sets = (s.boot.area old).sets := by
  intro old
  have hwrite (b : Boot) : (∀ i, b.writeBack.area i = b.area i) ∧ ∀ i, b.writeBack.slot i = b.slot i := by
    unfold Boot.writeBack
    dsimp only
    split_ifs
    · exact ⟨fun _ => rfl, fun _ => rfl⟩
    · exact ⟨fun _ => rfl, fun _ => rfl⟩
  unfold State.trialArea
  rw [h]
  dsimp only
  generalize hm : ({ fmt := (s.boot.slot slot).setfmt, sets := (s.boot.area (s.boot.slot a).area).sets, used := true
                     settings := if (s.boot.area (s.boot.slot a).area).fmt = (s.boot.slot slot).setfmt then (s.boot.area (s.boot.slot a).area).settings
                       else Config.convertSettings (s.boot.area (s.boot.slot a).area).fmt (s.boot.slot slot).setfmt (s.boot.area (s.boot.slot a).area).settings } : SetArea) = mine
  have hfmt : mine.fmt = (s.boot.slot slot).setfmt := by rw [← hm]
  have hsets : mine.sets = (s.boot.area old).sets := by rw [← hm]
  rw [State.modArea_eq, State.modSlot_eq, State.writeRecord_eq]
  dsimp only
  obtain ⟨a1, a2⟩ := Boot.modArea_area s.boot old fun _ => mine
  obtain ⟨m1, m2⟩ := Boot.modSlot_fields (s.boot.modArea (1 - old) fun _ => mine) (fun f => { f with area := 1 - old }) hs
  rw [(hwrite _).1, (hwrite _).1, (hwrite _).2, m2, m2, m1, a1, a2]
  exact ⟨rfl, rfl, hfmt, hsets⟩

/-- A boot state whose stages, firmware and marks of a trial are set, its record and areas being kept. -/
structure Boot.Begun (b c : Boot) (slot : Nat) (trial : Bool) : Prop where
  stage : c.stage = 3
  firmware : c.firmware = true
  active : c.active = slot
  trial : c.trial = trial
  idKey : c.idKey = b.idKey
  area : ∀ i, c.area i = b.area i
  slot : ∀ i, c.slot i = b.slot i

/-- The slot's area as a boot from it takes it: a trial's, or the slot's own with its fuses. -/
def State.bootArea (s : State) (slot : Nat) (trial : Bool) : State :=
  if trial then s.trialArea slot else if (s.boot.slot slot).state = 4 then s.fuseSlot (s.boot.slot slot) else s

theorem State.trialArea_boot (s : State) (slot : Nat) : ∃ b, s.trialArea slot = { s with boot := b } ∧ b.idKey = s.boot.idKey := by
  unfold State.trialArea
  cases s.boot.slotIn 4 with
  | none => exact ⟨s.boot, rfl, rfl⟩
  | some a =>
    dsimp only
    rw [State.modArea_eq, State.modSlot_eq, State.writeRecord_eq]
    refine ⟨_, rfl, ?_⟩
    dsimp only
    unfold Boot.writeBack Boot.modSlot Boot.modArea
    split_ifs <;> rfl

theorem State.bootArea_fields (s : State) (slot : Nat) (trial : Bool) :
    (∀ n, (s.bootArea slot trial).reg .secIdpub n = s.reg .secIdpub n) ∧ (s.bootArea slot trial).milug = s.milug ∧
      (s.bootArea slot trial).boot.idKey = s.boot.idKey := by
  have hreset (u : State) (n : Nat) : regReset u .secIdpub n = regReset s .secIdpub n := rfl
  unfold State.bootArea
  split_ifs
  · obtain ⟨b, hb, hk⟩ := s.trialArea_boot slot
    rw [hb]
    refine ⟨fun n => ?_, rfl, hk⟩
    rw [State.reg, State.reg, hreset]
  · refine ⟨fun n => ?_, rfl, rfl⟩
    rw [State.reg, State.reg, hreset]
    rfl
  · exact ⟨fun _ => rfl, rfl, rfl⟩

/-- The marks of a boot set. -/
def Boot.begin (b : Boot) (slot : Nat) (trial : Bool) (t : Nat) : Boot :=
  { b with stage := 3, firmware := true, active := slot, trial := trial, stage4At := t, trialAt := if trial then t else b.trialAt
           faulted := false, hostConf := false }

theorem Boot.begin_begun (b : Boot) (slot : Nat) (trial : Bool) (t : Nat) : b.Begun (b.begin slot trial t) slot trial :=
  ⟨rfl, rfl, rfl, rfl, rfl, fun _ => rfl, fun _ => rfl⟩

/-- The module's held ID taken up. -/
def State.takeId (s : State) : State :=
  match s.milug.heldId with
  | some i => (((s.setFld F.fabId_id 0 i.toNat).setFld F.fabId_valid 0 1)).modMilug fun m => { m with heldId := none }
  | none => s

theorem State.takeId_fields (s : State) : s.takeId.boot = s.boot ∧ RegsKept [.fabId] s s.takeId ∧
    ∀ id, s.milug.heldId = some id → s.takeId.fld F.fabId_id 0 = id.toNat ∧ s.takeId.fld F.fabId_valid 0 = 1 := by
  unfold State.takeId
  cases h : s.milug.heldId with
  | none => exact ⟨rfl, .refl, fun id hid => by cases hid⟩
  | some i =>
    have hset : RegsKept [.fabId] s ((s.setFld F.fabId_id 0 i.toNat).setFld F.fabId_valid 0 1) :=
      .trans (.setFld (by decide) (by decide)) (.setFld (by decide) (by decide))
    have hid : ((s.setFld F.fabId_id 0 i.toNat).setFld F.fabId_valid 0 1).fld F.fabId_id 0 = i.toNat := by
      rw [State.fld_setFld_bits _ (by decide)]
      exact State.fld_setFld_eq _ (by decide) i.isLt
    have hvalid : ((s.setFld F.fabId_id 0 i.toNat).setFld F.fabId_valid 0 1).fld F.fabId_valid 0 = 1 := State.fld_setFld_eq _ (by decide) (by decide)
    refine ⟨rfl, hset.trans (.of_chg (.modMilug fun h => h)), fun id hh => ?_⟩
    cases hh
    exact ⟨((Chg.modMilug fun h => h).fld_eq ..).trans hid, ((Chg.modMilug fun h => h).fld_eq ..).trans hvalid⟩

theorem State.bootFrom_eq (s : State) (slot : Nat) (trial fallback : Bool) :
    ∃ v w, v = (s.bootArea slot trial).modBoot (fun b => b.begin slot trial s.milug.time) ∧
      w = (if trial || fallback then v.modMilug fun m => { m with fw := true, slot := slot } else v) ∧
      s.bootFrom slot trial fallback =
        if fallback then (((w.bootstat slot trial fallback).policyRegs.loadSets (w.boot.slot slot).area).setThrottle.takeId).event 0x02E1 8 0 []
        else ((w.bootstat slot trial fallback).policyRegs.loadSets (w.boot.slot slot).area).setThrottle.takeId := ⟨_, _, rfl, rfl, rfl⟩

theorem State.bootFrom_fields (s : State) (slot : Nat) (trial fallback : Bool) :
    (s.bootArea slot trial).boot.Begun (s.bootFrom slot trial fallback).boot slot trial ∧
      (s.bootFrom slot trial fallback).fld F.secBootstat_active 0 = slot % 2 ∧
      (∀ n < 4, (s.bootFrom slot trial fallback).reg .secIdpub n = s.reg .secIdpub n) ∧
      ∀ id, s.milug.heldId = some id →
        (s.bootFrom slot trial fallback).fld F.fabId_id 0 = id.toNat ∧ (s.bootFrom slot trial fallback).fld F.fabId_valid 0 = 1 := by
  obtain ⟨v, w, hv, hw, heq⟩ := s.bootFrom_eq slot trial fallback
  obtain ⟨a1, a2, -⟩ := s.bootArea_fields slot trial
  generalize s.bootArea slot trial = x at hv a1 a2
  have hbegun : x.boot.Begun v.boot slot trial := by
    rw [hv]
    exact x.boot.begin_begun slot trial s.milug.time
  have hxv : Chg { boot := true, slots := true } x v := by
    rw [hv]
    exact .mono (.modBootPlain)
  have hvw : Chg { milug := true } v w := by
    rw [hw]
    exact .ite (.modMilug fun h => h) .refl
  have hheld : w.milug.heldId = s.milug.heldId := by
    rw [← a2, ← hxv.milug_eq, hw]
    split_ifs <;> rfl
  have hstat := w.bootstat_regs slot trial fallback
  have hactive := w.bootstat_active slot trial fallback
  have hwp : Chg { regs := true } w (w.bootstat slot trial fallback) := State.bootstat_chg
  generalize w.bootstat slot trial fallback = p at heq hstat hactive hwp
  have hpol := p.policyRegs_regs
  have hpq : Chg { regs := true } p p.policyRegs := State.policyRegs_chg
  generalize p.policyRegs = q at heq hpol hpq
  have hqr : Chg { chans := true } q (q.loadSets (w.boot.slot slot).area) := State.loadSets_chg
  generalize q.loadSets (w.boot.slot slot).area = r at heq hqr
  have hthr := r.setThrottle_regs
  have hrt := State.setThrottle_chg (s := r)
  generalize r.setThrottle = y at heq hthr hrt
  obtain ⟨i1, i2, i3⟩ := y.takeId_fields
  generalize y.takeId = z at heq i1 i2 i3
  have hregs : RegsKept (bootKinds ++ [.pwrCtl, .fabId]) w z :=
    ((((hstat.mono (by decide)).trans (hpol.mono (by decide))).trans (.of_chg hqr)).trans (hthr.mono (by decide))).trans (i2.mono (by decide))
  have hboot : z.boot = v.boot := by
    rw [i1, hrt.boot_eq, hqr.boot_eq, hpq.boot_eq, hwp.boot_eq, hvw.boot_eq]
  have hzheld : y.milug.heldId = s.milug.heldId := by
    rw [hrt.milug_eq, hqr.milug_eq, hpq.milug_eq, hwp.milug_eq, hheld]
  have hzactive : z.fld F.secBootstat_active 0 = slot % 2 := by
    rw [i2.fld _ _ (by decide) (by decide), hthr.fld _ _ (by decide) (by decide), hqr.fld_eq, hpol.fld _ _ (by decide) (by decide), hactive]
  have hpub (n : Nat) (hn : n < 4) : z.reg .secIdpub n = s.reg .secIdpub n := by
    rw [hregs .secIdpub n (by omega) (by decide), hvw.reg_eq, hxv.reg_eq, a1]
  have hend (u : State) (hub : u.boot = z.boot) (hur : RegsKept [.hstEvstat] z u) :
      x.boot.Begun u.boot slot trial ∧ u.fld F.secBootstat_active 0 = slot % 2 ∧ (∀ n < 4, u.reg .secIdpub n = s.reg .secIdpub n) ∧
      ∀ id, s.milug.heldId = some id → u.fld F.fabId_id 0 = id.toNat ∧ u.fld F.fabId_valid 0 = 1 := by
    rw [hub, hboot, hur.fld _ _ (by decide) (by decide), hur.fld _ _ (by decide) (by decide), hur.fld _ _ (by decide) (by decide)]
    exact ⟨hbegun, hzactive, fun n hn => (hur .secIdpub n (by omega) (by decide)).trans (hpub n hn), fun id hid => i3 id (hzheld.trans hid)⟩
  rw [heq]
  split_ifs
  · exact hend _ State.event_chg.boot_eq (.event (by decide))
  · exact hend z rfl .refl

theorem leNat_lt (l : List Byte) : leNat l < 256 ^ l.length := by
  induction l with
  | nil => exact Nat.one_pos
  | cons b l ih =>
    have hb : b.toNat < 256 := b.isLt
    rw [leNat, List.length_cons, Nat.pow_succ]
    omega

theorem leNat_word (l : List Byte) : leNat (l.take 8) < 2 ^ 64 :=
  Nat.lt_of_lt_of_le (leNat_lt _) (Nat.le_trans (Nat.pow_le_pow_right (by decide) (List.length_take_le 8 l)) (by decide))

/-- The identity key derived, with its public part in the registers. -/
theorem State.deriveKey_fields (s : State) : s.deriveKey.boot = { s.boot with idKey := some s.fuses.idKey } ∧
    ∀ n < 4, s.deriveKey.reg .secIdpub n = leNat ((s.fuses.idKey.pub.drop (8 * n)).take 8) := by
  have hset (f : Nat → Nat) (hf : ∀ i, f i < 2 ^ 64) (l : List Nat) (hl : ∀ i ∈ l, i < 4) (v : State) (n : Nat) (hn : n < 4) (h : n ∈ l ∨ v.reg .secIdpub n = f n) :
      (l.foldl (fun s i => s.setReg .secIdpub i (f i)) v).reg .secIdpub n = f n := by
    induction l generalizing v with
    | nil => exact h.elim (fun hh => absurd hh List.not_mem_nil) id
    | cons i l ih =>
      have hi : i < 4 := hl i (List.mem_cons_self ..)
      refine ih (fun j hj => hl j (List.mem_cons_of_mem _ hj)) _ ?_
      by_cases he : n = i
      · rw [he]
        exact .inr ((State.reg_setReg_same ..).trans (Nat.mod_eq_of_lt (hf i)))
      · rcases h with h | h
        · exact .inl ((List.mem_cons.1 h).resolve_left he)
        · exact .inr ((State.reg_setReg_ne _ _ (regKey_ne (by omega) (by omega) (.inr he))).trans h)
  unfold State.deriveKey
  dsimp only
  refine ⟨?_, fun n hn => ?_⟩
  · exact Chg.boot_eq (P := { regs := true }) (.foldl (fun _ _ => .setReg) _ .refl)
  · exact hset (fun i => leNat ((s.fuses.idKey.pub.drop (8 * i)).take 8)) (fun i => leNat_word _) _ (fun i hi => List.mem_range.1 hi) _ n hn
      (.inl (List.mem_range.2 hn))

theorem Boot.slotIn_lt {b : Boot} {n i : Nat} (h : b.slotIn n = some i) : i = 0 ∨ i = 1 := by
  have hm := List.mem_of_find?_eq_some h
  rcases List.mem_cons.1 hm with h | h
  · exact .inl h
  · exact .inr (List.mem_singleton.1 h)

theorem Boot.choose_lt {b : Boot} {i : Nat} (h : b.choose.2.1 = some i) : i = 0 ∨ i = 1 := by
  unfold Boot.choose at h
  cases h3 : b.readBack.slotIn 3 with
  | none =>
    rw [h3] at h
    exact Boot.slotIn_lt h
  | some t =>
    rw [h3] at h
    dsimp only at h
    split_ifs at h
    · exact Boot.slotIn_lt h
    · cases h
      exact Boot.slotIn_lt h3

/-- The state in which the controllers' stage chooses, with the identity key derived. -/
theorem State.chosen_fields (s : State) :
    ∃ x, s.deriveKey.chooseSlot = (x, s.boot.choose.2) ∧ x.boot = s.boot.choose.1.put { s.boot with idKey := some s.fuses.idKey } ∧
      x.fuses = s.fuses ∧ x.milug = s.milug ∧ ∀ n < 4, x.reg .secIdpub n = leNat ((s.fuses.idKey.pub.drop (8 * n)).take 8) := by
  obtain ⟨d1, d2⟩ := s.deriveKey_fields
  have hfuses := State.deriveKey_chg (s := s) |>.fuses_eq
  have hmilug := State.deriveKey_chg (s := s) |>.milug_eq
  generalize s.deriveKey = d at d1 d2 hfuses hmilug
  have hput : d.boot = s.boot.put { s.boot with idKey := some s.fuses.idKey } := d1
  have hchg : Chg { boot := true, slots := true } d (d.chooseSlot).1 := State.chooseSlot_chg
  have hchoose : d.boot.choose = (s.boot.choose.1.put { s.boot with idKey := some s.fuses.idKey }, s.boot.choose.2) := by
    rw [hput, Boot.choose_put]
  refine ⟨d.chooseSlot.1, ?_, ?_, hchg.fuses_eq.trans hfuses, hchg.milug_eq.trans hmilug, fun n hn => (hchg.reg_eq ..).trans (d2 n hn)⟩
  · rw [State.chooseSlot_eq, hchoose]
  · rw [State.chooseSlot_eq, hchoose]

theorem execControllerStage_eq {s : State} {passA passB : Bool} (h2 : s.boot.stage = 2) (hrec : s.boot.recovery = false) :
    let ch := s.chooseSlot
    let pass (i : Nat) : Bool := ch.1.slotPasses (ch.1.boot.slot i) (if i = 0 then passA else passB)
    (∀ i, bootSlot ch.1.boot pass ch.2.1 = some i →
      Yields (.controllerStage passA passB) s fun u =>
        u.boot.stage = 3 ∧ u.boot.firmware = true ∧ u.boot.active = i ∧ u.boot.trial = (ch.2.2.1 && ch.2.1 == some i) ∧
        u.fld F.secBootstat_active 0 = i % 2 ∧
        u.boot.idKey = some s.fuses.idKey ∧
        (∀ n < 4, u.reg .secIdpub n = leNat ((s.fuses.idKey.pub.drop (8 * n)).take 8)) ∧
        (∀ a, ch.1.boot.slotIn 4 = some a → u.boot.trial = true →
          u.boot.area (ch.1.boot.slot a).area = s.boot.area (ch.1.boot.slot a).area ∧
          (u.boot.slot i).area = 1 - (ch.1.boot.slot a).area ∧ (u.boot.area (u.boot.slot i).area).fmt = (ch.1.boot.slot i).setfmt ∧
          (u.boot.area (u.boot.slot i).area).sets = (s.boot.area (ch.1.boot.slot a).area).sets) ∧
        ∀ id, s.milug.heldId = some id → u.fld F.fabId_id 0 = id.toNat ∧ u.fld F.fabId_valid 0 = 1) ∧
    (bootSlot ch.1.boot pass ch.2.1 = none →
      Yields (.controllerStage passA passB) s fun u =>
        u.boot.stage = 2 ∧ u.boot.recovery = true ∧ u.fld F.secFault_code 0 = 0x02 ∧ u.boot.idKey = some s.fuses.idKey) := by
  intro ch pass
  have hexec : exec (.controllerStage passA passB) s = execControllerStage passA passB s := rfl
  obtain ⟨x, hx, hboot, hfuses, hmilug, hpub⟩ := s.chosen_fields
  unfold execControllerStage at hexec
  rw [if_neg (by rw [hrec]; rintro (hh | hh); exact hh h2; cases hh), hx] at hexec
  dsimp only at hexec
  have hch : ch = ({ s with boot := s.boot.choose.1 }, s.boot.choose.2) := s.chooseSlot_eq
  have hslot (i : Nat) : x.boot.slot i = ch.1.boot.slot i := by
    rw [hboot, hch]
    rfl
  have hin : x.boot.slotIn 4 = ch.1.boot.slotIn 4 := by
    rw [hboot, hch]
    rfl
  have harea (i : Nat) : x.boot.area i = s.boot.area i := by
    rw [hboot]
    rfl
  have hkey : x.boot.idKey = some s.fuses.idKey := by
    rw [hboot]
    rfl
  have hstage : x.boot.stage = 2 := by
    rw [hboot]
    exact h2
  have hpass : (fun i => x.slotPasses (x.boot.slot i) (if i = 0 then passA else passB)) = pass := by
    funext i
    rw [State.slotPasses_fuses (s := ch.1) (u := x) (by rw [hfuses, hch]), hslot]
  have hsel : bootSlot x.boot pass s.boot.choose.2.1 = bootSlot ch.1.boot pass ch.2.1 := by
    unfold bootSlot
    rw [hslot 0 |> fun _ => congrArg Prod.snd hch]
    simp only [hslot]
  have hend : exec (.controllerStage passA passB) s = .next (match bootSlot ch.1.boot pass ch.2.1 with
      | some i => x.bootFrom i (s.boot.choose.2.2.1 && s.boot.choose.2.1 == some i) s.boot.choose.2.2.2
      | none => ((x.modBoot fun b => { b with recovery := true }).bootstat ((s.boot.choose.2.1).getD 0) false s.boot.choose.2.2.2).policyRegs.modFault 0x02) := by
    rw [← hsel, ← hpass]
    exact hexec
  have hc1 : s.boot.choose.2.2.1 = ch.2.2.1 := by rw [hch]
  have hc2 : s.boot.choose.2.1 = ch.2.1 := by rw [hch]
  refine ⟨fun i hi => ?_, fun hnone => ?_⟩
  · rw [hi, hc1, hc2] at hend
    dsimp only at hend
    obtain ⟨f1, f2, f3, f4⟩ := x.bootFrom_fields i (ch.2.2.1 && ch.2.1 == some i) s.boot.choose.2.2.2
    refine ⟨_, hend, f1.stage, f1.firmware, f1.active, f1.trial, f2, ?_, fun n hn => (f3 n hn).trans (hpub n hn), fun a ha htrial => ?_,
      fun id hid => f4 id (by rw [hmilug]; exact hid)⟩
    · rw [f1.idKey, (x.bootArea_fields i _).2.2, hkey]
    · rw [f1.trial] at htrial
      have hi01 : i = 0 ∨ i = 1 := by
        rw [Bool.and_eq_true, beq_iff_eq] at htrial
        exact Boot.choose_lt (hc2.trans htrial.2)
      obtain ⟨t1, t2, t3, t4⟩ := State.trialArea_fields (s := x) (hin.trans ha) hi01
      have hba : x.bootArea i (ch.2.2.1 && ch.2.1 == some i) = x.trialArea i := if_pos htrial
      rw [hba] at f1
      rw [f1.slot, f1.area, f1.area, t2, ← hslot a, ← hslot i, t1, harea]
      exact ⟨rfl, rfl, t3, t4.trans (by rw [harea])⟩
  · rw [hnone] at hend
    dsimp only at hend
    have hstay : Chg { regs := true } (x.modBoot fun b => { b with recovery := true })
        ((x.modBoot fun b => { b with recovery := true }).bootstat ((s.boot.choose.2.1).getD 0) false s.boot.choose.2.2.2).policyRegs :=
      .via State.bootstat_chg State.policyRegs_chg
    generalize ((x.modBoot fun b => { b with recovery := true }).bootstat ((s.boot.choose.2.1).getD 0) false s.boot.choose.2.2.2).policyRegs = w at hend hstay
    obtain ⟨g1, -, -, -⟩ := State.modFault_fields (s := w) (code := 2) (by decide)
    obtain ⟨g2, -⟩ := w.modFault_parts 2
    have hwboot : w.boot = { x.boot with recovery := true } := hstay.boot_eq
    refine ⟨_, hend, ?_, ?_, g1, ?_⟩
    · rw [g2, hwboot]
      exact hstage
    · rw [g2, hwboot]
    · rw [g2, hwboot]
      exact hkey

/-! ## The later stages (R294, R602, R613, R620) -/

theorem execRootClockLock_eq {s : State} (h : s.boot.stage = 3) : Yields .rootClockLock s fun u =>
    u.boot.stage = 4 ∧ u.fld F.clkState_refok 0 = 1 ∧ u.clk.refLost = false ∧ u.step_ = s.step_ := by
  have hexec : exec .rootClockLock s = execRootClockLock s := rfl
  unfold execRootClockLock at hexec
  rw [if_pos h] at hexec
  have hok : (s.setFld F.clkState_refok 0 1).fld F.clkState_refok 0 = 1 := State.fld_setFld_eq _ (by decide) (by decide)
  have hstep : (s.setFld F.clkState_refok 0 1).step_ = s.step_ := State.fld_setFld_bits _ (by decide)
  generalize s.setFld F.clkState_refok 0 1 = v at hexec hok hstep
  have hend : Chg { boot := true, slots := true, clk := true } v ((v.modBoot fun b => { b with stage := 4 }).modClk fun k => { k with phase := 0, refLost := false }) :=
    .via (.mono .modBootPlain) .modClk
  exact ⟨_, hexec, rfl, (hend.fld_eq ..).trans hok, rfl, (hend.fld_eq ..).trans hstep⟩

theorem execReferenceWaitTimeout_eq {s : State} (h : s.boot.stage = 3) (hf : s.boot.refFault = false)
    (hdue : s.boot.stage4At + 100000000 ≤ s.milug.time) :
    Yields .referenceWaitTimeout s fun u => u.boot.stage = 3 ∧ u.boot.refFault = true ∧ u.fld F.secFault_code 0 = 0x07 := by
  have hexec : exec .referenceWaitTimeout s = execReferenceWaitTimeout s := rfl
  unfold execReferenceWaitTimeout at hexec
  rw [if_pos ⟨h, hf, hdue⟩] at hexec
  have hboot : (s.modBoot fun b => { b with refFault := true }).boot = { s.boot with refFault := true } := rfl
  generalize (s.modBoot fun b => { b with refFault := true }) = v at hexec hboot
  obtain ⟨f1, -, -, -⟩ := State.modFault_fields (s := v) (code := 7) (by decide)
  obtain ⟨b1, -⟩ := v.modFault_parts 7
  refine ⟨_, hexec, ?_, ?_, f1⟩
  · rw [b1, hboot]
    exact h
  · rw [b1, hboot]

/-- The crossings of a die trained, a mask of the four that exist and are not bad. -/
theorem trained_mask (p : Nat → Bool) : ((List.range 4).filter p).foldl (fun m k => m + 2 ^ k) 0 < 16 ∧
    ∀ k < 4, (((List.range 4).filter p).foldl (fun m k => m + 2 ^ k) 0).testBit k = p k := by
  rw [List.foldl_filter]
  obtain ⟨h1, h2⟩ := testBit_maskFold p 4
  exact ⟨h1, fun k hk => by rw [h2, decide_eq_true hk]; rfl⟩

theorem State.setTrained_fld (g : Nat → Nat) (hg : ∀ d, g d < 16) (l : List Nat) (hl : ∀ d ∈ l, d < 8) (s : State) {d : Nat} (hd : d < 8)
    (h : d ∈ l ∨ s.fld F.dieXstat_trained d = g d) :
    (l.foldl (fun s d => s.setFld F.dieXstat_trained d (g d)) s).fld F.dieXstat_trained d = g d := by
  induction l generalizing s with
  | nil => exact h.elim (fun hh => absurd hh List.not_mem_nil) id
  | cons e l ih =>
    have he : e < 8 := hl e (List.mem_cons_self ..)
    refine ih (fun j hj => hl j (List.mem_cons_of_mem _ hj)) _ ?_
    by_cases hde : d = e
    · rw [hde]
      exact .inr (State.fld_setFld_eq _ (by decide) (hg e))
    · rcases h with h | h
      · exact .inl ((List.mem_cons.1 h).resolve_left hde)
      · exact .inr ((State.fld_setFld_index _ (by omega) (by omega) hde).trans h)

/-- The crossings of every present die that exist and are not bad, marked as trained. -/
def State.trainDies (s : State) (untrained : List (Nat × Nat)) : State :=
  ((List.range 8).filter fun d => !s.dieAbsent d).foldl (fun s' d => s'.setFld F.dieXstat_trained d
    (((List.range 4).filter fun k => bits (s.fld F.dieXstat_absent d) k k == 0 &&
      !(untrained.contains (d, k) || untrained.contains (farCrossing d k))).foldl (fun m k => m + 2 ^ k) 0)) s

theorem execDieStage_eq {s : State} {untrained : List (Nat × Nat)} (h : s.boot.stage = 4) : Yields (.dieStage untrained) s fun u =>
    u.boot.stage = 5 ∧ ∀ d < 8, s.dieAbsent d = false → ∀ k < 4,
      (u.fld F.dieXstat_trained d).testBit k =
        (bits (s.fld F.dieXstat_absent d) k k == 0 && !(untrained.contains (d, k) || untrained.contains (farCrossing d k))) := by
  have hexec : exec (.dieStage untrained) s = execDieStage untrained s := rfl
  unfold execDieStage at hexec
  rw [if_neg (fun hh => hh h)] at hexec
  dsimp only at hexec
  have hmask (d : Nat) := trained_mask fun k => bits (s.fld F.dieXstat_absent d) k k == 0 && !(untrained.contains (d, k) || untrained.contains (farCrossing d k))
  have hset (d : Nat) (hd : d < 8) (ha : s.dieAbsent d = false) : (s.trainDies untrained).fld F.dieXstat_trained d = _ :=
    State.setTrained_fld _ (fun d => (hmask d).1) ((List.range 8).filter fun d => !s.dieAbsent d) (fun e he => List.mem_range.1 (List.mem_of_mem_filter he)) s hd
      (.inl (List.mem_filter.2 ⟨List.mem_range.2 hd, by rw [ha]; rfl⟩))
  obtain ⟨l, hexec⟩ : ∃ l : List (Nat × Nat), exec (.dieStage untrained) s =
      .next ((l.foldl (fun s _ => s.event 0x02E6 8 0 []) (s.trainDies untrained)).modBoot fun b => { b with stage := 5 }) := ⟨_, hexec⟩
  generalize s.trainDies untrained = v at hexec hset
  have hevents : RegsKept [.hstEvstat] v ((l.foldl (fun s _ => s.event 0x02E6 8 0 []) v).modBoot fun b => { b with stage := 5 }) :=
    .trans (.foldl (fun _ _ => .event (by decide)) _ .refl) (.of_chg .modBootPlain)
  refine ⟨_, hexec, rfl, fun d hd ha k hk => ?_⟩
  rw [hevents.fld F.dieXstat_trained d (by omega) (by decide), hset d hd ha]
  exact (hmask d).2 k hk

/-! ### The self-test -/

/-- The trims of a channel that pass, each written over what it had. -/
theorem mfind_sets {α : Type} (p : Nat → Bool) (f : Nat → α) (k : Nat) (l : List Nat) (m : SMap α) :
    mfind (l.foldl (fun m p' => if p p' then mput m p' (f p') else m) m) k = if k ∈ l ∧ p k = true then some (f k) else mfind m k := by
  induction l generalizing m with
  | nil => rw [if_neg fun h => List.not_mem_nil h.1]; rfl
  | cons c l ih =>
    rw [List.foldl_cons, ih]
    by_cases hl : k ∈ l ∧ p k = true
    · rw [if_pos hl, if_pos ⟨List.mem_cons_of_mem _ hl.1, hl.2⟩]
    rw [if_neg hl]
    by_cases hc : k = c
    · subst hc
      by_cases hp : p k = true
      · rw [if_pos hp, if_pos ⟨List.mem_cons_self .., hp⟩, mfind_mput_same]
      · rw [if_neg hp, if_neg fun h => hp h.2]
    · rw [if_neg (c := k ∈ c :: l ∧ p k = true) fun h => hl ⟨(List.mem_cons.1 h.1).resolve_left hc, h.2⟩]
      split_ifs
      · exact mfind_mput_ne _ _ hc
      · rfl

/-- The sets of a channel after the self-test. -/
def ChanSt.tested (c : ChanSt) (pass : List (BitVec 48)) (no ch : Nat) : SMap Trim :=
  (List.range 5).foldl (fun m p => if passesAt pass p ch then mput m p ⟨c.bin, true, no + p⟩ else m) c.selfSets

/-- A change of the channels of a list, each by its own number, that reads nothing that it changes. -/
theorem State.modChans_chan (f : Nat → ChanSt → ChanSt) (l : List Nat) (hl : l.Nodup) (s : State) (ch : Nat) :
    (l.foldl (fun s ch => s.modChan ch (f ch)) s).chan ch = if ch ∈ l then f ch (s.chan ch) else s.chan ch := by
  induction l generalizing s with
  | nil => rfl
  | cons c l ih =>
    obtain ⟨hc, hl⟩ := List.nodup_cons.1 hl
    rw [List.foldl_cons, ih hl]
    by_cases h : ch = c
    · rw [h, if_neg hc, State.modChan_same, if_pos (List.mem_cons_self ..)]
    · rw [State.modChan_ne _ _ _ h]
      simp only [List.mem_cons, h, false_or]

/-- A channel after the self-test, at step `n`. -/
def ChanSt.afterTest (c : ChanSt) (pass : List (BitVec 48)) (no n ch : Nat) : ChanSt :=
  { c with selfSets := c.tested pass no ch, inUse := mget (c.tested pass no ch) n ⟨c.bin, true, 0⟩, useRun := false, useStep := n }

theorem ChanSt.tested_find (c : ChanSt) (pass : List (BitVec 48)) (no ch : Nat) {k : Nat} (hk : k < 5) :
    mfind (c.tested pass no ch) k = if passesAt pass k ch = true then some ⟨c.bin, true, no + k⟩ else mfind c.selfSets k := by
  refine (mfind_sets (fun p => passesAt pass p ch) (fun p => (⟨c.bin, true, no + p⟩ : Trim)) k (List.range 5) c.selfSets).trans ?_
  exact if_congr (and_iff_right (List.mem_range.2 hk)) rfl rfl

/-- The channels of a list tested, at the step in force. -/
def State.testChans (s : State) (pass : List (BitVec 48)) (no : Nat) (l : List Nat) : State :=
  l.foldl (fun s ch => s.modChan ch fun c => c.afterTest pass no s.step_ ch) s

theorem State.testChans_chg {s : State} {pass : List (BitVec 48)} {no : Nat} {l : List Nat} : Chg { chans := true } s (s.testChans pass no l) :=
  .foldl (fun _ _ => .modChan) _ .refl

theorem State.testChans_chan {pass : List (BitVec 48)} {no : Nat} (l : List Nat) (hl : l.Nodup) (s : State) (ch : Nat) :
    (s.testChans pass no l).chan ch = if ch ∈ l then (s.chan ch).afterTest pass no s.step_ ch else s.chan ch := by
  have hstep (l : List Nat) (v : State) (hv : v.step_ = s.step_) : v.testChans pass no l =
      l.foldl (fun v ch => v.modChan ch fun c => c.afterTest pass no s.step_ ch) v := by
    induction l generalizing v with
    | nil => rfl
    | cons c l ih =>
      have hnext := ih (v.modChan c fun x => x.afterTest pass no s.step_ c) ((Chg.modChan.fld_eq ..).trans hv)
      rw [List.foldl_cons, ← hnext, ← hv]
      rfl
  rw [hstep l s rfl]
  exact State.modChans_chan (fun ch c => c.afterTest pass no s.step_ ch) l hl s ch

theorem execSelfTest_eq {s : State} {pass : List (BitVec 48)} (h : s.boot.stage = 5) : Yields (.selfTest pass) s fun u =>
    u.boot.stage = 6 ∧ u.fld F.memStepok_tested 0 = 31 ∧
    (∀ k < 5, (u.fld F.memStepok_ok 0).testBit k = s.channels.all (passesAt pass k)) ∧
    (∀ ch ∈ s.channels,
      (u.chan ch).inUse = mget (u.chan ch).selfSets s.step_ ⟨(s.chan ch).bin, true, 0⟩ ∧ (u.chan ch).useRun = false ∧
      ∀ k < 5, (passesAt pass k ch = true → ∃ t, mfind (u.chan ch).selfSets k = some t ∧ t.bin = (s.chan ch).bin ∧ t.full = true) ∧
        (passesAt pass k ch = false → mfind (u.chan ch).selfSets k = mfind (s.chan ch).selfSets k)) ∧
    (s.channels.all (passesAt pass 4) = false → u.fld F.secFault_code 0 = 0x03) := by
  have hexec : exec (.selfTest pass) s = execSelfTest pass s := rfl
  unfold execSelfTest at hexec
  rw [if_neg (fun hh => hh h)] at hexec
  dsimp only at hexec
  obtain ⟨hlt, hbits⟩ := testBit_maskFold (fun p => s.channels.all (passesAt pass p)) 5
  rw [List.foldl_filter] at hexec
  generalize (List.range 5).foldl (fun m p => if s.channels.all (passesAt pass p) then m + 2 ^ p else m) 0 = mask at hexec hlt hbits
  generalize hv : (s.setFld F.memStepok_tested 0 31).setFld F.memStepok_ok 0 mask = v at hexec
  have hvt : v.fld F.memStepok_tested 0 = 31 ∧ v.fld F.memStepok_ok 0 = mask ∧ v.step_ = s.step_ := by
    rw [← hv]
    refine ⟨?_, State.fld_setFld_eq _ (by decide) hlt, ?_⟩
    · rw [State.fld_setFld_bits _ (by decide)]
      exact State.fld_setFld_eq _ (by decide) (by decide)
    · exact (State.fld_setFld_kind _ (by decide) (by decide) (by decide)).trans (State.fld_setFld_kind _ (by decide) (by decide) (by decide))
  have hsv : Chg { regs := true } s v := by
    rw [← hv]
    exact .via .setFld .setFld
  have hchans : v.channels = s.channels := by
    unfold State.channels State.chanPresent State.dieAbsent
    rw [hsv.fuses_eq]
  obtain ⟨v1, v2, v3⟩ := hvt
  have hnodup : s.channels.Nodup := List.Nodup.filter _ List.nodup_range
  obtain ⟨w, hw, hexec⟩ : ∃ w, w = v.testChans pass v.nextId s.channels ∧ exec (.selfTest pass) s =
      .next (if ((List.range 5).filter fun p => s.channels.all (passesAt pass p)).contains 4 then { w with nextId := v.nextId + 5 }.modBoot fun b => { b with stage := 6 }
        else ({ w with nextId := v.nextId + 5 }.modBoot fun b => { b with stage := 6 }).modFault 0x03) :=
    ⟨_, rfl, by rw [← hchans]; rw [← hchans] at hexec; exact hexec⟩
  have hvw : Chg { chans := true } v w := by
    rw [hw]
    exact State.testChans_chg
  have hwchan (ch : Nat) (hm : ch ∈ s.channels) : w.chan ch = (s.chan ch).afterTest pass v.nextId s.step_ ch := by
    rw [hw, State.testChans_chan _ hnodup, if_pos hm, v3, hsv.chan_eq]
  generalize hx : ({ w with nextId := v.nextId + 5 } : State).modBoot (fun b => { b with stage := 6 }) = x at hexec
  have hno : Chg { nextId := true } w { w with nextId := v.nextId + 5 } := .plain
  have hwx : Chg { nextId := true, boot := true, slots := true } w x := by
    rw [← hx]
    exact .via (.mono hno) .modBootPlain
  have hxstage : x.boot.stage = 6 := by
    rw [← hx]
    rfl
  have hend (u : State) (hb : u.boot.stage = x.boot.stage) (hc : ∀ ch, u.chan ch = x.chan ch)
      (ht : u.fld F.memStepok_tested 0 = x.fld F.memStepok_tested 0) (ho : u.fld F.memStepok_ok 0 = x.fld F.memStepok_ok 0) :
      u.boot.stage = 6 ∧ u.fld F.memStepok_tested 0 = 31 ∧
      (∀ k < 5, (u.fld F.memStepok_ok 0).testBit k = s.channels.all (passesAt pass k)) ∧
      (∀ ch ∈ s.channels,
        (u.chan ch).inUse = mget (u.chan ch).selfSets s.step_ ⟨(s.chan ch).bin, true, 0⟩ ∧ (u.chan ch).useRun = false ∧
        ∀ k < 5, (passesAt pass k ch = true → ∃ t, mfind (u.chan ch).selfSets k = some t ∧ t.bin = (s.chan ch).bin ∧ t.full = true) ∧
          (passesAt pass k ch = false → mfind (u.chan ch).selfSets k = mfind (s.chan ch).selfSets k)) := by
    refine ⟨hb.trans hxstage, ?_, fun k hk => ?_, fun ch hm => ?_⟩
    · rw [ht, hwx.fld_eq, hvw.fld_eq, v1]
    · rw [ho, hwx.fld_eq, hvw.fld_eq, v2, hbits, decide_eq_true hk]
      rfl
    · rw [hc, hwx.chan_eq, hwchan ch hm]
      refine ⟨rfl, rfl, fun k hk => ⟨fun hp => ⟨⟨(s.chan ch).bin, true, v.nextId + k⟩, ?_, rfl, rfl⟩, fun hp => ?_⟩⟩
      · exact (ChanSt.tested_find _ _ _ _ hk).trans (if_pos hp)
      · exact (ChanSt.tested_find _ _ _ _ hk).trans (if_neg (by rw [hp]; decide))
  have hfour : ((List.range 5).filter fun p => s.channels.all (passesAt pass p)).contains 4 = s.channels.all (passesAt pass 4) := by
    rw [Bool.eq_iff_iff, List.contains_iff_mem, List.mem_filter]
    exact and_iff_right (List.mem_range.2 (by decide))
  rw [hfour] at hexec
  cases hall : s.channels.all (passesAt pass 4) with
  | true =>
    rw [hall, if_pos rfl] at hexec
    obtain ⟨e1, e2, e3, e4⟩ := hend x rfl (fun _ => rfl) rfl rfl
    exact ⟨_, hexec, e1, e2, e3, e4, fun hh => by cases hh⟩
  | false =>
    rw [hall, if_neg Bool.false_ne_true] at hexec
    obtain ⟨f1, -, -, -⟩ := State.modFault_fields (s := x) (code := 3) (by decide)
    obtain ⟨b1, -⟩ := x.modFault_parts 3
    have hregs := x.modFault_regs 3
    obtain ⟨e1, e2, e3, e4⟩ := hend (x.modFault 3) (by rw [b1]) (fun ch => State.modFault_chg.chan_eq ..)
      (hregs.fld _ _ (by decide) (by decide)) (hregs.fld _ _ (by decide) (by decide))
    exact ⟨_, hexec, e1, e2, e3, e4, fun _ => f1⟩

/-- The confirmed boot's steps noted. -/
def Boot.okAs (b : Boot) (ok : Nat) : Boot := { b with okRec := ok }

theorem execModuleReady_eq {s : State} (h : s.boot.stage = 6) : Yields .moduleReady s fun u =>
    u.boot.stage = 7 ∧ u.ready = true ∧ (s.boot.trial = false → u.boot.okRec = s.fld F.memStepok_ok 0) := by
  have hexec : exec .moduleReady s = execModuleReady s := rfl
  unfold execModuleReady at hexec
  rw [if_neg (fun hh => hh h)] at hexec
  dsimp only at hexec
  generalize s.fld F.memStepok_ok 0 = ok at hexec
  have hboot : ((s.modBoot fun b => { b with stage := 7 }).event 0x02E0 8 0 [(1, s.boot.active), (1, s.boot.bootRes)]).boot = { s.boot with stage := 7 } :=
    State.event_chg.boot_eq
  generalize (s.modBoot fun b => { b with stage := 7 }).event 0x02E0 8 0 [(1, s.boot.active), (1, s.boot.bootRes)] = v at hexec hboot
  have hwrite (b : Boot) : b.writeBack.stage = b.stage ∧ b.writeBack.okRec = b.okRec := by
    unfold Boot.writeBack
    dsimp only
    split_ifs
    · exact ⟨rfl, rfl⟩
    · exact ⟨rfl, rfl⟩
  have hready (u : State) (hu : u.boot.stage = 7) : u.ready = true := by
    rw [State.ready, hu]
    rfl
  have hvstage : v.boot.stage = 7 := by rw [hboot]
  have htrial : v.boot.trial = s.boot.trial := by rw [hboot]
  rw [State.writeRecord_eq] at hexec
  split_ifs at hexec with hc
  · refine ⟨_, hexec, hvstage, hready v hvstage, fun ht => ?_⟩
    rcases hc with hc | hc
    · rw [htrial, ht] at hc
      cases hc
    · exact hc
  · have h7 : (v.boot.okAs ok).writeBack.stage = 7 := (hwrite _).1.trans hvstage
    exact ⟨_, hexec, h7, hready _ h7, fun _ => (hwrite (v.boot.okAs ok)).2⟩

theorem execVstbyLoss_eq {s : State} : Yields .vstbyLoss s fun u =>
    u.boot.vstby = false ∧ u.boot.stage = 0 ∧ u.pwr.stage = false ∧ u.milug.up = false ∧ u.img = none ∧
    u.boot.slotA = s.boot.slotA ∧ u.boot.slotB = s.boot.slotB ∧ u.fuses = s.fuses ∧ u.hostMem = s.hostMem := by
  have hexec : exec .vstbyLoss s = execVstbyLoss s := rfl
  unfold execVstbyLoss at hexec
  obtain ⟨h1, -, -, -, h5, h6, h7⟩ := s.mainOff_fields 0
  have hb := s.mainOff_boot 0
  dsimp only at hexec
  generalize s.mainOff 0 = v at hexec h1 h5 h6 h7 hb
  refine ⟨_, hexec, rfl, rfl, h1, rfl, h5, ?_, ?_, h6, h7⟩
  · show v.boot.slotA = _
    rw [hb]
    rfl
  · show v.boot.slotB = _
    rw [hb]
    rfl

/-- Settles O50: the stages of power-up, each from the one before, and the loss of VSTBY. -/
theorem powerUpStages : Obligations.PowerUpStages := by
  unfold Obligations.PowerUpStages
  intro s
  refine ⟨?_, ?_, ?_, ?_, ?_, ?_, ?_, ?_, ?_⟩
  · exact fun senseMatch milugOk h => execVstbyApply_eq h
  · exact fun h1 hwin hst hoff hov => execSupplyStage_eq h1 hwin hst hoff hov
  · exact fun passA passB h2 hrec => execControllerStage_eq h2 hrec
  · exact execRootClockLock_eq
  · exact execReferenceWaitTimeout_eq
  · exact fun untrained h => execDieStage_eq h
  · exact fun pass h => execSelfTest_eq h
  · exact execModuleReady_eq
  · exact execVstbyLoss_eq

end Sys2Proof.Machine
end

section
/-!
Resets of a running module and the end of a trial (R597, R598, R612 to R614, R620).
-/
namespace Sys2Proof.Machine
set_option Elab.async false

/-! ## Resets of a running module and the end of a trial (R597, R598, R612 to R614, R620) -/

/-- Scratchpads spoiled, from tiles that hold nothing else. -/
theorem State.spoilTiles_tile (l : List Nat) (s : State) (h : ∀ y, s.tile y = { scratch := (s.tile y).scratch }) (y : Nat) :
    (l.foldl State.spoilTile s).tile y = { scratch := ((l.foldl State.spoilTile s).tile y).scratch } ∧
      (y ∉ l → (l.foldl State.spoilTile s).tile y = s.tile y) := by
  have hstep (v : State) (z y : Nat) : (v.spoilTile z).tile y = if y = z then { v.tile y with scratch := wrBytes [] 0 (v.freeBytes scratchBytes) } else v.tile y := by
    unfold State.spoilTile
    rw [State.freeStep_chg.tile_eq]
    by_cases hz : y = z
    · rw [hz, State.modTile_same, if_pos rfl]
    · rw [State.modTile_ne _ _ _ hz, if_neg hz]
  induction l generalizing s with
  | nil => exact ⟨h y, fun _ => rfl⟩
  | cons z l ih =>
    have hnext (x : Nat) : (s.spoilTile z).tile x = { scratch := ((s.spoilTile z).tile x).scratch } := by
      rw [hstep]
      split_ifs
      · rw [h x]
      · exact h x
    obtain ⟨h1, h2⟩ := ih (s.spoilTile z) hnext
    refine ⟨h1, fun hy => ?_⟩
    rw [List.mem_cons, not_or] at hy
    rw [List.foldl_cons, h2 hy.2, hstep, if_neg hy.1]

/-- The module's state as a warm reset leaves it, before the registers that stay are set. -/
def State.warmed (s : State) (cause : Nat) : State :=
  { s.begunTiles.foldl State.spoilTile s.cleared with
    boot := { s.cleared.boot with stage := 2, bootRes := cause }
    pwr := { s.pwr with guardAt := [] } }

/-- The registers that stay over a warm reset. -/
def State.staying (t s : State) : State :=
  ((t.setFld F.updCtl_window 0 (s.fld F.updCtl_window 0)).setFld F.updCtl_hostconf 0 (s.fld F.updCtl_hostconf 0)).setFld F.secBootstat_boots 0
    (s.fld F.secBootstat_boots 0)

theorem State.spoiled_chg {l : List Nat} {s : State} : Chg { tiles := true, freeCtr := true } s (l.foldl State.spoilTile s) :=
  .foldl (fun _ _ => .mono State.spoilTile_chg) _ .refl

/-- The cause that a warm reset records: PERST# and Milug's reset count as one over the controllers' start. -/
def State.resetCode (s : State) (cause : Nat) : Nat :=
  if s.boot.stage == 2 && !s.boot.recovery && ((s.boot.bootRes == 1 && cause == 6) || (s.boot.bootRes == 6 && cause == 1)) then 1 else cause

theorem State.resetCode_eq {s : State} {cause : Nat} (h : s.boot.stage ≠ 2 ∨ cause ≠ 6 ∧ cause ≠ 1) : s.resetCode cause = cause := by
  refine if_neg fun hh => ?_
  simp only [Bool.and_eq_true, Bool.or_eq_true, beq_iff_eq] at hh
  omega

theorem State.warmReset_eq {s : State} {cause : Nat} (hs : s.pwr.stage = true) (h2 : 2 ≤ s.boot.stage) :
    s.warmReset cause = if s.fld F.ptcState_unsync 0 = 1 then (s.warmed (s.resetCode cause)).staying s
      else ((s.warmed (s.resetCode cause)).staying s).event 0x0297 8 0 [] := by
  have hspoil := State.spoiled_chg (l := s.begunTiles) (s := s.cleared)
  have hpwr : s.cleared.pwr = s.pwr := rfl
  unfold State.warmReset State.warmed
  rw [if_neg (by rw [hs, decide_eq_false (Nat.not_lt.2 h2)]; decide)]
  dsimp only
  rw [hspoil.boot_eq, hspoil.pwr_eq, hpwr]
  rfl

theorem State.warmed_parts (s : State) (cause : Nat) :
    (s.warmed cause).boot = { s.cleared.boot with stage := 2, bootRes := cause } ∧ (s.warmed cause).pwr = { s.pwr with guardAt := [] } ∧
      (s.warmed cause).img = none ∧ (s.warmed cause).plans = [] ∧ (s.warmed cause).regions = [] ∧ (s.warmed cause).fns = [] := by
  have hspoil := State.spoiled_chg (l := s.begunTiles) (s := s.cleared)
  have h1 : s.cleared.plans = [] := rfl
  have h2 : s.cleared.regions = [] := rfl
  have h3 : s.cleared.fns = [] := rfl
  unfold State.warmed
  generalize s.begunTiles.foldl State.spoilTile s.cleared = v at hspoil
  exact ⟨rfl, rfl, hspoil.img_eq.trans s.cleared_fields.2.1, hspoil.plans_eq.trans h1, hspoil.regions_eq.trans h2, hspoil.fns_eq.trans h3⟩

theorem State.warmed_stores (s : State) (cause : Nat) :
    (s.warmed cause).ext = s.ext.filter (fun c => decide (annexBase 0 ≤ c.1)) ∧ (s.warmed cause).fuses = s.fuses ∧
      (s.warmed cause).hostMem = s.hostMem ∧ (s.warmed cause).milug = s.milug ∧ (s.warmed cause).regs = [] := by
  have hspoil := State.spoiled_chg (l := s.begunTiles) (s := s.cleared)
  have h1 : s.cleared.ext = s.ext.filter (fun c => decide (annexBase 0 ≤ c.1)) := rfl
  have h2 : s.cleared.regs = [] := rfl
  obtain ⟨-, -, c3, c4, -, c6⟩ := s.cleared_fields
  unfold State.warmed
  generalize s.begunTiles.foldl State.spoilTile s.cleared = v at hspoil
  exact ⟨hspoil.ext_eq.trans h1, hspoil.fuses_eq.trans c3, hspoil.hostMem_eq.trans c4, hspoil.milug_eq.trans c6, hspoil.regs_eq.trans h2⟩

theorem State.warmed_tile (s : State) (cause y : Nat) :
    (s.warmed cause).tile y = { scratch := ((s.warmed cause).tile y).scratch } ∧ (y ∉ s.begunTiles → (s.warmed cause).tile y = {}) := by
  have hempty (y : Nat) : s.cleared.tile y = {} := rfl
  have h := State.spoilTiles_tile s.begunTiles s.cleared (fun y => by rw [hempty]) y
  unfold State.warmed
  generalize s.begunTiles.foldl State.spoilTile s.cleared = v at h
  exact ⟨h.1, fun hy => (h.2 hy).trans (hempty y)⟩

theorem State.staying_chg {t s : State} : Chg { regs := true } t (t.staying s) := .via (.via .setFld .setFld) .setFld

/-- The registers that stay, and those that read their reset value. -/
theorem State.staying_regs (t s : State) :
    (t.staying s).fld F.updCtl_window 0 = s.fld F.updCtl_window 0 ∧ (t.staying s).fld F.updCtl_hostconf 0 = s.fld F.updCtl_hostconf 0 ∧
      (t.staying s).fld F.secBootstat_boots 0 = s.fld F.secBootstat_boots 0 ∧
      ∀ k i, regKey k i ≠ regKey .updCtl 0 → regKey k i ≠ regKey .secBootstat 0 → (t.staying s).reg k i = t.reg k i := by
  unfold State.staying
  refine ⟨?_, ?_, State.fld_setFld_eq _ (by decide) (bits_lt ..), fun k i h1 h2 => ?_⟩
  · rw [State.fld_setFld_kind _ (by decide) (by decide) (by decide), State.fld_setFld_bits _ (by decide)]
    exact State.fld_setFld_eq _ (by decide) (bits_lt ..)
  · rw [State.fld_setFld_kind _ (by decide) (by decide) (by decide)]
    exact State.fld_setFld_eq _ (by decide) (bits_lt ..)
  · exact ((State.reg_setReg_ne _ _ h2).trans (State.reg_setReg_ne _ _ h1)).trans (State.reg_setReg_ne _ _ h1)

/-- The first event after a reset is held for the PF's ring. -/
theorem State.event_held {t : State} {code kind idx : Nat} {items : List (Nat × Nat)} (hf : t.fns = []) (he : t.fld F.hstEvring_enable 0 = 0) :
    ∃ e, t.event code kind idx items = t.modFunc 0 fun f => { f with held := f.held ++ [e] } := by
  have h0 : t.func 0 = {} := by
    rw [State.func, hf]
    rfl
  refine ⟨⟨code, kind, idx, t.cnt, items⟩, ?_⟩
  unfold State.event State.eventTo
  dsimp only
  rw [if_neg (fun hh => by rw [he] at hh; exact absurd hh.1 (by decide)), if_pos (by rw [h0]; decide)]

/-- What a warm reset leaves of a running module (R597, R598). -/
structure State.Warm (s u : State) (code : Nat) : Prop where
  boot : u.boot = { s.cleared.boot with stage := 2, bootRes := code }
  pwr : u.pwr = { s.pwr with guardAt := [] }
  img : u.img = none
  plans : u.plans = []
  regions : u.regions = []
  fns : s.fld F.ptcState_unsync 0 = 1 → u.fns = []
  func : ∀ fn, u.func fn = if fn = 0 then { held := (u.func 0).held } else {}
  tile : ∀ y, u.tile y = { scratch := (u.tile y).scratch }
  other : ∀ y, y ∉ s.begunTiles → u.tile y = {}
  ext : u.ext = s.ext.filter (fun c => decide (annexBase 0 ≤ c.1))
  fuses : u.fuses = s.fuses
  hostMem : u.hostMem = s.hostMem
  milug : u.milug = s.milug
  window : u.fld F.updCtl_window 0 = s.fld F.updCtl_window 0
  hostconf : u.fld F.updCtl_hostconf 0 = s.fld F.updCtl_hostconf 0
  boots : u.fld F.secBootstat_boots 0 = s.fld F.secBootstat_boots 0
  reg : ∀ k i, regKey k i ≠ regKey .updCtl 0 → regKey k i ≠ regKey .secBootstat 0 → u.reg k i = State.reg { State.reset with fuses := s.fuses } k i

theorem State.warmReset_warm {s : State} {cause : Nat} (hs : s.pwr.stage = true) (h2 : 2 ≤ s.boot.stage) :
    s.Warm (s.warmReset cause) (s.resetCode cause) := by
  rw [State.warmReset_eq hs h2]
  obtain ⟨p1, p2, p3, p4, p5, p6⟩ := s.warmed_parts (s.resetCode cause)
  obtain ⟨q1, q2, q3, q4, q5⟩ := s.warmed_stores (s.resetCode cause)
  have htile := s.warmed_tile (s.resetCode cause)
  generalize s.warmed (s.resetCode cause) = v at p1 p2 p3 p4 p5 p6 q1 q2 q3 q4 q5 htile
  have hvw : Chg { regs := true } v (v.staying s) := State.staying_chg
  obtain ⟨r1, r2, r3, r4⟩ := v.staying_regs s
  generalize v.staying s = w at hvw r1 r2 r3 r4
  have hreset (k : RegKind) (i : Nat) : v.reg k i = State.reg { State.reset with fuses := s.fuses } k i := by
    have hreg : regReset v k i = regReset { State.reset with fuses := s.fuses } k i := by
      unfold regReset Fld.reset
      rw [p3, q2]
      rfl
    rw [State.reg, q5, State.reg, ← hreg]
    rfl
  have hwreg (k : RegKind) (i : Nat) (h1 : regKey k i ≠ regKey .updCtl 0) (h2 : regKey k i ≠ regKey .secBootstat 0) :
      w.reg k i = State.reg { State.reset with fuses := s.fuses } k i := (r4 k i h1 h2).trans (hreset k i)
  have hwfns : w.fns = [] := hvw.fns_eq.trans p6
  have hquiet : s.Warm w (s.resetCode cause) := by
    refine ⟨hvw.boot_eq.trans p1, hvw.pwr_eq.trans p2, hvw.img_eq.trans p3, hvw.plans_eq.trans p4, hvw.regions_eq.trans p5, fun _ => hwfns,
      fun fn => ?_, fun y => ?_, fun y hy => ?_, hvw.ext_eq.trans q1, hvw.fuses_eq.trans q2, hvw.hostMem_eq.trans q3, hvw.milug_eq.trans q4,
      r1, r2, r3, hwreg⟩
    · have hfunc (fn : Nat) : w.func fn = {} := by
        rw [State.func, hwfns]
        rfl
      rw [hfunc, hfunc, ite_self]
    · rw [hvw.tile_eq]
      exact (htile y).1
    · rw [hvw.tile_eq]
      exact (htile y).2 hy
  split_ifs with hun
  · exact hquiet
  · have he : w.fld F.hstEvring_enable 0 = 0 := by
      have hzero : State.reg { State.reset with fuses := s.fuses } .hstEvring 0 = 0 := regReset_zero _ 0 (by decide)
      have hkind : F.hstEvring_enable.kind = .hstEvring := rfl
      rw [State.fld, hkind, hwreg _ _ (by decide) (by decide), hzero]
      decide
    obtain ⟨e, hev⟩ := State.event_held (code := 0x0297) (kind := 8) (idx := 0) (items := []) hwfns he
    rw [hev]
    have hchg : Chg { fns := true } w (w.modFunc 0 fun f => { f with held := f.held ++ [e] }) := .modFunc
    have h0 (fn : Nat) : w.func fn = {} := by
      rw [State.func, hwfns]
      rfl
    have hfunc (fn : Nat) : (w.modFunc 0 fun f => { f with held := f.held ++ [e] }).func fn = if fn = 0 then { held := [e] } else {} := by
      by_cases hfn : fn = 0
      · rw [hfn, State.modFunc_same, h0, if_pos rfl]
        rfl
      · rw [State.modFunc_ne _ _ _ hfn, h0, if_neg hfn]
    generalize w.modFunc 0 (fun f => { f with held := f.held ++ [e] }) = x at hchg hfunc
    refine ⟨hchg.boot_eq.trans hquiet.boot, hchg.pwr_eq.trans hquiet.pwr, hchg.img_eq.trans hquiet.img, hchg.plans_eq.trans hquiet.plans,
      hchg.regions_eq.trans hquiet.regions, fun hh => absurd hh hun, fun fn => ?_, fun y => ?_, fun y hy => ?_, hchg.ext_eq.trans hquiet.ext,
      hchg.fuses_eq.trans hquiet.fuses, hchg.hostMem_eq.trans hquiet.hostMem, hchg.milug_eq.trans hquiet.milug, ?_, ?_, ?_, fun k i k1 k2 => ?_⟩
    · rw [hfunc, hfunc, if_pos rfl]
    · rw [hchg.tile_eq]
      exact hquiet.tile y
    · rw [hchg.tile_eq]
      exact hquiet.other y hy
    · rw [hchg.fld_eq, r1]
    · rw [hchg.fld_eq, r2]
    · rw [hchg.fld_eq, r3]
    · rw [hchg.reg_eq]
      exact hquiet.reg k i k1 k2

theorem State.Warm.stage {s u : State} {code : Nat} (h : s.Warm u code) : u.boot.stage = 2 ∧ u.boot.recovery = false ∧ u.boot.trial = false ∧
    u.boot.bootRes = code ∧ u.boot.slotA = s.boot.slotA ∧ u.boot.slotB = s.boot.slotB := by
  rw [h.boot]
  exact ⟨rfl, rfl, rfl, rfl, rfl, rfl⟩

theorem State.Warm.rdByte {s u : State} {code : Nat} (h : s.Warm u code) (a : Nat) :
    rdByte u.ext a = if a < annexBase 0 then unlisted else rdByte s.ext a := by
  rw [h.ext]
  refine (rdByte_filter (fun a => decide (annexBase 0 ≤ a)) s.ext a).trans ?_
  by_cases ha : a < annexBase 0
  · rw [if_pos ha, decide_eq_false (Nat.not_le.2 ha)]
    rfl
  · rw [if_neg ha, decide_eq_true (Nat.not_lt.1 ha)]
    rfl

theorem execWarmReset_idle {s : State} {cause : ResetCause} (h : s.pwr.stage = false ∨ s.boot.stage < 2) : exec (.warmReset cause) s = .next s := by
  have hexec : exec (.warmReset cause) s = .next (s.warmReset (causeCode cause)) := rfl
  rw [hexec, State.warmReset, if_pos]
  rcases h with h | h
  · rw [h]
    rfl
  · rw [decide_eq_true h, Bool.or_true]

theorem State.modFault_sticky (s : State) (code : Nat) : (s.modFault code).fld F.secFault_sticky 0 = 1 := by
  unfold State.modFault
  generalize s.event 0x02E4 8 0 [(1, code)] = v
  dsimp only
  have hw : (((v.setFld F.secFault_sticky 0 1).setFld F.secFault_code 0 code).satAdd F.secFault_count 0 1).fld F.secFault_sticky 0 = 1 := by
    rw [State.fld_satAdd_bits _ (by decide), State.fld_setFld_bits _ (by decide)]
    exact State.fld_setFld_eq _ (by decide) (by decide)
  generalize ((v.setFld F.secFault_sticky 0 1).setFld F.secFault_code 0 code).satAdd F.secFault_count 0 1 = w at hw
  have hx : Chg { fns := true, boot := true, milug := true } w ((w.irqCause 0 3).modBoot fun b => { b with faulted := true }).alert :=
    .via (.via (.mono State.irqCause_chg) .modBootPlain) State.alert_chg
  exact (hx.fld_eq ..).trans hw

theorem State.faultReset_fields {s : State} {cause code : Nat} (hs : s.pwr.stage = true) (h2 : 2 ≤ s.boot.stage) (hc : code < 256) :
    (s.faultReset cause code).boot.stage = 2 ∧ (s.faultReset cause code).fld F.secFault_code 0 = code ∧
      (s.faultReset cause code).fld F.secFault_sticky 0 = 1 := by
  have hwarm := State.warmReset_warm (cause := cause) hs h2 |>.stage.1
  unfold State.faultReset
  generalize s.warmReset cause = v at hwarm
  refine ⟨?_, (State.modFault_fields hc).1, v.modFault_sticky code⟩
  rw [(v.modFault_parts code).1]
  exact hwarm

theorem execTrialWindowExpiry_eq {s : State} (hs : s.pwr.stage = true) (h2 : 2 ≤ s.boot.stage) (ht : s.boot.trial = true)
    (hend : s.trialEnd ≤ s.milug.time) :
    Yields .trialWindowExpiry s fun u => u.boot.stage = 2 ∧ u.boot.bootRes = 5 ∧ u.boot.trial = false := by
  have hexec : exec .trialWindowExpiry s = execTrialWindowExpiry s := rfl
  unfold execTrialWindowExpiry at hexec
  rw [if_pos (by rw [ht, decide_eq_true hend]; rfl)] at hexec
  obtain ⟨h1, -, h3, h4, -, -⟩ := State.warmReset_warm (cause := 5) hs h2 |>.stage
  exact ⟨_, hexec, h1, h4.trans (State.resetCode_eq (.inr (by decide))), h3⟩

/-! ### The confirmation of a trial (R613) -/

theorem Boot.modSlot_slot (b : Boot) (i j : Nat) (f : FwSlot → FwSlot) :
    (b.modSlot i f).slot j = if (i = 0 ↔ j = 0) then f (b.slot j) else b.slot j := by
  unfold Boot.modSlot Boot.slot
  by_cases hi : i = 0
  · by_cases hj : j = 0
    · simp only [hi, hj, if_true]
    · simp only [hi, hj, if_true, if_false, iff_false, not_true]
  · by_cases hj : j = 0
    · simp only [hi, hj, if_true, if_false, iff_true]
    · simp only [hi, hj, if_false, if_true]

theorem Boot.writeBack_fields (b : Boot) : (∀ j, b.writeBack.slot j = b.slot j) ∧ b.writeBack.trial = b.trial ∧ b.writeBack.okRec = b.okRec ∧
    b.writeBack.seq = b.seq + 1 ∧ b.writeBack.stage = b.stage ∧ b.writeBack.policy = b.policy := by
  unfold Boot.writeBack
  dsimp only
  split_ifs
  · exact ⟨fun _ => rfl, rfl, rfl, rfl, rfl, rfl⟩
  · exact ⟨fun _ => rfl, rfl, rfl, rfl, rfl, rfl⟩

/-- A slot confirmed: the other, if it was the confirmed one, is the one before. -/
def Boot.confirm (b : Boot) (i : Nat) : Boot :=
  (b.modSlot i fun f => { f with state := 4 }).modSlot (1 - i) fun f => if f.state = 4 then { f with state := 5 } else f

theorem Boot.confirm_slot (b : Boot) (i : Nat) :
    (b.confirm i).slot i = { b.slot i with state := 4 } ∧
      (b.confirm i).slot (1 - i) = if (b.slot (1 - i)).state = 4 then { b.slot (1 - i) with state := 5 } else b.slot (1 - i) := by
  have hne : ¬(1 - i = 0 ↔ i = 0) := by omega
  have hne' : ¬(i = 0 ↔ 1 - i = 0) := by omega
  unfold Boot.confirm
  rw [Boot.modSlot_slot, Boot.modSlot_slot, Boot.modSlot_slot, Boot.modSlot_slot, if_neg hne, if_pos Iff.rfl, if_pos Iff.rfl, if_neg hne']
  exact ⟨rfl, rfl⟩

/-- The state with another boot. -/
def State.withBoot (s : State) (b : Boot) : State := { s with boot := b }

theorem State.withBoot_kept (s : State) (b : Boot) : (∀ f i, (s.withBoot b).fld f i = s.fld f i) ∧ (s.withBoot b).fuses = s.fuses :=
  ⟨fun _ _ => rfl, rfl⟩

theorem State.confirm_eq (s : State) (i : Nat) :
    (s.modSlot i fun f => { f with state := 4 }).modSlot (1 - i) (fun f => if f.state = 4 then { f with state := 5 } else f) = s.withBoot (s.boot.confirm i) := by
  rw [State.modSlot_eq, State.modSlot_eq]
  rfl

/-- The end of a confirmation: the record written, the slot's fuses blown, and the event. -/
def State.confirmEnd (x : State) (i : Nat) : State :=
  (((x.modBoot fun b => { b with trial := false, okRec := x.fld F.memStepok_ok 0 }).writeRecord).fuseSlot (x.boot.slot i)).event 0x02E2 8 0
    [(4, ((((x.modBoot fun b => { b with trial := false, okRec := x.fld F.memStepok_ok 0 }).writeRecord).fuseSlot (x.boot.slot i)).boot.slot i).svn)]

theorem execTrialConfirmation_eq {s : State} (h : s.mayConfirm = true) : Yields .trialConfirmation s fun u =>
    let i := s.boot.active
    let f := s.boot.slot i
    (u.boot.slot i).state = 4 ∧ (u.boot.slot i).svn = f.svn ∧ u.boot.trial = false ∧ u.boot.okRec = s.fld F.memStepok_ok 0 ∧
    ((s.boot.slot (1 - i)).state = 4 → (u.boot.slot (1 - i)).state = 5) ∧ u.boot.seq = s.boot.seq + 1 ∧
    u.fuses.arb = s.fuses.arb ||| BitVec.ofNat 64 (2 ^ f.svn - 1) ∧
    u.fuses.keyrev = if f.revoke then s.fuses.keyrev ||| BitVec.ofNat 2 (2 ^ (1 - f.keyslot)) else s.fuses.keyrev := by
  have hexec : exec .trialConfirmation s = execTrialConfirmation s := rfl
  unfold execTrialConfirmation at hexec
  rw [if_neg (by rw [h]; decide)] at hexec
  dsimp only at hexec
  rw [State.confirm_eq, State.modArea_eq] at hexec
  have hxb : (s.withBoot ((s.boot.confirm s.boot.active).modArea (1 - ((s.withBoot (s.boot.confirm s.boot.active)).boot.slot s.boot.active).area) fun a => { a with used := false })).boot =
      (s.boot.confirm s.boot.active).modArea (1 - ((s.withBoot (s.boot.confirm s.boot.active)).boot.slot s.boot.active).area) fun a => { a with used := false } := rfl
  have hok := (s.withBoot_kept ((s.boot.confirm s.boot.active).modArea (1 - ((s.withBoot (s.boot.confirm s.boot.active)).boot.slot s.boot.active).area) fun a => { a with used := false })).1
    F.memStepok_ok 0
  have hfuses := (s.withBoot_kept ((s.boot.confirm s.boot.active).modArea (1 - ((s.withBoot (s.boot.confirm s.boot.active)).boot.slot s.boot.active).area) fun a => { a with used := false })).2
  replace hexec : exec .trialConfirmation s = .next ((State.confirmEnd (s.withBoot ((s.boot.confirm s.boot.active).modArea
    (1 - ((s.withBoot (s.boot.confirm s.boot.active)).boot.slot s.boot.active).area) fun a => { a with used := false })) s.boot.active)) := hexec
  generalize 1 - ((s.withBoot (s.boot.confirm s.boot.active)).boot.slot s.boot.active).area = n at hexec hxb hok hfuses
  generalize (fun a : SetArea => { a with used := false }) = g at hexec hxb hok hfuses
  generalize s.withBoot ((s.boot.confirm s.boot.active).modArea n g) = x at hexec hxb hok hfuses
  unfold State.confirmEnd at hexec
  obtain ⟨c1, c2⟩ := s.boot.confirm_slot s.boot.active
  have harea (b : Boot) : (∀ j, (b.modArea n g).slot j = b.slot j) ∧ (b.modArea n g).seq = b.seq := by
    unfold Boot.modArea
    split_ifs
    · exact ⟨fun _ => rfl, rfl⟩
    · exact ⟨fun _ => rfl, rfl⟩
  have hseq : (s.boot.confirm s.boot.active).seq = s.boot.seq := by
    unfold Boot.confirm Boot.modSlot
    split_ifs <;> rfl
  have hxi : x.boot.slot s.boot.active = { s.boot.slot s.boot.active with state := 4 } := by
    rw [hxb, (harea _).1, c1]
  have hxo : x.boot.slot (1 - s.boot.active) = if (s.boot.slot (1 - s.boot.active)).state = 4 then { s.boot.slot (1 - s.boot.active) with state := 5 }
      else s.boot.slot (1 - s.boot.active) := by
    rw [hxb, (harea _).1, c2]
  have hxseq : x.boot.seq = s.boot.seq := by
    rw [hxb, (harea _).2, hseq]
  rw [State.writeRecord_eq] at hexec
  generalize hb : (x.modBoot fun b => { b with trial := false, okRec := x.fld F.memStepok_ok 0 }).boot.writeBack = b at hexec
  obtain ⟨w1, w2, w3, w4, -, -⟩ := (x.modBoot fun b => { b with trial := false, okRec := x.fld F.memStepok_ok 0 }).boot.writeBack_fields
  rw [hb] at w1 w2 w3 w4
  have hv : (State.fuseSlot { x.modBoot (fun b => { b with trial := false, okRec := x.fld F.memStepok_ok 0 }) with boot := b } (x.boot.slot s.boot.active)).boot = b ∧
      (State.fuseSlot { x.modBoot (fun b => { b with trial := false, okRec := x.fld F.memStepok_ok 0 }) with boot := b } (x.boot.slot s.boot.active)).fuses =
        { x.fuses with
          arb := x.fuses.arb ||| BitVec.ofNat 64 (2 ^ (x.boot.slot s.boot.active).svn - 1)
          keyrev := if (x.boot.slot s.boot.active).revoke then x.fuses.keyrev ||| BitVec.ofNat 2 (2 ^ (1 - (x.boot.slot s.boot.active).keyslot)) else x.fuses.keyrev } :=
    ⟨rfl, rfl⟩
  generalize State.fuseSlot { x.modBoot (fun b => { b with trial := false, okRec := x.fld F.memStepok_ok 0 }) with boot := b } (x.boot.slot s.boot.active) = v at hexec hv
  obtain ⟨hvb, hvf⟩ := hv
  rw [hxi, hfuses] at hvf
  refine ⟨_, hexec, ?_⟩
  dsimp only
  rw [State.event_chg.boot_eq, State.event_chg.fuses_eq, hvb, hvf, w1, w1, w2, w3, w4]
  refine ⟨?_, ?_, rfl, hok, fun h4 => ?_, ?_, rfl, rfl⟩
  · exact congrArg FwSlot.state hxi
  · show (x.boot.slot s.boot.active).svn = _
    rw [hxi]
  · exact (congrArg FwSlot.state hxo).trans (by rw [if_pos h4])
  · exact congrArg (· + 1) hxseq

/-- Settles O51: what a warm reset leaves, the faults that bring one, and the end of a trial. -/
theorem resetsAndTrials : Obligations.ResetsAndTrials := by
  unfold Obligations.ResetsAndTrials
  intro s
  refine ⟨fun cause h => execWarmReset_idle h, fun hs h2 => ⟨fun cause => ?_, fun io hf => ?_, fun io hf => ?_, fun ht hend => execTrialWindowExpiry_eq hs h2 ht hend⟩,
    execTrialConfirmation_eq⟩
  · have h := State.warmReset_warm (cause := causeCode cause) hs h2
    obtain ⟨b1, b2, -, b4, b5, b6⟩ := h.stage
    exact ⟨_, rfl, b1, b2, h.img, h.plans, h.regions, h.fns, h.func, h.tile, h.other, h.rdByte,
      fun hne => b4.trans (State.resetCode_eq (.inl hne)), h.fuses, h.hostMem, h.milug, b5, b6, by rw [h.pwr]; exact hs, h.window, h.hostconf, h.boots, h.reg⟩
  · have hexec : exec (.watchdogExpiry io) s = .next (if s.boot.firmware then s.faultReset 3 0x04 else s) := rfl
    rw [if_pos hf] at hexec
    exact ⟨_, hexec, State.faultReset_fields hs h2 (by decide)⟩
  · have hexec : exec (.controllerEccError io) s = .next (if s.boot.firmware || s.boot.recovery then s.faultReset 8 0x05 else s) := rfl
    rw [if_pos (by rw [Bool.or_eq_true]; exact hf)] at hexec
    exact ⟨_, hexec, State.faultReset_fields hs h2 (by decide)⟩

end Sys2Proof.Machine
end

section
/-!
The update commands (R609 to R612).
-/
namespace Sys2Proof.Machine
set_option Elab.async false

/-! ## The update commands (R609 to R612) -/

theorem State.modSlot_withBoot (s : State) (i : Nat) (f : FwSlot → FwSlot) : s.modSlot i f = s.withBoot (s.boot.modSlot i f) := rfl

theorem State.writeRecord_withBoot (s : State) (b : Boot) : (s.withBoot b).writeRecord = s.withBoot b.writeBack := rfl

theorem State.withBoot_boot (s : State) (b : Boot) : (s.withBoot b).boot = b := rfl

theorem State.ringStopped_withBoot (s : State) (b : Boot) (k : Nat) : (s.withBoot b).ringStopped k = s.ringStopped k := rfl

/-- A command that changes the boot state alone, and completes. -/
theorem State.begins.boots {s : State} {i : Instr} {c : Cmd} {op st : Nat} {allFns : Bool} (h : s.begins i c op allFns) (hop : op ≠ 1) (b : Boot) :
    Completed s (((s.popCmd c).withBoot b).complete c op st) c op st ∧ (((s.popCmd c).withBoot b).complete c op st).boot = b :=
  ⟨h.completes hop ((s.popCmd c).ringStopped_withBoot b c.fn |>.trans (s.ringStopped_popCmd c _)) (s.cpls_popCmd c _), (State.complete_fns hop).boot_eq⟩

theorem State.begins.refusedBoot {s : State} {i : Instr} {c : Cmd} {op st : Nat} {allFns : Bool} (h : s.begins i c op allFns) (hop : op ≠ 1)
    (hexec : exec i s = .next (((s.popCmd c).complete c op st).answerAll c.fn)) : Answers i c s fun u => Completed s u c op st ∧ u.boot = s.boot :=
  h.refused hop hexec fun _ hu => hu.boot_eq

theorem Boot.modSlot_other (b : Boot) {i : Nat} (f : FwSlot → FwSlot) (h : i = 0 ∨ i = 1) : (b.modSlot i f).slot (1 - i) = b.slot (1 - i) := by
  rcases h with rfl | rfl <;> rfl

theorem Boot.modSlot_seq (b : Boot) (i : Nat) (f : FwSlot → FwSlot) : (b.modSlot i f).seq = b.seq := by
  unfold Boot.modSlot
  split_ifs <;> rfl

theorem execUpdBegin_eq {s : State} {c : Cmd} {addr : BitVec 64} {len : BitVec 32} {sigOk : Bool}
    (h : s.begins (.updBegin c addr len sigOk) c 0x0300 false) {st : Nat} (hst : (s.popCmd c).updCheck (s.popCmd c).beginOut = st) :
    let p := s.popCmd c
    let b := rdBytes s.hostMem addr.toNat len.toNat
    let i := if s.boot.slotA.state = 4 then 1 else 0
    (st ≠ 0 → Answers (.updBegin c addr len sigOk) c s fun u => Completed s u c 0x0300 st ∧ u.boot = s.boot) ∧
    (st = 0 → p.fwPass 0 false addr.toNat len.toNat = true →
      (p.manPasses b sigOk = false → Answers (.updBegin c addr len sigOk) c s fun u => Completed s u c 0x0300 0x00A5 ∧ u.boot = s.boot) ∧
      (p.manPasses b sigOk = true → Answers (.updBegin c addr len sigOk) c s fun u =>
        Completed s u c 0x0300 0 ∧ u.boot.slot i = slotFrom b (s.boot.slot i) ∧ u.boot.slot (1 - i) = s.boot.slot (1 - i) ∧
        u.boot.seq = s.boot.seq + 1)) := by
  intro p b i
  have hexec := h.exec_eq (f := _) rfl
  dsimp only at hexec
  rw [hst] at hexec
  refine ⟨fun hne => ?_, fun hz hpass => ⟨fun hman => ?_, fun hman => ?_⟩⟩
  · rw [if_pos hne] at hexec
    exact h.refusedBoot (by decide) hexec
  · rw [if_neg (fun hh => hh hz), if_neg (by rw [hpass]; decide), if_pos (by rw [show (s.popCmd c).hostMem = s.hostMem from rfl, hman]; rfl)] at hexec
    exact h.refusedBoot (by decide) hexec
  · rw [if_neg (fun hh => hh hz), if_neg (by rw [hpass]; decide), if_neg (by rw [show (s.popCmd c).hostMem = s.hostMem from rfl, hman]; decide),
      State.modSlot_withBoot, State.writeRecord_withBoot] at hexec
    have hi : i = 0 ∨ i = 1 := by
      show (if s.boot.slotA.state = 4 then 1 else 0) = 0 ∨ (if s.boot.slotA.state = 4 then 1 else 0) = 1
      split_ifs
      · exact .inr rfl
      · exact .inl rfl
    obtain ⟨h1, h2⟩ := h.boots (st := 0) (by decide) (s.boot.modSlot i fun f => slotFrom b f).writeBack
    obtain ⟨w1, -, -, w4, -, -⟩ := (s.boot.modSlot i fun f => slotFrom b f).writeBack_fields
    refine ⟨_, hexec, h1, ?_⟩
    rw [show ((s.popCmd c).withBoot ((s.popCmd c).boot.modSlot (if (s.popCmd c).boot.slotA.state = 4 then 1 else 0)
      fun f => slotFrom (rdBytes (s.popCmd c).hostMem addr.toNat len.toNat) f).writeBack).complete c 0x0300 0 =
        ((s.popCmd c).withBoot (s.boot.modSlot i fun f => slotFrom b f).writeBack).complete c 0x0300 0 from rfl, h2, w1, w1, w4]
    exact ⟨(Boot.modSlot_fields _ _ hi).1, Boot.modSlot_other _ _ hi, congrArg (· + 1) (Boot.modSlot_seq _ _ _)⟩

theorem rdBytes_wrBytes {m : List Host.Cell} (a : Nat) (bs : List Byte) (h : memWf m = true) : rdBytes (wrBytes m a bs) a bs.length = bs := by
  refine List.ext_getElem (by simp [rdBytes]) fun i h1 h2 => ?_
  have hread : rdByte (wrBytes m a bs) (a + i) = bs.getD (a + i - a) 0 := (rdByte_wrBytes a (a + i) bs h).trans (if_pos ⟨by omega, by omega⟩)
  simp only [rdBytes, List.getElem_map, List.getElem_range]
  rw [hread, show a + i - a = i by omega]
  exact List.getD_eq_getElem _ _ h2

/-- A slot whose blocks are counted again: its state alone changes, in the record too. -/
theorem State.restage_fields (s : State) {i : Nat} (hi : i = 0 ∨ i = 1) :
    (s.restage i).boot.slot i = { s.boot.slot i with state := if (s.boot.slot i).whole then 2 else 1 } ∧ s.CplsKept (s.restage i) ∧
      RegsKept [.hstEvstat] s (s.restage i) := by
  have hslot (b : Boot) (n : Nat) : (b.modSlot i fun f => { f with state := n }).writeBack.slot i = { b.slot i with state := n } :=
    ((b.modSlot i fun f => { f with state := n }).writeBack_fields.1 i).trans (Boot.modSlot_fields b _ hi).1
  unfold State.restage
  dsimp only
  generalize (if (s.boot.slot i).whole then 2 else 1) = st
  by_cases hsame : (s.boot.slot i).state = st
  · rw [if_pos hsame, ← hsame]
    exact ⟨rfl, .refl, .refl⟩
  · rw [if_neg hsame, State.modSlot_withBoot, State.writeRecord_withBoot]
    have hcpls (b : Boot) : s.CplsKept (s.withBoot b) := fun _ => rfl
    have hregs (b : Boot) : RegsKept [.hstEvstat] s (s.withBoot b) := .plain
    split_ifs with h2
    · refine ⟨?_, (hcpls _).trans .event, (hregs _).trans (.event (by decide))⟩
      rw [State.event_chg.boot_eq]
      exact hslot s.boot _
    · exact ⟨hslot s.boot _, hcpls _, hregs _⟩

theorem Boot.staged_lt {b : Boot} {i : Nat} (h : b.staged = some i) : i = 0 ∨ i = 1 := by
  rcases List.mem_cons.1 (List.mem_of_find?_eq_some h) with h | h
  · exact .inl h
  · exact .inr (List.mem_singleton.1 h)

/-- A block written to its slot's parts area. -/
def State.blockPut (s : State) (i k : Nat) (b : List Byte) : State := s.modSlot i fun f => { f with data := wrBytes f.data (65536 * (k - 1)) b }

/-- A block marked as written, when it has its CRC. -/
def State.blockMark (s : State) (i k : Nat) (ok : Bool) : State :=
  s.modSlot i fun f => { f with written := f.written.filter (· != k) ++ (if ok then [k] else []) }

theorem State.modSlot_kept {s : State} {i : Nat} {f : FwSlot → FwSlot} (hi : i = 0 ∨ i = 1) :
    (s.modSlot i f).boot.slot i = f (s.boot.slot i) ∧ s.CplsKept (s.modSlot i f) ∧ RegsKept [.hstEvstat] s (s.modSlot i f) :=
  ⟨(Boot.modSlot_fields s.boot f hi).1, fun _ => rfl, .plain⟩

theorem State.blockPut_fields (s : State) {i : Nat} (k : Nat) (b : List Byte) (hi : i = 0 ∨ i = 1) :
    (s.blockPut i k b).boot.slot i = { s.boot.slot i with data := wrBytes (s.boot.slot i).data (65536 * (k - 1)) b } ∧ s.CplsKept (s.blockPut i k b) ∧
      RegsKept [.hstEvstat] s (s.blockPut i k b) := State.modSlot_kept hi

theorem State.blockMark_fields (s : State) {i : Nat} (k : Nat) (ok : Bool) (hi : i = 0 ∨ i = 1) :
    (s.blockMark i k ok).boot.slot i = { s.boot.slot i with written := (s.boot.slot i).written.filter (· != k) ++ (if ok then [k] else []) } ∧
      s.CplsKept (s.blockMark i k ok) ∧ RegsKept [.hstEvstat] s (s.blockMark i k ok) := State.modSlot_kept hi

theorem State.begins.fn_zero {s : State} {i : Instr} {c : Cmd} {op : Nat} {allFns : Bool} (h : s.begins i c op allFns) (ha : allFns = false) : c.fn = 0 := by
  obtain ⟨-, -, hf⟩ := h
  exact hf.resolve_right (by rw [ha]; decide)

theorem execUpdBlock_eq {s : State} {c : Cmd} {block : BitVec 16} {crc : BitVec 32} {addr : BitVec 64}
    (h : s.begins (.updBlock c block crc addr) c 0x0301 false) {st : Nat} (hst : (s.popCmd c).updCheck (s.popCmd c).stageOut = st) :
    let p := s.popCmd c
    let k := block.toNat
    (st ≠ 0 → Answers (.updBlock c block crc addr) c s fun u => Completed s u c 0x0301 st ∧ u.boot = s.boot) ∧
    (∀ i, st = 0 → s.boot.staged = some i → 0 < k → k ≤ (s.boot.slot i).blocks → p.fwPass 0 false addr.toNat 65536 = true →
      memWf (s.boot.slot i).data = true →
      let b := rdBytes s.hostMem addr.toNat 65536
      Answers (.updBlock c block crc addr) c s fun u =>
        Completed s u c 0x0301 (if crc32c b = crc then 0 else 0x00A3) ∧
        Stored (s.boot.slot i).data (u.boot.slot i).data (65536 * (k - 1)) b ∧
        ((u.boot.slot i).written.contains k = true ↔ crc32c b = crc) ∧
        (u.boot.slot i).state = if (u.boot.slot i).whole then 2 else 1) := by
  intro p k
  have hexec := h.exec_eq (f := _) rfl
  dsimp only at hexec
  rw [hst] at hexec
  refine ⟨fun hne => ?_, fun i hz hi hk0 hk hpass hmem => ?_⟩
  · rw [if_pos hne] at hexec
    exact h.refusedBoot (by decide) hexec
  · intro b
    have hboot : (s.popCmd c).boot = s.boot := rfl
    have hhost : (s.popCmd c).hostMem = s.hostMem := rfl
    have hlen : b.length = 65536 := rdBytes_length ..
    have hi01 := Boot.staged_lt hi
    rw [if_neg (fun hh => hh hz), hboot, hi] at hexec
    dsimp only at hexec
    rw [if_neg (by rintro (hh | hh) <;> omega), if_neg (by rw [hpass]; decide), hhost] at hexec
    replace hexec : exec (.updBlock c block crc addr) s = .next (((((((s.popCmd c).blockPut i k b).blockMark i k
        (crc32c b == crc && crc32c (rdBytes (((s.popCmd c).blockPut i k b).boot.slot i).data (65536 * (k - 1)) 65536) == crc)).restage i).complete c 0x0301
        (if crc32c b == crc && crc32c (rdBytes (((s.popCmd c).blockPut i k b).boot.slot i).data (65536 * (k - 1)) 65536) == crc then 0 else 0x00A3))).answerAll c.fn) := by
      unfold State.blockMark State.blockPut
      exact hexec
    obtain ⟨p1, p2, p3⟩ := (s.popCmd c).blockPut_fields k b hi01
    have hdata : (((s.popCmd c).blockPut i k b).boot.slot i).data = wrBytes (s.boot.slot i).data (65536 * (k - 1)) b := by rw [p1, hboot]
    have hback : rdBytes (((s.popCmd c).blockPut i k b).boot.slot i).data (65536 * (k - 1)) 65536 = b := by
      rw [hdata, ← hlen]
      exact rdBytes_wrBytes _ b hmem
    rw [hback, Bool.and_self] at hexec
    generalize (s.popCmd c).blockPut i k b = v at hexec p1 p2 p3 hdata
    obtain ⟨m1, m2, m3⟩ := v.blockMark_fields k (crc32c b == crc) hi01
    generalize v.blockMark i k (crc32c b == crc) = w at hexec m1 m2 m3
    obtain ⟨r1, r2, r3⟩ := w.restage_fields hi01
    generalize w.restage i = x at hexec r1 r2 r3
    have hfn : c.fn < 2 ^ 32 := h.fn_zero rfl ▸ (by decide)
    have hring : x.ringStopped c.fn = s.ringStopped c.fn := by
      rw [State.ringStopped_kept ((p3.trans m3).trans r3) hfn (by decide)]
      exact s.ringStopped_popCmd c _
    have hcpls : (x.func c.fn).cpls = (s.func c.fn).cpls := ((p2.trans m2).trans r2 c.fn).trans (s.cpls_popCmd c _)
    have hend : (x.complete c 0x0301 (if (crc32c b == crc) = true then 0 else 0x00A3)).boot = x.boot := (State.complete_fns (by decide)).boot_eq
    have hxw : (x.boot.slot i).whole = (w.boot.slot i).whole := by rw [r1]; rfl
    have hif : (if (crc32c b == crc) = true then 0 else 0x00A3) = if crc32c b = crc then 0 else 0x00A3 := if_congr beq_iff_eq rfl rfl
    refine ⟨_, hexec, hif ▸ h.completes (by decide) hring hcpls, ?_⟩
    rw [hend, hxw]
    refine ⟨?_, ?_, ?_⟩
    · have hx : (x.boot.slot i).data = wrBytes (s.boot.slot i).data (65536 * (k - 1)) b := by rw [r1, ← hdata, m1]
      rw [hx]
      exact stored_wrBytes _ _ hmem
    · have hx : (x.boot.slot i).written = (v.boot.slot i).written.filter (· != k) ++ (if (crc32c b == crc) = true then [k] else []) := by rw [r1, m1]
      rw [hx, List.contains_iff_mem, List.mem_append, List.mem_filter]
      constructor
      · rintro (hm | hm)
        · exact absurd hm.2 (by simp)
        · by_contra hc
          rw [if_neg fun hh => hc (beq_iff_eq.1 hh)] at hm
          exact List.not_mem_nil hm
      · intro hc
        rw [if_pos (beq_iff_eq.2 hc)]
        exact .inr (List.mem_singleton_self _)
    · rw [r1]

/-- An activation: the slot is on trial in the record, and the module resets. -/
theorem State.activate_fields {s : State} {c : Cmd} {i : Nat} (hi : s.boot.staged = some i) (hs : s.pwr.stage = true) (h2 : 2 ≤ s.boot.stage) :
    (s.activate c).boot.stage = 2 ∧ (s.activate c).boot.slot i = { s.boot.slot i with state := 3, tried := false } ∧
      (s.activate c).boot.seq = s.boot.seq + 1 ∧ (s.activate c).img = none := by
  obtain ⟨w1, -, -, w4, w5, -⟩ := (s.boot.modSlot i fun f => { f with state := 3, tried := false }).writeBack_fields
  have hi01 := Boot.staged_lt hi
  have hstage : (s.boot.modSlot i fun f => { f with state := 3, tried := false }).stage = s.boot.stage := by
    unfold Boot.modSlot
    split_ifs <;> rfl
  have hslot := (w1 i).trans (Boot.modSlot_fields s.boot (fun f => { f with state := 3, tried := false }) hi01).1
  have hseq := w4.trans (congrArg (· + 1) (Boot.modSlot_seq s.boot i fun f => { f with state := 3, tried := false }))
  have h2' := h2.trans_eq (w5.trans hstage).symm
  unfold State.activate
  rw [hi]
  dsimp only
  rw [State.modSlot_withBoot, State.writeRecord_withBoot]
  generalize (s.boot.modSlot i fun f => { f with state := 3, tried := false }).writeBack = b at hslot hseq h2'
  have hb : (s.withBoot b).boot = b := rfl
  have hp : (s.withBoot b).pwr = s.pwr := rfl
  generalize s.withBoot b = v at hb hp
  have hvw : Chg { fns := true, regs := true, hostMem := true } v
      ((v.complete c 0x0302 0x0000).writeCpls c.fn ((v.complete c 0x0302 0x0000).func c.fn).cpls.length) :=
    .via (.mono (State.complete_fns (by decide))) State.writeCpls_chg
  generalize (v.complete c 0x0302 0x0000).writeCpls c.fn ((v.complete c 0x0302 0x0000).func c.fn).cpls.length = w at hvw
  have hwb : w.boot = b := hvw.boot_eq.trans hb
  have hwarm := State.warmReset_warm (s := w) (cause := 4) (by rw [hvw.pwr_eq, hp]; exact hs) (by rw [hwb]; exact h2')
  generalize w.warmReset 4 = u at hwarm
  have hub : u.boot = { w.boot with idKey := none, recovery := false, firmware := false, refFault := false, trial := false, hostConf := false, faulted := false
                                    stage := 2, bootRes := w.resetCode 4 } := hwarm.boot
  rw [hwb] at hub
  refine ⟨hwarm.stage.1, ?_, ?_, hwarm.img⟩
  · rw [hub]
    exact hslot
  · rw [hub]
    exact hseq

theorem State.finishActivate_idle {s : State} (h : s.mir.updReady = false) : s.finishActivate = s := by
  unfold State.finishActivate
  cases s.mir.updAct with
  | none => rfl
  | some c => exact if_neg (by rw [h]; decide)

theorem State.handNow_serving {s : State} {r : Nat} (h : s.firstServing = some r) : s.handNow = s := by
  unfold State.handNow
  cases s.mir.handover with
  | none => rfl
  | some n => exact if_neg (by rw [h]; exact Bool.false_ne_true)

/-- The handover of all requests that an activation waits for. -/
theorem State.handAll_fields {s : State} {c : Cmd} {r : Nat} (hr : s.firstServing = some r) :
    (s.handAll c).mir.updAct = some c ∧ (s.handAll c).mir.giveRids = s.heldRids ∧ (s.handAll c).boot = s.boot ∧
      (∀ g ∈ (s.handAll c).engs, g.2.fencedOut = true) ∧
      (s.leader = true → (s.handAll c).mir.handover = some (s.handStep r) ∧ (s.handAll c).mir.giving = true) ∧
      (s.leader = false → (s.handAll c).mir.handover = none ∧ (s.handAll c).mir.giving = false) := by
  unfold State.handAll
  dsimp only
  generalize s.heldRids = rids
  generalize hv : ({ s with engs := s.engs.map fun (g : Nat × Engine) => (g.1, { g.2 with fencedOut := true }) } : State) = v
  have hsv : Chg { engs := true } s v := by
    rw [← hv]
    exact .setEngs fun h => keysRise_of_keys h
  have hvengs : ∀ g ∈ v.engs, g.2.fencedOut = true := by
    rw [← hv]
    intro g hg
    obtain ⟨x, -, rfl⟩ := List.mem_map.1 hg
    rfl
  have hserve : v.firstServing = s.firstServing := hsv.firstServing_eq
  have hstep : v.handStep r = s.handStep r := by
    unfold State.handStep State.curStep
    rw [hsv.region_eq]
  have hlead : v.leader = s.leader := hsv.leader_eq
  rw [hserve, hr]
  have hbegin := State.beginHand_chg (s := v) (r := r) (rids := rids)
  have hl := State.beginHand_leader (s := v) (r := r) (rids := rids)
  have hf := State.beginHand_follower (s := v) (r := r) (rids := rids)
  show _ ∧ _
  rw [show (some r).getD 0 = r from rfl]
  generalize v.beginHand r rids = w at hbegin hl hf
  generalize hx : (w.modMir fun m => { m with updAct := some c, updReady := false }) = x
  have hwx : Chg { mir := true } w x := by
    rw [← hx]
    exact .modMir
  have hxmir : x.mir = { w.mir with updAct := some c, updReady := false } := by
    rw [← hx]
    rfl
  have hxserve : x.firstServing = some r := by
    rw [hwx.firstServing_eq, hbegin.firstServing_eq, hserve, hr]
  rw [State.handNow_serving hxserve, State.finishActivate_idle (by rw [hxmir])]
  refine ⟨by rw [hxmir], ?_, ?_, ?_, fun h => ?_, fun h => ?_⟩
  · rw [hxmir]
    cases hle : v.leader with
    | true => exact (hl hle).2.2.1
    | false => exact (hf hle).2.2.1
  · rw [hwx.boot_eq, hbegin.boot_eq, hsv.boot_eq]
  · rw [hwx.engs_eq, hbegin.engs_eq]
    exact hvengs
  · obtain ⟨h1, h2, -, -⟩ := hl (hlead.trans h)
    rw [hxmir, ← hstep]
    exact ⟨h1, h2⟩
  · obtain ⟨h1, h2, -, -⟩ := hf (hlead.trans h)
    rw [hxmir]
    exact ⟨h1, h2⟩

theorem execUpdActivate_eq {s : State} {c : Cmd} {sigOk : Bool} (h : s.begins (.updActivate c sigOk) c 0x0302 false) {st : Nat}
    (hst : (s.popCmd c).updCheck (s.popCmd c).stageOut = st) :
    let p := s.popCmd c
    (st ≠ 0 → Answers (.updActivate c sigOk) c s fun u => Completed s u c 0x0302 st ∧ u.boot = s.boot) ∧
    (∀ i, st = 0 → s.boot.staged = some i →
      let f := s.boot.slot i
      let good := p.manPasses f.manifest sigOk && f.partsOk
      (good = false → Answers (.updActivate c sigOk) c s fun u => Completed s u c 0x0302 0x00A6 ∧ u.boot = s.boot) ∧
      (good = true → p.heldRids = [] → s.pwr.stage = true → 2 ≤ s.boot.stage →
        Answers (.updActivate c sigOk) c s fun u =>
          u.boot.stage = 2 ∧ u.boot.slot i = { f with state := 3, tried := false } ∧ u.boot.seq = s.boot.seq + 1 ∧ u.img = none) ∧
      (good = true → p.heldRids ≠ [] → s.pairState ≠ 4 ∨ s.handing = true →
        Answers (.updActivate c sigOk) c s fun u => Completed s u c 0x0302 0x00A7 ∧ u.boot = s.boot) ∧
      (good = true → p.heldRids ≠ [] → s.pairState = 4 → s.handing = false → ∀ r, p.firstServing = some r →
        Answers (.updActivate c sigOk) c s fun u =>
          u.mir.updAct = some c ∧ u.mir.giveRids = p.heldRids ∧ u.boot = s.boot ∧ (∀ g ∈ u.engs, g.2.fencedOut = true) ∧
          (p.leader = true → u.mir.handover = some (p.handStep r) ∧ u.mir.giving = true) ∧
          (p.leader = false → u.mir.handover = none ∧ u.mir.giving = false))) := by
  intro p
  have hexec := h.exec_eq (f := _) rfl
  dsimp only at hexec
  rw [hst] at hexec
  refine ⟨fun hne => ?_, fun i hz hi => ?_⟩
  · rw [if_pos hne] at hexec
    exact h.refusedBoot (by decide) hexec
  intro f good
  have hboot : (s.popCmd c).boot = s.boot := rfl
  rw [if_neg (fun hh => hh hz), hboot, hi] at hexec
  dsimp only at hexec
  have hpair : (s.popCmd c).pairState = s.pairState := rfl
  have hhand : (s.popCmd c).handing = s.handing := rfl
  rw [hpair, hhand] at hexec
  refine ⟨fun hg => ?_, fun hg hrids hs h2 => ?_, fun hg hrids hor => ?_, fun hg hrids h4 hh r hr => ?_⟩
  · rw [if_pos (by show (!good) = true; rw [hg]; rfl)] at hexec
    exact h.refusedBoot (by decide) hexec
  · rw [if_neg (by show ¬ (!good) = true; rw [hg]; decide), if_pos (List.isEmpty_iff.2 hrids)] at hexec
    exact ⟨_, hexec, State.activate_fields (s := s.popCmd c) hi hs h2⟩
  · rw [if_neg (by show ¬ (!good) = true; rw [hg]; decide), if_neg (fun hh => hrids (List.isEmpty_iff.1 hh)), if_pos hor] at hexec
    exact h.refusedBoot (by decide) hexec
  · rw [if_neg (by show ¬ (!good) = true; rw [hg]; decide), if_neg (fun hh => hrids (List.isEmpty_iff.1 hh)),
      if_neg (by rintro (hn | hn); exact hn h4; rw [hh] at hn; cases hn)] at hexec
    exact ⟨_, hexec, State.handAll_fields hr⟩

theorem execUpdAbort_eq {s : State} {c : Cmd} (h : s.begins (.updAbort c) c 0x0303 false) :
    (∀ i, s.boot.staged = some i →
      Answers (.updAbort c) c s fun u =>
        Completed s u c 0x0303 0 ∧ u.boot.slot i = { s.boot.slot i with state := 0 } ∧ u.boot.seq = s.boot.seq + 1) ∧
    (s.boot.staged = none → Answers (.updAbort c) c s fun u => Completed s u c 0x0303 0x00A4 ∧ u.boot = s.boot) := by
  have hexec := h.exec_eq (f := _) rfl
  have hboot : (s.popCmd c).boot = s.boot := rfl
  rw [hboot] at hexec
  refine ⟨fun i hi => ?_, fun hi => ?_⟩
  · rw [hi] at hexec
    dsimp only at hexec
    rw [State.modSlot_withBoot, State.writeRecord_withBoot, hboot] at hexec
    obtain ⟨h1, h2⟩ := h.boots (st := 0) (by decide) (s.boot.modSlot i fun f => { f with state := 0 }).writeBack
    obtain ⟨w1, -, -, w4, -, -⟩ := (s.boot.modSlot i fun f => { f with state := 0 }).writeBack_fields
    refine ⟨_, hexec, h1, ?_⟩
    rw [h2, w1, w4]
    exact ⟨(Boot.modSlot_fields _ _ (Boot.staged_lt hi)).1, congrArg (· + 1) (Boot.modSlot_seq _ _ _)⟩
  · rw [hi] at hexec
    exact h.refusedBoot (by decide) hexec

theorem execUpdConfirm_eq {s : State} {c : Cmd} (h : s.begins (.updConfirm c) c 0x0304 false) :
    (s.boot.trial = true → Answers (.updConfirm c) c s fun u => Completed s u c 0x0304 0 ∧ u.boot = { s.boot with hostConf := true }) ∧
    (s.boot.trial = false → Answers (.updConfirm c) c s fun u => Completed s u c 0x0304 0x00A4 ∧ u.boot = s.boot) := by
  have hexec := h.exec_eq (f := _) rfl
  have hboot : (s.popCmd c).boot = s.boot := rfl
  rw [hboot] at hexec
  refine ⟨fun ht => ?_, fun ht => ?_⟩
  · rw [if_pos ht] at hexec
    obtain ⟨h1, h2⟩ := h.boots (st := 0) (by decide) { s.boot with hostConf := true }
    exact ⟨_, hexec, h1, h2⟩
  · rw [if_neg (by rw [ht]; decide)] at hexec
    exact h.refusedBoot (by decide) hexec

/-- Settles O52: the first failing check of each update command, staging, blocks, activation, abort and confirmation. -/
theorem firmwareUpdates : Obligations.FirmwareUpdates := by
  unfold Obligations.FirmwareUpdates
  intro s c p
  refine ⟨?_, ?_, ?_, ?_, ?_⟩
  · exact fun addr len sigOk h => execUpdBegin_eq h rfl
  · exact fun block crc addr h => execUpdBlock_eq h rfl
  · exact fun sigOk h => execUpdActivate_eq h rfl
  · exact execUpdAbort_eq
  · exact execUpdConfirm_eq

end Sys2Proof.Machine
end

section
/-!
ATTEST, POLICY and OWNER_SET (R616, R617, R619).
-/
namespace Sys2Proof.Machine
set_option Elab.async false

/-! ## ATTEST, POLICY and OWNER_SET (R616, R617, R619) -/

/-- The state with another host memory. -/
def State.withHost (s : State) (m : List Host.Cell) : State := { s with hostMem := m }

theorem State.withHost_chg {s : State} {m : List Host.Cell} (h : memWf s.hostMem = true → memWf m = true) : Chg { hostMem := true } s (s.withHost m) :=
  .setHostMem h

theorem Chg.ringStopped_eq {P : Foot} {s u : State} (h : Chg P s u) (k : Nat) (hr : P.regs = false := by rfl) (hi : P.img = false := by rfl)
    (hf : P.fuses = false := by rfl) : u.ringStopped k = s.ringStopped k := by
  rw [State.ringStopped, h.fld_eq _ _ hr hi hf, State.ringStopped]

theorem execAttest_eq {s : State} {c : Cmd} {nonce : BitVec 256} {addr : BitVec 64} {len : BitVec 32}
    (h : s.begins (.attest c nonce addr len) c 0x0310 false) {r : List Byte}
    (hr : (s.popCmd c).report nonce ++ (List.range 17088).map (fun i => Config.sigByte (2 * s.freeCtr + 1) i) = r) :
    let p := s.popCmd c
    (len.toNat < r.length → Answers (.attest c nonce addr len) c s fun u => Completed s u c 0x0310 0x00A8 ∧ u.hostMem = s.hostMem) ∧
    (r.length ≤ len.toNat →
      (p.fwPass 0 true addr.toNat r.length = false →
        Answers (.attest c nonce addr len) c s fun u => Completed s u c 0x0310 0x0013 ∧ u.hostMem = s.hostMem) ∧
      (p.fwPass 0 true addr.toNat r.length = true → memWf s.hostMem = true →
        Answers (.attest c nonce addr len) c s fun u =>
          Completed s u c 0x0310 0 ∧ Stored s.hostMem u.hostMem addr.toNat r ∧ u.regs = s.regs)) := by
  intro p
  have hexec := h.exec_eq (f := _) rfl
  dsimp only at hexec
  have hfree : (s.popCmd c).freeCtr = s.freeCtr := rfl
  rw [hfree, hr] at hexec
  refine ⟨fun hlt => ?_, fun hle => ⟨fun hp => ?_, fun hp hmem => ?_⟩⟩
  · rw [if_pos hlt] at hexec
    exact h.refused (by decide) hexec fun _ hu => hu.hostMem_eq
  · rw [if_neg (Nat.not_lt.2 hle), if_pos (by rw [hp]; rfl)] at hexec
    exact h.refused (by decide) hexec fun _ hu => hu.hostMem_eq
  · rw [if_neg (Nat.not_lt.2 hle), if_neg (by rw [hp]; decide)] at hexec
    have hhost : (s.popCmd c).hostMem = s.hostMem := rfl
    rw [hhost] at hexec
    replace hexec : exec (.attest c nonce addr len) s =
        .next (((((s.popCmd c).withHost (wrBytes s.hostMem addr.toNat r)).freeStep 32).complete c 0x0310 0).answerAll c.fn) := hexec
    have hpv : Chg { hostMem := true, freeCtr := true } (s.popCmd c) (((s.popCmd c).withHost (wrBytes s.hostMem addr.toNat r)).freeStep 32) :=
      .via (.mono (State.withHost_chg fun hm => memWf_wrBytes _ _ hmem)) State.freeStep_chg
    have hvh : (((s.popCmd c).withHost (wrBytes s.hostMem addr.toNat r)).freeStep 32).hostMem = wrBytes s.hostMem addr.toNat r := rfl
    generalize ((s.popCmd c).withHost (wrBytes s.hostMem addr.toNat r)).freeStep 32 = v at hexec hpv hvh
    have hend : Chg { fns := true } v (v.complete c 0x0310 0) := State.complete_fns (by decide)
    have hring : v.ringStopped c.fn = s.ringStopped c.fn := (hpv.ringStopped_eq c.fn).trans (s.ringStopped_popCmd c _)
    have hcpl : (v.func c.fn).cpls = (s.func c.fn).cpls := by rw [hpv.func_eq]; exact s.cpls_popCmd c _
    refine ⟨_, hexec, h.completes (by decide) hring hcpl, ?_, hend.regs_eq.trans hpv.regs_eq⟩
    rw [hend.hostMem_eq, hvh]
    exact stored_wrBytes _ _ hmem

theorem State.policyRegs_seq (s : State) : s.policyRegs.fld F.secPolicy_seq 0 = manAt s.boot.policy 8 4 := by
  have hlt : manAt s.boot.policy 8 4 < 2 ^ 32 :=
    Nat.lt_of_lt_of_le (leNat_lt _) (Nat.le_trans (Nat.pow_le_pow_right (by decide) (List.length_take_le 4 _)) (by decide))
  have hset (v : State) (n a b : Nat) (hn : n < 2 ^ 32) :
      (((v.setFld F.secPolicy_seq 0 n).setFld F.secPolicy_reqsign 0 a).setFld F.secPolicy_lock 0 b).fld F.secPolicy_seq 0 = n := by
    rw [State.fld_setFld_bits _ (by decide), State.fld_setFld_bits _ (by decide)]
    exact State.fld_setFld_eq _ (by decide) hn
  have hlist (l : List Nat) (hl : ∀ i ∈ l, i < 128) (b : List Byte) (v : State) : RegsKept [.hstFwbase, .hstFwlim] v (l.foldl (fun s i =>
      (s.rwWrite .hstFwbase i (manAt b (0x10 + 16 * i) 8)).rwWrite .hstFwlim i (manAt b (0x18 + 16 * i) 8)) v) := by
    induction l generalizing v with
    | nil => exact .refl
    | cons i l ih =>
      have hi : i < 2 ^ 32 := Nat.lt_trans (hl i (List.mem_cons_self ..)) (by decide)
      refine .trans ?_ (ih (fun j hj => hl j (List.mem_cons_of_mem _ hj)) _)
      exact .trans (.setReg hi (by decide)) (.setReg hi (by decide))
  unfold State.policyRegs
  dsimp only
  generalize (if s.fuses.ownset then manAt s.boot.policy 6 2 else 0) = fl
  have hx := hset s (manAt s.boot.policy 8 4) (bits fl 0 0) (max (bits fl 1 1) (b2n s.fuses.ownlock)) hlt
  generalize (((s.setFld F.secPolicy_seq 0 (manAt s.boot.policy 8 4)).setFld F.secPolicy_reqsign 0 (bits fl 0 0)).setFld
    F.secPolicy_lock 0 (max (bits fl 1 1) (b2n s.fuses.ownlock))) = x at hx ⊢
  by_cases hc : (s.boot.policy.isEmpty || x.fuses.hostset) = true
  · rw [if_pos hc]
    exact hx
  · rw [if_neg hc, (hlist _ (fun i hi => List.mem_range.1 hi) _ _).fld _ _ (by decide) (by decide)]
    exact hx

theorem State.ringStopped_fuses {s u : State} (hr : u.regs = s.regs) (k : Nat) : u.ringStopped k = s.ringStopped k := by
  have hreset : regReset u .hstRingstat k = regReset s .hstRingstat k := rfl
  have hreg : u.reg .hstRingstat k = s.reg .hstRingstat k := by
    rw [State.reg, State.reg, hr, hreset]
  unfold State.ringStopped State.fld
  rw [show F.hstRingstat_state.kind = .hstRingstat from rfl, hreg]

/-- A policy accepted: it is installed, its registers and fuses follow it. -/
theorem State.setPolicy_accepted {s : State} {b : List Byte} {sigOk : Bool} (h : s.policyOk b sigOk = true) :
    (s.setPolicy b sigOk).2 = 0 ∧ (s.setPolicy b sigOk).1.boot.policy = b ∧ (s.setPolicy b sigOk).1.fld F.secPolicy_seq 0 = manAt b 8 4 ∧
      (s.setPolicy b sigOk).1.fuses.ownlock = (s.fuses.ownlock || bits (manAt b 6 2) 2 2 == 1) ∧
      (s.setPolicy b sigOk).1.fuses.debugdis = (s.fuses.debugdis || bits (manAt b 6 2) 3 3 == 1) ∧
      s.CplsKept (s.setPolicy b sigOk).1 ∧ ∀ k < 16, (s.setPolicy b sigOk).1.ringStopped k = s.ringStopped k := by
  unfold State.setPolicy
  rw [if_pos h]
  dsimp only
  generalize hv : ({ s with
      fuses := { s.fuses with ownlock := s.fuses.ownlock || bits (manAt b 6 2) 2 2 == 1, debugdis := s.fuses.debugdis || bits (manAt b 6 2) 3 3 == 1 }
      boot := { s.boot with policy := b } } : State) = v
  have hvf : v.boot.policy = b ∧ v.fuses.ownlock = (s.fuses.ownlock || bits (manAt b 6 2) 2 2 == 1) ∧
      v.fuses.debugdis = (s.fuses.debugdis || bits (manAt b 6 2) 3 3 == 1) ∧ v.regs = s.regs ∧ v.fns = s.fns := by
    rw [← hv]
    exact ⟨rfl, rfl, rfl, rfl, rfl⟩
  obtain ⟨v1, v2, v3, v4, v5⟩ := hvf
  have hseq := v.policyRegs_seq
  have hregs := v.policyRegs_regs
  have hvw : Chg { regs := true } v v.policyRegs := State.policyRegs_chg
  generalize v.policyRegs = w at hseq hregs hvw
  refine ⟨rfl, ?_, ?_, ?_, ?_, fun k => ?_, fun k hk => ?_⟩
  · rw [State.event_chg.boot_eq, hvw.boot_eq, v1]
  · rw [State.fld_event _ _ _ _ _ (by decide) (by decide), hseq, v1]
  · rw [State.event_chg.fuses_eq, hvw.fuses_eq, v2]
  · rw [State.event_chg.fuses_eq, hvw.fuses_eq, v3]
  · rw [State.CplsKept.event k, hvw.func_eq, State.func, State.func, v5]
  · have hend : RegsKept [.secPolicy, .hstFwbase, .hstFwlim, .hstEvstat] v (w.event 0x02E5 8 0 [(4, manAt b 8 4)]) :=
      (hregs.mono (by decide)).trans (.event (by decide))
    rw [State.ringStopped_kept hend (by omega) (by decide)]
    exact State.ringStopped_fuses v4 k

theorem execPolicy_eq {s : State} {c : Cmd} {addr : BitVec 64} {sigOk : Bool} (h : s.begins (.policy c addr sigOk) c 0x0311 false) :
    let p := s.popCmd c
    let b := rdBytes s.hostMem addr.toNat policyBytes
    (p.fwPass 0 false addr.toNat policyBytes = false →
      Answers (.policy c addr sigOk) c s fun u => Completed s u c 0x0311 0x0013 ∧ u.boot = s.boot) ∧
    (p.fwPass 0 false addr.toNat policyBytes = true →
      (p.policyOk b sigOk = false →
        Answers (.policy c addr sigOk) c s fun u => Completed s u c 0x0311 0x00AA ∧ u.boot = s.boot ∧ u.fuses = s.fuses ∧ u.regs = s.regs) ∧
      (p.policyOk b sigOk = true →
        Answers (.policy c addr sigOk) c s fun u =>
          Completed s u c 0x0311 0 ∧ u.boot.policy = b ∧ u.fld F.secPolicy_seq 0 = manAt b 8 4 ∧
          u.fuses.ownlock = (s.fuses.ownlock || bits (manAt b 6 2) 2 2 == 1) ∧
          u.fuses.debugdis = (s.fuses.debugdis || bits (manAt b 6 2) 3 3 == 1))) := by
  intro p b
  have hexec := h.exec_eq (f := _) rfl
  dsimp only at hexec
  have hhost : (s.popCmd c).hostMem = s.hostMem := rfl
  rw [hhost] at hexec
  refine ⟨fun hp => ?_, fun hp => ⟨fun hok => ?_, fun hok => ?_⟩⟩
  · rw [if_pos (by rw [hp]; rfl)] at hexec
    exact h.refusedBoot (by decide) hexec
  · rw [if_neg (by rw [hp]; decide), State.setPolicy, if_neg (by rw [hok]; decide)] at hexec
    exact h.refused (by decide) hexec fun _ hu => ⟨hu.boot_eq, hu.fuses_eq, hu.regs_eq⟩
  · rw [if_neg (by rw [hp]; decide)] at hexec
    obtain ⟨p1, p2, p3, p4, p5, p6, p7⟩ := State.setPolicy_accepted hok
    rw [p1] at hexec
    have hfuses : (s.popCmd c).fuses = s.fuses := rfl
    rw [hfuses] at p4 p5
    generalize ((s.popCmd c).setPolicy b sigOk).1 = v at hexec p2 p3 p4 p5 p6 p7
    have hend : Chg { fns := true } v (v.complete c 0x0311 0) := State.complete_fns (by decide)
    have hfn : c.fn < 16 := h.fn_zero rfl ▸ (by decide)
    refine ⟨_, hexec, h.completes (by decide) ((p7 _ hfn).trans (s.ringStopped_popCmd c _)) ((p6 _).trans (s.cpls_popCmd c _)), ?_, ?_, ?_, ?_⟩
    · rw [hend.boot_eq, p2]
    · rw [hend.fld_eq, p3]
    · rw [hend.fuses_eq, p4]
    · rw [hend.fuses_eq, p5]

/-- The owner's key fused. -/
def State.owned (s : State) (hash : BitVec 256) : State := { s with fuses := { s.fuses with ownkey := hash, ownset := true } }

theorem State.setOwner_eq (s : State) (hash : BitVec 256) : s.setOwner hash = if s.fuses.ownset then (s, 0x00AB) else (s.owned hash, 0) := rfl

theorem execOwnerSet_eq {s : State} {c : Cmd} {hash : BitVec 256} (h : s.begins (.ownerSet c hash) c 0x0312 false) :
    (s.fuses.ownset = true → Answers (.ownerSet c hash) c s fun u => Completed s u c 0x0312 0x00AB ∧ u.fuses = s.fuses) ∧
    (s.fuses.ownset = false → Answers (.ownerSet c hash) c s fun u =>
      Completed s u c 0x0312 0 ∧ u.fuses = { s.fuses with ownkey := hash, ownset := true }) := by
  have hexec := h.exec_eq (f := _) rfl
  dsimp only at hexec
  have hfuses : (s.popCmd c).fuses = s.fuses := rfl
  rw [State.setOwner_eq, hfuses] at hexec
  refine ⟨fun hset => ?_, fun hset => ?_⟩
  · rw [if_pos hset] at hexec
    exact h.refused (by decide) hexec fun _ hu => hu.fuses_eq
  · rw [if_neg (by rw [hset]; decide)] at hexec
    have hring : ((s.popCmd c).owned hash).ringStopped c.fn = s.ringStopped c.fn := State.ringStopped_fuses rfl _
    exact ⟨_, hexec, h.completes (by decide) hring (s.cpls_popCmd c _), (State.complete_fns (by decide)).fuses_eq⟩

/-- Settles O53: ATTEST, POLICY and OWNER_SET. -/
theorem trustCommands : Obligations.TrustCommands := by
  unfold Obligations.TrustCommands
  intro s c p
  refine ⟨?_, ?_, ?_⟩
  · exact fun nonce addr len h => execAttest_eq h rfl
  · exact fun addr sigOk h => execPolicy_eq h
  · exact fun hash h => execOwnerSet_eq h

end Sys2Proof.Machine
end

section
/-!
The management bus (R594, R597, R617, R642 to R645).
-/
namespace Sys2Proof.Machine
set_option Elab.async false

/-! ### A response on the management bus (R643, R644) -/

/-- The command `i` gives Milug's response `status` with `data`, and leaves a state with `P`. -/
def State.Says (s : State) (i : Instr) (status : Nat) (data : List Byte) (P : State → Prop) : Prop :=
  Yields i s fun u => u.milug.resp = s.milug.resp ++ [(status, data)] ∧ P u

theorem State.bus_up {s : State} (h : s.milug.up = true) (f : State → State) : s.bus f = f s := if_pos h

theorem State.bus_down {s : State} (h : s.milug.up = false) (f : State → State) : s.bus f = s := if_neg (by rw [h]; exact Bool.false_ne_true)

theorem State.respond_milug (s : State) (status : Nat) (data : List Byte) :
    (s.respond status data).milug = { s.milug with resp := s.milug.resp ++ [(status, data)] } := rfl

theorem State.Says.of {s v : State} {i : Instr} {status : Nat} {data : List Byte} {P : State → Prop}
    (hexec : exec i s = .next (v.respond status data)) (hv : v.milug.resp = s.milug.resp)
    (hP : ∀ u, u.milug = { v.milug with resp := v.milug.resp ++ [(status, data)] } → Chg { milug := true } v u → P u) : s.Says i status data P :=
  ⟨_, hexec, by rw [State.respond_milug]; exact congrArg (· ++ _) hv, hP _ rfl State.respond_chg⟩

/-- A command refused: nothing but the response. -/
theorem State.Says.same {s : State} {i : Instr} {status : Nat} {data : List Byte} {P : State → Prop}
    (hexec : exec i s = .next (s.respond status data)) (hP : ∀ u, Chg { milug := true } s u → P u) : s.Says i status data P :=
  .of hexec rfl fun u _ hu => hP u hu

/-! ### Before Milug runs -/

theorem exec_bus_down {s : State} (h : s.milug.up = false) {i : Instr}
    (hi : i ∈ [Instr.ident, .telem, .reset, .fault, .alertack] ∨ (∃ id, i = .setId id) ∨ (∃ n, i = .power n) ∨
      (∃ h, i = .milugOwnerSet h) ∨ (∃ o d, i = .policyData o d) ∨ (∃ k, i = .policyCommit k)) : exec i s = .next s := by
  have hdown (f : State → State) : Host.Outcome.next (s.bus f) = (.next s : Host.Outcome State Fault Refusal) := congrArg _ (State.bus_down h f)
  rcases hi with hi | ⟨_, rfl⟩ | ⟨_, rfl⟩ | ⟨_, rfl⟩ | ⟨_, _, rfl⟩ | ⟨_, rfl⟩
  · simp only [List.mem_cons, List.not_mem_nil, or_false] at hi
    rcases hi with rfl | rfl | rfl | rfl | rfl
    all_goals exact hdown _
  all_goals exact hdown _

/-! ### What SET_ID and POWER leave -/

/-- Firmware writes FAB_ID, and no port stays blocked. -/
def State.withFabId (s : State) (id : Nat) : State :=
  let s := (s.setFld F.fabId_id 0 id).setFld F.fabId_valid 0 1
  { s with links := s.links.map fun (l : Nat × Link) => (l.1, { l.2 with blocked := false }) }

theorem State.withFabId_fields (s : State) {id : Nat} (hid : id < 2 ^ 20) :
    (s.withFabId id).milug = s.milug ∧ (s.withFabId id).fld F.fabId_id 0 = id ∧ (s.withFabId id).fld F.fabId_valid 0 = 1 := by
  have hset : Chg { regs := true } s ((s.setFld F.fabId_id 0 id).setFld F.fabId_valid 0 1) := .via .setFld .setFld
  have hval : ((s.setFld F.fabId_id 0 id).setFld F.fabId_valid 0 1).fld F.fabId_valid 0 = 1 := State.fld_setFld_eq _ (by decide) (by decide)
  have hnum : ((s.setFld F.fabId_id 0 id).setFld F.fabId_valid 0 1).fld F.fabId_id 0 = id := by
    rw [State.fld_setFld_bits _ (by decide)]
    exact State.fld_setFld_eq _ (by decide) hid
  unfold State.withFabId
  generalize (s.setFld F.fabId_id 0 id).setFld F.fabId_valid 0 1 = v at hset hval hnum
  have hlinks : Chg { links := true } v { v with links := v.links.map fun (l : Nat × Link) => (l.1, { l.2 with blocked := false }) } := .setLinks fun h => keysRise_of_keys h
  exact ⟨hlinks.milug_eq.trans hset.milug_eq, (hlinks.fld_eq _ _).trans hnum, (hlinks.fld_eq _ _).trans hval⟩

/-- The main supply is asked for: what kept it off is forgotten. -/
def State.askedOn (s : State) : State := s.modPwr fun p => { p with off := false, offOver := false, latched := false, restarts := [] }

/-- What the supply asked for brings: the rails, unless the power stage is on, or defect. -/
theorem State.askedOn_supplyOn (s : State) (v : State) (hv : v = if s.boot.stage = 1 ∧ s.pwr.stage = false then s.askedOn.supplyOn else s.askedOn) :
    v.milug.resp = s.milug.resp ∧ v.pwr.off = false ∧ v.pwr.latched = false ∧ v.pwr.restarts = [] ∧
      (s.boot.stage = 1 → s.pwr.stage = false → s.pwr.defect = false → v.boot.stage = 2 ∧ v.pwr.stage = true ∧ v.pwr.rails = s.railsOn) := by
  by_cases hon : s.boot.stage = 1 ∧ s.pwr.stage = false
  · rw [if_pos hon] at hv
    cases hd : s.pwr.defect with
    | true =>
      rw [State.supplyOn, if_pos (show s.askedOn.pwr.defect = true from hd)] at hv
      subst hv
      exact ⟨rfl, rfl, rfl, rfl, fun _ _ hne => absurd hne (by decide)⟩
    | false =>
      rw [State.supplyOn, if_neg (show ¬ s.askedOn.pwr.defect = true by show ¬ s.pwr.defect = true; rw [hd]; decide)] at hv
      subst hv
      exact ⟨rfl, rfl, rfl, rfl, fun _ _ _ => ⟨rfl, rfl, rfl⟩⟩
  · rw [if_neg hon] at hv
    subst hv
    exact ⟨rfl, rfl, rfl, rfl, fun h1 h2 _ => absurd ⟨h1, h2⟩ hon⟩

/-! ### IDENT, TELEM, FAULT and ALERTACK -/

section Up
variable {s : State} (h : s.milug.up = true)
include h

theorem execIdent_says : s.Says .ident 0 (leBytes 1 (if s.fuses.grade then 0x0B else 0x0A) ++ leBytes 1 s.fuses.stepping
    ++ leBytes 8 Config.serial.toNat ++ leBytes 1 s.fuses.svn ++ leBytes 4 (s.reg .fabId 0)) (fun u => u.regs = s.regs ∧ u.boot = s.boot) := by
  have hexec : exec .ident s = execIdent s := rfl
  rw [execIdent, State.bus_up h] at hexec
  exact .same hexec fun u hu => ⟨hu.regs_eq, hu.boot_eq⟩

theorem execTelem_says : s.Says .telem 0 (leBytes 8 s.pwrInputWord ++ leBytes 2 (bits s.thermWord 55 42) ++ leBytes 4 (s.reg .clkState 0))
    (fun u => u.regs = s.regs ∧ u.pwr = s.pwr) := by
  have hexec : exec .telem s = execTelem s := rfl
  rw [execTelem, State.bus_up h] at hexec
  exact .same hexec fun u hu => ⟨hu.regs_eq, hu.pwr_eq⟩

theorem execFault_says : s.Says .fault 0 (leBytes 4 (s.reg .secFault 0) ++ leBytes 8 (s.reg .secBootstat 0)
    ++ leBytes 1 (b2n s.milug.fw + 2 * b2n s.milug.supplyFail)) (fun u => u.regs = s.regs ∧ u.boot = s.boot) := by
  have hexec : exec .fault s = execFault s := rfl
  rw [execFault, State.bus_up h] at hexec
  exact .same hexec fun u hu => ⟨hu.regs_eq, hu.boot_eq⟩

theorem execAlertack_says : s.Says .alertack 0 [] (fun u => u.milug.alert = false ∧ u.regs = s.regs) := by
  have hexec : exec .alertack s = execAlertack s := rfl
  rw [execAlertack, State.bus_up h] at hexec
  exact .of hexec rfl fun u hm hu => ⟨by rw [hm]; rfl, hu.regs_eq⟩

/-! ### SET_ID (R395, R396) -/

theorem execSetId_held {id : BitVec 20} (hf : s.boot.firmware = false) :
    s.Says (.setId id) 0 [] fun u => u.milug.heldId = some id ∧ u.regs = s.regs := by
  have hexec : exec (.setId id) s = execSetId id s := rfl
  rw [execSetId, State.bus_up h, if_pos (by rw [hf]; rfl)] at hexec
  exact .of hexec rfl fun u hm hu => ⟨by rw [hm]; rfl, hu.regs_eq⟩

theorem execSetId_written {id : BitVec 20} (hf : s.boot.firmware = true) (hp : ∀ p < 32, s.portState p ≤ 1) :
    s.Says (.setId id) 0 [] fun u => u.fld F.fabId_id 0 = id.toNat ∧ u.fld F.fabId_valid 0 = 1 := by
  have hexec : exec (.setId id) s = execSetId id s := rfl
  rw [execSetId, State.bus_up h, if_neg (by rw [hf]; decide),
    if_pos (List.all_eq_true.2 fun p hmem => decide_eq_true (hp p (List.mem_range.1 hmem)))] at hexec
  replace hexec : exec (.setId id) s = .next ((s.withFabId id.toNat).respond 0 []) := hexec
  obtain ⟨h1, h2, h3⟩ := s.withFabId_fields id.isLt
  exact .of hexec (congrArg Milug.resp h1) fun u _ hu => ⟨(hu.fld_eq _ _).trans h2, (hu.fld_eq _ _).trans h3⟩

theorem execSetId_refused {id : BitVec 20} (hf : s.boot.firmware = true) (hp : ∃ p < 32, 1 < s.portState p) :
    s.Says (.setId id) 2 [] fun u => u.reg .fabId 0 = s.reg .fabId 0 := by
  obtain ⟨p, hp, hup⟩ := hp
  have hexec : exec (.setId id) s = execSetId id s := rfl
  rw [execSetId, State.bus_up h, if_neg (by rw [hf]; decide),
    if_neg (fun hall => Nat.not_le.2 hup (of_decide_eq_true (List.all_eq_true.1 hall p (List.mem_range.2 hp))))] at hexec
  have hev : Chg { fns := true, regs := true } s (s.event 0x0290 8 0 []) := State.event_chg
  have hreg : RegsKept [.hstEvstat] s (s.event 0x0290 8 0 []) := .event (by decide)
  exact .of hexec (congrArg Milug.resp hev.milug_eq) fun u _ hu => (hu.reg_eq _ _).trans (hreg _ _ (by decide) (by decide))

/-! ### POWER and RESET (R594, R597, R645) -/

theorem execPower_off : s.Says (.power 0) 0 [] fun u => u.pwr.stage = false ∧ u.pwr.off = true ∧ u.boot.stage = min s.boot.stage 1 ∧ u.img = none := by
  have hexec : exec (.power 0) s = execPower 0 s := rfl
  rw [execPower, State.bus_up h, if_pos rfl] at hexec
  obtain ⟨h1, -, h3, -, h5, -, -⟩ := s.mainOff_fields 0
  have hm : (s.mainOff 0).milug = s.milug := rfl
  generalize s.mainOff 0 = v at hexec h1 h3 h5 hm
  exact .of hexec (congrArg Milug.resp hm) fun u _ hu => ⟨by rw [hu.pwr_eq]; exact h1, by rw [hu.pwr_eq]; rfl, by rw [hu.boot_eq]; exact h3, by rw [hu.img_eq]; exact h5⟩

theorem execPower_outside (hw : s.inWindow = false) : s.Says (.power 1) 2 [] fun u => u.pwr = s.pwr ∧ u.boot = s.boot := by
  have hexec : exec (.power 1) s = execPower 1 s := rfl
  rw [execPower, State.bus_up h, if_neg (by decide), if_pos rfl, if_pos (by rw [hw]; rfl)] at hexec
  exact .same hexec fun u hu => ⟨hu.pwr_eq, hu.boot_eq⟩

theorem execPower_on (hw : s.inWindow = true) : s.Says (.power 1) 0 [] fun u =>
    u.pwr.off = false ∧ u.pwr.latched = false ∧ u.pwr.restarts = [] ∧
    (s.boot.stage = 1 → s.pwr.stage = false → s.pwr.defect = false → u.boot.stage = 2 ∧ u.pwr.stage = true ∧ u.pwr.rails = s.railsOn) := by
  have hexec : exec (.power 1) s = execPower 1 s := rfl
  rw [execPower, State.bus_up h, if_neg (by decide), if_pos rfl, if_neg (by rw [hw]; decide)] at hexec
  obtain ⟨v, hv, hexec⟩ : ∃ v, v = (if s.boot.stage = 1 ∧ s.pwr.stage = false then s.askedOn.supplyOn else s.askedOn) ∧
    exec (.power 1) s = .next (v.respond 0 []) := ⟨_, rfl, hexec⟩
  obtain ⟨h1, h2, h3, h4, h5⟩ := s.askedOn_supplyOn v hv
  refine .of hexec h1 fun u _ hu => ?_
  rw [hu.pwr_eq, hu.boot_eq]
  exact ⟨h2, h3, h4, h5⟩

theorem execPower_other {n : BitVec 8} (h0 : n ≠ 0) (h1 : n ≠ 1) : s.Says (.power n) 3 [] fun u => u.pwr = s.pwr ∧ u.boot = s.boot := by
  have hexec : exec (.power n) s = execPower n s := rfl
  rw [execPower, State.bus_up h, if_neg h0, if_neg h1] at hexec
  exact .same hexec fun u hu => ⟨hu.pwr_eq, hu.boot_eq⟩

theorem execReset_off (hs : s.pwr.stage = false) : s.Says .reset 2 [] fun u => u.boot = s.boot ∧ u.regs = s.regs := by
  have hexec : exec .reset s = execReset s := rfl
  rw [execReset, State.bus_up h, State.mainOn, if_neg (by rw [hs]; decide)] at hexec
  exact .same hexec fun u hu => ⟨hu.boot_eq, hu.regs_eq⟩

theorem execReset_on (hs : s.pwr.stage = true) (h2 : 2 ≤ s.boot.stage) :
    s.Says .reset 0 [] fun u => u.boot.stage = 2 ∧ u.img = none ∧ (s.boot.stage ≠ 2 → u.boot.bootRes = 6) := by
  have hexec : exec .reset s = execReset s := rfl
  rw [execReset, State.bus_up h, State.mainOn, if_pos hs] at hexec
  have hwarm := State.warmReset_warm (cause := 6) hs h2
  obtain ⟨h1, -, -, h4, -, -⟩ := hwarm.stage
  refine .of hexec (congrArg Milug.resp hwarm.milug) fun u _ hu => ⟨?_, ?_, fun hne => ?_⟩
  · rw [hu.boot_eq, h1]
  · rw [hu.img_eq, hwarm.img]
  · rw [hu.boot_eq, h4]
    exact State.resetCode_eq (.inl hne)

/-! ### OWNER_SET, POLICY_DATA and POLICY_COMMIT (R617) -/

theorem execMilugOwnerSet_refused {hash : BitVec 256} (hno : s.fuses.ownset = true ∨ s.pwr.stage = false) :
    s.Says (.milugOwnerSet hash) 2 [] fun u => u.fuses = s.fuses := by
  have hexec : exec (.milugOwnerSet hash) s = execMilugOwnerSet hash s := rfl
  have hc : (s.fuses.ownset || !s.mainOn) = true := by
    rcases hno with hno | hno
    · rw [hno, Bool.true_or]
    · rw [State.mainOn, hno, Bool.not_false, Bool.or_true]
  rw [execMilugOwnerSet, State.bus_up h, if_pos hc] at hexec
  exact .same hexec fun u hu => hu.fuses_eq

theorem execMilugOwnerSet_set {hash : BitVec 256} (hset : s.fuses.ownset = false) (hs : s.pwr.stage = true) :
    s.Says (.milugOwnerSet hash) 0 [] fun u => u.fuses = { s.fuses with ownkey := hash, ownset := true } := by
  have hexec : exec (.milugOwnerSet hash) s = execMilugOwnerSet hash s := rfl
  rw [execMilugOwnerSet, State.bus_up h, if_neg (by rw [State.mainOn, hset, hs]; decide), State.setOwner_eq,
    if_neg (by rw [hset]; decide)] at hexec
  exact .of (v := s.owned hash) hexec rfl fun u _ hu => hu.fuses_eq

theorem execPolicyData_refused {off : BitVec 16} {data : List Byte} (hno : data.length = 0 ∨ 192 < data.length ∨ policyBytes < off.toNat + data.length) :
    s.Says (.policyData off data) 3 [] fun u => u.milug.staging = s.milug.staging := by
  have hexec : exec (.policyData off data) s = execPolicyData off data s := rfl
  rw [execPolicyData, State.bus_up h, if_pos hno] at hexec
  exact .of hexec rfl fun u hm _ => by rw [hm]

theorem execPolicyData_stored {off : BitVec 16} {data : List Byte} (h0 : 0 < data.length) (hlen : data.length ≤ 192)
    (hend : off.toNat + data.length ≤ policyBytes) (hmem : memWf s.milug.staging = true) :
    s.Says (.policyData off data) 0 [] fun u => Stored s.milug.staging u.milug.staging off.toNat data := by
  have hexec : exec (.policyData off data) s = execPolicyData off data s := rfl
  rw [execPolicyData, State.bus_up h, if_neg (by omega)] at hexec
  exact .of hexec rfl fun u hm _ => by rw [hm]; exact stored_wrBytes _ _ hmem

theorem execPolicyCommit_refused {sigOk : Bool} (hno : s.pwr.stage = false ∨ s.boot.firmware = false) :
    s.Says (.policyCommit sigOk) 2 [] fun u => u.boot = s.boot ∧ u.fuses = s.fuses := by
  have hexec : exec (.policyCommit sigOk) s = execPolicyCommit sigOk s := rfl
  have hc : (!s.mainOn || !s.boot.firmware) = true := by
    rcases hno with hno | hno
    · rw [State.mainOn, hno, Bool.not_false, Bool.true_or]
    · rw [hno, Bool.not_false, Bool.or_true]
  rw [execPolicyCommit, State.bus_up h, if_pos hc] at hexec
  exact .same hexec fun u hu => ⟨hu.boot_eq, hu.fuses_eq⟩

section Commit
variable {sigOk : Bool} (hs : s.pwr.stage = true) (hf : s.boot.firmware = true)
include hs hf

theorem execPolicyCommit_checks : exec (.policyCommit sigOk) s =
    .next ((s.setPolicy (rdBytes s.milug.staging 0 policyBytes) sigOk).1.respond 0
      (leBytes 2 (s.setPolicy (rdBytes s.milug.staging 0 policyBytes) sigOk).2)) := by
  have hexec : exec (.policyCommit sigOk) s = execPolicyCommit sigOk s := rfl
  rw [execPolicyCommit, State.bus_up h, if_neg (by rw [State.mainOn, hs, hf]; decide)] at hexec
  exact hexec

theorem execPolicyCommit_installed (hok : s.policyOk (rdBytes s.milug.staging 0 policyBytes) sigOk = true) :
    s.Says (.policyCommit sigOk) 0 (leBytes 2 0) fun u => u.boot.policy = rdBytes s.milug.staging 0 policyBytes := by
  have hexec := execPolicyCommit_checks h (sigOk := sigOk) hs hf
  generalize rdBytes s.milug.staging 0 policyBytes = b at hexec hok
  obtain ⟨p1, p2, -⟩ := State.setPolicy_accepted hok
  have hm : (s.setPolicy b sigOk).1.milug = s.milug := State.setPolicy_chg.milug_eq
  rw [p1] at hexec
  exact .of hexec (congrArg Milug.resp hm) fun u _ hu => by rw [hu.boot_eq, p2]

theorem execPolicyCommit_not_installed (hok : s.policyOk (rdBytes s.milug.staging 0 policyBytes) sigOk = false) :
    s.Says (.policyCommit sigOk) 0 (leBytes 2 0x00AA) fun u => u.boot = s.boot ∧ u.regs = s.regs := by
  have hexec := execPolicyCommit_checks h (sigOk := sigOk) hs hf
  rw [State.setPolicy, if_neg (by rw [hok]; decide)] at hexec
  exact .same hexec fun u hu => ⟨hu.boot_eq, hu.regs_eq⟩

end Commit
end Up

/-- Settles O54: nothing before Milug runs; then each command by its own lemma. -/
theorem managementBus : Obligations.ManagementBus := by
  unfold Obligations.ManagementBus
  intro s Says
  refine ⟨fun h i hi => exec_bus_down h hi, fun h => ⟨execIdent_says h, execTelem_says h, execFault_says h, execAlertack_says h, fun id =>
    ⟨execSetId_held h, execSetId_written h, execSetId_refused h⟩, execPower_off h, execPower_outside h, execPower_on h,
    fun n => execPower_other h, execReset_off h, execReset_on h, fun hash => ⟨execMilugOwnerSet_refused h, execMilugOwnerSet_set h⟩,
    fun off data => ⟨execPolicyData_refused h, execPolicyData_stored h⟩, fun sigOk => ⟨execPolicyCommit_refused h, fun hs hf =>
    ⟨execPolicyCommit_installed h hs hf, execPolicyCommit_not_installed h hs hf⟩⟩⟩⟩

end Sys2Proof.Machine
end

section
/-!
The frame of one tile (refuted).
-/
namespace Sys2Proof.Machine
set_option Elab.async false

/-- Column 2^32 of row 0: no tile of the die, yet a value of `Xy`. -/
def farTile : Xy := ⟨2 ^ 32, 0⟩

/-- A tile at `farTile` whose loop level 0 is active. -/
def farLoop : State := { State.reset with tiles := [(tIx farTile, { inInv := true, lvls := [(0, { active := true })] })] }

/-- Refutes O60: a register's key is its code times 2^32 plus its index, so the descriptor event of `dwr.c` on a tile of index 2^32,
beyond the die (the statement does not ask for `xyOk`), sets the sticky bit of TIL_DESCEVT in the key of GAL_FETCH 0. -/
theorem not_oneTileFrame : ¬ Obligations.OneTileFrame := by
  intro h
  obtain ⟨u, hu, hreg⟩ : Yields (.dwrC farTile 0 0) farLoop fun u => u.reg .galFetch 0 ≠ farLoop.reg .galFetch 0 := ⟨_, rfl, by decide +kernel⟩
  obtain ⟨-, -, hregs⟩ := h _ farTile _ _ rfl hu
  exact hreg (hregs rfl _ _ (by decide) (by decide))

end Sys2Proof.Machine
end
